-- ==== Sys2Proof/Word.lean ====
section
/-!
DEFINITION. The word types of Shadrito S24: registers are 32 bits wide (00_scope.md R5), scalar core registers are
32 bits wide (06_scalar_core.md R163), memory is addressed in bytes (00_scope.md R11).
-/
namespace Sys2Proof

/-- A register, or a scalar core word. -/
abbrev Word := BitVec 32

/-- A byte of a memory. -/
abbrev Byte := BitVec 8

/-- A half-word. -/
abbrev Half := BitVec 16

/-- A 64-bit word: command words, CSR pairs, checksums. -/
abbrev DWord := BitVec 64

end Sys2Proof
end

