-- ==== Sys2Proof/Machine/Sparse.lean ====
section
/-!
DEFINITION. Sparse maps: every register file and every memory of the model is a list of (key, value) pairs with
rising keys and no entry equal to what an unlisted key reads as, so that equal contents are equal data.
The table `d` gives what an unlisted key reads as.
-/
namespace Sys2Proof.Machine

/-- A sparse map from a natural number (a register offset, an address, an index). -/
abbrev SMap (α : Type) := List (Nat × α)

/-- The value at key `k`; `d k` where the map lists none. -/
def SMap.get {α : Type} (d : Nat → α) : SMap α → Nat → α
  | [], k => d k
  | (a, v) :: t, k => if a = k then v else SMap.get d t k

/-- Store `v` at key `k`, keeping the canonical form. -/
def SMap.put {α : Type} [DecidableEq α] (d : Nat → α) : SMap α → Nat → α → SMap α
  | [], k, v => if v = d k then [] else [(k, v)]
  | (a, w) :: t, k, v =>
    if a < k then (a, w) :: SMap.put d t k v
    else if v = d k then ((a, w) :: t).filter (fun e => e.1 ≠ k)
    else if a = k then (k, v) :: t
    else (k, v) :: (a, w) :: t

/-- The canonical form: keys rise strictly and no entry equals what an unlisted key reads as. -/
def SMap.wf {α : Type} [DecidableEq α] (d : Nat → α) : SMap α → Bool
  | [] => true
  | [(a, v)] => decide (v ≠ d a)
  | (a, v) :: (b, w) :: t => decide (v ≠ d a) && decide (a < b) && SMap.wf d ((b, w) :: t)

/-- Insert an element into a list in order, before its equals. -/
def insertBy {α : Type} (le : α → α → Bool) (x : α) : List α → List α
  | [] => [x]
  | y :: t => if le x y then x :: y :: t else y :: insertBy le x t

/-- Sort a list; equals keep their order. -/
def sortBy {α : Type} (le : α → α → Bool) (l : List α) : List α := l.foldr (insertBy le) []

/-- Replace the value at `k` by a function of it. -/
def SMap.upd {α : Type} [DecidableEq α] (d : Nat → α) (m : SMap α) (k : Nat) (f : α → α) : SMap α :=
  SMap.put d m k (f (SMap.get d m k))

/-- A byte memory: an unlisted byte reads 0 (DESIGN CHOICE, log 4). -/
abbrev Mem := SMap Byte

/-- What a byte nothing has written reads as. -/
def Mem.zero : Nat → Byte := fun _ => 0

/-- Read one byte. -/
def Mem.rd (m : Mem) (a : Nat) : Byte := SMap.get Mem.zero m a

/-- Write one byte. -/
def Mem.wr (m : Mem) (a : Nat) (b : Byte) : Mem := SMap.put Mem.zero m a b

/-- The canonical form of a byte memory. -/
def Mem.wf (m : Mem) : Bool := SMap.wf Mem.zero m

/-- Read `n` bytes upward from `a`. -/
def Mem.rdN (m : Mem) (a : Nat) : Nat → List Byte
  | 0 => []
  | n + 1 => m.rd a :: m.rdN (a + 1) n

/-- Write a list of bytes upward from `a`. -/
def Mem.wrN (m : Mem) (a : Nat) : List Byte → Mem
  | [] => m
  | b :: bs => (m.wr a b).wrN (a + 1) bs

/-- Zero every byte with `lo ≤ address < hi`: an unlisted byte reads 0, so the listed ones are removed. -/
def Mem.zeroRange (m : Mem) (lo hi : Nat) : Mem := m.filter (fun e => decide (e.1 < lo ∨ hi ≤ e.1))

/-- The number spelled by bytes, first byte least significant (00_scope.md R5: little-endian). -/
def leNat : List Byte → Nat
  | [] => 0
  | b :: bs => b.toNat + 256 * leNat bs

/-- `n` bytes of a number, least significant first. -/
def leBytes : Nat → Nat → List Byte
  | 0, _ => []
  | n + 1, v => BitVec.ofNat 8 v :: leBytes n (v / 256)

end Sys2Proof.Machine
end

