-- ==== Sys2Proof/Machine/Registers.lean ====
section
/-!
DEFINITION. The registers of the spec's register tables: one `Field` per named field, with the unit it lies in,
its offset in that unit (BAR0 layout 00_scope.md R10, 23_address_map.md R568), its bits, its strides where the table
repeats it, and its access code (00_scope.md R6). `resetWord` holds the Reset columns.
-/
namespace Sys2Proof.Machine

/-- Where a register lies: the hub's register groups, and the units that repeat. -/
inductive RegUnit where
  | frame | hub | plat | power | mon | err | ctx | pert
  | region | block | port | ring | book | vf | evc
deriving DecidableEq, Repr

/-- A register field: bits `hi:lo` of the word at `off + i * str + j * str2` of its unit. -/
structure Field where
  unit : RegUnit
  off : Nat
  hi : Nat
  lo : Nat
  str : Nat := 0
  str2 : Nat := 0
deriving DecidableEq, Repr

/-- The access codes of Table 0-6 (R6). -/
inductive Access where
  | rw | ro | wo | w1c | w1s | rws
deriving DecidableEq, Repr

/-- One row of a register table: a field, how often it repeats in each direction, its access code. -/
structure RegRow where
  field : Field
  count : Nat
  count2 : Nat
  acc : Access
deriving DecidableEq, Repr

/-! RGN_COLSKIP0: 01_dies_fields_blocks.md R25, Table 1-6. -/
abbrev RGN_COLSKIP0_SKIP0 : Field := ⟨.region, 0x104, 3, 0, 0, 0⟩
abbrev RGN_COLSKIP0_SKIP1 : Field := ⟨.region, 0x104, 7, 4, 0, 0⟩
abbrev RGN_COLSKIP0_SKIP2 : Field := ⟨.region, 0x104, 11, 8, 0, 0⟩
abbrev RGN_COLSKIP0_SKIP3 : Field := ⟨.region, 0x104, 15, 12, 0, 0⟩
abbrev RGN_COLSKIP0_SKIP4 : Field := ⟨.region, 0x104, 19, 16, 0, 0⟩
abbrev RGN_COLSKIP0_SKIP5 : Field := ⟨.region, 0x104, 23, 20, 0, 0⟩
abbrev RGN_COLSKIP0_SKIP6 : Field := ⟨.region, 0x104, 27, 24, 0, 0⟩
abbrev RGN_COLSKIP0_SKIP7 : Field := ⟨.region, 0x104, 31, 28, 0, 0⟩

/-! RGN_COLSKIP1: 01_dies_fields_blocks.md R25, Table 1-6. -/
abbrev RGN_COLSKIP1_SKIP0 : Field := ⟨.region, 0x108, 3, 0, 0, 0⟩
abbrev RGN_COLSKIP1_SKIP1 : Field := ⟨.region, 0x108, 7, 4, 0, 0⟩
abbrev RGN_COLSKIP1_SKIP2 : Field := ⟨.region, 0x108, 11, 8, 0, 0⟩
abbrev RGN_COLSKIP1_SKIP3 : Field := ⟨.region, 0x108, 15, 12, 0, 0⟩
abbrev RGN_COLSKIP1_SKIP4 : Field := ⟨.region, 0x108, 19, 16, 0, 0⟩
abbrev RGN_COLSKIP1_SKIP5 : Field := ⟨.region, 0x108, 23, 20, 0, 0⟩
abbrev RGN_COLSKIP1_SKIP6 : Field := ⟨.region, 0x108, 27, 24, 0, 0⟩
abbrev RGN_COLSKIP1_SKIP7 : Field := ⟨.region, 0x108, 31, 28, 0, 0⟩

/-! RGN_SHADOW: 11_plat.md R332, Table 11-13. -/
abbrev RGN_SHADOW_ARMED : Field := ⟨.region, 0x110, 0, 0, 0, 0⟩
abbrev RGN_SHADOW_WITHDRAWN : Field := ⟨.region, 0x110, 1, 1, 0, 0⟩
abbrev RGN_SHADOW_SBERR : Field := ⟨.region, 0x110, 2, 2, 0, 0⟩
abbrev RGN_SHADOW_STEPOK : Field := ⟨.region, 0x110, 3, 3, 0, 0⟩

/-! BLK_ID: 01_dies_fields_blocks.md R29, Table 1-8. -/
abbrev BLK_ID_LX : Field := ⟨.block, 0x0, 4, 0, 0, 0⟩
abbrev BLK_ID_LY : Field := ⟨.block, 0x0, 10, 5, 0, 0⟩
abbrev BLK_ID_DIE : Field := ⟨.block, 0x0, 12, 11, 0, 0⟩
abbrev BLK_ID_PCOL : Field := ⟨.block, 0x0, 16, 13, 0, 0⟩
abbrev BLK_ID_PNUM : Field := ⟨.block, 0x0, 29, 17, 0, 0⟩

/-! BLK_STN: 09_stations_traverses.md R273, Table 9-13. -/
abbrev BLK_STN_STATION : Field := ⟨.block, 0x4, 11, 0, 0, 0⟩
abbrev BLK_STN_PARCEL : Field := ⟨.block, 0x4, 15, 12, 0, 0⟩
abbrev BLK_STN_MEMBER : Field := ⟨.block, 0x4, 16, 16, 0, 0⟩

/-! FRM_LEN: 02_the_frame.md R35, Table 2-2. -/
abbrev FRM_LEN_LEN : Field := ⟨.frame, 0x2000, 18, 0, 0, 0⟩

/-! FRM_RES: 02_the_frame.md R35, Table 2-3. -/
abbrev FRM_RES_RES_Q : Field := ⟨.frame, 0x2004, 8, 0, 0, 0⟩

/-! FRM_PHASE: 02_the_frame.md R35, Table 2-4. -/
abbrev FRM_PHASE_PHASE : Field := ⟨.frame, 0x2008, 18, 0, 0, 0⟩

/-! FRM_CTL: 02_the_frame.md R35, Table 2-5. -/
abbrev FRM_CTL_EPOCH_ARM : Field := ⟨.frame, 0x200C, 0, 0, 0, 0⟩
abbrev FRM_CTL_EPOCH_TOL : Field := ⟨.frame, 0x200C, 15, 8, 0, 0⟩
abbrev FRM_CTL_OVR_LIMIT : Field := ⟨.frame, 0x200C, 19, 16, 0, 0⟩

/-! FRM_STAT: 02_the_frame.md R35, Table 2-6. -/
abbrev FRM_STAT_ALIGNED : Field := ⟨.frame, 0x2010, 0, 0, 0, 0⟩
abbrev FRM_STAT_REALIGNED : Field := ⟨.frame, 0x2010, 1, 1, 0, 0⟩
abbrev FRM_STAT_EPOCH_REFUSED : Field := ⟨.frame, 0x2010, 2, 2, 0, 0⟩
abbrev FRM_STAT_EPOCH_SLIP : Field := ⟨.frame, 0x2010, 3, 3, 0, 0⟩
abbrev FRM_STAT_BAD_WRITE : Field := ⟨.frame, 0x2010, 4, 4, 0, 0⟩
abbrev FRM_STAT_STEP_REFUSED : Field := ⟨.frame, 0x2010, 5, 5, 0, 0⟩
abbrev FRM_STAT_PHWRAP : Field := ⟨.frame, 0x2010, 6, 6, 0, 0⟩
abbrev FRM_STAT_SLIP : Field := ⟨.frame, 0x2010, 23, 8, 0, 0⟩

/-! FRM_NUM_LO: 02_the_frame.md R35, Table 2-7. -/
abbrev FRM_NUM_LO_NUM_LO : Field := ⟨.frame, 0x2014, 31, 0, 0, 0⟩

/-! FRM_NUM_HI: 02_the_frame.md R35, Table 2-7. -/
abbrev FRM_NUM_HI_NUM_HI : Field := ⟨.frame, 0x2018, 15, 0, 0, 0⟩

/-! FRM_POS: 02_the_frame.md R35, Table 2-8. -/
abbrev FRM_POS_POS : Field := ⟨.frame, 0x201C, 18, 0, 0, 0⟩
abbrev FRM_POS_PART : Field := ⟨.frame, 0x201C, 20, 19, 0, 0⟩

/-! BLK_ARR_MAP: 03_cell_array.md R92, Table 3-11. -/
abbrev BLK_ARR_MAP_XROW : Field := ⟨.block, 0x200, 6, 0, 0, 0⟩
abbrev BLK_ARR_MAP_XCOL : Field := ⟨.block, 0x200, 14, 8, 0, 0⟩

/-! BLK_CHK_TOL: 03_cell_array.md R92, Table 3-12. -/
abbrev BLK_CHK_TOL_TOL_EXP : Field := ⟨.block, 0x204, 4, 0, 0, 0⟩
abbrev BLK_CHK_TOL_FLOOR : Field := ⟨.block, 0x204, 15, 8, 0, 0⟩

/-! BLK_MX_STAT: 03_cell_array.md R92, Table 3-13. -/
abbrev BLK_MX_STAT_BUSY : Field := ⟨.block, 0x208, 0, 0, 0, 0⟩
abbrev BLK_MX_STAT_SET0 : Field := ⟨.block, 0x208, 1, 1, 0, 0⟩
abbrev BLK_MX_STAT_SET1 : Field := ⟨.block, 0x208, 2, 2, 0, 0⟩
abbrev BLK_MX_STAT_REPLAY : Field := ⟨.block, 0x208, 3, 3, 0, 0⟩
abbrev BLK_MX_STAT_TRANS : Field := ⟨.block, 0x208, 4, 4, 0, 0⟩
abbrev BLK_MX_STAT_POISON : Field := ⟨.block, 0x208, 5, 5, 0, 0⟩
abbrev BLK_MX_STAT_RANGE : Field := ⟨.block, 0x208, 6, 6, 0, 0⟩
abbrev BLK_MX_STAT_UNRES : Field := ⟨.block, 0x208, 7, 7, 0, 0⟩
abbrev BLK_MX_STAT_SUSPECT : Field := ⟨.block, 0x208, 8, 8, 0, 0⟩
abbrev BLK_MX_STAT_BREACH : Field := ⟨.block, 0x208, 9, 9, 0, 0⟩

/-! BLK_MX_TRANS: 03_cell_array.md R92, Table 3-14. -/
abbrev BLK_MX_TRANS_COUNT : Field := ⟨.block, 0x20C, 15, 0, 0, 0⟩
abbrev BLK_MX_TRANS_SAT : Field := ⟨.block, 0x20C, 16, 16, 0, 0⟩
abbrev BLK_MX_TRANS_CLR : Field := ⟨.block, 0x20C, 31, 31, 0, 0⟩

/-! BLK_MX_LAST: 03_cell_array.md R92, Table 3-15. -/
abbrev BLK_MX_LAST_TAG : Field := ⟨.block, 0x210, 15, 0, 0, 0⟩
abbrev BLK_MX_LAST_INDEX : Field := ⟨.block, 0x210, 22, 16, 0, 0⟩
abbrev BLK_MX_LAST_AXIS : Field := ⟨.block, 0x210, 23, 23, 0, 0⟩
abbrev BLK_MX_LAST_PASS : Field := ⟨.block, 0x210, 25, 24, 0, 0⟩

/-! BLK_CB_VALID: 04_number_formats.md R125, Table 4-6. -/
abbrev BLK_CB_VALID_VALID : Field := ⟨.block, 0x280, 30, 0, 0, 0⟩
abbrev BLK_CB_VALID_STD : Field := ⟨.block, 0x280, 31, 31, 0, 0⟩

/-! BLK_CB_CTL: 04_number_formats.md R125, Table 4-7. -/
abbrev BLK_CB_CTL_IDX : Field := ⟨.block, 0x284, 4, 0, 0, 0⟩
abbrev BLK_CB_CTL_LOAD : Field := ⟨.block, 0x284, 8, 8, 0, 0⟩
abbrev BLK_CB_CTL_DROP : Field := ⟨.block, 0x284, 9, 9, 0, 0⟩

/-! BLK_CB_IMG: 04_number_formats.md R125, Table 4-8. -/
abbrev BLK_CB_IMG_E0 : Field := ⟨.block, 0x400, 7, 0, 16, 4⟩
abbrev BLK_CB_IMG_E1 : Field := ⟨.block, 0x400, 15, 8, 16, 4⟩
abbrev BLK_CB_IMG_E2 : Field := ⟨.block, 0x400, 23, 16, 16, 4⟩
abbrev BLK_CB_IMG_E3 : Field := ⟨.block, 0x400, 31, 24, 16, 4⟩

/-! BLK_MSE_THR: 04_number_formats.md R125, Table 4-9. -/
abbrev BLK_MSE_THR_THR : Field := ⟨.block, 0x288, 31, 0, 0, 0⟩

/-! BLK_MSE_LAST: 04_number_formats.md R125, Table 4-10. -/
abbrev BLK_MSE_LAST_MSE : Field := ⟨.block, 0x28C, 31, 0, 0, 0⟩

/-! BLK_FMT_STAT: 04_number_formats.md R125, Table 4-11. -/
abbrev BLK_FMT_STAT_WIDEN : Field := ⟨.block, 0x290, 0, 0, 0, 0⟩
abbrev BLK_FMT_STAT_SATUR : Field := ⟨.block, 0x290, 1, 1, 0, 0⟩
abbrev BLK_FMT_STAT_NANOUT : Field := ⟨.block, 0x290, 2, 2, 0, 0⟩
abbrev BLK_FMT_STAT_TAGSUB : Field := ⟨.block, 0x290, 3, 3, 0, 0⟩
abbrev BLK_FMT_STAT_CBREF : Field := ⟨.block, 0x290, 4, 4, 0, 0⟩
abbrev BLK_FMT_STAT_LASTW : Field := ⟨.block, 0x290, 5, 5, 0, 0⟩

/-! BLK_FMT_WIDEN: 04_number_formats.md R125, Table 4-12. -/
abbrev BLK_FMT_WIDEN_COUNT : Field := ⟨.block, 0x294, 15, 0, 0, 0⟩
abbrev BLK_FMT_WIDEN_SAT : Field := ⟨.block, 0x294, 16, 16, 0, 0⟩
abbrev BLK_FMT_WIDEN_CLR : Field := ⟨.block, 0x294, 31, 31, 0, 0⟩

/-! BLK_FMT_SATCNT: 04_number_formats.md R125, Table 4-13. -/
abbrev BLK_FMT_SATCNT_COUNT : Field := ⟨.block, 0x298, 23, 0, 0, 0⟩
abbrev BLK_FMT_SATCNT_SAT : Field := ⟨.block, 0x298, 24, 24, 0, 0⟩
abbrev BLK_FMT_SATCNT_CLR : Field := ⟨.block, 0x298, 31, 31, 0, 0⟩

/-! SP_RING_BASE: 05_scratchpad_bank_alus.md R134, Table 5-4. -/
abbrev SP_RING_BASE_BASE : Field := ⟨.block, 0xC00, 12, 0, 16, 0⟩
abbrev SP_RING_BASE_SSIZE : Field := ⟨.block, 0xC00, 27, 16, 16, 0⟩

/-! SP_RING_CTL: 05_scratchpad_bank_alus.md R134, Table 5-5. -/
abbrev SP_RING_CTL_EN : Field := ⟨.block, 0xC04, 0, 0, 16, 0⟩
abbrev SP_RING_CTL_SCOUNT : Field := ⟨.block, 0xC04, 4, 1, 16, 0⟩
abbrev SP_RING_CTL_CONS : Field := ⟨.block, 0xC04, 6, 5, 16, 0⟩
abbrev SP_RING_CTL_HWIN : Field := ⟨.block, 0xC04, 23, 8, 16, 0⟩

/-! SP_RING_TMO: 05_scratchpad_bank_alus.md R134, Table 5-6. -/
abbrev SP_RING_TMO_TMO : Field := ⟨.block, 0xC08, 23, 0, 16, 0⟩

/-! SP_RING_STATE: 05_scratchpad_bank_alus.md R134, Table 5-7. -/
abbrev SP_RING_STATE_FILL : Field := ⟨.block, 0xC0C, 3, 0, 16, 0⟩
abbrev SP_RING_STATE_TAKE : Field := ⟨.block, 0xC0C, 7, 4, 16, 0⟩
abbrev SP_RING_STATE_FULL : Field := ⟨.block, 0xC0C, 23, 8, 16, 0⟩

/-! DRN_DESC0: 05_scratchpad_bank_alus.md R143, Table 5-11. -/
abbrev DRN_DESC0_CCW : Field := ⟨.block, 0x800, 15, 0, 16, 0⟩
abbrev DRN_DESC0_ACC : Field := ⟨.block, 0x800, 16, 16, 16, 0⟩
abbrev DRN_DESC0_RING_P : Field := ⟨.block, 0x800, 21, 17, 16, 0⟩
abbrev DRN_DESC0_LUTEN : Field := ⟨.block, 0x800, 22, 22, 16, 0⟩
abbrev DRN_DESC0_LUT : Field := ⟨.block, 0x800, 24, 23, 16, 0⟩
abbrev DRN_DESC0_CMX : Field := ⟨.block, 0x800, 27, 25, 16, 0⟩

/-! DRN_DESC1: 05_scratchpad_bank_alus.md R143, Table 5-12. -/
abbrev DRN_DESC1_RTAB : Field := ⟨.block, 0x804, 11, 0, 16, 0⟩
abbrev DRN_DESC1_RING_C : Field := ⟨.block, 0x804, 17, 13, 16, 0⟩
abbrev DRN_DESC1_RMX : Field := ⟨.block, 0x804, 18, 18, 16, 0⟩
abbrev DRN_DESC1_RING_R : Field := ⟨.block, 0x804, 23, 19, 16, 0⟩

/-! DRN_DESC2: 05_scratchpad_bank_alus.md R143, Table 5-12. -/
abbrev DRN_DESC2_CMXK : Field := ⟨.block, 0x808, 31, 0, 16, 0⟩

/-! SP_STAT: 05_scratchpad_bank_alus.md R162, Table 5-18. -/
abbrev SP_STAT_CE : Field := ⟨.block, 0x300, 0, 0, 0, 0⟩
abbrev SP_STAT_UE : Field := ⟨.block, 0x300, 1, 1, 0, 0⟩
abbrev SP_STAT_HELD : Field := ⟨.block, 0x300, 2, 2, 0, 0⟩
abbrev SP_STAT_HBREACH : Field := ⟨.block, 0x300, 3, 3, 0, 0⟩
abbrev SP_STAT_LTMO : Field := ⟨.block, 0x300, 4, 4, 0, 0⟩
abbrev SP_STAT_ACCOVF : Field := ⟨.block, 0x300, 5, 5, 0, 0⟩
abbrev SP_STAT_LUTREF : Field := ⟨.block, 0x300, 6, 6, 0, 0⟩
abbrev SP_STAT_PWRREF : Field := ⟨.block, 0x300, 7, 7, 0, 0⟩

/-! SP_ECC_CNT: 05_scratchpad_bank_alus.md R162, Table 5-19. -/
abbrev SP_ECC_CNT_CE : Field := ⟨.block, 0x304, 15, 0, 0, 0⟩
abbrev SP_ECC_CNT_UE : Field := ⟨.block, 0x304, 23, 16, 0, 0⟩
abbrev SP_ECC_CNT_CESAT : Field := ⟨.block, 0x304, 24, 24, 0, 0⟩
abbrev SP_ECC_CNT_UESAT : Field := ⟨.block, 0x304, 25, 25, 0, 0⟩
abbrev SP_ECC_CNT_CLR : Field := ⟨.block, 0x304, 31, 31, 0, 0⟩

/-! SP_ECC_ADDR: 05_scratchpad_bank_alus.md R162, Table 5-20. -/
abbrev SP_ECC_ADDR_ADDR : Field := ⟨.block, 0x308, 20, 0, 0, 0⟩
abbrev SP_ECC_ADDR_UE : Field := ⟨.block, 0x308, 21, 21, 0, 0⟩

/-! SP_PWR: 05_scratchpad_bank_alus.md R162, Table 5-21. -/
abbrev SP_PWR_REQ : Field := ⟨.block, 0x30C, 15, 0, 0, 0⟩
abbrev SP_PWR_CUR : Field := ⟨.block, 0x30C, 31, 16, 0, 0⟩

/-! SP_HOLD: 05_scratchpad_bank_alus.md R162, Table 5-22. -/
abbrev SP_HOLD_OCC : Field := ⟨.block, 0x310, 7, 0, 0, 0⟩
abbrev SP_HOLD_PEAK : Field := ⟨.block, 0x310, 15, 8, 0, 0⟩
abbrev SP_HOLD_CLRPK : Field := ⟨.block, 0x310, 31, 31, 0, 0⟩

/-! SP_LAST: 05_scratchpad_bank_alus.md R162, Table 5-23. -/
abbrev SP_LAST_RING : Field := ⟨.block, 0x314, 4, 0, 0, 0⟩
abbrev SP_LAST_SLOT : Field := ⟨.block, 0x314, 8, 5, 0, 0⟩
abbrev SP_LAST_SUBTYPE : Field := ⟨.block, 0x314, 23, 16, 0, 0⟩

/-! DRN_MSE_SUM: 05_scratchpad_bank_alus.md R162, Table 5-24. -/
abbrev DRN_MSE_SUM_SUM : Field := ⟨.block, 0x318, 31, 0, 0, 0⟩

/-! DRN_MSE_CNT: 05_scratchpad_bank_alus.md R162, Table 5-24. -/
abbrev DRN_MSE_CNT_COUNT : Field := ⟨.block, 0x31C, 23, 0, 0, 0⟩
abbrev DRN_MSE_CNT_SAT : Field := ⟨.block, 0x31C, 24, 24, 0, 0⟩

/-! DRN_LUT_STAT: 05_scratchpad_bank_alus.md R162, Table 5-24. -/
abbrev DRN_LUT_STAT_VALID : Field := ⟨.block, 0x320, 3, 0, 0, 0⟩

/-! SEQ_STAT: 06_scalar_core.md R186, Table 6-12. -/
abbrev SEQ_STAT_OCC : Field := ⟨.block, 0x100, 5, 0, 0, 0⟩
abbrev SEQ_STAT_HEADOPC : Field := ⟨.block, 0x100, 9, 6, 0, 0⟩
abbrev SEQ_STAT_HEADWAIT : Field := ⟨.block, 0x100, 10, 10, 0, 0⟩
abbrev SEQ_STAT_SIGHT : Field := ⟨.block, 0x100, 11, 11, 0, 0⟩

/-! SEQ_DELAY: 06_scalar_core.md R186, Table 6-13. -/
abbrev SEQ_DELAY_DELAY : Field := ⟨.block, 0x104, 23, 0, 0, 0⟩

/-! SEQ_CHG: 06_scalar_core.md R186, Table 6-14. -/
abbrev SEQ_CHG_CYC : Field := ⟨.block, 0x108, 23, 0, 4, 0⟩

/-! SC_CTL: 06_scalar_core.md R186, Table 6-15. -/
abbrev SC_CTL_HALTED : Field := ⟨.block, 0x124, 0, 0, 0, 0⟩
abbrev SC_CTL_START : Field := ⟨.block, 0x124, 1, 1, 0, 0⟩
abbrev SC_CTL_DBLF : Field := ⟨.block, 0x124, 2, 2, 0, 0⟩

/-! SC_PC: 06_scalar_core.md R186, Table 6-16. -/
abbrev SC_PC_PC : Field := ⟨.block, 0x128, 15, 0, 0, 0⟩

/-! SC_REC: 06_scalar_core.md R186, Table 6-17. -/
abbrev SC_REC_PEND : Field := ⟨.block, 0x12C, 3, 0, 0, 0⟩
abbrev SC_REC_LOST : Field := ⟨.block, 0x12C, 19, 4, 0, 0⟩
abbrev SC_REC_LSAT : Field := ⟨.block, 0x12C, 20, 20, 0, 0⟩
abbrev SC_REC_CLR : Field := ⟨.block, 0x12C, 31, 31, 0, 0⟩

/-! SC_CONS0: 06_scalar_core.md R186, Table 6-18. -/
abbrev SC_CONS0_CONS0 : Field := ⟨.block, 0x130, 1, 0, 0, 0⟩
abbrev SC_CONS0_CONS1 : Field := ⟨.block, 0x130, 3, 2, 0, 0⟩
abbrev SC_CONS0_CONS2 : Field := ⟨.block, 0x130, 5, 4, 0, 0⟩
abbrev SC_CONS0_CONS3 : Field := ⟨.block, 0x130, 7, 6, 0, 0⟩
abbrev SC_CONS0_CONS4 : Field := ⟨.block, 0x130, 9, 8, 0, 0⟩
abbrev SC_CONS0_CONS5 : Field := ⟨.block, 0x130, 11, 10, 0, 0⟩
abbrev SC_CONS0_CONS6 : Field := ⟨.block, 0x130, 13, 12, 0, 0⟩
abbrev SC_CONS0_CONS7 : Field := ⟨.block, 0x130, 15, 14, 0, 0⟩
abbrev SC_CONS0_CONS8 : Field := ⟨.block, 0x130, 17, 16, 0, 0⟩
abbrev SC_CONS0_CONS9 : Field := ⟨.block, 0x130, 19, 18, 0, 0⟩
abbrev SC_CONS0_CONS10 : Field := ⟨.block, 0x130, 21, 20, 0, 0⟩
abbrev SC_CONS0_CONS11 : Field := ⟨.block, 0x130, 23, 22, 0, 0⟩
abbrev SC_CONS0_CONS12 : Field := ⟨.block, 0x130, 25, 24, 0, 0⟩
abbrev SC_CONS0_CONS13 : Field := ⟨.block, 0x130, 27, 26, 0, 0⟩
abbrev SC_CONS0_CONS14 : Field := ⟨.block, 0x130, 29, 28, 0, 0⟩
abbrev SC_CONS0_CONS15 : Field := ⟨.block, 0x130, 31, 30, 0, 0⟩

/-! SC_CONS1: 06_scalar_core.md R186, Table 6-18. -/
abbrev SC_CONS1_CONS0 : Field := ⟨.block, 0x134, 1, 0, 0, 0⟩
abbrev SC_CONS1_CONS1 : Field := ⟨.block, 0x134, 3, 2, 0, 0⟩
abbrev SC_CONS1_CONS2 : Field := ⟨.block, 0x134, 5, 4, 0, 0⟩
abbrev SC_CONS1_CONS3 : Field := ⟨.block, 0x134, 7, 6, 0, 0⟩
abbrev SC_CONS1_CONS4 : Field := ⟨.block, 0x134, 9, 8, 0, 0⟩
abbrev SC_CONS1_CONS5 : Field := ⟨.block, 0x134, 11, 10, 0, 0⟩
abbrev SC_CONS1_CONS6 : Field := ⟨.block, 0x134, 13, 12, 0, 0⟩
abbrev SC_CONS1_CONS7 : Field := ⟨.block, 0x134, 15, 14, 0, 0⟩
abbrev SC_CONS1_CONS8 : Field := ⟨.block, 0x134, 17, 16, 0, 0⟩
abbrev SC_CONS1_CONS9 : Field := ⟨.block, 0x134, 19, 18, 0, 0⟩
abbrev SC_CONS1_CONS10 : Field := ⟨.block, 0x134, 21, 20, 0, 0⟩
abbrev SC_CONS1_CONS11 : Field := ⟨.block, 0x134, 23, 22, 0, 0⟩
abbrev SC_CONS1_CONS12 : Field := ⟨.block, 0x134, 25, 24, 0, 0⟩
abbrev SC_CONS1_CONS13 : Field := ⟨.block, 0x134, 27, 26, 0, 0⟩
abbrev SC_CONS1_CONS14 : Field := ⟨.block, 0x134, 29, 28, 0, 0⟩
abbrev SC_CONS1_CONS15 : Field := ⟨.block, 0x134, 31, 30, 0, 0⟩

/-! CHK_CTL: 06_scalar_core.md R186, Table 6-19. -/
abbrev CHK_CTL_POLY : Field := ⟨.block, 0x140, 1, 0, 0, 0⟩
abbrev CHK_CTL_INIT : Field := ⟨.block, 0x140, 2, 2, 0, 0⟩

/-! CHK_VAL_LO: 06_scalar_core.md R186, Table 6-19. -/
abbrev CHK_VAL_LO_VAL : Field := ⟨.block, 0x144, 31, 0, 0, 0⟩

/-! CHK_VAL_HI: 06_scalar_core.md R186, Table 6-19. -/
abbrev CHK_VAL_HI_VAL : Field := ⟨.block, 0x148, 31, 0, 0, 0⟩

/-! CHK_STAT: 06_scalar_core.md R186, Table 6-20. -/
abbrev CHK_STAT_BUSY : Field := ⟨.block, 0x14C, 0, 0, 0, 0⟩
abbrev CHK_STAT_DONE : Field := ⟨.block, 0x14C, 1, 1, 0, 0⟩
abbrev CHK_STAT_TAG : Field := ⟨.block, 0x14C, 31, 16, 0, 0⟩

/-! RT_CTL: 08_fabric_route_plans.md R253, Table 8-11. -/
abbrev RT_CTL_PARCEL : Field := ⟨.block, 0x180, 3, 0, 0, 0⟩

/-! RT_STAT: 08_fabric_route_plans.md R253, Table 8-11. -/
abbrev RT_STAT_PERR : Field := ⟨.block, 0x184, 0, 0, 0, 0⟩
abbrev RT_STAT_PDROP : Field := ⟨.block, 0x184, 1, 1, 0, 0⟩
abbrev RT_STAT_GDROP : Field := ⟨.block, 0x184, 2, 2, 0, 0⟩
abbrev RT_STAT_LOST : Field := ⟨.block, 0x184, 3, 3, 0, 0⟩
abbrev RT_STAT_EASV : Field := ⟨.block, 0x184, 4, 4, 0, 0⟩
abbrev RT_STAT_EIN : Field := ⟨.block, 0x184, 9, 8, 0, 0⟩
abbrev RT_STAT_EOUT : Field := ⟨.block, 0x184, 11, 10, 0, 0⟩

/-! RT_DROPCNT: 08_fabric_route_plans.md R253, Table 8-11. -/
abbrev RT_DROPCNT_COUNT : Field := ⟨.block, 0x188, 15, 0, 0, 0⟩
abbrev RT_DROPCNT_SAT : Field := ⟨.block, 0x188, 16, 16, 0, 0⟩
abbrev RT_DROPCNT_CLR : Field := ⟨.block, 0x188, 31, 31, 0, 0⟩

/-! RT_GEN: 08_fabric_route_plans.md R253, Table 8-11. -/
abbrev RT_GEN_GEN0 : Field := ⟨.block, 0x18C, 1, 0, 0, 0⟩
abbrev RT_GEN_GEN1 : Field := ⟨.block, 0x18C, 3, 2, 0, 0⟩
abbrev RT_GEN_GEN2 : Field := ⟨.block, 0x18C, 5, 4, 0, 0⟩
abbrev RT_GEN_GEN3 : Field := ⟨.block, 0x18C, 7, 6, 0, 0⟩
abbrev RT_GEN_GEN4 : Field := ⟨.block, 0x18C, 9, 8, 0, 0⟩
abbrev RT_GEN_GEN5 : Field := ⟨.block, 0x18C, 11, 10, 0, 0⟩
abbrev RT_GEN_GEN6 : Field := ⟨.block, 0x18C, 13, 12, 0, 0⟩
abbrev RT_GEN_GEN7 : Field := ⟨.block, 0x18C, 15, 14, 0, 0⟩
abbrev RT_GEN_GEN8 : Field := ⟨.block, 0x18C, 17, 16, 0, 0⟩
abbrev RT_GEN_GEN9 : Field := ⟨.block, 0x18C, 19, 18, 0, 0⟩
abbrev RT_GEN_GEN10 : Field := ⟨.block, 0x18C, 21, 20, 0, 0⟩
abbrev RT_GEN_GEN11 : Field := ⟨.block, 0x18C, 23, 22, 0, 0⟩
abbrev RT_GEN_GEN12 : Field := ⟨.block, 0x18C, 25, 24, 0, 0⟩
abbrev RT_GEN_GEN13 : Field := ⟨.block, 0x18C, 27, 26, 0, 0⟩
abbrev RT_GEN_GEN14 : Field := ⟨.block, 0x18C, 29, 28, 0, 0⟩
abbrev RT_GEN_GEN15 : Field := ⟨.block, 0x18C, 31, 30, 0, 0⟩

/-! LEP_A0: 09_stations_traverses.md R260, Table 9-3. -/
abbrev LEP_A0_EN : Field := ⟨.block, 0x600, 0, 0, 8, 0⟩
abbrev LEP_A0_DIR : Field := ⟨.block, 0x600, 1, 1, 8, 0⟩
abbrev LEP_A0_RING : Field := ⟨.block, 0x600, 6, 2, 8, 0⟩
abbrev LEP_A0_CONS : Field := ⟨.block, 0x600, 8, 7, 8, 0⟩
abbrev LEP_A0_LEG : Field := ⟨.block, 0x600, 20, 9, 8, 0⟩
abbrev LEP_A0_DFMT : Field := ⟨.block, 0x600, 24, 21, 8, 0⟩
abbrev LEP_A0_WID : Field := ⟨.block, 0x600, 25, 25, 8, 0⟩

/-! LEP_A1: 09_stations_traverses.md R260, Table 9-4. -/
abbrev LEP_A1_TWORDS : Field := ⟨.block, 0x604, 12, 0, 8, 0⟩
abbrev LEP_A1_NPAN : Field := ⟨.block, 0x604, 19, 13, 8, 0⟩
abbrev LEP_A1_TPF : Field := ⟨.block, 0x604, 31, 20, 8, 0⟩

/-! LEP_B0: 09_stations_traverses.md R260, Table 9-5. -/
abbrev LEP_B0_PPD : Field := ⟨.block, 0xE00, 6, 0, 8, 0⟩
abbrev LEP_B0_PBASE : Field := ⟨.block, 0xE00, 14, 8, 8, 0⟩
abbrev LEP_B0_SQM : Field := ⟨.block, 0xE00, 22, 16, 8, 0⟩
abbrev LEP_B0_SQO : Field := ⟨.block, 0xE00, 30, 24, 8, 0⟩

/-! LEP_B1: 09_stations_traverses.md R260, Table 9-6. -/
abbrev LEP_B1_NSEQ : Field := ⟨.block, 0xE04, 31, 0, 8, 0⟩

/-! LEG_FAULT: 09_stations_traverses.md R267, Table 9-8. -/
abbrev LEG_FAULT_LEP : Field := ⟨.block, 0x150, 5, 0, 0, 0⟩
abbrev LEG_FAULT_SUBTYPE : Field := ⟨.block, 0x150, 15, 8, 0, 0⟩

/-! LEG_FCNT: 09_stations_traverses.md R267, Table 9-8. -/
abbrev LEG_FCNT_COUNT : Field := ⟨.block, 0x154, 15, 0, 0, 0⟩
abbrev LEG_FCNT_SAT : Field := ⟨.block, 0x154, 16, 16, 0, 0⟩
abbrev LEG_FCNT_CLR : Field := ⟨.block, 0x154, 31, 31, 0, 0⟩

/-! LEP_STK: 10_stakes.md R302, Table 10-9. -/
abbrev LEP_STK_STK0 : Field := ⟨.block, 0x20, 15, 0, 4, 0⟩
abbrev LEP_STK_STK1 : Field := ⟨.block, 0x20, 31, 16, 4, 0⟩

/-! STK_LSEL: 10_stakes.md R302, Table 10-10. -/
abbrev STK_LSEL_IDX : Field := ⟨.block, 0x190, 5, 0, 0, 0⟩

/-! STK_LCNT: 10_stakes.md R302, Table 10-10. -/
abbrev STK_LCNT_COUNT : Field := ⟨.block, 0x194, 31, 0, 0, 0⟩

/-! STK_LCFG: 10_stakes.md R302, Table 10-10. -/
abbrev STK_LCFG_PARCEL : Field := ⟨.block, 0x198, 3, 0, 0, 0⟩
abbrev STK_LCFG_EN : Field := ⟨.block, 0x198, 4, 4, 0, 0⟩
abbrev STK_LCFG_LAG : Field := ⟨.block, 0x198, 5, 5, 0, 0⟩
abbrev STK_LCFG_TMODE : Field := ⟨.block, 0x198, 6, 6, 0, 0⟩
abbrev STK_LCFG_TMO : Field := ⟨.block, 0x198, 15, 8, 0, 0⟩
abbrev STK_LCFG_ROLL : Field := ⟨.block, 0x198, 31, 16, 0, 0⟩

/-! STK_LVIEW: 10_stakes.md R302, Table 10-10. -/
abbrev STK_LVIEW_VOID : Field := ⟨.block, 0x19C, 3, 0, 0, 0⟩
abbrev STK_LVIEW_POISON : Field := ⟨.block, 0x19C, 4, 4, 0, 0⟩
abbrev STK_LVIEW_OVF : Field := ⟨.block, 0x19C, 5, 5, 0, 0⟩
abbrev STK_LVIEW_STREAK : Field := ⟨.block, 0x19C, 13, 6, 0, 0⟩
abbrev STK_LVIEW_LAGGED : Field := ⟨.block, 0x19C, 14, 14, 0, 0⟩

/-! STK_BSTAT: 10_stakes.md R302, Table 10-10. -/
abbrev STK_BSTAT_TRESP : Field := ⟨.block, 0x1A0, 0, 0, 0, 0⟩
abbrev STK_BSTAT_STALE : Field := ⟨.block, 0x1A0, 1, 1, 0, 0⟩
abbrev STK_BSTAT_OVF : Field := ⟨.block, 0x1A0, 2, 2, 0, 0⟩
abbrev STK_BSTAT_LAGERR : Field := ⟨.block, 0x1A0, 3, 3, 0, 0⟩
abbrev STK_BSTAT_DSEQ : Field := ⟨.block, 0x1A0, 4, 4, 0, 0⟩
abbrev STK_BSTAT_TCOUNT : Field := ⟨.block, 0x1A0, 20, 5, 0, 0⟩

/-! RS_STAT: 07_region_store_hbm.md R216, Table 7-8. -/
abbrev RS_STAT_CE : Field := ⟨.region, 0x10000, 0, 0, 0, 0⟩
abbrev RS_STAT_UE : Field := ⟨.region, 0x10000, 1, 1, 0, 0⟩

/-! RS_ECC_CNT: 07_region_store_hbm.md R216, Table 7-8. -/
abbrev RS_ECC_CNT_CE : Field := ⟨.region, 0x10004, 15, 0, 0, 0⟩
abbrev RS_ECC_CNT_UE : Field := ⟨.region, 0x10004, 23, 16, 0, 0⟩
abbrev RS_ECC_CNT_CESAT : Field := ⟨.region, 0x10004, 24, 24, 0, 0⟩
abbrev RS_ECC_CNT_UESAT : Field := ⟨.region, 0x10004, 25, 25, 0, 0⟩
abbrev RS_ECC_CNT_CLR : Field := ⟨.region, 0x10004, 31, 31, 0, 0⟩

/-! RS_ECC_ADDR: 07_region_store_hbm.md R216, Table 7-8. -/
abbrev RS_ECC_ADDR_ADDR : Field := ⟨.region, 0x10008, 25, 0, 0, 0⟩
abbrev RS_ECC_ADDR_UE : Field := ⟨.region, 0x10008, 26, 26, 0, 0⟩

/-! HBM_STAT: 07_region_store_hbm.md R216, Table 7-9. -/
abbrev HBM_STAT_TRAINED : Field := ⟨.region, 0x10100, 0, 0, 0, 0⟩
abbrev HBM_STAT_HOT : Field := ⟨.region, 0x10100, 1, 1, 0, 0⟩
abbrev HBM_STAT_CE : Field := ⟨.region, 0x10100, 2, 2, 0, 0⟩
abbrev HBM_STAT_UE : Field := ⟨.region, 0x10100, 3, 3, 0, 0⟩
abbrev HBM_STAT_IFTMO : Field := ⟨.region, 0x10100, 4, 4, 0, 0⟩
abbrev HBM_STAT_WINV : Field := ⟨.region, 0x10100, 5, 5, 0, 0⟩

/-! HBM_ECC_CNT: 07_region_store_hbm.md R216, Table 7-10. -/
abbrev HBM_ECC_CNT_CE : Field := ⟨.region, 0x10104, 15, 0, 0, 0⟩
abbrev HBM_ECC_CNT_UE : Field := ⟨.region, 0x10104, 23, 16, 0, 0⟩
abbrev HBM_ECC_CNT_CESAT : Field := ⟨.region, 0x10104, 24, 24, 0, 0⟩
abbrev HBM_ECC_CNT_UESAT : Field := ⟨.region, 0x10104, 25, 25, 0, 0⟩
abbrev HBM_ECC_CNT_CLR : Field := ⟨.region, 0x10104, 31, 31, 0, 0⟩

/-! HBM_ECC_ADDR_LO: 07_region_store_hbm.md R216, Table 7-10. -/
abbrev HBM_ECC_ADDR_LO_ADDR : Field := ⟨.region, 0x10108, 31, 0, 0, 0⟩

/-! HBM_ECC_ADDR_HI: 07_region_store_hbm.md R216, Table 7-10. -/
abbrev HBM_ECC_ADDR_HI_ADDR : Field := ⟨.region, 0x1010C, 3, 0, 0, 0⟩
abbrev HBM_ECC_ADDR_HI_UE : Field := ⟨.region, 0x1010C, 4, 4, 0, 0⟩

/-! HBM_POISON: 07_region_store_hbm.md R216, Table 7-10. -/
abbrev HBM_POISON_COUNT : Field := ⟨.region, 0x10110, 23, 0, 0, 0⟩
abbrev HBM_POISON_SAT : Field := ⟨.region, 0x10110, 24, 24, 0, 0⟩
abbrev HBM_POISON_CLR : Field := ⟨.region, 0x10110, 31, 31, 0, 0⟩

/-! HBM_PATROL: 07_region_store_hbm.md R216, Table 7-11. -/
abbrev HBM_PATROL_HOURS : Field := ⟨.region, 0x10114, 7, 0, 0, 0⟩
abbrev HBM_PATROL_PASSES : Field := ⟨.region, 0x10114, 31, 16, 0, 0⟩

/-! HBM_QOCC: 07_region_store_hbm.md R216, Table 7-11. -/
abbrev HBM_QOCC_RD : Field := ⟨.region, 0x10118, 9, 0, 0, 0⟩
abbrev HBM_QOCC_WR : Field := ⟨.region, 0x10118, 24, 16, 0, 0⟩

/-! MEM_ZERO_BASE: 07_region_store_hbm.md R216, Table 7-12. -/
abbrev MEM_ZERO_BASE_BASE : Field := ⟨.region, 0x10120, 27, 0, 0, 0⟩

/-! MEM_ZERO_LEN: 07_region_store_hbm.md R216, Table 7-12. -/
abbrev MEM_ZERO_LEN_LEN : Field := ⟨.region, 0x10124, 28, 0, 0, 0⟩

/-! MEM_ZERO_CTL: 07_region_store_hbm.md R216, Table 7-12. -/
abbrev MEM_ZERO_CTL_START : Field := ⟨.region, 0x10128, 0, 0, 0, 0⟩
abbrev MEM_ZERO_CTL_TGT : Field := ⟨.region, 0x10128, 1, 1, 0, 0⟩
abbrev MEM_ZERO_CTL_BUSY : Field := ⟨.region, 0x10128, 2, 2, 0, 0⟩
abbrev MEM_ZERO_CTL_DONE : Field := ⟨.region, 0x10128, 3, 3, 0, 0⟩
abbrev MEM_ZERO_CTL_REFUSED : Field := ⟨.region, 0x10128, 4, 4, 0, 0⟩

/-! MEM_DRAIN: 07_region_store_hbm.md R216, Table 7-12. -/
abbrev MEM_DRAIN_PEND : Field := ⟨.region, 0x1012C, 15, 0, 0, 0⟩

/-! MEM_WIN_A: 07_region_store_hbm.md R216, Table 7-13. -/
abbrev MEM_WIN_A_BASE : Field := ⟨.region, 0x10200, 15, 0, 8, 0⟩
abbrev MEM_WIN_A_LIMIT : Field := ⟨.region, 0x10200, 31, 16, 8, 0⟩

/-! MEM_WIN_B: 07_region_store_hbm.md R216, Table 7-13. -/
abbrev MEM_WIN_B_PARCEL : Field := ⟨.region, 0x10204, 3, 0, 8, 0⟩
abbrev MEM_WIN_B_EN : Field := ⟨.region, 0x10204, 4, 4, 8, 0⟩
abbrev MEM_WIN_B_HOST : Field := ⟨.region, 0x10204, 5, 5, 8, 0⟩

/-! STR_STAT: 07_region_store_hbm.md R216, Table 7-14. -/
abbrev STR_STAT_LAST : Field := ⟨.region, 0x10300, 7, 0, 4, 0⟩
abbrev STR_STAT_RD : Field := ⟨.region, 0x10300, 13, 8, 4, 0⟩
abbrev STR_STAT_WR : Field := ⟨.region, 0x10300, 18, 14, 4, 0⟩
abbrev STR_STAT_WAIT : Field := ⟨.region, 0x10300, 19, 19, 4, 0⟩

/-! RGN_BEAT: 08_fabric_route_plans.md R254, Table 8-12. -/
abbrev RGN_BEAT_BEAT : Field := ⟨.region, 0x200, 14, 0, 0, 0⟩
abbrev RGN_BEAT_RSV : Field := ⟨.region, 0x200, 15, 15, 0, 0⟩
abbrev RGN_BEAT_PAT : Field := ⟨.region, 0x200, 18, 16, 0, 0⟩
abbrev RGN_BEAT_GAP : Field := ⟨.region, 0x200, 19, 19, 0, 0⟩
abbrev RGN_BEAT_VAR : Field := ⟨.region, 0x200, 21, 20, 0, 0⟩

/-! RGN_LOCK: 08_fabric_route_plans.md R254, Table 8-12. -/
abbrev RGN_LOCK_LEADER : Field := ⟨.region, 0x204, 4, 0, 0, 0⟩
abbrev RGN_LOCK_LOCKED : Field := ⟨.region, 0x204, 5, 5, 0, 0⟩
abbrev RGN_LOCK_PINNED : Field := ⟨.region, 0x204, 6, 6, 0, 0⟩

/-! XSEG_CTL: 08_fabric_route_plans.md R254, Table 8-13. -/
abbrev XSEG_CTL_MODE : Field := ⟨.region, 0x400, 0, 0, 128, 0⟩
abbrev XSEG_CTL_RECAL : Field := ⟨.region, 0x400, 1, 1, 128, 0⟩
abbrev XSEG_CTL_RBUSY : Field := ⟨.region, 0x400, 2, 2, 128, 0⟩
abbrev XSEG_CTL_RDONE : Field := ⟨.region, 0x400, 3, 3, 128, 0⟩
abbrev XSEG_CTL_RREF : Field := ⟨.region, 0x400, 4, 4, 128, 0⟩

/-! XSEG_STAT: 08_fabric_route_plans.md R254, Table 8-13. -/
abbrev XSEG_STAT_CALOK : Field := ⟨.region, 0x404, 0, 0, 128, 0⟩
abbrev XSEG_STAT_MLOW : Field := ⟨.region, 0x404, 2, 2, 128, 0⟩
abbrev XSEG_STAT_SLIP : Field := ⟨.region, 0x404, 3, 3, 128, 0⟩
abbrev XSEG_STAT_PINNED : Field := ⟨.region, 0x404, 4, 4, 128, 0⟩
abbrev XSEG_STAT_WORST : Field := ⟨.region, 0x404, 15, 8, 128, 0⟩
abbrev XSEG_STAT_SYNCSTEP : Field := ⟨.region, 0x404, 23, 16, 128, 0⟩

/-! XSEG_FAIL_LO: 08_fabric_route_plans.md R254, Table 8-13. -/
abbrev XSEG_FAIL_LO_FAIL : Field := ⟨.region, 0x408, 31, 0, 128, 0⟩

/-! XSEG_FAIL_HI: 08_fabric_route_plans.md R254, Table 8-13. -/
abbrev XSEG_FAIL_HI_FAIL : Field := ⟨.region, 0x40C, 31, 0, 128, 0⟩

/-! XSEG_SPARE: 08_fabric_route_plans.md R254, Table 8-13. -/
abbrev XSEG_SPARE_COL0 : Field := ⟨.region, 0x410, 3, 0, 128, 0⟩
abbrev XSEG_SPARE_EN0 : Field := ⟨.region, 0x410, 4, 4, 128, 0⟩
abbrev XSEG_SPARE_COL1 : Field := ⟨.region, 0x410, 8, 5, 128, 0⟩
abbrev XSEG_SPARE_EN1 : Field := ⟨.region, 0x410, 9, 9, 128, 0⟩
abbrev XSEG_SPARE_COL2 : Field := ⟨.region, 0x410, 13, 10, 128, 0⟩
abbrev XSEG_SPARE_EN2 : Field := ⟨.region, 0x410, 14, 14, 128, 0⟩
abbrev XSEG_SPARE_COL3 : Field := ⟨.region, 0x410, 18, 15, 128, 0⟩
abbrev XSEG_SPARE_EN3 : Field := ⟨.region, 0x410, 19, 19, 128, 0⟩

/-! XQ_CAL: 08_fabric_route_plans.md R254, Table 8-13. -/
abbrev XQ_CAL_MUP : Field := ⟨.region, 0x440, 7, 0, 128, 4⟩
abbrev XQ_CAL_MDN : Field := ⟨.region, 0x440, 15, 8, 128, 4⟩
abbrev XQ_CAL_DEF : Field := ⟨.region, 0x440, 16, 16, 128, 4⟩

/-! STRM_HDR: 09_stations_traverses.md R268, Table 9-9. -/
abbrev STRM_HDR_FMT : Field := ⟨.region, 0x1400, 3, 0, 4, 0⟩
abbrev STRM_HDR_CB : Field := ⟨.region, 0x1400, 8, 4, 4, 0⟩
abbrev STRM_HDR_HSRC : Field := ⟨.region, 0x1400, 9, 9, 4, 0⟩
abbrev STRM_HDR_SRC : Field := ⟨.region, 0x1400, 15, 10, 4, 0⟩
abbrev STRM_HDR_LEG : Field := ⟨.region, 0x1400, 27, 16, 4, 0⟩
abbrev STRM_HDR_WID : Field := ⟨.region, 0x1400, 28, 28, 4, 0⟩

/-! STRM_FAULT: 09_stations_traverses.md R574, Table 9-9a. -/
abbrev STRM_FAULT_STRM : Field := ⟨.region, 0x1700, 5, 0, 0, 0⟩
abbrev STRM_FAULT_SUBTYPE : Field := ⟨.region, 0x1700, 15, 8, 0, 0⟩

/-! STRM_FCNT: 09_stations_traverses.md R574, Table 9-9a. -/
abbrev STRM_FCNT_COUNT : Field := ⟨.region, 0x1704, 15, 0, 0, 0⟩
abbrev STRM_FCNT_SAT : Field := ⟨.region, 0x1704, 16, 16, 0, 0⟩
abbrev STRM_FCNT_CLR : Field := ⟨.region, 0x1704, 31, 31, 0, 0⟩

/-! STK_CNT: 10_stakes.md R302, Table 10-6. -/
abbrev STK_CNT_COUNT : Field := ⟨.region, 0x8000, 31, 0, 8, 0⟩

/-! STK_CFG: 10_stakes.md R302, Table 10-6. -/
abbrev STK_CFG_PARCEL : Field := ⟨.region, 0x8004, 3, 0, 8, 0⟩
abbrev STK_CFG_EN : Field := ⟨.region, 0x8004, 4, 4, 8, 0⟩
abbrev STK_CFG_LAG : Field := ⟨.region, 0x8004, 5, 5, 8, 0⟩
abbrev STK_CFG_TMODE : Field := ⟨.region, 0x8004, 6, 6, 8, 0⟩
abbrev STK_CFG_TMO : Field := ⟨.region, 0x8004, 15, 8, 8, 0⟩
abbrev STK_CFG_ROLL : Field := ⟨.region, 0x8004, 31, 16, 8, 0⟩

/-! STK_RSTAT: 10_stakes.md R302, Table 10-7. -/
abbrev STK_RSTAT_TRESP : Field := ⟨.region, 0x600, 0, 0, 0, 0⟩
abbrev STK_RSTAT_STALE : Field := ⟨.region, 0x600, 1, 1, 0, 0⟩
abbrev STK_RSTAT_OVF : Field := ⟨.region, 0x600, 2, 2, 0, 0⟩
abbrev STK_RSTAT_LAGERR : Field := ⟨.region, 0x600, 3, 3, 0, 0⟩
abbrev STK_RSTAT_DSEQ : Field := ⟨.region, 0x600, 4, 4, 0, 0⟩

/-! STK_RSEL: 10_stakes.md R302, Table 10-7. -/
abbrev STK_RSEL_IDX : Field := ⟨.region, 0x604, 11, 0, 0, 0⟩

/-! STK_RVIEW: 10_stakes.md R302, Table 10-7. -/
abbrev STK_RVIEW_VOID : Field := ⟨.region, 0x608, 3, 0, 0, 0⟩
abbrev STK_RVIEW_POISON : Field := ⟨.region, 0x608, 4, 4, 0, 0⟩
abbrev STK_RVIEW_OVF : Field := ⟨.region, 0x608, 5, 5, 0, 0⟩
abbrev STK_RVIEW_STREAK : Field := ⟨.region, 0x608, 13, 6, 0, 0⟩
abbrev STK_RVIEW_LAGGED : Field := ⟨.region, 0x608, 14, 14, 0, 0⟩

/-! STK_RTCNT: 10_stakes.md R302, Table 10-7. -/
abbrev STK_RTCNT_COUNT : Field := ⟨.region, 0x60C, 15, 0, 0, 0⟩
abbrev STK_RTCNT_SAT : Field := ⟨.region, 0x60C, 16, 16, 0, 0⟩
abbrev STK_RTCNT_CLR : Field := ⟨.region, 0x60C, 31, 31, 0, 0⟩

/-! STK_RGCNT: 10_stakes.md R302, Table 10-7. -/
abbrev STK_RGCNT_COUNT : Field := ⟨.region, 0x610, 15, 0, 0, 0⟩
abbrev STK_RGCNT_SAT : Field := ⟨.region, 0x610, 16, 16, 0, 0⟩
abbrev STK_RGCNT_CLR : Field := ⟨.region, 0x610, 31, 31, 0, 0⟩

/-! STRM_STK: 10_stakes.md R302, Table 10-8. -/
abbrev STRM_STK_ARRIVE : Field := ⟨.region, 0x1500, 15, 0, 4, 0⟩

/-! SL_LAND0: 12_sightlines.md R366, Table 12-14. -/
abbrev SL_LAND0_EN : Field := ⟨.region, 0x1600, 0, 0, 8, 0⟩
abbrev SL_LAND0_LPORT : Field := ⟨.region, 0x1600, 3, 1, 8, 0⟩
abbrev SL_LAND0_WSTRM : Field := ⟨.region, 0x1600, 9, 4, 8, 0⟩
abbrev SL_LAND0_RSTRM : Field := ⟨.region, 0x1600, 15, 10, 8, 0⟩
abbrev SL_LAND0_LEG : Field := ⟨.region, 0x1600, 27, 16, 8, 0⟩

/-! SL_LAND1: 12_sightlines.md R366, Table 12-14. -/
abbrev SL_LAND1_TPB : Field := ⟨.region, 0x1604, 6, 0, 8, 0⟩

/-! RGN_CLK_STAT: 14_clocks.md R408, Table 14-9. -/
abbrev RGN_CLK_STAT_CUR : Field := ⟨.region, 0x210, 2, 0, 0, 0⟩
abbrev RGN_CLK_STAT_NEXT : Field := ⟨.region, 0x210, 5, 3, 0, 0⟩
abbrev RGN_CLK_STAT_COMMIT : Field := ⟨.region, 0x210, 6, 6, 0, 0⟩
abbrev RGN_CLK_STAT_LOCKB : Field := ⟨.region, 0x210, 7, 7, 0, 0⟩
abbrev RGN_CLK_STAT_REFWHY : Field := ⟨.region, 0x210, 10, 8, 0, 0⟩
abbrev RGN_CLK_STAT_REFCNT : Field := ⟨.region, 0x210, 23, 16, 0, 0⟩
abbrev RGN_CLK_STAT_STR : Field := ⟨.region, 0x210, 27, 24, 0, 0⟩

/-! RGN_CLK_REQ: 14_clocks.md R408, Table 14-9. -/
abbrev RGN_CLK_REQ_STEP : Field := ⟨.region, 0x214, 2, 0, 0, 0⟩
abbrev RGN_CLK_REQ_EN : Field := ⟨.region, 0x214, 3, 3, 0, 0⟩

/-! RGN_CLK_STR: 14_clocks.md R408, Table 14-9. -/
abbrev RGN_CLK_STR_COUNT : Field := ⟨.region, 0x218, 23, 0, 0, 0⟩
abbrev RGN_CLK_STR_SAT : Field := ⟨.region, 0x218, 24, 24, 0, 0⟩
abbrev RGN_CLK_STR_CLR : Field := ⟨.region, 0x218, 31, 31, 0, 0⟩

/-! PWR_DOM_CTL: 15_power_delivery.md R426, Table 15-12. -/
abbrev PWR_DOM_CTL_REQ : Field := ⟨.region, 0x700, 1, 0, 16, 0⟩
abbrev PWR_DOM_CTL_OFS : Field := ⟨.region, 0x700, 6, 4, 16, 0⟩
abbrev PWR_DOM_CTL_FENCE : Field := ⟨.region, 0x700, 7, 7, 16, 0⟩

/-! PWR_DOM_STAT: 15_power_delivery.md R426, Table 15-12. -/
abbrev PWR_DOM_STAT_STATE : Field := ⟨.region, 0x704, 1, 0, 16, 0⟩
abbrev PWR_DOM_STAT_PHOK : Field := ⟨.region, 0x704, 9, 2, 16, 0⟩
abbrev PWR_DOM_STAT_CAP : Field := ⟨.region, 0x704, 10, 10, 16, 0⟩
abbrev PWR_DOM_STAT_OFSREF : Field := ⟨.region, 0x704, 11, 11, 16, 0⟩
abbrev PWR_DOM_STAT_RETREF : Field := ⟨.region, 0x704, 12, 12, 16, 0⟩
abbrev PWR_DOM_STAT_VID : Field := ⟨.region, 0x704, 23, 16, 16, 0⟩
abbrev PWR_DOM_STAT_AGE : Field := ⟨.region, 0x704, 27, 24, 16, 0⟩

/-! PWR_DOM_I: 15_power_delivery.md R426, Table 15-12. -/
abbrev PWR_DOM_I_IAVG : Field := ⟨.region, 0x708, 11, 0, 16, 0⟩
abbrev PWR_DOM_I_IPEAK : Field := ⟨.region, 0x708, 27, 16, 16, 0⟩

/-! PWR_DOM_V: 15_power_delivery.md R426, Table 15-12. -/
abbrev PWR_DOM_V_VAVG : Field := ⟨.region, 0x70C, 9, 0, 16, 0⟩

/-! PWR_FAB: 15_power_delivery.md R426, Table 15-13. -/
abbrev PWR_FAB_PHOK : Field := ⟨.region, 0x740, 1, 0, 0, 0⟩
abbrev PWR_FAB_IAVG : Field := ⟨.region, 0x740, 13, 2, 0, 0⟩

/-! PCTL_DOM: 16_power_control_grade.md R451, Table 16-8. -/
abbrev PCTL_DOM_QEFF : Field := ⟨.region, 0x780, 4, 0, 4, 0⟩
abbrev PCTL_DOM_QPH : Field := ⟨.region, 0x780, 9, 5, 4, 0⟩
abbrev PCTL_DOM_QI : Field := ⟨.region, 0x780, 14, 10, 4, 0⟩
abbrev PCTL_DOM_QT : Field := ⟨.region, 0x780, 19, 15, 4, 0⟩
abbrev PCTL_DOM_QC : Field := ⟨.region, 0x780, 24, 20, 4, 0⟩
abbrev PCTL_DOM_QG : Field := ⟨.region, 0x780, 29, 25, 4, 0⟩

/-! PCTL_FILL: 16_power_control_grade.md R451, Table 16-8. -/
abbrev PCTL_FILL_FQ : Field := ⟨.region, 0x790, 4, 0, 4, 0⟩
abbrev PCTL_FILL_FBLK : Field := ⟨.region, 0x790, 10, 5, 4, 0⟩

/-! PCTL_ILIM: 16_power_control_grade.md R451, Table 16-8. -/
abbrev PCTL_ILIM_LIM : Field := ⟨.region, 0x7A0, 11, 0, 4, 0⟩

/-! AGE_MON: 16_power_control_grade.md R451, Table 16-8. -/
abbrev AGE_MON_SLACK : Field := ⟨.region, 0x7B0, 7, 0, 4, 0⟩

/-! THM_RGN: 16_power_control_grade.md R451, Table 16-8. -/
abbrev THM_RGN_TJ : Field := ⟨.region, 0x7C0, 7, 0, 0, 0⟩
abbrev THM_RGN_TS : Field := ⟨.region, 0x7C0, 15, 8, 0, 0⟩
abbrev THM_RGN_TREG : Field := ⟨.region, 0x7C0, 23, 16, 0, 0⟩

/-! RGN_SUSP_CTL: 18_faults_repair.md R499, Table 18-17. -/
abbrev RGN_SUSP_CTL_MODE : Field := ⟨.region, 0x800, 1, 0, 0, 0⟩
abbrev RGN_SUSP_CTL_FAIL : Field := ⟨.region, 0x800, 5, 2, 0, 0⟩
abbrev RGN_SUSP_CTL_TLIM : Field := ⟨.region, 0x800, 13, 8, 0, 0⟩
abbrev RGN_SUSP_CTL_CLRF : Field := ⟨.region, 0x800, 31, 16, 0, 0⟩

/-! RGN_SUSP_STAT: 18_faults_repair.md R499, Table 18-17. -/
abbrev RGN_SUSP_STAT_USED : Field := ⟨.region, 0x804, 4, 0, 0, 0⟩
abbrev RGN_SUSP_STAT_FULL : Field := ⟨.region, 0x804, 5, 5, 0, 0⟩
abbrev RGN_SUSP_STAT_STEPREQ : Field := ⟨.region, 0x804, 6, 6, 0, 0⟩

/-! RGN_SUSP_SEL: 18_faults_repair.md R499, Table 18-17. -/
abbrev RGN_SUSP_SEL_IDX : Field := ⟨.region, 0x808, 3, 0, 0, 0⟩
abbrev RGN_SUSP_SEL_B : Field := ⟨.region, 0x808, 15, 8, 0, 0⟩
abbrev RGN_SUSP_SEL_FENCE : Field := ⟨.region, 0x808, 30, 30, 0, 0⟩
abbrev RGN_SUSP_SEL_CLR : Field := ⟨.region, 0x808, 31, 31, 0, 0⟩

/-! RGN_SUSP_VIEW: 18_faults_repair.md R499, Table 18-17. -/
abbrev RGN_SUSP_VIEW_B : Field := ⟨.region, 0x80C, 7, 0, 0, 0⟩
abbrev RGN_SUSP_VIEW_VALID : Field := ⟨.region, 0x80C, 8, 8, 0, 0⟩
abbrev RGN_SUSP_VIEW_SUSPECT : Field := ⟨.region, 0x80C, 9, 9, 0, 0⟩
abbrev RGN_SUSP_VIEW_LEVEL : Field := ⟨.region, 0x80C, 12, 10, 0, 0⟩
abbrev RGN_SUSP_VIEW_POISONS : Field := ⟨.region, 0x80C, 16, 13, 0, 0⟩
abbrev RGN_SUSP_VIEW_TRANS : Field := ⟨.region, 0x80C, 22, 17, 0, 0⟩

/-! RGN_FENCE: 18_faults_repair.md R499, Table 18-17. -/
abbrev RGN_FENCE_FENCED : Field := ⟨.region, 0x810, 31, 0, 4, 0⟩

/-! RGN_ERRQ: 18_faults_repair.md R499, Table 18-17. -/
abbrev RGN_ERRQ_PEND : Field := ⟨.region, 0x828, 6, 0, 0, 0⟩
abbrev RGN_ERRQ_LOST : Field := ⟨.region, 0x828, 22, 7, 0, 0⟩
abbrev RGN_ERRQ_LSAT : Field := ⟨.region, 0x828, 23, 23, 0, 0⟩
abbrev RGN_ERRQ_STANDIN : Field := ⟨.region, 0x828, 24, 24, 0, 0⟩
abbrev RGN_ERRQ_CLR : Field := ⟨.region, 0x828, 31, 31, 0, 0⟩

/-! LANE_OCT: 08_fabric_route_plans.md R255, Table 8-15. -/
abbrev LANE_OCT_A_DIE : Field := ⟨.hub, 0x3000, 1, 0, 4, 0⟩
abbrev LANE_OCT_A_FLD : Field := ⟨.hub, 0x3000, 4, 2, 4, 0⟩
abbrev LANE_OCT_A_PORT : Field := ⟨.hub, 0x3000, 7, 5, 4, 0⟩
abbrev LANE_OCT_B_DIE : Field := ⟨.hub, 0x3000, 9, 8, 4, 0⟩
abbrev LANE_OCT_B_FLD : Field := ⟨.hub, 0x3000, 12, 10, 4, 0⟩
abbrev LANE_OCT_B_PORT : Field := ⟨.hub, 0x3000, 15, 13, 4, 0⟩
abbrev LANE_OCT_SL : Field := ⟨.hub, 0x3000, 20, 16, 4, 0⟩
abbrev LANE_OCT_KIND : Field := ⟨.hub, 0x3000, 22, 21, 4, 0⟩

/-! LANE_STAT: 08_fabric_route_plans.md R255, Table 8-15. -/
abbrev LANE_STAT_LOCK : Field := ⟨.hub, 0x3200, 0, 0, 4, 0⟩
abbrev LANE_STAT_LOS : Field := ⟨.hub, 0x3200, 1, 1, 4, 0⟩
abbrev LANE_STAT_CALOK : Field := ⟨.hub, 0x3200, 2, 2, 4, 0⟩
abbrev LANE_STAT_LOST : Field := ⟨.hub, 0x3200, 3, 3, 4, 0⟩
abbrev LANE_STAT_DEF : Field := ⟨.hub, 0x3200, 4, 4, 4, 0⟩
abbrev LANE_STAT_MARGIN : Field := ⟨.hub, 0x3200, 15, 8, 4, 0⟩

/-! LANE_FAIL_LO: 08_fabric_route_plans.md R255, Table 8-15. -/
abbrev LANE_FAIL_LO_FAIL : Field := ⟨.hub, 0x3400, 31, 0, 8, 0⟩

/-! LANE_FAIL_HI: 08_fabric_route_plans.md R255, Table 8-15. -/
abbrev LANE_FAIL_HI_FAIL : Field := ⟨.hub, 0x3404, 31, 0, 8, 0⟩

/-! PCL_DEF: 09_stations_traverses.md R276, Table 9-14. -/
abbrev PCL_DEF_DIE : Field := ⟨.hub, 0x4000, 1, 0, 4, 0⟩
abbrev PCL_DEF_X0 : Field := ⟨.hub, 0x4000, 6, 2, 4, 0⟩
abbrev PCL_DEF_X1 : Field := ⟨.hub, 0x4000, 11, 7, 4, 0⟩
abbrev PCL_DEF_Y0 : Field := ⟨.hub, 0x4000, 17, 12, 4, 0⟩
abbrev PCL_DEF_Y1 : Field := ⟨.hub, 0x4000, 23, 18, 4, 0⟩
abbrev PCL_DEF_DIES : Field := ⟨.hub, 0x4000, 27, 24, 4, 0⟩
abbrev PCL_DEF_KIND : Field := ⟨.hub, 0x4000, 28, 28, 4, 0⟩
abbrev PCL_DEF_EN : Field := ⟨.hub, 0x4000, 29, 29, 4, 0⟩

/-! PLAT_STAT: 11_plat.md R332, Table 11-9. -/
abbrev PLAT_STAT_STATE : Field := ⟨.plat, 0x5000, 2, 0, 0, 0⟩
abbrev PLAT_STAT_SEALED : Field := ⟨.plat, 0x5000, 3, 3, 0, 0⟩
abbrev PLAT_STAT_TRANSLATED : Field := ⟨.plat, 0x5000, 4, 4, 0, 0⟩
abbrev PLAT_STAT_REJECT : Field := ⟨.plat, 0x5000, 5, 5, 0, 0⟩
abbrev PLAT_STAT_CODE : Field := ⟨.plat, 0x5000, 15, 8, 0, 0⟩

/-! PLAT_ERR: 11_plat.md R332, Table 11-10. -/
abbrev PLAT_ERR_SECTION : Field := ⟨.plat, 0x5004, 15, 0, 0, 0⟩
abbrev PLAT_ERR_RECORD : Field := ⟨.plat, 0x5004, 31, 16, 0, 0⟩

/-! PLAT_ERR_X: 11_plat.md R332, Table 11-10. -/
abbrev PLAT_ERR_X_DETAIL : Field := ⟨.plat, 0x5008, 31, 0, 0, 0⟩

/-! PLAT_CNT: 11_plat.md R332, Table 11-10. -/
abbrev PLAT_CNT_LOADS : Field := ⟨.plat, 0x500C, 15, 0, 0, 0⟩
abbrev PLAT_CNT_SWITCHES : Field := ⟨.plat, 0x500C, 31, 16, 0, 0⟩

/-! CUT_STAT: 11_plat.md R332, Table 11-11. -/
abbrev CUT_STAT_STATE : Field := ⟨.plat, 0x5010, 2, 0, 0, 0⟩
abbrev CUT_STAT_SWITCHED : Field := ⟨.plat, 0x5010, 3, 3, 0, 0⟩
abbrev CUT_STAT_ABANDONED : Field := ⟨.plat, 0x5010, 4, 4, 0, 0⟩
abbrev CUT_STAT_REVOK : Field := ⟨.plat, 0x5010, 5, 5, 0, 0⟩
abbrev CUT_STAT_REASON : Field := ⟨.plat, 0x5010, 11, 8, 0, 0⟩

/-! CUT_FRAME_LO: 11_plat.md R332, Table 11-11. -/
abbrev CUT_FRAME_LO_F_LO : Field := ⟨.plat, 0x5014, 31, 0, 0, 0⟩

/-! CUT_FRAME_HI: 11_plat.md R332, Table 11-11. -/
abbrev CUT_FRAME_HI_F_HI : Field := ⟨.plat, 0x5018, 15, 0, 0, 0⟩

/-! CUT_NEED: 11_plat.md R332, Table 11-12. -/
abbrev CUT_NEED_RGN : Field := ⟨.plat, 0x501C, 23, 0, 0, 0⟩
abbrev CUT_NEED_HUB : Field := ⟨.plat, 0x501C, 24, 24, 0, 0⟩

/-! CUT_ACK: 11_plat.md R332, Table 11-12. -/
abbrev CUT_ACK_RGN : Field := ⟨.plat, 0x5020, 23, 0, 0, 0⟩
abbrev CUT_ACK_HUB : Field := ⟨.plat, 0x5020, 24, 24, 0, 0⟩
abbrev CUT_ACK_ARMED : Field := ⟨.plat, 0x5020, 25, 25, 0, 0⟩
abbrev CUT_ACK_PARTNERS : Field := ⟨.plat, 0x5020, 26, 26, 0, 0⟩

/-! PLAT_HASH_A: 11_plat.md R332, Table 11-12. -/
abbrev PLAT_HASH_A_HASH : Field := ⟨.plat, 0x5040, 31, 0, 4, 0⟩

/-! PLAT_HASH_S: 11_plat.md R332, Table 11-12. -/
abbrev PLAT_HASH_S_HASH : Field := ⟨.plat, 0x5080, 31, 0, 4, 0⟩

/-! SL_EPOCH: 12_sightlines.md R366, Table 12-12. -/
abbrev SL_EPOCH_EPOCH_ID : Field := ⟨.hub, 0x6000, 31, 0, 0, 0⟩

/-! SL_LSRC: 12_sightlines.md R366, Table 12-12. -/
abbrev SL_LSRC_PRESENT : Field := ⟨.hub, 0x6010, 0, 0, 4, 0⟩
abbrev SL_LSRC_EN : Field := ⟨.hub, 0x6010, 1, 1, 4, 0⟩
abbrev SL_LSRC_LIT : Field := ⟨.hub, 0x6010, 2, 2, 4, 0⟩
abbrev SL_LSRC_FAULT : Field := ⟨.hub, 0x6010, 3, 3, 4, 0⟩
abbrev SL_LSRC_POWER : Field := ⟨.hub, 0x6010, 15, 8, 4, 0⟩

/-! HIF_STAT: 13_host_interface.md R392, Table 13-19. -/
abbrev HIF_STAT_LINK0 : Field := ⟨.hub, 0x7000, 0, 0, 0, 0⟩
abbrev HIF_STAT_LINK1 : Field := ⟨.hub, 0x7000, 1, 1, 0, 0⟩

/-! HIF_DISC: 13_host_interface.md R392, Table 13-19. -/
abbrev HIF_DISC_COUNT : Field := ⟨.hub, 0x7004, 23, 0, 0, 0⟩
abbrev HIF_DISC_SAT : Field := ⟨.hub, 0x7004, 24, 24, 0, 0⟩
abbrev HIF_DISC_CLR : Field := ⟨.hub, 0x7004, 31, 31, 0, 0⟩

/-! HIF_B2BASE_LO: 13_host_interface.md R392, Table 13-19. -/
abbrev HIF_B2BASE_LO_BASE : Field := ⟨.hub, 0x7008, 31, 0, 0, 0⟩

/-! HIF_B2BASE_HI: 13_host_interface.md R392, Table 13-19. -/
abbrev HIF_B2BASE_HI_BASE : Field := ⟨.hub, 0x700C, 8, 0, 0, 0⟩

/-! HIF_HB_MC: 13_host_interface.md R392, Table 13-19. -/
abbrev HIF_HB_MC_HB : Field := ⟨.hub, 0x7010, 31, 0, 0, 0⟩

/-! HIF_VEC: 13_host_interface.md R392, Table 13-19. -/
abbrev HIF_VEC_FBVEC : Field := ⟨.hub, 0x7014, 4, 0, 0, 0⟩
abbrev HIF_VEC_ERRVEC : Field := ⟨.hub, 0x7014, 12, 8, 0, 0⟩
abbrev HIF_VEC_PLATVEC : Field := ⟨.hub, 0x7014, 20, 16, 0, 0⟩
abbrev HIF_VEC_SLVEC : Field := ⟨.hub, 0x7014, 28, 24, 0, 0⟩

/-! HIF_HB_COMMITS: 13_host_interface.md R392, Table 13-19. -/
abbrev HIF_HB_COMMITS_COMMITS : Field := ⟨.hub, 0x7100, 31, 0, 8, 0⟩

/-! HIF_HB_COMPLETES: 13_host_interface.md R392, Table 13-19. -/
abbrev HIF_HB_COMPLETES_COMPLETES : Field := ⟨.hub, 0x7104, 31, 0, 8, 0⟩

/-! HIF_VGRANT0: 13_host_interface.md R392, Table 13-19. -/
abbrev HIF_VGRANT0_REGION : Field := ⟨.hub, 0x7800, 22, 18, 64, 8⟩
abbrev HIF_VGRANT0_EN : Field := ⟨.hub, 0x7800, 23, 23, 64, 8⟩
abbrev HIF_VGRANT0_FIRST : Field := ⟨.hub, 0x7800, 17, 0, 64, 8⟩

/-! HIF_VGRANT1: 13_host_interface.md R392, Table 13-19. -/
abbrev HIF_VGRANT1_COUNT : Field := ⟨.hub, 0x7804, 18, 0, 64, 8⟩

/-! CLK_STAT: 14_clocks.md R408, Table 14-6. -/
abbrev CLK_STAT_REFOK : Field := ⟨.hub, 0x2100, 0, 0, 0, 0⟩
abbrev CLK_STAT_HOLDOVER : Field := ⟨.hub, 0x2100, 1, 1, 0, 0⟩
abbrev CLK_STAT_REFLOST : Field := ⟨.hub, 0x2100, 2, 2, 0, 0⟩
abbrev CLK_STAT_DIELOCK : Field := ⟨.hub, 0x2100, 6, 3, 0, 0⟩
abbrev CLK_STAT_DIEFAIL : Field := ⟨.hub, 0x2100, 7, 7, 0, 0⟩
abbrev CLK_STAT_FFSTEP : Field := ⟨.hub, 0x2100, 8, 8, 0, 0⟩

/-! CLK_CTL: 14_clocks.md R408, Table 14-7. -/
abbrev CLK_CTL_FFM : Field := ⟨.hub, 0x2104, 0, 0, 0, 0⟩
abbrev CLK_CTL_BOOSTEN : Field := ⟨.hub, 0x2104, 1, 1, 0, 0⟩

/-! CLK_STEP: 14_clocks.md R408, Table 14-8. -/
abbrev CLK_STEP_MHZ : Field := ⟨.hub, 0x2110, 10, 0, 4, 0⟩
abbrev CLK_STEP_MULT : Field := ⟨.hub, 0x2110, 15, 11, 4, 0⟩

/-! PWR_IN_STAT: 15_power_delivery.md R426, Table 15-11. -/
abbrev PWR_IN_STAT_AUXOK : Field := ⟨.power, 0x8000, 0, 0, 0, 0⟩
abbrev PWR_IN_STAT_MAINOK : Field := ⟨.power, 0x8000, 1, 1, 0, 0⟩
abbrev PWR_IN_STAT_UVW : Field := ⟨.power, 0x8000, 2, 2, 0, 0⟩
abbrev PWR_IN_STAT_INLOST : Field := ⟨.power, 0x8000, 3, 3, 0, 0⟩

/-! PWR_IBC: 15_power_delivery.md R426, Table 15-11. -/
abbrev PWR_IBC_IBCOK : Field := ⟨.power, 0x8004, 11, 0, 0, 0⟩
abbrev PWR_IBC_HBCOK : Field := ⟨.power, 0x8004, 15, 12, 0, 0⟩
abbrev PWR_IBC_HCOK : Field := ⟨.power, 0x8004, 16, 16, 0, 0⟩
abbrev PWR_IBC_IBCFAIL : Field := ⟨.power, 0x8004, 17, 17, 0, 0⟩

/-! PWR_IN_V: 15_power_delivery.md R426, Table 15-11. -/
abbrev PWR_IN_V_V : Field := ⟨.power, 0x8008, 15, 0, 0, 0⟩

/-! PWR_IN_I: 15_power_delivery.md R426, Table 15-11. -/
abbrev PWR_IN_I_I : Field := ⟨.power, 0x800C, 15, 0, 0, 0⟩

/-! PWR_IN_P: 15_power_delivery.md R426, Table 15-11. -/
abbrev PWR_IN_P_P : Field := ⟨.power, 0x8010, 15, 0, 0, 0⟩

/-! PWR_SAMPLE: 15_power_delivery.md R426, Table 15-11. -/
abbrev PWR_SAMPLE_N : Field := ⟨.power, 0x8014, 31, 0, 0, 0⟩

/-! PWR_PMB: 15_power_delivery.md R426, Table 15-11. -/
abbrev PWR_PMB_ADDR : Field := ⟨.power, 0x8020, 6, 0, 0, 0⟩
abbrev PWR_PMB_PECREQ : Field := ⟨.power, 0x8020, 7, 7, 0, 0⟩

/-! GRD_CTL: 16_power_control_grade.md R451, Table 16-7. -/
abbrev GRD_CTL_EN : Field := ⟨.power, 0x8100, 0, 0, 0, 0⟩
abbrev GRD_CTL_FILLEN : Field := ⟨.power, 0x8100, 1, 1, 0, 0⟩
abbrev GRD_CTL_EPSYNC : Field := ⟨.power, 0x8100, 2, 2, 0, 0⟩
abbrev GRD_CTL_DELAY : Field := ⟨.power, 0x8100, 8, 3, 0, 0⟩

/-! GRD_UP: 16_power_control_grade.md R451, Table 16-7. -/
abbrev GRD_UP_UP : Field := ⟨.power, 0x8104, 16, 0, 0, 0⟩

/-! GRD_DN: 16_power_control_grade.md R451, Table 16-7. -/
abbrev GRD_DN_DN : Field := ⟨.power, 0x8108, 16, 0, 0, 0⟩

/-! GRD_FLOOR: 16_power_control_grade.md R451, Table 16-7. -/
abbrev GRD_FLOOR_FLOOR : Field := ⟨.power, 0x810C, 15, 0, 0, 0⟩

/-! PCAP: 16_power_control_grade.md R451, Table 16-7. -/
abbrev PCAP_CAP : Field := ⟨.power, 0x8110, 15, 0, 0, 0⟩
abbrev PCAP_RAMP : Field := ⟨.power, 0x8110, 16, 16, 0, 0⟩

/-! GRD_REF: 16_power_control_grade.md R451, Table 16-7. -/
abbrev GRD_REF_REF : Field := ⟨.power, 0x8114, 15, 0, 0, 0⟩
abbrev GRD_REF_WANT : Field := ⟨.power, 0x8114, 31, 16, 0, 0⟩

/-! GRD_STAT: 16_power_control_grade.md R451, Table 16-7. -/
abbrev GRD_STAT_STATE : Field := ⟨.power, 0x8118, 2, 0, 0, 0⟩
abbrev GRD_STAT_VIOL : Field := ⟨.power, 0x8118, 3, 3, 0, 0⟩
abbrev GRD_STAT_CAPLIM : Field := ⟨.power, 0x8118, 4, 4, 0, 0⟩
abbrev GRD_STAT_ILIM : Field := ⟨.power, 0x8118, 5, 5, 0, 0⟩
abbrev GRD_STAT_BOOST : Field := ⟨.power, 0x8118, 6, 6, 0, 0⟩

/-! GRD_FILL: 16_power_control_grade.md R451, Table 16-7. -/
abbrev GRD_FILL_FILLW : Field := ⟨.power, 0x811C, 15, 0, 0, 0⟩
abbrev GRD_FILL_HELDW : Field := ⟨.power, 0x811C, 31, 16, 0, 0⟩

/-! GRD_VCNT: 16_power_control_grade.md R451, Table 16-7. -/
abbrev GRD_VCNT_COUNT : Field := ⟨.power, 0x8120, 15, 0, 0, 0⟩
abbrev GRD_VCNT_SAT : Field := ⟨.power, 0x8120, 16, 16, 0, 0⟩
abbrev GRD_VCNT_CLR : Field := ⟨.power, 0x8120, 31, 31, 0, 0⟩

/-! THM_CTL: 16_power_control_grade.md R451, Table 16-7. -/
abbrev THM_CTL_JT : Field := ⟨.power, 0x8130, 6, 0, 0, 0⟩

/-! THM_STAT: 16_power_control_grade.md R451, Table 16-7. -/
abbrev THM_STAT_TJMAX : Field := ⟨.power, 0x8134, 7, 0, 0, 0⟩
abbrev THM_STAT_HOTRGN : Field := ⟨.power, 0x8134, 12, 8, 0, 0⟩
abbrev THM_STAT_INLET : Field := ⟨.power, 0x8134, 23, 16, 0, 0⟩
abbrev THM_STAT_THROT : Field := ⟨.power, 0x8134, 24, 24, 0, 0⟩
abbrev THM_STAT_OVERMAX : Field := ⟨.power, 0x8134, 25, 25, 0, 0⟩
abbrev THM_STAT_INLETHI : Field := ⟨.power, 0x8134, 26, 26, 0, 0⟩

/-! AGE_THR: 16_power_control_grade.md R451, Table 16-7. -/
abbrev AGE_THR_PS : Field := ⟨.power, 0x8138, 7, 0, 0, 0⟩

/-! BRUP_STAT: 17_bring_up_monument.md R470, Table 17-13. -/
abbrev BRUP_STAT_STAGE : Field := ⟨.mon, 0x9000, 2, 0, 0, 0⟩
abbrev BRUP_STAT_READY : Field := ⟨.mon, 0x9000, 3, 3, 0, 0⟩
abbrev BRUP_STAT_DEGR : Field := ⟨.mon, 0x9000, 4, 4, 0, 0⟩
abbrev BRUP_STAT_HALT : Field := ⟨.mon, 0x9000, 5, 5, 0, 0⟩
abbrev BRUP_STAT_CODE : Field := ⟨.mon, 0x9000, 15, 8, 0, 0⟩

/-! BRUP_TIME: 17_bring_up_monument.md R470, Table 17-13. -/
abbrev BRUP_TIME_MS : Field := ⟨.mon, 0x9004, 15, 0, 0, 0⟩

/-! BRUP_RLOST: 17_bring_up_monument.md R470, Table 17-13. -/
abbrev BRUP_RLOST_RGN : Field := ⟨.mon, 0x9008, 23, 0, 0, 0⟩
abbrev BRUP_RLOST_DIE : Field := ⟨.mon, 0x9008, 27, 24, 0, 0⟩

/-! BRUP_KAT: 17_bring_up_monument.md R470, Table 17-13. -/
abbrev BRUP_KAT_FAILS : Field := ⟨.mon, 0x900C, 15, 0, 0, 0⟩
abbrev BRUP_KAT_RETRIES : Field := ⟨.mon, 0x900C, 31, 16, 0, 0⟩

/-! MON_FUSE: 17_bring_up_monument.md R470, Table 17-13. -/
abbrev MON_FUSE_GRADE : Field := ⟨.mon, 0x9010, 3, 0, 0, 0⟩
abbrev MON_FUSE_TDP : Field := ⟨.mon, 0x9010, 15, 4, 0, 0⟩
abbrev MON_FUSE_BOOSTM : Field := ⟨.mon, 0x9010, 20, 16, 0, 0⟩
abbrev MON_FUSE_BASEM : Field := ⟨.mon, 0x9010, 25, 21, 0, 0⟩

/-! MON_SER_LO: 17_bring_up_monument.md R470, Table 17-13. -/
abbrev MON_SER_LO_SER : Field := ⟨.mon, 0x9014, 31, 0, 0, 0⟩

/-! MON_SER_HI: 17_bring_up_monument.md R470, Table 17-13. -/
abbrev MON_SER_HI_SER : Field := ⟨.mon, 0x9018, 31, 0, 0, 0⟩

/-! MON_FW: 17_bring_up_monument.md R470, Table 17-13. -/
abbrev MON_FW_VER : Field := ⟨.mon, 0x901C, 31, 0, 0, 0⟩

/-! MON_SVN: 17_bring_up_monument.md R470, Table 17-13. -/
abbrev MON_SVN_MIN : Field := ⟨.mon, 0x9020, 15, 0, 0, 0⟩
abbrev MON_SVN_SLOT : Field := ⟨.mon, 0x9020, 16, 16, 0, 0⟩
abbrev MON_SVN_FALLBK : Field := ⟨.mon, 0x9020, 17, 17, 0, 0⟩

/-! MON_KEYS: 17_bring_up_monument.md R470, Table 17-13. -/
abbrev MON_KEYS_PROG : Field := ⟨.mon, 0x9024, 7, 0, 0, 0⟩
abbrev MON_KEYS_REVOKED : Field := ⟨.mon, 0x9024, 15, 8, 0, 0⟩

/-! MON_STAT: 17_bring_up_monument.md R470, Table 17-13. -/
abbrev MON_STAT_NFIELD : Field := ⟨.mon, 0x9028, 15, 0, 0, 0⟩
abbrev MON_STAT_FULL : Field := ⟨.mon, 0x9028, 16, 16, 0, 0⟩
abbrev MON_STAT_WFAIL : Field := ⟨.mon, 0x9028, 17, 17, 0, 0⟩
abbrev MON_STAT_FACTOK : Field := ⟨.mon, 0x9028, 18, 18, 0, 0⟩

/-! MON_ID: 17_bring_up_monument.md R470, Table 17-13. -/
abbrev MON_ID_CSTEP : Field := ⟨.mon, 0x902C, 7, 0, 0, 0⟩
abbrev MON_ID_HSTEP : Field := ⟨.mon, 0x902C, 15, 8, 0, 0⟩

/-! MON_MBX_ADDR_LO: 17_bring_up_monument.md R470, Table 17-13. -/
abbrev MON_MBX_ADDR_LO_ADDR : Field := ⟨.mon, 0x9030, 31, 0, 0, 0⟩

/-! MON_MBX_ADDR_HI: 17_bring_up_monument.md R470, Table 17-13. -/
abbrev MON_MBX_ADDR_HI_ADDR : Field := ⟨.mon, 0x9034, 31, 0, 0, 0⟩

/-! MON_MBX_LEN: 17_bring_up_monument.md R470, Table 17-13. -/
abbrev MON_MBX_LEN_LEN : Field := ⟨.mon, 0x9038, 23, 0, 0, 0⟩

/-! MON_MBX_CTL: 17_bring_up_monument.md R470, Table 17-13. -/
abbrev MON_MBX_CTL_GO : Field := ⟨.mon, 0x903C, 0, 0, 0, 0⟩
abbrev MON_MBX_CTL_BUSY : Field := ⟨.mon, 0x903C, 1, 1, 0, 0⟩
abbrev MON_MBX_CTL_DONE : Field := ⟨.mon, 0x903C, 2, 2, 0, 0⟩
abbrev MON_MBX_CTL_STATUS : Field := ⟨.mon, 0x903C, 11, 4, 0, 0⟩

/-! HERR_Q: 18_faults_repair.md R499, Table 18-18. -/
abbrev HERR_Q_PEND : Field := ⟨.err, 0xA000, 9, 0, 0, 0⟩
abbrev HERR_Q_FPEND : Field := ⟨.err, 0xA000, 22, 16, 0, 0⟩

/-! HERR_LOST: 18_faults_repair.md R499, Table 18-18. -/
abbrev HERR_LOST_COUNT : Field := ⟨.err, 0xA004, 23, 0, 0, 0⟩
abbrev HERR_LOST_SAT : Field := ⟨.err, 0xA004, 24, 24, 0, 0⟩
abbrev HERR_LOST_FATAL : Field := ⟨.err, 0xA004, 25, 25, 0, 0⟩
abbrev HERR_LOST_CLR : Field := ⟨.err, 0xA004, 31, 31, 0, 0⟩

/-! HERR_CNT: 18_faults_repair.md R499, Table 18-18. -/
abbrev HERR_CNT_COUNT : Field := ⟨.err, 0xA008, 23, 0, 4, 0⟩
abbrev HERR_CNT_SAT : Field := ⟨.err, 0xA008, 24, 24, 4, 0⟩
abbrev HERR_CNT_CLR : Field := ⟨.err, 0xA008, 31, 31, 4, 0⟩

/-! TPK_STAT: 18_faults_repair.md R499, Table 18-18. -/
abbrev TPK_STAT_STATE : Field := ⟨.err, 0xA040, 1, 0, 0, 0⟩
abbrev TPK_STAT_FAIL : Field := ⟨.err, 0xA040, 2, 2, 0, 0⟩
abbrev TPK_STAT_REFUSE : Field := ⟨.err, 0xA040, 15, 8, 0, 0⟩
abbrev TPK_STAT_ROUNDS : Field := ⟨.err, 0xA040, 31, 16, 0, 0⟩

/-! TPK_CTL: 18_faults_repair.md R499, Table 18-18. -/
abbrev TPK_CTL_STOP : Field := ⟨.err, 0xA044, 0, 0, 0, 0⟩

/-! CTX_STAT: 19_contexts_recovery.md R522, Table 19-9. -/
abbrev CTX_STAT_STATE : Field := ⟨.ctx, 0xB000, 2, 0, 8, 0⟩
abbrev CTX_STAT_GEN : Field := ⟨.ctx, 0xB000, 5, 4, 8, 0⟩
abbrev CTX_STAT_CAUSE : Field := ⟨.ctx, 0xB000, 11, 8, 8, 0⟩
abbrev CTX_STAT_TORN : Field := ⟨.ctx, 0xB000, 12, 12, 8, 0⟩
abbrev CTX_STAT_CLEARPEND : Field := ⟨.ctx, 0xB000, 20, 16, 8, 0⟩

/-! CTX_NUM: 19_contexts_recovery.md R522, Table 19-9. -/
abbrev CTX_NUM_NUM : Field := ⟨.ctx, 0xB004, 31, 0, 8, 0⟩

/-! ESC_CTL: 19_contexts_recovery.md R522, Table 19-9. -/
abbrev ESC_CTL_LIMIT : Field := ⟨.ctx, 0xB100, 3, 0, 0, 0⟩
abbrev ESC_CTL_WINDOW : Field := ⟨.ctx, 0xB100, 27, 16, 0, 0⟩

/-! ESC_STAT: 19_contexts_recovery.md R522, Table 19-9. -/
abbrev ESC_STAT_COUNT : Field := ⟨.ctx, 0xB104, 3, 0, 0, 0⟩
abbrev ESC_STAT_OOS : Field := ⟨.ctx, 0xB104, 4, 4, 0, 0⟩
abbrev ESC_STAT_TOTAL : Field := ⟨.ctx, 0xB104, 31, 16, 0, 0⟩

/-! HUB_RST: 19_contexts_recovery.md R522, Table 19-9. -/
abbrev HUB_RST_KEY : Field := ⟨.ctx, 0xB108, 7, 0, 0, 0⟩
abbrev HUB_RST_COLD : Field := ⟨.ctx, 0xB108, 8, 8, 0, 0⟩

/-! CRASH: 19_contexts_recovery.md R522, Table 19-9. -/
abbrev CRASH_NREC : Field := ⟨.ctx, 0xB10C, 6, 0, 0, 0⟩
abbrev CRASH_VALID : Field := ⟨.ctx, 0xB10C, 7, 7, 0, 0⟩

/-! EVC_CTL: 20_counters_perturbation.md R540, Table 20-6. -/
abbrev EVC_CTL_FREEZE : Field := ⟨.hub, 0xC300, 0, 0, 0, 0⟩
abbrev EVC_CTL_FROZEN : Field := ⟨.hub, 0xC300, 1, 1, 0, 0⟩

/-! PERT_CTL: 20_counters_perturbation.md R540, Table 20-6. -/
abbrev PERT_CTL_LOCK : Field := ⟨.pert, 0xD000, 0, 0, 0, 0⟩

/-! PERT_STAT: 20_counters_perturbation.md R540, Table 20-6. -/
abbrev PERT_STAT_ACTIVE : Field := ⟨.pert, 0xD004, 0, 0, 0, 0⟩
abbrev PERT_STAT_LOCKED : Field := ⟨.pert, 0xD004, 1, 1, 0, 0⟩
abbrev PERT_STAT_ACT : Field := ⟨.pert, 0xD004, 6, 2, 0, 0⟩

/-! PERT_XDLY: 20_counters_perturbation.md R540, Table 20-7. -/
abbrev PERT_XDLY_REGION : Field := ⟨.pert, 0xD010, 4, 0, 0, 0⟩
abbrev PERT_XDLY_SLOT : Field := ⟨.pert, 0xD010, 5, 5, 0, 0⟩
abbrev PERT_XDLY_QUEUE : Field := ⟨.pert, 0xD010, 9, 6, 0, 0⟩
abbrev PERT_XDLY_DIR : Field := ⟨.pert, 0xD010, 10, 10, 0, 0⟩
abbrev PERT_XDLY_DELAY : Field := ⟨.pert, 0xD010, 18, 11, 0, 0⟩
abbrev PERT_XDLY_EN : Field := ⟨.pert, 0xD010, 19, 19, 0, 0⟩

/-! PERT_SLHOLD: 20_counters_perturbation.md R540, Table 20-7. -/
abbrev PERT_SLHOLD_PORT : Field := ⟨.pert, 0xD014, 4, 0, 0, 0⟩
abbrev PERT_SLHOLD_EN : Field := ⟨.pert, 0xD014, 5, 5, 0, 0⟩
abbrev PERT_SLHOLD_START : Field := ⟨.pert, 0xD014, 15, 6, 0, 0⟩
abbrev PERT_SLHOLD_DUR : Field := ⟨.pert, 0xD014, 25, 16, 0, 0⟩

/-! PERT_FSTR: 20_counters_perturbation.md R540, Table 20-7. -/
abbrev PERT_FSTR_ADD : Field := ⟨.pert, 0xD018, 15, 0, 0, 0⟩
abbrev PERT_FSTR_COUNT : Field := ⟨.pert, 0xD018, 23, 16, 0, 0⟩
abbrev PERT_FSTR_EN : Field := ⟨.pert, 0xD018, 24, 24, 0, 0⟩

/-! PERT_TMO_A: 20_counters_perturbation.md R540, Table 20-7. -/
abbrev PERT_TMO_A_KIND : Field := ⟨.pert, 0xD01C, 1, 0, 0, 0⟩
abbrev PERT_TMO_A_REGION : Field := ⟨.pert, 0xD01C, 6, 2, 0, 0⟩
abbrev PERT_TMO_A_B : Field := ⟨.pert, 0xD01C, 14, 7, 0, 0⟩
abbrev PERT_TMO_A_EN : Field := ⟨.pert, 0xD01C, 15, 15, 0, 0⟩

/-! PERT_TMO_B: 20_counters_perturbation.md R540, Table 20-7. -/
abbrev PERT_TMO_B_TARGET : Field := ⟨.pert, 0xD020, 15, 0, 0, 0⟩

/-! PERT_MISM_A: 20_counters_perturbation.md R540, Table 20-7. -/
abbrev PERT_MISM_A_REGION : Field := ⟨.pert, 0xD024, 4, 0, 0, 0⟩
abbrev PERT_MISM_A_B : Field := ⟨.pert, 0xD024, 12, 5, 0, 0⟩
abbrev PERT_MISM_A_ALLB : Field := ⟨.pert, 0xD024, 13, 13, 0, 0⟩
abbrev PERT_MISM_A_PASSES : Field := ⟨.pert, 0xD024, 15, 14, 0, 0⟩
abbrev PERT_MISM_A_EN : Field := ⟨.pert, 0xD024, 16, 16, 0, 0⟩

/-! PERT_MISM_B: 20_counters_perturbation.md R540, Table 20-7. -/
abbrev PERT_MISM_B_EVERY : Field := ⟨.pert, 0xD028, 15, 0, 0, 0⟩
abbrev PERT_MISM_B_COUNT : Field := ⟨.pert, 0xD028, 31, 16, 0, 0⟩

/-! CDV_MAP: 21_codonov_mode.md R551, Table 21-4. -/
abbrev CDV_MAP_VDIE : Field := ⟨.hub, 0xE000, 4, 0, 4, 0⟩

/-! CDV_STAT: 21_codonov_mode.md R551, Table 21-4. -/
abbrev CDV_STAT_USED : Field := ⟨.hub, 0xE080, 31, 0, 0, 0⟩

/-! CDV_CNT: 21_codonov_mode.md R551, Table 21-4. -/
abbrev CDV_CNT_XLATE : Field := ⟨.hub, 0xE084, 15, 0, 0, 0⟩
abbrev CDV_CNT_XFAIL : Field := ⟨.hub, 0xE084, 31, 16, 0, 0⟩

/-! MCHK_CTL: 23_address_map.md R569, Table 6-19. -/
abbrev MCHK_CTL_POLY : Field := ⟨.hub, 0xF000, 1, 0, 0, 0⟩
abbrev MCHK_CTL_INIT : Field := ⟨.hub, 0xF000, 2, 2, 0, 0⟩

/-! MCHK_VAL_LO: 23_address_map.md R569, Table 6-19. -/
abbrev MCHK_VAL_LO_VAL : Field := ⟨.hub, 0xF004, 31, 0, 0, 0⟩

/-! MCHK_VAL_HI: 23_address_map.md R569, Table 6-19. -/
abbrev MCHK_VAL_HI_VAL : Field := ⟨.hub, 0xF008, 31, 0, 0, 0⟩

/-! MCHK_STAT: 23_address_map.md R569, Table 6-20. -/
abbrev MCHK_STAT_BUSY : Field := ⟨.hub, 0xF00C, 0, 0, 0, 0⟩
abbrev MCHK_STAT_DONE : Field := ⟨.hub, 0xF00C, 1, 1, 0, 0⟩
abbrev MCHK_STAT_TAG : Field := ⟨.hub, 0xF00C, 31, 16, 0, 0⟩

/-! SL_CTL: 12_sightlines.md R366, Table 12-13. -/
abbrev SL_CTL_SWAP : Field := ⟨.port, 0x0, 0, 0, 0, 0⟩
abbrev SL_CTL_RESET : Field := ⟨.port, 0x0, 1, 1, 0, 0⟩
abbrev SL_CTL_NORETRAIN : Field := ⟨.port, 0x0, 2, 2, 0, 0⟩
abbrev SL_CTL_RETRY_MAX : Field := ⟨.port, 0x0, 7, 4, 0, 0⟩
abbrev SL_CTL_TOL : Field := ⟨.port, 0x0, 15, 8, 0, 0⟩

/-! SL_STAT: 12_sightlines.md R366, Table 12-13. -/
abbrev SL_STAT_STATE : Field := ⟨.port, 0x4, 2, 0, 0, 0⟩
abbrev SL_STAT_ROLE : Field := ⟨.port, 0x4, 3, 3, 0, 0⟩
abbrev SL_STAT_LOCK : Field := ⟨.port, 0x4, 11, 4, 0, 0⟩
abbrev SL_STAT_LATOK : Field := ⟨.port, 0x4, 12, 12, 0, 0⟩
abbrev SL_STAT_DOWNEV : Field := ⟨.port, 0x4, 13, 13, 0, 0⟩
abbrev SL_STAT_DISEV : Field := ⟨.port, 0x4, 14, 14, 0, 0⟩
abbrev SL_STAT_OVF : Field := ⟨.port, 0x4, 15, 15, 0, 0⟩
abbrev SL_STAT_LATE : Field := ⟨.port, 0x4, 16, 16, 0, 0⟩

/-! SL_DIS: 12_sightlines.md R366, Table 12-13. -/
abbrev SL_DIS_FAIL : Field := ⟨.port, 0x8, 4, 0, 0, 0⟩

/-! SL_JOIN: 12_sightlines.md R366, Table 12-13. -/
abbrev SL_JOIN_JOINED : Field := ⟨.port, 0xC, 15, 0, 0, 0⟩
abbrev SL_JOIN_PEER : Field := ⟨.port, 0xC, 31, 16, 0, 0⟩

/-! SL_DETACH: 12_sightlines.md R366, Table 12-13. -/
abbrev SL_DETACH_DETACH : Field := ⟨.port, 0x10, 15, 0, 0, 0⟩

/-! SL_LAT: 12_sightlines.md R366, Table 12-13. -/
abbrev SL_LAT_LAT : Field := ⟨.port, 0x14, 15, 0, 0, 0⟩

/-! SL_OFS: 12_sightlines.md R366, Table 12-13. -/
abbrev SL_OFS_OFS : Field := ⟨.port, 0x18, 31, 0, 0, 0⟩

/-! SL_DECL: 12_sightlines.md R366, Table 12-13. -/
abbrev SL_DECL_DECL : Field := ⟨.port, 0x1C, 31, 0, 0, 0⟩

/-! SL_RETRY: 12_sightlines.md R366, Table 12-13. -/
abbrev SL_RETRY_COUNT : Field := ⟨.port, 0x20, 15, 0, 0, 0⟩
abbrev SL_RETRY_SAT : Field := ⟨.port, 0x20, 16, 16, 0, 0⟩
abbrev SL_RETRY_CLR : Field := ⟨.port, 0x20, 31, 31, 0, 0⟩

/-! SL_DUP: 12_sightlines.md R366, Table 12-13. -/
abbrev SL_DUP_COUNT : Field := ⟨.port, 0x24, 15, 0, 0, 0⟩
abbrev SL_DUP_SAT : Field := ⟨.port, 0x24, 16, 16, 0, 0⟩
abbrev SL_DUP_CLR : Field := ⟨.port, 0x24, 31, 31, 0, 0⟩

/-! SL_DISC: 12_sightlines.md R366, Table 12-13. -/
abbrev SL_DISC_COUNT : Field := ⟨.port, 0x28, 23, 0, 0, 0⟩
abbrev SL_DISC_SAT : Field := ⟨.port, 0x28, 24, 24, 0, 0⟩
abbrev SL_DISC_CLR : Field := ⟨.port, 0x28, 31, 31, 0, 0⟩

/-! SL_PSER_LO: 12_sightlines.md R366, Table 12-13. -/
abbrev SL_PSER_LO_SER : Field := ⟨.port, 0x2C, 31, 0, 0, 0⟩

/-! SL_PSER_HI: 12_sightlines.md R366, Table 12-13. -/
abbrev SL_PSER_HI_SER : Field := ⟨.port, 0x30, 31, 0, 0, 0⟩

/-! SL_PFW: 12_sightlines.md R366, Table 12-13. -/
abbrev SL_PFW_FW : Field := ⟨.port, 0x34, 31, 0, 0, 0⟩

/-! CR_BASE_LO: 13_host_interface.md R392, Table 13-20. -/
abbrev CR_BASE_LO_BASE : Field := ⟨.ring, 0x0, 31, 12, 0, 0⟩

/-! CR_BASE_HI: 13_host_interface.md R392, Table 13-20. -/
abbrev CR_BASE_HI_BASE : Field := ⟨.ring, 0x4, 31, 0, 0, 0⟩

/-! CR_CTL: 13_host_interface.md R392, Table 13-20. -/
abbrev CR_CTL_EN : Field := ⟨.ring, 0x8, 0, 0, 0, 0⟩
abbrev CR_CTL_FLUSH : Field := ⟨.ring, 0x8, 1, 1, 0, 0⟩
abbrev CR_CTL_LOG2SLOTS : Field := ⟨.ring, 0x8, 12, 8, 0, 0⟩
abbrev CR_CTL_CPLVEC : Field := ⟨.ring, 0x8, 20, 16, 0, 0⟩

/-! CR_DB: 13_host_interface.md R392, Table 13-20. -/
abbrev CR_DB_PI : Field := ⟨.ring, 0xC, 31, 0, 0, 0⟩

/-! CR_CI: 13_host_interface.md R392, Table 13-20. -/
abbrev CR_CI_CI : Field := ⟨.ring, 0x10, 31, 0, 0, 0⟩

/-! CR_STAT: 13_host_interface.md R392, Table 13-20. -/
abbrev CR_STAT_ERR : Field := ⟨.ring, 0x14, 3, 0, 0, 0⟩
abbrev CR_STAT_FLUSHING : Field := ⟨.ring, 0x14, 4, 4, 0, 0⟩
abbrev CR_STAT_BUSY : Field := ⟨.ring, 0x14, 5, 5, 0, 0⟩

/-! CR_LAST_LO: 13_host_interface.md R392, Table 13-20. -/
abbrev CR_LAST_LO_SER : Field := ⟨.ring, 0x18, 31, 0, 0, 0⟩

/-! CR_LAST_HI: 13_host_interface.md R392, Table 13-20. -/
abbrev CR_LAST_HI_SER : Field := ⟨.ring, 0x1C, 31, 0, 0, 0⟩

/-! CC_BASE_LO: 13_host_interface.md R392, Table 13-20. -/
abbrev CC_BASE_LO_BASE : Field := ⟨.ring, 0x20, 31, 12, 0, 0⟩

/-! CC_BASE_HI: 13_host_interface.md R392, Table 13-20. -/
abbrev CC_BASE_HI_BASE : Field := ⟨.ring, 0x24, 31, 0, 0, 0⟩

/-! CC_CTL: 13_host_interface.md R392, Table 13-20. -/
abbrev CC_CTL_LOG2ENT : Field := ⟨.ring, 0x28, 4, 0, 0, 0⟩

/-! CC_HEAD: 13_host_interface.md R392, Table 13-20. -/
abbrev CC_HEAD_HEAD : Field := ⟨.ring, 0x2C, 31, 0, 0, 0⟩

/-! CC_TAIL: 13_host_interface.md R392, Table 13-20. -/
abbrev CC_TAIL_TAIL : Field := ⟨.ring, 0x30, 31, 0, 0, 0⟩

/-! FB_BASE_LO: 13_host_interface.md R392, Table 13-21. -/
abbrev FB_BASE_LO_BASE : Field := ⟨.book, 0x0, 31, 12, 0, 0⟩

/-! FB_BASE_HI: 13_host_interface.md R392, Table 13-21. -/
abbrev FB_BASE_HI_BASE : Field := ⟨.book, 0x4, 31, 0, 0, 0⟩

/-! FB_CTL: 13_host_interface.md R392, Table 13-21. -/
abbrev FB_CTL_EN : Field := ⟨.book, 0x8, 0, 0, 0, 0⟩
abbrev FB_CTL_LOG2ENT : Field := ⟨.book, 0x8, 5, 1, 0, 0⟩
abbrev FB_CTL_IRQN : Field := ⟨.book, 0x8, 31, 16, 0, 0⟩

/-! FB_HEAD: 13_host_interface.md R392, Table 13-21. -/
abbrev FB_HEAD_HEAD : Field := ⟨.book, 0xC, 31, 0, 0, 0⟩

/-! FB_TAIL: 13_host_interface.md R392, Table 13-21. -/
abbrev FB_TAIL_TAIL : Field := ⟨.book, 0x10, 31, 0, 0, 0⟩

/-! FB_LOST: 13_host_interface.md R392, Table 13-21. -/
abbrev FB_LOST_COUNT : Field := ⟨.book, 0x14, 23, 0, 0, 0⟩
abbrev FB_LOST_SAT : Field := ⟨.book, 0x14, 24, 24, 0, 0⟩
abbrev FB_LOST_CRIT : Field := ⟨.book, 0x14, 25, 25, 0, 0⟩
abbrev FB_LOST_CLR : Field := ⟨.book, 0x14, 31, 31, 0, 0⟩

/-! VF_HB_COMMITS: 13_host_interface.md R392, Table 13-14. -/
abbrev VF_HB_COMMITS_HB : Field := ⟨.vf, 0x0, 31, 0, 0, 0⟩

/-! VF_HB_COMPLETES: 13_host_interface.md R392, Table 13-14. -/
abbrev VF_HB_COMPLETES_HB : Field := ⟨.vf, 0x4, 31, 0, 0, 0⟩

/-! VF_HB_MC: 13_host_interface.md R392, Table 13-14. -/
abbrev VF_HB_MC_HB : Field := ⟨.vf, 0x8, 31, 0, 0, 0⟩

/-! VF_STAT: 13_host_interface.md R392, Table 13-14. -/
abbrev VF_STAT_PARCEL : Field := ⟨.vf, 0xC, 3, 0, 0, 0⟩
abbrev VF_STAT_ACTIVE : Field := ⟨.vf, 0xC, 4, 4, 0, 0⟩
abbrev VF_STAT_OOS : Field := ⟨.vf, 0xC, 5, 5, 0, 0⟩

/-! VF_B2BASE_LO: 13_host_interface.md R392, Table 13-14. -/
abbrev VF_B2BASE_LO_BASE : Field := ⟨.vf, 0x10, 31, 0, 0, 0⟩

/-! VF_B2BASE_HI: 13_host_interface.md R392, Table 13-14. -/
abbrev VF_B2BASE_HI_BASE : Field := ⟨.vf, 0x14, 8, 0, 0, 0⟩

/-! EVC_SEL: 20_counters_perturbation.md R540, Table 20-4. -/
abbrev EVC_SEL_SRC : Field := ⟨.evc, 0x0, 9, 0, 0, 0⟩
abbrev EVC_SEL_MODE : Field := ⟨.evc, 0x0, 11, 10, 0, 0⟩
abbrev EVC_SEL_PARCEL : Field := ⟨.evc, 0x0, 15, 12, 0, 0⟩
abbrev EVC_SEL_PFILT : Field := ⟨.evc, 0x0, 16, 16, 0, 0⟩
abbrev EVC_SEL_SAT : Field := ⟨.evc, 0x0, 17, 17, 0, 0⟩
abbrev EVC_SEL_CLR : Field := ⟨.evc, 0x0, 31, 31, 0, 0⟩

/-! EVC_LO: 20_counters_perturbation.md R540, Table 20-4. -/
abbrev EVC_LO_CNT : Field := ⟨.evc, 0x4, 31, 0, 0, 0⟩

/-! EVC_HI: 20_counters_perturbation.md R540, Table 20-4. -/
abbrev EVC_HI_CNT : Field := ⟨.evc, 0x8, 15, 0, 0, 0⟩

/-! EVC_SNAP_LO: 20_counters_perturbation.md R540, Table 20-4. -/
abbrev EVC_SNAP_LO_SNAP : Field := ⟨.evc, 0x10, 31, 0, 0, 0⟩

/-! EVC_SNAP_HI: 20_counters_perturbation.md R540, Table 20-4. -/
abbrev EVC_SNAP_HI_SNAP : Field := ⟨.evc, 0x14, 15, 0, 0, 0⟩

/-! SSTRM: 08_fabric_route_plans.md R234, Table 8-8. -/
abbrev SSTRM_WORD : Field := ⟨.region, 0x1000, 31, 0, 16, 4⟩

/-! STRD: 07_region_store_hbm.md R197, Table 7-2. -/
abbrev STRD_WORD : Field := ⟨.region, 0x20000, 31, 0, 8192, 4⟩

/-- Rows of the register tables, piece 0. -/
def regRows0 : List RegRow :=
  [⟨RGN_COLSKIP0_SKIP0, 1, 1, .rws⟩,
   ⟨RGN_COLSKIP0_SKIP1, 1, 1, .rws⟩,
   ⟨RGN_COLSKIP0_SKIP2, 1, 1, .rws⟩,
   ⟨RGN_COLSKIP0_SKIP3, 1, 1, .rws⟩,
   ⟨RGN_COLSKIP0_SKIP4, 1, 1, .rws⟩,
   ⟨RGN_COLSKIP0_SKIP5, 1, 1, .rws⟩,
   ⟨RGN_COLSKIP0_SKIP6, 1, 1, .rws⟩,
   ⟨RGN_COLSKIP0_SKIP7, 1, 1, .rws⟩,
   ⟨RGN_COLSKIP1_SKIP0, 1, 1, .rws⟩,
   ⟨RGN_COLSKIP1_SKIP1, 1, 1, .rws⟩,
   ⟨RGN_COLSKIP1_SKIP2, 1, 1, .rws⟩,
   ⟨RGN_COLSKIP1_SKIP3, 1, 1, .rws⟩,
   ⟨RGN_COLSKIP1_SKIP4, 1, 1, .rws⟩,
   ⟨RGN_COLSKIP1_SKIP5, 1, 1, .rws⟩,
   ⟨RGN_COLSKIP1_SKIP6, 1, 1, .rws⟩,
   ⟨RGN_COLSKIP1_SKIP7, 1, 1, .rws⟩,
   ⟨RGN_SHADOW_ARMED, 1, 1, .ro⟩,
   ⟨RGN_SHADOW_WITHDRAWN, 1, 1, .ro⟩,
   ⟨RGN_SHADOW_SBERR, 1, 1, .w1c⟩,
   ⟨RGN_SHADOW_STEPOK, 1, 1, .ro⟩,
   ⟨BLK_ID_LX, 1, 1, .ro⟩,
   ⟨BLK_ID_LY, 1, 1, .ro⟩,
   ⟨BLK_ID_DIE, 1, 1, .ro⟩,
   ⟨BLK_ID_PCOL, 1, 1, .ro⟩,
   ⟨BLK_ID_PNUM, 1, 1, .ro⟩,
   ⟨BLK_STN_STATION, 1, 1, .rws⟩,
   ⟨BLK_STN_PARCEL, 1, 1, .rws⟩,
   ⟨BLK_STN_MEMBER, 1, 1, .rws⟩,
   ⟨FRM_LEN_LEN, 1, 1, .rws⟩,
   ⟨FRM_RES_RES_Q, 1, 1, .rws⟩,
   ⟨FRM_PHASE_PHASE, 1, 1, .rw⟩,
   ⟨FRM_CTL_EPOCH_ARM, 1, 1, .w1s⟩,
   ⟨FRM_CTL_EPOCH_TOL, 1, 1, .rw⟩,
   ⟨FRM_CTL_OVR_LIMIT, 1, 1, .rw⟩,
   ⟨FRM_STAT_ALIGNED, 1, 1, .ro⟩,
   ⟨FRM_STAT_REALIGNED, 1, 1, .w1c⟩,
   ⟨FRM_STAT_EPOCH_REFUSED, 1, 1, .w1c⟩,
   ⟨FRM_STAT_EPOCH_SLIP, 1, 1, .w1c⟩,
   ⟨FRM_STAT_BAD_WRITE, 1, 1, .w1c⟩,
   ⟨FRM_STAT_STEP_REFUSED, 1, 1, .w1c⟩]

/-- Rows of the register tables, piece 1. -/
def regRows1 : List RegRow :=
  [⟨FRM_STAT_PHWRAP, 1, 1, .w1c⟩,
   ⟨FRM_STAT_SLIP, 1, 1, .ro⟩,
   ⟨FRM_NUM_LO_NUM_LO, 1, 1, .ro⟩,
   ⟨FRM_NUM_HI_NUM_HI, 1, 1, .ro⟩,
   ⟨FRM_POS_POS, 1, 1, .ro⟩,
   ⟨FRM_POS_PART, 1, 1, .ro⟩,
   ⟨BLK_ARR_MAP_XROW, 1, 1, .rws⟩,
   ⟨BLK_ARR_MAP_XCOL, 1, 1, .rws⟩,
   ⟨BLK_CHK_TOL_TOL_EXP, 1, 1, .rws⟩,
   ⟨BLK_CHK_TOL_FLOOR, 1, 1, .rws⟩,
   ⟨BLK_MX_STAT_BUSY, 1, 1, .ro⟩,
   ⟨BLK_MX_STAT_SET0, 1, 1, .ro⟩,
   ⟨BLK_MX_STAT_SET1, 1, 1, .ro⟩,
   ⟨BLK_MX_STAT_REPLAY, 1, 1, .ro⟩,
   ⟨BLK_MX_STAT_TRANS, 1, 1, .w1c⟩,
   ⟨BLK_MX_STAT_POISON, 1, 1, .w1c⟩,
   ⟨BLK_MX_STAT_RANGE, 1, 1, .w1c⟩,
   ⟨BLK_MX_STAT_UNRES, 1, 1, .w1c⟩,
   ⟨BLK_MX_STAT_SUSPECT, 1, 1, .ro⟩,
   ⟨BLK_MX_STAT_BREACH, 1, 1, .w1c⟩,
   ⟨BLK_MX_TRANS_COUNT, 1, 1, .ro⟩,
   ⟨BLK_MX_TRANS_SAT, 1, 1, .ro⟩,
   ⟨BLK_MX_TRANS_CLR, 1, 1, .wo⟩,
   ⟨BLK_MX_LAST_TAG, 1, 1, .ro⟩,
   ⟨BLK_MX_LAST_INDEX, 1, 1, .ro⟩,
   ⟨BLK_MX_LAST_AXIS, 1, 1, .ro⟩,
   ⟨BLK_MX_LAST_PASS, 1, 1, .ro⟩,
   ⟨BLK_CB_VALID_VALID, 1, 1, .ro⟩,
   ⟨BLK_CB_VALID_STD, 1, 1, .ro⟩,
   ⟨BLK_CB_CTL_IDX, 1, 1, .rw⟩,
   ⟨BLK_CB_CTL_LOAD, 1, 1, .wo⟩,
   ⟨BLK_CB_CTL_DROP, 1, 1, .wo⟩,
   ⟨BLK_CB_IMG_E0, 32, 4, .rw⟩,
   ⟨BLK_CB_IMG_E1, 32, 4, .rw⟩,
   ⟨BLK_CB_IMG_E2, 32, 4, .rw⟩,
   ⟨BLK_CB_IMG_E3, 32, 4, .rw⟩,
   ⟨BLK_MSE_THR_THR, 1, 1, .rws⟩,
   ⟨BLK_MSE_LAST_MSE, 1, 1, .ro⟩,
   ⟨BLK_FMT_STAT_WIDEN, 1, 1, .w1c⟩,
   ⟨BLK_FMT_STAT_SATUR, 1, 1, .w1c⟩]

/-- Rows of the register tables, piece 2. -/
def regRows2 : List RegRow :=
  [⟨BLK_FMT_STAT_NANOUT, 1, 1, .w1c⟩,
   ⟨BLK_FMT_STAT_TAGSUB, 1, 1, .w1c⟩,
   ⟨BLK_FMT_STAT_CBREF, 1, 1, .w1c⟩,
   ⟨BLK_FMT_STAT_LASTW, 1, 1, .ro⟩,
   ⟨BLK_FMT_WIDEN_COUNT, 1, 1, .ro⟩,
   ⟨BLK_FMT_WIDEN_SAT, 1, 1, .ro⟩,
   ⟨BLK_FMT_WIDEN_CLR, 1, 1, .wo⟩,
   ⟨BLK_FMT_SATCNT_COUNT, 1, 1, .ro⟩,
   ⟨BLK_FMT_SATCNT_SAT, 1, 1, .ro⟩,
   ⟨BLK_FMT_SATCNT_CLR, 1, 1, .wo⟩,
   ⟨SP_RING_BASE_BASE, 32, 1, .rws⟩,
   ⟨SP_RING_BASE_SSIZE, 32, 1, .rws⟩,
   ⟨SP_RING_CTL_EN, 32, 1, .rws⟩,
   ⟨SP_RING_CTL_SCOUNT, 32, 1, .rws⟩,
   ⟨SP_RING_CTL_CONS, 32, 1, .rws⟩,
   ⟨SP_RING_CTL_HWIN, 32, 1, .rws⟩,
   ⟨SP_RING_TMO_TMO, 32, 1, .rws⟩,
   ⟨SP_RING_STATE_FILL, 32, 1, .ro⟩,
   ⟨SP_RING_STATE_TAKE, 32, 1, .ro⟩,
   ⟨SP_RING_STATE_FULL, 32, 1, .ro⟩,
   ⟨DRN_DESC0_CCW, 64, 1, .rws⟩,
   ⟨DRN_DESC0_ACC, 64, 1, .rws⟩,
   ⟨DRN_DESC0_RING_P, 64, 1, .rws⟩,
   ⟨DRN_DESC0_LUTEN, 64, 1, .rws⟩,
   ⟨DRN_DESC0_LUT, 64, 1, .rws⟩,
   ⟨DRN_DESC0_CMX, 64, 1, .rws⟩,
   ⟨DRN_DESC1_RTAB, 64, 1, .rws⟩,
   ⟨DRN_DESC1_RING_C, 64, 1, .rws⟩,
   ⟨DRN_DESC1_RMX, 64, 1, .rws⟩,
   ⟨DRN_DESC1_RING_R, 64, 1, .rws⟩,
   ⟨DRN_DESC2_CMXK, 64, 1, .rws⟩,
   ⟨SP_STAT_CE, 1, 1, .w1c⟩,
   ⟨SP_STAT_UE, 1, 1, .w1c⟩,
   ⟨SP_STAT_HELD, 1, 1, .ro⟩,
   ⟨SP_STAT_HBREACH, 1, 1, .w1c⟩,
   ⟨SP_STAT_LTMO, 1, 1, .w1c⟩,
   ⟨SP_STAT_ACCOVF, 1, 1, .w1c⟩,
   ⟨SP_STAT_LUTREF, 1, 1, .w1c⟩,
   ⟨SP_STAT_PWRREF, 1, 1, .w1c⟩,
   ⟨SP_ECC_CNT_CE, 1, 1, .ro⟩]

/-- Rows of the register tables, piece 3. -/
def regRows3 : List RegRow :=
  [⟨SP_ECC_CNT_UE, 1, 1, .ro⟩,
   ⟨SP_ECC_CNT_CESAT, 1, 1, .ro⟩,
   ⟨SP_ECC_CNT_UESAT, 1, 1, .ro⟩,
   ⟨SP_ECC_CNT_CLR, 1, 1, .wo⟩,
   ⟨SP_ECC_ADDR_ADDR, 1, 1, .ro⟩,
   ⟨SP_ECC_ADDR_UE, 1, 1, .ro⟩,
   ⟨SP_PWR_REQ, 1, 1, .rw⟩,
   ⟨SP_PWR_CUR, 1, 1, .ro⟩,
   ⟨SP_HOLD_OCC, 1, 1, .ro⟩,
   ⟨SP_HOLD_PEAK, 1, 1, .ro⟩,
   ⟨SP_HOLD_CLRPK, 1, 1, .wo⟩,
   ⟨SP_LAST_RING, 1, 1, .ro⟩,
   ⟨SP_LAST_SLOT, 1, 1, .ro⟩,
   ⟨SP_LAST_SUBTYPE, 1, 1, .ro⟩,
   ⟨DRN_MSE_SUM_SUM, 1, 1, .ro⟩,
   ⟨DRN_MSE_CNT_COUNT, 1, 1, .ro⟩,
   ⟨DRN_MSE_CNT_SAT, 1, 1, .ro⟩,
   ⟨DRN_LUT_STAT_VALID, 1, 1, .ro⟩,
   ⟨SEQ_STAT_OCC, 1, 1, .ro⟩,
   ⟨SEQ_STAT_HEADOPC, 1, 1, .ro⟩,
   ⟨SEQ_STAT_HEADWAIT, 1, 1, .ro⟩,
   ⟨SEQ_STAT_SIGHT, 1, 1, .ro⟩,
   ⟨SEQ_DELAY_DELAY, 1, 1, .ro⟩,
   ⟨SEQ_CHG_CYC, 7, 1, .ro⟩,
   ⟨SC_CTL_HALTED, 1, 1, .ro⟩,
   ⟨SC_CTL_START, 1, 1, .wo⟩,
   ⟨SC_CTL_DBLF, 1, 1, .w1c⟩,
   ⟨SC_PC_PC, 1, 1, .rw⟩,
   ⟨SC_REC_PEND, 1, 1, .ro⟩,
   ⟨SC_REC_LOST, 1, 1, .ro⟩,
   ⟨SC_REC_LSAT, 1, 1, .ro⟩,
   ⟨SC_REC_CLR, 1, 1, .wo⟩,
   ⟨SC_CONS0_CONS0, 1, 1, .rws⟩,
   ⟨SC_CONS0_CONS1, 1, 1, .rws⟩,
   ⟨SC_CONS0_CONS2, 1, 1, .rws⟩,
   ⟨SC_CONS0_CONS3, 1, 1, .rws⟩,
   ⟨SC_CONS0_CONS4, 1, 1, .rws⟩,
   ⟨SC_CONS0_CONS5, 1, 1, .rws⟩,
   ⟨SC_CONS0_CONS6, 1, 1, .rws⟩,
   ⟨SC_CONS0_CONS7, 1, 1, .rws⟩]

/-- Rows of the register tables, piece 4. -/
def regRows4 : List RegRow :=
  [⟨SC_CONS0_CONS8, 1, 1, .rws⟩,
   ⟨SC_CONS0_CONS9, 1, 1, .rws⟩,
   ⟨SC_CONS0_CONS10, 1, 1, .rws⟩,
   ⟨SC_CONS0_CONS11, 1, 1, .rws⟩,
   ⟨SC_CONS0_CONS12, 1, 1, .rws⟩,
   ⟨SC_CONS0_CONS13, 1, 1, .rws⟩,
   ⟨SC_CONS0_CONS14, 1, 1, .rws⟩,
   ⟨SC_CONS0_CONS15, 1, 1, .rws⟩,
   ⟨SC_CONS1_CONS0, 1, 1, .rws⟩,
   ⟨SC_CONS1_CONS1, 1, 1, .rws⟩,
   ⟨SC_CONS1_CONS2, 1, 1, .rws⟩,
   ⟨SC_CONS1_CONS3, 1, 1, .rws⟩,
   ⟨SC_CONS1_CONS4, 1, 1, .rws⟩,
   ⟨SC_CONS1_CONS5, 1, 1, .rws⟩,
   ⟨SC_CONS1_CONS6, 1, 1, .rws⟩,
   ⟨SC_CONS1_CONS7, 1, 1, .rws⟩,
   ⟨SC_CONS1_CONS8, 1, 1, .rws⟩,
   ⟨SC_CONS1_CONS9, 1, 1, .rws⟩,
   ⟨SC_CONS1_CONS10, 1, 1, .rws⟩,
   ⟨SC_CONS1_CONS11, 1, 1, .rws⟩,
   ⟨SC_CONS1_CONS12, 1, 1, .rws⟩,
   ⟨SC_CONS1_CONS13, 1, 1, .rws⟩,
   ⟨SC_CONS1_CONS14, 1, 1, .rws⟩,
   ⟨SC_CONS1_CONS15, 1, 1, .rws⟩,
   ⟨CHK_CTL_POLY, 1, 1, .rw⟩,
   ⟨CHK_CTL_INIT, 1, 1, .wo⟩,
   ⟨CHK_VAL_LO_VAL, 1, 1, .rw⟩,
   ⟨CHK_VAL_HI_VAL, 1, 1, .rw⟩,
   ⟨CHK_STAT_BUSY, 1, 1, .ro⟩,
   ⟨CHK_STAT_DONE, 1, 1, .w1c⟩,
   ⟨CHK_STAT_TAG, 1, 1, .ro⟩,
   ⟨RT_CTL_PARCEL, 1, 1, .rws⟩,
   ⟨RT_STAT_PERR, 1, 1, .w1c⟩,
   ⟨RT_STAT_PDROP, 1, 1, .w1c⟩,
   ⟨RT_STAT_GDROP, 1, 1, .w1c⟩,
   ⟨RT_STAT_LOST, 1, 1, .w1c⟩,
   ⟨RT_STAT_EASV, 1, 1, .w1c⟩,
   ⟨RT_STAT_EIN, 1, 1, .ro⟩,
   ⟨RT_STAT_EOUT, 1, 1, .ro⟩,
   ⟨RT_DROPCNT_COUNT, 1, 1, .ro⟩]

/-- Rows of the register tables, piece 5. -/
def regRows5 : List RegRow :=
  [⟨RT_DROPCNT_SAT, 1, 1, .ro⟩,
   ⟨RT_DROPCNT_CLR, 1, 1, .wo⟩,
   ⟨RT_GEN_GEN0, 1, 1, .ro⟩,
   ⟨RT_GEN_GEN1, 1, 1, .ro⟩,
   ⟨RT_GEN_GEN2, 1, 1, .ro⟩,
   ⟨RT_GEN_GEN3, 1, 1, .ro⟩,
   ⟨RT_GEN_GEN4, 1, 1, .ro⟩,
   ⟨RT_GEN_GEN5, 1, 1, .ro⟩,
   ⟨RT_GEN_GEN6, 1, 1, .ro⟩,
   ⟨RT_GEN_GEN7, 1, 1, .ro⟩,
   ⟨RT_GEN_GEN8, 1, 1, .ro⟩,
   ⟨RT_GEN_GEN9, 1, 1, .ro⟩,
   ⟨RT_GEN_GEN10, 1, 1, .ro⟩,
   ⟨RT_GEN_GEN11, 1, 1, .ro⟩,
   ⟨RT_GEN_GEN12, 1, 1, .ro⟩,
   ⟨RT_GEN_GEN13, 1, 1, .ro⟩,
   ⟨RT_GEN_GEN14, 1, 1, .ro⟩,
   ⟨RT_GEN_GEN15, 1, 1, .ro⟩,
   ⟨LEP_A0_EN, 64, 1, .rws⟩,
   ⟨LEP_A0_DIR, 64, 1, .rws⟩,
   ⟨LEP_A0_RING, 64, 1, .rws⟩,
   ⟨LEP_A0_CONS, 64, 1, .rws⟩,
   ⟨LEP_A0_LEG, 64, 1, .rws⟩,
   ⟨LEP_A0_DFMT, 64, 1, .rws⟩,
   ⟨LEP_A0_WID, 64, 1, .rws⟩,
   ⟨LEP_A1_TWORDS, 64, 1, .rws⟩,
   ⟨LEP_A1_NPAN, 64, 1, .rws⟩,
   ⟨LEP_A1_TPF, 64, 1, .rws⟩,
   ⟨LEP_B0_PPD, 64, 1, .rws⟩,
   ⟨LEP_B0_PBASE, 64, 1, .rws⟩,
   ⟨LEP_B0_SQM, 64, 1, .rws⟩,
   ⟨LEP_B0_SQO, 64, 1, .rws⟩,
   ⟨LEP_B1_NSEQ, 64, 1, .ro⟩,
   ⟨LEG_FAULT_LEP, 1, 1, .ro⟩,
   ⟨LEG_FAULT_SUBTYPE, 1, 1, .ro⟩,
   ⟨LEG_FCNT_COUNT, 1, 1, .ro⟩,
   ⟨LEG_FCNT_SAT, 1, 1, .ro⟩,
   ⟨LEG_FCNT_CLR, 1, 1, .wo⟩,
   ⟨LEP_STK_STK0, 32, 1, .rws⟩,
   ⟨LEP_STK_STK1, 32, 1, .rws⟩]

/-- Rows of the register tables, piece 6. -/
def regRows6 : List RegRow :=
  [⟨STK_LSEL_IDX, 1, 1, .rw⟩,
   ⟨STK_LCNT_COUNT, 1, 1, .ro⟩,
   ⟨STK_LCFG_PARCEL, 1, 1, .rws⟩,
   ⟨STK_LCFG_EN, 1, 1, .rws⟩,
   ⟨STK_LCFG_LAG, 1, 1, .rws⟩,
   ⟨STK_LCFG_TMODE, 1, 1, .rws⟩,
   ⟨STK_LCFG_TMO, 1, 1, .rws⟩,
   ⟨STK_LCFG_ROLL, 1, 1, .rws⟩,
   ⟨STK_LVIEW_VOID, 1, 1, .ro⟩,
   ⟨STK_LVIEW_POISON, 1, 1, .ro⟩,
   ⟨STK_LVIEW_OVF, 1, 1, .ro⟩,
   ⟨STK_LVIEW_STREAK, 1, 1, .ro⟩,
   ⟨STK_LVIEW_LAGGED, 1, 1, .ro⟩,
   ⟨STK_BSTAT_TRESP, 1, 1, .w1c⟩,
   ⟨STK_BSTAT_STALE, 1, 1, .w1c⟩,
   ⟨STK_BSTAT_OVF, 1, 1, .w1c⟩,
   ⟨STK_BSTAT_LAGERR, 1, 1, .w1c⟩,
   ⟨STK_BSTAT_DSEQ, 1, 1, .w1c⟩,
   ⟨STK_BSTAT_TCOUNT, 1, 1, .ro⟩,
   ⟨RS_STAT_CE, 1, 1, .w1c⟩,
   ⟨RS_STAT_UE, 1, 1, .w1c⟩,
   ⟨RS_ECC_CNT_CE, 1, 1, .ro⟩,
   ⟨RS_ECC_CNT_UE, 1, 1, .ro⟩,
   ⟨RS_ECC_CNT_CESAT, 1, 1, .ro⟩,
   ⟨RS_ECC_CNT_UESAT, 1, 1, .ro⟩,
   ⟨RS_ECC_CNT_CLR, 1, 1, .wo⟩,
   ⟨RS_ECC_ADDR_ADDR, 1, 1, .ro⟩,
   ⟨RS_ECC_ADDR_UE, 1, 1, .ro⟩,
   ⟨HBM_STAT_TRAINED, 1, 1, .ro⟩,
   ⟨HBM_STAT_HOT, 1, 1, .ro⟩,
   ⟨HBM_STAT_CE, 1, 1, .w1c⟩,
   ⟨HBM_STAT_UE, 1, 1, .w1c⟩,
   ⟨HBM_STAT_IFTMO, 1, 1, .w1c⟩,
   ⟨HBM_STAT_WINV, 1, 1, .w1c⟩,
   ⟨HBM_ECC_CNT_CE, 1, 1, .ro⟩,
   ⟨HBM_ECC_CNT_UE, 1, 1, .ro⟩,
   ⟨HBM_ECC_CNT_CESAT, 1, 1, .ro⟩,
   ⟨HBM_ECC_CNT_UESAT, 1, 1, .ro⟩,
   ⟨HBM_ECC_CNT_CLR, 1, 1, .wo⟩,
   ⟨HBM_ECC_ADDR_LO_ADDR, 1, 1, .ro⟩]

/-- Rows of the register tables, piece 7. -/
def regRows7 : List RegRow :=
  [⟨HBM_ECC_ADDR_HI_ADDR, 1, 1, .ro⟩,
   ⟨HBM_ECC_ADDR_HI_UE, 1, 1, .ro⟩,
   ⟨HBM_POISON_COUNT, 1, 1, .ro⟩,
   ⟨HBM_POISON_SAT, 1, 1, .ro⟩,
   ⟨HBM_POISON_CLR, 1, 1, .wo⟩,
   ⟨HBM_PATROL_HOURS, 1, 1, .rw⟩,
   ⟨HBM_PATROL_PASSES, 1, 1, .ro⟩,
   ⟨HBM_QOCC_RD, 1, 1, .ro⟩,
   ⟨HBM_QOCC_WR, 1, 1, .ro⟩,
   ⟨MEM_ZERO_BASE_BASE, 1, 1, .rw⟩,
   ⟨MEM_ZERO_LEN_LEN, 1, 1, .rw⟩,
   ⟨MEM_ZERO_CTL_START, 1, 1, .wo⟩,
   ⟨MEM_ZERO_CTL_TGT, 1, 1, .rw⟩,
   ⟨MEM_ZERO_CTL_BUSY, 1, 1, .ro⟩,
   ⟨MEM_ZERO_CTL_DONE, 1, 1, .w1c⟩,
   ⟨MEM_ZERO_CTL_REFUSED, 1, 1, .w1c⟩,
   ⟨MEM_DRAIN_PEND, 1, 1, .ro⟩,
   ⟨MEM_WIN_A_BASE, 16, 1, .rws⟩,
   ⟨MEM_WIN_A_LIMIT, 16, 1, .rws⟩,
   ⟨MEM_WIN_B_PARCEL, 16, 1, .rws⟩,
   ⟨MEM_WIN_B_EN, 16, 1, .rws⟩,
   ⟨MEM_WIN_B_HOST, 16, 1, .rws⟩,
   ⟨STR_STAT_LAST, 8, 1, .ro⟩,
   ⟨STR_STAT_RD, 8, 1, .ro⟩,
   ⟨STR_STAT_WR, 8, 1, .ro⟩,
   ⟨STR_STAT_WAIT, 8, 1, .ro⟩,
   ⟨RGN_BEAT_BEAT, 1, 1, .ro⟩,
   ⟨RGN_BEAT_RSV, 1, 1, .ro⟩,
   ⟨RGN_BEAT_PAT, 1, 1, .ro⟩,
   ⟨RGN_BEAT_GAP, 1, 1, .ro⟩,
   ⟨RGN_BEAT_VAR, 1, 1, .ro⟩,
   ⟨RGN_LOCK_LEADER, 1, 1, .rws⟩,
   ⟨RGN_LOCK_LOCKED, 1, 1, .rws⟩,
   ⟨RGN_LOCK_PINNED, 1, 1, .ro⟩,
   ⟨XSEG_CTL_MODE, 2, 1, .rws⟩,
   ⟨XSEG_CTL_RECAL, 2, 1, .wo⟩,
   ⟨XSEG_CTL_RBUSY, 2, 1, .ro⟩,
   ⟨XSEG_CTL_RDONE, 2, 1, .w1c⟩,
   ⟨XSEG_CTL_RREF, 2, 1, .w1c⟩,
   ⟨XSEG_STAT_CALOK, 2, 1, .ro⟩]

/-- Rows of the register tables, piece 8. -/
def regRows8 : List RegRow :=
  [⟨XSEG_STAT_MLOW, 2, 1, .w1c⟩,
   ⟨XSEG_STAT_SLIP, 2, 1, .w1c⟩,
   ⟨XSEG_STAT_PINNED, 2, 1, .ro⟩,
   ⟨XSEG_STAT_WORST, 2, 1, .ro⟩,
   ⟨XSEG_STAT_SYNCSTEP, 2, 1, .ro⟩,
   ⟨XSEG_FAIL_LO_FAIL, 2, 1, .ro⟩,
   ⟨XSEG_FAIL_HI_FAIL, 2, 1, .ro⟩,
   ⟨XSEG_SPARE_COL0, 2, 1, .rws⟩,
   ⟨XSEG_SPARE_EN0, 2, 1, .rws⟩,
   ⟨XSEG_SPARE_COL1, 2, 1, .rws⟩,
   ⟨XSEG_SPARE_EN1, 2, 1, .rws⟩,
   ⟨XSEG_SPARE_COL2, 2, 1, .rws⟩,
   ⟨XSEG_SPARE_EN2, 2, 1, .rws⟩,
   ⟨XSEG_SPARE_COL3, 2, 1, .rws⟩,
   ⟨XSEG_SPARE_EN3, 2, 1, .rws⟩,
   ⟨XQ_CAL_MUP, 2, 16, .ro⟩,
   ⟨XQ_CAL_MDN, 2, 16, .ro⟩,
   ⟨XQ_CAL_DEF, 2, 16, .ro⟩,
   ⟨STRM_HDR_FMT, 64, 1, .rws⟩,
   ⟨STRM_HDR_CB, 64, 1, .rws⟩,
   ⟨STRM_HDR_HSRC, 64, 1, .rws⟩,
   ⟨STRM_HDR_SRC, 64, 1, .rws⟩,
   ⟨STRM_HDR_LEG, 64, 1, .rws⟩,
   ⟨STRM_HDR_WID, 64, 1, .rws⟩,
   ⟨STRM_FAULT_STRM, 1, 1, .ro⟩,
   ⟨STRM_FAULT_SUBTYPE, 1, 1, .ro⟩,
   ⟨STRM_FCNT_COUNT, 1, 1, .ro⟩,
   ⟨STRM_FCNT_SAT, 1, 1, .ro⟩,
   ⟨STRM_FCNT_CLR, 1, 1, .wo⟩,
   ⟨STK_CNT_COUNT, 4096, 1, .ro⟩,
   ⟨STK_CFG_PARCEL, 4096, 1, .rws⟩,
   ⟨STK_CFG_EN, 4096, 1, .rws⟩,
   ⟨STK_CFG_LAG, 4096, 1, .rws⟩,
   ⟨STK_CFG_TMODE, 4096, 1, .rws⟩,
   ⟨STK_CFG_TMO, 4096, 1, .rws⟩,
   ⟨STK_CFG_ROLL, 4096, 1, .rws⟩,
   ⟨STK_RSTAT_TRESP, 1, 1, .w1c⟩,
   ⟨STK_RSTAT_STALE, 1, 1, .w1c⟩,
   ⟨STK_RSTAT_OVF, 1, 1, .w1c⟩,
   ⟨STK_RSTAT_LAGERR, 1, 1, .w1c⟩]

/-- Rows of the register tables, piece 9. -/
def regRows9 : List RegRow :=
  [⟨STK_RSTAT_DSEQ, 1, 1, .w1c⟩,
   ⟨STK_RSEL_IDX, 1, 1, .rw⟩,
   ⟨STK_RVIEW_VOID, 1, 1, .ro⟩,
   ⟨STK_RVIEW_POISON, 1, 1, .ro⟩,
   ⟨STK_RVIEW_OVF, 1, 1, .ro⟩,
   ⟨STK_RVIEW_STREAK, 1, 1, .ro⟩,
   ⟨STK_RVIEW_LAGGED, 1, 1, .ro⟩,
   ⟨STK_RTCNT_COUNT, 1, 1, .ro⟩,
   ⟨STK_RTCNT_SAT, 1, 1, .ro⟩,
   ⟨STK_RTCNT_CLR, 1, 1, .wo⟩,
   ⟨STK_RGCNT_COUNT, 1, 1, .ro⟩,
   ⟨STK_RGCNT_SAT, 1, 1, .ro⟩,
   ⟨STK_RGCNT_CLR, 1, 1, .wo⟩,
   ⟨STRM_STK_ARRIVE, 64, 1, .rws⟩,
   ⟨SL_LAND0_EN, 16, 1, .rws⟩,
   ⟨SL_LAND0_LPORT, 16, 1, .rws⟩,
   ⟨SL_LAND0_WSTRM, 16, 1, .rws⟩,
   ⟨SL_LAND0_RSTRM, 16, 1, .rws⟩,
   ⟨SL_LAND0_LEG, 16, 1, .rws⟩,
   ⟨SL_LAND1_TPB, 16, 1, .rws⟩,
   ⟨RGN_CLK_STAT_CUR, 1, 1, .ro⟩,
   ⟨RGN_CLK_STAT_NEXT, 1, 1, .ro⟩,
   ⟨RGN_CLK_STAT_COMMIT, 1, 1, .ro⟩,
   ⟨RGN_CLK_STAT_LOCKB, 1, 1, .ro⟩,
   ⟨RGN_CLK_STAT_REFWHY, 1, 1, .ro⟩,
   ⟨RGN_CLK_STAT_REFCNT, 1, 1, .ro⟩,
   ⟨RGN_CLK_STAT_STR, 1, 1, .ro⟩,
   ⟨RGN_CLK_REQ_STEP, 1, 1, .rw⟩,
   ⟨RGN_CLK_REQ_EN, 1, 1, .rw⟩,
   ⟨RGN_CLK_STR_COUNT, 1, 1, .ro⟩,
   ⟨RGN_CLK_STR_SAT, 1, 1, .ro⟩,
   ⟨RGN_CLK_STR_CLR, 1, 1, .wo⟩,
   ⟨PWR_DOM_CTL_REQ, 4, 1, .rw⟩,
   ⟨PWR_DOM_CTL_OFS, 4, 1, .rw⟩,
   ⟨PWR_DOM_CTL_FENCE, 4, 1, .rws⟩,
   ⟨PWR_DOM_STAT_STATE, 4, 1, .ro⟩,
   ⟨PWR_DOM_STAT_PHOK, 4, 1, .ro⟩,
   ⟨PWR_DOM_STAT_CAP, 4, 1, .ro⟩,
   ⟨PWR_DOM_STAT_OFSREF, 4, 1, .w1c⟩,
   ⟨PWR_DOM_STAT_RETREF, 4, 1, .w1c⟩]

/-- Rows of the register tables, piece 10. -/
def regRows10 : List RegRow :=
  [⟨PWR_DOM_STAT_VID, 4, 1, .ro⟩,
   ⟨PWR_DOM_STAT_AGE, 4, 1, .ro⟩,
   ⟨PWR_DOM_I_IAVG, 4, 1, .ro⟩,
   ⟨PWR_DOM_I_IPEAK, 4, 1, .ro⟩,
   ⟨PWR_DOM_V_VAVG, 4, 1, .ro⟩,
   ⟨PWR_FAB_PHOK, 1, 1, .ro⟩,
   ⟨PWR_FAB_IAVG, 1, 1, .ro⟩,
   ⟨PCTL_DOM_QEFF, 4, 1, .ro⟩,
   ⟨PCTL_DOM_QPH, 4, 1, .ro⟩,
   ⟨PCTL_DOM_QI, 4, 1, .ro⟩,
   ⟨PCTL_DOM_QT, 4, 1, .ro⟩,
   ⟨PCTL_DOM_QC, 4, 1, .ro⟩,
   ⟨PCTL_DOM_QG, 4, 1, .ro⟩,
   ⟨PCTL_FILL_FQ, 4, 1, .ro⟩,
   ⟨PCTL_FILL_FBLK, 4, 1, .ro⟩,
   ⟨PCTL_ILIM_LIM, 4, 1, .rw⟩,
   ⟨AGE_MON_SLACK, 4, 1, .ro⟩,
   ⟨THM_RGN_TJ, 1, 1, .ro⟩,
   ⟨THM_RGN_TS, 1, 1, .ro⟩,
   ⟨THM_RGN_TREG, 1, 1, .ro⟩,
   ⟨RGN_SUSP_CTL_MODE, 1, 1, .rw⟩,
   ⟨RGN_SUSP_CTL_FAIL, 1, 1, .rw⟩,
   ⟨RGN_SUSP_CTL_TLIM, 1, 1, .rw⟩,
   ⟨RGN_SUSP_CTL_CLRF, 1, 1, .rw⟩,
   ⟨RGN_SUSP_STAT_USED, 1, 1, .ro⟩,
   ⟨RGN_SUSP_STAT_FULL, 1, 1, .w1c⟩,
   ⟨RGN_SUSP_STAT_STEPREQ, 1, 1, .ro⟩,
   ⟨RGN_SUSP_SEL_IDX, 1, 1, .rw⟩,
   ⟨RGN_SUSP_SEL_B, 1, 1, .rw⟩,
   ⟨RGN_SUSP_SEL_FENCE, 1, 1, .wo⟩,
   ⟨RGN_SUSP_SEL_CLR, 1, 1, .wo⟩,
   ⟨RGN_SUSP_VIEW_B, 1, 1, .ro⟩,
   ⟨RGN_SUSP_VIEW_VALID, 1, 1, .ro⟩,
   ⟨RGN_SUSP_VIEW_SUSPECT, 1, 1, .ro⟩,
   ⟨RGN_SUSP_VIEW_LEVEL, 1, 1, .ro⟩,
   ⟨RGN_SUSP_VIEW_POISONS, 1, 1, .ro⟩,
   ⟨RGN_SUSP_VIEW_TRANS, 1, 1, .ro⟩,
   ⟨RGN_FENCE_FENCED, 6, 1, .ro⟩,
   ⟨RGN_ERRQ_PEND, 1, 1, .ro⟩,
   ⟨RGN_ERRQ_LOST, 1, 1, .ro⟩]

/-- Rows of the register tables, piece 11. -/
def regRows11 : List RegRow :=
  [⟨RGN_ERRQ_LSAT, 1, 1, .ro⟩,
   ⟨RGN_ERRQ_STANDIN, 1, 1, .ro⟩,
   ⟨RGN_ERRQ_CLR, 1, 1, .wo⟩,
   ⟨LANE_OCT_A_DIE, 72, 1, .rws⟩,
   ⟨LANE_OCT_A_FLD, 72, 1, .rws⟩,
   ⟨LANE_OCT_A_PORT, 72, 1, .rws⟩,
   ⟨LANE_OCT_B_DIE, 72, 1, .rws⟩,
   ⟨LANE_OCT_B_FLD, 72, 1, .rws⟩,
   ⟨LANE_OCT_B_PORT, 72, 1, .rws⟩,
   ⟨LANE_OCT_SL, 72, 1, .rws⟩,
   ⟨LANE_OCT_KIND, 72, 1, .rws⟩,
   ⟨LANE_STAT_LOCK, 72, 1, .ro⟩,
   ⟨LANE_STAT_LOS, 72, 1, .ro⟩,
   ⟨LANE_STAT_CALOK, 72, 1, .ro⟩,
   ⟨LANE_STAT_LOST, 72, 1, .w1c⟩,
   ⟨LANE_STAT_DEF, 72, 1, .ro⟩,
   ⟨LANE_STAT_MARGIN, 72, 1, .ro⟩,
   ⟨LANE_FAIL_LO_FAIL, 72, 1, .ro⟩,
   ⟨LANE_FAIL_HI_FAIL, 72, 1, .ro⟩,
   ⟨PCL_DEF_DIE, 16, 1, .rws⟩,
   ⟨PCL_DEF_X0, 16, 1, .rws⟩,
   ⟨PCL_DEF_X1, 16, 1, .rws⟩,
   ⟨PCL_DEF_Y0, 16, 1, .rws⟩,
   ⟨PCL_DEF_Y1, 16, 1, .rws⟩,
   ⟨PCL_DEF_DIES, 16, 1, .rws⟩,
   ⟨PCL_DEF_KIND, 16, 1, .rws⟩,
   ⟨PCL_DEF_EN, 16, 1, .rws⟩,
   ⟨PLAT_STAT_STATE, 1, 1, .ro⟩,
   ⟨PLAT_STAT_SEALED, 1, 1, .ro⟩,
   ⟨PLAT_STAT_TRANSLATED, 1, 1, .ro⟩,
   ⟨PLAT_STAT_REJECT, 1, 1, .w1c⟩,
   ⟨PLAT_STAT_CODE, 1, 1, .ro⟩,
   ⟨PLAT_ERR_SECTION, 1, 1, .ro⟩,
   ⟨PLAT_ERR_RECORD, 1, 1, .ro⟩,
   ⟨PLAT_ERR_X_DETAIL, 1, 1, .ro⟩,
   ⟨PLAT_CNT_LOADS, 1, 1, .ro⟩,
   ⟨PLAT_CNT_SWITCHES, 1, 1, .ro⟩,
   ⟨CUT_STAT_STATE, 1, 1, .ro⟩,
   ⟨CUT_STAT_SWITCHED, 1, 1, .w1c⟩,
   ⟨CUT_STAT_ABANDONED, 1, 1, .w1c⟩]

/-- Rows of the register tables, piece 12. -/
def regRows12 : List RegRow :=
  [⟨CUT_STAT_REVOK, 1, 1, .ro⟩,
   ⟨CUT_STAT_REASON, 1, 1, .ro⟩,
   ⟨CUT_FRAME_LO_F_LO, 1, 1, .ro⟩,
   ⟨CUT_FRAME_HI_F_HI, 1, 1, .ro⟩,
   ⟨CUT_NEED_RGN, 1, 1, .ro⟩,
   ⟨CUT_NEED_HUB, 1, 1, .ro⟩,
   ⟨CUT_ACK_RGN, 1, 1, .ro⟩,
   ⟨CUT_ACK_HUB, 1, 1, .ro⟩,
   ⟨CUT_ACK_ARMED, 1, 1, .ro⟩,
   ⟨CUT_ACK_PARTNERS, 1, 1, .ro⟩,
   ⟨PLAT_HASH_A_HASH, 12, 1, .ro⟩,
   ⟨PLAT_HASH_S_HASH, 12, 1, .ro⟩,
   ⟨SL_EPOCH_EPOCH_ID, 1, 1, .rw⟩,
   ⟨SL_LSRC_PRESENT, 8, 1, .ro⟩,
   ⟨SL_LSRC_EN, 8, 1, .rw⟩,
   ⟨SL_LSRC_LIT, 8, 1, .ro⟩,
   ⟨SL_LSRC_FAULT, 8, 1, .w1c⟩,
   ⟨SL_LSRC_POWER, 8, 1, .ro⟩,
   ⟨HIF_STAT_LINK0, 1, 1, .ro⟩,
   ⟨HIF_STAT_LINK1, 1, 1, .ro⟩,
   ⟨HIF_DISC_COUNT, 1, 1, .ro⟩,
   ⟨HIF_DISC_SAT, 1, 1, .ro⟩,
   ⟨HIF_DISC_CLR, 1, 1, .wo⟩,
   ⟨HIF_B2BASE_LO_BASE, 1, 1, .rw⟩,
   ⟨HIF_B2BASE_HI_BASE, 1, 1, .rw⟩,
   ⟨HIF_HB_MC_HB, 1, 1, .ro⟩,
   ⟨HIF_VEC_FBVEC, 1, 1, .rw⟩,
   ⟨HIF_VEC_ERRVEC, 1, 1, .rw⟩,
   ⟨HIF_VEC_PLATVEC, 1, 1, .rw⟩,
   ⟨HIF_VEC_SLVEC, 1, 1, .rw⟩,
   ⟨HIF_HB_COMMITS_COMMITS, 16, 1, .ro⟩,
   ⟨HIF_HB_COMPLETES_COMPLETES, 16, 1, .ro⟩,
   ⟨HIF_VGRANT0_REGION, 16, 8, .rw⟩,
   ⟨HIF_VGRANT0_EN, 16, 8, .rw⟩,
   ⟨HIF_VGRANT0_FIRST, 16, 8, .rw⟩,
   ⟨HIF_VGRANT1_COUNT, 16, 8, .rw⟩,
   ⟨CLK_STAT_REFOK, 1, 1, .ro⟩,
   ⟨CLK_STAT_HOLDOVER, 1, 1, .ro⟩,
   ⟨CLK_STAT_REFLOST, 1, 1, .w1c⟩,
   ⟨CLK_STAT_DIELOCK, 1, 1, .ro⟩]

/-- Rows of the register tables, piece 13. -/
def regRows13 : List RegRow :=
  [⟨CLK_STAT_DIEFAIL, 1, 1, .w1c⟩,
   ⟨CLK_STAT_FFSTEP, 1, 1, .w1c⟩,
   ⟨CLK_CTL_FFM, 1, 1, .rw⟩,
   ⟨CLK_CTL_BOOSTEN, 1, 1, .rw⟩,
   ⟨CLK_STEP_MHZ, 8, 1, .ro⟩,
   ⟨CLK_STEP_MULT, 8, 1, .ro⟩,
   ⟨PWR_IN_STAT_AUXOK, 1, 1, .ro⟩,
   ⟨PWR_IN_STAT_MAINOK, 1, 1, .ro⟩,
   ⟨PWR_IN_STAT_UVW, 1, 1, .w1c⟩,
   ⟨PWR_IN_STAT_INLOST, 1, 1, .w1c⟩,
   ⟨PWR_IBC_IBCOK, 1, 1, .ro⟩,
   ⟨PWR_IBC_HBCOK, 1, 1, .ro⟩,
   ⟨PWR_IBC_HCOK, 1, 1, .ro⟩,
   ⟨PWR_IBC_IBCFAIL, 1, 1, .w1c⟩,
   ⟨PWR_IN_V_V, 1, 1, .ro⟩,
   ⟨PWR_IN_I_I, 1, 1, .ro⟩,
   ⟨PWR_IN_P_P, 1, 1, .ro⟩,
   ⟨PWR_SAMPLE_N, 1, 1, .ro⟩,
   ⟨PWR_PMB_ADDR, 1, 1, .rw⟩,
   ⟨PWR_PMB_PECREQ, 1, 1, .rw⟩,
   ⟨GRD_CTL_EN, 1, 1, .rw⟩,
   ⟨GRD_CTL_FILLEN, 1, 1, .rw⟩,
   ⟨GRD_CTL_EPSYNC, 1, 1, .rw⟩,
   ⟨GRD_CTL_DELAY, 1, 1, .rw⟩,
   ⟨GRD_UP_UP, 1, 1, .rw⟩,
   ⟨GRD_DN_DN, 1, 1, .rw⟩,
   ⟨GRD_FLOOR_FLOOR, 1, 1, .rw⟩,
   ⟨PCAP_CAP, 1, 1, .rw⟩,
   ⟨PCAP_RAMP, 1, 1, .rw⟩,
   ⟨GRD_REF_REF, 1, 1, .ro⟩,
   ⟨GRD_REF_WANT, 1, 1, .ro⟩,
   ⟨GRD_STAT_STATE, 1, 1, .ro⟩,
   ⟨GRD_STAT_VIOL, 1, 1, .w1c⟩,
   ⟨GRD_STAT_CAPLIM, 1, 1, .ro⟩,
   ⟨GRD_STAT_ILIM, 1, 1, .ro⟩,
   ⟨GRD_STAT_BOOST, 1, 1, .ro⟩,
   ⟨GRD_FILL_FILLW, 1, 1, .ro⟩,
   ⟨GRD_FILL_HELDW, 1, 1, .ro⟩,
   ⟨GRD_VCNT_COUNT, 1, 1, .ro⟩,
   ⟨GRD_VCNT_SAT, 1, 1, .ro⟩]

/-- Rows of the register tables, piece 14. -/
def regRows14 : List RegRow :=
  [⟨GRD_VCNT_CLR, 1, 1, .wo⟩,
   ⟨THM_CTL_JT, 1, 1, .rw⟩,
   ⟨THM_STAT_TJMAX, 1, 1, .ro⟩,
   ⟨THM_STAT_HOTRGN, 1, 1, .ro⟩,
   ⟨THM_STAT_INLET, 1, 1, .ro⟩,
   ⟨THM_STAT_THROT, 1, 1, .ro⟩,
   ⟨THM_STAT_OVERMAX, 1, 1, .w1c⟩,
   ⟨THM_STAT_INLETHI, 1, 1, .w1c⟩,
   ⟨AGE_THR_PS, 1, 1, .rw⟩,
   ⟨BRUP_STAT_STAGE, 1, 1, .ro⟩,
   ⟨BRUP_STAT_READY, 1, 1, .ro⟩,
   ⟨BRUP_STAT_DEGR, 1, 1, .ro⟩,
   ⟨BRUP_STAT_HALT, 1, 1, .ro⟩,
   ⟨BRUP_STAT_CODE, 1, 1, .ro⟩,
   ⟨BRUP_TIME_MS, 1, 1, .ro⟩,
   ⟨BRUP_RLOST_RGN, 1, 1, .ro⟩,
   ⟨BRUP_RLOST_DIE, 1, 1, .ro⟩,
   ⟨BRUP_KAT_FAILS, 1, 1, .ro⟩,
   ⟨BRUP_KAT_RETRIES, 1, 1, .ro⟩,
   ⟨MON_FUSE_GRADE, 1, 1, .ro⟩,
   ⟨MON_FUSE_TDP, 1, 1, .ro⟩,
   ⟨MON_FUSE_BOOSTM, 1, 1, .ro⟩,
   ⟨MON_FUSE_BASEM, 1, 1, .ro⟩,
   ⟨MON_SER_LO_SER, 1, 1, .ro⟩,
   ⟨MON_SER_HI_SER, 1, 1, .ro⟩,
   ⟨MON_FW_VER, 1, 1, .ro⟩,
   ⟨MON_SVN_MIN, 1, 1, .ro⟩,
   ⟨MON_SVN_SLOT, 1, 1, .ro⟩,
   ⟨MON_SVN_FALLBK, 1, 1, .w1c⟩,
   ⟨MON_KEYS_PROG, 1, 1, .ro⟩,
   ⟨MON_KEYS_REVOKED, 1, 1, .ro⟩,
   ⟨MON_STAT_NFIELD, 1, 1, .ro⟩,
   ⟨MON_STAT_FULL, 1, 1, .ro⟩,
   ⟨MON_STAT_WFAIL, 1, 1, .w1c⟩,
   ⟨MON_STAT_FACTOK, 1, 1, .ro⟩,
   ⟨MON_ID_CSTEP, 1, 1, .ro⟩,
   ⟨MON_ID_HSTEP, 1, 1, .ro⟩,
   ⟨MON_MBX_ADDR_LO_ADDR, 1, 1, .rw⟩,
   ⟨MON_MBX_ADDR_HI_ADDR, 1, 1, .rw⟩,
   ⟨MON_MBX_LEN_LEN, 1, 1, .rw⟩]

/-- Rows of the register tables, piece 15. -/
def regRows15 : List RegRow :=
  [⟨MON_MBX_CTL_GO, 1, 1, .wo⟩,
   ⟨MON_MBX_CTL_BUSY, 1, 1, .ro⟩,
   ⟨MON_MBX_CTL_DONE, 1, 1, .w1c⟩,
   ⟨MON_MBX_CTL_STATUS, 1, 1, .ro⟩,
   ⟨HERR_Q_PEND, 1, 1, .ro⟩,
   ⟨HERR_Q_FPEND, 1, 1, .ro⟩,
   ⟨HERR_LOST_COUNT, 1, 1, .ro⟩,
   ⟨HERR_LOST_SAT, 1, 1, .ro⟩,
   ⟨HERR_LOST_FATAL, 1, 1, .w1c⟩,
   ⟨HERR_LOST_CLR, 1, 1, .wo⟩,
   ⟨HERR_CNT_COUNT, 10, 1, .ro⟩,
   ⟨HERR_CNT_SAT, 10, 1, .ro⟩,
   ⟨HERR_CNT_CLR, 10, 1, .wo⟩,
   ⟨TPK_STAT_STATE, 1, 1, .ro⟩,
   ⟨TPK_STAT_FAIL, 1, 1, .w1c⟩,
   ⟨TPK_STAT_REFUSE, 1, 1, .ro⟩,
   ⟨TPK_STAT_ROUNDS, 1, 1, .ro⟩,
   ⟨TPK_CTL_STOP, 1, 1, .wo⟩,
   ⟨CTX_STAT_STATE, 16, 1, .ro⟩,
   ⟨CTX_STAT_GEN, 16, 1, .ro⟩,
   ⟨CTX_STAT_CAUSE, 16, 1, .ro⟩,
   ⟨CTX_STAT_TORN, 16, 1, .w1c⟩,
   ⟨CTX_STAT_CLEARPEND, 16, 1, .ro⟩,
   ⟨CTX_NUM_NUM, 16, 1, .ro⟩,
   ⟨ESC_CTL_LIMIT, 1, 1, .rw⟩,
   ⟨ESC_CTL_WINDOW, 1, 1, .rw⟩,
   ⟨ESC_STAT_COUNT, 1, 1, .ro⟩,
   ⟨ESC_STAT_OOS, 1, 1, .ro⟩,
   ⟨ESC_STAT_TOTAL, 1, 1, .ro⟩,
   ⟨HUB_RST_KEY, 1, 1, .wo⟩,
   ⟨HUB_RST_COLD, 1, 1, .wo⟩,
   ⟨CRASH_NREC, 1, 1, .ro⟩,
   ⟨CRASH_VALID, 1, 1, .w1c⟩,
   ⟨EVC_CTL_FREEZE, 1, 1, .rw⟩,
   ⟨EVC_CTL_FROZEN, 1, 1, .ro⟩,
   ⟨PERT_CTL_LOCK, 1, 1, .w1s⟩,
   ⟨PERT_STAT_ACTIVE, 1, 1, .ro⟩,
   ⟨PERT_STAT_LOCKED, 1, 1, .ro⟩,
   ⟨PERT_STAT_ACT, 1, 1, .ro⟩,
   ⟨PERT_XDLY_REGION, 1, 1, .rw⟩]

/-- Rows of the register tables, piece 16. -/
def regRows16 : List RegRow :=
  [⟨PERT_XDLY_SLOT, 1, 1, .rw⟩,
   ⟨PERT_XDLY_QUEUE, 1, 1, .rw⟩,
   ⟨PERT_XDLY_DIR, 1, 1, .rw⟩,
   ⟨PERT_XDLY_DELAY, 1, 1, .rw⟩,
   ⟨PERT_XDLY_EN, 1, 1, .rw⟩,
   ⟨PERT_SLHOLD_PORT, 1, 1, .rw⟩,
   ⟨PERT_SLHOLD_EN, 1, 1, .rw⟩,
   ⟨PERT_SLHOLD_START, 1, 1, .rw⟩,
   ⟨PERT_SLHOLD_DUR, 1, 1, .rw⟩,
   ⟨PERT_FSTR_ADD, 1, 1, .rw⟩,
   ⟨PERT_FSTR_COUNT, 1, 1, .rw⟩,
   ⟨PERT_FSTR_EN, 1, 1, .rw⟩,
   ⟨PERT_TMO_A_KIND, 1, 1, .rw⟩,
   ⟨PERT_TMO_A_REGION, 1, 1, .rw⟩,
   ⟨PERT_TMO_A_B, 1, 1, .rw⟩,
   ⟨PERT_TMO_A_EN, 1, 1, .rw⟩,
   ⟨PERT_TMO_B_TARGET, 1, 1, .rw⟩,
   ⟨PERT_MISM_A_REGION, 1, 1, .rw⟩,
   ⟨PERT_MISM_A_B, 1, 1, .rw⟩,
   ⟨PERT_MISM_A_ALLB, 1, 1, .rw⟩,
   ⟨PERT_MISM_A_PASSES, 1, 1, .rw⟩,
   ⟨PERT_MISM_A_EN, 1, 1, .rw⟩,
   ⟨PERT_MISM_B_EVERY, 1, 1, .rw⟩,
   ⟨PERT_MISM_B_COUNT, 1, 1, .rw⟩,
   ⟨CDV_MAP_VDIE, 32, 1, .rw⟩,
   ⟨CDV_STAT_USED, 1, 1, .ro⟩,
   ⟨CDV_CNT_XLATE, 1, 1, .ro⟩,
   ⟨CDV_CNT_XFAIL, 1, 1, .ro⟩,
   ⟨MCHK_CTL_POLY, 1, 1, .rw⟩,
   ⟨MCHK_CTL_INIT, 1, 1, .wo⟩,
   ⟨MCHK_VAL_LO_VAL, 1, 1, .rw⟩,
   ⟨MCHK_VAL_HI_VAL, 1, 1, .rw⟩,
   ⟨MCHK_STAT_BUSY, 1, 1, .ro⟩,
   ⟨MCHK_STAT_DONE, 1, 1, .w1c⟩,
   ⟨MCHK_STAT_TAG, 1, 1, .ro⟩,
   ⟨SL_CTL_SWAP, 1, 1, .wo⟩,
   ⟨SL_CTL_RESET, 1, 1, .wo⟩,
   ⟨SL_CTL_NORETRAIN, 1, 1, .rw⟩,
   ⟨SL_CTL_RETRY_MAX, 1, 1, .rw⟩,
   ⟨SL_CTL_TOL, 1, 1, .rw⟩]

/-- Rows of the register tables, piece 17. -/
def regRows17 : List RegRow :=
  [⟨SL_STAT_STATE, 1, 1, .ro⟩,
   ⟨SL_STAT_ROLE, 1, 1, .ro⟩,
   ⟨SL_STAT_LOCK, 1, 1, .ro⟩,
   ⟨SL_STAT_LATOK, 1, 1, .ro⟩,
   ⟨SL_STAT_DOWNEV, 1, 1, .w1c⟩,
   ⟨SL_STAT_DISEV, 1, 1, .w1c⟩,
   ⟨SL_STAT_OVF, 1, 1, .w1c⟩,
   ⟨SL_STAT_LATE, 1, 1, .w1c⟩,
   ⟨SL_DIS_FAIL, 1, 1, .ro⟩,
   ⟨SL_JOIN_JOINED, 1, 1, .ro⟩,
   ⟨SL_JOIN_PEER, 1, 1, .ro⟩,
   ⟨SL_DETACH_DETACH, 1, 1, .rw⟩,
   ⟨SL_LAT_LAT, 1, 1, .ro⟩,
   ⟨SL_OFS_OFS, 1, 1, .ro⟩,
   ⟨SL_DECL_DECL, 1, 1, .ro⟩,
   ⟨SL_RETRY_COUNT, 1, 1, .ro⟩,
   ⟨SL_RETRY_SAT, 1, 1, .ro⟩,
   ⟨SL_RETRY_CLR, 1, 1, .wo⟩,
   ⟨SL_DUP_COUNT, 1, 1, .ro⟩,
   ⟨SL_DUP_SAT, 1, 1, .ro⟩,
   ⟨SL_DUP_CLR, 1, 1, .wo⟩,
   ⟨SL_DISC_COUNT, 1, 1, .ro⟩,
   ⟨SL_DISC_SAT, 1, 1, .ro⟩,
   ⟨SL_DISC_CLR, 1, 1, .wo⟩,
   ⟨SL_PSER_LO_SER, 1, 1, .ro⟩,
   ⟨SL_PSER_HI_SER, 1, 1, .ro⟩,
   ⟨SL_PFW_FW, 1, 1, .ro⟩,
   ⟨CR_BASE_LO_BASE, 1, 1, .rw⟩,
   ⟨CR_BASE_HI_BASE, 1, 1, .rw⟩,
   ⟨CR_CTL_EN, 1, 1, .rw⟩,
   ⟨CR_CTL_FLUSH, 1, 1, .wo⟩,
   ⟨CR_CTL_LOG2SLOTS, 1, 1, .rw⟩,
   ⟨CR_CTL_CPLVEC, 1, 1, .rw⟩,
   ⟨CR_DB_PI, 1, 1, .wo⟩,
   ⟨CR_CI_CI, 1, 1, .ro⟩,
   ⟨CR_STAT_ERR, 1, 1, .ro⟩,
   ⟨CR_STAT_FLUSHING, 1, 1, .ro⟩,
   ⟨CR_STAT_BUSY, 1, 1, .ro⟩,
   ⟨CR_LAST_LO_SER, 1, 1, .rw⟩,
   ⟨CR_LAST_HI_SER, 1, 1, .rw⟩]

/-- Rows of the register tables, piece 18. -/
def regRows18 : List RegRow :=
  [⟨CC_BASE_LO_BASE, 1, 1, .rw⟩,
   ⟨CC_BASE_HI_BASE, 1, 1, .rw⟩,
   ⟨CC_CTL_LOG2ENT, 1, 1, .rw⟩,
   ⟨CC_HEAD_HEAD, 1, 1, .rw⟩,
   ⟨CC_TAIL_TAIL, 1, 1, .ro⟩,
   ⟨FB_BASE_LO_BASE, 1, 1, .rw⟩,
   ⟨FB_BASE_HI_BASE, 1, 1, .rw⟩,
   ⟨FB_CTL_EN, 1, 1, .rw⟩,
   ⟨FB_CTL_LOG2ENT, 1, 1, .rw⟩,
   ⟨FB_CTL_IRQN, 1, 1, .rw⟩,
   ⟨FB_HEAD_HEAD, 1, 1, .rw⟩,
   ⟨FB_TAIL_TAIL, 1, 1, .ro⟩,
   ⟨FB_LOST_COUNT, 1, 1, .ro⟩,
   ⟨FB_LOST_SAT, 1, 1, .ro⟩,
   ⟨FB_LOST_CRIT, 1, 1, .w1c⟩,
   ⟨FB_LOST_CLR, 1, 1, .wo⟩,
   ⟨VF_HB_COMMITS_HB, 1, 1, .ro⟩,
   ⟨VF_HB_COMPLETES_HB, 1, 1, .ro⟩,
   ⟨VF_HB_MC_HB, 1, 1, .ro⟩,
   ⟨VF_STAT_PARCEL, 1, 1, .ro⟩,
   ⟨VF_STAT_ACTIVE, 1, 1, .ro⟩,
   ⟨VF_STAT_OOS, 1, 1, .ro⟩,
   ⟨VF_B2BASE_LO_BASE, 1, 1, .rw⟩,
   ⟨VF_B2BASE_HI_BASE, 1, 1, .rw⟩,
   ⟨EVC_SEL_SRC, 1, 1, .rw⟩,
   ⟨EVC_SEL_MODE, 1, 1, .rw⟩,
   ⟨EVC_SEL_PARCEL, 1, 1, .rw⟩,
   ⟨EVC_SEL_PFILT, 1, 1, .rw⟩,
   ⟨EVC_SEL_SAT, 1, 1, .ro⟩,
   ⟨EVC_SEL_CLR, 1, 1, .wo⟩,
   ⟨EVC_LO_CNT, 1, 1, .ro⟩,
   ⟨EVC_HI_CNT, 1, 1, .ro⟩,
   ⟨EVC_SNAP_LO_SNAP, 1, 1, .ro⟩,
   ⟨EVC_SNAP_HI_SNAP, 1, 1, .ro⟩,
   ⟨SSTRM_WORD, 64, 4, .rws⟩,
   ⟨STRD_WORD, 8, 2048, .rws⟩]

/-- Every row of the register tables. -/
def regRows : List RegRow :=
  regRows0 ++ regRows1 ++ regRows2 ++ regRows3 ++ regRows4 ++ regRows5 ++ regRows6 ++ regRows7 ++ regRows8 ++ regRows9 ++ regRows10 ++ regRows11 ++ regRows12 ++ regRows13 ++ regRows14 ++ regRows15 ++ regRows16 ++ regRows17 ++ regRows18

/-- A register whose Reset column is not zero: offset, repeats and strides, reset word. -/
structure RstRow where
  off : Nat
  count : Nat
  str : Nat
  count2 : Nat
  str2 : Nat
  word : Nat
deriving DecidableEq, Repr

/-- Non-zero Reset columns, unit `region`: RGN_COLSKIP0, RGN_COLSKIP1, HBM_PATROL, RGN_BEAT, STK_CFG, STRM_STK, RGN_CLK_STAT, RGN_CLK_REQ, PWR_DOM_CTL, PCTL_DOM, PCTL_ILIM, RGN_SUSP_CTL. -/
def rst_region : List RstRow :=
  [⟨0x104, 1, 0, 1, 0, 0xCCCCCCCC⟩,
   ⟨0x108, 1, 0, 1, 0, 0xCCCCCCCC⟩,
   ⟨0x10114, 1, 0, 1, 0, 0x18⟩,
   ⟨0x200, 1, 0, 1, 0, 0x80000⟩,
   ⟨0x8004, 4096, 8, 1, 0, 0x400⟩,
   ⟨0x1500, 64, 4, 1, 0, 0xFFFF⟩,
   ⟨0x210, 1, 0, 1, 0, 0x9⟩,
   ⟨0x214, 1, 0, 1, 0, 0x1⟩,
   ⟨0x700, 4, 16, 1, 0, 0x1⟩,
   ⟨0x780, 4, 4, 1, 0, 0x21084210⟩,
   ⟨0x7A0, 4, 4, 1, 0, 0x800⟩,
   ⟨0x800, 1, 0, 1, 0, 0x100080C⟩]

/-- Non-zero Reset columns, unit `frame`: FRM_LEN, FRM_RES, FRM_CTL. -/
def rst_frame : List RstRow :=
  [⟨0x2000, 1, 0, 1, 0, 0x61A8⟩,
   ⟨0x2004, 1, 0, 1, 0, 0x20⟩,
   ⟨0x200C, 1, 0, 1, 0, 0x40200⟩]

/-- Non-zero Reset columns, unit `block`: BLK_ARR_MAP, BLK_CHK_TOL, BLK_CB_VALID, BLK_MSE_THR, SP_RING_BASE, SC_CTL, LEP_STK, STK_LCFG. -/
def rst_block : List RstRow :=
  [⟨0x200, 1, 0, 1, 0, 0x4141⟩,
   ⟨0x204, 1, 0, 1, 0, 0x670C⟩,
   ⟨0x280, 1, 0, 1, 0, 0x80000000⟩,
   ⟨0x288, 1, 0, 1, 0, 0x7F800000⟩,
   ⟨0xC00, 32, 16, 1, 0, 0x10000⟩,
   ⟨0x124, 1, 0, 1, 0, 0x1⟩,
   ⟨0x20, 32, 4, 1, 0, 0xFFFFFFFF⟩,
   ⟨0x198, 1, 0, 1, 0, 0x400⟩]

/-- Non-zero Reset columns, unit `hub`: SL_LSRC, HIF_VEC. -/
def rst_hub : List RstRow :=
  [⟨0x6010, 8, 4, 1, 0, 0x2⟩,
   ⟨0x7014, 1, 0, 1, 0, 0x1B1A1918⟩]

/-- Non-zero Reset columns, unit `power`: PWR_PMB, GRD_CTL, GRD_UP, GRD_DN, THM_CTL, AGE_THR. -/
def rst_power : List RstRow :=
  [⟨0x8020, 1, 0, 1, 0, 0x58⟩,
   ⟨0x8100, 1, 0, 1, 0, 0x3⟩,
   ⟨0x8104, 1, 0, 1, 0, 0x7D0⟩,
   ⟨0x8108, 1, 0, 1, 0, 0x7D0⟩,
   ⟨0x8130, 1, 0, 1, 0, 0x64⟩,
   ⟨0x8138, 1, 0, 1, 0, 0x18⟩]

/-- Non-zero Reset columns, unit `mon`: MON_ID. -/
def rst_mon : List RstRow :=
  [⟨0x902C, 1, 0, 1, 0, 0xB1B0⟩]

/-- Non-zero Reset columns, unit `ctx`: ESC_CTL. -/
def rst_ctx : List RstRow :=
  [⟨0xB100, 1, 0, 1, 0, 0x12C0006⟩]

/-- Non-zero Reset columns, unit `pert`: PERT_SLHOLD, PERT_FSTR, PERT_MISM_A, PERT_MISM_B. -/
def rst_pert : List RstRow :=
  [⟨0xD014, 1, 0, 1, 0, 0x10000⟩,
   ⟨0xD018, 1, 0, 1, 0, 0x10001⟩,
   ⟨0xD024, 1, 0, 1, 0, 0x4000⟩,
   ⟨0xD028, 1, 0, 1, 0, 0x10001⟩]

/-- Non-zero Reset columns, unit `port`: SL_CTL. -/
def rst_port : List RstRow :=
  [⟨0x0, 1, 0, 1, 0, 0x240⟩]

/-- Non-zero Reset columns, unit `ring`: CR_CTL, CC_CTL. -/
def rst_ring : List RstRow :=
  [⟨0x8, 1, 0, 1, 0, 0x600⟩,
   ⟨0x28, 1, 0, 1, 0, 0x6⟩]

/-- Non-zero Reset columns, unit `book`: FB_CTL. -/
def rst_book : List RstRow :=
  [⟨0x8, 1, 0, 1, 0, 0xC⟩]

/-- Does the row hold the register at offset `o`? -/
def RstRow.holds (r : RstRow) (o : Nat) : Bool :=
  decide (r.off ≤ o) &&
  (let k := o - r.off
   if r.str = 0 then decide (k = 0)
   else if r.str2 = 0 then decide (k % r.str = 0 ∧ k / r.str < r.count)
   else decide (k / r.str < r.count ∧ k % r.str % r.str2 = 0 ∧ k % r.str / r.str2 < r.count2))

/-- The rows of each unit. -/
def rstRows : RegUnit → List RstRow
  | .frame => rst_frame
  | .hub => rst_hub
  | .plat => []
  | .power => rst_power
  | .mon => rst_mon
  | .err => []
  | .ctx => rst_ctx
  | .pert => rst_pert
  | .region => rst_region
  | .block => rst_block
  | .port => rst_port
  | .ring => rst_ring
  | .book => rst_book
  | .vf => []
  | .evc => []
/-- Word `w` of the standard bell grid (04_number_formats.md R100: 0xD4C2_A881, 0x00F7_EDE2, 0x261B_1108,
0x7F59_4333). -/
def bellGridWord : Nat → Nat
  | 0 => 0xD4C2A881
  | 1 => 0x00F7EDE2
  | 2 => 0x261B1108
  | _ => 0x7F594333

/-- The two dies of pair index `q`, in the order (0,1), (0,2), (0,3), (1,2), (1,3), (2,3) (R248). -/
def diePair : Nat → Nat × Nat
  | 0 => (0, 1)
  | 1 => (0, 2)
  | 2 => (0, 3)
  | 3 => (1, 2)
  | 4 => (1, 3)
  | _ => (2, 3)

/-- The rank of die `other` among the three partners of die `d`, in ascending order. -/
def dieRank (d other : Nat) : Nat := if other < d then other else other - 1

/-- The default lane assignment (08_fabric_route_plans.md R248, Table 8-15 bit positions). -/
def laneOctReset (o : Nat) : Nat :=
  if o < 48 then
    let p := diePair (o / 8)
    let i := 8 * dieRank p.1 p.2 + o % 8
    let k := 8 * dieRank p.2 p.1 + o % 8
    p.1 + 2 ^ 2 * (i / 4) + 2 ^ 5 * (i % 4) + 2 ^ 8 * p.2 + 2 ^ 10 * (k / 4) + 2 ^ 13 * (k % 4) + 2 ^ 21
  else
    let n := o - 48
    n / 6 + 2 ^ 2 * (n % 6) + 2 ^ 5 * 4 + 2 ^ 16 * n + 2 ^ 22

/-- The reset word of the register at offset `o` of a unit: the Reset columns of the tables. LANE_OCT takes R248's
default assignment, BLK_CB_IMG of index 31 the standard grid (R100), CDV_MAP.VDIE its own index (Table 21-2),
CR_CTL.CPLVEC the ring's index is set in `ringReset`. GRD_FLOOR and PCAP come from the fuses (16 Table 16-6) and
are written by cold reset; an unlisted one reads the value for a fused TDP of 15.0 kW. -/
def resetWord (u : RegUnit) (o : Nat) : Word :=
  match u with
  | .hub =>
    if 0x3000 ≤ o ∧ o < 0x3000 + 72 * 4 ∧ o % 4 = 0 then BitVec.ofNat 32 (laneOctReset ((o - 0x3000) / 4))
    else if 0xE000 ≤ o ∧ o < 0xE080 ∧ o % 4 = 0 then
      BitVec.ofNat 32 ((o - 0xE000) / 4 + (match (rst_hub.find? (fun r => r.holds o)) with | some r => r.word | none => 0))
    else match rst_hub.find? (fun r => r.holds o) with
      | some r => BitVec.ofNat 32 r.word
      | none => 0
  | .block =>
    if 0x400 + 31 * 16 ≤ o ∧ o < 0x600 ∧ o % 4 = 0 then BitVec.ofNat 32 (bellGridWord ((o - (0x400 + 31 * 16)) / 4))
    else match rst_block.find? (fun r => r.holds o) with
      | some r => BitVec.ofNat 32 r.word
      | none => 0
  | .power =>
    if o = 0x810C then 6000 else if o = 0x8110 then 15000
    else match rst_power.find? (fun r => r.holds o) with
      | some r => BitVec.ofNat 32 r.word
      | none => 0
  | u =>
    match (rstRows u).find? (fun r => r.holds o) with
    | some r => BitVec.ofNat 32 r.word
    | none => 0

/-- A unit's registers: offset to word, an unlisted one at its reset word. -/
abbrev Regs := SMap Word

/-- The whole word at an offset. -/
def Regs.word (r : Regs) (u : RegUnit) (o : Nat) : Word := SMap.get (resetWord u) r o

/-- Store a whole word at an offset. -/
def Regs.setWord (r : Regs) (u : RegUnit) (o : Nat) (v : Word) : Regs := SMap.put (resetWord u) r o v

/-- Bits `hi:lo` of a word as a number. -/
def bitsOf (w : Word) (hi lo : Nat) : Nat := (w >>> lo).toNat % 2 ^ (hi + 1 - lo)

/-- The word with ones at bits `hi:lo`. -/
def bitMask (hi lo : Nat) : Word := BitVec.ofNat 32 ((2 ^ (hi + 1 - lo) - 1) * 2 ^ lo)

/-- `w` with bits `hi:lo` replaced by the low bits of `v`. -/
def putBits (w : Word) (hi lo : Nat) (v : Nat) : Word :=
  (w &&& ~~~(bitMask hi lo)) ||| (BitVec.ofNat 32 (v * 2 ^ lo) &&& bitMask hi lo)

/-- The offset of copy `(i, j)` of a field's register. -/
def Field.at (f : Field) (i j : Nat := 0) : Nat := f.off + i * f.str + j * f.str2

/-- Read a field. -/
def Regs.rd (r : Regs) (f : Field) (i j : Nat := 0) : Nat := bitsOf (r.word f.unit (f.at i j)) f.hi f.lo

/-- Read a one-bit field. -/
def Regs.bit (r : Regs) (f : Field) (i j : Nat := 0) : Bool := r.rd f i j != 0

/-- Write a field (the device's own update, no access code applied). -/
def Regs.wr (r : Regs) (f : Field) (v : Nat) (i j : Nat := 0) : Regs :=
  r.setWord f.unit (f.at i j) (putBits (r.word f.unit (f.at i j)) f.hi f.lo v)

/-- Set a one-bit field. -/
def Regs.set1 (r : Regs) (f : Field) (i j : Nat := 0) : Regs := r.wr f 1 i j

/-- Clear a field. -/
def Regs.clr (r : Regs) (f : Field) (i j : Nat := 0) : Regs := r.wr f 0 i j

/-- Add one to a saturating count field. -/
def Regs.inc (r : Regs) (f : Field) (i j : Nat := 0) : Regs :=
  let m := 2 ^ (f.hi + 1 - f.lo) - 1
  if r.rd f i j < m then r.wr f (r.rd f i j + 1) i j else r

/-- A field of a word that is being written (Table fields read from write data). -/
def Field.of (f : Field) (w : Word) : Nat := bitsOf w f.hi f.lo

/-- Is the one-bit field set in the word being written? -/
def Field.on (f : Field) (w : Word) : Bool := f.of w != 0

end Sys2Proof.Machine
end

