-- ==== Sys2Proof/Machine/HostTypes.lean ====
section
/-!
DEFINITION. The plain data of the host interface (13_host_interface.md): rings, items, field books, functions. Function
17 × port + 0 is a port's PF, 17 × port + 1 + p its VF p (R368).
-/
namespace Sys2Proof.Machine

/-- An item that has begun, or that a flush or a disable completes, and has no completion entry yet (R375 to R384): slot
count at its header, operation, flags, SERIAL, bytes, and its outcome (status, DETAIL) once it has one. -/
structure Item where
  slot : Nat
  opc : Nat
  nslots : Nat
  fence : Bool
  irq : Bool
  serial : Nat
  bytes : List Byte
  begun : Bool := true
  done : Option (Nat × Nat) := none
deriving DecidableEq, Repr

/-- A command ring with its completion ring (R374 to R384). `pi` is the last doorbell, `lastHi` the latch behind
CR_LAST_HI, `flush` that flushed completions are being written, `closing` that a disable waits for begun items. -/
structure Ring where
  regs : Regs := []
  pi : Nat := 0
  items : List Item := []
  lastHi : Nat := 0
  flush : Bool := false
  closing : Bool := false
deriving DecidableEq, Repr

/-- A field book record (R387): the ring's SEQ is given when it is generated; `ann` lists the functions whose error vector follows it. -/
structure BookRec where
  type_ : Nat
  parcel : Nat
  seq : Nat := 0
  frame : Nat
  body : List Byte
  ann : List Nat := []
deriving DecidableEq, Repr

/-- What a host read gives for one line (Table 13-5). -/
inductive LineAns where
  | data (bs : List Byte)
  | poisoned (bs : List Byte)
  | unsupported
deriving DecidableEq, Repr

/-- One PCI Express function (R368): rings, field book registers and SEQ, records since the last message, B2BASE and
the VF page, MSI-X mask and pending bits, D3hot, the errors logged in AER. -/
structure Fn where
  rings : SMap Ring := []
  book : Regs := []
  vf : Regs := []
  seq : Nat := 0
  since : Nat := 0
  masked : Nat := 0xFFFFFFFF
  pending : Nat := 0
  d3 : Bool := false
  aer : Nat := 0
  b2 : Nat := 0
deriving DecidableEq, Repr

/-- Ring `r` at reset: CR_CTL.CPLVEC is r (Table 13-20). -/
def ringZero : Nat → Ring := fun r => { regs := Regs.wr [] CR_CTL_CPLVEC r }
/-- Is the function a PF? -/
def isPf (f : Nat) : Bool := f % 17 == 0
/-- The parcel of a VF; 0 for a PF. -/
def fnParcel (f : Nat) : Nat := f % 17 - 1
/-- A function at reset: VF_STAT.PARCEL of VF p is p (Table 13-14). -/
def fnZero : Nat → Fn := fun k =>
  if isPf k then {} else { vf := Regs.wr [] VF_STAT_PARCEL (fnParcel k) }

/-- Command rings of a function (R374). -/
def fnRings (f : Nat) : Nat := if isPf f then 8 else 2

/-- Bytes `[a, a + n)` of an item as a number. -/
def Item.num (x : Item) (a n : Nat) : Nat := leNat ((x.bytes.drop a).take n)

/-- Are the named bytes of an item zero? -/
def Item.zeroIn (x : Item) (a n : Nat) : Bool := (((x.bytes.drop a).take n).all (fun b => b == 0))

end Sys2Proof.Machine
end

