-- ==== Sys2Proof/Config.lean ====
section
/-!
DEFINITION. The values that the spec leaves open, as constants with no body: nothing can evaluate them, so a claim
holds whatever they are (log 3). A value that may differ each time is a function of `State.freeCtr`.
-/
namespace Sys2Proof.Config

/-- The SUBTYPE of a scratchpad ECC record, corrected (false) or uncorrected (true): 05_scratchpad_bank_alus.md R157
and R158 name the two subtypes and give no number. -/
opaque spEccSubtype (ue : Bool) : BitVec 8

/-- The seed of the feed's pattern source for a fill tile, which 16_power_control_grade.md R441 does not give. -/
opaque fillSeed : Nat

/-- A byte that the spec leaves open. -/
opaque freeByte (n : Nat) : BitVec 8

/-- A 32-bit value that the spec leaves open. -/
opaque freeWord (n : Nat) : BitVec 32

/-- A number that the spec leaves open. -/
opaque freeNat (n : Nat) : Nat

/-- A choice that the spec leaves open. -/
opaque freeBool (n : Nat) : Bool

end Sys2Proof.Config
end

