-- ==== Sys2Proof/Machine/Numbers.lean ====
section
/-!
DEFINITION. Number formats (04_number_formats.md R94 to R98, R108 to R115) and the rounding rules of 03_cell_array.md
R75 and R78: exact values as sign, magnitude and a power of two, one rounding to binary32, decode and conversion of
every element encoding, lookup (R148) and compare (R150).
-/
namespace Sys2Proof.Machine

/-- An exact value: NaN, an infinity, or `± m * 2 ^ e` (both signs of zero kept, R95). -/
inductive FVal where
  | nan
  | inf (neg : Bool)
  | fin (neg : Bool) (m : Nat) (e : Int)
deriving DecidableEq, Repr

/-- `m / 2 ^ s` rounded to nearest, ties to even. -/
def rneShift (m s : Nat) : Nat :=
  let q := m / 2 ^ s
  let r := m % 2 ^ s
  if 2 * r > 2 ^ s then q + 1
  else if 2 * r = 2 ^ s ∧ 0 < s then q + q % 2
  else q

/-- A float encoding with `mb` stored mantissa bits and exponent bias `bias`. -/
structure FloatFmt where
  mb : Nat
  bias : Nat
deriving DecidableEq, Repr

/-- `m * 2 ^ e` rounded to the format's precision with unbounded exponent above and gradual underflow below
(R75, R110): magnitude and exponent. -/
def FloatFmt.round (f : FloatFmt) (m : Nat) (e : Int) : Nat × Int :=
  let top : Int := e + Nat.log2 m
  let lo : Int := 1 - f.bias - f.mb
  let q : Int := max (top - f.mb) lo
  if q ≤ e then (m * 2 ^ (e - q).toNat, q)
  else
    let r := rneShift m (q - e).toNat
    if r = 2 ^ (f.mb + 1) then (2 ^ f.mb, q + 1) else (r, q)

/-- Exponent and mantissa fields of a rounded magnitude, in units of the last mantissa bit. -/
def FloatFmt.pack (f : FloatFmt) (r : Nat × Int) : Nat :=
  if r.1 < 2 ^ f.mb then r.1
  else (r.2 + f.bias + f.mb).toNat * 2 ^ f.mb + (r.1 - 2 ^ f.mb)

/-- binary32. -/
def fmt32 : FloatFmt := ⟨23, 127⟩
/-- BF16. -/
def fmtBF16 : FloatFmt := ⟨7, 127⟩
/-- FP16. -/
def fmtFP16 : FloatFmt := ⟨10, 15⟩
/-- F8E4. -/
def fmtF8E4 : FloatFmt := ⟨3, 7⟩
/-- F8E5. -/
def fmtF8E5 : FloatFmt := ⟨2, 15⟩

/-- The canonical NaN (R75). -/
def nan32 : Word := 0x7FC00000

/-- The infinity of a sign. -/
def inf32 (neg : Bool) : Word := if neg then 0xFF800000 else 0x7F800000

/-- One rounding to binary32: to nearest, ties to even, subnormals kept, overflow to infinity (R75). -/
def rn32 (neg : Bool) (m : Nat) (e : Int) : Word :=
  let s : Nat := if neg then 2 ^ 31 else 0
  if m = 0 then BitVec.ofNat 32 s
  else
    let p := fmt32.pack (fmt32.round m e)
    if 255 * 2 ^ 23 ≤ p then inf32 neg else BitVec.ofNat 32 (s + p)

/-- Decode `mb` mantissa and `eb` exponent bits of `n`; an all-ones exponent is infinity or NaN when `special`. -/
def decodeFloat (f : FloatFmt) (eb : Nat) (special : Bool) (n : Nat) : FVal :=
  let m := n % 2 ^ f.mb
  let x := n / 2 ^ f.mb % 2 ^ eb
  let neg := n / 2 ^ (f.mb + eb) % 2 = 1
  if special ∧ x = 2 ^ eb - 1 then (if m = 0 then .inf neg else .nan)
  else if x = 0 then .fin neg m (1 - f.bias - f.mb)
  else .fin neg (2 ^ f.mb + m) (x - f.bias - f.mb)

/-- The value of a binary32 word. -/
def f32 (w : Word) : FVal := decodeFloat fmt32 8 true w.toNat

/-- F8E4: E = 0b1111 is a normal exponent but for M = 0b111, which is NaN (R95). -/
def decodeF8E4 (n : Nat) : FVal :=
  if n % 128 = 127 then .nan else decodeFloat fmtF8E4 4 false n

/-- An integer as an exact value; zero is +0. -/
def FVal.ofInt (z : Int) : FVal := .fin (decide (z < 0)) z.natAbs 0

/-- The exact product of two values; ∞ × 0 is NaN (R75, R108). -/
def FVal.mul : FVal → FVal → FVal
  | .nan, _ => .nan
  | _, .nan => .nan
  | .inf a, .inf b => .inf (a != b)
  | .inf a, .fin b m _ => if m = 0 then .nan else .inf (a != b)
  | .fin a m _, .inf b => if m = 0 then .nan else .inf (a != b)
  | .fin a m e, .fin b n f => .fin (a != b) (m * n) (e + f)

/-- Change the sign. -/
def FVal.neg : FVal → FVal
  | .nan => .nan
  | .inf a => .inf (!a)
  | .fin a m e => .fin (!a) m e

/-- The magnitude. -/
def FVal.abs : FVal → FVal
  | .nan => .nan
  | .inf _ => .inf false
  | .fin _ m e => .fin false m e

/-- Is the value finite? -/
def FVal.finite : FVal → Bool
  | .fin .. => true
  | _ => false

/-- Is the value a NaN? -/
def FVal.isNan : FVal → Bool
  | .nan => true
  | _ => false

/-- The least exponent among finite terms, `e0` with none. -/
def minExp (e0 : Int) : List FVal → Int
  | [] => e0
  | .fin _ _ e :: t => minExp (min e0 e) t
  | _ :: t => minExp e0 t

/-- The exact sum of the finite terms in units of `2 ^ e0`, for `e0` no greater than any exponent. -/
def sumScaled (e0 : Int) : List FVal → Int
  | [] => 0
  | .fin neg m e :: t =>
    (if neg then -((m * 2 ^ (e - e0).toNat : Nat) : Int) else ((m * 2 ^ (e - e0).toNat : Nat) : Int)) + sumScaled e0 t
  | _ :: t => sumScaled e0 t

/-- Is the term −0? -/
def FVal.isNegZero : FVal → Bool
  | .fin neg m _ => neg && m == 0
  | _ => false

/-- The exact sum of values rounded once to binary32 (R75): a NaN term or infinities of opposite sign give the
canonical NaN; an exact zero sum is +0 unless every term is −0. -/
def fsum (ts : List FVal) : Word :=
  if ts.any FVal.isNan then nan32
  else
    let pinf := ts.any (fun t => t == .inf false)
    let ninf := ts.any (fun t => t == .inf true)
    if pinf && ninf then nan32
    else if pinf then inf32 false
    else if ninf then inf32 true
    else
      let e0 := minExp 0 ts
      let z := sumScaled e0 ts
      if z = 0 then (if !ts.isEmpty && ts.all FVal.isNegZero then 0x80000000 else 0)
      else rn32 (decide (z < 0)) z.natAbs e0

/-- `RN(a + b)` on binary32 words. -/
def fadd (a b : Word) : Word := fsum [f32 a, f32 b]

/-- Compare finite values: `a ≤ b`. -/
def leFin (a b : FVal) : Bool :=
  let e0 := minExp 0 [a, b]
  decide (sumScaled e0 [a] ≤ sumScaled e0 [b])

/-- `a ≤ b` on values, false when either is NaN. -/
def FVal.le : FVal → FVal → Bool
  | .nan, _ => false
  | _, .nan => false
  | .inf true, _ => true
  | _, .inf false => true
  | .inf false, _ => false
  | _, .inf true => false
  | a, b => leFin a b

/-- `a < b` on values, false when either is NaN. -/
def FVal.lt (a b : FVal) : Bool := !a.isNan && !b.isNan && !(FVal.le b a)

/-! ## Sums in the orders of R78 -/

/-- A node of the pairwise tree: two present inputs are added with one rounding, one passes up, none is absent. -/
def pairNode : Option Word → Option Word → Option Word
  | some a, some b => some (fadd a b)
  | some a, none => some a
  | none, b => b

/-- One level of the pairwise tree. -/
def pairLevel : List (Option Word) → List (Option Word)
  | a :: b :: t => pairNode a b :: pairLevel t
  | l => l

/-- Repeat a level. -/
def pairTree : Nat → List (Option Word) → List (Option Word)
  | 0, l => l
  | n + 1, l => pairTree n (pairLevel l)

/-- The pairwise sum over the 64 positions; +0 when every term is absent (R78). -/
def pairwise (l : List (Option Word)) : Word :=
  match pairTree 6 l with
  | some a :: _ => a
  | _ => 0

/-- The ascending sum: the first present term unchanged, each later one added with one rounding (R78). -/
def ascending (l : List (Option Word)) : Word :=
  (l.foldl pairNode none).getD 0

/-! ## Element encodings (Table 4-1) -/

/-- Element width in bits by format tag. -/
def tagWidth : Nat → Nat
  | 0 => 4
  | 1 => 8
  | 2 => 8
  | 3 => 8
  | 4 => 16
  | 5 => 16
  | _ => 32

/-- A codebook: the 16 grid values (R98). -/
abbrev Grid := List Int

/-- A byte as a two's-complement integer. -/
def byteInt (b : Nat) : Int := if b % 256 < 128 then (b % 256 : Nat) else (b % 256 : Nat) - 256

/-- A 32-bit pattern as a two's-complement integer. -/
def wordInt (b : Nat) : Int := if b % 2 ^ 32 < 2 ^ 31 then (b % 2 ^ 32 : Nat) else (b % 2 ^ 32 : Nat) - 2 ^ 32

/-- Is the codebook valid: 16 strictly ascending entries, one of them 0 (R98)? -/
def gridAscending : List Int → Bool
  | a :: b :: t => decide (a < b) && gridAscending (b :: t)
  | _ => true

/-- R98. -/
def gridValid (g : Grid) : Bool := g.length == 16 && gridAscending g && g.any (fun x => x == 0)

/-- The code whose entry is 0. -/
def zeroCode (g : Grid) : Nat := g.findIdx (fun x => x == 0)

/-- Does the tag name an integer encoding (G4, I8, I32)? -/
def tagIsInt (t : Nat) : Bool := t == 0 || t == 1 || t == 6

/-- The integer of an element of an integer encoding. -/
def decodeInt (t : Nat) (g : Grid) (n : Nat) : Int :=
  match t with
  | 0 => g.getD (n % 16) 0
  | 1 => byteInt n
  | _ => wordInt n

/-- The exact value of an element (R95, R97). -/
def decodeElem (t : Nat) (g : Grid) (n : Nat) : FVal :=
  match t with
  | 2 => decodeF8E4 n
  | 3 => decodeFloat fmtF8E5 5 true n
  | 4 => decodeFloat fmtBF16 8 true n
  | 5 => decodeFloat fmtFP16 5 true n
  | 7 => f32 (BitVec.ofNat 32 n)
  | _ => FVal.ofInt (decodeInt t g n)

/-- The result of a conversion: the element's bits, and whether it saturated in the sense of R113. -/
structure Conv where
  bits : Nat
  sat : Bool
deriving DecidableEq, Repr

/-- Nearest code of a grid to a finite value: the entry of least distance, the one of smaller magnitude on a tie
(R111). The distance is compared in units of `2 ^ e0`. -/
def nearestCode (g : Grid) (v : FVal) : Nat :=
  let e0 := minExp 0 [v]
  let z := sumScaled e0 [v]
  let dist (x : Int) : Nat := (z - x * 2 ^ (-e0).toNat).natAbs
  let step (best : Nat × Nat × Nat) (c : Nat × Int) : Nat × Nat × Nat :=
    let d := dist c.2
    if d < best.2.1 ∨ (d = best.2.1 ∧ c.2.natAbs < best.2.2) then (c.1, d, c.2.natAbs) else best
  match (List.range g.length).zip g with
  | [] => 0
  | c :: t => (t.foldl step (c.1, dist c.2, c.2.natAbs)).1

/-- Does a finite value lie outside the grid's end entries? -/
def outsideGrid (g : Grid) (v : FVal) : Bool :=
  FVal.lt v (FVal.ofInt (g.getD 0 0)) || FVal.lt (FVal.ofInt (g.getD 15 0)) v

/-- Nearest integer to `± m * 2 ^ e`, ties to even. -/
def nearestInt (neg : Bool) (m : Nat) (e : Int) : Int :=
  let n : Nat := if 0 ≤ e then m * 2 ^ e.toNat else rneShift m (-e).toNat
  if neg then -(n : Int) else n

/-- Conversion to a float encoding of `width` bits, `maxPack` its largest finite magnitude's fields, `infPack` the
fields that an overflow gives with SAT = 0, `nanBits` its NaN (Table 4-4). An overflow with SAT = 0 to `nanBits`
carries no sign when `ovfNan`. -/
def convFloat (f : FloatFmt) (width maxPack infPack nanBits : Nat) (ovfNan sat : Bool) : FVal → Conv
  | .nan => ⟨nanBits, false⟩
  | .inf neg =>
    let s := if neg then 2 ^ (width - 1) else 0
    if sat then ⟨s + maxPack, true⟩ else if ovfNan then ⟨nanBits, false⟩ else ⟨s + infPack, false⟩
  | .fin neg m e =>
    let s := if neg then 2 ^ (width - 1) else 0
    if m = 0 then ⟨s, false⟩
    else
      let p := f.pack (f.round m e)
      if maxPack < p then
        (if sat then ⟨s + maxPack, true⟩ else if ovfNan then ⟨nanBits, true⟩ else ⟨s + infPack, true⟩)
      else ⟨s + p, false⟩

/-- Convert `v` to the output encoding `t` (Table 4-4, R111). For an infinite `v` the element counts as saturated
when the output written is finite (R113), and for F8E4, whose NaN is not finite, it does not. -/
def convert (t : Nat) (sat : Bool) (g : Grid) (v : Word) : Conv :=
  match t with
  | 0 =>
    match f32 v with
    | .nan => ⟨zeroCode g, false⟩
    | .inf neg => ⟨if neg then 0 else 15, true⟩
    | .fin s m e => ⟨nearestCode g (.fin s m e), outsideGrid g (.fin s m e)⟩
  | 1 =>
    match f32 v with
    | .nan => ⟨0, false⟩
    | .inf neg => ⟨if neg then 128 else 127, true⟩
    | .fin s m e =>
      let z := nearestInt s m e
      if z < -128 then ⟨128, true⟩ else if 127 < z then ⟨127, true⟩ else ⟨(z % 256).toNat, false⟩
  | 2 => convFloat fmtF8E4 8 0x7E 0x7F 0x7F true sat (f32 v)
  | 3 => convFloat fmtF8E5 8 0x7B 0x7C 0x7E false sat (f32 v)
  | 4 => convFloat fmtBF16 16 0x7F7F 0x7F80 0x7FC0 false sat (f32 v)
  | 5 => convFloat fmtFP16 16 0x7BFF 0x7C00 0x7E00 false sat (f32 v)
  | _ => ⟨if (f32 v).isNan then nan32.toNat else v.toNat, false⟩

/-- The squared conversion error of one element, rounded once to binary32 (R114). -/
def errSq (t : Nat) (g : Grid) (v : Word) (bits : Nat) : Word :=
  if t = 6 ∨ t = 7 then 0
  else
    let x := f32 v
    let d := decodeElem t g bits
    match x, d with
    | .nan, _ => inf32 false
    | _, .nan => inf32 false
    | .inf a, .inf b => if a = b then 0 else inf32 false
    | .inf _, _ => inf32 false
    | _, .inf _ => inf32 false
    | x, d =>
      let e0 := minExp 0 [x, d]
      let z := sumScaled e0 [x, d.neg]
      rn32 false (z.natAbs * z.natAbs) (e0 + e0)

/-- `RN(w / n)` for a binary32 `w` that is not negative (R115). -/
def divNat (w : Word) (n : Nat) : Word :=
  match f32 w with
  | .nan => nan32
  | .inf s => inf32 s
  | .fin s m e =>
    if n = 0 then w
    else
      let q := m * 2 ^ 96 / n
      let r := m * 2 ^ 96 % n
      rn32 s (2 * q + (if r = 0 then 0 else 1)) (e - 97)

/-- The interpolated lookup of R148. -/
def lookup (x0 rinv : Word) (y : Nat → Word) (v : Word) : Word :=
  if (f32 v).isNan then nan32
  else
    let u := fsum [(f32 (fsum [f32 v, (f32 x0).neg])).mul (f32 rinv)]
    let uv := f32 u
    if uv.isNan then nan32
    else if FVal.le uv (.fin false 0 0) then y 0
    else if FVal.le (FVal.ofInt 255) uv then y 255
    else
      match uv with
      | .fin _ m e =>
        let i : Nat := if 0 ≤ e then m * 2 ^ e.toNat else m / 2 ^ (-e).toNat
        let f : FVal := .fin false (if 0 ≤ e then 0 else m % 2 ^ (-e).toNat) (min e 0)
        fsum [f32 (y i), f.mul (f32 (y (i + 1))), f.mul (f32 (y i)).neg]
      | _ => y 0

/-- The maximum of R150: NaN in gives the canonical NaN, and +0 is above −0. -/
def fmax (a b : Word) : Word :=
  if (f32 a).isNan || (f32 b).isNan then nan32
  else if FVal.lt (f32 a) (f32 b) then b
  else if FVal.lt (f32 b) (f32 a) then a
  else if (f32 a).isNegZero then b else a

/-- The minimum of R150. -/
def fmin (a b : Word) : Word :=
  if (f32 a).isNan || (f32 b).isNan then nan32
  else if FVal.lt (f32 a) (f32 b) then a
  else if FVal.lt (f32 b) (f32 a) then b
  else if (f32 a).isNegZero then a else b

/-- Stage 4 with operand `c` (Table 5-13; `c` is CMXK for codes 1 to 3, the compare element for 4 to 6). -/
def cmx (op : Nat) (v c : Word) : Word :=
  match op with
  | 1 => fmax v c
  | 4 => fmax v c
  | 2 => fmin v c
  | 5 => fmin v c
  | 3 => if FVal.le (f32 c) (f32 v) then 0x3F800000 else 0
  | 6 => if FVal.le (f32 c) (f32 v) then 0x3F800000 else 0
  | _ => v

end Sys2Proof.Machine
end

