-- ==== Sys2Proof/Machine/Array.lean ====
section
/-!
DEFINITION. The arithmetic of the cell array (03_cell_array.md R59 to R62, R71 to R82) and of the drain path
(05_scratchpad_bank_alus.md R140 to R151, R154): one tile's product, its 130 checksum comparisons, and the eight drain
stages, as functions of the operand values (R77).
-/
namespace Sys2Proof.Machine

/-- The K indices that one cell consumes per cycle, by operand tags; a 16-bit pair consumes one every second cycle
(Table 3-1). `none` when the pair is not legal (R62). -/
def pairRate (ta tb : Nat) : Option Nat :=
  match ta, tb with
  | 0, 0 => some 4
  | 1, 0 => some 2
  | 2, 0 => some 2
  | 3, 0 => some 2
  | 1, 1 => some 2
  | 2, 2 => some 2
  | 2, 3 => some 2
  | 3, 2 => some 2
  | 3, 3 => some 2
  | 4, 4 => some 1
  | 4, 5 => some 1
  | 5, 4 => some 1
  | 5, 5 => some 1
  | 4, 0 => some 1
  | 5, 0 => some 1
  | _, _ => none

/-- Does the pair accumulate in 32-bit integers (Table 3-1)? -/
def pairInt (ta tb : Nat) : Bool := (ta == 0 || ta == 1) && (tb == 0 || tb == 1)

/-- Is it a 16-bit pair, with one product every second cycle? -/
def pairWide (ta : Nat) : Bool := ta == 4 || ta == 5

/-- Compute cycles C of a pair for K (Table 3-1). -/
def computeCycles (ta tb k : Nat) : Nat :=
  if pairWide ta then 2 * k
  else match pairRate ta tb with
    | some r => (k + r - 1) / r
    | none => 0

/-- Tile time T = 3 + C + 64 of a tile that issues alone and is not stalled (R70). -/
def tileTime (ta tb k : Nat) : Nat := 3 + computeCycles ta tb k + 64

/-- Does the pair use all 2,048 bits of the operand port per compute cycle (Table 3-1)? -/
def pairFullPort (ta tb : Nat) : Bool :=
  (ta == 0 && tb == 0) || (ta == 1 && tb == 1) || ((ta == 2 || ta == 3) && (tb == 2 || tb == 3))

/-- Compute cycles that the limiter lets pass in the cycles `0 … t - 1` of a frame at the rate `q`/16 (R67).
DESIGN CHOICE (log 48): the groups of 16 core cycles are counted from beat 0, and the first `q` of each are taken. -/
def limCount (q t : Nat) : Nat := q * (t / 16) + min q (t % 16)

/-- The cycle after the last of `n` compute cycles that start in cycle `a` at the rate `q`/16 (R67). -/
def limEnd (q a n : Nat) : Nat :=
  if n = 0 then a
  else if 16 ≤ q ∨ q = 0 then a + n
  else
    let m := limCount q a + n - 1
    16 * (m / q) + m % q + 1

/-- The indices of one cycle: `rate` consecutive ones, the last group possibly short (R76). -/
def groupIdx (rate k c : Nat) : List Nat :=
  ((List.range rate).map (fun t => c * rate + t)).filter (fun i => decide (i < k))

/-- The groups of all cycles, ascending. -/
def groups (rate k : Nat) : List (List Nat) :=
  (List.range ((k + rate - 1) / rate)).map (groupIdx rate k)

/-- Wrap to a two's-complement integer of `w` bits. -/
def wrapInt (w : Nat) (z : Int) : Int :=
  let r := z % (2 ^ w : Int)
  if r < 2 ^ (w - 1) then r else r - 2 ^ w

/-- An integer cell of `w` bits: the exact products of each cycle are added modulo `2 ^ w`; the flag records a running
sum outside the range (R74). -/
def cellInt (w : Nat) (gs : List (List Nat)) (init : Int) (p : Nat → Int) : Int × Bool :=
  gs.foldl (fun st g =>
    let z := st.1 + (g.map p).sum
    (wrapInt w z, st.2 || decide (z < -(2 ^ (w - 1)) ∨ 2 ^ (w - 1) ≤ z))) (init, false)

/-- A float cell: in each cycle the exact sum of the accumulator and the cycle's products, rounded once (R75). -/
def cellFlt (gs : List (List Nat)) (init : Word) (p : Nat → FVal) : Word :=
  gs.foldl (fun acc g => fsum (f32 acc :: g.map p)) init

/-- What a tile's array arithmetic depends on (R77). Elements and initial values come as functions of their
position. -/
structure TileIn where
  rate : Nat
  isInt : Bool
  m : Nat
  n : Nat
  k : Nat
  ai : Nat → Nat → Int
  bi : Nat → Nat → Int
  af : Nat → Nat → FVal
  bf : Nat → Nat → FVal
  init : Nat → Nat → Word

/-- A fault that the environment injects into one drained value of the array: row and column 64 are the checksum row
and column. The drained value is exclusive-ored with `mask`. -/
structure CellFault where
  row : Nat
  col : Nat
  mask : Nat
deriving DecidableEq, Repr

/-- The mask that hits position (i, j). -/
def faultMask (fs : List CellFault) (i j : Nat) : Nat :=
  fs.foldl (fun a f => if f.row = i ∧ f.col = j then a ^^^ f.mask else a) 0

/-- The first comparison that failed (R93): AXIS 0 for rows and the corner by row, 1 for columns and the corner by
column; INDEX 64 for a corner. -/
structure FailAt where
  axis : Nat
  index : Nat
deriving DecidableEq, Repr

/-- One pass of the array over a tile: the drained data elements of the unmasked positions as 32-bit patterns, the
first failing comparison, the range mark (R81). -/
structure PassOut where
  data : List (List Nat)
  fail : Option FailAt
  range : Bool
deriving DecidableEq, Repr

/-- First failing comparison in the order of R93, from the outcomes per row, per column and of the two corners. -/
def firstFail (rows cols : List Bool) (cornerRow cornerCol : Bool) : Option FailAt :=
  match rows.findIdx? (fun b => !b) with
  | some i => some ⟨0, i⟩
  | none =>
    match cols.findIdx? (fun b => !b) with
    | some j => some ⟨1, j⟩
    | none => if !cornerRow then some ⟨0, 64⟩ else if !cornerCol then some ⟨1, 64⟩ else none

/-- The column of an accumulated matrix. -/
def colOf (d : List (List α)) (j : Nat) : List α := d.filterMap (fun r => r[j]?)

/-- The contents of one accumulator set when its tile's compute ends (R61): the unmasked data elements with their range
flags, the 64 elements of the checksum column and of the checksum row, the corner. -/
structure AccSet where
  data : List (List Nat) := []
  flag : List (List Bool) := []
  ccol : List Nat := []
  crow : List Nat := []
  corner : Nat := 0
deriving DecidableEq, Repr

/-- The 64 elements of a checksum line: zero at masked positions (R71). -/
def line64 (l : List Nat) : List Nat := l ++ List.replicate (64 - l.length) 0

/-- What an integer tile leaves in its set: data cells modulo 2^32 with range flags, checksum cells modulo 2^40 (R74, R78,
R79). -/
def accInt (t : TileIn) : AccSet :=
  let gs := groups t.rate t.k
  let im := List.range t.m
  let jn := List.range t.n
  let sA (k : Nat) : Int := (im.map (fun i => t.ai i k)).sum
  let sB (k : Nat) : Int := (jn.map (fun j => t.bi k j)).sum
  let init (i j : Nat) : Int := wordInt (t.init i j).toNat
  let rowPre (i : Nat) : Int := (jn.map (init i)).sum
  let colPre (j : Nat) : Int := (im.map (fun i => init i j)).sum
  let cells := im.map (fun i => jn.map (fun j => cellInt 32 gs (init i j) (fun k => t.ai i k * t.bi k j)))
  let n40 (z : Int) : Nat := (z % 2 ^ 40).toNat
  { data := cells.map (fun r => r.map (fun c => (c.1 % 2 ^ 32).toNat))
    flag := cells.map (fun r => r.map (fun c => c.2))
    ccol := line64 (im.map (fun i => n40 (cellInt 40 gs (rowPre i) (fun k => t.ai i k * sB k)).1))
    crow := line64 (jn.map (fun j => n40 (cellInt 40 gs (colPre j) (fun k => sA k * t.bi k j)).1))
    corner := n40 (cellInt 40 gs ((im.map rowPre).sum) (fun k => sA k * sB k)).1 }

/-- A drained line of 64 elements with the faults that hit it; `pos` places the element. -/
def hitLine (fs : List CellFault) (w : Nat) (pos : Nat → Nat × Nat) (l : List Nat) : List Nat :=
  (List.range 64).map (fun i => l.getD i 0 ^^^ faultMask fs (pos i).1 (pos i).2 % 2 ^ w)

/-- The drained data elements of `m` rows and `n` columns with the faults that hit them. -/
def hitData (fs : List CellFault) (m n : Nat) (d : List (List Nat)) : List (List Nat) :=
  (List.range m).map (fun i => (List.range n).map (fun j => (d.getD i []).getD j 0 ^^^ faultMask fs i j % 2 ^ 32))

/-- The 130 comparisons of an integer tile, exact modulo 2^40 (R80, R81): a masked row or column compares zero with its
checksum element, and lines with a range flag are skipped. -/
def cmpInt (m n : Nat) (a : AccSet) (fs : List CellFault) : PassOut :=
  let data := hitData fs m n a.data
  let ccol := hitLine fs 40 (fun i => (i, 64)) a.ccol
  let crow := hitLine fs 40 (fun j => (64, j)) a.crow
  let corner := a.corner ^^^ faultMask fs 64 64 % 2 ^ 40
  let eq40 (x : Int) (y : Nat) : Bool := decide ((x - y) % 2 ^ 40 = 0)
  let sumI (l : List Nat) : Int := (l.map wordInt).sum
  let sumN (l : List Nat) : Int := (l.map Int.ofNat).sum
  let flagRow (i : Nat) : Bool := (a.flag.getD i []).any id
  let flagCol (j : Nat) : Bool := (colOf a.flag j).any id
  let anyFlag := a.flag.any (fun r => r.any id)
  let rows := (List.range 64).map (fun i => flagRow i || eq40 (sumI (data.getD i [])) (ccol.getD i 0))
  let cols := (List.range 64).map (fun j => flagCol j || eq40 (sumI (colOf data j)) (crow.getD j 0))
  { data := data
    fail := firstFail rows cols (anyFlag || eq40 (sumN (crow.take n)) corner) (anyFlag || eq40 (sumN (ccol.take m)) corner)
    range := anyFlag }

/-- `a ≤ 2 ^ -tol * b + f` on finite values. -/
def leTol (a b f : FVal) (tol : Nat) : Bool :=
  match b with
  | .fin s m e =>
    let b' : FVal := .fin s m (e - tol)
    let e0 := minExp 0 [a, b', f]
    decide (sumScaled e0 [a] ≤ sumScaled e0 [b', f])
  | _ => true

/-- The float comparison of R82 between terms of D in their order and S. -/
def cmpFloat (tol floor : Nat) (sum : List (Option Word) → Word) (ds : List (Option Word)) (s : Word) : Bool :=
  let d := sum ds
  let mag := sum (ds.map (Option.map (fun w => w &&& 0x7FFFFFFF)))
  match f32 d, f32 s with
  | .fin a m e, .fin b n f =>
    let e0 := minExp 0 [.fin a m e, .fin b n f]
    let diff : FVal := .fin false (sumScaled e0 [.fin a m e, (FVal.fin b n f).neg]).natAbs e0
    let fl : FVal := if floor = 0 then .fin false 0 0 else .fin false 1 ((floor : Int) - 127)
    let sc := if FVal.lt (f32 mag) (.fin false n f) then FVal.fin false n f else f32 mag
    leTol diff sc fl tol
  | .fin .., _ => false
  | _, .fin .. => false
  | _, _ => true

/-- A line of binary32 terms at the positions 0 to 63; positions beyond it are absent (R78). -/
def padTerms (l : List Word) : List (Option Word) := l.map some ++ List.replicate (64 - l.length) none

/-- What a float tile leaves in its set: exact sums rounded once per cycle, checksum sums and preloads in the pairwise and
ascending orders (R75, R78, R79).

The corner's preload is the ascending sum of the checksum-column preloads, and the corner by row compares the corner with
the pairwise sum of the checksum row (Table 3-9). With K = 0 and a float bias the two can round or overflow apart although
R73 and R80 call them equal. DESIGN CHOICE (log 47): the model computes both sides as R79 and Table 3-9 order them. -/
def accFlt (t : TileIn) : AccSet :=
  let gs := groups t.rate t.k
  let im := List.range t.m
  let jn := List.range t.n
  let asF (v : FVal) : Word := fsum [v]
  let sA (k : Nat) : FVal := f32 (pairwise (padTerms (im.map (fun i => asF (t.af i k)))))
  let sB (k : Nat) : FVal := f32 (pairwise (padTerms (jn.map (fun j => asF (t.bf k j)))))
  let rowPre (i : Nat) : Word := pairwise (padTerms (jn.map (t.init i)))
  let colPre (j : Nat) : Word := ascending (padTerms (im.map (fun i => t.init i j)))
  { data := im.map (fun i => jn.map (fun j => (cellFlt gs (t.init i j) (fun k => (t.af i k).mul (t.bf k j))).toNat))
    ccol := line64 (im.map (fun i => (cellFlt gs (rowPre i) (fun k => (t.af i k).mul (sB k))).toNat))
    crow := line64 (jn.map (fun j => (cellFlt gs (colPre j) (fun k => (sA k).mul (t.bf k j))).toNat))
    corner := (cellFlt gs (ascending (padTerms (im.map rowPre))) (fun k => (sA k).mul (sB k))).toNat }

/-- The 130 comparisons of a float tile (R80, R82): a masked row or column has only absent terms in D. -/
def cmpFlt (m n tol floor : Nat) (a : AccSet) (fs : List CellFault) : PassOut :=
  let data := hitData fs m n a.data
  let w (x : Nat) : Word := BitVec.ofNat 32 x
  let ccol := (hitLine fs 32 (fun i => (i, 64)) a.ccol).map w
  let crow := (hitLine fs 32 (fun j => (64, j)) a.crow).map w
  let corner := w (a.corner ^^^ faultMask fs 64 64 % 2 ^ 32)
  let rows := (List.range 64).map (fun i =>
    cmpFloat tol floor pairwise (padTerms ((data.getD i []).map w)) (ccol.getD i 0))
  let cols := (List.range 64).map (fun j =>
    cmpFloat tol floor ascending (padTerms ((colOf data j).map w)) (crow.getD j 0))
  { data := data
    fail := firstFail rows cols (cmpFloat tol floor pairwise (padTerms (crow.take n)) corner)
      (cmpFloat tol floor ascending (padTerms (ccol.take m)) corner)
    range := false }

/-- What a tile leaves in its accumulator set. -/
def accOf (t : TileIn) : AccSet := if t.isInt then accInt t else accFlt t

/-- The comparator's work on a drained set. -/
def comparePass (isInt : Bool) (m n tol floor : Nat) (a : AccSet) (fs : List CellFault) : PassOut :=
  if isInt then cmpInt m n a fs else cmpFlt m n tol floor a fs

/-! ## The drain path -/

/-- A drain descriptor (Tables 5-11 and 5-12) with its conversion control word (Table 4-3). -/
structure Drn where
  ofmt : Nat
  rsc : Bool
  sat : Bool
  wid : Bool
  cbo : Nat
  ccwRsv : Nat
  acc : Bool
  ringP : Nat
  luten : Bool
  lut : Nat
  cmx : Nat
  rtab : Nat
  ringC : Nat
  rmx : Bool
  ringR : Nat
  cmxk : Word
deriving DecidableEq, Repr

/-- What the drain stages read besides the accumulator values. -/
structure DrainIn where
  isInt : Bool
  m : Nat
  n : Nat
  d : Drn
  ofmt : Nat
  sat : Bool
  grid : Grid
  scale : Nat → Word
  offset : Nat → Word
  part : Nat → Nat → Nat
  cmp : Nat → Nat → Word
  x0 : Word
  rinv : Word
  y : Nat → Word

/-- One drained element: its bits, the value at stage 4, the squared error, the marks of R113 and R146. -/
structure ElemOut where
  bits : Nat
  v4 : Word
  err : Word
  sat : Bool
  nan : Bool
  ovf : Bool
deriving DecidableEq, Repr

/-- Stage 1 (R146): the accumulator value, and whether an integer sum left the range. -/
def stageAcc (x : DrainIn) (i j a : Nat) : Nat × Bool :=
  if !x.d.acc then (a, false)
  else if x.isInt then
    let z := wordInt a + wordInt (x.part i j)
    ((z % 2 ^ 32).toNat, decide (z < -(2 ^ 31) ∨ 2 ^ 31 ≤ z))
  else ((fsum [f32 (BitVec.ofNat 32 a), f32 (BitVec.ofNat 32 (x.part i j))]).toNat, false)

/-- An accumulator pattern as an exact value. -/
def accVal (isInt : Bool) (a : Nat) : FVal := if isInt then FVal.ofInt (wordInt a) else f32 (BitVec.ofNat 32 a)

/-- Stage 2 (R108). -/
def stageScale (x : DrainIn) (j a : Nat) : Word :=
  if x.d.rsc then fsum [(accVal x.isInt a).mul (f32 (x.scale j)), f32 (x.offset j)]
  else if x.isInt then fsum [accVal true a]
  else BitVec.ofNat 32 a

/-- Stages 1 to 7 on one unmasked element (Table 5-10); with OFMT I32 only stages 1 and 8 act. -/
def drainElem (x : DrainIn) (i j a : Nat) : ElemOut :=
  let s := stageAcc x i j a
  if x.ofmt = 6 then ⟨s.1, 0, 0, false, false, s.2⟩
  else
    let v2 := stageScale x j s.1
    let v3 := if x.d.luten then lookup x.x0 x.rinv x.y v2 else v2
    let v4 := cmx x.d.cmx v3 (if x.d.cmx ≤ 3 then x.d.cmxk else x.cmp i j)
    let c := convert x.ofmt x.sat x.grid v4
    ⟨c.bits, v4, errSq x.ofmt x.grid v4 c.bits, c.sat, (f32 v4).isNan, s.2⟩

/-- What a masked position is written as (R112). -/
def maskBits (ofmt : Nat) (g : Grid) : Nat := if ofmt = 0 then zeroCode g else 0

/-- A drained tile: 64 rows of 64 elements, the statistic (R115), the saturation count, the marks, the row maxima
(R151). -/
structure DrainOut where
  rows : List (List Nat)
  stat : Word
  sats : Nat
  nan : Bool
  ovf : Bool
  rmax : List Word
deriving DecidableEq, Repr

/-- The drain of a tile's unmasked elements `data`. -/
def drainTile (x : DrainIn) (data : List (List Nat)) : DrainOut :=
  let el := (List.range x.m).map (fun i => (List.range x.n).map (fun j =>
    drainElem x i j ((data.getD i []).getD j 0)))
  let pad (l : List Word) : List (Option Word) := l.map some ++ List.replicate (64 - l.length) none
  let mb := maskBits x.ofmt x.grid
  let total := ascending (el.map (fun r => some (pairwise (pad (r.map (fun e => e.err))))))
  { rows := (List.range 64).map (fun i => (List.range 64).map (fun j =>
      match (el.getD i [])[j]? with
      | some e => e.bits
      | none => mb))
    stat := divNat total (x.m * x.n)
    sats := (el.map (fun r => (r.filter (fun e => e.sat)).length)).sum
    nan := el.any (fun r => r.any (fun e => e.nan))
    ovf := el.any (fun r => r.any (fun e => e.ovf))
    rmax := (List.range 64).map (fun i =>
      match el[i]? with
      | some (e :: t) => t.foldl (fun a b => fmax a b.v4) e.v4
      | _ => inf32 true) }

/-- The bytes of a row image: element `e` at bits `[w e + w - 1 : w e]`, little-endian (R96). -/
def rowImage (w : Nat) (es : List Nat) : Nat :=
  es.foldr (fun e acc => e % 2 ^ w + 2 ^ w * acc) 0

end Sys2Proof.Machine
end

