-- ==== Sys2Proof/Machine/Types.lean ====
section
/-!
DEFINITION. The plain data that travels through the device and that its blocks hold: tile headers, fabric words, error
records, stakes and drives, sequencer entries, the scalar core, the parts of one block.
-/
namespace Sys2Proof.Machine

/-- A tile header (09_stations_traverses.md Table 9-1), also a drive word's header (Table 10-3: FMT 0xF, SEQ is DSEQ,
`inc` is word 3). -/
structure Hdr where
  fmt : Nat := 0
  void : Bool := false
  range : Bool := false
  cb : Nat := 0
  frame : Nat := 0
  seq : Nat := 0
  leg : Nat := 0
  parcel : Nat := 0
  gen : Nat := 0
  part : Nat := 0
  inc : Nat := 0
deriving DecidableEq, Repr

/-- A fabric word: 1,024 data bits and the sideband of Table 8-1 (08_fabric_route_plans.md R218). -/
structure FWord where
  v : Bool
  parcel : Nat
  gen : Nat
  last : Bool
  eas : Bool
  stamp : Nat
  par : Nat
  data : Nat
deriving DecidableEq, Repr

/-- An error record (18_faults_repair.md Table 18-1). PARCEL is carried, CONTEXT is the number, CRC is a function of
the rest. `teardown` and `suspect` say what the record causes, which R184 and R474 rank by; `tell` marks a context's
event, and `ann` lists the functions whose error vector follows the record (13_host_interface.md R386, Table 13-13). -/
structure ErrRec where
  cls : Nat
  subtype : Nat
  level : Nat
  fatal : Bool := false
  parcel : Nat := 0
  inj : Bool := false
  hard : Bool := false
  lfull : Bool := false
  ctx : Nat := 0
  frame : Nat := 0
  beat : Nat := 0x7FFF
  region : Nat := 0xFF
  die : Nat := 0
  block : Nat := 0xFFFF
  pblock : Nat := 0xFFFF
  tag : Nat := 0
  object : Nat := 0
  objkind : Nat := 0
  specific : Nat := 0
  address : Nat := 0
  srcseq : Nat := 0
  teardown : Bool := false
  suspect : Bool := false
  tell : Bool := false
  ann : List Nat := []
deriving DecidableEq, Repr

/-- A stake (10_stakes.md R280 to R297): count and configuration word (layout of STK_CFG), void bits, flags. -/
structure Stake where
  cnt : Int := 0
  cfg : Word := 0x400
  void : Nat := 0
  poison : Bool := false
  ovf : Bool := false
  streak : Nat := 0
  lagged : Bool := false
deriving DecidableEq, Repr

/-- Who made a drive, for the record of a trespass or an overflow. -/
inductive Driver where
  | block (b : Nat)
  | endpoint (b e : Nat)
  | engine (n e d : Nat)
  | stream (n i : Nat)
  | host (fn : Nat)
  | mc
deriving DecidableEq, Repr

/-- A drive on its way to a stake (R286, R292): index in the unit that holds it, increment, void flag, frame tag,
parcel of its driver, generation at launch (`none` for the MC, which has none). -/
structure Drive where
  stake : Nat
  inc : Nat
  void : Bool
  tag : Nat
  parcel : Nat
  gen : Option Nat
  by_ : Driver
deriving DecidableEq, Repr

/-- The 128-bit command image in a sequencer entry (06_scalar_core.md R171). -/
structure Cmd where
  w0 : Word
  w1 : Word
  w2 : Word
  w3 : Word
deriving DecidableEq, Repr

/-- What the sequencer keeps of an issued command: the pass (0 first, 1 replay, 2 widened re-run), the accumulator set,
the effective operand tags after R121, the slots it uses, the passes a control injects (R536), the void mark of its inputs, the
cycle of issue, the block's delay then; for a matrix command its first compute cycle, the cycle after its last compute cycle and
after its last drain cycle (R66 to R68), by how many cycles a substituted pair lengthens it (R123), and the rate `q` that times it, with the `left` compute cycles that it
has left at cycle `mark` (R67). -/
structure Run where
  pass : Nat := 0
  set : Nat := 0
  ta : Nat := 0
  tb : Nat := 0
  sa : Nat := 0
  sb : Nat := 0
  si : Nat := 0
  sd : Nat := 0
  sp : Nat := 0
  sc : Nat := 0
  sr : Nat := 0
  void : Bool := false
  sub : Bool := false
  inj : Nat := 0
  stat : Word := 0
  cyc : Nat := 0
  late : Nat := 0
  fc : Nat := 0
  ce : Nat := 0
  de : Nat := 0
  excess : Nat := 0
  skip : Nat := 0
  q : Nat := 16
  mark : Nat := 0
  left : Nat := 0
deriving DecidableEq, Repr

/-- The state of a queue entry: waiting (also after a cancellation of R84), issued, decided and on its way through the drain path
until cycle `at_`, when its destination is marked full with the header `h` (R69, R141), or refused as illegal. A refused
command has no final outcome, so it holds its entry and every command behind it until the teardown it asks for (R64, R175,
R176). -/
inductive EState where
  | waiting
  | issued (r : Run)
  | landing (r : Run) (h : Hdr) (at_ : Nat)
  | refused
deriving DecidableEq, Repr

/-- An occupied entry of the sequencer queue (R175): image, order of push, frame of push, planned cycle (R179). `keptSet`
keeps the accumulator set of a command that was cancelled (R61, R84), `bias` the bias vector, which is read once (R66). -/
structure QEntry where
  cmd : Cmd
  id : Nat
  frame : Nat
  plan : Option Nat := none
  keptSet : Option Nat := none
  bias : Option (List Word) := none
  st : EState := .waiting
deriving DecidableEq, Repr

/-- The sequencer: queue, next accumulator set (R61), the plan point that names the next pushed command, the cycle up
to which delay is charged (R179), the marks of R287, the counts of the frame's commit record. -/
structure Seqr where
  q : List QEntry := []
  nextId : Nat := 0
  nextSet : Nat := 0
  planNext : Option Nat := none
  lastCyc : Nat := 0
  voidSight : Bool := false
  voidSeen : Bool := false
  replays : Nat := 0
  widened : Nat := 0
  poisoned : Nat := 0
  injCount : Nat := 0
  injHits : Nat := 0
deriving DecidableEq, Repr

/-- What the scalar core is doing (R163, R173, R186). `frame` waits in TFRAME with its destination register, `cut`
waits for beat 0 after a cut, `stall` waits in a tag-checked load (R137). -/
inductive CoreMode where
  | halted
  | running
  | frame (rd : Nat)
  | cut
  | stall (ring slot : Nat) (addr : Word)
deriving DecidableEq, Repr

/-- The scalar core (06_scalar_core.md R163 to R173). An unlisted register of `x` reads 0. -/
structure Core where
  mode : CoreMode := .halted
  pc : Word := 0
  x : SMap Word := []
  mtvec : Word := 0
  mcountinhibit : Word := 0
  mscratch : Word := 0
  mepc : Word := 0
  mcause : Word := 0
  mtval : Word := 0
  mcycle : Nat := 0
  minstret : Nat := 0
  inTrap : Bool := false
  cut : Bool := false
  ovr : Bool := false
  tfentry : Word := 0
  tframe : Nat := 0
deriving DecidableEq, Repr

/-- The tag entry of a slot besides its full bit, which SP_RING_STATE.FULL holds (05_scratchpad_bank_alus.md R135).
`wide` says that the slot has a panel map (R266). -/
structure TagEnt where
  hdr : Hdr := {}
  rel : Nat := 0
  multi : Bool := false
  wide : Bool := false
  pmap : Nat := 0
deriving DecidableEq, Repr

/-- A word in the inbound holding buffer (R138). `lost` says that it lost the write port; `since` is the cycle it
entered, counted from beat 0 of the running frame, and from the tick in the boundary gap; `dlv` the delivery it belongs to. A void tile that waits for its slot has `isVoid`. -/
structure Held where
  ep : Nat
  ring : Nat
  slot : Nat
  off : Nat
  data : Nat
  dlv : Nat
  lost : Bool
  since : Int
  isVoid : Bool := false
deriving DecidableEq, Repr

/-- A delivery in assembly or complete (09 R263, R266): parts accepted, parts finished, parts that came as F8E4, the CB
of its G4 parts and of its first part; `zero` says that it is a void tile of R54, whose payload is zero. -/
structure Dlv where
  seq : Nat
  arrived : List Nat := []
  done : Nat := 0
  void : Bool := false
  range : Bool := false
  f8 : List Nat := []
  cb : Option Nat := none
  cb0 : Option Nat := none
  frame : Nat := 0
  zero : Bool := false
deriving DecidableEq, Repr

/-- A part between its mark and its LAST word (R264); `drop` says that its words are discarded, `quiet` that its
mark has caused its one leg fault already. -/
structure OpenPart where
  hdr : Hdr
  dlv : Nat
  want : Nat
  got : Nat
  drop : Bool
  quiet : Bool := false
deriving DecidableEq, Repr

/-- A drive queued at an outbound endpoint (R288, R289): `after` tiles must leave before it; `since` is the cycle in which the
endpoint accepted it. -/
structure LegDrive where
  inc : Nat
  void : Bool
  tag : Nat
  after : Nat
  since : Int := -8
deriving DecidableEq, Repr

/-- A leg endpoint's state behind LEP_A/B (09 R260 to R263, 10 R288 to R290). `n64` is NSEQ or c in 64 bits, `start`
the first frame a of its context, `fullTo` the oldest delivery not yet marked full, `sent` the payload words read of
the tile being sent, `skip` the leg slots that it leaves unused, `stalled` that a drive word waits for its stake's queue (R298). -/
structure LegEnd where
  n64 : Nat := 0
  start : Nat := 0
  dseq : Nat := 0
  totals : List (Nat × Nat) := []
  asm : List Dlv := []
  part : Option OpenPart := none
  complete : List Dlv := []
  fullTo : Nat := 0
  drives : List LegDrive := []
  sent : Option Nat := none
  skip : Nat := 0
  stalled : Bool := false
deriving DecidableEq, Repr

/-- The check unit besides its registers (06 R181, R182): shift register, input buffer. -/
structure ChkUnit where
  reg : Nat := 0xFFFFFFFF
  hi : Word := 0
  buf : List Byte := []
deriving DecidableEq, Repr

/-- An event counter (20_counters_perturbation.md R523 to R528). -/
structure Evc where
  src : Nat := 0
  mode : Nat := 0
  parcel : Nat := 0
  pfilt : Bool := false
  sat : Bool := false
  cnt : Nat := 0
  hi : Nat := 0
  snap : Nat := 0
  snapHi : Nat := 0
deriving DecidableEq, Repr

/-- An easement word that a router holds (08 R236): its order of R237, 0 first, or 4 for an outward word; the directions in which it
still has to go; the word. -/
structure Eased where
  order : Nat
  dirs : List Nat
  w : FWord
deriving DecidableEq, Repr

/-- A router besides its registers: pattern file entries (pattern * 256 + cycle), words last sent per direction
(0 north, 1 south, 2 east, 3 west), with the order of R237 of an easement word (4 outward), words delivered to the block with their
endpoint, inward and outward easement words held. -/
structure Router where
  pat : SMap Word := []
  out : SMap FWord := []
  order : SMap Nat := []
  dlv : List (Nat × FWord) := []
  ein : List Eased := []
  eout : List Eased := []
deriving DecidableEq, Repr

/-- One logical block. `sets` are the two accumulator sets (R61). `disc` counts the discarded accesses that a step of the block hands to HIF_DISC, `evs` the events
that it hands to the region's and the hub's counters; both are empty between steps. `tdrop` and `rdrop`
count the telemetry words (08 R237) and the error records (06 R184) dropped in this frame. -/
structure Block where
  regs : Regs := []
  spm : Mem := []
  ecc : SMap Nat := []
  imem : Mem := []
  ldata : Mem := []
  core : Core := {}
  seq : Seqr := {}
  sets : SMap AccSet := []
  tags : SMap TagEnt := []
  takes : SMap Nat := []
  held : List Held := []
  luts : SMap Word := []
  legs : SMap LegEnd := []
  stakes : SMap Stake := []
  driveq : List Drive := []
  chk : ChkUnit := {}
  recq : List ErrRec := []
  srcseq : Nat := 0
  router : Router := {}
  scrubPos : Nat := 0
  xrow : Nat := 65
  xcol : Nat := 65
  evcs : SMap Evc := []
  granOld : Nat := 0
  testRun : Nat := 0
  disc : Nat := 0
  evs : List (Nat × Option Nat × Nat) := []
  tdrop : Nat := 0
  rdrop : Nat := 0
deriving DecidableEq, Repr

end Sys2Proof.Machine
end

