-- ==== Sys2Proof/Machine/BlockOps.lean ====
section
/-!
DEFINITION. The shared operations of one block: its surroundings (`Env`), error records and their queue
(06_scalar_core.md R184), event counts, slot rings and tags (05_scratchpad_bank_alus.md R132 to R139), ECC reads
(R157, R158), local stakes' numbers, delay accounting (R48, R179).
-/
namespace Sys2Proof.Machine

/-- The chip-wide logical number of block index `b` of region `n`. -/
def chipBlk (n b : Nat) : Nat := 1152 * (n / 6) + 24 * (16 * (n % 6 / 2) + b / 12) + 12 * (n % 2) + b % 12

/-- The region and block index of a chip-wide logical number. -/
def regionOf (blk : Nat) : Nat := 6 * (blk / 1152) + 2 * (blk % 1152 / 24 / 16) + blk % 24 / 12
/-- The block index within its region. -/
def indexOf (blk : Nat) : Nat := 12 * (blk % 1152 / 24 % 16) + blk % 24 % 12

/-- What a block's step reads of the rest of the device: region cycle from beat 0, frame number, beat, identity,
parcel and context, generation, whether a context is active on the block, what acts on its clock and issue, whether no plat is
active (17 R456). -/
structure Env where
  cyc : Nat
  frame : Nat
  beat : Nat
  gap : Bool
  noPlat : Bool
  region : Nat
  blk : Nat
  pblk : Nat
  parcel : Nat
  ctx : Nat
  gen : Nat
  active : Bool
  sealed : Bool
  loading : Bool
  q : Nat
  droop : Bool
  pert : Bool
  inj : Bool
  mismEvery : Nat
  mismPasses : Nat
  frozen : Bool
  fenced : Bool
  slLegs : List Nat
  ctxs : List Nat
  rtGen : Word
  free : Nat
deriving DecidableEq, Repr

/-- A stake at reset or never configured. -/
def stakeZero : Nat → Stake := fun _ => {}
/-- An empty tag entry. -/
def tagZero : Nat → TagEnt := fun _ => {}
/-- A leg endpoint before admission. -/
def legZero : Nat → LegEnd := fun _ => {}
/-- A zero count. -/
def natZero : Nat → Nat := fun _ => 0
/-- A zero word. -/
def wordZero : Nat → Word := fun _ => 0
/-- An event counter at reset. -/
def evcZero : Nat → Evc := fun _ => {}

/-- Read a register field of the block. -/
def Block.rd (b : Block) (f : Field) (i j : Nat := 0) : Nat := b.regs.rd f i j
/-- Read a one-bit field of the block. -/
def Block.bit (b : Block) (f : Field) (i j : Nat := 0) : Bool := b.regs.bit f i j
/-- The device's own update of a field. -/
def Block.wr (b : Block) (f : Field) (v : Nat) (i j : Nat := 0) : Block := { b with regs := b.regs.wr f v i j }
/-- Set a status bit. -/
def Block.set1 (b : Block) (f : Field) : Block := b.wr f 1

/-- A count that holds at its maximum and then sets its SAT flag (18_faults_repair.md R476). -/
def Regs.incSat (r : Regs) (c sat : Field) (i : Nat := 0) (n : Nat := 1) : Regs :=
  let m := 2 ^ (c.hi + 1 - c.lo) - 1
  let v := r.rd c i + n
  if m ≤ v then (r.wr c m i).wr sat 1 i else r.wr c v i

/-- A saturating count of the block. -/
def Block.inc (b : Block) (c sat : Field) (n : Nat := 1) : Block := { b with regs := b.regs.incSat c sat 0 n }

/-! ## Event counters (20_counters_perturbation.md R523 to R525) -/

/-- Does a counter count an event of code `code` with parcel `p` (R525)? A counter in mode 0 is off. -/
def Evc.counts (c : Evc) (code : Nat) (p : Option Nat) : Bool :=
  (c.mode == 1 || c.mode == 2) && code != 0 && c.src == code && (if c.pfilt then p == some c.parcel else true)

/-- Add `n` to a 48-bit count, which holds at its maximum (R476, Table 20-4). -/
def Evc.add (c : Evc) (n : Nat) : Evc :=
  if 2 ^ 48 - 1 ≤ c.cnt + n then { c with cnt := 2 ^ 48 - 1, sat := true } else { c with cnt := c.cnt + n }

/-- Count `n` events at the counters `0 … k - 1` of a unit. -/
def evcCount (k : Nat) (m : SMap Evc) (code : Nat) (p : Option Nat) (n : Nat) : SMap Evc :=
  (List.range k).foldl (fun m i =>
    if (m.get evcZero i).counts code p then m.upd evcZero i (fun c => c.add n) else m) m

/-- Count events at the block's counters and hand them on to the region's and the hub's (R524). -/
def Block.count (e : Env) (b : Block) (code : Nat) (p : Option Nat) (n : Nat := 1) : Block :=
  if e.frozen then b else { b with evcs := evcCount 4 b.evcs code p n, evs := b.evs ++ [(code, p, n)] }

/-! ## Records (R184, Table 18-1) -/

/-- Does a record cause a teardown or make a block suspect (R184)? -/
def ErrRec.heavy (r : ErrRec) : Bool := r.teardown || r.suspect

/-- Replace the newest entry that satisfies `p`; `none` when there is none. The spec does not say where the new record stands; the
model puts it at the tail, behind the records that are older than it (DESIGN CHOICE, log 53). -/
def replaceNewest (p : ErrRec → Bool) (r : ErrRec) (q : List ErrRec) : Option (List ErrRec) :=
  match q.reverse.findIdx? p with
  | some i => some (q.eraseIdx (q.length - 1 - i) ++ [r])
  | none => none

/-- The fields of a record that a block fills in itself (R471). -/
def Env.stamp (e : Env) (r : ErrRec) : ErrRec :=
  { r with parcel := e.parcel, ctx := e.ctx, frame := e.frame, beat := if e.gap then 0x7FFF else e.beat
           region := e.region, die := e.blk / 1152, block := e.blk, pblock := e.pblk, inj := r.inj || e.inj }

/-- The surroundings of fill and test work, which belongs to parcel 0 and context 0 (R89). -/
def Env.fill (e : Env) : Env := { e with parcel := 0, ctx := 0 }

/-- The physical row or column of logical line `i`, with line `x` excluded (03_cell_array.md R90). -/
def physLine (x i : Nat) : Nat := if i < x then i else i + 1

/-- The failing comparison that BLK_MX_LAST names, with its index laid onto the physical array (R90, R482). -/
def Block.failPlace (b : Block) : Nat × Nat :=
  let a := b.rd BLK_MX_LAST_AXIS
  (a, physLine (if a = 0 then b.xrow else b.xcol) (b.rd BLK_MX_LAST_INDEX))

/-- Place a record in the block's queue of eight (R184). -/
def Block.raise (e : Env) (b : Block) (r : ErrRec) : Block :=
  let r : ErrRec := { e.stamp r with srcseq := b.srcseq % 2 ^ 32 }
  let b := { b with srcseq := b.srcseq + 1 }
  if b.recq.length < 8 then { b with recq := b.recq ++ [r] }
  else
    let b := b.inc SC_REC_LOST SC_REC_LSAT
    let b := { b with rdrop := b.rdrop + 1 }
    if r.heavy then
      match replaceNewest (fun x => !x.heavy) r b.recq with
      | some q => { b with recq := q }
      | none => b
    else b

/-- OBJECT of kind 2: ring and slot. -/
def objSlot (ring slot : Nat) : Nat := ring + 2 ^ 8 * slot

/-- A breach record of the scratchpad that also writes SP_LAST (R136, R137, R139, R161). -/
def Block.spBreach (e : Env) (b : Block) (sub ring slot : Nat) (teardown : Bool) : Block :=
  let b := ((b.wr SP_LAST_RING ring).wr SP_LAST_SLOT slot).wr SP_LAST_SUBTYPE sub
  b.raise e { cls := 2, subtype := sub, level := 1, object := objSlot ring slot, objkind := 2, teardown := teardown }

/-! ## Slot rings -/

/-- Is the ring configured? -/
def Block.ringOn (b : Block) (r : Nat) : Bool := b.bit SP_RING_CTL_EN r
/-- Slots in the ring. -/
def Block.ringSlots (b : Block) (r : Nat) : Nat := b.rd SP_RING_CTL_SCOUNT r + 1
/-- Consumers of the ring. -/
def Block.ringCons (b : Block) (r : Nat) : Nat := b.rd SP_RING_CTL_CONS r + 1
/-- Slot size in bytes. -/
def Block.slotSize (b : Block) (r : Nat) : Nat := 256 * b.rd SP_RING_BASE_SSIZE r
/-- Byte address of a slot (Table 5-4). -/
def Block.slotAddr (b : Block) (r s : Nat) : Nat := 256 * (b.rd SP_RING_BASE_BASE r + s * b.rd SP_RING_BASE_SSIZE r)
/-- Entries of the holding buffer in use (05 R138, 10 R298): a fabric word of 128 B takes four 32-B entries; the words
of a leg that wait behind a stalled drive word are held words too. -/
def Block.holdOcc (b : Block) : Nat :=
  4 * (b.held.length + (b.legs.map (fun x =>
    if x.2.stalled then (b.router.dlv.filter (fun w => w.1 == x.1)).length - 1 else 0)).sum)
/-- Is the slot full? -/
def Block.slotFull (b : Block) (r s : Nat) : Bool := (b.rd SP_RING_STATE_FULL r).testBit s
/-- The fill position. -/
def Block.fillPos (b : Block) (r : Nat) : Nat := b.rd SP_RING_STATE_FILL r
/-- The take position of consumer `c`. -/
def Block.takePos (b : Block) (r c : Nat) : Nat :=
  if c = 0 then b.rd SP_RING_STATE_TAKE r else b.takes.get natZero (r * 4 + c)
/-- The tag entry of a slot. -/
def Block.tag (b : Block) (r s : Nat) : TagEnt := b.tags.get tagZero (r * 16 + s)
/-- Write a tag entry. -/
def Block.setTag (b : Block) (r s : Nat) (t : TagEnt) : Block := { b with tags := b.tags.put tagZero (r * 16 + s) t }

/-- Set or clear the full bit of a slot. -/
def Block.setFull (b : Block) (r s : Nat) (on : Bool) : Block :=
  let m := b.rd SP_RING_STATE_FULL r
  b.wr SP_RING_STATE_FULL (if on then m ||| 2 ^ s else (if m.testBit s then m - 2 ^ s else m)) r

/-- Tag fault (R136): no bit and no position changes. -/
def Block.tagFault (e : Env) (b : Block) (r s : Nat) : Block := b.spBreach e 0x13 r s false

/-- Mark a slot full with its header; a slot that is already full is a tag fault (R135, R136). -/
def Block.markFull (e : Env) (b : Block) (r s : Nat) (t : TagEnt) : Block :=
  if b.slotFull r s then b.tagFault e r s
  else
    let b := (b.setTag r s { t with rel := 0 }).setFull r s true
    b.wr SP_RING_STATE_FILL ((s + 1) % b.ringSlots r) r

/-- Advance the take position of consumer `c` by one. -/
def Block.advTake (b : Block) (r c : Nat) : Block :=
  let n := (b.takePos r c + 1) % b.ringSlots r
  if c = 0 then b.wr SP_RING_STATE_TAKE n r else { b with takes := b.takes.put natZero (r * 4 + c) n }

/-- Has consumer `c` released the slot? -/
def TagEnt.released (t : TagEnt) (c : Nat) : Bool := t.rel.testBit c

/-- Release a slot as consumer `c` (R135, R136): the slot is empty when every consumer of CONS has released it. -/
def Block.release (e : Env) (b : Block) (r s c : Nat) : Block :=
  if !b.slotFull r s || (b.tag r s).released c then b.tagFault e r s
  else
    let t := b.tag r s
    let rel := t.rel ||| 2 ^ c
    let b := if rel % 2 ^ b.ringCons r = 2 ^ b.ringCons r - 1
      then (b.setTag r s {}).setFull r s false
      else b.setTag r s { t with rel := rel }
    b.advTake r c

/-- Mark the header of a full slot void. -/
def Block.voidSlot (b : Block) (r s : Nat) : Block :=
  let t := b.tag r s
  b.setTag r s { t with hdr := { t.hdr with void := true } }

/-- Header word 0 bits from rs2 of TFULL (06 R172). Bits [31:11] "must be zero"; the spec gives a value with one of them set no
outcome, and the model ignores them (DESIGN CHOICE, log 50). -/
def hdrOfRs2 (w : Word) : Hdr :=
  { fmt := bitsOf w 3 0, void := bitsOf w 4 4 != 0, range := bitsOf w 5 5 != 0, cb := bitsOf w 10 6 }

/-! ## Codebooks and lookup tables -/

/-- The grid of a codebook index: byte `c` of its image (04 R100). -/
def Block.grid (b : Block) (i : Nat) : Grid :=
  (List.range 16).map (fun c =>
    byteInt ((b.regs.word .block (0x400 + 16 * i + 4 * (c / 4))).toNat / 2 ^ (8 * (c % 4)) % 256))

/-- Does the index name a loaded codebook (R99, Table 4-6)? -/
def Block.cbValid (b : Block) (i : Nat) : Bool := i == 31 || (b.rd BLK_CB_VALID_VALID).testBit i

/-- Set or clear the VALID bit of an index. -/
def Block.setCbValid (b : Block) (i : Nat) (on : Bool) : Block :=
  let m := b.rd BLK_CB_VALID_VALID
  b.wr BLK_CB_VALID_VALID (if on then m ||| 2 ^ i else if m.testBit i then m - 2 ^ i else m)

/-- Write the four words of an image. -/
def Block.setCbImage (b : Block) (i : Nat) (bytes : List Byte) : Block :=
  (List.range 4).foldl (fun b w =>
    let v : Word := BitVec.ofNat 32 (leNat ((bytes.drop (4 * w)).take 4))
    { b with regs := b.regs.setWord .block (0x400 + 16 * i + 4 * w) v }) b

/-! ## ECC reads (R157, R158) -/

/-- Bring one granule's error to light on a read: the state 1 is a one-bit error, 2 an uncorrectable one. -/
def Block.eccOne (e : Env) (b : Block) (g st : Nat) : Block :=
  let b := b.wr SP_ECC_ADDR_ADDR (16 * g)
  if st = 1 then
    let b := ((b.wr SP_ECC_ADDR_UE 0).inc SP_ECC_CNT_CE SP_ECC_CNT_CESAT).set1 SP_STAT_CE
    let b := { b with ecc := b.ecc.put natZero g 0 }
    let b := b.count e 0x023 none
    b.raise e { cls := 7, subtype := (Config.spEccSubtype false).toNat, level := 1, address := 16 * g }
  else
    let b := ((b.wr SP_ECC_ADDR_UE 1).inc SP_ECC_CNT_UE SP_ECC_CNT_UESAT).set1 SP_STAT_UE
    b.raise e { cls := 7, subtype := (Config.spEccSubtype true).toNat, level := 1, address := 16 * g }

/-- Read the granules whose first byte satisfies `hit` for their ECC: the block after it, and whether an uncorrectable one was
met. -/
def Block.eccReadIf (e : Env) (b : Block) (hit : Nat → Bool) : Block × Bool :=
  (b.ecc.filter (fun x => hit (16 * x.1))).foldl (fun a x => (a.1.eccOne e x.1 x.2, a.2 || x.2 == 2)) (b, false)

/-- Read the bytes `[lo, hi)` for their ECC: the block after it, and whether an uncorrectable granule was met. -/
def Block.eccRead (e : Env) (b : Block) (lo hi : Nat) : Block × Bool :=
  b.eccReadIf e (fun a => decide (lo < a + 16 ∧ a < hi))

/-- A write of whole granules leaves valid ECC. -/
def Block.eccClear (b : Block) (lo hi : Nat) : Block :=
  { b with ecc := b.ecc.filter (fun x => decide (hi ≤ 16 * x.1 ∨ 16 * x.1 + 16 ≤ lo)) }

/-- Current state of power granule `g` (Table 5-17). -/
def Block.granule (b : Block) (g : Nat) : Nat := b.rd SP_PWR_CUR / 2 ^ (2 * g) % 4

/-- The granule of a byte address: granule g covers bank rows 256 g to 256 g + 255 of 1,024 B (R160). -/
def granuleOf (a : Nat) : Nat := a / (256 * 1024)

/-- Do all bytes `[lo, hi)` lie in granules that are on? -/
def Block.granOn (b : Block) (lo hi : Nat) : Bool :=
  (List.range 8).all (fun g =>
    decide (hi ≤ g * 262144 ∨ (g + 1) * 262144 ≤ lo) || b.granule g == 0)

/-- Write bytes to the scratchpad with valid ECC. -/
def Block.spWrite (b : Block) (a : Nat) (bs : List Byte) : Block :=
  ({ b with spm := b.spm.wrN a bs }).eccClear a (a + bs.length)

/-- Bytes of the scratchpad. -/
def Block.spRead (b : Block) (a n : Nat) : List Byte := b.spm.rdN a n

/-- Is the block's work tenant work: not parcel 0, not a test tile (R89, R125)? -/
def Block.tenant (e : Env) (b : Block) : Bool := e.parcel != 0 && b.testRun == 0

/-- An access of the block's engines to the bytes `[lo, hi)` of slot `slot` of ring `ring`: where a granule is not on it is a breach
0x14, which tears a tenant's context down (R161). The access itself goes on (DESIGN CHOICE, log 49). -/
def Block.granCheck (e : Env) (b : Block) (ring slot lo hi : Nat) : Block :=
  if b.granOn lo hi then b else b.spBreach e 0x14 ring slot (b.tenant e)

/-- A read of `[lo, hi)` through a port: its granules (R161), then the ECC of the granules read, whose first byte satisfies `hit`
(R157, R158). -/
def Block.portReadIf (e : Env) (b : Block) (ring slot lo hi : Nat) (hit : Nat → Bool) : Block × Bool :=
  (b.granCheck e ring slot lo hi).eccReadIf e hit

/-- A read of all bytes `[lo, hi)` through a port. -/
def Block.portRead (e : Env) (b : Block) (ring slot lo hi : Nat) : Block × Bool :=
  (b.granCheck e ring slot lo hi).eccRead e lo hi

/-- A write through a port: to a granule that is not on it writes nothing and is a breach (R161). -/
def Block.portWrite (e : Env) (b : Block) (ring slot a : Nat) (bs : List Byte) : Block :=
  if b.granOn a (a + bs.length) then b.spWrite a bs else b.spBreach e 0x14 ring slot (b.tenant e)

/-- Is a planned command waiting after cycle `P`: not issued, or issued but counted as unable to issue until its final
outcome (sights and loads, R175)? -/
def QEntry.waitsPlan (x : QEntry) : Bool :=
  match x.st with
  | .waiting | .refused => true
  | .issued _ | .landing _ _ _ => let o := bitsOf x.cmd.w0 3 0; o == 3 || o == 4 || o == 7

end Sys2Proof.Machine
end

