-- ==== Sys2Proof/Machine/PlatTypes.lean ====
section
/-!
DEFINITION. A plat as plain data (11_plat.md R303 to R314, R325; 09_stations_traverses.md Tables 9-11 and 9-12;
12_sightlines.md Tables 12-9 and 12-10). The spec gives the encodings of the header, the section table, the trailer and
these records; it gives no encoding of the other section bodies, so an image carries beside its bytes what its bodies say
(log 10).
-/
namespace Sys2Proof.Machine

/-- One beat of a schedule (08 R228, R235): pattern index and SCRUB flag. -/
structure BeatEnt where
  pat : Nat
  scrub : Bool
deriving DecidableEq, Repr

/-- A beat schedule of one plan variant: its clock step, the patterns of the whole beats, the reserve list. -/
structure BeatSched where
  step : Nat
  beats : List BeatEnt
  reserve : List BeatEnt
deriving DecidableEq, Repr

/-- A load-step hint (08 R252): pattern, domain, beat cycle, level. -/
structure Hint where
  pat : Nat
  dom : Nat
  cyc : Nat
  level : Nat
deriving DecidableEq, Repr

/-- A REGION section (Table 11-3): the registers it sets as offset and word, its domain fences, its variants, its edge
file (pattern * 256 + cycle, a 256-bit entry), its hints. -/
structure RegionSec where
  regs : List (Nat × Word) := []
  fence : List Bool := []
  variants : List BeatSched := []
  edge : SMap Nat := []
  hints : List Hint := []
deriving DecidableEq, Repr

/-- What a BLOCKS section sets for one block: page registers, local stake configuration, pattern file. -/
structure BlockSec where
  b : Nat
  regs : List (Nat × Word) := []
  stakes : List (Nat × Word) := []
  pat : SMap Word := []
deriving DecidableEq, Repr

/-- A release buffer entry (Table 9-12). -/
structure RelBuf where
  region : Nat
  tgt : Nat
  nb : Nat
  len : Nat
  base : Nat
deriving DecidableEq, Repr

/-- A station record (Table 9-11). -/
structure StationRec where
  station : Nat
  parcel : Nat
  die : Nat
  x0 : Nat
  x1 : Nat
  y0 : Nat
  y1 : Nat
  prog : Nat
  entry : Word
  thr : Word
  tol : Nat
  floor : Nat
  layer : Nat
  nrel : Nat
  rel : List RelBuf := []
deriving DecidableEq, Repr

/-- A PROGRAM section: the image index, the instruction image, the local-data image. -/
structure ProgSec where
  idx : Nat
  imem : List Byte
  ldata : List Byte
deriving DecidableEq, Repr

/-- One command of a declared schedule (R314): block index, clock step of the variant, plan point, image. -/
structure DeclCmd where
  b : Nat
  step : Nat
  plan : Option Nat
  cmd : Cmd
deriving DecidableEq, Repr

/-- A LINK port record (Table 12-9). -/
structure LinkPort where
  port : Nat
  roleReq : Nat
  dDecl : Word
  lmax : Nat
  parcels : Nat
  expect : Nat
deriving DecidableEq, Repr

/-- A LINK receiving leg record (Table 12-10). -/
structure LinkLeg where
  port : Nat
  k : Nat
  land0 : Word
  land1 : Word
  ptpf : Nat
  sfirst : Nat
  slast : Nat
deriving DecidableEq, Repr

/-- A transfer record (Table 11-6). -/
structure TransferRec where
  kind : Nat
  oldIdx : Nat
  newIdx : Nat
  oldBlk : Nat
  newBlk : Nat
deriving DecidableEq, Repr

/-- What the section bodies of a plat say (Table 11-3). `sends` names the sightline port and leg of each sending leg, which
the edge plans give, `turned` the legs whose tiles are declared in a turned layout (05 R133), `used` the virtual dies with work (21 R551). Keys of `regions`, `blocks` and `schedule` are global region
indices. -/
structure Plat where
  frmLen : Nat := 25000
  frmRes : Nat := 32
  pclDef : List (Nat × Word) := []
  laneOct : List (Nat × Word) := []
  lock : List (Nat × Word) := []
  regions : List (Nat × RegionSec) := []
  blocks : List (Nat × List BlockSec) := []
  stations : List StationRec := []
  programs : List ProgSec := []
  schedule : List (Nat × List DeclCmd) := []
  ports : List LinkPort := []
  legs : List LinkLeg := []
  sends : List (Nat × Nat) := []
  transfer : List TransferRec := []
  turned : List Nat := []
  translated : Bool := false
  used : Nat := 0
  hash : List Word := []
deriving DecidableEq, Repr

/-- A forerunner die that a generation-1 plat uses (21_codonov_mode.md R542 to R544): its number, the cores with work, the bytes of
its image and buffers, the parcel that it is assigned to, and the section and record that name it. -/
structure Gen1Die where
  g : Nat
  cores : List (Nat × Nat)
  mem : Nat
  parcel : Nat
  sec : Nat
  record : Nat
deriving DecidableEq, Repr

/-- What a generation-1 image says of the limits of Codonov mode (21 R541 to R547): dies, frame length, reserve in RES_Q
units, inter-panel links (port, section, record). -/
structure Gen1 where
  dies : List Gen1Die
  frmLen : Nat
  resQ : Nat
  links : List (Nat × Nat × Nat)
deriving DecidableEq, Repr

/-- A plat image: its bytes, and what its bodies say; for a generation-1 image `plat` is what its routes become on the S24
fabric (21 R545). -/
structure PlatImage where
  bytes : List Byte
  plat : Plat
  gen1 : Option Gen1 := none
deriving DecidableEq, Repr

end Sys2Proof.Machine
end

