-- ==== Sys2Proof/Machine/RegionTypes.lean ====
section
/-!
DEFINITION. The plain data of one region: its stack and store, stream engines, store streams, suspect ledger, record
queue (07_region_store_hbm.md, 08_fabric_route_plans.md, 09_stations_traverses.md R268 to R270, 10_stakes.md,
12_sightlines.md R360, 18_faults_repair.md R474 to R491).
-/
namespace Sys2Proof.Machine

/-- An accepted request of a stream engine (R200, R201): engine, descriptor, transfer, its frame, first line within the
transfer, lines, direction; for a read the data and the bad words as they stood at acceptance (R203). -/
structure Req where
  eng : Nat
  desc : Nat
  k : Nat
  frame : Nat := 0
  first : Nat
  n : Nat
  write : Bool
  data : List Byte := []
  bad : List (Nat × Nat) := []
deriving DecidableEq, Repr

/-- A transfer (R198 to R202): started or waiting on its gate, its frame, the stack line of its first line, void marks,
lines requested, whether every request is complete, whether a teardown or an overrun cancelled it. -/
structure Xfer where
  eng : Nat
  desc : Nat
  k : Nat
  frame : Nat
  parcel : Nat
  hline : Nat
  started : Bool
  since : Int
  wait : Option Int := none
  gvoid : Bool := false
  void : Bool := false
  asked : Nat := 0
  landed : Nat := 0
  dead : Bool := false
deriving DecidableEq, Repr

/-- Transfers of one descriptor in one frame: started, and driven DONE. -/
structure XCount where
  eng : Nat
  desc : Nat
  frame : Nat
  started : Nat
  done : Nat
deriving DecidableEq, Repr

/-- A store stream besides its registers (R234, R269, R270, R360): accesses of this frame, tiles since the admission or
join, the current tile's gate wait and void marks, the open store-in or leg tile with its line words written, the drive
counts, NSEQ of a landing record, the saved headers by buffer, the frames of void notices, the drive words that wait for room in the
region's drive queue (10 R298). -/
structure Strm where
  j : Nat := 0
  tiles : Nat := 0
  since : Option Int := none
  gvoid : Bool := false
  tvoid : Bool := false
  forced : Bool := false
  part : Option OpenPart := none
  dseq : Nat := 0
  totals : List (Nat × Nat) := []
  n64 : Nat := 0
  saved : List (Nat × Hdr) := []
  utile : Nat := 0
  ubad : Bool := false
  notices : List Nat := []
  waits : List Hdr := []
deriving DecidableEq, Repr

/-- A suspect ledger entry (18 R478 to R482): block index, level, poisons, transients in the window, the window's first
frame, suspect, frames without an event, the 1 ms sample of the last poison, the failing comparisons of its poisons as
(axis, index), and what it contributes: OFS and a step request (R480). -/
structure Ledger where
  b : Nat
  level : Nat
  poisons : Nat
  trans : Nat
  start : Nat
  suspect : Bool
  clean : Nat
  stamp : Nat
  fails : List (Nat × Nat)
  ofs : Nat := 0
  step : Option Nat := none
deriving DecidableEq, Repr

/-- A fault event that a window of R486 or R489 counts: kind (0 router, 1 queue drop, 2 queue slip, 3 interface timeout,
4 corrected granule), unit, stamp (1 ms samples, or frames for kind 3). -/
structure FaultEvt where
  kind : Nat
  unit : Nat
  stamp : Nat
deriving DecidableEq, Repr

/-- A defect entry of the monument (17 R463, Tables 17-6 and 17-7). -/
structure Defect where
  kind : Nat
  src : Nat
  unit : Nat
  hours : Nat := 0
deriving DecidableEq, Repr

/-- A running zero-fill (R214): target, first line, lines. -/
structure Fill where
  tgt : Nat
  base : Nat
  len : Nat
deriving DecidableEq, Repr

/-- The margins in ps that a calibration of a segment measures (08 R240, R241): by queue and step pair 8 a + b toward the higher field
number and toward the lower, by queue and step in synchronous mode. -/
structure CalResult where
  up : List (List Nat) := []
  down : List (List Nat) := []
  sync : List (List Nat) := []
deriving DecidableEq, Repr

/-- One region. `skip0` and `skip1` are the map active at the last boundary gap (01 R27); `links` the word last put on
each row link by the edge (row), the mark ahead of a store port's words (16 + port), the word taken from each row for a
store port (32 + row); `lanes` and `laneOut` the words in the lane ports, from a circuit and toward a sightline port; `fencing` the fences decided with their causes (18 R483); `steps` the steps that sources
request (14 R397: 0 thermal safety, 1 suspect handling, 2 grade or boost, 3 the leader, 4 current safety); `report` the
regulators' report and `go` the leader's go of a committed step (14 R399, R401); `stopped` that the region does not issue
(step tail, lost clock); `window` the transients of blocks that are not in the ledger, with their window's start
(18 R478); `levels` the load level of each domain when the beat began and `hintq` the hints of the beat as (cycle, domain, level)
(08 R252); `cals` the last calibration of each segment by slot (08 R240); `took` the banks that store accesses took, with the cycle
(08 R234); `fixes` the corrected store granules that the next scrub cycle rewrites (07 R210); `ctlMem` the region controller's 256 KiB (Table 0-3); `spare` the excluded physical block of each row (01 Table 1-4, 17 R456);
`droop` the domains whose
detector has tripped (14 R404); `drain` the parcels being drained (07 R213); `disc` and `evs` as in a block, `defects` the monument entries and
`tears` the teardowns (parcel, cause) that a step hands to the MC; `voids` the parcels of which a transfer or a
stream's tile was void in this frame (02 R55, R56); `wakes` the domains that leave retain, with the frame from which they run
(15 R422). -/
structure Region where
  regs : Regs := []
  store : Mem := []
  storeEcc : SMap Nat := []
  stack : Mem := []
  stackEcc : SMap Nat := []
  stakes : SMap Stake := []
  driveq : List Drive := []
  xfers : List Xfer := []
  xcounts : List XCount := []
  reqs : List Req := []
  strms : SMap Strm := []
  links : SMap FWord := []
  lanes : List (Nat × FWord) := []
  laneOut : List (Nat × FWord) := []
  edge : SMap Nat := []
  variants : List BeatSched := []
  hints : List Hint := []
  beat : Nat := 0
  scrubPos : Nat := 0
  patrolPos : Nat := 0
  fill : Option Fill := none
  skip0 : Word := 0xCCCCCCCC
  skip1 : Word := 0xCCCCCCCC
  domFence : List Bool := [false, false, false, false]
  recq : List ErrRec := []
  srcseq : Nat := 0
  ledger : List Ledger := []
  fencing : List (Nat × Nat) := []
  events : List FaultEvt := []
  evcs : SMap Evc := []
  lost : Bool := false
  steps : List (Nat × Nat) := []
  report : Bool := false
  go : Bool := false
  stopped : Bool := false
  window : List (Nat × Nat × Nat) := []
  owed : List (Nat × Nat × Nat) := []
  levels : List Nat := [0, 0, 0, 0]
  hintq : List (Nat × Nat × Nat) := []
  cals : List (Nat × CalResult) := []
  took : List (Nat × Nat) := []
  fixes : List Nat := []
  ctlMem : Mem := []
  spare : SMap Block := []
  droop : List Bool := [false, false, false, false]
  drain : List Nat := []
  disc : Nat := 0
  evs : List (Nat × Option Nat × Nat) := []
  defects : List Defect := []
  tears : List (Nat × Nat) := []
  voids : List Nat := []
  wakes : List (Nat × Nat) := []
deriving DecidableEq, Repr

/-- A store stream that has done nothing. -/
def strmZero : Nat → Strm := fun _ => {}
/-- A region at reset. -/
def regionZero : Nat → Region := fun _ => {}
/-- A block at reset. -/
def blockZero : Nat → Block := fun _ => {}

end Sys2Proof.Machine
end

