-- ==== Sys2Proof/Machine/HubTypes.lean ====
section
/-!
DEFINITION. The plain data of the hub: its register groups, frame counter (02_the_frame.md), fuses and monument
(17_bring_up_monument.md), power control (15, 16), contexts (19), perturbation (20), test pack (18), plat (11).
-/
namespace Sys2Proof.Machine

/-- The hub's register groups (23_address_map.md Table 23-2). -/
structure HubRegs where
  frame : Regs := []
  hub : Regs := []
  plat : Regs := []
  power : Regs := []
  mon : Regs := []
  err : Regs := []
  ctx : Regs := []
  pert : Regs := []
deriving DecidableEq, Repr

/-- The group of a unit. -/
def HubRegs.of (h : HubRegs) : RegUnit → Regs
  | .frame => h.frame
  | .hub => h.hub
  | .plat => h.plat
  | .power => h.power
  | .mon => h.mon
  | .err => h.err
  | .ctx => h.ctx
  | .pert => h.pert
  | _ => []

/-- Replace the group of a unit. -/
def HubRegs.set (h : HubRegs) (u : RegUnit) (r : Regs) : HubRegs :=
  match u with
  | .frame => { h with frame := r }
  | .hub => { h with hub := r }
  | .plat => { h with plat := r }
  | .power => { h with power := r }
  | .mon => { h with mon := r }
  | .err => { h with err := r }
  | .ctx => { h with ctx := r }
  | .pert => { h with pert := r }
  | _ => h

/-- The fuses of the OTP that nothing sets after the factory (17 R461, Table 17-4). -/
structure Fuse where
  grade : Nat
  tdp : Nat
  basem : Nat
  boostm : Nat
  serial : Nat
  stepping : Nat
  fwkey : Nat
  factkey : Nat
  devkey : Nat
deriving DecidableEq, Repr

/-- The fuses that a mailbox request or a firmware start sets (17 R458, R467): plat-key digests, revocations, MIN. -/
structure Otp where
  slots : List (Option Nat)
  revoke : Nat
  min : Nat
deriving DecidableEq, Repr

/-- A firmware image in a flash slot: version, security version, whether its signature verifies, and the bytes that it holds for the MC, for a
region controller, and for a block's instruction memory and local data (17 R456). -/
structure FwImage where
  version : Nat
  svn : Nat
  good : Bool
  mc : List Byte := []
  rgn : List Byte := []
  imem : List Byte := []
  ldata : List Byte := []
deriving DecidableEq, Repr

/-- A record of the field log (17 R462 to R465): field entries, hours, clear; `bad` is one whose signature fails, which is ignored. -/
inductive LogRec where
  | field (seq : Nat) (es : List Defect)
  | hours (h : Nat)
  | clear (count : Nat)
  | bad
deriving DecidableEq, Repr

/-- The monument flash (Table 17-5); `factory` is `none` where the record is missing, or (`factoryBad`) its signature fails. `next` is
the slot that the next cold reset makes active (R467), `count` the last accepted mailbox count. -/
structure Flash where
  active : Nat
  next : Option Nat := none
  images : List FwImage
  factory : Option (List Defect)
  factoryBad : Bool := false
  log : List LogRec
  count : Nat
deriving DecidableEq, Repr

/-- The flash at a cold start: a slot that the mailbox has filled becomes active (17 R467, Table 17-9). -/
def Flash.boot (f : Flash) : Flash := { f with active := f.next.getD f.active, next := none }

/-- The calibration of a lane port end (17 R453): region, lane port, launch margins and capture margins in ps by step. -/
structure EndCal where
  region : Nat
  port : Nat
  launch : List Nat
  capture : List Nat
deriving DecidableEq, Repr

/-- A bring-up map that waits for the boundary gap (17 R460): by region the two SKIP words, and block, XROW and XCOL where array maps
change. -/
structure BringMap where
  skips : List (Nat × Word × Word)
  arrays : List (Nat × Nat × Nat)
deriving DecidableEq, Repr

/-- The MC's bring-up state besides its registers: recovery (R458), entries kept in its memory (R464), main-power hours
resumed from the flash, 1 ms samples of main power since, the last frame
summary body (19 R519), the crash log and whether it awaits delivery, the
firmware's version, the admissions since cold reset (19 R500), whether stage 1 waits for the main input (17 R452), the
lane port ends' calibration (R453), the bring-up map that waits for the boundary gap (R460), the summary in the crash log; the margins of the shore links and the word
last received on each (12 * die + column, 08 R223); `sram` its 4 MiB of memory (Table 0-3). -/
structure McSt where
  recovery : Bool := false
  kept : List Defect := []
  hours0 : Nat := 0
  mainMs : Nat := 0
  hoursLogged : Nat := 0
  crash : List ErrRec := []
  crashPend : Bool := false
  summary : Option BookRec := none
  fwVer : Nat := 0
  admits : Nat := 0
  waiting : Bool := false
  ends : List EndCal := []
  mapPend : Option BringMap := none
  crashSum : Option BookRec := none
  shoreCal : List (Nat × List Nat) := []
  shore : SMap FWord := []
  sram : Mem := []
deriving DecidableEq, Repr

/-- One rail's last sample (15 R423): input mV, output mV, mA, hottest phase °C. -/
structure Rail where
  vin : Nat := 0
  v : Nat := 0
  i : Nat := 0
  t : Nat := 0
deriving DecidableEq, Repr

/-- A domain's power-control state behind its registers (15 R417 to R419, 16 R430 to R449): windows below 90 %, samples
with QI at 16/16 and at or below 10/16, whether 0xB0 may be written, samples with QT at 4/16, low ageing measurements, a
raise that waits, main-power ms at the last raise, record 0xB3 written, failed soft-start tests (phase, attempts), phases that
passed, power and issued cycles of the last sample with any, whether QEFF was below 16/16 at some time of this sample and
whether QG was at 16/16 at some time of it. -/
structure DomSt where
  low90 : Nat := 0
  qi16 : Nat := 1000
  qi10 : Nat := 0
  b0 : Bool := true
  qt4 : Nat := 0
  ageLow : Nat := 0
  agePend : Bool := false
  ageAt : Option Nat := none
  ageEnd : Bool := false
  tries : List (Nat × Nat) := []
  passed : List Nat := []
  ePow : Nat := 0
  eCyc : Nat := 0
  dip : Bool := false
  qgTop : Bool := true
deriving DecidableEq, Repr

/-- The governor and the cap (16 R436 to R446), in mW, and PMBus (15 R424): G, G0, W, cap in force, ready
and first realignment as sample numbers, the stopped draw, causes and largest change of a forced episode,
the last sample's module draw and non-core draw, the places of the round robins; PAGE, sticky status by page, STATUS_CML;
excursions in progress; the hub's last junction temperature; THERM_N (22 R555); the rails' last sample. -/
structure PwSt where
  g : Nat := 0
  w : Nat := 0
  cap : Nat := 15000000
  readyAt : Option Nat := none
  realignAt : Option Nat := none
  stopped : Option Nat := none
  causes : List Nat := []
  change : Nat := 0
  lastP : Nat := 0
  other : Nat := 0
  rrCap : Nat := 0
  rrGrade : Nat := 0
  doms : SMap DomSt := []
  page : Nat := 0
  iout : SMap Nat := []
  input : Nat := 0
  cml : Nat := 0
  low : Bool := false
  inletHi : Bool := false
  hubT : Nat := 0
  thermN : Bool := true
  rails : SMap Rail := []
deriving DecidableEq, Repr

/-- A domain that has done nothing. -/
def domZero : Nat → DomSt := fun _ => {}
/-- A rail that was never measured. -/
def railZero : Nat → Rail := fun _ => {}

/-- Where an item stands that a later event completes: function, ring, slot. -/
structure ItemRef where
  fn : Nat
  ring : Nat
  slot : Nat
deriving DecidableEq, Repr

/-- A range of lines that is to be cleared (19 R512): `tgt` 1 the region store, 0 the stack. -/
structure ClearRange where
  region : Nat
  tgt : Nat
  base : Nat
  len : Nat
deriving DecidableEq, Repr

/-- A parcel's context (19 R500 to R513) besides its registers: first frame, consecutive overruns, whether this frame is declared overrun
and whether the last one was, a requested teardown (cause, and whether it came in time for the next boundary) and whether it counts toward
escalation, which region loss it counts for, the loading context's
FIRST and whether loading is complete, the admitting item, the items that end with the teardown, the fence frame,
and the ranges and blocks still to clear. -/
structure Ctx where
  first : Nat := 0
  streak : Nat := 0
  overran : Bool := false
  lastOver : Bool := false
  req : Option (Nat × Bool) := none
  counted : Bool := false
  loss : Option Nat := none
  firstWant : Nat := 0
  loaded : Bool := false
  admitItem : Option ItemRef := none
  tearItems : List ItemRef := []
  fenceAt : Nat := 0
  clearing : List ClearRange := []
  clearBlocks : Bool := false
deriving DecidableEq, Repr

/-- The perturbation controls' acting state (20 R529 to R536): what acts (by Table 20-2's order), a lock that takes effect at the
next step 7, whether ACTIVE was 1 when this frame began (R530), frames still to stretch with ADD, injections left. -/
structure PertSt where
  acting : List Bool := [false, false, false, false, false]
  lockPend : Bool := false
  head : Bool := false
  stretchLeft : Nat := 0
  injLeft : Nat := 0
deriving DecidableEq, Repr

/-- A test entry (18 Table 18-12). -/
structure TestEnt where
  fa : Nat
  fb : Nat
  k : Nat
  seed : Nat
  expect : Nat
deriving DecidableEq, Repr

/-- The test pack (18 R494 to R496): the running pack, one that starts at the next boundary, the last accepted PACKID,
the stop request, the current round's counts, its blocks covered, its runs and what has failed once (block, test). -/
structure Tpk where
  packId : Nat := 0
  period : Nat := 1
  regions : Nat := 0
  tests : List TestEnt := []
  next : Option (Nat × Nat × Nat × List TestEnt) := none
  lastId : Option Nat := none
  stop : Bool := false
  round : Nat := 0
  start : Nat := 0
  run : Nat := 0
  once : Nat := 0
  twice : Nat := 0
  covered : List Nat := []
  ran : List (Nat × Nat) := []
  failed : List (Nat × Nat) := []
  firstFail : Option (Nat × Nat) := none
deriving DecidableEq, Repr

/-- A plat load or a cut-over under way (11 R315, R319): the item, the image's plat once checked, whether it is a cut-over, the
named F and the partner set, whether it reverts, whether a load is sealed and waits for the tick, and the fenced blocks of each
region when the check passed (R322). -/
structure LoadSt where
  item : ItemRef
  plat : Option Plat := none
  cut : Bool := false
  f : Nat := 0
  partners : Nat := 0
  sealed : Bool := false
  revert : Bool := false
  fences : List Nat := []
deriving DecidableEq, Repr

/-- The plats (11 R315 to R332): active; the one that the shadow banks hold, incoming or outgoing; a load or cut-over; the
F named and not yet past; the switch flag; unloads that wait for the tick; F as CUT_FRAME shows it, and the latch behind
CUT_FRAME_HI; the lane assignment in force, which LANE_OCT's words replace at a plat's first boundary gap (08 R247). -/
structure PlatSt where
  active : Option Plat := none
  shadow : Option Plat := none
  load : Option LoadSt := none
  cutF : Option Nat := none
  switch : Bool := false
  unload : List ItemRef := []
  cutShow : Nat := 0
  cutHi : Nat := 0
  lanes : SMap Word := []
deriving DecidableEq, Repr

/-- The frame counter besides its registers (02 R30 to R41): periods since the tick, periods since cold reset, frame
number, the latch behind FRM_NUM_HI, LEN and RES_Q in force, periods still to go to frame 0 after a realignment, whether frames
run, periods added to the running frame, whether a returned reference waits for the tick (14 R406). -/
structure FrameSt where
  pos : Nat := 0
  now : Nat := 0
  num : Nat := 0
  hi : Nat := 0
  len : Nat := 25000
  resQ : Nat := 32
  realign : Option Nat := none
  running : Bool := false
  stretch : Nat := 0
  refBack : Bool := false
deriving DecidableEq, Repr

/-- The hub error queue (18 R475), the field book's waiting buffer (13 R389), records written by the MC, the stamps of the
escalation record in 1 ms samples (19 R516), the number of region losses. -/
structure ErrSt where
  q : List ErrRec := []
  wait : List (Nat × BookRec) := []
  srcseq : Nat := 0
  esc : List Nat := []
  losses : Nat := 0
deriving DecidableEq, Repr

end Sys2Proof.Machine
end

