-- ==== Sys2Proof/Machine/Check.lean ====
section
/-!
DEFINITION. The check unit's polynomials (06_scalar_core.md R181 to R183, Table 6-9) and the CRCs that other chapters
take from them: a bit-serial shift register, its result and its seeding.
-/
namespace Sys2Proof.Machine

/-- A check polynomial (Table 6-9); `poly` is bit-reversed when the input is reflected. -/
structure CrcPoly where
  width : Nat
  poly : Nat
  init : Nat
  reflect : Bool
  xorOut : Nat
deriving DecidableEq, Repr

/-- The four polynomials. -/
def crcPoly : Nat → CrcPoly
  | 0 => ⟨32, 0x82F63B78, 0xFFFFFFFF, true, 0xFFFFFFFF⟩
  | 1 => ⟨32, 0xEDB88320, 0xFFFFFFFF, true, 0xFFFFFFFF⟩
  | 2 => ⟨16, 0x1021, 0xFFFF, false, 0⟩
  | _ => ⟨64, 0x42F0E1EBA9EA3693, 0, false, 0⟩

/-- One shift of the register. -/
def CrcPoly.shift (p : CrcPoly) (r : Nat) : Nat :=
  if p.reflect then (if r % 2 = 1 then r / 2 ^^^ p.poly else r / 2)
  else if r / 2 ^ (p.width - 1) % 2 = 1 then (r * 2 % 2 ^ p.width) ^^^ p.poly else r * 2 % 2 ^ p.width

/-- Repeat the shift. -/
def CrcPoly.shiftN (p : CrcPoly) : Nat → Nat → Nat
  | 0, r => r
  | n + 1, r => p.shiftN n (p.shift r)

/-- Feed one byte. -/
def CrcPoly.feed (p : CrcPoly) (r : Nat) (b : Byte) : Nat :=
  p.shiftN 8 (if p.reflect then r ^^^ b.toNat else r ^^^ (b.toNat * 2 ^ (p.width - 8)))

/-- Feed bytes in order. -/
def CrcPoly.feedAll (p : CrcPoly) (r : Nat) (bs : List Byte) : Nat := bs.foldl p.feed r

/-- The result that CHK_VAL reads. -/
def CrcPoly.result (p : CrcPoly) (r : Nat) : Nat := r ^^^ p.xorOut

/-- The register that reads as `v` (R183). -/
def CrcPoly.seed (p : CrcPoly) (v : Nat) : Nat := (v % 2 ^ p.width) ^^^ p.xorOut

/-! ## The scrambler of the sightlines (12 R337) -/

/-- One bit through the self-synchronising scrambler 1 + x³⁹ + x⁵⁸: bit 0 of the state is the bit last sent. -/
def scrambleBit (st : Nat) (b : Bool) : Bool × Nat :=
  let o := (b != st.testBit 38) != st.testBit 57
  (o, (2 * st + o.toNat) % 2 ^ 58)

/-- One bit back: the state is filled with the bits that arrive. -/
def descrambleBit (st : Nat) (b : Bool) : Bool × Nat :=
  ((b != st.testBit 38) != st.testBit 57, (2 * st + b.toNat) % 2 ^ 58)

/-- A byte through either, its least significant bit first (IEEE 802.3 clause 49). -/
def scrambleByte (f : Nat → Bool → Bool × Nat) (st : Nat) (b : Byte) : Byte × Nat :=
  let r := (List.range 8).foldl (fun (acc : Nat × Nat) i =>
    let x := f acc.2 (b.getLsbD i)
    (acc.1 + x.1.toNat * 2 ^ i, x.2)) (0, st)
  (BitVec.ofNat 8 r.1, r.2)

/-- Bytes in order. -/
def scrambleBytes (f : Nat → Bool → Bool × Nat) : Nat → List Byte → List Byte × Nat
  | st, [] => ([], st)
  | st, b :: bs =>
    let x := scrambleByte f st b
    let y := scrambleBytes f x.2 bs
    (x.1 :: y.1, y.2)

/-- A whole CRC over bytes. -/
def crcOf (poly : Nat) (bs : List Byte) : Nat := (crcPoly poly).result ((crcPoly poly).feedAll (crcPoly poly).init bs)

end Sys2Proof.Machine
end

