-- ==== Sys2Proof/Machine/Operands.lean ====
section
/-!
DEFINITION. Operand forms of the sequencer's commands: the fields of the matrix command (03_cell_array.md Tables 3-2 to
3-7), of the bank command (05_scratchpad_bank_alus.md Table 5-14), of the commands of Table 6-8 and of a drain
descriptor; head slots; the elements of tiles in slots (Table 5-2, R266); and the legality tests (R64, R107, R144,
R155, R176, R281).
-/
namespace Sys2Proof.Machine

/-- OPC of a command image. -/
def Cmd.opc (c : Cmd) : Nat := bitsOf c.w0 3 0
/-- TAG of a command image. -/
def Cmd.tag (c : Cmd) : Nat := bitsOf c.w3 15 0
/-- FMT_A -/
def Cmd.fmtA (c : Cmd) : Nat := bitsOf c.w0 7 4
/-- FMT_B -/
def Cmd.fmtB (c : Cmd) : Nat := bitsOf c.w0 11 8
/-- INIT -/
def Cmd.init (c : Cmd) : Nat := bitsOf c.w0 13 12
/-- TA -/
def Cmd.turnA (c : Cmd) : Bool := bitsOf c.w0 14 14 != 0
/-- TB -/
def Cmd.turnB (c : Cmd) : Bool := bitsOf c.w0 15 15 != 0
/-- DRN of a matrix command -/
def Cmd.drnM (c : Cmd) : Nat := bitsOf c.w0 21 16
/-- M -/
def Cmd.m (c : Cmd) : Nat := bitsOf c.w1 6 0
/-- N -/
def Cmd.n (c : Cmd) : Nat := bitsOf c.w1 13 7
/-- K -/
def Cmd.k (c : Cmd) : Nat := bitsOf c.w1 27 14
/-- RING_A -/
def Cmd.ringA (c : Cmd) : Nat := bitsOf c.w2 4 0
/-- RING_B -/
def Cmd.ringB (c : Cmd) : Nat := bitsOf c.w2 9 5
/-- RING_D of a matrix command -/
def Cmd.ringDM (c : Cmd) : Nat := bitsOf c.w2 14 10
/-- RING_I -/
def Cmd.ringI (c : Cmd) : Nat := bitsOf c.w2 19 15
/-- CB_A -/
def Cmd.cbA (c : Cmd) : Nat := bitsOf c.w2 24 20
/-- CB_B -/
def Cmd.cbB (c : Cmd) : Nat := bitsOf c.w2 29 25
/-- OP of a bank command -/
def Cmd.op (c : Cmd) : Nat := bitsOf c.w0 7 4
/-- RING_S of a bank command -/
def Cmd.ringS (c : Cmd) : Nat := bitsOf c.w0 12 8
/-- RING_D of a bank command -/
def Cmd.ringDB (c : Cmd) : Nat := bitsOf c.w0 17 13
/-- DRN of a bank command -/
def Cmd.drnB (c : Cmd) : Nat := bitsOf c.w0 23 18
/-- CB_S of a bank command -/
def Cmd.cbS (c : Cmd) : Nat := bitsOf c.w0 28 24
/-- RING of a load or a check -/
def Cmd.ring (c : Cmd) : Nat := bitsOf c.w0 8 4
/-- IDX of a codebook load -/
def Cmd.idx (c : Cmd) : Nat := bitsOf c.w0 13 9
/-- TBL of a lookup load -/
def Cmd.tbl (c : Cmd) : Nat := bitsOf c.w0 10 9
/-- POLY of a check -/
def Cmd.poly (c : Cmd) : Nat := bitsOf c.w0 10 9
/-- INIT of a check -/
def Cmd.chkInit (c : Cmd) : Bool := bitsOf c.w0 11 11 != 0
/-- OFFSET of a check -/
def Cmd.offset (c : Cmd) : Nat := bitsOf c.w1 20 0
/-- LEN of a check -/
def Cmd.len (c : Cmd) : Nat := bitsOf c.w2 20 0
/-- STAKE of a drive or a sight -/
def Cmd.stake (c : Cmd) : Nat := bitsOf c.w1 15 0
/-- INC of a drive -/
def Cmd.inc (c : Cmd) : Nat := bitsOf c.w1 31 16
/-- COUNT of a sight, two's complement -/
def Cmd.count (c : Cmd) : Int := wordInt c.w2.toNat
/-- P of a plan point -/
def Cmd.planP (c : Cmd) : Nat := bitsOf c.w1 23 0

/-- Reserved bits by OPC (Tables 3-2 to 3-5, 5-14, 6-8): true when one is set. -/
def Cmd.reservedSet (c : Cmd) : Bool :=
  let tagHi := bitsOf c.w3 31 16 != 0
  match c.opc with
  | 1 => bitsOf c.w0 31 22 != 0 || bitsOf c.w1 31 28 != 0 || bitsOf c.w2 31 30 != 0 || tagHi
  | 2 => bitsOf c.w0 31 29 != 0 || bitsOf c.w1 31 14 != 0 || c.w2 != 0 || tagHi
  | 3 => bitsOf c.w0 31 14 != 0 || c.w1 != 0 || c.w2 != 0 || tagHi
  | 4 => bitsOf c.w0 31 11 != 0 || c.w1 != 0 || c.w2 != 0 || tagHi
  | 5 => bitsOf c.w0 31 12 != 0 || bitsOf c.w1 31 21 != 0 || bitsOf c.w2 31 21 != 0 || tagHi
  | 6 => bitsOf c.w0 31 4 != 0 || c.w2 != 0 || tagHi
  | 7 => bitsOf c.w0 31 4 != 0 || bitsOf c.w1 31 16 != 0 || tagHi
  | 8 => bitsOf c.w0 31 4 != 0 || bitsOf c.w1 31 24 != 0 || c.w2 != 0 || tagHi
  | _ => true

/-- A drain descriptor (Tables 4-3, 5-11, 5-12). -/
def Block.drn (b : Block) (n : Nat) : Drn :=
  let ccw : Word := BitVec.ofNat 32 (b.rd DRN_DESC0_CCW n)
  { ofmt := bitsOf ccw 3 0, rsc := bitsOf ccw 4 4 != 0, sat := bitsOf ccw 5 5 != 0, wid := bitsOf ccw 6 6 != 0
    cbo := bitsOf ccw 11 7, ccwRsv := bitsOf ccw 15 12
    acc := b.bit DRN_DESC0_ACC n, ringP := b.rd DRN_DESC0_RING_P n, luten := b.bit DRN_DESC0_LUTEN n
    lut := b.rd DRN_DESC0_LUT n, cmx := b.rd DRN_DESC0_CMX n, rtab := b.rd DRN_DESC1_RTAB n
    ringC := b.rd DRN_DESC1_RING_C n, rmx := b.bit DRN_DESC1_RMX n, ringR := b.rd DRN_DESC1_RING_R n
    cmxk := BitVec.ofNat 32 (b.rd DRN_DESC2_CMXK n) }

/-- Does stage 4 read a compare tile (Table 5-13)? -/
def Drn.usesC (d : Drn) : Bool := d.cmx == 4 || d.cmx == 5 || d.cmx == 6

/-- Source rings of a command, each once: A and B unless K = 0, the bias, the partial and compare rings, the bank
source, the ring of a load or check (R65, R73, R145, R178). -/
def Block.srcRings (b : Block) (c : Cmd) : List Nat :=
  match c.opc with
  | 1 =>
    let d := b.drn c.drnM
    ((if c.k = 0 then [] else [c.ringA, c.ringB]) ++ (if c.init = 0 then [] else [c.ringI]) ++
      (if d.acc then [d.ringP] else []) ++ (if d.usesC then [d.ringC] else [])).eraseDups
  | 2 =>
    let d := b.drn c.drnB
    (c.ringS :: (if c.op = 0 then (if d.acc then [d.ringP] else []) ++ (if d.usesC then [d.ringC] else []) else [])).eraseDups
  | 3 => [c.ring]
  | 4 => [c.ring]
  | 5 => [c.ring]
  | _ => []

/-- Destination rings of a command (R65, R145). -/
def Block.dstRings (b : Block) (c : Cmd) : List Nat :=
  match c.opc with
  | 1 => let d := b.drn c.drnM; (c.ringDM :: (if d.rmx then [d.ringR] else [])).eraseDups
  | 2 => let d := b.drn c.drnB; (c.ringDB :: (if c.op = 0 ∧ d.rmx then [d.ringR] else [])).eraseDups
  | _ => []

/-- Has the entry issued? Also while its destination is on its way through the drain path. -/
def QEntry.issued? (x : QEntry) : Option Run :=
  match x.st with
  | .issued r | .landing r _ _ => some r
  | .waiting | .refused => none

/-- Issued commands whose slots of ring `r` are not released yet. -/
def Block.pendingSrc (b : Block) (r : Nat) : Nat :=
  (b.seq.q.filter (fun x => x.issued?.isSome && (b.srcRings x.cmd).contains r)).length

/-- Issued commands whose destination in ring `r` is not full yet. -/
def Block.pendingDst (b : Block) (r : Nat) : Nat :=
  (b.seq.q.filter (fun x => x.issued?.isSome && (b.dstRings x.cmd).contains r)).length

/-- The head slot of a source ring for the next command: the sequencer's take position, past the slots that issued
commands still hold. -/
def Block.headSrc (b : Block) (r : Nat) : Nat := (b.takePos r 0 + b.pendingSrc r) % b.ringSlots r

/-- The head slot of a destination ring: the fill position, past the slots that issued commands will fill. -/
def Block.headDst (b : Block) (r : Nat) : Nat := (b.fillPos r + b.pendingDst r) % b.ringSlots r

/-! ## Tile sizes and elements -/

/-- Bytes of one panel of `t` (Table 5-3). -/
def panelBytes (t : Nat) : Nat := 512 * tagWidth t

/-- Bytes of an operand tile with inner dimension `k`. -/
def operandBytes (t k : Nat) : Nat := (k + 63) / 64 * panelBytes t

/-- The element at row image `r`, index `e` of the panel at byte address `a`. -/
def Block.elem (b : Block) (a w r e : Nat) : Nat :=
  if w = 4 then (b.spm.rd (a + r * 32 + e / 2)).toNat / 16 ^ (e % 2) % 16
  else leNat (b.spm.rdN (a + r * (8 * w) + e * (w / 8)) (w / 8))

/-- Panel `p` of a slot: its address and its format, following the panel map of a wide slot (R132, R266). -/
def Block.panel (b : Block) (ring slot t p : Nat) : Nat × Nat :=
  let g := b.tag ring slot
  if g.wide then (b.slotAddr ring slot + p * 4096, if t = 2 ∧ !g.pmap.testBit p then 0 else t)
  else (b.slotAddr ring slot + p * panelBytes t, t)

/-- The bits and the format of element `e` of row image `r` of panel `p` of the tile in a slot. -/
def Block.tileElem (b : Block) (ring slot t p r e : Nat) : Nat × Nat :=
  let pa := b.panel ring slot t p
  (b.elem pa.1 (tagWidth pa.2) r e, pa.2)

/-- A[i, k] in its layout (Table 5-2). -/
def Block.opA (b : Block) (c : Cmd) (r : Run) (i k : Nat) : Nat × Nat :=
  if c.turnA then b.tileElem c.ringA r.sa r.ta (k / 64) (k % 64) i
  else b.tileElem c.ringA r.sa r.ta (k / 64) i (k % 64)

/-- B[k, j] in its layout (Table 5-2). -/
def Block.opB (b : Block) (c : Cmd) (r : Run) (k j : Nat) : Nat × Nat :=
  if c.turnB then b.tileElem c.ringB r.sb r.tb (k / 64) j (k % 64)
  else b.tileElem c.ringB r.sb r.tb (k / 64) (k % 64) j

/-- The codebook of an operand: the command's for a G4 operand, the header's for a G4 panel of an F8E4 tile (R266). -/
def Block.opGrid (b : Block) (ring slot t cb : Nat) : Grid :=
  if t = 0 then b.grid cb else b.grid (b.tag ring slot).hdr.cb

/-- Does the engine that reads `rows` row images of `elems` elements of `w` bits touch the byte at `off` in a panel? -/
def panelHit (w rows elems off : Nat) : Bool :=
  decide (off / (8 * w) < rows) && decide (8 * (off % (8 * w)) < w * elems)

/-- Bytes from one panel of a slot to the next (R132, R266). -/
def Block.panelStride (b : Block) (ring slot t : Nat) : Nat :=
  if (b.tag ring slot).wide then 4096 else panelBytes t

/-- Does the operand read of a tile touch the byte at address `a`? Elements beyond M, N and K are not read (R132). `outer` is M or N;
`kRows` says that the K index runs over the row images (Table 5-2). -/
def Block.operandHit (b : Block) (ring slot t outer k : Nat) (kRows : Bool) (a : Nat) : Bool :=
  let base := b.slotAddr ring slot
  let stride := b.panelStride ring slot t
  let p := (a - base) / stride
  let w := tagWidth (b.panel ring slot t p).2
  let kk := min 64 (k - 64 * p)
  decide (base ≤ a) && decide (64 * p < k) &&
    panelHit w (if kRows then kk else outer) (if kRows then outer else kk) ((a - base) % stride)

/-- Does a read of `rows` rows of `elems` elements of the one-panel tile in a slot touch the byte at address `a`? -/
def Block.tileHit (b : Block) (ring slot t rows elems a : Nat) : Bool :=
  decide (b.slotAddr ring slot ≤ a) && panelHit (tagWidth (b.panel ring slot t 0).2) rows elems (a - b.slotAddr ring slot)

/-- The bias vector in a slot (R63, R66). -/
def Block.biasVec (b : Block) (ring slot : Nat) : List Word :=
  (List.range 64).map (fun x => BitVec.ofNat 32 (leNat (b.spm.rdN (b.slotAddr ring slot + 4 * x) 4)))

/-- Everything that the array reads for a tile (R77); `vec` is the bias vector that is held with it (R66). -/
def Block.tileIn (b : Block) (c : Cmd) (r : Run) (vec : List Word) : TileIn :=
  let ga := b.opGrid c.ringA r.sa r.ta c.cbA
  let gb := b.opGrid c.ringB r.sb r.tb c.cbB
  let bias (x : Nat) : Word := vec.getD x 0
  { rate := (pairRate r.ta r.tb).getD 1
    isInt := pairInt r.ta r.tb
    m := c.m, n := c.n, k := c.k
    ai := fun i k => let e := b.opA c r i k; decodeInt e.2 ga e.1
    bi := fun k j => let e := b.opB c r k j; decodeInt e.2 gb e.1
    af := fun i k => let e := b.opA c r i k; decodeElem e.2 ga e.1
    bf := fun k j => let e := b.opB c r k j; decodeElem e.2 gb e.1
    init := fun i j => if c.init = 1 then bias j else if c.init = 2 then bias i else 0 }

/-- What the drain stages read for a command whose descriptor is `d`, partial slot `sp`, compare slot `sc`. -/
def Block.drainIn (b : Block) (d : Drn) (isInt : Bool) (m n sp sc ofmt : Nat) (sat : Bool) : DrainIn :=
  let pa := b.slotAddr d.ringP sp
  let ch := (b.tag d.ringC sc).hdr
  let lutw (i : Nat) : Word := b.luts.get wordZero (d.lut * 258 + i)
  { isInt := isInt, m := m, n := n, d := d, ofmt := ofmt, sat := sat, grid := b.grid d.cbo
    scale := fun j => BitVec.ofNat 32 (leNat (b.spm.rdN (512 * d.rtab + 8 * j) 4))
    offset := fun j => BitVec.ofNat 32 (leNat (b.spm.rdN (512 * d.rtab + 8 * j + 4) 4))
    part := fun i j => b.elem pa 32 i j
    cmp := fun i j =>
      let e := b.tileElem d.ringC sc ch.fmt 0 i j
      fsum [decodeElem e.2 (b.grid ch.cb) e.1]
    x0 := lutw 0, rinv := lutw 1, y := fun i => lutw (2 + i) }

/-! ## Legality -/

/-- Is the conversion control word illegal for an accumulator kind (R107)? -/
def Block.ccwBad (b : Block) (d : Drn) (isInt : Bool) : Bool :=
  decide (8 ≤ d.ofmt) || (d.ofmt == 6 && (!isInt || d.rsc)) || (d.wid && d.ofmt != 0) ||
    (d.ofmt == 0 && !b.cbValid d.cbo) || d.ccwRsv != 0

/-- Is the drain descriptor illegal (R144)? -/
def Block.drnBad (b : Block) (n : Nat) (d : Drn) : Bool :=
  (d.ofmt == 6 && (d.luten || d.cmx != 0 || d.rmx)) || d.cmx == 7 ||
    ((d.cmx == 1 || d.cmx == 2 || d.cmx == 3) && (f32 d.cmxk).isNan) ||
    (d.luten && !(b.rd DRN_LUT_STAT_VALID).testBit d.lut) ||
    (d.acc && !b.ringOn d.ringP) || (d.usesC && !b.ringOn d.ringC) || (d.rmx && !b.ringOn d.ringR) ||
    bitsOf (b.regs.word .block (0x800 + 16 * n)) 31 28 != 0

/-- The tile that a destination must hold (R120). -/
def Drn.destBytes (d : Drn) : Nat := if d.wid then 4096 else panelBytes d.ofmt

/-- R64's tests that need no tile tag. -/
def Block.matrixBadHead (b : Block) (c : Cmd) : Bool :=
  let d := b.drn c.drnM
  let int := pairInt c.fmtA c.fmtB
  (pairRate c.fmtA c.fmtB).isNone || c.m == 0 || decide (64 < c.m) || c.n == 0 || decide (64 < c.n) ||
    decide (8192 < c.k) || c.init == 3 || c.reservedSet ||
    (c.k != 0 && (!b.ringOn c.ringA || !b.ringOn c.ringB)) || (c.init != 0 && !b.ringOn c.ringI) ||
    !b.ringOn c.ringDM || (c.fmtA == 0 && !b.cbValid c.cbA) || (c.fmtB == 0 && !b.cbValid c.cbB) ||
    (c.k != 0 && (decide (b.slotSize c.ringA < operandBytes c.fmtA c.k) ||
      decide (b.slotSize c.ringB < operandBytes c.fmtB c.k))) ||
    (c.init != 0 && decide (b.slotSize c.ringI < 256)) || decide (b.slotSize c.ringDM < d.destBytes) ||
    (d.acc && decide (b.slotSize d.ringP < panelBytes 6)) || (d.rmx && decide (b.slotSize d.ringR < 256)) ||
    b.ccwBad d int || b.drnBad c.drnM d

/-- The effective tag of an operand (R121): the head tile's tag in place of G4 when it is F8E4; `none` for any other
difference. -/
def subTag (fmt tag : Nat) : Option Nat :=
  if fmt = tag then some fmt else if fmt = 0 ∧ tag = 2 then some 2 else none

/-- The partial tile's tag agrees with the accumulator (R146). -/
def partOk (isInt : Bool) (tag : Nat) : Bool := if isInt then tag == 6 else tag == 7

/-- The tests of a matrix command that need head-slot tags (R121, R146): the effective pair, or `none` when the
command is illegal. -/
def Block.matrixTags (b : Block) (c : Cmd) : Option (Nat × Nat) :=
  let d := b.drn c.drnM
  let ta := if c.k = 0 then some c.fmtA else subTag c.fmtA (b.tag c.ringA (b.headSrc c.ringA)).hdr.fmt
  let tb := if c.k = 0 then some c.fmtB else subTag c.fmtB (b.tag c.ringB (b.headSrc c.ringB)).hdr.fmt
  match ta, tb with
  | some ta, some tb =>
    if (pairRate ta tb).isNone then none
    else if d.acc ∧ !partOk (pairInt ta tb) (b.tag d.ringP (b.headSrc d.ringP)).hdr.fmt then none
    else if b.ccwBad d (pairInt ta tb) then none
    else some (ta, tb)
  | _, _ => none

/-- R155's tests that need no tile tag. -/
def Block.bankBadHead (b : Block) (c : Cmd) : Bool :=
  let d := b.drn c.drnB
  decide (2 ≤ c.op) || c.m == 0 || decide (64 < c.m) || c.n == 0 || decide (64 < c.n) || c.reservedSet ||
    !b.ringOn c.ringS || !b.ringOn c.ringDB ||
    (c.op == 0 && (d.wid || b.drnBad c.drnB d || decide (b.slotSize c.ringDB < d.destBytes) ||
      (d.acc && decide (b.slotSize d.ringP < panelBytes 6)) || (d.rmx && decide (b.slotSize d.ringR < 256))))

/-- R155's tests on the source slot's tag entry, and R107 and R154 with the source in the accumulator's place. -/
def Block.bankBadTag (b : Block) (c : Cmd) : Bool :=
  let d := b.drn c.drnB
  let t := b.tag c.ringS (b.headSrc c.ringS)
  t.multi ||
    (c.op == 0 && ((t.hdr.fmt == 0 && !b.cbValid c.cbS) || b.ccwBad d (tagIsInt t.hdr.fmt) ||
      (d.acc && !partOk (tagIsInt t.hdr.fmt) (b.tag d.ringP (b.headSrc d.ringP)).hdr.fmt))) ||
    (c.op == 1 && decide (b.slotSize c.ringDB < panelBytes t.hdr.fmt))

/-- Is a command of Table 6-8 illegal (R176, R281)? -/
def Block.otherBad (b : Block) (c : Cmd) : Bool :=
  c.reservedSet ||
  match c.opc with
  | 3 => !b.ringOn c.ring
  | 4 => !b.ringOn c.ring || decide (b.slotSize c.ring < 1056)
  | 5 => !b.ringOn c.ring || c.len == 0 || decide (1048576 < c.len) || decide (b.slotSize c.ring < c.offset + c.len)
  | 6 =>
    c.inc == 0 ||
    (match c.stake / 2 ^ 14 with
     | 0 => decide (64 ≤ c.stake)
     | 2 => decide (64 ≤ c.stake % 2 ^ 14) || !b.bit LEP_A0_EN (c.stake % 64) || !b.bit LEP_A0_DIR (c.stake % 64)
     | _ => true)
  | 7 => decide (64 ≤ c.stake)
  | 8 => false
  | _ => true

/-- The head slot of every source ring is full and no issued command holds it (R65, R145, R156). -/
def Block.sourcesFull (b : Block) (c : Cmd) : Bool :=
  (b.srcRings c).all (fun r => b.slotFull r (b.headSrc r) && decide (b.pendingSrc r < b.ringSlots r))

/-- The head slot of every destination ring is empty and no issued command will fill it (R65, R145, R156). -/
def Block.destsEmpty (b : Block) (c : Cmd) : Bool :=
  (b.dstRings c).all (fun r => !b.slotFull r (b.headDst r) && decide (b.pendingDst r < b.ringSlots r))

end Sys2Proof.Machine
end

