-- ==== Sys2Proof/Machine/Sequencer.lean ====
section
/-!
DEFINITION. The sequencer, the cell array's outcomes, the bank commands, the loads, the check unit and the block's side
of stakes (03_cell_array.md R65 to R93; 04_number_formats.md R101 to R103, R116 to R121; 05_scratchpad_bank_alus.md
R149 to R156; 06_scalar_core.md R171, R175 to R183; 10_stakes.md R282 to R298), as functions of one block.
-/
namespace Sys2Proof.Machine

/-! ## The queue -/

/-- Put a command image into the tail of the queue (R171). A plan point names the command pushed after it (R179). -/
def Block.push (e : Env) (b : Block) (c : Cmd) : Block :=
  let x : QEntry := { cmd := c, id := b.seq.nextId, frame := e.frame, plan := b.seq.planNext }
  { b with seq := { b.seq with q := b.seq.q ++ [x], nextId := b.seq.nextId + 1
                               planNext := if c.opc = 8 then some c.planP else none } }

/-- The next command to issue: the first entry that waits, unless an issued sight or load or a refused command holds the queue
(R175). -/
def headOf : List QEntry → Option QEntry
  | [] => none
  | x :: t =>
    match x.st with
    | .waiting => some x
    | .issued _ | .landing _ _ _ => if x.waitsPlan then none else headOf t
    | .refused => none

/-- The head of the block's queue. -/
def Block.head (b : Block) : Option QEntry := headOf b.seq.q

/-- Is the entry the oldest in the queue, so that every earlier command has its final outcome? -/
def Block.isOldest (b : Block) (x : QEntry) : Bool :=
  match b.seq.q with
  | y :: _ => y.id == x.id
  | [] => false

/-- Change the entry `id`. -/
def Block.setEntry (b : Block) (id : Nat) (f : QEntry → QEntry) : Block :=
  { b with seq := { b.seq with q := b.seq.q.map (fun x => if x.id = id then f x else x) } }

/-- Take the entry `id` out of the queue: its final outcome. -/
def Block.dropEntry (b : Block) (id : Nat) : Block :=
  { b with seq := { b.seq with q := b.seq.q.filter (fun x => decide (x.id ≠ id)) } }

/-- The void marks of R287: a void sight, or a void tile consumed or produced. -/
def Block.markVoid (b : Block) : Block := { b with seq := { b.seq with voidSeen := true } }

/-- Refuse an illegal command (R64, R176): it never issues; BREACH, a breach record 0x20 with TAG, teardown. -/
def Block.illegal (e : Env) (b : Block) (x : QEntry) : Block :=
  ((b.setEntry x.id (fun y => { y with st := .refused })).set1 BLK_MX_STAT_BREACH).raise e
    { cls := 2, subtype := 0x20, level := 1, tag := x.cmd.tag, teardown := true }

/-! ## Matrix commands -/

/-- The oldest issued matrix or bank command, which the drain path serves (R68, R156); none while an earlier one's last rows are
still on their way to its destination (R141). -/
def Block.draining (b : Block) : Option (QEntry × Run) :=
  (b.seq.q.findSome? (fun x =>
    if x.cmd.opc = 1 ∨ x.cmd.opc = 2 then
      (match x.st with
       | .issued r => some (some (x, r))
       | .landing _ _ _ => some none
       | .waiting | .refused => none)
    else none)).join

/-- The newest issued command that owns accumulator set `s`. -/
def Block.setOwner (b : Block) (s : Nat) : Option Run :=
  b.seq.q.reverse.findSome? (fun x =>
    match x.issued? with
    | some r => if x.cmd.opc = 1 ∧ r.set = s then some r else none
    | none => none)

/-- The tile that issued last, whose compute the next tile's follows (R66). -/
def Block.lastTile (b : Block) : Option Run :=
  b.seq.q.reverse.findSome? (fun x => if x.cmd.opc = 1 then x.issued? else none)

/-- The tile's drain that the next tile's drain follows ends before this cycle (R68). -/
def Block.lastDrain (b : Block) : Nat := (b.lastTile.map (fun r => r.de)).getD 0

/-- Does the bias read of a tile issued in cycle `cyc` find the operand port busy with the previous tile's stream? That is the case
when a 2,048-bit pair streams until the cycle before the tile's own first compute cycle (R66; DEDUCED, log 48). -/
def Block.biasBubble (b : Block) (cyc : Nat) : Bool :=
  match b.lastTile with
  | some r => pairFullPort r.ta r.tb && decide (r.fc < r.ce) && decide (cyc + 3 ≤ r.ce)
  | none => false

/-- The first compute cycle of the matrix command `x` when it issues in cycle `cyc`: the third cycle after it, and one more when the
bias read finds the port busy (R66). -/
def Block.firstCompute (b : Block) (x : QEntry) (cyc : Nat) : Nat :=
  cyc + 3 + (if x.cmd.init != 0 && x.bias.isNone && b.biasBubble cyc then 1 else 0)

/-- Is set `s` free, or free in the cycle before the first compute cycle `fc` of a tile issued now (R65)? -/
def Block.setFree (b : Block) (s fc : Nat) : Bool :=
  match b.setOwner s with
  | none => true
  | some r => decide (r.de ≤ fc)

/-- Can the array start a tile three cycles from cycle `cyc`: the tile before it has taken its last compute cycle (R66)? -/
def Block.arrayFree (b : Block) (cyc : Nat) : Bool :=
  match b.lastTile with
  | none => true
  | some r => decide (r.ce ≤ cyc + 3)

/-- The cycles of a tile that issues in cycle `cyc` with its first compute cycle `fc` (R66 to R68): `prevDe` ends the drain before
it, `plan` is the planned pair (R123). -/
def Run.timed (r : Run) (cyc fc q k prevDe : Nat) (plan : Nat × Nat) : Run :=
  let n := computeCycles r.ta r.tb k
  let ce := limEnd q fc n
  { r with cyc := cyc, fc := fc, ce := ce, de := max ce prevDe + 64, q := q, mark := fc, left := n, skip := 0
           excess := ce - limEnd q fc (computeCycles plan.1 plan.2 k) }

/-- Give a running tile the limiter's new rate from cycle `t` on (R67). -/
def Run.retime (r : Run) (t q prevCe prevDe : Nat) : Run :=
  if t < r.ce ∧ r.left ≠ 0 then
    let fc := if t < r.fc then max r.fc prevCe else r.fc
    let left := r.left - min r.left (limCount r.q (max t r.mark) - limCount r.q r.mark)
    let mark := max fc (max t r.mark)
    let ce := limEnd q mark left
    { r with fc := fc, ce := ce, de := max ce prevDe + 64, q := q, mark := mark, left := left }
  else { r with q := q, de := if r.ce ≤ t then r.de else max r.ce prevDe + 64 }

/-- Give every issued matrix command the limiter's new rate, in issue order (R67, R68). -/
def Block.retime (e : Env) (b : Block) : Block :=
  if b.seq.q.all (fun x => match x.st with | .issued r => x.cmd.opc != 1 || r.q == e.q | _ => true) then b
  else
    let step (a : List QEntry × Nat × Nat) (x : QEntry) : List QEntry × Nat × Nat :=
      match x.st with
      | .issued r =>
        if x.cmd.opc = 1 then
          let r := r.retime e.cyc e.q a.2.1 a.2.2
          (a.1 ++ [{ x with st := .issued r }], r.ce, r.de)
        else (a.1 ++ [x], a.2)
      | _ => (a.1 ++ [x], a.2)
    { b with seq := { b.seq with q := (b.seq.q.foldl step ([], 0, 0)).1 } }

/-- BLK_MX_STAT.BUSY, SET0 and SET1 in cycle `t` (Table 3-13, R61): a set is busy from its tile's first compute cycle until its last
row has left. -/
def Block.showSets (b : Block) (t : Nat) : Block :=
  let s (k : Nat) : Nat := match b.setOwner k with
    | some r => if r.fc ≤ t ∧ t < r.de then 1 else 0
    | none => 0
  ((b.wr BLK_MX_STAT_SET0 (s 0)).wr BLK_MX_STAT_SET1 (s 1)).wr BLK_MX_STAT_BUSY (max (s 0) (s 1))

/-- What an accumulator set that no tile has used holds. -/
def accZero : Nat → AccSet := fun _ => {}

/-- The contents of an accumulator set (R61). -/
def Block.acc (b : Block) (k : Nat) : AccSet := b.sets.get accZero k

/-- The array's work on a tile: its set takes the values that the tile's compute cycles leave in it (R61, R74 to R79). The operand
elements are those that stand in the slots at issue (log 48). -/
def Block.accumulate (b : Block) (c : Cmd) (r : Run) (vec : List Word) : Block :=
  { b with sets := b.sets.put accZero r.set (accOf (b.tileIn c r vec)) }

/-- The sequencer's work is gone: commands, accumulator contents, plan point, TCRC bytes (R53, 19 R508). -/
def Block.dropWork (b : Block) (keep : QEntry → Bool) : Block :=
  let b : Block := { b with seq := { b.seq with q := b.seq.q.filter keep, planNext := none }, sets := []
                            chk := { b.chk with buf := [] } }
  (b.showSets 0).wr BLK_MX_STAT_REPLAY 0

/-- Is the header of ring `r`'s slot void? -/
def Block.slotVoid (b : Block) (r s : Nat) : Bool := (b.tag r s).hdr.void

/-- The operand port's reads of a tile: A and B unless K = 0, and the bias vector, once (R66, R73, R132). Answers whether one met
an uncorrectable error. -/
def Block.operandReads (e : Env) (b : Block) (c : Cmd) (r : Run) (readBias : Bool) : Block × Bool :=
  let one (b : Block) (ring slot t outer : Nat) (kRows : Bool) : Block × Bool :=
    let lo := b.slotAddr ring slot
    b.portReadIf e ring slot lo (lo + (c.k + 63) / 64 * b.panelStride ring slot t)
      (b.operandHit ring slot t outer c.k kRows)
  let ra := if c.k = 0 then (b, false) else one b c.ringA r.sa r.ta c.m c.turnA
  let rb := if c.k = 0 then (ra.1, false) else one ra.1 c.ringB r.sb r.tb c.n !c.turnB
  let lo := rb.1.slotAddr c.ringI r.si
  let ri := if readBias then rb.1.portRead e c.ringI r.si lo (lo + 256) else (rb.1, false)
  (ri.1, ra.2 || rb.2 || ri.2)

/-- Issue the matrix command `x` with the effective pair (R65, R66, R121): its set, its slots, its cycles, its operand reads, its
void mark, the values that its set takes. -/
def Block.issueMatrix (e : Env) (b : Block) (x : QEntry) (ta tb : Nat) : Block :=
  let c := x.cmd
  let d := b.drn c.drnM
  let set := x.keptSet.getD b.seq.nextSet
  let readBias := c.init != 0 && x.bias.isNone
  let fc := b.firstCompute x e.cyc
  let sub := ta != c.fmtA || tb != c.fmtB
  let fresh := x.keptSet.isNone
  let hit := fresh && b.tenant e && e.mismEvery != 0 && decide ((b.seq.injCount + 1) % e.mismEvery = 0)
  let r : Run := { set := set, ta := ta, tb := tb, sa := b.headSrc c.ringA, sb := b.headSrc c.ringB
                   si := b.headSrc c.ringI, sd := b.headDst c.ringDM, sp := b.headSrc d.ringP, sc := b.headSrc d.ringC
                   sr := b.headDst d.ringR, sub := sub, inj := if hit then e.mismPasses else 0
                   late := b.rd SEQ_DELAY_DELAY }
  let r := r.timed e.cyc fc e.q c.k b.lastDrain (c.fmtA, c.fmtB)
  let void := b.seq.voidSight || (c.k != 0 && (b.slotVoid c.ringA r.sa || b.slotVoid c.ringB r.sb)) ||
    (c.init != 0 && b.slotVoid c.ringI r.si) || (d.acc && b.slotVoid d.ringP r.sp) ||
    (d.usesC && b.slotVoid d.ringC r.sc)
  let vec := if c.init = 0 then [] else x.bias.getD (b.biasVec c.ringI r.si)
  let b := if sub && b.tenant e then (b.set1 BLK_FMT_STAT_TAGSUB).count e 0x014 (some e.parcel) else b
  let rd := b.operandReads e c r readBias
  let void := void || rd.2
  let b := rd.1.accumulate c r vec
  let b := b.setEntry x.id (fun y =>
    { y with st := .issued { r with void := void }, keptSet := some set, bias := if c.init = 0 then none else some vec })
  let b := { b with seq := { b.seq with nextSet := if fresh then 1 - b.seq.nextSet else b.seq.nextSet
                                        voidSeen := b.seq.voidSeen || void
                                        injCount := if fresh && b.tenant e then b.seq.injCount + 1 else b.seq.injCount
                                        injHits := if hit then b.seq.injHits + 1 else b.seq.injHits } }
  (if fresh then b.count e 0x010 (some e.parcel) else b).showSets e.cyc

/-- MATRIX_ISSUE: the head is a matrix command, or a command whose OPC is reserved (R64, R65, R121, R144, R145,
R176). -/
def Block.matrixIssue (e : Env) (b : Block) : Block :=
  match b.head with
  | none => b
  | some x =>
    if x.cmd.opc = 1 then
      if b.matrixBadHead x.cmd then b.illegal e x
      else if b.sourcesFull x.cmd && b.destsEmpty x.cmd && b.arrayFree e.cyc &&
          b.setFree (x.keptSet.getD b.seq.nextSet) (b.firstCompute x e.cyc) then
        match b.matrixTags x.cmd with
        | none => b.illegal e x
        | some (ta, tb) => b.issueMatrix e x ta tb
      else b
    else if x.cmd.opc = 0 ∨ 9 ≤ x.cmd.opc then b.illegal e x
    else b

/-- Cancel every matrix and bank command that issued after `id`: back to waiting, with its set (R84, R156). -/
def Block.cancelAfter (b : Block) (id : Nat) : Block :=
  { b with seq := { b.seq with q := b.seq.q.map (fun x =>
      if id < x.id ∧ (x.cmd.opc = 1 ∨ x.cmd.opc = 2) ∧ x.issued?.isSome then { x with st := .waiting } else x) } }

/-- Release the source slots of a completed command (R69, R85, Table 5-8). -/
def Block.releaseSources (e : Env) (b : Block) (c : Cmd) (r : Run) : Block :=
  let d := if c.opc = 1 then b.drn c.drnM else b.drn c.drnB
  let slotOf (ring : Nat) : Nat :=
    if c.opc = 1 then
      (if ring = c.ringA ∧ c.k ≠ 0 then r.sa else if ring = c.ringB ∧ c.k ≠ 0 then r.sb
       else if ring = c.ringI ∧ c.init ≠ 0 then r.si else if d.acc ∧ ring = d.ringP then r.sp else r.sc)
    else if ring = c.ringS then r.sa
    else if d.acc ∧ ring = d.ringP then r.sp
    else r.sc
  (b.srcRings c).foldl (fun b ring => b.release e ring (slotOf ring) 0) b

/-- The bytes of a drained panel in rows of width `w` bits. -/
def panelImage (w : Nat) (rows : List (List Nat)) : List Byte :=
  (rows.map (fun r => leBytes (8 * w) (rowImage w r))).flatten

/-- The comparisons of a pass with the faults that hit its drained values and the injected ones (R80 to R83, R93, R536). -/
def Block.passOf (b : Block) (c : Cmd) (r : Run) (fs : List CellFault) : PassOut :=
  let o := comparePass (pairInt r.ta r.tb) c.m c.n (b.rd BLK_CHK_TOL_TOL_EXP) (b.rd BLK_CHK_TOL_FLOOR) (b.acc r.set) fs
  let inj := (r.inj == 1 && r.pass == 0) || (r.inj == 2 && decide (r.pass ≤ 1)) || (r.inj == 3 && r.pass == 2)
  if inj then { o with fail := some ⟨0, 0⟩ } else o

/-- BLK_MX_LAST on every mismatch (R93). -/
def Block.mxLast (b : Block) (tag pass : Nat) (f : FailAt) : Block :=
  (((b.wr BLK_MX_LAST_TAG tag).wr BLK_MX_LAST_INDEX f.index).wr BLK_MX_LAST_AXIS f.axis).wr BLK_MX_LAST_PASS pass

/-- The transient event of R85. -/
def Block.transient (e : Env) (b : Block) (c : Cmd) (r : Run) : Block :=
  ((b.set1 BLK_MX_STAT_TRANS).inc BLK_MX_TRANS_COUNT BLK_MX_TRANS_SAT).raise e
    { cls := 5, subtype := 1, level := 0, tag := c.tag, inj := r.inj != 0 }

/-- The descriptor that a command's destination follows: TURN has none (R154). -/
def Block.destDrn (b : Block) (c : Cmd) : Drn :=
  if c.opc = 1 then b.drn c.drnM
  else if c.op = 1 then { b.drn c.drnB with rmx := false, acc := false, cmx := 0 }
  else b.drn c.drnB

/-- Mark a destination full, with its row-maximum slot (R69, R118, R151), release the sources and end the command. -/
def Block.finish (e : Env) (b : Block) (x : QEntry) (r : Run) (h : Hdr) : Block :=
  let d := b.destDrn x.cmd
  let b := b.markFull e (if x.cmd.opc = 1 then x.cmd.ringDM else x.cmd.ringDB) r.sd { hdr := h }
  let b := if d.rmx then b.markFull e d.ringR r.sr { hdr := { fmt := 7, void := h.void } } else b
  let b := b.releaseSources e x.cmd r
  let b := if h.void then b.markVoid else b
  b.dropEntry x.id

/-- A decided tile waits for the drain path's latency: its destination is full from the fifth cycle after drain cycle 64
(R69, R141). -/
def Block.landLater (e : Env) (b : Block) (x : QEntry) (r : Run) (h : Hdr) : Block :=
  let b := if h.void then b.markVoid else b
  b.setEntry x.id (fun y => { y with st := .landing r h (e.cyc + 5) })

/-- The decided tiles whose destination is full by cycle `t` complete (R69, R141). -/
def Block.land (e : Env) (b : Block) (t : Nat) : Block :=
  b.seq.q.foldl (fun (b : Block) x =>
    match x.st with
    | .landing r h at_ => if at_ ≤ t then b.finish e x r h else b
    | .waiting | .issued _ | .refused => b) b

/-- Account the statistic of a kept tenant tile (R113, R115, R152, Table 4-10). -/
def Block.keepStat (e : Env) (b : Block) (o : DrainOut) (widened : Bool) : Block :=
  if !b.tenant e then b
  else
    let b := (b.wr BLK_MSE_LAST_MSE o.stat.toNat).wr BLK_FMT_STAT_LASTW (if widened then 1 else 0)
    let b := (b.wr DRN_MSE_SUM_SUM (fadd (BitVec.ofNat 32 (b.rd DRN_MSE_SUM_SUM)) o.stat).toNat).inc
      DRN_MSE_CNT_COUNT DRN_MSE_CNT_SAT
    let b := if 0 < o.sats then (b.set1 BLK_FMT_STAT_SATUR).inc BLK_FMT_SATCNT_COUNT BLK_FMT_SATCNT_SAT o.sats else b
    if o.nan then b.set1 BLK_FMT_STAT_NANOUT else b

/-- Write the drained rows to the destination slot (R69, R141) and the row maxima to theirs (R151). -/
def Block.writeOut (e : Env) (b : Block) (d : Drn) (r : Run) (ringD ofmt : Nat) (o : DrainOut) : Block :=
  let b := b.portWrite e ringD r.sd (b.slotAddr ringD r.sd) (panelImage (tagWidth ofmt) o.rows)
  if d.rmx then
    b.portWrite e d.ringR r.sr (b.slotAddr d.ringR r.sr) ((o.rmax.map (fun w => leBytes 4 w.toNat)).flatten)
  else b

/-- The drain path's reads for `m` rows and `n` columns: partial and compare tiles, rescale table (Table 5-16). -/
def Block.drainEcc (e : Env) (b : Block) (d : Drn) (r : Run) (m n : Nat) : Block × Bool :=
  let one (b : Block) (ring slot t : Nat) : Block × Bool :=
    let lo := b.slotAddr ring slot
    b.portReadIf e ring slot lo (lo + panelBytes t) (b.tileHit ring slot t m n)
  let p := if d.acc then one b d.ringP r.sp 6 else (b, false)
  let c := if d.usesC then one p.1 d.ringC r.sc (p.1.tag d.ringC r.sc).hdr.fmt else (p.1, false)
  let t := if d.rsc then c.1.portRead e 0 0 (512 * d.rtab) (512 * d.rtab + 512) else (c.1, false)
  (t.1, p.2 || c.2 || t.2)

/-! ## Bank commands -/

/-- BANK_COMMAND_ISSUE (R155, R156). -/
def Block.bankIssue (e : Env) (b : Block) : Block :=
  match b.head with
  | none => b
  | some x =>
    if x.cmd.opc ≠ 2 then b
    else if b.bankBadHead x.cmd then b.illegal e x
    else if b.sourcesFull x.cmd && b.destsEmpty x.cmd then
      if b.bankBadTag x.cmd then b.illegal e x
      else
        let c := x.cmd
        let d := b.drn c.drnB
        let sa := b.headSrc c.ringS
        let sp := b.headSrc d.ringP
        let sc := b.headSrc d.ringC
        let void := b.seq.voidSight || b.slotVoid c.ringS sa ||
          (c.op == 0 && ((d.acc && b.slotVoid d.ringP sp) || (d.usesC && b.slotVoid d.ringC sc)))
        let r : Run := { ta := (b.tag c.ringS sa).hdr.fmt, sa := sa, sd := b.headDst c.ringDB, sp := sp, sc := sc
                         sr := b.headDst d.ringR, void := void, cyc := e.cyc, late := b.rd SEQ_DELAY_DELAY }
        let b := b.setEntry x.id (fun y => { y with st := .issued r, keptSet := some 0 })
        { b with seq := { b.seq with voidSeen := b.seq.voidSeen || void } }
    else b

/-- TURN (R154): the whole panel transposed, header copied. -/
def Block.turnRows (b : Block) (c : Cmd) (r : Run) : List (List Nat) :=
  (List.range 64).map (fun i => (List.range 64).map (fun j => (b.tileElem c.ringS r.sa r.ta 0 j i).1))

/-- The source of a PASS as accumulator patterns (R154): an integer, or the exact value in binary32. -/
def Block.passRows (b : Block) (c : Cmd) (r : Run) : List (List Nat) :=
  let g := b.grid c.cbS
  (List.range c.m).map (fun i => (List.range c.n).map (fun j =>
    let x := b.tileElem c.ringS r.sa r.ta 0 i j
    if tagIsInt r.ta then (decodeInt x.2 g x.1 % 2 ^ 32).toNat else (fsum [decodeElem x.2 g x.1]).toNat))

/-- BANK_COMMAND_DONE: the oldest issued bank command's output is marked full (R154, R156, R152). -/
def Block.bankDone (e : Env) (b : Block) : Block :=
  match b.draining with
  | none => b
  | some (x, r) =>
    if x.cmd.opc ≠ 2 then b
    else
      let c := x.cmd
      let lo := b.slotAddr c.ringS r.sa
      if c.op = 1 then
        let es := b.portRead e c.ringS r.sa lo (lo + panelBytes r.ta)
        let b := es.1.portWrite e c.ringDB r.sd (es.1.slotAddr c.ringDB r.sd) (panelImage (tagWidth r.ta) (es.1.turnRows c r))
        let h := (b.tag c.ringS r.sa).hdr
        b.finish e x r { h with void := h.void || es.2 || b.seq.voidSight }
      else
        let es := b.portReadIf e c.ringS r.sa lo (lo + panelBytes r.ta) (b.tileHit c.ringS r.sa r.ta c.m c.n)
        let d := es.1.drn c.drnB
        let ec := es.1.drainEcc e d r c.m c.n
        let b := ec.1
        let o := drainTile (b.drainIn d (tagIsInt r.ta) c.m c.n r.sp r.sc d.ofmt d.sat) (b.passRows c r)
        let void := r.void || es.2 || ec.2 || b.seq.voidSight
        let b := b.writeOut e d r c.ringDB d.ofmt o
        let b := b.finish e x r { fmt := d.ofmt, void := void, range := o.ovf, cb := d.cbo }
        let b := if o.ovf then b.set1 SP_STAT_ACCOVF else b
        if void then b else b.keepStat e o false

/-! ## Loads -/

/-- May an earlier command `y` decode or encode with codebook index `i` (R101)? A wide F8E4 tile decodes with its header's codebook
where its panel map holds a G4 panel (R266). -/
def Block.usesCb (b : Block) (i : Nat) (y : QEntry) : Bool :=
  let hasG4 (t : TagEnt) (panels : Nat) : Bool := (List.range panels).any (fun p => !t.pmap.testBit p)
  match y.issued? with
  | none => y.cmd.opc == 1 || y.cmd.opc == 2
  | some r =>
    let c := y.cmd
    let hdrUses (ring slot panels : Nat) : Bool :=
      let t := b.tag ring slot
      t.hdr.cb == i && (t.hdr.fmt == 0 || (t.hdr.fmt == 2 && t.wide && hasG4 t panels))
    let pk := (c.k + 63) / 64
    if c.opc = 1 then
      let d := b.drn c.drnM
      (c.fmtA == 0 && c.cbA == i) || (c.fmtB == 0 && c.cbB == i) || (d.ofmt == 0 && d.cbo == i) ||
        (c.k != 0 && (hdrUses c.ringA r.sa pk || hdrUses c.ringB r.sb pk)) || (d.acc && hdrUses d.ringP r.sp 1) ||
        (d.usesC && hdrUses d.ringC r.sc 1)
    else if c.opc = 2 then
      let d := b.drn c.drnB
      c.cbS == i || hdrUses c.ringS r.sa 1 || (c.op == 0 && ((d.ofmt == 0 && d.cbo == i) ||
        (d.acc && hdrUses d.ringP r.sp 1) || (d.usesC && hdrUses d.ringC r.sc 1)))
    else false

/-- May an earlier command use lookup table `t` (R149)? -/
def Block.usesLut (b : Block) (t : Nat) (y : QEntry) : Bool :=
  let d := if y.cmd.opc = 1 then b.drn y.cmd.drnM else b.drn y.cmd.drnB
  (y.cmd.opc == 1 || (y.cmd.opc == 2 && y.cmd.op == 0)) && d.luten && d.lut == t

/-- The commands before `x` in the queue. -/
def Block.before (b : Block) (x : QEntry) : List QEntry := b.seq.q.filter (fun y => decide (y.id < x.id))

/-- A codebook image in bytes as a grid (R100). -/
def gridOfBytes (bs : List Byte) : Grid := bs.map (fun x => byteInt x.toNat)

/-- CODEBOOK_LOAD (R101, R102). -/
def Block.codebookLoad (e : Env) (b : Block) : Block :=
  match b.head with
  | none => b
  | some x =>
    let c := x.cmd
    if c.opc ≠ 3 then b
    else if b.otherBad c then b.illegal e x
    else if !b.sourcesFull c || (b.before x).any (b.usesCb c.idx) then b
    else
      let s := b.headSrc c.ring
      let a := b.slotAddr c.ring s
      let er := b.portRead e c.ring s a (a + 16)
      let b := er.1
      let bs := b.spRead a 16
      let b := b.release e c.ring s 0
      let b := b.dropEntry x.id
      if c.idx ≠ 31 ∧ gridValid (gridOfBytes bs) then (b.setCbImage c.idx bs).setCbValid c.idx true
      else
        let b := if c.idx = 31 then b else (b.setCbImage c.idx (List.replicate 16 0)).setCbValid c.idx false
        (b.set1 BLK_FMT_STAT_CBREF).raise e
          { cls := 2, subtype := 0x21, level := 1, tag := c.tag, teardown := true }

/-- Is a lookup image of 1,056 bytes valid (R149)? -/
def lutValid (ws : List Word) : Bool :=
  (f32 (ws.getD 0 0)).finite && (f32 (ws.getD 1 0)).finite && FVal.lt (.fin false 0 0) (f32 (ws.getD 1 0)) &&
    ((ws.drop 2).take 6).all (fun w => w == 0) && (ws.drop 8).all (fun w => (f32 w).finite)

/-- Little-endian words of bytes. -/
def wordsOf (n : Nat) (bs : List Byte) : List Word :=
  (List.range n).map (fun i => BitVec.ofNat 32 (leNat ((bs.drop (4 * i)).take 4)))

/-- Write lookup table `t` (X0, RINV, y[0..255]) from the words of an image. -/
def Block.setLut (b : Block) (t : Nat) (ws : List Word) : Block :=
  let m := b.luts.filter (fun x => decide (x.1 < t * 258 ∨ t * 258 + 258 ≤ x.1))
  { b with luts := (List.range 258).foldl (fun m i =>
      m.put wordZero (t * 258 + i) (ws.getD (if i < 2 then i else i + 6) 0)) m }

/-- LOOKUP_LOAD (R149): a refused table loses VALID. -/
def Block.lookupLoad (e : Env) (b : Block) : Block :=
  match b.head with
  | none => b
  | some x =>
    let c := x.cmd
    if c.opc ≠ 4 then b
    else if b.otherBad c then b.illegal e x
    else if !b.sourcesFull c || (b.before x).any (b.usesLut c.tbl) then b
    else
      let s := b.headSrc c.ring
      let a := b.slotAddr c.ring s
      let er := b.portRead e c.ring s a (a + 1056)
      let b := er.1
      let ws := wordsOf 264 (b.spRead a 1056)
      let b := b.release e c.ring s 0
      let b := b.dropEntry x.id
      let v := b.rd DRN_LUT_STAT_VALID
      if lutValid ws then (b.setLut c.tbl ws).wr DRN_LUT_STAT_VALID (v ||| 2 ^ c.tbl)
      else
        let b := b.wr DRN_LUT_STAT_VALID (if v.testBit c.tbl then v - 2 ^ c.tbl else v)
        (b.set1 SP_STAT_LUTREF).raise e { cls := 2, subtype := 0x21, level := 1, tag := c.tag, teardown := true }

/-! ## The check unit (R181 to R183) -/

/-- Initialise for polynomial `p`: the value last written to CHK_VAL_HI stays for a later seed (R181, R183), the input buffer is
empty. -/
def ChkUnit.init (c : ChkUnit) (p : Nat) : ChkUnit := { reg := (crcPoly p).init, hi := c.hi }

/-- Show the result in CHK_VAL (R181): HI reads 0 but for POLY 3. -/
def Regs.chkShow (r : Regs) (u : RegUnit) (lo hi : Nat) (p : Nat) (c : ChkUnit) : Regs :=
  let v := (crcPoly p).result c.reg
  (r.setWord u lo (BitVec.ofNat 32 v)).setWord u hi (BitVec.ofNat 32 (v / 2 ^ 32))

/-- Set the block's check unit and show its result. -/
def Block.setChk (b : Block) (p : Nat) (c : ChkUnit) : Block :=
  { b with chk := c, regs := (b.regs.wr CHK_CTL_POLY p).chkShow .block 0x144 0x148 p c }

/-- Feed bytes now. -/
def Block.chkFeed (b : Block) (bs : List Byte) : Block :=
  let p := b.rd CHK_CTL_POLY
  b.setChk p { b.chk with reg := (crcPoly p).feedAll b.chk.reg bs }

/-- Feed the first `n` bytes of the input buffer (R182). -/
def Block.chkTake (b : Block) (n : Nat) : Block :=
  if b.chk.buf.isEmpty || n == 0 then b
  else
    let f := b.chkFeed (b.chk.buf.take n)
    { f with chk := { f.chk with buf := b.chk.buf.drop n } }

/-- Is a check command running? -/
def Block.chkRunning (b : Block) : Bool := b.seq.q.any (fun x => x.cmd.opc == 5 && x.issued?.isSome)

/-- Is the unit feeding bytes: CHK_STAT.BUSY (Table 6-20)? -/
def Block.chkBusy (b : Block) : Bool := b.chkRunning || !b.chk.buf.isEmpty

/-- The unit takes a byte per cycle from its input buffer while no check command runs (R182). -/
def Block.chkRun (b : Block) (dt : Nat) : Block := if b.chkRunning then b else b.chkTake dt

/-- CHECK_COMMAND (R181, R182): issues when its slot is full; the bytes the core fed before go first. -/
def Block.checkIssue (e : Env) (b : Block) : Block :=
  match b.head with
  | none => b
  | some x =>
    let c := x.cmd
    if c.opc ≠ 5 then b
    else if b.otherBad c then b.illegal e x
    else if !b.sourcesFull c || b.chkRunning then b
    else
      let b := b.chkTake b.chk.buf.length
      let b := if c.poly ≠ b.rd CHK_CTL_POLY ∨ c.chkInit then b.setChk c.poly (b.chk.init c.poly) else b
      let r : Run := { sa := b.headSrc c.ring, cyc := e.cyc }
      b.setEntry x.id (fun y => { y with st := .issued r })

/-- CHECK_DONE (R182): the payload has been fed; DONE, TAG, the slot released. -/
def Block.checkDone (e : Env) (b : Block) : Block :=
  match b.seq.q.findSome? (fun x => if x.cmd.opc = 5 then x.issued?.map (fun r => (x, r)) else none) with
  | none => b
  | some (x, r) =>
    let c := x.cmd
    let a := b.slotAddr c.ring r.sa + c.offset
    let er := b.portRead e c.ring r.sa a (a + c.len)
    let b := er.1.chkFeed (er.1.spRead a c.len)
    let b := (b.release e c.ring r.sa 0).dropEntry x.id
    (b.set1 CHK_STAT_DONE).wr CHK_STAT_TAG c.tag

/-! ## Stakes of the block -/

/-- A local stake. -/
def Block.stake (b : Block) (k : Nat) : Stake := b.stakes.get stakeZero k
/-- Change a local stake. -/
def Block.setStake (b : Block) (k : Nat) (s : Stake) : Block := { b with stakes := b.stakes.put stakeZero k s }

/-- STK_CFG.LAG -/
def Stake.lag (s : Stake) : Nat := bitsOf s.cfg 5 5
/-- STK_CFG.EN -/
def Stake.en (s : Stake) : Bool := bitsOf s.cfg 4 4 != 0
/-- STK_CFG.PARCEL -/
def Stake.parcel (s : Stake) : Nat := bitsOf s.cfg 3 0
/-- STK_CFG.TMODE -/
def Stake.tmode (s : Stake) : Nat := bitsOf s.cfg 6 6
/-- STK_CFG.TMO -/
def Stake.tmo (s : Stake) : Nat := bitsOf s.cfg 15 8
/-- STK_CFG.ROLL -/
def Stake.roll (s : Stake) : Nat := bitsOf s.cfg 31 16

/-- The void bit that a sight of frame `m` reads (R286). -/
def Stake.sightVoid (s : Stake) (m : Nat) : Bool := s.void.testBit ((m + 4 - s.lag) % 4)

/-- Set void bit `tag mod 4`. -/
def Stake.setVoid (s : Stake) (tag : Nat) : Stake := { s with void := s.void ||| 2 ^ (tag % 4) }

/-- The outcome of a drive at its stake (R283, R292, R293). -/
inductive DriveOutcome where
  | applied (s : Stake)
  | overflow (s : Stake)
  | trespass
  | poisoned
  | stale
deriving DecidableEq, Repr

/-- Apply a drive to a stake; `gen` is the current generation of the drive's parcel. -/
def Stake.drive (s : Stake) (d : Drive) (gen : Nat) : DriveOutcome :=
  match d.gen with
  | some g => if g ≠ gen ∧ d.parcel ≠ 0 then .stale else go
  | none => go
where
  go : DriveOutcome :=
    if (d.parcel ≠ s.parcel ∧ d.parcel ≠ 0) ∨ !s.en then .trespass
    else if s.poison then .poisoned
    else
      let s' := if d.void then s.setVoid d.tag else s
      if 0x7FFFFFFF < s.cnt + d.inc then .overflow { s' with cnt := 0x7FFFFFFF, ovf := true }
      else .applied { s' with cnt := s.cnt + d.inc }

/-- The issued sight, if any. -/
def Block.sight (b : Block) : Option QEntry :=
  b.seq.q.find? (fun x => x.cmd.opc == 7 && x.issued?.isSome)

/-- Complete the issued sight, void or not (R286, R287). -/
def Block.sightDone (b : Block) (x : QEntry) (void : Bool) : Block :=
  let b := b.dropEntry x.id
  if void then { b with seq := { b.seq with voidSight := true, voidSeen := true } } else b

/-- Complete the issued sight when its stake satisfies it, or is poisoned (R282, R286, R293). -/
def Block.sightCheck (e : Env) (b : Block) : Block :=
  match b.sight with
  | none => b
  | some x =>
    let s := b.stake (x.cmd.stake % 64)
    if s.poison then b.sightDone x true
    else if x.cmd.count ≤ s.cnt then b.sightDone x (s.sightVoid e.frame)
    else b

/-- STAKE_SIGHT (R282, Table 6-7): issues at once, and ends at once when its stake is there. -/
def Block.stakeSight (e : Env) (b : Block) : Block :=
  match b.head with
  | none => b
  | some x =>
    if x.cmd.opc ≠ 7 then b
    else if b.otherBad x.cmd then b.illegal e x
    else (b.setEntry x.id (fun y => { y with st := .issued { cyc := e.cyc } })).sightCheck e

/-- Does the event with stake `k` fall to a forced timeout, or is its time TMO × 256 cycles over (R294)? `forced` is
the control of R535. The sight times out: STALE, record 0x60, void. -/
def Block.sightTimeout (e : Env) (b : Block) (forced : Bool) : Block :=
  match b.sight with
  | none => b
  | some x =>
    let k := x.cmd.stake % 64
    let s := b.stake k
    let t0 := (x.issued?.getD {}).cyc
    if forced || (s.tmode == 1 && decide (t0 + s.tmo * 256 ≤ e.cyc)) then
      let b := b.sightDone x true
      let b := (b.set1 STK_BSTAT_STALE).count e 0x052 (some e.parcel)
      b.raise e { cls := 3, subtype := 0x60, level := 1, tag := x.cmd.tag, object := k, objkind := 1, inj := forced }
    else b

/-- STAKE_DRIVE_COMMAND (R281, R288, R289, R298): the oldest command is a drive; it goes to the block's drive queue or
to its endpoint's, unless that is full. -/
def Block.driveCommand (e : Env) (b : Block) : Block :=
  match b.head with
  | none => b
  | some x =>
    let c := x.cmd
    if c.opc ≠ 6 then b
    else if b.otherBad c then b.illegal e x
    else if !b.isOldest x then b
    else if c.stake / 2 ^ 14 = 0 then
      if 14 ≤ b.driveq.length then b
      else
        let d : Drive := { stake := c.stake, inc := c.inc, void := b.seq.voidSeen, tag := e.frame % 2 ^ 16
                           parcel := b.rd RT_CTL_PARCEL, gen := some e.gen, by_ := .block e.blk }
        { b.dropEntry x.id with driveq := b.driveq ++ [d] }
    else
      let k := c.stake % 64
      let l := b.legs.get legZero k
      if 4 ≤ l.drives.length then b
      else
        let r := b.rd LEP_A0_RING k
        let cons := b.rd LEP_A0_CONS k
        let after := ((List.range (b.ringSlots r)).filter (fun s =>
          b.slotFull r s && !(b.tag r s).released cons)).length
        let d : LegDrive := { inc := c.inc, void := b.seq.voidSeen, tag := e.frame % 2 ^ 16, after := after, since := e.cyc }
        { b.dropEntry x.id with legs := b.legs.put legZero k { l with drives := l.drives ++ [d] } }

/-- Apply the oldest queued drive to its local stake and wake the sight that waits on it (R283, R286, R292, R293,
R298). -/
def Block.driveApply (e : Env) (b : Block) (gen : Nat) : Block :=
  match b.driveq with
  | [] => b
  | d :: t =>
    let b := { b with driveq := t }
    match (b.stake d.stake).drive d gen with
    | .applied s => ((b.setStake d.stake s).count e 0x050 (some d.parcel)).sightCheck e
    | .overflow s =>
      let b := ((b.setStake d.stake s).set1 STK_BSTAT_OVF).sightCheck e
      b.raise e { cls := 2, subtype := 0x65, level := 1, object := d.stake, objkind := 1, teardown := true }
    | .trespass =>
      let own := (b.stake d.stake).parcel
      let b := (b.set1 STK_BSTAT_TRESP).count e 0x051 (some d.parcel)
      let b := if b.rd STK_BSTAT_TCOUNT < 0xFFFF then b.wr STK_BSTAT_TCOUNT (b.rd STK_BSTAT_TCOUNT + 1) else b
      b.raise { e with parcel := d.parcel, ctx := e.ctxs.getD d.parcel 0 }
        { cls := 4, subtype := 0x64, level := 1, object := d.stake, objkind := 1, specific := d.parcel + 2 ^ 4 * own }
    | .poisoned => b
    | .stale => b.inc RT_DROPCNT_COUNT RT_DROPCNT_SAT

/-- PLAN_POINT (R179): issues at once and leaves the queue; its P already stands at the next command. -/
def Block.planPoint (e : Env) (b : Block) : Block :=
  match b.head with
  | none => b
  | some x =>
    if x.cmd.opc ≠ 8 then b else if b.otherBad x.cmd then b.illegal e x else b.dropEntry x.id

end Sys2Proof.Machine
end

