-- ==== Sys2Proof/Machine/Legs.lean ====
section
/-!
DEFINITION. A block's leg endpoints, its inbound holding buffer, its router and its scrub engine, as functions of one
block (05_scratchpad_bank_alus.md R138, R139, R159, R160; 08_fabric_route_plans.md R219, R224 to R231, R236, R237;
09_stations_traverses.md R259 to R267; 10_stakes.md R288 to R290, R298; 18_faults_repair.md R483, R485).
-/
namespace Sys2Proof.Machine

/-! ## Headers and words -/

/-- The 128 bits of a tile header (Table 9-1), or of a drive word's header (Table 10-3). -/
def Hdr.bits (h : Hdr) : Nat :=
  h.fmt % 16 + (if h.void then 2 ^ 4 else 0) + (if h.range then 2 ^ 5 else 0) + 2 ^ 6 * (h.cb % 32) +
    2 ^ 16 * (h.frame % 2 ^ 16) + 2 ^ 32 * (h.seq % 2 ^ 32) + 2 ^ 64 * (h.leg % 2 ^ 12) +
    2 ^ 76 * (h.parcel % 16) + 2 ^ 80 * (h.gen % 4) + 2 ^ 82 * (h.part % 128) + 2 ^ 96 * (h.inc % 2 ^ 16)

/-- The header that bits [127:0] of a mark word hold. -/
def Hdr.ofBits (d : Nat) : Hdr :=
  { fmt := d % 16, void := d.testBit 4, range := d.testBit 5, cb := d / 2 ^ 6 % 32, frame := d / 2 ^ 16 % 2 ^ 16
    seq := d / 2 ^ 32 % 2 ^ 32, leg := d / 2 ^ 64 % 2 ^ 12, parcel := d / 2 ^ 76 % 16, gen := d / 2 ^ 80 % 4
    part := d / 2 ^ 82 % 128, inc := d / 2 ^ 96 % 2 ^ 16 }

/-- Even parity of 128 data bits (Table 8-1, PAR). -/
def parity128 (d : Nat) : Bool := (List.range 128).foldl (fun p i => p != d.testBit i) false

/-- PAR of 1,024 data bits. -/
def parOf (d : Nat) : Nat :=
  (List.range 8).foldl (fun p q => if parity128 (d / 2 ^ (128 * q)) then p + 2 ^ q else p) 0

/-- A tenant or management word as its sender forms it. -/
def FWord.make (parcel gen : Nat) (last : Bool) (data : Nat) : FWord :=
  { v := true, parcel := parcel, gen := gen, last := last, eas := false, stamp := 0, par := parOf data, data := data }

/-- No word on a link: V = 0. -/
def noWord : Nat → FWord := fun _ =>
  { v := false, parcel := 0, gen := 0, last := false, eas := false, stamp := 0, par := 0, data := 0 }

/-- A count `v` of 32 bits extended to the value within −2³¹ … 2³¹ − 1 of `n` (R262). -/
def extCount (n v : Nat) : Int := (n : Int) + wordInt ((v + 2 ^ 32 - n % 2 ^ 32) % 2 ^ 32)

/-- Payload words of a tile (R259): TWORDS × w_FMT / w_DFMT, rounded up. -/
def payloadWords (tw fmt dfmt : Nat) : Nat := (tw * tagWidth fmt + tagWidth dfmt - 1) / tagWidth dfmt

/-! ## Endpoints -/

/-- A leg endpoint. -/
def Block.leg (b : Block) (k : Nat) : LegEnd := b.legs.get legZero k
/-- Change a leg endpoint. -/
def Block.setLeg (b : Block) (k : Nat) (l : LegEnd) : Block := { b with legs := b.legs.put legZero k l }
/-- Is the endpoint in use as an inbound one? -/
def Block.legIn (b : Block) (k : Nat) : Bool := b.bit LEP_A0_EN k && !b.bit LEP_A0_DIR k
/-- Is the endpoint in use as an outbound one? -/
def Block.legOut (b : Block) (k : Nat) : Bool := b.bit LEP_A0_EN k && b.bit LEP_A0_DIR k
/-- The part stride S (R266). -/
def Block.partStride (b : Block) (k : Nat) : Nat := if b.bit LEP_A0_WID k then 4096 else 128 * b.rd LEP_A1_TWORDS k

/-- The endpoint's own header fields (R263 step 1). -/
def Block.ownHdr (e : Env) (b : Block) (k : Nat) (h : Hdr) : Hdr :=
  { h with leg := b.rd LEP_A0_LEG k, parcel := b.rd RT_CTL_PARCEL, gen := e.gen }

/-- A leg fault (R264). -/
def Block.legFault (e : Env) (b : Block) (k cls sub leg seq : Nat) : Block :=
  let b := ((b.wr LEG_FAULT_LEP k).wr LEG_FAULT_SUBTYPE sub).inc LEG_FCNT_COUNT LEG_FCNT_SAT
  let b := b.count e 0x034 (some e.parcel)
  b.raise e { cls := cls, subtype := sub, level := 1, object := k + 2 ^ 16 * leg + 2 ^ 32 * (seq % 2 ^ 32), objkind := 3 }

/-- The slot of delivery `q`: the fill position advanced by q − F (R263). -/
def Block.dlvSlot (b : Block) (k q : Nat) : Nat :=
  let r := b.rd LEP_A0_RING k
  (b.fillPos r + (q - (b.leg k).fullTo)) % b.ringSlots r

/-- May words of delivery `q` be written now: has the fill position a drained slot for it (R138)? -/
def Block.dlvFree (b : Block) (k q : Nat) : Bool :=
  let r := b.rd LEP_A0_RING k
  decide (q - (b.leg k).fullTo < b.ringSlots r) && !b.slotFull r (b.dlvSlot k q)

/-! ## The holding buffer (R138, R139) -/

/-- The words that wait behind a stalled drive word are held words (R298): drop those of the endpoints `p`; the drive word itself
stays. -/
def Block.dropBehind (b : Block) (p : Nat → Bool) : Block :=
  { b with router := { b.router with dlv := (b.router.dlv.foldl (fun (a : List (Nat × FWord)) w =>
      if p w.1 && (b.legs.get legZero w.1).stalled && a.any (fun x => x.1 == w.1) then a else a ++ [w]) []) } }

/-- Discard every held word (R139). -/
def Block.dropHeld (b : Block) : Block := { b.dropBehind (fun _ => true) with held := [] }

/-- `c` cycles have passed at the tick or at beat 0, from which the next cycles are counted (R138, 10 R289). -/
def Block.rebase (c : Nat) (b : Block) : Block :=
  { b with held := b.held.map (fun h => { h with since := h.since - c })
           legs := b.legs.map (fun x => (x.1, { x.2 with drives := x.2.drives.map (fun d => { d with since := d.since - c }) })) }

/-- A breach of the holding buffer (R139). -/
def Block.holdBreach (e : Env) (b : Block) (sub r s : Nat) : Block :=
  ((b.set1 SP_STAT_HBREACH).spBreach e sub r s true).dropHeld

/-- Raise PEAK to the occupancy. -/
def Block.peak (b : Block) : Block :=
  if b.rd SP_HOLD_PEAK < b.holdOcc then b.wr SP_HOLD_PEAK b.holdOcc else b

/-- Hold a word; 128 entries are the buffer (R138). R138 says that a word which must be held when all entries are occupied breaches at
once, and that a hold caused only by a lost port never causes a breach; for a word that only lost its port and finds the buffer
full it leaves open which prevails: the model breaches, since the word has no place (DESIGN CHOICE, log 54). -/
def Block.hold (e : Env) (b : Block) (h : Held) : Block :=
  if 128 < b.holdOcc + 4 then b.holdBreach e 0x11 h.ring h.slot
  else ({ b with held := b.held ++ [h] }.peak).count e 0x022 (some e.parcel)

/-- Write a payload word of 128 B into its slot; a granule that is not on breaches (R161). -/
def Block.writeWord (e : Env) (b : Block) (r s off data : Nat) : Block :=
  b.portWrite e r s (b.slotAddr r s + off) (leBytes 128 data)

/-- A payload word for delivery `q` at slot offset `off`: written, or held when its slot is not free, when an earlier
word for that slot is still held, or when it lost the write port (R138). -/
def Block.inWord (e : Env) (b : Block) (k q off data : Nat) (lost : Bool) : Block :=
  let r := b.rd LEP_A0_RING k
  let s := b.dlvSlot k q
  if b.slotSize r < off + 128 then b
  else if b.dlvFree k q && !lost && !b.held.any (fun h => h.ring == r && h.slot == s) then b.writeWord e r s off data
  else b.hold e { ep := k, ring := r, slot := s, off := off, data := data, dlv := q, lost := lost, since := e.cyc }

/-- May the held entry be written: its slot is free, and no earlier entry is held for that slot? -/
def Block.heldReady (b : Block) (i : Nat) (h : Held) : Bool :=
  b.dlvFree h.ep h.dlv && !(b.held.take i).any (fun x => x.ring == h.ring && x.slot == h.slot)

/-- HELD_WORD_WRITE: the first held word that may be written, in arrival order (R138). -/
def Block.heldWrite (e : Env) (b : Block) : Block :=
  match (b.held.zipIdx.filter (fun x => !x.1.isVoid && b.heldReady x.2 x.1)) with
  | [] => b
  | (h, i) :: _ => { b.writeWord e h.ring h.slot h.off h.data with held := b.held.eraseIdx i }

/-- HOLD_WINDOW_EXPIRY: a slot on which words are held has stayed full for more than HWIN cycles after the first of them
entered (R138). -/
def Block.holdExpiry (e : Env) (b : Block) : Block :=
  match b.held.find? (fun h =>
    b.slotFull h.ring h.slot && b.rd SP_RING_CTL_HWIN h.ring != 0 &&
      decide (h.since + (b.rd SP_RING_CTL_HWIN h.ring : Int) < e.cyc)) with
  | none => b
  | some h => b.holdBreach e 0x10 h.ring h.slot

/-! ## Receiving (R263 to R267) -/

/-- The delivery `q` in assembly, or a new one. -/
def LegEnd.dlv (l : LegEnd) (q : Nat) : Dlv := (l.asm.find? (fun d => d.seq == q)).getD { seq := q }

/-- Put back a delivery in assembly. -/
def LegEnd.setDlv (l : LegEnd) (d : Dlv) : LegEnd := { l with asm := d :: l.asm.filter (fun x => decide (x.seq ≠ d.seq)) }

/-- Delivery NSEQ leaves assembly, complete. -/
def LegEnd.finish (l : LegEnd) (d : Dlv) : LegEnd :=
  { l with asm := l.asm.filter (fun x => decide (x.seq ≠ d.seq)), complete := l.complete ++ [d], n64 := l.n64 + 1 }

/-- Deliveries whose every part has arrived complete in SEQ order. -/
def LegEnd.advance (npan : Nat) : Nat → LegEnd → LegEnd
  | 0, l => l
  | n + 1, l =>
    let d := l.dlv l.n64
    if d.done = npan + 1 then LegEnd.advance npan n (l.finish d) else l

/-- Delivery NSEQ completes void at once; the words of its open part are discarded. -/
def LegEnd.force (l : LegEnd) : LegEnd :=
  let d := { l.dlv l.n64 with void := true }
  let l := { l with part := l.part.map (fun (p : OpenPart) => if p.dlv = l.n64 then { p with drop := true } else p) }
  l.finish d

/-- `n` times `force`. -/
def LegEnd.forceN : Nat → LegEnd → LegEnd
  | 0, l => l
  | n + 1, l => LegEnd.forceN n l.force

/-- The sequence check of Table 9-7 until it passes: delivery NSEQ completes void, the deliveries behind it whose parts have all
arrived complete, and the check is repeated, at most `n` times. -/
def LegEnd.catchUp (npan q : Nat) : Nat → LegEnd → LegEnd
  | 0, l => l
  | n + 1, l => if q < l.n64 + 2 then l else LegEnd.catchUp npan q n ((l.force).advance npan 2)

/-- Let complete parts complete their deliveries. -/
def Block.legAdvance (b : Block) (k : Nat) : Block :=
  b.setLeg k ((b.leg k).advance (b.rd LEP_A1_NPAN k) 2)

/-- The open part ends: the payload check of Table 9-7, and the part has arrived. -/
def Block.closePart (e : Env) (b : Block) (k : Nat) : Block :=
  let l := b.leg k
  match l.part with
  | none => b
  | some p =>
    let l := { l with part := none }
    if p.drop then b.setLeg k l
    else
      let short := !p.hdr.void && p.got != p.want
      let d := l.dlv p.dlv
      let b := b.setLeg k (l.setDlv { d with void := d.void || short, done := d.done + 1 })
      let b := if short && !p.quiet then b.legFault e k 8 0x51 p.hdr.leg p.hdr.seq else b
      b.legAdvance k

/-- A part whose words are discarded until LAST. -/
def dropPart (h : Hdr) (q : Nat) (last : Bool) : Option OpenPart :=
  if last then none else some { hdr := h, dlv := q, want := 0, got := 0, drop := true }

/-- The format check of Table 9-7. -/
def Block.fmtOk (b : Block) (k : Nat) (h : Hdr) (d : Dlv) : Bool :=
  let df := b.rd LEP_A0_DFMT k
  (h.fmt == df || (b.bit LEP_A0_WID k && df == 0 && h.fmt == 2)) &&
    !(h.fmt == 0 && (match d.cb with | some c => c != h.cb | none => false))

/-- The part is accepted: it counts as arrived, and is open until its LAST word (R263, R266). -/
def Block.acceptPart (e : Env) (b : Block) (k q : Nat) (h : Hdr) (last quiet : Bool) : Block :=
  let l := b.leg k
  let d := l.dlv q
  let d := { d with arrived := h.part :: d.arrived, void := d.void || h.void, range := d.range || h.range
                    f8 := if h.fmt = 2 then h.part :: d.f8 else d.f8, frame := h.frame
                    cb := if h.fmt = 0 then some h.cb else d.cb, cb0 := some (d.cb0.getD h.cb) }
  let want := if h.void then 0 else payloadWords (b.rd LEP_A1_TWORDS k) h.fmt (b.rd LEP_A0_DFMT k)
  let p : OpenPart := { hdr := b.ownHdr e k h, dlv := q, want := want, got := 0, drop := false, quiet := quiet }
  let b := b.setLeg k { l.setDlv d with part := some p }
  if last then b.closePart e k else b

/-- A mark word that passed the sequence check, for delivery `q`: format and part checks. `quiet` says that the mark has
caused its leg fault already (R264). -/
def Block.markChecks (e : Env) (b : Block) (k q : Nat) (h : Hdr) (last quiet : Bool) : Block :=
  let l := b.leg k
  let d := l.dlv q
  let bad (sub : Nat) : Block :=
    let b := b.setLeg k { l.setDlv { d with void := true } with part := dropPart h q last }
    if quiet then b else b.legFault e k 2 sub h.leg h.seq
  if !b.fmtOk k h d then bad 0x52
  else if b.rd LEP_A1_NPAN k < h.part ∨ h.part ∈ d.arrived then bad 0x53
  else b.acceptPart e k q h last quiet

/-- TILE_RECEIVED: a mark word at inbound endpoint `k` (R263, R264, Table 9-7). -/
def Block.tileReceived (e : Env) (b : Block) (k : Nat) (h : Hdr) (last : Bool) : Block :=
  let b := b.closePart e k
  let l := b.leg k
  let qi := extCount l.n64 h.seq
  let q := qi.toNat
  if h.leg ≠ b.rd LEP_A0_LEG k then
    let b := if 0 ≤ qi ∧ (q = l.n64 ∨ q = l.n64 + 1) then
        let d := l.dlv q
        let fresh := decide (h.part ≤ b.rd LEP_A1_NPAN k) && !d.arrived.contains h.part
        let d := { d with void := true, arrived := if fresh then h.part :: d.arrived else d.arrived
                          done := if fresh then d.done + 1 else d.done }
        (b.setLeg k { l.setDlv d with part := dropPart h q last }).legAdvance k
      else b.setLeg k { l with part := dropPart h q last }
    b.legFault e k 2 0x54 h.leg h.seq
  else if qi < l.n64 then (b.setLeg k { l with part := dropPart h q last }).legFault e k 8 0x50 h.leg h.seq
  else if l.n64 + 2 ≤ q then
    let b := b.legFault e k 8 0x50 h.leg h.seq
    let b := b.setLeg k ((b.leg k).catchUp (b.rd LEP_A1_NPAN k) q (q - 1 - l.n64))
    b.markChecks e k q h last true
  else b.markChecks e k q h last false

/-- INBOUND_WORD: a payload word at inbound endpoint `k` (R263 steps 2 and 3); a word with no open part is discarded. -/
def Block.payloadIn (e : Env) (b : Block) (k data : Nat) (last lost : Bool) : Block :=
  let l := b.leg k
  match l.part with
  | none => b
  | some p =>
    let b := b.setLeg k { l with part := some { p with got := p.got + 1 } }
    let b := if p.drop || decide (p.want ≤ p.got) then b
      else b.inWord e k p.dlv (p.hdr.part * b.partStride k + 128 * p.got) data lost
    if last then b.closePart e k else b

/-- The header of a complete delivery's slot (R263). -/
def Block.dlvHdr (e : Env) (b : Block) (k : Nat) (d : Dlv) : Hdr :=
  b.ownHdr e k { fmt := if d.f8.isEmpty then b.rd LEP_A0_DFMT k else 2, void := d.void, range := d.range
                 cb := (d.cb.orElse (fun _ => d.cb0)).getD 0, frame := d.frame, seq := d.seq % 2 ^ 32 }

/-- DELIVERY_FULL: the oldest complete delivery's slot is marked full once all its words are written (R263). -/
def Block.deliveryFull (e : Env) (b : Block) (k : Nat) : Block :=
  let l := b.leg k
  match l.complete with
  | [] => b
  | d :: t =>
    if b.held.any (fun h => h.ep == k && h.dlv == d.seq && !h.isVoid) || !b.dlvFree k d.seq then b
    else
      let r := b.rd LEP_A0_RING k
      let s := b.dlvSlot k d.seq
      let g : TagEnt := { hdr := b.dlvHdr e k d, multi := b.rd LEP_A1_NPAN k != 0, wide := b.bit LEP_A0_WID k
                          pmap := d.f8.foldl (fun m p => m ||| 2 ^ p) 0 }
      let b : Block := { b with held := b.held.filter (fun h => !(h.ep == k && h.dlv == d.seq)) }
      let b := if d.zero then b.portWrite e r s (b.slotAddr r s) (List.replicate (b.slotSize r) 0) else b
      let b := (b.markFull e r s g).setLeg k { l with complete := t, fullTo := l.fullTo + 1 }
      if d.void then b.count e 0x033 (some e.parcel) else b

/-- `n` times DELIVERY_FULL. -/
def Block.deliverAll (e : Env) (k : Nat) : Nat → Block → Block
  | 0, b => b
  | n + 1, b => Block.deliverAll e k n (b.deliveryFull e k)

/-- The void tiles of one endpoint for an overrun in frame `n` (R54, R267); a tile whose words are still held is discarded and a
void tile takes its slot (R138, R139). An outbound endpoint's count passes the tiles of the
frame that it has not sent, so that it meets the planned numbering of R52 (DEDUCED, log 32). -/
def Block.legOverrunOne (e : Env) (n k : Nat) (b : Block) : Block :=
  if b.legOut k then
    let l := b.leg k
    let tpf := b.rd LEP_A1_TPF k
    b.setLeg k { l with n64 := max l.n64 (tpf * (n - l.start) + tpf) }
  else if !b.legIn k then b
  else
    let l := b.leg k
    let tpf := b.rd LEP_A1_TPF k
    let top := l.asm.foldl (fun m d => max m (d.seq + 1)) (tpf * (n - l.start) + tpf)
    let first := l.n64
    let b := b.setLeg k (l.forceN (top - l.n64))
    let l := b.leg k
    let b := b.setLeg k { l with complete := l.complete.map (fun (d : Dlv) =>
      if first ≤ d.seq ∨ b.held.any (fun h => h.ep == k && h.dlv == d.seq && !h.isVoid) then { d with void := true, zero := true }
      else d) }
    let b : Block := { b.dropBehind (fun j => j == k) with held := b.held.filter (fun h => h.ep != k || h.isVoid) }
    let b := Block.deliverAll e k (b.leg k).complete.length b
    (b.leg k).complete.foldl (fun b d =>
      if b.held.any (fun h => h.ep == k && h.dlv == d.seq) then b
      else b.hold e { ep := k, ring := b.rd LEP_A0_RING k, slot := b.dlvSlot k d.seq, off := 0, data := 0, dlv := d.seq
                      lost := false, since := e.cyc, isVoid := true }) b

/-- The void tiles of R267 at every endpoint of an overrun context. -/
def Block.legOverrun (e : Env) (b : Block) (n : Nat) : Block :=
  (List.range 64).foldl (fun b k => b.legOverrunOne e n k) b

/-! ## Drive words (R290) -/

/-- The stake identifier that inbound endpoint `k` drives (Table 10-9). -/
def Block.legStake (b : Block) (k : Nat) : Nat :=
  if k % 2 = 0 then b.rd LEP_STK_STK0 (k / 2) else b.rd LEP_STK_STK1 (k / 2)

/-- Add an increment to the total of its frame tag; the last two tags are kept (R296). -/
def addTotal (ts : List (Nat × Nat)) (tag inc : Nat) : List (Nat × Nat) :=
  match ts.find? (fun x => x.1 == tag) with
  | some x => (tag, x.2 + inc) :: (ts.filter (fun x => x.1 != tag)).take 1
  | none => (tag, inc) :: ts.take 1

/-- DRIVE_WORD_RECEIVED at an inbound endpoint (R290, Table 10-4, R298): `none` when the stake's queue is full, so that the
word waits. -/
def Block.driveWord (e : Env) (b : Block) (k : Nat) (h : Hdr) : Option Block :=
  let b := b.closePart e k
  if h.leg ≠ b.rd LEP_A0_LEG k then some (b.legFault e k 2 0x54 h.leg h.seq)
  else
    let l := b.leg k
    let qi := extCount l.dseq h.seq
    if qi < l.dseq then some (b.inc LEG_FCNT_COUNT LEG_FCNT_SAT)
    else
      let stk := b.legStake k
      let null := stk = 0xFFFF
      if ¬ null ∧ 14 ≤ b.driveq.length then none
      else
        let b := if (l.dseq : Int) < qi then
            (b.set1 STK_BSTAT_DSEQ).raise e
              { cls := 8, subtype := 0x67, level := 1, object := k + 2 ^ 16 * h.leg + 2 ^ 32 * h.seq, objkind := 3 }
          else b
        let b := b.setLeg k { l with dseq := qi.toNat + 1, totals := addTotal l.totals h.frame h.inc }
        if null then some b
        else
          let d : Drive := { stake := stk % 64, inc := h.inc, void := h.void, tag := h.frame
                             parcel := b.rd RT_CTL_PARCEL, gen := some e.gen, by_ := .endpoint e.blk k }
          some { b with driveq := b.driveq ++ [d] }

/-! ## Words from the router -/

/-- Take the first delivered word of endpoint `k` out of the router's deliveries. -/
def takeFirst (k : Nat) : List (Nat × FWord) → Option (FWord × List (Nat × FWord))
  | [] => none
  | (j, w) :: t => if j = k then some (w, t) else (takeFirst k t).map (fun x => (x.1, (j, w) :: x.2))

/-- Hand the first delivered word of endpoint `k` to `f`; nothing happens without one, at an endpoint that is not in use
inbound, or behind a stalled drive word. -/
def Block.withWord (b : Block) (k : Nat) (f : Block → FWord → Block) : Block :=
  if !b.legIn k || (b.leg k).stalled then b
  else
    match takeFirst k b.router.dlv with
    | none => b
    | some (w, t) => f { b with router := { b.router with dlv := t } } w

/-- TILE_RECEIVED. A word with FMT 0xF is a drive word (R288) and no mark. -/
def Block.tileWord (e : Env) (b : Block) (k : Nat) : Block :=
  b.withWord k (fun b' w => if w.data % 16 = 15 then b else b'.tileReceived e k (Hdr.ofBits w.data) w.last)

/-- INBOUND_WORD. -/
def Block.inboundWord (e : Env) (b : Block) (k : Nat) (lost : Bool) : Block :=
  b.withWord k (fun b' w => b'.payloadIn e k w.data w.last lost)

/-- DRIVE_WORD_RECEIVED: a drive word that finds its stake's queue full stalls its leg until it is received again with
room; the part that it finds open closes at once (R264). -/
def Block.driveIn (e : Env) (b : Block) (k : Nat) : Block :=
  let b := b.setLeg k { b.leg k with stalled := false }
  b.withWord k (fun b' w =>
    if w.data % 16 ≠ 15 then b
    else
      match b'.driveWord e k (Hdr.ofBits w.data) with
      | some b2 => b2
      | none =>
        let c := b.closePart e k
        (c.setLeg k { c.leg k with stalled := true }).peak)

/-! ## Sending (R259, R261, R288, R289) -/

/-- SEQ and PART of tile `c` (R261). -/
def Block.seqPart (b : Block) (k c : Nat) : Nat × Nat :=
  let p := b.rd LEP_B0_PPD k + 1
  ((b.rd LEP_B0_SQM k + 1) * (c / p) + b.rd LEP_B0_SQO k, b.rd LEP_B0_PBASE k + c % p)

/-- Planned payload slots of a tile: a leg planned for F8E4 has twice those of G4 (R120, R259). -/
def Block.planSlots (b : Block) (k : Nat) : Nat :=
  if b.bit LEP_A0_WID k && b.rd LEP_A0_DFMT k == 0 then 2 * b.rd LEP_A1_TWORDS k else b.rd LEP_A1_TWORDS k

/-- The tile's last word has been read: the count and the slot advance, and the drives behind it come nearer. -/
def Block.tileSent (e : Env) (b : Block) (k s : Nat) : Block :=
  let b := b.release e (b.rd LEP_A0_RING k) s (b.rd LEP_A0_CONS k)
  let l := b.leg k
  b.setLeg k { l with n64 := l.n64 + 1, drives := l.drives.map (fun d => { d with after := d.after - 1 }) }

/-- The slot that the endpoint reads: its own take position. -/
def Block.outSlot (b : Block) (k : Nat) : Nat := b.takePos (b.rd LEP_A0_RING k) (b.rd LEP_A0_CONS k)

/-- Is a tile ready for the endpoint? -/
def Block.outReady (b : Block) (k : Nat) : Bool :=
  let r := b.rd LEP_A0_RING k
  b.slotFull r (b.outSlot k) && !(b.tag r (b.outSlot k)).released (b.rd LEP_A0_CONS k)

/-- The drive word at the head of the endpoint's drives. -/
def Block.sendDrive (e : Env) (b : Block) (k : Nat) (d : LegDrive) (t : List LegDrive) : Block × Option FWord :=
  let l := b.leg k
  let h : Hdr := { fmt := 15, void := d.void, frame := d.tag, seq := l.dseq, leg := b.rd LEP_A0_LEG k
                   parcel := b.rd RT_CTL_PARCEL, gen := e.gen, inc := d.inc }
  (b.setLeg k { l with dseq := l.dseq + 1, drives := t }, some (FWord.make h.parcel e.gen true h.bits))

/-- The mark word of the tile at the endpoint's take position. `ahead` payload words are read before it leaves: an
uncorrectable one sets VOID (R259). -/
def Block.sendMark (e : Env) (b : Block) (k ahead : Nat) : Block × Option FWord :=
  let l := b.leg k
  let r := b.rd LEP_A0_RING k
  let s := b.outSlot k
  let t := (b.tag r s).hdr
  let a := b.slotAddr r s
  let tw := b.rd LEP_A1_TWORDS k
  let df := b.rd LEP_A0_DFMT k
  let n := min (128 * ahead) (tw * 128 * tagWidth t.fmt / tagWidth df)
  let er := if t.void ∨ n = 0 then (b, false) else b.portRead e r s a (a + n)
  let b := er.1
  let void := t.void || er.2
  let sp := b.seqPart k l.n64
  let h := b.ownHdr e k { t with void := void, frame := e.frame, seq := sp.1, part := sp.2, inc := 0 }
  let p := payloadWords tw t.fmt df
  let last := void || p == 0
  if last then
    let b := b.setLeg k { l with skip := b.planSlots k }
    (b.tileSent e k s, some (FWord.make h.parcel e.gen true h.bits))
  else (b.setLeg k { l with sent := some 0 }, some (FWord.make h.parcel e.gen false h.bits))

/-- Payload word `i` of the tile being sent; a word found uncorrectable is withheld (R259). -/
def Block.sendPayload (e : Env) (b : Block) (k i : Nat) : Block × Option FWord :=
  let l := b.leg k
  let r := b.rd LEP_A0_RING k
  let s := b.outSlot k
  let fmt := (b.tag r s).hdr.fmt
  let tw := b.rd LEP_A1_TWORDS k
  let df := b.rd LEP_A0_DFMT k
  let p := payloadWords tw fmt df
  let n := min 128 (tw * 128 * tagWidth fmt / tagWidth df - 128 * i)
  let a := b.slotAddr r s + 128 * i
  let er := b.portRead e r s a (a + n)
  let b := er.1
  let w := FWord.make (b.rd RT_CTL_PARCEL) e.gen (i + 1 == p) (leNat (b.spRead a n))
  let b := if i + 1 < p then b.setLeg k { l with sent := some (i + 1) }
    else (b.setLeg k { l with sent := none, skip := b.planSlots k - p }).tileSent e k s
  (b, if er.2 then none else some w)

/-- The next item of outbound endpoint `k` in one of its slots (R289): the tile being sent, the slots that it leaves
unused, a drive word, a mark word. The endpoint chooses the item 8 cycles before the slot: a drive that comes next and was not accepted
by then leaves the slot unused. -/
def Block.outWord (e : Env) (b : Block) (k ahead : Nat) : Block × Option FWord :=
  if !b.legOut k then (b, none)
  else
    let l := b.leg k
    let mark : Block × Option FWord := if b.outReady k then b.sendMark e k ahead else (b, none)
    match l.sent with
    | some i => b.sendPayload e k i
    | none =>
      if l.skip ≠ 0 then (b.setLeg k { l with skip := l.skip - 1 }, none)
      else
        match l.drives with
        | d :: t => if d.after ≠ 0 then mark else if d.since + 8 ≤ e.cyc then b.sendDrive e k d t else (b, none)
        | [] => mark

/-! ## The router (R217 to R231) -/

/-- Slot entry of pattern `pat` at beat cycle `c` (R225, Table 8-4). -/
def Block.slotEntry (b : Block) (pat c : Nat) : Word := b.router.pat.get wordZero (256 * pat + c)

/-- The outputs of an entry that name source code `src`: 0 to 3 north, south, east, west; 4 local. -/
def entryOuts (w : Word) (src : Nat) : List Nat :=
  (List.range 5).filter (fun o => bitsOf w (3 * o + 2) (3 * o) == src)

/-- Count a dropped word (R253). -/
def Block.countDrop (e : Env) (b : Block) : Block := (b.inc RT_DROPCNT_COUNT RT_DROPCNT_SAT).count e 0x032 none

/-- Drop a word, set a status bit and write a record. -/
def Block.dropWord (e : Env) (b : Block) (f : Field) (r : ErrRec) : Block := ((b.countDrop e).set1 f).raise e r

/-- A delivered word behind a stalled drive word takes an entry of the holding buffer (R298). -/
def Block.deliver (e : Env) (b : Block) (k : Nat) (w : FWord) : Block :=
  let b := b.count e 0x030 (some w.parcel)
  if e.fenced then b
  else if (b.leg k).stalled && decide (128 < b.holdOcc + 4) then
    b.holdBreach e 0x11 (b.rd LEP_A0_RING k) (b.fillPos (b.rd LEP_A0_RING k))
  else { b with router := { b.router with dlv := b.router.dlv ++ [(k, w)] } }.peak

/-- Does port `d` of block `blk` lead to a crossing or to the shore (Table 8-3)? -/
def crossing (blk d : Nat) : Bool :=
  let x := blk % 24
  let y := blk % 1152 / 24
  if d = 0 then y % 16 == 15 && y != 47 else if d = 1 then y % 16 == 0 && (y != 0 || decide (x < 12))
  else if d = 2 then x == 11 else d == 3 && x == 12

/-- Put a word on the link of port `d`: at a crossing launch STAMP is the sender's cycle count modulo 4, elsewhere 0 (Table 8-1). -/
def Block.sendOn (e : Env) (b : Block) (d : Nat) (w : FWord) (order : Nat) : Block :=
  { b with router := { b.router with
      out := b.router.out.put noWord d { w with stamp := if crossing e.blk d then e.cyc % 4 else 0 }
      order := b.router.order.put natZero d order } }

/-- Send a word to the outputs `outs` of an entry (R227). -/
def Block.route (e : Env) (b : Block) (w : FWord) (entry : Word) (outs : List Nat) : Block :=
  outs.foldl (fun b o => if o = 4 then b.deliver e (bitsOf entry 20 15) w else b.sendOn e o w 0) b

/-! ## Easements (R235 to R237) -/

/-- The direction of an easement cycle (Table 8-9), its place in a group of eight cycles: inward, outward, or neither. -/
def easeRole (c : Nat) : Option Bool :=
  if 2 ≤ c ∧ c ≤ 4 then some true else if c = 0 ∨ c = 1 ∨ c = 6 then some false else none

/-- The port of a block of region `n` that leads along its region row toward the region's edge and controller (R236). -/
def inward (n : Nat) : Nat := if n % 2 = 0 then 3 else 2

/-- The ports by which an easement word goes on from block `b` of region `n` (R236), which it entered by `src` (0 its own block, 1 to
4 the inputs): an inward word along the row to the edge; from the controller of a region with f ≥ 2 through the edge block of row 0
to the edge block of row 15 of region f − 2 and to its edge; from that of F1 along row 0 to F0. Outward words go the reverse ways, and
where the ways part they go by each. -/
def easeDirs (n b src : Nat) (inw : Bool) : List Nat :=
  let toward := inward n
  let away := 5 - toward
  let f := n % 6
  let col := if n % 2 = 0 then b % 12 else 11 - b % 12
  let row := b / 12
  if inw then
    if src = 0 ∨ src = away + 1 ∨ (src = 1 ∧ col = 0 ∧ row = 15 ∧ f < 4) then [toward]
    else if src = toward + 1 ∧ row = 0 ∧ f = 1 then [away]
    else if src = toward + 1 ∧ row = 0 ∧ col = 0 ∧ 2 ≤ f then [1]
    else []
  else
    if src = toward + 1 then
      (if col < 11 ∨ (row = 0 ∧ f = 0) then [away] else []) ++ (if col = 0 ∧ row = 15 ∧ f < 4 then [0] else [])
    else if (src = away + 1 ∧ row = 0 ∧ f = 1) ∨ (src = 2 ∧ col = 0 ∧ row = 0 ∧ 2 ≤ f) then [toward]
    else []

/-- An easement word of order `order` enters at input `src`: it is held until it goes on, at most two in each direction (R236). A
telemetry word that finds the buffer full is dropped and counted, any other waits where it is (R237); a word that goes no further ends
here. -/
def Block.easement (e : Env) (b : Block) (src : Nat) (w : FWord) (order : Nat) : Block :=
  let inw := decide (order < 4)
  let x : Eased := { order := order, dirs := easeDirs e.region (indexOf e.blk) src inw, w := w }
  if x.dirs.isEmpty then b
  else if !inw then
    if b.router.eout.length < 2 then { b with router := { b.router with eout := b.router.eout ++ [x] } } else b
  else if b.router.ein.length < 2 then { b with router := { b.router with ein := b.router.ein ++ [x] } }
  else if order = 3 then { b.countDrop e with tdrop := b.tdrop + 1 }
  else b

/-- Has the router no room for an easement word that may not be dropped (R237)? -/
def Block.easeWaits (e : Env) (b : Block) (src : Nat) (w : FWord) (order : Nat) : Bool :=
  w.v && w.par == parOf w.data && w.eas && w.parcel == 0 && !(easeDirs e.region (indexOf e.blk) src (decide (order < 4))).isEmpty &&
  (if order < 4 then decide (2 ≤ b.router.ein.length) && order != 3 else decide (2 ≤ b.router.eout.length))

/-- The word among `ws` that goes first in R237's order, and the others. -/
def firstEased (ws : List Eased) : Option (Eased × List Eased) :=
  match sortBy (fun (x : Eased) y => decide (x.order ≤ y.order)) ws with
  | [] => none
  | x :: t => some (x, t)

/-- An easement cycle at a router: one of the words held for the cycle's direction goes on, on every link of its way that is free
(R235 to R237). -/
def Block.easeSend (e : Env) (b : Block) : Block :=
  match easeRole (e.cyc % 8) with
  | none => b
  | some inw =>
    match firstEased (if inw then b.router.ein else b.router.eout) with
    | none => b
    | some (x, t) =>
      let left := x.dirs.filter (fun d => (b.router.out.get noWord d).v)
      let rest := if left.isEmpty then t else { x with dirs := left } :: t
      let b : Block := { b with router := if inw then { b.router with ein := rest } else { b.router with eout := rest } }
      (x.dirs.filter (fun d => !left.contains d)).foldl (fun (b : Block) d => b.sendOn e d x.w x.order) b

/-- Is the cycle one of the easement rule: the window of a beat, the boundary gap (R224), every cycle before a plat is active
(17 R456)? -/
def Env.easeCycle (e : Env) : Bool := e.gap || e.noPlat || decide (e.cyc % 256 < 8)

/-- WORD_ARRIVAL at input `src` (1 north, 2 south, 3 east, 4 west) in the entry of cycle `e.cyc` (R219, R227, R230, R231); `order` is
an easement word's order of R237, 4 for an outward word. -/
def Block.wordArrival (e : Env) (b : Block) (pat src : Nat) (w : FWord) (order : Nat) : Block :=
  let port := src - 1
  if !w.v then b
  else if w.par ≠ parOf w.data then b.dropWord e RT_STAT_PERR { cls := 8, subtype := 0x40, level := 1 }
  else if w.eas && w.parcel == 0 && e.easeCycle then b.easement e src w order
  else if w.eas && w.parcel != 0 || !w.eas && e.easeCycle then
    b.dropWord e RT_STAT_EASV { cls := 2, subtype := 0x45, level := 1, specific := w.parcel + 2 ^ 4 * port }
  else if w.parcel ≠ b.rd RT_CTL_PARCEL then
    b.dropWord e RT_STAT_PDROP { cls := 2, subtype := 0x44, level := 1, specific := w.parcel + 2 ^ 4 * port }
  else if w.parcel ≠ 0 ∧ w.gen ≠ e.gen then (b.countDrop e).set1 RT_STAT_GDROP
  else
    let entry := b.slotEntry pat (e.cyc % 256)
    let outs := entryOuts entry src
    if outs.isEmpty then b.dropWord e RT_STAT_LOST { cls := 2, subtype := 0x43, level := 1 }
    else b.route e w entry outs

/-- Payload slots of endpoint `k` in the eight cycles after `c` of the pattern: those words are read before a mark that
leaves in cycle `c` (R131, R259). -/
def Block.aheadOf (b : Block) (pat c k : Nat) : Nat :=
  ((List.range 8).filter (fun i =>
    let w := b.slotEntry pat (c + 1 + i)
    decide (c + 1 + i < 256) && bitsOf w 27 27 != 0 && bitsOf w 26 21 == k)).length

/-- WORD_ARRIVAL from the block's own interface: the planned slot of an outbound endpoint (R226, R227, R289). -/
def Block.wordLaunch (e : Env) (b : Block) (pat : Nat) : Block :=
  let entry := b.slotEntry pat (e.cyc % 256)
  if e.easeCycle || bitsOf entry 27 27 == 0 then b
  else
    let k := bitsOf entry 26 21
    let x := b.outWord e k (b.aheadOf pat (e.cyc % 256) k)
    match x.2 with
    | none => x.1
    | some w => (x.1.count e 0x031 (some w.parcel)).route e w entry (entryOuts entry 5)

/-! ## The stand-in (R485) -/

/-- The stand-in in a planned slot of endpoint `k` of a fenced block: the slots that a void tile leaves, the planned drive whose
tiles have gone, or the frame's next void tile. -/
def Block.standIn (e : Env) (b : Block) (k : Nat) : Block × Option FWord :=
  let l := b.leg k
  if !b.legOut k then (b, none)
  else if l.skip ≠ 0 then (b.setLeg k { l with skip := l.skip - 1 }, none)
  else
    let tile : Block × Option FWord :=
      let tpf := b.rd LEP_A1_TPF k
      let sp := b.seqPart k l.n64
      let h := b.ownHdr e k { fmt := b.rd LEP_A0_DFMT k, void := true, frame := e.frame, seq := sp.1, part := sp.2 }
      if l.n64 < tpf * (e.frame - l.start) + tpf then
        (b.setLeg k { l with n64 := l.n64 + 1, skip := b.planSlots k, drives := l.drives.map (fun d => { d with after := d.after - 1 }) },
          some (FWord.make h.parcel e.gen true h.bits))
      else (b, none)
    match l.drives with
    | d :: t => if d.after = 0 then b.sendDrive e k d t else tile
    | [] => tile

/-- A planned slot of a fenced block: the stand-in sends in it (R485). -/
def Block.standInLaunch (e : Env) (b : Block) (pat : Nat) : Block :=
  let entry := b.slotEntry pat (e.cyc % 256)
  if e.easeCycle || bitsOf entry 27 27 == 0 then b
  else
    let x := b.standIn e (bitsOf entry 26 21)
    match x.2 with
    | none => x.1
    | some w => (x.1.count e 0x031 (some w.parcel)).route e w entry (entryOuts entry 5)

/-- The tile-filling commands of a declared schedule before a drive to endpoint `k`, and the drive's increment. -/
def declDrives (ring k : Nat) : Nat → List Cmd → List (Nat × Nat)
  | _, [] => []
  | n, c :: t =>
    if c.opc = 6 ∧ c.stake = 2 ^ 15 + k then (n, c.inc) :: declDrives ring k n t
    else if (c.opc = 1 ∧ c.ringDM = ring) ∨ (c.opc = 2 ∧ c.ringDB = ring) then declDrives ring k (n + 1) t
    else declDrives ring k n t

/-- The drives that the stand-in of endpoint `k` owes in frame `f` under the commands `cs` that the plat declares (R314, R485). -/
def Block.standInDrives (f : Nat) (cs : List Cmd) (k : Nat) (b : Block) : Block :=
  if !b.legOut k then b
  else
    let ds := (declDrives (b.rd LEP_A0_RING k) k 0 cs).map (fun x =>
      ({ inc := x.2, void := true, tag := f % 2 ^ 16, after := min x.1 (b.rd LEP_A1_TPF k) } : LegDrive))
    b.setLeg k { b.leg k with drives := ds, sent := none, skip := 0 }

/-- What the stand-in of endpoint `k` did not send by the tick that ends frame `f`: its counts go on as planned. Answers whether
anything was left. -/
def Block.standInEnd (f k : Nat) (b : Block) : Block × Bool :=
  let l := b.leg k
  let top := b.rd LEP_A1_TPF k * (f - l.start) + b.rd LEP_A1_TPF k
  if !b.legOut k || (decide (top ≤ l.n64) && l.drives.isEmpty) then (b, false)
  else (b.setLeg k { l with n64 := max l.n64 top, dseq := l.dseq + l.drives.length, drives := [] }, true)

/-! ## Scrub and granules (R159, R160) -/

/-- Does the scrubbed line lie in a granule that is on? -/
def Block.lineOn (b : Block) (l : Nat) : Bool := b.granule (l / 1024) == 0

/-- The next line from `l` whose granule is on, within the 8,192 lines. -/
def Block.nextLine (b : Block) : Nat → Nat → Option Nat
  | 0, _ => none
  | n + 1, l => if b.lineOn (l % 8192) then some (l % 8192) else Block.nextLine b n ((l % 8192 / 1024 + 1) * 1024)

/-- Errors appear in the scratchpad: each granule with its kind, 1 a single-bit error, 2 an uncorrectable one. The worse of the old
and the new one stands. Which granules fail and when is the environment's (DESIGN CHOICE, log 56). -/
def Block.upset (b : Block) (us : List (Nat × Nat)) : Block :=
  { b with ecc := us.foldl (fun m u =>
      if u.1 < 131072 then m.put natZero u.1 (max (m.get natZero u.1) (min u.2 2)) else m) b.ecc }

/-- SCRUB_SLOT: read, correct and rewrite one 256-B line, in ascending order, skipping granules that are not on; an
uncorrectable granule is left as it is (R157 to R159). -/
def Block.scrub (e : Env) (b : Block) (upsets : List (Nat × Nat)) : Block :=
  let b := b.upset upsets
  match b.nextLine 9 b.scrubPos with
  | none => b
  | some l =>
    let b := (b.eccRead e (256 * l) (256 * l + 256)).1
    { b with scrubPos := (l + 1) % 8192 }

/-- Granule states at the boundary gap (R160): each request takes effect, but only one granule leaves off, zeroed with
valid ECC; the contents of a granule that goes off are lost. Of several granules asked to leave off at one boundary the spec does
not say which goes first: the model takes the lowest-numbered (DESIGN CHOICE, log 55). -/
def Block.granules (b : Block) (next : Nat → Nat) : Block :=
  ((List.range 8).foldl (fun (x : Block × Bool) g =>
    let cur := x.1.granule g
    let want := next g
    if want = cur then x
    else if cur = 2 then
      if x.2 then x
      else
        let b := x.1.wr SP_PWR_CUR (x.1.rd SP_PWR_CUR - cur * 2 ^ (2 * g) + want * 2 ^ (2 * g))
        let m := b.spm.zeroRange (g * 262144) ((g + 1) * 262144)
        (({ b with spm := m }).eccClear (g * 262144) ((g + 1) * 262144), true)
    else (x.1.wr SP_PWR_CUR (x.1.rd SP_PWR_CUR - cur * 2 ^ (2 * g) + want * 2 ^ (2 * g)), x.2)) (b, false)).1

/-- The states that SP_PWR.REQ asks for. -/
def Block.granuleReq (b : Block) (g : Nat) : Nat := b.rd SP_PWR_REQ / 2 ^ (2 * g) % 4

end Sys2Proof.Machine
end

