-- ==== Sys2Proof/Machine/RegAccess.lean ====
section
/-!
DEFINITION. A write by access code (00_scope.md R6 to R9) over the register tables, with the range tests that leave a
field unchanged, the seal (R8) and the discard of RWS fields during a load (11_plat.md R316).
-/
namespace Sys2Proof.Machine

/-- The row's field holds the register at offset `o` of unit `u`. -/
def RegRow.covers (r : RegRow) (u : RegUnit) (o : Nat) : Bool :=
  r.field.unit == u && decide (r.field.off ≤ o) &&
  (let k := o - r.field.off
   if r.field.str = 0 then k == 0
   else if r.field.str2 = 0 then k % r.field.str == 0 && decide (k / r.field.str < r.count)
   else decide (k / r.field.str < r.count) && k % r.field.str % r.field.str2 == 0 &&
     decide (k % r.field.str / r.field.str2 < r.count2))

/-- The rows of the register at offset `o`. -/
def rowsAt (u : RegUnit) (o : Nat) : List RegRow := regRows.filter (fun r => r.covers u o)

/-- How many of the low `n` bits of `v` are set. -/
def bitsSet (v n : Nat) : Nat := ((List.range n).filter (fun i => v.testBit i)).length

/-- Is a binary32 pattern a NaN or below zero (04 R125: −0 is accepted)? -/
def thrBad (v : Nat) : Bool :=
  let w : Word := BitVec.ofNat 32 v
  (f32 w).isNan || FVal.lt (f32 w) (.fin false 0 0)

/-- The values outside a field's stated range: a write of one leaves the field unchanged. -/
def fieldBad (f : Field) (v : Nat) : Bool :=
  if f.unit = .region ∧ (f.off = 0x104 ∨ f.off = 0x108) then decide (14 ≤ v)
  else if f = BLK_ARR_MAP_XROW ∨ f = BLK_ARR_MAP_XCOL then decide (65 < v)
  else if f = BLK_CHK_TOL_TOL_EXP then decide (v < 4 ∨ 24 < v)
  else if f = BLK_MSE_THR_THR then thrBad v
  else if f = SP_RING_BASE_SSIZE then v == 0
  else if f = HBM_PATROL_HOURS then v == 0
  else if f = LANE_OCT_KIND then v == 3
  else if f = STK_CFG_TMO then v == 0
  else if f = SL_CTL_RETRY_MAX then v == 0
  else if f = CR_CTL_LOG2SLOTS then decide (v < 6 ∨ 16 < v)
  else if f = CC_CTL_LOG2ENT then decide (v < 6 ∨ 16 < v)
  else if f = FB_CTL_LOG2ENT then decide (v < 6 ∨ 20 < v)
  else if f = PWR_DOM_CTL_REQ then v == 0 || v == 3
  else if f = PWR_DOM_CTL_OFS then decide (4 < v)
  else if f = RGN_SUSP_CTL_MODE then v == 3
  else if f = RGN_SUSP_CTL_FAIL then decide (v < 2)
  else if f = RGN_SUSP_CTL_TLIM ∨ f = RGN_SUSP_CTL_CLRF then v == 0
  else if f = GRD_CTL_DELAY then decide (60 < v)
  else if f = GRD_UP_UP ∨ f = GRD_DN_DN then decide (v < 10 ∨ 100000 < v)
  else if f = THM_CTL_JT then decide (v < 85 ∨ 105 < v)
  else if f = AGE_THR_PS then decide (v < 8 ∨ 64 < v)
  else if f = ESC_CTL_LIMIT then v == 0
  else if f = ESC_CTL_WINDOW then decide (v < 10 ∨ 3600 < v)
  else false

/-- Write one field of a word by its access code. `rws` says that RWS fields may change. -/
def applyRow (rws : Bool) (r : RegRow) (new old : Word) : Word :=
  let v := r.field.of new
  match r.acc with
  | .rw => if fieldBad r.field v then old else putBits old r.field.hi r.field.lo v
  | .rws => if !rws || fieldBad r.field v then old else putBits old r.field.hi r.field.lo v
  | .w1c => old &&& ~~~(new &&& bitMask r.field.hi r.field.lo)
  | .w1s => old ||| (new &&& bitMask r.field.hi r.field.lo)
  | .ro => old
  | .wo => old

/-- A software write of the register at `o`: every field by its code; reserved bits and RO fields keep their value
(R6, R7). -/
def Regs.softWrite (r : Regs) (u : RegUnit) (rws : Bool) (o : Nat) (v : Word) : Regs :=
  r.setWord u o ((rowsAt u o).foldl (fun w row => applyRow rws row v w) (r.word u o))

/-- What software reads of the register at `o`: WO fields and reserved bits read zero (R6, R7). -/
def Regs.softRead (r : Regs) (u : RegUnit) (o : Nat) : Word :=
  (rowsAt u o).foldl (fun w row => if row.acc = .wo then w else w ||| (r.word u o &&& bitMask row.field.hi row.field.lo)) 0

/-- Has the register an RWS field? -/
def hasRws (u : RegUnit) (o : Nat) : Bool := (rowsAt u o).any (fun r => r.acc == .rws)

/-- Is the offset assigned (R567)? -/
def assigned (u : RegUnit) (o : Nat) : Bool := !(rowsAt u o).isEmpty

/-- Clear a saturating count's word on CLR (R476). -/
def Regs.clearCount (r : Regs) (fs : List Field) (i : Nat := 0) : Regs := fs.foldl (fun r f => r.wr f 0 i) r

end Sys2Proof.Machine
end

