-- ==== Sys2Proof/Machine/Ports.lean ====
section
/-!
DEFINITION. One sightline port (12_sightlines.md): its data, lane markers, shots and retry, states, datum, roles, joins.
Times are in sixteenths of a reference period, in the device's own time (R347).
-/
namespace Sys2Proof.Machine

/-- A sequenced shot in the send buffer (R340): message type (0 word, else CTYPE), sideband, whether it is the first word
of a tile, its SEQ once sent, how often and when it was last sent. -/
structure Sent where
  ctl : Nat
  last : Bool := false
  parcel : Nat := 0
  gen : Nat := 0
  first : Bool := false
  body : Nat
  seq : Option Nat := none
  sent : Nat := 0
  at_ : Nat := 0
deriving DecidableEq, Repr

/-- A shot as it arrives (Table 12-3). -/
structure Shot where
  kind : Nat
  last : Bool
  parcel : Nat
  gen : Nat
  nak : Bool
  seq : Nat
  ack : Nat
  body : Nat
  crc : Nat
deriving DecidableEq, Repr

/-- A datum (Table 12-6). -/
structure Datum where
  aligned : Bool
  role : Bool
  swapReq : Bool
  armed : Bool
  rxValid : Bool
  fwver : Nat
  serial : Nat
  frame : Nat
  len : Nat
  epochId : Nat
  tsend : Nat
  echo : Nat
  hold : Nat
  parcels : Nat
  offer : Nat
  joinf : Nat
  rxnext : Nat
  hash : Nat
  expect : Nat
  inhash : Nat
  cutf : Nat
deriving DecidableEq, Repr

/-- One sightline port. `lastCount` are the lanes' last good marker counts; `rx` the control messages accepted and not
yet acted on, with their arrival times; `rxw` the words accepted and not yet landed; `lastRx` TSEND and arrival of the last datum; `mySwap` and `peerSwap` the last
datum's frame and SWAPREQ of each side; `nextRole` the role from the next boundary; `dataHeld` that tile data waits for
the next boundary (R352); `resume` that the partner's RXNEXT is awaited (R346); `peer` the last datum in force for F;
`heldDatum` what R351 holds; `resetting` that a RESET completes; `slhold` the hold of 20 R533; `tx58` and `rx58` the states of the scrambler and of the descrambler,
`line` the scrambled bytes of the shots last sent (R337). `recs` and `evs` are
handed to the hub and empty between steps. -/
structure Port where
  regs : Regs := []
  lastCount : List (Option Nat) := []
  buf : List Sent := []
  nextSeq : Nat := 0
  expSeq : Option Nat := none
  nak : Bool := false
  replay : Option (Nat × Nat) := none
  drops : List Nat := []
  ovfRec : Bool := false
  rx : List (Nat × Nat) := []
  rxw : List FWord := []
  lastRx : Option (Nat × Nat) := none
  disRec : Option Nat := none
  roleSet : Bool := false
  swap : Bool := false
  mySwap : Option (Nat × Bool) := none
  peerSwap : Option (Nat × Bool) := none
  nextRole : Option Bool := none
  joinf : Nat := 0
  peerJoinf : Nat := 0
  dataHeld : Bool := false
  resume : Bool := false
  peerArm : Option (Nat × Nat) := none
  heldDatum : List (Datum × Nat) := []
  resetting : Bool := false
  slhold : Bool := false
  tx58 : Nat := 0
  rx58 : Nat := 0
  line : List Byte := []
  recs : List ErrRec := []
  evs : List (Nat × Option Nat × Nat) := []
deriving DecidableEq, Repr

/-- A port at reset. -/
def portZero : Nat → Port := fun _ => {}

/-- What a received datum is judged against (Table 12-7): hash, expected hash, parcels, frame length, declared offset. -/
structure PRef where
  hash : Nat
  expect : Nat
  mask : Nat
  len : Nat
  decl : Int
deriving DecidableEq, Repr

/-- What a port's step reads of the rest of the device: `t` is the time since power, `dev` the device's own time of R347 at `t`, `own` what
datums are judged against under the active plat, `later` the frame F and the same under the incoming plat once the switch flag is set (R351). -/
structure PEnv where
  port : Nat
  t : Nat
  dev : Nat
  frame : Nat
  own : PRef
  later : Option (Nat × PRef)
  fw : Nat
  serial : Nat
  aligned : Bool
  epochId : Nat
  roleReq : Nat
  active : Nat
  armed : Option Nat
  inhash : Nat
  external : Bool
  frozen : Bool
  inj : Bool
deriving DecidableEq, Repr

/-- Read a field. -/
def Port.rd (p : Port) (f : Field) : Nat := p.regs.rd f
/-- Read a one-bit field. -/
def Port.bit (p : Port) (f : Field) : Bool := p.regs.bit f
/-- The device's own update of a field. -/
def Port.wr (p : Port) (f : Field) (v : Nat) : Port := { p with regs := p.regs.wr f v }
/-- A saturating count. -/
def Port.inc (p : Port) (c sat : Field) (n : Nat := 1) : Port := { p with regs := p.regs.incSat c sat 0 n }
/-- State of the port (Table 12-4). -/
def Port.state (p : Port) : Nat := p.rd SL_STAT_STATE
/-- A sightline record (Table 12-15). -/
def Port.raise (e : PEnv) (p : Port) (r : ErrRec) : Port :=
  { p with recs := p.recs ++ [{ r with cls := 8, level := 4, frame := e.frame, region := 0x18, object := e.port, objkind := 7
                                       inj := r.inj || e.inj }] }
/-- Hand an event to the hub's counters (20 R524). -/
def Port.count (e : PEnv) (p : Port) (code n : Nat) : Port :=
  if e.frozen || n == 0 then p else { p with evs := p.evs ++ [(code + e.port, none, n)] }
/-- Count discarded words and messages. -/
def Port.discard (p : Port) (n : Nat := 1) : Port := p.inc SL_DISC_COUNT SL_DISC_SAT n

/-! ## The shot stream (R336, R337, R339) -/

/-- The first eight bytes of a shot (Table 12-3). -/
def Shot.word0 (s : Shot) : Nat :=
  s.kind % 4 + (if s.last then 2 ^ 2 else 0) + 2 ^ 3 * (s.parcel % 16) + 2 ^ 7 * (s.gen % 4) + (if s.nak then 2 ^ 9 else 0) +
    2 ^ 10 * (s.seq % 2 ^ 24) + 2 ^ 34 * (s.ack % 2 ^ 24)

/-- The 144 bytes of a shot. -/
def Shot.bytes (s : Shot) : List Byte := leBytes 8 s.word0 ++ leBytes 128 s.body ++ leBytes 8 s.crc

/-- The shot that the port sends for a buffered one: ACK is the SEQ that it expects next (R341). -/
def Port.shotOf (p : Port) (x : Sent) : Shot :=
  let s : Shot := { kind := if x.ctl = 0 then 1 else 2, last := x.last, parcel := x.parcel, gen := x.gen, nak := p.nak
                    seq := x.seq.getD 0, ack := p.expSeq.getD 0, body := x.body, crc := 0 }
  { s with crc := crcOf 3 (leBytes 8 s.word0 ++ leBytes 128 s.body) }

/-- Put shots on the stream, scrambled (R337). The idle shots that go between them are no commands: the scrambler's state stands over them
(DESIGN CHOICE, log 65). -/
def Port.stream (p : Port) (xs : List Sent) : Port :=
  if xs.isEmpty then p
  else
    let r := scrambleBytes scrambleBit p.tx58 (xs.flatMap (fun x => (p.shotOf x).bytes))
    { p with tx58 := r.2, line := r.1 }

/-- The descrambler takes the line bits of a shot, which are its bytes as the sender's scrambler leaves them (R337). -/
def Port.take58 (p : Port) (s : Shot) : Port := { p with rx58 := (scrambleBytes scrambleBit p.rx58 s.bytes).2 }

/-! ## Sending (R340, R342, R345, R346) -/

/-- May a shot of this kind pass in the port's state (Table 12-4)? A hold of R533 stops word shots only. -/
def Port.passes (p : Port) (x : Sent) : Bool :=
  match p.state with
  | 2 => x.ctl == 1
  | 3 => x.ctl == 1 || x.ctl == 3
  | 4 => x.ctl != 0 || (!p.slhold && !p.dataHeld)
  | _ => false

/-- Give SEQ to shots as they are first sent. -/
def assignSeq (t : Nat) : Nat → List Sent → List Sent × Nat
  | n, [] => ([], n)
  | n, x :: xs =>
    match x.seq with
    | some _ =>
      let r := assignSeq t n xs
      ({ x with sent := x.sent + 1, at_ := t } :: r.1, r.2)
    | none =>
      let r := assignSeq t ((n + 1) % 2 ^ 24) xs
      ({ x with seq := some n, sent := 1, at_ := t } :: r.1, r.2)

/-- Send what may pass: the sequenced shots that a resume sends again, in their order (R346); then, as they first go, datums, control
shots, and words in their order (R340, R365). -/
def Port.flush (e : PEnv) (p : Port) : Port :=
  let seqd := p.buf.filter (fun x => x.seq.isSome)
  let due (x : Sent) : Bool := x.sent == 0 && p.passes x
  let fresh := p.buf.filter (fun x => x.seq.isNone)
  let wait := fresh.filter (fun x => !p.passes x)
  let go := fresh.filter p.passes
  let go := go.filter (fun x => x.ctl == 1) ++ go.filter (fun x => decide (1 < x.ctl)) ++ go.filter (fun x => x.ctl == 0)
  let r := assignSeq e.t p.nextSeq go
  let old := seqd.map (fun x => if due x then { x with sent := 1, at_ := e.t } else x)
  let again := seqd.filter due
  (({ p with buf := old ++ r.1 ++ wait, nextSeq := r.2 } : Port).stream (again ++ r.1)).count e 0x100 (again.length + go.length)

/-- Queue a control shot; sixteen entries are theirs. -/
def Port.control (e : PEnv) (p : Port) (ctl body : Nat) : Port :=
  if 4096 ≤ p.buf.length then p else ({ p with buf := p.buf ++ [{ ctl := ctl, body := body }] } : Port).flush e

/-- SIGHTLINE_WORD_ENQUEUE: word `w` of leg `leg` from the region edge; `mark` says that it starts a tile (R340, R343,
R346). -/
def Port.enqueue (e : PEnv) (p : Port) (w : FWord) (leg : Nat) (mark : Bool) : Port :=
  let p := if mark then { p with drops := p.drops.filter (fun l => l != leg) } else p
  if p.state ≠ 4 ∨ ¬ (p.rd SL_JOIN_JOINED).testBit w.parcel then p.discard
  else if p.drops.contains leg then
    let p := p.discard
    if w.last then { p with drops := p.drops.filter (fun l => l != leg) } else p
  else if 4080 ≤ (p.buf.filter (fun x => x.ctl == 0)).length then
    let p := p.discard.wr SL_STAT_OVF 1
    let p := if p.ovfRec then p else { p.raise e { cls := 8, subtype := 0x82, level := 4 } with ovfRec := true }
    if w.last then p else { p with drops := leg :: p.drops }
  else
    ({ p with buf := p.buf ++ [{ ctl := 0, last := w.last, parcel := w.parcel, gen := w.gen, first := mark, body := w.data }] } :
      Port).flush e

/-- The distance of a SEQ ahead of another, mod 2^24. -/
def seqAhead (a b : Nat) : Nat := (a + 2 ^ 24 - b % 2 ^ 24) % 2 ^ 24

/-- Shots below `ack` leave the buffer (R340). -/
def Port.acked (p : Port) (ack : Nat) : Port :=
  { p with buf := p.buf.filter (fun x =>
      match x.seq with
      | some q => !(x.sent != 0 && decide (1 ≤ seqAhead ack q) && decide (seqAhead ack q ≤ 4096))
      | none => true) }

/-- The port leaves DATUM, HOLD or READY on a link loss (Table 12-5). -/
def Port.linkLoss (p : Port) : Port :=
  if 2 ≤ p.state then
    { (p.wr SL_STAT_DOWNEV 1).wr SL_STAT_STATE (if p.bit SL_CTL_NORETRAIN then 0 else 1) with
      heldDatum := [], roleSet := p.roleSet && !p.bit SL_CTL_NORETRAIN }
  else p

/-- Resend every buffered shot from `a`, in any state (R342): Table 12-4 lets no word shot pass in DATUM and HOLD, but a partner that
misses one takes no later shot, a datum neither, so the replay prevails (DEDUCED, log 84). The retry bound takes the port out of READY. -/
def Port.replayFrom (e : PEnv) (p : Port) (a : Nat) : Port :=
  let hit (x : Sent) : Bool := match x.seq with | some q => decide (seqAhead q a < 4096) | none => false
  if p.buf.any (fun x => hit x && decide (p.rd SL_CTL_RETRY_MAX < x.sent)) then
    (p.raise e { cls := 8, subtype := 0x81, level := 4 }).linkLoss
  else
    let n := (p.buf.filter hit).length
    let p := { p with buf := p.buf.map (fun x => if hit x then { x with sent := x.sent + 1, at_ := e.t } else x)
                      replay := some (a, e.t) }
    let p := p.stream (p.buf.filter hit)
    (p.inc SL_RETRY_COUNT SL_RETRY_SAT n).count e 0x120 n

/-- A shot with NAK = 1 and ACK = a (R342). -/
def Port.naked (e : PEnv) (p : Port) (a : Nat) : Port :=
  match p.replay with
  | some (a', t) => if a' = a ∧ e.t < t + 6400 then p else p.replayFrom e a
  | none => p.replayFrom e a

/-- REPLAY_TIMEOUT (R342): the oldest unacknowledged shot has waited 4 µs since it was last sent. -/
def Port.replayTimeout (e : PEnv) (p : Port) : Port :=
  match p.buf.find? (fun x => decide (x.sent ≠ 0)) with
  | some x => if x.at_ + 6400 ≤ e.t then p.replayFrom e (x.seq.getD 0) else p
  | none => p

/-! ## Receiving (R339, R341, R358) -/

/-- The shot's own CRC (R339). -/
def Shot.crcOk (s : Shot) : Bool := s.crc == crcOf 3 (leBytes 8 s.word0 ++ leBytes 128 s.body)

/-- An accepted sequenced shot: word shots go to landing, control shots wait for their event (R346, R358). -/
def Port.accept (e : PEnv) (p : Port) (s : Shot) : Port :=
  if s.kind = 1 then
    if p.state = 4 ∧ (p.rd SL_JOIN_JOINED).testBit s.parcel then
      { p with rxw := p.rxw ++ [FWord.make s.parcel s.gen s.last s.body] }
    else p.discard
  else if s.body % 2 ^ 16 = 1 ∨ s.body % 2 ^ 16 = 2 ∨ s.body % 2 ^ 16 = 3 then { p with rx := p.rx ++ [(s.body, e.dev)] }
  else p.discard

/-- SHOT_RECEIVED (R341, R342). -/
def Port.shotReceived (e : PEnv) (p : Port) (s : Shot) : Port :=
  let p := p.take58 s
  if p.state < 2 then p
  else if !s.crcOk then { p with nak := true }
  else
    let p := p.acked s.ack
    let p := if s.nak then p.naked e s.ack else p
    if s.kind ≠ 1 ∧ s.kind ≠ 2 then p
    else
      match p.expSeq with
      | none => ({ p with expSeq := some ((s.seq + 1) % 2 ^ 24), nak := false } : Port).accept e s
      | some n =>
        let d := seqAhead s.seq n
        if d = 0 then ({ p with expSeq := some ((n + 1) % 2 ^ 24), nak := false } : Port).accept e s
        else if d < 4096 then { p with nak := true }
        else if 2 ^ 24 - 4096 ≤ d then (p.inc SL_DUP_COUNT SL_DUP_SAT).count e 0x140 1
        else p

/-! ## Lanes (R336 to R338) -/

/-- Is a marker good on a lane, after count `prev` (R338, Table 12-2)? -/
def markerGood (lane : Nat) (prev : Option Nat) (m : List Byte) : Bool :=
  decide (m.length = 8) && decide (leNat (m.take 4) = 0xB4E21D4B) &&
  decide (leNat ((m.drop 4).take 1) % 16 = lane) && decide (leNat ((m.drop 5).take 1) = 0) &&
  (let c := crcOf 2 (m.take 6)
   decide (leNat ((m.drop 6).take 1) = c / 256) && decide (leNat ((m.drop 7).take 1) = c % 256)) &&
  (match prev with
   | some c => decide (leNat ((m.drop 4).take 1) / 16 = (c + 1) % 16)
   | none => true)

/-- Good markers one after the other. -/
def markersGood (lane : Nat) : Option Nat → List (List Byte) → Bool
  | _, [] => true
  | prev, m :: ms => markerGood lane prev m && markersGood lane (some (leNat ((m.drop 4).take 1) / 16)) ms

/-- The port's way out of SEARCH: aligned when all lanes are locked and their markers lie within 512 B (R338, R346,
R353). -/
def Port.align (e : PEnv) (p : Port) (skewOk : Bool) : Port :=
  if p.state = 1 ∧ p.rd SL_STAT_LOCK = 255 ∧ skewOk then
    let p := (p.wr SL_STAT_STATE 2)
    let p := if p.roleSet then p else p.wr SL_STAT_ROLE e.roleReq
    ({ p with resume := true } : Port).flush e
  else p

/-- A reset that has completed takes the port to SEARCH (Table 12-5). -/
def Port.resetDone (e : PEnv) (p : Port) : Port :=
  if p.resetting && e.external then { p.wr SL_STAT_STATE 1 with resetting := false } else p

/-- LANE_LOCK: four consecutive good markers on `lane` (R338). -/
def Port.laneLock (e : PEnv) (p : Port) (lane : Nat) (ms : List (List Byte)) (skewOk : Bool) : Port :=
  let p := p.resetDone e
  if lane < 8 ∧ p.state ≠ 0 ∧ ms.length = 4 ∧ markersGood lane none ms then
    let c := (ms.getLast?).map (fun m => leNat ((m.drop 4).take 1) / 16)
    let lasts := (List.range 8).map (fun i => if i = lane then c else p.lastCount.getD i none)
    ({ p.wr SL_STAT_LOCK (p.rd SL_STAT_LOCK ||| 2 ^ lane) with lastCount := lasts }).align e skewOk
  else p

/-- LANE_LOCK_LOST: four expected positions of a locked lane hold no good marker (R338, Table 12-5). Good markers in between are no
commands, so the count of the one before the first position is not held and COUNT is not tested here (DESIGN CHOICE, log 68). -/
def Port.laneLost (e : PEnv) (p : Port) (lane : Nat) (ms : List (List Byte)) : Port :=
  let m := p.rd SL_STAT_LOCK
  let good := ms.any (markerGood lane none)
  if lane < 8 ∧ m.testBit lane ∧ ms.length = 4 ∧ ¬ good then
    ((p.wr SL_STAT_LOCK (m - 2 ^ lane)).raise e { cls := 8, subtype := 0x80, level := 4, specific := lane }).linkLoss
  else p

/-- Light is gone from the port's octet: every lane loses lock (R335). -/
def Port.dark (e : PEnv) (p : Port) : Port :=
  if p.rd SL_STAT_LOCK = 0 then p
  else ((p.wr SL_STAT_LOCK 0).raise e { cls := 8, subtype := 0x80, level := 4 }).linkLoss

/-- SL_RESET (Table 12-5, R346, R365). -/
def Port.reset (p : Port) : Port :=
  { (p.wr SL_STAT_STATE 0).wr SL_JOIN_JOINED 0 with
    buf := [], nextSeq := 0, expSeq := none, nak := false, replay := none, drops := [], rx := [], rxw := [], roleSet := false
    heldDatum := [], resetting := true, joinf := 0, peerJoinf := 0, resume := false }

/-- Resume sending from the partner's RXNEXT (R346). -/
def Port.resumeAt (e : PEnv) (p : Port) (d : Datum) : Port :=
  let rest :=
    match p.buf.findIdx? (fun x => x.seq == some d.rxnext) with
    | some i => if d.rxValid then some (p.buf.drop i) else none
    | none => none
  let buf := rest.getD (p.buf.dropWhile (fun x => x.ctl == 0 && !x.first))
  ({ p with buf := buf.map (fun x => { x with sent := 0 }), resume := false, replay := none } : Port).flush e

/-! ## The datum (R347 to R353) -/

/-- Bits `[lo, lo + n)` of a body. -/
def field (body lo n : Nat) : Nat := body / 2 ^ lo % 2 ^ n

/-- A datum from its body (Table 12-6). -/
def Datum.ofBody (b : Nat) : Datum :=
  { aligned := field b 16 1 != 0, role := field b 17 1 != 0, swapReq := field b 18 1 != 0, armed := field b 19 1 != 0
    rxValid := field b 20 1 != 0, fwver := field b 32 32, serial := field b 64 64, frame := field b 128 48
    len := field b 192 32, epochId := field b 224 32, tsend := field b 256 64, echo := field b 320 64
    hold := field b 384 32, parcels := field b 416 16, offer := field b 432 16, joinf := field b 448 48
    rxnext := field b 512 24, hash := field b 576 128, expect := field b 704 128, inhash := field b 832 128
    cutf := field b 960 48 }

/-- The body of a datum. -/
def Datum.body (d : Datum) : Nat :=
  1 + (if d.aligned then 2 ^ 16 else 0) + (if d.role then 2 ^ 17 else 0) + (if d.swapReq then 2 ^ 18 else 0) +
    (if d.armed then 2 ^ 19 else 0) + (if d.rxValid then 2 ^ 20 else 0) + 2 ^ 32 * d.fwver + 2 ^ 64 * d.serial +
    2 ^ 128 * d.frame + 2 ^ 192 * d.len + 2 ^ 224 * d.epochId + 2 ^ 256 * d.tsend + 2 ^ 320 * d.echo + 2 ^ 384 * d.hold +
    2 ^ 416 * d.parcels + 2 ^ 432 * d.offer + 2 ^ 448 * d.joinf + 2 ^ 512 * d.rxnext + 2 ^ 576 * d.hash +
    2 ^ 704 * d.expect + 2 ^ 832 * d.inhash + 2 ^ 960 * d.cutf

/-- The parcels that the device offers on the port (R354). -/
def Port.offers (e : PEnv) (p : Port) : Nat :=
  if p.state = 4 then (e.own.mask &&& e.active) &&& (0xFFFF - p.rd SL_DETACH_DETACH) else 0

/-- The outcome of swap requests in datums of one frame (R353). -/
def Port.swapJudge (p : Port) (e : PEnv) (peer : Nat) : Port :=
  match p.mySwap, p.peerSwap with
  | some (n, a), some (m, b) =>
    if n ≠ m ∨ (!a && !b) then p
    else if a && b then { p with nextRole := some (decide (e.serial < peer)), swap := false }
    else { p with nextRole := some (!p.bit SL_STAT_ROLE), swap := false }
  | _, _ => p

/-- Send a datum (R348); a pending SWAPREQ goes with it, and the partner's datum of the same frame may have come first (R353). -/
def Port.sendDatum (e : PEnv) (p : Port) : Port :=
  if p.state < 2 then p
  else
    let d : Datum :=
      { aligned := e.aligned, role := p.bit SL_STAT_ROLE, swapReq := p.swap, armed := e.armed.isSome
        rxValid := p.expSeq.isSome, fwver := e.fw, serial := e.serial, frame := e.frame, len := e.own.len, epochId := e.epochId
        tsend := e.dev, echo := (p.lastRx.map (fun x => x.1)).getD 0
        hold := (p.lastRx.map (fun x => (e.dev + 2 ^ 64 - x.2) % 2 ^ 32)).getD 0, parcels := e.own.mask, offer := p.offers e
        joinf := p.joinf, rxnext := p.expSeq.getD 0, hash := e.own.hash, expect := e.own.expect
        inhash := if e.armed.isSome then e.inhash else 0, cutf := e.armed.getD 0 }
    (({ p with mySwap := some (e.frame, p.swap) } : Port).control e 1 d.body).swapJudge e (p.rd SL_PSER_LO_SER + 2 ^ 32 * p.rd SL_PSER_HI_SER)

/-- Two's complement difference of two 64-bit times. -/
def timeDiff (a b : Nat) : Int :=
  (BitVec.ofNat 64 (a + 2 ^ 64 - b % 2 ^ 64)).toInt

/-- What a datum is judged against (R351): the incoming plat's for a frame that runs under it. -/
def PEnv.refFor (e : PEnv) (d : Datum) : PRef :=
  match e.later with
  | some (f, r) => if f ≤ d.frame then r else e.own
  | none => e.own

/-- The checks of Table 12-7 that fail. -/
def Port.judge (e : PEnv) (p : Port) (d : Datum) : Nat :=
  let r := e.refFor d
  let ofs := (BitVec.ofNat 32 (p.rd SL_OFS_OFS)).toInt
  (if d.len ≠ r.len then 1 else 0) + (if d.fwver / 2 ^ 16 ≠ e.fw / 2 ^ 16 then 2 else 0) +
    (if d.hash ≠ r.expect ∨ d.expect ≠ r.hash then 4 else 0) +
    (if p.bit SL_STAT_LATOK && (!d.aligned || !e.aligned || decide (d.epochId ≠ e.epochId) ||
        decide (16 * p.rd SL_CTL_TOL < (ofs - r.decl).natAbs)) then 8 else 0) +
    (if d.parcels ≠ r.mask then 16 else 0)

/-- Act on a judged datum (Table 12-5, R352); a disagreement takes a pending JOINF away (R365). -/
def Port.judged (e : PEnv) (p : Port) (d : Datum) : Port :=
  let f := p.judge e d
  let p := p.wr SL_DIS_FAIL f
  if f = 0 then
    let p := { p with disRec := none }
    if p.state = 3 then ({ p.wr SL_STAT_STATE 4 with dataHeld := true }).flush e
    else if p.state = 2 && p.bit SL_STAT_LATOK then (p.wr SL_STAT_STATE 4).flush e
    else p
  else
    let p := if p.state = 2 ∨ p.state = 4 then p.wr SL_STAT_STATE 3 else p
    let p : Port := { p.wr SL_STAT_DISEV 1 with joinf := 0, peerJoinf := 0 }
    if p.disRec = some f then p
    else { p.raise e { cls := 8, subtype := 0x83, level := 4, specific := f } with disRec := some f }

/-- Measure λ and D (R349); half of an odd number of sixteenths is rounded down (DESIGN CHOICE, log 85). -/
def Port.measure (p : Port) (d : Datum) (t : Nat) : Port :=
  if d.echo = 0 then p
  else
    let l := (timeDiff t d.echo - d.hold) / 2
    let o := timeDiff t d.tsend - l
    ((p.wr SL_LAT_LAT l.toNat).wr SL_OFS_OFS (BitVec.ofInt 32 o).toNat).wr SL_STAT_LATOK 1

/-- Name or copy a join frame (R354). -/
def Port.nameJoin (e : PEnv) (p : Port) (d : Datum) : Port :=
  let p := { p with peerJoinf := d.joinf }
  let both := (p.offers e &&& d.offer) &&& (0xFFFF - p.rd SL_JOIN_JOINED)
  if p.bit SL_STAT_ROLE then
    if both ≠ 0 ∧ p.joinf = 0 ∧ p.state = 4 then { p with joinf := e.frame + 3 } else p
  else { p with joinf := d.joinf }

/-- The held datums are judged: at the decision point (R351), and once the device is no longer armed (DEDUCED, log 77). -/
def Port.judgeHeld (e : PEnv) (p : Port) : Port :=
  (p.heldDatum.map (fun x => x.1)).foldl (fun (p : Port) d => p.judged e d) { p with heldDatum := [] }

/-- DATUM_RECEIVED: the oldest accepted datum (R346, R349 to R354). -/
def Port.datumReceived (e : PEnv) (p : Port) : Port :=
  match p.rx with
  | (b, t) :: rest =>
    if b % 2 ^ 16 ≠ 1 then p
    else
      let d := Datum.ofBody b
      let p := { p with rx := rest }
      let p := p.measure d t
      let p := { p with lastRx := some (d.tsend, t), peerSwap := some (d.frame, d.swapReq)
                        peerArm := if d.armed then some (d.cutf, d.inhash) else none }
      let p := if p.roleSet then p
        else if d.role = p.bit SL_STAT_ROLE then
          { p.wr SL_STAT_ROLE (if e.serial < d.serial then 1 else 0) with roleSet := true }
        else { p with roleSet := true }
      let p := p.swapJudge e d.serial
      let p := (((p.wr SL_PSER_LO_SER (d.serial % 2 ^ 32)).wr SL_PSER_HI_SER (d.serial / 2 ^ 32)).wr SL_PFW_FW
        d.fwver).wr SL_JOIN_PEER d.offer
      let p := if p.resume then p.resumeAt e d else p
      let p := if e.armed.isNone then p.judgeHeld e else p
      let p := match e.armed with
        | some f => if f ≤ d.frame && e.later.isNone then { p with heldDatum := p.heldDatum ++ [(d, t)] } else p.judged e d
        | none => p.judged e d
      if p.disRec.isNone then p.nameJoin e d else p
  | [] => p

/-- Step 7 of a boundary gap: roles exchange (R353), parcels leave (R356) and join (R354), tile data resumes (R352).
Answers the parcels that join. -/
def Port.boundary (e : PEnv) (p : Port) : Port × Nat :=
  let p := match p.nextRole with
    | some r => { p.wr SL_STAT_ROLE (if r then 1 else 0) with nextRole := none }
    | none => p
  let p := p.resetDone e
  let p := if e.armed.isNone then p.judgeHeld e else p
  let p := { p with ovfRec := false, dataHeld := false }
  let both := p.offers e &&& p.rd SL_JOIN_PEER
  let p := p.wr SL_JOIN_JOINED (p.rd SL_JOIN_JOINED &&& both)
  let due := p.joinf ≠ 0 ∧ p.joinf ≤ e.frame
  let fresh := if p.joinf = e.frame ∧ p.peerJoinf = p.joinf ∧ p.disRec = none then both &&& (0xFFFF - p.rd SL_JOIN_JOINED) else 0
  let p := p.wr SL_JOIN_JOINED (p.rd SL_JOIN_JOINED ||| fresh)
  let p := if due then { p with joinf := 0, peerJoinf := 0 } else p
  (p.flush e, fresh)

/-- A void-context message: the parcel leaves at the next boundary, as the partner no longer offers it (R359). -/
def Port.peerLeaves (p : Port) (parcel : Nat) : Port :=
  p.wr SL_JOIN_PEER (setOff (p.rd SL_JOIN_PEER) parcel)
where
  /-- Clear a bit. -/
  setOff (m k : Nat) : Nat := if m.testBit k then m - 2 ^ k else m

/-- A frame-void notice or void-context body (Table 12-8): frame number `n`. -/
def noticeBody (ctype parcel gen n : Nat) : Nat := ctype + 2 ^ 16 * (parcel + 2 ^ 4 * gen) + 2 ^ 64 * (n % 2 ^ 48)

/-! ## Registers (R366) -/

/-- A write of SL_CTL: fields, SWAP (R353), RESET. -/
def Port.ctlWrite (p : Port) (v : Word) : Port :=
  let p := { p with regs := p.regs.softWrite .port true 0 v }
  let p := if SL_CTL_SWAP.on v then { p with swap := true } else p
  if SL_CTL_RESET.on v then p.reset else p

/-- A BAR0 write of the port register at `o`. -/
def Port.pageWrite (p : Port) (o : Nat) (v : Word) : Port :=
  if o = 0 then p.ctlWrite v
  else
    let p := if bitsOf v 31 31 = 0 then p
      else if o = 0x20 then { p with regs := p.regs.clearCount [SL_RETRY_COUNT, SL_RETRY_SAT] }
      else if o = 0x24 then { p with regs := p.regs.clearCount [SL_DUP_COUNT, SL_DUP_SAT] }
      else if o = 0x28 then { p with regs := p.regs.clearCount [SL_DISC_COUNT, SL_DISC_SAT] }
      else p
    { p with regs := p.regs.softWrite .port true o v }

end Sys2Proof.Machine
end

