-- ==== Sys2Proof/Machine/BlockPage.lean ====
section
/-!
DEFINITION. A block's register page (23_address_map.md Table 23-3): what a read of each register returns, and what a
write through BAR0 or the core's own page window does (04 R103, 05 R161, 06 R166, R181, R183, R186, 10 R302, 20 R527,
R540).
-/
namespace Sys2Proof.Machine

/-- BLK_ID (01_dies_fields_blocks.md R29, Table 1-8). -/
def blkId (blk pblk : Nat) : Word :=
  let lx := blk % 1152 % 24
  let ly := blk % 1152 / 24
  BitVec.ofNat 32 (lx + 2 ^ 5 * ly + 2 ^ 11 * (blk / 1152) + 2 ^ 13 * (pblk % 13) + 2 ^ 17 * pblk)

/-- SEQ_STAT from the queue (Table 6-12). -/
def Block.seqStat (b : Block) : Word :=
  match b.seq.q.find? (fun x => x.st == .waiting || x.waitsPlan) with
  | none => BitVec.ofNat 32 b.seq.q.length
  | some x =>
    let sight := x.cmd.opc == 7 && x.issued?.isSome
    BitVec.ofNat 32 (b.seq.q.length + 2 ^ 6 * x.cmd.opc + 2 ^ 10 + (if sight then 2 ^ 11 else 0))

/-- STK_RVIEW layout of a stake (Table 10-7). -/
def Stake.view (s : Stake) : Word :=
  BitVec.ofNat 32 (s.void % 16 + (if s.poison then 2 ^ 4 else 0) + (if s.ovf then 2 ^ 5 else 0) +
    2 ^ 6 * (s.streak % 256) + (if s.lagged then 2 ^ 14 else 0))

/-- A count as a 32-bit pattern. -/
def Stake.cntWord (s : Stake) : Word := BitVec.ofInt 32 s.cnt

/-- EVC_SEL as a word (Table 20-4). -/
def Evc.selWord (c : Evc) : Word :=
  BitVec.ofNat 32 (c.src + 2 ^ 10 * c.mode + 2 ^ 12 * c.parcel + (if c.pfilt then 2 ^ 16 else 0) +
    (if c.sat then 2 ^ 17 else 0))

/-- The registers of a counter group at offset 0 to 0xC (Table 20-5). -/
def Evc.readReg (c : Evc) (o : Nat) : Word :=
  match o with
  | 0 => c.selWord
  | 4 => BitVec.ofNat 32 c.cnt
  | 8 => BitVec.ofNat 32 c.hi
  | _ => 0

/-- A snapshot group at offset 0 or 4. -/
def Evc.readSnap (c : Evc) (o : Nat) : Word := BitVec.ofNat 32 (if o = 0 then c.snap else c.snapHi)

/-- Is an event code defined at a level: 0 block, 1 region, 2 hub (Table 20-1)? -/
def evcCodeOk (level code : Nat) : Bool :=
  code == 0 ||
  match level with
  | 0 => code == 1 || code == 2 || code == 3 || code == 4 || code == 5 || code == 6 ||
      (decide (0x10 ≤ code) && decide (code ≤ 0x16)) || (decide (0x20 ≤ code) && decide (code ≤ 0x23)) ||
      (decide (0x30 ≤ code) && decide (code ≤ 0x34)) || (decide (0x50 ≤ code) && decide (code ≤ 0x52))
  | 1 => code == 1 || (decide (0x40 ≤ code) && decide (code ≤ 0x46)) || (decide (0x50 ≤ code) && decide (code ≤ 0x52))
  | _ => (decide (0x60 ≤ code) && decide (code ≤ 0x65)) || (decide (0x100 ≤ code) && decide (code ≤ 0x117)) ||
      (decide (0x120 ≤ code) && decide (code ≤ 0x137)) || (decide (0x140 ≤ code) && decide (code ≤ 0x157))

/-- CLR of a counter (Table 20-4): count, snapshot and SAT. -/
def Evc.clear (c : Evc) : Evc := { c with cnt := 0, snap := 0, sat := false }

/-- A write of EVC_SEL: reserved codes and modes leave their field unchanged (R540); CLR acts. -/
def Evc.writeSel (level : Nat) (c : Evc) (v : Word) : Evc :=
  let code := bitsOf v 9 0
  let mode := bitsOf v 11 10
  let c := { c with src := if evcCodeOk level code then code else c.src
                    mode := if mode = 3 then c.mode else mode
                    parcel := bitsOf v 15 12, pfilt := bitsOf v 16 16 != 0 }
  if bitsOf v 31 31 ≠ 0 then c.clear else c

/-- A block counter. -/
def Block.evc (b : Block) (i : Nat) : Evc := b.evcs.get evcZero i

/-- What a read of the page's register at `o` returns; a read of a counter's LO register latches its HI (R527). -/
def Block.pageRead (e : Env) (b : Block) (o : Nat) : Block × Word :=
  if o = 0 then (b, blkId e.blk e.pblk)
  else if o = 0x100 then (b, b.seqStat)
  else if o = 0x124 then
    (b, putBits (b.regs.word .block o) 0 0 (if b.core.mode = .halted then 1 else 0))
  else if o = 0x128 then (b, b.core.pc &&& 0xFFFE)
  else if o = 0x12C then (b, putBits (b.regs.word .block o) 3 0 b.recq.length)
  else if o = 0x14C then (b, putBits (b.regs.word .block o) 0 0 (if b.chkBusy then 1 else 0))
  else if o = 0x184 then
    (b, putBits (putBits (b.regs.word .block o) 9 8 b.router.ein.length) 11 10 b.router.eout.length)
  else if o = 0x18C then (b, e.rtGen)
  else if o = 0x194 then (b, (b.stake (b.rd STK_LSEL_IDX)).cntWord)
  else if o = 0x198 then (b, (b.stake (b.rd STK_LSEL_IDX)).cfg)
  else if o = 0x19C then (b, (b.stake (b.rd STK_LSEL_IDX)).view)
  else if 0x1C0 ≤ o ∧ o < 0x200 then
    let i := (o - 0x1C0) / 16
    let c := b.evc i
    if (o - 0x1C0) % 16 = 4 then
      ({ b with evcs := b.evcs.put evcZero i { c with hi := c.cnt / 2 ^ 32 } }, c.readReg 4)
    else (b, c.readReg ((o - 0x1C0) % 16))
  else if 0x220 ≤ o ∧ o < 0x240 then
    let i := (o - 0x220) / 8
    let c := b.evc i
    if (o - 0x220) % 8 = 0 then
      ({ b with evcs := b.evcs.put evcZero i { c with snapHi := c.snap / 2 ^ 32 } }, c.readSnap 0)
    else (b, c.readSnap 4)
  else if o = 0x300 then (b, putBits (b.regs.word .block o) 2 2 (if b.holdOcc = 0 then 0 else 1))
  else if o = 0x310 then (b, putBits (b.regs.word .block o) 7 0 b.holdOcc)
  else if 0xE00 ≤ o ∧ o % 8 = 4 then (b, BitVec.ofNat 32 (b.legs.get legZero ((o - 0xE04) / 8)).n64)
  else if assigned .block o then (b, b.regs.word .block o)
  else (b, 0)

/-- Count a discarded access (R28). -/
def Block.discard (b : Block) : Block := { b with disc := b.disc + 1 }

/-- CB_LOAD (R103): test image IDX and set VALID, or set CBREF and leave VALID clear. IDX = 31 is refused. -/
def Block.cbLoad (b : Block) (i : Nat) : Block :=
  if i ≠ 31 ∧ gridValid (b.grid i) then b.setCbValid i true
  else (if i = 31 then b else b.setCbValid i false).set1 BLK_FMT_STAT_CBREF

/-- CB_DROP (R103): the VALID bit of IDX is cleared and the image kept. IDX = 31 is refused. -/
def Block.cbDrop (b : Block) (i : Nat) : Block :=
  if i = 31 then b.set1 BLK_FMT_STAT_CBREF else b.setCbValid i false

/-- A write of BLK_CB_CTL (R103): DROP first, then LOAD; discarded while a context is active on the block. -/
def Block.cbCtlWrite (e : Env) (b : Block) (v : Word) : Block :=
  if e.active then b.discard
  else
    let i := BLK_CB_CTL_IDX.of v
    let b := b.wr BLK_CB_CTL_IDX i
    let b := if BLK_CB_CTL_DROP.on v then b.cbDrop i else b
    if BLK_CB_CTL_LOAD.on v then b.cbLoad i else b

/-- A write into the image window (R103). -/
def Block.cbImgWrite (e : Env) (b : Block) (o : Nat) (v : Word) : Block :=
  if e.active || b.cbValid ((o - 0x400) / 16) then b.discard
  else { b with regs := b.regs.setWord .block o v }

/-- Initialise the check unit (R181). -/
def Block.chkInit (b : Block) : Block := b.setChk (b.rd CHK_CTL_POLY) (b.chk.init (b.rd CHK_CTL_POLY))

/-- A write of CHK_CTL (R181, R183): any write to POLY initialises the unit; discarded while the unit is busy. -/
def Block.chkCtlWrite (b : Block) (v : Word) : Block :=
  if b.chkBusy then b
  else b.setChk (CHK_CTL_POLY.of v) (b.chk.init (CHK_CTL_POLY.of v))

/-- A write of CHK_VAL_HI is kept for the seed (R183). -/
def Block.chkHiWrite (b : Block) (v : Word) : Block :=
  if b.chkBusy then b else { b with chk := { b.chk with hi := v } }

/-- A write of CHK_VAL_LO seeds the unit (R183). -/
def Block.chkSeed (b : Block) (v : Word) : Block :=
  if b.chkBusy then b
  else
    let p := b.rd CHK_CTL_POLY
    b.setChk p { reg := (crcPoly p).seed (v.toNat + 2 ^ 32 * b.chk.hi.toNat), hi := b.chk.hi }

/-- Does granule `g` hold a slot of a configured ring? -/
def Block.granUsed (b : Block) (g : Nat) : Bool :=
  (List.range 32).any (fun r =>
    b.ringOn r &&
      (let lo := b.slotAddr r 0
       let hi := lo + b.ringSlots r * b.slotSize r
       decide (lo < (g + 1) * 262144 ∧ g * 262144 < hi)))

/-- SP_PWR_WRITE (R160, R161, Table 5-21): per granule; 3 leaves the request; retain or off for a ring in use by an
active context is discarded and sets PWRREF. -/
def Block.spPwrWrite (e : Env) (b : Block) (v : Word) : Block :=
  (List.range 8).foldl (fun b g =>
    let q := bitsOf v (2 * g + 1) (2 * g)
    if q = 3 then b
    else if q ≠ 0 ∧ e.active ∧ b.granUsed g then b.set1 SP_STAT_PWRREF
    else { b with regs := b.regs.setWord .block 0x30C (putBits (b.regs.word .block 0x30C) (2 * g + 1) (2 * g) q) }) b

/-- The CLR bit of a saturating count of the page (R476); `none` where the register has none. -/
def Block.clrWrite (b : Block) (o : Nat) : Option Block :=
  match o with
  | 0x20C => some { b with regs := b.regs.clearCount [BLK_MX_TRANS_COUNT, BLK_MX_TRANS_SAT] }
  | 0x294 => some { b with regs := b.regs.clearCount [BLK_FMT_WIDEN_COUNT, BLK_FMT_WIDEN_SAT] }
  | 0x298 => some { b with regs := b.regs.clearCount [BLK_FMT_SATCNT_COUNT, BLK_FMT_SATCNT_SAT] }
  | 0x304 =>
    some { b with regs := b.regs.clearCount [SP_ECC_CNT_CE, SP_ECC_CNT_UE, SP_ECC_CNT_CESAT, SP_ECC_CNT_UESAT] }
  | 0x12C => some { b with regs := b.regs.clearCount [SC_REC_LOST, SC_REC_LSAT] }
  | 0x188 => some { b with regs := b.regs.clearCount [RT_DROPCNT_COUNT, RT_DROPCNT_SAT] }
  | 0x154 => some { b with regs := b.regs.clearCount [LEG_FCNT_COUNT, LEG_FCNT_SAT] }
  | 0x310 => some (b.wr SP_HOLD_PEAK b.holdOcc)
  | _ => none

/-- CORE_START (R186): a halted core begins at SC_PC. SC_PC and the core's pc are one storage: after a halt by a double fault or a
teardown, SC_PC reads the last pc and START goes on there until SC_PC is written. The spec does not say so (DESIGN CHOICE,
log 52). -/
def Block.coreStart (b : Block) : Block :=
  if b.core.mode = .halted then { b with core := { b.core with mode := .running } } else b

/-- A write of SC_PC while halted; otherwise discarded (Table 6-16). -/
def Block.scPcWrite (b : Block) (v : Word) : Block :=
  if b.core.mode = .halted then { b with core := { b.core with pc := v &&& 0xFFFE } } else b

/-- A write of SC_CTL: START, and DBLF by writing one (Table 6-15). -/
def Block.scCtlWrite (b : Block) (v : Word) : Block :=
  let b := if SC_CTL_DBLF.on v then b.wr SC_CTL_DBLF 0 else b
  if SC_CTL_START.on v then b.coreStart else b

/-- A write of STK_LCFG (Table 10-10): the selected stake's configuration, RWS. -/
def Block.lcfgWrite (e : Env) (b : Block) (v : Word) : Block :=
  if e.sealed || e.loading then b
  else
    let k := b.rd STK_LSEL_IDX
    let s := b.stake k
    let w := putBits (putBits (putBits s.cfg 6 0 v.toNat) 15 8 (if bitsOf v 15 8 = 0 then s.tmo else bitsOf v 15 8))
      31 16 (bitsOf v 31 16)
    b.setStake k { s with cfg := w }

/-- A BAR0 write of the page's register at `o` (R6, R8, R316, R567). -/
def Block.pageWrite (e : Env) (b : Block) (o : Nat) (v : Word) : Block :=
  if 0x1C0 ≤ o ∧ o < 0x200 ∧ (o - 0x1C0) % 16 = 0 then
    let i := (o - 0x1C0) / 16
    { b with evcs := b.evcs.upd evcZero i (fun c => c.writeSel 0 v) }
  else if 0x1C0 ≤ o ∧ o < 0x200 ∨ 0x220 ≤ o ∧ o < 0x240 then b
  else if !assigned .block o then b.discard
  else
    let b := if e.loading ∧ hasRws .block o then b.discard else b
    if o = 0x124 then (if e.active then b.discard else b.scCtlWrite v)
    else if o = 0x128 then (if e.active then b.discard else b.scPcWrite v)
    else if 0x400 ≤ o ∧ o < 0x600 then b.cbImgWrite e o v
    else if o = 0x284 then b.cbCtlWrite e v
    else if o = 0x140 then b.chkCtlWrite v
    else if o = 0x144 then b.chkSeed v
    else if o = 0x148 then b.chkHiWrite v
    else if o = 0x30C then b.spPwrWrite e v
    else if o = 0x198 then b.lcfgWrite e v
    else
      let b := if bitsOf v 31 31 ≠ 0 then (b.clrWrite o).getD b else b
      { b with regs := b.regs.softWrite .block (!e.sealed && !e.loading) o v }

end Sys2Proof.Machine
end

