-- ==== Sys2Proof/Machine/RegionOps.lean ====
section
/-!
DEFINITION. The operations of one region: its records and counts, store and stack reads, stream engines
(07_region_store_hbm.md R195 to R214, R575), store streams (08_fabric_route_plans.md R233, R234;
09_stations_traverses.md R269, R270, R574), landing (12_sightlines.md R360, R361), region stakes (10_stakes.md R282 to
R298).
-/
namespace Sys2Proof.Machine

/-- What a region's step reads of the rest of the device: cycle, frame, 1 ms sample, gap, identity, generations,
context numbers and activity by parcel, counters frozen, load in progress, sealed, a forced timeout (R535), the grade
(14 R395: 0 for SHD-S24-150, 1 for -120, 2 for -090), RES of the frame in force, CLK_CTL. -/
structure REnv where
  cyc : Nat
  frame : Nat
  ms : Nat
  gap : Bool
  region : Nat
  gens : List Nat
  ctxs : List Nat
  actives : List Bool
  clearing : Bool
  frozen : Bool
  loading : Bool
  sealed : Bool
  inj : Bool
  grade : Nat
  res : Nat
  ffm : Bool
  boosten : Bool
deriving DecidableEq, Repr

/-- Read a field of the region's registers. -/
def Region.rd (g : Region) (f : Field) (i j : Nat := 0) : Nat := g.regs.rd f i j
/-- Read a one-bit field. -/
def Region.bit (g : Region) (f : Field) (i j : Nat := 0) : Bool := g.regs.bit f i j
/-- The device's own update of a field. -/
def Region.wr (g : Region) (f : Field) (v : Nat) (i j : Nat := 0) : Region := { g with regs := g.regs.wr f v i j }
/-- Set a status bit. -/
def Region.set1 (g : Region) (f : Field) (i : Nat := 0) : Region := g.wr f 1 i
/-- A saturating count (R476). -/
def Region.inc (g : Region) (c sat : Field) (n : Nat := 1) : Region := { g with regs := g.regs.incSat c sat 0 n }
/-- Count a discarded access (R28). -/
def Region.discard (g : Region) : Region := { g with disc := g.disc + 1 }

/-- Count events at the region's counters and hand them to the hub's (R524). -/
def Region.count (e : REnv) (g : Region) (code : Nat) (p : Option Nat) (n : Nat := 1) : Region :=
  if e.frozen then g else { g with evcs := evcCount 16 g.evcs code p n, evs := g.evs ++ [(code, p, n)] }

/-! ## Records (18 R471, R474) -/

/-- The three ranks of R474. -/
def ErrRec.rank (r : ErrRec) : Nat := if r.fatal then 2 else if r.heavy then 1 else 0

/-- Queue a record at the region controller: 64 entries, the replacement rule with ranks (R474). -/
def Region.queue (g : Region) (r : ErrRec) : Region :=
  if g.recq.length < 64 then { g with recq := g.recq ++ [r] }
  else
    let g := g.inc RGN_ERRQ_LOST RGN_ERRQ_LSAT
    let low := g.recq.foldl (fun m x => min m x.rank) 2
    if low < r.rank then
      match replaceNewest (fun x => x.rank == low) r g.recq with
      | some q => { g with recq := q }
      | none => g
    else g

/-- A record of the region itself: controller, edge, stream engine, segment or lane port. -/
def Region.raise (e : REnv) (g : Region) (r : ErrRec) : Region :=
  let r : ErrRec := { r with
    level := 2, ctx := e.ctxs.getD r.parcel 0, frame := e.frame, beat := if e.gap then 0x7FFF else g.beat
    region := e.region, die := e.region / 6, inj := r.inj || e.inj, srcseq := g.srcseq % 2 ^ 32 }
  { g with srcseq := g.srcseq + 1 }.queue r

/-! ## Reads with their check bits -/

/-- One bad granule of the region store met by a read; a corrected one is rewritten in the next scrub cycle (R210). -/
def Region.rsOne (e : REnv) (g : Region) (gr st : Nat) : Region :=
  let g := (g.wr RS_ECC_ADDR_ADDR (16 * gr)).wr RS_ECC_ADDR_UE (if st = 1 then 0 else 1)
  if st = 1 then
    let g := (g.inc RS_ECC_CNT_CE RS_ECC_CNT_CESAT).set1 RS_STAT_CE
    let g : Region := { g with fixes := gr :: g.fixes.filter (fun x => x != gr) }
    g.raise e { cls := 7, subtype := 0x33, level := 2, address := 16 * gr }
  else
    ((g.inc RS_ECC_CNT_UE RS_ECC_CNT_UESAT).set1 RS_STAT_UE).raise e
      { cls := 7, subtype := 0x34, level := 2, address := 16 * gr }

/-- Read store bytes `[lo, hi)` for their ECC: was an uncorrectable granule met? -/
def Region.rsEcc (e : REnv) (g : Region) (lo hi : Nat) : Region × Bool :=
  (g.storeEcc.filter (fun x => decide (lo < 16 * x.1 + 16 ∧ 16 * x.1 < hi))).foldl
    (fun a x => (a.1.rsOne e x.1 x.2, a.2 || x.2 == 2)) (g, false)

/-- Write store bytes with valid check bits. -/
def Region.rsWrite (g : Region) (a : Nat) (bs : List Byte) : Region :=
  { g with store := g.store.wrN a bs
           storeEcc := g.storeEcc.filter (fun x => decide (a + bs.length ≤ 16 * x.1 ∨ 16 * x.1 + 16 ≤ a)) }

/-- Errors appear in the store: each 128-bit granule with its kind, 1 a single-bit error, 2 an uncorrectable one. The worse of the old
and the new one stands. Which granules fail and when is the environment's (DESIGN CHOICE, log 56). -/
def Region.upset (g : Region) (us : List (Nat × Nat)) : Region :=
  { g with storeEcc := us.foldl (fun m u =>
      if u.1 < 4194304 then m.put natZero u.1 (max (m.get natZero u.1) (min u.2 2)) else m) g.storeEcc }

/-- The bad words of 32 B among stack bytes `[lo, hi)`: 1 corrected, 2 uncorrectable, 3 poisoned. -/
def Region.stkBad (g : Region) (lo hi : Nat) : List (Nat × Nat) :=
  g.stackEcc.filter (fun x => decide (lo < 32 * x.1 + 32 ∧ 32 * x.1 < hi))

/-- Errors appear in the stack: each 32-B word with its kind, 1 correctable, 2 uncorrectable (DESIGN CHOICE, log 56). A poisoned word
stays poisoned. -/
def Region.stkUpset (g : Region) (us : List (Nat × Nat)) : Region :=
  { g with stackEcc := us.foldl (fun m u =>
      if u.1 < 1207959552 then m.put natZero u.1 (max (m.get natZero u.1) (min u.2 2)) else m) g.stackEcc }

/-- One bad stack word met by a read (R207, R208). `patrol` leaves poisoned words uncounted (R209). -/
def Region.stkOne (e : REnv) (patrol : Bool) (g : Region) (x : Nat × Nat) : Region :=
  if x.2 = 3 then (if patrol then g else g.inc HBM_POISON_COUNT HBM_POISON_SAT)
  else
    let a := 32 * x.1
    let g := ((g.wr HBM_ECC_ADDR_LO_ADDR (a % 2 ^ 32)).wr HBM_ECC_ADDR_HI_ADDR (a / 2 ^ 32)).wr HBM_ECC_ADDR_HI_UE
      (if x.2 = 1 then 0 else 1)
    let dev := e.region * 2 ^ 36 + a
    if x.2 = 1 then
      let g := (g.inc HBM_ECC_CNT_CE HBM_ECC_CNT_CESAT).set1 HBM_STAT_CE
      let g := { g with stackEcc := g.stackEcc.put natZero x.1 0 }
      (g.count e 0x046 none).raise e { cls := 7, subtype := 0x31, level := 2, address := dev }
    else
      ((g.inc HBM_ECC_CNT_UE HBM_ECC_CNT_UESAT).set1 HBM_STAT_UE).raise e
        { cls := 7, subtype := 0x32, level := 2, address := dev }

/-- Write stack bytes; `poison` writes the reserved check pattern (R208). -/
def Region.stkWrite (g : Region) (a : Nat) (bs : List Byte) (poison : Bool) : Region :=
  let clean := g.stackEcc.filter (fun x => decide (a + bs.length ≤ 32 * x.1 ∨ 32 * x.1 + 32 ≤ a))
  { g with stack := g.stack.wrN a bs
           stackEcc := if poison then
               (List.range (bs.length / 32)).foldl (fun m i => m.put natZero (a / 32 + i) 3) clean
             else clean }

/-! ## Region stakes (10 R282 to R298) -/

/-- A region stake. -/
def Region.stake (g : Region) (k : Nat) : Stake := g.stakes.get stakeZero k
/-- Change a region stake. -/
def Region.setStake (g : Region) (k : Nat) (s : Stake) : Region := { g with stakes := g.stakes.put stakeZero k s }

/-- Make a drive: it is queued in arrival order (R298). The null identifier drives nothing. -/
def Region.drive (e : REnv) (g : Region) (id inc : Nat) (void : Bool) (parcel : Nat) (by_ : Driver) : Region :=
  if id / 2 ^ 14 ≠ 1 then g
  else
    let d : Drive := { stake := id % 4096, inc := inc, void := void, tag := e.frame % 2 ^ 16, parcel := parcel
                       gen := some (e.gens.getD parcel 0), by_ := by_ }
    { g with driveq := g.driveq ++ [d] }

/-- Drives of one unit that are pending: made and not yet applied (R298). -/
def Region.pendingOf (g : Region) (p : Driver → Bool) : Nat := (g.driveq.filter (fun d => p d.by_)).length

/-- Is a gate on stake `id` of value `v` satisfied, and does it complete void (R282, R286, R293)? -/
def Region.gate (e : REnv) (g : Region) (id : Nat) (v : Int) : Option Bool :=
  let s := g.stake (id % 4096)
  if s.poison then some true else if v ≤ s.cnt then some (s.sightVoid e.frame) else none

/-! ## Stream engines -/

/-- Word `w` of stream descriptor `i` of engine `n` (R197). -/
def Region.sd (g : Region) (n i w : Nat) : Word := g.regs.word .region (0x20000 + 0x2000 * n + 32 * i + 4 * w)

/-- The transfers of a descriptor in a frame. -/
def Region.xcount (g : Region) (n i fr : Nat) : XCount :=
  (g.xcounts.find? (fun c => c.eng == n && c.desc == i && c.frame == fr)).getD
    { eng := n, desc := i, frame := fr, started := 0, done := 0 }

/-- Put back a descriptor's count. -/
def Region.setXcount (g : Region) (c : XCount) : Region :=
  { g with xcounts := c :: g.xcounts.filter (fun x => !(x.eng == c.eng && x.desc == c.desc && x.frame == c.frame)) }

/-- Is the transfer `x`? -/
def Xfer.isX (x : Xfer) (n i k fr : Nat) : Bool := x.eng == n && x.desc == i && x.k == k && x.frame == fr

/-- Change a transfer. -/
def Region.setXfer (g : Region) (y : Xfer) : Region :=
  { g with xfers := g.xfers.map (fun x => if x.isX y.eng y.desc y.k y.frame then y else x) }

/-- LEN of a descriptor. -/
def Region.sdLen (g : Region) (n i : Nat) : Nat := bitsOf (g.sd n i 0) 27 16
/-- OP of a descriptor. -/
def Region.sdOp (g : Region) (n i : Nat) : Nat := bitsOf (g.sd n i 0) 2 0
/-- The region's descriptors (256 × engine + index) that hold one: OP is not 0, so their first word differs from its reset value. -/
def Region.descs (g : Region) : List Nat :=
  if g.regs.any (fun x => decide (0x20000 ≤ x.1)) then (List.range 2048).filter (fun x => g.sdOp (x / 256) (x % 256) != 0) else []

/-- Is the transfer complete (R202)? -/
def Region.xDone (g : Region) (x : Xfer) : Bool :=
  if g.sdOp x.eng x.desc = 2 then decide (g.sdLen x.eng x.desc ≤ x.asked) else decide (g.sdLen x.eng x.desc ≤ x.landed)

/-- Note that a transfer or a tile of a parcel is void in this frame (02 R55). -/
def Region.noteVoid (g : Region) (p : Nat) (void : Bool) : Region := if void then { g with voids := p :: g.voids } else g

/-- Drive DONE for each complete transfer whose predecessors have driven theirs (R202). -/
def Region.driveDone (e : REnv) (n i fr : Nat) : Nat → Region → Region
  | 0, g => g
  | m + 1, g =>
    let c := g.xcount n i fr
    match g.xfers.find? (fun x => x.isX n i c.done fr) with
    | none => g
    | some x =>
      if x.started && g.xDone x && !x.dead then
        let g := { g with xfers := g.xfers.filter (fun y => !y.isX n i c.done fr) }
        let g := (g.setXcount { c with done := c.done + 1 }).noteVoid x.parcel (x.void || x.gvoid)
        let g := g.drive e (bitsOf (g.sd n i 4) 15 0) 1 (x.void || x.gvoid) x.parcel (.engine e.region n i)
        Region.driveDone e n i fr m g
      else g

/-- Do lines `[h, h + n)` of the stack lie in enabled windows of parcel `p` (R195)? -/
def Region.inWindow (g : Region) (p h n : Nat) : Bool :=
  (List.range n).all (fun j =>
    let mib := (h + j) / 4096
    (List.range 16).any (fun w =>
      g.bit MEM_WIN_B_EN w && g.rd MEM_WIN_B_PARCEL w == p && decide (g.rd MEM_WIN_A_BASE w ≤ mib) &&
        decide (mib ≤ g.rd MEM_WIN_A_LIMIT w)))

/-- Show which engine waits (STR_STAT.WAIT). -/
def Region.showWait (g : Region) : Region :=
  (List.range 8).foldl (fun g n =>
    g.wr STR_STAT_WAIT (if g.xfers.any (fun x => x.eng == n && !x.dead &&
      (!x.started || decide (x.asked < g.sdLen n x.desc))) then 1 else 0) n) g

/-- Show which parcels have entries or transfers (MEM_DRAIN, R213). -/
def Region.showPend (g : Region) : Region :=
  let live (p : Nat) : Bool := g.reqs.any (fun r => bitsOf (g.sd r.eng r.desc 0) 6 3 == p) ||
    g.xfers.any (fun x => x.parcel == p && !x.dead)
  g.wr MEM_DRAIN_PEND ((List.range 16).foldl (fun m p => if live p then m + 2 ^ p else m) 0)

/-- The same, once cancelled transfers that hold no entry are gone. -/
def Region.showDrain (g : Region) : Region :=
  Region.showPend { g with xfers := g.xfers.filter (fun x =>
    !x.dead || g.reqs.any (fun r => r.eng == x.eng && r.desc == x.desc && r.k == x.k && r.frame == x.frame)) }

/-- Start a transfer whose slot has come and whose gate is satisfied, void or not (R196, R199, R210). -/
def Region.startX (e : REnv) (g : Region) (x : Xfer) (gv : Bool) : Region :=
  let n := x.eng
  let i := x.desc
  let len := g.sdLen n i
  let hoff := bitsOf (g.sd n i 1) 27 0
  let op := g.sdOp n i
  let g := (g.wr STR_STAT_LAST i n).count e 0x045 (some x.parcel) ((e.cyc : Int) - x.since).toNat
  let end_ (g : Region) (y : Xfer) : Region := Region.driveDone e n i x.frame 1 (g.setXfer y)
  if op = 3 then
    let a := 256 * bitsOf (g.sd n i 6) 17 0 + 4 * x.k
    let r := g.rsEcc e a (a + 4)
    let g := r.1
    let h := hoff + leNat (g.store.rdN a 4)
    let y := { x with started := true, hline := h, void := true, asked := len, landed := len }
    if r.2 then end_ g y
    else if !g.inWindow x.parcel h len then
      let g := (g.set1 HBM_STAT_WINV).raise e
        { cls := 2, subtype := 0x30, level := 2, parcel := x.parcel, tag := bitsOf (g.sd n i 7) 15 0
          object := n + 2 ^ 8 * i, objkind := 4, address := e.region * 2 ^ 36 + 256 * h, teardown := true }
      end_ g y
    else g.setXfer { x with started := true, hline := h }
  else
    g.setXfer { x with started := true, hline := hoff + x.k * bitsOf (g.sd n i 2) 27 0, gvoid := gv && op == 2 }

/-- Try to start a waiting transfer: its gate, and fewer than four pending drives of its engine (R199, R298). A region that does
not issue starts none (R205). -/
def Region.tryStart (e : REnv) (g : Region) (x : Xfer) : Region :=
  let n := x.eng
  if g.stopped || decide (4 ≤ g.pendingOf (fun d => match d with | .engine _ m _ => m == n | _ => false)) then g
  else if bitsOf (g.sd n x.desc 0) 7 7 = 0 then g.startX e x false
  else
    match g.gate e (bitsOf (g.sd n x.desc 4) 31 16) ((g.sd n x.desc 5).toInt + x.k) with
    | none => g
    | some v => g.startX e x v

/-- Try every waiting transfer, oldest first. -/
def Region.tryAll (e : REnv) (g : Region) : Region :=
  (g.xfers.filter (fun x => !x.started && !x.dead)).foldl (fun g x => g.tryStart e x) g

/-- TRANSFER_START: a stream slot names engine `n` and descriptor `i` (R198, R199). -/
def Region.transferStart (e : REnv) (g : Region) (n i : Nat) : Region :=
  let w0 := g.sd n i 0
  let op := bitsOf w0 2 0
  if g.lost || g.stopped || op == 0 || decide (4 ≤ op) || g.drain.contains (bitsOf w0 6 3) then g
  else
    let fr := e.frame + bitsOf w0 12 12
    let c := g.xcount n i fr
    let x : Xfer := { eng := n, desc := i, k := c.started, frame := fr, parcel := bitsOf w0 6 3, hline := 0
                      started := false, since := e.cyc }
    let g := { g.setXcount { c with started := c.started + 1 } with xfers := g.xfers ++ [x] }
    (g.tryStart e x).showWait.showPend

/-- Entries that an engine holds (R201). -/
def Region.held (g : Region) (n : Nat) (write : Bool) : Nat :=
  (g.reqs.filter (fun r => r.eng == n && r.write == write)).length

/-- Show the entries in use (HBM_QOCC, STR_STAT). The management share's entries are held within one command only (R201; DESIGN CHOICE,
log 75). -/
def Region.showQ (g : Region) : Region :=
  let g := (List.range 8).foldl (fun g n => (g.wr STR_STAT_RD (g.held n false) n).wr STR_STAT_WR (g.held n true) n) g
  (g.wr HBM_QOCC_RD (g.reqs.filter (fun r => !r.write)).length).wr HBM_QOCC_WR (g.reqs.filter (fun r => r.write)).length

/-- First store byte of line `a` of a transfer (R198). -/
def Region.xStore (g : Region) (x : Xfer) (a : Nat) : Nat :=
  256 * (bitsOf (g.sd x.eng x.desc 3) 17 0 +
    x.k % (bitsOf (g.sd x.eng x.desc 0) 11 8 + 1) * g.sdLen x.eng x.desc + a)

/-- REQUEST_ACCEPTED: the next request of the oldest started transfer of a descriptor, when its share has room
(R200 to R203); one that finds none waits, and its cycles are counted when it is accepted (20 Table 20-1, code 0x045;
DEDUCED, log 79). -/
def Region.requestAccepted (e : REnv) (g : Region) (n i : Nat) : Region :=
  match g.xfers.find? (fun x => x.eng == n && x.desc == i && x.started && !x.dead && decide (x.asked < g.sdLen n i)) with
  | none => g
  | some x =>
    let write := g.sdOp n i == 2
    if g.lost || g.stopped then g
    else if (if write then 30 else 60) ≤ g.held n write then g.setXfer { x with wait := some (x.wait.getD e.cyc) }
    else
      let g := match x.wait with
        | some t => g.count e 0x045 (some x.parcel) ((e.cyc : Int) - t).toNat
        | none => g
      let x : Xfer := { x with wait := none }
      let h := x.hline + x.asked
      let m := min (min 8 (g.sdLen n i - x.asked)) (8 - h % 8)
      if write then
        let a := g.xStore x x.asked
        let r := g.rsEcc e a (a + 256 * m)
        let x := { x with gvoid := x.gvoid || r.2, asked := x.asked + m }
        let g := r.1.stkWrite (256 * h) (r.1.store.rdN a (256 * m)) x.gvoid
        let q : Req := { eng := n, desc := i, k := x.k, frame := x.frame, first := x.asked - m, n := m
                         write := true }
        let g := (({ g with reqs := g.reqs ++ [q] }.setXfer x).count e 0x043 (some x.parcel)).count e 0x041
          (some x.parcel) m
        (Region.driveDone e n i x.frame g.xfers.length g).showQ.showWait.showPend
      else
        let q : Req := { eng := n, desc := i, k := x.k, frame := x.frame, first := x.asked, n := m, write := false
                         data := g.stack.rdN (256 * h) (256 * m), bad := g.stkBad (256 * h) (256 * (h + m)) }
        ((({ g with reqs := g.reqs ++ [q] }.setXfer { x with asked := x.asked + m }).count e 0x042
          (some x.parcel)).showQ).showWait.showPend

/-- LINE_LANDED: the request of lines `first …` of transfer `k` completes (R201, R202, R207, R208, R510). The lines of a
cancelled or abandoned transfer are discarded (R211 to R213); none land while the region is stopped for a step (R205). -/
def Region.lineLanded (e : REnv) (g : Region) (n i k first : Nat) : Region :=
  match g.reqs.find? (fun r => r.eng == n && r.desc == i && r.k == k && r.first == first && (r.write || !g.stopped)) with
  | none => g
  | some r =>
    let g := r.bad.foldl (Region.stkOne e false) { g with reqs := g.reqs.erase r }
    match g.xfers.find? (fun x => x.isX n i k r.frame && x.started) with
    | none => g.showQ.showDrain
    | some x =>
      if r.write || x.dead || decide (g.sdLen n i ≤ x.landed) then g.showQ.showDrain
      else
        let g := (g.rsWrite (g.xStore x r.first) r.data).count e 0x044 (some x.parcel) r.n
        let g := g.count e 0x041 (some x.parcel) r.n
        let g := g.setXfer { x with landed := x.landed + r.n, void := x.void || r.bad.any (fun b => decide (2 ≤ b.2)) }
        (Region.driveDone e n i x.frame g.xfers.length g).showQ.showDrain

/-- REQUEST_ABANDON: the transfer drives DONE void, and lines that land later are discarded (R211). -/
def Region.requestAbandon (e : REnv) (g : Region) (n i k first : Nat) : Region :=
  match g.reqs.find? (fun r => r.eng == n && r.desc == i && r.k == k && r.first == first) with
  | none => g
  | some r =>
    let parcel := bitsOf (g.sd n i 0) 6 3
    let g := (g.set1 HBM_STAT_IFTMO).raise e
      { cls := 8, subtype := 0x35, level := 2, parcel := parcel, tag := bitsOf (g.sd n i 7) 15 0
        object := n + 2 ^ 8 * i, objkind := 4, inj := e.inj }
    let g : Region := if e.inj then g else { g with events := g.events ++ [{ kind := 3, unit := 0, stamp := e.frame }] }
    let g : Region := { g with reqs := g.reqs.erase r }
    match g.xfers.find? (fun x => x.isX n i k r.frame && x.started) with
    | none => g.showQ.showDrain
    | some x =>
      let len := g.sdLen n i
      let g := g.setXfer { x with void := true, asked := len, landed := len }
      (Region.driveDone e n i x.frame g.xfers.length g).showQ.showDrain

/-- The deadline of an overrun frame for the parcel's transfers of frame `fr` (R212, Table 7-6). -/
def Region.xOverrun (g : Region) (p fr : Nat) : Region :=
  let g : Region := { g with xfers := (g.xfers.filter (fun (x : Xfer) => !(x.parcel == p && x.frame == fr && !x.started))).map (fun (x : Xfer) =>
    if x.parcel = p ∧ x.frame = fr then { x with dead := true } else x) }
  g.showWait.showDrain

/-- A teardown cancels the parcel's transfers (R213). -/
def Region.xTeardown (g : Region) (p : Nat) : Region :=
  let g : Region := { g with xfers := (g.xfers.filter (fun (x : Xfer) => !(x.parcel == p && !x.started))).map (fun (x : Xfer) =>
    if x.parcel = p then { x with dead := true } else x) }
  g.showWait.showDrain

/-! ## Gates that time out (R294, R535) -/

/-- The record and status of a gate that times out. -/
def Region.stale (e : REnv) (g : Region) (id parcel waiter : Nat) : Region :=
  ((g.set1 STK_RSTAT_STALE).count e 0x052 (some parcel)).raise e
    { cls := 3, subtype := 0x60, level := 2, parcel := parcel, object := id, objkind := 1, specific := waiter }

/-- Is the time of a wait on stake `id` over, or forced? -/
def Region.timeUp (e : REnv) (g : Region) (id : Nat) (since : Int) (forced : Bool) : Bool :=
  let s := g.stake (id % 4096)
  forced || (s.tmode == 1 && decide (since + ((s.tmo * 256 : Nat) : Int) ≤ e.cyc))

/-- SIGHT_TIMEOUT of the gate of engine `n`, descriptor `i`: its oldest waiting transfer starts as if by a void drive. -/
def Region.xferTimeout (e : REnv) (g : Region) (n i : Nat) (forced : Bool) : Region :=
  match g.xfers.find? (fun x => x.eng == n && x.desc == i && !x.started && !x.dead) with
  | none => g
  | some x =>
    let id := bitsOf (g.sd n i 4) 31 16
    if bitsOf (g.sd n i 0) 7 7 ≠ 0 ∧ g.timeUp e id x.since forced then
      ((g.stale e id x.parcel (n + 2 ^ 8 * i)).startX e x true).showWait
    else g

/-! ## Store streams -/

/-- Word `w` of store stream `i` (Table 8-8). -/
def Region.ss (g : Region) (i w : Nat) : Word := g.regs.word .region (0x1000 + 16 * i + 4 * w)
/-- Running state of a store stream. -/
def Region.strm (g : Region) (i : Nat) : Strm := g.strms.get strmZero i
/-- Change a store stream. -/
def Region.setStrm (g : Region) (i : Nat) (s : Strm) : Region := { g with strms := g.strms.put strmZero i s }
/-- Owning parcel. -/
def Region.ssParcel (g : Region) (i : Nat) : Nat := bitsOf (g.ss i 0) 26 23
/-- Lines per tile. -/
def Region.ssLen (g : Region) (i : Nat) : Nat := bitsOf (g.ss i 1) 11 0
/-- Buffers. -/
def Region.ssBufs (g : Region) (i : Nat) : Nat := bitsOf (g.ss i 0) 21 18 + 1

/-- Is the stream the reader of an enabled landing record (R361)? -/
def Region.isReader (g : Region) (i : Nat) : Bool :=
  (List.range 16).any (fun k => g.bit SL_LAND0_EN k && g.rd SL_LAND0_RSTRM k == i)

/-- The buffer of the stream's current tile (R234, R361). -/
def Region.ssBuf (g : Region) (i : Nat) : Nat :=
  let s := g.strm i
  (if g.isReader i then s.tiles else s.j / g.ssLen i) % g.ssBufs i

/-- First store byte of the line that access `j` touches (R234). -/
def Region.ssAddr (g : Region) (i : Nat) : Nat :=
  256 * (bitsOf (g.ss i 0) 17 0 + g.ssBuf i * g.ssLen i + (g.strm i).j % g.ssLen i)

/-- The saved header of a buffer of a write stream: `none` is unset (R269). -/
def Strm.header (s : Strm) (buf : Nat) : Option Hdr := (s.saved.find? (fun x => x.1 == buf)).map (fun x => x.2)
/-- Save a header. -/
def Strm.save (s : Strm) (buf : Nat) (h : Hdr) : Strm :=
  { s with saved := (buf, h) :: s.saved.filter (fun x => x.1 != buf) }

/-- The mark that a read stream forms for its current tile (R269). -/
def Region.ssMark (e : REnv) (g : Region) (i : Nat) (bad : Bool) : Hdr :=
  let s := g.strm i
  let p := g.ssParcel i
  let own : Hdr := { fmt := g.rd STRM_HDR_FMT i, cb := g.rd STRM_HDR_CB i, frame := e.frame % 2 ^ 16, seq := s.tiles % 2 ^ 32
                     leg := g.rd STRM_HDR_LEG i, parcel := p, gen := e.gens.getD p 0, void := s.gvoid || bad }
  if g.bit STRM_HDR_HSRC i then
    match (g.strm (g.rd STRM_HDR_SRC i)).header (g.ssBuf i) with
    | none => { own with void := true }
    | some h => { own with fmt := h.fmt, cb := h.cb, range := h.range, void := own.void || h.void }
  else own

/-- The departure drive of a stream's tile (R291). -/
def Region.depart (e : REnv) (g : Region) (i : Nat) (void : Bool) : Region :=
  (g.drive e (2 ^ 14 + 4032 + i) 1 void (g.ssParcel i) (.stream e.region i)).noteVoid (g.ssParcel i) void

/-- Is the gate of the stream's current tile satisfied? `some v`: yes, void or not. -/
def Region.ssGate (e : REnv) (g : Region) (i : Nat) : Option Bool :=
  let s := g.strm i
  if bitsOf (g.ss i 0) 27 27 = 0 then some false
  else if s.forced then some true
  else g.gate e (bitsOf (g.ss i 2) 15 0) ((g.ss i 3).toInt + (s.j / g.ssLen i : Nat))

/-- A read access: the line goes to the row links, behind the tile's mark at its first access (R233, R269). -/
def Region.ssRead (e : REnv) (g : Region) (i port : Nat) : Region :=
  let s := g.strm i
  let len := g.ssLen i
  let a := g.ssAddr i
  let x := s.j % len
  let r := g.rsEcc e a (a + 256)
  let g := r.1
  let h := g.ssMark e i (x == 0 && r.2)
  let s := if x = 0 then { s with tvoid := h.void } else s
  let count := (2 * len * tagWidth h.fmt + tagWidth (g.rd STRM_HDR_FMT i) - 1) / tagWidth (g.rd STRM_HDR_FMT i)
  let half (k : Nat) : FWord :=
    if s.tvoid || r.2 || decide (count ≤ 2 * x + k) then noWord 0
    else FWord.make h.parcel h.gen (2 * x + k + 1 == count) (leNat (g.store.rdN (a + 128 * k) 128))
  let links := (g.links.put noWord (2 * port) (half 0)).put noWord (2 * port + 1) (half 1)
  let links := links.put noWord (16 + port) (if x = 0 then FWord.make h.parcel h.gen s.tvoid h.bits else noWord 0)
  let last := x + 1 == len
  let g := { g with links := links }.setStrm i
    { s with j := s.j + 1, tiles := if last then s.tiles + 1 else s.tiles, forced := s.forced && !last }
  if last then g.depart e i s.tvoid else g

/-- A leg fault at a write stream (R264, R574). -/
def Region.strmFault (e : REnv) (g : Region) (i cls sub leg seq : Nat) : Region :=
  let g := ((g.wr STRM_FAULT_STRM i).wr STRM_FAULT_SUBTYPE sub).inc STRM_FCNT_COUNT STRM_FCNT_SAT
  g.raise e { cls := cls, subtype := sub, level := 2, parcel := g.ssParcel i
              object := i + 2 ^ 16 * leg + 2 ^ 32 * (seq % 2 ^ 32), objkind := 3 }

/-- The format check of a store-in tile (R270). -/
def Region.ssFmtOk (g : Region) (i fmt : Nat) : Bool :=
  fmt == g.rd STRM_HDR_FMT i || (g.bit STRM_HDR_WID i && g.rd STRM_HDR_FMT i == 0 && fmt == 2)

/-- Words expected of a store-in tile of `len` lines (R270). -/
def Region.ssWant (g : Region) (i len fmt : Nat) : Nat :=
  if g.bit STRM_HDR_WID i && g.rd STRM_HDR_FMT i == 0 && fmt == 0 then len else 2 * len

/-- The open store-in tile ends: the payload check, and its header is saved in its buffer (R270). -/
def Region.strmClose (e : REnv) (g : Region) (i : Nat) : Region :=
  let s := g.strm i
  match s.part with
  | none => g
  | some p =>
    let s := { s with part := none }
    let short := !p.hdr.void && p.got != p.want
    let h := { p.hdr with void := p.hdr.void || short }
    let g := g.setStrm i (s.save (p.dlv % g.ssBufs i) h)
    if short then g.strmFault e i 8 0x51 p.hdr.leg p.hdr.seq else g

/-- STORE_IN_TILE: a mark word at write stream `i` (R270); a tile that fails a check is written as far as its words go, and its header is
saved void. -/
def Region.storeInTile (e : REnv) (g : Region) (i : Nat) (h : Hdr) (last : Bool) : Region :=
  if bitsOf (g.ss i 0) 22 22 = 0 ∨ h.fmt = 15 ∨ g.ssLen i = 0 then g
  else
    let g := g.strmClose e i
    let s := g.strm i
    let t := s.j / g.ssLen i
    let u := if t < s.utile then s.utile else t
    let p := g.ssParcel i
    let own : Hdr := { h with leg := g.rd STRM_HDR_LEG i, parcel := p, gen := e.gens.getD p 0 }
    let open_ (bad : Bool) (g : Region) : Region :=
      let q : OpenPart := { hdr := { own with void := own.void || bad }, dlv := u, want := g.ssWant i (g.ssLen i) h.fmt, got := 0
                            drop := false, quiet := bad }
      let g := g.setStrm i { g.strm i with part := some q, utile := u + 1 }
      if last then g.strmClose e i else g
    if h.leg ≠ g.rd STRM_HDR_LEG i then open_ true (g.strmFault e i 2 0x54 h.leg h.seq)
    else if !g.ssFmtOk i h.fmt then open_ true (g.strmFault e i 2 0x52 h.leg h.seq)
    else open_ false g

/-- A write access with the words on the two row links; words with V = 0 write nothing (R233, R270). -/
def Region.ssWrite (e : REnv) (g : Region) (i : Nat) (ws : List FWord) : Region :=
  let s := g.strm i
  let len := g.ssLen i
  let a := g.ssAddr i
  let g := ws.zipIdx.foldl (fun (g : Region) x =>
    if !x.1.v then g
    else
      match (g.strm i).part with
      | none => g
      | some p =>
        let g := if p.want ≤ p.got then g else g.rsWrite (a + 128 * x.2) (leBytes 128 x.1.data)
        let g := g.setStrm i { g.strm i with part := some { p with got := p.got + 1 } }
        if x.1.last then g.strmClose e i else g) g
  let t := s.j / len
  let last := s.j % len + 1 == len
  let s' := g.strm i
  let s' := { s' with j := s'.j + 1, tiles := if last then s'.tiles + 1 else s'.tiles, forced := s'.forced && !last }
  if last then
    let missing := decide (s'.utile ≤ t)
    let s' := if missing then s'.save (t % g.ssBufs i) { fmt := g.rd STRM_HDR_FMT i, void := true } else s'
    let void := missing || s'.part.isSome || (match s'.header (t % g.ssBufs i) with | some h => h.void | none => true)
    (g.setStrm i s').depart e i void
  else g.setStrm i s'

/-- STORE_STREAM_ACCESS: the planned access of stream `i` at store port `port`, when its gate allows; a slot whose gate
is short, that would start a tile while four drives are pending, or whose bank another access of the cycle has taken, passes unused
(R234, R298; DEDUCED, log 70). -/
def Region.strmAccess (e : REnv) (g : Region) (i port : Nat) (ws : List FWord) : Region :=
  let s := g.strm i
  let len := g.ssLen i
  if g.lost || g.stopped || len == 0 || g.drain.contains (g.ssParcel i) then g
  else
    let first := s.j % len == 0
    let bank := (g.ssAddr i / 256) % 16
    if first && decide (4 ≤ g.pendingOf (fun d => match d with | .stream _ m => m == i | _ => false)) then g
    else if g.took.contains (e.cyc, bank) then g
    else
      match g.ssGate e i with
      | none => g.setStrm i { s with since := some (s.since.getD e.cyc) }
      | some v =>
        let g := g.setStrm i { s with since := none, gvoid := if first then v else s.gvoid }
        let g : Region := { g.count e 0x040 (some (g.ssParcel i)) with took := (e.cyc, bank) :: g.took.filter (fun x => x.1 == e.cyc) }
        if bitsOf (g.ss i 0) 22 22 = 0 then g.ssRead e i port else g.ssWrite e i ws

/-- `c` cycles have passed at the tick or at beat 0, from which the next cycles are counted: waits go on across it (R294). -/
def Region.rebase (c : Nat) (g : Region) : Region :=
  let g : Region := { g with xfers := g.xfers.map (fun (x : Xfer) => { x with since := x.since - c, wait := x.wait.map (fun t => t - c) }) }
  (List.range 64).foldl (fun (g : Region) i =>
    match (g.strm i).since with
    | some t => g.setStrm i { g.strm i with since := some (t - c) }
    | none => g) g

/-- SIGHT_TIMEOUT of a store stream's gate: the tile proceeds with VOID set. -/
def Region.strmTimeout (e : REnv) (g : Region) (i : Nat) (forced : Bool) : Region :=
  let s := g.strm i
  match s.since with
  | none => g
  | some t0 =>
    let id := bitsOf (g.ss i 2) 15 0
    if g.timeUp e id t0 forced then
      (g.stale e id (g.ssParcel i) i).setStrm i { s with forced := true, gvoid := true, since := none }
    else g

/-- A write stream of an overrun context at step 4 (R270): the tile in progress closes short and is saved void, a tile whose LAST has
come stands, and each further tile of the frame is saved void; `tiles` is how many the plan moves in a frame. A read stream's count passes the tiles of the frame that
have not departed (R52, R54; DEDUCED, log 32). -/
def Region.strmOverrun (e : REnv) (g : Region) (i tiles : Nat) : Region :=
  if g.ssLen i = 0 then g
  else if bitsOf (g.ss i 0) 22 22 = 0 then
    let s := g.strm i
    g.setStrm i { s with tiles := s.tiles + (tiles - s.j / g.ssLen i) }
  else
    let s := g.strm i
    let s := match s.part with
      | some p => { s with part := none }.save (p.dlv % g.ssBufs i) { p.hdr with void := true }
      | none => s
    let t := max s.utile (s.j / g.ssLen i)
    g.setStrm i ((List.range (tiles - t)).foldl (fun (s : Strm) k =>
      s.save ((t + k) % g.ssBufs i) { fmt := g.rd STRM_HDR_FMT i, void := true }) s)

/-! ## Landing (12 R360, R361) -/

/-- The enabled landing record of a lane port for a leg. -/
def Region.landing (g : Region) (lport leg : Nat) : Option Nat :=
  (List.range 16).find? (fun k => g.bit SL_LAND0_EN k && g.rd SL_LAND0_LPORT k == lport && g.rd SL_LAND0_LEG k == leg)

/-- LANDING_TILE: a leg tile with its payload at lane port `lport` (R360, R361). Where several leg tiles fill one store tile the spec does not say
whose format tag and codebook the one saved header takes: the model keeps those of the tile that landed last (DESIGN CHOICE, log 66). -/
def Region.landTile (e : REnv) (g : Region) (lport : Nat) (h : Hdr) (ws : List Nat) : Region :=
  match g.landing lport h.leg with
  | none => g.raise e { cls := 2, subtype := 0x54, level := 2, parcel := h.parcel
                        object := 2 ^ 16 * h.leg + 2 ^ 32 * h.seq, objkind := 3 }
  | some k =>
    let i := g.rd SL_LAND0_WSTRM k
    let r := g.rd SL_LAND0_RSTRM k
    let tpb := g.rd SL_LAND1_TPB k + 1
    let s := g.strm i
    let qi := extCount s.n64 h.seq
    if qi < s.n64 then g.strmFault e i 8 0x50 h.leg h.seq
    else
      let q := qi.toNat
      let u := q / tpb
      let bufs := g.ssBufs i
      let lost := (List.range (q - s.n64)).foldl (fun (t : Strm) j =>
        t.save ((s.n64 + j) / tpb % bufs) { fmt := g.rd STRM_HDR_FMT i, void := true }) s
      let s := { lost with n64 := q + 1, utile := u
                           ubad := (if lost.utile = u then lost.ubad else false) || decide (q % tpb ≠ 0 ∧ lost.n64 < q) }
      let g := g.setStrm i s
      let voidTile (g : Region) : Region :=
        let s := g.strm i
        g.setStrm i ({ s with ubad := true }.save (u % bufs) { h with void := true })
      let want := g.ssWant i (g.ssLen i / tpb) h.fmt
      if (g.strm r).tiles + bufs ≤ u then
        (voidTile g).raise e { cls := 8, subtype := 0x84, level := 2, parcel := g.ssParcel i, object := i, objkind := 5 }
      else if !g.ssFmtOk i h.fmt then voidTile (g.strmFault e i 2 0x52 h.leg h.seq)
      else if h.part ≠ 0 then voidTile (g.strmFault e i 2 0x53 h.leg h.seq)
      else
        let base := 256 * (bitsOf (g.ss i 0) 17 0 + u % bufs * g.ssLen i + q % tpb * (g.ssLen i / tpb))
        let g := (ws.take want).zipIdx.foldl (fun (g : Region) x => g.rsWrite (base + 128 * x.2) (leBytes 128 x.1)) g
        let short := !h.void && ws.length != want
        let s := g.strm i
        let bad := s.ubad || h.void || short || s.notices.contains h.frame
        let p := g.ssParcel i
        let own : Hdr := { h with parcel := p, gen := e.gens.getD p 0, void := bad }
        let g := g.setStrm i ({ s with ubad := bad }.save (u % bufs) own)
        let g := if short then g.strmFault e i 8 0x51 h.leg h.seq else g
        if q % tpb + 1 = tpb then g.depart e i bad else g

/-- The checks of a drive word at write stream `i`, and its drive (R290, Table 10-4). -/
def Region.driveTake (e : REnv) (g : Region) (i : Nat) (h : Hdr) : Region :=
  if h.leg ≠ g.rd STRM_HDR_LEG i then g.strmFault e i 2 0x54 h.leg h.seq
  else
    let s := g.strm i
    let qi := extCount s.dseq h.seq
    if qi < s.dseq then g.inc STRM_FCNT_COUNT STRM_FCNT_SAT
    else
      let g := if (s.dseq : Int) < qi then
          (g.set1 STK_RSTAT_DSEQ).raise e
            { cls := 8, subtype := 0x67, level := 2, parcel := g.ssParcel i
              object := i + 2 ^ 16 * h.leg + 2 ^ 32 * h.seq, objkind := 3 }
        else g
      let g := g.setStrm i { s with dseq := qi.toNat + 1, totals := addTotal s.totals h.frame h.inc }
      let id := g.rd STRM_STK_ARRIVE i
      if id / 2 ^ 14 ≠ 1 then g
      else
        let d : Drive := { stake := id % 4096, inc := h.inc, void := h.void, tag := h.frame, parcel := g.ssParcel i
                           gen := some (e.gens.getD (g.ssParcel i) 0), by_ := .stream e.region i }
        { g with driveq := g.driveq ++ [d] }

/-- A drive word meets the region's queue of 32 drives: it waits at its stream when the queue is full or an earlier drive word of the
stream waits (R298). -/
def Region.driveTry (e : REnv) (g : Region) (i : Nat) (h : Hdr) : Region :=
  let s := g.strm i
  if g.rd STRM_STK_ARRIVE i / 2 ^ 14 = 1 ∧ (s.waits ≠ [] ∨ 32 ≤ g.driveq.length) then g.setStrm i { s with waits := s.waits ++ [h] }
  else g.driveTake e i h

/-- DRIVE_WORD_RECEIVED at write stream `i`: the tile that it finds open closes at once. -/
def Region.driveWord (e : REnv) (g : Region) (i : Nat) (h : Hdr) : Region := (g.strmClose e i).driveTry e i h

/-- The drive words that wait at the write streams take the room that the queue has, each stream's in order (R298; among the streams
the lowest number first: DESIGN CHOICE, log 83). -/
def Region.driveWake (e : REnv) (g : Region) : Region :=
  (List.range 64).foldl (fun (g : Region) i =>
    let s := g.strm i
    s.waits.foldl (fun (g : Region) h => g.driveTry e i h) (if s.waits = [] then g else g.setStrm i { s with waits := [] })) g

/-! ## Drives applied (R283, R286, R292, R293, R298) -/

/-- The oldest queued drive of the region meets its stake. -/
def Region.driveMeet (e : REnv) (g : Region) : Region :=
  match g.driveq with
  | [] => g
  | d :: t =>
    let g := { g with driveq := t }
    match (g.stake d.stake).drive d (e.gens.getD d.parcel 0) with
    | .applied s => (((g.setStake d.stake s).count e 0x050 (some d.parcel)).tryAll e).showWait
    | .overflow s =>
      let g := (((g.setStake d.stake s).set1 STK_RSTAT_OVF).tryAll e).showWait
      g.raise e { cls := 2, subtype := 0x65, level := 2, parcel := s.parcel, object := 2 ^ 14 + d.stake, objkind := 1
                  specific := d.parcel, teardown := true }
    | .trespass =>
      let own := (g.stake d.stake).parcel
      let g := ((g.set1 STK_RSTAT_TRESP).inc STK_RTCNT_COUNT STK_RTCNT_SAT).count e 0x051 (some d.parcel)
      g.raise e { cls := 4, subtype := 0x64, level := 2, parcel := d.parcel, object := 2 ^ 14 + d.stake, objkind := 1
                  specific := d.parcel + 2 ^ 4 * own }
    | .poisoned => g
    | .stale => g.inc STK_RGCNT_COUNT STK_RGCNT_SAT

/-- DRIVE_APPLIED: the oldest queued drive of the region, and the drive words that its room lets in. -/
def Region.driveApply (e : REnv) (g : Region) : Region := (g.driveMeet e).driveWake e

/-! ## Roll-over and shortfall (R283 to R285, R296, R297), shared by block and region stakes -/

/-- What roll-over reports: a lag error, a saturated count. -/
structure RollOut where
  stake : Stake
  lag : Bool
  ovf : Bool
deriving DecidableEq, Repr

/-- Roll-over of an enabled stake at the tick that ends frame `n` (R283, R284, R297). -/
def Stake.rollOver (s : Stake) (n : Nat) : RollOut :=
  let lag := decide (s.cnt < 0) && !s.lagged
  let v := (n + 2) % 4
  let void := if s.void.testBit v then s.void - 2 ^ v else s.void
  let s := { s with void := void, lagged := s.lagged || lag }
  if s.cnt - (s.roll : Int) < -0x80000000 then ⟨{ s with cnt := -0x80000000, ovf := true }, lag, true⟩
  else ⟨{ s with cnt := s.cnt - (s.roll : Int) }, lag, false⟩

/-- The shortfall of a stake at the tick (R296). -/
def Stake.shortfall (s : Stake) : Nat := ((((1 + s.lag) * s.roll : Nat) : Int) - s.cnt).toNat

/-- The void drive of R296 for frame `n` with increment `inc`. -/
def Stake.voidDrive (s : Stake) (n inc : Nat) : Stake :=
  if inc = 0 then s else { s.setVoid n with cnt := min (s.cnt + inc) 0x7FFFFFFF }

/-- A stake at the admission of its context in frame `a` (R285). -/
def Stake.startCtx (s : Stake) (a : Nat) : Stake :=
  if s.lag = 0 then { cfg := s.cfg } else { cfg := s.cfg, cnt := s.roll, void := 2 ^ ((a + 3) % 4) }

/-- STREAK at the deadline (R295): `hit` says that a waiter on the stake was cancelled. Answers the stake and whether the
record of subtype 0x61 is written. -/
def Stake.streakUpdate (s : Stake) (hit : Bool) : Stake × Bool :=
  if s.tmode = 1 then (s, false)
  else if hit then
    if s.tmo ≤ s.streak + 1 then ({ s with streak := 0 }, true) else ({ s with streak := s.streak + 1 }, false)
  else ({ s with streak := 0 }, false)

/-! ## Zero-fill and scrub (R209, R210, R214, R575) -/

/-- Does a fill of the stack touch an enabled window of a parcel with an active context (R214)? -/
def Region.fillBad (e : REnv) (g : Region) (tgt base len : Nat) : Bool :=
  if tgt = 1 then decide (262144 < base + len)
  else decide (150994944 < base + len) ||
    (List.range 16).any (fun w =>
      g.bit MEM_WIN_B_EN w && decide (g.rd MEM_WIN_A_BASE w ≤ g.rd MEM_WIN_A_LIMIT w) && e.actives.getD (g.rd MEM_WIN_B_PARCEL w) false &&
        decide (base < (g.rd MEM_WIN_A_LIMIT w + 1) * 4096) && decide (g.rd MEM_WIN_A_BASE w * 4096 < base + len))

/-- MEM_ZERO_START: START = 1 with target `tgt` (R214, R512, R575). -/
def Region.zeroStart (e : REnv) (g : Region) (tgt : Nat) : Region :=
  let base := if tgt = 1 then g.rd MEM_ZERO_BASE_BASE % 2 ^ 18 else g.rd MEM_ZERO_BASE_BASE
  let len := g.rd MEM_ZERO_LEN_LEN
  if g.fill.isSome || len == 0 || e.clearing || g.fillBad e tgt base len then g.set1 MEM_ZERO_CTL_REFUSED
  else { g.wr MEM_ZERO_CTL_BUSY 1 with fill := some { tgt := tgt, base := base, len := len } }

/-- Write zeros with valid check bits to a range of lines. -/
def Region.zeroLines (g : Region) (tgt base len : Nat) : Region :=
  let lo := 256 * base
  let hi := 256 * (base + len)
  if tgt = 1 then
    { g with store := g.store.zeroRange lo hi
             storeEcc := g.storeEcc.filter (fun x => decide (hi ≤ 16 * x.1 ∨ 16 * x.1 + 16 ≤ lo)) }
  else
    { g with stack := g.stack.zeroRange lo hi
             stackEcc := g.stackEcc.filter (fun x => decide (hi ≤ 32 * x.1 ∨ 32 * x.1 + 32 ≤ lo)) }

/-- ZERO_FILL_DONE: the running fill writes its last line (R214). -/
def Region.zeroDone (g : Region) : Region :=
  match g.fill with
  | none => g
  | some f => (({ g with fill := none }.zeroLines f.tgt f.base f.len).wr MEM_ZERO_CTL_BUSY 0).set1 MEM_ZERO_CTL_DONE

/-- A BAR0 write of MEM_ZERO_CTL (R575). -/
def Region.zeroCtlWrite (e : REnv) (g : Region) (v : Word) : Region :=
  let w1c (g : Region) : Region :=
    let g := if MEM_ZERO_CTL_DONE.on v then g.wr MEM_ZERO_CTL_DONE 0 else g
    if MEM_ZERO_CTL_REFUSED.on v then g.wr MEM_ZERO_CTL_REFUSED 0 else g
  let start := MEM_ZERO_CTL_START.on v
  if g.fill.isSome then
    let g := if start || MEM_ZERO_CTL_TGT.of v != g.rd MEM_ZERO_CTL_TGT then g.discard else g
    let g := w1c g
    if start then g.set1 MEM_ZERO_CTL_REFUSED else g
  else
    let g := w1c (g.wr MEM_ZERO_CTL_TGT (MEM_ZERO_CTL_TGT.of v))
    if start then g.zeroStart e (MEM_ZERO_CTL_TGT.of v) else g

/-- PATROL_SCRUB: one stack line through the management share; a full pass counts (R209). -/
def Region.patrol (e : REnv) (g : Region) : Region :=
  let l := g.patrolPos
  let g := (g.stkBad (256 * l) (256 * l + 256)).foldl (Region.stkOne e true) g
  if l + 1 < 150994944 then { g with patrolPos := l + 1 }
  else
    { (if g.rd HBM_PATROL_PASSES < 0xFFFF then g.wr HBM_PATROL_PASSES (g.rd HBM_PATROL_PASSES + 1) else g) with patrolPos := 0 }

/-- STORE_SCRUB: the granules corrected since the last scrub cycle are rewritten, and one store line is read, in ascending order
(R210). -/
def Region.storeScrub (e : REnv) (g : Region) : Region :=
  let l := g.scrubPos
  let g : Region := { g with storeEcc := g.storeEcc.filter (fun x => !(x.2 == 1 && g.fixes.contains x.1)), fixes := [] }
  { (g.rsEcc e (256 * l) (256 * l + 256)).1 with scrubPos := (l + 1) % 262144 }

end Sys2Proof.Machine
end

