-- ==== Sys2Proof/Machine/Clocks.lean ====
section
/-!
DEFINITION. Clock steps of one region: step tables (14_clocks.md R395), table voltage (15_power_delivery.md R415, R416),
requests and commit tests (R397 to R403), droop stretching (R404), the physical number of a block (01 R23 to R25).
-/
namespace Sys2Proof.Machine

/-- The multiplier of step `a` for a grade (Table 14-1). -/
def stepMult (grade a : Nat) : Nat :=
  (match grade with
   | 0 => [25, 22, 20, 19, 18, 17, 15, 13]
   | 1 => [22, 19, 18, 17, 16, 15, 13, 12]
   | _ => [18, 16, 15, 14, 13, 12, 11, 10]).getD a 0

/-- The frequency of a step in MHz. -/
def stepMhz (grade a : Nat) : Nat := 50 * stepMult grade a

/-- Table VID by multiplier (Table 15-4). -/
def vidOfMult : Nat → Nat
  | 10 => 46 | 11 => 47 | 12 => 48 | 13 => 49 | 14 => 50 | 15 => 52 | 16 => 53 | 17 => 55 | 18 => 56
  | 19 => 58 | 20 => 59 | 22 => 62 | 25 => 68 | _ => 0

/-- Table voltage by multiplier in 0.1 mV (Table 15-4). -/
def voltOfMult (m : Nat) : Nat := 125 * vidOfMult m

/-- The region's home step (11 R313): variant 0; index 1 while no plat is active (R396). -/
def Region.home (g : Region) : Nat := ((g.variants.map (fun v => v.step)).head?).getD 1
/-- The steps that the region may take. -/
def Region.stepList (g : Region) : List Nat :=
  if g.variants.isEmpty then [1] else g.variants.map (fun v => v.step)
/-- The step in force. -/
def Region.cur (g : Region) : Nat := g.rd RGN_CLK_STAT_CUR

/-- The VID of domain `k` at a step with suspect offset `ofs` (R416). -/
def Region.vidAt (grade : Nat) (g : Region) (k step ofs : Nat) : Nat :=
  vidOfMult (stepMult grade step) + g.rd PWR_DOM_STAT_AGE k + ofs

/-- Set the steps that source `src` requests. -/
def Region.reqStep (g : Region) (src : Nat) (step : Option Nat) : Region :=
  let rest := g.steps.filter (fun x => x.1 != src)
  { g with steps := match step with
      | some a => (src, a) :: rest
      | none => rest }

/-- Does power control request boost of the region (14 R402)? -/
def Region.wantsBoost (g : Region) : Bool := g.steps.any (fun x => x.1 == 2 && x.2 == 0)

/-- Which requests may be taken: with FFM, none that power control makes for boost or the grade (R403). -/
def Region.requests (e : REnv) (g : Region) : List Nat :=
  ((g.steps.filter (fun x => !(e.ffm && x.1 == 2))).map (fun x => x.2)) ++
    (if g.bit RGN_CLK_REQ_EN then [g.rd RGN_CLK_REQ_STEP] else [])

/-- The slowest step that any source requests, or the home step (R397). -/
def Region.wanted (e : REnv) (g : Region) : Nat :=
  match g.requests e with
  | [] => g.home
  | a :: t => t.foldl max a

/-- The first failing test of Table 14-2 for a commit of `step`; `boost` says that power control requests index 0
(R402). -/
def Region.commitTest (e : REnv) (g : Region) (step : Nat) (boost pinned : Bool) : Option Nat :=
  if !g.stepList.contains step then some 1
  else if step == 0 && (!e.boosten || e.ffm || !boost) then some 2
  else if e.res < 400 then some 3
  else if pinned then some 4
  else none

/-- A refused step (R398): count, reason, and the record of codes 1, 2 and 5. FRM_STAT is the hub's. -/
def Region.refuseStep (e : REnv) (g : Region) (why : Nat) : Region :=
  let g := (g.wr RGN_CLK_STAT_REFCNT (min (g.rd RGN_CLK_STAT_REFCNT + 1) 255)).wr RGN_CLK_STAT_REFWHY why
  let g := ((g.wr RGN_CLK_STAT_NEXT g.cur).wr RGN_CLK_STAT_COMMIT 0).wr RGN_CLK_STAT_LOCKB 0
  let g := { g with report := false, go := false }
  if why = 1 ∨ why = 2 ∨ why = 5 then g.raise e { cls := 8, subtype := 0x94, level := 2, specific := why } else g

/-- A commit (Table 14-3 step 1). -/
def Region.commitStep (g : Region) (step : Nat) : Region :=
  { (((g.wr RGN_CLK_STAT_NEXT step).wr RGN_CLK_STAT_COMMIT 1).wr RGN_CLK_STAT_LOCKB 0) with report := false, go := false }

/-- Domains whose VID at `step` would exceed 72 (R416). -/
def Region.vidOver (grade : Nat) (g : Region) (step : Nat) : List Nat :=
  (List.range 4).filter (fun k => decide (72 < g.vidAt grade k step (g.rd PWR_DOM_CTL_OFS k)))

/-- A voltage that R416 refuses: status and record of subtype 0xA7. -/
def Region.refuseVid (e : REnv) (g : Region) (k : Nat) : Region :=
  (g.set1 PWR_DOM_STAT_OFSREF k).raise e { cls := 9, subtype := 0xA7, level := 2, object := k, objkind := 8 }

/-- Bring the targets of the domains that are on to the step in force (R401, R416). -/
def Region.setVids (e : REnv) (g : Region) : Region :=
  (List.range 4).foldl (fun (g : Region) k =>
    if g.rd PWR_DOM_STAT_STATE k = 1 then
      let v := g.vidAt e.grade k g.cur (g.rd PWR_DOM_CTL_OFS k)
      if 72 < v then g.refuseVid e k else g.wr PWR_DOM_STAT_VID v k
    else g) g

/-- Can the region take its committed step at the clock switch: its idle PLL is locked, its lock group's go has come, no voltage
target of the step is refused (R416) and, for a step up, the regulators have reported (R399, R401)? -/
def Region.switchReady (e : REnv) (g : Region) : Bool :=
  let next := g.rd RGN_CLK_STAT_NEXT
  g.bit RGN_CLK_STAT_COMMIT && (g.vidOver e.grade next).isEmpty && g.bit RGN_CLK_STAT_LOCKB &&
    (!g.bit RGN_LOCK_LOCKED || g.go) && (decide (g.cur ≤ next) || g.report)

/-- The clock switch of Table 14-3 steps 6 and 7 (R399, R401), where `why` refuses the step. Answers whether a step was taken. -/
def Region.clockSwitch (e : REnv) (g : Region) (why : Option Nat) : Region × Bool :=
  if !g.bit RGN_CLK_STAT_COMMIT then (g, false)
  else
    let next := g.rd RGN_CLK_STAT_NEXT
    match why with
    | some w => (((g.vidOver e.grade next).foldl (fun g k => g.refuseVid e k) g).refuseStep e w, false)
    | none =>
      let g := ((g.wr RGN_CLK_STAT_CUR next).wr RGN_CLK_STAT_COMMIT 0).wr RGN_CLK_STAT_LOCKB 0
      let g := { g with report := false, go := false }
      (g.setVids e, true)

/-- IDLE_PLL_LOCK (R399). -/
def Region.pllLock (g : Region) : Region := if g.bit RGN_CLK_STAT_COMMIT then g.set1 RGN_CLK_STAT_LOCKB else g

/-- PLL_LOCK_DEADLINE (R399): not locked by −2,500 ns refuses the step. -/
def Region.pllDeadline (e : REnv) (g : Region) : Region :=
  if g.bit RGN_CLK_STAT_COMMIT && !g.bit RGN_CLK_STAT_LOCKB then g.refuseStep e 5 else g

/-- REGULATOR_REPORT (R401). -/
def Region.regReport (g : Region) : Region := if g.bit RGN_CLK_STAT_COMMIT then { g with report := true } else g

/-- Bit `k` of STR. -/
def setBitNat (m k : Nat) (on : Bool) : Nat := if on then m ||| 2 ^ k else if m.testBit k then m - 2 ^ k else m

/-- DROOP_TRIP of domain `k` (R404). -/
def Region.droopTrip (g : Region) (k : Nat) : Region := g.wr RGN_CLK_STAT_STR (setBitNat (g.rd RGN_CLK_STAT_STR) k true)

/-- DROOP_CLEAR of domain `k`, with the core cycles that were skipped (R404, Table 14-9). -/
def Region.droopClear (g : Region) (k skipped : Nat) : Region :=
  if (g.rd RGN_CLK_STAT_STR).testBit k then
    (g.wr RGN_CLK_STAT_STR (setBitNat (g.rd RGN_CLK_STAT_STR) k false)).inc RGN_CLK_STR_COUNT RGN_CLK_STR_SAT skipped
  else g

/-! ## Block numbers (01 R13, R23 to R25) -/

/-- The SKIP value of region row `r` in the active map (R25, R27). -/
def Region.skip (g : Region) (r : Nat) : Nat :=
  bitsOf (if r < 8 then g.skip0 else g.skip1) (4 * (r % 8) + 3) (4 * (r % 8))

/-- The chip-wide physical number of block index `b` of region `n` under the active map (R23). -/
def Region.pblk (g : Region) (n b : Nat) : Nat :=
  let c := b % 12
  let pc := if c < g.skip (b / 12) then c else c + 1
  1248 * (n / 6) + 26 * (16 * (n % 6 / 2) + b / 12) + 13 * (n % 2) + pc

/-- Core domain of a block index (15 Table 15-2, 01 R21). -/
def domainOf (b : Nat) : Nat := b / 48

/-- Is block index `b` fenced (18 R483)? -/
def Region.isFenced (g : Region) (b : Nat) : Bool := (g.rd RGN_FENCE_FENCED (b / 32)).testBit (b % 32)

/-- Does the active map hide block index `b`: its row is fenced by SKIP 0xD, or its domain by the plat (R25, R27)? -/
def Region.hidden (g : Region) (b : Nat) : Bool := g.skip (b / 12) == 0xD || g.domFence.getD (domainOf b) false

end Sys2Proof.Machine
end

