-- ==== Sys2Proof/Machine/RegionFault.lean ====
section
/-!
DEFINITION. The region controller's fault handling (18_faults_repair.md R474 to R499): suspect ledger, fences, retests,
and the region's register page (23_address_map.md; 07 R575, 10 R302, 20 R527, R540).
-/
namespace Sys2Proof.Machine

/-- A record that the region controller writes about block index `b`. -/
def Region.raiseBlk (e : REnv) (g : Region) (b : Nat) (r : ErrRec) : Region :=
  g.raise e { r with block := chipBlk e.region b, pblock := g.pblk e.region b }

/-! ## The suspect ledger (R478 to R482) -/

/-- The largest voltage contribution of domain `k`'s blocks (R480). -/
def Region.ledgerOfs (g : Region) (k : Nat) : Nat :=
  ((g.ledger.filter (fun x => domainOf x.b == k)).map (fun x => x.ofs)).foldl max 0

/-- Show the ledger's contributions: OFS of domain `k`, the step request of source 1, STEPREQ (R480). -/
def Region.contribute (g : Region) (k : Nat) : Region :=
  let steps := g.ledger.filterMap (fun x => x.step)
  let g := g.wr PWR_DOM_CTL_OFS (g.ledgerOfs k) k
  let g := g.reqStep 1 (match steps with | [] => none | a :: t => some (t.foldl max a))
  (g.wr RGN_SUSP_STAT_STEPREQ (if steps.isEmpty then 0 else 1)).wr RGN_SUSP_STAT_USED g.ledger.length

/-- The step `l` entries slower than the home step in the variant list, or the slowest entry (Table 18-6). -/
def Region.slower (g : Region) (l : Nat) : Nat :=
  let cand := (List.range 8).filter (fun a => decide (g.home < a) && g.stepList.contains a)
  if cand.isEmpty then g.home else cand.getD (min l cand.length - 1) g.home

/-- Replace the ledger entry of a block. -/
def Region.setLedger (g : Region) (x : Ledger) : Region :=
  { g with ledger := g.ledger.map (fun y => if y.b = x.b then x else y) }

/-- The response of Table 18-6 to a change of level, with the record of subtype 0xE0 (R480). -/
def Region.respond (e : REnv) (g : Region) (x : Ledger) : Region :=
  let k := domainOf x.b
  let l := x.level
  let byStep (g : Region) : Region :=
    let s := g.slower l
    ((g.setLedger { x with ofs := 0, step := some s }).contribute k).raiseBlk e x.b
      { cls := 5, subtype := 0xE0, level := 2, specific := l + 2 ^ 3 + 2 ^ 8 * s }
  match g.rd RGN_SUSP_CTL_MODE with
  | 0 =>
    if 72 < g.vidAt e.grade k g.cur l then byStep (g.refuseVid e k)
    else ((g.setLedger { x with ofs := l, step := none }).contribute k).raiseBlk e x.b
      { cls := 5, subtype := 0xE0, level := 2, specific := l + 2 ^ 8 * l }
  | 1 => byStep g
  | _ => (g.setLedger x).raiseBlk e x.b { cls := 5, subtype := 0xE0, level := 2, specific := l }

/-- Release an entry and withdraw its contributions. -/
def Region.dropLedger (g : Region) (b : Nat) : Region :=
  ({ g with ledger := g.ledger.filter (fun (x : Ledger) => x.b != b) } : Region).contribute (domainOf b)

/-- Decide a fence for the next boundary gap (R483). -/
def Region.planFence (g : Region) (b cause : Nat) : Region :=
  if g.isFenced b || g.fencing.any (fun x => x.1 == b) then g else { g with fencing := g.fencing ++ [(b, cause)] }

/-- Hand a defect entry to the MC (R463). -/
def Region.defect (g : Region) (kind src unit : Nat) : Region :=
  { g with defects := g.defects ++ [{ kind := kind, src := src, unit := unit }] }

/-- A block that has failed (R482). -/
def Region.failBlock (e : REnv) (g : Region) (x : Ledger) : Region :=
  let g := g.dropLedger x.b
  let pb := g.pblk e.region x.b
  match x.fails with
  | [] => (g.planFence x.b 1).defect 1 2 pb
  | f :: t =>
    if t.all (fun y => y == f) then
      (g.defect (if f.1 = 0 then 2 else 3) 2 (pb + 2 ^ 16 * f.2)).raiseBlk e x.b
        { cls := 5, subtype := 0xE1, level := 2, specific := 2 }
    else (g.planFence x.b 1).defect 1 2 pb

/-- The level of a ledger entry rises by one, within 1 to 4, and the response follows (R478, R480, R482). -/
def Region.rise (e : REnv) (g : Region) (x : Ledger) (poison : Option (Nat × Nat)) : Region :=
  let x := { x with level := min (x.level + 1) 4, suspect := true, clean := 0 }
  let x := match poison with
    | some f => { x with poisons := min (x.poisons + 1) 15, fails := x.fails ++ [f], stamp := e.ms }
    | none => { x with trans := 0, start := e.frame }
  if decide (g.rd RGN_SUSP_CTL_FAIL ≤ x.poisons) then g.failBlock e x
  else g.respond e x

/-- A new ledger entry of a block (R478, R479); `false` when the ledger is full. A poison that comes while it is full is kept, and
counts when the block enters (DEDUCED, log 86). -/
def Region.enter (e : REnv) (g : Region) (b : Nat) (poison : Option (Nat × Nat)) : Region × Bool :=
  if 16 ≤ g.ledger.length then
    ({ g.set1 RGN_SUSP_STAT_FULL with owed := g.owed ++ (poison.map (fun f => (b, f))).toList }, false)
  else
    let old := (g.owed.filter (fun (y : Nat × Nat × Nat) => y.1 == b)).map (fun (y : Nat × Nat × Nat) => y.2)
    let x : Ledger := { b := b, level := 0, poisons := min old.length 15, trans := 0, start := e.frame, suspect := false, clean := 0
                        stamp := e.ms, fails := old }
    let g : Region := { g with
      ledger := g.ledger ++ [x]
      window := g.window.filter (fun (y : Nat × Nat × Nat) => y.1 != b)
      owed := g.owed.filter (fun (y : Nat × Nat × Nat) => y.1 != b) }
    (g.rise e x poison, true)

/-- A poison of block index `b` whose failing comparison was `f` (R478). -/
def Region.poisonOf (e : REnv) (g : Region) (b : Nat) (f : Nat × Nat) : Region × Bool :=
  match g.ledger.find? (fun x => x.b == b) with
  | some x => (g.rise e x (some f), true)
  | none => g.enter e b (some f)

/-- A transient of block index `b` (R478): TLIM of them within 4,096 frames raise the level. Answers whether the level
rose and whether the ledger had room. -/
def Region.transientOf (e : REnv) (g : Region) (b : Nat) : Region × Bool × Bool :=
  let lim := g.rd RGN_SUSP_CTL_TLIM
  match g.ledger.find? (fun x => x.b == b) with
  | some x =>
    let periods := (e.frame - x.start) / 4096
    let x := { x with start := x.start + 4096 * periods, trans := (if periods = 0 then x.trans else 0) + 1, clean := 0 }
    if lim ≤ x.trans then (g.rise e x none, true, true) else (g.setLedger { x with trans := min x.trans 63 }, false, true)
  | none =>
    let w := (g.window.find? (fun y => y.1 == b)).getD (b, 0, e.frame)
    let periods := (e.frame - w.2.2) / 4096
    let n := (if periods = 0 then w.2.1 else 0) + 1
    if lim ≤ n then
      let r := g.enter e b none
      (r.1, r.2, r.2)
    else
      ({ g with window := (b, n, w.2.2 + 4096 * periods) :: g.window.filter (fun y => y.1 != b) }, false, true)

/-- SUSPECT_CLEAR (R481): answers whether the entry of ledger place `i` clears. -/
def Region.suspectClear (e : REnv) (g : Region) (i : Nat) : Region × Option Nat :=
  match g.ledger[i]? with
  | none => (g, none)
  | some x =>
    if x.suspect && decide (256 * g.rd RGN_SUSP_CTL_CLRF ≤ x.clean) then
      let g := g.setLedger { x with suspect := false, level := 0, ofs := 0, step := none }
      ((g.contribute (domainOf x.b)).raiseBlk e x.b { cls := 5, subtype := 0xE2, level := 2, specific := x.poisons }, some x.b)
    else (g, none)

/-- LEDGER_RELEASE (R481): 24 h of main power without a poison. -/
def Region.ledgerRelease (e : REnv) (g : Region) (i : Nat) : Region :=
  match g.ledger[i]? with
  | none => g
  | some x => if !x.suspect && decide (x.stamp + 86400000 ≤ e.ms) then g.dropLedger x.b else g

/-- LEDGER_CLEAR (Table 18-17, RGN_SUSP_SEL.CLR). -/
def Region.ledgerClear (g : Region) (i : Nat) : Region :=
  match g.ledger[i]? with
  | none => g
  | some x => g.dropLedger x.b

/-- A frame without events ages the ledger (R481). -/
def Region.ledgerTick (g : Region) : Region :=
  { g with ledger := g.ledger.map (fun x => { x with clean := x.clean + 1 }) }

/-! ## Records that the controller acts on (R474, R478, R486, R489) -/

/-- What a record means to the controller besides its forwarding. `router` is the router that a drop is traced to,
`queue` the crossing queue, `routed` the parcels that route a word through its row. -/
structure Trace where
  router : Option Nat
  queue : Option Nat
  routed : List Nat
deriving DecidableEq, Repr

/-- Note an event that R486 or R489 counts. -/
def Region.note (g : Region) (kind unit stamp : Nat) : Region :=
  { g with events := g.events ++ [{ kind := kind, unit := unit, stamp := stamp }] }

/-- Events of a kind and unit with a stamp of at least `lo`. -/
def Region.noted (g : Region) (kind unit lo : Nat) : Nat :=
  (g.events.filter (fun x => x.kind == kind && x.unit == unit && decide (lo ≤ x.stamp))).length

/-- A drop traced to router of block index `b`: sixteen within 1 s fence its row at the next plat and tear down, at the
next boundary, the contexts that route a word through the row (R486). -/
def Region.routerDrop (e : REnv) (g : Region) (b : Nat) (routed : List Nat) : Region :=
  let g := g.note 0 b e.ms
  if g.noted 0 b (e.ms - 1000) = 16 then
    let r := b / 12
    let f : Field := if r < 8 then RGN_COLSKIP0_SKIP0 else RGN_COLSKIP1_SKIP0
    let f : Field := { f with hi := 4 * (r % 8) + 3, lo := 4 * (r % 8) }
    { g.wr f 0xD with tears := g.tears ++ routed.map (fun p => (p, 8)) }
  else g

/-- The controller acts on a record (R478, R479, R486, R489); the record goes on with LFULL where the ledger is full. `fail` is the
block's failing comparison as a physical row or column (R482, 03 R90). -/
def Region.act (e : REnv) (g : Region) (r : ErrRec) (t : Trace) (fail : Nat × Nat) : Region × ErrRec × Bool :=
  let b := indexOf r.block
  if r.inj then (g, r, false)
  else if r.cls = 5 ∧ (r.subtype = 2 ∨ r.subtype = 0xE5) then
    let x := g.poisonOf e b fail
    (x.1, { r with lfull := !x.2 }, true)
  else if r.cls = 5 ∧ r.subtype = 1 then
    let x := g.transientOf e b
    (x.1, { r with lfull := !x.2.2 }, x.2.1)
  else if r.cls = 7 ∧ r.level = 1 ∧ r.subtype = (Config.spEccSubtype false).toNat then
    (g.note 4 (131072 * b + r.address / 16) e.ms, r, false)
  else if (r.cls = 8 ∧ r.subtype = 0x40) ∨ (r.cls = 2 ∧ r.subtype = 0x43) then
    let g := match t.queue with | some q => g.note 1 q e.ms | none => g
    (match t.router with | some x => g.routerDrop e x t.routed | none => g, r, false)
  else (g, r, false)

/-! ## Retests (R488, R489, Table 18-8) -/

/-- A kind of fault that is retested, with what the retest reads: readbacks exact, reads uncorrectable, lanes named. -/
inductive Retest where
  | scratchUe (b addr : Nat) (exact : List Bool)
  | scratchCe (b addr : Nat)
  | stackUe (off row : Nat) (ue : List Bool)
  | storeUe (addr : Nat) (ue : List Bool)
  | memTimeout
  | queue (seg q : Nat)
  | circuit (lanes : List Nat)
  | phase (dom ph : Nat)
deriving DecidableEq, Repr

/-- Is the fault hard, and after how many reads (Table 18-8)? -/
def Region.retestHard (e : REnv) (g : Region) : Retest → Bool × Nat
  | .scratchUe _ _ ex => (ex.any (fun x => !x), ex.length)
  | .scratchCe b a => (decide (16 ≤ g.noted 4 (131072 * b + a / 16) (e.ms - 86400000)), 0)
  | .stackUe _ _ ue => (decide (ue.length = 4) && ue.all id, ue.length)
  | .storeUe _ ue => (decide (ue.length = 4) && ue.all id, ue.length)
  | .memTimeout => (decide (4 ≤ g.noted 3 0 (e.frame - 1000)), 0)
  | .queue s q => (decide (16 ≤ g.noted 1 (32 * s + q) (e.ms - 1000)) || decide (4 ≤ g.noted 2 (32 * s + q) 0), 0)
  | .circuit lanes => (!lanes.isEmpty, 0)
  | .phase _ _ => (true, 0)

/-- Parcels that have a stream descriptor in the region. -/
def Region.streamParcels (g : Region) : List Nat :=
  (List.range 16).filter (fun p => (List.range 8).any (fun n => (List.range 256).any (fun i =>
    bitsOf (g.sd n i 0) 2 0 != 0 && bitsOf (g.sd n i 0) 6 3 == p)))

/-- The pseudo-channel of the line at stack offset `o` (07_region_store_hbm.md R194); its row there is the controller's choice. -/
def pseudoChannel (o : Nat) : Nat := (o / 2 ^ 8 % 64) ^^^ (o / 2 ^ 20 % 64)

/-- The action on a hard fault (Table 18-8). -/
def Region.retestAct (e : REnv) (g : Region) : Retest → Region
  | .scratchUe b _ _ => (g.planFence b 3).defect 1 2 (g.pblk e.region b)
  | .scratchCe b _ => (g.planFence b 3).defect 1 2 (g.pblk e.region b)
  | .stackUe off row _ => g.defect 7 2 (e.region + 2 ^ 5 * pseudoChannel off + 2 ^ 16 * row)
  | .storeUe _ _ => g
  | .memTimeout =>
    let g := g.wr HBM_STAT_TRAINED 0
    { g with tears := g.tears ++ g.streamParcels.map (fun p => (p, 7)) }
  | .queue s q => g.defect 4 2 (e.region / 6 + 2 ^ 2 * s + 2 ^ 5 * q)
  | .circuit lanes => lanes.foldl (fun g l => g.defect 5 2 l) g
  | .phase d p => g.defect 6 2 (e.region + 2 ^ 5 * d + 2 ^ 7 * p)

/-- The block that a retest concerns. -/
def Retest.block : Retest → Option Nat
  | .scratchUe b _ _ => some b
  | .scratchCe b _ => some b
  | _ => none

/-- RETEST: judge, act, record (R489); nothing where the region is lost or the unit fenced. -/
def Region.retest (e : REnv) (g : Region) (t : Retest) : Region :=
  if g.lost || (match t.block with | some b => g.isFenced b | none => false) then g
  else
    let h := g.retestHard e t
    let r : ErrRec := { cls := 7, subtype := 0xE3, level := 2, hard := h.1, specific := (if h.1 then 1 else 0) + 2 ^ 8 * h.2 }
    let g := match t.block with
      | some b => g.raiseBlk e b r
      | none => g.raise e r
    if h.1 then g.retestAct e t else g

/-! ## Fences (R483, R484) -/

/-- Step 7 of the boundary gap: the fences decided take effect, each with its record of subtype 0xE1; a fence decided
for a whole dark domain (cause 4) has the record of R419 instead. -/
def Region.applyFences (e : REnv) (g : Region) : Region :=
  g.fencing.foldl (fun (g : Region) x =>
    let w := x.1 / 32
    let g := g.wr RGN_FENCE_FENCED (g.rd RGN_FENCE_FENCED w ||| 2 ^ (x.1 % 32)) w
    let g := ({ g with ledger := g.ledger.filter (fun (y : Ledger) => y.b != x.1) } : Region).contribute (domainOf x.1)
    if x.2 = 4 then g
    else g.raiseBlk e x.1 { cls := 5, subtype := 0xE1, level := 2, specific := x.2 }) { g with fencing := [] }

/-- HOST_FENCE: RGN_SUSP_SEL.FENCE (R499). -/
def Region.hostFence (g : Region) (b : Nat) : Region := if b < 192 then g.planFence b 6 else g

/-! ## Power requests of a domain (15 R416, R422, R426) -/

/-- DOMAIN_STATE_REQUEST: `used` says that the domain has a member block of a parcel with an active context. -/
def Region.domRequest (g : Region) (k req : Nat) (used : Bool) : Region :=
  if req = 0 ∨ 3 ≤ req then g
  else if req = 2 ∧ used then g.set1 PWR_DOM_STAT_RETREF k
  else g.wr PWR_DOM_CTL_REQ req k

/-- OFS_WRITE (R416, R425, R426). -/
def Region.ofsWrite (e : REnv) (g : Region) (k v : Nat) : Region :=
  if 4 < v then g
  else if g.rd PWR_DOM_STAT_STATE k = 1 ∧ 72 < g.vidAt e.grade k g.cur v then g.refuseVid e k
  else g.wr PWR_DOM_CTL_OFS v k

/-! ## The region's register page -/

/-- An event counter of the region. -/
def Region.evc (g : Region) (i : Nat) : Evc := g.evcs.get evcZero i

/-- RGN_SUSP_VIEW (Table 18-17). -/
def Region.suspView (g : Region) : Word :=
  match g.ledger[g.rd RGN_SUSP_SEL_IDX]? with
  | none => 0
  | some x => BitVec.ofNat 32 (x.b + 2 ^ 8 + (if x.suspect then 2 ^ 9 else 0) + 2 ^ 10 * x.level + 2 ^ 13 * x.poisons +
      2 ^ 17 * x.trans)

/-- What a read of the region register at `o` returns. -/
def Region.pageRead (g : Region) (o : Nat) : Region × Word :=
  if 0x8000 ≤ o ∧ o < 0x10000 then
    let s := g.stake ((o - 0x8000) / 8)
    (g, if o % 8 = 0 then s.cntWord else s.cfg)
  else if o = 0x200 then (g, putBits (g.regs.word .region o) 14 0 g.beat)
  else if o = 0x608 then (g, (g.stake (g.rd STK_RSEL_IDX)).view)
  else if o = 0x80C then (g, g.suspView)
  else if o = 0x828 then (g, putBits (g.regs.word .region o) 6 0 g.recq.length)
  else if 0x900 ≤ o ∧ o < 0xA00 then
    let i := (o - 0x900) / 16
    let c := g.evc i
    if o % 16 = 4 then ({ g with evcs := g.evcs.put evcZero i { c with hi := c.cnt / 2 ^ 32 } }, c.readReg 4)
    else (g, c.readReg (o % 16))
  else if 0xA00 ≤ o ∧ o < 0xA80 then
    let i := (o - 0xA00) / 8
    let c := g.evc i
    if o % 8 = 0 then ({ g with evcs := g.evcs.put evcZero i { c with snapHi := c.snap / 2 ^ 32 } }, c.readSnap 0)
    else (g, c.readSnap 4)
  else if assigned .region o then (g, g.regs.word .region o)
  else (g, 0)

/-- The CLR bit of a saturating count of the region. -/
def Region.clrWrite (g : Region) (o : Nat) : Option Region :=
  match o with
  | 0x10004 => some { g with regs := g.regs.clearCount [RS_ECC_CNT_CE, RS_ECC_CNT_UE, RS_ECC_CNT_CESAT, RS_ECC_CNT_UESAT] }
  | 0x10104 =>
    some { g with regs := g.regs.clearCount [HBM_ECC_CNT_CE, HBM_ECC_CNT_UE, HBM_ECC_CNT_CESAT, HBM_ECC_CNT_UESAT] }
  | 0x10110 => some { g with regs := g.regs.clearCount [HBM_POISON_COUNT, HBM_POISON_SAT] }
  | 0x1704 => some { g with regs := g.regs.clearCount [STRM_FCNT_COUNT, STRM_FCNT_SAT] }
  | 0x60C => some { g with regs := g.regs.clearCount [STK_RTCNT_COUNT, STK_RTCNT_SAT] }
  | 0x610 => some { g with regs := g.regs.clearCount [STK_RGCNT_COUNT, STK_RGCNT_SAT] }
  | 0x218 => some { g with regs := g.regs.clearCount [RGN_CLK_STR_COUNT, RGN_CLK_STR_SAT] }
  | 0x828 => some { g with regs := g.regs.clearCount [RGN_ERRQ_LOST, RGN_ERRQ_LSAT] }
  | _ => none

/-- A write of STK_CFG (Table 10-8): RWS, TMO of 0 leaves TMO. -/
def Region.stkCfgWrite (e : REnv) (g : Region) (k : Nat) (v : Word) : Region :=
  if e.sealed || e.loading then g
  else
    let s := g.stake k
    let w := putBits (putBits (putBits s.cfg 6 0 v.toNat) 15 8 (if bitsOf v 15 8 = 0 then s.tmo else bitsOf v 15 8))
      31 16 (bitsOf v 31 16)
    g.setStake k { s with cfg := w }

/-- A write of RGN_SUSP_SEL: the fields, then FENCE and CLR (R499). -/
def Region.suspSelWrite (g : Region) (v : Word) : Region :=
  let g := (g.wr RGN_SUSP_SEL_IDX (RGN_SUSP_SEL_IDX.of v)).wr RGN_SUSP_SEL_B (RGN_SUSP_SEL_B.of v)
  let g := if RGN_SUSP_SEL_FENCE.on v then g.hostFence (RGN_SUSP_SEL_B.of v) else g
  if RGN_SUSP_SEL_CLR.on v then g.ledgerClear (RGN_SUSP_SEL_IDX.of v) else g

/-- A write of PWR_DOM_CTL of domain `k` (R416, R422, R426). -/
def Region.domCtlWrite (e : REnv) (g : Region) (k : Nat) (v : Word) (used : Bool) : Region :=
  let g := g.domRequest k (PWR_DOM_CTL_REQ.of v) used
  let g := g.ofsWrite e k (PWR_DOM_CTL_OFS.of v)
  if e.sealed || e.loading then g else g.wr PWR_DOM_CTL_FENCE (PWR_DOM_CTL_FENCE.of v) k

/-- SEGMENT_RECAL of slot `s` (08 R245): refused while a context is active in either region. -/
def Region.recal (g : Region) (s : Nat) (busy : Bool) : Region :=
  if busy then g.set1 XSEG_CTL_RREF s else g.wr XSEG_CTL_RBUSY 1 s

/-- Does the slot hold a segment (08 Table 8-14)? -/
def segExists (n slot : Nat) : Bool :=
  let f := n % 6
  if slot = 0 then f != 5 else f == 0 || f == 2

/-- Is the segment in the slot a vertical one (08 Table 8-14)? -/
def segVertical (n slot : Nat) : Bool := n % 2 == 0 && slot == 0

/-- Does the segment register at `o` of region `n` ignore writes: one of a slot marked "—", or XSEG_SPARE of a vertical segment
(08 R254)? -/
def segDead (n o : Nat) : Bool :=
  decide (0x400 ≤ o ∧ o < 0x500) && (!segExists n ((o - 0x400) / 128) || o % 128 == 0x10 && segVertical n ((o - 0x400) / 128))

/-- The bits that the word at `o` of a store stream (08 Table 8-8) or a stream descriptor (07 Table 7-2) holds; the others are
reserved and ignore what is written (00 R7). -/
def descMask (o : Nat) : Word :=
  if 0x1000 ≤ o ∧ o < 0x1400 then
    (match o % 16 with
     | 0 => 0x0FFFFFFF
     | 4 => 0x00000FFF
     | 8 => 0x0000FFFF
     | _ => 0xFFFFFFFF)
  else if 0x20000 ≤ o ∧ o < 0x30000 then
    (match o % 32 with
     | 0 => 0x0FFF1FFF
     | 4 => 0x0FFFFFFF
     | 8 => 0x0FFFFFFF
     | 12 => 0x0003FFFF
     | 16 => 0xFFFFFFFF
     | 20 => 0xFFFFFFFF
     | 24 => 0x0003FFFF
     | _ => 0x0000FFFF)
  else 0xFFFFFFFF

/-- A BAR0 write of the region register at `o`. The device's set of RREF prevails over a 1 written to it (00 R9); PCTL_ILIM takes 0x100 to
the rated current, 32 A for each phase in service (16 Table 16-8, 15 R414). `used k` says that domain `k` has a member of a parcel with an active
context, `busy s` that a context is active in either region of segment slot `s`. -/
def Region.pageWrite (e : REnv) (used busy : Nat → Bool) (g : Region) (o : Nat) (v : Word) : Region :=
  if 0x900 ≤ o ∧ o < 0xA00 ∧ o % 16 = 0 then
    { g with evcs := g.evcs.upd evcZero ((o - 0x900) / 16) (fun c => c.writeSel 1 v) }
  else if 0x900 ≤ o ∧ o < 0xA80 then g
  else if !assigned .region o then g.discard
  else
    let g := if e.loading && hasRws .region o then g.discard else g
    if 0x8000 ≤ o ∧ o < 0x10000 then (if o % 8 = 0 then g else g.stkCfgWrite e ((o - 0x8000) / 8) v)
    else if o = 0x10128 then g.zeroCtlWrite e v
    else if (o = 0x10120 ∨ o = 0x10124) ∧ g.fill.isSome then g.discard
    else if segDead e.region o then g
    else if 0x7A0 ≤ o ∧ o < 0x7B0 ∧
        (PCTL_ILIM_LIM.of v < 0x100 ∨ 256 * bitsSet (g.rd PWR_DOM_STAT_PHOK ((o - 0x7A0) / 4)) 8 < PCTL_ILIM_LIM.of v) then g
    else if o = 0x808 then g.suspSelWrite v
    else if 0x700 ≤ o ∧ o < 0x740 ∧ o % 16 = 0 then g.domCtlWrite e ((o - 0x700) / 16) v (used ((o - 0x700) / 16))
    else
      let g := if bitsOf v 31 31 ≠ 0 then (g.clrWrite o).getD g else g
      let s := (o - 0x400) / 128
      let g : Region := { g with regs := g.regs.softWrite .region (!e.sealed && !e.loading) o (v &&& descMask o) }
      if 0x400 ≤ o ∧ o < 0x500 ∧ o % 128 = 0 ∧ XSEG_CTL_RECAL.on v then g.recal s (busy s) else g

end Sys2Proof.Machine
end

