-- ==== Sys2Proof/Machine/CmdTypes.lean ====
section
/-!
DEFINITION. The operands of the commands (spec/opcode_table.json) that are not plain numbers: the unit that a command
addresses, and what the device measures or reads from outside when the command happens.
-/
namespace Sys2Proof.Machine

/-- A bad entry that a switch of shadow banks finds (11_plat.md R327): a block's, or a region controller's or edge's. -/
inductive ShadowErr where
  | block (blk : Nat)
  | region (n : Nat)
deriving DecidableEq, Repr

/-- An event counter (20_counters_perturbation.md Table 20-3): of a block, a region or the hub. -/
inductive CtrAt where
  | block (blk i : Nat)
  | region (n i : Nat)
  | hub (i : Nat)
deriving DecidableEq, Repr

/-- A check unit: of a block, or of the MC (23_address_map.md R569). -/
inductive ChkAt where
  | block (blk : Nat)
  | mc
deriving DecidableEq, Repr

/-- A waiter on a stake (10_stakes.md R282): a block's sight, a transfer's gate, a store stream's gate. -/
inductive WaitAt where
  | block (blk cyc : Nat)
  | engine (n cyc eng desc : Nat)
  | stream (n cyc i : Nat)
deriving DecidableEq, Repr

/-- A unit with stakes: a block's local stakes, or a region's. -/
inductive UnitAt where
  | block (blk cyc : Nat)
  | region (n cyc : Nat)
deriving DecidableEq, Repr

/-- Where a fabric word arrives (08_fabric_route_plans.md R217 to R250): at a block's router from its own interface; at
its input `src` (1 north, 2 south, 3 east, 4 west), where at a crossing the phase of the two clocks says that it was sent in cycle
`sent` (R239), and a word from outside that is an easement word has the order `order` of R237 (4: outward); at row `row` of a region's
edge; or at the hub's end of the shore link of column `lx` of a die's F0 (R223). -/
inductive WordAt where
  | launch (blk cyc : Nat)
  | input (blk cyc src order sent : Nat)
  | edge (n cyc row : Nat)
  | shore (die lx cyc : Nat)
deriving DecidableEq, Repr

/-- Where a drive word arrives (10_stakes.md R290): an inbound endpoint, or a write store stream with the word. -/
inductive LegAt where
  | endpoint (blk cyc ep : Nat)
  | stream (n cyc i : Nat) (w : FWord)
deriving DecidableEq, Repr

/-- A 2 µs window (16_power_control_grade.md R430): the mean current of a domain, or of an IBC, in mA. -/
inductive WinAt where
  | dom (n k ma : Nat)
  | ibc (k ma : Nat)
deriving DecidableEq, Repr

/-- A plat image as the MC reads it from host memory (11_plat.md R310): `none` when the read failed; whether its signature
verifies, and what the checker finds of the rules over times and routes, which the image's bodies settle (log 10): `none`
when it finds nothing, else code, section, record and detail. -/
structure ImageRead where
  image : Option PlatImage
  sigOk : Bool
  timed : Option (Nat × Nat × Nat × Nat)
deriving DecidableEq, Repr

/-- What a BAR0 write carries (00_scope.md R5): its size in bytes and its value. -/
structure BarWrite where
  size : Nat
  v : BitVec 64
deriving DecidableEq, Repr

/-- A scrub's cycle, and the errors that have appeared in its memory since the last one, each with its kind, 1 correctable, 2 not
(DESIGN CHOICE, log 56). -/
structure ScrubAt where
  cyc : Nat
  upsets : List (Nat × Nat)
deriving DecidableEq, Repr

/-- A BAR2 request (13_host_interface.md R371): a read of `len` bytes, a write of bytes, or a poisoned write of `len` bytes. -/
inductive Bar2Req where
  | read (len : Nat)
  | write (bytes : List Byte)
  | poisoned (len : Nat)
deriving DecidableEq, Repr

/-- What the device measures at a 1 ms sample (15_power_delivery.md R423, 16_power_control_grade.md R432 to R446): input
mV, mA and mW; inlet and hub junction temperature, hottest junction and stack temperature by region, in °C; by core domain
(4 n + k) mean and peak mA, mV, mW, compute cycles issued, fill cycles among them, cycles that QG alone withheld, blocks
filling; mA of the fabric rails; the rails by PMBus page. -/
structure Meas where
  inV : Nat
  inI : Nat
  inP : Nat
  inlet : Nat
  hubT : Nat
  tj : List Nat
  ts : List Nat
  iavg : List Nat
  ipeak : List Nat
  vavg : List Nat
  pow : List Nat
  cyc : List Nat
  fill : List Nat
  held : List Nat
  fblk : List Nat
  fab : List Nat
  rails : List Rail
deriving DecidableEq, Repr

/-- A failing known-answer run (17_bring_up_monument.md R457): physical block, whether it failed twice, and the physical
row or column that every failing comparison named. -/
structure KatFail where
  pblk : Nat
  twice : Bool
  row : Option Nat
  col : Option Nat
deriving DecidableEq, Repr

/-- What a cold-start stage found (17_bring_up_monument.md R452 to R457, Table 17-2): ms since the reference event; the units that
failed or did not finish (clocks, fabric rails, memories, stacks, soft-start phases as region, domain and phase, known-answer runs);
the margins measured on the segments, on the shore links (12 * die + column, by step of F0) and at the lane port ends; the lit slots with their power, the octets that did not lock. -/
structure StageResult where
  ms : Nat := 0
  noRef : Bool := false
  diePll : List Nat := []
  rgnPll : List Nat := []
  fabRail : List Nat := []
  segs : List (Nat × Nat × CalResult) := []
  shore : List (Nat × List Nat) := []
  ends : List EndCal := []
  lsrc : List (Nat × Nat) := []
  unlocked : List Nat := []
  sram : List Nat := []
  rgnMem : List Nat := []
  stkBad : List Nat := []
  phases : List (Nat × Nat × Nat) := []
  kat : List KatFail := []
  katRgn : List (Nat × Bool) := []
  katHub : Bool := false
deriving DecidableEq, Repr

end Sys2Proof.Machine
end

