-- ==== Sys2Proof/Syntax.lean ====
section
/-!
DEFINITION. The commands of Shadrito S24: one constructor per row of spec/opcode_table.json. `n` is a region's global
index, `blk` a chip-wide logical block number (01_dies_fields_blocks.md R23), `cyc` a region cycle counted from beat 0,
`port` a sightline or PCI Express port, `fn` a PCI Express function (17 × port, and 17 × port + 1 + p for VF p), `t` a time
in sixteenths of a reference period since cold reset, `v` a word written.
-/
namespace Sys2Proof
open Machine

/-- A command. -/
inductive Instr where
  /-- FRAME_TICK (R42): The frame length count expires, a new frame begins and the boundary gap sequence of Table 2-9 runs. -/
  | frameTick (bad : List ShadowErr)
  /-- STEP_TAIL (R43): Two microseconds before the tick, a region with a committed step stops issuing, which is also its deadline. -/
  | stepTail (n : Nat)
  /-- BEAT_START (R228): A new beat of 256 region cycles begins, and the region controller sends the pattern index one beat ahead. -/
  | beatStart (n : Nat)
  /-- EPOCH_EDGE (R37): An EPOCH edge arrives, causing a realignment or serving as a check edge. -/
  | epochEdge (pos : Nat)
  /-- FRM_LEN_WRITE (R35): A write of FRM_LEN is range-tested and takes effect at a later tick. -/
  | frmLenWrite (v : Word)
  /-- FRM_RES_WRITE (R35): A write of FRM_RES is range-tested and takes effect at a later tick. -/
  | frmResWrite (v : Word)
  /-- FRM_PHASE_WRITE (R40): A write of FRM_PHASE is range-tested and discarded while a context is active. -/
  | frmPhaseWrite (v : Word)
  /-- EPOCH_ARM (R37): A write of FRM_CTL.EPOCH_ARM arms realignment on the next EPOCH edge. -/
  | epochArm (v : Word)
  /-- FRM_NUM_LO_READ (R36): A read of FRM_NUM_LO latches the high frame-number bits into FRM_NUM_HI. -/
  | frmNumLoRead
  /-- CUT_FRAME_LO_READ (R332): A read of CUT_FRAME_LO latches the high bits of F. -/
  | cutFrameLoRead
  /-- CR_LAST_LO_READ (R392): A read of CR_LAST_LO latches bits [63:32] into CR_LAST_HI. -/
  | crLastLoRead (fn : Nat) (ring : Nat)
  /-- EVC_LO_READ (R527): A read of EVC_LO latches the counter's high bits. -/
  | evcLoRead (at_ : CtrAt)
  /-- EVC_SNAP_LO_READ (R527): A read of EVC_SNAP_LO latches the snapshot's high bits. -/
  | evcSnapLoRead (at_ : CtrAt)
  /-- REGISTER_WRITE (R6): A BAR0 write to a register with no row of its own acts by its access code, subject to seal, range and discard rules. -/
  | registerWrite (fn : Nat) (addr : Nat) (w : BarWrite)
  /-- COUNT_CLR (R476): Writing 1 to a CLR field clears a saturating count and its SAT flag. -/
  | countClr (addr : Nat)
  /-- TPUSH (R171): The core copies a 16-B command image into the tail of the sequencer queue, waiting while the queue is full. -/
  | tpush (blk : Nat) (cyc : Nat)
  /-- TFULL (R172): The core marks full the slot at a ring's fill position with header fields from rs2. -/
  | tfull (blk : Nat) (cyc : Nat)
  /-- TREL (R172): The core releases the slot at its take position and advances that position. -/
  | trel (blk : Nat) (cyc : Nat)
  /-- TADDR_T (R172): The core returns the address of the slot at its take position. -/
  | taddrT (blk : Nat) (cyc : Nat)
  /-- TADDR_F (R172): The core returns the address of the slot at a ring's fill position. -/
  | taddrF (blk : Nat) (cyc : Nat)
  /-- TFENCE (R173): The core waits until every earlier pushed command has its final outcome. -/
  | tfence (blk : Nat) (cyc : Nat)
  /-- TFRAME (R173): The core ends its frame's work and waits for beat 0 of the next frame. -/
  | tframe (blk : Nat) (cyc : Nat)
  /-- TCRC_B (R182): The core feeds one byte to the check unit's input buffer. -/
  | tcrcB (blk : Nat) (cyc : Nat)
  /-- TCRC_H (R182): The core feeds a half-word, low byte first, to the check unit. -/
  | tcrcH (blk : Nat) (cyc : Nat)
  /-- TCRC_W (R182): The core feeds a word, low byte first, to the check unit. -/
  | tcrcW (blk : Nat) (cyc : Nat)
  /-- SCALAR_INSTRUCTION (R163): The core executes one RV32IMC or Zicsr instruction in program order. -/
  | scalarInstruction (blk : Nat) (cyc : Nat)
  /-- MRET (R169): MRET clears INTRAP and resumes at mepc. -/
  | mret (blk : Nat) (cyc : Nat)
  /-- TERR_WRITE (R185): A write of terr writes a software breach record and may request teardown. -/
  | terrWrite (blk : Nat) (cyc : Nat)
  /-- SLOT_LOAD_TIMEOUT (R137): A tag-checked scalar load stalled on an empty slot times out after TMO cycles and takes an exception. -/
  | slotLoadTimeout (blk : Nat) (cyc : Nat)
  /-- CORE_START (R186): The MC writes SC_CTL.START and the halted core begins at SC_PC. -/
  | coreStart (blk : Nat) (cyc : Nat)
  /-- MATRIX_ISSUE (R65): The sequencer issues a matrix command once its operands, destination and accumulator set are ready, after the legality tests. -/
  | matrixIssue (blk : Nat) (cyc : Nat)
  /-- TILE_OUTCOME (R83): At the end of drain cycle 64, the comparison outcome and the error statistic of a pass are judged. -/
  | tileOutcome (blk : Nat) (cyc : Nat) (faults : List CellFault)
  /-- BANK_COMMAND_ISSUE (R156): A bank command issues when its source is full and its destination empty. -/
  | bankCommandIssue (blk : Nat) (cyc : Nat)
  /-- BANK_COMMAND_DONE (R156): A bank command's output is marked full and its source slots are released after its pass. -/
  | bankCommandDone (blk : Nat) (cyc : Nat)
  /-- CODEBOOK_LOAD (R101): The sequencer writes a codebook image once earlier users finish, or refuses an invalid image. -/
  | codebookLoad (blk : Nat) (cyc : Nat)
  /-- LOOKUP_LOAD (R149): The sequencer writes a lookup-table image once earlier users finish, or refuses an invalid image. -/
  | lookupLoad (blk : Nat) (cyc : Nat)
  /-- CHECK_COMMAND (R182): A check command issues when its slot is full and the check unit's buffer is empty, and it begins feeding bytes. -/
  | checkCommand (blk : Nat) (cyc : Nat)
  /-- CHECK_DONE (R182): A check command reaches its outcome LEN + 4 cycles after issue and sets CHK_STAT.DONE. -/
  | checkDone (blk : Nat) (cyc : Nat)
  /-- STAKE_DRIVE_COMMAND (R288): After every earlier command finishes, a drive is handed to the stake path or to the leg's drive queue. -/
  | stakeDriveCommand (blk : Nat) (cyc : Nat)
  /-- STAKE_SIGHT (R282): A sight issues and waits until its stake reaches COUNT. -/
  | stakeSight (blk : Nat) (cyc : Nat)
  /-- SIGHT_TIMEOUT (R294): A sight or gate unsatisfied after TMO × 256 cycles proceeds as if driven void. -/
  | sightTimeout (at_ : WaitAt)
  /-- PLAN_POINT (R179): A plan point names the planned cycle of the next command for delay accounting. -/
  | planPoint (blk : Nat) (cyc : Nat)
  /-- CB_LOAD (R103): BLK_CB_CTL.LOAD checks a codebook image under R98 and sets VALID or CBREF. -/
  | cbLoad (blk : Nat) (idx : Nat)
  /-- CB_DROP (R103): BLK_CB_CTL.DROP clears the VALID bit of a codebook index. -/
  | cbDrop (blk : Nat) (idx : Nat)
  /-- CHK_POLY_WRITE (R181): A write of CHK_CTL.POLY selects a polynomial and initialises the check unit. -/
  | chkPolyWrite (at_ : ChkAt) (p : Nat)
  /-- CHK_INIT (R181): Writing CHK_CTL.INIT initialises the check unit. -/
  | chkInit (at_ : ChkAt)
  /-- CHK_SEED (R183): A write to CHK_VAL_LO seeds the check unit with the given value. -/
  | chkSeed (at_ : ChkAt) (v : Word)
  /-- INBOUND_WORD (R138): An inbound router word is written to its slot or held, and a full holding buffer causes a breach. -/
  | inboundWord (blk : Nat) (cyc : Nat) (ep : Nat) (lost : Bool)
  /-- HELD_WORD_WRITE (R138): A held word is written once its slot is empty and the port is free. -/
  | heldWordWrite (blk : Nat) (cyc : Nat)
  /-- HOLD_WINDOW_EXPIRY (R138): A slot that holds words full for more than HWIN cycles causes a schedule breach. -/
  | holdWindowExpiry (blk : Nat) (cyc : Nat)
  /-- SCRUB_SLOT (R159): In a scrub slot the scrub engine reads, corrects and rewrites one scratchpad line. -/
  | scrubSlot (blk : Nat) (at_ : ScrubAt)
  /-- SP_PWR_WRITE (R161): A write of SP_PWR requests granule states, discarding requests that would power down an active context's ring. -/
  | spPwrWrite (blk : Nat) (v : Word)
  /-- TRANSFER_START (R199): A stream slot starts a transfer at the later of the slot and its gate count. -/
  | transferStart (n : Nat) (cyc : Nat) (eng : Nat) (desc : Nat)
  /-- REQUEST_ACCEPTED (R200): A stream request is accepted once its queue share has room. -/
  | requestAccepted (n : Nat) (cyc : Nat) (eng : Nat) (desc : Nat)
  /-- LINE_LANDED (R202): A request completes and drives DONE when its transfer and all earlier ones are complete. -/
  | lineLanded (n : Nat) (cyc : Nat) (eng : Nat) (desc : Nat) (k : Nat) (first : Nat)
  /-- REQUEST_ABANDON (R211): A request not complete 10 µs after acceptance is abandoned and its transfer drives DONE void. -/
  | requestAbandon (n : Nat) (cyc : Nat) (eng : Nat) (desc : Nat) (k : Nat) (first : Nat)
  /-- STORE_STREAM_ACCESS (R234): A store stream makes a planned region-store access when its gate count allows. -/
  | storeStreamAccess (n : Nat) (cyc : Nat) (idx : Nat) (port : Nat)
  /-- STORE_SCRUB (R210): Region-store scrub reads and corrects one line per scrub cycle. -/
  | storeScrub (n : Nat) (at_ : ScrubAt)
  /-- PATROL_SCRUB (R209): Patrol scrub reads stack lines through the management share. -/
  | patrolScrub (n : Nat) (at_ : ScrubAt)
  /-- MEM_ZERO_START (R214): MEM_ZERO_CTL.START starts a zero-fill, or refuses it. -/
  | memZeroStart (n : Nat) (v : Word)
  /-- ZERO_FILL_DONE (R214): A zero-fill writes its last line and sets DONE. -/
  | zeroFillDone (n : Nat) (cyc : Nat)
  /-- WORD_ARRIVAL (R219): A fabric word reaches an input and is checked for parity, parcel, generation, stamp and routing. -/
  | wordArrival (at_ : WordAt) (got : Option FWord)
  /-- MARGIN_SAMPLE (R244): The margin monitor samples in easement cycle 7 and pins the segment below 40 ps. -/
  | marginSample (n : Nat) (slot : Nat) (ps : Nat)
  /-- SEGMENT_RECAL (R245): XSEG_CTL.RECAL starts a segment recalibration, or refuses it while a context is active. -/
  | segmentRecal (n : Nat) (slot : Nat)
  /-- RECAL_DONE (R245): A recalibration completes, and the pin clears when it passes. -/
  | recalDone (n : Nat) (slot : Nat) (r : CalResult)
  /-- CIRCUIT_LOCK_LOST (R251): A die-to-die circuit losing lock or margin stops delivering until the next plat load. -/
  | circuitLockLost (oct : Nat) (margin : Nat)
  /-- TILE_RECEIVED (R263): An inbound endpoint checks an arriving part and assembles deliveries into slots. -/
  | tileReceived (blk : Nat) (cyc : Nat) (ep : Nat)
  /-- DELIVERY_FULL (R263): A complete delivery's slot is marked full once its words are written and earlier deliveries are full. -/
  | deliveryFull (blk : Nat) (cyc : Nat) (ep : Nat)
  /-- STORE_IN_TILE (R270): A write store stream checks and writes a store-in tile and saves its header. -/
  | storeInTile (n : Nat) (cyc : Nat) (idx : Nat) (port : Nat) (got : Option FWord)
  /-- LANDING_TILE (R360): A sightline leg tile lands in a store tile of its landing record. -/
  | landingTile (port : Nat) (cyc : Nat)
  /-- DRIVE_WORD_RECEIVED (R290): A drive word passes the leg check and the DSEQ check, and it drives the named stake. -/
  | driveWordReceived (at_ : LegAt)
  /-- DRIVE_APPLIED (R298): A queued drive is applied to its stake in arrival order, dropping trespasses and stale generations. -/
  | driveApplied (at_ : UnitAt)
  /-- PLAT_LOAD (R315): The plat-load command starts reading the image, or is refused. -/
  | platLoad (fn : Nat) (ring : Nat) (slot : Nat)
  /-- PLAT_IMAGE_READ_DONE (R310): With the image read, the MC checks it in order and rejects it at the first failure. -/
  | platImageReadDone (image : ImageRead)
  /-- PLAT_SEAL (R315): Once all sections are written the plat is sealed, and it becomes active at the next tick. -/
  | platSeal
  /-- PLAT_UNLOAD (R318): The plat-unload command unseals the device at the next tick, or is refused. -/
  | platUnload (fn : Nat) (ring : Nat) (slot : Nat)
  /-- PLAT_CUTOVER (R319): The cut-over command starts a check of the new plat or a revert. -/
  | platCutover (fn : Nat) (ring : Nat) (slot : Nat)
  /-- CUT_CANCEL (R326): A host cancel abandons a cut-over before the decision point. -/
  | cutCancel (fn : Nat) (ring : Nat) (slot : Nat)
  /-- CUT_ACKNOWLEDGE (R322): A region controller's acknowledgement of its armed share reaches the MC. -/
  | cutAcknowledge (n : Nat)
  /-- CUT_WITHDRAWAL (R322): A region controller withdraws its acknowledgement after a shadow error or a fence. -/
  | cutWithdrawal (n : Nat)
  /-- DECISION_POINT (R323): One microsecond before F, the MC sets the switch flag or abandons. -/
  | decisionPoint
  /-- LANE_LOCK (R338): A lane locks after four good markers, and the port aligns. -/
  | laneLock (port : Nat) (t : Nat) (lane : Nat) (marks : List (List Byte)) (skewOk : Bool)
  /-- LANE_LOCK_LOST (R338): A locked lane misses four markers and loses lock. -/
  | laneLockLost (port : Nat) (t : Nat) (lane : Nat) (marks : List (List Byte))
  /-- SHOT_RECEIVED (R341): An arriving shot is checked for CRC and SEQ and is accepted or discarded. -/
  | shotReceived (port : Nat) (t : Nat) (shot : Shot)
  /-- REPLAY_TIMEOUT (R342): An unacknowledged shot waiting 4 µs starts a replay, or exceeds the retry bound. -/
  | replayTimeout (port : Nat) (t : Nat)
  /-- SIGHTLINE_WORD_ENQUEUE (R340): A word reaches the port and enters the send buffer, or is discarded. -/
  | sightlineWordEnqueue (port : Nat) (t : Nat) (leg : Nat) (mark : Bool) (got : Option FWord)
  /-- DATUM_TIMER (R348): In DATUM and HOLD a port sends a datum every 20 µs. -/
  | datumTimer (port : Nat) (t : Nat)
  /-- DATUM_RECEIVED (R350): A received datum updates latency and offset and is judged for agreement. -/
  | datumReceived (port : Nat) (t : Nat)
  /-- FRAME_VOID_NOTICE (R359): A received frame-void notice drives the affected stakes void and voids landed tiles. -/
  | frameVoidNotice (port : Nat)
  /-- VOID_CONTEXT_RECEIVED (R515): A received void-context message makes the parcel leave the port. -/
  | voidContextReceived (port : Nat)
  /-- SL_SWAP (R353): SL_CTL.SWAP requests a role swap in the next datum. -/
  | slSwap (port : Nat)
  /-- SL_RESET (R345): SL_CTL.RESET puts the port in OFF and clears its buffers. -/
  | slReset (port : Nat)
  /-- LSRC_INSERT (R335): An inserted laser source is enabled and lit. -/
  | lsrcInsert (k : Nat) (power : Nat)
  /-- LSRC_REMOVE (R335): A removed or disabled source darkens its octets. -/
  | lsrcRemove (k : Nat)
  /-- LSRC_FAULT (R335): A source unlit within 2 s, or low for 10 ms, faults. -/
  | lsrcFault (k : Nat) (power : Nat)
  /-- DOORBELL (R374): A write of CR_DB advertises produced slots, or puts the ring in error. -/
  | doorbell (fn : Nat) (ring : Nat) (v : Word)
  /-- ITEM_BEGIN (R376): The item at CR_CI begins once covered, fenced and given room, with the serial check. -/
  | itemBegin (fn : Nat) (ring : Nat) (bytes : Option (List Byte))
  /-- NOP (R379): A NOP completes at begin. -/
  | nop (fn : Nat) (ring : Nat) (slot : Nat)
  /-- STAKE_DRIVE (R381): A STAKE_DRIVE item applies its drive entries in order. -/
  | stakeDrive (fn : Nat) (ring : Nat) (slot : Nat)
  /-- DMA_TO_DEV (R380): A DMA_TO_DEV item copies host data to device memory and optionally drives a stake. -/
  | dmaToDev (fn : Nat) (ring : Nat) (slot : Nat) (bytes : List Byte)
  /-- DMA_FROM_DEV (R380): A DMA_FROM_DEV item copies device memory to host memory. -/
  | dmaFromDev (fn : Nat) (ring : Nat) (slot : Nat)
  /-- CTX_ADMIT (R502): A CTX_ADMIT item is refused, or starts loading the parcel. -/
  | ctxAdmit (fn : Nat) (ring : Nat) (slot : Nat)
  /-- CTX_TEARDOWN (R506): A CTX_TEARDOWN item requests the teardown of a parcel's context. -/
  | ctxTeardown (fn : Nat) (ring : Nat) (slot : Nat)
  /-- TESTPACK (R494): A TESTPACK item loads a signed fleet test pack, or is refused. -/
  | testpack (fn : Nat) (ring : Nat) (slot : Nat) (pack : Option (List Byte)) (sigOk : Bool)
  /-- ITEM_COMPLETE (R382): A finished item writes its completion entry and may raise its vector. -/
  | itemComplete (fn : Nat) (ring : Nat)
  /-- RING_FLUSH (R383): CR_CTL.FLUSH completes unbegun items up to the sampled doorbell as flushed. -/
  | ringFlush (fn : Nat) (ring : Nat) (hdrs : List (List Byte))
  /-- RING_DISABLE (R384): A write of CR_CTL.EN = 0 aborts unbegun items and clears EN when begun items finish. -/
  | ringDisable (fn : Nat) (ring : Nat) (v : Word) (hdrs : List (List Byte))
  /-- BAR2_ACCESS (R371): A BAR2 request is judged per line and performed in management cycles or shares. -/
  | bar2Access (fn : Nat) (off : Nat) (req : Bar2Req)
  /-- FIELD_BOOK_WRITE (R389): A waiting record is written to a field book ring once it has room. -/
  | fieldBookWrite (fn : Nat)
  /-- FLR (R391): A function level reset disables the function's rings and aborts its DMAs. -/
  | flr (fn : Nat)
  /-- LINK_DOWN (R391): Link down or hot reset resets every function of the port. -/
  | linkDown (port : Nat)
  /-- D3HOT (R391): Entering D3hot stops new items from beginning. -/
  | d3hot (fn : Nat)
  /-- STEP_COMMIT (R397): At the nominal reserve start, the region controller commits the slowest requested step or refuses it. -/
  | stepCommit (n : Nat)
  /-- IDLE_PLL_LOCK (R399): The idle PLL locks at the new step and LOCKB is set. -/
  | idlePllLock (n : Nat)
  /-- PLL_LOCK_DEADLINE (R399): An idle PLL not locked by −2,500 ns refuses the step. -/
  | pllLockDeadline (n : Nat)
  /-- REGULATOR_REPORT (R401): The domain regulators report the new voltage level for a step. -/
  | regulatorReport (n : Nat)
  /-- REF_LOST (R406): Loss of REFCLK switches the reference PLL to holdover. -/
  | refLost
  /-- REF_RETURN (R558): A returned reference is switched back at the next tick. -/
  | refReturn
  /-- DIE_PLL_LOST (R407): A die PLL losing lock stops its regions and writes a fatal record. -/
  | diePllLost (die : Nat)
  /-- REGION_PLL_LOST (R407): A region PLL losing lock while driving the clock loses the region. -/
  | regionPllLost (n : Nat)
  /-- DROOP_TRIP (R404): A domain droop detector trips and the core clocks skip every second cycle. -/
  | droopTrip (n : Nat) (cyc : Nat) (dom : Nat)
  /-- DROOP_CLEAR (R404): Stretching stops 16 cycles after the detector clears. -/
  | droopClear (n : Nat) (cyc : Nat) (dom : Nat) (skipped : Nat)
  /-- POWER_SAMPLE (R423): Each 1 ms sample latches measurements and runs the thermal, governor and input checks. -/
  | powerSample (m : Meas)
  /-- CURRENT_WINDOW (R430): At the end of each 2 µs window, QI falls or rises against the current limit. -/
  | currentWindow (at_ : WinAt)
  /-- CONTROL_INTERVAL (R439): In each 64 µs interval, QC, QG and fill are adjusted from the fast draw estimate. -/
  | controlInterval (draws : List Nat)
  /-- MAIN_INPUT_LOST (R411): The main input out of range for 10 µs shuts the converters down and takes the device out of service. -/
  | mainInputLost
  /-- CONVERTER_FAULT (R413): An IBC or HBC that stops regulating loses its regions. -/
  | converterFault (hbc : Bool) (k : Nat)
  /-- PHASE_LOST (R418): A faulty IVR phase is turned off and the domain is capped at 13/16. -/
  | phaseLost (n : Nat) (dom : Nat) (ph : Nat)
  /-- FABRIC_PHASE_LOST (R420): A fabric rail phase is lost, and losing both loses the region. -/
  | fabricPhaseLost (n : Nat) (ph : Nat)
  /-- PHASE_TEST (R417): A soft-start phase test, or its retry after 1 ms, passes or latches the phase. -/
  | phaseTest (n : Nat) (dom : Nat) (ph : Nat) (pass : Bool)
  /-- DOMAIN_STATE_REQUEST (R422): A write of PWR_DOM_CTL.REQ requests on or retain for the next boundary, or is refused. -/
  | domainStateRequest (n : Nat) (dom : Nat) (req : Nat)
  /-- OFS_WRITE (R416): A write of OFS sets the suspect offset, or is refused at 0.900 V. -/
  | ofsWrite (n : Nat) (dom : Nat) (v : Nat)
  /-- PCAP_WRITE (R436): A write of PCAP sets the cap in force at once or ramps it. -/
  | pcapWrite (v : Word)
  /-- AGE_MEASURE (R449): The hourly ageing measurement may raise AGE and append a monument entry. -/
  | ageMeasure (n : Nat) (dom : Nat) (slack : Nat)
  /-- HOURS_RECORD (R465): After each 24 h of main power, an hours record is appended. -/
  | hoursRecord (ok : Bool)
  /-- PMBUS_PAGE (R424): PAGE selects a rail page. -/
  | pmbusPage (v : Nat) (pec : Option Bool)
  /-- PMBUS_CLEAR_FAULTS (R424): CLEAR_FAULTS clears the PMBus status commands. -/
  | pmbusClearFaults (pec : Option Bool)
  /-- VOUT_MODE (R424): VOUT_MODE returns the linear exponent. -/
  | voutMode
  /-- STATUS_WORD (R424): STATUS_WORD returns the page's status. -/
  | statusWord
  /-- STATUS_IOUT (R424): STATUS_IOUT returns phase-loss and cap status. -/
  | statusIout
  /-- STATUS_INPUT (R424): STATUS_INPUT returns the input low and loss status. -/
  | statusInput
  /-- STATUS_CML (R424): STATUS_CML returns communication faults. -/
  | statusCml
  /-- READ_VIN (R424): READ_VIN returns the page's input voltage. -/
  | readVin
  /-- READ_IIN (R424): READ_IIN returns the main input current. -/
  | readIin
  /-- READ_VOUT (R424): READ_VOUT returns the output voltage. -/
  | readVout
  /-- READ_IOUT (R424): READ_IOUT returns the average output current. -/
  | readIout
  /-- READ_TEMPERATURE_1 (R424): READ_TEMPERATURE_1 returns the hottest phase temperature. -/
  | readTemperature1
  /-- READ_POUT (R424): READ_POUT returns the output power. -/
  | readPout
  /-- READ_PIN (R424): READ_PIN returns the input power. -/
  | readPin
  /-- PMBUS_REVISION (R424): PMBUS_REVISION returns 0x33. -/
  | pmbusRevision
  /-- PMBUS_UNSUPPORTED (R424): An unsupported command code is not acknowledged and sets STATUS_CML bit 7. -/
  | pmbusUnsupported (code : Nat)
  /-- POWER_ON (R452): The auxiliary input in range with PERST_N high starts cold start at stage 1. -/
  | powerOn
  /-- AUX_INPUT_LOST (R469): Loss of the auxiliary input loses every state. -/
  | auxInputLost
  /-- COLD_RESET (R518): PERST_N low for 1 µs restarts cold start from stage 1 and keeps the crash log. -/
  | coldReset
  /-- HUB_RST_COLD (R518): A PF write of HUB_RST with KEY 0x5A and COLD = 1 causes a cold reset. -/
  | hubRstCold (v : Word)
  /-- JTAG_COLD_RESET (R518): The IEEE 1149.1 cold-reset instruction causes a cold reset. -/
  | jtagColdReset
  /-- STAGE_END (R452): A cold-start stage ends and the next begins, ending at ready or halt. -/
  | stageEnd (r : StageResult)
  /-- STAGE_LIMIT (R454): A stage that exceeds its limit treats its unfinished units as failed. -/
  | stageLimit (r : StageResult)
  /-- JTAG_FIRMWARE_LOAD (R458): In recovery, a firmware image is accepted into slot A over JTAG. -/
  | jtagFirmwareLoad (image : FwImage)
  /-- MAILBOX_REQUEST (R467): MON_MBX_CTL.GO runs a signed monument request and writes STATUS and DONE. -/
  | mailboxRequest (req : Option (List Byte)) (sigOk : Bool) (image : FwImage) (flashOk : Bool)
  /-- CRASH_LOG_DELIVERY (R519): After ready, the crash log is delivered to the first enabled PF field book ring. -/
  | crashLogDelivery
  /-- REGION_RECORD_RECEIVED (R474): A region controller receives an error record, acts on it and queues it for the MC. -/
  | regionRecordReceived (blk : Nat) (t : Trace)
  /-- HUB_RECORD_RECEIVED (R475): An error record reaches the hub error queue, or is dropped. -/
  | hubRecordReceived (n : Nat)
  /-- SUSPECT_CLEAR (R481): After CLRF × 256 clean frames a suspect entry clears. -/
  | suspectClear (n : Nat) (idx : Nat)
  /-- LEDGER_RELEASE (R481): An entry with 24 h of main power without poison is released. -/
  | ledgerRelease (n : Nat) (idx : Nat)
  /-- RETEST (R489): A possibly permanent fault is retested and judged hard or soft. -/
  | retest (n : Nat) (r : Retest)
  /-- HOST_FENCE (R499): RGN_SUSP_SEL.FENCE fences block B at the next boundary. -/
  | hostFence (n : Nat) (b : Nat)
  /-- LEDGER_CLEAR (R499): RGN_SUSP_SEL.CLR releases a ledger entry and withdraws its responses. -/
  | ledgerClear (n : Nat) (b : Nat)
  /-- TESTPACK_ROUND (R496): A test pack round starts every PERIOD frames and writes a result record at its end. -/
  | testpackRound
  /-- TEST_TILE_DONE (R495): A test tile's CRC and checksums are judged, and a second failure poisons the block. -/
  | testTileDone (blk : Nat) (cyc : Nat) (test : Nat) (faults : List CellFault)
  /-- TESTPACK_STOP (R494): TPK_CTL.STOP ends the pack at the next boundary. -/
  | testpackStop
  /-- TEARDOWN_REQUEST (R508): A teardown request fences the context at the next boundary, or ends loading. -/
  | teardownRequest (p : Nat) (cause : Nat)
  /-- LOADING_DONE (R503): The MC finishes writing a parcel's station state during loading. -/
  | loadingDone (p : Nat)
  /-- CLEARING_DONE (R512): The last range of a clearing parcel is zeroed and the parcel becomes idle. -/
  | clearingDone (p : Nat)
  /-- EVC_FREEZE (R528): EVC_CTL.FREEZE freezes or resumes every counter at the next tick. -/
  | evcFreeze (v : Word)
  /-- PERT_XDLY_ARM (R532): PERT_XDLY arms a crossing capture delay, or refuses it beyond the margin. -/
  | pertXdlyArm (v : Word)
  /-- PERT_SLHOLD_ARM (R533): PERT_SLHOLD arms a hold of a sightline port's sending side. -/
  | pertSlholdArm (v : Word)
  /-- SL_HOLD_START (R533): At START µs after beat 0 the port stops sending word shots. -/
  | slHoldStart (port : Nat)
  /-- SL_HOLD_END (R533): After DUR µs the port resumes sending in buffer order. -/
  | slHoldEnd (port : Nat) (t : Nat)
  /-- PERT_FSTR_ARM (R534): PERT_FSTR arms a stretch of the next COUNT frames by ADD periods. -/
  | pertFstrArm (v : Word)
  /-- PERT_TMO_ARM (R535): PERT_TMO arms a forced timeout of one stake, ring or stream engine. -/
  | pertTmoArm (v : Word)
  /-- FORCED_TIMEOUT (R535): The targeted event times out at once and the control clears. -/
  | forcedTimeout (cyc : Nat)
  /-- PERT_MISM_ARM (R536): PERT_MISM arms mismatch injection on every EVERY-th tenant command. -/
  | pertMismArm (v : Word)
  /-- PERT_LOCK (R531): PERT_CTL.LOCK disarms every control and locks the registers until cold reset. -/
  | pertLock
  /-- MAIN_INPUT_APPLIED (R452): The 48 V main input comes into range while stage 1 waits for it, and cold start proceeds to stage 2. -/
  | mainInputApplied
  /-- DOUBLED_REFRESH (R192): A stack die reports above 85 °C, or falls back, and the controller enters or leaves doubled refresh, with HBM_STAT.HOT following. -/
  | doubledRefresh (n : Nat) (hot : Bool)
  /-- LINK_UP (R367): A PCI Express port completes training and its link comes up, setting HIF_STAT.LINKn. -/
  | linkUp (port : Nat)
  /-- POWER_STATE_D0 (R391): A function returns from D3hot to D0, so items may begin again and waiting field book records are written. -/
  | powerStateD0 (fn : Nat)
  /-- MSIX_VECTOR_UNMASK (R386): The host unmasks an MSI-X vector whose PBA bit is set, and the pending message is sent. -/
  | msixVectorUnmask (fn : Nat) (vec : Nat)
  /-- REGION_CONTROLLER_FAULT (R490): A region controller takes a double fault or finds its own memory uncorrectable, and the region is lost with cause 0xA. -/
  | regionControllerFault (n : Nat)
  /-- MANAGEMENT_PATH_CUT (R490): A region's management path to the MC is found cut, and the region is lost with cause 0xB together with the regions behind it. -/
  | managementPathCut (n : Nat)
deriving DecidableEq, Repr

end Sys2Proof
end

