-- ==== Sys2Proof/Decode.lean ====
section
/-!
DEFINITION. The words of the command table. Every row of spec/opcode_table.json has an empty list of bit fields: the
device takes events and register accesses, and no command is spelled by a word.
-/
namespace Sys2Proof

/-- The command that a word spells by the table's bits: none, since no row gives bits. -/
def decodeTableWord (_nbits _w : Nat) : Option Instr := none

end Sys2Proof
end

