-- ==== Sys2Proof/Machine/BlockTime.lean ====
section
/-!
DEFINITION. What passes with time in one block and at the end of a tile's drain: the delay and its causes (02_the_frame.md R48,
06_scalar_core.md R179; 04_number_formats.md R123), the check unit's bytes (06 R182), the tiles on their way through the drain
path (05 R141), the outcomes of a tile's passes (03_cell_array.md R83 to R88, 04 R116 to R118).
-/
namespace Sys2Proof.Machine

/-! ## Delay (02 R48, 06 R179) -/

/-- The entry that holds the queue: it waits to issue, or counts as unable to issue until its final outcome (R175). -/
def Block.holder (b : Block) : Option QEntry := b.seq.q.find? (fun x => x.st == .waiting || x.waitsPlan)

/-- Does the holder wait only for the array or for its accumulator set: its slots are there? -/
def Block.holderReady (b : Block) : Bool :=
  match b.holder with
  | some x => x.cmd.opc == 1 && b.sourcesFull x.cmd && b.destsEmpty x.cmd
  | none => false

/-- Does the holder wait on a slot or a stake that is fed over a sightline leg (Table 2-10)? -/
def Block.lateSl (e : Env) (b : Block) : Bool :=
  match b.holder with
  | none => false
  | some x =>
    let fed (hit : Nat → Bool) : Bool := (List.range 64).any (fun k =>
      b.bit LEP_A0_EN k && !b.bit LEP_A0_DIR k && e.slLegs.contains (b.rd LEP_A0_LEG k) && hit k)
    if x.cmd.opc = 7 then
      decide ((b.stake (x.cmd.stake % 64)).cnt < x.cmd.count) &&
        fed (fun k => (b.rd (if k % 2 = 0 then LEP_STK_STK0 else LEP_STK_STK1) (k / 2)) == x.cmd.stake)
    else
      (b.srcRings x.cmd).any (fun r => !b.slotFull r (b.headSrc r) && fed (fun k => b.rd LEP_A0_RING k == r))

/-- The issued matrix and bank commands. -/
def Block.runsNow (b : Block) : List (QEntry × Run) :=
  b.seq.q.filterMap (fun x => if x.cmd.opc = 1 ∨ x.cmd.opc = 2 then x.issued?.map (fun r => (x, r)) else none)

/-- Has the limiter stalled the tile (R67)? -/
def QEntry.stalled (x : QEntry) (r : Run) : Bool := decide (computeCycles r.ta r.tb x.cmd.k < r.ce - r.fc)

/-- The active cause with the lowest code in cycle `c` (Table 2-10); 7 when none of the others is active (R179). A substituted tile's
excess stands under cause 2 in the cycles by which it delays the next issue (R123), and a command withheld by a stalled tile
under cause 3 (R428; DEDUCED, log 42). -/
def Block.cause (e : Env) (b : Block) (c : Nat) : Nat :=
  let live := b.runsNow.filter (fun x => decide (c < x.2.de))
  if live.any (fun x => x.2.pass == 1) then 1
  else if live.any (fun x => x.2.pass == 2 ||
      x.2.excess != 0 && (b.holderReady || decide (x.2.ce ≤ c + 3 + x.2.excess) && decide (c + 3 < x.2.ce))) then 2
  else if b.holderReady && live.any (fun x => x.1.stalled x.2) then 3
  else if e.droop then 4
  else if b.lateSl e then 5
  else if e.pert then 6
  else 7

/-- The delay that a planned command gives before cycle `cyc`: while it waits (R179); one cycle for each of the tile time of its
replay or widened re-run (R84, R86); one for each cycle by which its substituted pair is the longer (R123). -/
def QEntry.lateAt (x : QEntry) (cyc : Nat) : Nat :=
  match x.plan with
  | none => 0
  | some p =>
    match x.issued? with
    | none => cyc - p
    | some r =>
      if x.waitsPlan then cyc - p
      else if r.pass ≠ 0 then r.late + min (cyc - r.cyc) (r.de - r.cyc)
      else if r.excess ≠ 0 then r.late + min (cyc - (r.ce - 3 - r.excess)) r.excess
      else 0

/-- The delay that the planned commands give before cycle `cyc` (R84, R86, R179). -/
def Block.delayAt (b : Block) (cyc : Nat) : Nat :=
  b.seq.q.foldl (fun d x => max d (x.lateAt cyc)) (b.rd SEQ_DELAY_DELAY)

/-- The scalar core's cycle counter runs while the core does (R167); a core that was cut is stopped (R173). -/
def Block.coreCycles (b : Block) (dt : Nat) : Block :=
  if b.core.mode == .halted || b.core.mode == .cut || b.core.mcountinhibit.getLsbD 0 then b
  else { b with core := { b.core with mcycle := (b.core.mcycle + dt) % 2 ^ 64 } }

/-- Let the cycles from the block's last one to `t` pass, in which no tile changes its stage: the delay grows and each cycle of growth
is charged to the active cause (R48, R179); cycle events are counted; the check unit and the core's counter run. -/
def Block.span (e : Env) (t : Nat) (b : Block) : Block :=
  if t ≤ b.seq.lastCyc then b
  else
    let dt := t - b.seq.lastCyc
    let d0 := b.rd SEQ_DELAY_DELAY
    let d := min (b.delayAt t) 0xFFFFFF
    let c := b.cause e b.seq.lastCyc
    let b := if d0 < d then
        (b.wr SEQ_DELAY_DELAY d).wr SEQ_CHG_CYC (min (b.rd SEQ_CHG_CYC (c - 1) + (d - d0)) 0xFFFFFF) (c - 1)
      else b
    let b := b.count e 0x001 none dt
    let b := b.count e (if e.droop then 0x006 else 0x002) none dt
    let b := match b.holder with
      | some x => b.count e (if x.cmd.opc = 7 then 0x016 else 0x015) (some e.parcel) dt
      | none => b
    let b := (b.chkRun dt).coreCycles dt
    { b with seq := { b.seq with lastCyc := t } }

/-- The cycles up to `t` in which a tile of the block changes its stage, or a planned cycle is reached, in rising order. -/
def Block.stages (b : Block) (t : Nat) : List Nat :=
  let ts := b.seq.q.flatMap (fun x =>
    (match x.plan with | some p => [p] | none => []) ++
    (match x.st with
     | .issued r => [r.ce - 3 - r.excess, r.ce - 3, r.ce, r.de]
     | .landing _ _ at_ => [at_]
     | .waiting | .refused => []))
  sortBy (fun (a : Nat) c => decide (a ≤ c)) (ts.filter (fun c => decide (b.seq.lastCyc < c) && decide (c < t)))

/-- Let the block's time pass up to cycle `e.cyc`: stage by stage the delay is charged and decided tiles complete (R141); a new rate
of the limiter then acts on the running tiles (R67). -/
def Block.advance (e : Env) (b : Block) : Block :=
  let b := (b.stages e.cyc ++ [e.cyc]).foldl (fun (b : Block) t => (b.span e t).land e t) b
  (b.retime e).showSets e.cyc

/-- The stages of running tiles that cycle `e.cyc` has not reached come `k` cycles later: the core cycles that a stretch skipped
(R67). -/
def Block.slip (e : Env) (b : Block) (k : Nat) : Block :=
  let late (t : Nat) : Nat := if e.cyc < t then t + k else t
  { b with seq := { b.seq with q := b.seq.q.map (fun x =>
      match x.st with
      | .issued r =>
        let skip := if r.fc ≤ e.cyc ∧ e.cyc < r.ce then r.skip + k else r.skip
        { x with st := .issued { r with fc := late r.fc, ce := late r.ce, de := late r.de, mark := late r.mark, skip := skip } }
      | .landing r h at_ => { x with st := .landing r h (late at_) }
      | .waiting | .refused => x) } }

/-! ## Outcomes of a tile (R83 to R88, R116 to R118) -/

/-- Start another pass of `x`: a replay (1) or a widened re-run (2), issued in the next cycle from the same slots and the same bias
vector into the same set (R84, R86, R117). -/
def Block.rerun (e : Env) (b : Block) (x : QEntry) (r : Run) (pass : Nat) (stat : Word) : Block :=
  let t := e.cyc + 1
  let b := b.cancelAfter x.id
  let r : Run := { r with pass := pass, stat := stat, late := b.delayAt t }
  let r := { r.timed t (t + 3) e.q x.cmd.k 0 (r.ta, r.tb) with excess := 0 }
  let b := (b.accumulate x.cmd r (x.bias.getD [])).setEntry x.id (fun y => { y with st := .issued r })
  let b := if pass = 1 then b.set1 BLK_MX_STAT_REPLAY else b.wr BLK_MX_STAT_REPLAY 0
  let b := b.count e (if pass = 1 then 0x011 else 0x012) (some e.parcel)
  { b with seq := { b.seq with replays := if pass = 1 then b.seq.replays + 1 else b.seq.replays } }

/-- Poison a tile (R85, R47): void output with the header of the pass that drained last (R257), POISON and, unless injected (R536),
SUSPECT. -/
def Block.poison (e : Env) (b : Block) (x : QEntry) (r : Run) (range : Bool) : Block :=
  let d := b.drn x.cmd.drnM
  let b := b.landLater e x r { fmt := if r.pass = 2 then 2 else d.ofmt, void := true, range := range, cb := d.cbo }
  let b := (b.set1 BLK_MX_STAT_POISON).wr BLK_MX_STAT_REPLAY 0
  let b := if r.inj = 0 then b.set1 BLK_MX_STAT_SUSPECT else b
  let b := b.count e 0x013 (some e.parcel)
  let b := { b with seq := { b.seq with poisoned := b.seq.poisoned + 1 } }
  b.raise e { cls := 5, subtype := 2, level := 0, tag := x.cmd.tag, inj := r.inj != 0, suspect := r.inj == 0 }

/-- The drain of a pass: every row is written to the destination slot as it leaves, whatever the comparisons say (R69); with it
the drained tile and whether a read of the drain met an uncorrectable error. -/
def Block.passDrain (e : Env) (b : Block) (x : QEntry) (r : Run) (p : PassOut) : Block × DrainOut × Bool :=
  let c := x.cmd
  let d := b.drn c.drnM
  let ec := b.drainEcc e d r c.m c.n
  let b := ec.1
  let ofmt := if r.pass = 2 then 2 else d.ofmt
  let o := drainTile (b.drainIn d (pairInt r.ta r.tb) c.m c.n r.sp r.sc ofmt (r.pass == 2 || d.sat)) p.data
  (b.writeOut e d r c.ringDM ofmt o, o, ec.2)

/-- A pass whose comparison is clean, at the end of drain cycle 64: widen, or keep (R85, R86, R88, R116 to R118). -/
def Block.cleanPass (e : Env) (b : Block) (x : QEntry) (r : Run) (p : PassOut) : Block :=
  let c := x.cmd
  let d := b.drn c.drnM
  let w := b.passDrain e x r p
  let b := w.1
  let o := w.2.1
  let ofmt := if r.pass = 2 then 2 else d.ofmt
  let void := r.void || b.seq.voidSight || w.2.2
  let b := if r.pass = 1 then (b.transient e c r).wr BLK_MX_STAT_REPLAY 0 else b
  let widen := r.pass != 2 && d.wid && !p.range && !void &&
    FVal.lt (f32 (BitVec.ofNat 32 (b.rd BLK_MSE_THR_THR))) (f32 o.stat)
  if widen then b.rerun e x { r with void := void } 2 o.stat
  else
    let b := b.landLater e x r { fmt := ofmt, void := void, range := p.range || o.ovf, cb := d.cbo }
    let b := b.keepStat e o (r.pass == 2)
    let b := if o.ovf then b.set1 SP_STAT_ACCOVF else b
    let b := if p.range then (b.set1 BLK_MX_STAT_RANGE).raise e { cls := 5, subtype := 3, level := 0, tag := c.tag } else b
    if r.pass = 2 then
      let b := { b with seq := { b.seq with widened := b.seq.widened + 1 } }
      let b := if b.tenant e then (b.set1 BLK_FMT_STAT_WIDEN).inc BLK_FMT_WIDEN_COUNT BLK_FMT_WIDEN_SAT else b
      b.raise e { cls := 6, subtype := 1, level := 1, tag := c.tag, specific := r.stat.toNat }
    else b

/-- TILE_OUTCOME: the drain of the oldest issued matrix command ends (R83 to R88, R116 to R118); before its drain cycle 64 there is no
outcome (R68, R80; log 48). `fs` are the faults that the environment put into the drained values of this pass. The tile's cycles and operand
reads are counted here (20 Table 20-1; DEDUCED, log 79). -/
def Block.tileOutcome (e : Env) (b : Block) (fs : List CellFault) : Block :=
  match b.draining with
  | none => b
  | some (x, r) =>
    if x.cmd.opc ≠ 1 ∨ e.cyc + 1 < r.de then b
    else
      let b := b.span e (e.cyc + 1)
      let p := b.passOf x.cmd r fs
      let cc := computeCycles r.ta r.tb x.cmd.k
      let b := b.count e (if b.tenant e then 0x003 else 0x004) (some e.parcel) cc
      let b := b.count e 0x005 (some e.parcel) (r.ce - r.fc - cc - r.skip)
      let b := b.count e 0x020 (some e.parcel) (cc + (if r.pass = 0 ∧ x.cmd.init ≠ 0 then 1 else 0))
      let b := match p.fail with
        | none => b.cleanPass e x r p
        | some f =>
          let w := b.passDrain e x r p
          let b := w.1.mxLast x.cmd.tag r.pass f
          if r.pass = 0 then b.rerun e x r 1 0 else b.poison e x r (p.range || w.2.1.ovf)
      b.showSets (e.cyc + 1)

end Sys2Proof.Machine
end

