-- ==== Sys2Proof/Machine/State.lean ====
section
/-!
DEFINITION. The whole state of the device as plain data, its value at reset, and how a step can stop.
-/
namespace Sys2Proof.Machine

/-- Why a step may fault. No command of this block faults: each has an effect that the spec gives, or none. Safe. -/
inductive Fault where
  /-- Raised by nobody. Safe. -/
  | never
deriving DecidableEq, Repr

/-- Why a step may be refused. -/
inductive Refusal where
  /-- A command that has no meaning yet; raised by the arms of `exec` only. Safe: nothing is claimed of it. -/
  | notModelled (mnemonic : String)
deriving DecidableEq, Repr

/-- The last value that the device gave to a reader outside: a register, a BAR2 completion, a PMBus reply. `nack` is a byte
that is not acknowledged, `unsupported` a completion with Unsupported Request. -/
inductive Answer where
  | none
  | word (v : Word)
  | bytes (bs : List Byte)
  | nack
  | lines (xs : List LineAns)
deriving DecidableEq, Repr

/-- The device: waiting commands; fuses, OTP, flash, MC; the hub's registers, frame counter, power control, error queue;
the sixteen parcels' contexts; perturbation, test pack, plats; regions, blocks (chip-wide logical number), sightline
ports, PCI Express functions; the host memory that the device has written and the MSI-X messages (function, vector) that
it has sent; the counter that gives each open value its own number; the answer to the last reader; the hub's event
counters and the MC's check unit; the configuration space's bus state of each link. -/
structure State where
  pending : List Instr := []
  fuse : Fuse
  otp : Otp
  flash : Flash
  mc : McSt := {}
  hub : HubRegs := {}
  frame : FrameSt := {}
  pw : PwSt := {}
  err : ErrSt := {}
  ctxs : SMap Ctx := []
  pert : PertSt := {}
  tpk : Tpk := {}
  plat : PlatSt := {}
  regions : SMap Region := []
  blocks : SMap Block := []
  ports : SMap Port := []
  fns : SMap Fn := []
  host : Mem := []
  msgs : List (Nat × Nat) := []
  freeCtr : Nat := 0
  answer : Answer := .none
  evcs : SMap Evc := []
  mchk : ChkUnit := {}
deriving DecidableEq, Repr

/-- The fuses of the modelled device (17_bring_up_monument.md Table 17-4): an SHD-S24-150 with serial number 1; `factkey` is
the SHA-384 digest of a factory key of 97 bytes of 1; the other two keys are numbers that stand for their digests, which no command
compares (DESIGN CHOICE, log 9). -/
def fuseDefault : Fuse :=
  { grade := 1, tdp := 1500, basem := 22, boostm := 25, serial := 1, stepping := 0xB1B0, fwkey := 1
    factkey := 0xafc5aa07af0bc44d331714057da4c0545a19beb012dd13693a1bdec9e4e4800396756ddfa1502cb8d3b4b03d9b8af1e9
    devkey := 3 }

/-- The fuses that later requests set, as the factory leaves them: plat-key slot 0 holds the SHA-384 digest of a key of 97 zero
bytes (DESIGN CHOICE, log 9). -/
def otpDefault : Otp :=
  { slots := [some 0x2ae0852c1bd41747b4c1ec59af66bcf4da07887afe0585e130c5ebb2c0bccf742a2c0c10f8995e5056a6ea2b9d9f910a, none, none, none, none, none, none, none], revoke := 0, min := 0 }

/-- The monument flash as the factory leaves it (DESIGN CHOICE, log 9): firmware in slot A, an empty factory record. -/
def flashDefault : Flash :=
  { active := 0, images := [{ version := 1, svn := 0, good := true }], factory := some [], log := [], count := 0 }

/-- The machine right after reset: no input power yet, BRUP_STAT.STAGE 0; every register at its Reset column. -/
def State.reset : State := { fuse := fuseDefault, otp := otpDefault, flash := flashDefault }

/-- A context that was never admitted. -/
def ctxZero : Nat → Ctx := fun _ => {}

end Sys2Proof.Machine
end

