-- ==== Sys2Proof/Machine/Ops.lean ====
section
/-!
DEFINITION. The shared operations over the whole state: registers of the hub, the surroundings of a block, a region or a
port, the way a unit's step is put back, hub error records (18_faults_repair.md R471 to R475), teardown requests
(19_contexts_recovery.md R505 to R508), vectors and field books (13_host_interface.md R386 to R389), host memory.
-/
namespace Sys2Proof.Machine

/-! ## Hub registers -/

/-- Read a field of a hub register. -/
def State.rd (s : State) (f : Field) (i j : Nat := 0) : Nat := (s.hub.of f.unit).rd f i j
/-- Read a one-bit field. -/
def State.bit (s : State) (f : Field) (i j : Nat := 0) : Bool := (s.hub.of f.unit).bit f i j
/-- The device's own update of a field. -/
def State.wr (s : State) (f : Field) (v : Nat) (i j : Nat := 0) : State :=
  { s with hub := s.hub.set f.unit ((s.hub.of f.unit).wr f v i j) }
/-- Set a status bit. -/
def State.set1 (s : State) (f : Field) (i : Nat := 0) : State := s.wr f 1 i
/-- A saturating count (R476). -/
def State.inc (s : State) (c sat : Field) (i : Nat := 0) (n : Nat := 1) : State :=
  { s with hub := s.hub.set c.unit ((s.hub.of c.unit).incSat c sat i n) }
/-- A count that holds at its maximum and has no SAT flag. -/
def State.incHold (s : State) (c : Field) (i : Nat := 0) : State :=
  s.wr c (min (s.rd c i + 1) (2 ^ (c.hi + 1 - c.lo) - 1)) i

/-- A discarded or refused access (01 R28). -/
def State.discard (s : State) (n : Nat := 1) : State :=
  if n = 0 then s else s.inc HIF_DISC_COUNT HIF_DISC_SAT 0 n

/-- Are the event counters frozen (20 R528)? -/
def State.frozen (s : State) : Bool := s.bit EVC_CTL_FROZEN
/-- Count events at the hub's counters (20 R524). -/
def State.count (s : State) (code : Nat) (p : Option Nat) (n : Nat := 1) : State :=
  if s.frozen then s else { s with evcs := evcCount 32 s.evcs code p n }

/-- Give out the number of a free value. -/
def State.fresh (s : State) : Nat × State := (s.freeCtr, { s with freeCtr := s.freeCtr + 1 })

/-! ## Contexts -/

/-- State of a parcel (19 Table 19-1). -/
def State.pstate (s : State) (p : Nat) : Nat := s.rd CTX_STAT_STATE p
/-- Is a context active in the parcel (19 R501)? -/
def State.activeP (s : State) (p : Nat) : Bool := p != 0 && (s.pstate p == 2 || s.pstate p == 3)
/-- Is any context active on the device? -/
def State.anyActive (s : State) : Bool := (List.range 16).any s.activeP
/-- Current generation of a parcel. -/
def State.genOf (s : State) (p : Nat) : Nat := s.rd CTX_STAT_GEN p
/-- The parcel's context besides its registers. -/
def State.ctx (s : State) (p : Nat) : Ctx := s.ctxs.get ctxZero p
/-- Change a parcel's context. -/
def State.setCtx (s : State) (p : Nat) (c : Ctx) : State := { s with ctxs := s.ctxs.put ctxZero p c }
/-- The device is out of service (19 R517). -/
def State.oos (s : State) : Bool := s.bit ESC_STAT_OOS
/-- The device is ready (17 R459). -/
def State.ready (s : State) : Bool := s.bit BRUP_STAT_READY
/-- The number of the last 1 ms sample (15 R423). -/
def State.ms (s : State) : Nat := s.rd PWR_SAMPLE_N
/-- The fused grade as the index of Table 14-1's columns: 0 for SHD-S24-150 (17 Table 17-4 counts from 1). -/
def State.gradeIdx (s : State) : Nat := s.fuse.grade - 1
/-- A plat is sealed (00 R8). -/
def State.sealed (s : State) : Bool := s.bit PLAT_STAT_SEALED
/-- A plat load is in progress (11 R316). -/
def State.loading (s : State) : Bool := match s.plat.load with | some l => !l.cut && !l.sealed | none => false
/-- A cut-over is arming, armed, or has its switch flag set (11 R322). -/
def State.arming (s : State) : Bool := s.rd CUT_STAT_STATE == 2 || s.rd CUT_STAT_STATE == 3 || s.plat.switch

/-- RES, the reserve length in reference periods (02 R32). -/
def State.res (s : State) : Nat := s.frame.len * s.frame.resQ / 400

/-! ## Units -/

/-- A region. -/
def State.region (s : State) (n : Nat) : Region := s.regions.get regionZero n
/-- Put a region back; only the 24 regions exist. -/
def State.setRegion (s : State) (n : Nat) (g : Region) : State :=
  if n < 24 then { s with regions := s.regions.put regionZero n g } else s
/-- A block by chip-wide logical number. -/
def State.block (s : State) (k : Nat) : Block := s.blocks.get blockZero k
/-- Put a block back; only the 4,608 logical blocks exist. -/
def State.setBlock (s : State) (k : Nat) (b : Block) : State :=
  if k < 4608 then { s with blocks := s.blocks.put blockZero k b } else s
/-- A sightline port. -/
def State.port (s : State) (k : Nat) : Port := s.ports.get portZero k
/-- Put a port back; only the 24 ports exist. -/
def State.setPort (s : State) (k : Nat) (p : Port) : State :=
  if k < 24 then { s with ports := s.ports.put portZero k p } else s
/-- A PCI Express function. -/
def State.fn (s : State) (k : Nat) : Fn := s.fns.get fnZero k
/-- Put a function back; only the 34 functions exist. -/
def State.setFn (s : State) (k : Nat) (f : Fn) : State :=
  if k < 34 then { s with fns := s.fns.put fnZero k f } else s

/-- Is the block absent (01 R28, 18 R483, R491): fenced, hidden by the active map, or in a region that BRUP_RLOST names? -/
def State.absent (s : State) (blk : Nat) : Bool :=
  let g := s.region (regionOf blk)
  (s.rd BRUP_RLOST_RGN).testBit (regionOf blk) || g.hidden (indexOf blk) || g.isFenced (indexOf blk)

/-- Is the block's domain retained (15 R422)? -/
def State.retained (s : State) (blk : Nat) : Bool :=
  (s.region (regionOf blk)).rd PWR_DOM_STAT_STATE (domainOf (indexOf blk)) == 2

/-- Does a mismatch-injection control that acts target the block (20 R536)? -/
def State.mismOn (s : State) (blk : Nat) : Bool :=
  s.pert.acting.getD 4 false && s.rd PERT_MISM_A_REGION == regionOf blk &&
  (s.bit PERT_MISM_A_ALLB || s.rd PERT_MISM_A_B == indexOf blk)

/-- Legs that the active plat receives over sightlines (12 Table 12-10). -/
def State.slLegs (s : State) : List Nat :=
  match s.plat.active with
  | some p => p.legs.map (fun l => SL_LAND0_LEG.of l.land0)
  | none => []

/-- The surroundings of a block at region cycle `cyc`. -/
def State.env (s : State) (blk cyc : Nat) : Env :=
  let n := regionOf blk
  let g := s.region n
  let b := s.block blk
  let p := b.rd RT_CTL_PARCEL
  let k := domainOf (indexOf blk)
  { cyc := cyc, frame := s.frame.num, beat := g.beat, gap := g.bit RGN_BEAT_GAP
    noPlat := s.plat.active.isNone, region := n, blk := blk, pblk := g.pblk n (indexOf blk), parcel := p, ctx := if p = 0 then 0 else s.rd CTX_NUM_NUM p, gen := s.genOf p
    active := s.activeP p, sealed := s.sealed, loading := s.loading
    q := g.rd PCTL_DOM_QEFF k, droop := g.droop.getD k false
    pert := s.pert.acting.getD 1 false && s.slLegs.any (fun l => (List.range 64).any (fun e =>
      b.bit LEP_A0_EN e && b.rd LEP_A0_LEG e == l))
    inj := false
    mismEvery := if s.mismOn blk then s.rd PERT_MISM_B_EVERY else 0, mismPasses := s.rd PERT_MISM_A_PASSES
    frozen := s.frozen, fenced := s.absent blk, slLegs := s.slLegs
    ctxs := (List.range 16).map (fun p => if p = 0 then 0 else s.rd CTX_NUM_NUM p)
    rtGen := BitVec.ofNat 32 ((List.range 16).foldl (fun a q => a + s.genOf q * 4 ^ q) 0), free := s.freeCtr }

/-- The surroundings of region `n` at cycle `cyc`. -/
def State.renv (s : State) (n cyc : Nat) : REnv :=
  { cyc := cyc, frame := s.frame.num, ms := s.ms, gap := (s.region n).bit RGN_BEAT_GAP, region := n
    gens := (List.range 16).map s.genOf, ctxs := (List.range 16).map (fun p => if p = 0 then 0 else s.rd CTX_NUM_NUM p)
    actives := (List.range 16).map s.activeP
    clearing := (List.range 16).any (fun p => s.pstate p == 4 && (s.ctx p).clearing.any (fun c => c.region == n))
    frozen := s.frozen, loading := s.loading, sealed := s.sealed, inj := false, grade := s.gradeIdx, res := s.res
    ffm := s.bit CLK_CTL_FFM, boosten := s.bit CLK_CTL_BOOSTEN }

/-- Is an octet dark (08 R249)? -/
def State.octDark (s : State) (o : Nat) : Bool := s.bit LANE_STAT_LOS o

/-- Lane port `q` of the region holds no further word of its circuit (08 R251). -/
def Region.cutLane (q : Nat) (g : Region) : Region := { g with lanes := g.lanes.filter (fun x => x.1 != q) }

/-! ## Host memory and vectors -/

/-- The device writes bytes to host memory. -/
def State.hostWrite (s : State) (a : Nat) (bs : List Byte) : State := { s with host := s.host.wrN a bs }

/-- Raise MSI-X vector `v` of a function (13 R386): a masked or pending vector keeps its PBA bit and sends nothing. -/
def State.vector (s : State) (fn v : Nat) : State :=
  let f := s.fn fn
  if f.masked.testBit v || f.pending.testBit v then s.setFn fn { f with pending := setBitNat f.pending v true }
  else { s with msgs := s.msgs ++ [(fn, v)] }

/-- The PFs. -/
def pfs : List Nat := [0, 17]
/-- The VFs of parcel `p`. -/
def vfsOf (p : Nat) : List Nat := [1 + p, 18 + p]

/-- Show a parcel's VF_STAT and heartbeats (13 Table 13-14) at both ports. -/
def State.showVf (s : State) (p : Nat) : State :=
  (vfsOf p).foldl (fun (s : State) k =>
    let f := s.fn k
    let r := ((f.vf.wr VF_STAT_PARCEL p).wr VF_STAT_ACTIVE (if s.activeP p then 1 else 0)).wr VF_STAT_OOS (if s.oos then 1 else 0)
    let r := ((r.wr VF_HB_COMMITS_HB (s.rd HIF_HB_COMMITS_COMMITS p)).wr VF_HB_COMPLETES_HB
      (s.rd HIF_HB_COMPLETES_COMPLETES p)).wr VF_HB_MC_HB (s.rd HIF_HB_MC_HB)
    s.setFn k { f with vf := r }) s

/-- Raise a vector named by HIF_VEC on both PFs. -/
def State.pfVector (s : State) (f : Field) : State := pfs.foldl (fun s k => s.vector k (s.rd f)) s
/-- Raise a function's error vector: ERRVEC of a PF, vector 3 of a VF (Table 13-13). -/
def State.errVector (s : State) (fn : Nat) : State := s.vector fn (if isPf fn then s.rd HIF_VEC_ERRVEC else 3)

/-! ## Field books (13 R387 to R389) -/

/-- Is the function's field book enabled? -/
def Fn.bookOn (f : Fn) : Bool := f.book.bit FB_CTL_EN
/-- Entries of the field book ring. -/
def Fn.bookSize (f : Fn) : Nat := 2 ^ f.book.rd FB_CTL_LOG2ENT
/-- Has the ring a free entry? -/
def Fn.bookRoom (f : Fn) : Bool :=
  decide ((f.book.rd FB_TAIL_TAIL + 2 ^ 32 - f.book.rd FB_HEAD_HEAD) % 2 ^ 32 < f.bookSize)

/-- The 128 bytes of a record at ring position `k` (Table 13-15). -/
def BookRec.image (r : BookRec) (size k : Nat) : List Byte :=
  let phase := if k / size % 2 = 0 then 1 else 0
  leBytes 1 r.type_ ++ leBytes 1 phase ++ leBytes 2 r.parcel ++ leBytes 4 r.seq ++ leBytes 6 r.frame ++ leBytes 2 0 ++
    (r.body ++ List.replicate 112 0).take 112

/-- Is the record an error record of the fatal class? -/
def BookRec.fatal (r : BookRec) : Bool :=
  r.type_ == 3 && (match r.body[48]? with | some b => b.getLsbD 7 | none => false)

/-- Write a record to a function's ring, and raise the field book vector when it is due (Table 13-13). -/
def State.bookPut (s : State) (fn : Nat) (r : BookRec) : State :=
  let f := s.fn fn
  let k := f.book.rd FB_TAIL_TAIL
  let base := (f.book.rd FB_BASE_LO_BASE) * 4096 + f.book.rd FB_BASE_HI_BASE * 2 ^ 32
  let s := s.hostWrite (base + 128 * (k % f.bookSize)) (r.image f.bookSize k)
  let irqn := f.book.rd FB_CTL_IRQN
  let due := r.fatal || irqn != 0 && decide (irqn ≤ f.since + 1)
  let s := s.setFn fn { f with book := f.book.wr FB_TAIL_TAIL ((k + 1) % 2 ^ 32), since := if due then 0 else f.since + 1 }
  let s := s.count 0x062 none
  if due then s.vector fn (if isPf fn then s.rd HIF_VEC_FBVEC else 2) else s

/-- Count a lost record of a ring. -/
def State.bookLost (s : State) (fn : Nat) (r : BookRec) : State :=
  let f := s.fn fn
  let b := f.book.incSat FB_LOST_COUNT FB_LOST_SAT
  s.setFn fn { f with book := if r.type_ = 1 then b else b.wr FB_LOST_CRIT 1 }

/-- A record that finds no room waits in the hub's buffer of 1,024 (R389). -/
def State.bookWait (s : State) (fn : Nat) (r : BookRec) : State :=
  if s.err.wait.length < 1024 then { s with err := { s.err with wait := s.err.wait ++ [(fn, r)] } }
  else if r.type_ = 1 then s.bookLost fn r
  else
    match s.err.wait.findIdx? (fun x => x.2.type_ == 1) with
    | some i =>
      let old := s.err.wait.getD i (fn, r)
      ({ s with err := { s.err with wait := s.err.wait.eraseIdx i ++ [(fn, r)] } }).bookLost old.1 old.2
    | none => s.bookLost fn r

/-- Can a record generated now be written to the function's ring at once? -/
def State.bookFree (s : State) (fn : Nat) : Bool :=
  (s.fn fn).bookOn && (s.fn fn).bookRoom && !(s.fn fn).d3 && !(s.err.wait.any (fun x => x.1 == fn))

/-- The error vector that follows a record into a function's ring (R386). -/
def State.announce (s : State) (fn : Nat) (r : BookRec) : State := if r.ann.contains fn then s.errVector fn else s

/-- Generate a record for a function's ring (R387); the message that it announces follows it. -/
def State.bookGen (s : State) (fn : Nat) (r : BookRec) : State :=
  let f := s.fn fn
  if !f.bookOn then s.announce fn r
  else
    let r : BookRec := { r with seq := f.seq % 2 ^ 32 }
    let s := s.setFn fn { f with seq := f.seq + 1 }
    if s.bookFree fn then (s.bookPut fn r).announce fn r else (s.bookWait fn r).announce fn r

/-- The functions that receive a record (R388, Table 13-2): every PF; the VFs of its parcel. A frame summary goes to VF 0. -/
def BookRec.receivers (r : BookRec) : List Nat := pfs ++ vfsOf (if r.type_ = 1 then 0 else r.parcel)

/-- Generate a record for every ring that receives it. -/
def State.bookAll (s : State) (r : BookRec) : State := r.receivers.foldl (fun s k => s.bookGen k r) s

/-- Write the waiting records of a function while its ring has room. -/
def State.bookFlush (fn : Nat) : Nat → State → State
  | 0, s => s
  | n + 1, s =>
    let f := s.fn fn
    match s.err.wait.findIdx? (fun x => x.1 == fn) with
    | none => s
    | some i =>
      if !f.bookOn || !f.bookRoom || f.d3 then s
      else
        match s.err.wait[i]? with
        | none => s
        | some x =>
          State.bookFlush fn n (({ s with err := { s.err with wait := s.err.wait.eraseIdx i } }).bookPut fn x.2)

/-! ## Error records (18 R471 to R476) -/

/-- The 64 bytes of a record (Table 18-1). -/
def ErrRec.image (r : ErrRec) : List Byte :=
  let body :=
    leBytes 1 (r.cls % 16 + 16 * (r.level % 8) + (if r.fatal then 128 else 0)) ++ leBytes 1 r.subtype ++
    leBytes 1 (r.parcel % 16) ++
    leBytes 1 ((if r.inj then 1 else 0) + (if r.hard then 2 else 0) + (if r.lfull then 4 else 0)) ++
    leBytes 4 r.ctx ++ leBytes 6 r.frame ++ leBytes 2 (r.beat % 2 ^ 15) ++ leBytes 1 r.region ++ leBytes 1 (r.die % 4) ++
    leBytes 2 r.block ++ leBytes 2 r.pblock ++ leBytes 2 r.tag ++ leBytes 8 r.object ++ leBytes 1 r.objkind ++
    leBytes 7 0 ++ leBytes 8 r.specific ++ leBytes 6 r.address ++ leBytes 2 0 ++ leBytes 4 r.srcseq
  body ++ leBytes 4 (crcOf 0 body)

/-- The field book record of an error record (Table 13-16). -/
def ErrRec.book (r : ErrRec) : BookRec :=
  { type_ := 3, parcel := r.parcel, frame := r.frame, body := List.replicate 48 0 ++ r.image, ann := r.ann }

/-- Show the hub queue (HERR_Q). -/
def State.showQ (s : State) : State :=
  (s.wr HERR_Q_PEND s.err.q.length).wr HERR_Q_FPEND (min (s.err.q.filter (fun r => r.fatal)).length 64)

/-- A fatal record or a context's event raises the error vector of every function that receives the record (Table 13-13): where the
function's ring will take it, behind the record (R386); else at once. -/
def State.hubAnnounce (s : State) (r : ErrRec) : State × ErrRec :=
  let fs := if r.fatal || r.tell then r.book.receivers else []
  ((fs.filter (fun k => !s.bookFree k)).foldl State.errVector s, { r with ann := fs.filter s.bookFree })

/-- Place a record in the hub error queue (R475): 512 entries, of which non-fatal records take at most 448. The messages of a
record that finds no place go at once. -/
def State.hubQueue (s : State) (r : ErrRec) : State :=
  let s := s.inc HERR_CNT_COUNT HERR_CNT_SAT (r.cls - 1)
  let s := s.count 0x063 (some r.parcel)
  let h := s.hubAnnounce r
  let s := h.1
  let r := h.2
  if r.fatal then
    if s.err.q.length < 512 then ({ s with err := { s.err with q := s.err.q ++ [r] } }).showQ
    else r.ann.foldl State.errVector ((s.inc HERR_LOST_COUNT HERR_LOST_SAT).set1 HERR_LOST_FATAL)
  else if (s.err.q.filter (fun x => !x.fatal)).length < 448 ∧ s.err.q.length < 512 then
    ({ s with err := { s.err with q := s.err.q ++ [r] } }).showQ
  else r.ann.foldl State.errVector (s.inc HERR_LOST_COUNT HERR_LOST_SAT)

/-- The fields that the MC fills in for a record of the hub (R471): REGION 0x18 or, for a record of a region, its index. -/
def State.mcStamp (s : State) (r : ErrRec) : ErrRec :=
  { r with frame := s.frame.num, ctx := if r.parcel = 0 then 0 else s.rd CTX_NUM_NUM r.parcel
           srcseq := s.err.srcseq % 2 ^ 32 }

/-- A record that the MC writes. -/
def State.raise (s : State) (r : ErrRec) : State :=
  let r := s.mcStamp { r with region := if r.region = 0xFF then 0x18 else r.region }
  ({ s with err := { s.err with srcseq := s.err.srcseq + 1 } }).hubQueue r

/-- The lane assignment at reset (08 R248). -/
def laneZero : Nat → Word := fun o => resetWord .hub (0x3000 + 4 * o)
/-- A field of the assignment in force of octet `o` (08 R247). -/
def State.lane (s : State) (f : Field) (o : Nat) : Nat := f.of (s.plat.lanes.get laneZero o)

/-- The two ends of a die-to-die octet: region and lane port (08 Table 8-15). -/
def State.octetEnds (s : State) (o : Nat) : List (Nat × Nat) :=
  [(6 * s.lane LANE_OCT_A_DIE o + s.lane LANE_OCT_A_FLD o, s.lane LANE_OCT_A_PORT o),
   (6 * s.lane LANE_OCT_B_DIE o + s.lane LANE_OCT_B_FLD o, s.lane LANE_OCT_B_PORT o)]

/-- Lane ports deliver no further words. -/
def State.cutLanes (s : State) (xs : List (Nat × Nat)) : State :=
  xs.foldl (fun (s : State) x => s.setRegion x.1 ((s.region x.1).cutLane x.2)) s

/-- A die-to-die circuit is lost: its receiving lane ports deliver no further words (08 R251). -/
def State.loseCircuit (s : State) (o : Nat) : State :=
  (((s.set1 LANE_STAT_LOST o).wr LANE_STAT_LOCK 0 o).cutLanes (s.octetEnds o)).raise
    { cls := 8, subtype := 0x46, level := 3, object := o, objkind := 9 }

/-! ## Teardown requests (19 R505 to R508) -/

/-- Does a teardown cause count toward escalation (Table 19-3)? -/
def countsCause (c : Nat) : Bool := decide (4 ≤ c ∧ c ≤ 8)

/-- Periods before the tick at which a request comes too late for the boundary (R508: 1 µs). -/
def State.inTime (s : State) : Bool := decide (s.frame.pos + 100 ≤ s.frame.len + s.frame.stretch)

/-- Complete an item that a later event ends: its outcome stands in its ring (13 R382). -/
def State.finish (s : State) (r : ItemRef) (status detail : Nat) : State :=
  let f := s.fn r.fn
  let g := f.rings.get ringZero r.ring
  let g : Ring := { g with items := g.items.map (fun (x : Item) =>
    if x.slot = r.slot ∧ x.done.isNone then { x with done := some (status, detail) } else x) }
  s.setFn r.fn { f with rings := f.rings.put ringZero r.ring g }

/-- Complete several items alike. -/
def State.finishAll (s : State) (rs : List ItemRef) (status detail : Nat) : State :=
  rs.foldl (fun s r => s.finish r status detail) s

/-- The ranges of region `n` that parcel `p`'s clearing zeroes (19 R512, Table 9-10): release buffers in the store, the buffers of its
store streams and stream descriptors, its enabled windows. A landing record's buffers are those of its streams. -/
def Region.rangesOf (g : Region) (n p : Nat) (rel : List RelBuf) : List ClearRange :=
  ((rel.filter (fun r => r.region == n && r.tgt == 0)).map (fun r =>
    ({ region := n, tgt := 1, base := r.base, len := (r.nb + 1) * r.len } : ClearRange))) ++
  (((List.range 64).filter (fun i => g.ss i 0 != 0 && g.ssParcel i == p)).map (fun i =>
    ({ region := n, tgt := 1, base := bitsOf (g.ss i 0) 17 0, len := g.ssBufs i * g.ssLen i } : ClearRange))) ++
  ((List.range 8).flatMap (fun e => ((List.range 256).filter (fun i =>
      bitsOf (g.sd e i 0) 2 0 != 0 && bitsOf (g.sd e i 0) 6 3 == p)).map (fun i =>
    ({ region := n, tgt := 1, base := bitsOf (g.sd e i 3) 17 0
       len := (bitsOf (g.sd e i 0) 11 8 + 1) * g.sdLen e i } : ClearRange)))) ++
  (((List.range 16).filter (fun w => g.bit MEM_WIN_B_EN w && g.rd MEM_WIN_B_PARCEL w == p)).map (fun w =>
    ({ region := n, tgt := 0, base := 4096 * g.rd MEM_WIN_A_BASE w
       len := 4096 * (g.rd MEM_WIN_A_LIMIT w + 1 - g.rd MEM_WIN_A_BASE w) } : ClearRange)))

/-- The release buffers that the active plat gives parcel `p`. -/
def State.relBufs (s : State) (p : Nat) : List RelBuf :=
  match s.plat.active with
  | some pl => (pl.stations.filter (fun st => st.parcel == p)).flatMap (fun st => st.rel.take st.nrel)
  | none => []

/-- The ranges of parcel `p` in the regions that are not lost. -/
def State.rangesOf (s : State) (p : Nat) : List ClearRange :=
  (List.range 24).flatMap (fun n => if (s.region n).lost then [] else (s.region n).rangesOf n p (s.relBufs p))

/-- Change every block of the sparse map; a block that is not listed is at its reset value. -/
def State.listedBlocks (s : State) : List Nat := s.blocks.map (fun x => x.1)

/-- The regions in which parcel `p` has something to clear: a range, or the scratchpad of a block. -/
def State.clearRegions (s : State) (p : Nat) (rs : List ClearRange) : List Nat :=
  (List.range 24).filter (fun n => rs.any (fun c => c.region == n) ||
    s.listedBlocks.any (fun k => regionOf k == n && (s.block k).rd RT_CTL_PARCEL == p && !s.absent k))

/-- A parcel enters clearing (R507, R511, R512). `ranges` says that regions have ranges to clear. -/
def State.startClearing (s : State) (p : Nat) (ranges : Bool) : State :=
  let rs := if ranges then s.rangesOf p else []
  ((s.wr CTX_STAT_STATE 4 p).wr CTX_STAT_CLEARPEND (s.clearRegions p rs).length p).setCtx p
    { s.ctx p with req := none, admitItem := none, clearing := rs, clearBlocks := true, loaded := false }

/-- A teardown of parcel `p` is requested with a cause (R505, R507, R508, R521): a loading context ends at once, an active
one at the next boundary that the request reaches; CAUSE is the first request's, and a later request is counted only when the
earlier does not count and it does. -/
def State.teardown (s : State) (p cause : Nat) : State :=
  let c := s.ctx p
  if s.pstate p = 1 then
    let s := match c.admitItem with | some i => s.finish i 0x0B 0 | none => s
    s.startClearing p false
  else if s.pstate p = 2 then
    match c.req with
    | none => (s.wr CTX_STAT_CAUSE cause p).setCtx p { c with req := some (cause, s.inTime), counted := countsCause cause }
    | some (first, early) =>
      s.setCtx p { c with req := some (first, early), counted := c.counted || countsCause cause }
  else s

/-- The parcels' contexts that a unit's records tear down: cause 0x4 (R505). -/
def State.tearFor (s : State) (r : ErrRec) : State := if r.teardown then s.teardown r.parcel 4 else s

/-! ## Putting a unit's step back -/

/-- Count the events that a unit hands on at the hub, and at region `n` when it is given. -/
def State.takeEvs (s : State) (n : Option Nat) (evs : List (Nat × Option Nat × Nat)) : State :=
  if s.frozen then s
  else
    let s := { s with evcs := evs.foldl (fun m x => evcCount 32 m x.1 x.2.1 x.2.2) s.evcs }
    match n with
    | none => s
    | some n =>
      if evs.isEmpty then s
      else
        let g := s.region n
        s.setRegion n { g with evcs := evs.foldl (fun m x => evcCount 16 m x.1 x.2.1 x.2.2) g.evcs }

/-- Put block `blk` back after a step, with what the step hands on. -/
def State.putBlock (s : State) (blk : Nat) (b : Block) : State :=
  ((s.setBlock blk { b with disc := 0, evs := [] }).discard b.disc).takeEvs (some (regionOf blk)) b.evs

/-- A step of block `blk` at region cycle `cyc`: time passes for it, then `f` acts. -/
def State.onBlock (s : State) (blk cyc : Nat) (f : Env → Block → Block) : State :=
  let e := s.env blk cyc
  s.putBlock blk (f e ((s.block blk).advance e))

/-- Does a BAR0 access reach the page of block `k`: it is present, its domain not retained (01 R28, 15 R422)? -/
def State.reaches (s : State) (k : Nat) : Bool := decide (k < 4608) && !s.absent k && !s.retained k

/-- A BAR0 write to the page of block `blk`: before ready (17 R455), and on a page that no access reaches, it is discarded and counted
(01 R28, 15 R422). -/
def State.onPage (s : State) (blk : Nat) (f : Env → Block → Block) : State :=
  if s.ready && s.reaches blk then s.putBlock blk (f (s.env blk 0) (s.block blk)) else s.discard

/-- Does the block's clock run for it: present, its domain neither retained nor off nor dark, its region not stopped (18 R483,
15 R419, R421, 02 R43)? -/
def State.runs (s : State) (blk : Nat) : Bool :=
  let g := s.region (regionOf blk)
  !s.absent blk && g.rd PWR_DOM_STAT_STATE (domainOf (indexOf blk)) == 1 && !g.stopped && !g.lost

/-- A step of a block whose clock runs; any other block makes none. -/
def State.onLive (s : State) (blk cyc : Nat) (f : Env → Block → Block) : State :=
  if s.runs blk then s.onBlock blk cyc f else s

/-- A step that issues: none does in the boundary gap (02 R42). -/
def State.onIssue (s : State) (blk cyc : Nat) (f : Env → Block → Block) : State :=
  if (s.region (regionOf blk)).bit RGN_BEAT_GAP then s else s.onLive blk cyc f

/-- The field entries of a log after its latest clear record (17 R463). -/
def fieldEntries (l : List LogRec) : List Defect :=
  l.foldl (fun a r => match r with
    | .field _ es => a ++ es
    | .clear _ => []
    | .hours _ | .bad => a) []

/-- The effective defect map (17 R463, R464). -/
def State.effective (s : State) : List Defect := s.flash.factory.getD [] ++ fieldEntries s.flash.log ++ s.mc.kept

/-- Append a record to the field log (17 R464): the log holds 3,000 records; `ok` says that the flash write succeeds. Answers
whether it was appended. -/
def State.logAppend (s : State) (r : LogRec) (ok : Bool) : State × Bool :=
  if 3000 ≤ s.flash.log.length then ((s.set1 MON_STAT_FULL).raise { cls := 2, subtype := 0xD5, level := 3 }, false)
  else if ok then ({ s with flash := { s.flash with log := s.flash.log ++ [r] } }, true)
  else ((s.set1 MON_STAT_WFAIL).raise { cls := 2, subtype := 0xD5, level := 3 }, false)

/-- Show the number of field entries in the effective defect map. -/
def State.showField (s : State) : State :=
  s.wr MON_STAT_NFIELD (min ((fieldEntries s.flash.log).length + s.mc.kept.length) 0xFFFF)

/-- The segment (region, slot) and queue of a crossing-queue entry of the monument (17 Table 17-6): V0 to V2, then H0 to H3. -/
def queueOf (u : Nat) : (Nat × Nat) × Nat :=
  ([(0, 0), (2, 0), (4, 0), (0, 1), (1, 0), (2, 1), (3, 0)].map (fun x => (6 * (u % 4) + x.1, x.2)) |>.getD (u / 4 % 8) (24, 0), u / 32 % 32)

/-- XQ_CAL.DEF of a queue that an entry lists (08 Table 8-13). -/
def State.showQueueDef (s : State) (d : Defect) : State :=
  let q := queueOf d.unit
  if d.kind = 4 ∧ q.2 < 16 then s.setRegion q.1.1 ((s.region q.1.1).wr XQ_CAL_DEF 1 q.1.2 q.2) else s

/-- Append defect entries to the field log, or keep them in the MC's memory while the log is full (17 R463, R464; log 9). -/
def State.defects (s : State) (ds : List Defect) : State :=
  ds.foldl (fun (s : State) d =>
    let d : Defect := { d with hours := s.mc.hours0 + s.mc.mainMs / 3600000 }
    let seq := (s.flash.log.filter (fun r => match r with | LogRec.field _ _ => true | _ => false)).length
    let x := s.logAppend (LogRec.field seq [d]) true
    let s := if x.2 then x.1 else { x.1 with mc := { x.1.mc with kept := x.1.mc.kept ++ [d] } }
    s.showField) s

/-- Put region `n` back after a step, with what the step hands on. -/
def State.putRegion (s : State) (n : Nat) (g : Region) : State :=
  let s := ((s.setRegion n { g with disc := 0, evs := [], defects := [], tears := [] }).discard g.disc).takeEvs none g.evs
  let s := s.defects g.defects
  g.tears.foldl (fun s x => s.teardown x.1 x.2) s

/-- A step of region `n` at region cycle `cyc`. -/
def State.onRegion (s : State) (n cyc : Nat) (f : REnv → Region → Region) : State :=
  s.putRegion n (f (s.renv n cyc) (s.region n))

/-- A step of a region that a lost region does not make. -/
def State.onLiveRegion (s : State) (n cyc : Nat) (f : REnv → Region → Region) : State :=
  if (s.region n).lost then s else s.onRegion n cyc f

/-- Change every region. -/
def State.allRegions (s : State) (f : Nat → Region → Region) : State :=
  (List.range 24).foldl (fun s n => s.putRegion n (f n (s.region n))) s


/-! ## Time -/

/-- Cycles of region `n` from beat 0 to `pos` periods after the tick (02 R33). -/
def State.cycAt (s : State) (n pos : Nat) : Nat := (pos - 200) * stepMult s.gradeIdx (s.region n).cur / 2

/-- Whole beats of a working span (02 R33). -/
def State.wholeBeats (s : State) (n : Nat) : Nat := s.cycAt n (s.frame.len - s.res) / 256

/-- The variant that a region runs: that of its step (11 R313). -/
def Region.varIdx (g : Region) : Nat := (g.variants.findIdx? (fun v => v.step == g.cur)).getD 0

/-- The beat schedule's entry of beat `b`, of `whole` beats before the closure reserve, whose list repeats (08 R228). -/
def Region.beatEnt (g : Region) (whole b : Nat) : Option BeatEnt :=
  match g.variants[g.varIdx]? with
  | none => none
  | some v =>
    if b < whole then v.beats[b]? else if v.reserve.isEmpty then none else v.reserve[(b - whole) % v.reserve.length]?

/-- Reference periods pass (log 1): POS and the time since cold reset advance, and event code 0x060 counts them. -/
def State.pass (s : State) (n : Nat) : State :=
  State.count { s with frame := { s.frame with pos := s.frame.pos + n, now := s.frame.now + n } } 0x060 none n

/-- An empty queue: one reference period of 10 ns passes (log 1). -/
def State.idle (s : State) : State := if s.frame.running then s.pass 1 else s

end Sys2Proof.Machine
end

