-- ==== Sys2Proof/Machine/BlockCmds.lean ====
section
/-!
DEFINITION. The commands of a block's codebooks, check unit, scratchpad and leg endpoints (04 R103, 05 R138, R157 to R161, 06 R181 to R183, 09 R263, 10 R290), and of the MC check unit (23 R569).
-/
namespace Sys2Proof.Machine

/-- The MC check unit takes a polynomial and is initialised (23 R569, 06 R181). -/
def State.mchkSet (s : State) (p : Nat) (c : ChkUnit) : State :=
  { s with mchk := c, hub := s.hub.set .hub (((s.hub.of .hub).wr MCHK_CTL_POLY p).chkShow .hub 0xF004 0xF008 p c) }

/-- CB_LOAD (04 R103): BLK_CB_CTL written with LOAD and IDX. -/
def execCbLoad (blk i : Nat) (s : State) : Host.Outcome State Fault Refusal :=
  .next (s.onPage blk (fun e b => if e.active then b.discard else (b.wr BLK_CB_CTL_IDX i).cbLoad i))

/-- CB_DROP (04 R103): BLK_CB_CTL written with DROP and IDX. -/
def execCbDrop (blk i : Nat) (s : State) : Host.Outcome State Fault Refusal :=
  .next (s.onPage blk (fun e b => if e.active then b.discard else (b.wr BLK_CB_CTL_IDX i).cbDrop i))

/-- CHK_POLY_WRITE (06 R181): the polynomial is selected and the unit initialised; not while it runs a check command. -/
def execChkPolyWrite (at_ : ChkAt) (p : Nat) (s : State) : Host.Outcome State Fault Refusal :=
  match at_ with
  | .block blk => .next (s.onPage blk (fun _ b => b.chkCtlWrite (BitVec.ofNat 32 (p % 4))))
  | .mc => .next (s.mchkSet (p % 4) (s.mchk.init (p % 4)))

/-- CHK_INIT (06 R181). -/
def execChkInit (at_ : ChkAt) (s : State) : Host.Outcome State Fault Refusal :=
  match at_ with
  | .block blk => .next (s.onPage blk (fun _ b => if b.chkBusy then b else b.chkInit))
  | .mc => .next (s.mchkSet (s.rd MCHK_CTL_POLY) (s.mchk.init (s.rd MCHK_CTL_POLY)))

/-- CHK_SEED (06 R183): a write of CHK_VAL_LO seeds the unit. -/
def execChkSeed (at_ : ChkAt) (v : Word) (s : State) : Host.Outcome State Fault Refusal :=
  match at_ with
  | .block blk => .next (s.onPage blk (fun _ b => b.chkSeed v))
  | .mc =>
    let p := s.rd MCHK_CTL_POLY
    .next (s.mchkSet p { reg := (crcPoly p).seed (v.toNat + 2 ^ 32 * s.mchk.hi.toNat), hi := s.mchk.hi })

/-- SP_PWR_WRITE (05 R160, R161). -/
def execSpPwrWrite (blk : Nat) (v : Word) (s : State) : Host.Outcome State Fault Refusal :=
  .next (s.onPage blk (fun e b => b.spPwrWrite e v))

/-- Is cycle `cyc` of region `n` a scrub slot: cycle 5 of a beat whose entry in the beat schedule has SCRUB (08 R235)? -/
def State.scrubAt (s : State) (n cyc : Nat) : Bool :=
  let g := s.region n
  !g.bit RGN_BEAT_GAP && cyc % 256 == 5 && (g.beatEnt (s.wholeBeats n) g.beat).elim false (fun x => x.scrub)

/-- SCRUB_SLOT (05 R157 to R159, 08 R235). -/
def execScrubSlot (blk : Nat) (at_ : ScrubAt) (s : State) : Host.Outcome State Fault Refusal :=
  .next (s.onLive blk at_.cyc (fun e b =>
    if s.scrubAt (regionOf blk) at_.cyc then b.scrub e at_.upsets else b.upset at_.upsets))

/-- INBOUND_WORD (05 R138, 09 R263): the next word that the router holds for inbound endpoint `ep`; `lost` says that it
loses the write port. -/
def execInboundWord (blk cyc ep : Nat) (lost : Bool) (s : State) : Host.Outcome State Fault Refusal :=
  .next (s.onLive blk cyc (fun e b => b.inboundWord e ep lost))

/-- HELD_WORD_WRITE (05 R138). -/
def execHeldWordWrite (blk cyc : Nat) (s : State) : Host.Outcome State Fault Refusal :=
  .next (s.onLive blk cyc (fun e b => b.heldWrite e))

/-- HOLD_WINDOW_EXPIRY (05 R138, R139). -/
def execHoldWindowExpiry (blk cyc : Nat) (s : State) : Host.Outcome State Fault Refusal :=
  .next (s.onLive blk cyc (fun e b => b.holdExpiry e))

/-- TILE_RECEIVED (09 R263 to R266): a mark word at inbound endpoint `ep`. -/
def execTileReceived (blk cyc ep : Nat) (s : State) : Host.Outcome State Fault Refusal :=
  .next (s.onLive blk cyc (fun e b => b.tileWord e ep))

/-- DELIVERY_FULL (09 R263). -/
def execDeliveryFull (blk cyc ep : Nat) (s : State) : Host.Outcome State Fault Refusal :=
  .next (s.onLive blk cyc (fun e b => b.deliveryFull e ep))

/-- DRIVE_WORD_RECEIVED (10 R290, R298) at an inbound endpoint or a write store stream. -/
def execDriveWordReceived (at_ : LegAt) (s : State) : Host.Outcome State Fault Refusal :=
  match at_ with
  | .endpoint blk cyc ep => .next (s.onLive blk cyc (fun e b => b.driveIn e ep))
  | .stream n cyc i w =>
    let h := Hdr.ofBits w.data
    if h.fmt = 15 ∧ w.v then .next (s.onLiveRegion n cyc (fun e g => g.driveWord e i h)) else .next s

end Sys2Proof.Machine
end

