-- ==== Sys2Proof/Machine/FabricCmds.lean ====
section
/-!
DEFINITION. The fabric of the whole device (08_fabric_route_plans.md): which unit lies beyond each router port (Table 8-3),
segments and their slots (Table 8-14), octets (R246), and the commands over them.
-/
namespace Sys2Proof.Machine

/-! ## Neighbours (R217, R221) -/

/-- Where a router port leads. -/
inductive Beyond where
  | block (blk : Nat)
  | edge (n row : Nat)
  | shore
  | none
deriving DecidableEq, Repr

/-- What lies beyond port `d` (0 north, 1 south, 2 east, 3 west) of a block (Table 8-3). -/
def beyond (blk d : Nat) : Beyond :=
  let die := blk / 1152
  let x := blk % 24
  let y := blk % 1152 / 24
  let n := regionOf blk
  if d = 0 then (if y = 47 then .none else .block (1152 * die + 24 * (y + 1) + x))
  else if d = 1 then
    if y = 0 then (if x < 12 then .shore else .none) else .block (1152 * die + 24 * (y - 1) + x)
  else if d = 2 then (if x = 23 then .edge n (y % 16) else .block (blk + 1))
  else (if x = 0 then .edge n (y % 16) else .block (blk - 1))

/-- The opposite port. -/
def opposite (d : Nat) : Nat := if d = 0 then 1 else if d = 1 then 0 else if d = 2 then 3 else 2

/-- The edge block of region `n` in row `row`, and the port that leads to the edge. -/
def edgeBlock (n row : Nat) : Nat × Nat := if n % 2 = 0 then (chipBlk n (12 * row), 3) else (chipBlk n (12 * row + 11), 2)

/-- The segment that a word crosses between two neighbouring blocks of one die: region, slot (Table 8-14). -/
def segBetween (a b : Nat) : Option (Nat × Nat) :=
  let n := min (regionOf a) (regionOf b)
  if regionOf a = regionOf b then none
  else if regionOf a / 2 = regionOf b / 2 then some (n, 0)
  else some (n, if n % 2 = 0 then 1 else 0)

/-- The regions that a segment joins. -/
def segRegions (n slot : Nat) : List Nat := if n % 2 = 0 && slot == 0 then [n, n + 1] else [n, n + 2]

/-- The segments next to a region. -/
def segsOf (n : Nat) : List (Nat × Nat) :=
  ((List.range 24).flatMap (fun m => [(m, 0), (m, 1)])).filter (fun x =>
    x.1 / 6 == n / 6 && segExists x.1 x.2 && (segRegions x.1 x.2).contains n)

/-- The queue that a crossing takes: the row in a vertical segment; in a horizontal one the column, or the spare assigned to
it (R222). -/
def Region.segQueue (g : Region) (slot blk : Nat) (vertical : Bool) : Nat :=
  if vertical then blk % 1152 / 24 % 16
  else
    let c := blk % 12
    let w := g.regs.word .region (0x410 + 0x80 * slot)
    match (List.range 4).find? (fun i => (w >>> (5 * i + 4)).toNat % 2 == 1 && (w >>> (5 * i)).toNat % 16 == c) with
    | some i => 12 + i
    | none => c

/-- The members of a region's lock group (R243): the regions that name the same leader, or the region alone. -/
def State.group (s : State) (n : Nat) : List Nat :=
  let g := s.region n
  if g.bit RGN_LOCK_LOCKED then
    (List.range 24).filter (fun m => (s.region m).bit RGN_LOCK_LOCKED && (s.region m).rd RGN_LOCK_LEADER == g.rd RGN_LOCK_LEADER)
  else [n]

/-- Is a region pinned (R244, 18 R491): a segment beside a member of its group is pinned, or a member of a group is lost? -/
def State.pinned (s : State) (n : Nat) : Bool :=
  (s.group n).any (fun m =>
    (segsOf m).any (fun x => (s.region x.1).bit XSEG_STAT_PINNED x.2) || (decide ((s.group n).length ≠ 1) && (s.region m).lost))

/-- Show the pins (RGN_LOCK.PINNED). -/
def State.showPins (s : State) : State :=
  (List.range 24).foldl (fun s n => s.setRegion n ((s.region n).wr RGN_LOCK_PINNED (if s.pinned n then 1 else 0))) s

/-- Pin a segment with a status bit and a record of class link (R239, R244). -/
def State.pinSeg (s : State) (n slot q cyc : Nat) (f : Field) (sub : Nat) (inj : Bool) : State :=
  (s.onRegion n cyc (fun e g =>
    let g := ((g.set1 f slot).set1 XSEG_STAT_PINNED slot).raise e
      { cls := 8, subtype := sub, level := 2, object := slot + 2 ^ 8 * q, objkind := 6, inj := inj }
    if sub = 0x42 ∧ inj = false then (g.note 2 (32 * slot + q) 0).note 1 (32 * slot + q) e.ms else g)).showPins

/-! ## Octets (R246 to R251) -/

/-- The octet that lane port `q` of region `n` ends, when it is assigned. -/
def State.octetOf (s : State) (n q : Nat) : Option Nat :=
  (List.range 72).find? (fun o =>
    let k := s.lane LANE_OCT_KIND o
    (k != 0 && 6 * s.lane LANE_OCT_A_DIE o + s.lane LANE_OCT_A_FLD o == n && s.lane LANE_OCT_A_PORT o == q) ||
    (k == 1 && 6 * s.lane LANE_OCT_B_DIE o + s.lane LANE_OCT_B_FLD o == n && s.lane LANE_OCT_B_PORT o == q))

/-- The other end of a die-to-die circuit: region and lane port. -/
def State.farEnd (s : State) (o n q : Nat) : Nat × Nat :=
  let a := (6 * s.lane LANE_OCT_A_DIE o + s.lane LANE_OCT_A_FLD o, s.lane LANE_OCT_A_PORT o)
  let b := (6 * s.lane LANE_OCT_B_DIE o + s.lane LANE_OCT_B_FLD o, s.lane LANE_OCT_B_PORT o)
  if a = (n, q) then b else a

/-- The home region and lane port of a sightline port (12 R334): end A of its external octet. -/
def State.homeOf (s : State) (port : Nat) : Option (Nat × Nat) :=
  match (List.range 72).find? (fun o => s.lane LANE_OCT_KIND o == 2 && s.lane LANE_OCT_SL o == port) with
  | some o => some (6 * s.lane LANE_OCT_A_DIE o + s.lane LANE_OCT_A_FLD o, s.lane LANE_OCT_A_PORT o)
  | none => none

/-! ## Word arrival -/

/-- The pattern that region `n` runs. -/
def Region.pat (g : Region) : Nat := g.rd RGN_BEAT_PAT

/-- The selector of row `r` in the edge entry of a cycle (Tables 8-6, 8-7): into the router (`out = false`) or from it. -/
def Region.selector (g : Region) (cyc r : Nat) (out : Bool) : Nat :=
  g.edge.get natZero (g.pat * 256 + cyc % 256) / 2 ^ ((if out then 64 else 0) + 4 * r) % 16

/-- What one edge entry plans: accesses (port, stream) and the stream slot (engine, descriptor). -/
def edgePlan (w : Nat) : List (Nat × Nat) × Option (Nat × Nat) :=
  ((List.range 8).filterMap (fun q =>
      let x := w / 2 ^ (128 + 8 * q) % 2 ^ 7
      if 64 ≤ x then some (q, x - 64) else none),
    let t := w / 2 ^ 192 % 2 ^ 12
    if 2 ^ 11 ≤ t then some (t % 8, t / 8 % 256) else none)

/-- The word that the edge holds for row `r` in a planned cycle, by the edge entry's selector (Table 8-7): that of the store port, whose
mark goes ahead of its words (09 R269), or that of a lane port; an idle or reserved selector sends none. Answers the word and the
region without it. -/
def Region.takeEdge (g : Region) (cyc r : Nat) : FWord × Region :=
  let sel := g.selector cyc r false
  if 2 ≤ sel ∧ sel ≤ 6 then
    match takeFirst (sel - 2) g.lanes with
    | some (w, t) => (w, { g with lanes := t })
    | none => (noWord 0, g)
  else if sel = 1 then
    let m := g.links.get noWord (16 + r / 2)
    if r % 2 = 0 ∧ m.v then (m, { g with links := g.links.put noWord (16 + r / 2) (noWord 0) })
    else (g.links.get noWord r, { g with links := g.links.put noWord r (noWord 0) })
  else (noWord 0, g)

/-- Is the row of a vertical segment's crossing without one, because the monument lists its queue (R222)? -/
def State.noCrossing (s : State) (blk k : Nat) : Bool :=
  match segBetween blk k with
  | some (n, slot) => segVertical n slot && (s.region n).bit XQ_CAL_DEF slot (blk % 1152 / 24 % 16)
  | none => false

/-- The word on the link toward input `src` of a block with its order, and the device without it. In an easement cycle the links of
the region's edge join the region controller, whose words come from outside the model (R233). -/
def State.takeLink (s : State) (blk cyc src : Nat) : FWord × Nat × State :=
  match beyond blk (src - 1) with
  | .block k =>
    let b := s.block k
    let d := opposite (src - 1)
    (if s.noCrossing blk k then noWord 0 else b.router.out.get noWord d, b.router.order.get natZero d,
      s.setBlock k { b with router := { b.router with out := b.router.out.put noWord d (noWord 0), order := b.router.order.put natZero d 0 } })
  | .edge n r =>
    if (s.env blk cyc).easeCycle then (noWord 0, 0, s)
    else
      let x := (s.region n).takeEdge cyc r
      (x.1, 0, s.setRegion n x.2)
  | _ => (noWord 0, 0, s)

/-- A word arrives at input `src` of a block's router: one whose STAMP is not that of its sending cycle `sent` has slipped and is dropped
(R239; DESIGN CHOICE, log 71). -/
def State.arrive (s : State) (blk cyc src order sent : Nat) (w : FWord) : State :=
  let seg := match beyond blk (src - 1) with
    | .block k => segBetween blk k
    | _ => none
  match seg with
  | some (n, slot) =>
    if w.v ∧ w.stamp ≠ sent % 4 then
      s.pinSeg n slot ((s.region n).segQueue slot blk (segVertical n slot)) cyc XSEG_STAT_SLIP 0x42 false
    else s.onBlock blk cyc (fun e b => b.wordArrival e (s.region (regionOf blk)).pat src w order)
  | none => s.onBlock blk cyc (fun e b => b.wordArrival e (s.region (regionOf blk)).pat src w order)

/-- WORD_ARRIVAL at a router input: the word of the link, or what arrives in its place (R219 to R231, R239); nothing arrives at a port
that leads nowhere (R16, R221). An easement word that finds no room waits on its link (R237). -/
def State.wordInput (s : State) (blk cyc src order sent : Nat) (got : Option FWord) : State :=
  if beyond blk (src - 1) = .none then s
  else
    let x := s.takeLink blk cyc src
    let w := got.getD x.1
    let o := if got.isNone then x.2.1 else order
    let e := s.env blk cyc
    if e.easeCycle && (s.block blk).easeWaits e src w o then s
    else x.2.2.arrive blk cyc src o sent w

/-- A list of words by lane port with one more; a lane port buffers 64 in each direction (R246). The spec does not say what happens to a
word that finds them all taken: the model drops it (DESIGN CHOICE, log 62). -/
def laneAdd (l : List (Nat × FWord)) (q : Nat) (w : FWord) : List (Nat × FWord) :=
  if (l.filter (fun x => x.1 == q)).length < 64 then l ++ [(q, w)] else l

/-- A word comes into lane port `q` from its circuit. -/
def Region.laneIn (g : Region) (q : Nat) (w : FWord) : Region := { g with lanes := laneAdd g.lanes q w }
/-- A word goes from the edge into lane port `q` toward a sightline port. -/
def Region.laneSend (g : Region) (q : Nat) (w : FWord) : Region := { g with laneOut := laneAdd g.laneOut q w }

/-- A word that passed the edge's checks goes where the edge entry's selector says (Table 8-7). -/
def State.edgeOut (s : State) (n cyc row : Nat) (w : FWord) : State :=
  let g := s.region n
  let sel := g.selector cyc row true
  if sel = 1 then s.setRegion n { g with links := g.links.put noWord (32 + row) w }
  else if 2 ≤ sel ∧ sel ≤ 6 then
    match s.octetOf n (sel - 2) with
    | none => s
    | some o =>
      if s.lane LANE_OCT_KIND o = 2 then s.setRegion n (g.laneSend (sel - 2) w)
      else if !s.bit LANE_STAT_LOCK o then s
      else
        let f := s.farEnd o n (sel - 2)
        s.setRegion f.1 ((s.region f.1).laneIn f.2 w)
  else s

/-- The edge drops a word, with a record. -/
def State.edgeDrop (s : State) (n cyc cls sub spec : Nat) : State :=
  s.onRegion n cyc (fun e g => g.raise e { cls := cls, subtype := sub, level := 2, specific := spec })

/-- WORD_ARRIVAL at row `row` of a region's edge: the word that the row's router sent, checked as at a router (R219, R230,
R231) against the parcel of the row's outer-edge block, goes where the edge entry says; an easement word goes to the region
controller (R233). -/
def State.wordEdge (s : State) (n cyc row : Nat) (got : Option FWord) : State :=
  let eb := edgeBlock n row
  let b := s.block eb.1
  let w := got.getD (b.router.out.get noWord eb.2)
  let u := s.setBlock eb.1 { b with router := { b.router with out := b.router.out.put noWord eb.2 (noWord 0) } }
  let ease := (s.env eb.1 cyc).easeCycle
  let spec := w.parcel + 2 ^ 4 * eb.2
  if !w.v then u
  else if w.par ≠ parOf w.data then u.edgeDrop n cyc 8 0x40 spec
  else if w.eas && w.parcel == 0 && ease then u
  else if w.eas && w.parcel != 0 || !w.eas && ease then u.edgeDrop n cyc 2 0x45 spec
  else if w.parcel ≠ b.rd RT_CTL_PARCEL then u.edgeDrop n cyc 2 0x44 spec
  else if w.parcel ≠ 0 ∧ w.gen ≠ s.genOf w.parcel then u
  else u.edgeOut n cyc row w

/-- The planned slot of an outbound endpoint: the block's own word, or its stand-in's when the block is fenced (18 R485); none
from a block whose clock does not run. In an easement cycle, the boundary gap's among them, the router forwards an easement word
(R224, R235, 02 R42). -/
def State.launch (s : State) (blk cyc : Nat) : State :=
  let g := s.region (regionOf blk)
  let e := s.env blk cyc
  if g.lost then s
  else if e.easeCycle then s.putBlock blk ((s.block blk).easeSend e)
  else if g.stopped then s
  else if s.runs blk then s.onBlock blk cyc (fun e b => b.wordLaunch e g.pat)
  else if g.isFenced (indexOf blk) && s.activeP ((s.block blk).rd RT_CTL_PARCEL) then
    s.putBlock blk ((s.block blk).standInLaunch e g.pat)
  else s

/-- WORD_ARRIVAL at the hub's end of a shore link (R223): the word that the south port of the row-0 router sent. PAR is checked as at
every crossing (R219); what the hub does with a word is not said, so the last one of each link stands (DEDUCED, log 73). -/
def State.wordShore (s : State) (die lx cyc : Nat) (got : Option FWord) : State :=
  let k := chipBlk (6 * die) lx
  let b := s.block k
  let w := got.getD (b.router.out.get noWord 1)
  let s := s.setBlock k { b with router := { b.router with out := b.router.out.put noWord 1 (noWord 0) } }
  if !w.v then s
  else if w.par ≠ parOf w.data then
    s.raise { cls := 8, subtype := 0x40, level := 3, die := die, beat := cyc / 256 }
  else { s with mc := { s.mc with shore := s.mc.shore.put noWord (12 * die + lx) w } }

/-- WORD_ARRIVAL (R219): at a router from its block, at a router input, at a region's edge, or at the hub's end of a shore link. -/
def execWordArrival (at_ : WordAt) (got : Option FWord) (s : State) : Host.Outcome State Fault Refusal :=
  match at_ with
  | .launch blk cyc => .next (s.launch blk cyc)
  | .input blk cyc src order sent => .next (s.wordInput blk cyc src order sent got)
  | .edge n cyc row => .next (s.wordEdge n cyc row got)
  | .shore die lx cyc => .next (s.wordShore die lx cyc got)

/-! ## Segments and circuits -/

/-- MARGIN_SAMPLE (R244, 20 R532): the margin monitor of the segment in slot `slot` reads `ps`; a crossing delay that acts
on the segment is part of the reading. -/
def execMarginSample (n slot ps : Nat) (s : State) : Host.Outcome State Fault Refusal :=
  let hit := s.pert.acting.getD 0 false && s.rd PERT_XDLY_REGION == n && s.rd PERT_XDLY_SLOT == slot
  let seen := ps - (if hit then 5 * s.rd PERT_XDLY_DELAY else 0)
  if segExists n slot ∧ seen < 40 then
    .next (s.pinSeg n slot (if hit then s.rd PERT_XDLY_QUEUE else 0) 0 XSEG_STAT_MLOW 0x41 (hit && decide (40 ≤ ps)))
  else .next s

/-- Is a context active in region `n`: does a block, a store stream or a window of it belong to one? -/
def State.activeIn (s : State) (n : Nat) : Bool :=
  let g := s.region n
  (List.range 192).any (fun b => s.activeP ((s.block (chipBlk n b)).rd RT_CTL_PARCEL)) ||
  (List.range 64).any (fun i => g.ss i 0 != 0 && s.activeP (g.ssParcel i)) ||
  g.streamParcels.any s.activeP

/-- SEGMENT_RECAL (R245). -/
def execSegmentRecal (n slot : Nat) (s : State) : Host.Outcome State Fault Refusal :=
  if segExists n slot then
    let busy := (segRegions n slot).any s.activeIn
    .next (s.onRegion n 0 (fun _ g => g.recal slot busy))
  else .next s

/-- The steps that a region may take under the active plat. -/
def State.stepsOf (s : State) (n : Nat) : List Nat := (s.region n).stepList

/-- The queues of the segment in `slot` that are in use (R222, R240): those that the monument does not list, without unassigned spares
and without a column's queue that a spare replaces (DEDUCED from "in place of", log 72). -/
def Region.queuesInUse (g : Region) (slot : Nat) (vertical : Bool) (spare : Word) : List Nat :=
  (List.range 16).filter (fun q => !g.bit XQ_CAL_DEF slot q &&
    (vertical ||
      let on (i : Nat) : Bool := spare.getLsbD (5 * i + 4)
      if 12 ≤ q then on (q - 12)
      else !(List.range 4).any (fun i => on i && (spare >>> (5 * i)).toNat % 16 == q)))

/-- The margin of queue `q` at pair or step `p`; a margin that was not measured passes nothing. -/
def marginOf (m : List (List Nat)) (q p : Nat) : Nat := (m.getD q []).getD p 0

/-- The least of a list of margins. -/
def leastOf (l : List Nat) : Nat := l.foldl min 1275

/-- The pairs 8 a + b that fail for a queue of `qs` (R240): a margin below 80 ps in either direction. -/
def CalResult.fails (r : CalResult) (qs : List Nat) : Nat :=
  (List.range 64).foldl (fun m p => if qs.any (fun q => decide (marginOf r.up q p < 80 ∨ marginOf r.down q p < 80)) then m + 2 ^ p else m) 0

/-- The steps that pass in synchronous mode for every queue of `qs` (R241). -/
def CalResult.syncs (r : CalResult) (qs : List Nat) : Nat :=
  (List.range 8).foldl (fun m a => if qs.all (fun q => decide (80 ≤ marginOf r.sync q a)) then m + 2 ^ a else m) 0

/-- The least margin over the queues of `qs`, directions and pairs. -/
def CalResult.least (r : CalResult) (qs : List Nat) : Nat :=
  leastOf (qs.flatMap (fun q => (List.range 64).map (fun p => min (marginOf r.up q p) (marginOf r.down q p))))

/-- The spare assignment of the segment in `slot` (XSEG_SPARE, R222). -/
def Region.spares (g : Region) (slot : Nat) : Word := g.regs.word .region (0x410 + 0x80 * slot)

/-- The failing pairs and the passing synchronous steps of the segment in `slot` of region `n` under a spare assignment; those that the
registers show where it was never calibrated. -/
def Region.calFor (g : Region) (n slot : Nat) (spare : Word) : Nat × Nat :=
  match g.cals.find? (fun x => x.1 == slot) with
  | none => (g.rd XSEG_FAIL_LO_FAIL slot + 2 ^ 32 * g.rd XSEG_FAIL_HI_FAIL slot, g.rd XSEG_STAT_SYNCSTEP slot)
  | some x =>
    let qs := g.queuesInUse slot (segVertical n slot) spare
    (x.2.fails qs, x.2.syncs qs)

/-- Show a segment's calibration for the queues in use (R240, R241, Table 8-13). -/
def Region.calShow (g : Region) (n slot : Nat) : Region :=
  match g.cals.find? (fun x => x.1 == slot) with
  | none => g
  | some x =>
    let r := x.2
    let qs := g.queuesInUse slot (segVertical n slot) (g.spares slot)
    let f := r.fails qs
    let g := (g.wr XSEG_FAIL_LO_FAIL (f % 2 ^ 32) slot).wr XSEG_FAIL_HI_FAIL (f / 2 ^ 32) slot
    ((g.wr XSEG_STAT_SYNCSTEP (r.syncs qs) slot).wr XSEG_STAT_WORST (min (r.least qs / 5) 255) slot).wr XSEG_STAT_CALOK
      (if f = 0 then 1 else 0) slot

/-- Write a calibration's results (R240, R241). -/
def Region.calWrite (g : Region) (n slot : Nat) (r : CalResult) : Region :=
  let g : Region := { g with cals := (slot, r) :: g.cals.filter (fun x => x.1 != slot) }
  ((List.range 16).foldl (fun (g : Region) q =>
    (g.wr XQ_CAL_MUP (min (leastOf ((List.range 64).map (marginOf r.up q)) / 5) 255) slot q).wr XQ_CAL_MDN
      (min (leastOf ((List.range 64).map (marginOf r.down q)) / 5) 255) slot q) g).calShow n slot

/-- Does the calibration shown pass for the pairs or steps that the active plat permits (R245)? In XSEG_FAIL bit 8 a + b is the pair
(a, b). -/
def State.calPasses (s : State) (n slot : Nat) : Bool :=
  let g := s.region n
  match segRegions n slot with
  | [a, b] =>
    if g.rd XSEG_CTL_MODE slot = 1 then (s.stepsOf a).all (fun x => (g.rd XSEG_STAT_SYNCSTEP slot).testBit x)
    else (s.stepsOf a).all (fun x => (s.stepsOf b).all (fun y =>
      !(g.rd XSEG_FAIL_LO_FAIL slot + 2 ^ 32 * g.rd XSEG_FAIL_HI_FAIL slot).testBit (8 * x + y)))
  | _ => false

/-- RECAL_DONE (R245). -/
def execRecalDone (n slot : Nat) (r : CalResult) (s : State) : Host.Outcome State Fault Refusal :=
  if (s.region n).bit XSEG_CTL_RBUSY slot then
    let s := s.onRegion n 0 (fun _ g => ((g.calWrite n slot r).wr XSEG_CTL_RBUSY 0 slot).set1 XSEG_CTL_RDONE slot)
    .next (if s.calPasses n slot then s.setRegion n ((s.region n).wr XSEG_STAT_PINNED 0 slot) else s).showPins
  else .next s

/-- CIRCUIT_LOCK_LOST (R251) of a die-to-die octet: by lock, or by a margin below 40 ps. -/
def execCircuitLockLost (oct margin : Nat) (s : State) : Host.Outcome State Fault Refusal :=
  if s.lane LANE_OCT_KIND oct = 1 ∧ margin < 40 then .next (s.loseCircuit oct)
  else .next s

/-! ## Memory of a region (07_region_store_hbm.md, 09 R268 to R270, 12 R360) -/

/-- What the edge entry of cycle `cyc` plans (R228, R232): nothing in an easement cycle, in the boundary gap, or while the region does
not issue. -/
def Region.planAt (g : Region) (cyc : Nat) : List (Nat × Nat) × Option (Nat × Nat) :=
  if g.bit RGN_BEAT_GAP || g.stopped || decide (cyc % 256 < 8) then ([], none)
  else edgePlan (g.edge.get natZero (g.pat * 256 + cyc % 256))

/-- TRANSFER_START (07 R198, R199) in the stream slot that the edge entry of the cycle plans (R232). -/
def execTransferStart (n cyc eng desc : Nat) (s : State) : Host.Outcome State Fault Refusal :=
  .next (s.onLiveRegion n cyc (fun e g => if (g.planAt cyc).2 = some (eng, desc) then g.transferStart e eng desc else g))

/-- REQUEST_ACCEPTED (07 R200 to R203). -/
def execRequestAccepted (n cyc eng desc : Nat) (s : State) : Host.Outcome State Fault Refusal :=
  .next (s.onLiveRegion n cyc (fun e g => g.requestAccepted e eng desc))

/-- LINE_LANDED (07 R201, R202, R207, R208). -/
def execLineLanded (n cyc eng desc k first : Nat) (s : State) : Host.Outcome State Fault Refusal :=
  .next (s.onLiveRegion n cyc (fun e g => g.lineLanded e eng desc k first))

/-- REQUEST_ABANDON (07 R211). -/
def execRequestAbandon (n cyc eng desc k first : Nat) (s : State) : Host.Outcome State Fault Refusal :=
  .next (s.onLiveRegion n cyc (fun e g => g.requestAbandon e eng desc k first))

/-- STORE_STREAM_ACCESS (08 R232, R234, 09 R269, R270), planned by the edge entry of the cycle; of the accesses of one cycle the one at the
lowest port comes first. A write takes the words that the edge holds for the port's two rows. -/
def execStoreStreamAccess (n cyc i port : Nat) (s : State) : Host.Outcome State Fault Refusal :=
  .next (s.onLiveRegion n cyc (fun e g =>
    if !(g.planAt cyc).1.contains (port, i) then g else
    let ws := [g.links.get noWord (32 + 2 * port), g.links.get noWord (33 + 2 * port)]
    let g' := g.strmAccess e i port ws
    if bitsOf (g.ss i 0) 22 22 = 0 then g'
    else { g' with links := (g'.links.put noWord (32 + 2 * port) (noWord 0)).put noWord (33 + 2 * port) (noWord 0) }))

/-- STORE_IN_TILE (09 R270): the mark word that the edge holds for the lower row of the port, or what arrives in its
place. -/
def execStoreInTile (n cyc i port : Nat) (got : Option FWord) (s : State) : Host.Outcome State Fault Refusal :=
  .next (s.onLiveRegion n cyc (fun e g =>
    let w := got.getD (g.links.get noWord (32 + 2 * port))
    let g : Region := { g with links := g.links.put noWord (32 + 2 * port) (noWord 0) }
    if w.v then g.storeInTile e i (Hdr.ofBits w.data) w.last else g))

/-- STORE_SCRUB (07 R210). -/
def execStoreScrub (n : Nat) (at_ : ScrubAt) (s : State) : Host.Outcome State Fault Refusal :=
  .next (s.onLiveRegion n at_.cyc (fun e g => (g.upset at_.upsets).storeScrub e))

/-- PATROL_SCRUB (07 R209). -/
def execPatrolScrub (n : Nat) (at_ : ScrubAt) (s : State) : Host.Outcome State Fault Refusal :=
  .next (s.onLiveRegion n at_.cyc (fun e g => (g.stkUpset at_.upsets).patrol e))

/-- MEM_ZERO_START (07 R214, 23 R575): a write of MEM_ZERO_CTL. -/
def execMemZeroStart (n : Nat) (v : Word) (s : State) : Host.Outcome State Fault Refusal :=
  .next (s.onLiveRegion n 0 (fun e g => g.zeroCtlWrite e v))

/-- ZERO_FILL_DONE (07 R214). -/
def execZeroFillDone (n cyc : Nat) (s : State) : Host.Outcome State Fault Refusal :=
  .next (s.onLiveRegion n cyc (fun _ g => g.zeroDone))

/-- DOUBLED_REFRESH (07 R192): a stack die passes 85 °C, or falls back; HBM_STAT.HOT follows. -/
def execDoubledRefresh (n : Nat) (hot : Bool) (s : State) : Host.Outcome State Fault Refusal :=
  .next (s.onLiveRegion n 0 (fun _ g => g.wr HBM_STAT_HOT (if hot then 1 else 0)))

end Sys2Proof.Machine
end

