-- ==== Sys2Proof/Machine/HostOps.lean ====
section
/-!
DEFINITION. The host interface (13_host_interface.md R368 to R384): the host map, accesses line by line, rings, items,
completions, host drives.
-/
namespace Sys2Proof.Machine

/-! ## The host map (Tables 13-3, 13-5, 23-4) -/

/-- What a host-map offset names: a stack or a store of a region, with the byte offset within it; `none` where nothing
backs it. -/
inductive HostPlace where
  | stack (n a : Nat)
  | store (n a : Nat)
  | none
deriving DecidableEq, Repr

/-- The place of a host-map offset. -/
def hostPlace (o : Nat) : HostPlace :=
  if 0x1F000000000 ≤ o ∧ o < 0x1F000000000 + 24 * 0x4000000 then
    .store ((o - 0x1F000000000) / 0x4000000) ((o - 0x1F000000000) % 0x4000000)
  else if o < 24 * 0x1000000000 ∧ o % 0x1000000000 < 0x900000000 then .stack (o / 0x1000000000) (o % 0x1000000000)
  else .none

/-- May parcel `p`'s VF reach the line (R370)? -/
def State.vfReach (s : State) (p : Nat) : HostPlace → Bool
  | .stack n a =>
    let g := s.region n
    let l := a / 256
    (List.range 16).any (fun w =>
      g.bit MEM_WIN_B_EN w && g.bit MEM_WIN_B_HOST w && g.rd MEM_WIN_B_PARCEL w == p &&
        decide (g.rd MEM_WIN_A_BASE w * 4096 ≤ l ∧ l < (g.rd MEM_WIN_A_LIMIT w + 1) * 4096)) || released n l 1
  | .store n a =>
    let l := a / 256
    (List.range 8).any (fun k =>
      s.bit HIF_VGRANT0_EN p k && s.rd HIF_VGRANT0_REGION p k == n &&
        decide (s.rd HIF_VGRANT0_FIRST p k ≤ l ∧ l < s.rd HIF_VGRANT0_FIRST p k + s.rd HIF_VGRANT1_COUNT p k)) || released n l 0
  | .none => false
where
  /-- Does line `l` lie in a release buffer of a station of the parcel, in the store (`tgt` 0) or the stack (1) of region `n`? -/
  released (n l tgt : Nat) : Bool :=
    match s.plat.active with
    | some pl => pl.stations.any (fun st => st.parcel == p && (st.rel.take st.nrel).any (fun r =>
        r.region == n && r.tgt == tgt && decide (r.base ≤ l ∧ l < r.base + (r.nb + 1) * r.len)))
    | Option.none => false

/-- How an access of function `fn` to a line ends: 0 allowed, 1 unbacked, 2 not permitted. -/
def State.judge (s : State) (fn o : Nat) : Nat :=
  if isPf fn then (if hostPlace o = .none then 1 else 0)
  else if fnParcel fn ≠ 0 ∧ s.vfReach (fnParcel fn) (hostPlace o) then 0
  else 2

/-- Log an error of a function's requests in AER: bit 0 Unsupported Request, 1 poisoned egress, 2 poisoned received. -/
def State.aer (s : State) (fn k : Nat) : State := s.setFn fn { s.fn fn with aer := (s.fn fn).aer ||| 2 ^ k }

/-- Read `n` bytes at a place within one line: the device after the read's ECC, the bytes, whether a word was bad. -/
def State.placeRead (s : State) (o n : Nat) : State × List Byte × Bool :=
  match hostPlace o with
  | .stack m a =>
    let g := s.region m
    let bad := g.stkBad a (a + n)
    let s := s.onRegion m 0 (fun e g => bad.foldl (Region.stkOne e false) g)
    (s, g.stack.rdN a n, bad.any (fun x => x.2 != 1))
  | .store m a =>
    let g := s.region m
    let r := g.rsEcc (s.renv m 0) a (a + n)
    (s.putRegion m r.1, g.store.rdN a n, r.2)
  | .none => (s, List.replicate n 0xFF, false)

/-- Write bytes at a place within one line. -/
def State.placeWrite (s : State) (o : Nat) (bs : List Byte) : State :=
  match hostPlace o with
  | .stack m a => s.onRegion m 0 (fun _ g => g.stkWrite a bs false)
  | .store m a => s.onRegion m 0 (fun _ g => g.rsWrite a bs)
  | .none => s

/-- Cut the range `[o, o + n)` at the lines of 256 B: offsets and lengths. -/
def lineCuts (o : Nat) : Nat → Nat → List (Nat × Nat)
  | 0, _ => []
  | f + 1, n => if n = 0 then [] else
    let k := min n (256 - o % 256)
    (o, k) :: lineCuts (o + k) f (n - k)

/-- The lines of a range. -/
def cuts (o n : Nat) : List (Nat × Nat) := lineCuts o (n / 256 + 2) n

/-- A host write of bytes at a host-map offset, line by line (Table 13-5): refused lines are discarded and counted. -/
def State.hostStore (s : State) (fn o : Nat) (bs : List Byte) : State :=
  (cuts o bs.length).foldl (fun s c =>
    if s.judge fn c.1 = 0 then s.placeWrite c.1 ((bs.drop (c.1 - o)).take c.2)
    else (s.discard).aer fn 0) s

/-- What a host read gives: the bytes that were allowed, with their offsets; the answer for each line; the first offset of a bad line. -/
structure HostRead where
  s : State
  got : List (Nat × List Byte) := []
  ans : List LineAns := []
  bad : Option Nat := none
deriving DecidableEq, Repr

/-- A host read of `n` bytes at a host-map offset, line by line (Table 13-5). -/
def State.hostLoad (s : State) (fn o n : Nat) : HostRead :=
  (cuts o n).foldl (fun (r : HostRead) c =>
    if r.s.judge fn c.1 = 0 then
      let x := r.s.placeRead c.1 c.2
      { r with s := if x.2.2 then x.1.aer fn 1 else x.1, got := r.got ++ [(c.1, x.2.1)]
               ans := r.ans ++ [if x.2.2 then .poisoned x.2.1 else .data x.2.1]
               bad := if x.2.2 && r.bad.isNone then some (c.1 - o) else r.bad }
    else { r with s := (r.s.discard).aer fn 0, ans := r.ans ++ [.unsupported] }) { s := s }

/-! ## Rings -/

/-- A ring of a function. -/
def State.ring (s : State) (fn r : Nat) : Ring := (s.fn fn).rings.get ringZero r
/-- Put a ring back; only the function's own rings exist. -/
def State.setRing (s : State) (fn r : Nat) (x : Ring) : State :=
  if r < fnRings fn then s.setFn fn { s.fn fn with rings := (s.fn fn).rings.put ringZero r x } else s
/-- Read a ring field. -/
def Ring.rd (x : Ring) (f : Field) : Nat := x.regs.rd f
/-- Read a one-bit ring field. -/
def Ring.bit (x : Ring) (f : Field) : Bool := x.regs.bit f
/-- Update a ring field. -/
def Ring.wr (x : Ring) (f : Field) (v : Nat) : Ring := { x with regs := x.regs.wr f v }
/-- Slots of the ring. -/
def Ring.slots (x : Ring) : Nat := 2 ^ x.rd CR_CTL_LOG2SLOTS
/-- Entries of the completion ring. -/
def Ring.ents (x : Ring) : Nat := 2 ^ x.rd CC_CTL_LOG2ENT
/-- Slots that the doorbell covers and the device has not consumed. -/
def Ring.unread (x : Ring) : Nat := (x.pi + 2 ^ 32 - x.rd CR_CI_CI) % 2 ^ 32
/-- Completion entries in use. -/
def Ring.used (x : Ring) : Nat := (x.rd CC_TAIL_TAIL + 2 ^ 32 - x.rd CC_HEAD_HEAD) % 2 ^ 32
/-- CR_LAST. -/
def Ring.last (x : Ring) : Nat := x.rd CR_LAST_LO_SER + 2 ^ 32 * x.rd CR_LAST_HI_SER
/-- Set CR_LAST. -/
def Ring.setLast (x : Ring) (v : Nat) : Ring := (x.wr CR_LAST_LO_SER (v % 2 ^ 32)).wr CR_LAST_HI_SER (v / 2 ^ 32)
/-- Show BUSY and FLUSHING (CR_STAT). -/
def Ring.show (x : Ring) : Ring :=
  let flushing := x.flush && x.items.any (fun (i : Item) => !i.begun)
  ({ x with flush := flushing }.wr CR_STAT_BUSY (if x.items.any (fun (i : Item) => i.begun) then 1 else 0)).wr CR_STAT_FLUSHING
    (if flushing then 1 else 0)
/-- A disable takes effect once no item is left (R384). -/
def Ring.settle (x : Ring) : Ring :=
  if x.closing && x.items.isEmpty then { x.wr CR_CTL_EN 0 with closing := false } else x

/-- The ring enters error (R378). -/
def State.ringError (s : State) (fn r code : Nat) : State :=
  let s := s.setRing fn r ((s.ring fn r).wr CR_STAT_ERR code)
  s.errVector fn

/-- An item from the bytes of its slots (Table 13-6); `slot` is the ring index of its header. -/
def Item.parse (slot : Nat) (bs : List Byte) : Item :=
  let b (k : Nat) : Nat := leNat ((bs.drop k).take 1)
  { slot := slot, opc := b 0, nslots := b 1 % 16, fence := b 1 / 16 % 2 == 1, irq := b 1 / 32 % 2 == 1
    serial := leNat ((bs.drop 8).take 8), bytes := bs }

/-- The first offset at or after `a` and below `e` whose byte is not zero. -/
def Item.nonzero (x : Item) (a e : Nat) : Option Nat :=
  ((List.range (e - a)).map (fun i => a + i)).find? (fun k => x.num k 1 != 0)

/-- The first failing check, by ascending offset. -/
def firstBad (cs : List (Nat × Bool)) : Option Nat := (cs.find? (fun c => c.2)).map (fun c => c.1)

/-- The header's reserved bits (Table 13-6) and OPC. -/
def Item.headerBad (x : Item) : Option Nat :=
  match firstBad [(0, decide (0x0A < x.opc)), (1, x.num 1 1 / 64 != 0)] with
  | some k => some k
  | none => x.nonzero 2 8

/-- The operands of a DMA (Table 13-7, R380); STAKE, REGION and INC are DMA_TO_DEV's, which DMA_FROM_DEV does not read. -/
def Item.dmaBad (x : Item) (toDev : Bool) : Option Nat :=
  let daddr := x.num 24 8
  let len := x.num 32 4
  let beyond : Bool :=
    match hostPlace daddr with
    | .stack _ a => decide (0x900000000 < a + len)
    | .store _ a => decide (0x4000000 < a + len)
    | .none => true
  let stake := x.num 36 2
  match firstBad [(16, x.num 16 8 % 64 != 0), (24, daddr % 64 != 0 || hostPlace daddr == .none),
      (32, len == 0 || len % 64 != 0 || decide (268435456 < len) || beyond),
      (36, toDev && stake != 0xFFFF && stake / 4096 != 4), (38, toDev && stake != 0xFFFF && decide (24 ≤ x.num 38 1)),
      (39, x.num 39 1 != 0), (40, toDev && stake != 0xFFFF && x.num 40 2 == 0)] with
  | some k => some k
  | none => x.nonzero 42 (64 * x.nslots)

/-- Drive entries of a STAKE_DRIVE: 3 in slot 0, 4 in each further slot. -/
def Item.entries (x : Item) : List Nat := List.range (3 + 4 * (x.nslots - 1))

/-- The operands of a STAKE_DRIVE (Table 13-8, R381): entries with VALID = 1. -/
def State.drvBad (s : State) (x : Item) : Option Nat :=
  (x.entries).findSome? (fun i =>
    let o := 16 + 16 * i
    let fl := x.num (o + 3) 1
    if fl % 2 = 0 then none
    else
      let id := x.num o 2
      let kind := id / 2 ^ 14
      let blk := x.num (o + 4) 2
      match firstBad [(o, !(kind == 0 && decide (id < 64) || id / 4096 == 4)),
          (o + 2, kind == 1 && decide (24 ≤ x.num (o + 2) 1)), (o + 3, decide (4 ≤ fl)),
          (o + 4, kind == 0 && (decide (4608 ≤ blk) || s.absent blk)), (o + 6, x.num (o + 6) 2 == 0)] with
      | some k => some k
      | none => x.nonzero (o + 8) (o + 16))

/-- The first faulty operand of an item (R378, Table 13-7). -/
def State.operandBad (s : State) (x : Item) : Option Nat :=
  let tail (k : Nat) : Option Nat := x.nonzero k (64 * x.nslots)
  let orElse (a b : Option Nat) : Option Nat := match a with | some k => some k | none => b
  match x.opc with
  | 0 => tail 16
  | 1 => s.drvBad x
  | 2 => x.dmaBad true
  | 3 => x.dmaBad false
  | 4 => orElse (firstBad [(16, x.num 16 8 % 4096 != 0)]) (tail 28)
  | 5 =>
    let rev := x.num 28 1 % 2 == 1
    orElse (firstBad [(16, x.num 16 8 % 4096 != 0 || rev && x.num 16 8 != 0), (24, rev && x.num 24 4 != 0),
      (28, x.num 28 1 / 2 != 0)]) (orElse (x.nonzero 29 32) (orElse (x.nonzero 38 40) (tail 43)))
  | 6 => tail 16
  | 7 => tail 16
  | 8 => orElse (firstBad [(16, decide (x.num 16 1 = 0 ∨ 16 ≤ x.num 16 1))]) (orElse (x.nonzero 17 24) (tail 30))
  | 9 => orElse (firstBad [(16, decide (x.num 16 1 = 0 ∨ 16 ≤ x.num 16 1))]) (tail 17)
  | _ => orElse (firstBad [(16, x.num 16 8 % 4096 != 0)]) (tail 28)

/-- Is a function denied the item (R379, Table 13-4)? -/
def Item.denied (x : Item) (fn : Nat) : Bool :=
  if isPf fn then false
  else if x.opc = 0 then false
  else if fnParcel fn = 0 then true
  else if decide (4 ≤ x.opc ∧ x.opc ≤ 7) || x.opc == 0x0A then true
  else if x.opc = 8 ∨ x.opc = 9 then x.num 16 1 % 16 != fnParcel fn
  else false

/-- What an item that passes the serial check comes to at once (R378, R379): `none` when it executes. -/
def State.atOnce (s : State) (fn : Nat) (x : Item) : Option (Nat × Nat) :=
  match x.headerBad with
  | some k => some (4, k)
  | none =>
    if x.denied fn then some (5, 0)
    else if s.oos && x.opc != 0 && x.opc != 3 then some (0x0B, 0)
    else (s.operandBad x).map (fun k => (4, k))

/-- The begun item of a ring at a slot with command code `opc` and no outcome yet. -/
def State.running (s : State) (fn r slot opc : Nat) : Option Item :=
  (s.ring fn r).items.find? (fun (x : Item) => x.slot == slot && x.opc == opc && x.begun && x.done.isNone)

/-! ## Host drives (R381, 10 R292) -/

/-- Make a host drive at once, and say whether it trespasses. -/
def State.hostDrive (s : State) (fn id region blk inc : Nat) (void : Bool) : State × Bool :=
  let p := if isPf fn then 0 else fnParcel fn
  let d : Drive := { stake := if id / 2 ^ 14 = 0 then id % 64 else id % 4096, inc := inc, void := void
                     tag := s.frame.num % 2 ^ 16, parcel := p, gen := some (s.genOf p), by_ := .host fn }
  if id / 2 ^ 14 = 0 then
    let st := (s.block blk).stake d.stake
    (s.onBlock blk 0 (fun e b => ({ b with driveq := d :: b.driveq } : Block).driveApply e (s.genOf p)),
      st.drive d (s.genOf p) == .trespass)
  else
    let st := (s.region region).stake d.stake
    (s.onRegion region 0 (fun e g => ({ g with driveq := d :: g.driveq } : Region).driveApply e),
      st.drive d (s.genOf p) == .trespass)

/-- The headers of the items that a flush or a disable meets from CR_CI on, each with its slots below `pif`: completions
to write, in order; a header with a bad NSLOTS ends them. -/
def unbegun (pif partial_ whole slots : Nat) : Nat → List (List Byte) → List Item
  | _, [] => []
  | ci, h :: t =>
    if pif ≤ ci then []
    else
      let x := Item.parse (ci % slots) h
      if x.nslots = 0 ∨ 8 < x.nslots then []
      else if ci + x.nslots ≤ pif then
        { x with begun := false, done := some (whole, 0) } :: unbegun pif partial_ whole slots (ci + x.nslots) t
      else [{ x with begun := false, done := some (partial_, if partial_ = 3 then pif - ci else 0) }]

end Sys2Proof.Machine
end

