-- ==== Sys2Proof/Machine/Sha.lean ====
section
/-!
DEFINITION. SHA-384, which 11_plat.md R308 and R309 and 17_bring_up_monument.md R461 name: the digest of a list of bytes, as a
number whose most significant byte is the digest's byte 0.
-/
namespace Sys2Proof.Machine

/-- A 64-bit word of the hash. -/
abbrev Word64 := BitVec 64

/-- The first half of the round constants. -/
def shaK0 : List Word64 :=
  [0x428A2F98D728AE22, 0x7137449123EF65CD, 0xB5C0FBCFEC4D3B2F, 0xE9B5DBA58189DBBC, 0x3956C25BF348B538,
   0x59F111F1B605D019, 0x923F82A4AF194F9B, 0xAB1C5ED5DA6D8118, 0xD807AA98A3030242, 0x12835B0145706FBE,
   0x243185BE4EE4B28C, 0x550C7DC3D5FFB4E2, 0x72BE5D74F27B896F, 0x80DEB1FE3B1696B1, 0x9BDC06A725C71235,
   0xC19BF174CF692694, 0xE49B69C19EF14AD2, 0xEFBE4786384F25E3, 0x0FC19DC68B8CD5B5, 0x240CA1CC77AC9C65,
   0x2DE92C6F592B0275, 0x4A7484AA6EA6E483, 0x5CB0A9DCBD41FBD4, 0x76F988DA831153B5, 0x983E5152EE66DFAB,
   0xA831C66D2DB43210, 0xB00327C898FB213F, 0xBF597FC7BEEF0EE4, 0xC6E00BF33DA88FC2, 0xD5A79147930AA725,
   0x06CA6351E003826F, 0x142929670A0E6E70, 0x27B70A8546D22FFC, 0x2E1B21385C26C926, 0x4D2C6DFC5AC42AED,
   0x53380D139D95B3DF, 0x650A73548BAF63DE, 0x766A0ABB3C77B2A8, 0x81C2C92E47EDAEE6, 0x92722C851482353B]
/-- The second half of the round constants. -/
def shaK1 : List Word64 :=
  [0xA2BFE8A14CF10364, 0xA81A664BBC423001, 0xC24B8B70D0F89791, 0xC76C51A30654BE30, 0xD192E819D6EF5218,
   0xD69906245565A910, 0xF40E35855771202A, 0x106AA07032BBD1B8, 0x19A4C116B8D2D0C8, 0x1E376C085141AB53,
   0x2748774CDF8EEB99, 0x34B0BCB5E19B48A8, 0x391C0CB3C5C95A63, 0x4ED8AA4AE3418ACB, 0x5B9CCA4F7763E373,
   0x682E6FF3D6B2B8A3, 0x748F82EE5DEFB2FC, 0x78A5636F43172F60, 0x84C87814A1F0AB72, 0x8CC702081A6439EC,
   0x90BEFFFA23631E28, 0xA4506CEBDE82BDE9, 0xBEF9A3F7B2C67915, 0xC67178F2E372532B, 0xCA273ECEEA26619C,
   0xD186B8C721C0C207, 0xEADA7DD6CDE0EB1E, 0xF57D4F7FEE6ED178, 0x06F067AA72176FBA, 0x0A637DC5A2C898A6,
   0x113F9804BEF90DAE, 0x1B710B35131C471B, 0x28DB77F523047D84, 0x32CAAB7B40C72493, 0x3C9EBE0A15C9BEBC,
   0x431D67C49C100D4C, 0x4CC5D4BECB3E42B6, 0x597F299CFC657E2A, 0x5FCB6FAB3AD6FAEC, 0x6C44198C4A475817]

/-- The initial hash value of SHA-384. -/
def shaInit : List Word64 :=
  [0xCBBB9D5DC1059ED8, 0x629A292A367CD507, 0x9159015A3070DD17, 0x152FECD8F70E5939, 0x67332667FFC00B31,
   0x8EB44A8768581511, 0xDB0C2E0D64F98FA7, 0x47B5481DBEFA4FA4]

/-- The eight working variables. -/
structure ShaVars where
  a : Word64
  b : Word64
  c : Word64
  d : Word64
  e : Word64
  f : Word64
  g : Word64
  h : Word64
deriving DecidableEq, Repr

/-- The working variables as a list. -/
def ShaVars.list (v : ShaVars) : List Word64 := [v.a, v.b, v.c, v.d, v.e, v.f, v.g, v.h]
/-- The working variables from a list. -/
def ShaVars.ofList (l : List Word64) : ShaVars :=
  { a := l.getD 0 0, b := l.getD 1 0, c := l.getD 2 0, d := l.getD 3 0, e := l.getD 4 0, f := l.getD 5 0, g := l.getD 6 0
    h := l.getD 7 0 }

/-- One round with round constant plus schedule word. -/
def ShaVars.round (v : ShaVars) (kw : Word64) : ShaVars :=
  let t1 := v.h + (v.e.rotateRight 14 ^^^ v.e.rotateRight 18 ^^^ v.e.rotateRight 41) +
    ((v.e &&& v.f) ^^^ (~~~v.e &&& v.g)) + kw
  let t2 := (v.a.rotateRight 28 ^^^ v.a.rotateRight 34 ^^^ v.a.rotateRight 39) +
    ((v.a &&& v.b) ^^^ (v.a &&& v.c) ^^^ (v.b &&& v.c))
  { a := t1 + t2, b := v.a, c := v.b, d := v.c, e := v.d + t1, f := v.e, g := v.f, h := v.g }

/-- The rest of the message schedule: the window holds the last sixteen words, oldest first. -/
def shaSchedule : Nat → List Word64 → List Word64
  | 0, _ => []
  | n + 1, w =>
    let x := w.getD 1 0
    let y := w.getD 14 0
    let t := (y.rotateRight 19 ^^^ y.rotateRight 61 ^^^ (y >>> 6)) + w.getD 9 0 +
      (x.rotateRight 1 ^^^ x.rotateRight 8 ^^^ (x >>> 7)) + w.getD 0 0
    t :: shaSchedule n (w.drop 1 ++ [t])

/-- Bytes as a number, first byte most significant. -/
def beNat (bs : List Byte) : Nat := bs.foldl (fun a b => 256 * a + b.toNat) 0

/-- One block of 128 bytes. -/
def shaBlock (h : List Word64) (bs : List Byte) : List Word64 :=
  let w := (List.range 16).map (fun i => BitVec.ofNat 64 (beNat ((bs.drop (8 * i)).take 8)))
  let ws := w ++ shaSchedule 64 w
  let v := ((shaK0 ++ shaK1).zip ws).foldl (fun (v : ShaVars) x => v.round (x.1 + x.2)) (ShaVars.ofList h)
  (h.zip v.list).map (fun x => x.1 + x.2)

/-- `n` blocks. -/
def shaBlocks : Nat → List Word64 → List Byte → List Word64
  | 0, h, _ => h
  | n + 1, h, bs => shaBlocks n (shaBlock h (bs.take 128)) (bs.drop 128)

/-- The padded message. -/
def shaPad (bs : List Byte) : List Byte :=
  bs ++ (0x80 : Byte) :: List.replicate ((239 - bs.length % 128) % 128) 0 ++ (leBytes 16 (8 * bs.length)).reverse

/-- The SHA-384 digest as 48 bytes. -/
def sha384 (bs : List Byte) : List Byte :=
  let p := shaPad bs
  (((shaBlocks (p.length / 128) shaInit p).take 6).map (fun w => (leBytes 8 w.toNat).reverse)).flatten

/-- The digest as a number, byte 0 most significant. -/
def sha384Nat (bs : List Byte) : Nat := beNat (sha384 bs)

end Sys2Proof.Machine
end

