-- ==== Sys2Proof/Machine/PlatCheck.lean ====
section
/-!
DEFINITION. The plat checker (11_plat.md R303 to R313, R319; 21_codonov_mode.md R541 to R547; 01 R27; 08 R242, R243, R247,
R249; 09 R273, R277; 12 R363, R364; 15 R419; 17 R454): layout, CRCs, signature, fit, and the invariants that are over the
plat's data. Those over planned times and routes come with the image (log 10).
-/
namespace Sys2Proof.Machine

/-- A rejection: CODE, SECTION, RECORD, DETAIL (Table 11-10); `part` the TYPE and INSTANCE of the section that fails, where the
rule is over a section's data. -/
structure Rej where
  code : Nat
  sec : Nat := 0xFFFF
  record : Nat := 0xFFFF
  detail : Nat := 0
  part : Option (Nat × Nat) := none
deriving DecidableEq, Repr

/-- Bytes `[a, a + n)` of an image as a number. -/
def numAt (bs : List Byte) (a n : Nat) : Nat := leNat ((bs.drop a).take n)
/-- Are bytes `[a, e)` zero? -/
def zeroAt (bs : List Byte) (a e : Nat) : Bool := ((bs.drop a).take (e - a)).all (fun b => b == 0)
/-- The first of several tests that fails. -/
def firstRej (cs : List (Bool × Rej)) : Option Rej := (cs.find? (fun c => c.1)).map (fun c => c.2)
/-- The first answer, or else the second. -/
def orRej (a b : Option Rej) : Option Rej := match a with | some r => some r | none => b

/-! ## Layout, CRCs, signature (R303 to R309) -/

/-- One section table entry (Table 11-2). -/
structure SecEnt where
  typ : Nat
  inst : Nat
  off : Nat
  size : Nat
  crc : Nat
deriving DecidableEq, Repr

/-- The section table of an image. -/
def secTable (bs : List Byte) : List SecEnt :=
  (List.range (numAt bs 10 2)).map (fun i =>
    let a := 256 + 16 * i
    { typ := numAt bs a 2, inst := numAt bs (a + 2) 2, off := numAt bs (a + 4) 4, size := numAt bs (a + 8) 4
      crc := numAt bs (a + 12) 4 })

/-- The rejection with the index of its section in the image's table. -/
def Rej.locate (r : Rej) (bs : List Byte) : Rej :=
  match r.part with
  | none => r
  | some k => { r with sec := ((secTable bs).findIdx? (fun e => e.typ == k.1 && e.inst == k.2)).getD 0xFFFF }

/-- The header (Table 11-1). -/
def headerRej (bs : List Byte) : Option Rej :=
  let r (d : Nat) : Rej := { code := 1, detail := d }
  firstRej [(decide (bs.length < 512), r 0), (numAt bs 0 4 != 0x54414C50, r 0), (numAt bs 4 2 != 2, r 4), (numAt bs 6 2 != 0, r 6),
    (decide (8 ≤ numAt bs 8 1), r 8), (numAt bs 9 1 != 0, r 9), (numAt bs 10 2 == 0 || decide (8192 < numAt bs 10 2), r 10),
    (numAt bs 12 4 != bs.length || decide (268435456 < bs.length), r 12), (!zeroAt bs 32 256, r 32),
    (decide (bs.length < 512 + 16 * numAt bs 10 2), r 10),
    (!zeroAt bs (bs.length - 159) (bs.length - 152) || !zeroAt bs (bs.length - 56) bs.length, r (bs.length - 256))]

/-- Instances that a type may have, and how often (Table 11-3). -/
def instOk (e : SecEnt) : Bool :=
  match e.typ with
  | 1 => e.inst == 0
  | 2 => decide (e.inst < 24)
  | 3 => decide (e.inst < 24)
  | 4 => e.inst == 0
  | 5 => decide (e.inst < 4096)
  | 6 => decide (e.inst < 24)
  | 7 => e.inst == 0
  | 8 => e.inst == 0
  | _ => false

/-- The sections that every plat holds (R306). -/
def requiredSecs : List (Nat × Nat) :=
  [(1, 0), (4, 0)] ++ (List.range 24).flatMap (fun n => [(2, n), (3, n), (6, n)])

/-- The section table and the bodies' places (R305, R306). -/
def tableRej (bs : List Byte) : Option Rej :=
  let es := secTable bs
  let top := 256 + 16 * es.length
  let limit := bs.length - 256
  let place := (es.zipIdx).findSome? (fun x =>
    let e := x.1
    let earlier := es.take x.2
    firstRej [(!instOk e || earlier.any (fun y => y.typ == e.typ && y.inst == e.inst), { code := 1, sec := x.2, detail := 256 + 16 * x.2 }),
      (e.off % 64 != 0 || decide (e.off < top ∨ limit < e.off + e.size) ||
        earlier.any (fun y => decide (y.off < e.off + e.size ∧ e.off < y.off + y.size)), { code := 1, sec := x.2, detail := e.off })])
  let missing := requiredSecs.find? (fun k => !es.any (fun e => e.typ == k.1 && e.inst == k.2))
  let loose := ((List.range (limit - top)).map (fun i => top + i)).find? (fun a =>
    numAt bs a 1 != 0 && !es.any (fun e => decide (e.off ≤ a ∧ a < e.off + e.size)))
  orRej place (orRej (missing.map (fun _ => { code := 1 })) (loose.map (fun a => { code := 1, detail := a })))

/-- The CRCs (R307): header and table, then each body. -/
def crcRej (bs : List Byte) : Option Rej :=
  let es := secTable bs
  if numAt bs 28 4 ≠ crcOf 0 (bs.take 28 ++ (bs.drop 256).take (16 * es.length)) then some { code := 2, detail := 28 }
  else (es.zipIdx).findSome? (fun x =>
    if x.1.crc = crcOf 0 ((bs.drop x.1.off).take x.1.size) then none else some { code := 2, sec := x.2, detail := x.1.off })

/-- The digest of the key in the trailer. -/
def keyDigest (bs : List Byte) : Nat := sha384Nat ((bs.drop (bs.length - 256)).take 97)

/-- Is a digest that of an unrevoked plat-key slot (R308, 17 R461)? -/
def State.keyOk (s : State) (d : Nat) : Bool :=
  (s.otp.slots.zipIdx).any (fun x => x.1 == some d && !s.otp.revoke.testBit x.2)

/-- The signature and its key (R308). -/
def State.sigRej (s : State) (bs : List Byte) (sigOk : Bool) : Option Rej :=
  if !sigOk then some { code := 3 } else if !s.keyOk (keyDigest bs) then some { code := 4 } else none

/-- Device fit (R310): DEVICE, GRADES, FWMIN. -/
def State.fitRej (s : State) (bs : List Byte) : Option Rej :=
  if (numAt bs 16 8 ≠ 0 ∧ numAt bs 16 8 ≠ s.fuse.serial) then some { code := 5, detail := 16 }
  else if !(numAt bs 8 1).testBit (s.gradeIdx) then some { code := 5, detail := 8 }
  else if s.mc.fwVer < numAt bs 24 4 then some { code := 6, detail := 24 }
  else none

/-- The plat hash (R309) as twelve words. -/
def platHash (bs : List Byte) : List Word :=
  let es := secTable bs
  let d := sha384 ((es.zipIdx).flatMap (fun x =>
    if x.1.typ = 7 then [] else (bs.drop (256 + 16 * x.2)).take 16 ++ (bs.drop x.1.off).take x.1.size))
  (List.range 12).map (fun i => BitVec.ofNat 32 (leNat ((d.drop (4 * i)).take 4)))

/-! ## Section bodies whose encoding the spec gives -/

/-- Place and length of the body of the section of a type, instance 0. -/
def bodyOf (bs : List Byte) (typ : Nat) : Nat × Nat :=
  match (secTable bs).find? (fun e => e.typ == typ && e.inst == 0) with
  | some e => (e.off, e.size)
  | none => (0, 0)

/-- The station record at byte `a` (Tables 9-11 and 9-12). -/
def stationAt (bs : List Byte) (a : Nat) : StationRec :=
  let rel (i : Nat) : RelBuf :=
    let w := numAt bs (a + 32 + 8 * i) 4
    { region := bitsOf (BitVec.ofNat 32 w) 4 0, tgt := bitsOf (BitVec.ofNat 32 w) 5 5, nb := bitsOf (BitVec.ofNat 32 w) 7 6, len := w / 256
      base := numAt bs (a + 36 + 8 * i) 4 }
  { station := numAt bs a 2, parcel := numAt bs (a + 2) 1 % 16, die := numAt bs (a + 2) 1 / 16 % 4
    x0 := numAt bs (a + 4) 1, x1 := numAt bs (a + 5) 1, y0 := numAt bs (a + 6) 1, y1 := numAt bs (a + 7) 1
    prog := numAt bs (a + 8) 4, entry := BitVec.ofNat 32 (numAt bs (a + 12) 4), thr := BitVec.ofNat 32 (numAt bs (a + 16) 4)
    tol := numAt bs (a + 20) 1, floor := numAt bs (a + 21) 1, nrel := numAt bs (a + 22) 1, layer := numAt bs (a + 24) 2
    rel := (List.range 4).map rel }

/-- The transfer record at byte `a` (Table 11-6). -/
def transferAt (bs : List Byte) (a : Nat) : TransferRec :=
  let w := BitVec.ofNat 32 (numAt bs a 4)
  { kind := bitsOf w 1 0, oldIdx := bitsOf w 7 2, newIdx := bitsOf w 13 8
    oldBlk := numAt bs (a + 4) 4 % 2 ^ 13, newBlk := numAt bs (a + 8) 4 % 2 ^ 13 }

/-- The records of `n` bytes that fill the body of a section. -/
def recordsOf {α : Type} (f : List Byte → Nat → α) (bs : List Byte) (typ n : Nat) : List α :=
  let b := bodyOf bs typ
  (List.range (b.2 / n)).map (fun i => f bs (b.1 + n * i))

/-- A plat with the station and transfer records of its image. -/
def Plat.decode (p : Plat) (bs : List Byte) : Plat :=
  { p with stations := recordsOf stationAt bs 4 64, transfer := recordsOf transferAt bs 8 16 }

/-! ## The sections as data -/

/-- The value that a list gives a key. -/
def lookupD {α : Type} (d : α) (l : List (Nat × α)) (k : Nat) : α := ((l.find? (fun x => x.1 == k)).map (fun x => x.2)).getD d

/-- The REGION section of a region. -/
def Plat.regionSec (p : Plat) (n : Nat) : RegionSec := lookupD {} p.regions n
/-- The BLOCKS section's part for block index `b` of region `n`. -/
def Plat.blockSec (p : Plat) (n b : Nat) : BlockSec :=
  ((lookupD [] p.blocks n).find? (fun x => x.b == b)).getD { b := b, regs := [] }
/-- The word that a section gives a register; else its reset value. -/
def secWord (u : RegUnit) (ws : List (Nat × Word)) (o : Nat) : Word := lookupD (resetWord u o) ws o
/-- A field in a section. -/
def secField (ws : List (Nat × Word)) (f : Field) (i j : Nat := 0) : Nat := f.of (secWord f.unit ws (f.at i j))

/-- A station's blocks contain block `k`. -/
def StationRec.has (st : StationRec) (k : Nat) : Bool :=
  let x := k % 24
  let y := k % 1152 / 24
  k / 1152 == st.die && decide (st.x0 ≤ x ∧ x ≤ st.x1 ∧ st.y0 ≤ y ∧ y ≤ st.y1)
/-- The station of a block. -/
def Plat.stationOf (p : Plat) (k : Nat) : Option StationRec := p.stations.find? (fun st => st.has k)
/-- The blocks of a station. -/
def StationRec.blocks (st : StationRec) : List Nat := (List.range 1152).map (fun i => 1152 * st.die + i) |>.filter st.has

/-- Is block `k` in the parcel that PCL_DEF word `w` declares (09 R276)? -/
def pclHas (w : Word) (k : Nat) : Bool :=
  let x := k % 24
  let y := k % 1152 / 24
  PCL_DEF_EN.on w &&
  (if PCL_DEF_KIND.on w then (PCL_DEF_DIES.of w).testBit (k / 1152)
   else k / 1152 == PCL_DEF_DIE.of w && decide (PCL_DEF_X0.of w ≤ x ∧ x ≤ PCL_DEF_X1.of w ∧ PCL_DEF_Y0.of w ≤ y ∧ y ≤ PCL_DEF_Y1.of w))
/-- The parcel of block `k` (R276). -/
def Plat.parcelOf (p : Plat) (k : Nat) : Nat :=
  ((p.pclDef.find? (fun x => x.1 != 0 && pclHas x.2 k)).map (fun x => x.1)).getD 0

/-- All 4,608 logical blocks. -/
def allBlocks : List Nat := List.range 4608

/-- SKIP of region row `r` in a section. -/
def RegionSec.skip (g : RegionSec) (r : Nat) : Nat :=
  bitsOf (secWord .region g.regs (if r < 8 then 0x104 else 0x108)) (4 * (r % 8) + 3) (4 * (r % 8))

/-- Is block index `b` absent under a REGION section (01 R27, R28)? -/
def RegionSec.absent (g : RegionSec) (b : Nat) : Bool := g.skip (b / 12) == 0xD || g.fence.getD (domainOf b) false

/-! ## Invariants over the data (Table 11-4) -/

/-- Parcels (09 R277): shared blocks, empty rectangles, RT_CTL. Code 0x11. -/
def Plat.parcelRej (p : Plat) : Option Rej :=
  let es := p.pclDef.filter (fun x => PCL_DEF_EN.on x.2)
  let shape := es.any (fun x => if PCL_DEF_KIND.on x.2 then PCL_DEF_DIES.of x.2 == 0
    else decide (PCL_DEF_X1.of x.2 < PCL_DEF_X0.of x.2 ∨ PCL_DEF_Y1.of x.2 < PCL_DEF_Y0.of x.2))
  if shape || es.any (fun x => x.1 == 0) then some { code := 0x11, part := some (1, 0) }
  else
    allBlocks.findSome? (fun k =>
      if 1 < (es.filter (fun x => pclHas x.2 k)).length then some { code := 0x11, detail := k, part := some (1, 0) }
      else
        let par := RT_CTL_PARCEL.of (secWord .block (p.blockSec (regionOf k) (indexOf k)).regs 0x180)
        if par ≠ p.parcelOf k ∧ !(p.regionSec (regionOf k)).absent (indexOf k) then some { code := 0x11, detail := k, part := some (3, regionOf k) }
        else none)

/-- Stations (09 R272, R273): codes 0x11, 0x13 and 0x19 for what they break. -/
def Plat.stationRej (p : Plat) : Option Rej :=
  (p.stations.zipIdx).findSome? (fun x =>
    let st := x.1
    let r (c : Nat) : Rej := { code := c, record := x.2, part := some (4, 0) }
    firstRej [
      (decide (4 ≤ st.die ∨ 24 ≤ st.x1 ∨ 48 ≤ st.y1 ∨ st.x1 < st.x0 ∨ st.y1 < st.y0) ||
        !st.blocks.all (fun k => p.parcelOf k == st.parcel), r 0x19),
      ((p.stations.take x.2).any (fun y => y.station == st.station), r 0x19),
      (thrBad st.thr.toNat, r 0x19), (decide (st.tol < 4 ∨ 24 < st.tol), r 0x19), (decide (4 < st.nrel), r 0x19),
      ((st.rel.take st.nrel).any (fun e => e.nb == 0), r 0x19),
      ((p.stations.take x.2).any (fun y => st.blocks.any y.has), r 0x11)])

/-- Variant lists and lock groups (R313, 08 R242, R243): code 0x15. -/
def State.variantRej (s : State) (p : Plat) : Option Rej :=
  (List.range 24).findSome? (fun n =>
    let vs := (p.regionSec n).variants.map (fun v => v.step)
    let bad := (s.region n).lost == false &&
      (decide (vs.length < 1 ∨ 4 < vs.length) || vs.eraseDups.length != vs.length || vs.any (fun a => decide (8 ≤ a)) ||
        vs.any (fun a => decide (s.fuse.boostm < stepMult (s.gradeIdx) a)))
    let lock (m : Nat) : Word := lookupD 0 p.lock m
    let group := (List.range 24).any (fun m => RGN_LOCK_LOCKED.on (lock n) && RGN_LOCK_LOCKED.on (lock m) &&
      RGN_LOCK_LEADER.of (lock n) == RGN_LOCK_LEADER.of (lock m) && (p.regionSec m).variants.map (fun v => v.step) != vs)
    if bad || group then some { code := 0x15, detail := n, part := some (2, n) } else none)

/-- Is physical block `pb` of region `n` named defective by the monument (17 Table 17-6)? -/
def State.defective (s : State) (pb : Nat) : Bool :=
  s.effective.any (fun d => d.kind == 1 && d.unit == pb)

/-- The chip-wide physical number of the block in physical column `pc` of region row `r` (01 R23). -/
def physNum (n r pc : Nat) : Nat := 1248 * (n / 6) + 26 * (16 * (n % 6 / 2) + r) + 13 * (n % 2) + pc

/-- Does the array map of the plat leave in use a row or column that the monument lists in region `n` (03 R91)? Answers the physical
block. -/
def State.arrayRej (s : State) (p : Plat) (n : Nat) : Option Nat :=
  let g := p.regionSec n
  (List.range 192).findSome? (fun b =>
    let c := b % 12
    let pb := physNum n (b / 12) (if c < g.skip (b / 12) then c else c + 1)
    let w := secWord .block (p.blockSec n b).regs 0x200
    let bad := s.effective.any (fun d => (d.kind == 2 || d.kind == 3) && d.unit % 2 ^ 16 == pb &&
      (if d.kind = 2 then BLK_ARR_MAP_XROW.of w else BLK_ARR_MAP_XCOL.of w) != d.unit / 2 ^ 16)
    if bad && !g.absent b then some pb else none)

/-- Does the section name the region's stack: an enabled window or a stream descriptor (17 R454)? -/
def RegionSec.usesStack (g : RegionSec) : Bool :=
  g.regs.any (fun x =>
    (decide (0x10200 ≤ x.1 ∧ x.1 < 0x10280) && x.1 % 8 == 4 && MEM_WIN_B_EN.on x.2) ||
    (decide (0x20000 ≤ x.1 ∧ x.1 < 0x30000) && x.1 % 32 == 0 && bitsOf x.2 2 0 != 0))

/-- Maps, lanes, lost and dark units (01 R27, R28; 08 R247, R249; 15 R419; 17 R454; 18 R491): code 0x16. -/
def State.defectRej (s : State) (p : Plat) : Option Rej :=
  let region := (List.range 24).findSome? (fun n =>
    let g := p.regionSec n
    let named := !(lookupD [] p.blocks n).isEmpty || g.regs.any (fun x => decide (0x1000 ≤ x.1))
    let row := (List.range 16).findSome? (fun r =>
      if g.skip r = 0xD then none
      else ((List.range 13).find? (fun c => c != g.skip r && s.defective (physNum n r c))).map
        (fun c => ({ code := 0x16, detail := physNum n r c, part := some (2, n) } : Rej)))
    if (s.region n).lost then
      orRej row (if named || p.stations.any (fun st => (List.range 192).any (fun b => st.has (chipBlk n b))) then
        some ({ code := 0x16, detail := n, part := some (2, n) } : Rej) else none)
    else
      let dark := (List.range 4).findSome? (fun k =>
        if (s.region n).rd PWR_DOM_STAT_STATE k = 3 ∧ !(g.fence.getD k false) then some ({ code := 0x16, detail := n, part := some (2, n) } : Rej) else none)
      let used := (List.range 192).findSome? (fun b =>
        if g.absent b && (p.stations.any (fun st => st.has (chipBlk n b)) ||
            (List.range 64).any (fun e => LEP_A0_EN.on (secWord .block (p.blockSec n b).regs (0x600 + 8 * e))) ||
            (p.blockSec n b).stakes.any (fun x => STK_LCFG_EN.on x.2)) then
          some ({ code := 0x16, detail := chipBlk n b, part := some (3, n) } : Rej) else none)
      let array := (s.arrayRej p n).map (fun pb => ({ code := 0x16, detail := pb, part := some (3, n) } : Rej))
      let other := if g.usesStack && !(s.region n).bit HBM_STAT_TRAINED then some ({ code := 0x16, detail := n, part := some (2, n) } : Rej)
        else none
      orRej row (orRej dark (orRej used (orRej array other))))
  let oct (o : Nat) : Word := lookupD (resetWord .hub (0x3000 + 4 * o)) p.laneOct o
  let ends (o : Nat) : List (Nat × Nat) :=
    match LANE_OCT_KIND.of (oct o) with
    | 1 => [(6 * LANE_OCT_A_DIE.of (oct o) + LANE_OCT_A_FLD.of (oct o), LANE_OCT_A_PORT.of (oct o)),
            (6 * LANE_OCT_B_DIE.of (oct o) + LANE_OCT_B_FLD.of (oct o), LANE_OCT_B_PORT.of (oct o))]
    | 2 => [(6 * LANE_OCT_A_DIE.of (oct o) + LANE_OCT_A_FLD.of (oct o), LANE_OCT_A_PORT.of (oct o)),
            (100 + LANE_OCT_SL.of (oct o), 0)]
    | _ => []
  let lane := (List.range 72).findSome? (fun o =>
    let k := LANE_OCT_KIND.of (oct o)
    if k ≠ 0 ∧ ((List.range o).any (fun q => (ends q).any (fun e => (ends o).contains e)) || s.bit LANE_STAT_DEF o ||
        s.bit LANE_STAT_LOS o || (k == 1 && LANE_OCT_A_DIE.of (oct o) == LANE_OCT_B_DIE.of (oct o))) then
      some ({ code := 0x16, record := o, part := some (1, 0) } : Rej) else none)
  orRej region lane

/-- A 32-bit pattern as a number. -/
def sword (w : Word) : Int := w.toInt

/-- The LINK section (12 R363, R364): code 0x13. Times are in sixteenths of a reference period. -/
def Plat.linkRej (p : Plat) : Option Rej :=
  (p.ports.zipIdx).findSome? (fun x =>
    let d := sword x.1.dDecl
    let len : Int := 16 * p.frmLen
    let legs := p.legs.filter (fun l => l.port == x.1.port)
    if legs.isEmpty then none
    else if len ≤ d ∨ d ≤ -len ∨ 1920 < x.1.lmax ∨ len < d + x.1.lmax + 3200 then some ({ code := 0x13, record := x.2, part := some (7, 0) } : Rej)
    else
      (legs.zipIdx).findSome? (fun y =>
        let tpb := SL_LAND1_TPB.of y.1.land1 + 1
        let a := d + y.1.sfirst
        let k := ((List.range 4).filter (fun (j : Nat) => decide ((j : Int) * len + a < 2 * len))).length
        let home := (List.range 24).find? (fun n => p.laneOct.any (fun o => LANE_OCT_KIND.of o.2 == 2 &&
          LANE_OCT_SL.of o.2 == x.1.port && 6 * LANE_OCT_A_DIE.of o.2 + LANE_OCT_A_FLD.of o.2 == n))
        match home with
        | none => some ({ code := 0x13, record := y.2, part := some (7, 0) } : Rej)
        | some n =>
          let w (i : Nat) : Word := secWord .region (p.regionSec n).regs (0x1000 + 16 * i)
          let bufs (i : Nat) : Nat := bitsOf (w i) 21 18 + 1
          if bufs (SL_LAND0_WSTRM.of y.1.land0) < k * (y.1.ptpf / tpb) ∨ bufs (SL_LAND0_RSTRM.of y.1.land0) < k * (y.1.ptpf / tpb) then
            some { code := 0x13, record := y.2, part := some (7, 0) }
          else none))

/-! ## Codonov mode (21 R541 to R547) -/

/-- The logical block of core `(u, w)` of virtual die `v` (R541). -/
def cdvBlock (v u w : Nat) : Nat := 1152 * (v / 8) + 24 * (12 * (v % 8 / 2) + w) + 12 * (v % 2) + u

/-- The limits of Codonov mode: code 0x1B with the forerunner die. -/
def State.cdvRej (s : State) (g1 : Gen1) : Option Rej :=
  let v (g : Nat) : Nat := s.rd CDV_MAP_VDIE g
  let r (d : Gen1Die) : Rej := { code := 0x1B, sec := d.sec, record := d.record, detail := d.g }
  orRej
    ((g1.dies.zipIdx).findSome? (fun x =>
      let d := x.1
      firstRej [(decide (32 ≤ d.g), r d), ((g1.dies.take x.2).any (fun y => y.g != d.g && v y.g == v d.g), r d),
        (d.cores.any (fun c => s.absent (cdvBlock (v d.g) c.1 c.2)), r d), (decide (18 * 2 ^ 30 < d.mem), r d)]))
    (orRej (if g1.frmLen < 2000 ∨ 400000 < g1.frmLen then some { code := 0x1B, detail := 0xFFFFFFFF } else none)
      ((g1.links.find? (fun l => decide (24 ≤ l.1))).map (fun l =>
        ({ code := 0x1B, sec := l.2.1, record := l.2.2, detail := 0xFFFFFFFF } : Rej))))

/-- Home region and first MiB of the memory window of virtual die `v` (R544, Table 21-1). -/
def cdvHome (v : Nat) : Nat × Nat :=
  let d := 6 * (v / 8)
  let vc := v % 2
  match v % 8 / 2 with
  | 0 => (d + vc, 0)
  | 1 => (d + 2 + vc, 0)
  | 2 => (d + 2 + vc, 18432)
  | _ => (d + 4 + vc, 0)

/-- The windows of a translated plat in region `n` (R544): one of 18 GiB for each virtual die in use whose home it is, entry 1 for the
upper half of a stack, entry 0 otherwise; HOST is what the generation-1 plat gives (DEDUCED, log 80). -/
def State.cdvWindows (s : State) (g1 : Gen1) (n : Nat) (x : RegionSec) : RegionSec :=
  let rest := x.regs.filter (fun y => !(decide (0x10200 ≤ y.1 ∧ y.1 < 0x10280)))
  let mine := g1.dies.filter (fun d => (cdvHome (s.rd CDV_MAP_VDIE d.g)).1 == n)
  { x with regs := rest ++ mine.flatMap (fun d =>
      let base := (cdvHome (s.rd CDV_MAP_VDIE d.g)).2
      let w := if base = 0 then 0 else 1
      [(0x10200 + 8 * w, BitVec.ofNat 32 (base + 2 ^ 16 * (base + 18431))),
       (0x10204 + 8 * w, BitVec.ofNat 32 (d.parcel % 16 + 16 + 32 * secField x.regs MEM_WIN_B_HOST w))]) }

/-- The parts of a translated plat that the translation fixes (R544, R545). -/
def State.cdvPlat (s : State) (g1 : Gen1) (p : Plat) : Plat :=
  let w := resetWord .block 0x204
  { p with
    frmLen := g1.frmLen, frmRes := if 32 < g1.resQ ∧ g1.resQ ≤ 200 then g1.resQ else 32, translated := true
    regions := (p.regions ++ ((List.range 24).filter (fun n => !p.regions.any (fun x => x.1 == n) &&
        g1.dies.any (fun d => (cdvHome (s.rd CDV_MAP_VDIE d.g)).1 == n))).map (fun n => (n, p.regionSec n))).map (fun x =>
      (x.1, { s.cdvWindows g1 x.1 x.2 with variants := (x.2.variants.take 1).map (fun v => { v with step := 1 }) }))
    stations := p.stations.map (fun st => { st with tol := BLK_CHK_TOL_TOL_EXP.of w, floor := BLK_CHK_TOL_FLOOR.of w })
    used := (g1.dies.map (fun d => s.rd CDV_MAP_VDIE d.g)).foldl (fun m v => m ||| 2 ^ v) 0 }

end Sys2Proof.Machine
end

