-- ==== Sys2Proof/Machine/PlatOps.lean ====
section
/-!
DEFINITION. Loading a plat and cutting over (11_plat.md R315 to R331): writing the state of the sections (09 R273, 12 R360),
the change between two plats (Table 11-5), transfer records (R325), the switch (R324), abandonment (R326).
-/
namespace Sys2Proof.Machine

/-- A change of PLAT_STAT or CUT_STAT since `old` raises PLATVEC (Table 13-13). -/
def State.platVec (old s : State) : State :=
  if old.hub.plat.word .plat 0x5000 = s.hub.plat.word .plat 0x5000 ∧ old.hub.plat.word .plat 0x5010 = s.hub.plat.word .plat 0x5010
  then s else s.pfVector HIF_VEC_PLATVEC

/-! ## Writing the sections (R306, R315) -/

/-- Write the RWS fields of one register; a field whose value is outside its range is left unchanged, as on a BAR0 write (01 R26,
03 R92, 05 R134, 08 R255). -/
def Regs.putRws (u : RegUnit) (r : Regs) (o : Nat) (w : Word) : Regs :=
  r.setWord u o ((rowsAt u o).foldl (fun a row => if row.acc = .rws then applyRow true row w a else a) (r.word u o))

/-- Write the RWS fields that a plat gives; those it does not give hold their reset values (R306). -/
def Regs.install (u : RegUnit) (r : Regs) (ws : List (Nat × Word)) : Regs :=
  ws.foldl (fun r x => Regs.putRws u r x.1 x.2) ((r.map (fun x => x.1)).foldl (fun r o => Regs.putRws u r o (resetWord u o)) r)

/-- Stake configurations of a unit. -/
def installStakes (m : SMap Stake) (ws : List (Nat × Word)) : SMap Stake :=
  let m := (m.map (fun x => x.1)).foldl (fun m k => SMap.upd stakeZero m k (fun s => { s with cfg := (stakeZero k).cfg })) m
  ws.foldl (fun m x => SMap.upd stakeZero m x.1 (fun s => { s with cfg := x.2 })) m

/-- Write a REGION section, the region's RGN_LOCK and its landing records. -/
def Region.install (sec : RegionSec) (extra : List (Nat × Word)) (g : Region) : Region :=
  let isStake (x : Nat × Word) : Bool := decide (0x8000 ≤ x.1 ∧ x.1 < 0x10000)
  let regs := Regs.install .region g.regs (sec.regs.filter (fun x => !isStake x) ++ extra)
  let g := { g with regs := regs, variants := sec.variants, edge := sec.edge, hints := sec.hints
                    stakes := installStakes g.stakes ((sec.regs.filter isStake).map (fun x => ((x.1 - 0x8000) / 8, x.2))) }
  (List.range 4).foldl (fun g k => g.wr PWR_DOM_CTL_FENCE (if sec.fence.getD k false then 1 else 0) k) g

/-- Write a block's part of a BLOCKS section. -/
def Block.install (sec : BlockSec) (b : Block) : Block :=
  { b with regs := Regs.install .block b.regs sec.regs, stakes := installStakes b.stakes sec.stakes
           router := { b.router with pat := sec.pat } }

/-- Write a station's registers (09 R273). -/
def Block.installStation (st : StationRec) (b : Block) : Block :=
  let b := ((b.wr BLK_STN_STATION st.station).wr BLK_STN_PARCEL st.parcel).wr BLK_STN_MEMBER 1
  ((b.wr BLK_MSE_THR_THR st.thr.toNat).wr BLK_CHK_TOL_TOL_EXP st.tol).wr BLK_CHK_TOL_FLOOR st.floor

/-- Copy a program into a block: instruction memory and local data (09 R273). -/
def Block.installProgram (pr : ProgSec) (b : Block) : Block :=
  { b with imem := Mem.wrN [] 0 (pr.imem.take 65536), ldata := Mem.wrN [] 0 (pr.ldata.take 8192) }

/-- Write a station's ENTRY to SC_PC and to tfentry (09 R273). -/
def Block.installEntry (entry : Word) (b : Block) : Block :=
  { b with core := { b.core with pc := entry &&& 0xFFFE, tfentry := entry } }

/-- May a block's program image be written: a load, or no tenant station in the outgoing plat (Table 11-5)? -/
def freshBlock (old : Option Plat) (k : Nat) : Bool :=
  match old with
  | none => true
  | some o => match o.stationOf k with
    | some st => st.parcel == 0
    | none => true

/-- Write what a plat says of block `k`. -/
def Plat.installBlock (p : Plat) (old : Option Plat) (k : Nat) (b : Block) : Block :=
  let b := b.install (p.blockSec (regionOf k) (indexOf k))
  match p.stationOf k with
  | none => b
  | some st =>
    let b := b.installStation st
    if !freshBlock old k then b
    else
      (match (p.programs.find? (fun (pr : ProgSec) => pr.idx == st.prog) : Option ProgSec) with
       | some pr => b.installProgram pr
       | none => b).installEntry st.entry

/-- The landing records that the LINK section gives region `n`: its ports are those whose octet ends there. -/
def Plat.landRegs (p : Plat) (n : Nat) : List (Nat × Word) :=
  p.legs.flatMap (fun l =>
    if p.laneOct.any (fun o => LANE_OCT_KIND.of o.2 == 2 && LANE_OCT_SL.of o.2 == l.port &&
        6 * LANE_OCT_A_DIE.of o.2 + LANE_OCT_A_FLD.of o.2 == n) then
      [(0x1600 + 8 * l.k, l.land0), (0x1604 + 8 * l.k, l.land1)]
    else [])

/-- Write the state of every section (R315 step 1); `old` is the outgoing plat of a cut-over. Lost regions are left. -/
def State.install (s : State) (p : Plat) (old : Option Plat) : State :=
  let s := (s.wr FRM_LEN_LEN p.frmLen).wr FRM_RES_RES_Q p.frmRes
  let s := (List.range 15).foldl (fun (s : State) i =>
    { s with hub := { s.hub with hub := Regs.putRws .hub s.hub.hub (0x4004 + 4 * i) (lookupD 0 p.pclDef (i + 1)) } }) s
  let s := (List.range 72).foldl (fun (s : State) o =>
    { s with hub := { s.hub with hub := Regs.putRws .hub s.hub.hub (0x3000 + 4 * o) (lookupD (laneZero o) p.laneOct o) } }) s
  let s := (List.range 24).foldl (fun (s : State) n =>
    if (s.region n).lost then s
    else s.setRegion n ((((s.region n).install (p.regionSec n) ((0x204, lookupD 0 p.lock n) :: p.landRegs n)).calShow n 0).calShow n 1)) s
  allBlocks.foldl (fun (s : State) k =>
    if (s.region (regionOf k)).lost then s else s.setBlock k (p.installBlock old k (s.block k))) s

/-- What the ends' calibration says of an octet that the word `w` of LANE_OCT joins die to die: the failing pairs and the least margin
(17 R453, 08 R250). A pair of steps passes when the launch and the capture margin of either direction are at least 80 ps. -/
def State.laneCal (s : State) (w : Word) : Option (Nat × Nat) :=
  let find (d f p : Nat) : Option EndCal := s.mc.ends.find? (fun x => x.region == 6 * d + f && x.port == p)
  match find (LANE_OCT_A_DIE.of w) (LANE_OCT_A_FLD.of w) (LANE_OCT_A_PORT.of w),
      find (LANE_OCT_B_DIE.of w) (LANE_OCT_B_FLD.of w) (LANE_OCT_B_PORT.of w) with
  | some u, some v =>
    let x := if u.region < v.region then (u, v) else (v, u)
    let pairs := (List.range 8).flatMap (fun a => (List.range 8).map (fun b =>
      (8 * a + b, min (min (x.1.launch.getD a 0) (x.2.capture.getD b 0)) (min (x.2.launch.getD b 0) (x.1.capture.getD a 0)))))
    some (pairs.foldl (fun m y => if y.2 < 80 then m + 2 ^ y.1 else m) 0, pairs.foldl (fun m y => min m y.2) 1275)
  | _, _ => none

/-- LANE_FAIL, CALOK and MARGIN of every octet from the ends' calibration. -/
def State.deriveLanes (s : State) : State :=
  (List.range 72).foldl (fun (s : State) o =>
    if s.lane LANE_OCT_KIND o ≠ 1 then s
    else
      match s.laneCal (s.plat.lanes.get laneZero o) with
      | some (fails, least) =>
        let s := (s.wr LANE_FAIL_LO_FAIL (fails % 2 ^ 32) o).wr LANE_FAIL_HI_FAIL (fails / 2 ^ 32) o
        (s.wr LANE_STAT_CALOK (if fails = 0 then 1 else 0) o).wr LANE_STAT_MARGIN (least / 5) o
      | none => s) s

/-- The lane assignment of LANE_OCT takes effect (08 R247): its lit die-to-die circuits lock, those that had lost lock among them
(08 R251). -/
def State.installLanes (s : State) : State :=
  ((List.range 72).foldl (fun (s : State) o =>
    let s : State := { s with plat := { s.plat with lanes := s.plat.lanes.put laneZero o (s.hub.hub.word .hub (0x3000 + 4 * o)) } }
    s.wr LANE_STAT_LOCK (if s.lane LANE_OCT_KIND o = 1 ∧ s.octDark o = false then 1 else 0) o) s).deriveLanes

/-- A fence follows its physical block through a new column map, and ends where the map excludes it (18 R483). -/
def Region.carryFences (n : Nat) (old g : Region) : Region :=
  let ps := ((List.range 192).filter old.isFenced).map (old.pblk n)
  if ps.isEmpty then g
  else
    (List.range 6).foldl (fun (g : Region) w =>
      g.wr RGN_FENCE_FENCED ((List.range 32).foldl (fun m i =>
        if ps.contains (g.pblk n (32 * w + i)) && !g.hidden (32 * w + i) then m + 2 ^ i else m) 0) w) g

/-- A column map takes effect in region `n`. -/
def Region.adoptSkip (n : Nat) (w0 w1 : Word) (g : Region) : Region :=
  Region.carryFences n g { g with skip0 := w0, skip1 := w1 }

/-- The bring-up map takes effect (17 R460, 01 R27). -/
def State.adoptBring (s : State) (m : BringMap) : State :=
  let s := m.skips.foldl (fun (s : State) x => s.setRegion x.1 ((s.region x.1).adoptSkip x.1 x.2.1 x.2.2)) s
  let s := m.arrays.foldl (fun (s : State) x => s.setBlock x.1 { s.block x.1 with xrow := x.2.1, xcol := x.2.2 }) s
  { s with mc := { s.mc with mapPend := none } }

/-- The maps that the plat wrote take effect: columns, domain fences, which hold their domains dark (15 R419), array maps (01 R27,
03 R91). What the memories, registers and counts of a logical block hold once a new map puts the number on another physical block
is not said: in the model they stay with the logical number (DESIGN CHOICE, log 58); a fence follows the silicon (log 28). -/
def State.adoptMaps (s : State) : State :=
  let s := (List.range 24).foldl (fun (s : State) n =>
    let g := s.region n
    let f := (List.range 4).map (fun k => g.bit PWR_DOM_CTL_FENCE k)
    let g := (List.range 4).foldl (fun (g : Region) k =>
      if f.getD k false && g.rd PWR_DOM_STAT_STATE k != 3 then
        ((g.wr PWR_DOM_STAT_STATE 3 k).wr PWR_DOM_STAT_PHOK 0 k).wr PWR_DOM_STAT_VID 0 k
      else g) g
    let g : Region := { g with domFence := f }
    s.setRegion n (g.adoptSkip n (g.regs.word .region 0x104) (g.regs.word .region 0x108))) s
  s.listedBlocks.foldl (fun (s : State) k =>
    let b := s.block k
    s.setBlock k { b with xrow := b.rd BLK_ARR_MAP_XROW, xcol := b.rd BLK_ARR_MAP_XCOL }) s

/-- FRM_LEN and FRM_RES come into force; a PHASE of LEN or more is reduced (02 R35, R41). -/
def State.adoptFrame (s : State) : State :=
  let len := s.rd FRM_LEN_LEN
  let s := { s with frame := { s.frame with len := len, resQ := s.rd FRM_RES_RES_Q } }
  if len ≤ s.rd FRM_PHASE_PHASE then (s.wr FRM_PHASE_PHASE (s.rd FRM_PHASE_PHASE % len)).set1 FRM_STAT_PHWRAP else s

/-- Write a hash register group. -/
def State.wrHash (s : State) (f : Field) (h : List Word) : State :=
  (List.range 12).foldl (fun s i => s.wr f (h.getD i 0).toNat i) s

/-! ## The change between two plats (Table 11-5) -/

/-- The parcels of block `k` in both plats. -/
def activeBlk (s : State) (o p : Plat) (k : Nat) : Bool := s.activeP (o.parcelOf k) || s.activeP (p.parcelOf k)

/-- Does a block keep its station (R319)? -/
def keeps (o p : Plat) (k : Nat) : Bool :=
  match o.stationOf k, p.stationOf k with
  | some a, some b => a.station == b.station
  | _, _ => false

/-- Register words of a section in a range. -/
def secRange (ws : List (Nat × Word)) (u : RegUnit) (lo hi : Nat) (o : Nat) : Word := if lo ≤ o ∧ o < hi then secWord u ws o else 0

/-- Do two register lists differ within `[lo, hi)`? -/
def secDiff (u : RegUnit) (a b : List (Nat × Word)) (lo hi : Nat) : Bool :=
  (a ++ b).any (fun x => decide (lo ≤ x.1 ∧ x.1 < hi) && secWord u a x.1 != secWord u b x.1)

/-- The program of a block. -/
def Plat.programOf (p : Plat) (k : Nat) : Option (List Byte × List Byte) :=
  match p.stationOf k with
  | none => none
  | some st => (p.programs.find? (fun pr => pr.idx == st.prog)).map (fun pr => (pr.imem, pr.ldata))

/-- The transfer records of a cut-over from `o` to `p`; a revert applies those of the plat that it leaves in reverse (R329). -/
def cutRecords (o p : Plat) (rev : Bool) : List TransferRec :=
  if rev then o.transfer.map (fun t => { t with oldIdx := t.newIdx, newIdx := t.oldIdx, oldBlk := t.newBlk, newBlk := t.oldBlk }) else p.transfer

/-- Is a record given for endpoint or stake `idx` (kind `kind`) of new block `k`? -/
def transferred (recs : List TransferRec) (kind k idx : Nat) : Bool :=
  recs.any (fun t => t.kind == kind && t.newBlk == k && t.newIdx == idx)

/-- Would the program image of block `k` change (R320)? -/
def imageChanges (o p : Plat) (k : Nat) : Bool := (p.programOf k).isSome && o.programOf k != p.programOf k

/-- May block `k` change from `o` to `p` with the records `recs`? -/
def State.blockChangeOk (s : State) (recs : List TransferRec) (o p : Plat) (k : Nat) : Bool :=
  let a := (o.blockSec (regionOf k) (indexOf k))
  let b := (p.blockSec (regionOf k) (indexOf k))
  let busy := activeBlk s o p k
  let keep := keeps o p k && s.activeP (o.parcelOf k)
  let legSame (e : Nat) : Bool :=
    let m : Word := 0x3FFFE7E  -- DIR, RING, LEG, DFMT, WID
    let x := secWord .block a.regs (0x600 + 8 * e)
    let y := secWord .block b.regs (0x600 + 8 * e)
    (x &&& m) == (y &&& m)
  !(busy && secDiff .block a.regs b.regs 0x180 0x184) &&
  !(keep && (secDiff .block a.regs b.regs 0xC00 0xE00 || secDiff .block a.regs b.regs 0x130 0x138 || a.stakes != b.stakes)) &&
  !(keeps o p k && !(List.range 64).all legSame) && !(imageChanges o p k && !freshBlock (some o) k) &&
  (keep || !s.activeP (p.parcelOf k) ||
    ((List.range 64).all (fun e => !LEP_A0_EN.on (secWord .block b.regs (0x600 + 8 * e)) || transferred recs 0 k e ||
        secWord .block b.regs (0x600 + 8 * e) == secWord .block a.regs (0x600 + 8 * e) || newLeg e b) &&
     b.stakes.all (fun x => !STK_LCFG_EN.on x.2 || transferred recs 1 k x.1)))
where
  /-- A leg that exists only in the new plat needs no predecessor (R325). -/
  newLeg (e : Nat) (b : BlockSec) : Bool :=
    let leg := LEP_A0_LEG.of (secWord .block b.regs (0x600 + 8 * e))
    let dir := LEP_A0_DIR.of (secWord .block b.regs (0x600 + 8 * e))
    !o.blocks.any (fun x => x.2.any (fun c => (List.range 64).any (fun i =>
      let w := secWord .block c.regs (0x600 + 8 * i)
      LEP_A0_EN.on w && LEP_A0_LEG.of w == leg && LEP_A0_DIR.of w == dir)))

/-- May region `n` change from `o` to `p`? -/
def State.regionChangeOk (s : State) (o p : Plat) (n : Nat) : Bool :=
  let a := o.regionSec n
  let b := p.regionSec n
  let rowBusy (r : Nat) : Bool := (List.range 12).any (fun x =>
    let k := chipBlk n (12 * r + x)
    (o.stations ++ p.stations).any (fun st => s.activeP st.parcel && st.has k))
  let domBusy (k : Nat) : Bool := (List.range 48).any (fun x => activeBlk s o p (chipBlk n (48 * k + x)))
  (List.range 16).all (fun r => a.skip r == b.skip r || !rowBusy r) &&
  (List.range 4).all (fun k =>
    match a.fence.getD k false, b.fence.getD k false with
    | false, true => !domBusy k
    | true, false => (s.region n).rd PWR_DOM_STAT_STATE k != 3
    | _, _ => true) &&
  (List.range 16).all (fun w =>
    let en (x : RegionSec) := secField x.regs MEM_WIN_B_EN w != 0 && s.activeP (secField x.regs MEM_WIN_B_PARCEL w)
    !(en a || en b) || (secWord .region a.regs (0x10200 + 8 * w) == secWord .region b.regs (0x10200 + 8 * w) &&
      secWord .region a.regs (0x10204 + 8 * w) == secWord .region b.regs (0x10204 + 8 * w))) &&
  (a.regs ++ b.regs).all (fun x => !decide (0x8000 ≤ x.1 ∧ x.1 < 0x10000) ||
    (let u := lookupD (stakeZero 0).cfg a.regs x.1
     let v := lookupD (stakeZero 0).cfg b.regs x.1
     !(STK_CFG_EN.on u && s.activeP (STK_CFG_PARCEL.of u) || STK_CFG_EN.on v && s.activeP (STK_CFG_PARCEL.of v)) ||
       (u &&& 0x3F) == (v &&& 0x3F)))

/-- Ports whose legs or expected hash change (R330). -/
def linkChanged (o p : Plat) : List Nat :=
  (List.range 24).filter (fun q => o.ports.filter (fun x => x.port == q) != p.ports.filter (fun x => x.port == q) ||
    o.legs.filter (fun x => x.port == q) != p.legs.filter (fun x => x.port == q) ||
    o.sends.filter (fun x => x.1 == q) != p.sends.filter (fun x => x.1 == q))

/-- Compatibility of a cut-over plat (R319): code 0x20. -/
def State.cutRej (s : State) (o p : Plat) (partners : Nat) (rev : Bool) : Option Rej :=
  let hub := (List.range 72).any (fun i => lookupD (resetWord .hub (0x3000 + 4 * i)) o.laneOct i !=
      lookupD (resetWord .hub (0x3000 + 4 * i)) p.laneOct i) ||
    (List.range 16).any (fun q => s.activeP q && lookupD (0 : Word) o.pclDef q != lookupD 0 p.pclDef q) ||
    (linkChanged o p).any (fun q => !partners.testBit q)
  if hub then some { code := 0x20 }
  else
    match (List.range 24).find? (fun n => !s.regionChangeOk o p n) with
    | some n => some { code := 0x20, detail := n }
    | none => (allBlocks.find? (fun k => !s.blockChangeOk (cutRecords o p rev) o p k)).map (fun k => ({ code := 0x20, detail := k } : Rej))

/-- The affected regions (R320) as a mask. -/
def affectedRegions (o p : Plat) : Nat :=
  (List.range 24).foldl (fun m n =>
    let stn (x : Plat) := (List.range 192).map (fun b => (x.stationOf (chipBlk n b)).map (fun st => (st.station, st.thr, st.tol, st.floor)))
    if o.frmLen != p.frmLen || o.frmRes != p.frmRes || o.regionSec n != p.regionSec n ||
        (List.range 192).any (fun b => o.blockSec n b != p.blockSec n b) || lookupD (0 : Word) o.lock n != lookupD 0 p.lock n ||
        o.landRegs n != p.landRegs n || stn o != stn p then m + 2 ^ n else m) 0

/-- Is the hub affected? -/
def hubAffected (o p : Plat) : Bool :=
  o.frmLen != p.frmLen || o.frmRes != p.frmRes || o.pclDef != p.pclDef || o.ports != p.ports || o.sends != p.sends ||
    o.stations != p.stations

/-- Blocks of each region that are fenced or about to be (R322, 15 R425). -/
def State.fenceCounts (s : State) : List Nat :=
  (List.range 24).map (fun n => ((List.range 192).filter (fun b =>
    (s.region n).isFenced b || (s.region n).fencing.any (fun x => x.1 == b))).length)

/-! ## Abandonment and the switch -/

/-- Clear every RGN_SHADOW but SBERR. -/
def State.clearShadow (s : State) : State :=
  (List.range 24).foldl (fun s n =>
    s.setRegion n ((((s.region n).wr RGN_SHADOW_ARMED 0).wr RGN_SHADOW_WITHDRAWN 0).wr RGN_SHADOW_STEPOK 0)) s

/-- The MC abandons the cut-over (R326): the outgoing plat runs on; under reason 0x3 the shadow banks stay armed (R331). -/
def State.cutAbandon (s : State) (reason : Nat) : State :=
  match s.plat.load with
  | none => s
  | some l =>
    if !l.cut then s
    else
      let s := ((s.set1 CUT_STAT_ABANDONED).wr CUT_STAT_REASON reason).wr CUT_STAT_REVOK 0
      let s := s.raise { cls := 2, subtype := 0x70, level := 3, specific := reason }
      let s := s.finish l.item 8 reason
      if reason = 3 then
        { s.wr CUT_STAT_STATE 4 with plat := { s.plat with load := none, cutF := none, switch := false } }
      else
        let s := ((s.wr CUT_STAT_STATE 0).wr CUT_NEED_RGN 0).wr CUT_NEED_HUB 0
        let s := (((s.wr CUT_ACK_RGN 0).wr CUT_ACK_HUB 0).wr CUT_ACK_ARMED 0).wr CUT_ACK_PARTNERS 0
        let s := (s.wrHash PLAT_HASH_S_HASH []).clearShadow
        { s with plat := { s.plat with load := none, cutF := none, switch := false, shadow := none } }

/-- The count of the sender of leg `leg` of parcel `p`: deliveries that it has begun. -/
def State.senderCount (s : State) (leg p : Nat) : Option Nat :=
  let byBlock := s.listedBlocks.findSome? (fun k =>
    let b := s.block k
    if b.rd RT_CTL_PARCEL ≠ p then none
    else ((List.range 64).find? (fun e => b.legOut e && b.rd LEP_A0_LEG e == leg)).map (fun e => (b.seqPart e (b.leg e).n64).1))
  match byBlock with
  | some c => some c
  | none => (List.range 24).findSome? (fun n =>
      let g := s.region n
      ((List.range 64).find? (fun i => g.ss i 0 != 0 && bitsOf (g.ss i 0) 22 22 == 0 && g.ssParcel i == p &&
        g.rd STRM_HDR_LEG i == leg)).map (fun i => (g.strm i).tiles))

/-- The endpoint state that the MC supplies for a fenced block (18 R487): the counts that the stand-in has reached, and at an inbound
endpoint the planned count of the deliveries before frame `f`. -/
def Block.standInLeg (b : Block) (k f : Nat) : LegEnd :=
  let l := b.leg k
  if b.legIn k then { l with n64 := max l.n64 (b.rd LEP_A1_TPF k * (f - l.start)) } else l

/-- The planned count of a fenced block's local stake when frame `f` begins, with the void bits of the last two frames (18 R487). -/
def Stake.planned (u : Stake) (f : Nat) : Stake :=
  let u := (u.setVoid (f + 3)).setVoid (f + 2)
  if u.roll = 0 then u else { u with cnt := u.lag * u.roll }

/-- Copy one transfer record's state (R325) from the state `old` before the switch; of a fenced block the MC supplies it (18 R487). -/
def State.transferOne (old : State) (s : State) (t : TransferRec) : State :=
  let x := (t.oldBlk, t.oldIdx, t.newBlk, t.newIdx)
  let a := old.block x.1
  let b := s.block x.2.2.1
  let fenced := (old.region (regionOf x.1)).isFenced (indexOf x.1)
  if t.kind = 0 then
    let l := if fenced then a.standInLeg x.2.1 s.frame.num else a.leg x.2.1
    let b := b.setLeg x.2.2.2 { n64 := l.n64, start := l.start, dseq := l.dseq, totals := l.totals, fullTo := l.n64 }
    let s := s.setBlock x.2.2.1 b
    if b.legIn x.2.2.2 && x.1 != x.2.2.1 then
      match old.senderCount (b.rd LEP_A0_LEG x.2.2.2) (b.rd RT_CTL_PARCEL) with
      | some c => s.onBlock x.2.2.1 0 (fun e b => Block.deliverAll e x.2.2.2 (c - l.n64)
          (b.setLeg x.2.2.2 ((b.leg x.2.2.2).forceN (c - l.n64))))
      | none => s
    else s
  else
    let u := if fenced then (a.stake x.2.1).planned s.frame.num else a.stake x.2.1
    let v := b.stake x.2.2.2
    let v := { v with cnt := u.cnt, void := u.void, streak := u.streak, lagged := u.lagged, poison := u.poison }
    s.setBlock x.2.2.1 (b.setStake x.2.2.2 v)

/-- Legs and store streams that exist only in the new plat start their counts at zero (R325). -/
def State.newLegs (s : State) (recs : List TransferRec) (o p : Plat) (f : Nat) : State :=
  let s := allBlocks.foldl (fun (s : State) k =>
    let a := (o.blockSec (regionOf k) (indexOf k)).regs
    let c := (p.blockSec (regionOf k) (indexOf k)).regs
    (List.range 64).foldl (fun (s : State) e =>
      let x := secWord .block a (0x600 + 8 * e)
      let y := secWord .block c (0x600 + 8 * e)
      let moved := transferred recs 0 k e
      if LEP_A0_EN.on y && !moved && (!LEP_A0_EN.on x || LEP_A0_LEG.of x != LEP_A0_LEG.of y || LEP_A0_DIR.of x != LEP_A0_DIR.of y) then
        s.setBlock k ((s.block k).setLeg e { start := f })
      else s) s) s
  (List.range 24).foldl (fun (s : State) n =>
    let a := (o.regionSec n).regs
    let c := (p.regionSec n).regs
    let g := (List.range 64).foldl (fun (g : Region) i =>
      let key (r : List (Nat × Word)) := ((secWord .region r (0x1000 + 16 * i)) &&& 0x7C00000, secField r STRM_HDR_LEG i)
      if key a = key c then g else g.setStrm i {}) (s.region n)
    s.setRegion n g) s

/-- The switch of step 6 (R324): every affected unit exchanges its banks, the transfer records are copied, the maps and the
frame registers of the new plat take effect. -/
def State.switchPlat (s : State) : State :=
  match s.plat.load, s.plat.shadow, s.plat.active with
  | some l, some p, some o =>
    let s0 := s
    let recs := cutRecords o p l.revert
    let s := (s.install p (some o)).newLegs recs o p s.frame.num
    let s := recs.foldl (State.transferOne s0) s
    let s := s.adoptMaps.adoptFrame
    let s := ((s.wr CUT_STAT_STATE 0).set1 CUT_STAT_SWITCHED).set1 CUT_STAT_REVOK
    let s := s.wr PLAT_CNT_SWITCHES (min (s.rd PLAT_CNT_SWITCHES + 1) 0xFFFF)
    let s := ((s.wr CUT_NEED_RGN 0).wr CUT_NEED_HUB 0).wr CUT_ACK_RGN 0
    let s := ((s.wr CUT_ACK_HUB 0).wr CUT_ACK_ARMED 0).wr CUT_ACK_PARTNERS 0
    let s := ((s.wrHash PLAT_HASH_A_HASH p.hash).wrHash PLAT_HASH_S_HASH o.hash).clearShadow
    let s := (s.wr PLAT_STAT_TRANSLATED (if p.translated then 1 else 0)).wr CDV_STAT_USED p.used
    let s := s.finish l.item 0 (l.f % 2 ^ 32)
    { s with plat := { s.plat with active := some p, shadow := some o, load := none, cutF := none, switch := false } }
  | _, _, _ => s

/-- The tick after the seal (R315 step 3): the plat becomes active, its maps, frame registers and lanes take effect, its
regions start at their home steps (08 R396), and pins of segments end (08 R244). -/
def State.activatePlat (s : State) : State :=
  match s.plat.load with
  | none => s
  | some l =>
    match l.plat with
    | none => s
    | some p =>
      if l.cut || !l.sealed then s
      else
        let s := s.installLanes.adoptMaps.adoptFrame
        let s := (List.range 24).foldl (fun (s : State) n =>
          let g := s.region n
          let g := (g.wr XSEG_STAT_PINNED 0 0).wr XSEG_STAT_PINNED 0 1
          let g := if g.lost then g else (g.wr RGN_CLK_STAT_CUR g.home).wr RGN_CLK_STAT_NEXT g.home
          s.setRegion n g) s
        let s := (List.range 24).foldl (fun s n => s.onLiveRegion n 0 (fun e g => g.setVids e)) s
        let s := s.showPins
        let s := ((s.wr PLAT_STAT_STATE 4).wr PLAT_STAT_TRANSLATED (if p.translated then 1 else 0)).wr CDV_STAT_USED p.used
        { s with plat := { s.plat with active := some p, load := none } }

/-- The device unseals (R318). -/
def State.unloadPlat (s : State) : State :=
  if s.plat.unload.isEmpty then s
  else
    let s := ((s.wr PLAT_STAT_STATE 0).wr PLAT_STAT_SEALED 0).wr PLAT_STAT_TRANSLATED 0
    let s := (s.wrHash PLAT_HASH_A_HASH []).wr CDV_STAT_USED 0
    let s := s.finishAll s.plat.unload 0 0
    { s with plat := { s.plat with active := none, unload := [] } }

/-- A plat is rejected (R310): REJECT, CODE, the place; the load or cut-over ends refused. -/
def State.rejectPlat (s : State) (l : LoadSt) (r : Rej) : State :=
  let s := (s.set1 PLAT_STAT_REJECT).wr PLAT_STAT_CODE r.code
  let s := ((s.wr PLAT_ERR_SECTION r.sec).wr PLAT_ERR_RECORD r.record).wr PLAT_ERR_X_DETAIL r.detail
  let s := if r.code = 0x1B then s.wr CDV_CNT_XFAIL (min (s.rd CDV_CNT_XFAIL + 1) 0xFFFF) else s
  let s := if l.cut then s.wr CUT_STAT_STATE (if s.plat.shadow.isSome && !s.bit CUT_STAT_REVOK then 4 else 0)
    else s.wr PLAT_STAT_STATE (if s.plat.active.isSome then 4 else 0)
  { s.finish l.item 7 r.code with plat := { s.plat with load := none } }

end Sys2Proof.Machine
end

