-- ==== Sys2Proof/Machine/Deadline.lean ====
section
/-!
DEFINITION. The deadline of a frame (02_the_frame.md R45, R52, R53): the judgement of unfinished work in each region, the
cancellation of an overrun context's work (03 R87, 04 R119, 06 R173, 07 R212), the streaks of stakes (10 R295), the loss of
regions (18_faults_repair.md R490, R491).
-/
namespace Sys2Proof.Machine

/-! ## Time within a frame -/

/-- Periods that the running frame lasts. -/
def State.frameLen (s : State) : Nat := s.frame.len + s.frame.stretch
/-- Has region `n` a step tail in this frame that has begun (02 R43)? -/
def Region.inTail (g : Region) : Bool := g.bit RGN_CLK_STAT_COMMIT && g.stopped && !g.lost
/-- The cycle at which the deadline of region `n` falls. -/
def State.deadlineCyc (s : State) (n : Nat) : Nat :=
  s.cycAt n (s.frameLen - (if (s.region n).bit RGN_CLK_STAT_COMMIT then 200 else 0))

/-! ## Whose work is where -/

/-- Blocks of region `n` that belong to parcel `p` (08 R230). -/
def State.blocksOf (s : State) (n p : Nat) : List Nat :=
  s.listedBlocks.filter (fun k => regionOf k == n && (s.block k).rd RT_CTL_PARCEL == p)

/-- Keys of a unit's enabled stakes of parcel `p`. -/
def stakesOf (m : SMap Stake) (p : Nat) : List Nat :=
  (m.filter (fun x => x.2.en && x.2.parcel == p)).map (fun x => x.1)

/-- Keys of all stakes that parcel `p`, one of 1 to 15, owns, enabled or not (10 R285, R293): a stake that is not listed is
parcel 0's. -/
def ownedBy (m : SMap Stake) (p : Nat) : List Nat := (m.filter (fun x => x.2.parcel == p)).map (fun x => x.1)

/-- Has parcel `p` any resource in region `n` (18 R491, 19 R502): blocks, store streams, stream descriptors, windows, stakes,
release buffers? -/
def State.uses (s : State) (p n : Nat) : Bool :=
  let g := s.region n
  !(s.blocksOf n p).isEmpty ||
  (List.range 64).any (fun i => g.ss i 0 != 0 && g.ssParcel i == p) ||
  g.streamParcels.contains p ||
  (List.range 16).any (fun w => g.bit MEM_WIN_B_EN w && g.rd MEM_WIN_B_PARCEL w == p) ||
  !(stakesOf g.stakes p).isEmpty ||
  (match s.plat.active with
   | some pl => pl.stations.any (fun st => st.parcel == p && (st.rel.take st.nrel).any (fun r => r.region == n))
   | none => false)

/-- Is the parcel's context fenced at the coming boundary (19 R508)? -/
def State.fencing (s : State) (p : Nat) : Bool :=
  s.pstate p == 2 && (match (s.ctx p).req with | some (_, early) => early | none => false)

/-- Blocks of region `n` that differ from reset. -/
def State.blocksIn (s : State) (n : Nat) : List Nat := s.listedBlocks.filter (fun k => regionOf k == n)

/-- Time passes for the blocks of domain `k` of region `n` up to cycle `cyc`. -/
def State.settleDomain (s : State) (n k cyc : Nat) : State :=
  ((s.blocksIn n).filter (fun x => domainOf (indexOf x) == k && s.runs x)).foldl (fun (s : State) x =>
    s.onBlock x cyc (fun _ b => b)) s

/-- The skipped core cycles of a stretch put off every stage of the domain's running tiles (03 R67). -/
def State.slipDomain (s : State) (n k cyc skipped : Nat) : State :=
  ((s.blocksIn n).filter (fun x => domainOf (indexOf x) == k && s.runs x)).foldl (fun (s : State) x =>
    s.onBlock x cyc (fun e b => b.slip e skipped)) s

/-! ## Unfinished work (02 R52) -/

/-- Planned accesses of store stream `i` in one beat of pattern `pat` (Table 8-6). -/
def Region.planSlots (g : Region) (pat i : Nat) : Nat :=
  (g.edge.map (fun x =>
    if x.1 / 256 = pat ∧ 8 ≤ x.1 % 256 then
      ((List.range 8).filter (fun q => x.2 / 2 ^ (128 + 8 * q) % 2 ^ 7 == i + 2 ^ 6)).length
    else 0)).foldl (fun a x => a + x) 0

/-- Tiles that the planned accesses of store stream `i` make in a frame of the running variant. -/
def Region.planTiles (g : Region) (i : Nat) : Nat :=
  match g.variants[g.rd RGN_BEAT_VAR]? with
  | none => 0
  | some v => ((v.beats.map (fun x => g.planSlots x.pat i)).foldl (fun a x => a + x) 0) / g.ssLen i

/-- Is any work of frame `f` unfinished in the block: its core before TFRAME, queued commands, drives, deliveries? -/
def Block.unfinished (f : Nat) (b : Block) : Bool :=
  (b.bit BLK_STN_MEMBER && (match b.core.mode with | .frame _ => false | _ => true)) ||
  b.seq.q.any (fun x => decide (x.frame ≤ f)) || !b.driveq.isEmpty ||
  (List.range 64).any (fun k =>
    let l := b.leg k
    let tpf := b.rd LEP_A1_TPF k
    b.legIn k && (decide (l.n64 < tpf * (f - l.start) + tpf) ||
      b.rd SP_RING_CTL_HWIN (b.rd LEP_A0_RING k) == 0 && b.held.any (fun h => h.ep == k && !h.isVoid)) ||
    b.legOut k && !l.drives.isEmpty)

/-- Is any work of parcel `p`'s frame `f` unfinished in the region's memory: transfers before DONE (09 R275), drives, tiles of
write store streams? -/
def Region.unfinished (p f : Nat) (g : Region) : Bool :=
  g.xfers.any (fun x => x.parcel == p && x.frame == f && !x.dead) || g.driveq.any (fun d => d.parcel == p) ||
  (List.range 64).any (fun i => bitsOf (g.ss i 0) 22 22 == 1 && g.ssParcel i == p &&
    (decide ((g.strm i).j / g.ssLen i < g.planTiles i) || !(g.strm i).waits.isEmpty))

/-- Is work of parcel `p` unfinished in region `n`; a fenced block's work counts as complete (18 R484)? -/
def State.unfinished (s : State) (n p : Nat) : Bool :=
  let f := s.frame.num
  (s.region n).unfinished p f || (s.blocksOf n p).any (fun k => !s.absent k && (s.block k).unfinished f)

/-! ## Cancellation (02 R53) -/

/-- A block of an overrun context at the deadline: its steps of frame `f` are cancelled (03 R87, 04 R119), its core is cut
unless it has executed TFRAME (06 R173). -/
def Block.deadline (f : Nat) (e : Env) (b : Block) : Block :=
  let b := b.seq.q.foldl (fun (b : Block) x =>
    match x.st with
    | .issued r =>
      if x.cmd.opc ≠ 1 then b
      else if r.pass = 1 then
        (b.set1 BLK_MX_STAT_UNRES).raise e { cls := 5, subtype := 4, level := 0, tag := x.cmd.tag, inj := r.inj != 0 }
      else if r.pass = 2 then b.raise e { cls := 6, subtype := 2, level := 1, tag := x.cmd.tag }
      else b
    | .waiting | .landing _ _ _ | .refused => b) b
  let b := b.dropWork (fun x => decide (f < x.frame))
  match b.core.mode with
  | .running => { b with core := { b.core with mode := .cut } }
  | .stall _ _ _ => { b with core := { b.core with mode := .cut } }
  | _ => b

/-- The stake that the block's waiting sight names. -/
def Block.sightStake (b : Block) : List Nat :=
  match b.sight with
  | some x => if x.issued?.isSome then [x.cmd.stake] else []
  | none => []

/-- The gates of parcel `p` that wait in the region: stake index and waiter. -/
def Region.gateWaits (p f : Nat) (g : Region) : List (Nat × Nat) :=
  ((g.xfers.filter (fun x => x.parcel == p && x.frame == f && !x.started && !x.dead && bitsOf (g.sd x.eng x.desc 0) 7 7 == 1)).map
    (fun x => (bitsOf (g.sd x.eng x.desc 4) 31 16 % 4096, x.eng + 2 ^ 8 * x.desc))) ++
  (((List.range 64).filter (fun i => g.ssParcel i == p && (g.strm i).since.isSome)).map
    (fun i => (bitsOf (g.ss i 2) 15 0 % 4096, i)))

/-- STREAK of the block's stakes of parcel `p` at the deadline (10 R295); `hits` are the stakes whose sight was cancelled. -/
def Block.streaks (p : Nat) (hits : List Nat) (e : Env) (b : Block) : Block :=
  (stakesOf b.stakes p).foldl (fun (b : Block) k =>
    let x := (b.stake k).streakUpdate (hits.contains k)
    let b := b.setStake k x.1
    if x.2 then b.raise e { cls := 3, subtype := 0x61, level := 1, object := k, objkind := 1, specific := e.blk } else b) b

/-- STREAK of the region's stakes of parcel `p`. -/
def Region.streaks (p : Nat) (hits : List (Nat × Nat)) (e : REnv) (g : Region) : Region :=
  (stakesOf g.stakes p).foldl (fun (g : Region) k =>
    let hit := hits.reverse.find? (fun x => x.1 == k)
    let x := (g.stake k).streakUpdate hit.isSome
    let g := g.setStake k x.1
    if x.2 then
      g.raise e { cls := 3, subtype := 0x61, level := 2, parcel := p, object := 2 ^ 14 + k, objkind := 1
                  specific := (hit.map (fun x => x.2)).getD 0 }
    else g) g

/-- The deadline cancels parcel `p`'s work in region `n`, if its context is overrun, and the streaks of its stakes follow. -/
def State.deadlineIn (s : State) (n p : Nat) : State :=
  let f := s.frame.num
  let overran := (s.ctx p).overran
  let cyc := s.deadlineCyc n
  let s := (s.blocksOf n p).foldl (fun (s : State) k =>
    if s.absent k then s
    else
      let hits := (s.block k).sightStake
      s.onBlock k cyc (fun e b => Block.streaks p (if overran then hits else []) e (if overran then b.deadline f e else b))) s
  s.onLiveRegion n cyc (fun e g =>
    let hits := g.gateWaits p f
    let g := if overran then g.xOverrun p f else g
    Region.streaks p (if overran then hits else []) e g)

/-- The cause of Table 2-10 with the largest charge in a block's delay, the lower code on a tie. -/
def Block.topCause (b : Block) : Nat :=
  ((List.range 7).foldl (fun (a : Nat × Nat) i => if a.2 < b.rd SEQ_CHG_CYC i then (i + 1, b.rd SEQ_CHG_CYC i) else a) (0, 0)).1

/-- The overrun record of region `n` for parcel `p` (02 R53): the block with the largest delay, its delay and cause. -/
def State.overrunRecord (s : State) (n p : Nat) : State :=
  let cyc := s.deadlineCyc n
  let s := (s.blocksOf n p).foldl (fun (s : State) k => if s.absent k then s else s.onBlock k cyc (fun _ b => b)) s
  let best := (s.blocksOf n p).foldl (fun (a : Option Nat) k =>
    match a with
    | none => some k
    | some j => if (s.block j).rd SEQ_DELAY_DELAY < (s.block k).rd SEQ_DELAY_DELAY then some k else a) none
  let r : ErrRec := { cls := 1, subtype := 1, level := 2, parcel := p }
  let r : ErrRec := match best with
    | none => r
    | some k =>
      let b := s.block k
      { r with block := k, pblock := (s.region n).pblk n (indexOf k)
               specific := b.rd SEQ_DELAY_DELAY + 2 ^ 24 * b.topCause }
  s.onLiveRegion n cyc (fun e g => g.raise e r)

/-- The parcels with an active context that is not fenced at the coming boundary. -/
def State.judged (s : State) : List Nat := (List.range 16).filter (fun p => s.pstate p == 2 && !s.fencing p)

/-- Time passes up to the deadline at the blocks of the judged contexts in region `n`: a tile whose drain path latency ends by then is
complete (R45). -/
def State.settleJudged (s : State) (n : Nat) : State :=
  ((s.blocksIn n).filter (fun k => !s.absent k && s.judged.contains ((s.block k).rd RT_CTL_PARCEL))).foldl
    (fun (s : State) k => s.onBlock k (s.deadlineCyc n) (fun _ b => b)) s

/-- Declare the overrun of each context in `ps` that has unfinished work in region `n`, with the region's record. -/
def State.declareIn (s : State) (n : Nat) : State :=
  let s := s.settleJudged n
  (s.judged.filter (fun p => s.unfinished n p)).foldl (fun (s : State) p =>
    (s.overrunRecord n p).setCtx p { s.ctx p with overran := true }) s

/-- The deadline of one region at its step tail (02 R43, R45). -/
def State.tailDeadline (s : State) (n : Nat) : State :=
  let s := s.declareIn n
  s.judged.foldl (fun (s : State) p => s.deadlineIn n p) s

/-- From the tick on, the times of held words and of waits count from it (05 R138, 10 R294). -/
def State.rebaseHeld (s : State) : State :=
  let s := s.listedBlocks.foldl (fun (s : State) k => s.setBlock k ((s.block k).rebase (s.cycAt (regionOf k) s.frameLen))) s
  (List.range 24).foldl (fun (s : State) n => s.setRegion n ((s.region n).rebase (s.cycAt n s.frameLen))) s

/-- The deadline at the tick (02 R52, R53), the gap's step 2: regions in their step tail have had theirs; an overrun in one region
cancels the context's work in all. -/
def State.tickDeadline (s : State) : State :=
  let s := s.allRegions (fun _ g => g.wr RGN_BEAT_GAP 1)
  let rest := (List.range 24).filter (fun n => !(s.region n).lost && !(s.region n).inTail)
  let s := rest.foldl (fun (s : State) n => s.declareIn n) s
  (List.range 24).foldl (fun (s : State) n =>
    s.judged.foldl (fun (s : State) p =>
      if rest.contains n then s.deadlineIn n p
      else if (s.ctx p).overran then
        (s.blocksOf n p).foldl (fun (s : State) k =>
          if s.absent k then s else s.onBlock k (s.deadlineCyc n) (fun e b => b.deadline s.frame.num e)) s
      else s) s) s |>.rebaseHeld

/-! ## Losing regions (18 R490, R491, Table 18-9) -/

/-- The regions lost with region `n`. -/
def lostWith (n : Nat) : List Nat :=
  let d := 6 * (n / 6)
  match n % 6 with
  | 0 => (List.range 6).map (fun f => d + f)
  | 1 => [n, d + 3, d + 5]
  | 2 => [n, d + 4]
  | 3 => [n, d + 5]
  | _ => [n]

/-- A teardown for a region loss: at the next boundary, whenever the loss comes (18 R491); one loss counts once. -/
def State.tearLoss (s : State) (k p : Nat) : State :=
  let c := s.ctx p
  if s.pstate p = 1 then s.teardown p 6
  else if s.pstate p = 2 then
    match c.req with
    | none => (s.wr CTX_STAT_CAUSE 6 p).setCtx p { c with req := some (6, true), counted := true, loss := some k }
    | some (first, _) =>
      s.setCtx p { c with req := some (first, true), counted := true, loss := if c.counted then c.loss else some k }
  else s

/-- Regions are lost for one cause of Table 18-7: they stop at once, the MC writes the record, and the contexts with
resources there are torn down at the next boundary. -/
def State.loseRegions (s : State) (cause : Nat) (roots : List Nat) : State :=
  let new := (List.range 24).filter (fun n => (roots.flatMap lostWith).contains n && !(s.region n).lost)
  if new.isEmpty then s
  else
    let s := new.foldl (fun (s : State) n => s.setRegion n { s.region n with lost := true, stopped := true }) s
    let r := new.headD 0
    let s := s.raise { cls := 8, subtype := 0xE4, level := 3, fatal := true, region := r, die := r / 6
                       beat := if (s.region r).bit RGN_BEAT_GAP then 0x7FFF else (s.region r).beat
                       specific := cause + 2 ^ 8 * new.foldl (fun m n => m + 2 ^ n) 0 }
    let k := s.err.losses
    let s := { s with err := { s.err with losses := k + 1 } }
    ((List.range 16).filter (fun p => p != 0 && new.any (fun n => s.uses p n))).foldl (fun (s : State) p => s.tearLoss k p) s

end Sys2Proof.Machine
end

