-- ==== Sys2Proof/Machine/PortCmds.lean ====
section
/-!
DEFINITION. The commands of the sightline ports and the laser sources (12_sightlines.md R335 to R366, 20 R533).
-/
namespace Sys2Proof.Machine

/-- Words `4 i … 4 i + 15` of a hash register group as a number: bytes 0 to 15 of the hash (12 R347). -/
def State.hash128 (s : State) (f : Field) : Nat :=
  (List.range 4).foldl (fun a i => a + s.rd f i * 2 ^ (32 * i)) 0

/-- The LINK record of a port in the active plat (Table 12-9). -/
def State.link (s : State) (port : Nat) : Option LinkPort :=
  match s.plat.active with
  | some p => p.ports.find? (fun x => x.port == port)
  | none => none

/-- Is the port in use: does LANE_OCT assign an external octet to it (R333, R345)? -/
def State.portUsed (s : State) (port : Nat) : Bool :=
  (List.range 72).any (fun o => s.lane LANE_OCT_KIND o == 2 && s.lane LANE_OCT_SL o == port)

/-- The named F of a cut-over in which the port's partner takes part and whose shares are all armed (11 R330). -/
def State.armedF (s : State) (port : Nat) : Option Nat :=
  match s.plat.load with
  | some l => if l.cut && l.partners.testBit port && s.bit CUT_ACK_ARMED then some l.f else none
  | none => none

/-- What port `port` judges datums against under a plat with hash `h` and frame length `len` (Table 12-7). -/
def linkRef (p : Option Plat) (port h len : Nat) : PRef :=
  let l := p.bind (fun p => p.ports.find? (fun x => x.port == port))
  { hash := h, expect := l.elim 0 (fun l => l.expect), mask := l.elim 0 (fun l => l.parcels), len := len
    decl := l.elim 0 (fun l => l.dDecl.toInt) }

/-- The device's own time at `t` (R347): frame number × LEN + POS in sixteenths, mod 2^64. -/
def State.devTime (s : State) (t : Nat) : Nat :=
  (t + 16 * (s.frame.num * s.frame.len + s.frame.pos) + 2 ^ 64 - 16 * s.frame.now % 2 ^ 64) % 2 ^ 64

/-- The surroundings of a port at time `t`. -/
def State.penv (s : State) (port t : Nat) : PEnv :=
  { port := port, t := t, dev := s.devTime t, frame := s.frame.num, fw := s.mc.fwVer, serial := s.fuse.serial
    own := linkRef s.plat.active port (s.hash128 PLAT_HASH_A_HASH) s.frame.len
    later := if s.plat.switch then s.plat.cutF.bind (fun f => s.plat.shadow.map (fun p =>
      (f, linkRef (some p) port (s.hash128 PLAT_HASH_S_HASH) p.frmLen))) else none
    aligned := s.bit FRM_STAT_ALIGNED, epochId := s.rd SL_EPOCH_EPOCH_ID
    roleReq := (s.link port).elim 0 (fun l => l.roleReq)
    active := (List.range 16).foldl (fun a p => if p ≠ 0 ∧ s.pstate p = 2 then a + 2 ^ p else a) 0
    armed := s.armedF port, inhash := s.hash128 PLAT_HASH_S_HASH, external := s.portUsed port, frozen := s.frozen, inj := false }

/-- Put a port back after a step: its records and events go to the hub, and a change of its state raises SLVEC
(Table 13-13). -/
def State.putPort (s : State) (port : Nat) (p : Port) : State :=
  let old := (s.port port).state
  let s := (s.setPort port { p with recs := [], evs := [] }).takeEvs none p.evs
  let s := p.recs.foldl (fun s r => s.raise r) s
  if old = p.state then s else s.pfVector HIF_VEC_SLVEC

/-- A step of a port at time `t`. -/
def State.onPort (s : State) (port t : Nat) (f : PEnv → Port → Port) : State :=
  s.putPort port (f (s.penv port t) (s.port port))

/-- The present time in sixteenths of a reference period. -/
def State.now16 (s : State) : Nat := 16 * s.frame.now

/-- LANE_LOCK (R338, R353): the markers that lane `lane` received, and whether the lanes' skew is in range. -/
def execLaneLock (port t lane : Nat) (marks : List (List Byte)) (skewOk : Bool) (s : State) :
    Host.Outcome State Fault Refusal :=
  .next (s.onPort port t (fun e p => p.laneLock e lane marks skewOk))

/-- LANE_LOCK_LOST (R338). -/
def execLaneLockLost (port t lane : Nat) (marks : List (List Byte)) (s : State) : Host.Outcome State Fault Refusal :=
  .next (s.onPort port t (fun e p => p.laneLost e lane marks))

/-- SHOT_RECEIVED (R341, R342, R346, R358). -/
def execShotReceived (port t : Nat) (shot : Shot) (s : State) : Host.Outcome State Fault Refusal :=
  .next (s.onPort port t (fun e p => p.shotReceived e shot))

/-- REPLAY_TIMEOUT (R342). -/
def execReplayTimeout (port t : Nat) (s : State) : Host.Outcome State Fault Refusal :=
  .next (s.onPort port t (fun e p => p.replayTimeout e))

/-- SIGHTLINE_WORD_ENQUEUE (R340, R343, R346): the oldest word of the lane port toward the port, or what arrives in its
place; it belongs to leg `leg`, and `mark` says that it starts a tile. -/
def execSightlineWordEnqueue (port t leg : Nat) (mark : Bool) (got : Option FWord) (s : State) :
    Host.Outcome State Fault Refusal :=
  match s.homeOf port with
  | none => .next s
  | some (n, q) =>
    let g := s.region n
    match takeFirst q g.laneOut with
    | some (w, rest) =>
      let s := s.setRegion n { g with laneOut := rest }
      .next (s.onPort port t (fun e p => p.enqueue e (got.getD w) leg mark))
    | none =>
      match got with
      | some w => .next (s.onPort port t (fun e p => p.enqueue e w leg mark))
      | none => .next s

/-- DATUM_TIMER (R348): in DATUM and HOLD a datum is sent every 20 µs; in READY only at the boundary. -/
def execDatumTimer (port t : Nat) (s : State) : Host.Outcome State Fault Refusal :=
  .next (s.onPort port t (fun e p => if p.state = 4 then p else p.sendDatum e))

/-- DATUM_RECEIVED (R346, R349 to R354). -/
def execDatumReceived (port t : Nat) (s : State) : Host.Outcome State Fault Refusal :=
  .next (s.onPort port t (fun e p => p.datumReceived e))

/-- SL_SWAP (R353): SL_CTL written with SWAP. -/
def execSlSwap (port : Nat) (s : State) : Host.Outcome State Fault Refusal :=
  if !s.ready then .next s.discard else .next (s.onPort port s.now16 (fun _ p => { p with swap := true }))

/-- SL_RESET (R345, R365): SL_CTL written with RESET. -/
def execSlReset (port : Nat) (s : State) : Host.Outcome State Fault Refusal :=
  if !s.ready then .next s.discard else .next (s.onPort port s.now16 (fun _ p => p.reset))

/-! ## Frame-void notices (10 R296, R357, R359) -/

/-- The landing records of region `n` for lane port `q` whose leg is of parcel `p`. -/
def Region.landings (g : Region) (q p : Nat) : List Nat :=
  (List.range 16).filter (fun k =>
    g.bit SL_LAND0_EN k && g.rd SL_LAND0_LPORT k == q && g.ssParcel (g.rd SL_LAND0_WSTRM k) == p)

/-- Void a landing record's leg for frame `n`: void bit and owed drive of its stake (R296), its landed and later tiles of
that frame (R359). -/
def Region.voidLeg (e : REnv) (g : Region) (k n : Nat) : Region :=
  let i := g.rd SL_LAND0_WSTRM k
  let s := g.strm i
  let tag := n % 2 ^ 16
  let s : Strm := { s with notices := (s.notices.filter (fun x => x != tag)) ++ [tag]
                           saved := s.saved.map (fun x => if x.2.frame = tag then (x.1, { x.2 with void := true }) else x) }
  let g := g.setStrm i s
  let id := g.rd STRM_STK_ARRIVE i
  if id / 2 ^ 14 ≠ 1 then g
  else
    let st := g.stake (id % 4096)
    let total := ((s.totals.find? (fun x => x.1 == tag)).map (fun x => x.2)).getD 0
    let owed := st.roll - total
    let st := st.setVoid tag
    ((g.setStake (id % 4096) { st with cnt := min (st.cnt + owed) 0x7FFFFFFF }).tryAll e).showWait

/-- SL_DECL shows D_DECL of the active plat (Table 12-13). -/
def State.showDecl (s : State) : State :=
  (List.range 24).foldl (fun (s : State) q =>
    s.setPort q ((s.port q).wr SL_DECL_DECL ((s.link q).elim 0 (fun l => l.dDecl.toNat)))) s

/-- Has the frame that consumes the notices' drives of frame `n` been committed (R359)? Such a notice drives and voids nothing
(DEDUCED, log 69). -/
def Region.lateNotice (g : Region) (now k n : Nat) : Bool :=
  let id := g.rd STRM_STK_ARRIVE (g.rd SL_LAND0_WSTRM k)
  decide (n + (g.stake (id % 4096)).lag < now)

/-- A frame-void notice for parcel `p` and frame `n` at a port. -/
def State.voidNotice (s : State) (port p n : Nat) : State :=
  match s.homeOf port with
  | none => s
  | some (m, q) =>
    let ks := (s.region m).landings q p
    let late := ks.filter (fun k => (s.region m).lateNotice s.frame.num k n)
    let s := s.onRegion m 0 (fun e g => (ks.filter (fun k => !late.contains k)).foldl (fun g k => g.voidLeg e k n) g)
    if late.isEmpty then s
    else s.onPort port s.now16 (fun e p => (p.wr SL_STAT_LATE 1).raise e { cls := 8, subtype := 0x86, level := 4 })

/-- FRAME_VOID_NOTICE (R359): the oldest accepted control message, when it is a frame-void notice. -/
def execFrameVoidNotice (port : Nat) (s : State) : Host.Outcome State Fault Refusal :=
  let p := s.port port
  match p.rx with
  | (b, _) :: rest =>
    if b % 2 ^ 16 = 2 then
      .next ((s.setPort port { p with rx := rest }).voidNotice port (field b 16 4) (field b 64 48))
    else .next s
  | [] => .next s

/-- VOID_CONTEXT_RECEIVED (R359, 19 R515): the oldest accepted control message, when it is a void-context message. -/
def execVoidContextReceived (port : Nat) (s : State) : Host.Outcome State Fault Refusal :=
  let p := s.port port
  match p.rx with
  | (b, _) :: rest =>
    if b % 2 ^ 16 = 3 then
      let k := field b 16 4
      let s := s.setPort port { p with rx := rest }
      if (p.rd SL_JOIN_JOINED).testBit k then
        .next (s.onPort port s.now16 (fun e p => (p.peerLeaves k).raise e
          { cls := 8, subtype := 0xF3, level := 4, parcel := k, specific := k + 2 ^ 4 * field b 20 2 }))
      else .next (s.onPort port s.now16 (fun _ p => p.discard))
    else .next s
  | [] => .next s

/-! ## Landing (R360, R361) -/

/-- The words of the tile at the head of a list: up to and with its LAST word; `none` while the tile is incomplete. -/
def splitTile : List FWord → Option (List FWord × List FWord)
  | [] => none
  | w :: t => if w.last then some ([w], t) else (splitTile t).map (fun x => (w :: x.1, x.2))

/-- LANDING_TILE: the oldest complete tile, or the drive word, that the port has accepted lands in its home region; words
of one tile follow one another. -/
def execLandingTile (port cyc : Nat) (s : State) : Host.Outcome State Fault Refusal :=
  let p := s.port port
  match s.homeOf port, p.rxw with
  | some (n, q), w :: rest =>
    let h := Hdr.ofBits w.data
    if h.fmt = 15 then
      let s := s.setPort port { p with rxw := rest }
      .next (s.onLiveRegion n cyc (fun e g =>
        match g.landing q h.leg with
        | some k => g.driveWord e (g.rd SL_LAND0_WSTRM k) h
        | none => g.raise e { cls := 2, subtype := 0x54, level := 2, parcel := h.parcel
                              object := 2 ^ 16 * h.leg + 2 ^ 32 * h.seq, objkind := 3 }))
    else
      match splitTile p.rxw with
      | none => .next s
      | some (tile, rest) =>
        let s := s.setPort port { p with rxw := rest }
        .next (s.onLiveRegion n cyc (fun e g => g.landTile e q h (tile.tail.map (fun x => x.data))))
  | _, _ => .next s

/-! ## Laser sources (R335) -/

/-- The octets that slot `k` lights (08 R249). -/
def litBy (k : Nat) : List Nat := (List.range 9).map (fun i => 9 * k + i)

/-- The octets of slot `k` go dark (R335): die-to-die circuits are lost (08 R251), sightline ports lose lane lock. -/
def State.darken (s : State) (k : Nat) : State :=
  (litBy k).foldl (fun s o =>
    let s := s.wr LANE_STAT_LOS 1 o
    if s.lane LANE_OCT_KIND o = 1 ∧ s.bit LANE_STAT_LOCK o then s.loseCircuit o
    else if s.lane LANE_OCT_KIND o = 2 then s.onPort (s.lane LANE_OCT_SL o) s.now16 (fun e p => p.dark e)
    else s) s

/-- The octets of slot `k` have light. -/
def State.light (s : State) (k : Nat) : State := (litBy k).foldl (fun s o => s.wr LANE_STAT_LOS 0 o) s

/-- LSRC_INSERT: a source of power `power` is inserted in slot `k + 1`; the hub enables it when EN is 1 and it lights. -/
def execLsrcInsert (k power : Nat) (s : State) : Host.Outcome State Fault Refusal :=
  let s := s.set1 SL_LSRC_PRESENT k
  if s.bit SL_LSRC_EN k ∧ power ≠ 0 then .next (((s.set1 SL_LSRC_LIT k).wr SL_LSRC_POWER power k).light k)
  else .next s

/-- LSRC_REMOVE. -/
def execLsrcRemove (k : Nat) (s : State) : Host.Outcome State Fault Refusal :=
  .next ((((s.wr SL_LSRC_PRESENT 0 k).wr SL_LSRC_LIT 0 k).wr SL_LSRC_POWER 0 k).darken k)

/-- LSRC_FAULT: an enabled source is not lit within 2 s, or its power stays low for 10 ms. -/
def execLsrcFault (k power : Nat) (s : State) : Host.Outcome State Fault Refusal :=
  if s.bit SL_LSRC_PRESENT k ∧ s.bit SL_LSRC_EN k then
    let s := ((s.set1 SL_LSRC_FAULT k).wr SL_LSRC_LIT 0 k).wr SL_LSRC_POWER power k
    .next ((s.raise { cls := 8, subtype := 0x85, level := 4, specific := k + 1 }).darken k)
  else .next s

/-! ## Sightline hold (20 R533) -/

/-- SL_HOLD_START: START µs after the first cycle of beat 0, the port of an acting hold stops sending words. -/
def execSlHoldStart (port : Nat) (s : State) : Host.Outcome State Fault Refusal :=
  if s.pert.acting.getD 1 false ∧ s.rd PERT_SLHOLD_PORT = port then
    .next (s.onPort port s.now16 (fun _ p => { p with slhold := true }))
  else .next s

/-- SL_HOLD_END: after DUR µs sending resumes in buffer order; EN clears and the control ends. -/
def execSlHoldEnd (port t : Nat) (s : State) : Host.Outcome State Fault Refusal :=
  if (s.port port).slhold then
    let s := s.onPort port t (fun e p => ({ p with slhold := false } : Port).flush e)
    .next { s.wr PERT_SLHOLD_EN 0 with pert := { s.pert with acting := s.pert.acting.set 1 false } }
  else .next s

end Sys2Proof.Machine
end

