-- ==== Sys2Proof/Machine/CtxOps.lean ====
section
/-!
DEFINITION. The life of a context (19_contexts_recovery.md R500 to R517): admission, loading, fence, teardown end, clearing,
escalation, out of service.
-/
namespace Sys2Proof.Machine

/-! ## Admission (R502 to R504) -/

/-- Do two ranges overlap? -/
def ClearRange.meets (a b : ClearRange) : Bool :=
  a.region == b.region && a.tgt == b.tgt && decide (a.base < b.base + b.len) && decide (b.base < a.base + a.len)

/-- Does any range of parcel `p` overlap one that is still being cleared (Table 19-2, code 0x04)? -/
def State.meetsClearing (s : State) (p : Nat) : Bool :=
  let mine := s.rangesOf p
  (List.range 16).any (fun q => s.pstate q == 4 && (s.ctx q).clearing.any (fun c => mine.any (fun d => c.meets d)))

/-- The first condition of Table 19-2 that refuses an admission of parcel `p` with FIRST `first`. -/
def State.admitCode (s : State) (p first : Nat) : Option Nat :=
  let has := match s.plat.active with
    | some pl => pl.stations.any (fun st => st.parcel == p)
    | none => false
  if !s.sealed || s.plat.active.isNone then some 1
  else if !s.bit PCL_DEF_EN p || !has then some 2
  else if s.pstate p = 1 ∨ s.pstate p = 2 ∨ s.pstate p = 3 then some 3
  else if s.pstate p = 4 ∨ s.meetsClearing p then some 4
  else if s.oos then some 5
  else if first ≠ 0 ∧ first ≤ s.frame.num + 4 then some 6
  else if (List.range 24).any (fun n => (s.region n).lost && s.uses p n) then some 7
  else none

/-- Blocks of parcel `p`'s stations in the active plat. -/
def State.stationBlocks (s : State) (p : Nat) : List Nat :=
  match s.plat.active with
  | none => []
  | some pl => (pl.stations.filter (fun st => st.parcel == p)).flatMap (fun st => st.blocks)

/-- Every ring empty: FILL, TAKE and tag entries (R503, Table 19-4). -/
def Block.emptyRings (b : Block) : Block :=
  { (List.range 32).foldl (fun (b : Block) r =>
      ((b.wr SP_RING_STATE_FILL 0 r).wr SP_RING_STATE_TAKE 0 r).wr SP_RING_STATE_FULL 0 r) b with tags := [], takes := [] }

/-- The MC's writes to a block of a loading parcel (R503). -/
def Block.loadFor (pr : Option ProgSec) (entry : Word) (b : Block) : Block :=
  let b := (match pr with | some x => b.installProgram x | none => b).installEntry entry
  { b.emptyRings with legs := [], held := [], core := { b.core with mode := .halted } }

/-- Loading of parcel `p` is complete (R503). -/
def State.finishLoading (s : State) (p : Nat) : State :=
  let s := match s.plat.active with
    | none => s
    | some pl =>
      (pl.stations.filter (fun (st : StationRec) => st.parcel == p)).foldl (fun (s : State) (st : StationRec) =>
        st.blocks.foldl (fun (s : State) k =>
          if s.absent k then s.setBlock k { s.block k with legs := [] }
          else s.setBlock k ((s.block k).loadFor (pl.programs.find? (fun x => x.idx == st.prog)) st.entry)) s) s
  s.setCtx p { s.ctx p with loaded := true }

/-- Set the stakes that parcel `p` owns as at admission in frame `a` (10 R285). -/
def admitStakes (m : SMap Stake) (p a : Nat) : SMap Stake :=
  (ownedBy m p).foldl (fun m k => SMap.upd stakeZero m k (fun x => x.startCtx a)) m

/-- The next admission count: 28 bits, with 0 skipped (R500). -/
def nextAdmit (c : Nat) : Nat := if (c + 1) % 2 ^ 28 = 0 then 1 else (c + 1) % 2 ^ 28

/-- The endpoints of a block start their counts from frame `a` (02 R52). -/
def Block.startLegs (a : Nat) (b : Block) : Block :=
  (List.range 64).foldl (fun (b : Block) k => if b.bit LEP_A0_EN k then b.setLeg k { start := a } else b) b

/-- Step 7 of the gap that begins frame `a`, which is the current frame: the context of parcel `p` is admitted (R504). -/
def State.startCtx (s : State) (p : Nat) : State :=
  let a := s.frame.num
  let c := nextAdmit s.mc.admits
  let s := { s with mc := { s.mc with admits := c } }
  let s := (s.wr CTX_NUM_NUM (p + 16 * c) p).wr CTX_STAT_STATE 2 p
  let s := (List.range 24).foldl (fun (s : State) n =>
    let g := s.region n
    if g.lost then s
    else
      let g : Region := { g with stakes := admitStakes g.stakes p a, drain := g.drain.filter (fun q => q != p) }
      s.setRegion n ((List.range 64).foldl (fun (g : Region) i =>
        if g.ss i 0 ≠ 0 ∧ g.ssParcel i = p then g.setStrm i {} else g) g)) s
  let s := (s.stationBlocks p).foldl (fun (s : State) k =>
    let b := s.block k
    s.setBlock k { b.startLegs a with stakes := admitStakes b.stakes p a }) s
  let s := (s.wr HIF_HB_COMMITS_COMMITS 0 p).wr HIF_HB_COMPLETES_COMPLETES 0 p
  let item := (s.ctx p).admitItem
  let s := s.setCtx p { first := a, loaded := true }
  let s := s.raise { cls := 2, subtype := 0xF4, level := 3, parcel := p, specific := a, tell := true }
  let s := s.showVf p
  match item with
  | some i => s.finish i 0 (a % 2 ^ 32)
  | none => s

/-- May parcel `p` be admitted at this boundary (R504, 11 R322)? -/
def State.mayAdmit (s : State) (p : Nat) : Bool :=
  s.pstate p == 1 && (s.ctx p).loaded && !s.arming && !s.oos && decide ((s.ctx p).firstWant ≤ s.frame.num)

/-! ## Fence (R508 to R510, Table 19-4) -/

/-- Step 1 at a block: commands, accumulators and TCRC bytes go, the core halts. -/
def Block.tearStop (b : Block) : Block :=
  let b := b.dropWork (fun _ => false)
  { b with core := { b.core with mode := .halted } }

/-- Step 3 at a block: stakes poisoned, deliveries and held words discarded, rings empty, codebooks and tables invalid, the images of
codebooks 0 to 30 zeroed (R105). -/
def Block.tearClear (p : Nat) (b : Block) : Block :=
  let st := (ownedBy b.stakes p).foldl (fun m k => SMap.upd stakeZero m k (fun x => { x with poison := true })) b.stakes
  let legs := b.legs.foldl (fun m x =>
    SMap.put legZero m x.1 { n64 := x.2.n64, start := x.2.start, dseq := x.2.dseq, fullTo := x.2.n64 }) ([] : SMap LegEnd)
  let b : Block := { b.emptyRings with stakes := st, legs := legs, held := [], driveq := [] }
  let b := (List.range 124).foldl (fun (b : Block) w => { b with regs := b.regs.setWord .block (0x400 + 4 * w) 0 }) b
  (b.wr BLK_CB_VALID_VALID 0).wr DRN_LUT_STAT_VALID 0

/-- Steps 1 and 3 at a region: engines and streams stop, stakes are poisoned, partial tiles and saved headers are discarded. -/
def Region.tear (p : Nat) (g : Region) : Region :=
  let g := g.xTeardown p
  let st := (ownedBy g.stakes p).foldl (fun m k => SMap.upd stakeZero m k (fun x => { x with poison := true })) g.stakes
  let g : Region := { g with stakes := st, drain := p :: g.drain.filter (fun q => q != p)
                             driveq := g.driveq.filter (fun d => d.parcel != p) }
  (List.range 64).foldl (fun (g : Region) i =>
    if g.ss i 0 ≠ 0 ∧ g.ssParcel i = p then
      let s := g.strm i
      g.setStrm i { s with since := none, gvoid := false, tvoid := false, forced := false, part := none, saved := [], ubad := false, waits := [] }
    else g) g

/-- Ports on which a parcel is joined. -/
def State.joinedPorts (s : State) (p : Nat) : List Nat :=
  (List.range 24).filter (fun k => ((s.port k).rd SL_JOIN_JOINED).testBit p)

/-- Stamps of the escalation record within the window (R516). -/
def State.escWindow (s : State) : List Nat :=
  s.err.esc.filter (fun t => decide (s.ms < t + 1000 * s.rd ESC_CTL_WINDOW))

/-- Show ESC_STAT.COUNT. -/
def State.showEsc (s : State) : State :=
  let s := { s with err := { s.err with esc := s.escWindow } }
  s.wr ESC_STAT_COUNT (min s.err.esc.length 15)

/-- Items that out of service ends: every one but NOP and DMA_FROM_DEV (R517, 13 R379). -/
def State.abortItems (s : State) : State :=
  (List.range 34).foldl (fun (s : State) k =>
    let f := s.fn k
    let rings := f.rings.foldl (fun (m : SMap Ring) x =>
      m.put ringZero x.1 { x.2 with items := x.2.items.map (fun (i : Item) =>
        if i.begun && i.done.isNone && i.opc != 0 && i.opc != 3 then { i with done := some (0x0B, 0) } else i) }) ([] : SMap Ring)
    s.setFn k { f with rings := rings }) s

/-- The device is out of service (R517): the states of the contexts, loads and items. Power control and the perturbation controls
read ESC_STAT.OOS. -/
def State.enterOos (s : State) : State :=
  if s.oos then s
  else
    let s := (s.set1 ESC_STAT_OOS).raise { cls := 2, subtype := 0xF2, level := 3, fatal := true, specific := s.rd ESC_STAT_COUNT }
    let s := (List.range 16).foldl (fun (s : State) p => (if p = 0 then s else (if s.activeP p then (vfsOf p).foldl State.errVector s else s).teardown p 9).showVf p) s
    let old := s
    let s := if s.plat.switch then s else s.cutAbandon 6
    let s := match s.plat.load with
      | some l =>
        if l.cut ∨ l.sealed then s
        else { s.wr PLAT_STAT_STATE (if s.plat.active.isSome then 4 else 0) with plat := { s.plat with load := none } }
      | none => s
    (State.platVec old s).abortItems

/-- Add stamps to the escalation record (R516). -/
def State.escalate (s : State) (n : Nat) : State :=
  if n = 0 then s
  else
    let s := { s with err := { s.err with esc := s.err.esc ++ List.replicate n s.ms } }
    let s := s.showEsc.wr ESC_STAT_TOTAL (min (s.rd ESC_STAT_TOTAL + n) 0xFFFF)
    if s.rd ESC_CTL_LIMIT ≤ s.err.esc.length then s.enterOos else s

/-- The stamps that the contexts fenced at one boundary add: one each, and one for all that one region loss tears down (18 R491). -/
def State.escStamps (s : State) (ps : List Nat) : Nat :=
  let cs := (ps.map s.ctx).filter (fun c => c.counted)
  (cs.filter (fun c => c.loss.isNone)).length + ((cs.filterMap (fun c => c.loss)).eraseDups).length

/-- Table 19-4, step 1 for parcel `p`. -/
def State.fenceStop (s : State) (p : Nat) : State :=
  s.listedBlocks.foldl (fun (s : State) k =>
    if (s.block k).rd RT_CTL_PARCEL = p then s.setBlock k (s.block k).tearStop else s) s

/-- Table 19-4, steps 3 to 5 for parcel `p` in the gap that begins the current frame. -/
def State.fence (s : State) (p : Nat) : State :=
  let s := s.wr CTX_STAT_GEN ((s.genOf p + 1) % 4) p
  let s := s.listedBlocks.foldl (fun (s : State) k =>
    if (s.block k).rd RT_CTL_PARCEL = p then s.setBlock k (Block.tearClear p (s.block k)) else s) s
  let s := (List.range 24).foldl (fun (s : State) n => s.setRegion n (Region.tear p (s.region n))) s
  let s := (s.joinedPorts p).foldl (fun (s : State) k =>
    let q := s.port k
    s.setPort k (q.wr SL_JOIN_JOINED (q.rd SL_JOIN_JOINED - 2 ^ p))) s
  let c := s.ctx p
  let s := (s.wr CTX_STAT_STATE 3 p).setCtx p { c with fenceAt := s.frame.num, req := none }
  s.raise { cls := 2, subtype := 0xF0, level := 3, parcel := p, specific := s.rd CTX_STAT_CAUSE p, tell := true }

/-- Void-context messages of parcel `p` on the ports where it was joined (Table 12-8, Table 19-4 step 6). -/
def State.voidContexts (s : State) (p : Nat) (ports : List Nat) : State :=
  ports.foldl (fun (s : State) k =>
    s.onPort k s.now16 (fun e q => q.control e 3 (noticeBody 3 p (s.genOf p) s.frame.num))) s

/-! ## Teardown end and clearing (R511 to R513) -/

/-- Is every engine done with parcel `p` (Table 19-4 step 7)? -/
def State.drained (s : State) (p : Nat) : Bool :=
  (List.range 24).all (fun n => (s.region n).lost || !((s.region n).rd MEM_DRAIN_PEND).testBit p)

/-- Teardown end (R511). -/
def State.endTeardown (s : State) (p : Nat) : State :=
  let c := s.ctx p
  let s := s.raise { cls := 2, subtype := 0xF1, level := 3, parcel := p, specific := (s.frame.num - c.fenceAt) % 2 ^ 32, tell := true }
  let s := s.finishAll c.tearItems 0 0
  let s := (s.set1 CTX_STAT_TORN p).setCtx p { s.ctx p with tearItems := [], counted := false, loss := none, streak := 0 }
  (s.startClearing p true).showVf p

/-- A block of a cleared parcel: its on granules and its local data are zero (R512). -/
def Block.clearMem (b : Block) : Block :=
  let b := (List.range 8).foldl (fun (b : Block) g =>
    if b.granule g = 0 then
      ({ b with spm := b.spm.zeroRange (g * 262144) ((g + 1) * 262144) } : Block).eccClear (g * 262144) ((g + 1) * 262144)
    else b) b
  { b with ldata := [] }

/-- The last range of parcel `p` is zeroed: the parcel is idle (R512). A region lost in the meantime is left. -/
def State.finishClearing (s : State) (p : Nat) : State :=
  let c := s.ctx p
  let s := c.clearing.foldl (fun (s : State) r =>
    if (s.region r.region).lost then s
    else s.setRegion r.region ((s.region r.region).zeroLines r.tgt r.base r.len)) s
  let s := s.listedBlocks.foldl (fun (s : State) k =>
    if (s.block k).rd RT_CTL_PARCEL = p ∧ s.absent k = false then s.setBlock k (s.block k).clearMem else s) s
  let s := (List.range 24).foldl (fun (s : State) n =>
    let g := s.region n
    s.setRegion n { g with drain := g.drain.filter (fun q => q != p) }) s
  ((s.wr CTX_STAT_STATE 0 p).wr CTX_STAT_CLEARPEND 0 p).setCtx p { s.ctx p with clearing := [], clearBlocks := false }

end Sys2Proof.Machine
end

