-- ==== Sys2Proof/Machine/ScalarCore.lean ====
section
/-!
DEFINITION. The block scalar core (06_scalar_core.md R163 to R174): RV32I, M, C and Zicsr as RISC-V International
ratified them, with the choices of Table 6-1, and the tile extension of Table 6-6; decoding, the address space of
Table 6-3, the CSRs of Table 6-4, exceptions, one instruction.
-/
namespace Sys2Proof.Machine

/-- A decoded instruction. -/
inductive Rv where
  | lui (rd : Nat) (imm : Word)
  | auipc (rd : Nat) (imm : Word)
  | jal (rd : Nat) (off : Word)
  | jalr (rd rs1 : Nat) (off : Word)
  | branch (f3 rs1 rs2 : Nat) (off : Word)
  | load (f3 rd rs1 : Nat) (off : Word)
  | store (f3 rs1 rs2 : Nat) (off : Word)
  | opImm (f3 rd rs1 : Nat) (alt : Bool) (imm : Word)
  | op (f3 rd rs1 rs2 : Nat) (alt : Bool)
  | mul (f3 rd rs1 rs2 : Nat)
  | nop
  | ecall
  | ebreak
  | mret
  | csr (f3 rd rs1 num : Nat)
  | tpush (rs1 : Nat) (imm : Word)
  | tfull (rs1 rs2 : Nat)
  | trel (rs1 : Nat)
  | taddrT (rd rs1 : Nat)
  | taddrF (rd rs1 : Nat)
  | tfence
  | tframe (rd : Nat)
  | tcrc (bytes rs1 : Nat)
  | illegal
deriving DecidableEq, Repr

/-- Sign-extend the low `n` bits. -/
def sext (n v : Nat) : Word := BitVec.ofInt 32 (if v % 2 ^ n < 2 ^ (n - 1) then (v % 2 ^ n : Nat) else (v % 2 ^ n : Nat) - 2 ^ n)

/-- Bits `hi:lo` of an instruction. -/
abbrev fieldOf (w : Word) (hi lo : Nat) : Nat := bitsOf w hi lo

/-- I-type immediate. -/
def immI (w : Word) : Word := sext 12 (fieldOf w 31 20)
/-- S-type immediate. -/
def immS (w : Word) : Word := sext 12 (fieldOf w 31 25 * 2 ^ 5 + fieldOf w 11 7)
/-- B-type immediate. -/
def immB (w : Word) : Word :=
  sext 13 (fieldOf w 31 31 * 2 ^ 12 + fieldOf w 7 7 * 2 ^ 11 + fieldOf w 30 25 * 2 ^ 5 + fieldOf w 11 8 * 2)
/-- J-type immediate. -/
def immJ (w : Word) : Word :=
  sext 21 (fieldOf w 31 31 * 2 ^ 20 + fieldOf w 19 12 * 2 ^ 12 + fieldOf w 20 20 * 2 ^ 11 + fieldOf w 30 21 * 2)

/-- The tile extension, custom-0 (Table 6-6): an unused field must be zero (R170). -/
def decodeTile (w : Word) : Rv :=
  let rd := fieldOf w 11 7
  let f3 := fieldOf w 14 12
  let rs1 := fieldOf w 19 15
  let rs2 := fieldOf w 24 20
  let f7 := fieldOf w 31 25
  match f3 with
  | 0 => if rd = 0 then .tpush rs1 (immI w) else .illegal
  | 1 =>
    match f7 with
    | 0 => if rd = 0 then .tfull rs1 rs2 else .illegal
    | 1 => if rd = 0 ∧ rs2 = 0 then .trel rs1 else .illegal
    | 2 => if rs2 = 0 then .taddrT rd rs1 else .illegal
    | 3 => if rs2 = 0 then .taddrF rd rs1 else .illegal
    | 4 => if rd = 0 ∧ rs1 = 0 ∧ rs2 = 0 then .tfence else .illegal
    | 5 => if rs1 = 0 ∧ rs2 = 0 then .tframe rd else .illegal
    | _ => .illegal
  | 2 =>
    if rd = 0 ∧ rs2 = 0 then
      match f7 with
      | 0 => .tcrc 1 rs1
      | 1 => .tcrc 2 rs1
      | 2 => .tcrc 4 rs1
      | _ => .illegal
    else .illegal
  | _ => .illegal

/-- A 32-bit encoding. FENCE and WFI do nothing; FENCE.I, SRET, SFENCE.VMA and other extensions are illegal
(Table 6-1). -/
def decode32 (w : Word) : Rv :=
  let rd := fieldOf w 11 7
  let f3 := fieldOf w 14 12
  let rs1 := fieldOf w 19 15
  let rs2 := fieldOf w 24 20
  let f7 := fieldOf w 31 25
  match fieldOf w 6 0 with
  | 0x37 => .lui rd (w &&& 0xFFFFF000)
  | 0x17 => .auipc rd (w &&& 0xFFFFF000)
  | 0x6F => .jal rd (immJ w)
  | 0x67 => if f3 = 0 then .jalr rd rs1 (immI w) else .illegal
  | 0x63 => if f3 = 2 ∨ f3 = 3 then .illegal else .branch f3 rs1 rs2 (immB w)
  | 0x03 => if f3 = 3 ∨ f3 = 6 ∨ f3 = 7 then .illegal else .load f3 rd rs1 (immI w)
  | 0x23 => if 3 ≤ f3 then .illegal else .store f3 rs1 rs2 (immS w)
  | 0x13 =>
    if f3 = 1 then (if f7 = 0 then .opImm 1 rd rs1 false (BitVec.ofNat 32 rs2) else .illegal)
    else if f3 = 5 then
      (if f7 = 0 then .opImm 5 rd rs1 false (BitVec.ofNat 32 rs2)
       else if f7 = 0x20 then .opImm 5 rd rs1 true (BitVec.ofNat 32 rs2) else .illegal)
    else .opImm f3 rd rs1 false (immI w)
  | 0x33 =>
    if f7 = 0 then .op f3 rd rs1 rs2 false
    else if f7 = 0x20 ∧ (f3 = 0 ∨ f3 = 5) then .op f3 rd rs1 rs2 true
    else if f7 = 1 then .mul f3 rd rs1 rs2
    else .illegal
  | 0x0F => if f3 = 0 then .nop else .illegal
  | 0x73 =>
    if f3 = 0 then
      (if w = 0x00000073 then .ecall else if w = 0x00100073 then .ebreak
       else if w = 0x30200073 then .mret else if w = 0x10500073 then .nop else .illegal)
    else if f3 = 4 then .illegal
    else .csr f3 rd rs1 (fieldOf w 31 20)
  | 0x0B => decodeTile w
  | _ => .illegal

/-- A 16-bit encoding of the C extension for RV32 without F and D. -/
def decode16 (h : Word) : Rv :=
  let rdp := fieldOf h 4 2 + 8
  let rsp := fieldOf h 9 7 + 8
  let rd := fieldOf h 11 7
  let rs2 := fieldOf h 6 2
  let imm6 := fieldOf h 12 12 * 32 + fieldOf h 6 2
  let offJ := sext 12 (fieldOf h 12 12 * 2 ^ 11 + fieldOf h 11 11 * 2 ^ 4 + fieldOf h 10 9 * 2 ^ 8 +
    fieldOf h 8 8 * 2 ^ 10 + fieldOf h 7 7 * 2 ^ 6 + fieldOf h 6 6 * 2 ^ 7 + fieldOf h 5 3 * 2 + fieldOf h 2 2 * 2 ^ 5)
  let offB := sext 9 (fieldOf h 12 12 * 2 ^ 8 + fieldOf h 11 10 * 2 ^ 3 + fieldOf h 6 5 * 2 ^ 6 +
    fieldOf h 4 3 * 2 + fieldOf h 2 2 * 2 ^ 5)
  let offW := BitVec.ofNat 32 (fieldOf h 12 10 * 2 ^ 3 + fieldOf h 6 6 * 2 ^ 2 + fieldOf h 5 5 * 2 ^ 6)
  match fieldOf h 1 0, fieldOf h 15 13 with
  | 0, 0 =>
    let z := fieldOf h 12 11 * 2 ^ 4 + fieldOf h 10 7 * 2 ^ 6 + fieldOf h 6 6 * 2 ^ 2 + fieldOf h 5 5 * 2 ^ 3
    if z = 0 then .illegal else .opImm 0 rdp 2 false (BitVec.ofNat 32 z)
  | 0, 2 => .load 2 rdp rsp offW
  | 0, 6 => .store 2 rsp rdp offW
  | 1, 0 => .opImm 0 rd rd false (sext 6 imm6)
  | 1, 1 => .jal 1 offJ
  | 1, 2 => .opImm 0 rd 0 false (sext 6 imm6)
  | 1, 3 =>
    if rd = 2 then
      let z := fieldOf h 12 12 * 2 ^ 9 + fieldOf h 6 6 * 2 ^ 4 + fieldOf h 5 5 * 2 ^ 6 + fieldOf h 4 3 * 2 ^ 7 +
        fieldOf h 2 2 * 2 ^ 5
      if z = 0 then .illegal else .opImm 0 2 2 false (sext 10 z)
    else if imm6 = 0 then .illegal
    else .lui rd (sext 18 (imm6 * 2 ^ 12))
  | 1, 4 =>
    match fieldOf h 11 10 with
    | 0 => if fieldOf h 12 12 = 0 then .opImm 5 rsp rsp false (BitVec.ofNat 32 rs2) else .illegal
    | 1 => if fieldOf h 12 12 = 0 then .opImm 5 rsp rsp true (BitVec.ofNat 32 rs2) else .illegal
    | 2 => .opImm 7 rsp rsp false (sext 6 imm6)
    | _ =>
      if fieldOf h 12 12 ≠ 0 then .illegal
      else match fieldOf h 6 5 with
        | 0 => .op 0 rsp rsp rdp true
        | 1 => .op 4 rsp rsp rdp false
        | 2 => .op 6 rsp rsp rdp false
        | _ => .op 7 rsp rsp rdp false
  | 1, 5 => .jal 0 offJ
  | 1, 6 => .branch 0 rsp 0 offB
  | 1, 7 => .branch 1 rsp 0 offB
  | 2, 0 => if fieldOf h 12 12 = 0 then .opImm 1 rd rd false (BitVec.ofNat 32 rs2) else .illegal
  | 2, 2 =>
    if rd = 0 then .illegal
    else .load 2 rd 2 (BitVec.ofNat 32 (fieldOf h 12 12 * 2 ^ 5 + fieldOf h 6 4 * 2 ^ 2 + fieldOf h 3 2 * 2 ^ 6))
  | 2, 4 =>
    if fieldOf h 12 12 = 0 then
      (if rs2 = 0 then (if rd = 0 then .illegal else .jalr 0 rd 0) else .op 0 rd 0 rs2 false)
    else if rs2 = 0 then (if rd = 0 then .ebreak else .jalr 1 rd 0)
    else .op 0 rd rd rs2 false
  | 2, 6 => .store 2 2 rs2 (BitVec.ofNat 32 (fieldOf h 12 9 * 2 ^ 2 + fieldOf h 8 7 * 2 ^ 6))
  | _, _ => .illegal

/-- A fetch (Table 6-3): the instruction, its bits and its length, or the address whose fetch faults. -/
inductive Fetch where
  | ok (i : Rv) (bits : Word) (len : Nat)
  | fault (addr : Word)
deriving DecidableEq, Repr

/-- Fetch at the pc. -/
def Block.fetch (b : Block) : Fetch :=
  let pc := b.core.pc
  if 0x10000 ≤ pc.toNat then .fault pc
  else
    let lo := leNat (b.imem.rdN pc.toNat 2)
    if lo % 4 ≠ 3 then .ok (decode16 (BitVec.ofNat 32 lo)) (BitVec.ofNat 32 lo) 2
    else if 0x10000 ≤ pc.toNat + 2 then .fault (pc + 2)
    else
      let w : Word := BitVec.ofNat 32 (lo + 2 ^ 16 * leNat (b.imem.rdN (pc.toNat + 2) 2))
      .ok (decode32 w) w 4

/-- Integer register read; x0 reads 0. -/
def Core.get (c : Core) (r : Nat) : Word := if r % 32 = 0 then 0 else c.x.get wordZero (r % 32)
/-- Integer register write; x0 discards. -/
def Core.set (c : Core) (r : Nat) (v : Word) : Core :=
  if r % 32 = 0 then c else { c with x := c.x.put wordZero (r % 32) v }

/-- Two's-complement value of a word. -/
abbrev sgn (w : Word) : Int := w.toInt

/-- OP and OP-IMM. -/
def alu (f3 : Nat) (alt : Bool) (a v : Word) : Word :=
  match f3 with
  | 0 => if alt then a - v else a + v
  | 1 => a <<< (v.toNat % 32)
  | 2 => if a.toInt < v.toInt then 1 else 0
  | 3 => if a.toNat < v.toNat then 1 else 0
  | 4 => a ^^^ v
  | 5 => if alt then a.sshiftRight (v.toNat % 32) else a >>> (v.toNat % 32)
  | 6 => a ||| v
  | _ => a &&& v

/-- The M extension, with its results for division by zero and overflow (Table 6-1). -/
def mulDiv (f3 : Nat) (a v : Word) : Word :=
  match f3 with
  | 0 => a * v
  | 1 => BitVec.ofInt 32 (a.toInt * v.toInt / 2 ^ 32)
  | 2 => BitVec.ofInt 32 (a.toInt * v.toNat / 2 ^ 32)
  | 3 => BitVec.ofNat 32 (a.toNat * v.toNat / 2 ^ 32)
  | 4 => if v = 0 then 0xFFFFFFFF else BitVec.ofInt 32 (a.toInt.tdiv v.toInt)
  | 5 => if v = 0 then 0xFFFFFFFF else BitVec.ofNat 32 (a.toNat / v.toNat)
  | 6 => if v = 0 then a else BitVec.ofInt 32 (a.toInt.tmod v.toInt)
  | _ => if v = 0 then a else BitVec.ofNat 32 (a.toNat % v.toNat)

/-- Is the branch taken? -/
def taken (f3 : Nat) (a v : Word) : Bool :=
  match f3 with
  | 0 => a == v
  | 1 => a != v
  | 4 => decide (a.toInt < v.toInt)
  | 5 => decide (v.toInt ≤ a.toInt)
  | 6 => decide (a.toNat < v.toNat)
  | _ => decide (v.toNat ≤ a.toNat)

/-- Take an exception (R169): save the pc and cause, set INTRAP, fetch from mtvec; with INTRAP set already, a double
fault halts the core, writes record 0x24 and tears the context down. -/
def Block.trap (e : Env) (b : Block) (cause : Nat) (val : Word) : Block :=
  if b.core.inTrap then
    let b := { b with core := { b.core with mode := .halted } }
    (b.set1 SC_CTL_DBLF).raise e
      { cls := 2, subtype := 0x24, level := 1, specific := cause + 2 ^ 32 * b.core.mepc.toNat, teardown := true }
  else
    { b with core := { b.core with
        mode := .running, mepc := b.core.pc &&& 0xFFFFFFFE, mcause := BitVec.ofNat 32 cause, mtval := val
        inTrap := true, pc := b.core.mtvec } }

/-- mtval of a cause: the address for causes 1, 4 to 7 and 24, the instruction bits for cause 2, else 0 (R169). -/
def trapVal (cause : Nat) (addr bits : Word) : Word :=
  if cause = 2 then bits
  else if cause = 1 ∨ cause = 4 ∨ cause = 5 ∨ cause = 6 ∨ cause = 7 ∨ cause = 24 then addr
  else 0

/-- The core retires an instruction: next pc, minstret (R167). -/
def Core.retire (c : Core) (pc : Word) : Core :=
  { c with
      mode := .running, pc := pc
      minstret := if c.mcountinhibit.getLsbD 2 then c.minstret else (c.minstret + 1) % 2 ^ 64 }

/-- The block's core retires an instruction. -/
def Block.retire (b : Block) (pc : Word) : Block := { b with core := b.core.retire pc }

/-- Write a register and retire. -/
def Block.retireRd (b : Block) (pc : Word) (rd : Nat) (v : Word) : Block :=
  ({ b with core := b.core.set rd v }).retire pc

/-! ## CSRs (Table 6-4) -/

/-- The low or high half of a 64-bit counter. -/
def halfOf (n : Nat) (hi : Bool) : Word := BitVec.ofNat 32 (if hi then n / 2 ^ 32 else n)

/-- Read a CSR; `none` for one that the core does not implement. -/
def Block.csrRead (e : Env) (b : Block) (n : Nat) : Option Word :=
  let c := b.core
  let hpm := (decide (0xB03 ≤ n) && decide (n ≤ 0xB1F)) || (decide (0xB83 ≤ n) && decide (n ≤ 0xB9F)) ||
    (decide (0x323 ≤ n) && decide (n ≤ 0x33F))
  match n with
  | 0x300 => some 0x1800
  | 0x301 => some 0x40801104
  | 0x304 => some 0
  | 0x344 => some 0
  | 0x305 => some c.mtvec
  | 0x320 => some c.mcountinhibit
  | 0x340 => some c.mscratch
  | 0x341 => some c.mepc
  | 0x342 => some c.mcause
  | 0x343 => some c.mtval
  | 0xB00 => some (halfOf c.mcycle false)
  | 0xB80 => some (halfOf c.mcycle true)
  | 0xB02 => some (halfOf c.minstret false)
  | 0xB82 => some (halfOf c.minstret true)
  | 0xC00 => some (halfOf c.mcycle false)
  | 0xC80 => some (halfOf c.mcycle true)
  | 0xC02 => some (halfOf c.minstret false)
  | 0xC82 => some (halfOf c.minstret true)
  | 0xF11 => some 0
  | 0xF12 => some 0
  | 0xF13 => some 0xB0
  | 0xF14 => some (BitVec.ofNat 32 e.blk)
  | 0x7C0 => some (BitVec.ofNat 32 ((if c.inTrap then 1 else 0) + (if c.cut then 2 else 0) + (if c.ovr then 4 else 0)))
  | 0x7C1 => some c.tfentry
  | 0x7C2 => some 0
  | 0xFC0 => some (BitVec.ofNat 32 c.tframe)
  | 0xFC1 => some (BitVec.ofNat 32 b.seq.q.length)
  | 0xFC2 => some (BitVec.ofNat 32 (if e.parcel = 0 then 0 else e.ctx))
  | _ => if hpm then some 0 else none

/-- A CSR whose access is RO in Table 6-4: the numbers of the read-only space, misa, mie, mip and the hpm counters and events. -/
def csrReadOnly (n : Nat) : Bool :=
  n / 2 ^ 10 == 3 || n == 0x301 || n == 0x304 || n == 0x344 || (decide (0xB03 ≤ n) && decide (n ≤ 0xB1F)) ||
    (decide (0xB83 ≤ n) && decide (n ≤ 0xB9F)) || (decide (0x323 ≤ n) && decide (n ≤ 0x33F))

/-- Replace the low or high half of a 64-bit counter. -/
def setHalf (n : Nat) (hi : Bool) (v : Word) : Nat :=
  if hi then n % 2 ^ 32 + 2 ^ 32 * v.toNat else n / 2 ^ 32 * 2 ^ 32 + v.toNat

/-- TERR_WRITE (R185): a software record, 0x22, or 0x23 with the teardown that bit 16 requests. Bits [31:17] "must be zero"; the spec
gives a write with one of them set no outcome, and the model ignores them (DESIGN CHOICE, log 50). -/
def Block.terrWrite (e : Env) (b : Block) (v : Word) : Block :=
  let t := v.getLsbD 16
  b.raise e { cls := 2, subtype := if t then 0x23 else 0x22, level := 1, specific := bitsOf v 15 0, teardown := t }

/-- Write a CSR (Table 6-4, Table 6-5): read-only fields keep their value. -/
def Block.csrWrite (e : Env) (b : Block) (n : Nat) (v : Word) : Block :=
  let c := b.core
  match n with
  | 0x305 => { b with core := { c with mtvec := v &&& 0xFFFFFFFC } }
  | 0x320 => { b with core := { c with mcountinhibit := v &&& 5 } }
  | 0x340 => { b with core := { c with mscratch := v } }
  | 0x341 => { b with core := { c with mepc := v &&& 0xFFFFFFFE } }
  | 0x342 => { b with core := { c with mcause := v } }
  | 0x343 => { b with core := { c with mtval := v } }
  | 0xB00 => { b with core := { c with mcycle := setHalf c.mcycle false v } }
  | 0xB80 => { b with core := { c with mcycle := setHalf c.mcycle true v } }
  | 0xB02 => { b with core := { c with minstret := setHalf c.minstret false v } }
  | 0xB82 => { b with core := { c with minstret := setHalf c.minstret true v } }
  | 0x7C0 => { b with core := { c with cut := v.getLsbD 1 } }
  | 0x7C1 => { b with core := { c with tfentry := v &&& 0xFFFFFFFE } }
  | 0x7C2 => b.terrWrite e v
  | _ => b

/-! ## Loads and stores (Table 6-3) -/

/-- What a data access names. -/
inductive Place where
  | ldata (a : Nat)
  | spad (a : Nat)
  | page (o : Nat)
  | none
deriving DecidableEq, Repr

/-- The place of an address. -/
def placeOf (a : Word) : Place :=
  let n := a.toNat
  if 0x10000 ≤ n ∧ n < 0x12000 then .ldata (n - 0x10000)
  else if 0x200000 ≤ n ∧ n < 0x400000 then .spad (n - 0x200000)
  else if 0x400000 ≤ n ∧ n < 0x401000 then .page (n - 0x400000)
  else .none

/-- The slot of a configured ring that holds byte address `a` (R137). -/
def Block.slotAt (b : Block) (a : Nat) : Option (Nat × Nat) :=
  (List.range 32).findSome? (fun r =>
    let lo := b.slotAddr r 0
    if b.ringOn r ∧ lo ≤ a ∧ a < lo + b.ringSlots r * b.slotSize r then some (r, (a - lo) / b.slotSize r) else none)

/-- The result of a load: data, a stall on an empty slot, or an exception cause. -/
inductive LoadRes where
  | data (b : Block) (v : Nat)
  | stall (ring slot : Nat)
  | trap (b : Block) (cause : Nat)

/-- Load `n` bytes at address `a` (R137, R158, R161, R166). Where an address is both misaligned and outside what a load can read, the
spec gives no priority; the model raises the misalignment, cause 4 (DESIGN CHOICE, log 51). -/
def Block.loadAt (e : Env) (b : Block) (a : Word) (n : Nat) : LoadRes :=
  if a.toNat % n ≠ 0 then .trap b 4
  else match placeOf a with
    | .ldata o => .data b (leNat (b.ldata.rdN o n))
    | .spad o =>
      if b.granule (granuleOf o) ≠ 0 then .trap b 5
      else
        let go : LoadRes :=
          let r := b.eccRead e (o / 4 * 4) (o / 4 * 4 + 4)
          let b := r.1.count e 0x021 (some e.parcel)
          if r.2 then .trap b 5 else .data b (leNat (b.spm.rdN o n))
        match b.slotAt o with
        | some (ring, slot) => if b.slotFull ring slot then go else .stall ring slot
        | none => go
    | .page o => if n = 4 then (let r := b.pageRead e o; .data r.1 r.2.toNat) else .trap b 5
    | .none => .trap b 5

/-- Store `n` bytes at address `a`: the block, or an exception cause (R161, R166). The store buffer of R165 is in
program order with every access of the core, so a store takes effect at once. A store that is both misaligned and outside what a
store can write raises the misalignment, cause 6 (DESIGN CHOICE, log 51). -/
def Block.storeAt (e : Env) (b : Block) (a : Word) (n v : Nat) : Block ⊕ Nat :=
  if a.toNat % n ≠ 0 then .inr 6
  else match placeOf a with
    | .ldata o => .inl { b with ldata := b.ldata.wrN o (leBytes n v) }
    | .spad o =>
      if b.granule (granuleOf o) ≠ 0 then .inr 7
      else .inl (({ b with spm := b.spm.wrN o (leBytes n v) }).count e 0x021 (some e.parcel))
    | .page o =>
      if n = 4 then .inl (if o = 0x124 ∨ o = 0x128 then b else b.pageWrite e o (BitVec.ofNat 32 v)) else .inr 7
    | .none => .inr 7

/-- Extend a loaded value by funct3. -/
def extendLoad (f3 v : Nat) : Word :=
  match f3 with
  | 0 => sext 8 v
  | 1 => sext 16 v
  | _ => BitVec.ofNat 32 v

/-! ## One instruction -/

/-- The core's consumer number on ring `r` (Table 6-18). -/
def Block.coreCons (b : Block) (r : Nat) : Nat :=
  bitsOf (b.regs.word .block (0x130 + 4 * (r / 16))) (2 * (r % 16) + 1) (2 * (r % 16))

/-- Does the check unit take TCRC bytes now (R182): room in the buffer and no check command running? -/
def Block.chkRoom (b : Block) (n : Nat) : Bool := !b.chkRunning && decide (b.chk.buf.length + n ≤ 16)

/-- Execute one decoded instruction of length `len` (R163 to R173). An instruction that waits leaves the pc where it
is; TFRAME waits behind itself and retires at beat 0. A write of minstret takes the place of that instruction's own count. A TPUSH
whose address is both misaligned and outside local data raises the misalignment (DESIGN CHOICE, log 51). -/
def Block.exec1 (e : Env) (b : Block) (i : Rv) (bits : Word) (len : Nat) : Block :=
  let c := b.core
  let pc := c.pc
  let nx := pc + BitVec.ofNat 32 len
  let ill := b.trap e 2 bits
  match i with
  | .lui rd imm => b.retireRd nx rd imm
  | .auipc rd imm => b.retireRd nx rd (pc + imm)
  | .jal rd off => b.retireRd (pc + off) rd nx
  | .jalr rd rs1 off => b.retireRd ((c.get rs1 + off) &&& 0xFFFFFFFE) rd nx
  | .branch f3 rs1 rs2 off => b.retire (if taken f3 (c.get rs1) (c.get rs2) then pc + off else nx)
  | .load f3 rd rs1 off =>
    let a := c.get rs1 + off
    match b.loadAt e a (2 ^ (f3 % 4)) with
    | .data b v => b.retireRd nx rd (extendLoad f3 v)
    | .stall ring slot => { b with core := { c with mode := .stall ring slot a } }
    | .trap b cause => b.trap e cause (trapVal cause a bits)
  | .store f3 rs1 rs2 off =>
    let a := c.get rs1 + off
    match b.storeAt e a (2 ^ f3) (c.get rs2).toNat with
    | .inl b => b.retire nx
    | .inr cause => b.trap e cause (trapVal cause a bits)
  | .opImm f3 rd rs1 alt imm => b.retireRd nx rd (alu f3 alt (c.get rs1) imm)
  | .op f3 rd rs1 rs2 alt => b.retireRd nx rd (alu f3 alt (c.get rs1) (c.get rs2))
  | .mul f3 rd rs1 rs2 => b.retireRd nx rd (mulDiv f3 (c.get rs1) (c.get rs2))
  | .nop => b.retire nx
  | .ecall => b.trap e 11 0
  | .ebreak => b.trap e 3 0
  | .mret => ({ b with core := { c with inTrap := false } }).retire c.mepc
  | .csr f3 rd rs1 n =>
    let src : Word := if 4 ≤ f3 then BitVec.ofNat 32 rs1 else c.get rs1
    let wr := f3 % 4 = 1 ∨ rs1 ≠ 0
    match b.csrRead e n with
    | none => ill
    | some old =>
      if wr ∧ csrReadOnly n then ill
      else
        let v := match f3 % 4 with
          | 1 => src
          | 2 => old ||| src
          | _ => old &&& ~~~src
        let b := if wr then b.csrWrite e n v else b
        if wr ∧ (n = 0xB02 ∨ n = 0xB82) then { b with core := { b.core.set rd old with mode := .running, pc := nx } }
        else b.retireRd nx rd old
  | .tpush rs1 imm =>
    let a := c.get rs1 + imm
    if a.toNat % 16 ≠ 0 then b.trap e 4 a
    else match placeOf a with
      | .ldata o =>
        if 32 ≤ b.seq.q.length then b
        else
          let ws := wordsOf 4 (b.ldata.rdN o 16)
          let cmd : Cmd := ⟨ws.getD 0 0, ws.getD 1 0, ws.getD 2 0, ws.getD 3 0⟩
          (b.push e cmd).retire nx
      | _ => b.trap e 5 a
  | .tfull rs1 rs2 =>
    let r := (c.get rs1).toNat % 32
    let w := c.get rs2
    if !b.ringOn r then ill
    else ((b.markFull e r (b.fillPos r) { hdr := hdrOfRs2 w })).retire nx
  | .trel rs1 =>
    let r := (c.get rs1).toNat % 32
    let k := b.coreCons r
    if !b.ringOn r || k == 0 then ill else (b.release e r (b.takePos r k) k).retire nx
  | .taddrT rd rs1 =>
    let r := (c.get rs1).toNat % 32
    let k := b.coreCons r
    if !b.ringOn r || k == 0 then ill
    else b.retireRd nx rd (BitVec.ofNat 32 (0x200000 + b.slotAddr r (b.takePos r k)))
  | .taddrF rd rs1 =>
    let r := (c.get rs1).toNat % 32
    if !b.ringOn r then ill else b.retireRd nx rd (BitVec.ofNat 32 (0x200000 + b.slotAddr r (b.fillPos r)))
  | .tfence => if b.seq.q.isEmpty then b.retire nx else b
  | .tframe rd => { b with core := { c with mode := .frame rd, pc := nx } }
  | .tcrc n rs1 =>
    if b.chkRoom n then
      let bs := leBytes n (c.get rs1).toNat
      ({ b with chk := { b.chk with buf := b.chk.buf ++ bs } }).retire nx
    else b
  | .illegal => ill

/-- May the core execute an instruction now: running, or stalled in a load that is tried again? -/
def CoreMode.runs : CoreMode → Bool
  | .running => true
  | .stall .. => true
  | _ => false

/-- The instruction at the pc, when the core runs and the fetch succeeds. -/
def Block.nextInstr (b : Block) : Option Rv :=
  if b.core.mode.runs then
    match b.fetch with
    | .ok i _ _ => some i
    | .fault _ => none
  else none

/-- One step of the core: fetch at the pc, execute; a fetch outside instruction memory takes cause 1, a double fault
when the handler's first fetch faults (R169). -/
def Block.coreStep (e : Env) (b : Block) : Block :=
  if b.core.mode.runs then
    match b.fetch with
    | .ok i bits len => b.exec1 e i bits len
    | .fault a => b.trap e 1 a
  else b

/-- SLOT_LOAD_TIMEOUT (R137): the stalled load ends with cause 24, LTMO, record 0x12 and SP_LAST. TMO = 0 never times
out, unless a control forces it (R535). -/
def Block.loadTimeout (e : Env) (b : Block) (forced : Bool) : Block :=
  match b.core.mode with
  | .stall ring slot a =>
    if b.slotFull ring slot then b
    else if !forced && b.rd SP_RING_TMO_TMO ring == 0 then b
    else
      let b := (b.set1 SP_STAT_LTMO).spBreach { e with inj := e.inj || forced } 0x12 ring slot false
      b.trap e 24 a
  | _ => b

end Sys2Proof.Machine
end

