-- ==== Sys2Proof/Machine/Bar0.lean ====
section
/-!
DEFINITION. What a read through a function's BAR0 returns (00_scope.md R5 to R7, 01 R28, 02 R35, R36, 11 R332, 13 R392, 15 R422,
20 R527, 23_address_map.md R567, R568), and the device addresses of the MC (00 R11, 23 R570, R571).
-/
namespace Sys2Proof.Machine

/-! ## Event counters -/

/-- Change a counter. -/
def State.updEvc (s : State) (f : Evc → Evc) : CtrAt → State
  | .block k i => if i < 4 then s.setBlock k { s.block k with evcs := (s.block k).evcs.upd evcZero i f } else s
  | .region n i => if i < 16 then s.setRegion n { s.region n with evcs := (s.region n).evcs.upd evcZero i f } else s
  | .hub i => if i < 32 then { s with evcs := s.evcs.upd evcZero i f } else s

/-- A counter. -/
def State.evcAt (s : State) : CtrAt → Evc
  | .block k i => (s.block k).evcs.get evcZero i
  | .region n i => (s.region n).evcs.get evcZero i
  | .hub i => s.evcs.get evcZero i

/-- Does a read of the counter's page reach it? -/
def State.evcThere (s : State) : CtrAt → Bool
  | .block k _ => s.reaches k
  | .region n _ => decide (n < 24)
  | .hub _ => true

/-- A read of EVC_LO latches the count's high bits (20 R527). -/
def State.evcLo (s : State) (c : CtrAt) : State × Word :=
  (s.updEvc (fun c => { c with hi := c.cnt / 2 ^ 32 }) c, BitVec.ofNat 32 (s.evcAt c).cnt)

/-- A read of EVC_SNAP_LO latches the snapshot's high bits (20 R527). -/
def State.evcSnapLo (s : State) (c : CtrAt) : State × Word :=
  (s.updEvc (fun c => { c with snapHi := c.snap / 2 ^ 32 }) c, BitVec.ofNat 32 (s.evcAt c).snap)

/-! ## The hub -/

/-- FRM_POS.PART (02 Table 2-8): 0 the boundary gap, 1 the working span, 2 from the nominal reserve start on. -/
def State.framePart (s : State) : Nat :=
  if !s.frame.running || s.frame.realign.isSome || decide (s.frame.pos < 200) then 0
  else if s.frame.pos < s.frame.len - s.res then 1 else 2

/-- FRM_POS (02 Table 2-8, R37). -/
def State.framePos (s : State) : Word := BitVec.ofNat 32 (s.frame.pos % 2 ^ 19 + 2 ^ 19 * s.framePart)

/-- A read of FRM_NUM_LO latches the frame number's high bits (02 R36). -/
def State.frmNumLo (s : State) : State × Word :=
  ({ s with frame := { s.frame with hi := s.frame.num / 2 ^ 32 } }, BitVec.ofNat 32 s.frame.num)

/-- A read of CUT_FRAME_LO latches the high bits of F (11 R332). -/
def State.cutFrameLo (s : State) : State × Word :=
  ({ s with plat := { s.plat with cutHi := s.plat.cutShow / 2 ^ 32 } }, BitVec.ofNat 32 s.plat.cutShow)

/-- A read of CR_LAST_LO of a ring latches bits [63:32] (13 R392). -/
def State.crLastLo (s : State) (fn r : Nat) : State × Word :=
  (s.setRing fn r { s.ring fn r with lastHi := (s.ring fn r).rd CR_LAST_HI_SER }, BitVec.ofNat 32 ((s.ring fn r).rd CR_LAST_LO_SER))

/-- A read of the register at `o` of ring `r`. -/
def State.ringRead (s : State) (fn r o : Nat) : State × Word :=
  if o = 0x18 then s.crLastLo fn r
  else if o = 0x1C then (s, BitVec.ofNat 32 (s.ring fn r).lastHi)
  else (s, (s.ring fn r).regs.softRead .ring o)

/-- The register table of a hub offset. -/
def hubUnit (a : Nat) : RegUnit :=
  match a / 0x1000 with
  | 2 => if a < 0x2100 then .frame else .hub
  | 5 => .plat
  | 8 => .power
  | 9 => .mon
  | 0xA => .err
  | 0xB => .ctx
  | 0xD => .pert
  | _ => .hub

/-- A read of the hub register at `a` by PF `fn` (23 Table 23-1). -/
def State.hubRead (s : State) (fn a : Nat) : State × Word :=
  if a = 0x2014 then s.frmNumLo
  else if a = 0x2018 then (s, BitVec.ofNat 32 s.frame.hi)
  else if a = 0x201C then (s, s.framePos)
  else if a = 0x5014 then s.cutFrameLo
  else if a = 0x5018 then (s, BitVec.ofNat 32 s.plat.cutHi)
  else if 0x6100 ≤ a ∧ a < 0x6700 then (s, (s.port ((a - 0x6100) / 0x40)).regs.softRead .port ((a - 0x6100) % 0x40))
  else if a = 0x7008 then (s, BitVec.ofNat 32 (s.fn fn).b2)
  else if a = 0x700C then (s, BitVec.ofNat 32 ((s.fn fn).b2 / 2 ^ 32))
  else if 0x7180 ≤ a ∧ a < 0x7198 then (s, (s.fn fn).book.softRead .book (a - 0x7180))
  else if 0x7200 ≤ a ∧ a < 0x7400 then s.ringRead fn ((a - 0x7200) / 0x40) ((a - 0x7200) % 0x40)
  else if 0xC000 ≤ a ∧ a < 0xC200 then
    (if a % 16 = 4 then s.evcLo (.hub ((a - 0xC000) / 16)) else (s, (s.evcAt (.hub ((a - 0xC000) / 16))).readReg (a % 16)))
  else if 0xC200 ≤ a ∧ a < 0xC300 then
    (if a % 8 = 0 then s.evcSnapLo (.hub ((a - 0xC200) / 8)) else (s, (s.evcAt (.hub ((a - 0xC200) / 8))).readSnap 4))
  else (s, (s.hub.of (hubUnit a)).softRead (hubUnit a) a)

/-! ## Region windows and block pages -/

/-- WO fields of an assigned register read zero (00 R6). -/
def maskRead (u : RegUnit) (o : Nat) (v : Word) : Word :=
  (rowsAt u o).foldl (fun w row => if row.acc = .wo then w &&& ~~~bitMask row.field.hi row.field.lo else w) v

/-- A read in region `n`'s window: a slot without a segment, and XSEG_SPARE of a vertical one, read 0 (08 R254); the page of an
absent block, or of one in a retained domain, reads all ones (01 R28, 15 R422). -/
def State.regionRead (s : State) (n o : Nat) : State × Word :=
  if o < 0x40000 then
    if segDead n o then (s, 0)
    else
      let r := (s.region n).pageRead o
      (s.setRegion n r.1, maskRead .region o r.2)
  else
    let k := chipBlk n ((o - 0x40000) / 0x1000)
    if 192 ≤ (o - 0x40000) / 0x1000 then (s, 0)
    else if !s.reaches k then (s, 0xFFFFFFFF)
    else
      let r := (s.block k).pageRead (s.env k 0) (o % 0x1000)
      (s.setBlock k r.1, maskRead .block (o % 0x1000) r.2)

/-! ## BAR0 of a function -/

/-- A read in a VF's BAR0 (13 Table 13-14): every offset that names no register reads zero. -/
def State.vfRead (s : State) (fn a : Nat) : State × Word :=
  if a < 0x10 then (s, (s.fn fn).vf.softRead .vf a)
  else if a = 0x10 then (s, BitVec.ofNat 32 (s.fn fn).b2)
  else if a = 0x14 then (s, BitVec.ofNat 32 ((s.fn fn).b2 / 2 ^ 32))
  else if 0x80 ≤ a ∧ a < 0x98 then (s, (s.fn fn).book.softRead .book (a - 0x80))
  else if 0x100 ≤ a ∧ a < 0x180 then s.ringRead fn ((a - 0x100) / 0x40) ((a - 0x100) % 0x40)
  else (s, 0)

/-- An aligned 32-bit read through the BAR0 of function `fn` (R5, R567). -/
def State.bar0Word (s : State) (fn a : Nat) : State × Word :=
  if !isPf fn then s.vfRead fn a
  else if a < 0x1000000 then s.hubRead fn a
  else if a < 0x2800000 then s.regionRead ((a - 0x1000000) / 0x100000) ((a - 0x1000000) % 0x100000)
  else (s, 0)

/-- A read of `size` bytes through BAR0 (R5): an aligned 64-bit read is two of 32 bits, the lower address first; a read of another
size or alignment returns 0xFFFF_FFFF. The table has rows for the reads that latch only (DEDUCED, log 82). -/
def State.bar0Read (s : State) (fn a size : Nat) : State × List Word :=
  if size = 4 ∧ a % 4 = 0 then ((s.bar0Word fn a).1, [(s.bar0Word fn a).2])
  else if size = 8 ∧ a % 8 = 0 then
    let lo := s.bar0Word fn a
    let hi := lo.1.bar0Word fn (a + 4)
    (hi.1, [lo.2, hi.2])
  else (s, [0xFFFFFFFF])

/-! ## Device addresses (00 R11, 23 R570, R571) -/

/-- What a 48-bit device address names: the stores come before stack 15's range, which contains theirs (R570). -/
def devPlace (a : Nat) : HostPlace :=
  if 0xF000000000 ≤ a ∧ a < 0xF000000000 + 24 * 0x4000000 then
    .store ((a - 0xF000000000) / 0x4000000) ((a - 0xF000000000) % 0x4000000)
  else if a < 24 * 0x1000000000 ∧ a % 0x1000000000 < 0x900000000 then .stack (a / 0x1000000000) (a % 0x1000000000)
  else .none

/-- A read by the MC of `n` bytes of one line at a device address: an unbacked one gives all ones and is counted (Table 23-4). -/
def State.mcRead (s : State) (a n : Nat) : State × List Byte :=
  match devPlace a with
  | .stack m o => (s.onRegion m 0 (fun e g => (g.stkBad o (o + n)).foldl (Region.stkOne e false) g), (s.region m).stack.rdN o n)
  | .store m o => (s.onRegion m 0 (fun e g => (g.rsEcc e o (o + n)).1), (s.region m).store.rdN o n)
  | .none => (s.discard, List.replicate n 0xFF)

/-- A write by the MC of bytes of one line at a device address: one to an unbacked address is discarded and counted. -/
def State.mcWrite (s : State) (a : Nat) (bs : List Byte) : State :=
  match devPlace a with
  | .stack m o => s.onRegion m 0 (fun _ g => g.stkWrite o bs false)
  | .store m o => s.onRegion m 0 (fun _ g => g.rsWrite o bs)
  | .none => s.discard

end Sys2Proof.Machine
end

