-- ==== Sys2Proof/Machine/HostCmds.lean ====
section
/-!
DEFINITION. The commands of the host interface (13_host_interface.md R371 to R392): doorbells, items, DMA, host drives,
completions, flush, disable, BAR2, field books, function resets, links, MSI-X.
-/
namespace Sys2Proof.Machine

/-- DOORBELL (R374, R378): a write of CR_DB with the slots produced; beyond the ring size it puts the ring in error. -/
def execDoorbell (fn ring : Nat) (v : Word) (s : State) : Host.Outcome State Fault Refusal :=
  let x := s.ring fn ring
  if !x.bit CR_CTL_EN then .next s
  else if x.slots < (v.toNat + 2 ^ 32 - x.rd CR_CI_CI) % 2 ^ 32 then .next (s.ringError fn ring 2)
  else .next (s.setRing fn ring { x with pi := v.toNat })

/-- May the ring begin an item now: enabled, ready, no error, no flush or disable under way, not in D3hot, a slot unread? -/
def State.canBegin (s : State) (fn r : Nat) : Bool :=
  let x := s.ring fn r
  s.ready && x.bit CR_CTL_EN && x.rd CR_STAT_ERR == 0 && !x.flush && !x.closing && !(s.fn fn).d3 && decide (1 ≤ x.unread)

/-- ITEM_BEGIN (R376 to R379): the item at CR_CI, whose slots read as `bytes` (`none`: the read failed). -/
def execItemBegin (fn ring : Nat) (bytes : Option (List Byte)) (s : State) : Host.Outcome State Fault Refusal :=
  let x := s.ring fn ring
  if !s.canBegin fn ring then .next s
  else
    match bytes with
    | none => .next (s.ringError fn ring 3)
    | some bs =>
      let i := Item.parse (x.rd CR_CI_CI % x.slots) bs
      if i.nslots = 0 ∨ 8 < i.nslots then .next (s.ringError fn ring 1)
      else if x.unread < i.nslots ∨ (i.fence ∧ !x.items.isEmpty) ∨ x.ents < x.used + x.items.length + 1 then .next s
      else
        let y := x.wr CR_CI_CI ((x.rd CR_CI_CI + i.nslots) % 2 ^ 32)
        if i.serial ≤ x.last then
          .next ((s.count 0x064 none).setRing fn ring ({ y with items := y.items ++ [{ i with done := some (1, 0) }] } : Ring).show)
        else
          let i : Item := { i with done := s.atOnce fn i }
          .next ((s.count 0x064 none).setRing fn ring ({ y.setLast i.serial with items := y.items ++ [i] } : Ring).show)

/-- NOP (R379): completes at begin. -/
def execNop (fn ring slot : Nat) (s : State) : Host.Outcome State Fault Refusal :=
  match s.running fn ring slot 0 with
  | none => .next s
  | some _ => .next (s.finish { fn := fn, ring := ring, slot := slot } 0 0)

/-- Apply the drive entries of an item from entry `i` on: the device, and the first trespassing entry. -/
def State.driveEntries (fn : Nat) (x : Item) : List Nat → State → Option Nat → State × Option Nat
  | [], s, t => (s, t)
  | i :: rest, s, t =>
    let o := 16 + 16 * i
    if x.num (o + 3) 1 % 2 = 0 then State.driveEntries fn x rest s t
    else
      let r := s.hostDrive fn (x.num o 2) (x.num (o + 2) 1) (x.num (o + 4) 2) (x.num (o + 6) 2)
        (x.num (o + 3) 1 / 2 % 2 == 1)
      State.driveEntries fn x rest r.1 (if r.2 && t.isNone then some i else t)

/-- STAKE_DRIVE (R381): the drives are made in entry order; a trespassing one is dropped and named in DETAIL. -/
def execStakeDrive (fn ring slot : Nat) (s : State) : Host.Outcome State Fault Refusal :=
  match s.running fn ring slot 1 with
  | none => .next s
  | some x =>
    let r := State.driveEntries fn x x.entries s none
    .next (r.1.finish { fn := fn, ring := ring, slot := slot } (if r.2.isSome then 6 else 0) (r.2.getD 0))

/-- DMA_TO_DEV (R380): `bytes` is what the reads of host memory gave, shorter than LEN when a read failed. -/
def execDmaToDev (fn ring slot : Nat) (bytes : List Byte) (s : State) : Host.Outcome State Fault Refusal :=
  match s.running fn ring slot 2 with
  | none => .next s
  | some x =>
    let ref : ItemRef := { fn := fn, ring := ring, slot := slot }
    let len := x.num 32 4
    let s := s.hostStore fn (x.num 24 8) (bytes.take len)
    if bytes.length < len then .next (s.finish ref 9 bytes.length)
    else if x.num 36 2 = 0xFFFF then .next (s.finish ref 0 0)
    else
      let r := s.hostDrive fn (x.num 36 2) (x.num 38 1) 0 (x.num 40 2) false
      .next (r.1.finish ref (if r.2 then 6 else 0) 0)

/-- DMA_FROM_DEV (R380): the lines go to host memory; a bad line does not end the transfer. -/
def execDmaFromDev (fn ring slot : Nat) (s : State) : Host.Outcome State Fault Refusal :=
  match s.running fn ring slot 3 with
  | none => .next s
  | some x =>
    let r := s.hostLoad fn (x.num 24 8) (x.num 32 4)
    let s := r.got.foldl (fun (s : State) c => s.hostWrite (x.num 16 8 + (c.1 - x.num 24 8)) c.2) r.s
    .next (s.finish { fn := fn, ring := ring, slot := slot } (if r.bad.isSome then 0x0A else 0) (r.bad.getD 0))

/-- The 16 bytes of a completion entry (Table 13-10) at ring position `k`. -/
def Item.completion (x : Item) (status detail ents k : Nat) : List Byte :=
  leBytes 8 x.serial ++ leBytes 4 detail ++ leBytes 2 x.slot ++ leBytes 1 status ++ leBytes 1 (if k / ents % 2 = 0 then 1 else 0)

/-- ITEM_COMPLETE (R382): the oldest item with an outcome writes its completion entry, when the completion ring has a free
entry, and may raise its vector. -/
def execItemComplete (fn ring : Nat) (s : State) : Host.Outcome State Fault Refusal :=
  let x := s.ring fn ring
  match x.items.findIdx? (fun (i : Item) => i.done.isSome) with
  | none => .next s
  | some k =>
    match x.items[k]? with
    | none => .next s
    | some i =>
      if x.ents ≤ x.used then .next s
      else
        let d := i.done.getD (0, 0)
        let t := x.rd CC_TAIL_TAIL
        let base := x.rd CC_BASE_LO_BASE * 4096 + x.rd CC_BASE_HI_BASE * 2 ^ 32
        let s := s.hostWrite (base + 16 * (t % x.ents)) (i.completion d.1 d.2 x.ents t)
        let y : Ring := { x.wr CC_TAIL_TAIL ((t + 1) % 2 ^ 32) with items := x.items.eraseIdx k }
        let s := s.setRing fn ring y.show.settle
        .next (if i.irq then s.vector fn (if isPf fn then x.rd CR_CTL_CPLVEC else ring) else s)

/-- RING_FLUSH (R383): CR_CTL written with FLUSH; `hdrs` are the headers of the items from CR_CI on, in ring order. -/
def execRingFlush (fn ring : Nat) (hdrs : List (List Byte)) (s : State) : Host.Outcome State Fault Refusal :=
  let x := s.ring fn ring
  if !x.bit CR_CTL_EN then .next s
  else
    let err := x.rd CR_STAT_ERR
    let ci := x.rd CR_CI_CI
    let es := if err = 1 ∨ err = 3 then [] else unbegun (ci + x.unread) 3 2 x.slots ci hdrs
    let y : Ring := { (x.wr CR_CI_CI x.pi).wr CR_STAT_ERR 0 with items := x.items ++ es, flush := !es.isEmpty }
    .next (s.setRing fn ring y.show)

/-- RING_DISABLE (R384): CR_CTL written with EN = 0; items that have not begun complete aborted, begun ones finish first. -/
def execRingDisable (fn ring : Nat) (v : Word) (hdrs : List (List Byte)) (s : State) : Host.Outcome State Fault Refusal :=
  let x := s.ring fn ring
  if CR_CTL_EN.on v then .next s
  else
    let x := if isPf fn then x.wr CR_CTL_CPLVEC (CR_CTL_CPLVEC.of v) else x
    if !x.bit CR_CTL_EN then .next (s.setRing fn ring { x with regs := x.regs.softWrite .ring true 8 v })
    else
      let err := x.rd CR_STAT_ERR
      let ci := x.rd CR_CI_CI
      let es := if err = 1 ∨ err = 3 then [] else unbegun (ci + x.unread) 0x0B 0x0B x.slots ci hdrs
      let y : Ring := { (x.wr CR_CI_CI x.pi).wr CR_STAT_ERR 0 with items := x.items ++ es, closing := true }
      .next (s.setRing fn ring y.show.settle)

/-- BAR2_ACCESS (R369 to R372, 23 R571): a request at offset `off` of the function's BAR2, each line on its own. -/
def execBar2Access (fn off : Nat) (req : Bar2Req) (s : State) : Host.Outcome State Fault Refusal :=
  let o := (s.fn fn).b2 + off
  match req with
  | .write bs =>
    .next (s.hostStore fn o bs |>.count 0x065 none ((cuts o bs.length).filter (fun c => s.judge fn c.1 == 0)).length)
  | .read n =>
    let r := s.hostLoad fn o n
    let s := r.s.count 0x065 none (r.ans.filter (fun a => a != .unsupported)).length
    .next { s with answer := .lines r.ans }
  | .poisoned n => .next (((cuts o n).foldl (fun (s : State) _ => s.discard) s).aer fn 2)

/-- FIELD_BOOK_WRITE (R387 to R389, 18 R475): a waiting record of the function's ring is written, or else the first record of
the hub error queue, fatal ones ahead, that an enabled ring receives leaves the queue and is generated for every such
ring. -/
def execFieldBookWrite (fn : Nat) (s : State) : Host.Outcome State Fault Refusal :=
  if s.err.wait.any (fun x => x.1 == fn) then .next (State.bookFlush fn 1 s)
  else if !(s.fn fn).bookOn || (s.fn fn).d3 then .next s
  else
    let mine (r : ErrRec) : Bool := r.book.receivers.contains fn
    let k := match s.err.q.findIdx? (fun r => r.fatal && mine r) with
      | some i => some i
      | none => s.err.q.findIdx? mine
    match k with
    | none => .next s
    | some i =>
      match s.err.q[i]? with
      | none => .next s
      | some r => .next ((({ s with err := { s.err with q := s.err.q.eraseIdx i } } : State).showQ).bookAll r.book)

/-! ## Function resets and links (R386, R391) -/

/-- A function level reset of a function, without its context (Table 13-18). -/
def State.fnReset (s : State) (fn : Nat) : State :=
  let s := { s with err := { s.err with wait := s.err.wait.filter (fun x => x.1 != fn) } }
  let s := s.setFn fn (fnZero fn)
  if isPf fn then s else s.showVf (fnParcel fn)

/-- FLR (R391): a VF's context is torn down with cause 0x3. -/
def execFlr (fn : Nat) (s : State) : Host.Outcome State Fault Refusal :=
  let s := s.fnReset fn
  .next (if isPf fn ∨ fnParcel fn = 0 then s else s.teardown (fnParcel fn) 3)

/-- LINK_DOWN: link down or hot reset of a PCI Express port (R391). -/
def execLinkDown (port : Nat) (s : State) : Host.Outcome State Fault Refusal :=
  let s := s.wr (if port = 0 then HIF_STAT_LINK0 else HIF_STAT_LINK1) 0
  .next ((List.range 17).foldl (fun s i => s.fnReset (17 * port + i)) s)

/-- LINK_UP (R367). -/
def execLinkUp (port : Nat) (s : State) : Host.Outcome State Fault Refusal :=
  .next (s.set1 (if port = 0 then HIF_STAT_LINK0 else HIF_STAT_LINK1))

/-- D3HOT (R391): no new item begins; records wait. -/
def execD3hot (fn : Nat) (s : State) : Host.Outcome State Fault Refusal :=
  .next (s.setFn fn { s.fn fn with d3 := true })

/-- POWER_STATE_D0 (R391): items may begin again, and waiting records are written. -/
def execPowerStateD0 (fn : Nat) (s : State) : Host.Outcome State Fault Refusal :=
  let s := s.setFn fn { s.fn fn with d3 := false }
  .next (State.bookFlush fn s.err.wait.length s)

/-- MSIX_VECTOR_UNMASK (R386): the host clears the mask; a set PBA bit sends its message. -/
def execMsixVectorUnmask (fn vec : Nat) (s : State) : Host.Outcome State Fault Refusal :=
  let f := s.fn fn
  let s := s.setFn fn { f with masked := setBitNat f.masked vec false, pending := setBitNat f.pending vec false }
  .next (if f.pending.testBit vec then { s with msgs := s.msgs ++ [(fn, vec)] } else s)

/-- CR_LAST_LO_READ (R392): the read latches bits [63:32]. -/
def execCrLastLoRead (fn ring : Nat) (s : State) : Host.Outcome State Fault Refusal :=
  .next { (s.crLastLo fn ring).1 with answer := .word (s.crLastLo fn ring).2 }

end Sys2Proof.Machine
end

