-- ==== Sys2Proof/Machine/PowerOps.lean ====
section
/-!
DEFINITION. Power delivery and control (15_power_delivery.md, 16_power_control_grade.md): domains and phases, the rates of the
limiters, the governor, the loss of the main input.
-/
namespace Sys2Proof.Machine

/-- A value in units of `u`, to the nearest (DESIGN CHOICE, log 24). -/
def nearest (x u : Nat) : Nat := (x + u / 2) / u

/-- The fused TDP in W (17 Table 17-4). -/
def State.tdp (s : State) : Nat := 10 * s.fuse.tdp

/-- A core domain's power-control state. -/
def State.dom (s : State) (d : Nat) : DomSt := s.pw.doms.get domZero d
/-- Put it back. -/
def State.setDom (s : State) (d : Nat) (x : DomSt) : State :=
  { s with pw := { s.pw with doms := s.pw.doms.put domZero d x } }

/-! ## Rates (16 R428, R429) -/

/-- QEFF of domain `k`, and FQ held at it (R428, R441). -/
def Region.showEff (g : Region) (k : Nat) : Region :=
  let q := max 1 (min (min (g.rd PCTL_DOM_QPH k) (g.rd PCTL_DOM_QI k))
    (min (g.rd PCTL_DOM_QT k) (min (g.rd PCTL_DOM_QC k) (g.rd PCTL_DOM_QG k))))
  (g.wr PCTL_DOM_QEFF q k).wr PCTL_FILL_FQ (min (g.rd PCTL_FILL_FQ k) q) k

/-- Note the rates of domain `4 n + k` for the sample (R447). -/
def State.noteRate (s : State) (n k : Nat) : State :=
  let g := s.region n
  let x := s.dom (4 * n + k)
  s.setDom (4 * n + k) { x with dip := x.dip || decide (g.rd PCTL_DOM_QEFF k < 16), qgTop := x.qgTop || g.rd PCTL_DOM_QG k == 16 }

/-- Time passes up to now for the blocks of a domain whose limiter changes its rate (03 R67). -/
def State.settleNow (s : State) (n k : Nat) : State := s.settleDomain n k (s.cycAt n s.frame.pos)

/-- Put region `n` back with a new rate of domain `k`'s limiter, which acts on its running tiles from now on. -/
def State.putRate (s : State) (n k : Nat) (g : Region) : State :=
  if g.rd PCTL_DOM_QEFF k = (s.region n).rd PCTL_DOM_QEFF k then s.setRegion n g
  else ((s.settleNow n k).setRegion n g).settleNow n k

/-- Set a ceiling of domain `k` of region `n`. -/
def State.setCeil (s : State) (f : Field) (n k v : Nat) : State :=
  (s.putRate n k (((s.region n).wr f v k).showEff k)).noteRate n k

/-- The limiter flags of GRD_STAT and THM_STAT (Table 16-7), and BOOST. -/
def State.showPower (s : State) : State :=
  let low (f : Field) : Nat :=
    if (List.range 24).any (fun n => (List.range 4).any (fun k => decide ((s.region n).rd f k < 16))) then 1 else 0
  let s := ((s.wr GRD_STAT_CAPLIM (low PCTL_DOM_QC)).wr GRD_STAT_ILIM (low PCTL_DOM_QI)).wr THM_STAT_THROT (low PCTL_DOM_QT)
  s.wr GRD_STAT_BOOST (if (List.range 24).any (fun n =>
    (s.region n).cur == 0 && !(s.region n).lost) then 1 else 0)

/-- The next `n` domains of a round robin at `at_`, and where it goes on (R436). -/
def nextDoms (at_ n : Nat) : List Nat × Nat := ((List.range n).map (fun i => (at_ + i) % 96), (at_ + n) % 96)

/-! ## Domains (15 R414 to R422) -/

/-- The rated current of domain `k` in mA (R414). -/
def Region.rated (g : Region) (k : Nat) : Nat := 32000 * bitsSet (g.rd PWR_DOM_STAT_PHOK k) 8

/-- A record of class power about domain `k` and phase `ph`. -/
def Region.powerRec (e : REnv) (g : Region) (sub k ph specific : Nat) : Region :=
  g.raise e { cls := 9, subtype := sub, level := 2, object := k + 2 ^ 8 * ph, objkind := 8, specific := specific }

/-- The 13/16 cap of a first phase out of service (R418). -/
def Region.capPhase (g : Region) (k : Nat) : Region := ((g.set1 PWR_DOM_STAT_CAP k).wr PCTL_DOM_QPH 13 k).showEff k

/-- The domain has no power: `state` 0 or 3. -/
def Region.unpower (g : Region) (k state : Nat) : Region :=
  let g := ((g.wr PWR_DOM_STAT_STATE state k).wr PWR_DOM_STAT_PHOK 0 k).wr PWR_DOM_STAT_VID 0 k
  (g.wr PCTL_FILL_FQ 0 k).wr PCTL_FILL_FBLK 0 k

/-- The domain goes dark (R419): its 48 blocks are fenced from step 7 of the next boundary gap. SPECIFIC names the phases
out of service (log 11). -/
def Region.goDark (e : REnv) (g : Region) (k ph : Nat) : Region :=
  let out := 255 - g.rd PWR_DOM_STAT_PHOK k
  let g := (g.unpower k 3).powerRec e 0xA3 k ph out
  (List.range 48).foldl (fun (g : Region) i => g.planFence (48 * k + i) 4) g

/-- PHASE_LOST in domain `k` (R418, R419, R425). -/
def Region.phaseLost (e : REnv) (g : Region) (k ph : Nat) : Region :=
  let ok := g.rd PWR_DOM_STAT_PHOK k
  let g := g.wr PWR_DOM_STAT_PHOK (setBitNat ok ph false) k
  if bitsSet ok 8 = 8 then (g.capPhase k).powerRec e 0xA1 k ph 0 else g.goDark e k ph

/-- The end of a domain's soft start, its passing phases in `ok` (Table 15-5 steps 5 and 6). -/
def Region.softEnd (e : REnv) (g : Region) (k ok : Nat) : Region :=
  let g := g.wr PWR_DOM_STAT_PHOK ok k
  if bitsSet ok 8 < 7 then g.goDark e k 0
  else
    let g := g.wr PWR_DOM_STAT_STATE 1 k
    let g := g.wr PWR_DOM_STAT_VID (g.vidAt e.grade k g.cur (g.rd PWR_DOM_CTL_OFS k)) k
    if bitsSet ok 8 = 7 then g.capPhase k else g

/-- A dark domain's blocks lose what the core domain holds; router, legs and registers are on the fabric rail (Table 15-6). -/
def Block.dark (b : Block) : Block :=
  { b with spm := [], ecc := [], imem := [], ldata := [], core := {}, seq := {}, tags := [], takes := [], held := [], luts := []
           stakes := [], driveq := [], chk := {} }

/-- The blocks of domain `k` of region `n`. -/
def domBlocks (n k : Nat) : List Nat := (List.range 48).map (fun i => chipBlk n (48 * k + i))

/-- Blocks of a domain that went dark. -/
def State.darkBlocks (s : State) (n k : Nat) : State :=
  (domBlocks n k).foldl (fun (s : State) x => s.setBlock x (s.block x).dark) s

/-- Has domain `k` of region `n` a member block of a parcel with an active context (R422)? -/
def State.domUsed (s : State) (n k : Nat) : Bool :=
  (domBlocks n k).any (fun x => (s.block x).bit BLK_STN_MEMBER && s.activeP ((s.block x).rd RT_CTL_PARCEL))

/-- A block enters retain (Table 15-6, R422): granules that are on go to retain. -/
def Block.retain (b : Block) : Block :=
  let old := b.rd SP_PWR_CUR
  let new := (List.range 8).foldl (fun m g => m + (if b.granule g = 0 then 1 else b.granule g) * 2 ^ (2 * g)) 0
  let core := { b.core with mode := .halted, x := [] }
  let b : Block := { b.wr SP_PWR_CUR new with granOld := old, core := core, held := [] }
  b.dropWork (fun _ => false)

/-- A block leaves retain (R422): what was lost holds values that the spec leaves open (log 3). -/
def Block.wake (free : Nat) (b : Block) : Block :=
  let x := (List.range 31).foldl (fun m i => SMap.put wordZero m (i + 1) (Config.freeWord (free + i))) ([] : SMap Word)
  let core := { b.core with mode := .running, x := x, pc := b.core.tfentry, inTrap := false }
  { b.wr SP_PWR_CUR b.granOld with granOld := 0, core := core, chk := { reg := Config.freeNat (free + 31) % 2 ^ 64 } }

/-- Step 7 for the state of domain `k` of region `n` (R422): retain takes effect; on starts the ramp, and the domain runs from the
next frame but one. -/
def State.domBoundary (s : State) (n k : Nat) : State :=
  let g := s.region n
  let st := g.rd PWR_DOM_STAT_STATE k
  let req := g.rd PWR_DOM_CTL_REQ k
  if st = 1 ∧ req = 2 then
    let s := s.setRegion n ((g.wr PWR_DOM_STAT_STATE 2 k).wr PWR_DOM_STAT_VID 40 k)
    (domBlocks n k).foldl (fun (s : State) x => s.setBlock x (s.block x).retain) s
  else if st = 2 ∧ req = 1 then
    match g.wakes.find? (fun x => x.1 == k) with
    | none =>
      let v := g.vidAt s.gradeIdx k g.cur (g.rd PWR_DOM_CTL_OFS k)
      let s := s.setRegion n { g with wakes := (k, s.frame.num + 2) :: g.wakes }
      s.onRegion n 0 (fun e g => if 72 < v then g.refuseVid e k else g.wr PWR_DOM_STAT_VID v k)
    | some w =>
      if s.frame.num < w.2 then s
      else
        let g : Region := { g with wakes := g.wakes.filter (fun x => x.1 != k) }
        let s := s.setRegion n (g.wr PWR_DOM_STAT_STATE 1 k)
        (domBlocks n k).foldl (fun (s : State) x =>
          ({ s with freeCtr := s.freeCtr + 32 } : State).setBlock x (Block.wake s.freeCtr (s.block x))) s
  else if st = 2 then
    s.setRegion n { (if g.wakes.any (fun x => x.1 == k) then g.wr PWR_DOM_STAT_VID 40 k else g) with
      wakes := g.wakes.filter (fun x => x.1 != k) }
  else s

/-- Hours of main power (17 R465). -/
def State.hours (s : State) : Nat := s.mc.hours0 + s.mc.mainMs / 3600000

/-- Is an ageing raise of domain `d` due (16 R449): at AGE below 4, at most once in 24 h? -/
def State.ageDue (s : State) (d age : Nat) : Bool :=
  let x := s.dom d
  x.agePend && decide (age < 4) && (match x.ageAt with
    | none => true
    | some t => decide (t + 86400000 ≤ s.mc.mainMs))

/-- Step 7 for the voltage of domain `k` of region `n`: a written OFS and a waiting ageing raise (15 R416, 16 R449, R450). A
region that steps gets its voltages with the step. -/
def State.vidBoundary (s : State) (n k : Nat) : State :=
  let g := s.region n
  if g.lost ∨ g.rd PWR_DOM_STAT_STATE k ≠ 1 ∨ g.bit RGN_CLK_STAT_COMMIT then s
  else
    let d := 4 * n + k
    let age := g.rd PWR_DOM_STAT_AGE k
    let ofs := g.rd PWR_DOM_CTL_OFS k
    let old := g.rd PWR_DOM_STAT_VID k
    let v := g.vidAt s.gradeIdx k g.cur ofs
    if s.ageDue d age then
      if v + 1 ≤ 72 then
        let s := s.setDom d { s.dom d with agePend := false, ageLow := 0, ageAt := some s.mc.mainMs }
        s.onRegion n 0 (fun e g =>
          (((g.wr PWR_DOM_STAT_AGE (age + 1) k).wr PWR_DOM_STAT_VID (v + 1) k).defect 0x10 2
            (n + 2 ^ 5 * k + 2 ^ 8 * (age + 1))).powerRec e 0xB2 k 0 (age + 1))
      else
        let s := if g.cur = 0 then s.setRegion n (g.reqStep 2 (some g.home)) else s
        if old < v then s.onRegion n 0 (fun e g => (g.wr PWR_DOM_CTL_OFS (ofs - (v - old)) k).refuseVid e k) else s
    else if v ≤ 72 then s.setRegion n (g.wr PWR_DOM_STAT_VID v k)
    else s

/-! ## Loss of the main input (15 R411, 16 R434, 19 R517, R520) -/

/-- Every rail of Table 15-2 is off (Table 19-6): what regions, blocks, ports and the hub outside the management island hold is
lost. -/
def State.railsOff (s : State) : State :=
  let esc := s.hub.ctx.filter (fun x => decide (0xB100 ≤ x.1))
  let fit := (List.range 8).foldl (fun r k => Regs.wr r SL_LSRC_PRESENT (s.rd SL_LSRC_PRESENT k) k) ([] : Regs)
  let s := { s with
    hub := { s.hub with frame := [], hub := fit, plat := [], pert := [], ctx := esc }
    frame := {}, ctxs := [], pert := {}, tpk := {}, plat := {}, regions := [], blocks := [], ports := [], evcs := [], mchk := {}
    pw := { s.pw with doms := [] }, mc := { s.mc with ends := [], mapPend := none } }
  let s := (List.range 34).foldl State.fnReset s
  ((s.wr PWR_IBC_IBCOK 0).wr PWR_IBC_HBCOK 0).wr PWR_IBC_HCOK 0

/-- The governor after a loss of the rails: it does not descend (R434; DESIGN CHOICE, log 25). -/
def State.govStop (s : State) : State :=
  if s.rd GRD_STAT_STATE = 0 then s
  else { s.wr GRD_STAT_STATE 5 with pw := { s.pw with g := s.pw.stopped.getD 0, causes := [] } }

/-- The device loses its rails with a fatal record: before ready, bring-up waits in stage 1 again, or halts (17 R469); after it, the
device is out of service until cold reset. -/
def State.powerDown (s : State) (r : ErrRec) (halt : Bool) : State :=
  let stage := s.rd BRUP_STAT_STAGE
  let s := s.raise r
  let s := s.railsOff.govStop
  if stage = 6 then
    (s.set1 ESC_STAT_OOS).raise { cls := 2, subtype := 0xF2, level := 3, fatal := true, specific := s.rd ESC_STAT_COUNT }
  else if stage = 7 then s
  else if halt then (s.wr BRUP_STAT_STAGE 7).set1 BRUP_STAT_HALT
  else if stage = 0 ∨ stage = 1 then s
  else
    let s := ((s.wr BRUP_RLOST_RGN 0).wr BRUP_RLOST_DIE 0).wr BRUP_KAT_FAILS 0
    { (s.wr BRUP_KAT_RETRIES 0).wr BRUP_STAT_STAGE 1 with mc := { s.mc with waiting := true } }

/-- The main input is in range: stage 1, if it waits, ends, and the converters ramp (17 R452). -/
def State.mainIn (s : State) : State :=
  let s := s.wr PWR_IN_STAT_MAINOK 1
  if s.mc.waiting ∧ s.rd BRUP_STAT_STAGE = 1 then
    let s := ((s.wr PWR_IBC_IBCOK 0xFFF).wr PWR_IBC_HBCOK 0xF).wr PWR_IBC_HCOK 1
    { s.wr BRUP_STAT_STAGE 2 with mc := { s.mc with waiting := false } }
  else s

/-! ## The governor (16 R436 to R446) -/

/-- May blocks fill (R442, R443)? -/
def State.fillOk (s : State) : Bool :=
  s.bit GRD_CTL_FILLEN && !s.bit PLAT_STAT_TRANSLATED && decide (1 ≤ s.rd GRD_STAT_STATE ∧ s.rd GRD_STAT_STATE ≤ 4)

/-- Change every core domain. -/
def State.allDoms (s : State) (f : State → Nat → Nat → State) : State :=
  (List.range 24).foldl (fun (s : State) n => (List.range 4).foldl (fun (s : State) k => f s n k) s) s

/-- No block fills. -/
def State.noFill (s : State) : State := s.allDoms (fun s n k => s.setRegion n ((s.region n).wr PCTL_FILL_FQ 0 k))

/-- The governor is off (R443): no reference, QG 16/16, no fill. -/
def State.govOff (s : State) : State :=
  let s := (s.allDoms (fun s n k => s.setCeil PCTL_DOM_QG n k 16)).noFill
  { s.wr GRD_STAT_STATE 0 with pw := { s.pw with g := 0, causes := [] } }

/-- The record at the end of a forced episode (R446): lowest cause, and the largest change in W (log 11). -/
def State.endForced (s : State) : State :=
  let c := match s.pw.causes with | [] => 0 | a :: t => t.foldl min a
  let s := s.raise { cls := 9, subtype := 0xB1, level := 3, specific := c + 2 ^ 8 * nearest s.pw.change 1000 }
  { s with pw := { s.pw with causes := [], change := 0 } }

/-- The sum over domains of power per issued cycle times `cs` cycles, in mW (R438). -/
def State.perCycle (s : State) (cs : List Nat) : Nat :=
  (List.range 96).foldl (fun a d =>
    let x := s.dom d
    if x.eCyc = 0 then a else a + x.ePow * cs.getD d 0 / x.eCyc) 0

/-- Keep each domain's power and issued cycles of its last sample with any (R438). -/
def State.keepE (s : State) (m : Meas) : State :=
  (List.range 96).foldl (fun (s : State) d =>
    if m.cyc.getD d 0 = 0 then s else s.setDom d { s.dom d with ePow := m.pow.getD d 0, eCyc := m.cyc.getD d 0 }) s

/-- The causes of a sample that is forced (R446, Table 16-4); none when it is not. -/
def State.forcedBy (s : State) (p : Nat) : List Nat :=
  let g := s.pw.g
  let b := 15 * s.tdp
  let any (f : Region → Nat → Bool) : Bool := (List.range 24).any (fun n => (List.range 4).any (fun k => f (s.region n) k))
  let all (f : Region → Nat → Bool) : Bool := (List.range 24).all (fun n => (List.range 4).all (fun k => f (s.region n) k))
  let byCap := if s.pw.cap + s.rd GRD_DN_DN < g then [3] else []
  let short := decide (p + b < g) &&
    all (fun r k => r.rd PCTL_FILL_FBLK k == 0 || r.rd PCTL_FILL_FQ k == r.rd PCTL_DOM_QEFF k)
  let hot := any (fun r k => decide (r.rd PCTL_DOM_QT k < 16)) || (List.range 24).any (fun n => (s.region n).steps.any (fun x => x.1 == 0))
  let why := (if hot then [1] else []) ++ (if any (fun r k => decide (r.rd PCTL_DOM_QI k < 16)) then [2] else []) ++
    (if s.bit GRD_CTL_FILLEN && !s.bit PLAT_STAT_TRANSLATED then [] else [5]) ++
    (if any (fun r k => r.lost || r.rd PWR_DOM_STAT_STATE k == 3) then [6] else [])
  byCap ++ (if short then (if why.isEmpty then [4] else why) else []) ++
    (if decide (g + b < p) && all (fun r k => r.rd PCTL_DOM_QG k == 1) then [7] else [])

/-- G of the next sample in the tracking state (R437), in mW. -/
def State.track (s : State) : Nat :=
  let g := s.pw.g
  let t := max s.pw.w (min (1000 * s.rd GRD_FLOOR_FLOOR) s.pw.cap)
  min (max (min t (g + s.rd GRD_UP_UP)) (g - s.rd GRD_DN_DN)) s.pw.cap

/-- Have the seconds of DELAY passed (R445)? -/
def State.delayOver (s : State) : Bool :=
  match s.pw.readyAt with
  | none => false
  | some r =>
    let start := if s.bit GRD_CTL_EPSYNC then s.pw.realignAt.map (fun a => max r a) else some r
    match start with
    | none => false
    | some a => decide (a + 1000 * s.rd GRD_CTL_DELAY ≤ s.ms)

/-- A sample is forced by `why`: the forced state, G at the sample's power (Table 16-3). -/
def State.enterForced (s : State) (p : Nat) (why : List Nat) : State :=
  let s := if s.rd GRD_STAT_STATE = 3 then s else (s.set1 GRD_STAT_VIOL).inc GRD_VCNT_COUNT GRD_VCNT_SAT
  let d := if p < s.pw.lastP then s.pw.lastP - p else p - s.pw.lastP
  { s.wr GRD_STAT_STATE 3 with pw := { s.pw with g := p, causes := s.pw.causes ++ why, change := max s.pw.change d } }

/-- The descent (R443, R444). -/
def State.descend (s : State) : State :=
  let s := if s.rd GRD_STAT_STATE = 3 then s.endForced else s
  let g := min (s.pw.g - s.rd GRD_DN_DN) s.pw.cap
  match s.pw.stopped with
  | some x =>
    if g ≤ x then { (s.wr GRD_STAT_STATE 5).noFill with pw := { s.pw with g := x } }
    else { s.wr GRD_STAT_STATE 4 with pw := { s.pw with g := g } }
  | none => { s.wr GRD_STAT_STATE 4 with pw := { s.pw with g := g } }

/-- The cap in force at a sample (R436): a lowered cap with RAMP approaches its value at the down slope. -/
def State.capStep (s : State) : State :=
  let want := 1000 * s.rd PCAP_CAP
  let c := if want < s.pw.cap ∧ s.bit PCAP_RAMP then max want (s.pw.cap - s.rd GRD_DN_DN) else want
  { s with pw := { s.pw with cap := c } }

/-- The governor at a sample of module power `p` in mW (R437 to R446). -/
def State.govern (s : State) (p : Nat) : State :=
  match s.rd GRD_STAT_STATE with
  | 5 => s
  | 0 =>
    if s.bit GRD_CTL_EN && s.ready && !s.oos then { s.wr GRD_STAT_STATE 1 with pw := { s.pw with g := p } } else s
  | st =>
    if !s.bit GRD_CTL_EN then s.govOff
    else if s.oos then s.descend
    else if st = 1 then (if s.delayOver then s.wr GRD_STAT_STATE 2 else s)
    else
      let why := s.forcedBy p
      if !why.isEmpty then s.enterForced p why
      else
        let s := if st = 3 then s.endForced else s
        { s.wr GRD_STAT_STATE 2 with pw := { s.pw with g := s.track } }

/-- GRD_REF and GRD_FILL (R437, Table 16-7). -/
def State.showGrade (s : State) (f h : Nat) : State :=
  let s := (s.wr GRD_REF_REF (min (nearest s.pw.g 1000) 0xFFFF)).wr GRD_REF_WANT (min (nearest s.pw.w 1000) 0xFFFF)
  (s.wr GRD_FILL_FILLW (min (nearest f 1000) 0xFFFF)).wr GRD_FILL_HELDW (min (nearest h 1000) 0xFFFF)

end Sys2Proof.Machine
end

