-- ==== Sys2Proof/Machine/PowerCmds.lean ====
section
/-!
DEFINITION. The power commands (15_power_delivery.md, 16_power_control_grade.md, 17_bring_up_monument.md R465): samples, windows
and intervals, inputs and converters, phases, domains, the cap, ageing, main-power hours.
-/
namespace Sys2Proof.Machine

/-! ## The 1 ms sample (15 R423) -/

/-- The registers of chapter 15 and the thermal readings take the sample's values. -/
def State.sampleRegs (s : State) (m : Meas) : State :=
  let s := ((s.wr PWR_IN_V_V (min (nearest m.inV 10) 0xFFFF)).wr PWR_IN_I_I (min (nearest m.inI 100) 0xFFFF)).wr PWR_IN_P_P
    (min (nearest m.inP 1000) 0xFFFF)
  let s := s.wr PWR_SAMPLE_N (min (s.rd PWR_SAMPLE_N + 1) 0xFFFFFFFF)
  let s := { s with pw := { s.pw with rails := m.rails.zipIdx.foldl (fun (r : SMap Rail) (x : Rail × Nat) => SMap.put railZero r x.2 x.1) s.pw.rails } }
  let s := s.allDoms (fun (s : State) n k =>
    let d := 4 * n + k
    let g := s.region n
    let g := (g.wr PWR_DOM_I_IAVG (min (nearest (m.iavg.getD d 0) 125) 0xFFF) k).wr PWR_DOM_I_IPEAK
      (min (nearest (m.ipeak.getD d 0) 125) 0xFFF) k
    s.setRegion n ((g.wr PWR_DOM_V_VAVG (min (m.vavg.getD d 0) 0x3FF) k).wr PCTL_FILL_FBLK (min (m.fblk.getD d 0) 48) k))
  (List.range 24).foldl (fun (s : State) n =>
    s.setRegion n ((s.region n).wr PWR_FAB_IAVG (min (nearest (m.fab.getD n 0) 125) 0xFFF))) s

/-- The main input at a sample (R411): in range, or low, with one record per excursion. -/
def State.sampleInput (s : State) (m : Meas) : State :=
  let s := if s.bit PWR_IN_STAT_MAINOK then { s with mc := { s.mc with mainMs := s.mc.mainMs + 1 } } else s
  let s := if 40000 ≤ m.inV ∧ m.inV ≤ 60000 then s.mainIn else s.wr PWR_IN_STAT_MAINOK 0
  if s.bit PWR_IBC_HCOK && decide (m.inV < 41000) then
    if s.pw.low then s
    else
      let s := (s.set1 PWR_IN_STAT_UVW).raise { cls := 9, subtype := 0xA5, level := 3 }
      { s with pw := { s.pw with low := true, input := s.pw.input ||| 0x10 } }
  else { s with pw := { s.pw with low := false } }

/-- The temperature of region `n` (16 R433). -/
def Meas.temp (m : Meas) (n : Nat) : Nat := max (m.tj.getD n 0) (m.ts.getD n 0 + 10)

/-- QT of region `n` at a sample (R433, R434), the step that thermal control requests, and its records. -/
def State.thermRegion (s : State) (m : Meas) (n : Nat) : State :=
  let jt := s.rd THM_CTL_JT
  let tj := m.tj.getD n 0
  let t := m.temp n
  let g := s.region n
  let was := g.rd THM_RGN_TJ
  let qt := g.rd PCTL_DOM_QT 0
  let new := if 105 < tj then 4 else if jt < t then (if 4 < qt then qt - 1 else qt) else if t + 3 < jt then min 16 (qt + 1) else qt
  let s := s.setRegion n (((g.wr THM_RGN_TJ (min tj 255)).wr THM_RGN_TS (min (m.ts.getD n 0) 255)).wr THM_RGN_TREG (min t 255))
  let s := (List.range 4).foldl (fun (s : State) k => s.setCeil PCTL_DOM_QT n k new) s
  let s := if 105 < tj ∧ was ≤ 105 then (s.set1 THM_STAT_OVERMAX).raise { cls := 0xA, subtype := 0xC1, level := 3, region := n, die := n / 6 }
    else s
  let s := if new < 16 ∧ s.bit THM_STAT_THROT = false then
      (s.set1 THM_STAT_THROT).raise { cls := 0xA, subtype := 0xC0, level := 3, region := n, die := n / 6 } else s
  let x := s.dom (4 * n)
  let cnt := if new = 4 then min (x.qt4 + 1) 11 else 0
  let s := s.setDom (4 * n) { x with qt4 := cnt }
  if cnt = 10 ∧ jt < t then
    let s := s.setRegion n ((s.region n).reqStep 0 (some ((s.region n).stepList.foldl max 0)))
    s.raise { cls := 0xA, subtype := 0xC4, level := 3, region := n, die := n / 6 }
  else if cnt = 10 then s.setDom (4 * n) { x with qt4 := 9 }
  else if new = 16 then s.setRegion n ((s.region n).reqStep 0 none)
  else s

/-- Temperatures at a sample (R433 to R435). -/
def State.sampleTherm (s : State) (m : Meas) : State :=
  let s := (List.range 24).foldl (fun (s : State) n => s.thermRegion m n) s
  let s := if 105 < m.hubT ∧ s.pw.hubT ≤ 105 then (s.set1 THM_STAT_OVERMAX).raise { cls := 0xA, subtype := 0xC1, level := 3 } else s
  let top := m.tj.foldl max m.hubT
  let hot := (List.range 24).foldl (fun a n => if m.tj.getD a 0 < m.tj.getD n 0 then n else a) 0
  let s := ((s.wr THM_STAT_TJMAX (min top 255)).wr THM_STAT_HOTRGN hot).wr THM_STAT_INLET (min m.inlet 255)
  let s := { s with pw := { s.pw with hubT := m.hubT } }
  let s := if 40 < m.inlet ∧ s.pw.inletHi = false then (s.set1 THM_STAT_INLETHI).raise { cls := 0xA, subtype := 0xC3, level := 3 } else s
  { s with pw := { s.pw with inletHi := decide (40 < m.inlet) } }

/-- The next slower step of a region's list (R432). -/
def Region.nextSlower (g : Region) : Nat := ((List.range 8).find? (fun a => decide (g.cur < a) && g.stepList.contains a)).getD g.cur

/-- Current safety at a sample (R430, R432). -/
def State.sampleCurrent (s : State) : State :=
  let s := s.allDoms (fun (s : State) n k =>
    let q := (s.region n).rd PCTL_DOM_QI k
    let x := s.dom (4 * n + k)
    let high := if q = 16 then min (x.qi16 + 1) 1000 else 0
    let low := if q ≤ 10 then x.qi10 + 1 else 0
    let s := s.setDom (4 * n + k) { x with qi16 := high, qi10 := if low = 10 then 0 else low, b0 := x.b0 || high == 1000 }
    if low = 10 then s.setRegion n ((s.region n).reqStep 4 (some (s.region n).nextSlower)) else s)
  (List.range 24).foldl (fun (s : State) n =>
    if (List.range 4).all (fun k => (s.dom (4 * n + k)).qi16 == 1000) then s.setRegion n ((s.region n).reqStep 4 none) else s) s

/-- The grade at a sample (R436 to R446). -/
def State.sampleGrade (s : State) (m : Meas) : State :=
  let s := s.keepE m
  let f := s.perCycle m.fill
  let h := s.perCycle m.held
  let sum := m.pow.foldl (fun a x => a + x) 0
  let idle := s.ready && s.pw.stopped.isNone && m.cyc.all (fun c => c == 0)
  let s := { s with pw := { s.pw with
    w := m.inP + h - f, other := m.inP - sum, stopped := if idle then some m.inP else s.pw.stopped } }
  let s := (s.capStep.govern m.inP).showGrade f h
  { s with pw := { s.pw with lastP := m.inP } }

/-- Boost of region `n` at a sample (R447, R448). -/
def State.boostRegion (s : State) (m : Meas) (n : Nat) : State :=
  let g := s.region n
  let doms := (List.range 4).map (fun k => s.dom (4 * n + k))
  let core := (List.range 4).foldl (fun a k => a + m.pow.getD (4 * n + k) 0) 0
  if g.lost then s
  else if s.bit CLK_CTL_BOOSTEN = false ∨ s.bit CLK_CTL_FFM ∨ s.oos then
    s.setRegion n (if g.wantsBoost then g.reqStep 2 none else g)
  else if doms.any (fun x => !x.qgTop) then
    s.setRegion n (if g.wantsBoost || g.cur == 0 then g.reqStep 2 (some g.home) else g)
  else if g.stepList.contains 0 && doms.all (fun x => !x.dip) && decide (100 * m.inP + 37 * core ≤ 100 * s.pw.cap) &&
      decide (m.temp n + 10 ≤ s.rd THM_CTL_JT) && (g.vidOver s.gradeIdx 0).isEmpty then s.setRegion n (g.reqStep 2 (some 0))
  else s

/-- The next sample begins. -/
def State.nextSample (s : State) : State :=
  s.allDoms (fun (s : State) n k =>
    (s.setDom (4 * n + k) { s.dom (4 * n + k) with dip := false, qgTop := false }).noteRate n k)

/-- A junction at 115 °C or above trips the device (R434), once. -/
def State.trip (s : State) (m : Meas) : State :=
  if (decide (115 ≤ m.hubT) || m.tj.any (fun t => decide (115 ≤ t))) && s.pw.thermN then
    let s := s.powerDown { cls := 0xA, subtype := 0xC2, level := 3, fatal := true } true
    { s with pw := { s.pw with thermN := false } }
  else s

/-- POWER_SAMPLE (R423): the management island runs while the auxiliary input is in range. -/
def execPowerSample (m : Meas) (s : State) : Host.Outcome State Fault Refusal :=
  if s.bit PWR_IN_STAT_AUXOK then
    let s := ((((s.sampleRegs m).sampleInput m).sampleTherm m).sampleCurrent).sampleGrade m
    let s := (List.range 24).foldl (fun (s : State) n => s.boostRegion m n) s
    .next ((s.nextSample.showEsc.trip m).showPower)
  else .next s

/-! ## Windows and intervals -/

/-- QI of a domain falls by 2/16, to no lower than 4/16, with the record of R430. -/
def State.lowerQi (s : State) (n k : Nat) : State :=
  let q := (s.region n).rd PCTL_DOM_QI k
  let s := s.setCeil PCTL_DOM_QI n k (if q ≤ 6 then min q 4 else q - 2)
  let x := s.dom (4 * n + k)
  let s := s.setDom (4 * n + k) { x with low90 := 0, b0 := false }
  if x.b0 then s.onRegion n 0 (fun e g => g.powerRec e 0xB0 k 0 0) else s

/-- CURRENT_WINDOW (R430, R431). -/
def execCurrentWindow (at_ : WinAt) (s : State) : Host.Outcome State Fault Refusal :=
  match at_ with
  | .dom n k ma =>
    let g := s.region n
    if 24 ≤ n ∨ 4 ≤ k ∨ g.lost ∨ g.rd PWR_DOM_STAT_STATE k ≠ 1 then .next s
    else
      let lim := min (125 * g.rd PCTL_ILIM_LIM k) (g.rated k)
      if lim < ma then .next (s.lowerQi n k).showPower
      else
        let x := s.dom (4 * n + k)
        if 10 * ma < 9 * lim then
          if x.low90 + 1 = 32 then
            .next (((s.setDom (4 * n + k) { x with low90 := 0 }).setCeil PCTL_DOM_QI n k (min 16 (g.rd PCTL_DOM_QI k + 1))).showPower)
          else .next (s.setDom (4 * n + k) { x with low90 := x.low90 + 1 })
        else .next (s.setDom (4 * n + k) { x with low90 := 0 })
  | .ibc c ma =>
    if 12 ≤ c ∨ (s.rd PWR_IBC_IBCOK).testBit c = false ∨ 18 * ma ≤ 13000000 then .next s
    else
      let n := 6 * (c / 3) + 2 * (c % 3)
      .next ([n, n + 1].foldl (fun (s : State) r => (List.range 4).foldl (fun (s : State) k => s.lowerQi r k) s) s).showPower

/-- The cap's part of an interval (R436) for the estimate `e` in mW. -/
def State.capLoop (s : State) (e : Nat) : State :=
  let move (up : Bool) : State :=
    let x := nextDoms s.pw.rrCap 8
    let s := x.1.foldl (fun (s : State) d =>
      let q := (s.region (d / 4)).rd PCTL_DOM_QC (d % 4)
      s.setCeil PCTL_DOM_QC (d / 4) (d % 4) (if up then min 16 (q + 1) else max 1 (q - 1))) s
    { s with pw := { s.pw with rrCap := x.2 } }
  if s.pw.cap < e then move false
  else if 100 * e < 98 * s.pw.cap then move true
  else s

/-- Table 16-2 at one domain. -/
def State.gradeAt (s : State) (up : Bool) (d : Nat) : State :=
  let n := d / 4
  let k := d % 4
  let g := s.region n
  let q := g.rd PCTL_DOM_QG k
  let f := g.rd PCTL_FILL_FQ k
  if up then
    if q < 16 then s.setCeil PCTL_DOM_QG n k (q + 1)
    else if s.fillOk && !g.lost && g.rd PWR_DOM_STAT_STATE k == 1 && decide (f < g.rd PCTL_DOM_QEFF k) then
      s.setRegion n (g.wr PCTL_FILL_FQ (f + 1) k)
    else s
  else if 0 < f then s.setRegion n (g.wr PCTL_FILL_FQ (f - 1) k)
  else s.setCeil PCTL_DOM_QG n k (max 1 (q - 1))

/-- The grade's part of an interval (R439). -/
def State.gradeLoop (s : State) (e : Nat) : State :=
  let st := s.rd GRD_STAT_STATE
  if st = 0 ∨ 5 ≤ st then s
  else
    let g := s.pw.g
    let cnt := if g + 20 * s.tdp < e ∨ e + 20 * s.tdp < g then 8 else 1
    let move (up : Bool) : State :=
      let x := nextDoms s.pw.rrGrade cnt
      let s := x.1.foldl (fun (s : State) d => s.gradeAt up d) s
      { s with pw := { s.pw with rrGrade := x.2 } }
    if g + 5 * s.tdp < e then move false else if e + 5 * s.tdp < g then move true else s

/-- CONTROL_INTERVAL (R439): `draws` is each domain's mean mW in the 64 µs. -/
def execControlInterval (draws : List Nat) (s : State) : Host.Outcome State Fault Refusal :=
  if s.bit PWR_IN_STAT_AUXOK then
    let e := draws.foldl (fun a x => a + x) 0 + s.pw.other
    let s := if s.fillOk then s else s.noFill
    .next ((s.capLoop e).gradeLoop e).showPower
  else .next s

/-! ## Inputs and converters (15 R409 to R413) -/

/-- MAIN_INPUT_LOST (R411). -/
def execMainInputLost (s : State) : Host.Outcome State Fault Refusal :=
  if s.bit PWR_IN_STAT_AUXOK && (s.bit PWR_IN_STAT_MAINOK || s.bit PWR_IBC_HCOK) then
    let s := (s.wr PWR_IN_STAT_MAINOK 0).set1 PWR_IN_STAT_INLOST
    let s := { s with pw := { s.pw with input := s.pw.input ||| 0x80 } }
    .next (s.powerDown { cls := 9, subtype := 0xA6, level := 3, fatal := true } false)
  else .next s

/-- MAIN_INPUT_APPLIED (17 R452). -/
def execMainInputApplied (s : State) : Host.Outcome State Fault Refusal :=
  if s.bit PWR_IN_STAT_AUXOK then .next s.mainIn else .next s

/-- CONVERTER_FAULT (R413): IBC `k`, or HBC `k` when `hbc`. -/
def execConverterFault (hbc : Bool) (k : Nat) (s : State) : Host.Outcome State Fault Refusal :=
  let f := if hbc then PWR_IBC_HBCOK else PWR_IBC_IBCOK
  let rs := if hbc then (List.range 6).map (fun i => 6 * k + i) else [6 * (k / 3) + 2 * (k % 3), 6 * (k / 3) + 2 * (k % 3) + 1]
  if (s.rd f).testBit k then
    let s := (s.wr f (setBitNat (s.rd f) k false)).set1 PWR_IBC_IBCFAIL
    let s := s.raise { cls := 9, subtype := 0xA4, level := 3, die := if hbc then k else k / 3
                       specific := k + (if hbc then 2 ^ 8 else 0) }
    let s := rs.foldl (fun (s : State) n =>
      let g := s.region n
      s.setRegion n (if hbc then { g with stack := [], stackEcc := [] }
        else ((List.range 4).foldl (fun (g : Region) k => g.unpower k 0) g).wr PWR_FAB_PHOK 0)) s
    .next (s.loseRegions 9 rs)
  else .next s

/-! ## Phases (15 R414 to R420) -/

/-- PHASE_LOST (R418, R419, R425): a phase in service of a domain that is on or retained. -/
def execPhaseLost (n dom ph : Nat) (s : State) : Host.Outcome State Fault Refusal :=
  let g := s.region n
  let st := g.rd PWR_DOM_STAT_STATE dom
  if n < 24 ∧ dom < 4 ∧ g.lost = false ∧ (st = 1 ∨ st = 2) ∧ (g.rd PWR_DOM_STAT_PHOK dom).testBit ph then
    let page := 16 + 4 * n + dom
    let s := ((s.settleNow n dom).onRegion n 0 (fun e g => g.phaseLost e dom ph)).settleNow n dom
    let dark := (s.region n).rd PWR_DOM_STAT_STATE dom == 3
    let io := SMap.put (fun _ => 0) s.pw.iout page (s.pw.iout.get (fun _ => 0) page ||| (if dark then 0x80 else 0xA0))
    let s := ({ s with pw := { s.pw with iout := io } } : State).noteRate n dom
    .next (if dark then s.darkBlocks n dom else s)
  else .next s

/-- FABRIC_PHASE_LOST (R420). -/
def execFabricPhaseLost (n ph : Nat) (s : State) : Host.Outcome State Fault Refusal :=
  let g := s.region n
  let ok := g.rd PWR_FAB_PHOK
  if n < 24 ∧ g.lost = false ∧ ok.testBit ph then
    let new := setBitNat ok ph false
    let io := SMap.put (fun _ => 0) s.pw.iout (112 + n) (s.pw.iout.get (fun _ => 0) (112 + n) ||| 0x80)
    let s := { s.setRegion n (g.wr PWR_FAB_PHOK new) with pw := { s.pw with iout := io } }
    .next (if new = 0 then (s.raise { cls := 9, subtype := 0xA4, level := 3, region := n, die := n / 6 }).loseRegions 9 [n]
      else s.onRegion n 0 (fun e g => g.raise e { cls := 9, subtype := 0xA8, level := 2, object := 2 ^ 8 * ph, objkind := 8 }))
  else .next s

/-- Phases of a domain that the monument holds off (17 Table 17-7). -/
def State.heldOff (s : State) (n k : Nat) : List Nat :=
  (List.range 8).filter (fun ph => s.effective.any (fun d => d.kind == 6 && d.unit % 1024 == n + 2 ^ 5 * k + 2 ^ 7 * ph))

/-- The phases of domain `k` that have neither passed nor latched nor are held off. -/
def State.untested (s : State) (n k : Nat) : List Nat :=
  let x := s.dom (4 * n + k)
  (List.range 8).filter (fun ph =>
    !x.passed.contains ph && !(x.tries.any (fun t => t.1 == ph && t.2 == 3)) && !(s.heldOff n k).contains ph)

/-- End the soft start of a domain once every phase has passed or latched (Table 15-5). -/
def State.softStart (s : State) (n k : Nat) : State :=
  if (s.untested n k).isEmpty then
    let ok := (s.dom (4 * n + k)).passed.foldl (fun m ph => m ||| 2 ^ ph) 0
    let s := s.onRegion n 0 (fun e g => g.softEnd e k ok)
    let s := s.setDom (4 * n + k) { s.dom (4 * n + k) with passed := [], tries := [] }
    s.noteRate n k
  else s

/-- One soft-start test of a phase (R417): a pass, or a failure, which latches the phase off at the third attempt. -/
def State.phaseTest (s : State) (n k ph : Nat) (pass : Bool) : State :=
  let x := s.dom (4 * n + k)
  if pass then s.setDom (4 * n + k) { x with passed := x.passed ++ [ph] }
  else
    let c := ((x.tries.find? (fun t => t.1 == ph)).map (fun t => t.2)).getD 0 + 1
    let s := s.setDom (4 * n + k) { x with tries := (ph, c) :: x.tries.filter (fun t => t.1 != ph) }
    if c = 3 then s.onRegion n 0 (fun e g => g.powerRec e 0xA0 k ph 0) else s

/-- PHASE_TEST (R417): in stage 3, of a domain that is off. -/
def execPhaseTest (n dom ph : Nat) (pass : Bool) (s : State) : Host.Outcome State Fault Refusal :=
  let g := s.region n
  if n < 24 ∧ dom < 4 ∧ s.rd BRUP_STAT_STAGE = 3 ∧ g.lost = false ∧ g.rd PWR_DOM_STAT_STATE dom = 0 ∧ (s.untested n dom).contains ph then
    .next ((s.phaseTest n dom ph pass).softStart n dom)
  else .next s

/-! ## Domains, cap, ageing, hours -/

/-- DOMAIN_STATE_REQUEST (15 R422, R426). -/
def execDomainStateRequest (n dom req : Nat) (s : State) : Host.Outcome State Fault Refusal :=
  .next (if !s.ready then s.discard else if n < 24 ∧ dom < 4 then s.onLiveRegion n 0 (fun _ g => g.domRequest dom req (s.domUsed n dom)) else s)

/-- OFS_WRITE (15 R416, R426). -/
def execOfsWrite (n dom v : Nat) (s : State) : Host.Outcome State Fault Refusal :=
  .next (if !s.ready then s.discard else if n < 24 ∧ dom < 4 then s.onLiveRegion n 0 (fun e g => g.ofsWrite e dom v) else s)

/-- A write of PCAP (16 R436, R451): a CAP outside 25 % to 100 % of the fused TDP is left unchanged. -/
def State.pcapWrite (s : State) (v : Word) : State :=
  let c := PCAP_CAP.of v
  let s := s.wr PCAP_RAMP (PCAP_RAMP.of v)
  let s := if s.tdp ≤ 4 * c ∧ c ≤ s.tdp then s.wr PCAP_CAP c else s
  let want := 1000 * s.rd PCAP_CAP
  if s.pw.cap ≤ want ∨ s.bit PCAP_RAMP = false then { s with pw := { s.pw with cap := want } } else s

/-- PCAP_WRITE (16 R436). -/
def execPcapWrite (v : Word) (s : State) : Host.Outcome State Fault Refusal :=
  .next (if !s.ready then s.discard else s.pcapWrite v)

/-- AGE_MEASURE (16 R449): the slack in ps of domain `dom`'s monitor. -/
def execAgeMeasure (n dom slack : Nat) (s : State) : Host.Outcome State Fault Refusal :=
  let g := s.region n
  if n < 24 ∧ dom < 4 ∧ g.lost = false ∧ g.rd PWR_DOM_STAT_STATE dom = 1 then
    let s := s.setRegion n (g.wr AGE_MON_SLACK (min slack 255) dom)
    let x := s.dom (4 * n + dom)
    let low := if slack < s.rd AGE_THR_PS then min (x.ageLow + 1) 2 else 0
    let age := g.rd PWR_DOM_STAT_AGE dom
    let spent := decide (low = 2) && decide (4 ≤ age)
    let s := s.setDom (4 * n + dom) { x with ageLow := low, agePend := decide (low = 2) && decide (age < 4), ageEnd := x.ageEnd || spent }
    .next (if spent && !x.ageEnd then s.onRegion n 0 (fun e g => g.powerRec e 0xB3 dom 0 0) else s)
  else .next s

/-- HOURS_RECORD (17 R464, R465): after each 24 h of main power; `ok` says that the flash write succeeds. -/
def execHoursRecord (ok : Bool) (s : State) : Host.Outcome State Fault Refusal :=
  if s.mc.hoursLogged + 24 ≤ s.mc.mainMs / 3600000 then
    let h := s.mc.hoursLogged + 24
    let s := { s with mc := { s.mc with hoursLogged := h } }
    .next (s.logAppend (.hours (s.mc.hours0 + h)) ok).1
  else .next s

end Sys2Proof.Machine
end

