-- ==== Sys2Proof/Machine/BringOps.lean ====
section
/-!
DEFINITION. Cold start (17_bring_up_monument.md R452 to R461) and the reset kinds (19_contexts_recovery.md R518 to R520).
-/
namespace Sys2Proof.Machine

/-! ## Resets -/

/-- The state at the start of a cold start: OTP and flash, what stands outside the device, the laser sources that are fitted and the
main input's range survive (Table 19-6). -/
def State.coldState (s : State) : State :=
  let t : State := { State.reset with
    pending := s.pending, fuse := s.fuse, otp := s.otp, flash := s.flash.boot, host := s.host, msgs := s.msgs, freeCtr := s.freeCtr }
  let t := (List.range 8).foldl (fun (t : State) k => t.wr SL_LSRC_PRESENT (s.rd SL_LSRC_PRESENT k) k) t
  (t.wr PWR_IN_STAT_AUXOK 1).wr PWR_IN_STAT_MAINOK (s.rd PWR_IN_STAT_MAINOK)

/-- Hardware loads the fused limits, and the MC reads the monument (R461, R465, R466). -/
def State.loadFuses (s : State) : State :=
  let f := s.fuse
  let s := (((s.wr MON_FUSE_GRADE f.grade).wr MON_FUSE_TDP f.tdp).wr MON_FUSE_BOOSTM f.boostm).wr MON_FUSE_BASEM f.basem
  let s := ((s.wr MON_SER_LO_SER (f.serial % 2 ^ 32)).wr MON_SER_HI_SER (f.serial / 2 ^ 32)).wr MON_SVN_MIN s.otp.min
  let prog := (s.otp.slots.zipIdx).foldl (fun m x => if x.1.isSome then m + 2 ^ x.2 else m) 0
  let s := (s.wr MON_KEYS_PROG prog).wr MON_KEYS_REVOKED s.otp.revoke
  let s := (s.wr MON_ID_CSTEP (f.stepping % 256)).wr MON_ID_HSTEP (f.stepping / 256)
  let s := (s.wr GRD_FLOOR_FLOOR (s.tdp * 2 / 5)).wr PCAP_CAP s.tdp
  let s := (List.range 8).foldl (fun (s : State) a =>
    (s.wr CLK_STEP_MHZ (stepMhz s.gradeIdx a) a).wr CLK_STEP_MULT (stepMult s.gradeIdx a) a) s
  let hrs := s.flash.log.foldl (fun h r => match r with | .hours x => x | _ => h) 0
  let s := { s with pw := { s.pw with cap := 1000 * s.tdp }, mc := { s.mc with hours0 := hrs } }
  (s.wr MON_STAT_FACTOK (if s.flash.factory.isSome then 1 else 0)).showField

/-- Does the boot ROM accept the image in flash slot `i` (R458)? -/
def State.slotOk (s : State) (i : Nat) : Option FwImage :=
  match s.flash.images[i]? with
  | some x => if x.good && decide (s.otp.min ≤ x.svn) then some x else none
  | none => none

/-- Start the image of slot `i` (R458): a security version above MIN raises MIN. The MC's part of the image stands at the bottom of its 4 MiB SRAM
(DESIGN CHOICE, log 59). -/
def State.startFw (s : State) (i : Nat) (x : FwImage) : State :=
  let min := max s.otp.min x.svn
  let s := ((s.wr MON_FW_VER x.version).wr MON_SVN_SLOT i).wr MON_SVN_MIN min
  { s with otp := { s.otp with min := min }
           mc := { s.mc with fwVer := x.version, recovery := false, sram := Mem.wrN [] 0 (x.mc.take (4 * 2 ^ 20)) } }

/-- The boot ROM verifies the active slot, then the other, or enters recovery (R458). -/
def State.verifyFw (s : State) : State :=
  let a := s.flash.active
  match s.slotOk a with
  | some x => s.startFw a x
  | none =>
    match s.slotOk (1 - a) with
    | some x => (s.startFw (1 - a) x).set1 MON_SVN_FALLBK
    | none => { s with mc := { s.mc with recovery := true } }

/-- Stage 1 begins (R452). -/
def State.coldStart (s : State) : State := (s.coldState.loadFuses.wr BRUP_STAT_STAGE 1).verifyFw

/-- The records of a crash log (R519): fatal ones first, then the newest others, 64 at most. -/
def crashOf (q : List ErrRec) : List ErrRec :=
  (q.filter (fun r => r.fatal) ++ (q.filter (fun r => !r.fatal)).reverse).take 64

/-- A cold reset keeps a crash log and starts again at stage 1 (R469, R518, R519). -/
def State.coldReset (s : State) : State :=
  let t := s.coldStart
  { t with mc := { t.mc with crash := crashOf s.err.q, crashSum := s.mc.summary, crashPend := true } }

/-! ## Failures of the stages (Table 17-2) -/

/-- Bring-up halts with a code. -/
def State.halt (s : State) (code : Nat) : State := ((s.wr BRUP_STAT_STAGE 7).set1 BRUP_STAT_HALT).wr BRUP_STAT_CODE code

/-- Region `n` is lost at bring-up (R454). -/
def State.lostAtStart (s : State) (n : Nat) : State :=
  let s := s.setRegion n { s.region n with lost := true, stopped := true }
  s.wr BRUP_RLOST_RGN (s.rd BRUP_RLOST_RGN ||| 2 ^ n)

/-- A record of a stage: link, ECC or mismatch. -/
def State.stageRec (s : State) (cls sub n pblk specific : Nat) : State :=
  s.raise { cls := cls, subtype := sub, level := 3, region := n, die := if n < 24 then n / 6 else 0, pblock := pblk, specific := specific }

/-- Regions that fail at a stage with one record each. -/
def State.loseAt (s : State) (cls sub : Nat) (ns : List Nat) : State :=
  ns.foldl (fun (s : State) n =>
    if n < 24 ∧ (s.region n).lost = false then (s.lostAtStart n).stageRec cls sub n 0xFFFF 0 else s) s

/-- Halt when every region is lost (R454). -/
def State.anyLeft (s : State) : State := if (List.range 24).all (fun n => (s.region n).lost) then s.halt 4 else s

/-- Is the stage still `k`, no halt having come? -/
def State.inStage (s : State) (k : Nat) : Bool := s.rd BRUP_STAT_STAGE == k

/-! ## The bring-up map (R460) -/

/-- Where a chip-wide physical number lies: region, row, physical column (01 R23). -/
def physPlace (pb : Nat) : Nat × Nat × Nat :=
  let y := pb % 1248 / 26
  let x := pb % 26
  (6 * (pb / 1248) + 2 * (y / 16) + x / 13, y % 16, x % 13)

/-- The rows (kind 2) or columns (kind 3) listed for a physical block. -/
def State.listedLines (s : State) (kind pb : Nat) : List Nat :=
  ((s.effective.filter (fun d => d.kind == kind && d.unit % 2 ^ 16 == pb)).map (fun d => d.unit / 2 ^ 16)).eraseDups

/-- Is a physical block listed, or treated so (R460)? -/
def State.listedBlock (s : State) (pb : Nat) : Bool :=
  s.defective pb || decide (2 ≤ (s.listedLines 2 pb).length) || decide (2 ≤ (s.listedLines 3 pb).length)

/-- The SKIP value of row `r` of region `n` in the bring-up map. -/
def State.bringSkip (s : State) (n r : Nat) : Nat :=
  if (s.region n).rd PWR_DOM_STAT_STATE (r / 4) = 3 then 0xD
  else
    match (List.range 13).filter (fun c => s.listedBlock (physNum n r c)) with
    | [] => 0xC
    | [c] => c
    | _ => 0xD

/-- The bring-up map (R460). -/
def State.bringMapOf (s : State) : BringMap :=
  { skips := (List.range 24).map (fun n =>
      let word (a : Nat) : Word := BitVec.ofNat 32 ((List.range 8).foldl (fun m r => m + s.bringSkip n (8 * a + r) * 2 ^ (4 * r)) 0)
      (n, word 0, word 1))
    arrays := (List.range 24).flatMap (fun n =>
      if s.effective.any (fun d => (d.kind == 2 || d.kind == 3) && (physPlace (d.unit % 2 ^ 16)).1 == n) then
        (List.range 192).map (fun b =>
          let k := s.bringSkip n (b / 12)
          let pb := physNum n (b / 12) (if b % 12 < k then b % 12 else b % 12 + 1)
          let at_ (kind : Nat) : Nat := match s.listedLines kind pb with | [x] => x | _ => 65
          (chipBlk n b, at_ 2, at_ 3))
      else []) }

/-- Write the bring-up map into its registers; it takes effect at the next boundary gap, whatever the registers hold by then
(R460, 01 R27). -/
def State.bringMap (s : State) : State :=
  let m := s.bringMapOf
  let s := m.skips.foldl (fun (s : State) x =>
    let g := s.region x.1
    s.setRegion x.1 { g with regs := (g.regs.setWord .region 0x104 x.2.1).setWord .region 0x108 x.2.2 }) s
  let s := m.arrays.foldl (fun (s : State) x =>
    s.setBlock x.1 (((s.block x.1).wr BLK_ARR_MAP_XROW x.2.1).wr BLK_ARR_MAP_XCOL x.2.2)) s
  { s with mc := { s.mc with mapPend := some m } }

/-! ## The stages (Table 17-1) -/

/-- The fused grade and limits (R461, Tables 0-1 and 14-1): the halt code, if any. -/
def State.fuseBad (s : State) : Option Nat :=
  let f := s.fuse
  let want := match f.grade with | 1 => some (1500, 22, 25) | 2 => some (1200, 19, 22) | 3 => some (900, 16, 18) | _ => none
  match want with
  | none => some 2
  | some w => if w = (f.tdp, f.basem, f.boostm) then none else some 6

/-- Stage 1 ends: the monument's halts, a record for each of its records whose signature fails (R462), then the main input. -/
def State.endStage1 (s : State) : State :=
  match s.fuseBad with
  | some c => s.halt c
  | none =>
    let bad := (s.flash.log.filter (fun r => r == .bad)).length + (if s.flash.factory.isNone && s.flash.factoryBad then 1 else 0)
    let s := (List.range bad).foldl (fun (s : State) _ => s.raise { cls := 2, subtype := 0xD4, level := 3 }) s
    if s.flash.factory.isNone then s.halt 1
    else
      let s := { s with mc := { s.mc with waiting := true } }
      if s.bit PWR_IN_STAT_MAINOK then s.mainIn else s

/-- Stage 2 ends: clocks, fabric rails, calibration; frame 0 begins (02 R36). -/
def State.endStage2 (s : State) (r : StageResult) : State :=
  if r.noRef then (s.stageRec 8 0xD0 0x18 0xFFFF 0).halt 3
  else
    let s := (s.set1 CLK_STAT_REFOK).wr CLK_STAT_DIELOCK ((List.range 4).foldl (fun m d => if r.diePll.contains d then m else m + 2 ^ d) 0)
    let s := r.diePll.foldl (fun (s : State) d =>
      if 4 ≤ d then s
      else
        let s := (List.range 6).foldl (fun (s : State) f => s.lostAtStart (6 * d + f)) s
        (s.wr BRUP_RLOST_DIE (s.rd BRUP_RLOST_DIE ||| 2 ^ d)).raise { cls := 8, subtype := 0xD0, level := 3, die := d }) s
    let s := (s.loseAt 8 0xD0 r.rgnPll).loseAt 8 0xD0 r.fabRail
    let s := (List.range 24).foldl (fun (s : State) n =>
      if (s.region n).lost then s else s.setRegion n (((s.region n).wr PWR_FAB_PHOK 3).wr RGN_BEAT_GAP 1)) s
    let s := r.segs.foldl (fun (s : State) x =>
      if segExists x.1 x.2.1 then s.setRegion x.1 ((s.region x.1).calWrite x.1 x.2.1 x.2.2) else s) (s.effective.foldl State.showQueueDef s)
    let s := ({ s with mc := { s.mc with ends := r.ends, shoreCal := r.shore } } : State).deriveLanes
    let s := { s with frame := { s.frame with num := 0, pos := 0, running := true } }
    (s.wr BRUP_STAT_STAGE 3).anyLeft

/-- A domain's soft start for the phases that no test has settled: those that `r` names fail three times, the others pass. -/
def State.softStartRest (s : State) (r : StageResult) (n k : Nat) : State :=
  if (s.region n).lost ∨ (s.region n).rd PWR_DOM_STAT_STATE k ≠ 0 then s
  else
    let s := (s.untested n k).foldl (fun (s : State) ph =>
      if r.phases.contains (n, k, ph) then
        (List.range 3).foldl (fun (s : State) _ => if (s.untested n k).contains ph then s.phaseTest n k ph false else s) s
      else s.phaseTest n k ph true) s
    s.softStart n k

/-- The latest ageing trims of the monument (Table 17-7). -/
def State.loadAges (s : State) : State :=
  s.effective.foldl (fun (s : State) d =>
    if d.kind = 0x10 then
      let n := d.unit % 32
      s.setRegion n ((s.region n).wr PWR_DOM_STAT_AGE (d.unit / 2 ^ 8 % 8) (d.unit / 2 ^ 5 % 4))
    else s) s

/-- Stage 3 ends: memories, stacks, core domains; the bring-up map is written. -/
def State.endStage3 (s : State) (r : StageResult) : State :=
  let s := s.loadAges
  let s := s.loseAt 7 0xD1 r.rgnMem
  let s := s.allDoms (fun s n k => s.softStartRest r n k)
  let s := r.sram.foldl (fun (s : State) pb =>
    (s.defects [{ kind := 1, src := 1, unit := pb }]).stageRec 7 0xD1 (physPlace pb).1 pb 0) s
  let s := (List.range 24).foldl (fun (s : State) n =>
    if (s.region n).lost then s
    else if r.stkBad.contains n then s.stageRec 8 0xD2 n 0xFFFF 0
    else s.setRegion n ((s.region n).set1 HBM_STAT_TRAINED)) s
  ((s.bringMap).wr BRUP_STAT_STAGE 4).anyLeft

/-- Stage 4 ends: laser sources light under SL_LSRC.EN, die-to-die circuits lock; listed lanes are shown. -/
def State.endStage4 (s : State) (r : StageResult) : State :=
  let s := (List.range 8).foldl (fun (s : State) k =>
    match r.lsrc.find? (fun x => x.1 == k) with
    | some x =>
      if s.bit SL_LSRC_PRESENT k && s.bit SL_LSRC_EN k then ((s.set1 SL_LSRC_LIT k).wr SL_LSRC_POWER (min x.2 255) k).light k
      else s
    | none => if s.bit SL_LSRC_LIT k then s else (litBy k).foldl (fun (s : State) o => s.wr LANE_STAT_LOS 1 o) s) s
  let s := (List.range 72).foldl (fun (s : State) o =>
    let s := if s.effective.any (fun d => d.kind == 5 && d.unit / 8 == o) then s.wr LANE_STAT_DEF 1 o else s
    if s.lane LANE_OCT_KIND o = 1 ∧ s.octDark o = false ∧ r.unlocked.contains o = false then s.wr LANE_STAT_LOCK 1 o else s) s
  s.wr BRUP_STAT_STAGE 5

/-- A known-answer run that failed (R457): the record, and for a second failure its entry. -/
def State.katFail (s : State) (k : KatFail) : State :=
  let s := s.wr BRUP_KAT_RETRIES (min (s.rd BRUP_KAT_RETRIES + 1) 0xFFFF)
  let s := s.stageRec 5 0xD3 (physPlace k.pblk).1 k.pblk (if k.twice then 0 else 1)
  if k.twice then
    let s := s.wr BRUP_KAT_FAILS (min (s.rd BRUP_KAT_FAILS + 1) 0xFFFF)
    s.defects [match k.row, k.col with
      | some x, _ => { kind := 2, src := 1, unit := k.pblk + 2 ^ 16 * x }
      | none, some x => { kind := 3, src := 1, unit := k.pblk + 2 ^ 16 * x }
      | none, none => { kind := 1, src := 1, unit := k.pblk }]
  else s

/-- The known-answer run of a region's engines or controller failed (R457). -/
def State.katRegion (s : State) (x : Nat × Bool) : State :=
  if 24 ≤ x.1 then s
  else
    let s := s.wr BRUP_KAT_RETRIES (min (s.rd BRUP_KAT_RETRIES + 1) 0xFFFF)
    if x.2 then (s.wr BRUP_KAT_FAILS (min (s.rd BRUP_KAT_FAILS + 1) 0xFFFF)).loseAt 5 0xD3 [x.1]
    else s.stageRec 5 0xD3 x.1 0xFFFF 1

/-- A block takes the block image of the firmware (R456). -/
def Block.takeFw (x : FwImage) (b : Block) : Block :=
  { b with imem := Mem.wrN [] 0 (x.imem.take 65536), ldata := Mem.wrN [] 0 (x.ldata.take 8192) }

/-- The firmware broadcast (R456): each region controller takes its own image and a copy of the block image into its 256 KiB memory, the copy
behind its own (DESIGN CHOICE, log 59); every block, those in the spare columns included, takes the block image. -/
def State.broadcast (s : State) : State :=
  match s.flash.images[s.rd MON_SVN_SLOT]? with
  | none => s
  | some x =>
    let s := (List.range 24).foldl (fun (s : State) n =>
      if (s.region n).lost then s
      else
        let g := s.region n
        s.setRegion n { g with
          ctlMem := Mem.wrN [] 0 ((x.rgn ++ x.imem ++ x.ldata).take 262144)
          spare := if x.imem.isEmpty && x.ldata.isEmpty then g.spare
            else (List.range 16).foldl (fun (m : SMap Block) r => m.put blockZero r ((m.get blockZero r).takeFw x)) g.spare }) s
    if x.imem.isEmpty && x.ldata.isEmpty then s
    else allBlocks.foldl (fun (s : State) k =>
      if (s.region (regionOf k)).lost then s else s.setBlock k ((s.block k).takeFw x)) s

/-- Stage 5 ends: firmware broadcast, known-answer runs, the updated map, ready (R459). -/
def State.endStage5 (s : State) (r : StageResult) : State :=
  if r.katHub then (s.stageRec 5 0xD3 0x18 0xFFFF 0).halt 5
  else
    let s := r.kat.foldl State.katFail s.broadcast
    let s := (r.katRgn.foldl State.katRegion s).anyLeft
    if !s.inStage 5 then s
    else
      let s := if r.kat.any (fun k => k.twice) then s.bringMap else s
      let s := ((s.set1 BRUP_STAT_READY).wr BRUP_STAT_STAGE 6).wr BRUP_TIME_MS (min r.ms 0xFFFF)
      let s := s.wr BRUP_STAT_DEGR (if s.rd BRUP_RLOST_RGN = 0 ∧ s.rd BRUP_RLOST_DIE = 0 then 0 else 1)
      { s with pw := { s.pw with readyAt := some s.ms } }

/-- The stage that runs ends with what it found; nothing ends in recovery, while stage 1 waits, after ready or a halt. -/
def State.endStage (s : State) (r : StageResult) : State :=
  if s.mc.recovery || s.mc.waiting then s
  else
    match s.rd BRUP_STAT_STAGE with
    | 1 => s.endStage1
    | 2 => s.endStage2 r
    | 3 => s.endStage3 r
    | 4 => s.endStage4 r
    | 5 => s.endStage5 r
    | _ => s

end Sys2Proof.Machine
end

