-- ==== Sys2Proof/Machine/BringCmds.lean ====
section
/-!
DEFINITION. Bring-up, resets, firmware load, monument mailbox and crash log (17_bring_up_monument.md, 19_contexts_recovery.md).
-/
namespace Sys2Proof.Machine

/-- POWER_ON (17 R452): the reference event; every state but OTP and flash is new (19 R518). -/
def execPowerOn (s : State) : Host.Outcome State Fault Refusal :=
  .next (if s.bit PWR_IN_STAT_AUXOK then s else s.coldStart)

/-- AUX_INPUT_LOST (17 R469): every state is lost but OTP, flash, what stands outside the device and the fitted laser sources. -/
def execAuxInputLost (s : State) : Host.Outcome State Fault Refusal :=
  .next ((s.coldState.wr PWR_IN_STAT_AUXOK 0).wr PWR_IN_STAT_MAINOK 0)

/-- COLD_RESET (19 R518, 22 R556): PERST_N low for 1 µs or longer, then high. -/
def execColdReset (s : State) : Host.Outcome State Fault Refusal :=
  .next (if s.bit PWR_IN_STAT_AUXOK then s.coldReset else s)

/-- HUB_RST_COLD (19 R518, R522): a write of HUB_RST by a PF; before ready it is discarded (17 R455). -/
def execHubRstCold (v : Word) (s : State) : Host.Outcome State Fault Refusal :=
  .next (if !s.ready ∨ HUB_RST_KEY.of v ≠ 0x5A then s.discard else if HUB_RST_COLD.on v then s.coldReset else s)

/-- JTAG_COLD_RESET (19 R518). -/
def execJtagColdReset (s : State) : Host.Outcome State Fault Refusal :=
  .next (if s.bit PWR_IN_STAT_AUXOK then s.coldReset else s)

/-- STAGE_END (17 R452). -/
def execStageEnd (r : StageResult) (s : State) : Host.Outcome State Fault Refusal := .next (s.endStage r)

/-- STAGE_LIMIT (17 R454): the units that have not finished have failed; without its firmware the MC is in recovery (DEDUCED, log 26). -/
def execStageLimit (r : StageResult) (s : State) : Host.Outcome State Fault Refusal :=
  .next (if s.inStage 1 && !s.mc.waiting && !s.mc.recovery then { s with mc := { s.mc with recovery := true } } else s.endStage r)

/-- JTAG_FIRMWARE_LOAD (17 R458): in recovery an image goes into slot A, and the boot ROM verifies again. -/
def execJtagFirmwareLoad (image : FwImage) (s : State) : Host.Outcome State Fault Refusal :=
  .next (if s.mc.recovery then
    ({ s with flash := { s.flash with images := image :: s.flash.images.drop 1 } } : State).verifyFw else s)

/-! ## The monument mailbox (17 R467) -/

/-- The unrevoked plat-key slots that are programmed. -/
def State.liveSlots (s : State) : List Nat :=
  (List.range 8).filter (fun i => (s.otp.slots.getD i none).isSome && !s.otp.revoke.testBit i)

/-- Who signed a request: the unrevoked slots with the trailer's key. -/
def State.signers (s : State) (bs : List Byte) : List Nat :=
  s.liveSlots.filter (fun i => s.otp.slots.getD i none == some (keyDigest bs))

/-- The status of a request before its effect (Table 17-10); `none` lets it act. -/
def State.mailboxBad (s : State) (bs : List Byte) (sigOk : Bool) (image : FwImage) : Option Nat :=
  let ty := numAt bs 0 2
  let key := if ty = 4 then keyDigest bs == s.fuse.factkey else !(s.signers bs).isEmpty
  if !sigOk || !key || ty == 0 || decide (4 < ty) || numAt bs 2 2 != 0 then some 1
  else if numAt bs 8 8 ≠ s.fuse.serial then some 2
  else if numAt bs 4 4 ≤ s.flash.count then some 3
  else
    match ty with
    | 1 => if image.good && decide (s.otp.min ≤ image.svn) then none else some 7
    | 2 => if s.otp.slots.contains none then none else some 4
    | 3 =>
      let i := numAt bs 16 1
      if 8 ≤ i then some 1
      else if s.liveSlots == [i] then some 5
      else if (s.signers bs).any (fun k => k != i) then none
      else some 1
    | _ => none

/-- The effect of an accepted request (Table 17-9). -/
def State.mailboxAct (s : State) (bs : List Byte) (image : FwImage) : State :=
  let s := { s with flash := { s.flash with count := numAt bs 4 4 } }
  match numAt bs 0 2 with
  | 1 =>
    let i := 1 - s.flash.active
    let imgs := if i = 0 then image :: s.flash.images.drop 1 else (s.flash.images.take 1) ++ [image]
    { s with flash := { s.flash with images := imgs, next := some i } }
  | 2 =>
    let i := (s.otp.slots.findIdx? (fun x => x.isNone)).getD 0
    let s := { s with otp := { s.otp with slots := s.otp.slots.set i (some (beNat ((bs.drop 16).take 48))) } }
    s.wr MON_KEYS_PROG (s.rd MON_KEYS_PROG ||| 2 ^ i)
  | 3 =>
    let r := s.otp.revoke ||| 2 ^ (numAt bs 16 1 % 8)
    ({ s with otp := { s.otp with revoke := r } } : State).wr MON_KEYS_REVOKED r
  | _ =>
    let s := (s.logAppend (.clear (numAt bs 4 4)) true).1
    ({ s with mc := { s.mc with kept := [] } } : State).showField

/-- MAILBOX_REQUEST (R467): MON_MBX_CTL.GO; `req` is the request as the MC reads it, `sigOk` whether its signature verifies,
`image` its firmware image, `flashOk` whether the flash takes the write. -/
def execMailboxRequest (req : Option (List Byte)) (sigOk : Bool) (image : FwImage) (flashOk : Bool) (s : State) :
    Host.Outcome State Fault Refusal :=
  let done (s : State) (st : Nat) : State := (s.wr MON_MBX_CTL_STATUS st).set1 MON_MBX_CTL_DONE
  if !s.ready || s.bit MON_MBX_CTL_BUSY || s.plat.load.isSome then .next (done s 8)
  else
    match req with
    | none => .next (done s 1)
    | some bs =>
      match s.mailboxBad bs sigOk image with
      | some st => .next (done s st)
      | none =>
        if flashOk then .next (done (s.mailboxAct bs image) 0)
        else .next (done ((s.set1 MON_STAT_WFAIL).raise { cls := 2, subtype := 0xD5, level := 3 }) 6)

/-! ## The crash log (19 R519) -/

/-- A record of the crash log: SPECIFIC bit 63 is set. -/
def ErrRec.crashed (r : ErrRec) : ErrRec := { r with specific := r.specific % 2 ^ 63 + 2 ^ 63 }

/-- CRASH_LOG_DELIVERY (R519): after ready, to the first PF ring that is enabled. -/
def execCrashLogDelivery (s : State) : Host.Outcome State Fault Refusal :=
  match pfs.find? (fun k => (s.fn k).bookOn) with
  | none => .next s
  | some fn =>
    if s.ready && s.mc.crashPend then
      let n := s.mc.crash.length
      let s := s.mc.crash.foldl (fun (s : State) r => s.bookGen fn r.crashed.book) s
      let s := match s.mc.crashSum with | some b => s.bookGen fn b | none => s
      let s := { s with mc := { s.mc with crash := [], crashSum := none, crashPend := false } }
      .next ((s.wr CRASH_NREC n).set1 CRASH_VALID)
    else .next s

end Sys2Proof.Machine
end

