-- ==== Sys2Proof/Machine/ClockCmds.lean ====
section
/-!
DEFINITION. The commands of beats and clocks: BEAT_START and STEP_TAIL (02_the_frame.md R33, R43; 08 R228, R237, R252), steps and
their PLLs (14_clocks.md R397 to R401), the reference, die and region PLLs (R406, R407), droop stretching (R404, R405).
-/
namespace Sys2Proof.Machine

/-! ## Beats -/

/-- The pattern of beat `b` and whether it is a beat of the closure reserve (08 R228). -/
def Region.beatPat (g : Region) (whole b : Nat) : Nat × Bool := ((g.beatEnt whole b).elim 0 (fun x => x.pat), decide (whole ≤ b))

/-- The hints that region `n` sends in beat `b` of a frame of `total` beats as (cycle, domain, level), by cycle (08 R252): those of the
beat's pattern 64 cycles ahead of their own, and those of the first 64 cycles of the beat that follows. -/
def Region.hintsIn (g : Region) (whole total b : Nat) : List (Nat × Nat × Nat) :=
  let now := (g.hints.filter (fun h => h.pat == (g.beatPat whole b).1 && decide (64 ≤ h.cyc))).map (fun h =>
    (h.cyc - 64, h.dom, h.level))
  let next := if total ≤ b + 1 then []
    else (g.hints.filter (fun h => h.pat == (g.beatPat whole (b + 1)).1 && decide (h.cyc < 64))).map (fun h =>
      (h.cyc + 192, h.dom, h.level))
  sortBy (fun (x : Nat × Nat × Nat) y => decide (x.1 ≤ y.1)) (now ++ next)

/-- The load level that domain `k` has at cycle `c` of the beat; a level holds until the next hint (08 R252). -/
def Region.levelAt (g : Region) (c k : Nat) : Nat :=
  (g.hintq.filter (fun h => decide (h.1 ≤ c) && h.2.1 == k)).foldl (fun _ h => h.2.2) (g.levels.getD k 0)

/-- The levels that the hints for beat 0 leave, which are sent in the boundary gap (08 R252). -/
def Region.firstLevels (g : Region) (whole : Nat) : List Nat :=
  (List.range 4).map (fun k => (sortBy (fun (x : Hint) y => decide (x.cyc ≤ y.cyc)) (g.hints.filter (fun h =>
    h.pat == (g.beatPat whole 0).1 && h.dom == k && decide (h.cyc < 64)))).foldl (fun _ h => h.level) (g.levels.getD k 0))

/-- Begin beat `b` of a frame of `total` beats: its pattern, its hints. -/
def Region.enterBeat (g : Region) (whole total b : Nat) : Region :=
  let x := g.beatPat whole b
  let levels := if b = 0 then g.firstLevels whole else (List.range 4).map (fun k => g.levelAt 255 k)
  let q := g.hintsIn whole total b
  let g := ((g.wr RGN_BEAT_PAT x.1).wr RGN_BEAT_RSV (if x.2 then 1 else 0)).wr RGN_BEAT_VAR g.varIdx
  { g.wr RGN_BEAT_GAP 0 with beat := b, levels := levels, hintq := q, took := [] }

/-- Beat 0 at a block (06 R173, 10 R287): void marks clear; a core that waits in TFRAME writes its register and goes on behind it, a core that was
cut goes on at its frame entry; the cores of a
context admitted in this frame start at SC_PC (19 R504). -/
def Block.beat0 (frame : Nat) (overran starts : Bool) (b : Block) : Block :=
  let c : Core := { b.core with tframe := frame % 2 ^ 32, ovr := overran }
  let c : Core := match c.mode with
    | .frame rd => (c.set rd (BitVec.ofNat 32 frame)).retire c.pc
    | .cut => { c with mode := .running, pc := c.tfentry, inTrap := false, cut := true }
    | .halted => if starts && b.bit BLK_STN_MEMBER then { c with mode := .running } else c
    | m => { c with mode := m }
  { b with core := c, seq := { b.seq with lastCyc := 0, voidSight := false, voidSeen := false }, testRun := 0 }

/-- The commands that the active plat declares for block index `b` of region `n` at its step (11 R314). -/
def State.declOf (s : State) (n b : Nat) : List Cmd :=
  match s.plat.active with
  | none => []
  | some p =>
    ((((p.schedule.find? (fun x => x.1 == n)).map (fun x => x.2)).getD []).filter (fun d =>
      d.b == b && d.step == (s.region n).cur)).map (fun d => d.cmd)

/-- Region cycles of the boundary gap, which a held region does not have (20 R525, 06 R167). -/
def Block.gapCycles (e : Env) (c : Nat) (b : Block) : Block :=
  (((b.count e 0x001 none c).count e 0x002 none c).chkRun c).coreCycles c

/-- Beat 0 at a block of the device; a fenced block's stand-in takes the frame's planned drives (18 R485). -/
def State.blockBeat0 (s : State) (gap k : Nat) : State :=
  let b := s.block k
  let p := b.rd RT_CTL_PARCEL
  let c := s.ctx p
  let starts := s.activeP p && c.first == s.frame.num
  let g := s.region (regionOf k)
  if s.absent k then
    if g.isFenced (indexOf k) && s.activeP p then
      s.setBlock k ((List.range 64).foldl (fun (b : Block) e =>
        b.standInDrives s.frame.num (s.declOf (regionOf k) (indexOf k)) e) b)
    else s
  else if g.rd PWR_DOM_STAT_STATE (domainOf (indexOf k)) = 1 then
    s.putBlock k (((b.gapCycles (s.env k 0) gap).rebase gap).beat0 s.frame.num (s.activeP p && c.lastOver) starts)
  else s

/-- The beats of a frame of region `n`, the partial beat at its end included (02 R33). -/
def State.frameBeats (s : State) (n : Nat) : Nat := (s.cycAt n s.frameLen + 255) / 256

/-- BEAT_START (08 R228, R252, 02 R33): the next beat of region `n`; in the boundary gap, once 200 periods have passed, beat
0 of the frame. A region that does not issue, or a gap that still lasts, has no beat. -/
def execBeatStart (n : Nat) (s : State) : Host.Outcome State Fault Refusal :=
  let g := s.region n
  if 24 ≤ n ∨ g.lost ∨ s.frame.running = false then .next s
  else if g.bit RGN_BEAT_GAP then
    if s.frame.pos < 200 ∨ s.frame.realign.isSome then .next s
    else
      let gap := if g.stopped then 0 else 100 * stepMult s.gradeIdx g.cur
      let s := s.setRegion n { g.enterBeat (s.wholeBeats n) (s.frameBeats n) 0 with stopped := false }
      let s := s.onRegion n 0 (fun e g =>
        let g := g.rebase gap
        ((List.range 64).foldl (fun (g : Region) i =>
          g.setStrm i { g.strm i with j := 0, since := none, forced := false }) g).tryAll e)
      .next ((s.blocksIn n).foldl (fun (s : State) k => s.blockBeat0 gap k) s)
  else if g.stopped then .next s
  else .next (s.setRegion n (g.enterBeat (s.wholeBeats n) (s.frameBeats n) (g.beat + 1)))

/-! ## Steps -/

/-- The step that region `n`'s controller takes for the coming boundary (14 R397): in a lock group, the slowest that any member
reports. -/
def State.wantedStep (s : State) (n : Nat) : Nat :=
  (s.group n).foldl (fun m k => max m ((s.region k).wanted (s.renv k 0))) ((s.region n).wanted (s.renv n 0))

/-- Raise the targets of the domains that are on to a committed step up (14 R401). -/
def Region.raiseVids (e : REnv) (g : Region) (step : Nat) : Region :=
  if step < g.cur ∧ (g.vidOver e.grade step).isEmpty then
    (List.range 4).foldl (fun (g : Region) k =>
      if g.rd PWR_DOM_STAT_STATE k = 1 then g.wr PWR_DOM_STAT_VID (g.vidAt e.grade k step (g.rd PWR_DOM_CTL_OFS k)) k else g) g
  else g

/-- The test of Table 14-2 that refuses step `want` in a member of region `n`'s lock group, the first of them (08 R244). -/
def State.commitWhy (s : State) (n want : Nat) : Option Nat :=
  (s.group n).findSome? (fun m => (s.region m).commitTest (s.renv m 0) want (s.region m).wantsBoost (s.pinned m))

/-- STEP_COMMIT (14 R397, R398, 02 R44) of region `n` at the nominal reserve start: nothing while a cut-over frame is named, which
defers requests (11 R322). In a lock group the leader, its member with the lowest index (08 R243), commits the slowest step that any
member requested for every member; when one would refuse it, every member counts that refusal (08 R244; DEDUCED, log 74). -/
def execStepCommit (n : Nat) (s : State) : Host.Outcome State Fault Refusal :=
  let g := s.region n
  let want := s.wantedStep n
  if g.lost ∨ s.arming ∨ want = g.cur ∨ g.bit RGN_CLK_STAT_COMMIT ∨ (s.group n).any (fun m => decide (m < n)) then .next s
  else
    match s.commitWhy n want with
    | none => .next ((s.group n).foldl (fun (s : State) m => s.onLiveRegion m 0 (fun e g => (g.commitStep want).raiseVids e want)) s)
    | some why =>
      let s := (s.group n).foldl (fun (s : State) m => s.onLiveRegion m 0 (fun e g => g.refuseStep e why)) s
      .next (if why = 3 then s.set1 FRM_STAT_STEP_REFUSED else s)

/-- A step that ends without being taken leaves the targets of the step in force. -/
def Region.keepVids (e : REnv) (old g : Region) : Region :=
  if old.bit RGN_CLK_STAT_COMMIT && !g.bit RGN_CLK_STAT_COMMIT then g.setVids e else g

/-- IDLE_PLL_LOCK (14 R399). -/
def execIdlePllLock (n : Nat) (s : State) : Host.Outcome State Fault Refusal :=
  .next (s.onLiveRegion n 0 (fun _ g => g.pllLock))

/-- PLL_LOCK_DEADLINE (14 R399). -/
def execPllLockDeadline (n : Nat) (s : State) : Host.Outcome State Fault Refusal :=
  .next (s.onLiveRegion n 0 (fun e g => Region.keepVids e g (g.pllDeadline e)))

/-- REGULATOR_REPORT (14 R401). -/
def execRegulatorReport (n : Nat) (s : State) : Host.Outcome State Fault Refusal :=
  .next (s.onLiveRegion n 0 (fun _ g => g.regReport))

/-- STEP_TAIL (02 R43, R45, 14 R399): the region stops issuing, which is its deadline, when its idle PLL is locked and, in a lock
group, its leader sends go, which needs the lock of every member; else, or when it was pinned after the commit (08 R244), it refuses
the step and runs on. -/
def execStepTail (n : Nat) (s : State) : Host.Outcome State Fault Refusal :=
  let g := s.region n
  if g.lost ∨ g.stopped ∨ g.bit RGN_CLK_STAT_COMMIT = false then .next s
  else if s.pinned n then .next (s.onLiveRegion n 0 (fun e g => Region.keepVids e g (g.refuseStep e 4)))
  else if (s.group n).all (fun m => (s.region m).bit RGN_CLK_STAT_COMMIT && (s.region m).bit RGN_CLK_STAT_LOCKB) then
    .next ((s.tailDeadline n).onLiveRegion n 0 (fun _ g => { g with stopped := true, go := true }))
  else .next (s.onLiveRegion n 0 (fun e g => Region.keepVids e g (g.refuseStep e 5)))

/-! ## The reference and the PLLs -/

/-- REF_LOST (14 R406, 22 R558): the reference PLL runs on holdover. -/
def execRefLost (s : State) : Host.Outcome State Fault Refusal :=
  if s.bit CLK_STAT_HOLDOVER then .next s
  else
    let s := ((s.wr CLK_STAT_REFOK 0).set1 CLK_STAT_HOLDOVER).set1 CLK_STAT_REFLOST
    .next (s.raise { cls := 8, subtype := 0x91, level := 3 })

/-- REF_RETURN (14 R406, 22 R558): the hub switches back at the tick of the next frame. -/
def execRefReturn (s : State) : Host.Outcome State Fault Refusal :=
  if s.bit CLK_STAT_HOLDOVER && !s.frame.refBack then
    let s := s.raise { cls := 8, subtype := 0x92, level := 3 }
    .next { s with frame := { s.frame with refBack := true } }
  else .next s

/-- DIE_PLL_LOST (14 R407): the die's six regions are lost with cause 0x7. -/
def execDiePllLost (die : Nat) (s : State) : Host.Outcome State Fault Refusal :=
  if die < 4 ∧ (s.rd CLK_STAT_DIELOCK).testBit die then
    let s := (s.wr CLK_STAT_DIELOCK (s.rd CLK_STAT_DIELOCK - 2 ^ die)).set1 CLK_STAT_DIEFAIL
    let s := s.raise { cls := 8, subtype := 0x95, level := 3, fatal := true, die := die }
    .next (s.loseRegions 7 ((List.range 6).map (fun f => 6 * die + f)))
  else .next s

/-- REGION_PLL_LOST (14 R407): the region is lost with cause 0x8. -/
def execRegionPllLost (n : Nat) (s : State) : Host.Outcome State Fault Refusal :=
  if 24 ≤ n ∨ (s.region n).lost then .next s
  else .next ((s.onRegion n 0 (fun e g => g.raise e { cls := 8, subtype := 0x93, level := 2 })).loseRegions 8 [n])

/-! ## Droop stretching (14 R404, R405) -/

/-- DROOP_TRIP of domain `dom` at cycle `cyc`: the first cycle skipped is the second after it. -/
def execDroopTrip (n cyc dom : Nat) (s : State) : Host.Outcome State Fault Refusal :=
  .next ((s.settleDomain n dom (cyc + 2)).onLiveRegion n cyc (fun _ g =>
    { g.droopTrip dom with droop := g.droop.set dom true }))

/-- DROOP_CLEAR of domain `dom` at cycle `cyc`: the skipping stops 16 cycles later; `skipped` core cycles were skipped. -/
def execDroopClear (n cyc dom skipped : Nat) (s : State) : Host.Outcome State Fault Refusal :=
  let s := s.settleDomain n dom (cyc + 16)
  .next ((s.slipDomain n dom (cyc + 16) skipped).onLiveRegion n cyc (fun _ g =>
    { g.droopClear dom skipped with droop := g.droop.set dom false }))

end Sys2Proof.Machine
end

