-- ==== Sys2Proof/Machine/CoreCmds.lean ====
section
/-!
DEFINITION. The commands of a block's scalar core (06_scalar_core.md R163 to R173, R182, R185, R186).
-/
namespace Sys2Proof.Machine

/-- A core instruction of one kind: executed when it is the next instruction of block `blk`'s core and the block's clock
runs (06 R163); no other instruction is executed by the command. -/
def State.coreOf (s : State) (blk cyc : Nat) (kind : Rv → Bool) : State :=
  match (s.block blk).nextInstr with
  | some i => if kind i then s.onLive blk cyc (fun e b => b.coreStep e) else s
  | none => s

/-- TPUSH (06 R171). -/
def execTpush (blk cyc : Nat) (s : State) : Host.Outcome State Fault Refusal :=
  .next (s.coreOf blk cyc (fun i => match i with | .tpush _ _ => true | _ => false))

/-- TFULL (06 R172). -/
def execTfull (blk cyc : Nat) (s : State) : Host.Outcome State Fault Refusal :=
  .next (s.coreOf blk cyc (fun i => match i with | .tfull _ _ => true | _ => false))

/-- TREL (06 R172). -/
def execTrel (blk cyc : Nat) (s : State) : Host.Outcome State Fault Refusal :=
  .next (s.coreOf blk cyc (fun i => match i with | .trel _ => true | _ => false))

/-- TADDR.T (06 R172). -/
def execTaddrT (blk cyc : Nat) (s : State) : Host.Outcome State Fault Refusal :=
  .next (s.coreOf blk cyc (fun i => match i with | .taddrT _ _ => true | _ => false))

/-- TADDR.F (06 R172). -/
def execTaddrF (blk cyc : Nat) (s : State) : Host.Outcome State Fault Refusal :=
  .next (s.coreOf blk cyc (fun i => match i with | .taddrF _ _ => true | _ => false))

/-- TFENCE (06 R173). -/
def execTfence (blk cyc : Nat) (s : State) : Host.Outcome State Fault Refusal :=
  .next (s.coreOf blk cyc (fun i => match i with | .tfence => true | _ => false))

/-- TFRAME (06 R173). -/
def execTframe (blk cyc : Nat) (s : State) : Host.Outcome State Fault Refusal :=
  .next (s.coreOf blk cyc (fun i => match i with | .tframe _ => true | _ => false))

/-- TCRC.B (06 R182). -/
def execTcrcB (blk cyc : Nat) (s : State) : Host.Outcome State Fault Refusal :=
  .next (s.coreOf blk cyc (fun i => match i with | .tcrc 1 _ => true | _ => false))

/-- TCRC.H (06 R182). -/
def execTcrcH (blk cyc : Nat) (s : State) : Host.Outcome State Fault Refusal :=
  .next (s.coreOf blk cyc (fun i => match i with | .tcrc 2 _ => true | _ => false))

/-- TCRC.W (06 R182). -/
def execTcrcW (blk cyc : Nat) (s : State) : Host.Outcome State Fault Refusal :=
  .next (s.coreOf blk cyc (fun i => match i with | .tcrc 4 _ => true | _ => false))

/-- MRET (06 R169). -/
def execMret (blk cyc : Nat) (s : State) : Host.Outcome State Fault Refusal :=
  .next (s.coreOf blk cyc (fun i => match i with | .mret => true | _ => false))

/-- TERR_WRITE (06 R185): a CSR instruction that names terr. -/
def execTerrWrite (blk cyc : Nat) (s : State) : Host.Outcome State Fault Refusal :=
  .next (s.coreOf blk cyc (fun i => match i with | .csr _ _ _ num => num == 0x7C2 | _ => false))

/-- SCALAR_INSTRUCTION (06 R163): the core executes its next instruction, whatever it is; a fetch that fails takes its
exception. -/
def execScalarInstruction (blk cyc : Nat) (s : State) : Host.Outcome State Fault Refusal :=
  .next (s.onLive blk cyc (fun e b => b.coreStep e))

/-- SLOT_LOAD_TIMEOUT (05 R137). -/
def execSlotLoadTimeout (blk cyc : Nat) (s : State) : Host.Outcome State Fault Refusal :=
  .next (s.onLive blk cyc (fun e b => b.loadTimeout e false))

/-- CORE_START (06 R186): the MC writes SC_CTL.START through its management path. -/
def execCoreStart (blk cyc : Nat) (s : State) : Host.Outcome State Fault Refusal :=
  .next (s.onLive blk cyc (fun _ b => b.coreStart))

end Sys2Proof.Machine
end

