-- ==== Sys2Proof/Machine/CtxCmds.lean ====
section
/-!
DEFINITION. The commands of contexts (19_contexts_recovery.md R502 to R513).
-/
namespace Sys2Proof.Machine

/-- CTX_ADMIT (R502, R503): refused with the first code of Table 19-2 that holds, or the parcel enters loading. -/
def execCtxAdmit (fn ring slot : Nat) (s : State) : Host.Outcome State Fault Refusal :=
  match s.running fn ring slot 8 with
  | none => .next s
  | some x =>
    let i : ItemRef := { fn := fn, ring := ring, slot := slot }
    let p := x.num 16 1 % 16
    match s.admitCode p (x.num 24 6) with
    | some code => .next (s.finish i 7 code)
    | none => .next ((s.wr CTX_STAT_STATE 1 p).setCtx p { firstWant := x.num 24 6, admitItem := some i })

/-- CTX_TEARDOWN (R506 to R508): refused with 0x10 for an idle or clearing parcel; ends a loading; joins a teardown that runs; else
requests one. -/
def execCtxTeardown (fn ring slot : Nat) (s : State) : Host.Outcome State Fault Refusal :=
  match s.running fn ring slot 9 with
  | none => .next s
  | some x =>
    let i : ItemRef := { fn := fn, ring := ring, slot := slot }
    let p := x.num 16 1 % 16
    let cause := if isPf fn then 1 else 2
    let wait (s : State) : State := s.setCtx p { s.ctx p with tearItems := (s.ctx p).tearItems ++ [i] }
    match s.pstate p with
    | 1 => .next ((s.teardown p cause).finish i 0 0)
    | 2 => .next (wait (s.teardown p cause))
    | 3 => .next (wait s)
    | _ => .next (s.finish i 7 0x10)

/-- TEARDOWN_REQUEST (R505, R507, R508): a request for one of the causes of Table 19-3 reaches the MC. -/
def execTeardownRequest (p cause : Nat) (s : State) : Host.Outcome State Fault Refusal :=
  if p = 0 ∨ 15 < p ∨ cause = 0 ∨ 9 < cause then .next s else .next (s.teardown p cause)

/-- LOADING_DONE (R503). -/
def execLoadingDone (p : Nat) (s : State) : Host.Outcome State Fault Refusal :=
  if s.pstate p = 1 ∧ (s.ctx p).loaded = false then .next (s.finishLoading p) else .next s

/-- CLEARING_DONE (R512). -/
def execClearingDone (p : Nat) (s : State) : Host.Outcome State Fault Refusal :=
  if s.pstate p = 4 then .next (s.finishClearing p) else .next s

end Sys2Proof.Machine
end

