-- ==== Sys2Proof/Machine/FaultCmds.lean ====
section
/-!
DEFINITION. The commands of fault handling (18_faults_repair.md R474 to R499): records on their way, the suspect ledger, retests,
fences, the loss of regions, the fleet test packs.
-/
namespace Sys2Proof.Machine

/-! ## Records (R474, R475) -/

/-- The place of the record that leaves a queue next: the oldest fatal one, else the oldest (08 R237). -/
def nextRecord (q : List ErrRec) : Nat := (q.findIdx? (fun r => r.fatal)).getD 0

/-- REGION_RECORD_RECEIVED: the next record of a block's queue reaches its region controller, which acts on it and queues it; `t` is
what the controller traces it to. A level rise sets BLK_MX_STAT.SUSPECT (R478). -/
def execRegionRecordReceived (blk : Nat) (t : Trace) (s : State) : Host.Outcome State Fault Refusal :=
  let n := regionOf blk
  let k := nextRecord (s.block blk).recq
  match (s.block blk).recq[k]? with
  | none => .next s
  | some r =>
    if (s.region n).lost then .next s
    else
      let x := (s.region n).act (s.renv n 0) r t (s.block blk).failPlace
      let b : Block := { s.block blk with recq := (s.block blk).recq.eraseIdx k }
      let s := s.setBlock blk (if x.2.2 then b.set1 BLK_MX_STAT_SUSPECT else b)
      .next (s.putRegion n (x.1.queue x.2.1))

/-- HUB_RECORD_RECEIVED: the controller of region `n` forwards a record, a fatal one first (08 R237); the MC requests the teardown that
it asks for, and places it in the hub error queue. -/
def execHubRecordReceived (n : Nat) (s : State) : Host.Outcome State Fault Refusal :=
  let g := s.region n
  let k := nextRecord g.recq
  match g.recq[k]? with
  | none => .next s
  | some r => .next (((s.setRegion n { g with recq := g.recq.eraseIdx k }).tearFor r).hubQueue r)

/-! ## The ledger, retests, fences -/

/-- SUSPECT_CLEAR (R481) of ledger place `i`. -/
def execSuspectClear (n i : Nat) (s : State) : Host.Outcome State Fault Refusal :=
  if (s.region n).lost then .next s
  else
    let x := (s.region n).suspectClear (s.renv n 0) i
    let s := s.putRegion n x.1
    match x.2 with
    | some b => .next (s.setBlock (chipBlk n b) ((s.block (chipBlk n b)).wr BLK_MX_STAT_SUSPECT 0))
    | none => .next s

/-- LEDGER_RELEASE (R481) of ledger place `i`. -/
def execLedgerRelease (n i : Nat) (s : State) : Host.Outcome State Fault Refusal :=
  .next (s.onLiveRegion n 0 (fun e g => g.ledgerRelease e i))

/-- LEDGER_CLEAR (R499): RGN_SUSP_SEL.CLR with IDX. -/
def execLedgerClear (n b : Nat) (s : State) : Host.Outcome State Fault Refusal :=
  .next (if !s.ready then s.discard else s.onLiveRegion n 0 (fun _ g => g.ledgerClear b))

/-- HOST_FENCE (R499): RGN_SUSP_SEL.FENCE with B. -/
def execHostFence (n b : Nat) (s : State) : Host.Outcome State Fault Refusal :=
  .next (if !s.ready then s.discard else s.onLiveRegion n 0 (fun _ g => g.hostFence b))

/-- RETEST (R488, R489): a scratchpad granule that was retested holds the last pattern, 0xAA, with valid check bits; a crossing queue found
faulty is marked in its segment's XQ_CAL.DEF (08 Table 8-13), whichever region holds the segment. -/
def execRetest (n : Nat) (r : Retest) (s : State) : Host.Outcome State Fault Refusal :=
  let g := s.region n
  let s := match r with
    | .scratchUe b addr _ =>
      if g.lost ∨ g.isFenced b then s
      else
        let k := chipBlk n b
        s.setBlock k ((s.block k).spWrite (addr / 16 * 16) (List.replicate 16 0xAA))
    | _ => s
  let t := s.onLiveRegion n 0 (fun e g => g.retest e r)
  .next (match r with
    | .queue a q =>
      if g.lost = false ∧ (g.retestHard (s.renv n 0) r).1 then t.showQueueDef { kind := 4, src := 2, unit := n / 6 + 2 ^ 2 * a + 2 ^ 5 * q } else t
    | _ => t)

/-- REGION_CONTROLLER_FAULT (Table 18-7, 0xA). -/
def execRegionControllerFault (n : Nat) (s : State) : Host.Outcome State Fault Refusal :=
  if n < 24 then .next (s.loseRegions 0xA [n]) else .next s

/-- MANAGEMENT_PATH_CUT (Table 18-7, 0xB). -/
def execManagementPathCut (n : Nat) (s : State) : Host.Outcome State Fault Refusal :=
  if n < 24 then .next (s.loseRegions 0xB [n]) else .next s

/-! ## Test packs (R494 to R496) -/

/-- A test entry's bytes (Table 18-12). -/
def testEntry (bs : List Byte) (i : Nat) : TestEnt :=
  let a := 64 + 32 * i
  { fa := numAt bs a 1 % 16, fb := numAt bs a 1 / 16, k := numAt bs (a + 2) 2, seed := numAt bs (a + 4) 4, expect := numAt bs (a + 8) 4 }

/-- Is a pack's layout invalid (Tables 18-11 and 18-12)? -/
def packBad (bs : List Byte) : Bool :=
  let n := numAt bs 6 2
  numAt bs 0 4 != 0x4B415054 || numAt bs 4 2 != 1 || n == 0 || decide (64 < n) || bs.length != 64 + 32 * n + 256 ||
  numAt bs 12 2 == 0 || !zeroAt bs 14 16 || !zeroAt bs 19 64 ||
  (List.range n).any (fun i =>
    let t := testEntry bs i
    (pairRate t.fa t.fb).isNone || t.k == 0 || decide (8192 < t.k) || !zeroAt bs (65 + 32 * i) (66 + 32 * i) ||
      !zeroAt bs (76 + 32 * i) (96 + 32 * i))

/-- The first code of Table 18-13 that refuses a pack. -/
def State.packCode (s : State) (bs : List Byte) (sigOk : Bool) : Option Nat :=
  if !sigOk || !s.keyOk (keyDigest bs) then some 1
  else if packBad bs then some 2
  else if s.bit PLAT_STAT_TRANSLATED || !s.bit GRD_CTL_FILLEN then some 3
  else if s.tpk.lastId.any (fun n => decide (numAt bs 8 4 ≤ n)) then some 4
  else none

/-- TESTPACK (R494): `pack` is the image as the MC reads it, `none` when the read failed; `sigOk` whether its signature verifies. The
pack runs from the next boundary. -/
def execTestpack (fn ring slot : Nat) (pack : Option (List Byte)) (sigOk : Bool) (s : State) :
    Host.Outcome State Fault Refusal :=
  match s.running fn ring slot 0xA with
  | none => .next s
  | some _ =>
    let i : ItemRef := { fn := fn, ring := ring, slot := slot }
    match pack with
    | none => .next (s.finish i 9 0)
    | some bs =>
      match s.packCode bs sigOk with
      | some code => .next ((s.wr TPK_STAT_REFUSE code).finish i 7 code)
      | none =>
        let next := (numAt bs 8 4, numAt bs 12 2, numAt bs 16 3, (List.range (numAt bs 6 2)).map (testEntry bs))
        let s := { s with tpk := { s.tpk with lastId := some (numAt bs 8 4), next := some next } }
        .next ((if s.rd TPK_STAT_STATE = 0 then s.wr TPK_STAT_STATE 1 else s).finish i 0 0)

/-- TESTPACK_STOP (R494): TPK_CTL.STOP; the pack ends at the next boundary. -/
def execTestpackStop (s : State) : Host.Outcome State Fault Refusal :=
  .next (if !s.ready then s.discard else { s with tpk := { s.tpk with stop := true } })

/-- The boundary of a test pack (R494): a stopped pack ends, a loaded one starts. -/
def State.packBoundary (s : State) : State :=
  let s := if s.tpk.stop then { s.wr TPK_STAT_STATE 0 with tpk := { lastId := s.tpk.lastId } } else s
  match s.tpk.next with
  | none => s
  | some (id, period, regions, tests) =>
    { s.wr TPK_STAT_STATE 2 with
      tpk := { packId := id, period := period, regions := regions, tests := tests, lastId := s.tpk.lastId, start := s.frame.num } }

/-- The 32-bit value of the pattern source (R495) for operand `o`, index `r`, inner index `k`. -/
def testX (seed o r k : Nat) : Word :=
  let x : Word := BitVec.ofNat 32 seed ^^^ BitVec.ofNat 32 (o * 0x9E3779B9) ^^^ BitVec.ofNat 32 (r * 0x85EBCA6B) ^^^
    BitVec.ofNat 32 (k * 0xC2B2AE35)
  let x := x ^^^ (x >>> 16)
  let x := x * 0x7FEB352D
  let x := x ^^^ (x >>> 15)
  let x := x * 0x846CA68B
  x ^^^ (x >>> 16)

/-- The element of encoding `t` that the source takes from `x` (R495). -/
def testCode (t : Nat) (x : Word) : Nat :=
  let sign := bitsOf x 15 15
  match t with
  | 0 => bitsOf x 3 0
  | 1 => bitsOf x 7 0
  | 2 => sign * 2 ^ 7 + 7 * 2 ^ 3 + bitsOf x 2 0
  | 3 => sign * 2 ^ 7 + 15 * 2 ^ 2 + bitsOf x 1 0
  | 4 => sign * 2 ^ 15 + 127 * 2 ^ 7 + bitsOf x 6 0
  | _ => sign * 2 ^ 15 + 15 * 2 ^ 10 + bitsOf x 9 0

/-- What the array reads for a test tile (R495): M = N = 64, INIT = 0, codebook 31. -/
def testTileIn (b : Block) (t : TestEnt) : TileIn :=
  let g := b.grid 31
  let a (i k : Nat) : Nat := testCode t.fa (testX t.seed 0 i k)
  let c (k j : Nat) : Nat := testCode t.fb (testX t.seed 1 j k)
  { rate := (pairRate t.fa t.fb).getD 1, isInt := pairInt t.fa t.fb, m := 64, n := 64, k := t.k
    ai := fun i k => decodeInt t.fa g (a i k), bi := fun k j => decodeInt t.fb g (c k j)
    af := fun i k => decodeElem t.fa g (a i k), bf := fun k j => decodeElem t.fb g (c k j), init := fun _ _ => 0 }

/-- A test tile's pass and the CRC of its 64 drained rows. -/
def testPass (b : Block) (t : TestEnt) (fs : List CellFault) : PassOut × Nat :=
  let x := testTileIn b t
  let o := comparePass x.isInt 64 64 (b.rd BLK_CHK_TOL_TOL_EXP) (b.rd BLK_CHK_TOL_FLOOR) (accOf x) fs
  (o, crcOf 0 (o.data.flatMap (fun row => row.flatMap (fun w => leBytes 4 w))))

/-- Has the block no work left in the frame (02 R51): nothing queued, and its core neither runs nor stalls, so that nothing more is
pushed? -/
def Block.workDone (b : Block) : Bool :=
  b.seq.q.isEmpty && (match b.core.mode with | .running | .stall _ _ _ => false | .halted | .frame _ | .cut => true)

/-- Is the program image of a block being written for a cut-over (11 R320)? The MC begins with it when it names F (DESIGN CHOICE, log 67). -/
def State.imaging (s : State) (blk : Nat) : Bool :=
  s.arming && (match s.plat.active, s.plat.shadow with
    | some o, some p => imageChanges o p blk && freshBlock (some o) blk
    | _, _ => false)

/-- Does a block fill now (16 R441): its clock runs outside the boundary gap, no work is left to it, its image is not being written? -/
def State.idleNow (s : State) (blk : Nat) : Bool :=
  s.runs blk && !s.imaging blk && !(s.region (regionOf blk)).bit RGN_BEAT_GAP && (s.block blk).workDone

/-- Does a block take test tiles (R494, R496): in a tested region, with no work of its own left? -/
def State.takesTest (s : State) (blk : Nat) : Bool := s.tpk.regions.testBit (regionOf blk) && s.idleNow blk

/-- Does a block take fill tiles (16 R441, R442): fill is available and its domain has a fill rate? -/
def State.takesFill (s : State) (blk : Nat) : Bool :=
  s.fillOk && s.idleNow blk && (s.region (regionOf blk)).rd PCTL_FILL_FQ (domainOf (indexOf blk)) != 0

/-- The first mismatch of a fill or test tile (03 R84, R89): it is run again. -/
def Block.fillReplay (e : Env) (f : FailAt) (b : Block) : Block :=
  ((b.mxLast 0 0 f).set1 BLK_MX_STAT_REPLAY).count e 0x011 (some 0)

/-- A replay of a fill or test tile is clean: the event is transient (03 R85, R89), with context 0. -/
def Block.fillTransient (e : Env) (b : Block) : Block :=
  ((((b.wr BLK_MX_STAT_REPLAY 0).set1 BLK_MX_STAT_TRANS).inc BLK_MX_TRANS_COUNT BLK_MX_TRANS_SAT)).raise e.fill
    { cls := 5, subtype := 1, level := 0 }

/-- A fill tile that mismatches twice is poisoned, and its block is suspect (03 R85, R89). -/
def Block.fillPoison (e : Env) (f : FailAt) (b : Block) : Block :=
  ((((b.mxLast 0 1 f).wr BLK_MX_STAT_REPLAY 0).set1 BLK_MX_STAT_POISON).set1 BLK_MX_STAT_SUSPECT).count e 0x013 (some 0)
    |>.raise e.fill { cls := 5, subtype := 2, level := 0, suspect := true }

/-- A pass of a fill tile ends (16 R441): G4 × G4 with K = 256, M = N = 64 and codebook 31. `testRun` is 1 while a replay is due. -/
def Block.fillDone (e : Env) (fs : List CellFault) (b : Block) : Block :=
  let p := (testPass b { fa := 0, fb := 0, k := 256, seed := Config.fillSeed, expect := 0 } fs).1
  let b := b.count e 0x004 (some 0) (computeCycles 0 0 256)
  match p.fail with
  | some f => if b.testRun = 0 then { b.fillReplay e f with testRun := 1 } else { b.fillPoison e f with testRun := 0 }
  | none => if b.testRun = 0 then b else { b.fillTransient e with testRun := 0 }

/-- The second failure of a test tile: a poison of the block (R495), with context 0 (03 R89). -/
def Block.testPoison (e : Env) (test crc : Nat) (b : Block) : Block :=
  ((b.set1 BLK_MX_STAT_POISON).set1 BLK_MX_STAT_SUSPECT).raise e.fill
    { cls := 5, subtype := 0xE5, level := 1, suspect := true, specific := test + 2 ^ 32 * crc }

/-- TEST_TILE_DONE (R495): test `test` of the running pack ends on a block; `faults` are what the environment put into the drained
values. A tile that does not pass is run once more. The table has no row for a plain fill tile (16 R441): `test` = 64, which no pack
has, is one (DESIGN CHOICE, log 57). -/
def execTestTileDone (blk cyc test : Nat) (faults : List CellFault) (s : State) : Host.Outcome State Fault Refusal :=
  let key := (blk, test)
  let again := s.tpk.failed.contains key
  if test = 64 then .next (if s.takesFill blk then s.onBlock blk cyc (fun e b => b.fillDone e faults) else s)
  else
  match s.tpk.tests[test]? with
  | none => .next s
  | some t =>
    if s.rd TPK_STAT_STATE ≠ 2 ∨ s.takesTest blk = false ∨ (s.tpk.ran.contains key ∧ again = false) then .next s
    else
      let r := testPass (s.block blk) t faults
      let ok := r.1.fail.isNone && r.2 == t.expect
      let s := s.onBlock blk cyc (fun e b =>
        let b := b.count e 0x004 (some 0) (computeCycles t.fa t.fb t.k)
        let b := match r.1.fail with
          | some f => if again then (b.mxLast 0 1 f).wr BLK_MX_STAT_REPLAY 0 else b.fillReplay e f
          | none => if b.bit BLK_MX_STAT_REPLAY then b.fillTransient e else b
        if again && !ok then Block.testPoison e test r.2 b else b)
      let q := s.tpk
      let q : Tpk := { q with run := q.run + 1, ran := key :: q.ran
                              covered := if q.covered.contains blk then q.covered else blk :: q.covered
                              once := q.once + (if again && ok then 1 else 0), twice := q.twice + (if again && !ok then 1 else 0)
                              failed := if !again && !ok then key :: q.failed else q.failed.filter (fun x => x != key)
                              firstFail := if again && !ok && q.firstFail.isNone then some key else q.firstFail }
      let s := { s with tpk := q }
      .next (if again && !ok then s.set1 TPK_STAT_FAIL else s)

/-- Present, unfenced blocks of the tested regions. -/
def State.testBlocks (s : State) : Nat :=
  ((List.range 24).filter (fun n => s.tpk.regions.testBit n)).foldl (fun a n =>
    a + ((List.range 192).filter (fun b => !s.absent (chipBlk n b))).length) 0

/-- The body of a test pack result (Table 18-14). -/
def State.packBody (s : State) : List Byte :=
  let q := s.tpk
  let f := q.firstFail.getD (0xFFFFFFFF, 0)
  leBytes 4 q.packId ++ leBytes 4 q.round ++ leBytes 4 q.run ++ leBytes 2 q.once ++ leBytes 2 q.twice ++
    leBytes 2 q.covered.length ++ leBytes 2 (s.testBlocks - q.covered.length) ++ leBytes 4 f.1 ++ leBytes 1 f.2

/-- TESTPACK_ROUND (R496): PERIOD frames after its start a round ends with its record, and the next begins. -/
def execTestpackRound (s : State) : Host.Outcome State Fault Refusal :=
  if s.rd TPK_STAT_STATE ≠ 2 ∨ s.frame.num < s.tpk.start + s.tpk.period then .next s
  else
    let s := s.bookAll { type_ := 4, parcel := 0, frame := s.frame.num, body := s.packBody }
    let s := s.wr TPK_STAT_ROUNDS (min (s.rd TPK_STAT_ROUNDS + 1) 0xFFFF)
    .next { s with tpk := { s.tpk with round := s.tpk.round + 1, start := s.frame.num, run := 0, once := 0, twice := 0, covered := []
                                       ran := [], failed := [], firstFail := none } }

end Sys2Proof.Machine
end

