-- ==== Sys2Proof/Machine/FrameCmds.lean ====
section
/-!
DEFINITION. The commands of the frame sequencer (02_the_frame.md R35 to R41), of the latched reads (02 R36, 11 R332, 20 R527),
of the event counters (20 R523 to R528) and of the perturbation controls (20 R529 to R540).
-/
namespace Sys2Proof.Machine

/-! ## Frame registers. A BAR0 write before the device is ready is discarded and counted (17 R455). -/

/-- FRM_LEN_WRITE (R35): sealed has no effect; while a plat is loading it is discarded; out of range sets BAD_WRITE; else the
new length is in force from the next tick. -/
def execFrmLenWrite (v : Word) (s : State) : Host.Outcome State Fault Refusal :=
  let n := FRM_LEN_LEN.of v
  if !s.ready then .next s.discard
  else if s.sealed then .next s
  else if s.loading then .next s.discard
  else if n < 2000 ∨ 400000 < n then .next (s.set1 FRM_STAT_BAD_WRITE)
  else .next (s.wr FRM_LEN_LEN n)

/-- FRM_RES_WRITE (R35). -/
def execFrmResWrite (v : Word) (s : State) : Host.Outcome State Fault Refusal :=
  let n := FRM_RES_RES_Q.of v
  if !s.ready then .next s.discard
  else if s.sealed then .next s
  else if s.loading then .next s.discard
  else if n < 16 ∨ 200 < n then .next (s.set1 FRM_STAT_BAD_WRITE)
  else .next (s.wr FRM_RES_RES_Q n)

/-- FRM_PHASE_WRITE (R35, R40): discarded with BAD_WRITE while a context is active; LEN or more sets BAD_WRITE. The LEN of the range
test is the length in force: of a write made while a new FRM_LEN.LEN waits for its tick the spec does not say which of the two
counts (DESIGN CHOICE, log 60). -/
def execFrmPhaseWrite (v : Word) (s : State) : Host.Outcome State Fault Refusal :=
  let n := FRM_PHASE_PHASE.of v
  if !s.ready then .next s.discard
  else if s.anyActive || decide (s.frame.len ≤ n) then .next (s.set1 FRM_STAT_BAD_WRITE)
  else .next (s.wr FRM_PHASE_PHASE n)

/-- EPOCH_ARM (R37, Table 2-5): a write of FRM_CTL; EPOCH_ARM is set by writing 1. -/
def execEpochArm (v : Word) (s : State) : Host.Outcome State Fault Refusal :=
  if !s.ready then .next s.discard
  else .next { s with hub := { s.hub with frame := s.hub.frame.softWrite .frame (!s.sealed && !s.loading) 0x200C v } }

/-- FRM_NUM_LO_READ (R36): bits 47:32 are latched into FRM_NUM_HI. -/
def execFrmNumLoRead (s : State) : Host.Outcome State Fault Refusal :=
  .next { s.frmNumLo.1 with answer := .word s.frmNumLo.2 }

/-- CUT_FRAME_LO_READ (11 R332). -/
def execCutFrameLoRead (s : State) : Host.Outcome State Fault Refusal :=
  .next { s.cutFrameLo.1 with answer := .word s.cutFrameLo.2 }

/-- The signed distance in periods from the nearest instant at which POS equals PHASE; the earlier one on a tie (R39). `len` is
the length in force; of a stretched frame (20 R534) the spec does not say how the next instant is measured, and the model leaves the
added periods out (DESIGN CHOICE, log 61). -/
def epochSlip (len phase pos : Nat) : Int :=
  let d := (pos + len - phase % len) % len
  if 2 * d ≤ len then d else (d : Int) - len

/-- SLIP saturates at ±32,767 (Table 2-6). -/
def slipSat (z : Int) : Int := max (-32767) (min 32767 z)

/-- An EPOCH edge that does not realign is a check edge (R39). -/
def State.checkEdge (s : State) : State :=
  let z := epochSlip s.frame.len (s.rd FRM_PHASE_PHASE) s.frame.pos
  let s := s.wr FRM_STAT_SLIP (BitVec.ofInt 16 (slipSat z)).toNat
  if (s.rd FRM_CTL_EPOCH_TOL : Int) < z.natAbs then
    (s.set1 FRM_STAT_EPOCH_SLIP).raise { cls := 8, subtype := 0x90, level := 3 }
  else s

/-- The tick of frame 0 of a realignment is due in `n` periods (R37): POS restarts, a cut-over ends with reason 0x7 (Table 11-8),
committed steps are dropped (Table 14-5), the stretch that remains is cancelled (20 R534). -/
def State.realign (s : State) (n : Nat) : State :=
  let s := State.platVec s (s.cutAbandon 7)
  let s := s.allRegions (fun n g =>
    if g.bit RGN_CLK_STAT_COMMIT then
      Region.setVids (s.renv n 0)
        { ((g.wr RGN_CLK_STAT_NEXT g.cur).wr RGN_CLK_STAT_COMMIT 0).wr RGN_CLK_STAT_LOCKB 0 with report := false, go := false }
    else g)
  let s := s.allRegions (fun _ g => g.wr RGN_BEAT_GAP 1)
  let p : PertSt := { s.pert with stretchLeft := 0 }
  { s with frame := { s.frame with pos := 0, realign := some n, stretch := 0 }, pert := p }

/-- EPOCH_EDGE (R37 to R39): the edge comes when POS is `pos`, and is judged. -/
def execEpochEdge (pos : Nat) (s : State) : Host.Outcome State Fault Refusal :=
  if !s.frame.running then .next s
  else
    let s := s.pass (pos - s.frame.pos)
    if !s.bit FRM_CTL_EPOCH_ARM then .next s.checkEdge
    else if s.anyActive then .next ((s.wr FRM_CTL_EPOCH_ARM 0).set1 FRM_STAT_EPOCH_REFUSED).checkEdge
    else .next (s.realign (s.rd FRM_PHASE_PHASE % s.frame.len))

/-! ## Event counters -/

/-- EVC_LO_READ (R527): the count's high bits are latched. -/
def execEvcLoRead (at_ : CtrAt) (s : State) : Host.Outcome State Fault Refusal :=
  if s.evcThere at_ then .next { (s.evcLo at_).1 with answer := .word (s.evcLo at_).2 }
  else .next { s with answer := .word 0xFFFFFFFF }

/-- EVC_SNAP_LO_READ (R527): the snapshot's high bits are latched. -/
def execEvcSnapLoRead (at_ : CtrAt) (s : State) : Host.Outcome State Fault Refusal :=
  if s.evcThere at_ then .next { (s.evcSnapLo at_).1 with answer := .word (s.evcSnapLo at_).2 }
  else .next { s with answer := .word 0xFFFFFFFF }

/-- EVC_FREEZE (R528): a write of EVC_CTL; it acts at the next tick. -/
def execEvcFreeze (v : Word) (s : State) : Host.Outcome State Fault Refusal :=
  if !s.ready then .next s.discard else .next (s.wr EVC_CTL_FREEZE (EVC_CTL_FREEZE.of v))

/-- A frame-mode counter at a tick: snapshot and restart (R526). -/
def Evc.tick (c : Evc) (snap : Bool) : Evc :=
  if c.mode = 2 then { c with snap := if snap then c.cnt else c.snap, cnt := 0 } else c

/-- The counters at a tick (R526, R528): with FROZEN nothing changes until FREEZE is 0. -/
def State.tickEvcs (s : State) : State :=
  let was := s.frozen
  let want := s.bit EVC_CTL_FREEZE
  if was && want then s
  else
    let f := fun (m : SMap Evc) => m.foldl (fun m x => SMap.upd evcZero m x.1 (fun c => c.tick (!was))) m
    let s := { s with evcs := f s.evcs }
    let s := (List.range 24).foldl (fun (s : State) n => s.setRegion n { s.region n with evcs := f (s.region n).evcs }) s
    let s := s.listedBlocks.foldl (fun (s : State) k => s.setBlock k { s.block k with evcs := f (s.block k).evcs }) s
    s.wr EVC_CTL_FROZEN (if want then 1 else 0)

/-! ## Perturbation controls -/

/-- The words of the five controls in Table 20-2's order, with the fields beside EN. -/
def pertFields : Nat → List Field
  | 0 => [PERT_XDLY_REGION, PERT_XDLY_SLOT, PERT_XDLY_QUEUE, PERT_XDLY_DIR, PERT_XDLY_DELAY]
  | 1 => [PERT_SLHOLD_PORT, PERT_SLHOLD_START, PERT_SLHOLD_DUR]
  | 2 => [PERT_FSTR_ADD, PERT_FSTR_COUNT]
  | 3 => [PERT_TMO_A_KIND, PERT_TMO_A_REGION, PERT_TMO_A_B]
  | _ => [PERT_MISM_A_REGION, PERT_MISM_A_B, PERT_MISM_A_ALLB, PERT_MISM_A_PASSES]

/-- EN of a control. -/
def pertEn : Nat → Field
  | 0 => PERT_XDLY_EN
  | 1 => PERT_SLHOLD_EN
  | 2 => PERT_FSTR_EN
  | 3 => PERT_TMO_A_EN
  | _ => PERT_MISM_A_EN

/-- The values that a field may not take (Table 20-7, R535, R536): a write of one leaves the field unchanged. -/
def pertBad (f : Field) (v : Nat) : Bool :=
  if f = PERT_XDLY_REGION ∨ f = PERT_SLHOLD_PORT ∨ f = PERT_TMO_A_REGION ∨ f = PERT_MISM_A_REGION then decide (24 ≤ v)
  else if f = PERT_TMO_A_B ∨ f = PERT_MISM_A_B then decide (192 ≤ v)
  else if f = PERT_SLHOLD_DUR then decide (v < 1 ∨ 1000 < v)
  else if f = PERT_FSTR_ADD ∨ f = PERT_FSTR_COUNT ∨ f = PERT_MISM_B_EVERY ∨ f = PERT_MISM_B_COUNT then v == 0
  else false

/-- The value that field `f` has after a write of `v` to its register. -/
def State.pertVal (s : State) (f : Field) (v : Word) : Nat := if pertBad f (f.of v) then s.rd f else f.of v
/-- Is the control armed? -/
def State.pertArmed (s : State) (k : Nat) : Bool := s.bit (pertEn k)
/-- Is LOCK in force: writes to the controls are discarded (R531)? -/
def State.pertLocked (s : State) : Bool := s.bit PERT_STAT_LOCKED || s.pert.lockPend

/-- A write of a control register that no refusal stops: discarded when locked, or when it changes another field of an armed
control (R529, R531). -/
def State.pertWrite (s : State) (k : Nat) (v : Word) : State :=
  let fs := (pertFields k).filter (fun f => !pertBad f (f.of v))
  if s.pertLocked then s.discard
  else if s.pertArmed k && (pertFields k).any (fun f => f.of v != s.rd f) then s.discard
  else
    let s := fs.foldl (fun (s : State) f => s.wr f (f.of v)) s
    s.wr (pertEn k) ((pertEn k).of v)

/-- PERT_XDLY_ARM (R532): refused beyond the queue's margin minus 9, or where the slot holds no segment. -/
def execPertXdlyArm (v : Word) (s : State) : Host.Outcome State Fault Refusal :=
  let n := s.pertVal PERT_XDLY_REGION v
  let slot := PERT_XDLY_SLOT.of v
  let q := PERT_XDLY_QUEUE.of v
  let m := (s.region n).rd (if PERT_XDLY_DIR.on v then XQ_CAL_MDN else XQ_CAL_MUP) slot q
  if !s.ready then .next s.discard
  else if !s.pertLocked && (!segExists n slot || decide (m < PERT_XDLY_DELAY.of v + 9)) then .next s
  else .next (s.pertWrite 0 v)

/-- PERT_SLHOLD_ARM (R533). -/
def execPertSlholdArm (v : Word) (s : State) : Host.Outcome State Fault Refusal :=
  if !s.ready then .next s.discard else .next (s.pertWrite 1 v)

/-- PERT_FSTR_ARM (R534): refused when LEN + ADD exceeds 400,000. -/
def execPertFstrArm (v : Word) (s : State) : Host.Outcome State Fault Refusal :=
  if !s.ready then .next s.discard
  else if !s.pertLocked && decide (400000 < s.frame.len + s.pertVal PERT_FSTR_ADD v) then .next s else .next (s.pertWrite 2 v)

/-- PERT_TMO_ARM (R535): KIND 3 is refused. -/
def execPertTmoArm (v : Word) (s : State) : Host.Outcome State Fault Refusal :=
  if !s.ready then .next s.discard
  else if !s.pertLocked && PERT_TMO_A_KIND.of v == 3 then .next s else .next (s.pertWrite 3 v)

/-- PERT_MISM_ARM (R536): PASSES 0 is refused. -/
def execPertMismArm (v : Word) (s : State) : Host.Outcome State Fault Refusal :=
  if !s.ready then .next s.discard
  else if !s.pertLocked && PERT_MISM_A_PASSES.of v == 0 then .next s else .next (s.pertWrite 4 v)

/-- A write of PERT_TMO_B or PERT_MISM_B, which hold fields of an armed control (R529). -/
def State.pertWriteB (s : State) (k : Nat) (fs : List Field) (v : Word) : State :=
  if s.pertLocked then s.discard
  else if s.pertArmed k && fs.any (fun f => f.of v != s.rd f) then s.discard
  else (fs.filter (fun f => !pertBad f (f.of v))).foldl (fun (s : State) f => s.wr f (f.of v)) s

/-- PERT_LOCK (R531): every control is disarmed at the next step 7, and the registers are locked from then until cold reset. -/
def execPertLock (s : State) : Host.Outcome State Fault Refusal :=
  if !s.ready then .next s.discard
  else .next { s.set1 PERT_CTL_LOCK with pert := { s.pert with lockPend := true } }

/-- The forced timeout is done: EN clears (R535). -/
def State.forcedDone (s : State) : State := s.wr PERT_TMO_A_EN 0

/-- FORCED_TIMEOUT (R535) at region cycle `cyc`: the event that PERT_TMO_A and PERT_TMO_B name times out at once; nothing happens
where no such event waits. -/
def execForcedTimeout (cyc : Nat) (s : State) : Host.Outcome State Fault Refusal :=
  let n := s.rd PERT_TMO_A_REGION
  let blk := chipBlk n (s.rd PERT_TMO_A_B)
  let target := s.rd PERT_TMO_B_TARGET
  if !s.pert.acting.getD 3 false || !s.bit PERT_TMO_A_EN then .next s
  else
    match s.rd PERT_TMO_A_KIND with
    | 0 =>
      if target / 2 ^ 14 = 0 then
        let waits := match (s.block blk).sight with
          | some x => x.cmd.stake == target && x.issued?.isSome
          | none => false
        if waits && s.runs blk then .next (s.onBlock blk cyc (fun e b => b.sightTimeout e true)).forcedDone else .next s
      else
        let g := s.region n
        match g.xfers.find? (fun x => !x.started && !x.dead && bitsOf (g.sd x.eng x.desc 4) 31 16 == target) with
        | some x => .next (s.onRegion n cyc (fun e g => g.xferTimeout { e with inj := true } x.eng x.desc true)).forcedDone
        | none =>
          match (List.range 64).find? (fun i => (g.strm i).since.isSome && bitsOf (g.ss i 2) 15 0 == target) with
          | some i => .next (s.onRegion n cyc (fun e g => g.strmTimeout { e with inj := true } i true)).forcedDone
          | none => .next s
    | 1 =>
      match (s.block blk).core.mode with
      | .stall ring _ _ =>
        if ring = target % 32 ∧ s.runs blk then .next (s.onBlock blk cyc (fun e b => b.loadTimeout e true)).forcedDone else .next s
      | _ => .next s
    | _ =>
      match (s.region n).reqs.reverse.find? (fun r => r.eng == target % 8) with
      | some r => .next (s.onLiveRegion n cyc (fun e g =>
          g.requestAbandon { e with inj := true } r.eng r.desc r.k r.first)).forcedDone
      | none => .next s

/-! ## Counts that a write of CLR clears -/

/-- The saturating counts of the hub by their register offset. -/
def hubCounts : Nat → List Field
  | 0x7004 => [HIF_DISC_COUNT, HIF_DISC_SAT]
  | 0xA004 => [HERR_LOST_COUNT, HERR_LOST_SAT]
  | 0x8120 => [GRD_VCNT_COUNT, GRD_VCNT_SAT]
  | _ => []

/-- A write of CLR at hub address `addr`: the count and its SAT flag are cleared. -/
def State.hubClr (s : State) (addr : Nat) : State :=
  if 0xA008 ≤ addr ∧ addr < 0xA030 ∧ addr % 4 = 0 then
    (s.wr HERR_CNT_COUNT 0 ((addr - 0xA008) / 4)).wr HERR_CNT_SAT 0 ((addr - 0xA008) / 4)
  else (hubCounts addr).foldl (fun (s : State) f => s.wr f 0) s

/-- COUNT_CLR (18 R476) at BAR0 address `addr`: the count and its SAT flag are cleared; an address with no CLR field changes
nothing. -/
def execCountClr (addr : Nat) (s : State) : Host.Outcome State Fault Refusal :=
  if !s.ready then .next s.discard
  else if addr < 0x1000000 then
    if 0x6100 ≤ addr ∧ addr < 0x6700 then
      let k := (addr - 0x6100) / 0x40
      let o := (addr - 0x6100) % 0x40
      if o = 0x20 ∨ o = 0x24 ∨ o = 0x28 then .next (s.setPort k ((s.port k).pageWrite o 0x80000000)) else .next s
    else if 0xC000 ≤ addr ∧ addr < 0xC200 ∧ addr % 16 = 0 then .next (s.updEvc (fun c => c.clear) (.hub ((addr - 0xC000) / 16)))
    else .next (s.hubClr addr)
  else
    let n := (addr - 0x1000000) / 0x100000
    let o := (addr - 0x1000000) % 0x100000
    if 24 ≤ n then .next s
    else if o < 0x40000 then
      if 0x900 ≤ o ∧ o < 0xA00 ∧ o % 16 = 0 then .next (s.updEvc (fun c => c.clear) (.region n ((o - 0x900) / 16)))
      else .next (s.setRegion n (((s.region n).clrWrite o).getD (s.region n)))
    else
      let b := (o - 0x40000) / 0x1000
      let p := o % 0x1000
      let k := chipBlk n b
      if 192 ≤ b ∨ !s.reaches k then .next s.discard
      else if 0x1C0 ≤ p ∧ p < 0x200 ∧ p % 16 = 0 then .next (s.updEvc (fun c => c.clear) (.block k ((p - 0x1C0) / 16)))
      else .next (s.setBlock k (((s.block k).clrWrite p).getD (s.block k)))

end Sys2Proof.Machine
end

