-- ==== Sys2Proof/Machine/PlatRules.lean ====
section
/-!
DEFINITION. The invariants of Table 11-4 that the plat's own data decide (11_plat.md R310 to R314): route entries, scrub and
management cycles, capacities, stakes, plan variants, commands, memory budgets. The sections are installed in units that hold
nothing else, and the rules are asked of those. What depends on the time or the path of a word comes with the image (log 10).
-/
namespace Sys2Proof.Machine

/-- A sum over a list. -/
def sumOf {α : Type} (f : α → Nat) (l : List α) : Nat := l.foldl (fun a x => a + f x) 0

/-- Do two ranges of a list, each a first and an end, overlap? -/
def clash (rs : List (Nat × Nat)) : Bool :=
  (rs.zipIdx).any (fun x => (rs.take x.2).any (fun y => decide (x.1.1 < y.2 ∧ y.1 < x.1.2)))

/-! ## The units as the plat sets them -/

/-- Region `n` as the plat sets it. -/
def Plat.asRegion (p : Plat) (n : Nat) : Region :=
  (regionZero n).install (p.regionSec n) ((0x204, lookupD 0 p.lock n) :: p.landRegs n)

/-- The commands that block `k` declares, over all variants (R314). -/
def Plat.declared (p : Plat) (k : Nat) : List Cmd :=
  ((lookupD [] p.schedule (regionOf k)).filter (fun c => c.b == indexOf k)).map (fun c => c.cmd)

/-- A block as the plat sets it, beside what block `now` of the device holds. A codebook or a lookup table counts as valid for the checker
when a declared command loads it, or when the block holds it already (DEDUCED, log 63). -/
def Plat.asBlock (p : Plat) (now : Block) (k : Nat) : Block :=
  let cs := p.declared k
  let bits (opc : Nat) (f : Cmd → Nat) (old : Nat) : Nat := cs.foldl (fun m c => if c.opc = opc then m ||| 2 ^ f c else m) old
  (((blockZero k).install (p.blockSec (regionOf k) (indexOf k))).wr BLK_CB_VALID_VALID (bits 3 Cmd.idx (now.rd BLK_CB_VALID_VALID))).wr
    DRN_LUT_STAT_VALID (bits 4 Cmd.tbl (now.rd DRN_LUT_STAT_VALID))

/-- The units of a plat: regions, blocks by chip-wide number. -/
structure Units where
  regions : List (Nat × Region)
  blocks : List (Nat × Block)
deriving DecidableEq, Repr

/-- The units as the plat sets them: every region, every block of a BLOCKS or a SCHEDULE section. The resources of lost regions are left
to code 0x16. -/
def State.unitsOf (s : State) (p : Plat) : Units :=
  { regions := (List.range 24).map (fun n => (n, p.asRegion n))
    blocks := (List.range 24).flatMap (fun n =>
      ((lookupD [] p.blocks n).map (fun x => x.b) ++ (lookupD [] p.schedule n).map (fun c => c.b)).eraseDups.map (fun b =>
        (chipBlk n b, p.asBlock (s.block (chipBlk n b)) (chipBlk n b)))) }

/-- Region `n`. -/
def Units.region (u : Units) (n : Nat) : Region := lookupD (regionZero n) u.regions n

/-- The units that the sections of a type set fail first: a rejection located in the section of TYPE `typ`. -/
def Units.firstRegion (u : Units) (f : Nat → Region → Option Rej) : Option Rej :=
  u.regions.findSome? (fun x => (f x.1 x.2).map (fun r => { r with part := some (2, x.1) }))
/-- The same over blocks. -/
def Units.firstBlock (u : Units) (f : Nat → Block → Option Rej) : Option Rej :=
  u.blocks.findSome? (fun x => (f x.1 x.2).map (fun r => { r with part := some (3, regionOf x.1) }))

/-- The variant of region `n` that stands beside variant `j` of the others. -/
def Region.sched (g : Region) (j : Nat) : Option BeatSched := g.variants[min j (g.variants.length - 1)]?

/-! ## Planned accesses and stream slots -/

/-- The entries of pattern `pat` in planned cycles, in order. -/
def Region.entries (g : Region) (pat : Nat) : List (Nat × Nat) :=
  (g.edge.filter (fun x => x.1 / 256 == pat && decide (8 ≤ x.1 % 256))).map (fun x => (x.1 % 256, x.2))

/-- The cycles of a region at a step in a frame of the plat from beat 0, and its whole beats (02 R33). -/
def Plat.span (p : Plat) (grade step : Nat) : Nat × Nat :=
  let cyc (pos : Nat) : Nat := (pos - 200) * stepMult grade step / 2
  (cyc p.frmLen, cyc (p.frmLen - p.frmLen * p.frmRes / 400) / 256)

/-- The beats of a frame of `cycles` cycles with `whole` whole beats: the reserve list repeats in the closure reserve (R228). -/
def BeatSched.frameBeats (v : BeatSched) (sp : Nat × Nat) : List BeatEnt :=
  v.beats.take sp.2 ++ (if v.reserve.isEmpty then []
    else (List.range ((sp.1 + 255) / 256 - sp.2)).filterMap (fun i => v.reserve[i % v.reserve.length]?))

/-- The planned cycles of a variant's frame of span `sp`, as cycle and edge entry. -/
def Region.frame (g : Region) (v : BeatSched) (sp : Nat × Nat) : List (Nat × Nat) :=
  if g.edge.isEmpty then []
  else (((v.frameBeats sp).zipIdx).flatMap (fun x => (g.entries x.1.pat).map (fun e => (256 * x.2 + e.1, e.2)))).filter (fun x =>
    decide (x.1 < sp.1))

/-- Those of the working span. -/
def Region.working (g : Region) (v : BeatSched) : List (Nat × Nat) :=
  (v.beats.zipIdx).flatMap (fun x => (g.entries x.1.pat).map (fun e => (256 * x.2 + e.1, e.2)))

/-- Tiles of store stream `i` in a frame of variant `v`. -/
def Region.tilesIn (g : Region) (v : BeatSched) (i : Nat) : Nat :=
  sumOf (fun (x : Nat × Nat) => ((edgePlan x.2).1.filter (fun a => a.2 == i)).length) (g.working v) / max 1 (g.ssLen i)

/-- Transfers of descriptor `d` of engine `n` in a frame of variant `v`. -/
def Region.transfersIn (g : Region) (v : BeatSched) (n d : Nat) : Nat :=
  ((g.working v).filter (fun x => (edgePlan x.2).2 == some (n, d))).length

/-! ## Routes (R189, R221, R222, R227, R229, R233, R238): code 0x10 -/

/-- The source code of output `i` of a slot entry: north, south, east, west, block. -/
def srcOf (w : Word) (i : Nat) : Nat := (w >>> (3 * i)).toNat % 8

/-- Is a slot entry of block `k` bad in itself (R221, R227)? -/
def slotBad (k : Nat) (w : Word) : Bool :=
  (List.range 5).any (fun i => decide (6 ≤ srcOf w i) || (srcOf w i == 5 && (i == 4 || !w.getLsbD 27)) || (i != 4 && srcOf w i == i + 1)) ||
    (List.range 4).any (fun d => beyond k d == .none && (srcOf w d != 0 || (List.range 5).any (fun i => srcOf w i == d + 1)))

/-- Does port `d` of block `k` lead to a segment's queue? -/
def seamPort (k d : Nat) : Option (Nat × Nat) :=
  match beyond k d with
  | .block m => segBetween k m
  | _ => none

/-- Does the pattern file launch two words into one queue in following cycles (R238)? -/
def launchBad (k : Nat) (pat : SMap Word) : Bool :=
  (List.range 4).any (fun d => (seamPort k d).isSome &&
    (pat.zip (pat.drop 1)).any (fun x => x.2.1 == x.1.1 + 1 && x.1.1 % 256 != 255 && srcOf x.1.2 d != 0 && srcOf x.2.2 d != 0))

/-- Does the pattern file launch more words onto a shore link than it carries at `mhz`: one a cycle of the slower of the region clock and
the hub's 1,000 MHz (R223)? In any span of c cycles at most the hub's cycles in it, rounded up (DEDUCED, log 73). -/
def shoreBad (k : Nat) (pat : SMap Word) (mhz : Nat) : Bool :=
  beyond k 1 == .shore && decide (1000 < mhz) &&
  (let ls := pat.filter (fun x => srcOf x.2 1 != 0)
   ls.any (fun x => ls.any (fun y => x.1 / 256 == y.1 / 256 && decide (x.1 ≤ y.1) &&
     decide (((y.1 + 1 - x.1) * 1000 + mhz - 1) / mhz < (ls.filter (fun z => decide (x.1 ≤ z.1 ∧ z.1 ≤ y.1))).length))))

/-- Is an edge entry, of pattern and cycle `key`, bad (R227, R233), or does it name a stream in landing mode (12 R360)? -/
def Region.edgeBad (g : Region) (key w : Nat) : Bool :=
  let sel (out : Bool) (r : Nat) : Nat := w / 2 ^ ((if out then 64 else 0) + 4 * r) % 16
  let write (i : Nat) : Bool := (g.ss i 0).getLsbD 22
  let access (back r : Nat) (wr : Bool) : Bool :=
    decide (8 + back ≤ key % 256) && (edgePlan (g.edge.get natZero (key - back))).1.any (fun a => a.1 == r / 2 && write a.2 == wr)
  let later (r : Nat) : Bool := (g.entries (key / 256)).any (fun e => decide (key % 256 ≤ e.1) &&
    (edgePlan e.2).1.any (fun a => a.1 == r / 2 && write a.2))
  (List.range 16).any (fun r =>
    decide (7 ≤ sel false r ∨ 7 ≤ sel true r) ||
    (sel false r == 1 && !(access 6 r false || r % 2 == 0 && access 5 r false)) ||
    (sel true r == 1 && !(access 0 r true || r % 2 == 0 && later r))) ||
  (List.range 5).any (fun l => [false, true].any (fun out =>
    decide (2 < ((List.range 16).filter (fun r => sel out r == l + 2)).length))) ||
  (edgePlan w).1.any (fun a => (List.range 16).any (fun k => g.bit SL_LAND0_EN k && g.rd SL_LAND0_WSTRM k == a.2)) ||
  (edgePlan w).1.any (fun a =>
    let w' := if write a.2 then w else g.edge.get natZero (key + 6)
    let sh := if write a.2 then 64 else 0
    (!write a.2 && decide (250 ≤ key % 256)) || w' / 2 ^ (sh + 8 * a.1) % 256 != 0x11)

/-- The accesses of a frame in order: cycle, port, stream and the stream's access number j (R234). -/
def Region.accesses (g : Region) (v : BeatSched) (sp : Nat × Nat) : List (Nat × Nat × Nat × Nat) :=
  ((g.frame v sp).foldl (fun (acc : SMap Nat × List (Nat × Nat × Nat × Nat)) x =>
      (edgePlan x.2).1.foldl (fun (acc : SMap Nat × List (Nat × Nat × Nat × Nat)) a =>
        (SMap.upd natZero acc.1 a.2 (fun j => j + 1), (x.1, a.1, a.2, acc.1.get natZero a.2) :: acc.2)) acc)
    ([], [])).2.reverse

/-- The banks that access `j` of stream `i` may use: the reader of a landing record begins the frame with any of its buffers
(12 R361). -/
def Region.banks (g : Region) (i j : Nat) : List Nat :=
  let len := max 1 (g.ssLen i)
  let bufs := g.ssBufs i
  (if g.isReader i then List.range bufs else [0]).map (fun b =>
    (bitsOf (g.ss i 0) 17 0 + (b + j / len) % bufs * len + j % len) % 16)

/-- Do two planned accesses of one cycle use one bank of the store in a frame of variant `v` (R189)? -/
def Region.bankClash (g : Region) (v : BeatSched) (sp : Nat × Nat) : Bool :=
  let as := g.accesses v sp
  (as.zip (as.drop 1)).any (fun x => x.1.1 == x.2.1) &&
  (as.zipIdx).any (fun x => (((as.drop (x.2 + 1)).take 7).any (fun y =>
    y.1 == x.1.1 && (g.banks x.1.2.2.1 x.1.2.2.2).any (fun b => (g.banks y.2.2.1 y.2.2.2).contains b))))

/-- Does a read stream's tile have no place for its mark in a frame of variant `v` (09 R269): in the cycle before its first line is on
the links, t₀ + 5, the entry selects 0x1 for the port's lower row, and no other line is on the port's links? -/
def Region.markBad (g : Region) (v : BeatSched) (sp : Nat × Nat) : Bool :=
  let f := g.frame v sp
  let as := g.accesses v sp
  as.any (fun a =>
    !(g.ss a.2.2.1 0).getLsbD 22 && a.2.2.2 % max 1 (g.ssLen a.2.2.1) == 0 &&
    (!f.any (fun x => x.1 == a.1 + 5 && x.2 / 2 ^ (8 * a.2.1) % 16 == 1) ||
     as.any (fun y => y.1 + 1 == a.1 && y.2.1 == a.2.1 && !(g.ss y.2.2.1 0).getLsbD 22)))

/-- Does a region assign two spares of a horizontal segment to one column (R222)? -/
def Region.twoSpares (g : Region) : Bool :=
  (List.range 2).any (fun slot =>
    let w := g.regs.word .region (0x410 + 0x80 * slot)
    let cols := (List.range 4).filterMap (fun i => if w.getLsbD (5 * i + 4) then some ((w >>> (5 * i)).toNat % 16) else none)
    cols.eraseDups.length != cols.length)

/-- Code 0x10, for a device of grade `grade`. -/
def Units.routeRej (u : Units) (p : Plat) (grade : Nat) : Option Rej :=
  orRej
    (u.firstBlock (fun k b =>
      match b.router.pat.find? (fun x => slotBad k x.2) with
      | some x => some { code := 0x10, detail := x.1 % 256 }
      | none => if launchBad k b.router.pat || (u.region (regionOf k)).stepList.any (fun a => shoreBad k b.router.pat (stepMhz grade a)) then some { code := 0x10, detail := k } else none))
    (u.firstRegion (fun n g =>
      match g.edge.find? (fun x => decide (8 ≤ x.1 % 256) && g.edgeBad x.1 x.2) with
      | some x => some { code := 0x10, detail := x.1 % 256 }
      | none => if g.twoSpares || g.variants.any (fun v => g.bankClash v (p.span grade v.step) || g.markBad v (p.span grade v.step)) then some { code := 0x10, detail := n } else none))

/-! ## Parcels of legs (09 R277): code 0x11 -/

/-- The ends of every leg: leg, parcel, whether it sends, and the section that gives it. -/
def Units.ends (u : Units) : List (Nat × Nat × Bool × (Nat × Nat)) :=
  u.blocks.flatMap (fun x => (List.range 64).filterMap (fun e =>
    if x.2.bit LEP_A0_EN e then some (x.2.rd LEP_A0_LEG e, x.2.rd RT_CTL_PARCEL, x.2.bit LEP_A0_DIR e, 3, regionOf x.1) else none)) ++
  u.regions.flatMap (fun x => (List.range 64).filterMap (fun i =>
    if x.2.ssLen i = 0 then none else some (x.2.rd STRM_HDR_LEG i, x.2.ssParcel i, !(x.2.ss i 0).getLsbD 22, 2, x.1)))

/-- An end of a leg whose other ends all lie in other parcels. Code 0x11. -/
def Units.legRej (u : Units) : Option Rej :=
  let es := u.ends
  (es.find? (fun x =>
    let far := es.filter (fun y => y.1 == x.1 && y.2.2.1 != x.2.2.1)
    !far.isEmpty && far.all (fun y => y.2.1 != x.2.1))).map (fun x => { code := 0x11, detail := x.1, part := some x.2.2.2 })

/-- The store lines of stream `i`, and of descriptor `d` (256 × engine + index). -/
def Region.strmLines (g : Region) (i : Nat) : Nat × Nat :=
  (bitsOf (g.ss i 0) 17 0, bitsOf (g.ss i 0) 17 0 + g.ssBufs i * g.ssLen i)
/-- The store lines of a descriptor's buffers. -/
def Region.descLines (g : Region) (d : Nat) : Nat × Nat :=
  let a := bitsOf (g.sd (d / 256) (d % 256) 3) 17 0
  (a, a + (bitsOf (g.sd (d / 256) (d % 256) 0) 11 8 + 1) * g.sdLen (d / 256) (d % 256))
/-- Do two ranges overlap? -/
def overlaps (x y : Nat × Nat) : Bool := decide (x.1 < y.2 ∧ y.1 < x.2)
/-- The store streams that a plat sets. -/
def Region.streams (g : Region) : List Nat := (List.range 64).filter (fun i => g.ssLen i != 0)

/-- A stream descriptor names another parcel than a store stream over its buffers, whose leg serves that stream's blocks (R197, R277).
Code 0x11. -/
def Units.descRej (u : Units) : Option Rej :=
  u.firstRegion (fun n g =>
    (g.descs.find? (fun d => g.streams.any (fun i => overlaps (g.strmLines i) (g.descLines d) &&
      g.ssParcel i != bitsOf (g.sd (d / 256) (d % 256) 0) 6 3))).map (fun _ => ({ code := 0x11, detail := n } : Rej)))

/-- A release buffer of a station lies in another parcel's window, or over the buffers of another parcel's store stream. Code 0x11. -/
def Units.releaseRej (u : Units) (p : Plat) : Option Rej :=
  (p.stations.zipIdx).findSome? (fun x =>
    let bad (r : RelBuf) : Bool :=
      let g := u.region r.region
      if r.tgt = 0 then g.streams.any (fun i => overlaps (g.strmLines i) (r.base, r.base + (r.nb + 1) * r.len) && g.ssParcel i != x.1.parcel)
      else
        (!(List.range 16).any (fun i => g.bit MEM_WIN_B_EN i && g.bit MEM_WIN_B_HOST i && g.rd MEM_WIN_B_PARCEL i == x.1.parcel &&
            decide (4096 * g.rd MEM_WIN_A_BASE i ≤ r.base ∧ r.base + (r.nb + 1) * r.len ≤ 4096 * (g.rd MEM_WIN_A_LIMIT i + 1))))
    if (x.1.rel.take x.1.nrel).any bad then some { code := 0x11, record := x.2, part := some (4, 0) } else none)

/-! ## Easements (05 R159, 07 R190, 08 R229, R235): code 0x12 -/

/-- Code 0x12: a tenant use of an easement cycle; fewer than one scrub slot per four beats; sixteen cycles of port 7 that leave no
management cycle. -/
def Units.easementRej (u : Units) : Option Rej :=
  orRej
    (u.firstBlock (fun k b => if b.router.pat.any (fun x => decide (x.1 % 256 < 8)) then some { code := 0x12, detail := k } else none))
    (u.firstRegion (fun n g =>
      let scrub := g.variants.any (fun v =>
        let bs := v.beats ++ v.reserve
        decide (4 * (bs.filter (fun e => e.scrub)).length < bs.length))
      let full := (List.range 128).any (fun i => i % 16 != 0 && (List.range 16).all (fun c =>
        (edgePlan (g.edge.get natZero (16 * i + c))).1.any (fun a => a.1 == 7)))
      if scrub || full || g.edge.any (fun x => decide (x.1 % 256 < 8)) then some { code := 0x12, detail := n } else none))

/-! ## Capacities (04 R120, 05 R134, 09 R260, R271): code 0x13 -/

/-- The part stride of an endpoint (09 R266). -/
def Block.stride (b : Block) (e : Nat) : Nat := if b.bit LEP_A0_WID e then 4096 else 128 * b.rd LEP_A1_TWORDS e

/-- Does an endpoint break R260 or R120? -/
def Block.endBad (b : Block) (e : Nat) : Bool :=
  let role (x : Nat) : Nat × Nat × Nat := (b.rd LEP_A0_DIR x, b.rd LEP_A0_RING x, if b.bit LEP_A0_DIR x then b.rd LEP_A0_CONS x else 0)
  let inb := !b.bit LEP_A0_DIR e
  b.bit LEP_A0_EN e &&
    (b.rd LEP_A1_TWORDS e == 0 ||
     (decide (0 < b.rd LEP_A1_NPAN e) && 128 * b.rd LEP_A1_TWORDS e != panelBytes (b.rd LEP_A0_DFMT e)) ||
     (b.bit LEP_A0_WID e && b.rd LEP_A0_DFMT e != 0) ||
     (List.range e).any (fun x => b.bit LEP_A0_EN x && role x == role e) ||
     (inb && (!b.ringOn (b.rd LEP_A0_RING e) ||
       decide (b.slotSize (b.rd LEP_A0_RING e) < (b.rd LEP_A1_NPAN e + 1) * b.stride e))))

/-- The bytes of the slots of an enabled ring. -/
def Block.ringSpan (b : Block) (r : Nat) : Nat × Nat :=
  (b.slotAddr r 0, b.slotAddr r 0 + b.slotSize r * b.ringSlots r)

/-- Do the block's rings break R134? `cur` is SP_PWR.CUR of the block: two bits a granule, 0 for on. -/
def Block.ringsBad (b : Block) (cur : Nat) : Bool :=
  let rs := (List.range 32).filter b.ringOn
  clash (rs.map b.ringSpan) || rs.any (fun r =>
    let x := b.ringSpan r
    decide (0x200000 < x.2) || (List.range 8).any (fun g => cur / 4 ^ g % 4 != 0 && decide (x.1 < 0x40000 * (g + 1) ∧ 0x40000 * g < x.2)))

/-- What uses a store buffer (Table 9-10): a filler, a reader, a release buffer of the host, an index list. -/
inductive BufUse where
  | fills | reads | release | index
deriving DecidableEq, Repr

/-- The buffers of a region's store, in lines, with their uses: store streams, descriptors and their index lists, release buffers. -/
def Units.buffers (u : Units) (p : Plat) (n : Nat) : List (BufUse × Nat × Nat) :=
  let g := u.region n
  let strm := g.streams.map (fun i => (if (g.ss i 0).getLsbD 22 then BufUse.fills else .reads, g.strmLines i))
  let desc := g.descs.map (fun d => (if g.sdOp (d / 256) (d % 256) = 2 then BufUse.reads else .fills, g.descLines d))
  let idx := (g.descs.filter (fun d => g.sdOp (d / 256) (d % 256) == 3)).map (fun d =>
    let k := (g.variants.map (fun v => g.transfersIn v (d / 256) (d % 256))).foldl max 1
    let a := bitsOf (g.sd (d / 256) (d % 256) 6) 17 0
    (BufUse.index, a, a + (4 * k + 255) / 256))
  let rel := p.stations.flatMap (fun st => (st.rel.take st.nrel).filterMap (fun r =>
    if r.region = n ∧ r.tgt = 0 then some (BufUse.release, r.base, r.base + (r.nb + 1) * r.len) else none))
  strm ++ desc ++ idx ++ rel

/-- May two uses of overlapping lines be the one buffer of Table 9-10: a filler and its reader, readers of one buffer, or a release buffer and
what fills it? -/
def bufShared (x y : BufUse × Nat × Nat) : Bool :=
  let inside (a b : Nat × Nat) : Bool := decide (b.1 ≤ a.1 ∧ a.2 ≤ b.2)
  match x.1, y.1 with
  | .fills, .reads => x.2 == y.2
  | .reads, .fills => x.2 == y.2
  | .reads, .reads => x.2 == y.2
  | .release, .fills => inside y.2 x.2
  | .fills, .release => inside x.2 y.2
  | .index, .fills => inside x.2 y.2
  | .fills, .index => inside y.2 x.2
  | _, _ => false

/-- Code 0x13 in blocks and stores. -/
def State.capacityRej (s : State) (p : Plat) (u : Units) : Option Rej :=
  orRej
    (u.firstBlock (fun k b =>
      if b.ringsBad ((s.block k).rd SP_PWR_CUR) || (List.range 64).any b.endBad then some { code := 0x13, detail := k } else none))
    (u.firstRegion (fun n _ =>
      let bs := u.buffers p n
      if bs.zipIdx.any (fun x => (bs.take x.2).any (fun y => overlaps x.1.2 y.2 && !bufShared x.1 y)) || bs.any (fun x => decide (0x40000 < x.2.2)) then
        some { code := 0x13, detail := n } else none))

/-! ## Stakes (R281, R299, R312): code 0x14 -/

/-- May a register or descriptor name a local stake; a region stake; or no stake (Tables 10-1, 10-2)? -/
def localId (id : Nat) : Bool := decide (id < 64) || id == 0xFFFF
/-- A region stake or no stake. -/
def regionId (id : Nat) : Bool := decide (0x4000 ≤ id ∧ id < 0x5000) || id == 0xFFFF

/-- The commands that block `k` pushes in a frame of the `j`-th variant of its region. -/
def Plat.commands (p : Plat) (u : Units) (j k : Nat) : List Cmd :=
  match (u.region (regionOf k)).sched j with
  | none => []
  | some v => ((lookupD [] p.schedule (regionOf k)).filter (fun c => c.b == indexOf k && c.step == v.step)).map (fun c => c.cmd)

/-- A stake of the chip: its unit (a block, or 5,000 and a region) and its index. -/
abbrev StakeKey := Nat × Nat

/-- The configuration of a stake. -/
def Units.cfg (u : Units) (k : StakeKey) : Stake :=
  if 5000 ≤ k.1 then (u.region (k.1 - 5000)).stake k.2 else (lookupD (blockZero k.1) u.blocks k.1).stake k.2

/-- The stakes that the receiving ends of a leg of parcel `par` drive. -/
def Units.receivers (u : Units) (leg par : Nat) : List StakeKey :=
  u.blocks.flatMap (fun x => (List.range 64).filterMap (fun e =>
    if x.2.legIn e ∧ x.2.rd LEP_A0_LEG e = leg ∧ x.2.rd RT_CTL_PARCEL = par then
      (let id := if e % 2 = 0 then x.2.rd LEP_STK_STK0 (e / 2) else x.2.rd LEP_STK_STK1 (e / 2)
       if id < 64 then some (x.1, id) else none)
    else none)) ++
  u.regions.flatMap (fun x => (List.range 64).filterMap (fun i =>
    let id := x.2.rd STRM_STK_ARRIVE i
    if x.2.ssLen i ≠ 0 ∧ (x.2.ss i 0).getLsbD 22 ∧ x.2.rd STRM_HDR_LEG i = leg ∧ x.2.ssParcel i = par ∧ id / 2 ^ 14 = 1 then
      some (5000 + x.1, id % 4096)
    else none))

/-- The planned drives of a frame of the `j`-th variants: stake and increment. -/
def Plat.drives (p : Plat) (u : Units) (j : Nat) : List (StakeKey × Nat) :=
  u.blocks.flatMap (fun x => (p.commands u j x.1).flatMap (fun c =>
    if c.opc ≠ 6 then []
    else if c.stake < 64 then [((x.1, c.stake), c.inc)]
    else if c.stake / 2 ^ 14 = 2 then
      (u.receivers (x.2.rd LEP_A0_LEG (c.stake % 64)) (x.2.rd RT_CTL_PARCEL)).map (fun k => (k, c.inc))
    else [])) ++
  u.regions.flatMap (fun x =>
    match x.2.sched j with
    | none => []
    | some v =>
      (List.range 64).filterMap (fun i => let t := x.2.tilesIn v i; if t = 0 then none else some ((5000 + x.1, 4032 + i), t)) ++
      ((x.2.working v).filterMap (fun e => (edgePlan e.2).2)).filterMap (fun d =>
        let id := bitsOf (x.2.sd d.1 d.2 4) 15 0
        if id / 2 ^ 14 = 1 then some ((5000 + x.1, id % 4096), 1) else none))

/-- The sights and gates of a frame of the `j`-th variants: stake, value, and whether it is a gate. -/
def Plat.sights (p : Plat) (u : Units) (j : Nat) : List (StakeKey × Int × Bool) :=
  u.blocks.flatMap (fun x => (p.commands u j x.1).filterMap (fun c =>
    if c.opc = 7 ∧ c.stake < 64 then some ((x.1, c.stake), c.count, false) else none)) ++
  u.regions.flatMap (fun x =>
    match x.2.sched j with
    | none => []
    | some v =>
      (List.range 64).filterMap (fun i =>
        let t := x.2.tilesIn v i
        if (x.2.ss i 0).getLsbD 27 ∧ t ≠ 0 then
          some ((5000 + x.1, bitsOf (x.2.ss i 2) 11 0), (x.2.ss i 3).toInt + (t : Int) - 1, true) else none) ++
      ((x.2.working v).filterMap (fun e => (edgePlan e.2).2)).eraseDups.filterMap (fun d =>
        if (x.2.sd d.1 d.2 0).getLsbD 7 then
          some ((5000 + x.1, bitsOf (x.2.sd d.1 d.2 4) 27 16), (x.2.sd d.1 d.2 5).toInt + (x.2.transfersIn v d.1 d.2 : Int) - 1, true)
        else none))

/-- Identifiers in registers and descriptors (R281). -/
def Units.idRej (u : Units) : Option Rej :=
  orRej
    (u.firstBlock (fun _ b =>
      let id (e : Nat) : Nat := if e % 2 = 0 then b.rd LEP_STK_STK0 (e / 2) else b.rd LEP_STK_STK1 (e / 2)
      ((List.range 64).find? (fun e => !localId (id e) || (!b.legIn e && id e != 0xFFFF))).map
        (fun e => ({ code := 0x14, detail := id e } : Rej))))
    (u.firstRegion (fun _ g =>
      let gate (on : Bool) (id : Nat) : Bool := on && !(id != 0xFFFF && regionId id)
      let write (i : Nat) : Bool := g.ssLen i != 0 && (g.ss i 0).getLsbD 22
      let strm := (List.range 64).find? (fun i => !regionId (g.rd STRM_STK_ARRIVE i) || (!write i && g.rd STRM_STK_ARRIVE i != 0xFFFF) || gate ((g.ss i 0).getLsbD 27) (bitsOf (g.ss i 2) 15 0))
      let desc := g.descs.find? (fun d => !regionId (bitsOf (g.sd (d / 256) (d % 256) 4) 15 0) ||
        gate ((g.sd (d / 256) (d % 256) 0).getLsbD 7) (bitsOf (g.sd (d / 256) (d % 256) 4) 31 16))
      orRej (strm.map (fun i => ({ code := 0x14, detail := g.rd STRM_STK_ARRIVE i } : Rej)))
        (desc.map (fun d => ({ code := 0x14, detail := bitsOf (g.sd (d / 256) (d % 256) 4) 15 0 } : Rej)))))

/-- The stakes that sightline legs feed, one entry a leg (12 R360, R363). -/
def Plat.sightFed (p : Plat) (u : Units) : List StakeKey :=
  u.regions.flatMap (fun x => (List.range 16).filterMap (fun k =>
    let id := x.2.rd STRM_STK_ARRIVE (x.2.rd SL_LAND0_WSTRM k)
    if x.2.bit SL_LAND0_EN k ∧ id / 2 ^ 14 = 1 ∧ (p.landRegs x.1).any (fun r => r.1 == 0x1600 + 8 * k) then some (5000 + x.1, id % 4096) else none))

/-- Stakes: LAG with no ROLL, the sum of a frame's increments, sights and gates above ROLL, gates on ROLL 0, sightline-fed stakes. A
stake that the plan drives nowhere (a host's) has no sum to check (DEDUCED, log 81). -/
def Plat.stakeRej (p : Plat) (u : Units) : Option Rej :=
  let r (k : StakeKey) : Rej := { code := 0x14, detail := if 5000 ≤ k.1 then 0x4000 + k.2 else k.2 }
  let lag := u.firstRegion (fun _ g => (g.stakes.find? (fun x => STK_CFG_EN.on x.2.cfg && x.2.roll == 0 && STK_CFG_LAG.on x.2.cfg)).map
    (fun x => r (5000, x.1)))
  let lag' := u.firstBlock (fun k b => (b.stakes.find? (fun x => STK_CFG_EN.on x.2.cfg && x.2.roll == 0 && STK_CFG_LAG.on x.2.cfg)).map
    (fun x => r (k, x.1)))
  let fed := p.sightFed u
  let variant (j : Nat) : Option Rej :=
    let ds := p.drives u j
    let keys := (ds.map (fun d => d.1)).eraseDups
    let total (k : StakeKey) : Nat := sumOf (fun (d : StakeKey × Nat) => if d.1 = k then d.2 else 0) ds
    orRej ((keys.find? (fun k => STK_CFG_EN.on (u.cfg k).cfg && (u.cfg k).roll != 0 && !fed.contains k && total k != (u.cfg k).roll)).map r)
      (orRej (((p.sights u j).find? (fun x =>
          let c := u.cfg x.1
          (x.2.2 && c.roll == 0) || (c.roll != 0 && decide ((c.roll : Int) < x.2.1)))).map (fun x => r x.1))
        ((fed.find? (fun k => !STK_CFG_LAG.on (u.cfg k).cfg || keys.contains k || fed.count k != 1)).map r))
  orRej u.idRej (orRej lag (orRej lag' ((List.range 4).findSome? variant)))

/-! ## Plan variants (08 R223, R242, R250, R252): code 0x15 -/

/-- Does the plat route words through the segment in `slot` of region `n`? -/
def Units.routed (u : Units) (n slot : Nat) : Bool :=
  u.blocks.any (fun x => (List.range 4).any (fun d => seamPort x.1 d == some (n, slot) && x.2.router.pat.any (fun e => srcOf e.2 d != 0)))

/-- Segments, shore links, circuits and hints. -/
def State.planRej (s : State) (p : Plat) (u : Units) : Option Rej :=
  let steps (n : Nat) : List Nat := (u.region n).stepList
  let seg (n : Nat) : Bool := (List.range 2).any (fun slot =>
    segExists n slot &&
    u.routed n slot &&
    match segRegions n slot with
    | [a, b] =>
      let cal := (s.region n).calFor n slot ((u.region n).spares slot)
      if (u.region n).bit XSEG_CTL_MODE slot then
        let la := u.region a
        let lb := u.region b
        !(la.bit RGN_LOCK_LOCKED && lb.bit RGN_LOCK_LOCKED && la.rd RGN_LOCK_LEADER == lb.rd RGN_LOCK_LEADER) ||
          (steps a).any (fun x => !cal.2.testBit x)
      else (steps a).any (fun x => (steps b).any (fun y => cal.1.testBit (8 * x + y)))
    | _ => false)
  let shore (n : Nat) : Bool := n % 6 == 0 &&
    s.mc.shoreCal.any (fun x => x.1 / 12 == n / 6 && (steps n).any (fun a => decide (x.2.getD a 0 < 80)))
  let circuit := (List.range 72).find? (fun i =>
    let o := lookupD (laneZero i) p.laneOct i
    let a := 6 * LANE_OCT_A_DIE.of o + LANE_OCT_A_FLD.of o
    let b := 6 * LANE_OCT_B_DIE.of o + LANE_OCT_B_FLD.of o
    let used (n port : Nat) : Bool := (u.region n).edge.any (fun x => (List.range 16).any (fun r =>
      x.2 / 2 ^ (64 + 4 * r) % 16 == port + 2))
    LANE_OCT_KIND.of o == 1 && (used a (LANE_OCT_A_PORT.of o) || used b (LANE_OCT_B_PORT.of o)) &&
      (let fails := (s.laneCal o).elim 0 (fun x => x.1)
       (steps (min a b)).any (fun x => (steps (max a b)).any (fun y => fails.testBit (8 * x + y)))))
  orRej
    (u.firstRegion (fun n g =>
      let hint := g.hints.any (fun h => decide (16 < h.level) ||
        decide (16 < (g.hints.filter (fun q => q.pat == h.pat && q.dom == h.dom)).length))
      let list := g.variants.any (fun v => v.reserve.isEmpty || decide (16 < v.reserve.length) || (v.beats ++ v.reserve).any (fun e => decide (8 ≤ e.pat)))
      if seg n || shore n || hint || list then some { code := 0x15, detail := n } else none))
    (circuit.map (fun i => ({ code := 0x15, record := i, part := some (1, 0) } : Rej)))

/-! ## Defective queues (08 R222): code 0x16 -/

/-- Does the plat route a word through a queue that the monument lists? -/
def State.queueRej (s : State) (u : Units) : Option Rej :=
  u.firstBlock (fun k b =>
    if (List.range 4).any (fun d => match seamPort k d with
        | some (n, slot) => (s.region n).bit XQ_CAL_DEF slot ((u.region n).segQueue slot k (decide (2 ≤ d))) &&
            b.router.pat.any (fun e => srcOf e.2 d != 0)
        | none => false) then some { code := 0x16, detail := k } else none)

/-! ## Memory budgets (07 R191, R195, R197, R204): code 0x18 -/

/-- Does the sum of the weights in some window of `w` cycles exceed `m`? The list rises in time. -/
def overBudget (w m : Nat) (xs : List (Nat × Nat)) : Bool :=
  (xs.foldl (fun (acc : List (Nat × Nat) × Bool) x =>
      let q := acc.1.filter (fun y => decide (x.1 < y.1 + w)) ++ [x]
      (q, acc.2 || decide (m < sumOf (fun (y : Nat × Nat) => y.2) q))) ([], false)).2

/-- Does a planned use of a DONE count come too soon after the transfer that produces it in variant `v` (R206): 1,800 ns after the stream
slot of a read, 600 ns after that of a write? A use is the first slot of a tile of a gated store stream, or the stream slot of a gated
transfer. A stake with LAG holds the counts of the frame before. -/
def Region.doneBad (g : Region) (v : BeatSched) (sp : Nat × Nat) (mhz : Nat) : Bool :=
  let f := g.frame v sp
  let starts (d : Nat) : List Nat := (f.filter (fun x => (edgePlan x.2).2 == some (d / 256, d % 256))).map (fun x => x.1)
  let as := g.accesses v sp
  let uses : List (Nat × Int × Nat) :=
    as.filterMap (fun a =>
      let i := a.2.2.1
      if (g.ss i 0).getLsbD 27 && a.2.2.2 % max 1 (g.ssLen i) == 0 then
        some (bitsOf (g.ss i 2) 15 0, (g.ss i 3).toInt + (a.2.2.2 / max 1 (g.ssLen i) : Nat), a.1) else none) ++
    g.descs.flatMap (fun d =>
      if (g.sd (d / 256) (d % 256) 0).getLsbD 7 then
        (starts d).zipIdx.map (fun x => (bitsOf (g.sd (d / 256) (d % 256) 4) 31 16, (g.sd (d / 256) (d % 256) 5).toInt + x.2, x.1))
      else [])
  g.descs.any (fun d =>
    let id := bitsOf (g.sd (d / 256) (d % 256) 4) 15 0
    let ns := if g.sdOp (d / 256) (d % 256) = 2 then 600 else 1800
    let st := g.stake (id % 4096)
    let next := st.lag == 1 || (g.sd (d / 256) (d % 256) 0).getLsbD 12
    let period := sp.1 + 2 * mhz
    id / 2 ^ 14 == 1 && uses.any (fun y => y.1 == id && decide (1 ≤ y.2.1) &&
      (match (starts d)[y.2.1.toNat - 1]? with
       | some t => decide (1000 * (y.2.2 + (if next then period else 0)) < 1000 * t + ns * mhz)
       | none => false)))

/-- Descriptors and windows of a region; budgets of each variant over any microsecond (R191, R204, 12 R362). -/
def Region.memBad (g : Region) (p : Plat) (grade : Nat) : Bool :=
  let line (n d k : Nat) : Nat := bitsOf (g.sd n d 1) 27 0 + k * bitsOf (g.sd n d 2) 27 0
  let inWindow (par a : Nat) : Bool := (List.range 16).any (fun i => g.bit MEM_WIN_B_EN i && g.rd MEM_WIN_B_PARCEL i == par &&
    decide (g.rd MEM_WIN_A_BASE i ≤ g.rd MEM_WIN_A_LIMIT i ∧ 4096 * g.rd MEM_WIN_A_BASE i ≤ a ∧ a < 4096 * (g.rd MEM_WIN_A_LIMIT i + 1)))
  let bufs := g.descs.map (fun x =>
    let a := bitsOf (g.sd (x / 256) (x % 256) 3) 17 0
    (a, a + (bitsOf (g.sd (x / 256) (x % 256) 0) 11 8 + 1) * g.sdLen (x / 256) (x % 256)))
  let desc := clash bufs || g.descs.any (fun x =>
    let n := x / 256
    let d := x % 256
    let op := g.sdOp n d
    let len := g.sdLen n d
    let par := bitsOf (g.sd n d 0) 6 3
    let started := (g.variants.map (fun v => g.transfersIn v n d)).foldl (fun a b => max a b) 0
    let rsv := bitsOf (g.sd n d 0) 15 13 != 0 || bitsOf (g.sd n d 0) 31 28 != 0 || bitsOf (g.sd n d 1) 31 28 != 0 ||
      bitsOf (g.sd n d 2) 31 28 != 0 || bitsOf (g.sd n d 3) 31 18 != 0 || bitsOf (g.sd n d 6) 31 18 != 0 || bitsOf (g.sd n d 7) 31 16 != 0
    decide (4 ≤ op) || len == 0 || decide (2048 < len) || rsv ||
      decide (0x40000 < bitsOf (g.sd n d 3) 17 0 + (bitsOf (g.sd n d 0) 11 8 + 1) * len) ||
      (op == 3 && decide (0x4000000 < 256 * bitsOf (g.sd n d 6) 17 0 + 4 * started)) ||
      (op != 3 && (List.range (max 1 started)).any (fun k => decide (0x9000000 < line n d k + len))) ||
      (op != 3 && (List.range started).any (fun k => !inWindow par (line n d k) || !inWindow par (line n d k + len - 1))))
  let overlap := (List.range 16).any (fun i => (List.range i).any (fun j => g.bit MEM_WIN_B_EN i && g.bit MEM_WIN_B_EN j &&
    g.rd MEM_WIN_B_PARCEL i != g.rd MEM_WIN_B_PARCEL j && decide (g.rd MEM_WIN_A_BASE i ≤ g.rd MEM_WIN_A_LIMIT i) &&
    decide (g.rd MEM_WIN_A_BASE j ≤ g.rd MEM_WIN_A_LIMIT j) &&
    decide (g.rd MEM_WIN_A_BASE i ≤ g.rd MEM_WIN_A_LIMIT j ∧ g.rd MEM_WIN_A_BASE j ≤ g.rd MEM_WIN_A_LIMIT i)))
  let landing := ((List.range 5).filter (fun q => (List.range 16).any (fun k => g.bit SL_LAND0_EN k && g.rd SL_LAND0_LPORT k == q))).length
  let budget := g.variants.any (fun v =>
    let f := g.frame v (p.span grade v.step)
    let mhz := stepMhz grade v.step
    let lines (e : Nat × Nat) : Nat := match (edgePlan e.2).2 with | some d => g.sdLen d.1 d.2 | none => 0
    overBudget mhz 5500 ((f.map (fun e => (e.1, lines e))).filter (fun e => e.2 != 0)) ||
      overBudget mhz (7 * mhz - mhz / 16 - 694 * landing) (f.map (fun e => (e.1, (edgePlan e.2).1.length + lines e))))
  desc || overlap || budget || g.variants.any (fun v => g.doneBad v (p.span grade v.step) (stepMhz grade v.step))

/-- Code 0x18. -/
def State.memRej (s : State) (p : Plat) (u : Units) : Option Rej :=
  u.firstRegion (fun n g => if g.memBad p s.gradeIdx then some { code := 0x18, detail := n } else none)

end Sys2Proof.Machine
end

