-- ==== Sys2Proof/Machine/PlatCommands.lean ====
section
/-!
DEFINITION. What the plat checker asks of declared commands, drain descriptors and the tiles that pass between them (11_plat.md R311,
R314; 03 R64; 04 R107, R120, R122, R126; 05 R133, R134, R144, R155; 06 R176; 09 R260).
-/
namespace Sys2Proof.Machine

/-! ## What fills a ring -/

/-- A tile that a leg or a declared command puts into a slot: its format, whether F8E4 may stand in place of G4 (04 R120), whether its
layout is turned (Table 5-2), its bytes in that format. -/
structure RingFill where
  fmt : Nat
  wide : Bool
  turned : Bool
  bytes : Nat
deriving DecidableEq, Repr

/-- Legs by identifier and parcel: those that may carry a widened tile. -/
abbrev LegSet := List (Nat × Nat)

/-- Is a leg of block `b` in a set? -/
def Block.inLegs (b : Block) (e : Nat) (w : LegSet) : Bool := w.contains (b.rd LEP_A0_LEG e, b.rd RT_CTL_PARCEL)

/-- What fills ring `r` of a block: the tiles of inbound legs, of drains, of row maxima, of bank commands. A TURN copies its source turned;
`n` bounds how many bank commands a tile passes through. -/
def Block.fills (b : Block) (cs : List Cmd) (w : LegSet) (turned : List Nat) : Nat → Nat → List RingFill
  | 0, _ => []
  | n + 1, r =>
    ((List.range 64).filter (fun e => b.legIn e && b.rd LEP_A0_RING e == r)).map (fun e =>
      { fmt := b.rd LEP_A0_DFMT e, wide := b.inLegs e w, turned := turned.contains (b.rd LEP_A0_LEG e)
        bytes := 128 * b.rd LEP_A1_TWORDS e * (b.rd LEP_A1_NPAN e + 1) }) ++
    cs.flatMap (fun c =>
      match c.opc with
      | 1 =>
        let d := b.drn c.drnM
        (if c.ringDM = r then [{ fmt := d.ofmt, wide := d.wid, turned := false, bytes := panelBytes d.ofmt }] else []) ++
          (if d.rmx ∧ d.ringR = r then [{ fmt := 7, wide := false, turned := false, bytes := 256 }] else [])
      | 2 =>
        let d := b.drn c.drnB
        (if c.ringDB ≠ r then []
         else (b.fills cs w turned n c.ringS).map (fun f =>
           if c.op = 0 then { fmt := d.ofmt, wide := false, turned := f.turned, bytes := panelBytes d.ofmt } else { f with turned := !f.turned })) ++
          (if c.op = 0 ∧ d.rmx ∧ d.ringR = r then [{ fmt := 7, wide := false, turned := false, bytes := 256 }] else [])
      | _ => [])

/-- The fills of ring `r` in a plat. -/
def Plat.fillsOf (p : Plat) (w : LegSet) (k : Nat) (b : Block) (r : Nat) : List RingFill :=
  b.fills (p.declared k) w p.turned 8 r

/-- The legs that may carry a widened tile, from those known: an endpoint that sends a ring with such a tile, a read stream that takes the
headers of a stream that receives one. -/
def Plat.wideStep (p : Plat) (u : Units) (w : LegSet) : LegSet :=
  (w ++ u.blocks.flatMap (fun x => ((List.range 64).filter (fun e => x.2.bit LEP_A0_EN e && x.2.bit LEP_A0_DIR e &&
        (p.fillsOf w x.1 x.2 (x.2.rd LEP_A0_RING e)).any (fun f => f.wide))).map (fun e =>
      (x.2.rd LEP_A0_LEG e, x.2.rd RT_CTL_PARCEL))) ++
    u.regions.flatMap (fun x => (x.2.streams.filter (fun i => !(x.2.ss i 0).getLsbD 22 && x.2.bit STRM_HDR_HSRC i &&
        w.contains (x.2.rd STRM_HDR_LEG (x.2.rd STRM_HDR_SRC i), x.2.ssParcel (x.2.rd STRM_HDR_SRC i)))).map (fun i =>
      (x.2.rd STRM_HDR_LEG i, x.2.ssParcel i)))).eraseDups

/-- Repeat a step until it changes nothing, at most `n` times. -/
def untilSame {α : Type} [DecidableEq α] (f : α → α) : Nat → α → α
  | 0, x => x
  | n + 1, x => if f x = x then x else untilSame f n (f x)

/-- The legs that may carry a widened tile. -/
def Plat.wideLegs (p : Plat) (u : Units) : LegSet := untilSame (p.wideStep u) (u.ends.length + 1) []

/-! ## Capacities of tiles (04 R120, 05 R134, 09 R260): code 0x13 -/

/-- Words of a tile of `bytes` bytes in format `fmt` once it is in format `dfmt`. -/
def wordsIn (dfmt fmt bytes : Nat) : Nat := (8 * bytes / tagWidth fmt * tagWidth dfmt + 1023) / 1024

/-- The payload words in format `dfmt` of the tiles that declared commands take from ring `r`: an operand, a bias vector, a partial or
compare tile, a bank source, a load's image. -/
def Block.takesWords (b : Block) (cs : List Cmd) (dfmt r : Nat) : List Nat :=
  let panel := wordsIn dfmt 6 16384
  cs.flatMap (fun c =>
    let stages (d : Drn) : List Nat := (if d.acc ∧ d.ringP = r then [panel] else []) ++ (if d.usesC ∧ d.ringC = r then [panel] else [])
    match c.opc with
    | 1 =>
      (if c.k ≠ 0 ∧ (c.ringA = r ∨ c.ringB = r) then [(c.k + 63) / 64 * panel] else []) ++
        (if c.init ≠ 0 ∧ c.ringI = r then [wordsIn dfmt 6 256] else []) ++ stages (b.drn c.drnM)
    | 2 => (if c.ringS = r then [panel] else []) ++ (if c.op = 0 then stages (b.drn c.drnB) else [])
    | 3 => if c.ring = r then [1] else []
    | 4 => if c.ring = r then [9] else []
    | _ => [])

/-- Does TWORDS differ from the payload words of every tile declared for the endpoint (R260)? A ring of which no command or leg says what
it holds declares none. -/
def Plat.wordsBad (p : Plat) (w : LegSet) (k : Nat) (b : Block) (e : Nat) : Bool :=
  let r := b.rd LEP_A0_RING e
  let d := b.rd LEP_A0_DFMT e
  let ws := if b.bit LEP_A0_DIR e then (p.fillsOf w k b r).map (fun f => wordsIn d f.fmt f.bytes) else b.takesWords (p.declared k) d r
  b.bit LEP_A0_EN e && (b.rd LEP_A1_NPAN e == 0) && !ws.isEmpty && !ws.contains (b.rd LEP_A1_TWORDS e)

/-- Code 0x13: a TWORDS that is not the declared tile's, a ring smaller than a tile that fills it, a ring, endpoint or store stream sized
for G4 that a widened tile reaches. -/
def Plat.tileRej (p : Plat) (u : Units) (w : LegSet) : Option Rej :=
  orRej
    (u.firstBlock (fun k b =>
      let small (r : Nat) : Bool := (p.fillsOf w k b r).any (fun f => decide (b.slotSize r < (if f.wide then 2 * f.bytes else f.bytes)))
      if (List.range 64).any (fun e => p.wordsBad w k b e ||
          (b.legIn e && b.inLegs e w && b.rd LEP_A0_DFMT e == 0 && !b.bit LEP_A0_WID e)) ||
          (List.range 32).any (fun r => b.ringOn r && small r) then
        some { code := 0x13, detail := k } else none))
    (u.firstRegion (fun n g =>
      if g.streams.any (fun i => (g.ss i 0).getLsbD 22 && w.contains (g.rd STRM_HDR_LEG i, g.ssParcel i) &&
          g.rd STRM_HDR_FMT i == 0 && !g.bit STRM_HDR_WID i) then
        some { code := 0x13, detail := n } else none))

/-! ## Commands (R64, R107, R122, R133, R144, R155, R176): code 0x17 -/

/-- Is every known tile of a ring unfit? A ring of which nothing is known is not judged. -/
def allBad (fs : List RingFill) (bad : RingFill → Bool) : Bool := !fs.isEmpty && fs.all bad

/-- Is a declared command illegal on its block? The tests that need a tile's tag are made with the formats declared for the tiles that fill
the command's rings (DEDUCED, log 63). -/
def Plat.declBad (p : Plat) (w : LegSet) (k : Nat) (b : Block) (c : Cmd) : Bool :=
  let fs (r : Nat) : List RingFill := p.fillsOf w k b r
  let partBad (d : Drn) (isInt : Bool) : Bool := d.acc && allBad (fs d.ringP) (fun f => !partOk isInt f.fmt)
  match c.opc with
  | 1 =>
    let wa := c.k != 0 && c.fmtA == 0 && (fs c.ringA).any (fun f => f.wide)
    let wb := c.k != 0 && c.fmtB == 0 && (fs c.ringB).any (fun f => f.wide)
    b.matrixBadHead c || (wa && (pairRate 2 c.fmtB).isNone) || (wb && (pairRate c.fmtA 2).isNone) || (wa && wb && (pairRate 2 2).isNone) ||
      (c.k != 0 && (allBad (fs c.ringA) (fun f => (subTag c.fmtA f.fmt).isNone || f.turned != c.turnA) ||
        allBad (fs c.ringB) (fun f => (subTag c.fmtB f.fmt).isNone || f.turned != c.turnB))) ||
      partBad (b.drn c.drnM) (pairInt c.fmtA c.fmtB)
  | 2 =>
    let d := b.drn c.drnB
    b.bankBadHead c || (fs c.ringS).any (fun f => decide (panelBytes f.fmt < f.bytes)) ||
      (c.op == 0 && allBad (fs c.ringS) (fun f => (f.fmt == 0 && !b.cbValid c.cbS) || b.ccwBad d (tagIsInt f.fmt) ||
        partBad d (tagIsInt f.fmt)))
  | 0 => true
  | _ => b.otherBad c

/-- The drain descriptors that a section gives. -/
def BlockSec.descs (sec : BlockSec) : List Nat :=
  (sec.regs.filterMap (fun x => if 0x800 ≤ x.1 ∧ x.1 < 0xC00 then some ((x.1 - 0x800) / 16) else none)).eraseDups

/-- Are the reserved bits of a descriptor of the section zero (Tables 5-11, 5-12)? -/
def BlockSec.descRsv (sec : BlockSec) (n : Nat) : Bool :=
  let w (i : Nat) : Word := lookupD 0 sec.regs (0x800 + 16 * n + 4 * i)
  bitsOf (w 0) 31 28 == 0 && bitsOf (w 1) 12 12 == 0 && bitsOf (w 1) 31 24 == 0 && w 3 == 0

/-- Is a drain descriptor that the plat sets illegal (R107, R144)? An I32 output is judged with the command. -/
def Block.descBad (b : Block) (n : Nat) : Bool :=
  let d := b.drn n
  b.ccwBad d true && b.ccwBad d false || b.drnBad n d

/-- Code 0x17: DETAIL is the block, RECORD the place in the declared schedule. -/
def Plat.commandRej (p : Plat) (u : Units) (w : LegSet) : Option Rej :=
  orRej
    (u.blocks.findSome? (fun x => ((lookupD [] p.schedule (regionOf x.1)).zipIdx.find? (fun c =>
        c.1.b == indexOf x.1 && p.declBad w x.1 x.2 c.1.cmd)).map
      (fun c => ({ code := 0x17, record := c.2, detail := x.1, part := some (6, regionOf x.1) } : Rej))))
    (u.firstBlock (fun k b =>
      let sec := p.blockSec (regionOf k) (indexOf k)
      if sec.descs.any (fun n => b.descBad n || !sec.descRsv n) then some { code := 0x17, detail := k } else none))

/-- A translated plat uses no G4 operand or output, no codebook and no widening; its conversion control words have WID = 0 and another OFMT
(04 R126): code 0x1B. -/
def Plat.g4Rej (p : Plat) (u : Units) : Option Rej :=
  let drn (b : Block) (n : Nat) : Bool := (b.drn n).wid || (b.drn n).ofmt == 0
  let bad (b : Block) (c : Cmd) : Bool :=
    (c.opc == 1 && (c.fmtA == 0 || c.fmtB == 0 || drn b c.drnM)) || (c.opc == 2 && c.op == 0 && drn b c.drnB) || c.opc == 3
  if !p.translated then none
  else u.firstBlock (fun k b =>
    if (p.declared k).any (bad b) || (p.blockSec (regionOf k) (indexOf k)).descs.any (drn b) then some { code := 0x1B, detail := k } else none)

end Sys2Proof.Machine
end

