-- ==== Sys2Proof/Machine/PlatPaths.lean ====
section
/-!
DEFINITION. What the plat checker follows in time: the planned words from launch to delivery (08_fabric_route_plans.md R227, R229,
R238, R250; 09 R260, R279), the planned commands (02 R34), the order of drives and sights (11 R312); then all of Table 11-4.
Plan variants are taken side by side: variant `j` of a region stands beside variant `j` of the others (DEDUCED, log 64).
-/
namespace Sys2Proof.Machine

/-! ## Planned words -/

/-- A plat under the checker: its units, the device's grade, the variant. -/
structure PathCtx where
  p : Plat
  u : Units
  grade : Nat
  j : Nat

/-- Clock multiplier of region `n` in the variant. -/
def PathCtx.mult (x : PathCtx) (n : Nat) : Nat :=
  match (x.u.region n).sched x.j with
  | some v => stepMult x.grade v.step
  | none => 20
/-- Cycles and whole beats of region `n` in a frame of the variant. -/
def PathCtx.span (x : PathCtx) (n : Nat) : Nat × Nat :=
  match (x.u.region n).sched x.j with
  | some v => x.p.span x.grade v.step
  | none => (0, 0)
/-- The beats of region `n` in a frame of the variant. -/
def PathCtx.beats (x : PathCtx) (n : Nat) : List BeatEnt :=
  match (x.u.region n).sched x.j with
  | some v => v.frameBeats (x.span n)
  | none => []
/-- Block `k` as the plat sets it. -/
def PathCtx.block (x : PathCtx) (k : Nat) : Block := lookupD (blockZero k) x.u.blocks k
/-- The slot entry of block `k` in planned cycle `c` of the frame. -/
def PathCtx.entry (x : PathCtx) (k c : Nat) : Word :=
  match (x.beats (regionOf k))[c / 256]? with
  | some e => (x.block k).router.pat.get wordZero (e.pat * 256 + c % 256)
  | none => 0
/-- The edge entry of region `n` in cycle `c` of the frame. -/
def PathCtx.edge (x : PathCtx) (n c : Nat) : Nat :=
  match (x.beats n)[c / 256]? with
  | some e => if c % 256 < 8 then 0 else (x.u.region n).edge.get natZero (e.pat * 256 + c % 256)
  | none => 0

/-- The `lat`-th cycle of region `b` that starts after cycle `c` of region `a` (R238, R250). Both clocks start beat 0 on one strobe of
R394 (DEDUCED, log 64). -/
def PathCtx.land (x : PathCtx) (a b c lat : Nat) : Nat := c * x.mult b / x.mult a + lat

/-- Does the link of port `d` of block `k` pass the bypass of its row's excluded block (01 R24)? -/
def PathCtx.bypass (x : PathCtx) (k d : Nat) : Nat :=
  let skip := (x.p.regionSec (regionOf k)).skip (indexOf k / 12)
  let lx := indexOf k % 12
  if (d = 2 ∧ skip = lx + 1) ∨ (d = 3 ∧ skip = lx) then 1 else 0

/-- The octet that holds lane port `q` of region `n` in a plat. -/
def Plat.octetOf (p : Plat) (n q : Nat) : Option Word :=
  ((List.range 72).map (fun o => lookupD (laneZero o) p.laneOct o)).find? (fun w =>
    (LANE_OCT_KIND.of w != 0 && 6 * LANE_OCT_A_DIE.of w + LANE_OCT_A_FLD.of w == n && LANE_OCT_A_PORT.of w == q) ||
    (LANE_OCT_KIND.of w == 1 && 6 * LANE_OCT_B_DIE.of w + LANE_OCT_B_FLD.of w == n && LANE_OCT_B_PORT.of w == q))

/-- What happens to a planned word: it passes a router, is delivered to an endpoint, reaches the store port of an edge row or a sightline
port, finds no output, crosses the segment in a slot of a region, stands in a cycle of the easement window, or goes to the shore. -/
inductive PathEvt where
  | pass (k : Nat)
  | deliver (k lep cyc : Nat)
  | store (n row cyc : Nat)
  | sight (n port cyc : Nat)
  | lost (k : Nat)
  | cross (n slot : Nat)
  | window (k : Nat)
  | shore
deriving DecidableEq, Repr

/-- The row of region `n` into which the edge sends the `i`-th word that lane port `q` has in cycle `c`. -/
def PathCtx.laneRow (x : PathCtx) (n q c i : Nat) : Option Nat :=
  ((List.range 16).filter (fun r => x.edge n c / 2 ^ (4 * r) % 16 == q + 2))[i]?

/-- A word at row `r` of the edge of region `n` in cycle `c`: what the selector makes of it, or the row and cycle at the far end of a
die-to-die circuit. -/
def PathCtx.atEdge (x : PathCtx) (n r c : Nat) : PathEvt ⊕ (Nat × Nat) :=
  let sel (r : Nat) : Nat := x.edge n c / 2 ^ (64 + 4 * r) % 16
  let k := (edgeBlock n r).1
  if c % 256 < 8 then .inl (.window k)
  else if sel r = 1 then .inl (.store n r c)
  else if sel r < 2 ∨ 6 < sel r then .inl (.lost k)
  else
    match x.p.octetOf n (sel r - 2) with
    | none => .inl (.lost k)
    | some w =>
      if LANE_OCT_KIND.of w = 2 then .inl (.sight n (LANE_OCT_SL.of w) c)
      else
        let a := (6 * LANE_OCT_A_DIE.of w + LANE_OCT_A_FLD.of w, LANE_OCT_A_PORT.of w)
        let b := (6 * LANE_OCT_B_DIE.of w + LANE_OCT_B_FLD.of w, LANE_OCT_B_PORT.of w)
        let far := if a = (n, sel r - 2) then b else a
        let t := x.land n far.1 c 80
        match x.laneRow far.1 far.2 t (((List.range r).filter (fun q => sel q == sel r)).length) with
        | some row => .inr ((edgeBlock far.1 row).1, t)
        | none => .inl (.lost (edgeBlock far.1 0).1)

/-- Follow a word that stands at input `src` of block `k` (5: the block's own) in cycle `c`, over at most `n` hops. -/
def PathCtx.follow (x : PathCtx) : Nat → Nat → Nat → Nat → List PathEvt
  | 0, _, _, _ => []
  | n + 1, k, c, src =>
    if c % 256 < 8 then [.window k]
    else
      let w := x.entry k c
      let outs := (List.range 5).filter (fun d => srcOf w d == src)
      if outs.isEmpty then [.lost k]
      else .pass k :: outs.flatMap (fun d =>
        if d = 4 then [.deliver k (bitsOf w 20 15) c]
        else
          match beyond k d with
          | .block m =>
            ((segBetween k m).toList.map (fun y => PathEvt.cross y.1 y.2)) ++ x.follow n m (if regionOf m = regionOf k then c + 1 + x.bypass k d
              else x.land (regionOf k) (regionOf m) (c + x.bypass k d) 12) (opposite d + 1)
          | .edge g r =>
            (match x.atEdge g r (c + 1 + x.bypass k d) with
             | .inl e => [e]
             | .inr (m, t) => x.follow n m t ((edgeBlock (regionOf m) (indexOf m / 12)).2 + 1))
          | .shore => [.shore]
          | .none => [.lost k])

/-- A planned word: who launches it (a block and its endpoint, or 5,000 and a region and its store stream), its parcel, the cycle, the number of
its slot among those of its sender, its fate. -/
structure Launch where
  unit : Nat
  idx : Nat
  parcel : Nat
  cyc : Nat
  nth : Nat
  evts : List PathEvt
deriving DecidableEq, Repr

/-- Number the launches of each sender. -/
def numberLaunches (ls : List Launch) : List Launch :=
  (ls.foldl (fun (acc : SMap Nat × List Launch) l =>
    let key := 64 * l.unit + l.idx
    (SMap.upd natZero acc.1 key (fun n => n + 1), { l with nth := acc.1.get natZero key } :: acc.2)) ([], [])).2.reverse

/-- The words that block `k` launches in a frame of the variant. -/
def PathCtx.blockLaunches (x : PathCtx) (k : Nat) : List Launch :=
  let b := x.block k
  ((x.beats (regionOf k)).zipIdx).flatMap (fun e =>
    (b.router.pat.filter (fun y => y.1 / 256 == e.1.pat && decide (8 ≤ y.1 % 256) && (List.range 4).any (fun d => srcOf y.2 d == 5))).map (fun y =>
      let c := 256 * e.2 + y.1 % 256
      { unit := k, idx := bitsOf y.2 26 21, parcel := b.rd RT_CTL_PARCEL, cyc := c, nth := 0, evts := x.follow 512 k c 5 }))

/-- The words that the edge of region `n` sends in from its store ports: the line of the access six cycles before, or the mark that goes
ahead of a tile's first line. The word of an IN selector is at the router's input in that cycle (DEDUCED, log 64). -/
def PathCtx.edgeLaunches (x : PathCtx) (n : Nat) : List Launch :=
  match (x.u.region n).sched x.j with
  | none => []
  | some v =>
    let g := x.u.region n
    let as := g.accesses v (x.span n)
    let from_ (r c : Nat) : Option (Nat × Nat × Nat × Nat) :=
      match as.find? (fun a => a.1 + 6 == c && a.2.1 == r / 2) with
      | some a => some a
      | none => as.find? (fun a => a.1 + 5 == c && a.2.1 == r / 2 && r % 2 == 0)
    (g.frame v (x.span n)).flatMap (fun e => (List.range 16).filterMap (fun r =>
      if e.2 / 2 ^ (4 * r) % 16 ≠ 1 then none
      else (from_ r e.1).map (fun a =>
        { unit := 5000 + n, idx := a.2.2.1, parcel := g.ssParcel a.2.2.1, cyc := e.1, nth := 0
          evts := x.follow 512 (edgeBlock n r).1 e.1 ((edgeBlock n r).2 + 1) })))

/-- Every planned word of a frame of the variant. -/
def PathCtx.launches (x : PathCtx) : List Launch :=
  numberLaunches (x.u.blocks.flatMap (fun b => x.blockLaunches b.1) ++ (List.range 24).flatMap x.edgeLaunches)

/-! ## Routes in time: codes 0x10, 0x11, 0x12 (R227, R229) -/

/-- A word reaches an input with no output; a leg of a context with planned slots has none in the reserve list. -/
def PathCtx.lostRej (x : PathCtx) (ls : List Launch) : Option Rej :=
  orRej
    (ls.findSome? (fun l => l.evts.findSome? (fun e => match e with
      | .lost k => some ({ code := 0x10, detail := k, part := some (3, regionOf k) } : Rej)
      | _ => none)))
    ((ls.find? (fun l => l.parcel != 0 && !ls.any (fun m => m.unit == l.unit && m.idx == l.idx &&
        decide (256 * (x.span (if 5000 ≤ l.unit then l.unit - 5000 else regionOf l.unit)).2 ≤ m.cyc)))).map (fun l =>
      let n := if 5000 ≤ l.unit then l.unit - 5000 else regionOf l.unit
      ({ code := 0x10, detail := l.unit, part := some (if 5000 ≤ l.unit then 2 else 3, n) } : Rej)))

/-- More than 1,300 words to one sightline port in some microsecond (12 R344). -/
def PathCtx.sightRate (x : PathCtx) (ls : List Launch) : Option Rej :=
  let hits := ls.flatMap (fun l => l.evts.filterMap (fun e => match e with | .sight n q c => some (n, q, c) | _ => none))
  (hits.map (fun h => (h.1, h.2.1))).eraseDups.findSome? (fun k =>
    let cs := (hits.filter (fun h => (h.1, h.2.1) == k)).map (fun h => (h.2.2, 1))
    if overBudget (50 * x.mult k.1) 1300 (sortBy (fun a b => decide (a.1 ≤ b.1)) cs) then
      some ({ code := 0x10, detail := k.2, part := some (2, k.1) } : Rej) else none)

/-- A tenant word passes a router, or enters an edge, outside its parcel. -/
def PathCtx.confineRej (x : PathCtx) (ls : List Launch) : Option Rej :=
  ls.findSome? (fun l => l.evts.findSome? (fun e => match e with
    | .pass k => if (x.block k).rd RT_CTL_PARCEL ≠ l.parcel then some ({ code := 0x11, detail := k, part := some (3, regionOf k) } : Rej) else none
    | _ => none))

/-- A tenant word stands at an input in a cycle of the easement window. -/
def windowRej (ls : List Launch) : Option Rej :=
  ls.findSome? (fun l => l.evts.findSome? (fun e => match e with
    | .window k => some ({ code := 0x12, detail := k, part := some (3, regionOf k) } : Rej)
    | _ => none))

/-! ## Planned use in time: codes 0x13, 0x15 (02 R34, 09 R260, R279) -/

/-- The deliveries at endpoint `lep` of block `k` in order of time: cycle, sender, number of the word at its sender. -/
def arrivals (ls : List Launch) (k lep : Nat) : List (Nat × (Nat × Nat) × Nat) :=
  sortBy (fun a b => decide (a.1 ≤ b.1)) (ls.flatMap (fun l => l.evts.filterMap (fun e => match e with
    | .deliver k' lep' c => if k' = k ∧ lep' = lep then some (c, (l.unit, l.idx), l.nth) else none
    | _ => none)))

/-- Slots that one tile takes: its mark and its payload words. -/
def PathCtx.tileSlots (x : PathCtx) (snd : Nat × Nat) : Nat :=
  if 5000 ≤ snd.1 then 1 + 2 * (x.u.region (snd.1 - 5000)).ssLen snd.2 else 1 + (x.block snd.1).rd LEP_A1_TWORDS snd.2

/-- Do words of two tiles interleave at an endpoint (R260): does a tile come back once another has begun? -/
def PathCtx.interleaved (x : PathCtx) (ls : List Launch) (k lep : Nat) : Bool :=
  let ts := (arrivals ls k lep).map (fun a => (a.2.1, a.2.2 / x.tileSlots a.2.1))
  let runs := ts.foldl (fun (acc : List ((Nat × Nat) × Nat)) t => if acc.head? = some t then acc else t :: acc) []
  runs.eraseDups.length != runs.length

/-- The cycle in which the `i`-th delivery of a frame is whole at an endpoint, its part count taken into account. -/
def PathCtx.wholeAt (x : PathCtx) (ls : List Launch) (k lep i : Nat) : Option Nat :=
  let b := x.block k
  let words := (b.rd LEP_A1_NPAN lep + 1) * (1 + b.rd LEP_A1_TWORDS lep)
  ((arrivals ls k lep)[(i + 1) * words - 1]?).map (fun a => a.1)

/-- The planned cycles in which declared commands of block `k` take tiles from ring `r`, in order. -/
def PathCtx.takesAt (x : PathCtx) (k r : Nat) : List Nat :=
  match (x.u.region (regionOf k)).sched x.j with
  | none => []
  | some v =>
    ((lookupD [] x.p.schedule (regionOf k)).filter (fun c => c.b == indexOf k && c.step == v.step &&
      ((x.block k).srcRings c.cmd).contains r)).filterMap (fun c => c.plan)

/-- How many deliveries of an endpoint are in flight across the boundary (R279): the fewest frames' worth by which every planned use trails
its delivery. -/
def PathCtx.inFlight (x : PathCtx) (ls : List Launch) (k lep : Nat) : Nat :=
  let uses := x.takesAt k ((x.block k).rd LEP_A0_RING lep)
  ((List.range (uses.length + 1)).find? (fun n => (uses.zipIdx).all (fun u => decide (u.2 < n) ||
    (match x.wholeAt ls k lep (u.2 - n) with | some c => decide (c ≤ u.1) | none => true)))).getD uses.length

/-- A receiving ring with too few slots for the deliveries in flight across the boundary, and two tiles that interleave. -/
def PathCtx.flightRej (x : PathCtx) (ls : List Launch) : Option Rej :=
  x.u.firstBlock (fun k b =>
    if (List.range 64).any (fun e => b.legIn e &&
        (x.interleaved ls k e || decide (b.ringSlots (b.rd LEP_A0_RING e) < x.inFlight ls k e))) then
      some { code := 0x13, detail := k } else none)

/-- The last cycle of a planned command's work, its drain included (R34). -/
def cmdEnd (c : Cmd) (planned : Nat) : Nat :=
  match c.opc with
  | 1 => planned + tileTime c.fmtA c.fmtB c.k + 4
  | 2 => planned + 3 + 64 + 4
  | 5 => planned + c.len + 4
  | _ => planned

/-- Planned work that does not end by the reserve start (R34, R229): a planned command, a slot of a tile of the frame, its delivery. -/
def PathCtx.lateRej (x : PathCtx) (ls : List Launch) : Option Rej :=
  let reserve (n : Nat) : Nat := 256 * (x.span n).2
  x.u.firstBlock (fun k b =>
    let n := regionOf k
    let late := match (x.u.region n).sched x.j with
      | none => false
      | some v => (lookupD [] x.p.schedule n).any (fun c => c.b == indexOf k && c.step == v.step &&
          (match c.plan with | some t => decide (reserve n < cmdEnd c.cmd t) | none => false))
    let sends := (List.range 64).any (fun e => b.bit LEP_A0_EN e && b.bit LEP_A0_DIR e &&
      decide (((ls.filter (fun l => l.unit == k && l.idx == e && decide (l.cyc < reserve n))).length) < b.rd LEP_A1_TPF e * x.tileSlots (k, e)))
    let takes := (List.range 64).any (fun e => b.legIn e && b.rd LEP_A1_TPF e != 0 &&
      (match x.wholeAt ls k e (b.rd LEP_A1_TPF e - 1) with | some c => decide (reserve n ≤ c) | none => false))
    if late || sends || takes then some { code := 0x15, detail := k } else none)

/-- The LINK section against the streams (12 R363): a reader that begins before the last tile of the frame before can have landed, store
tiles that are not TPB tiles of the leg, a PTPF that is not what the reader takes. Times are in sixteenths of a reference period. -/
def PathCtx.linkRej (x : PathCtx) : Option Rej :=
  (x.p.legs.zipIdx).findSome? (fun y =>
    let l := y.1
    let home := (List.range 24).find? (fun n => (x.p.landRegs n).any (fun r => r.1 == 0x1600 + 8 * l.k && r.2 == l.land0))
    match home, x.p.ports.find? (fun q => q.port == l.port) with
    | some n, some q =>
      (match (x.u.region n).sched x.j with
       | none => none
       | some v =>
         let g := x.u.region n
         let rs := SL_LAND0_RSTRM.of l.land0
         let ws := SL_LAND0_WSTRM.of l.land0
         let tpb := SL_LAND1_TPB.of l.land1 + 1
         let first := ((g.accesses v (x.span n)).find? (fun a => a.2.2.1 == rs)).map (fun a => 16 * (200 + 2 * a.1 / x.mult n))
         let len := 16 * x.p.frmLen
         if (match first with | some t => decide (((len + t : Nat) : Int) < sword q.dDecl + l.slast + q.lmax) | none => false) ||
             g.ssLen ws != g.ssLen rs || g.ssLen rs % tpb != 0 || l.ptpf != tpb * g.tilesIn v rs then
           some ({ code := 0x13, record := y.2, part := some (7, 0) } : Rej)
         else none)
    | _, _ => none)

/-! ## The order of drives, sights and gates (11 R312): code 0x14 -/

/-- One item of an agent's queue: it needs a stake to have reached a count of the frame, or it adds to a stake. -/
inductive StakeItem where
  | need (k : StakeKey) (c : Int)
  | add (k : StakeKey) (inc : Nat)
deriving DecidableEq, Repr

/-- Take the items that can go, given the counts: the counts after them, and the items that wait. -/
def takeItems (skip : StakeKey → Bool) : List StakeItem → List (StakeKey × Nat) → List (StakeKey × Nat) × List StakeItem
  | [], m => (m, [])
  | .add k inc :: q, m => takeItems skip q ((k, inc) :: m)
  | .need k c :: q, m =>
    if skip k || decide (c ≤ (sumOf (fun (x : StakeKey × Nat) => if x.1 = k then x.2 else 0) m : Nat)) then takeItems skip q m
    else (m, .need k c :: q)

/-- One round over every queue. -/
def takeRound (skip : StakeKey → Bool) (qs : List (List StakeItem)) (m : List (StakeKey × Nat)) :
    List (StakeKey × Nat) × List (List StakeItem) :=
  qs.foldl (fun acc q => let x := takeItems skip q acc.1; (x.1, acc.2 ++ [x.2])) (m, [])

/-- Rounds until nothing more can go: the items that still wait. -/
def stuckItems (skip : StakeKey → Bool) : Nat → List (List StakeItem) → List (StakeKey × Nat) → List StakeItem
  | 0, qs, _ => qs.flatten
  | n + 1, qs, m =>
    let x := takeRound skip qs m
    if x.2 = qs then qs.flatten else stuckItems skip n x.2 x.1

/-- The queues of a frame of variant `j`: each block's commands, each store stream's tiles, each descriptor's transfers. -/
def Plat.stakeQueues (p : Plat) (u : Units) (j : Nat) : List (List StakeItem) :=
  u.blocks.map (fun x => (p.commands u j x.1).flatMap (fun c =>
    if c.opc = 7 then (if c.stake < 64 then [.need (x.1, c.stake) c.count] else [])
    else if c.opc ≠ 6 then []
    else if c.stake < 64 then [.add (x.1, c.stake) c.inc]
    else if c.stake / 2 ^ 14 = 2 then (u.receivers (x.2.rd LEP_A0_LEG (c.stake % 64)) (x.2.rd RT_CTL_PARCEL)).map (fun k => .add k c.inc)
    else [])) ++
  u.regions.flatMap (fun x =>
    match x.2.sched j with
    | none => []
    | some v =>
      x.2.streams.map (fun i => (List.range (x.2.tilesIn v i)).flatMap (fun (t : Nat) =>
        (if (x.2.ss i 0).getLsbD 27 then [StakeItem.need (5000 + x.1, bitsOf (x.2.ss i 2) 11 0) ((x.2.ss i 3).toInt + t)] else []) ++
          [StakeItem.add (5000 + x.1, 4032 + i) 1])) ++
      x.2.descs.map (fun d =>
        let id := bitsOf (x.2.sd (d / 256) (d % 256) 4) 15 0
        (List.range (x.2.transfersIn v (d / 256) (d % 256))).flatMap (fun (t : Nat) =>
          (if (x.2.sd (d / 256) (d % 256) 0).getLsbD 7 then
            [StakeItem.need (5000 + x.1, bitsOf (x.2.sd (d / 256) (d % 256) 4) 27 16) ((x.2.sd (d / 256) (d % 256) 5).toInt + t)] else []) ++
          (if id / 2 ^ 14 = 1 then [StakeItem.add (5000 + x.1, id % 4096) 1] else []))))

/-- A sight or gate of a stake with LAG 0 that the frame's drives cannot satisfy in any order: every drive that it needs stands behind it
(R312). A stake that the plan drives nowhere is a host's and is not judged. -/
def Plat.waitRej (p : Plat) (u : Units) (j : Nat) : Option Rej :=
  let keys := (p.drives u j).map (fun d => d.1)
  let fed := p.sightFed u
  let skip (k : StakeKey) : Bool := (u.cfg k).lag == 1 || !STK_CFG_EN.on (u.cfg k).cfg || !keys.contains k || fed.contains k
  let qs := p.stakeQueues u j
  (stuckItems skip (qs.flatten.length + 1) qs []).findSome? (fun i => match i with
    | .need k _ => some ({ code := 0x14, detail := if 5000 ≤ k.1 then 0x4000 + k.2 else k.2 } : Rej)
    | .add _ _ => none)

/-- A sight of a local stake with LAG 0 planned before its block's own drive that first brings the count to its value (R312). Plan points
give the times; a count that drives of others help to reach is left to the order of `Plat.waitRej`. -/
def PathCtx.sightRej (x : PathCtx) : Option Rej :=
  x.u.firstBlock (fun k b =>
    let cs : List DeclCmd := match (x.u.region (regionOf k)).sched x.j with
      | none => []
      | some v => (lookupD [] x.p.schedule (regionOf k)).filter (fun c => c.b == indexOf k && c.step == v.step)
    let drives (i : Nat) : List (Nat × Option Nat) := (cs.filter (fun c => c.cmd.opc == 6 && c.cmd.stake == i)).map (fun c => (c.cmd.inc, c.plan))
    let others (i : Nat) : Bool := ((x.p.drives x.u x.j).filter (fun d => d.1 == (k, i))).length != (drives i).length
    let reach (i : Nat) (n : Int) : Option Nat :=
      (((drives i).foldl (fun (acc : Nat × Option (Option Nat)) d =>
        let t := acc.1 + d.1
        (t, if acc.2.isNone && decide (n ≤ (t : Int)) then some d.2 else acc.2)) (0, none)).2).join
    match cs.find? (fun c => c.cmd.opc == 7 && decide (c.cmd.stake < 64) && (b.stake c.cmd.stake).lag == 0 && decide (0 < c.cmd.count) &&
        !others c.cmd.stake &&
        (match c.plan, reach c.cmd.stake c.cmd.count with | some s, some d => decide (s < d) | _, _ => false)) with
    | some c => some { code := 0x14, detail := c.cmd.stake }
    | none => none)

/-- A region whose planned drives can fill the queue of its controller (10 R298): departures of store streams in the cycle after their last
line, DONE drives at their planned time (07 R206), four applied a cycle. A block's two drives a cycle are its own command's and one word's of its
leg, so its queue cannot fill. -/
def PathCtx.queueRej (x : PathCtx) : Option Rej :=
  x.u.firstRegion (fun n g =>
    match g.sched x.j with
    | none => none
    | some v =>
      let go := (g.accesses v (x.span n)).filterMap (fun a =>
        if (a.2.2.2 + 1) % max 1 (g.ssLen a.2.2.1) = 0 then some (a.1 + 1) else none)
      let done := (g.frame v (x.span n)).filterMap (fun e => (edgePlan e.2).2.bind (fun d =>
        if bitsOf (g.sd d.1 d.2 4) 15 0 / 2 ^ 14 = 1 then
          some (e.1 + (if g.sdOp d.1 d.2 = 2 then 600 else 1800) * stepMhz x.grade v.step / 1000) else none))
      let r := (sortBy (fun a b => decide (a ≤ b)) (go ++ done)).foldl (fun (acc : Nat × Nat × Bool) c =>
        let q := acc.2.1 - 4 * (c - acc.1) + 1
        (c, q, acc.2.2 || decide (36 ≤ q))) (0, 0, false)
      if r.2.2 then some { code := 0x14, detail := n } else none)

/-- The four variants side by side. -/
def State.pathCtxs (s : State) (p : Plat) (u : Units) : List PathCtx :=
  (List.range 4).map (fun j => { p := p, u := u, grade := s.gradeIdx, j := j })

/-! ## What an active context's words use, for a cut-over (Table 11-5) -/

/-- XSEG_CTL.MODE, XSEG_SPARE and RGN_LOCK may change only where no word of an active context passes under the outgoing plat `o`. Code 0x20. -/
def State.cutFabricRej (s : State) (o p : Plat) : Option Rej :=
  let uo := s.unitsOf o
  let up := s.unitsOf p
  let evts := (s.pathCtxs o uo).flatMap (fun x => (x.launches.filter (fun l => s.activeP l.parcel)).flatMap (fun l => l.evts))
  ((List.range 24).find? (fun n =>
    let passed := evts.any (fun e => match e with | .pass k => regionOf k == n | _ => false)
    (passed && lookupD (0 : Word) o.lock n != lookupD 0 p.lock n) ||
    (List.range 2).any (fun slot => evts.contains (.cross n slot) &&
      ((uo.region n).bit XSEG_CTL_MODE slot != (up.region n).bit XSEG_CTL_MODE slot ||
        (uo.region n).spares slot != (up.region n).spares slot)))).map (fun n => { code := 0x20, detail := n, part := some (2, n) })

/-! ## All of Table 11-4 -/

/-- The first rejection over the variants. -/
def firstVariant (xs : List (PathCtx × List Launch)) (f : PathCtx → List Launch → Option Rej) : Option Rej :=
  xs.findSome? (fun x => f x.1 x.2)

/-- Every invariant, by ascending code; `timed` is the verdict of the tests on planned times that the image's sections do not decide
(log 10). -/
def State.invariantRej (s : State) (p : Plat) (timed : Option (Nat × Nat × Nat × Nat)) : Option Rej :=
  let u := s.unitsOf p
  let w := p.wideLegs u
  let xs := (s.pathCtxs p u).map (fun x => (x, x.launches))
  let t := timed.map (fun x => ({ code := x.1, sec := x.2.1, record := x.2.2.1, detail := x.2.2.2 } : Rej))
  let st := p.stationRej
  let own := [u.routeRej p s.gradeIdx, firstVariant xs PathCtx.lostRej, firstVariant xs PathCtx.sightRate,
    p.parcelRej, st.bind (fun r => if r.code = 0x11 then some r else none), u.legRej, u.descRej, u.releaseRej p,
    firstVariant xs PathCtx.confineRej,
    u.easementRej, firstVariant xs (fun _ ls => windowRej ls),
    p.linkRej, firstVariant xs (fun x _ => x.linkRej), s.capacityRej p u, p.tileRej u w, firstVariant xs PathCtx.flightRej,
    p.stakeRej u, (List.range 4).findSome? (p.waitRej u), firstVariant xs (fun x _ => x.sightRej), firstVariant xs (fun x _ => x.queueRej),
    s.variantRej p, s.planRej p u, firstVariant xs PathCtx.lateRej,
    s.defectRej p, s.queueRej u, p.commandRej u w, s.memRej p u, st, p.g4Rej u].findSome? id
  match t, own with
  | some a, some b => some (if a.code < b.code then a else b)
  | some a, none => some a
  | none, o => o

end Sys2Proof.Machine
end

