-- ==== Sys2Proof/Machine/PlatCmds.lean ====
section
/-!
DEFINITION. The commands of the plat (11_plat.md R310 to R331, R332): load, image read, seal, unload, cut-over, cancel,
acknowledgement, withdrawal, decision.
-/
namespace Sys2Proof.Machine

/-- Is a load, or a cut-over that is checked, arming or armed, in progress? -/
def State.platBusy (s : State) : Bool := s.plat.load.isSome

/-- PLAT_LOAD (R315): the reading starts; refused with 0x21 while a context is active or a load or cut-over is in progress. -/
def execPlatLoad (fn ring slot : Nat) (s : State) : Host.Outcome State Fault Refusal :=
  match s.running fn ring slot 4 with
  | none => .next s
  | some _ =>
    let i : ItemRef := { fn := fn, ring := ring, slot := slot }
    if s.anyActive || s.platBusy then .next (s.finish i 7 0x21)
    else
      let t := { s.wr PLAT_STAT_STATE 1 with plat := { s.plat with load := some { item := i } } }
      .next (State.platVec s t)

/-- F is named (R321): CUT_FRAME, CUT_NEED, the hub's own acknowledgement; arming begins. -/
def State.nameF (s : State) (l : LoadSt) (o p : Plat) (f : Nat) : State :=
  let s := { s with plat := { s.plat with load := some { l with plat := some p, f := f, fences := s.fenceCounts }, shadow := some p
                                          cutF := some f, cutShow := f } }
  let s := ((s.wr CUT_STAT_STATE 2).wr CUT_STAT_REVOK 0).wr CUT_FRAME_LO_F_LO (f % 2 ^ 32)
  let s := (s.wr CUT_NEED_RGN (affectedRegions o p)).wr CUT_NEED_HUB (if hubAffected o p then 1 else 0)
  let s := s.wr CUT_ACK_HUB (if hubAffected o p then 1 else 0)
  s.wrHash PLAT_HASH_S_HASH p.hash

/-- Show whether every affected unit has acknowledged (CUT_ACK.ARMED), and the state that follows. -/
def State.showArmed (s : State) : State :=
  let all := (s.rd CUT_NEED_RGN &&& s.rd CUT_ACK_RGN) == s.rd CUT_NEED_RGN && (!s.bit CUT_NEED_HUB || s.bit CUT_ACK_HUB)
  (s.wr CUT_ACK_ARMED (if all then 1 else 0)).wr CUT_STAT_STATE (if all then 3 else 2)

/-- The F that the MC names when the command gives none: two frames after its estimate is met (R321), which is an open value
(log 3); a revert's is two frames after the check (R329). -/
def State.ownF (s : State) (revert : Bool) : Nat × State :=
  if revert then (s.frame.num + 2, s)
  else
    let k := s.fresh
    (s.frame.num + 3 + Config.freeNat k.1, k.2)

/-- A cut-over's plat has passed its checks: F is named; a plat that the shadow banks hold armed goes straight to the decision
(R331). -/
def State.startArming (s : State) (l : LoadSt) (o p : Plat) : State :=
  let held := s.rd CUT_STAT_STATE == 1 && !s.bit CUT_STAT_REVOK && !l.revert &&
    (match s.plat.shadow with | some q => q.hash == p.hash | none => false)
  let x := if l.f = 0 then s.ownF l.revert else (l.f, s)
  if held then
    let ack := x.2.rd CUT_ACK_RGN
    (((x.2.nameF l o p x.1).wr CUT_ACK_RGN ack)).showArmed
  else (((x.2.clearShadow).nameF l o p x.1).wr CUT_ACK_RGN 0).showArmed

/-- PLAT_CUTOVER (R319, R322, R329): the check starts; a revert, which carries no image, is checked at once. -/
def execPlatCutover (fn ring slot : Nat) (s : State) : Host.Outcome State Fault Refusal :=
  match s.running fn ring slot 5 with
  | none => .next s
  | some x =>
    let i : ItemRef := { fn := fn, ring := ring, slot := slot }
    let f := x.num 32 6
    let l : LoadSt := { item := i, cut := true, f := f, partners := x.num 40 3, revert := x.num 28 1 % 2 == 1 }
    if s.platBusy then .next (s.finish i 7 0x21)
    else if f ≠ 0 ∧ f ≤ s.frame.num + 1 then .next (s.finish i 7 0x23)
    else if !l.revert then
      .next (State.platVec s { s.wr CUT_STAT_STATE 1 with plat := { s.plat with load := some l } })
    else
      match s.plat.active, s.plat.shadow with
      | some o, some p =>
        if !s.bit CUT_STAT_REVOK then .next (s.finish i 7 0x20)
        else
          match orRej (s.cutRej o p l.partners true) (s.cutFabricRej o p) with
          | some r => .next (State.platVec s (s.rejectPlat l r))
          | none => .next (State.platVec s (s.startArming l o p))
      | _, _ => .next (s.finish i 7 0x20)

/-- The checks of R310 on an image, in their order: the plat, or the rejection, and whether a translation completed. -/
def State.checkImage (s : State) (r : ImageRead) : (Plat ⊕ Rej) × Bool :=
  match r.image with
  | none => (.inr { code := 0x22 }, false)
  | some im =>
    let bs := im.bytes
    if numAt bs 4 2 = 1 then
      match im.gen1, s.sigRej bs r.sigOk with
      | none, _ => (.inr { code := 1, detail := 4 }, false)
      | some _, some j => (.inr j, false)
      | some g1, none =>
        match orRej (s.fitRej bs) (s.cdvRej g1) with
        | some j => (.inr j, false)
        | none =>
          let p := s.cdvPlat g1 im.plat
          match s.invariantRej p r.timed with
          | some j => (.inr j, true)
          | none => (.inl { p with hash := (List.range 12).map (fun k => Config.freeWord (s.freeCtr + k)) }, true)
    else
      let p : Plat := { im.plat.decode bs with translated := false, used := 0 }
      match orRej (headerRej bs) (orRej (tableRej bs) (orRej (crcRej bs) (orRej (s.sigRej bs r.sigOk)
          (orRej (s.fitRej bs) (s.invariantRej p r.timed))))) with
      | some j => (.inr (j.locate bs), false)
      | none => (.inl { p with hash := platHash bs }, false)

/-- PLAT_IMAGE_READ_DONE (R310): the image is checked; a rejected plat leaves the device as it was. -/
def execPlatImageReadDone (image : ImageRead) (s : State) : Host.Outcome State Fault Refusal :=
  match s.plat.load with
  | none => .next s
  | some l =>
    if l.plat.isSome then .next s
    else
      let c := s.checkImage image
      let t := if c.2 then { s.wr CDV_CNT_XLATE (min (s.rd CDV_CNT_XLATE + 1) 0xFFFF) with freeCtr := s.freeCtr + 12 } else s
      match c.1 with
      | .inr r => .next (State.platVec s (t.rejectPlat l r))
      | .inl p =>
        if !l.cut then
          .next (State.platVec s { t.wr PLAT_STAT_STATE 3 with plat := { t.plat with load := some { l with plat := some p } } })
        else
          match t.plat.active with
          | none => .next (State.platVec s (t.rejectPlat l { code := 0x20 }))
          | some o =>
            match orRej (t.cutRej o p l.partners false) (t.cutFabricRej o p) with
            | some r => .next (State.platVec s (t.rejectPlat l r))
            | none => .next (State.platVec s (t.startArming l o p))

/-- PLAT_SEAL (R315 steps 1 and 2): every section is written, the device is sealed; the plat becomes active at the next tick. -/
def execPlatSeal (s : State) : Host.Outcome State Fault Refusal :=
  match s.plat.load with
  | none => .next s
  | some l =>
    match l.plat with
    | none => .next s
    | some p =>
      if l.cut || l.sealed then .next s
      else
        let t := ((s.install p none).set1 PLAT_STAT_SEALED).wrHash PLAT_HASH_A_HASH p.hash
        let t := (t.wrHash PLAT_HASH_S_HASH []).wr CUT_STAT_REVOK 0
        let t := t.wr CUT_STAT_STATE 0
        let t := t.wr PLAT_CNT_LOADS (min (t.rd PLAT_CNT_LOADS + 1) 0xFFFF)
        let t := t.finish l.item 0 0
        .next (State.platVec s { t with plat := { t.plat with load := some { l with sealed := true }, shadow := none } })

/-- PLAT_UNLOAD (R318): refused with 0x21 while a context is active; else the device unseals at the next tick. -/
def execPlatUnload (fn ring slot : Nat) (s : State) : Host.Outcome State Fault Refusal :=
  match s.running fn ring slot 6 with
  | none => .next s
  | some _ =>
    let i : ItemRef := { fn := fn, ring := ring, slot := slot }
    if s.anyActive then .next (s.finish i 7 0x21)
    else if s.plat.unload.contains i then .next s
    else .next { s with plat := { s.plat with unload := s.plat.unload ++ [i] } }

/-- CUT_CANCEL (R326, Table 11-8): before the decision point the cut-over is abandoned with reason 0x5. -/
def execCutCancel (fn ring slot : Nat) (s : State) : Host.Outcome State Fault Refusal :=
  match s.running fn ring slot 7 with
  | none => .next s
  | some _ =>
    let i : ItemRef := { fn := fn, ring := ring, slot := slot }
    .next (State.platVec s ((if s.plat.switch then s else s.cutAbandon 5).finish i 0 0))

/-- CUT_ACKNOWLEDGE (R322): region `n` acknowledges when its share is verified, its step is in the incoming list and no unit of
its share has been fenced since the check. The acknowledgement goes behind the error records that wait in the region (02 R50, 08 R237). -/
def execCutAcknowledge (n : Nat) (s : State) : Host.Outcome State Fault Refusal :=
  match s.plat.load with
  | none => .next s
  | some l =>
    match l.plat with
    | none => .next s
    | some p =>
      let g := s.region n
      if !l.cut || s.plat.switch || g.lost || !(s.rd CUT_NEED_RGN).testBit n || !g.recq.isEmpty then .next s
      else
        let ok := ((p.regionSec n).variants.map (fun v => v.step)).contains g.cur
        let same := s.fenceCounts.getD n 0 == l.fences.getD n 0
        let g := g.wr RGN_SHADOW_STEPOK (if ok then 1 else 0)
        if ok && same && !g.bit RGN_SHADOW_WITHDRAWN then
          let t := s.setRegion n (g.set1 RGN_SHADOW_ARMED)
          .next (State.platVec s (t.wr CUT_ACK_RGN (t.rd CUT_ACK_RGN ||| 2 ^ n)).showArmed)
        else .next (s.setRegion n g)

/-- CUT_WITHDRAWAL (R322): a region that had acknowledged finds a shadow error, or a fenced unit, before the decision point; the
withdrawal goes behind the error records that wait in the region (02 R50). -/
def execCutWithdrawal (n : Nat) (s : State) : Host.Outcome State Fault Refusal :=
  match s.plat.load with
  | none => .next s
  | some l =>
    if !l.cut || s.plat.switch || !(s.rd CUT_ACK_RGN).testBit n || !(s.region n).recq.isEmpty then .next s
    else
      let same := s.fenceCounts.getD n 0 == l.fences.getD n 0
      let g := ((s.region n).set1 RGN_SHADOW_WITHDRAWN).wr RGN_SHADOW_ARMED 0
      let t := s.setRegion n (if same then g.set1 RGN_SHADOW_SBERR else g)
      .next (State.platVec s (t.wr CUT_ACK_RGN (setBitNat (t.rd CUT_ACK_RGN) n false)).showArmed)

/-- Is every port of the partner set armed for F by its last datum (R330, Table 12-11)? -/
def State.partnersOk (s : State) (l : LoadSt) : Bool :=
  (List.range 24).all (fun q => !l.partners.testBit q ||
    (let p := s.port q
     decide (2 ≤ p.state ∧ p.state ≤ 4) && (match p.peerArm with | some a => a.1 == l.f | none => false)))

/-- DECISION_POINT (R323): 1 µs before the tick of F the switch flag is set, or the cut-over is abandoned; then the datums held
for F are judged (12 R351). -/
def execDecisionPoint (s : State) : Host.Outcome State Fault Refusal :=
  match s.plat.load, s.plat.cutF with
  | some l, some f =>
    if s.frame.num + 1 ≠ f ∨ s.plat.switch ∨ !l.cut then .next s
    else
      let need := s.rd CUT_NEED_RGN
      let withdrawn := (List.range 24).any (fun n => need.testBit n && (s.region n).bit RGN_SHADOW_WITHDRAWN)
      let late := (List.range 24).any (fun n => need.testBit n && !(s.rd CUT_ACK_RGN).testBit n && !(s.region n).bit RGN_SHADOW_WITHDRAWN)
      let ok := s.partnersOk l
      let t := s.wr CUT_ACK_PARTNERS (if ok then 1 else 0)
      let t := if late || (s.bit CUT_NEED_HUB && !s.bit CUT_ACK_HUB) then t.cutAbandon 1
        else if withdrawn then t.cutAbandon 2
        else if !ok then t.cutAbandon 3
        else { t with plat := { t.plat with switch := true } }
      let t := (List.range 24).foldl (fun (t : State) q => t.onPort q t.now16 (fun e p => p.judgeHeld e)) t
      .next (State.platVec s t)
  | _, _ => .next s

end Sys2Proof.Machine
end

