-- ==== Sys2Proof/Machine/PmbusCmds.lean ====
section
/-!
DEFINITION. The PMBus target (15_power_delivery.md R424, Tables 15-7 and 15-8). It answers while the management island runs.
-/
namespace Sys2Proof.Machine

/-- A value `num / den` as linear11 (R424): the smallest exponent whose mantissa fits in 11 bits, the mantissa to the nearest
(DESIGN CHOICE, log 24). -/
def linear11 (num den : Nat) : Nat :=
  let mant (e : Nat) : Nat :=
    if e < 16 then nearest (num * 2 ^ (16 - e)) den else nearest num (den * 2 ^ (e - 16))
  match (List.range 32).find? (fun e => decide (mant e ≤ 1023)) with
  | some e => (if num = 0 then 0 else (e + 16) % 32 * 2 ^ 11) + mant e
  | none => 15 * 2 ^ 11 + 1023

/-- mV as linear16 with exponent −12. -/
def linear16 (mv : Nat) : Nat := min (nearest (mv * 4096) 1000) 0xFFFF

/-- Is the page listed (Table 15-8)? -/
def pageListed (p : Nat) : Bool := decide (p < 14 ∨ 16 ≤ p ∧ p < 136)

/-- Is the rail of a page off or dark? -/
def State.railOff (s : State) (p : Nat) : Bool :=
  if p = 0 then !s.bit PWR_IN_STAT_MAINOK
  else if p = 1 then !s.bit PWR_IN_STAT_AUXOK
  else if p < 14 then !(s.rd PWR_IBC_IBCOK).testBit (p - 2)
  else if p < 112 then
    let st := (s.region ((p - 16) / 4)).rd PWR_DOM_STAT_STATE ((p - 16) % 4)
    st == 0 || st == 3
  else (s.region (p - 112)).rd PWR_FAB_PHOK == 0

/-- The last sample of the selected page; a rail that is off reads 0. -/
def State.rail (s : State) : Rail := if s.railOff s.pw.page then {} else s.pw.rails.get railZero s.pw.page

/-- STATUS_IOUT of a page: what a loss or the cap has set since the last CLEAR_FAULTS. -/
def State.statIout (s : State) (p : Nat) : Nat := s.pw.iout.get (fun _ => 0) p
/-- STATUS_INPUT of a page. -/
def State.statInput (s : State) (p : Nat) : Nat := if p = 0 then s.pw.input else 0

/-- SMB_ALERT_N (22 R555): low while any bit of STATUS_IOUT or STATUS_INPUT is set on any page. -/
def State.smbAlert (s : State) : Bool := s.pw.input == 0 && s.pw.iout.all (fun x => x.2 == 0)

/-- STATUS_WORD of the selected page, bits as the PMBus specification places them (PRESUMED, log 8). -/
def State.statWord (s : State) : Nat :=
  let p := s.pw.page
  (if s.railOff p then 2 ^ 6 else 0) + (if s.statIout p ≠ 0 then 2 ^ 14 else 0) +
    (if s.statInput p ≠ 0 then 2 ^ 13 else 0) + (if (s.statInput p).testBit 4 then 2 ^ 3 else 0) + (if s.pw.cml ≠ 0 then 2 ^ 1 else 0)

/-- Does the target take a write with this packet error code (R424): a wrong one is refused with STATUS_CML bit 5 (PRESUMED, log 8),
and with PECREQ a missing one too? -/
def State.pecOk (s : State) (pec : Option Bool) : Bool :=
  match pec with
  | some ok => ok
  | none => !s.bit PWR_PMB_PECREQ

/-- A PMBus exchange of the management island. -/
def State.pmbus (s : State) (f : State → State) : Host.Outcome State Fault Refusal :=
  .next (if s.bit PWR_IN_STAT_AUXOK then f s else { s with answer := .nack })

/-- Answer a read. -/
def State.reply (s : State) (n v : Nat) : State := { s with answer := .bytes (leBytes n v) }

/-- A write with its packet error code. -/
def State.pmbusWrite (s : State) (pec : Option Bool) (f : State → State) : Host.Outcome State Fault Refusal :=
  s.pmbus (fun s =>
    if s.pecOk pec then f s
    else if pec = some false then { s with pw := { s.pw with cml := s.pw.cml ||| 0x20 } }
    else s)

/-- A command code that the target does not support, or not on this page: the next byte is not acknowledged. -/
def State.unsupported (s : State) : State := { s with pw := { s.pw with cml := s.pw.cml ||| 0x80 }, answer := .nack }

/-- The codes of Table 15-7. -/
def pmbusCodes : List Nat :=
  [0x00, 0x03, 0x20, 0x79, 0x7B, 0x7C, 0x7E, 0x88, 0x89, 0x8B, 0x8C, 0x8D, 0x96, 0x97, 0x98]

/-- PAGE (0x00). -/
def execPmbusPage (v : Nat) (pec : Option Bool) (s : State) : Host.Outcome State Fault Refusal :=
  s.pmbusWrite pec (fun s =>
    if pageListed v then { s with pw := { s.pw with page := v } } else { s with pw := { s.pw with cml := s.pw.cml ||| 0x40 } })

/-- CLEAR_FAULTS (0x03). -/
def execPmbusClearFaults (pec : Option Bool) (s : State) : Host.Outcome State Fault Refusal :=
  s.pmbusWrite pec (fun s => { s with pw := { s.pw with iout := [], input := 0, cml := 0 } })

/-- VOUT_MODE (0x20). -/
def execVoutMode (s : State) : Host.Outcome State Fault Refusal := s.pmbus (fun s => s.reply 1 0x14)

/-- STATUS_WORD (0x79). -/
def execStatusWord (s : State) : Host.Outcome State Fault Refusal := s.pmbus (fun s => s.reply 2 s.statWord)

/-- STATUS_IOUT (0x7B). -/
def execStatusIout (s : State) : Host.Outcome State Fault Refusal := s.pmbus (fun s => s.reply 1 (s.statIout s.pw.page))

/-- STATUS_INPUT (0x7C). -/
def execStatusInput (s : State) : Host.Outcome State Fault Refusal := s.pmbus (fun s => s.reply 1 (s.statInput s.pw.page))

/-- STATUS_CML (0x7E). -/
def execStatusCml (s : State) : Host.Outcome State Fault Refusal := s.pmbus (fun s => s.reply 1 s.pw.cml)

/-- READ_VIN (0x88), in V. -/
def execReadVin (s : State) : Host.Outcome State Fault Refusal := s.pmbus (fun s => s.reply 2 (linear11 s.rail.vin 1000))

/-- READ_IIN (0x89), in A: on page 0 only. -/
def execReadIin (s : State) : Host.Outcome State Fault Refusal :=
  s.pmbus (fun s => if s.pw.page = 0 then s.reply 2 (linear11 s.rail.i 1000) else s.unsupported)

/-- READ_VOUT (0x8B). -/
def execReadVout (s : State) : Host.Outcome State Fault Refusal := s.pmbus (fun s => s.reply 2 (linear16 s.rail.v))

/-- READ_IOUT (0x8C), in A. -/
def execReadIout (s : State) : Host.Outcome State Fault Refusal := s.pmbus (fun s => s.reply 2 (linear11 s.rail.i 1000))

/-- READ_TEMPERATURE_1 (0x8D), in °C. -/
def execReadTemperature1 (s : State) : Host.Outcome State Fault Refusal := s.pmbus (fun s => s.reply 2 (linear11 s.rail.t 1))

/-- READ_POUT (0x96): READ_VOUT times READ_IOUT, in W. -/
def execReadPout (s : State) : Host.Outcome State Fault Refusal :=
  s.pmbus (fun s => s.reply 2 (linear11 (s.rail.v * s.rail.i) 1000000))

/-- READ_PIN (0x97), in W: on page 0 only. -/
def execReadPin (s : State) : Host.Outcome State Fault Refusal :=
  s.pmbus (fun s => if s.pw.page = 0 then s.reply 2 (linear11 (if s.railOff 0 then 0 else s.pw.lastP) 1000) else s.unsupported)

/-- PMBUS_REVISION (0x98). -/
def execPmbusRevision (s : State) : Host.Outcome State Fault Refusal := s.pmbus (fun s => s.reply 1 0x33)

/-- PMBUS_UNSUPPORTED: a command code that Table 15-7 does not list. -/
def execPmbusUnsupported (code : Nat) (s : State) : Host.Outcome State Fault Refusal :=
  s.pmbus (fun s => if pmbusCodes.contains code then s else s.unsupported)

end Sys2Proof.Machine
end

