-- ==== Sys2Proof/Machine/RegCmds.lean ====
section
/-!
DEFINITION. REGISTER_WRITE: a write through a function's BAR0 (00_scope.md R5 to R10, 13_host_interface.md R392,
23_address_map.md R567 to R569). A register whose write has a row of its own acts as that row.
-/
namespace Sys2Proof.Machine

/-! ## Host-interface registers of a function (13 R384, R392) -/

/-- A write of CR_CTL that neither flushes nor disables the ring: LOG2SLOTS holds while EN is 1 (R384), and a VF's CPLVEC is
its ring number. -/
def Ring.ctlWrite (pf : Bool) (x : Ring) (v : Word) : Ring :=
  let y : Ring := { x with regs := x.regs.softWrite .ring true 8 v }
  let y := if x.bit CR_CTL_EN then y.wr CR_CTL_LOG2SLOTS (x.rd CR_CTL_LOG2SLOTS) else y
  if pf then y else y.wr CR_CTL_CPLVEC (x.rd CR_CTL_CPLVEC)

/-- A write of a ring register that is neither CR_DB nor a flush or disable: the bases, sizes and CR_LAST hold while EN is 1
(R384, R392). -/
def Ring.regWrite (pf : Bool) (x : Ring) (o : Nat) (v : Word) : Ring :=
  let w : Ring := { x with regs := x.regs.softWrite .ring true o v }
  if o = 8 then x.ctlWrite pf v
  else if o = 0x2C then w
  else if x.bit CR_CTL_EN then x
  else w

/-- The headers of the unread slots of a ring for a write that carries none: what host memory holds there is open (log 3). The
rows RING_FLUSH and RING_DISABLE carry what the hub reads. -/
def State.openHdrs (s : State) (n : Nat) : List (List Byte) × State :=
  ((List.range n).map (fun i => (List.range 16).map (fun j => Config.freeByte (s.freeCtr + 16 * i + j))),
    { s with freeCtr := s.freeCtr + 16 * n })

/-- A write of the register at `o` of a ring; a write with FLUSH sets the fields beside it too. -/
def State.ringWrite (s : State) (fn r o : Nat) (v : Word) : Host.Outcome State Fault Refusal :=
  let x := s.ring fn r
  if 0x30 < o then .next s.discard
  else if o = 0xC then execDoorbell fn r v s
  else if o = 8 ∧ !CR_CTL_EN.on v ∧ x.bit CR_CTL_EN then
    let h := s.openHdrs x.unread
    execRingDisable fn r v h.1 h.2
  else if o = 8 ∧ CR_CTL_FLUSH.on v ∧ x.bit CR_CTL_EN then
    let h := (s.setRing fn r (x.regWrite (isPf fn) o v)).openHdrs x.unread
    execRingFlush fn r h.1 h.2
  else .next (s.setRing fn r (x.regWrite (isPf fn) o v))

/-- A write of the field book register at `o` (Table 13-21): LOG2ENT holds while EN is 1. -/
def Fn.bookWrite (f : Fn) (o : Nat) (v : Word) : Fn :=
  let r := f.book.softWrite .book true o v
  let r := if o = 8 ∧ f.bookOn then r.wr FB_CTL_LOG2ENT (f.book.rd FB_CTL_LOG2ENT) else r
  { f with book := if o = 0x14 ∧ bitsOf v 31 31 ≠ 0 then r.clearCount [FB_LOST_COUNT, FB_LOST_SAT] else r }

/-- A write of the low half of B2BASE: bits [29:0] must be zero, and a write that breaks this leaves the register
unchanged. -/
def Fn.b2Lo (f : Fn) (v : Word) : Fn :=
  if bitsOf v 29 0 = 0 then { f with b2 := f.b2 / 2 ^ 32 * 2 ^ 32 + v.toNat } else f

/-- A write of the high half of B2BASE. -/
def Fn.b2Hi (f : Fn) (v : Word) : Fn := { f with b2 := bitsOf v 8 0 * 2 ^ 32 + f.b2 % 2 ^ 32 }

/-- A write in a VF's BAR0 (Table 13-14). Before ready a VF's rings may be enabled and their doorbells written (17 R455). -/
def State.vfWrite (s : State) (fn a : Nat) (v : Word) : Host.Outcome State Fault Refusal :=
  if 0x100 ≤ a ∧ a < 0x180 then s.ringWrite fn ((a - 0x100) / 0x40) ((a - 0x100) % 0x40) v
  else if !s.ready then .next s.discard
  else if a < 0x10 then .next s
  else if a = 0x10 then .next (s.setFn fn ((s.fn fn).b2Lo v))
  else if a = 0x14 then .next (s.setFn fn ((s.fn fn).b2Hi v))
  else if 0x80 ≤ a ∧ a < 0x98 then .next (s.setFn fn ((s.fn fn).bookWrite (a - 0x80) v))
  else .next s.discard

/-! ## The hub window (23 Table 23-1) -/

/-- A write of a hub register by its access codes (00 R6, R7, R8, 11 R316). -/
def State.softWrite (s : State) (a : Nat) (v : Word) : State :=
  let u := hubUnit a
  if !assigned u a then s.discard
  else
    let s := if s.loading && hasRws u a then s.discard else s
    let s := if bitsOf v 31 31 ≠ 0 then s.hubClr a else s
    { s with hub := s.hub.set u ((s.hub.of u).softWrite u (!s.sealed && !s.loading) a v) }

/-- A write of SL_LSRC of slot `k + 1` (12 R335): a source that is enabled is lit, with an output that the spec leaves open; one
that is disabled goes dark. -/
def State.lsrcWrite (s : State) (k : Nat) (v : Word) : State :=
  let was := s.bit SL_LSRC_EN k
  let s := s.softWrite (0x6010 + 4 * k) v
  if s.bit SL_LSRC_PRESENT k && !was && s.bit SL_LSRC_EN k then
    let x := s.fresh
    ((x.2.set1 SL_LSRC_LIT k).wr SL_LSRC_POWER (Config.freeNat x.1 % 256) k).light k
  else if was && !s.bit SL_LSRC_EN k then ((s.wr SL_LSRC_LIT 0 k).wr SL_LSRC_POWER 0 k).darken k
  else s

/-- A write of CDV_MAP (21 R551, Table 21-3): a value above 31 leaves VDIE; discarded while a load or cut-over is in progress. -/
def State.cdvWrite (s : State) (a : Nat) (v : Word) : State :=
  if s.plat.load.isSome || s.arming then s.discard
  else if 31 < v.toNat then s
  else s.softWrite a v

/-- A write of the MC check unit (23 R569, 06 R181, R183). -/
def State.mchkWrite (s : State) (a : Nat) (v : Word) : Host.Outcome State Fault Refusal :=
  if a = 0xF000 then execChkPolyWrite .mc (MCHK_CTL_POLY.of v) s
  else if a = 0xF004 then execChkSeed .mc v s
  else if a = 0xF008 then .next { s with mchk := { s.mchk with hi := v } }
  else .next (s.softWrite a v)

/-- A write of a perturbation register (20 R529, R531, Table 20-7). -/
def State.pertRegWrite (s : State) (a : Nat) (v : Word) : Host.Outcome State Fault Refusal :=
  if a = 0xD000 then (if PERT_CTL_LOCK.on v then execPertLock s else .next s)
  else if a = 0xD010 then execPertXdlyArm v s
  else if a = 0xD014 then execPertSlholdArm v s
  else if a = 0xD018 then execPertFstrArm v s
  else if a = 0xD01C then execPertTmoArm v s
  else if a = 0xD020 then .next (s.pertWriteB 3 [PERT_TMO_B_TARGET] v)
  else if a = 0xD024 then execPertMismArm v s
  else if a = 0xD028 then .next (s.pertWriteB 4 [PERT_MISM_B_EVERY, PERT_MISM_B_COUNT] v)
  else .next (s.softWrite a v)

/-- A write of a sightline port's register (12 R366). -/
def State.portWrite (s : State) (k o : Nat) (v : Word) : State :=
  if 0x34 < o then s.discard else s.onPort k s.now16 (fun _ p => p.pageWrite o v)

/-- A write in the hub window by PF `fn`, once the device is ready. -/
def State.hubWrite (s : State) (fn a : Nat) (v : Word) : Host.Outcome State Fault Refusal :=
  if a = 0x2000 then execFrmLenWrite v s
  else if a = 0x2004 then execFrmResWrite v s
  else if a = 0x2008 then execFrmPhaseWrite v s
  else if a = 0x4000 then .next s
  else if a = 0x6000 then .next (if s.anyActive then s.discard else s.softWrite a v)
  else if 0x6010 ≤ a ∧ a < 0x6030 then .next (s.lsrcWrite ((a - 0x6010) / 4) v)
  else if 0x6100 ≤ a ∧ a < 0x6700 then .next (s.portWrite ((a - 0x6100) / 0x40) ((a - 0x6100) % 0x40) v)
  else if a = 0x7008 then .next (s.setFn fn ((s.fn fn).b2Lo v))
  else if a = 0x700C then .next (s.setFn fn ((s.fn fn).b2Hi v))
  else if 0x7180 ≤ a ∧ a < 0x7198 then .next (s.setFn fn ((s.fn fn).bookWrite (a - 0x7180) v))
  else if a = 0x810C then .next (if s.tdp < GRD_FLOOR_FLOOR.of v then s else s.softWrite a v)
  else if a = 0x8110 then execPcapWrite v s
  else if a = 0xA044 then (if TPK_CTL_STOP.on v then execTestpackStop s else .next s)
  else if a = 0xB108 then execHubRstCold v s
  else if 0xC000 ≤ a ∧ a < 0xC200 then
    .next (if a % 16 = 0 then s.updEvc (fun c => c.writeSel 2 v) (.hub ((a - 0xC000) / 16)) else s)
  else if 0xC200 ≤ a ∧ a < 0xC300 then .next s
  else if 0xD000 ≤ a ∧ a < 0xE000 then s.pertRegWrite a v
  else if 0xE000 ≤ a ∧ a < 0xE080 then .next (s.cdvWrite a v)
  else if 0xF000 ≤ a ∧ a < 0xF010 then s.mchkWrite a v
  else .next (s.softWrite a v)

/-! ## Region windows and block pages (00 R10, 01 R28, 15 R422) -/

/-- A write in region `n`'s window. -/
def State.regionWrite (s : State) (n o : Nat) (v : Word) : State :=
  if o < 0x40000 then
    s.onRegion n 0 (fun e g => g.pageWrite e (s.domUsed n) (fun k => (segRegions n k).any s.activeIn) o v)
  else
    let b := (o - 0x40000) / 0x1000
    let k := chipBlk n b
    if 192 ≤ b ∨ !s.reaches k then s.discard
    else s.putBlock k ((s.block k).pageWrite (s.env k 0) (o % 0x1000) v)

/-- A write in a PF's BAR0. Before ready (17 R455) only the rings' registers are reached, and MON_MBX_CTL, whose GO (the row
MAILBOX_REQUEST) has an outcome then. -/
def State.pfWrite (s : State) (fn a : Nat) (v : Word) : Host.Outcome State Fault Refusal :=
  if 0x7200 ≤ a ∧ a < 0x7400 then s.ringWrite fn ((a - 0x7200) / 0x40) ((a - 0x7200) % 0x40) v
  else if a = 0x903C then .next (s.softWrite a v)
  else if !s.ready then .next s.discard
  else if a < 0x1000000 then s.hubWrite fn a v
  else if a < 0x2800000 then .next (s.regionWrite ((a - 0x1000000) / 0x100000) ((a - 0x1000000) % 0x100000) v)
  else .next s.discard

/-- An aligned 32-bit write at offset `a` of the BAR0 of function `fn`. -/
def State.bar0Write (s : State) (fn a : Nat) (v : Word) : Host.Outcome State Fault Refusal :=
  if isPf fn then s.pfWrite fn a v else s.vfWrite fn a v

/-- REGISTER_WRITE (R5 to R9): a write at offset `addr` of the BAR0 of function `fn`. An aligned 64-bit write is two
writes of 32 bits, the lower address first; a write of any other size or alignment is discarded (R5), uncounted: R28 counts the
accesses to pages (log 14). -/
def execRegisterWrite (fn addr : Nat) (w : BarWrite) (s : State) : Host.Outcome State Fault Refusal :=
  if w.size = 4 ∧ addr % 4 = 0 then s.bar0Write fn addr (w.v.setWidth 32)
  else if w.size = 8 ∧ addr % 8 = 0 then
    match s.bar0Write fn addr (w.v.setWidth 32) with
    | .next t => t.bar0Write fn (addr + 4) ((w.v >>> 32).setWidth 32)
    | x => x
  else .next s

end Sys2Proof.Machine
end

