-- ==== Sys2Proof/Machine/SequencerCmds.lean ====
section
/-!
DEFINITION. The commands of a block's sequencer, cell array and bank ALUs (03_cell_array.md, 04_number_formats.md, 05_scratchpad_bank_alus.md R149 to R156, 06_scalar_core.md R175 to R182) and of stakes (10_stakes.md).
-/
namespace Sys2Proof.Machine

/-- The injections that a block's issue has made are taken from COUNT of the control, which ends at zero (20 R536). -/
def State.spendInj (s : State) (hits : Nat) : State :=
  if hits = 0 then s
  else
    let left := s.pert.injLeft - hits
    let s := { s with pert := { s.pert with injLeft := left } }
    if left = 0 then
      let s := s.wr PERT_MISM_A_EN 0
      { s with pert := { s.pert with acting := s.pert.acting.set 4 false } }
    else s

/-- MATRIX_ISSUE (03 R64, R65, R66, 04 R121, 06 R176). -/
def execMatrixIssue (blk cyc : Nat) (s : State) : Host.Outcome State Fault Refusal :=
  let before := (s.block blk).seq.injHits
  let s := s.onIssue blk cyc (fun e b => b.matrixIssue e)
  .next (s.spendInj ((s.block blk).seq.injHits - before))

/-- TILE_OUTCOME (03 R83 to R88, 04 R116 to R118): `faults` are what the environment put into the drained values. -/
def execTileOutcome (blk cyc : Nat) (faults : List CellFault) (s : State) : Host.Outcome State Fault Refusal :=
  .next (s.onLive blk cyc (fun e b => b.tileOutcome e faults))

/-- BANK_COMMAND_ISSUE (05 R155, R156). -/
def execBankCommandIssue (blk cyc : Nat) (s : State) : Host.Outcome State Fault Refusal :=
  .next (s.onIssue blk cyc (fun e b => b.bankIssue e))

/-- BANK_COMMAND_DONE (05 R154, R156). -/
def execBankCommandDone (blk cyc : Nat) (s : State) : Host.Outcome State Fault Refusal :=
  .next (s.onLive blk cyc (fun e b => b.bankDone e))

/-- CODEBOOK_LOAD (04 R101, R102). -/
def execCodebookLoad (blk cyc : Nat) (s : State) : Host.Outcome State Fault Refusal :=
  .next (s.onIssue blk cyc (fun e b => b.codebookLoad e))

/-- LOOKUP_LOAD (05 R149). -/
def execLookupLoad (blk cyc : Nat) (s : State) : Host.Outcome State Fault Refusal :=
  .next (s.onIssue blk cyc (fun e b => b.lookupLoad e))

/-- CHECK_COMMAND (06 R182). -/
def execCheckCommand (blk cyc : Nat) (s : State) : Host.Outcome State Fault Refusal :=
  .next (s.onIssue blk cyc (fun e b => b.checkIssue e))

/-- CHECK_DONE (06 R182). -/
def execCheckDone (blk cyc : Nat) (s : State) : Host.Outcome State Fault Refusal :=
  .next (s.onLive blk cyc (fun e b => b.checkDone e))

/-- STAKE_DRIVE_COMMAND (10 R288, R289). -/
def execStakeDriveCommand (blk cyc : Nat) (s : State) : Host.Outcome State Fault Refusal :=
  .next (s.onIssue blk cyc (fun e b => b.driveCommand e))

/-- STAKE_SIGHT (10 R282, R286). -/
def execStakeSight (blk cyc : Nat) (s : State) : Host.Outcome State Fault Refusal :=
  .next (s.onIssue blk cyc (fun e b => b.stakeSight e))

/-- PLAN_POINT (06 R179). -/
def execPlanPoint (blk cyc : Nat) (s : State) : Host.Outcome State Fault Refusal :=
  .next (s.onIssue blk cyc (fun e b => b.planPoint e))

/-- SIGHT_TIMEOUT (10 R294) of a block's sight, a transfer's gate or a store stream's gate. -/
def execSightTimeout (at_ : WaitAt) (s : State) : Host.Outcome State Fault Refusal :=
  match at_ with
  | .block blk cyc => .next (s.onLive blk cyc (fun e b => b.sightTimeout e false))
  | .engine n cyc eng desc => .next (s.onLiveRegion n cyc (fun e g => g.xferTimeout e eng desc false))
  | .stream n cyc i => .next (s.onLiveRegion n cyc (fun e g => g.strmTimeout e i false))

/-- DRIVE_APPLIED (10 R283, R292, R293, R298): the oldest queued drive of a block's stakes or of a region's. -/
def execDriveApplied (at_ : UnitAt) (s : State) : Host.Outcome State Fault Refusal :=
  match at_ with
  | .block blk cyc =>
    let gen := match (s.block blk).driveq.head? with | some d => s.genOf d.parcel | none => 0
    .next (s.onLive blk cyc (fun e b => b.driveApply e gen))
  | .region n cyc => .next (s.onLiveRegion n cyc (fun e g => g.tryAll e |> fun g => g.driveApply e |> fun g => g.tryAll e))


end Sys2Proof.Machine
end

