-- ==== Sys2Proof/Machine/TickOps.lean ====
section
/-!
DEFINITION. The parts of a boundary gap (02_the_frame.md R42, Table 2-9): void tiles and drives (R54, 10 R296), roll-over (10 R284), the
switch of step 6 (11 R324, R327), the changes of step 7 (R58, 12 R354 to R357, 18 R483 to R491, 20 R530 to R534), the commits of step 8
(R56, 09 R275, 13 Table 13-16).
-/
namespace Sys2Proof.Machine

/-! ## Steps 1 to 5 -/

/-- Time passes for every block whose clock runs, up to the end of the running frame. -/
def State.settle (s : State) : State :=
  s.listedBlocks.foldl (fun (s : State) k => s.onLive k (s.deadlineCyc (regionOf k)) (fun _ b => b)) s

/-- What the frame that ends is judged by. -/
structure Ended where
  frame : Nat
  active : List Nat
  fenced : List Nat
  overran : List Nat
deriving DecidableEq, Repr

/-- A frame that ends: its contexts with an active state, those fenced at this boundary, those overrun (R52, 19 R508). -/
def State.ended (s : State) : Ended :=
  let a := (List.range 16).filter (fun p => p != 0 && s.pstate p == 2)
  { frame := s.frame.num, active := a, fenced := a.filter s.fencing
    overran := a.filter (fun p => !s.fencing p && (s.ctx p).overran) }

/-- Step 4 at a block of an overrun context: the tiles owed (R54, 09 R267). -/
def State.voidTiles (s : State) (n p : Nat) : State :=
  let s := (s.listedBlocks.filter (fun k => (s.block k).rd RT_CTL_PARCEL == p && !s.absent k)).foldl (fun (s : State) k =>
    s.onBlock k 0 (fun e b => b.legOverrun e n)) s
  (List.range 24).foldl (fun (s : State) r =>
    s.onLiveRegion r 0 (fun e g =>
      (List.range 64).foldl (fun (g : Region) i =>
        if g.ssParcel i = p then g.strmOverrun e i (g.planTiles i) else g) g)) s

/-- Steps 4 and 5 at the stakes that parcel `p` has on a block: roll-over, with the void drive of the shortfall at the tick when the
context is overrun (10 R284, R296, R297). -/
def Block.rollStakes (n p : Nat) (overran : Bool) (e : Env) (b : Block) : Block :=
  (stakesOf b.stakes p).foldl (fun (b : Block) k =>
    let u := b.stake k
    let r := u.rollOver n
    let b := b.setStake k (if overran then r.stake.voidDrive n u.shortfall else r.stake)
    let b := if r.lag then (b.set1 STK_BSTAT_LAGERR).raise e { cls := 3, subtype := 0x62, level := 1, object := k, objkind := 1 }
      else b
    if r.ovf then
      (b.set1 STK_BSTAT_OVF).raise e { cls := 2, subtype := 0x65, level := 1, object := k, objkind := 1, teardown := true }
    else b) b

/-- The same at a region's stakes. -/
def Region.rollStakes (n p : Nat) (overran : Bool) (e : REnv) (g : Region) : Region :=
  (stakesOf g.stakes p).foldl (fun (g : Region) k =>
    let u := g.stake k
    let r := u.rollOver n
    let g := g.setStake k (if overran then r.stake.voidDrive n u.shortfall else r.stake)
    let g := if r.lag then
        (g.set1 STK_RSTAT_LAGERR).raise e
          { cls := 3, subtype := 0x62, level := 2, parcel := p, object := 2 ^ 14 + k, objkind := 1 }
      else g
    if r.ovf then
      (g.set1 STK_RSTAT_OVF).raise e
        { cls := 2, subtype := 0x65, level := 2, parcel := p, object := 2 ^ 14 + k, objkind := 1, teardown := true }
    else g) g

/-- Roll-over of every enabled stake of parcel `p`. -/
def State.rollOver (s : State) (n p : Nat) (overran : Bool) : State :=
  let s := (s.listedBlocks.filter (fun k => !s.absent k)).foldl (fun (s : State) k =>
    s.onBlock k 0 (Block.rollStakes n p overran)) s
  (List.range 24).foldl (fun (s : State) r => s.onLiveRegion r 0 (fun e g => (Region.rollStakes n p overran e g).tryAll e)) s

/-- What the stand-ins of fenced blocks did not send in frame `n` for want of slots, with the records of R485. -/
def State.standInsEnd (s : State) (n : Nat) : State :=
  (s.listedBlocks.filter (fun k =>
      (s.region (regionOf k)).isFenced (indexOf k) && s.activeP ((s.block k).rd RT_CTL_PARCEL))).foldl (fun (s : State) k =>
    (List.range 64).foldl (fun (s : State) i =>
      let x := (s.block k).standInEnd n i
      if !x.2 then s
      else
        (s.setBlock k x.1).onLiveRegion (regionOf k) 0 (fun e g =>
          g.raiseBlk e (indexOf k) { cls := 8, subtype := 0xE6, level := 2, parcel := x.1.rd RT_CTL_PARCEL, specific := i })) s) s

/-- Does a stand-in run in region `n`? -/
def State.standInIn (s : State) (n : Nat) : Bool :=
  s.listedBlocks.any (fun k => regionOf k == n && (s.region n).isFenced (indexOf k) && s.activeP ((s.block k).rd RT_CTL_PARCEL))

/-! ## Step 6 -/

/-- A shadow bank error found at the switch (11 R327): record of subtype 0x71, SBERR, and the fence of the block or region. -/
def State.shadowErr (s : State) (x : ShadowErr) : State :=
  let r : ErrRec := { cls := 7, subtype := 0x71, level := 3 }
  match x with
  | .block k =>
    let n := regionOf k
    let s := s.raise { r with region := n, die := n / 6, block := k, pblock := (s.region n).pblk n (indexOf k) }
    s.setRegion n (((s.region n).set1 RGN_SHADOW_SBERR).planFence (indexOf k) 5)
  | .region n =>
    let s := s.raise { r with region := n, die := n / 6 }
    (s.setRegion n ((s.region n).set1 RGN_SHADOW_SBERR)).loseRegions 5 [n]

/-- The sightline ports whose octets become external at a load leave OFF (12 Table 12-5). -/
def State.portsOn (s : State) : State :=
  (List.range 72).foldl (fun (s : State) o =>
    let k := s.lane LANE_OCT_SL o
    if s.lane LANE_OCT_KIND o = 2 ∧ k < 24 ∧ (s.port k).state = 0 then
      s.onPort k s.now16 (fun _ q => q.wr SL_STAT_STATE 1)
    else s) s

/-- Has F come without the switch flag (Table 11-7, reason 0x4)? -/
def State.cutLate (s : State) : Bool :=
  match s.plat.load with
  | some l => l.cut && l.f != 0 && decide (l.f ≤ s.frame.num)
  | none => false

/-- Step 6 and the changes of plat, maps and frame registers that the tick brings (11 R315, R318, R324, 02 R35, 17 R460). -/
def State.platStep (s : State) (bad : List ShadowErr) : State :=
  let old := s
  let s :=
    if s.plat.switch && s.cutLate then bad.foldl State.shadowErr s.switchPlat
    else if s.cutLate then s.cutAbandon 4
    else s
  let s := match s.mc.mapPend with | some m => s.adoptBring m | none => s
  let new := match s.plat.load with | some l => l.sealed && !l.cut | none => false
  let s := if new then s.activatePlat.portsOn else s
  let s := s.unloadPlat.showDecl
  let s := if s.plat.active.isNone then s.adoptFrame else s
  State.platVec old s

/-! ## Step 7 -/

/-- Step 7 for the regions lost before this gap (18 R491): BRUP_RLOST, circuits, sightline ports, lock groups. -/
def State.loseStep (s : State) (ns : List Nat) : State :=
  if ns.isEmpty then s
  else
    let s := s.wr BRUP_RLOST_RGN (s.rd BRUP_RLOST_RGN ||| ns.foldl (fun m n => m + 2 ^ n) 0)
    let s := (List.range 72).foldl (fun (s : State) o =>
      let a := 6 * s.lane LANE_OCT_A_DIE o + s.lane LANE_OCT_A_FLD o
      let b := 6 * s.lane LANE_OCT_B_DIE o + s.lane LANE_OCT_B_FLD o
      if s.lane LANE_OCT_KIND o = 1 ∧ (ns.contains a ∨ ns.contains b) ∧ s.bit LANE_STAT_LOCK o then s.loseCircuit o
      else s) s
    let s := (List.range 24).foldl (fun (s : State) q =>
      match s.homeOf q with
      | some h => if ns.contains h.1 then s.onPort q s.now16 (fun _ p => { p.wr SL_STAT_STATE 0 with heldDatum := [] }) else s
      | none => s) s
    let s := ns.foldl (fun (s : State) n => s.setRegion n { s.region n with lanes := [], laneOut := [] }) s
    s.showPins

/-- Granule requests take effect in blocks whose domain is on (05 R160). -/
def State.granuleStep (s : State) : State :=
  s.listedBlocks.foldl (fun (s : State) k =>
    let b := s.block k
    if !s.absent k && (s.region (regionOf k)).rd PWR_DOM_STAT_STATE (domainOf (indexOf k)) == 1 then
      s.setBlock k (b.granules b.granuleReq)
    else s) s

/-- A control takes effect (20 R529, R534, R536). -/
def State.pertStart (s : State) (k : Nat) : State :=
  let s := { s with pert := { s.pert with acting := s.pert.acting.set k true } }
  if k = 2 then { s with pert := { s.pert with stretchLeft := s.rd PERT_FSTR_COUNT } }
  else if k = 4 then
    s.listedBlocks.foldl (fun (s : State) x =>
        if s.mismOn x then s.setBlock x { s.block x with seq := { (s.block x).seq with injCount := 0 } } else s)
      { s with pert := { s.pert with injLeft := s.rd PERT_MISM_B_COUNT } }
  else s

/-- A control ends; a hold that runs ends with it. -/
def State.pertStop (s : State) (k : Nat) : State :=
  let s := { s with pert := { s.pert with acting := s.pert.acting.set k false } }
  let q := s.rd PERT_SLHOLD_PORT
  if k = 1 ∧ (s.port q).slhold then s.onPort q s.now16 (fun e p => ({ p with slhold := false } : Port).flush e) else s

/-- The running frame is stretched while the control acts and frames are left (20 R534). -/
def State.stretchStep (s : State) : State :=
  if s.pert.acting.getD 2 false then
    if s.pert.stretchLeft = 0 then
      { (s.wr PERT_FSTR_EN 0).pertStop 2 with frame := { s.frame with stretch := 0 } }
    else
      { s with frame := { s.frame with stretch := s.rd PERT_FSTR_ADD }, pert := { s.pert with stretchLeft := s.pert.stretchLeft - 1 } }
  else { s with frame := { s.frame with stretch := 0 } }

/-- Step 7 for the perturbation controls (20 R529 to R531); `oos` says that the device was out of service before this gap. -/
def State.pertStep (s : State) (oos : Bool) : State :=
  let all := s.pert.lockPend || oos
  let s := { s with pert := { s.pert with head := s.bit PERT_STAT_ACTIVE } }
  let s := if s.pert.lockPend then
      { s.set1 PERT_STAT_LOCKED with pert := { s.pert with lockPend := false } } else s
  let s := (List.range 5).foldl (fun (s : State) k =>
    let s := if all then s.wr (pertEn k) 0 else s
    let acts := s.pert.acting.getD k false
    if s.bit (pertEn k) && !acts then s.pertStart k
    else if !s.bit (pertEn k) && acts then s.pertStop k
    else s) s
  let s := s.stretchStep
  let m := (List.range 5).foldl (fun m k => if s.pert.acting.getD k false then m + 2 ^ k else m) 0
  (s.wr PERT_STAT_ACT m).wr PERT_STAT_ACTIVE (if m = 0 then 0 else 1)

/-- Sending ends of leg `leg` restart their counts for the joining parcels (12 R355). -/
def State.restartSend (s : State) (leg fresh : Nat) : State :=
  let s := s.listedBlocks.foldl (fun (s : State) k =>
    let b := s.block k
    if fresh.testBit (b.rd RT_CTL_PARCEL) then
      s.setBlock k ((List.range 64).foldl (fun (b : Block) i =>
        if b.legOut i && b.rd LEP_A0_LEG i == leg then
          b.setLeg i { b.leg i with n64 := 0, dseq := 0, start := s.frame.num }
        else b) b)
    else s) s
  (List.range 24).foldl (fun (s : State) n =>
    s.setRegion n ((List.range 64).foldl (fun (g : Region) i =>
      if g.ss i 0 ≠ 0 ∧ bitsOf (g.ss i 0) 22 22 = 0 ∧ fresh.testBit (g.ssParcel i) ∧ g.rd STRM_HDR_LEG i = leg then
        g.setStrm i { g.strm i with tiles := 0, dseq := 0 }
      else g) (s.region n))) s

/-- A landing record of a joining leg restarts, and its stake is set as at admission in frame `a` (12 R355, R361). -/
def Region.restartLanding (g : Region) (k a : Nat) : Region :=
  let i := g.rd SL_LAND0_WSTRM k
  let r := g.rd SL_LAND0_RSTRM k
  let g := (g.setStrm i {}).setStrm r { g.strm r with tiles := 0 }
  let id := g.rd STRM_STK_ARRIVE i
  if id / 2 ^ 14 = 1 then g.setStake (id % 4096) ((g.stake (id % 4096)).startCtx a) else g

/-- The parcels in `fresh` join port `q` (12 R355). -/
def State.joinLegs (s : State) (q fresh : Nat) : State :=
  if fresh = 0 then s
  else
    let legs := match s.plat.active with
      | some p => (p.sends.filter (fun (x : Nat × Nat) => x.1 == q)).map (fun (x : Nat × Nat) => x.2)
      | none => []
    let s := legs.foldl (fun (s : State) l => s.restartSend l fresh) s
    match s.homeOf q with
    | none => s
    | some (n, lp) =>
      let ks := ((List.range 16).filter fresh.testBit).flatMap (fun p => (s.region n).landings lp p)
      s.setRegion n (ks.foldl (fun (g : Region) k => g.restartLanding k s.frame.num) (s.region n))

/-- Step 7 at the sightline ports: roles, leaves, joins, then a datum from each (12 R348, R353 to R356), 600 ns after the tick (02
Table 2-9, and the example of chapter 12; DEDUCED, log 76). -/
def State.portStep (s : State) : State :=
  let s := (List.range 24).foldl (fun (s : State) q =>
    let x := (s.port q).boundary (s.penv q s.now16)
    (s.putPort q x.1).joinLegs q x.2) s
  (List.range 24).foldl (fun (s : State) q => s.onPort q (s.now16 + 960) (fun e p => p.sendDatum e)) s

/-- Step 7 of the boundary gap (02 Table 2-11): `lost` are the regions lost before this gap. -/
def State.changeStep (s : State) (fenced lost : List Nat) : State :=
  let stamps := s.escStamps fenced
  let oos := s.oos
  let s := s.loseStep lost
  let s := fenced.foldl State.fence s
  let s := s.escalate stamps
  let s := (List.range 24).foldl (fun (s : State) n => s.onLiveRegion n 0 (fun e g => g.applyFences e)) s
  let s := s.granuleStep
  let s := s.allDoms (fun s n k => (s.domBoundary n k).vidBoundary n k)
  let s := s.packBoundary.pertStep oos
  let s := ((List.range 16).filter s.mayAdmit).foldl State.startCtx s
  s.portStep

/-! ## Step 8 -/

/-- Blocks of parcel `p` in region `n` that count in its frame report. -/
def State.reportBlocks (s : State) (n p : Nat) : List Nat := (s.blocksOf n p).filter (fun k => !s.absent k)

/-- The closure reserve of region `n` in its cycles (02 R33). -/
def State.reserveCyc (s : State) (n : Nat) : Nat := s.cycAt n s.frameLen - 256 * s.wholeBeats n

/-- The sum of binary32 patterns in order, from the first unchanged; +0 where there is none (13 Table 13-16). -/
def sumFirst : List Word → Word
  | [] => 0
  | a :: t => t.foldl fadd a

/-- The region of parcel `p`'s largest reserve use, and the use in 1/4,096 of the reserve; the first region on a tie. -/
def State.reserveUse (s : State) (p : Nat) : Nat × Nat :=
  ((List.range 24).foldl (fun (a : Option (Nat × Nat)) n =>
    let ks := s.reportBlocks n p
    if ks.isEmpty then a
    else
      let d := ks.foldl (fun m k => max m ((s.block k).rd SEQ_DELAY_DELAY)) 0
      let u := min (4096 * d / s.reserveCyc n) 0xFFFF
      match a with
      | none => some (n, u)
      | some (x : Nat × Nat) => if x.2 < u then some (n, u) else a) none).getD (0, 0)

/-- What a frame report says of parcel `p` (13 Table 13-16, bytes 21 to 71). -/
def State.reportBody (s : State) (p : Nat) : List Byte :=
  let use := s.reserveUse p
  let ks := (List.range 24).flatMap (fun n => s.reportBlocks n p)
  let most (i : Nat) : Nat := ks.foldl (fun m k => max m ((s.block k).rd SEQ_CHG_CYC i)) 0
  let sums := (List.range 24).filterMap (fun n =>
    let ks := s.reportBlocks n p
    if ks.isEmpty then none else some (sumFirst (ks.map (fun k => BitVec.ofNat 32 ((s.block k).rd DRN_MSE_SUM_SUM)))))
  let total (f : Block → Nat) : Nat := min (ks.foldl (fun a k => a + f (s.block k)) 0) 0xFFFFFFFF
  leBytes 1 use.1 ++ leBytes 2 use.2 ++ (List.range 7).flatMap (fun i => leBytes 4 (most i)) ++
    leBytes 4 (sumFirst sums).toNat ++ leBytes 4 (total (fun b => b.rd DRN_MSE_CNT_COUNT)) ++
    leBytes 4 (total (fun b => b.seq.replays)) ++ leBytes 4 (total (fun b => b.seq.widened)) ++
    leBytes 4 (total (fun b => b.seq.poisoned))

/-- The commit status of parcel `p`'s frame (02 Table 2-11a), judged on the state after step 2. -/
def State.commitStatus (s : State) (x : Ended) (p : Nat) : Nat :=
  if x.fenced.contains p then 3
  else if x.overran.contains p then 1
  else if (List.range 24).any (fun n => (s.region n).voids.contains p || (s.reportBlocks n p).any (fun k =>
      (s.block k).seq.voidSeen)) then 2
  else 0

/-- The status word of a release buffer (09 R274). -/
def statusWord (frame status : Nat) : List Byte := leBytes 8 (frame % 2 ^ 48 + 2 ^ 48 * status)

/-- Write the status word of buffer `b` of a release entry. -/
def State.writeStatus (s : State) (r : RelBuf) (b frame status : Nat) : State :=
  let a := 256 * (r.base + b * r.len)
  s.onLiveRegion r.region 0 (fun _ g =>
    if r.tgt = 0 then g.rsWrite a (statusWord frame status) else g.stkWrite a (statusWord frame status) false)

/-- The two status words of a release entry for frame `n` (09 R275). -/
def State.release (s : State) (n status : Nat) (r : RelBuf) : State :=
  (s.writeStatus r (n % (r.nb + 1)) n status).writeStatus r ((n + 1) % (r.nb + 1)) 0xFFFFFFFFFFFF 0xF

/-- Consecutive overruns after a frame with `status`; the limit of R57 tears the context down with cause 0x5. -/
def State.streakStep (s : State) (p status : Nat) : State :=
  let c := s.ctx p
  let k := if status = 1 then c.streak + 1 else if status = 0 then 0 else c.streak
  let s := s.setCtx p { c with streak := k }
  let lim := s.rd FRM_CTL_OVR_LIMIT
  if status = 1 ∧ lim ≠ 0 ∧ lim ≤ k then s.teardown p 5 else s

/-- The commit of frame `x.frame` for parcel `p` (02 R56, 13 Tables 13-16 and 13-17); `t` is the state after step 2. -/
def State.commit (s t : State) (x : Ended) (p : Nat) : State :=
  let status := t.commitStatus x p
  let s := (t.relBufs p).foldl (fun (s : State) r => s.release x.frame status r) s
  let s := s.incHold HIF_HB_COMMITS_COMMITS p
  let s := if status = 0 then s.incHold HIF_HB_COMPLETES_COMPLETES p else s
  let body := leBytes 4 (s.rd CTX_NUM_NUM p) ++ leBytes 1 status ++ t.reportBody p ++ leBytes 4 (s.rd HIF_HB_COMPLETES_COMPLETES p)
  let s := s.bookAll { type_ := 2, parcel := p, frame := x.frame, body := body }
  let s := if status = 1 then
      (t.joinedPorts p).foldl (fun (s : State) q =>
        if (s.port q).state = 4 then s.onPort q s.now16 (fun e y => y.control e 2 (noticeBody 2 p 0 x.frame)) else s) s
    else s
  s.streakStep p status

/-- Receiving legs of a parcel that is not joined on a port, or whose port is not READY, are voided for the frame that has ended
(12 R357). -/
def State.notJoined (s : State) (x : Ended) : State :=
  (List.range 24).foldl (fun (s : State) q =>
    (x.active.filter (fun p => !x.fenced.contains p)).foldl (fun (s : State) p =>
      if (s.port q).state = 4 ∧ ((s.port q).rd SL_JOIN_JOINED).testBit p then s else s.voidNotice q p x.frame) s) s

/-- Field book records lost, all rings. -/
def State.bookLosses (s : State) : Nat := (List.range 34).foldl (fun a k => a + (s.fn k).book.rd FB_LOST_COUNT) 0

/-- The frame summary (13 Table 13-16); `mark` says that a perturbation was active in the frame. -/
def State.summaryRec (s : State) (n : Nat) (mark : Bool) : BookRec :=
  let mask := (List.range 16).foldl (fun m p => if s.activeP p then m + 2 ^ p else m) 0
  let flags := (if mark then 1 else 0) + (if s.oos then 2 else 0) + (if s.plat.active.isNone then 4 else 0) +
    (if s.arming then 8 else 0)
  let drops (f : Block → Nat) : Nat := s.listedBlocks.foldl (fun a k => a + f (s.block k)) 0
  { type_ := 1, parcel := 0, frame := n
    body := leBytes 4 (s.rd HIF_HB_MC_HB) ++ leBytes 2 mask ++ leBytes 1 flags ++ leBytes 1 0 ++ leBytes 4 (s.rd PWR_IN_P_P) ++
      leBytes 4 (drops (fun b => b.tdrop)) ++ leBytes 4 (drops (fun b => b.rdrop)) ++ leBytes 4 s.bookLosses }

/-- Step 8 of the boundary gap; `t` is the state after step 2. -/
def State.commitStep (s t : State) (x : Ended) (mark : Bool) : State :=
  let s := x.active.foldl (fun (s : State) p => s.commit t x p) s
  let s := x.fenced.foldl (fun (s : State) p => s.voidContexts p (t.joinedPorts p)) s
  let s := s.notJoined x
  let s := ((List.range 16).filter (fun p =>
    s.pstate p == 3 && s.drained p && decide ((s.ctx p).fenceAt ≠ s.frame.num))).foldl State.endTeardown s
  let s := s.incHold HIF_HB_MC_HB
  let r := s.summaryRec x.frame mark
  let s := { s.bookAll r with mc := { s.mc with summary := some r } }
  (List.range 16).foldl State.showVf s

/-! ## Step 9 and the end of the frame's counts -/

/-- Why the clock switch refuses the step of region `n` (14 R399, R401, 08 R244): a pin, or a member of its lock group that cannot
take it. -/
def State.switchWhy (s : State) (n : Nat) : Option Nat :=
  if s.pinned n then some 4
  else if (s.group n).all (fun m => !(s.region m).lost && (s.region m).switchReady (s.renv m 0)) then none
  else some 5

/-- The clock switches of the regions that step (14 R399, R401, R403): in a lock group, of every member or of none (08 R243). -/
def State.clockStep (s : State) : State :=
  let s0 := s
  ((List.range 24).foldl (fun (s : State) n =>
    let g := s.region n
    if g.lost then s
    else
      let e := s.renv n 0
      let x := g.clockSwitch e (s0.switchWhy n)
      let s := s.putRegion n (if x.2 then x.1 else Region.keepVids e g x.1)
      if x.2 && s.bit CLK_CTL_FFM then s.set1 CLK_STAT_FFSTEP else s) s).showPower

/-- A block's counts of a frame restart (05 R152, 06 R179). -/
def Block.newFrame (b : Block) : Block :=
  let b := (List.range 7).foldl (fun (b : Block) i => b.wr SEQ_CHG_CYC 0 i) (b.wr SEQ_DELAY_DELAY 0)
  let b := ((b.wr DRN_MSE_SUM_SUM 0).wr DRN_MSE_CNT_COUNT 0).wr DRN_MSE_CNT_SAT 0
  { b with seq := { b.seq with replays := 0, widened := 0, poisoned := 0 }, tdrop := 0, rdrop := 0 }

/-- The counts that describe one frame restart, and the ledgers age (18 R481). -/
def State.newFrame (s : State) : State :=
  let s := s.listedBlocks.foldl (fun (s : State) k => s.setBlock k (s.block k).newFrame) s
  let s := (List.range 24).foldl (fun (s : State) n =>
    let g : Region := { (s.region n).ledgerTick with voids := [] }
    s.setRegion n (g.wr RGN_ERRQ_STANDIN (if s.standInIn n then 1 else 0))) s
  (List.range 16).foldl (fun (s : State) p => s.setCtx p { s.ctx p with lastOver := (s.ctx p).overran, overran := false }) s

end Sys2Proof.Machine
end

