-- ==== Sys2Proof/Machine/TickCmds.lean ====
section
/-!
DEFINITION. FRAME_TICK (02_the_frame.md R36, R37, R42): the tick and the boundary gap that it begins.
-/
namespace Sys2Proof.Machine

/-- The frame number after `n` (R36). -/
def nextFrame (n : Nat) : Nat := (n + 1) % 2 ^ 48

/-- The tick of frame 0 of a realignment (R37), `left` periods after the last event: the frame number restarts, and no frame ends at its
deadline. -/
def State.tickZero (s : State) (left : Nat) : State :=
  let s := s.pass left
  let s := ((s.wr FRM_CTL_EPOCH_ARM 0).set1 FRM_STAT_REALIGNED).set1 FRM_STAT_ALIGNED
  { s with frame := { s.frame with pos := 0, num := 0, realign := none }
           pw := { s.pw with realignAt := some (s.pw.realignAt.getD s.ms) } }

/-- The boundary gap from step 3 on; `t` is the state after step 2, `x` the frame that ended, `lost` the regions lost before it. -/
def State.gap (t : State) (x : Ended) (lost : List Nat) (bad : List ShadowErr) (s : State) : State :=
  let s := s.tickEvcs.count 0x061 none
  let s := (List.range 24).foldl (fun (s : State) n =>
    s.setRegion n { (s.region n).wr RGN_BEAT_GAP 1 with levels := [0, 0, 0, 0], hintq := [] }) s
  let s := s.standInsEnd x.frame
  let s := x.fenced.foldl State.fenceStop s
  let s := x.overran.foldl (fun (s : State) p => s.voidTiles x.frame p) s
  let s := (x.active.filter (fun p => !x.fenced.contains p)).foldl (fun (s : State) p =>
    s.rollOver x.frame p (x.overran.contains p)) s
  let s := if s.frame.refBack then
      { (s.wr CLK_STAT_HOLDOVER 0).set1 CLK_STAT_REFOK with frame := { s.frame with refBack := false } }
    else s
  let mark := s.pert.head || s.bit PERT_STAT_ACTIVE
  let s := (s.platStep bad).changeStep x.fenced lost
  (s.commitStep t x mark).clockStep.newFrame

/-- FRAME_TICK (R42): a tick, with the boundary gap up to step 9; beat 0 follows with BEAT_START. `bad` are the shadow bank errors that a
switch finds (11 R327). Nothing happens while no frame runs. -/
def execFrameTick (bad : List ShadowErr) (s : State) : Host.Outcome State Fault Refusal :=
  if !s.frame.running then .next s
  else
    let lost := (List.range 24).filter (fun n => (s.region n).lost && !(s.rd BRUP_RLOST_RGN).testBit n)
    match s.frame.realign with
    | some n =>
      let x : Ended := { frame := s.frame.num, active := [], fenced := [], overran := [] }
      let t := s.tickZero (n - s.frame.pos)
      .next (t.gap x lost bad t)
    | none =>
      let t := (s.pass (s.frameLen - s.frame.pos)).settle.tickDeadline
      .next (State.gap t t.ended lost bad { t with frame := { t.frame with num := nextFrame t.frame.num, pos := 0 } })

end Sys2Proof.Machine
end

