-- ==== Sys2Proof/Machine/Dispatch.lean ====
section
/-!
DEFINITION. What each command does: one arm per constructor of `Instr`, each one direct call of its meaning.
-/
namespace Sys2Proof.Machine

def exec (i : Instr) (s : State) : Host.Outcome State Fault Refusal :=
  match i with
  | .frameTick bad => Sys2Proof.Machine.execFrameTick bad s
  | .stepTail n => Sys2Proof.Machine.execStepTail n s
  | .beatStart n => Sys2Proof.Machine.execBeatStart n s
  | .epochEdge pos => Sys2Proof.Machine.execEpochEdge pos s
  | .frmLenWrite v => Sys2Proof.Machine.execFrmLenWrite v s
  | .frmResWrite v => Sys2Proof.Machine.execFrmResWrite v s
  | .frmPhaseWrite v => Sys2Proof.Machine.execFrmPhaseWrite v s
  | .epochArm v => Sys2Proof.Machine.execEpochArm v s
  | .frmNumLoRead => Sys2Proof.Machine.execFrmNumLoRead s
  | .cutFrameLoRead => Sys2Proof.Machine.execCutFrameLoRead s
  | .crLastLoRead fn ring => Sys2Proof.Machine.execCrLastLoRead fn ring s
  | .evcLoRead at_ => Sys2Proof.Machine.execEvcLoRead at_ s
  | .evcSnapLoRead at_ => Sys2Proof.Machine.execEvcSnapLoRead at_ s
  | .registerWrite fn addr w => Sys2Proof.Machine.execRegisterWrite fn addr w s
  | .countClr addr => Sys2Proof.Machine.execCountClr addr s
  | .tpush blk cyc => Sys2Proof.Machine.execTpush blk cyc s
  | .tfull blk cyc => Sys2Proof.Machine.execTfull blk cyc s
  | .trel blk cyc => Sys2Proof.Machine.execTrel blk cyc s
  | .taddrT blk cyc => Sys2Proof.Machine.execTaddrT blk cyc s
  | .taddrF blk cyc => Sys2Proof.Machine.execTaddrF blk cyc s
  | .tfence blk cyc => Sys2Proof.Machine.execTfence blk cyc s
  | .tframe blk cyc => Sys2Proof.Machine.execTframe blk cyc s
  | .tcrcB blk cyc => Sys2Proof.Machine.execTcrcB blk cyc s
  | .tcrcH blk cyc => Sys2Proof.Machine.execTcrcH blk cyc s
  | .tcrcW blk cyc => Sys2Proof.Machine.execTcrcW blk cyc s
  | .scalarInstruction blk cyc => Sys2Proof.Machine.execScalarInstruction blk cyc s
  | .mret blk cyc => Sys2Proof.Machine.execMret blk cyc s
  | .terrWrite blk cyc => Sys2Proof.Machine.execTerrWrite blk cyc s
  | .slotLoadTimeout blk cyc => Sys2Proof.Machine.execSlotLoadTimeout blk cyc s
  | .coreStart blk cyc => Sys2Proof.Machine.execCoreStart blk cyc s
  | .matrixIssue blk cyc => Sys2Proof.Machine.execMatrixIssue blk cyc s
  | .tileOutcome blk cyc faults => Sys2Proof.Machine.execTileOutcome blk cyc faults s
  | .bankCommandIssue blk cyc => Sys2Proof.Machine.execBankCommandIssue blk cyc s
  | .bankCommandDone blk cyc => Sys2Proof.Machine.execBankCommandDone blk cyc s
  | .codebookLoad blk cyc => Sys2Proof.Machine.execCodebookLoad blk cyc s
  | .lookupLoad blk cyc => Sys2Proof.Machine.execLookupLoad blk cyc s
  | .checkCommand blk cyc => Sys2Proof.Machine.execCheckCommand blk cyc s
  | .checkDone blk cyc => Sys2Proof.Machine.execCheckDone blk cyc s
  | .stakeDriveCommand blk cyc => Sys2Proof.Machine.execStakeDriveCommand blk cyc s
  | .stakeSight blk cyc => Sys2Proof.Machine.execStakeSight blk cyc s
  | .sightTimeout at_ => Sys2Proof.Machine.execSightTimeout at_ s
  | .planPoint blk cyc => Sys2Proof.Machine.execPlanPoint blk cyc s
  | .cbLoad blk idx => Sys2Proof.Machine.execCbLoad blk idx s
  | .cbDrop blk idx => Sys2Proof.Machine.execCbDrop blk idx s
  | .chkPolyWrite at_ p => Sys2Proof.Machine.execChkPolyWrite at_ p s
  | .chkInit at_ => Sys2Proof.Machine.execChkInit at_ s
  | .chkSeed at_ v => Sys2Proof.Machine.execChkSeed at_ v s
  | .inboundWord blk cyc ep lost => Sys2Proof.Machine.execInboundWord blk cyc ep lost s
  | .heldWordWrite blk cyc => Sys2Proof.Machine.execHeldWordWrite blk cyc s
  | .holdWindowExpiry blk cyc => Sys2Proof.Machine.execHoldWindowExpiry blk cyc s
  | .scrubSlot blk at_ => Sys2Proof.Machine.execScrubSlot blk at_ s
  | .spPwrWrite blk v => Sys2Proof.Machine.execSpPwrWrite blk v s
  | .transferStart n cyc eng desc => Sys2Proof.Machine.execTransferStart n cyc eng desc s
  | .requestAccepted n cyc eng desc => Sys2Proof.Machine.execRequestAccepted n cyc eng desc s
  | .lineLanded n cyc eng desc k first => Sys2Proof.Machine.execLineLanded n cyc eng desc k first s
  | .requestAbandon n cyc eng desc k first => Sys2Proof.Machine.execRequestAbandon n cyc eng desc k first s
  | .storeStreamAccess n cyc idx port => Sys2Proof.Machine.execStoreStreamAccess n cyc idx port s
  | .storeScrub n at_ => Sys2Proof.Machine.execStoreScrub n at_ s
  | .patrolScrub n at_ => Sys2Proof.Machine.execPatrolScrub n at_ s
  | .memZeroStart n v => Sys2Proof.Machine.execMemZeroStart n v s
  | .zeroFillDone n cyc => Sys2Proof.Machine.execZeroFillDone n cyc s
  | .wordArrival at_ got => Sys2Proof.Machine.execWordArrival at_ got s
  | .marginSample n slot ps => Sys2Proof.Machine.execMarginSample n slot ps s
  | .segmentRecal n slot => Sys2Proof.Machine.execSegmentRecal n slot s
  | .recalDone n slot r => Sys2Proof.Machine.execRecalDone n slot r s
  | .circuitLockLost oct margin => Sys2Proof.Machine.execCircuitLockLost oct margin s
  | .tileReceived blk cyc ep => Sys2Proof.Machine.execTileReceived blk cyc ep s
  | .deliveryFull blk cyc ep => Sys2Proof.Machine.execDeliveryFull blk cyc ep s
  | .storeInTile n cyc idx port got => Sys2Proof.Machine.execStoreInTile n cyc idx port got s
  | .landingTile port cyc => Sys2Proof.Machine.execLandingTile port cyc s
  | .driveWordReceived at_ => Sys2Proof.Machine.execDriveWordReceived at_ s
  | .driveApplied at_ => Sys2Proof.Machine.execDriveApplied at_ s
  | .platLoad fn ring slot => Sys2Proof.Machine.execPlatLoad fn ring slot s
  | .platImageReadDone image => Sys2Proof.Machine.execPlatImageReadDone image s
  | .platSeal => Sys2Proof.Machine.execPlatSeal s
  | .platUnload fn ring slot => Sys2Proof.Machine.execPlatUnload fn ring slot s
  | .platCutover fn ring slot => Sys2Proof.Machine.execPlatCutover fn ring slot s
  | .cutCancel fn ring slot => Sys2Proof.Machine.execCutCancel fn ring slot s
  | .cutAcknowledge n => Sys2Proof.Machine.execCutAcknowledge n s
  | .cutWithdrawal n => Sys2Proof.Machine.execCutWithdrawal n s
  | .decisionPoint => Sys2Proof.Machine.execDecisionPoint s
  | .laneLock port t lane marks skewOk => Sys2Proof.Machine.execLaneLock port t lane marks skewOk s
  | .laneLockLost port t lane marks => Sys2Proof.Machine.execLaneLockLost port t lane marks s
  | .shotReceived port t shot => Sys2Proof.Machine.execShotReceived port t shot s
  | .replayTimeout port t => Sys2Proof.Machine.execReplayTimeout port t s
  | .sightlineWordEnqueue port t leg mark got => Sys2Proof.Machine.execSightlineWordEnqueue port t leg mark got s
  | .datumTimer port t => Sys2Proof.Machine.execDatumTimer port t s
  | .datumReceived port t => Sys2Proof.Machine.execDatumReceived port t s
  | .frameVoidNotice port => Sys2Proof.Machine.execFrameVoidNotice port s
  | .voidContextReceived port => Sys2Proof.Machine.execVoidContextReceived port s
  | .slSwap port => Sys2Proof.Machine.execSlSwap port s
  | .slReset port => Sys2Proof.Machine.execSlReset port s
  | .lsrcInsert k power => Sys2Proof.Machine.execLsrcInsert k power s
  | .lsrcRemove k => Sys2Proof.Machine.execLsrcRemove k s
  | .lsrcFault k power => Sys2Proof.Machine.execLsrcFault k power s
  | .doorbell fn ring v => Sys2Proof.Machine.execDoorbell fn ring v s
  | .itemBegin fn ring bytes => Sys2Proof.Machine.execItemBegin fn ring bytes s
  | .nop fn ring slot => Sys2Proof.Machine.execNop fn ring slot s
  | .stakeDrive fn ring slot => Sys2Proof.Machine.execStakeDrive fn ring slot s
  | .dmaToDev fn ring slot bytes => Sys2Proof.Machine.execDmaToDev fn ring slot bytes s
  | .dmaFromDev fn ring slot => Sys2Proof.Machine.execDmaFromDev fn ring slot s
  | .ctxAdmit fn ring slot => Sys2Proof.Machine.execCtxAdmit fn ring slot s
  | .ctxTeardown fn ring slot => Sys2Proof.Machine.execCtxTeardown fn ring slot s
  | .testpack fn ring slot pack sigOk => Sys2Proof.Machine.execTestpack fn ring slot pack sigOk s
  | .itemComplete fn ring => Sys2Proof.Machine.execItemComplete fn ring s
  | .ringFlush fn ring hdrs => Sys2Proof.Machine.execRingFlush fn ring hdrs s
  | .ringDisable fn ring v hdrs => Sys2Proof.Machine.execRingDisable fn ring v hdrs s
  | .bar2Access fn off req => Sys2Proof.Machine.execBar2Access fn off req s
  | .fieldBookWrite fn => Sys2Proof.Machine.execFieldBookWrite fn s
  | .flr fn => Sys2Proof.Machine.execFlr fn s
  | .linkDown port => Sys2Proof.Machine.execLinkDown port s
  | .d3hot fn => Sys2Proof.Machine.execD3hot fn s
  | .stepCommit n => Sys2Proof.Machine.execStepCommit n s
  | .idlePllLock n => Sys2Proof.Machine.execIdlePllLock n s
  | .pllLockDeadline n => Sys2Proof.Machine.execPllLockDeadline n s
  | .regulatorReport n => Sys2Proof.Machine.execRegulatorReport n s
  | .refLost => Sys2Proof.Machine.execRefLost s
  | .refReturn => Sys2Proof.Machine.execRefReturn s
  | .diePllLost die => Sys2Proof.Machine.execDiePllLost die s
  | .regionPllLost n => Sys2Proof.Machine.execRegionPllLost n s
  | .droopTrip n cyc dom => Sys2Proof.Machine.execDroopTrip n cyc dom s
  | .droopClear n cyc dom skipped => Sys2Proof.Machine.execDroopClear n cyc dom skipped s
  | .powerSample m => Sys2Proof.Machine.execPowerSample m s
  | .currentWindow at_ => Sys2Proof.Machine.execCurrentWindow at_ s
  | .controlInterval draws => Sys2Proof.Machine.execControlInterval draws s
  | .mainInputLost => Sys2Proof.Machine.execMainInputLost s
  | .converterFault hbc k => Sys2Proof.Machine.execConverterFault hbc k s
  | .phaseLost n dom ph => Sys2Proof.Machine.execPhaseLost n dom ph s
  | .fabricPhaseLost n ph => Sys2Proof.Machine.execFabricPhaseLost n ph s
  | .phaseTest n dom ph pass => Sys2Proof.Machine.execPhaseTest n dom ph pass s
  | .domainStateRequest n dom req => Sys2Proof.Machine.execDomainStateRequest n dom req s
  | .ofsWrite n dom v => Sys2Proof.Machine.execOfsWrite n dom v s
  | .pcapWrite v => Sys2Proof.Machine.execPcapWrite v s
  | .ageMeasure n dom slack => Sys2Proof.Machine.execAgeMeasure n dom slack s
  | .hoursRecord ok => Sys2Proof.Machine.execHoursRecord ok s
  | .pmbusPage v pec => Sys2Proof.Machine.execPmbusPage v pec s
  | .pmbusClearFaults pec => Sys2Proof.Machine.execPmbusClearFaults pec s
  | .voutMode => Sys2Proof.Machine.execVoutMode s
  | .statusWord => Sys2Proof.Machine.execStatusWord s
  | .statusIout => Sys2Proof.Machine.execStatusIout s
  | .statusInput => Sys2Proof.Machine.execStatusInput s
  | .statusCml => Sys2Proof.Machine.execStatusCml s
  | .readVin => Sys2Proof.Machine.execReadVin s
  | .readIin => Sys2Proof.Machine.execReadIin s
  | .readVout => Sys2Proof.Machine.execReadVout s
  | .readIout => Sys2Proof.Machine.execReadIout s
  | .readTemperature1 => Sys2Proof.Machine.execReadTemperature1 s
  | .readPout => Sys2Proof.Machine.execReadPout s
  | .readPin => Sys2Proof.Machine.execReadPin s
  | .pmbusRevision => Sys2Proof.Machine.execPmbusRevision s
  | .pmbusUnsupported code => Sys2Proof.Machine.execPmbusUnsupported code s
  | .powerOn => Sys2Proof.Machine.execPowerOn s
  | .auxInputLost => Sys2Proof.Machine.execAuxInputLost s
  | .coldReset => Sys2Proof.Machine.execColdReset s
  | .hubRstCold v => Sys2Proof.Machine.execHubRstCold v s
  | .jtagColdReset => Sys2Proof.Machine.execJtagColdReset s
  | .stageEnd r => Sys2Proof.Machine.execStageEnd r s
  | .stageLimit r => Sys2Proof.Machine.execStageLimit r s
  | .jtagFirmwareLoad image => Sys2Proof.Machine.execJtagFirmwareLoad image s
  | .mailboxRequest req sigOk image flashOk => Sys2Proof.Machine.execMailboxRequest req sigOk image flashOk s
  | .crashLogDelivery => Sys2Proof.Machine.execCrashLogDelivery s
  | .regionRecordReceived blk t => Sys2Proof.Machine.execRegionRecordReceived blk t s
  | .hubRecordReceived n => Sys2Proof.Machine.execHubRecordReceived n s
  | .suspectClear n idx => Sys2Proof.Machine.execSuspectClear n idx s
  | .ledgerRelease n idx => Sys2Proof.Machine.execLedgerRelease n idx s
  | .retest n r => Sys2Proof.Machine.execRetest n r s
  | .hostFence n b => Sys2Proof.Machine.execHostFence n b s
  | .ledgerClear n b => Sys2Proof.Machine.execLedgerClear n b s
  | .testpackRound => Sys2Proof.Machine.execTestpackRound s
  | .testTileDone blk cyc test faults => Sys2Proof.Machine.execTestTileDone blk cyc test faults s
  | .testpackStop => Sys2Proof.Machine.execTestpackStop s
  | .teardownRequest p cause => Sys2Proof.Machine.execTeardownRequest p cause s
  | .loadingDone p => Sys2Proof.Machine.execLoadingDone p s
  | .clearingDone p => Sys2Proof.Machine.execClearingDone p s
  | .evcFreeze v => Sys2Proof.Machine.execEvcFreeze v s
  | .pertXdlyArm v => Sys2Proof.Machine.execPertXdlyArm v s
  | .pertSlholdArm v => Sys2Proof.Machine.execPertSlholdArm v s
  | .slHoldStart port => Sys2Proof.Machine.execSlHoldStart port s
  | .slHoldEnd port t => Sys2Proof.Machine.execSlHoldEnd port t s
  | .pertFstrArm v => Sys2Proof.Machine.execPertFstrArm v s
  | .pertTmoArm v => Sys2Proof.Machine.execPertTmoArm v s
  | .forcedTimeout cyc => Sys2Proof.Machine.execForcedTimeout cyc s
  | .pertMismArm v => Sys2Proof.Machine.execPertMismArm v s
  | .pertLock => Sys2Proof.Machine.execPertLock s
  | .mainInputApplied => Sys2Proof.Machine.execMainInputApplied s
  | .doubledRefresh n hot => Sys2Proof.Machine.execDoubledRefresh n hot s
  | .linkUp port => Sys2Proof.Machine.execLinkUp port s
  | .powerStateD0 fn => Sys2Proof.Machine.execPowerStateD0 fn s
  | .msixVectorUnmask fn vec => Sys2Proof.Machine.execMsixVectorUnmask fn vec s
  | .regionControllerFault n => Sys2Proof.Machine.execRegionControllerFault n s
  | .managementPathCut n => Sys2Proof.Machine.execManagementPathCut n s

end Sys2Proof.Machine
end

