-- ==== Sys2Proof/Safety.lean ====
section
/-!
DEFINITION. What a safe state of the device is, and what a frame statement says: which parts of the state a family of commands may
change.
-/
namespace Sys2Proof.Machine

/-- The bounds of the hub error queue (18_faults_repair.md R475): 512 records, of which at most 448 are not fatal. -/
def queueOk (q : List ErrRec) : Bool :=
  decide (q.length ≤ 512) && decide ((q.filter (fun r => !r.fatal)).length ≤ 448)

/-- The memory that the device writes on the host, and the maps of its units, are in their canonical form. -/
def State.canonical (s : State) : Bool :=
  s.host.wf && SMap.wf regionZero s.regions && SMap.wf blockZero s.blocks && SMap.wf portZero s.ports &&
    SMap.wf fnZero s.fns && SMap.wf ctxZero s.ctxs

/-- A safe state: canonical, the hub error queue in its bounds, and at most 1,024 field book records waiting
(13_host_interface.md R389). -/
def State.safe (s : State) : Bool := s.canonical && queueOk s.err.q && decide (s.err.wait.length ≤ 1024)

/-- The block `blk` when region cycle `cyc` begins: time has passed for it up to there (06_scalar_core.md R179). -/
def State.blockAt (s : State) (blk cyc : Nat) : Block := (s.block blk).advance (s.env blk cyc)

/-- A block as its step leaves it: the counts and events that it handed on are taken. -/
def Block.atRest (b : Block) : Block := { b with disc := 0, evs := [] }

/-- A region as its step leaves it: the counts, events, defect entries and teardown requests that it handed on are taken. -/
def Region.atRest (g : Region) : Region := { g with disc := 0, evs := [], defects := [], tears := [] }

/-- A sightline port as its step leaves it: its records and events are taken. -/
def Port.atRest (p : Port) : Port := { p with recs := [], evs := [] }

/-- What a command of block `blk` may change: that block, the count of discarded accesses, and the event counters of its region and
of the hub. -/
def BlockFrame (blk : Nat) (s t : State) : Prop :=
  t = { s with blocks := t.blocks, hub := t.hub, regions := t.regions, evcs := t.evcs } ∧
  (∀ k, k ≠ blk → t.block k = s.block k) ∧
  (∀ n, t.region n = { s.region n with evcs := (t.region n).evcs }) ∧
  t.hub = { s.hub with hub := t.hub.hub } ∧
  (∀ o, o ≠ 0x7004 → t.hub.hub.word .hub o = s.hub.hub.word .hub o)

/-- What a command of region `n` may change: that region, and what its records, its defects and the teardowns that it asks for reach at
the hub; no block, no other region, no sightline port, no host memory, neither the frame nor the plat. -/
def RegionFrame (n : Nat) (s t : State) : Prop :=
  t = { s with regions := t.regions, hub := t.hub, evcs := t.evcs, ctxs := t.ctxs, fns := t.fns, err := t.err
               msgs := t.msgs, flash := t.flash, mc := t.mc } ∧
  (∀ m, m ≠ n → t.region m = s.region m)

/-- What a command of sightline port `k` may change: that port, and what its records and events reach at the hub. -/
def PortFrame (k : Nat) (s t : State) : Prop :=
  t = { s with ports := t.ports, hub := t.hub, evcs := t.evcs, fns := t.fns, err := t.err, msgs := t.msgs } ∧
  (∀ j, j ≠ k → t.port j = s.port j)

/-- A step of block `blk` that, beside the time that passed up to it (`b`), changes the core alone, to `c`. -/
def CoreOnly (blk : Nat) (s : State) (b : Block) (c : Core) (t : State) : Prop :=
  t.block blk = { b.atRest with core := c } ∧ BlockFrame blk s t

/-- The sequencer refused the command `x` of block `b` (06_scalar_core.md R176): it stays in its entry and holds the queue; BREACH is
set; core and memories stand. -/
def Refused (b : Block) (x : QEntry) (y : Block) : Prop :=
  y.bit BLK_MX_STAT_BREACH = true ∧
  y.seq.q = b.seq.q.map (fun z => if z.id = x.id then { z with st := .refused } else z) ∧ y.head = none ∧
  y.core = b.core ∧ y.spm = b.spm ∧ y.imem = b.imem ∧ y.ldata = b.ldata

/-- The command `x` has its final outcome and has left the queue; core, local memories, legs and held words stand. -/
def Completed (b : Block) (x : QEntry) (y : Block) : Prop :=
  y.seq.q = b.seq.q.filter (fun z => decide (z.id ≠ x.id)) ∧
  y.core = b.core ∧ y.imem = b.imem ∧ y.ldata = b.ldata ∧ y.legs = b.legs ∧ y.held = b.held ∧ y.router = b.router

/-- The core of `b` takes an exception outside a handler (06_scalar_core.md R169). -/
def Core.trapped (c : Core) (cause : Nat) (val : Word) : Core :=
  { c with mepc := c.pc &&& 0xFFFFFFFE, mcause := BitVec.ofNat 32 cause, mtval := val, inTrap := true, pc := c.mtvec }

/-- Only hub registers change. -/
def HubFrame (s t : State) : Prop := t = { s with hub := t.hub }

/-- An item of a ring has its outcome: status and DETAIL (13_host_interface.md R382). -/
def State.doneWith (s : State) (i : ItemRef) (status detail : Nat) : Prop :=
  ∃ y ∈ (s.ring i.fn i.ring).items, y.slot = i.slot ∧ y.done = some (status, detail)

/-- An item of a ring has begun and has no outcome yet. -/
def State.waits (s : State) (i : ItemRef) : Prop :=
  i.fn < 34 ∧ ∃ y ∈ (s.ring i.fn i.ring).items, y.slot = i.slot ∧ y.done = none

end Sys2Proof.Machine
end

