-- ==== Sys2Proof/WellFormed.lean ====
section
/-!
DEFINITION. Which commands are well formed: every index names a unit that the spec gives the device, and every operand has
the size that the table's row asks for.
-/
namespace Sys2Proof.Machine

/-- The counter exists (20_counters_perturbation.md Table 20-3). -/
def CtrAt.wf : CtrAt → Prop
  | .block blk i => blk < 4608 ∧ i < 4
  | .region n i => n < 24 ∧ i < 16
  | .hub i => i < 32

/-- The check unit exists. -/
def ChkAt.wf : ChkAt → Prop
  | .block blk => blk < 4608
  | .mc => True

/-- The waiter exists. -/
def WaitAt.wf : WaitAt → Prop
  | .block blk _ => blk < 4608
  | .engine n _ eng desc => n < 24 ∧ eng < 8 ∧ desc < 256
  | .stream n _ i => n < 24 ∧ i < 64

/-- The unit exists. -/
def UnitAt.wf : UnitAt → Prop
  | .block blk _ => blk < 4608
  | .region n _ => n < 24

/-- The input exists. -/
def WordAt.wf : WordAt → Prop
  | .launch blk _ => blk < 4608
  | .input blk _ src _ _ => blk < 4608 ∧ 1 ≤ src ∧ src ≤ 4
  | .edge n _ row => n < 24 ∧ row < 16
  | .shore die lx _ => die < 4 ∧ lx < 12

/-- The receiver exists. -/
def LegAt.wf : LegAt → Prop
  | .endpoint blk _ ep => blk < 4608 ∧ ep < 64
  | .stream n _ i _ => n < 24 ∧ i < 64

/-- The rail exists. -/
def WinAt.wf : WinAt → Prop
  | .dom n k _ => n < 24 ∧ k < 4
  | .ibc k _ => k < 12

/-- A sample measures every region and domain. -/
def Meas.wf (m : Meas) : Prop :=
  m.tj.length = 24 ∧ m.ts.length = 24 ∧ m.fab.length = 24 ∧ m.iavg.length = 96 ∧ m.ipeak.length = 96 ∧
  m.vavg.length = 96 ∧ m.pow.length = 96 ∧ m.cyc.length = 96 ∧ m.fill.length = 96 ∧ m.held.length = 96 ∧
  m.fblk.length = 96

end Sys2Proof.Machine

namespace Sys2Proof
open Machine

/-- A well-formed command. -/
def Instr.WellFormed : Instr → Prop
  | .frameTick _ => True
  | .stepTail n => n < 24
  | .beatStart n => n < 24
  | .epochEdge _ => True
  | .frmLenWrite _ => True
  | .frmResWrite _ => True
  | .frmPhaseWrite _ => True
  | .epochArm _ => True
  | .frmNumLoRead => True
  | .cutFrameLoRead => True
  | .crLastLoRead fn ring => fn < 34 ∧ ring < fnRings fn
  | .evcLoRead at_ => at_.wf
  | .evcSnapLoRead at_ => at_.wf
  | .registerWrite fn addr w => fn < 34 ∧ addr < 0x4000000 ∧ w.size ≤ 8
  | .countClr addr => addr < 0x4000000 ∧ addr % 4 = 0
  | .tpush blk _ => blk < 4608
  | .tfull blk _ => blk < 4608
  | .trel blk _ => blk < 4608
  | .taddrT blk _ => blk < 4608
  | .taddrF blk _ => blk < 4608
  | .tfence blk _ => blk < 4608
  | .tframe blk _ => blk < 4608
  | .tcrcB blk _ => blk < 4608
  | .tcrcH blk _ => blk < 4608
  | .tcrcW blk _ => blk < 4608
  | .scalarInstruction blk _ => blk < 4608
  | .mret blk _ => blk < 4608
  | .terrWrite blk _ => blk < 4608
  | .slotLoadTimeout blk _ => blk < 4608
  | .coreStart blk _ => blk < 4608
  | .matrixIssue blk _ => blk < 4608
  | .tileOutcome blk _ faults => blk < 4608 ∧ (faults.all fun f => decide (f.row ≤ 64 ∧ f.col ≤ 64)) = true
  | .bankCommandIssue blk _ => blk < 4608
  | .bankCommandDone blk _ => blk < 4608
  | .codebookLoad blk _ => blk < 4608
  | .lookupLoad blk _ => blk < 4608
  | .checkCommand blk _ => blk < 4608
  | .checkDone blk _ => blk < 4608
  | .stakeDriveCommand blk _ => blk < 4608
  | .stakeSight blk _ => blk < 4608
  | .sightTimeout at_ => at_.wf
  | .planPoint blk _ => blk < 4608
  | .cbLoad blk idx => blk < 4608 ∧ idx < 32
  | .cbDrop blk idx => blk < 4608 ∧ idx < 32
  | .chkPolyWrite at_ p => at_.wf ∧ p < 4
  | .chkInit at_ => at_.wf
  | .chkSeed at_ _ => at_.wf
  | .inboundWord blk _ ep _ => blk < 4608 ∧ ep < 64
  | .heldWordWrite blk _ => blk < 4608
  | .holdWindowExpiry blk _ => blk < 4608
  | .scrubSlot blk x => blk < 4608 ∧ x.upsets.all (fun u => decide (u.1 < 131072 ∧ 1 ≤ u.2 ∧ u.2 ≤ 2))
  | .spPwrWrite blk _ => blk < 4608
  | .transferStart n _ eng desc => n < 24 ∧ eng < 8 ∧ desc < 256
  | .requestAccepted n _ eng desc => n < 24 ∧ eng < 8 ∧ desc < 256
  | .lineLanded n _ eng desc _ _ => n < 24 ∧ eng < 8 ∧ desc < 256
  | .requestAbandon n _ eng desc _ _ => n < 24 ∧ eng < 8 ∧ desc < 256
  | .storeStreamAccess n _ idx port => n < 24 ∧ idx < 64 ∧ port < 8
  | .storeScrub n x => n < 24 ∧ x.upsets.all (fun u => decide (u.1 < 4194304 ∧ 1 ≤ u.2 ∧ u.2 ≤ 2))
  | .patrolScrub n x => n < 24 ∧ x.upsets.all (fun u => decide (u.1 < 1207959552 ∧ 1 ≤ u.2 ∧ u.2 ≤ 2))
  | .memZeroStart n _ => n < 24
  | .zeroFillDone n _ => n < 24
  | .wordArrival at_ _ => at_.wf
  | .marginSample n slot _ => n < 24 ∧ slot < 2
  | .segmentRecal n slot => n < 24 ∧ slot < 2
  | .recalDone n slot _ => n < 24 ∧ slot < 2
  | .circuitLockLost oct _ => oct < 72
  | .tileReceived blk _ ep => blk < 4608 ∧ ep < 64
  | .deliveryFull blk _ ep => blk < 4608 ∧ ep < 64
  | .storeInTile n _ idx port _ => n < 24 ∧ idx < 64 ∧ port < 8
  | .landingTile port _ => port < 24
  | .driveWordReceived at_ => at_.wf
  | .driveApplied at_ => at_.wf
  | .platLoad fn ring _ => fn < 34 ∧ ring < fnRings fn
  | .platImageReadDone _ => True
  | .platSeal => True
  | .platUnload fn ring _ => fn < 34 ∧ ring < fnRings fn
  | .platCutover fn ring _ => fn < 34 ∧ ring < fnRings fn
  | .cutCancel fn ring _ => fn < 34 ∧ ring < fnRings fn
  | .cutAcknowledge n => n < 24
  | .cutWithdrawal n => n < 24
  | .decisionPoint => True
  | .laneLock port _ lane _ _ => port < 24 ∧ lane < 8
  | .laneLockLost port _ lane _ => port < 24 ∧ lane < 8
  | .shotReceived port _ _ => port < 24
  | .replayTimeout port _ => port < 24
  | .sightlineWordEnqueue port _ _ _ _ => port < 24
  | .datumTimer port _ => port < 24
  | .datumReceived port _ => port < 24
  | .frameVoidNotice port => port < 24
  | .voidContextReceived port => port < 24
  | .slSwap port => port < 24
  | .slReset port => port < 24
  | .lsrcInsert k _ => k < 8
  | .lsrcRemove k => k < 8
  | .lsrcFault k _ => k < 8
  | .doorbell fn ring _ => fn < 34 ∧ ring < fnRings fn
  | .itemBegin fn ring _ => fn < 34 ∧ ring < fnRings fn
  | .nop fn ring _ => fn < 34 ∧ ring < fnRings fn
  | .stakeDrive fn ring _ => fn < 34 ∧ ring < fnRings fn
  | .dmaToDev fn ring _ _ => fn < 34 ∧ ring < fnRings fn
  | .dmaFromDev fn ring _ => fn < 34 ∧ ring < fnRings fn
  | .ctxAdmit fn ring _ => fn < 34 ∧ ring < fnRings fn
  | .ctxTeardown fn ring _ => fn < 34 ∧ ring < fnRings fn
  | .testpack fn ring _ _ _ => fn < 34 ∧ ring < fnRings fn
  | .itemComplete fn ring => fn < 34 ∧ ring < fnRings fn
  | .ringFlush fn ring _ => fn < 34 ∧ ring < fnRings fn
  | .ringDisable fn ring _ _ => fn < 34 ∧ ring < fnRings fn
  | .bar2Access fn _ _ => fn < 34
  | .fieldBookWrite fn => fn < 34
  | .flr fn => fn < 34
  | .linkDown port => port < 2
  | .d3hot fn => fn < 34
  | .stepCommit n => n < 24
  | .idlePllLock n => n < 24
  | .pllLockDeadline n => n < 24
  | .regulatorReport n => n < 24
  | .refLost => True
  | .refReturn => True
  | .diePllLost die => die < 4
  | .regionPllLost n => n < 24
  | .droopTrip n _ dom => n < 24 ∧ dom < 4
  | .droopClear n _ dom _ => n < 24 ∧ dom < 4
  | .powerSample m => m.wf
  | .currentWindow at_ => at_.wf
  | .controlInterval draws => draws.length = 96
  | .mainInputLost => True
  | .converterFault hbc k => (if hbc then k < 4 else k < 12)
  | .phaseLost n dom ph => n < 24 ∧ dom < 4 ∧ ph < 8
  | .fabricPhaseLost n ph => n < 24 ∧ ph < 2
  | .phaseTest n dom ph _ => n < 24 ∧ dom < 4 ∧ ph < 8
  | .domainStateRequest n dom req => n < 24 ∧ dom < 4 ∧ req < 4
  | .ofsWrite n dom v => n < 24 ∧ dom < 4 ∧ v < 8
  | .pcapWrite _ => True
  | .ageMeasure n dom _ => n < 24 ∧ dom < 4
  | .hoursRecord _ => True
  | .pmbusPage v _ => v < 256
  | .pmbusClearFaults _ => True
  | .voutMode => True
  | .statusWord => True
  | .statusIout => True
  | .statusInput => True
  | .statusCml => True
  | .readVin => True
  | .readIin => True
  | .readVout => True
  | .readIout => True
  | .readTemperature1 => True
  | .readPout => True
  | .readPin => True
  | .pmbusRevision => True
  | .pmbusUnsupported code => code < 256
  | .powerOn => True
  | .auxInputLost => True
  | .coldReset => True
  | .hubRstCold _ => True
  | .jtagColdReset => True
  | .stageEnd _ => True
  | .stageLimit _ => True
  | .jtagFirmwareLoad _ => True
  | .mailboxRequest _ _ _ _ => True
  | .crashLogDelivery => True
  | .regionRecordReceived blk _ => blk < 4608
  | .hubRecordReceived n => n < 24
  | .suspectClear n idx => n < 24 ∧ idx < 16
  | .ledgerRelease n idx => n < 24 ∧ idx < 16
  | .retest n _ => n < 24
  | .hostFence n b => n < 24 ∧ b < 192
  | .ledgerClear n b => n < 24 ∧ b < 192
  | .testpackRound => True
  | .testTileDone blk _ test _ => blk < 4608 ∧ test ≤ 64
  | .testpackStop => True
  | .teardownRequest p cause => p < 16 ∧ cause < 16
  | .loadingDone p => p < 16
  | .clearingDone p => p < 16
  | .evcFreeze _ => True
  | .pertXdlyArm _ => True
  | .pertSlholdArm _ => True
  | .slHoldStart port => port < 24
  | .slHoldEnd port _ => port < 24
  | .pertFstrArm _ => True
  | .pertTmoArm _ => True
  | .forcedTimeout _ => True
  | .pertMismArm _ => True
  | .pertLock => True
  | .mainInputApplied => True
  | .doubledRefresh n _ => n < 24
  | .linkUp port => port < 2
  | .powerStateD0 fn => fn < 34
  | .msixVectorUnmask fn vec => fn < 34 ∧ vec < 32
  | .regionControllerFault n => n < 24
  | .managementPathCut n => n < 24

end Sys2Proof
end

