-- ==== Sys2Proof/Certificates/Slice0/Obligations.lean ====
section
/-!
DEFINITION. The statements for the provers. Each says that a command answers a next state, what that state holds, and what it leaves as it
was; or what every step keeps.
-/
open Sys2Proof Sys2Proof.Machine

/-- A step runs the command at the front of the queue on the state that holds the queue's rest. -/
def Obligations.StepTakesTheFrontCommand : Prop :=
  ∀ (c : Instr) (q : List Instr) (s : State), step { s with pending := c :: q } = exec c { s with pending := q }

/-- Every step answers a next state whose queue is the old one without its first command. No command of the block puts a command
into the queue: this is the model's queue (log 1), not the spec's. On an empty queue a step is one reference period (the model's
choice, log 1): while frames run, POS and the time since cold reset advance by one; while they do not, nothing changes. -/
def Obligations.QueueIsFirstInFirstOut : Prop :=
  (∀ s : State, ∃ t, step s = .next t ∧ t.pending = s.pending.tail) ∧
  (∀ s : State, s.pending = [] →
    (s.frame.running = true → ∃ t, step s = .next t ∧ t.frame = { s.frame with pos := s.frame.pos + 1, now := s.frame.now + 1 } ∧
      t = { s with frame := t.frame, evcs := t.evcs }) ∧
    (s.frame.running = false → step s = .next s))

/-- For every command and every state, exec answers a next state with the same queue: no ordinary data ends a run. -/
def Obligations.EveryCommandAnswersANextState : Prop :=
  ∀ (c : Instr) (s : State), ∃ t, exec c s = .next t ∧ t.pending = s.pending

/-- The numbering of blocks (00 R13, 01 R19): from die, column and row to number, region and index, and back. -/
def Obligations.LogicalBlockNumbers : Prop :=
  ∀ d x y : Nat, d < 4 → x < 24 → y < 48 →
    regionOf (1152 * d + 24 * y + x) = 6 * d + (2 * (y / 16) + x / 12) ∧
    indexOf (1152 * d + 24 * y + x) = 12 * (y % 16) + x % 12 ∧
    chipBlk (6 * d + (2 * (y / 16) + x / 12)) (12 * (y % 16) + x % 12) = 1152 * d + 24 * y + x ∧
    (12 * (y % 16) + x % 12) / 12 = y % 16 ∧ (12 * (y % 16) + x % 12) % 12 = x % 12 ∧ y % 16 ≤ 15 ∧ x % 12 ≤ 11

/-- No step changes a factory fuse: grade, TDP, BASEM, BOOSTM, serial number, stepping, key digests. -/
def Obligations.FusesNeverChange : Prop :=
  ∀ s t : State, step s = .next t → t.fuse = s.fuse

/-- Every step keeps the hub error queue in its bounds: 512 records, of which at most 448 are not fatal (18 R475). Every step keeps
the field books' waiting buffer at 1,024 records or fewer (13 R389). -/
def Obligations.QueuesStayInTheirBounds : Prop :=
  (∀ s t : State, queueOk s.err.q = true → step s = .next t → queueOk t.err.q = true) ∧
  (∀ s t : State, s.err.wait.length ≤ 1024 → step s = .next t → t.err.wait.length ≤ 1024)

/-- Every step keeps the canonical form of the memory that the device writes on the host and of the maps of its units: equal
contents are equal data. The form is the model's own. -/
def Obligations.MemoriesStayCanonical : Prop :=
  ∀ s t : State, s.canonical = true → step s = .next t → t.canonical = true

/-- The state right after reset meets the invariants that every step keeps; no command waits and no frame runs. The register values
are those the spec gives. -/
def Obligations.ResetStateIsSafe : Prop :=
  State.reset.safe = true ∧ State.reset.pending = [] ∧ State.reset.frame.running = false ∧
  State.reset.rd FRM_LEN_LEN = 25000 ∧ State.reset.rd FRM_RES_RES_Q = 32 ∧ State.reset.plat.active = none ∧
  State.reset.rd PLAT_STAT_STATE = 0 ∧ State.reset.bit PLAT_STAT_SEALED = false ∧
  (∀ g, g < 32 → State.reset.rd CDV_MAP_VDIE g = g) ∧
  (∀ n k, k < 4 → (State.reset.region n).rd PCTL_DOM_QI k = 16 ∧ (State.reset.region n).rd PCTL_DOM_QC k = 16 ∧
    (State.reset.region n).rd PCTL_DOM_QG k = 16 ∧ (State.reset.region n).rd PCTL_DOM_QT k = 16)

/-- The frame number counts ticks (02 R36), and plat keys, revocations and MIN are set by signed requests and firmware starts alone
(17 R467, R458): every other command leaves them. -/
def Obligations.OnlyTicksAndResetsMoveTheFrameNumber : Prop :=
  ∀ (c : Instr) (s t : State),
    (match c with
      | .frameTick _ | .powerOn | .auxInputLost | .mainInputLost | .coldReset | .hubRstCold _ | .jtagColdReset | .stageEnd _
      | .stageLimit _ | .jtagFirmwareLoad _ | .mailboxRequest .. | .registerWrite .. | .powerSample _ => False
      | _ => True) →
    exec c s = .next t → t.frame.num = s.frame.num ∧ t.otp = s.otp

/-- FRAME_TICK: the frame number counts every tick modulo 2^48 (02 R36); the tick of a realignment is that of frame 0 (R37). With no
frame running there is no tick. EPOCH_ARM is a write of FRM_CTL (Table 2-5). EPOCH_EDGE at position `pos` (R37 to R39). -/
def Obligations.FrameTicksAndEpochEdges : Prop :=
  (∀ (bad : List ShadowErr) (s : State),
    (s.frame.running = true → ∃ t, exec (.frameTick bad) s = .next t ∧ t.otp = s.otp ∧
      t.frame.num = if s.frame.realign.isSome then 0 else (s.frame.num + 1) % 2 ^ 48) ∧
    (s.frame.running = false → exec (.frameTick bad) s = .next s)) ∧
  (∀ (v : Word) (s : State),
    (s.ready = false → exec (.epochArm v) s = .next s.discard) ∧
    (s.ready = true → ∃ t, exec (.epochArm v) s = .next t ∧ HubFrame s t ∧
      t.bit FRM_CTL_EPOCH_ARM = (s.bit FRM_CTL_EPOCH_ARM || v.getLsbD 0) ∧
      t.rd FRM_CTL_EPOCH_TOL = FRM_CTL_EPOCH_TOL.of v ∧ t.rd FRM_CTL_OVR_LIMIT = FRM_CTL_OVR_LIMIT.of v)) ∧
  (∀ (pos : Nat) (s : State),
    (s.frame.running = false → exec (.epochEdge pos) s = .next s) ∧
    (s.frame.running = true → s.bit FRM_CTL_EPOCH_ARM = true → s.anyActive = false →
      ∃ t, exec (.epochEdge pos) s = .next t ∧ t.frame.pos = 0 ∧ t.frame.num = s.frame.num ∧
        t.frame.realign = some (s.rd FRM_PHASE_PHASE % s.frame.len)) ∧
    (s.frame.running = true → s.bit FRM_CTL_EPOCH_ARM = true → s.anyActive = true →
      exec (.epochEdge pos) s = .next (((s.pass (pos - s.frame.pos)).wr FRM_CTL_EPOCH_ARM 0).wr FRM_STAT_EPOCH_REFUSED 1).checkEdge) ∧
    (s.frame.running = true → s.bit FRM_CTL_EPOCH_ARM = false →
      exec (.epochEdge pos) s = .next (s.pass (pos - s.frame.pos)).checkEdge)) ∧
  (∀ (s u : State) (z : Int), z = epochSlip s.frame.len (s.rd FRM_PHASE_PHASE) s.frame.pos →
      u = s.wr FRM_STAT_SLIP (BitVec.ofInt 16 (slipSat z)).toNat →
    (z.natAbs ≤ s.rd FRM_CTL_EPOCH_TOL → s.checkEdge = u) ∧
    (s.rd FRM_CTL_EPOCH_TOL < z.natAbs →
      s.checkEdge = (u.wr FRM_STAT_EPOCH_SLIP 1).raise { cls := 8, subtype := 0x90, level := 3 }))

/-- FRM_LEN_WRITE and FRM_RES_WRITE (02 R35), sealed (00 R8), loading (11 R316), before ready (17 R455). FRM_PHASE_WRITE (02 R35, R40,
Table 2-4); that its range is that of the length in force is the model's choice (log 60). -/
def Obligations.FrameRegisterWrites : Prop :=
  (∀ (v : Word) (s : State),
    (s.ready = false → exec (.frmLenWrite v) s = .next s.discard ∧ exec (.frmResWrite v) s = .next s.discard) ∧
    (s.ready = true → s.sealed = true → exec (.frmLenWrite v) s = .next s ∧ exec (.frmResWrite v) s = .next s) ∧
    (s.ready = true → s.sealed = false → s.loading = true →
      exec (.frmLenWrite v) s = .next s.discard ∧ exec (.frmResWrite v) s = .next s.discard) ∧
    (s.ready = true → s.sealed = false → s.loading = false →
      (2000 ≤ FRM_LEN_LEN.of v ∧ FRM_LEN_LEN.of v ≤ 400000 → exec (.frmLenWrite v) s = .next (s.wr FRM_LEN_LEN (FRM_LEN_LEN.of v))) ∧
      (FRM_LEN_LEN.of v < 2000 ∨ 400000 < FRM_LEN_LEN.of v → exec (.frmLenWrite v) s = .next (s.wr FRM_STAT_BAD_WRITE 1)) ∧
      (16 ≤ FRM_RES_RES_Q.of v ∧ FRM_RES_RES_Q.of v ≤ 200 → exec (.frmResWrite v) s = .next (s.wr FRM_RES_RES_Q (FRM_RES_RES_Q.of v))) ∧
      (FRM_RES_RES_Q.of v < 16 ∨ 200 < FRM_RES_RES_Q.of v → exec (.frmResWrite v) s = .next (s.wr FRM_STAT_BAD_WRITE 1)))) ∧
  (∀ (v : Word) (s : State),
    (s.ready = false → exec (.frmPhaseWrite v) s = .next s.discard) ∧
    (s.ready = true → s.anyActive = false → FRM_PHASE_PHASE.of v < s.frame.len →
      exec (.frmPhaseWrite v) s = .next (s.wr FRM_PHASE_PHASE (FRM_PHASE_PHASE.of v))) ∧
    (s.ready = true → s.anyActive = true ∨ s.frame.len ≤ FRM_PHASE_PHASE.of v →
      exec (.frmPhaseWrite v) s = .next (s.wr FRM_STAT_BAD_WRITE 1)))

/-- FRM_PHASE_WRITE while a context is active (02 R40): only BAD_WRITE changes. -/
def Obligations.PhaseWriteWithActiveContext : Prop :=
  ∀ (v : Word) (s : State), s.ready = true → s.anyActive = true → exec (.frmPhaseWrite v) s = .next (s.wr FRM_STAT_BAD_WRITE 1)

/-- The latched reads (02 R36, 11 R332, 13 R392, 20 R527); EVC_FREEZE (20 R528); COUNT_CLR at every count that has a CLR field (18 R476,
20 R525), and where it is discarded (01 R28, 17 R455). -/
def Obligations.LatchedReadsAndCounterControls : Prop :=
  (∀ s : State,
    exec .frmNumLoRead s =
      .next { s with frame := { s.frame with hi := s.frame.num / 2 ^ 32 }, answer := .word (BitVec.ofNat 32 s.frame.num) } ∧
    exec .cutFrameLoRead s =
      .next { s with plat := { s.plat with cutHi := s.plat.cutShow / 2 ^ 32 }, answer := .word (BitVec.ofNat 32 s.plat.cutShow) }) ∧
  (∀ (fn r : Nat) (s : State), ∃ t, exec (.crLastLoRead fn r) s = .next t ∧
    t.answer = .word (BitVec.ofNat 32 ((s.ring fn r).rd CR_LAST_LO_SER)) ∧ t = { s with fns := t.fns, answer := t.answer } ∧
    (fn < 34 → r < fnRings fn → t.ring fn r = { s.ring fn r with lastHi := (s.ring fn r).rd CR_LAST_HI_SER }) ∧
    (∀ f q, f ≠ fn ∨ q ≠ r → t.ring f q = s.ring f q)) ∧
  (∀ (c : CtrAt) (s : State),
    (s.evcThere c = true →
        (match c with | .block k i => k < 4608 ∧ i < 4 | .region n i => n < 24 ∧ i < 16 | .hub i => i < 32) →
      ∃ t u, exec (.evcLoRead c) s = .next t ∧ exec (.evcSnapLoRead c) s = .next u ∧
        t.answer = .word (BitVec.ofNat 32 (s.evcAt c).cnt) ∧ t.evcAt c = { s.evcAt c with hi := (s.evcAt c).cnt / 2 ^ 32 } ∧
        u.answer = .word (BitVec.ofNat 32 (s.evcAt c).snap) ∧ u.evcAt c = { s.evcAt c with snapHi := (s.evcAt c).snap / 2 ^ 32 } ∧
        (∀ d, d ≠ c → t.evcAt d = s.evcAt d ∧ u.evcAt d = s.evcAt d) ∧
        t = { s with evcs := t.evcs, regions := t.regions, blocks := t.blocks, answer := t.answer } ∧
        u = { s with evcs := u.evcs, regions := u.regions, blocks := u.blocks, answer := u.answer }) ∧
    (s.evcThere c = false →
      exec (.evcLoRead c) s = .next { s with answer := .word 0xFFFFFFFF } ∧
      exec (.evcSnapLoRead c) s = .next { s with answer := .word 0xFFFFFFFF })) ∧
  (∀ (v : Word) (addr : Nat) (s : State), s.ready = false →
    exec (.evcFreeze v) s = .next s.discard ∧ exec (.countClr addr) s = .next s.discard) ∧
  (∀ s : State, s.ready = true →
    (∀ v : Word, exec (.evcFreeze v) s = .next (s.wr EVC_CTL_FREEZE (EVC_CTL_FREEZE.of v))) ∧
    exec (.countClr 0x7004) s = .next ((s.wr HIF_DISC_COUNT 0).wr HIF_DISC_SAT 0) ∧
    exec (.countClr 0xA004) s = .next ((s.wr HERR_LOST_COUNT 0).wr HERR_LOST_SAT 0) ∧
    exec (.countClr 0x8120) s = .next ((s.wr GRD_VCNT_COUNT 0).wr GRD_VCNT_SAT 0) ∧
    (∀ i, i < 10 → exec (.countClr (0xA008 + 4 * i)) s = .next ((s.wr HERR_CNT_COUNT 0 i).wr HERR_CNT_SAT 0 i)) ∧
    (∀ i, i < 32 → exec (.countClr (0xC000 + 16 * i)) s = .next (s.updEvc (fun c => c.clear) (.hub i))) ∧
    (∀ k o, k < 24 → o = 0x20 ∨ o = 0x24 ∨ o = 0x28 →
      exec (.countClr (0x6100 + 0x40 * k + o)) s = .next (s.setPort k ((s.port k).pageWrite o 0x80000000))) ∧
    (∀ n i, n < 24 → i < 16 →
      exec (.countClr (0x1000000 + 0x100000 * n + 0x900 + 16 * i)) s = .next (s.updEvc (fun c => c.clear) (.region n i))) ∧
    (∀ n o g, n < 24 → (s.region n).clrWrite o = some g →
      exec (.countClr (0x1000000 + 0x100000 * n + o)) s = .next (s.setRegion n g)) ∧
    (∀ n b p, n < 24 → b < 192 → p < 0x1000 →
      (s.reaches (chipBlk n b) = false →
        exec (.countClr (0x1040000 + 0x100000 * n + 0x1000 * b + p)) s = .next s.discard) ∧
      (s.reaches (chipBlk n b) = true →
        (∀ i, i < 4 → p = 0x1C0 + 16 * i →
          exec (.countClr (0x1040000 + 0x100000 * n + 0x1000 * b + p)) s =
            .next (s.updEvc (fun c => c.clear) (.block (chipBlk n b) i))) ∧
        (∀ x, (s.block (chipBlk n b)).clrWrite p = some x →
          exec (.countClr (0x1040000 + 0x100000 * n + 0x1000 * b + p)) s = .next (s.setBlock (chipBlk n b) x)))))

/-- BEAT_START (02 R33, 08 R228): the next beat, or beat 0 at the end of the boundary gap; none where no beat begins. -/
def Obligations.BeatsFollowOneAnother : Prop :=
  ∀ (n : Nat) (s : State), n < 24 →
    ((s.region n).lost = true ∨ s.frame.running = false → exec (.beatStart n) s = .next s) ∧
    ((s.region n).lost = false → s.frame.running = true →
      ((s.region n).bit RGN_BEAT_GAP = false → (s.region n).stopped = false →
        ∃ t, exec (.beatStart n) s = .next t ∧ (t.region n).beat = (s.region n).beat + 1 ∧ (t.region n).bit RGN_BEAT_GAP = false ∧
          t.region n = (s.region n).enterBeat (s.wholeBeats n) (s.frameBeats n) ((s.region n).beat + 1) ∧
          t = { s with regions := t.regions } ∧ ∀ m, m ≠ n → t.region m = s.region m) ∧
      ((s.region n).bit RGN_BEAT_GAP = false → (s.region n).stopped = true → exec (.beatStart n) s = .next s) ∧
      ((s.region n).bit RGN_BEAT_GAP = true → 200 ≤ s.frame.pos → s.frame.realign = none →
        ∃ t, exec (.beatStart n) s = .next t ∧ (t.region n).beat = 0 ∧ (t.region n).bit RGN_BEAT_GAP = false ∧
          (t.region n).stopped = false) ∧
      ((s.region n).bit RGN_BEAT_GAP = true → s.frame.pos < 200 ∨ s.frame.realign.isSome = true →
        exec (.beatStart n) s = .next s))

/-- STEP_COMMIT (14 R397, R398, 08 R243, R244). IDLE_PLL_LOCK, REGULATOR_REPORT, PLL_LOCK_DEADLINE (14 R399, R401) and STEP_TAIL (02 R43,
14 R399, 08 R244), of a region that is not lost. -/
def Obligations.StepsAreCommittedAndTaken : Prop :=
  (∀ (n : Nat) (s : State), n < 24 →
    ((s.region n).lost = true ∨ s.arming = true ∨ s.wantedStep n = (s.region n).cur ∨ (s.region n).bit RGN_CLK_STAT_COMMIT = true ∨
        (∃ m ∈ s.group n, m < n) → exec (.stepCommit n) s = .next s) ∧
    ((s.region n).lost = false → s.arming = false → s.wantedStep n ≠ (s.region n).cur →
        (s.region n).bit RGN_CLK_STAT_COMMIT = false → (∀ m ∈ s.group n, n ≤ m) →
      (s.commitWhy n (s.wantedStep n) = none → s.wantedStep n < 8 → ∃ t, exec (.stepCommit n) s = .next t ∧ t.blocks = s.blocks ∧
        (∀ m ∈ s.group n, (s.region m).lost = false → (t.region m).rd RGN_CLK_STAT_NEXT = s.wantedStep n ∧
          (t.region m).bit RGN_CLK_STAT_COMMIT = true ∧ (t.region m).bit RGN_CLK_STAT_LOCKB = false ∧
          (t.region m).cur = (s.region m).cur) ∧
        (∀ m, m ∉ s.group n → t.region m = s.region m)) ∧
      (∀ why, s.commitWhy n (s.wantedStep n) = some why → ∃ t, exec (.stepCommit n) s = .next t ∧ t.blocks = s.blocks ∧
        (∀ m ∈ s.group n, (s.region m).lost = false → (t.region m).bit RGN_CLK_STAT_COMMIT = false ∧
          (t.region m).cur = (s.region m).cur ∧ (t.region m).rd RGN_CLK_STAT_REFWHY = why ∧
          (t.region m).rd RGN_CLK_STAT_REFCNT = min ((s.region m).rd RGN_CLK_STAT_REFCNT + 1) 255) ∧
        (∀ m, m ∉ s.group n → t.region m = s.region m) ∧ (why = 3 → t.bit FRM_STAT_STEP_REFUSED = true)))) ∧
  (∀ (n : Nat) (s : State), n < 24 → (s.region n).lost = false →
    (∃ t, exec (.idlePllLock n) s = .next t ∧ RegionFrame n s t ∧
      (t.region n).bit RGN_CLK_STAT_LOCKB = ((s.region n).bit RGN_CLK_STAT_LOCKB || (s.region n).bit RGN_CLK_STAT_COMMIT)) ∧
    (∃ t, exec (.regulatorReport n) s = .next t ∧ RegionFrame n s t ∧
      (t.region n).report = ((s.region n).report || (s.region n).bit RGN_CLK_STAT_COMMIT)) ∧
    ((s.region n).bit RGN_CLK_STAT_COMMIT = true → (s.region n).bit RGN_CLK_STAT_LOCKB = false →
      ∃ t, exec (.pllLockDeadline n) s = .next t ∧ (t.region n).bit RGN_CLK_STAT_COMMIT = false ∧
        (t.region n).rd RGN_CLK_STAT_REFWHY = 5 ∧ RegionFrame n s t) ∧
    ((s.region n).bit RGN_CLK_STAT_COMMIT = false ∨ (s.region n).bit RGN_CLK_STAT_LOCKB = true →
      exec (.pllLockDeadline n) s = .next (s.putRegion n (s.region n))) ∧
    ((s.region n).bit RGN_CLK_STAT_COMMIT = false ∨ (s.region n).stopped = true → exec (.stepTail n) s = .next s) ∧
    ((s.region n).bit RGN_CLK_STAT_COMMIT = true → (s.region n).stopped = false →
      (s.pinned n = true → ∃ t, exec (.stepTail n) s = .next t ∧ (t.region n).bit RGN_CLK_STAT_COMMIT = false ∧
        (t.region n).rd RGN_CLK_STAT_REFWHY = 4 ∧ RegionFrame n s t) ∧
      (s.pinned n = false →
        ((s.group n).all (fun m => (s.region m).bit RGN_CLK_STAT_COMMIT && (s.region m).bit RGN_CLK_STAT_LOCKB) = true →
          exec (.stepTail n) s = .next ((s.tailDeadline n).onLiveRegion n 0 (fun _ g => { g with stopped := true, go := true }))) ∧
        ((s.group n).all (fun m => (s.region m).bit RGN_CLK_STAT_COMMIT && (s.region m).bit RGN_CLK_STAT_LOCKB) = false →
          ∃ t, exec (.stepTail n) s = .next t ∧ (t.region n).bit RGN_CLK_STAT_COMMIT = false ∧
            (t.region n).rd RGN_CLK_STAT_REFWHY = 5 ∧ RegionFrame n s t))))

/-- REF_LOST and REF_RETURN (14 R406, 22 R558). DIE_PLL_LOST and REGION_PLL_LOST (14 R407; `lostWith` are the regions behind a region,
18 Table 18-9). -/
def Obligations.LostReferenceAndClocks : Prop :=
  (∀ s : State,
    (s.bit CLK_STAT_HOLDOVER = false → exec .refLost s =
      .next ((((s.wr CLK_STAT_REFOK 0).wr CLK_STAT_HOLDOVER 1).wr CLK_STAT_REFLOST 1).raise { cls := 8, subtype := 0x91, level := 3 })) ∧
    (s.bit CLK_STAT_HOLDOVER = true → exec .refLost s = .next s) ∧
    (s.bit CLK_STAT_HOLDOVER = true → s.frame.refBack = false → ∃ t, exec .refReturn s = .next t ∧ t.frame.refBack = true ∧
      t = { s.raise { cls := 8, subtype := 0x92, level := 3 } with frame := { s.frame with refBack := true } }) ∧
    (s.bit CLK_STAT_HOLDOVER = false ∨ s.frame.refBack = true → exec .refReturn s = .next s)) ∧
  (∀ (die : Nat) (s : State),
    (die < 4 → (s.rd CLK_STAT_DIELOCK).testBit die = true →
      ∃ t, exec (.diePllLost die) s = .next t ∧ ∀ f, f < 6 → (t.region (6 * die + f)).lost = true) ∧
    (4 ≤ die ∨ (s.rd CLK_STAT_DIELOCK).testBit die = false → exec (.diePllLost die) s = .next s)) ∧
  (∀ (n : Nat) (s : State),
    (n < 24 → (s.region n).lost = false →
      ∃ t, exec (.regionPllLost n) s = .next t ∧ (t.region n).stopped = true ∧ ∀ m ∈ lostWith n, (t.region m).lost = true) ∧
    (24 ≤ n ∨ (s.region n).lost = true → exec (.regionPllLost n) s = .next s))

/-- DROOP_TRIP and DROOP_CLEAR (14 R404), of a region that is not lost. -/
def Obligations.DroopStretching : Prop :=
  ∀ (n cyc dom skipped : Nat) (s : State), n < 24 → dom < 4 → (s.region n).lost = false →
    (∃ t, exec (.droopTrip n cyc dom) s = .next t ∧ ((t.region n).rd RGN_CLK_STAT_STR).testBit dom = true ∧
      (t.region n).droop = (s.region n).droop.set dom true ∧
      (∀ d, d < 4 → d ≠ dom → ((t.region n).rd RGN_CLK_STAT_STR).testBit d = ((s.region n).rd RGN_CLK_STAT_STR).testBit d)) ∧
    (∃ t, exec (.droopClear n cyc dom skipped) s = .next t ∧ ((t.region n).rd RGN_CLK_STAT_STR).testBit dom = false ∧
      (t.region n).droop = (s.region n).droop.set dom false ∧
      (∀ d, d < 4 → d ≠ dom → ((t.region n).rd RGN_CLK_STAT_STR).testBit d = ((s.region n).rd RGN_CLK_STAT_STR).testBit d))

/-- The frame of the commands of one block (`BlockFrame`): those of its core and sequencer change nothing where its clock does not run,
and the writes of its page are discarded where no access reaches it. The frame of the commands of one region (`RegionFrame`). The frame of
the commands of one sightline port (`PortFrame`). -/
def Obligations.UnitCommandsKeepToTheirUnit : Prop :=
  (∀ (blk cyc : Nat) (c : Instr) (s t : State),
    (∃ ep lost faults upsets, c = .tpush blk cyc ∨ c = .tfull blk cyc ∨ c = .trel blk cyc ∨ c = .taddrT blk cyc ∨
      c = .taddrF blk cyc ∨ c = .tfence blk cyc ∨ c = .tframe blk cyc ∨ c = .tcrcB blk cyc ∨ c = .tcrcH blk cyc ∨
      c = .tcrcW blk cyc ∨ c = .scalarInstruction blk cyc ∨ c = .mret blk cyc ∨ c = .terrWrite blk cyc ∨
      c = .slotLoadTimeout blk cyc ∨ c = .coreStart blk cyc ∨ c = .tileOutcome blk cyc faults ∨ c = .bankCommandIssue blk cyc ∨
      c = .bankCommandDone blk cyc ∨ c = .codebookLoad blk cyc ∨ c = .lookupLoad blk cyc ∨ c = .checkCommand blk cyc ∨
      c = .checkDone blk cyc ∨ c = .stakeDriveCommand blk cyc ∨ c = .stakeSight blk cyc ∨ c = .sightTimeout (.block blk cyc) ∨
      c = .planPoint blk cyc ∨ c = .inboundWord blk cyc ep lost ∨ c = .heldWordWrite blk cyc ∨ c = .holdWindowExpiry blk cyc ∨
      c = .scrubSlot blk ⟨cyc, upsets⟩ ∨ c = .tileReceived blk cyc ep ∨ c = .deliveryFull blk cyc ep ∨
      c = .driveWordReceived (.endpoint blk cyc ep) ∨ c = .driveApplied (.block blk cyc)) →
    exec c s = .next t → BlockFrame blk s t ∧ (s.runs blk = false → t = s)) ∧
  (∀ (blk : Nat) (c : Instr) (s t : State),
    (∃ v p i, c = .cbLoad blk i ∨ c = .cbDrop blk i ∨ c = .chkPolyWrite (.block blk) p ∨ c = .chkInit (.block blk) ∨
      c = .chkSeed (.block blk) v ∨ c = .spPwrWrite blk v) →
    exec c s = .next t → BlockFrame blk s t ∧ (s.ready = false ∨ s.reaches blk = false → t = s.discard)) ∧
  (∀ (n : Nat) (c : Instr) (s t : State),
    (∃ cyc eng desc k first port v hot i got w upsets, c = .transferStart n cyc eng desc ∨ c = .requestAccepted n cyc eng desc ∨
      c = .lineLanded n cyc eng desc k first ∨ c = .requestAbandon n cyc eng desc k first ∨ c = .storeStreamAccess n cyc i port ∨
      c = .storeInTile n cyc i port got ∨ c = .storeScrub n ⟨cyc, upsets⟩ ∨ c = .patrolScrub n ⟨cyc, upsets⟩ ∨ c = .memZeroStart n v ∨
      c = .zeroFillDone n cyc ∨ c = .doubledRefresh n hot ∨ c = .sightTimeout (.engine n cyc eng desc) ∨
      c = .sightTimeout (.stream n cyc i) ∨ c = .driveApplied (.region n cyc) ∨ c = .driveWordReceived (.stream n cyc i w)) →
    exec c s = .next t → RegionFrame n s t ∧ ((s.region n).lost = true → t = s)) ∧
  (∀ (k : Nat) (c : Instr) (s t : State),
    (∃ tm lane marks ok shot, c = .laneLock k tm lane marks ok ∨ c = .laneLockLost k tm lane marks ∨ c = .shotReceived k tm shot ∨
      c = .replayTimeout k tm ∨ c = .datumTimer k tm ∨ c = .datumReceived k tm ∨ c = .voidContextReceived k ∨ c = .slSwap k ∨
      c = .slReset k ∨ c = .slHoldStart k) →
    exec c s = .next t → PortFrame k s t)

/-- SCALAR_INSTRUCTION: the instructions of RV32IMC and Zicsr (06 R163, R164, R166, R167); `Core.retire` moves the pc and counts. -/
def Obligations.CoreArithmetic : Prop :=
  ∀ (blk cyc : Nat) (s : State) (B : Block) (i : Rv) (bits : Word) (len : Nat) (nx : Word), blk < 4608 → s.runs blk = true →
    B = s.blockAt blk cyc → B.core.mode = .running → B.fetch = .ok i bits len → nx = B.core.pc + BitVec.ofNat 32 len →
    (∀ (rd : Nat) (v p : Word),
      (∃ f3 rs1 rs2 alt imm a o, (p = nx ∧
          ((i = .op f3 rd rs1 rs2 alt ∧ v = alu f3 alt (B.core.get rs1) (B.core.get rs2)) ∨
           (i = .opImm f3 rd rs1 alt imm ∧ v = alu f3 alt (B.core.get rs1) imm) ∨
           (i = .mul f3 rd rs1 rs2 ∧ v = mulDiv f3 (B.core.get rs1) (B.core.get rs2)) ∨
           (i = .lui rd imm ∧ v = imm) ∨ (i = .auipc rd imm ∧ v = B.core.pc + imm) ∨
           (i = .load f3 rd rs1 imm ∧ a = B.core.get rs1 + imm ∧ a.toNat % 2 ^ (f3 % 4) = 0 ∧ placeOf a = .ldata o ∧
             v = extendLoad f3 (leNat (B.ldata.rdN o (2 ^ (f3 % 4))))))) ∨
        (v = nx ∧ ((i = .jal rd imm ∧ p = B.core.pc + imm) ∨ (i = .jalr rd rs1 imm ∧ p = (B.core.get rs1 + imm) &&& 0xFFFFFFFE)))) →
      ∃ t c, exec (.scalarInstruction blk cyc) s = .next t ∧ CoreOnly blk s B c t ∧ c = { B.core.retire p with x := c.x } ∧
        c.get rd = (if rd % 32 = 0 then 0 else v) ∧ (∀ r, r % 32 ≠ rd % 32 → c.get r = B.core.get r)) ∧
    (∀ p : Word, (i = .nop ∧ p = nx) ∨ (∃ f3 rs1 rs2 off, i = .branch f3 rs1 rs2 off ∧
        p = if taken f3 (B.core.get rs1) (B.core.get rs2) then B.core.pc + off else nx) →
      ∃ t, exec (.scalarInstruction blk cyc) s = .next t ∧ CoreOnly blk s B (B.core.retire p) t) ∧
    (∀ f3 rd rs1 off a, i = .load f3 rd rs1 off → a = B.core.get rs1 + off →
      (∀ b v, B.loadAt (s.env blk cyc) a (2 ^ (f3 % 4)) = .data b v → ∃ t, exec (.scalarInstruction blk cyc) s = .next t ∧
        t.block blk = (b.retireRd nx rd (extendLoad f3 v)).atRest ∧ BlockFrame blk s t) ∧
      (∀ ring slot, B.loadAt (s.env blk cyc) a (2 ^ (f3 % 4)) = .stall ring slot → ∃ t,
        exec (.scalarInstruction blk cyc) s = .next t ∧ CoreOnly blk s B { B.core with mode := .stall ring slot a } t)) ∧
    (∀ f3 rs1 rs2 off a, i = .store f3 rs1 rs2 off → a = B.core.get rs1 + off →
      (∀ b, B.storeAt (s.env blk cyc) a (2 ^ f3) (B.core.get rs2).toNat = .inl b → ∃ t,
        exec (.scalarInstruction blk cyc) s = .next t ∧ t.block blk = (b.retire nx).atRest ∧ BlockFrame blk s t) ∧
      (∀ o, a.toNat % 2 ^ f3 = 0 → placeOf a = .ldata o → ∃ t, exec (.scalarInstruction blk cyc) s = .next t ∧
        t.block blk = { B.atRest with core := B.core.retire nx, ldata := (t.block blk).ldata } ∧
        (∀ k, k < o ∨ o + 2 ^ f3 ≤ k → (t.block blk).ldata.rd k = B.ldata.rd k) ∧
        (∀ j, j < 2 ^ f3 → (t.block blk).ldata.rd (o + j) = BitVec.ofNat 8 ((B.core.get rs2).toNat / 2 ^ (8 * j))))) ∧
    (∀ f3 rd rs1 n old src, i = .csr f3 rd rs1 n → B.csrRead (s.env blk cyc) n = some old →
        src = (if 4 ≤ f3 then BitVec.ofNat 32 rs1 else B.core.get rs1) →
      ((f3 % 4 = 2 ∨ f3 % 4 = 3) → rs1 = 0 → ∃ t c, exec (.scalarInstruction blk cyc) s = .next t ∧ CoreOnly blk s B c t ∧
        c = { B.core.retire nx with x := c.x } ∧ c.get rd = (if rd % 32 = 0 then 0 else old)) ∧
      (f3 % 4 = 1 ∨ (f3 % 4 = 2 ∧ rs1 ≠ 0) ∨ (f3 % 4 = 3 ∧ rs1 ≠ 0) → csrReadOnly n = false → n ≠ 0xB02 → n ≠ 0xB82 → ∃ t,
        exec (.scalarInstruction blk cyc) s = .next t ∧ t.block blk =
          ((B.csrWrite (s.env blk cyc) n (if f3 % 4 = 1 then src else if f3 % 4 = 2 then old ||| src else old &&& ~~~src)).retireRd
            nx rd old).atRest ∧ BlockFrame blk s t))

/-- Taking an exception and returning from one (06 R169). -/
def Obligations.CoreExceptions : Prop :=
  ∀ (blk cyc : Nat) (s : State) (B : Block), blk < 4608 → s.runs blk = true → B = s.blockAt blk cyc → B.core.mode = .running →
    (∀ (cause : Nat) (val : Word),
      ((∃ a, B.fetch = .fault a ∧ cause = 1 ∧ val = a) ∨
       (∃ i bits len, B.fetch = .ok i bits len ∧
        ((i = .ecall ∧ cause = 11 ∧ val = 0) ∨ (i = .ebreak ∧ cause = 3 ∧ val = 0) ∨ (i = .illegal ∧ cause = 2 ∧ val = bits) ∨
         (∃ f3 rd rs1 n, i = .csr f3 rd rs1 n ∧ cause = 2 ∧ val = bits ∧ (B.csrRead (s.env blk cyc) n = none ∨
           (f3 % 4 = 1 ∨ rs1 ≠ 0) ∧ csrReadOnly n = true)) ∨
         (∃ f3 rd rs1 off, i = .load f3 rd rs1 off ∧ val = B.core.get rs1 + off ∧
           ((cause = 4 ∧ val.toNat % 2 ^ (f3 % 4) ≠ 0) ∨ (cause = 5 ∧ val.toNat % 2 ^ (f3 % 4) = 0 ∧ placeOf val = .none))) ∨
         (∃ f3 rs1 rs2 off, i = .store f3 rs1 rs2 off ∧ val = B.core.get rs1 + off ∧
           ((cause = 6 ∧ val.toNat % 2 ^ f3 ≠ 0) ∨ (cause = 7 ∧ val.toNat % 2 ^ f3 = 0 ∧ placeOf val = .none)))))) →
      (B.core.inTrap = false → ∃ t, exec (.scalarInstruction blk cyc) s = .next t ∧ CoreOnly blk s B (B.core.trapped cause val) t) ∧
      (B.core.inTrap = true → ∃ t, exec (.scalarInstruction blk cyc) s = .next t ∧
        (t.block blk).core = { B.core with mode := .halted } ∧ (t.block blk).bit SC_CTL_DBLF = true ∧ BlockFrame blk s t)) ∧
    (∀ bits len, B.fetch = .ok .mret bits len → ∃ t, exec (.mret blk cyc) s = .next t ∧
      CoreOnly blk s B { B.core.retire B.core.mepc with inTrap := false } t)

/-- TPUSH, TFENCE and TFRAME (06 R171, R173); beat 0 wakes TFRAME. -/
def Obligations.CoreQueueInstructions : Prop :=
  (∀ (blk cyc : Nat) (s : State) (B : Block) (i : Rv) (bits : Word) (len : Nat) (nx : Word), blk < 4608 → s.runs blk = true →
    B = s.blockAt blk cyc → B.core.mode = .running → B.fetch = .ok i bits len → nx = B.core.pc + BitVec.ofNat 32 len →
    (∀ rs1 imm a, i = .tpush rs1 imm → a = B.core.get rs1 + imm →
      (∀ o, a.toNat % 16 = 0 → placeOf a = .ldata o →
        (B.seq.q.length < 32 → ∃ t x, exec (.tpush blk cyc) s = .next t ∧
          t.block blk = { B.atRest with core := B.core.retire nx, seq := (t.block blk).seq } ∧
          (t.block blk).seq.q = B.seq.q ++ [x] ∧ x.frame = s.frame.num ∧ x.st = .waiting ∧ x.plan = B.seq.planNext ∧
          x.cmd = ⟨(wordsOf 4 (B.ldata.rdN o 16)).getD 0 0, (wordsOf 4 (B.ldata.rdN o 16)).getD 1 0,
                   (wordsOf 4 (B.ldata.rdN o 16)).getD 2 0, (wordsOf 4 (B.ldata.rdN o 16)).getD 3 0⟩ ∧ BlockFrame blk s t) ∧
        (32 ≤ B.seq.q.length → ∃ t, exec (.tpush blk cyc) s = .next t ∧ CoreOnly blk s B B.core t)) ∧
      (B.core.inTrap = false →
        (a.toNat % 16 ≠ 0 → ∃ t, exec (.tpush blk cyc) s = .next t ∧ CoreOnly blk s B (B.core.trapped 4 a) t) ∧
        (a.toNat % 16 = 0 → (∀ o, placeOf a ≠ .ldata o) →
          ∃ t, exec (.tpush blk cyc) s = .next t ∧ CoreOnly blk s B (B.core.trapped 5 a) t))) ∧
    (i = .tfence → ∃ t, exec (.tfence blk cyc) s = .next t ∧
      CoreOnly blk s B (if B.seq.q = [] then B.core.retire nx else B.core) t) ∧
    (∀ rd, i = .tframe rd → ∃ t, exec (.tframe blk cyc) s = .next t ∧
      CoreOnly blk s B { B.core with mode := .frame rd, pc := nx } t)) ∧
  (∀ (b : Block) (frame rd : Nat) (overran starts : Bool), b.core.mode = .frame rd →
    (b.beat0 frame overran starts).core.mode = .running ∧ (b.beat0 frame overran starts).core.pc = b.core.pc ∧
    (b.beat0 frame overran starts).core.get rd = if rd % 32 = 0 then 0 else BitVec.ofNat 32 frame)

/-- TFULL, TREL, TADDR.T and TADDR.F (06 R172). TCRC, TERR_WRITE, CORE_START and SLOT_LOAD_TIMEOUT (06 R182, R185, R186, 05 R137). -/
def Obligations.CoreRingAndOtherInstructions : Prop :=
  (∀ (blk cyc : Nat) (s : State) (B : Block) (i : Rv) (bits : Word) (len : Nat) (nx : Word), blk < 4608 → s.runs blk = true →
    B = s.blockAt blk cyc → B.core.mode = .running → B.fetch = .ok i bits len → nx = B.core.pc + BitVec.ofNat 32 len →
    (∀ rd rs1 rs2 r k c, r = (B.core.get rs1).toNat % 32 → k = B.coreCons r →
      (i = .tfull rs1 rs2 ∧ c = .tfull blk cyc → B.ringOn r = true → ∃ t, exec c s = .next t ∧ BlockFrame blk s t ∧ t.block blk =
        ((B.markFull (s.env blk cyc) r (B.fillPos r) { hdr := hdrOfRs2 (B.core.get rs2) }).retire nx).atRest) ∧
      (i = .trel rs1 ∧ c = .trel blk cyc → B.ringOn r = true → k ≠ 0 → ∃ t, exec c s = .next t ∧ BlockFrame blk s t ∧
        t.block blk = ((B.release (s.env blk cyc) r (B.takePos r k) k).retire nx).atRest) ∧
      (∀ v, (i = .taddrT rd rs1 ∧ c = .taddrT blk cyc ∧ k ≠ 0 ∧ v = B.slotAddr r (B.takePos r k)) ∨
          (i = .taddrF rd rs1 ∧ c = .taddrF blk cyc ∧ v = B.slotAddr r (B.fillPos r)) → B.ringOn r = true →
        ∃ t u, exec c s = .next t ∧ CoreOnly blk s B u t ∧ u = { B.core.retire nx with x := u.x } ∧
          u.get rd = (if rd % 32 = 0 then 0 else BitVec.ofNat 32 (0x200000 + v)) ∧
          (∀ q, q % 32 ≠ rd % 32 → u.get q = B.core.get q)) ∧
      ((i = .tfull rs1 rs2 ∧ c = .tfull blk cyc ∧ B.ringOn r = false) ∨ (i = .taddrF rd rs1 ∧ c = .taddrF blk cyc ∧ B.ringOn r = false) ∨
          (i = .trel rs1 ∧ c = .trel blk cyc ∧ (B.ringOn r = false ∨ k = 0)) ∨
          (i = .taddrT rd rs1 ∧ c = .taddrT blk cyc ∧ (B.ringOn r = false ∨ k = 0)) → B.core.inTrap = false →
        ∃ t, exec c s = .next t ∧ CoreOnly blk s B (B.core.trapped 2 bits) t)) ∧
    (∀ n rs1 c, i = .tcrc n rs1 → (n = 1 ∧ c = .tcrcB blk cyc ∨ n = 2 ∧ c = .tcrcH blk cyc ∨ n = 4 ∧ c = .tcrcW blk cyc) →
      (B.chkRoom n = true → ∃ t, exec c s = .next t ∧ BlockFrame blk s t ∧ t.block blk =
        { B.atRest with core := B.core.retire nx, chk := { B.chk with buf := B.chk.buf ++ leBytes n (B.core.get rs1).toNat } }) ∧
      (B.chkRoom n = false → ∃ t, exec c s = .next t ∧ CoreOnly blk s B B.core t)) ∧
    (∀ f3 rd rs1 src, i = .csr f3 rd rs1 0x7C2 → src = (if 4 ≤ f3 then BitVec.ofNat 32 rs1 else B.core.get rs1) →
      (f3 % 4 = 1 ∨ (f3 % 4 = 2 ∧ rs1 ≠ 0) → ∃ t, exec (.terrWrite blk cyc) s = .next t ∧ BlockFrame blk s t ∧
        t.block blk = ((B.terrWrite (s.env blk cyc) src).retireRd nx rd 0).atRest) ∧
      (f3 % 4 = 2 → rs1 = 0 → ∃ t, exec (.terrWrite blk cyc) s = .next t ∧ BlockFrame blk s t ∧
        t.block blk = (B.retireRd nx rd 0).atRest))) ∧
  (∀ (blk cyc : Nat) (s : State) (B : Block), blk < 4608 → s.runs blk = true → B = s.blockAt blk cyc →
    (∃ t, exec (.coreStart blk cyc) s = .next t ∧
      CoreOnly blk s B (if B.core.mode = .halted then { B.core with mode := .running } else B.core) t) ∧
    (∀ ring slot a, B.core.mode = .stall ring slot a →
      (B.slotFull ring slot = false → B.rd SP_RING_TMO_TMO ring ≠ 0 → B.core.inTrap = false →
        ∃ t, exec (.slotLoadTimeout blk cyc) s = .next t ∧ (t.block blk).core = { B.core.trapped 24 a with mode := .running } ∧
          (t.block blk).bit SP_STAT_LTMO = true ∧ (t.block blk).rd SP_LAST_SUBTYPE = 0x12 ∧
          (t.block blk).rd SP_LAST_RING = ring % 32 ∧ BlockFrame blk s t) ∧
      (B.slotFull ring slot = true ∨ B.rd SP_RING_TMO_TMO ring = 0 →
        ∃ t, exec (.slotLoadTimeout blk cyc) s = .next t ∧ CoreOnly blk s B B.core t)) ∧
    ((∀ ring slot a, B.core.mode ≠ .stall ring slot a) →
      ∃ t, exec (.slotLoadTimeout blk cyc) s = .next t ∧ CoreOnly blk s B B.core t))

/-- MATRIX_ISSUE (03 R61, R64 to R66, 04 R121): the head issues, waits, or is refused. -/
def Obligations.MatrixIssue : Prop :=
  ∀ (blk cyc : Nat) (s : State) (B : Block), blk < 4608 → s.runs blk = true → B = s.blockAt blk cyc →
    (∀ x set, (s.region (regionOf blk)).bit RGN_BEAT_GAP = false → B.head = some x → set = x.keptSet.getD B.seq.nextSet →
      (x.cmd.opc = 1 → B.matrixBadHead x.cmd = false →
        ((B.sourcesFull x.cmd && B.destsEmpty x.cmd && B.arrayFree cyc && B.setFree set (B.firstCompute x cyc)) = true →
          (∀ ta tb, B.matrixTags x.cmd = some (ta, tb) → ∃ t r, exec (.matrixIssue blk cyc) s = .next t ∧
            t.block blk = (B.issueMatrix (s.env blk cyc) x ta tb).atRest ∧ (∀ k, k ≠ blk → t.block k = s.block k) ∧
            t = { s with blocks := t.blocks, hub := t.hub, regions := t.regions, evcs := t.evcs, pert := t.pert } ∧
            (∃ b, (t.block blk).seq.q = B.seq.q.map (fun y => if y.id = x.id then { y with st := .issued r, keptSet := some set, bias := b } else y)) ∧
            r.set = set ∧ r.ta = ta ∧ r.tb = tb ∧ r.pass = 0 ∧ r.cyc = cyc ∧ r.fc = B.firstCompute x cyc ∧
            r.sa = B.headSrc x.cmd.ringA ∧ r.sb = B.headSrc x.cmd.ringB ∧ r.sd = B.headDst x.cmd.ringDM)) ∧
        ((B.sourcesFull x.cmd && B.destsEmpty x.cmd && B.arrayFree cyc && B.setFree set (B.firstCompute x cyc)) = false →
          ∃ t, exec (.matrixIssue blk cyc) s = .next t ∧ t.block blk = B.atRest)) ∧
      ((x.cmd.opc = 1 ∧ B.matrixBadHead x.cmd = true) ∨ (x.cmd.opc = 1 ∧ B.matrixTags x.cmd = none ∧
          (B.sourcesFull x.cmd && B.destsEmpty x.cmd && B.arrayFree cyc && B.setFree set (B.firstCompute x cyc)) = true) ∨
          x.cmd.opc = 0 ∨ 9 ≤ x.cmd.opc →
        ∃ t, exec (.matrixIssue blk cyc) s = .next t ∧ Refused B x (t.block blk)) ∧
      (2 ≤ x.cmd.opc → x.cmd.opc ≤ 8 → ∃ t, exec (.matrixIssue blk cyc) s = .next t ∧ t.block blk = B.atRest)) ∧
    ((s.region (regionOf blk)).bit RGN_BEAT_GAP = false → B.head = none →
      ∃ t, exec (.matrixIssue blk cyc) s = .next t ∧ t.block blk = B.atRest) ∧
    ((s.region (regionOf blk)).bit RGN_BEAT_GAP = true → exec (.matrixIssue blk cyc) s = .next s)

/-- TILE_OUTCOME (03 R83 to R88, 04 R116 to R118): the oldest issued tile reaches drain cycle 64. `C` is the block with the tile's cycles
counted. -/
def Obligations.TileOutcomes : Prop :=
  ∀ (blk cyc : Nat) (faults : List CellFault) (s : State) (B : Block), blk < 4608 → s.runs blk = true → B = s.blockAt blk cyc →
    (B.draining = none → ∃ t, exec (.tileOutcome blk cyc faults) s = .next t ∧ t.block blk = B.atRest) ∧
    (∀ x r, B.draining = some (x, r) → x.cmd.opc ≠ 1 ∨ cyc + 1 < r.de →
      ∃ t, exec (.tileOutcome blk cyc faults) s = .next t ∧ t.block blk = B.atRest) ∧
    (∀ (x : QEntry) (r : Run) (C W : Block) (p : PassOut) (cc : Nat), B.draining = some (x, r) → x.cmd.opc = 1 → r.de ≤ cyc + 1 →
      cc = computeCycles r.ta r.tb x.cmd.k → p = B.passOf x.cmd r faults →
      C = (((B.span (s.env blk cyc) (cyc + 1)).count (s.env blk cyc) (if B.tenant (s.env blk cyc) then 0x003 else 0x004)
        (some (s.env blk cyc).parcel) cc).count (s.env blk cyc) 0x005 (some (s.env blk cyc).parcel) (r.ce - r.fc - cc - r.skip)).count
        (s.env blk cyc) 0x020 (some (s.env blk cyc).parcel) (cc + (if r.pass = 0 ∧ x.cmd.init ≠ 0 then 1 else 0)) →
      W = (C.passDrain (s.env blk cyc) x r p).1 →
      ∃ t, exec (.tileOutcome blk cyc faults) s = .next t ∧ BlockFrame blk s t ∧
        (p.fail = none → t.block blk = ((C.cleanPass (s.env blk cyc) x r p).showSets (cyc + 1)).atRest) ∧
        (∀ f, p.fail = some f → r.pass = 0 →
          t.block blk = (((W.mxLast x.cmd.tag 0 f).rerun (s.env blk cyc) x r 1 0).showSets (cyc + 1)).atRest ∧
          (t.block blk).bit BLK_MX_STAT_REPLAY = true ∧ (∀ y ∈ (t.block blk).seq.q, y.id = x.id → ∃ u, y.st = .issued u ∧
            u.pass = 1 ∧ u.set = r.set ∧ u.sa = r.sa ∧ u.sb = r.sb ∧ u.sd = r.sd ∧ u.cyc = cyc + 1)) ∧
        (∀ f, p.fail = some f → r.pass ≠ 0 → (t.block blk).bit BLK_MX_STAT_POISON = true ∧
          (t.block blk).bit BLK_MX_STAT_REPLAY = false ∧ (t.block blk).seq.poisoned = B.seq.poisoned + 1 ∧
          (∀ y ∈ (t.block blk).seq.q, y.id = x.id → ∃ h, y.st = .landing r h (cyc + 5) ∧ h.void = true)))

/-- BANK_COMMAND_ISSUE, BANK_COMMAND_DONE, CODEBOOK_LOAD and LOOKUP_LOAD (05 R149, R155, R156, 04 R101, R102, 06 R176). -/
def Obligations.BankCommandsAndLoads : Prop :=
  ∀ (blk cyc : Nat) (s : State) (B : Block), blk < 4608 → s.runs blk = true → B = s.blockAt blk cyc →
    (∀ c opc, (opc = 2 ∧ c = .bankCommandIssue blk cyc) ∨ (opc = 3 ∧ c = .codebookLoad blk cyc) ∨ (opc = 4 ∧ c = .lookupLoad blk cyc) →
      ((s.region (regionOf blk)).bit RGN_BEAT_GAP = true → exec c s = .next s) ∧
      ((s.region (regionOf blk)).bit RGN_BEAT_GAP = false →
        (B.head = none → ∃ t, exec c s = .next t ∧ t.block blk = B.atRest) ∧
        (∀ x, B.head = some x →
          (x.cmd.opc ≠ opc → ∃ t, exec c s = .next t ∧ t.block blk = B.atRest) ∧
          (x.cmd.opc = opc →
            (opc = 2 ∧ B.bankBadHead x.cmd = true ∨ opc = 2 ∧ (B.sourcesFull x.cmd && B.destsEmpty x.cmd) = true ∧ B.bankBadTag x.cmd = true ∨
                opc ≠ 2 ∧ B.otherBad x.cmd = true → ∃ t, exec c s = .next t ∧ Refused B x (t.block blk)) ∧
            (opc = 2 ∧ B.bankBadHead x.cmd = false ∧ (B.sourcesFull x.cmd && B.destsEmpty x.cmd) = false ∨
                opc ≠ 2 ∧ B.otherBad x.cmd = false ∧ (B.sourcesFull x.cmd = false ∨ opc = 3 ∧ (B.before x).any (B.usesCb x.cmd.idx) = true ∨
                  opc = 4 ∧ (B.before x).any (B.usesLut x.cmd.tbl) = true) → ∃ t, exec c s = .next t ∧ t.block blk = B.atRest))))) ∧
    (∀ x, (s.region (regionOf blk)).bit RGN_BEAT_GAP = false → B.head = some x →
      (x.cmd.opc = 2 → B.bankBadHead x.cmd = false → B.bankBadTag x.cmd = false → (B.sourcesFull x.cmd && B.destsEmpty x.cmd) = true →
        ∃ t r, exec (.bankCommandIssue blk cyc) s = .next t ∧ r.sa = B.headSrc x.cmd.ringS ∧ r.sd = B.headDst x.cmd.ringDB ∧
          r.ta = (B.tag x.cmd.ringS (B.headSrc x.cmd.ringS)).hdr.fmt ∧ t.block blk = { B.atRest with seq := (t.block blk).seq } ∧
          (t.block blk).seq.q = B.seq.q.map (fun y => if y.id = x.id then { y with st := .issued r, keptSet := some 0 } else y)) ∧
      (∀ a R, x.cmd.opc = 3 → B.otherBad x.cmd = false → B.sourcesFull x.cmd = true →
          (B.before x).any (B.usesCb x.cmd.idx) = false → a = B.slotAddr x.cmd.ring (B.headSrc x.cmd.ring) →
          R = (B.portRead (s.env blk cyc) x.cmd.ring (B.headSrc x.cmd.ring) a (a + 16)).1 →
        ∃ t, exec (.codebookLoad blk cyc) s = .next t ∧ Completed B x (t.block blk) ∧
          (x.cmd.idx ≠ 31 → ((t.block blk).rd BLK_CB_VALID_VALID).testBit x.cmd.idx = gridValid (gridOfBytes (R.spRead a 16))) ∧
          (x.cmd.idx = 31 ∨ gridValid (gridOfBytes (R.spRead a 16)) = false → (t.block blk).bit BLK_FMT_STAT_CBREF = true)) ∧
      (∀ a R, x.cmd.opc = 4 → B.otherBad x.cmd = false → B.sourcesFull x.cmd = true →
          (B.before x).any (B.usesLut x.cmd.tbl) = false → a = B.slotAddr x.cmd.ring (B.headSrc x.cmd.ring) →
          R = (B.portRead (s.env blk cyc) x.cmd.ring (B.headSrc x.cmd.ring) a (a + 1056)).1 →
        ∃ t, exec (.lookupLoad blk cyc) s = .next t ∧ Completed B x (t.block blk) ∧
          ((t.block blk).rd DRN_LUT_STAT_VALID).testBit x.cmd.tbl = lutValid (wordsOf 264 (R.spRead a 1056)) ∧
          (lutValid (wordsOf 264 (R.spRead a 1056)) = false → (t.block blk).bit SP_STAT_LUTREF = true))) ∧
    (∀ y r, B.draining = some (y, r) →
      (y.cmd.opc = 2 → ∃ t, exec (.bankCommandDone blk cyc) s = .next t ∧ Completed B y (t.block blk)) ∧
      (y.cmd.opc ≠ 2 → ∃ t, exec (.bankCommandDone blk cyc) s = .next t ∧ t.block blk = B.atRest)) ∧
    (B.draining = none → ∃ t, exec (.bankCommandDone blk cyc) s = .next t ∧ t.block blk = B.atRest)

/-- CHECK_COMMAND, CHECK_DONE, CHK_POLY_WRITE, CHK_INIT and CHK_SEED (06 R181 to R183, 23 R569). -/
def Obligations.CheckUnitCommands : Prop :=
  (∀ (blk cyc : Nat) (s : State) (B : Block), blk < 4608 → s.runs blk = true → B = s.blockAt blk cyc →
    ((s.region (regionOf blk)).bit RGN_BEAT_GAP = true → exec (.checkCommand blk cyc) s = .next s) ∧
    ((s.region (regionOf blk)).bit RGN_BEAT_GAP = false →
      (B.head = none → ∃ t, exec (.checkCommand blk cyc) s = .next t ∧ t.block blk = B.atRest) ∧
      (∀ x, B.head = some x →
        (x.cmd.opc ≠ 5 ∨ B.otherBad x.cmd = false ∧ (B.sourcesFull x.cmd = false ∨ B.chkRunning = true) →
          ∃ t, exec (.checkCommand blk cyc) s = .next t ∧ t.block blk = B.atRest) ∧
        (x.cmd.opc = 5 → B.otherBad x.cmd = true → ∃ t, exec (.checkCommand blk cyc) s = .next t ∧ Refused B x (t.block blk)) ∧
        (x.cmd.opc = 5 → B.otherBad x.cmd = false → B.sourcesFull x.cmd = true → B.chkRunning = false →
          ∃ t, exec (.checkCommand blk cyc) s = .next t ∧ (t.block blk).chkBusy = true ∧ (t.block blk).rd CHK_CTL_POLY = x.cmd.poly ∧
            (t.block blk).chk.buf = [] ∧ (t.block blk).chk.hi = B.chk.hi ∧
            (x.cmd.poly ≠ B.rd CHK_CTL_POLY ∨ x.cmd.chkInit = true → (t.block blk).chk.reg = (crcPoly x.cmd.poly).init) ∧
            (x.cmd.poly = B.rd CHK_CTL_POLY → x.cmd.chkInit = false →
              (t.block blk).chk.reg = (crcPoly x.cmd.poly).feedAll B.chk.reg B.chk.buf) ∧
            (t.block blk).seq.q = B.seq.q.map (fun y => if y.id = x.id then
              { y with st := .issued { sa := B.headSrc x.cmd.ring, cyc := cyc } } else y)))) ∧
    (∀ y r a R, B.seq.q.findSome? (fun x => if x.cmd.opc = 5 then x.issued?.map (fun r => (x, r)) else none) = some (y, r) →
        a = B.slotAddr y.cmd.ring r.sa + y.cmd.offset → R = (B.portRead (s.env blk cyc) y.cmd.ring r.sa a (a + y.cmd.len)).1 →
      ∃ t, exec (.checkDone blk cyc) s = .next t ∧ Completed B y (t.block blk) ∧ (t.block blk).bit CHK_STAT_DONE = true ∧
        (t.block blk).rd CHK_STAT_TAG = y.cmd.tag ∧
        (t.block blk).chk.reg = (crcPoly (B.rd CHK_CTL_POLY)).feedAll B.chk.reg (R.spRead a y.cmd.len)) ∧
    (B.seq.q.findSome? (fun x => if x.cmd.opc = 5 then x.issued?.map (fun r => (x, r)) else none) = none →
      ∃ t, exec (.checkDone blk cyc) s = .next t ∧ t.block blk = B.atRest)) ∧
  (∀ (blk : Nat) (s : State) (B : Block) (p : Nat) (v : Word), s.ready = true → s.reaches blk = true → B = s.block blk →
    (B.chkBusy = true → ∀ c, c = .chkPolyWrite (.block blk) p ∨ c = .chkInit (.block blk) ∨ c = .chkSeed (.block blk) v →
      ∃ t, exec c s = .next t ∧ t.block blk = B.atRest) ∧
    (B.chkBusy = false →
      (∃ t, exec (.chkPolyWrite (.block blk) p) s = .next t ∧ (t.block blk).rd CHK_CTL_POLY = p % 4 ∧
        (t.block blk).chk = { reg := (crcPoly (p % 4)).init, hi := B.chk.hi } ∧
        t.block blk = { B.atRest with chk := (t.block blk).chk, regs := (t.block blk).regs }) ∧
      (∃ t, exec (.chkInit (.block blk)) s = .next t ∧ (t.block blk).rd CHK_CTL_POLY = B.rd CHK_CTL_POLY ∧
        (t.block blk).chk = { reg := (crcPoly (B.rd CHK_CTL_POLY)).init, hi := B.chk.hi }) ∧
      (∃ t, exec (.chkSeed (.block blk) v) s = .next t ∧ (t.block blk).rd CHK_CTL_POLY = B.rd CHK_CTL_POLY ∧
        (t.block blk).chk = { reg := (crcPoly (B.rd CHK_CTL_POLY)).seed (v.toNat + 2 ^ 32 * B.chk.hi.toNat), hi := B.chk.hi }))) ∧
  (∀ (s : State) (p : Nat) (v : Word),
    (∃ t, exec (.chkPolyWrite .mc p) s = .next t ∧ t.rd MCHK_CTL_POLY = p % 4 ∧
      t = { s with hub := t.hub, mchk := { reg := (crcPoly (p % 4)).init, hi := s.mchk.hi } }) ∧
    (∃ t, exec (.chkInit .mc) s = .next t ∧
      t = { s with hub := t.hub, mchk := { reg := (crcPoly (s.rd MCHK_CTL_POLY)).init, hi := s.mchk.hi } }) ∧
    (∃ t, exec (.chkSeed .mc v) s = .next t ∧ t = { s with hub := t.hub, mchk :=
      { reg := (crcPoly (s.rd MCHK_CTL_POLY)).seed (v.toNat + 2 ^ 32 * s.mchk.hi.toNat), hi := s.mchk.hi } }))

/-- STAKE_SIGHT, STAKE_DRIVE_COMMAND, PLAN_POINT, SIGHT_TIMEOUT and DRIVE_APPLIED at a block (10 R282 to R298, 06 R179). -/
def Obligations.StakeCommandsOfABlock : Prop :=
  ∀ (blk cyc : Nat) (s : State) (B : Block), blk < 4608 → s.runs blk = true → B = s.blockAt blk cyc →
    (∀ c opc, (opc = 7 ∧ c = .stakeSight blk cyc) ∨ (opc = 6 ∧ c = .stakeDriveCommand blk cyc) ∨ (opc = 8 ∧ c = .planPoint blk cyc) →
      ((s.region (regionOf blk)).bit RGN_BEAT_GAP = true → exec c s = .next s) ∧
      ((s.region (regionOf blk)).bit RGN_BEAT_GAP = false →
        (B.head = none → ∃ t, exec c s = .next t ∧ t.block blk = B.atRest) ∧
        (∀ x, B.head = some x →
          (x.cmd.opc ≠ opc → ∃ t, exec c s = .next t ∧ t.block blk = B.atRest) ∧
          (x.cmd.opc = opc → B.otherBad x.cmd = true → ∃ t, exec c s = .next t ∧ Refused B x (t.block blk))))) ∧
    (∀ x, (s.region (regionOf blk)).bit RGN_BEAT_GAP = false → B.head = some x → B.otherBad x.cmd = false →
      (∀ p r k, x.cmd.opc = 7 → B.seq.q = p ++ x :: r → (∀ y ∈ p, y.cmd.opc ≠ 7) → k = B.stake (x.cmd.stake % 64) →
        (k.poison = true ∨ x.cmd.count ≤ k.cnt → ∃ t, exec (.stakeSight blk cyc) s = .next t ∧ Completed B x (t.block blk) ∧
          (t.block blk).seq.voidSight = (B.seq.voidSight || k.poison || k.sightVoid s.frame.num)) ∧
        (k.poison = false → k.cnt < x.cmd.count → ∃ t, exec (.stakeSight blk cyc) s = .next t ∧
          (t.block blk).seq.q = B.seq.q.map (fun y => if y.id = x.id then { y with st := .issued { cyc := cyc } } else y) ∧
          t.block blk = { B.atRest with seq := (t.block blk).seq })) ∧
      (x.cmd.opc = 6 →
        (B.isOldest x = false → ∃ t, exec (.stakeDriveCommand blk cyc) s = .next t ∧ t.block blk = B.atRest) ∧
        (B.isOldest x = true → x.cmd.stake / 2 ^ 14 = 0 →
          (B.driveq.length < 14 → ∃ t, exec (.stakeDriveCommand blk cyc) s = .next t ∧ Completed B x (t.block blk) ∧
            (t.block blk).driveq = B.driveq ++ [{ stake := x.cmd.stake, inc := x.cmd.inc, void := B.seq.voidSeen
                                                  tag := s.frame.num % 2 ^ 16, parcel := B.rd RT_CTL_PARCEL
                                                  gen := some (s.env blk cyc).gen, by_ := .block blk }]) ∧
          (14 ≤ B.driveq.length → ∃ t, exec (.stakeDriveCommand blk cyc) s = .next t ∧ t.block blk = B.atRest)) ∧
        (B.isOldest x = true → x.cmd.stake / 2 ^ 14 ≠ 0 →
          ((B.leg (x.cmd.stake % 64)).drives.length < 4 → ∃ t d, exec (.stakeDriveCommand blk cyc) s = .next t ∧
            (t.block blk).seq.q = B.seq.q.filter (fun z => decide (z.id ≠ x.id)) ∧ d.inc = x.cmd.inc ∧ d.void = B.seq.voidSeen ∧
            d.tag = s.frame.num % 2 ^ 16 ∧ d.since = (cyc : Int) ∧ (t.block blk).leg (x.cmd.stake % 64) =
              { B.leg (x.cmd.stake % 64) with drives := (B.leg (x.cmd.stake % 64)).drives ++ [d] }) ∧
          (4 ≤ (B.leg (x.cmd.stake % 64)).drives.length →
            ∃ t, exec (.stakeDriveCommand blk cyc) s = .next t ∧ t.block blk = B.atRest))) ∧
      (x.cmd.opc = 8 → ∃ t, exec (.planPoint blk cyc) s = .next t ∧ Completed B x (t.block blk))) ∧
    (∀ x r, B.sight = some x → x.issued? = some r →
      ((B.stake (x.cmd.stake % 64)).tmode = 1 ∧ r.cyc + (B.stake (x.cmd.stake % 64)).tmo * 256 ≤ cyc →
        ∃ t, exec (.sightTimeout (.block blk cyc)) s = .next t ∧ Completed B x (t.block blk) ∧ (t.block blk).seq.voidSight = true ∧
          (t.block blk).bit STK_BSTAT_STALE = true ∧ (t.block blk).stakes = B.stakes) ∧
      ((B.stake (x.cmd.stake % 64)).tmode ≠ 1 ∨ cyc < r.cyc + (B.stake (x.cmd.stake % 64)).tmo * 256 →
        ∃ t, exec (.sightTimeout (.block blk cyc)) s = .next t ∧ t.block blk = B.atRest)) ∧
    (B.sight = none → ∃ t, exec (.sightTimeout (.block blk cyc)) s = .next t ∧ t.block blk = B.atRest) ∧
    (B.driveq = [] → ∃ t, exec (.driveApplied (.block blk cyc)) s = .next t ∧ t.block blk = B.atRest) ∧
    (∀ d q k, B.driveq = d :: q → k = B.stake d.stake →
      (d.gen = none ∨ d.parcel = 0 ∨ d.gen = some (s.genOf d.parcel) →
        ((d.parcel = k.parcel ∨ d.parcel = 0) ∧ k.en = true →
          (k.poison = false → k.cnt + d.inc ≤ 0x7FFFFFFF → ∃ t, exec (.driveApplied (.block blk cyc)) s = .next t ∧
            (t.block blk).driveq = q ∧ ((t.block blk).stake d.stake).cnt = k.cnt + d.inc ∧
            ((t.block blk).stake d.stake).void = (if d.void then (k.setVoid d.tag).void else k.void) ∧
            ∀ j, j ≠ d.stake → (t.block blk).stake j = B.stake j) ∧
          (k.poison = false → 0x7FFFFFFF < k.cnt + d.inc → ∃ t, exec (.driveApplied (.block blk cyc)) s = .next t ∧
            (t.block blk).driveq = q ∧ ((t.block blk).stake d.stake).cnt = 0x7FFFFFFF ∧ (t.block blk).bit STK_BSTAT_OVF = true) ∧
          (k.poison = true → ∃ t, exec (.driveApplied (.block blk cyc)) s = .next t ∧ t.block blk = { B.atRest with driveq := q })) ∧
        ((d.parcel ≠ k.parcel ∧ d.parcel ≠ 0) ∨ k.en = false → ∃ t, exec (.driveApplied (.block blk cyc)) s = .next t ∧
          (t.block blk).driveq = q ∧ (t.block blk).stakes = B.stakes ∧ (t.block blk).bit STK_BSTAT_TRESP = true)) ∧
      (∀ g, d.gen = some g → g ≠ s.genOf d.parcel → d.parcel ≠ 0 → ∃ t, exec (.driveApplied (.block blk cyc)) s = .next t ∧
        (t.block blk).driveq = q ∧ (t.block blk).stakes = B.stakes))

/-- CB_LOAD and CB_DROP (04 R103), SP_PWR_WRITE (05 R160, R161) and SCRUB_SLOT (05 R157, R159). -/
def Obligations.CodebooksAndScratchpadPower : Prop :=
  (∀ (blk i : Nat) (s : State) (B : Block), s.ready = true → s.reaches blk = true → B = s.block blk → i ≤ 31 →
    ((s.env blk 0).active = true → ∃ t u, exec (.cbLoad blk i) s = .next t ∧ exec (.cbDrop blk i) s = .next u ∧
      t.block blk = B.atRest ∧ u.block blk = B.atRest) ∧
    ((s.env blk 0).active = false → ∃ t u, exec (.cbLoad blk i) s = .next t ∧ exec (.cbDrop blk i) s = .next u ∧
      (i ≠ 31 → ((t.block blk).rd BLK_CB_VALID_VALID).testBit i = gridValid (B.grid i) ∧
        ((u.block blk).rd BLK_CB_VALID_VALID).testBit i = false ∧
        (gridValid (B.grid i) = false → (t.block blk).bit BLK_FMT_STAT_CBREF = true)) ∧
      (i = 31 → (t.block blk).bit BLK_FMT_STAT_CBREF = true ∧ (u.block blk).bit BLK_FMT_STAT_CBREF = true ∧
        (t.block blk).rd BLK_CB_VALID_VALID = B.rd BLK_CB_VALID_VALID ∧ (u.block blk).rd BLK_CB_VALID_VALID = B.rd BLK_CB_VALID_VALID) ∧
      t.block blk = { B.atRest with regs := (t.block blk).regs } ∧ u.block blk = { B.atRest with regs := (u.block blk).regs })) ∧
  (∀ (blk : Nat) (v : Word) (s : State) (B : Block), s.ready = true → s.reaches blk = true → B = s.block blk →
    ∃ t, exec (.spPwrWrite blk v) s = .next t ∧ t.block blk = { B.atRest with regs := (t.block blk).regs } ∧ ∀ g q, g < 8 →
      q = bitsOf v (2 * g + 1) (2 * g) →
      (q ≠ 3 → (q = 0 ∨ (s.env blk 0).active = false ∨ B.granUsed g = false) → (t.block blk).granuleReq g = q) ∧
      (q = 3 → (t.block blk).granuleReq g = B.granuleReq g) ∧
      (q ≠ 3 → q ≠ 0 → (s.env blk 0).active = true → B.granUsed g = true →
        (t.block blk).granuleReq g = B.granuleReq g ∧ (t.block blk).bit SP_STAT_PWRREF = true)) ∧
  (∀ (blk cyc : Nat) (us : List (Nat × Nat)) (s : State) (B : Block), blk < 4608 → s.runs blk = true → B = (s.blockAt blk cyc).upset us →
    (∀ l, s.scrubAt (regionOf blk) cyc = true → B.nextLine 9 B.scrubPos = some l → ∃ t, exec (.scrubSlot blk ⟨cyc, us⟩) s = .next t ∧
      (t.block blk).scrubPos = (l + 1) % 8192 ∧ (t.block blk).spm = B.spm ∧
      ∀ g, 16 * l ≤ g → g < 16 * l + 16 → B.ecc.get natZero g = 1 → (t.block blk).ecc.get natZero g = 0) ∧
    (s.scrubAt (regionOf blk) cyc = false ∨ B.nextLine 9 B.scrubPos = none →
      ∃ t, exec (.scrubSlot blk ⟨cyc, us⟩) s = .next t ∧ t.block blk = B.atRest))

/-- INBOUND_WORD, TILE_RECEIVED, DRIVE_WORD_RECEIVED at an endpoint, HELD_WORD_WRITE, HOLD_WINDOW_EXPIRY and DELIVERY_FULL (05 R138,
R139, 09 R263 to R266, 10 R290, R298). -/
def Obligations.InboundWords : Prop :=
  ∀ (blk cyc ep : Nat) (s : State) (B : Block), blk < 4608 → s.runs blk = true → B = s.blockAt blk cyc →
    (∀ w q lost W, B.legIn ep = true → (B.leg ep).stalled = false → takeFirst ep B.router.dlv = some (w, q) →
        W = { B with router := { B.router with dlv := q } } →
      (∃ t, exec (.inboundWord blk cyc ep lost) s = .next t ∧ t.block blk = (W.payloadIn (s.env blk cyc) ep w.data w.last lost).atRest ∧
        (∀ p r sl off, (B.leg ep).part = some p → p.drop = false → p.got < p.want → r = B.rd LEP_A0_RING ep →
            sl = B.dlvSlot ep p.dlv → off = p.hdr.part * B.partStride ep + 128 * p.got → off + 128 ≤ B.slotSize r →
            B.dlvFree ep p.dlv = true → lost = false → B.held.any (fun h => h.ring == r && h.slot == sl) = false →
            B.granOn (B.slotAddr r sl + off) (B.slotAddr r sl + off + 128) = true →
          (t.block blk).spm = B.spm.wrN (B.slotAddr r sl + off) (leBytes 128 w.data) ∧ (t.block blk).router.dlv = q)) ∧
      (w.data % 16 ≠ 15 → ∃ t, exec (.tileReceived blk cyc ep) s = .next t ∧
        t.block blk = (W.tileReceived (s.env blk cyc) ep (Hdr.ofBits w.data) w.last).atRest ∧
        (∀ h d n, h = Hdr.ofBits w.data → n = (B.leg ep).n64 → d = (B.leg ep).dlv n → (B.leg ep).part = none →
            h.leg = B.rd LEP_A0_LEG ep → extCount n h.seq = n → B.fmtOk ep h d = true → h.part ≤ B.rd LEP_A1_NPAN ep →
            h.part ∉ d.arrived → w.last = false →
          ∃ p, ((t.block blk).leg ep).part = some p ∧ p.dlv = n ∧ p.got = 0 ∧ p.drop = false ∧
            p.want = (if h.void then 0 else payloadWords (B.rd LEP_A1_TWORDS ep) h.fmt (B.rd LEP_A0_DFMT ep)))) ∧
      (w.data % 16 = 15 → ∃ t, exec (.tileReceived blk cyc ep) s = .next t ∧ t.block blk = B.atRest)) ∧
    (B.legIn ep = false ∨ (B.leg ep).stalled = true ∨ takeFirst ep B.router.dlv = none → ∀ lost, ∃ t u,
      exec (.inboundWord blk cyc ep lost) s = .next t ∧ exec (.tileReceived blk cyc ep) s = .next u ∧ t.block blk = B.atRest ∧
      u.block blk = B.atRest) ∧
    (∀ w q W, B.legIn ep = true → takeFirst ep B.router.dlv = some (w, q) → w.data % 16 = 15 →
        W = { B.setLeg ep { B.leg ep with stalled := false } with router := { B.router with dlv := q } } →
      (∀ b2, W.driveWord (s.env blk cyc) ep (Hdr.ofBits w.data) = some b2 →
        ∃ t, exec (.driveWordReceived (.endpoint blk cyc ep)) s = .next t ∧ t.block blk = b2.atRest) ∧
      (W.driveWord (s.env blk cyc) ep (Hdr.ofBits w.data) = none → ∃ t,
        exec (.driveWordReceived (.endpoint blk cyc ep)) s = .next t ∧ ((t.block blk).leg ep).stalled = true ∧
        (t.block blk).router = B.router ∧ (t.block blk).driveq = B.driveq) ∧
      (∀ h, h = Hdr.ofBits w.data → (B.leg ep).part = none → h.leg = B.rd LEP_A0_LEG ep → extCount (B.leg ep).dseq h.seq = (B.leg ep).dseq →
          B.legStake ep ≠ 0xFFFF → B.driveq.length < 14 → ∃ t, exec (.driveWordReceived (.endpoint blk cyc ep)) s = .next t ∧
        (t.block blk).router.dlv = q ∧ ((t.block blk).leg ep).dseq = (B.leg ep).dseq + 1 ∧
        (t.block blk).driveq = B.driveq ++ [{ stake := B.legStake ep % 64, inc := h.inc, void := h.void, tag := h.frame
                                              parcel := B.rd RT_CTL_PARCEL, gen := some (s.env blk cyc).gen, by_ := .endpoint blk ep }])) ∧
    (∀ h i rest, B.held.zipIdx.filter (fun x => !x.1.isVoid && B.heldReady x.2 x.1) = (h, i) :: rest →
      ∃ t, exec (.heldWordWrite blk cyc) s = .next t ∧ (t.block blk).held = B.held.eraseIdx i ∧
        (B.granOn (B.slotAddr h.ring h.slot + h.off) (B.slotAddr h.ring h.slot + h.off + 128) = true →
          (t.block blk).spm = B.spm.wrN (B.slotAddr h.ring h.slot + h.off) (leBytes 128 h.data))) ∧
    (B.held.zipIdx.filter (fun x => !x.1.isVoid && B.heldReady x.2 x.1) = [] →
      ∃ t, exec (.heldWordWrite blk cyc) s = .next t ∧ t.block blk = B.atRest) ∧
    (∀ f : Held → Bool, f = (fun h => B.slotFull h.ring h.slot && B.rd SP_RING_CTL_HWIN h.ring != 0 &&
        decide (h.since + (B.rd SP_RING_CTL_HWIN h.ring : Int) < cyc)) →
      (∀ h, B.held.find? f = some h → ∃ t, exec (.holdWindowExpiry blk cyc) s = .next t ∧ (t.block blk).held = [] ∧
        (t.block blk).bit SP_STAT_HBREACH = true ∧ (t.block blk).rd SP_LAST_SUBTYPE = 0x10 ∧ (t.block blk).spm = B.spm) ∧
      (B.held.find? f = none → ∃ t, exec (.holdWindowExpiry blk cyc) s = .next t ∧ t.block blk = B.atRest)) ∧
    (∀ d q, (B.leg ep).complete = d :: q →
      ((B.held.any (fun h => h.ep == ep && h.dlv == d.seq && !h.isVoid) || !B.dlvFree ep d.seq) = false →
        ∃ t, exec (.deliveryFull blk cyc ep) s = .next t ∧ ((t.block blk).leg ep).complete = q ∧
          ((t.block blk).leg ep).fullTo = (B.leg ep).fullTo + 1 ∧
          (t.block blk).slotFull (B.rd LEP_A0_RING ep) (B.dlvSlot ep d.seq) = true) ∧
      ((B.held.any (fun h => h.ep == ep && h.dlv == d.seq && !h.isVoid) || !B.dlvFree ep d.seq) = true →
        ∃ t, exec (.deliveryFull blk cyc ep) s = .next t ∧ t.block blk = B.atRest)) ∧
    ((B.leg ep).complete = [] → ∃ t, exec (.deliveryFull blk cyc ep) s = .next t ∧ t.block blk = B.atRest)

/-- TRANSFER_START (07 R196, R198, R199) in the stream slot that the edge entry plans (08 R232), and SIGHT_TIMEOUT at an engine's gate
(10 R294). -/
def Obligations.TransferStart : Prop :=
  ∀ (n cyc eng desc : Nat) (s : State) (G : Region) (e : REnv) (p op fr len : Nat) (c : XCount) (x : Xfer), n < 24 → G = s.region n →
    G.lost = false → e = s.renv n cyc → p = bitsOf (G.sd eng desc 0) 6 3 → op = bitsOf (G.sd eng desc 0) 2 0 →
    fr = e.frame + bitsOf (G.sd eng desc 0) 12 12 → len = G.sdLen eng desc → c = G.xcount eng desc fr →
    x = { eng := eng, desc := desc, k := c.started, frame := fr, parcel := p, hline := 0, started := false, since := cyc } →
    ((G.planAt cyc).2 ≠ some (eng, desc) ∨ op = 0 ∨ 4 ≤ op ∨ G.drain.contains p = true →
      ∃ t, exec (.transferStart n cyc eng desc) s = .next t ∧ t.region n = G.atRest) ∧
    ((G.planAt cyc).2 = some (eng, desc) → op ∈ [1, 2, 3] → G.drain.contains p = false →
      ∃ t, exec (.transferStart n cyc eng desc) s = .next t ∧ ((t.region n).xcount eng desc fr).started = c.started + 1 ∧
        (t.region n).reqs = G.reqs ∧ (t.region n).store = G.store ∧ (t.region n).stack = G.stack ∧ (t.region n).stakes = G.stakes ∧
        (4 ≤ G.pendingOf (fun d => match d with | .engine _ m _ => m == eng | _ => false) ∨ (bitsOf (G.sd eng desc 0) 7 7 = 1 ∧
            G.gate e (bitsOf (G.sd eng desc 4) 31 16) ((G.sd eng desc 5).toInt + c.started) = none) →
          (t.region n).xfers = G.xfers ++ [x]) ∧
        (∀ v, G.pendingOf (fun d => match d with | .engine _ m _ => m == eng | _ => false) < 4 →
            (bitsOf (G.sd eng desc 0) 7 7 = 0 ∧ v = false ∨ bitsOf (G.sd eng desc 0) 7 7 = 1 ∧
              G.gate e (bitsOf (G.sd eng desc 4) 31 16) ((G.sd eng desc 5).toInt + c.started) = some v) →
          (op ≠ 3 → { x with started := true, hline := bitsOf (G.sd eng desc 1) 27 0 + c.started * bitsOf (G.sd eng desc 2) 27 0
                             gvoid := v && op == 2 } ∈ (t.region n).xfers) ∧
          (∀ a h, op = 3 → a = 256 * bitsOf (G.sd eng desc 6) 17 0 + 4 * c.started → (G.rsEcc e a (a + 4)).2 = false →
              h = bitsOf (G.sd eng desc 1) 27 0 + leNat (G.store.rdN a 4) →
            (G.inWindow p h len = true → { x with started := true, hline := h } ∈ (t.region n).xfers) ∧
            (G.inWindow p h len = false → (t.region n).bit HBM_STAT_WINV = true)))) ∧
    (∀ y, G.xfers.find? (fun z => z.eng == eng && z.desc == desc && !z.started && !z.dead) = some y →
      (bitsOf (G.sd eng desc 0) 7 7 = 1 ∧ G.timeUp e (bitsOf (G.sd eng desc 4) 31 16) y.since false = true →
        ∃ t, exec (.sightTimeout (.engine n cyc eng desc)) s = .next t ∧ (t.region n).bit STK_RSTAT_STALE = true ∧
          (t.region n).store = G.store ∧ (t.region n).stack = G.stack ∧ (t.region n).reqs = G.reqs ∧
          (op ≠ 3 → { y with started := true, hline := bitsOf (G.sd eng desc 1) 27 0 + y.k * bitsOf (G.sd eng desc 2) 27 0
                             gvoid := op == 2 } ∈ (t.region n).xfers)) ∧
      (bitsOf (G.sd eng desc 0) 7 7 = 0 ∨ G.timeUp e (bitsOf (G.sd eng desc 4) 31 16) y.since false = false →
        ∃ t, exec (.sightTimeout (.engine n cyc eng desc)) s = .next t ∧ t.region n = G.atRest)) ∧
    (G.xfers.find? (fun z => z.eng == eng && z.desc == desc && !z.started && !z.dead) = none →
      ∃ t, exec (.sightTimeout (.engine n cyc eng desc)) s = .next t ∧ t.region n = G.atRest)

/-- REQUEST_ACCEPTED, LINE_LANDED and REQUEST_ABANDON (07 R200 to R203, R205, R207, R208, R211). -/
def Obligations.StackRequests : Prop :=
  ∀ (n cyc eng desc : Nat) (s : State) (G : Region) (e : REnv) (x : Xfer), n < 24 → G = s.region n → G.lost = false → e = s.renv n cyc →
    (∀ f : Xfer → Bool, f = (fun y => y.eng == eng && y.desc == desc && y.started && !y.dead && decide (y.asked < G.sdLen eng desc)) →
      (G.xfers.find? f = none ∨ G.stopped = true →
        ∃ t, exec (.requestAccepted n cyc eng desc) s = .next t ∧ t.region n = G.atRest) ∧
      (∀ m h w, G.xfers.find? f = some x → G.stopped = false → w = (G.sdOp eng desc == 2) → h = x.hline + x.asked →
          m = min (min 8 (G.sdLen eng desc - x.asked)) (8 - h % 8) →
        ((if w then 30 else 60) ≤ G.held eng w → ∃ t, exec (.requestAccepted n cyc eng desc) s = .next t ∧
          t.region n = (G.setXfer { x with wait := some (x.wait.getD cyc) }).atRest) ∧
        (w = false → G.held eng w < 60 → ∃ t q, exec (.requestAccepted n cyc eng desc) s = .next t ∧
          (t.region n).reqs = G.reqs ++ [q] ∧ q.eng = eng ∧ q.desc = desc ∧ q.k = x.k ∧ q.frame = x.frame ∧ q.first = x.asked ∧
          q.n = m ∧ q.write = false ∧ q.data = G.stack.rdN (256 * h) (256 * m) ∧ (t.region n).store = G.store ∧
          (t.region n).stack = G.stack ∧ { x with asked := x.asked + m, wait := none } ∈ (t.region n).xfers) ∧
        (w = true → G.held eng w < 30 → ∃ t q, exec (.requestAccepted n cyc eng desc) s = .next t ∧
          (t.region n).reqs = G.reqs ++ [q] ∧ q.eng = eng ∧ q.desc = desc ∧ q.k = x.k ∧ q.frame = x.frame ∧ q.first = x.asked ∧
          q.n = m ∧ q.write = true ∧ (t.region n).store = G.store ∧
          (t.region n).stack = G.stack.wrN (256 * h) (G.store.rdN (G.xStore x x.asked) (256 * m)) ∧
          (x.gvoid = true → ∀ l, 8 * h ≤ l → l < 8 * (h + m) → (t.region n).stackEcc.get natZero l = 3)))) ∧
    (∀ (k first : Nat) (f : Req → Bool), f = (fun r => r.eng == eng && r.desc == desc && r.k == k && r.first == first) →
      (∀ r, G.reqs.find? (fun r => f r && (r.write || !G.stopped)) = some r →
        ∃ t, exec (.lineLanded n cyc eng desc k first) s = .next t ∧ (t.region n).reqs = G.reqs.erase r ∧
          (t.region n).stack = G.stack ∧
          (∀ z, G.xfers.find? (fun y => y.isX eng desc k r.frame && y.started) = some z →
            (r.write = false → z.dead = false → z.landed < G.sdLen eng desc →
              (t.region n).store = G.store.wrN (G.xStore z r.first) r.data ∧
              ∀ y ∈ (t.region n).xfers, y.isX eng desc k r.frame = true →
                y.landed = z.landed + r.n ∧ y.void = (z.void || r.bad.any (fun b => decide (2 ≤ b.2)))) ∧
            (r.write = true ∨ z.dead = true ∨ G.sdLen eng desc ≤ z.landed → (t.region n).store = G.store)) ∧
          (G.xfers.find? (fun y => y.isX eng desc k r.frame && y.started) = none → (t.region n).store = G.store)) ∧
      (G.reqs.find? (fun r => f r && (r.write || !G.stopped)) = none →
        ∃ t, exec (.lineLanded n cyc eng desc k first) s = .next t ∧ t.region n = G.atRest) ∧
      (∀ r, G.reqs.find? f = some r →
        ∃ t, exec (.requestAbandon n cyc eng desc k first) s = .next t ∧ (t.region n).bit HBM_STAT_IFTMO = true ∧
          (t.region n).store = G.store ∧ (t.region n).stack = G.stack ∧ (t.region n).reqs = G.reqs.erase r ∧
          (∀ z, G.xfers.find? (fun y => y.isX eng desc k r.frame && y.started) = some z →
            ∀ y ∈ (t.region n).xfers, y.isX eng desc k r.frame = true → y.void = true ∧ y.asked = G.sdLen eng desc ∧
              y.landed = G.sdLen eng desc)) ∧
      (G.reqs.find? f = none → ∃ t, exec (.requestAbandon n cyc eng desc k first) s = .next t ∧ t.region n = G.atRest))

/-- STORE_STREAM_ACCESS, STORE_IN_TILE, SIGHT_TIMEOUT and DRIVE_WORD_RECEIVED at a store stream (08 R232 to R234, 09 R269, R270, R574, 10
R290, R294, R298). -/
def Obligations.StoreStreams : Prop :=
  ∀ (n cyc i port len x : Nat) (s : State) (G : Region) (e : REnv) (wr : Bool) (L : SMap FWord) (w0 w1 : FWord), n < 24 →
    G = s.region n → G.lost = false → e = s.renv n cyc → len = G.ssLen i → x = (G.strm i).j % len → wr = (bitsOf (G.ss i 0) 22 22 == 1) →
    w0 = G.links.get noWord (32 + 2 * port) → w1 = G.links.get noWord (33 + 2 * port) →
    L = (G.links.put noWord (32 + 2 * port) (noWord 0)).put noWord (33 + 2 * port) (noWord 0) →
    ((G.planAt cyc).1.contains (port, i) = false → ∃ t, exec (.storeStreamAccess n cyc i port) s = .next t ∧ t.region n = G.atRest) ∧
    ((G.planAt cyc).1.contains (port, i) = true →
      (len = 0 ∨ G.drain.contains (G.ssParcel i) = true ∨
          (x = 0 ∧ 4 ≤ G.pendingOf (fun d => match d with | .stream _ m => m == i | _ => false)) ∨
          G.took.contains ((cyc : Nat), G.ssAddr i / 256 % 16) = true →
        ∃ t, exec (.storeStreamAccess n cyc i port) s = .next t ∧
          t.region n = { G.atRest with links := if wr then L else G.links }) ∧
      (len ≠ 0 → G.drain.contains (G.ssParcel i) = false →
          ¬(x = 0 ∧ 4 ≤ G.pendingOf (fun d => match d with | .stream _ m => m == i | _ => false)) →
          G.took.contains ((cyc : Nat), G.ssAddr i / 256 % 16) = false →
        (G.ssGate e i = none → ∃ t, exec (.storeStreamAccess n cyc i port) s = .next t ∧
          t.region n = { (G.setStrm i { G.strm i with since := some ((G.strm i).since.getD cyc) }).atRest with
                         links := if wr then L else G.links }) ∧
        (∀ v, G.ssGate e i = some v → ∃ t, exec (.storeStreamAccess n cyc i port) s = .next t ∧
          ((t.region n).strm i).j = (G.strm i).j + 1 ∧ ((t.region n).strm i).since = none ∧ (t.region n).stack = G.stack ∧
          (t.region n).took.contains (cyc, G.ssAddr i / 256 % 16) = true ∧
          (wr = false → (t.region n).store = G.store ∧ ((t.region n).links.get noWord (16 + port)).v = (x == 0) ∧
            (x ≠ 0 → (G.strm i).tvoid = false → G.bit STRM_HDR_HSRC i = false → (G.rsEcc e (G.ssAddr i) (G.ssAddr i + 256)).2 = false →
              port < 8 → ∀ k, k < 2 → ((t.region n).links.get noWord (2 * port + k)).v = true ∧
                ((t.region n).links.get noWord (2 * port + k)).data = leNat (G.store.rdN (G.ssAddr i + 128 * k) 128) ∧
                ((t.region n).links.get noWord (2 * port + k)).last = decide (2 * x + k + 1 = 2 * len))) ∧
          (wr = true → (t.region n).links = L ∧
            (w0.v = false → w1.v = false → (t.region n).store = G.store) ∧
            (∀ p, (G.strm i).part = some p → p.got + 2 ≤ p.want → w0.v = true → w1.v = true → w0.last = false → w1.last = false →
              (t.region n).store = (G.store.wrN (G.ssAddr i) (leBytes 128 w0.data)).wrN (G.ssAddr i + 128) (leBytes 128 w1.data) ∧
              ((t.region n).strm i).part = some { p with got := p.got + 2 }))))) ∧
    (∀ (got : Option FWord) (w : FWord) (h : Hdr), w = got.getD w0 → h = Hdr.ofBits w.data →
      (w.v = false ∨ wr = false ∨ h.fmt = 15 ∨ len = 0 → ∃ t, exec (.storeInTile n cyc i port got) s = .next t ∧
        t.region n = { G.atRest with links := G.links.put noWord (32 + 2 * port) (noWord 0) }) ∧
      (w.v = true → wr = true → h.fmt ≠ 15 → len ≠ 0 → ∃ t, exec (.storeInTile n cyc i port got) s = .next t ∧
        (t.region n).store = G.store ∧ (t.region n).stack = G.stack ∧
        (t.region n).links = G.links.put noWord (32 + 2 * port) (noWord 0) ∧
        (w.last = true → ((t.region n).strm i).part = none) ∧
        (w.last = false → ∃ p, ((t.region n).strm i).part = some p ∧ p.got = 0 ∧ p.want = G.ssWant i len h.fmt ∧
          p.hdr.void = (h.void || decide (h.leg ≠ G.rd STRM_HDR_LEG i) || !G.ssFmtOk i h.fmt) ∧
          (h.leg ≠ G.rd STRM_HDR_LEG i → (t.region n).rd STRM_FAULT_SUBTYPE = 0x54 ∧ (t.region n).rd STRM_FAULT_STRM = i % 64) ∧
          (h.leg = G.rd STRM_HDR_LEG i → G.ssFmtOk i h.fmt = false →
            (t.region n).rd STRM_FAULT_SUBTYPE = 0x52 ∧ (t.region n).rd STRM_FAULT_STRM = i % 64)))) ∧
    (∀ t0, (G.strm i).since = some t0 →
      (G.timeUp e (bitsOf (G.ss i 2) 15 0) t0 false = true → ∃ t, exec (.sightTimeout (.stream n cyc i)) s = .next t ∧
        (t.region n).bit STK_RSTAT_STALE = true ∧ (t.region n).strm i = { G.strm i with forced := true, gvoid := true, since := none }) ∧
      (G.timeUp e (bitsOf (G.ss i 2) 15 0) t0 false = false → ∃ t, exec (.sightTimeout (.stream n cyc i)) s = .next t ∧
        t.region n = G.atRest)) ∧
    ((G.strm i).since = none → ∃ t, exec (.sightTimeout (.stream n cyc i)) s = .next t ∧ t.region n = G.atRest) ∧
    (∀ (w : FWord) (h : Hdr), h = Hdr.ofBits w.data →
      (w.v = false ∨ h.fmt ≠ 15 → exec (.driveWordReceived (.stream n cyc i w)) s = .next s) ∧
      (w.v = true → h.fmt = 15 → (G.strm i).part = none → G.rd STRM_STK_ARRIVE i / 2 ^ 14 = 1 →
        (G.strm i).waits ≠ [] ∨ 32 ≤ G.driveq.length → ∃ t, exec (.driveWordReceived (.stream n cyc i w)) s = .next t ∧
          (t.region n).driveq = G.driveq ∧ (t.region n).strm i = { G.strm i with waits := (G.strm i).waits ++ [h] }) ∧
      (w.v = true → h.fmt = 15 → (G.strm i).part = none →
          G.rd STRM_STK_ARRIVE i / 2 ^ 14 ≠ 1 ∨ (G.strm i).waits = [] ∧ G.driveq.length < 32 →
        (h.leg ≠ G.rd STRM_HDR_LEG i → ∃ t, exec (.driveWordReceived (.stream n cyc i w)) s = .next t ∧
          (t.region n).driveq = G.driveq ∧ (t.region n).rd STRM_FAULT_SUBTYPE = 0x54) ∧
        (h.leg = G.rd STRM_HDR_LEG i → extCount (G.strm i).dseq h.seq < (G.strm i).dseq →
          ∃ t, exec (.driveWordReceived (.stream n cyc i w)) s = .next t ∧ (t.region n).driveq = G.driveq ∧
            (t.region n).strm i = G.strm i) ∧
        (h.leg = G.rd STRM_HDR_LEG i → (G.strm i).dseq ≤ extCount (G.strm i).dseq h.seq →
          ∃ t, exec (.driveWordReceived (.stream n cyc i w)) s = .next t ∧
            (((t.region n).strm i).dseq : Int) = extCount (G.strm i).dseq h.seq + 1 ∧
            ((G.strm i).dseq < extCount (G.strm i).dseq h.seq → (t.region n).bit STK_RSTAT_DSEQ = true) ∧
            (G.rd STRM_STK_ARRIVE i / 2 ^ 14 ≠ 1 → (t.region n).driveq = G.driveq) ∧
            (G.rd STRM_STK_ARRIVE i / 2 ^ 14 = 1 → (t.region n).driveq = G.driveq ++
              [{ stake := G.rd STRM_STK_ARRIVE i % 4096, inc := h.inc, void := h.void, tag := h.frame, parcel := G.ssParcel i
                 gen := some (e.gens.getD (G.ssParcel i) 0), by_ := .stream n i }]))))

/-- STORE_SCRUB, PATROL_SCRUB, MEM_ZERO_START, ZERO_FILL_DONE and DOUBLED_REFRESH. -/
def Obligations.ScrubsAndZeroFill : Prop :=
  ∀ (n cyc : Nat) (s : State) (G : Region), n < 24 → G = s.region n → G.lost = false →
    (∀ us S, S = G.upset us → ∃ t, exec (.storeScrub n ⟨cyc, us⟩) s = .next t ∧ (t.region n).scrubPos = (G.scrubPos + 1) % 262144 ∧
      (t.region n).store = G.store ∧ (t.region n).stack = G.stack ∧
      (∀ x ∈ (t.region n).storeEcc, x ∈ S.storeEcc ∧ (x.2 = 1 → G.fixes.contains x.1 = false)) ∧
      (∀ x ∈ S.storeEcc, 16 * G.scrubPos ≤ x.1 → x.1 < 16 * G.scrubPos + 16 → x.2 = 1 → G.fixes.contains x.1 = false →
        (t.region n).fixes.contains x.1 = true)) ∧
    (∀ us S, S = G.stkUpset us → ∃ t, exec (.patrolScrub n ⟨cyc, us⟩) s = .next t ∧
      (t.region n).patrolPos = (if G.patrolPos + 1 < 150994944 then G.patrolPos + 1 else 0) ∧ (t.region n).store = G.store ∧
      (t.region n).stack = G.stack ∧ (∀ w, 8 * G.patrolPos ≤ w → w < 8 * G.patrolPos + 8 → S.stackEcc.get natZero w = 1 →
        (t.region n).stackEcc.get natZero w = 0) ∧
      (G.patrolPos = 150994943 → G.rd HBM_PATROL_PASSES < 0xFFFF →
        (t.region n).rd HBM_PATROL_PASSES = G.rd HBM_PATROL_PASSES + 1)) ∧
    (∀ v base tgt, tgt = MEM_ZERO_CTL_TGT.of v → base = (if tgt = 1 then G.rd MEM_ZERO_BASE_BASE % 2 ^ 18 else G.rd MEM_ZERO_BASE_BASE) →
      (MEM_ZERO_CTL_START.on v = true → G.fill = none →
        (G.rd MEM_ZERO_LEN_LEN = 0 ∨ (s.renv n 0).clearing = true ∨ G.fillBad (s.renv n 0) tgt base (G.rd MEM_ZERO_LEN_LEN) = true →
          ∃ t, exec (.memZeroStart n v) s = .next t ∧ (t.region n).bit MEM_ZERO_CTL_REFUSED = true ∧ (t.region n).fill = none ∧
            t.region n = { G.atRest with regs := (t.region n).regs }) ∧
        (G.rd MEM_ZERO_LEN_LEN ≠ 0 → (s.renv n 0).clearing = false → G.fillBad (s.renv n 0) tgt base (G.rd MEM_ZERO_LEN_LEN) = false →
          ∃ t, exec (.memZeroStart n v) s = .next t ∧ (t.region n).bit MEM_ZERO_CTL_BUSY = true ∧
            (t.region n).fill = some { tgt := tgt, base := base, len := G.rd MEM_ZERO_LEN_LEN } ∧
            t.region n = { G.atRest with regs := (t.region n).regs, fill := (t.region n).fill })) ∧
      (MEM_ZERO_CTL_START.on v = true → ∀ f, G.fill = some f → ∃ t, exec (.memZeroStart n v) s = .next t ∧
        (t.region n).bit MEM_ZERO_CTL_REFUSED = true ∧ t.region n = { G.atRest with regs := (t.region n).regs }) ∧
      (MEM_ZERO_CTL_START.on v = false → ∃ t, exec (.memZeroStart n v) s = .next t ∧
        t.region n = { G.atRest with regs := (t.region n).regs } ∧ (G.fill = none → (t.region n).rd MEM_ZERO_CTL_TGT = tgt) ∧
        (MEM_ZERO_CTL_DONE.on v = true → (t.region n).bit MEM_ZERO_CTL_DONE = false) ∧
        (MEM_ZERO_CTL_REFUSED.on v = true → (t.region n).bit MEM_ZERO_CTL_REFUSED = false))) ∧
    (∀ f, G.fill = some f → ∃ t, exec (.zeroFillDone n cyc) s = .next t ∧ (t.region n).fill = none ∧
      (t.region n).bit MEM_ZERO_CTL_BUSY = false ∧ (t.region n).bit MEM_ZERO_CTL_DONE = true ∧
      (∀ a, (t.region n).store.rd a = if f.tgt = 1 ∧ 256 * f.base ≤ a ∧ a < 256 * (f.base + f.len) then 0 else G.store.rd a) ∧
      (∀ a, (t.region n).stack.rd a = if f.tgt ≠ 1 ∧ 256 * f.base ≤ a ∧ a < 256 * (f.base + f.len) then 0 else G.stack.rd a)) ∧
    (G.fill = none → ∃ t, exec (.zeroFillDone n cyc) s = .next t ∧ t.region n = G.atRest) ∧
    (∀ hot, ∃ t, exec (.doubledRefresh n hot) s = .next t ∧ (t.region n).bit HBM_STAT_HOT = hot ∧
      t.region n = { G.atRest with regs := (t.region n).regs })

/-- DRIVE_APPLIED at a region (10 R283, R286, R292, R293, R298). -/
def Obligations.RegionDrives : Prop :=
  ∀ (n cyc : Nat) (s : State) (G : Region), n < 24 → G = s.region n → G.lost = false →
    (G.driveq = [] → (∀ x ∈ G.xfers, x.started = true ∨ x.dead = true) → (∀ i, i < 64 → (G.strm i).waits = []) →
      ∃ t, exec (.driveApplied (.region n cyc)) s = .next t ∧ t.region n = G.atRest) ∧
    (∀ (d : Drive) q k gen y, G.driveq = d :: q → k = G.stake d.stake → gen = (s.renv n cyc).gens.getD d.parcel 0 →
        y = (if d.void then k.setVoid d.tag else k) →
      ∃ t, exec (.driveApplied (.region n cyc)) s = .next t ∧ (∃ more, (t.region n).driveq = q ++ more) ∧
        (∀ j, j ≠ d.stake → (t.region n).stake j = G.stake j) ∧
        (∀ g, d.gen = some g → g ≠ gen → d.parcel ≠ 0 → (t.region n).stake d.stake = k) ∧
        (d.gen = none ∨ d.gen = some gen ∨ d.parcel = 0 →
          (d.parcel ≠ k.parcel ∧ d.parcel ≠ 0 ∨ k.en = false →
            (t.region n).stake d.stake = k ∧ (t.region n).bit STK_RSTAT_TRESP = true) ∧
          ((d.parcel = k.parcel ∨ d.parcel = 0) → k.en = true → k.poison = true → (t.region n).stake d.stake = k) ∧
          ((d.parcel = k.parcel ∨ d.parcel = 0) → k.en = true → k.poison = false →
            (k.cnt + d.inc ≤ 0x7FFFFFFF → (t.region n).stake d.stake = { y with cnt := k.cnt + d.inc }) ∧
            (0x7FFFFFFF < k.cnt + d.inc → (t.region n).stake d.stake = { y with cnt := 0x7FFFFFFF, ovf := true } ∧
              (t.region n).bit STK_RSTAT_OVF = true))))

/-- WORD_ARRIVAL (08 R217, R219, R222, R223, R227, R230 to R233, R237, R239, R246). -/
def Obligations.FabricWords : Prop :=
  (∀ (blk cyc src order sent o : Nat) (got : Option FWord) (w : FWord) (s : State) (e : Env) (B : Block) (pat : Nat), blk < 4608 →
    1 ≤ src → src ≤ 4 → e = s.env blk cyc → B = s.blockAt blk cyc → pat = (s.region (regionOf blk)).pat →
    (beyond blk (src - 1) = .none → exec (.wordArrival (.input blk cyc src order sent) got) s = .next s) ∧
    (∀ k, beyond blk (src - 1) = .block k →
        w = got.getD (if s.noCrossing blk k then noWord 0 else (s.block k).router.out.get noWord (opposite (src - 1))) →
        o = (if got.isNone then (s.block k).router.order.get natZero (opposite (src - 1)) else order) →
      (e.easeCycle = true → (s.block blk).easeWaits e src w o = true →
        exec (.wordArrival (.input blk cyc src order sent) got) s = .next s) ∧
      ((e.easeCycle && (s.block blk).easeWaits e src w o) = false → ∃ t, exec (.wordArrival (.input blk cyc src order sent) got) s = .next t ∧
        (t.block k).router.out.get noWord (opposite (src - 1)) = noWord 0 ∧ (∀ j, j ≠ blk → j ≠ k → t.block j = s.block j) ∧
        ((∀ m slot, segBetween blk k = some (m, slot) → w.v = true → w.stamp = sent % 4) →
          t.block blk = (B.wordArrival e pat src w o).atRest) ∧
        (∀ m slot, segBetween blk k = some (m, slot) → w.v = true → w.stamp ≠ sent % 4 → t.block blk = s.block blk ∧
          (t.region m).bit XSEG_STAT_SLIP slot = true ∧ (t.region m).bit XSEG_STAT_PINNED slot = true))) ∧
    (∀ m r, beyond blk (src - 1) = .edge m r → e.easeCycle = false → w = got.getD ((s.region m).takeEdge cyc r).1 →
      ∃ t, exec (.wordArrival (.input blk cyc src order sent) got) s = .next t ∧
        t.block blk = (B.wordArrival e pat src w (if got.isNone then 0 else order)).atRest ∧
        (t.region m).links = ((s.region m).takeEdge cyc r).2.links ∧ (t.region m).lanes = ((s.region m).takeEdge cyc r).2.lanes ∧
        (∀ j, j ≠ blk → t.block j = s.block j)) ∧
    (beyond blk (src - 1) = .shore ∨ (∃ m r, beyond blk (src - 1) = .edge m r) ∧ e.easeCycle = true → w = got.getD (noWord 0) →
        o = (if got.isNone then 0 else order) →
      (e.easeCycle = true → (s.block blk).easeWaits e src w o = true →
        exec (.wordArrival (.input blk cyc src order sent) got) s = .next s) ∧
      ((e.easeCycle && (s.block blk).easeWaits e src w o) = false → ∃ t, exec (.wordArrival (.input blk cyc src order sent) got) s = .next t ∧
        t.block blk = (B.wordArrival e pat src w o).atRest ∧ (∀ j, j ≠ blk → t.block j = s.block j)))) ∧
  (∀ (e : Env) (b : Block) (pat src order : Nat) (w : FWord) (entry : Word), e.easeCycle = false →
    entry = b.slotEntry pat (e.cyc % 256) →
    (w.v = false → b.wordArrival e pat src w order = b) ∧
    (w.v = true → w.par ≠ parOf w.data →
      (b.wordArrival e pat src w order).bit RT_STAT_PERR = true ∧ (b.wordArrival e pat src w order).router = b.router) ∧
    (w.v = true → w.par = parOf w.data →
      (w.eas = true → w.parcel ≠ 0 →
        (b.wordArrival e pat src w order).bit RT_STAT_EASV = true ∧ (b.wordArrival e pat src w order).router = b.router) ∧
      (w.eas = false ∨ w.parcel = 0 →
        (w.parcel ≠ b.rd RT_CTL_PARCEL →
          (b.wordArrival e pat src w order).bit RT_STAT_PDROP = true ∧ (b.wordArrival e pat src w order).router = b.router) ∧
        (w.parcel = b.rd RT_CTL_PARCEL → w.parcel ≠ 0 → w.gen ≠ e.gen →
          (b.wordArrival e pat src w order).bit RT_STAT_GDROP = true ∧ (b.wordArrival e pat src w order).router = b.router) ∧
        (w.parcel = b.rd RT_CTL_PARCEL → (w.parcel = 0 ∨ w.gen = e.gen) →
          (entryOuts entry src = [] →
            (b.wordArrival e pat src w order).bit RT_STAT_LOST = true ∧ (b.wordArrival e pat src w order).router = b.router) ∧
          (∀ o, o < 4 → entryOuts entry src = [o] →
            (b.wordArrival e pat src w order).router.out.get noWord o = { w with stamp := if crossing e.blk o then e.cyc % 4 else 0 } ∧
            (∀ p, p ≠ o → (b.wordArrival e pat src w order).router.out.get noWord p = b.router.out.get noWord p) ∧
            (b.wordArrival e pat src w order).router.dlv = b.router.dlv ∧ (b.wordArrival e pat src w order).spm = b.spm) ∧
          (entryOuts entry src = [4] → e.fenced = false → (b.leg (bitsOf entry 20 15)).stalled = false →
            (b.wordArrival e pat src w order).router.dlv = b.router.dlv ++ [(bitsOf entry 20 15, w)] ∧
            (b.wordArrival e pat src w order).router.out = b.router.out))))) ∧
  (∀ (e : Env) (b : Block) (pat src order : Nat) (w : FWord), e.easeCycle = true → w.v = true → w.par = parOf w.data →
    (w.eas = true → w.parcel = 0 → b.wordArrival e pat src w order = b.easement e src w order) ∧
    (w.eas = false ∨ w.parcel ≠ 0 →
      (b.wordArrival e pat src w order).bit RT_STAT_EASV = true ∧ (b.wordArrival e pat src w order).router = b.router)) ∧
  (∀ (blk cyc : Nat) (got : Option FWord) (s : State) (G : Region) (e : Env), blk < 4608 → G = s.region (regionOf blk) → e = s.env blk cyc →
    (G.lost = true → exec (.wordArrival (.launch blk cyc) got) s = .next s) ∧
    (G.lost = false → e.easeCycle = true → ∃ t, exec (.wordArrival (.launch blk cyc) got) s = .next t ∧
      t.block blk = ((s.block blk).easeSend e).atRest) ∧
    (G.lost = false → e.easeCycle = false →
      (G.stopped = true → exec (.wordArrival (.launch blk cyc) got) s = .next s) ∧
      (G.stopped = false → s.runs blk = true → ∃ t, exec (.wordArrival (.launch blk cyc) got) s = .next t ∧
        t.block blk = ((s.blockAt blk cyc).wordLaunch e G.pat).atRest) ∧
      (G.stopped = false → s.runs blk = false →
        ((G.isFenced (indexOf blk) && s.activeP ((s.block blk).rd RT_CTL_PARCEL)) = true →
          ∃ t, exec (.wordArrival (.launch blk cyc) got) s = .next t ∧ t.block blk = ((s.block blk).standInLaunch e G.pat).atRest) ∧
        ((G.isFenced (indexOf blk) && s.activeP ((s.block blk).rd RT_CTL_PARCEL)) = false →
          exec (.wordArrival (.launch blk cyc) got) s = .next s)))) ∧
  (∀ (n cyc row k d sel : Nat) (got : Option FWord) (w : FWord) (s : State) (ease : Bool), n < 24 → row < 16 → (k, d) = edgeBlock n row →
    w = got.getD ((s.block k).router.out.get noWord d) → ease = (s.env k cyc).easeCycle → sel = (s.region n).selector cyc row true →
    ∃ t, exec (.wordArrival (.edge n cyc row) got) s = .next t ∧ (t.block k).router.out.get noWord d = noWord 0 ∧
      (∀ j, j ≠ k → t.block j = s.block j) ∧
      (w.v = false → t.regions = s.regions) ∧
      (w.v = true → w.par ≠ parOf w.data → (s.region n).recq.length < 64 → (∃ r, r.cls = 8 ∧ r.subtype = 0x40 ∧
        t.region n = { (s.region n).atRest with recq := (s.region n).recq ++ [r], srcseq := (s.region n).srcseq + 1 })) ∧
      (w.v = true → w.par = parOf w.data →
        (w.eas = true → w.parcel = 0 → ease = true → t.regions = s.regions) ∧
        (w.eas = true ∧ w.parcel ≠ 0 ∨ w.eas = false ∧ ease = true → (s.region n).recq.length < 64 → (∃ r, r.cls = 2 ∧ r.subtype = 0x45 ∧
          t.region n = { (s.region n).atRest with recq := (s.region n).recq ++ [r], srcseq := (s.region n).srcseq + 1 })) ∧
        ((w.eas = false ∨ w.parcel = 0) → ease = false →
          (w.parcel ≠ (s.block k).rd RT_CTL_PARCEL → (s.region n).recq.length < 64 → (∃ r, r.cls = 2 ∧ r.subtype = 0x44 ∧
            t.region n = { (s.region n).atRest with recq := (s.region n).recq ++ [r], srcseq := (s.region n).srcseq + 1 })) ∧
          (w.parcel = (s.block k).rd RT_CTL_PARCEL → w.parcel ≠ 0 → w.gen ≠ s.genOf w.parcel → t.regions = s.regions) ∧
          (w.parcel = (s.block k).rd RT_CTL_PARCEL → (w.parcel = 0 ∨ w.gen = s.genOf w.parcel) →
            (sel = 1 → t.region n = { s.region n with links := (s.region n).links.put noWord (32 + row) w }) ∧
            (sel = 0 ∨ 7 ≤ sel → t.regions = s.regions) ∧
            (∀ q, sel = q + 2 → q < 5 →
              (s.octetOf n q = none → t.regions = s.regions) ∧
              (∀ o, s.octetOf n q = some o →
                (s.lane LANE_OCT_KIND o = 2 → t.region n = { s.region n with laneOut := laneAdd (s.region n).laneOut q w }) ∧
                (s.lane LANE_OCT_KIND o ≠ 2 → s.bit LANE_STAT_LOCK o = false → t.regions = s.regions) ∧
                (s.lane LANE_OCT_KIND o ≠ 2 → s.bit LANE_STAT_LOCK o = true → ∀ m, m = (s.farEnd o n q).1 →
                  t.region m = { s.region m with lanes := laneAdd (s.region m).lanes (s.farEnd o n q).2 w }))))))) ∧
  (∀ (die lx cyc k : Nat) (got : Option FWord) (w : FWord) (s : State), die < 4 → lx < 12 → k = chipBlk (6 * die) lx →
    w = got.getD ((s.block k).router.out.get noWord 1) →
    ∃ t, exec (.wordArrival (.shore die lx cyc) got) s = .next t ∧ (t.block k).router.out.get noWord 1 = noWord 0 ∧
      (∀ j, j ≠ k → t.block j = s.block j) ∧ t.regions = s.regions ∧
      t.mc.shore = (if w.v = true ∧ w.par = parOf w.data then s.mc.shore.put noWord (12 * die + lx) w else s.mc.shore))

/-- MARGIN_SAMPLE, SEGMENT_RECAL, RECAL_DONE and CIRCUIT_LOCK_LOST (08 R240, R244, R245, R251, 20 R532). -/
def Obligations.SegmentsAndCircuits : Prop :=
  (∀ (n slot ps seen : Nat) (s : State), n < 24 → slot < 2 →
    seen = ps - (if (s.pert.acting.getD 0 false && s.rd PERT_XDLY_REGION == n && s.rd PERT_XDLY_SLOT == slot) = true
      then 5 * s.rd PERT_XDLY_DELAY else 0) →
    (segExists n slot = false ∨ 40 ≤ seen → exec (.marginSample n slot ps) s = .next s) ∧
    (segExists n slot = true → seen < 40 → ∃ t, exec (.marginSample n slot ps) s = .next t ∧
      (t.region n).bit XSEG_STAT_MLOW slot = true ∧ (t.region n).bit XSEG_STAT_PINNED slot = true ∧
      (∀ m ∈ segRegions n slot, (t.region m).bit RGN_LOCK_PINNED = true) ∧ t.blocks = s.blocks ∧ t.ports = s.ports)) ∧
  (∀ (n slot : Nat) (s : State), n < 24 → slot < 2 →
    (segExists n slot = false → exec (.segmentRecal n slot) s = .next s) ∧
    (segExists n slot = true → ∃ t, exec (.segmentRecal n slot) s = .next t ∧ RegionFrame n s t ∧
      (if (segRegions n slot).any s.activeIn = true
       then (t.region n).bit XSEG_CTL_RREF slot = true ∧ (t.region n).bit XSEG_CTL_RBUSY slot = (s.region n).bit XSEG_CTL_RBUSY slot
       else (t.region n).bit XSEG_CTL_RBUSY slot = true))) ∧
  (∀ (n slot : Nat) (r : CalResult) (s : State) (qs : List Nat), n < 24 → slot < 2 →
    qs = (s.region n).queuesInUse slot (segVertical n slot) ((s.region n).spares slot) →
    ((s.region n).bit XSEG_CTL_RBUSY slot = false → exec (.recalDone n slot r) s = .next s) ∧
    ((s.region n).bit XSEG_CTL_RBUSY slot = true → ∃ t, exec (.recalDone n slot r) s = .next t ∧
      (t.region n).bit XSEG_CTL_RBUSY slot = false ∧ (t.region n).bit XSEG_CTL_RDONE slot = true ∧
      (t.region n).bit XSEG_STAT_CALOK slot = decide (r.fails qs = 0) ∧
      (t.region n).rd XSEG_FAIL_LO_FAIL slot = r.fails qs % 2 ^ 32 ∧ (t.region n).rd XSEG_STAT_SYNCSTEP slot = r.syncs qs ∧
      (t.region n).bit XSEG_STAT_PINNED slot = (!t.calPasses n slot && (s.region n).bit XSEG_STAT_PINNED slot) ∧
      t.blocks = s.blocks ∧ t.ports = s.ports)) ∧
  (∀ (oct margin : Nat) (s : State), oct < 72 →
    (s.lane LANE_OCT_KIND oct ≠ 1 ∨ 40 ≤ margin → exec (.circuitLockLost oct margin) s = .next s) ∧
    (s.lane LANE_OCT_KIND oct = 1 → margin < 40 →
      ∃ t, exec (.circuitLockLost oct margin) s = .next t ∧ t.bit LANE_STAT_LOST oct = true ∧ t.bit LANE_STAT_LOCK oct = false ∧
        t.blocks = s.blocks ∧ t.ports = s.ports ∧ (∀ m, t.region m = { s.region m with
          lanes := (s.region m).lanes.filter (fun x => (s.octetEnds oct).all (fun y => y != (m, x.1))) })))

/-- LANE_LOCK, LANE_LOCK_LOST, SL_SWAP, SL_RESET, SL_HOLD_START and SL_HOLD_END (12 R338, R345, R346, R353, R365, 20 R533). -/
def Obligations.SightlineLanes : Prop :=
  ∀ (k tm lane : Nat) (s : State) (p : Port) (E : PEnv), k < 24 → p = s.port k → E = s.penv k tm →
    (∀ marks ok P, P = p.resetDone E →
      (lane < 8 → P.state ≠ 0 → marks.length = 4 → markersGood lane none marks = true →
        ∃ t, exec (.laneLock k tm lane marks ok) s = .next t ∧ (t.port k).rd SL_STAT_LOCK = (p.rd SL_STAT_LOCK ||| 2 ^ lane) % 256 ∧
          (t.port k).state = (if P.state = 1 ∧ (p.rd SL_STAT_LOCK ||| 2 ^ lane) % 256 = 255 ∧ ok = true then 2 else P.state)) ∧
      (8 ≤ lane ∨ P.state = 0 ∨ marks.length ≠ 4 ∨ markersGood lane none marks = false →
        ∃ t, exec (.laneLock k tm lane marks ok) s = .next t ∧ t.port k = P.atRest)) ∧
    (∀ marks,
      (lane < 8 → (p.rd SL_STAT_LOCK).testBit lane = true → marks.length = 4 → marks.any (markerGood lane none) = false →
        ∃ t, exec (.laneLockLost k tm lane marks) s = .next t ∧ (t.port k).rd SL_STAT_LOCK = p.rd SL_STAT_LOCK - 2 ^ lane ∧
          (2 ≤ p.state → (t.port k).bit SL_STAT_DOWNEV = true ∧
            (t.port k).state = if p.bit SL_CTL_NORETRAIN = true then 0 else 1) ∧
          (p.state < 2 → (t.port k).state = p.state)) ∧
      (8 ≤ lane ∨ (p.rd SL_STAT_LOCK).testBit lane = false ∨ marks.length ≠ 4 ∨ marks.any (markerGood lane none) = true →
        ∃ t, exec (.laneLockLost k tm lane marks) s = .next t ∧ t.port k = p.atRest)) ∧
    (s.ready = true → ∃ t u, exec (.slReset k) s = .next t ∧ exec (.slSwap k) s = .next u ∧ (t.port k).state = 0 ∧
      (t.port k).buf = [] ∧ (t.port k).expSeq = none ∧ (t.port k).rxw = [] ∧ (t.port k).resetting = true ∧
      (t.port k).rd SL_JOIN_JOINED = 0 ∧ u.port k = { p.atRest with swap := true }) ∧
    (s.ready = false → exec (.slReset k) s = .next s.discard ∧ exec (.slSwap k) s = .next s.discard) ∧
    (s.pert.acting.getD 1 false = true → s.rd PERT_SLHOLD_PORT = k → ∃ t, exec (.slHoldStart k) s = .next t ∧
      t.port k = { p.atRest with slhold := true }) ∧
    (s.pert.acting.getD 1 false = false ∨ s.rd PERT_SLHOLD_PORT ≠ k → exec (.slHoldStart k) s = .next s) ∧
    (p.slhold = true → ∃ t, exec (.slHoldEnd k tm) s = .next t ∧ t.port k = (({ p with slhold := false } : Port).flush E).atRest ∧
      t.bit PERT_SLHOLD_EN = false ∧ t.pert.acting.getD 1 false = false) ∧
    (p.slhold = false → exec (.slHoldEnd k tm) s = .next s)

/-- SHOT_RECEIVED, REPLAY_TIMEOUT and SIGHTLINE_WORD_ENQUEUE (12 R337, R339 to R343, R346, R358). -/
def Obligations.SightlineShots : Prop :=
  (∀ (k tm : Nat) (x : Shot) (s : State) (p Q : Port) (E : PEnv), k < 24 → E = s.penv k tm → p = (s.port k).take58 x →
    Q = (if x.nak then (p.acked x.ack).naked E x.ack else p.acked x.ack) →
    (p.state < 2 → ∃ t, exec (.shotReceived k tm x) s = .next t ∧ t.port k = p.atRest) ∧
    (2 ≤ p.state → x.crcOk = false → ∃ t, exec (.shotReceived k tm x) s = .next t ∧ t.port k = { p.atRest with nak := true }) ∧
    (2 ≤ p.state → x.crcOk = true → x.kind ≠ 1 → x.kind ≠ 2 → ∃ t, exec (.shotReceived k tm x) s = .next t ∧ t.port k = Q.atRest) ∧
    (2 ≤ p.state → x.crcOk = true → x.kind = 1 ∨ x.kind = 2 → ∀ d, d = seqAhead x.seq (Q.expSeq.getD x.seq) →
      (d = 0 → ∃ t, exec (.shotReceived k tm x) s = .next t ∧ (t.port k).nak = false ∧
        (t.port k).expSeq = some (((Q.expSeq.getD x.seq) + 1) % 2 ^ 24) ∧ (t.port k).buf = Q.buf ∧
        (x.kind = 1 → Q.state = 4 → (Q.rd SL_JOIN_JOINED).testBit x.parcel = true →
          (t.port k).rxw = Q.rxw ++ [FWord.make x.parcel x.gen x.last x.body] ∧ (t.port k).rx = Q.rx) ∧
        (x.kind = 1 → Q.state ≠ 4 ∨ (Q.rd SL_JOIN_JOINED).testBit x.parcel = false →
          (t.port k).rxw = Q.rxw ∧ (t.port k).rx = Q.rx) ∧
        (x.kind = 2 → (t.port k).rxw = Q.rxw ∧
          (t.port k).rx = if x.body % 2 ^ 16 ∈ [1, 2, 3] then Q.rx ++ [(x.body, E.dev)] else Q.rx)) ∧
      (1 ≤ d → d < 4096 → ∃ t, exec (.shotReceived k tm x) s = .next t ∧ t.port k = { Q.atRest with nak := true }) ∧
      (4096 ≤ d → d < 2 ^ 24 - 4096 → ∃ t, exec (.shotReceived k tm x) s = .next t ∧ t.port k = Q.atRest) ∧
      (2 ^ 24 - 4096 ≤ d → ∃ t, exec (.shotReceived k tm x) s = .next t ∧
        t.port k = (Q.inc SL_DUP_COUNT SL_DUP_SAT).atRest))) ∧
  (∀ (k tm : Nat) (s : State) (p : Port), k < 24 → p = s.port k →
    (∀ x, p.buf.find? (fun y => decide (y.sent ≠ 0)) = some x → ∃ t, exec (.replayTimeout k tm) s = .next t ∧
      t.port k = (if x.at_ + 6400 ≤ tm then p.replayFrom (s.penv k tm) (x.seq.getD 0) else p).atRest) ∧
    (p.buf.find? (fun y => decide (y.sent ≠ 0)) = none → ∃ t, exec (.replayTimeout k tm) s = .next t ∧ t.port k = p.atRest)) ∧
  (∀ (E : PEnv) (p : Port) (a : Nat) (hit : Sent → Bool), hit = (fun x => match x.seq with
      | some q => decide (seqAhead q a < 4096) | none => false) →
    (p.buf.any (fun x => hit x && decide (p.rd SL_CTL_RETRY_MAX < x.sent)) = true → 2 ≤ p.state →
      (p.replayFrom E a).buf = p.buf ∧ (p.replayFrom E a).bit SL_STAT_DOWNEV = true) ∧
    (p.buf.any (fun x => hit x && decide (p.rd SL_CTL_RETRY_MAX < x.sent)) = false →
      (p.replayFrom E a).buf = p.buf.map (fun x => if hit x then { x with sent := x.sent + 1, at_ := E.t } else x) ∧
      (p.replayFrom E a).state = p.state ∧ (p.replayFrom E a).replay = some (a, E.t))) ∧
  (∀ (k tm leg : Nat) (mark : Bool) (got : Option FWord) (s : State) (p : Port), k < 24 → p = s.port k →
    (s.homeOf k = none → exec (.sightlineWordEnqueue k tm leg mark got) s = .next s) ∧
    (∀ n q, s.homeOf k = some (n, q) → takeFirst q (s.region n).laneOut = none → got = none →
      exec (.sightlineWordEnqueue k tm leg mark got) s = .next s) ∧
    (∀ n q w rest, s.homeOf k = some (n, q) →
        ((∃ w0, takeFirst q (s.region n).laneOut = some (w0, rest) ∧ w = got.getD w0) ∨
          takeFirst q (s.region n).laneOut = none ∧ rest = (s.region n).laneOut ∧ got = some w) →
      ∃ t, exec (.sightlineWordEnqueue k tm leg mark got) s = .next t ∧ (t.region n).laneOut = rest ∧
        (p.state ≠ 4 ∨ (p.rd SL_JOIN_JOINED).testBit w.parcel = false → (t.port k).buf = p.buf) ∧
        (p.state = 4 → (p.rd SL_JOIN_JOINED).testBit w.parcel = true →
          (leg ∈ p.drops → mark = false → (t.port k).buf = p.buf ∧ (w.last = true → leg ∉ (t.port k).drops)) ∧
          (leg ∉ p.drops ∨ mark = true →
            (4080 ≤ (p.buf.filter (fun x => x.ctl == 0)).length → (t.port k).buf = p.buf ∧ (t.port k).bit SL_STAT_OVF = true ∧
              (w.last = false → leg ∈ (t.port k).drops)) ∧
            ((p.buf.filter (fun x => x.ctl == 0)).length < 4080 → (t.port k).buf.length = p.buf.length + 1 ∧
              ∃ y ∈ (t.port k).buf, y.ctl = 0 ∧ y.body = w.data ∧ y.parcel = w.parcel ∧ y.gen = w.gen ∧ y.last = w.last ∧
                y.first = mark)))))

/-- DATUM_TIMER, DATUM_RECEIVED, VOID_CONTEXT_RECEIVED, FRAME_VOID_NOTICE and LANDING_TILE (12 R347 to R354, R359, R360). -/
def Obligations.SightlineDatums : Prop :=
  ∀ (k tm : Nat) (s : State) (p : Port) (E : PEnv), k < 24 → p = s.port k → E = s.penv k tm →
    (p.state < 2 ∨ p.state = 4 → ∃ t, exec (.datumTimer k tm) s = .next t ∧ t.port k = p.atRest) ∧
    (2 ≤ p.state → p.state ≠ 4 → ∃ t, exec (.datumTimer k tm) s = .next t ∧ (t.port k).state = p.state ∧
      (t.port k).mySwap = some (s.frame.num, p.swap) ∧
      (t.port k).buf.length = if p.buf.length < 4096 then p.buf.length + 1 else p.buf.length) ∧
    (p.rx = [] → (∃ t, exec (.datumReceived k tm) s = .next t ∧ t.port k = p.atRest) ∧
      exec (.voidContextReceived k) s = .next s ∧ exec (.frameVoidNotice k) s = .next s) ∧
    (∀ b at_ rest, p.rx = (b, at_) :: rest →
      (b % 2 ^ 16 ≠ 1 → ∃ t, exec (.datumReceived k tm) s = .next t ∧ t.port k = p.atRest) ∧
      (b % 2 ^ 16 ≠ 2 → exec (.frameVoidNotice k) s = .next s) ∧
      (b % 2 ^ 16 ≠ 3 → exec (.voidContextReceived k) s = .next s) ∧
      (∀ d : Datum, b % 2 ^ 16 = 1 → d = Datum.ofBody b → ∃ t, exec (.datumReceived k tm) s = .next t ∧ (t.port k).rx = rest ∧
        (t.port k).lastRx = some (d.tsend, at_) ∧ (t.port k).rd SL_PFW_FW = d.fwver ∧ (t.port k).rd SL_JOIN_PEER = d.offer ∧
        (t.port k).peerArm = (if d.armed then some (d.cutf, d.inhash) else none) ∧
        (d.echo ≠ 0 → (t.port k).bit SL_STAT_LATOK = true) ∧
        (s.armedF k = none → p.state = 4 → (E.refFor d).len ≠ d.len →
          (t.port k).state = 3 ∧ (t.port k).bit SL_STAT_DISEV = true ∧ (t.port k).joinf = 0) ∧
        (s.armedF k = none → p.heldDatum = [] → d.echo = 0 → p.judge E d = 0 →
          (t.port k).state = if p.state = 3 ∨ p.state = 2 ∧ p.bit SL_STAT_LATOK = true then 4 else p.state) ∧
        (∀ f, s.armedF k = some f → f ≤ d.frame → E.later = none →
          (t.port k).state = p.state ∧ (t.port k).heldDatum = p.heldDatum ++ [(d, at_)])) ∧
      (b % 2 ^ 16 = 3 → ∃ t, exec (.voidContextReceived k) s = .next t ∧ (t.port k).rx = rest ∧
        ((p.rd SL_JOIN_JOINED).testBit (field b 16 4) = true → ((t.port k).rd SL_JOIN_PEER).testBit (field b 16 4) = false) ∧
        ((p.rd SL_JOIN_JOINED).testBit (field b 16 4) = false →
          t.port k = ({ p with rx := rest } : Port).discard.atRest)) ∧
      (b % 2 ^ 16 = 2 → ∃ t, exec (.frameVoidNotice k) s = .next t ∧ (t.port k).rx = rest ∧
        (s.homeOf k = none → t.regions = s.regions) ∧
        (∀ m q j, s.homeOf k = some (m, q) → m < 24 → j ∈ (s.region m).landings q (field b 16 4) →
          ((s.region m).lateNotice s.frame.num j (field b 64 48) = false →
            field b 64 48 % 2 ^ 16 ∈ ((t.region m).strm ((s.region m).rd SL_LAND0_WSTRM j)).notices) ∧
          ((s.region m).lateNotice s.frame.num j (field b 64 48) = true → (t.port k).bit SL_STAT_LATE = true)))) ∧
    (s.homeOf k = none ∨ p.rxw = [] → exec (.landingTile k tm) s = .next s) ∧
    (∀ m q w rest, s.homeOf k = some (m, q) → m < 24 → p.rxw = w :: rest →
      ((Hdr.ofBits w.data).fmt = 15 → ∃ t, exec (.landingTile k tm) s = .next t ∧ (t.port k).rxw = rest ∧
        ((s.region m).lost = true → t.regions = s.regions) ∧
        ((s.region m).lost = false → ∀ j, (s.region m).landing q (Hdr.ofBits w.data).leg = some j → t.region m =
          ((s.region m).driveWord (s.renv m tm) ((s.region m).rd SL_LAND0_WSTRM j) (Hdr.ofBits w.data)).atRest) ∧
        ((s.region m).lost = false → (s.region m).landing q (Hdr.ofBits w.data).leg = none →
          (t.region m).store = (s.region m).store ∧ (t.region m).driveq = (s.region m).driveq)) ∧
      ((Hdr.ofBits w.data).fmt ≠ 15 → splitTile p.rxw = none → exec (.landingTile k tm) s = .next s) ∧
      (∀ tile more, (Hdr.ofBits w.data).fmt ≠ 15 → splitTile p.rxw = some (tile, more) →
        ∃ t, exec (.landingTile k tm) s = .next t ∧ (t.port k).rxw = more ∧
          ((s.region m).lost = true → t.regions = s.regions) ∧
          ((s.region m).lost = false → t.region m =
            ((s.region m).landTile (s.renv m tm) q (Hdr.ofBits w.data) (tile.tail.map (fun x => x.data))).atRest)))

/-- LSRC_INSERT, LSRC_REMOVE and LSRC_FAULT (12 R335, 08 R249, R251). -/
def Obligations.LaserSources : Prop :=
  ∀ (k power : Nat) (s : State), k < 8 →
    (∃ t, exec (.lsrcInsert k power) s = .next t ∧ t.bit SL_LSRC_PRESENT k = true ∧ HubFrame s t ∧
      (s.bit SL_LSRC_EN k = true → power ≠ 0 → t.bit SL_LSRC_LIT k = true ∧ t.rd SL_LSRC_POWER k = power % 256 ∧
        ∀ o ∈ litBy k, t.bit LANE_STAT_LOS o = false) ∧
      (s.bit SL_LSRC_EN k = false ∨ power = 0 → t.bit SL_LSRC_LIT k = s.bit SL_LSRC_LIT k ∧
        ∀ o, o < 72 → t.bit LANE_STAT_LOS o = s.bit LANE_STAT_LOS o)) ∧
    (∃ t, exec (.lsrcRemove k) s = .next t ∧ t.bit SL_LSRC_PRESENT k = false ∧ t.bit SL_LSRC_LIT k = false ∧
      t.rd SL_LSRC_POWER k = 0 ∧ (∀ o ∈ litBy k, t.bit LANE_STAT_LOS o = true ∧
        (s.lane LANE_OCT_KIND o = 1 → t.bit LANE_STAT_LOCK o = false) ∧
        (s.lane LANE_OCT_KIND o = 2 → s.lane LANE_OCT_SL o < 24 → (t.port (s.lane LANE_OCT_SL o)).rd SL_STAT_LOCK = 0)) ∧
      t.blocks = s.blocks ∧ ∀ m, t.region m = { s.region m with lanes := (t.region m).lanes }) ∧
    (s.bit SL_LSRC_PRESENT k = true → s.bit SL_LSRC_EN k = true → ∃ t, exec (.lsrcFault k power) s = .next t ∧
      t.bit SL_LSRC_FAULT k = true ∧ t.bit SL_LSRC_LIT k = false ∧ (∀ o ∈ litBy k, t.bit LANE_STAT_LOS o = true ∧
        (s.lane LANE_OCT_KIND o = 1 → t.bit LANE_STAT_LOCK o = false)) ∧ t.blocks = s.blocks) ∧
    (s.bit SL_LSRC_PRESENT k = false ∨ s.bit SL_LSRC_EN k = false → exec (.lsrcFault k power) s = .next s)

/-- PLAT_LOAD, PLAT_IMAGE_READ_DONE, PLAT_SEAL and PLAT_UNLOAD (11 R310, R315, R318, R321). -/
def Obligations.PlatLoads : Prop :=
  (∀ (fn ring slot : Nat) (s : State) (i : ItemRef), fn < 34 → i = ⟨fn, ring, slot⟩ →
    (s.running fn ring slot 4 = none → exec (.platLoad fn ring slot) s = .next s) ∧
    (s.running fn ring slot 6 = none → exec (.platUnload fn ring slot) s = .next s) ∧
    (∀ x, s.running fn ring slot 4 = some x →
      (s.anyActive = true ∨ s.platBusy = true → ∃ t, exec (.platLoad fn ring slot) s = .next t ∧ t.doneWith i 7 0x21 ∧
        t.plat = s.plat ∧ t.regions = s.regions ∧ t.hub = s.hub) ∧
      (s.anyActive = false → s.platBusy = false → ∃ t, exec (.platLoad fn ring slot) s = .next t ∧
        t.rd PLAT_STAT_STATE = 1 ∧ t.plat = { s.plat with load := some { item := i } } ∧ t.regions = s.regions)) ∧
    (∀ x, s.running fn ring slot 6 = some x →
      (s.anyActive = true → ∃ t, exec (.platUnload fn ring slot) s = .next t ∧ t.doneWith i 7 0x21 ∧ t.plat = s.plat) ∧
      (s.anyActive = false → s.plat.unload.contains i = true → exec (.platUnload fn ring slot) s = .next s) ∧
      (s.anyActive = false → s.plat.unload.contains i = false → ∃ t, exec (.platUnload fn ring slot) s = .next t ∧
        t = { s with plat := { s.plat with unload := s.plat.unload ++ [i] } }))) ∧
  (∀ (image : ImageRead) (s u : State), u = (if (s.checkImage image).2 then
      { s.wr CDV_CNT_XLATE (min (s.rd CDV_CNT_XLATE + 1) 0xFFFF) with freeCtr := s.freeCtr + 12 } else s) →
    (s.plat.load = none → exec (.platImageReadDone image) s = .next s) ∧
    (∀ l, s.plat.load = some l →
      (l.plat.isSome = true → exec (.platImageReadDone image) s = .next s) ∧
      (∀ r, l.plat = none → s.waits l.item → ((s.checkImage image).1 = .inr r ∨ (∃ p, (s.checkImage image).1 = .inl p ∧ l.cut = true ∧
          (s.plat.active = none ∧ r = { code := 0x20 } ∨
            ∃ o, s.plat.active = some o ∧ orRej (u.cutRej o p l.partners false) (u.cutFabricRej o p) = some r))) →
        ∃ t, exec (.platImageReadDone image) s = .next t ∧ t.bit PLAT_STAT_REJECT = true ∧ t.rd PLAT_STAT_CODE = r.code % 256 ∧
          t.doneWith l.item 7 r.code ∧ t.plat = { s.plat with load := none } ∧ t.regions = s.regions ∧ t.blocks = s.blocks ∧
          t.frame = s.frame) ∧
      (∀ p, l.plat = none → (s.checkImage image).1 = .inl p →
        (l.cut = false → ∃ t, exec (.platImageReadDone image) s = .next t ∧ t.rd PLAT_STAT_STATE = 3 ∧
          t.plat = { s.plat with load := some { l with plat := some p } } ∧ t.regions = s.regions ∧ t.blocks = s.blocks) ∧
        (∀ o, l.cut = true → s.plat.active = some o → orRej (u.cutRej o p l.partners false) (u.cutFabricRej o p) = none →
          ∃ t f, exec (.platImageReadDone image) s = .next t ∧ t.plat.cutF = some f ∧ (l.f ≠ 0 → f = l.f) ∧
            (l.f = 0 → s.frame.num + 2 ≤ f) ∧ t.plat.shadow = some p ∧ t.plat.active = some o ∧
            t.rd CUT_NEED_RGN = affectedRegions o p % 2 ^ 24 ∧ t.rd CUT_STAT_STATE = (if t.bit CUT_ACK_ARMED then 3 else 2) ∧
            t.blocks = s.blocks)))) ∧
  (∀ (s : State),
    (s.plat.load = none → exec .platSeal s = .next s) ∧
    (∀ l, s.plat.load = some l →
      (l.plat = none ∨ l.cut = true ∨ l.sealed = true → exec .platSeal s = .next s) ∧
      (∀ p, l.plat = some p → l.cut = false → l.sealed = false → s.waits l.item → ∃ t, exec .platSeal s = .next t ∧
        t.bit PLAT_STAT_SEALED = true ∧ t.rd FRM_LEN_LEN = p.frmLen % 2 ^ 19 ∧ t.rd FRM_RES_RES_Q = p.frmRes % 2 ^ 9 ∧
        t.doneWith l.item 0 0 ∧ t.plat = { s.plat with load := some { l with sealed := true }, shadow := none } ∧
        ∀ n, n < 24 → ((s.region n).lost = true → t.region n = s.region n) ∧
          ((s.region n).lost = false → (t.region n).edge = (p.regionSec n).edge ∧
            (t.region n).variants = (p.regionSec n).variants ∧ (t.region n).hints = (p.regionSec n).hints ∧
            (t.region n).store = (s.region n).store ∧ (t.region n).stack = (s.region n).stack))))

/-- PLAT_CUTOVER and CUT_CANCEL (11 R319, R321, R322, R326, R329). -/
def Obligations.CutOversBegin : Prop :=
  ∀ (fn ring slot : Nat) (s : State) (i : ItemRef), fn < 34 → i = ⟨fn, ring, slot⟩ →
    (s.running fn ring slot 5 = none → exec (.platCutover fn ring slot) s = .next s) ∧
    (s.running fn ring slot 7 = none → exec (.cutCancel fn ring slot) s = .next s) ∧
    (∀ x, s.running fn ring slot 5 = some x →
      (s.platBusy = true → ∃ t, exec (.platCutover fn ring slot) s = .next t ∧ t.doneWith i 7 0x21 ∧ t.plat = s.plat) ∧
      (s.platBusy = false → x.num 32 6 ≠ 0 → x.num 32 6 ≤ s.frame.num + 1 → ∃ t, exec (.platCutover fn ring slot) s = .next t ∧
        t.doneWith i 7 0x23 ∧ t.plat = s.plat) ∧
      (s.platBusy = false → x.num 32 6 = 0 ∨ s.frame.num + 1 < x.num 32 6 →
        (x.num 28 1 % 2 = 0 → ∃ t l, exec (.platCutover fn ring slot) s = .next t ∧ t.rd CUT_STAT_STATE = 1 ∧
          t.plat = { s.plat with load := some l } ∧ l.item = i ∧ l.cut = true ∧ l.f = x.num 32 6 ∧ l.partners = x.num 40 3 ∧
          l.revert = false ∧ l.plat = none) ∧
        (x.num 28 1 % 2 = 1 →
          (s.bit CUT_STAT_REVOK = false ∨ s.plat.active = none ∨ s.plat.shadow = none →
            ∃ t, exec (.platCutover fn ring slot) s = .next t ∧ t.doneWith i 7 0x20 ∧ t.plat = s.plat) ∧
          (∀ o p, s.bit CUT_STAT_REVOK = true → s.plat.active = some o → s.plat.shadow = some p →
            (∀ r, orRej (s.cutRej o p (x.num 40 3) true) (s.cutFabricRej o p) = some r →
              ∃ t, exec (.platCutover fn ring slot) s = .next t ∧ t.doneWith i 7 r.code ∧ t.plat = s.plat) ∧
            (orRej (s.cutRej o p (x.num 40 3) true) (s.cutFabricRej o p) = none →
              ∃ t f, exec (.platCutover fn ring slot) s = .next t ∧ t.plat.cutF = some f ∧
                f = (if x.num 32 6 = 0 then s.frame.num + 2 else x.num 32 6) ∧ t.plat.shadow = some p ∧ t.plat.active = some o ∧
                t.bit CUT_STAT_REVOK = false ∧ t.blocks = s.blocks))))) ∧
    (∀ x, s.running fn ring slot 7 = some x →
      (s.plat.switch = true ∨ s.plat.load = none ∨ (∃ l, s.plat.load = some l ∧ l.cut = false) →
        ∃ t, exec (.cutCancel fn ring slot) s = .next t ∧ t.doneWith i 0 0 ∧ t.plat = s.plat) ∧
      (∀ l, s.plat.load = some l → l.cut = true → l.item ≠ i → s.waits l.item → s.plat.switch = false →
        ∃ t, exec (.cutCancel fn ring slot) s = .next t ∧ t.doneWith i 0 0 ∧ t.doneWith l.item 8 5 ∧
          t.bit CUT_STAT_ABANDONED = true ∧ t.rd CUT_STAT_REASON = 5 ∧ t.plat.load = none ∧ t.plat.shadow = none ∧
          t.plat.cutF = none ∧ t.plat.active = s.plat.active))

/-- CUT_ACKNOWLEDGE, CUT_WITHDRAWAL and DECISION_POINT (11 R322, R323, R325, R330, R331, 02 R50). -/
def Obligations.CutOversDecide : Prop :=
  (∀ s : State, (s.plat.load = none ∨ (∃ l, s.plat.load = some l ∧ l.cut = false) ∨ s.plat.switch = true →
      (∀ n, exec (.cutAcknowledge n) s = .next s ∧ exec (.cutWithdrawal n) s = .next s) ∧ exec .decisionPoint s = .next s) ∧
    (s.plat.cutF = none → exec .decisionPoint s = .next s)) ∧
  (∀ (s : State) (l : LoadSt), s.plat.load = some l → l.cut = true → s.plat.switch = false →
    (∀ n, n < 24 →
      (l.plat = none ∨ (s.region n).lost = true ∨ (s.rd CUT_NEED_RGN).testBit n = false ∨ (s.region n).recq ≠ [] →
        exec (.cutAcknowledge n) s = .next s) ∧
      (∀ p ok, l.plat = some p → (s.region n).lost = false → (s.rd CUT_NEED_RGN).testBit n = true → (s.region n).recq = [] →
          ok = ((p.regionSec n).variants.map (fun v => v.step)).contains (s.region n).cur →
        (ok = true → s.fenceCounts.getD n 0 = l.fences.getD n 0 → (s.region n).bit RGN_SHADOW_WITHDRAWN = false →
          ∃ t, exec (.cutAcknowledge n) s = .next t ∧ (t.region n).bit RGN_SHADOW_ARMED = true ∧
            t.rd CUT_ACK_RGN = (s.rd CUT_ACK_RGN ||| 2 ^ n) % 2 ^ 24 ∧ (∀ m, m ≠ n → t.region m = s.region m) ∧
            t.rd CUT_STAT_STATE = (if t.bit CUT_ACK_ARMED then 3 else 2)) ∧
        (ok = false ∨ s.fenceCounts.getD n 0 ≠ l.fences.getD n 0 ∨ (s.region n).bit RGN_SHADOW_WITHDRAWN = true →
          ∃ t, exec (.cutAcknowledge n) s = .next t ∧ t.hub = s.hub ∧
            t.region n = (s.region n).wr RGN_SHADOW_STEPOK (if ok then 1 else 0) ∧ (∀ m, m ≠ n → t.region m = s.region m))) ∧
      ((s.rd CUT_ACK_RGN).testBit n = false ∨ (s.region n).recq ≠ [] → exec (.cutWithdrawal n) s = .next s) ∧
      ((s.rd CUT_ACK_RGN).testBit n = true → (s.region n).recq = [] → ∃ t, exec (.cutWithdrawal n) s = .next t ∧
        (t.rd CUT_ACK_RGN).testBit n = false ∧ (t.region n).bit RGN_SHADOW_WITHDRAWN = true ∧
        (t.region n).bit RGN_SHADOW_ARMED = false ∧ (∀ m, m ≠ n → t.region m = s.region m) ∧
        (s.fenceCounts.getD n 0 = l.fences.getD n 0 → (t.region n).bit RGN_SHADOW_SBERR = true))) ∧
    (∀ f, s.plat.cutF = some f →
      (s.frame.num + 1 ≠ f → exec .decisionPoint s = .next s) ∧
      (∀ late wd : Bool, s.frame.num + 1 = f →
          (late = true ↔ (∃ n, n < 24 ∧ (s.rd CUT_NEED_RGN).testBit n = true ∧ (s.rd CUT_ACK_RGN).testBit n = false ∧
            (s.region n).bit RGN_SHADOW_WITHDRAWN = false) ∨ s.bit CUT_NEED_HUB = true ∧ s.bit CUT_ACK_HUB = false) →
          (wd = true ↔ ∃ n, n < 24 ∧ (s.rd CUT_NEED_RGN).testBit n = true ∧ (s.region n).bit RGN_SHADOW_WITHDRAWN = true) →
        ∃ t, exec .decisionPoint s = .next t ∧ (∀ q, q < 24 → (t.port q).heldDatum = []) ∧
          (late = false → wd = false → s.partnersOk l = true → t.plat = { s.plat with switch := true } ∧
            t.bit CUT_ACK_PARTNERS = true) ∧
          (late = true ∨ wd = true ∨ s.partnersOk l = false → t.plat.switch = false ∧ t.plat.load = none ∧ t.plat.cutF = none ∧
            t.bit CUT_STAT_ABANDONED = true ∧ t.rd CUT_STAT_REASON = (if late then 1 else if wd then 2 else 3) ∧
            t.plat.shadow = (if late || wd then none else s.plat.shadow) ∧
            (s.waits l.item → t.doneWith l.item 8 (if late then 1 else if wd then 2 else 3))))))

/-- DOORBELL and ITEM_BEGIN (13 R374 to R379). -/
def Obligations.RingsTakeItems : Prop :=
  ∀ (fn ring : Nat) (s : State) (x : Ring), fn < 34 → ring < fnRings fn → x = s.ring fn ring →
    (∀ v, (x.bit CR_CTL_EN = false → exec (.doorbell fn ring v) s = .next s) ∧
      (x.bit CR_CTL_EN = true → (v.toNat + 2 ^ 32 - x.rd CR_CI_CI) % 2 ^ 32 ≤ x.slots →
        ∃ t, exec (.doorbell fn ring v) s = .next t ∧ t.ring fn ring = { x with pi := v.toNat }) ∧
      (x.bit CR_CTL_EN = true → x.slots < (v.toNat + 2 ^ 32 - x.rd CR_CI_CI) % 2 ^ 32 →
        ∃ t, exec (.doorbell fn ring v) s = .next t ∧ (t.ring fn ring).rd CR_STAT_ERR = 2 ∧ (t.ring fn ring).pi = x.pi)) ∧
    (s.canBegin fn ring = false → ∀ bytes, exec (.itemBegin fn ring bytes) s = .next s) ∧
    (s.canBegin fn ring = true →
      (∃ t, exec (.itemBegin fn ring none) s = .next t ∧ (t.ring fn ring).rd CR_STAT_ERR = 3 ∧ (t.ring fn ring).items = x.items) ∧
      (∀ bs i, i = Item.parse (x.rd CR_CI_CI % x.slots) bs →
        (i.nslots = 0 ∨ 8 < i.nslots → ∃ t, exec (.itemBegin fn ring (some bs)) s = .next t ∧
          (t.ring fn ring).rd CR_STAT_ERR = 1 ∧ (t.ring fn ring).items = x.items) ∧
        (1 ≤ i.nslots → i.nslots ≤ 8 →
          (x.unread < i.nslots ∨ i.fence = true ∧ x.items ≠ [] ∨ x.ents < x.used + x.items.length + 1 →
            exec (.itemBegin fn ring (some bs)) s = .next s) ∧
          (i.nslots ≤ x.unread → (i.fence = true → x.items = []) → x.used + x.items.length + 1 ≤ x.ents →
            ∃ t y, exec (.itemBegin fn ring (some bs)) s = .next t ∧ (t.ring fn ring).items = x.items ++ [y] ∧
              (t.ring fn ring).rd CR_CI_CI = (x.rd CR_CI_CI + i.nslots) % 2 ^ 32 ∧ y.slot = i.slot ∧ y.opc = i.opc ∧ y.bytes = bs ∧
              (i.serial ≤ x.last → y.done = some (1, 0) ∧ (t.ring fn ring).last = x.last) ∧
              (x.last < i.serial → i.serial < 2 ^ 64 → y.done = s.atOnce fn i ∧ (t.ring fn ring).last = i.serial)))))

/-- ITEM_COMPLETE, RING_FLUSH and RING_DISABLE (13 R382 to R384). -/
def Obligations.CompletionsAndStops : Prop :=
  ∀ (fn ring : Nat) (s : State) (x : Ring), fn < 34 → ring < fnRings fn → x = s.ring fn ring →
    (x.items.findIdx? (fun z => z.done.isSome) = none → exec (.itemComplete fn ring) s = .next s) ∧
    (∀ k y d, x.items.findIdx? (fun z => z.done.isSome) = some k → x.items[k]? = some y → y.done = some d →
      (x.used < x.ents → ∃ t, exec (.itemComplete fn ring) s = .next t ∧ (t.ring fn ring).items = x.items.eraseIdx k ∧
        (t.ring fn ring).rd CC_TAIL_TAIL = (x.rd CC_TAIL_TAIL + 1) % 2 ^ 32 ∧
        t.host = s.host.wrN (x.rd CC_BASE_LO_BASE * 4096 + x.rd CC_BASE_HI_BASE * 2 ^ 32 + 16 * (x.rd CC_TAIL_TAIL % x.ents))
          (leBytes 8 y.serial ++ leBytes 4 d.2 ++ leBytes 2 y.slot ++ leBytes 1 d.1 ++
            leBytes 1 (if x.rd CC_TAIL_TAIL / x.ents % 2 = 0 then 1 else 0)) ∧
        (y.irq = false → t.msgs = s.msgs)) ∧
      (x.ents ≤ x.used → exec (.itemComplete fn ring) s = .next s)) ∧
    (∀ hdrs, (x.bit CR_CTL_EN = false → exec (.ringFlush fn ring hdrs) s = .next s) ∧
      (x.bit CR_CTL_EN = true → ∃ t, exec (.ringFlush fn ring hdrs) s = .next t ∧
        (t.ring fn ring).rd CR_CI_CI = x.pi % 2 ^ 32 ∧ (t.ring fn ring).rd CR_STAT_ERR = 0 ∧
        (t.ring fn ring).items = x.items ++ (if x.rd CR_STAT_ERR = 1 ∨ x.rd CR_STAT_ERR = 3 then []
          else unbegun (x.rd CR_CI_CI + x.unread) 3 2 x.slots (x.rd CR_CI_CI) hdrs))) ∧
    (∀ v hdrs,
      (CR_CTL_EN.on v = true → exec (.ringDisable fn ring v hdrs) s = .next s) ∧
      (CR_CTL_EN.on v = false → x.bit CR_CTL_EN = false → ∃ t, exec (.ringDisable fn ring v hdrs) s = .next t ∧
        (t.ring fn ring).bit CR_CTL_EN = false ∧ (t.ring fn ring).items = x.items) ∧
      (∀ es, CR_CTL_EN.on v = false → x.bit CR_CTL_EN = true → es = (if x.rd CR_STAT_ERR = 1 ∨ x.rd CR_STAT_ERR = 3 then []
          else unbegun (x.rd CR_CI_CI + x.unread) 0x0B 0x0B x.slots (x.rd CR_CI_CI) hdrs) →
        ∃ t, exec (.ringDisable fn ring v hdrs) s = .next t ∧ (t.ring fn ring).items = x.items ++ es ∧
          (t.ring fn ring).rd CR_CI_CI = x.pi % 2 ^ 32 ∧ (t.ring fn ring).rd CR_STAT_ERR = 0 ∧
          (t.ring fn ring).bit CR_CTL_EN = !(x.items ++ es).isEmpty ∧ (t.ring fn ring).closing = !(x.items ++ es).isEmpty))

/-- NOP, STAKE_DRIVE, DMA_TO_DEV, DMA_FROM_DEV and BAR2_ACCESS (13 R369 to R371, R379 to R381). -/
def Obligations.ItemsMoveData : Prop :=
  (∀ (fn ring slot : Nat) (s : State),
    (s.running fn ring slot 0 = none → exec (.nop fn ring slot) s = .next s) ∧
    (s.running fn ring slot 1 = none → exec (.stakeDrive fn ring slot) s = .next s) ∧
    (s.running fn ring slot 2 = none → ∀ bytes, exec (.dmaToDev fn ring slot bytes) s = .next s) ∧
    (s.running fn ring slot 3 = none → exec (.dmaFromDev fn ring slot) s = .next s)) ∧
  (∀ (fn ring slot : Nat) (s : State) (i : ItemRef) (x : Item), fn < 34 → i = ⟨fn, ring, slot⟩ →
    (∀ p, (s.ctx p).admitItem ≠ some i) →
    (s.running fn ring slot 0 = some x → ∃ t, exec (.nop fn ring slot) s = .next t ∧ t.doneWith i 0 0 ∧ t = { s with fns := t.fns }) ∧
    (s.running fn ring slot 1 = some x → ∃ t u, exec (.stakeDrive fn ring slot) s = .next t ∧
      u = State.driveEntries fn x x.entries s none ∧ t.doneWith i (if u.2.isSome then 6 else 0) (u.2.getD 0) ∧
      t.regions = u.1.regions ∧ t.blocks = u.1.blocks ∧ t.host = s.host ∧ t.ports = s.ports) ∧
    (∀ bytes u r, s.running fn ring slot 2 = some x → u = s.hostStore fn (x.num 24 8) (bytes.take (x.num 32 4)) →
        r = u.hostDrive fn (x.num 36 2) (x.num 38 1) 0 (x.num 40 2) false →
      (bytes.length < x.num 32 4 → ∃ t, exec (.dmaToDev fn ring slot bytes) s = .next t ∧ t.doneWith i 9 bytes.length ∧
        t.regions = u.regions ∧ t.blocks = s.blocks ∧ t.host = s.host) ∧
      (x.num 32 4 ≤ bytes.length → x.num 36 2 = 0xFFFF → ∃ t, exec (.dmaToDev fn ring slot bytes) s = .next t ∧ t.doneWith i 0 0 ∧
        t.regions = u.regions ∧ t.blocks = s.blocks ∧ t.host = s.host) ∧
      (x.num 32 4 ≤ bytes.length → x.num 36 2 ≠ 0xFFFF → ∃ t, exec (.dmaToDev fn ring slot bytes) s = .next t ∧
        t.doneWith i (if r.2 then 6 else 0) 0 ∧ t.regions = r.1.regions ∧ t.host = s.host)) ∧
    (∀ u, s.running fn ring slot 3 = some x → u = s.hostLoad fn (x.num 24 8) (x.num 32 4) →
      ∃ t, exec (.dmaFromDev fn ring slot) s = .next t ∧ t.doneWith i (if u.bad.isSome then 0x0A else 0) (u.bad.getD 0) ∧
        t.host = u.got.foldl (fun h c => h.wrN (x.num 16 8 + (c.1 - x.num 24 8)) c.2) s.host ∧
        t.regions = u.s.regions ∧ t.blocks = s.blocks)) ∧
  (∀ (fn off o : Nat) (s : State), o = (s.fn fn).b2 + off →
    (∀ bs, ∃ t, exec (.bar2Access fn off (.write bs)) s = .next t ∧ t = { s.hostStore fn o bs with evcs := t.evcs } ∧
      t.blocks = s.blocks ∧ t.host = s.host) ∧
    (∀ n, ∃ t, exec (.bar2Access fn off (.read n)) s = .next t ∧ t.answer = .lines (s.hostLoad fn o n).ans ∧
      t.regions = (s.hostLoad fn o n).s.regions ∧ t.blocks = s.blocks ∧ t.host = s.host) ∧
    (∀ n, ∃ t, exec (.bar2Access fn off (.poisoned n)) s = .next t ∧ t = { s with hub := t.hub, fns := t.fns } ∧
      (t.fn fn).aer = (s.fn fn).aer ||| 4))

/-- BAR2 requests within one line (13 R369 to R371, 23 R571). -/
def Obligations.HostStoreReachesItsLines : Prop :=
  ∀ (fn off o n a : Nat) (s : State), fn < 34 → o = (s.fn fn).b2 + off →
    (∀ bs : List Byte, bs ≠ [] → o % 256 + bs.length ≤ 256 →
      (s.judge fn o = 0 → hostPlace o = .stack n a → ∃ t, exec (.bar2Access fn off (.write bs)) s = .next t ∧
        (t.region n).stack = (s.region n).stack.wrN a bs ∧ (t.region n).store = (s.region n).store ∧
        ∀ m, m ≠ n → t.region m = s.region m) ∧
      (s.judge fn o = 0 → hostPlace o = .store n a → ∃ t, exec (.bar2Access fn off (.write bs)) s = .next t ∧
        (t.region n).store = (s.region n).store.wrN a bs ∧ (t.region n).stack = (s.region n).stack ∧
        ∀ m, m ≠ n → t.region m = s.region m) ∧
      (s.judge fn o ≠ 0 → ∃ t, exec (.bar2Access fn off (.write bs)) s = .next t ∧ t.regions = s.regions ∧
        (t.fn fn).aer = (s.fn fn).aer ||| 1)) ∧
    (∀ len, len ≠ 0 → o % 256 + len ≤ 256 →
      (s.judge fn o = 0 → hostPlace o = .stack n a → (s.region n).stkBad a (a + len) = [] →
        ∃ t, exec (.bar2Access fn off (.read len)) s = .next t ∧ t.answer = .lines [.data ((s.region n).stack.rdN a len)]) ∧
      (s.judge fn o = 0 → hostPlace o = .store n a → ((s.region n).rsEcc (s.renv n 0) a (a + len)).2 = false →
        ∃ t, exec (.bar2Access fn off (.read len)) s = .next t ∧ t.answer = .lines [.data ((s.region n).store.rdN a len)]) ∧
      (s.judge fn o = 0 → hostPlace o = .store n a → ((s.region n).rsEcc (s.renv n 0) a (a + len)).2 = true →
        ∃ t, exec (.bar2Access fn off (.read len)) s = .next t ∧ t.answer = .lines [.poisoned ((s.region n).store.rdN a len)] ∧
          (t.fn fn).aer.testBit 1 = true) ∧
      (s.judge fn o ≠ 0 → ∃ t, exec (.bar2Access fn off (.read len)) s = .next t ∧ t.answer = .lines [.unsupported] ∧
        t.regions = s.regions ∧ (t.fn fn).aer = (s.fn fn).aer ||| 1)) ∧
    (isPf fn = true → (s.judge fn o = 0 ↔ hostPlace o ≠ .none)) ∧
    (isPf fn = false → fnParcel fn = 0 → s.judge fn o = 2)

/-- FLR, LINK_DOWN, LINK_UP, D3HOT, POWER_STATE_D0, MSIX_VECTOR_UNMASK and FIELD_BOOK_WRITE (13 R367, R386 to R391, 18 R475). -/
def Obligations.FunctionsAndLinks : Prop :=
  (∀ (fn : Nat) (s : State), fn < 34 →
    (∃ t, exec (.flr fn) s = .next t ∧ (t.fn fn).rings = [] ∧ (t.fn fn).book = [] ∧ (t.fn fn).d3 = false ∧
      (t.fn fn).masked = 0xFFFFFFFF ∧ (∀ y ∈ t.err.wait, y.1 ≠ fn) ∧
      (isPf fn = false → fnParcel fn ≠ 0 → s.pstate (fnParcel fn) = 2 → (s.ctx (fnParcel fn)).req = none →
        ∃ early, (t.ctx (fnParcel fn)).req = some (3, early))) ∧
    (∃ t, exec (.d3hot fn) s = .next t ∧ t.fn fn = { s.fn fn with d3 := true } ∧ (∀ k, k ≠ fn → t.fn k = s.fn k) ∧
      t = { s with fns := t.fns } ∧ ∀ r, t.canBegin fn r = false) ∧
    (∃ t, exec (.powerStateD0 fn) s = .next t ∧ (t.fn fn).d3 = false ∧ (t.fn fn).rings = (s.fn fn).rings ∧
      (∀ y, y ∈ t.err.wait → y ∈ s.err.wait) ∧
      (s.err.wait.any (fun y => y.1 == fn) = false → t = { s with fns := t.fns })) ∧
    (∀ vec, ∃ t, exec (.msixVectorUnmask fn vec) s = .next t ∧ (t.fn fn).masked.testBit vec = false ∧
      (t.fn fn).pending.testBit vec = false ∧ t = { s with fns := t.fns, msgs := t.msgs } ∧
      t.msgs = (if (s.fn fn).pending.testBit vec then s.msgs ++ [(fn, vec)] else s.msgs)) ∧
    (∀ (mine : ErrRec → Bool) (waits : Bool), mine = (fun r => r.book.receivers.contains fn) →
        waits = s.err.wait.any (fun y => y.1 == fn) →
      (waits = false → (s.fn fn).bookOn = false ∨ (s.fn fn).d3 = true ∨ s.err.q.any mine = false →
        exec (.fieldBookWrite fn) s = .next s) ∧
      (∀ k, waits = false → (s.fn fn).bookOn = true → (s.fn fn).d3 = false →
          (s.err.q.findIdx? (fun r => r.fatal && mine r) = some k ∨
            s.err.q.findIdx? (fun r => r.fatal && mine r) = none ∧ s.err.q.findIdx? mine = some k) →
        ∃ t, exec (.fieldBookWrite fn) s = .next t ∧ t.err.q = s.err.q.eraseIdx k ∧ t.regions = s.regions ∧ t.blocks = s.blocks) ∧
      (waits = true → (s.fn fn).bookOn = false ∨ (s.fn fn).bookRoom = false ∨ (s.fn fn).d3 = true →
        exec (.fieldBookWrite fn) s = .next s) ∧
      (∀ k y, waits = true → (s.fn fn).bookOn = true → (s.fn fn).bookRoom = true → (s.fn fn).d3 = false →
          s.err.wait.findIdx? (fun y => y.1 == fn) = some k → s.err.wait[k]? = some y →
        ∃ t, exec (.fieldBookWrite fn) s = .next t ∧ t.err.wait = s.err.wait.eraseIdx k ∧ t.err.q = s.err.q ∧
          t.host = s.host.wrN ((s.fn fn).book.rd FB_BASE_LO_BASE * 4096 + (s.fn fn).book.rd FB_BASE_HI_BASE * 2 ^ 32 +
              128 * ((s.fn fn).book.rd FB_TAIL_TAIL % (s.fn fn).bookSize))
            (y.2.image (s.fn fn).bookSize ((s.fn fn).book.rd FB_TAIL_TAIL))))) ∧
  (∀ (port : Nat) (s : State), port < 2 →
    (∃ t, exec (.linkDown port) s = .next t ∧ t.bit (if port = 0 then HIF_STAT_LINK0 else HIF_STAT_LINK1) = false ∧
      (∀ i, i < 17 → (t.fn (17 * port + i)).rings = [] ∧ ∀ y ∈ t.err.wait, y.1 ≠ 17 * port + i) ∧ t.ctxs = s.ctxs) ∧
    (∃ t, exec (.linkUp port) s = .next t ∧ t.bit (if port = 0 then HIF_STAT_LINK0 else HIF_STAT_LINK1) = true ∧ HubFrame s t))

/-- REGISTER_WRITE (00 R5 to R8, 17 R455; `applyRow` is what a write does to one field). -/
def Obligations.RegisterWrites : Prop :=
  (∀ (fn addr size : Nat) (v : BitVec 64) (s : State),
    (¬(size = 4 ∧ addr % 4 = 0) → ¬(size = 8 ∧ addr % 8 = 0) → exec (.registerWrite fn addr ⟨size, v⟩) s = .next s) ∧
    (addr % 8 = 0 → ∃ t u, exec (.registerWrite fn addr ⟨4, v⟩) s = .next t ∧ exec (.registerWrite fn (addr + 4) ⟨4, (v >>> 32)⟩) t = .next u ∧
      exec (.registerWrite fn addr ⟨8, v⟩) s = .next u)) ∧
  (∀ (fn addr : Nat) (v : BitVec 64) (s : State), addr % 4 = 0 →
    (isPf fn = true → s.ready = false → addr < 0x7200 ∨ 0x7400 ≤ addr → addr ≠ 0x903C →
      exec (.registerWrite fn addr ⟨4, v⟩) s = .next s.discard) ∧
    (isPf fn = false → 0x180 ≤ addr ∨ s.ready = false ∧ addr < 0x100 →
      exec (.registerWrite fn addr ⟨4, v⟩) s = .next s.discard)) ∧
  (∀ (fn a : Nat) (u : RegUnit) (v : BitVec 64) (w : Word) (s : State), a % 4 = 0 → isPf fn = true → s.ready = true →
    s.sealed = false → s.loading = false → u = .mon ∧ 0x9000 ≤ a ∧ a < 0xA000 ∨ u = .ctx ∧ 0xB000 ≤ a ∧ a < 0xB100 → a ≠ 0x903C →
    assigned u a = true → w = v.setWidth 32 → bitsOf w 31 31 = 0 →
    ∃ t, exec (.registerWrite fn a ⟨4, v⟩) s = .next t ∧
      (t.hub.of u).word u a = (rowsAt u a).foldl (fun x row => applyRow true row w x) ((s.hub.of u).word u a) ∧
      (∀ o, o ≠ a → (t.hub.of u).word u o = (s.hub.of u).word u o) ∧ t = { s with hub := s.hub.set u (t.hub.of u) }) ∧
  (∀ (fn blk o : Nat) (v : BitVec 64) (s : State) (a : Nat), blk < 4608 → isPf fn = true → s.ready = true → o % 4 = 0 → o < 0x1000 →
    a = 0x1000000 + regionOf blk * 0x100000 + 0x40000 + indexOf blk * 0x1000 + o →
    (s.reaches blk = false → exec (.registerWrite fn a ⟨4, v⟩) s = .next s.discard) ∧
    (s.reaches blk = true → ∃ t, exec (.registerWrite fn a ⟨4, v⟩) s = .next t ∧
      t.block blk = ((s.block blk).pageWrite (s.env blk 0) o (v.setWidth 32)).atRest ∧ ∀ k, k ≠ blk → t.block k = s.block k)) ∧
  (∀ (rws : Bool) (r : RegRow) (new old : Word) (i : Nat), r.field.lo ≤ r.field.hi → r.field.hi < 32 → i < 32 →
    (r.acc = .ro ∨ r.acc = .wo ∨ r.acc = .rws ∧ rws = false → applyRow rws r new old = old) ∧
    (r.acc = .rw ∨ r.acc = .rws → fieldBad r.field (r.field.of new) = true → applyRow rws r new old = old) ∧
    (r.acc = .rw ∨ r.acc = .rws ∧ rws = true → fieldBad r.field (r.field.of new) = false →
      (applyRow rws r new old).getLsbD i = if r.field.lo ≤ i ∧ i ≤ r.field.hi then new.getLsbD i else old.getLsbD i) ∧
    (r.acc = .w1c → (applyRow rws r new old).getLsbD i =
      (old.getLsbD i && !(new.getLsbD i && decide (r.field.lo ≤ i) && decide (i ≤ r.field.hi)))))

/-- CTX_ADMIT, CTX_TEARDOWN, TEARDOWN_REQUEST, LOADING_DONE and CLEARING_DONE (19 R502 to R512). -/
def Obligations.ContextsBeginAndEnd : Prop :=
  (∀ (fn ring slot : Nat) (s : State),
    (s.running fn ring slot 8 = none → exec (.ctxAdmit fn ring slot) s = .next s) ∧
    (s.running fn ring slot 9 = none → exec (.ctxTeardown fn ring slot) s = .next s)) ∧
  (∀ (fn ring slot : Nat) (s : State) (i : ItemRef) (x : Item) (p : Nat), fn < 34 → i = ⟨fn, ring, slot⟩ → p = x.num 16 1 % 16 →
    (s.running fn ring slot 8 = some x →
      (∀ code, s.admitCode p (x.num 24 6) = some code → ∃ t, exec (.ctxAdmit fn ring slot) s = .next t ∧ t.doneWith i 7 code ∧
        t.ctxs = s.ctxs ∧ t.hub = s.hub) ∧
      (s.admitCode p (x.num 24 6) = none → ∃ t, exec (.ctxAdmit fn ring slot) s = .next t ∧ t.pstate p = 1 ∧
        (t.ctx p).admitItem = some i ∧ (t.ctx p).firstWant = x.num 24 6 ∧ (t.ctx p).loaded = false ∧
        t = { s with hub := t.hub, ctxs := t.ctxs })) ∧
    (s.running fn ring slot 9 = some x →
      (s.pstate p ∉ [1, 2, 3] → ∃ t, exec (.ctxTeardown fn ring slot) s = .next t ∧ t.doneWith i 7 0x10 ∧ t.ctxs = s.ctxs) ∧
      (s.pstate p = 2 → (s.ctx p).req = none → ∃ t, exec (.ctxTeardown fn ring slot) s = .next t ∧
        (t.ctx p).req = some (if isPf fn then 1 else 2, s.inTime) ∧ (t.ctx p).tearItems = (s.ctx p).tearItems ++ [i] ∧
        t.rd CTX_STAT_CAUSE p = (if isPf fn then 1 else 2) ∧ t.pstate p = 2) ∧
      (s.pstate p = 2 → ∀ r, (s.ctx p).req = some r → ∃ t, exec (.ctxTeardown fn ring slot) s = .next t ∧ (t.ctx p).req = some r ∧
        (t.ctx p).tearItems = (s.ctx p).tearItems ++ [i] ∧ t.hub = s.hub) ∧
      (s.pstate p = 3 → ∃ t, exec (.ctxTeardown fn ring slot) s = .next t ∧
        t = s.setCtx p { s.ctx p with tearItems := (s.ctx p).tearItems ++ [i] }) ∧
      (s.pstate p = 1 → (s.ctx p).admitItem ≠ some i → ∃ t, exec (.ctxTeardown fn ring slot) s = .next t ∧ t.doneWith i 0 0 ∧
        t.pstate p = 4 ∧ (t.ctx p).clearing = [] ∧
        ∀ j, (s.ctx p).admitItem = some j → s.waits j → t.doneWith j 0x0B 0))) ∧
  (∀ (p cause : Nat) (s : State),
    (p = 0 ∨ 15 < p ∨ cause = 0 ∨ 9 < cause → exec (.teardownRequest p cause) s = .next s) ∧
    (1 ≤ p → p ≤ 15 → 1 ≤ cause → cause ≤ 9 →
      (s.pstate p = 2 → (s.ctx p).req = none → ∃ t, exec (.teardownRequest p cause) s = .next t ∧
        (t.ctx p).req = some (cause, s.inTime) ∧ t.rd CTX_STAT_CAUSE p = cause ∧ t.pstate p = 2 ∧ (t.ctx p).counted = countsCause cause) ∧
      (s.pstate p = 2 → ∀ r, (s.ctx p).req = some r → ∃ t, exec (.teardownRequest p cause) s = .next t ∧ (t.ctx p).req = some r ∧
        (t.ctx p).counted = ((s.ctx p).counted || countsCause cause) ∧ t.hub = s.hub) ∧
      (s.pstate p = 1 → ∃ t, exec (.teardownRequest p cause) s = .next t ∧ t.pstate p = 4 ∧ (t.ctx p).clearing = [] ∧
        ∀ j, (s.ctx p).admitItem = some j → s.waits j → t.doneWith j 0x0B 0) ∧
      (s.pstate p ≠ 1 → s.pstate p ≠ 2 → exec (.teardownRequest p cause) s = .next s))) ∧
  (∀ (p : Nat) (s : State),
    (s.pstate p = 1 → (s.ctx p).loaded = false → ∃ t, exec (.loadingDone p) s = .next t ∧ (t.ctx p).loaded = true ∧
      t.pstate p = 1 ∧ t.regions = s.regions ∧
      (∀ k ∈ s.stationBlocks p, k < 4608 → (t.block k).legs = [] ∧
        (s.absent k = false → (t.block k).held = [] ∧ (t.block k).core.mode = .halted)) ∧
      ∀ k, k ∉ s.stationBlocks p → t.block k = s.block k) ∧
    (s.pstate p ≠ 1 ∨ (s.ctx p).loaded = true → exec (.loadingDone p) s = .next s) ∧
    (s.pstate p = 4 → ∃ t, exec (.clearingDone p) s = .next t ∧ t.pstate p = 0 ∧ t.rd CTX_STAT_CLEARPEND p = 0 ∧
      (t.ctx p).clearing = [] ∧ (∀ c ∈ (s.ctx p).clearing, c.tgt = 1 → c.region < 24 → (s.region c.region).lost = false →
        ∀ a, 256 * c.base ≤ a → a < 256 * (c.base + c.len) → (t.region c.region).store.rd a = 0) ∧
      ∀ k ∈ s.listedBlocks, k < 4608 → (s.block k).rd RT_CTL_PARCEL = p → s.absent k = false → (t.block k).ldata = []) ∧
    (s.pstate p ≠ 4 → exec (.clearingDone p) s = .next s))

/-- REGION_RECORD_RECEIVED, HUB_RECORD_RECEIVED, REGION_CONTROLLER_FAULT and MANAGEMENT_PATH_CUT. A record's `ann` are the functions that
its announcement is due to. -/
def Obligations.FaultRecordsTravel : Prop :=
  (∀ (blk n k : Nat) (tr : Trace) (s : State), blk < 4608 → n = regionOf blk → k = nextRecord (s.block blk).recq →
    ((s.block blk).recq[k]? = none ∨ (s.region n).lost = true → exec (.regionRecordReceived blk tr) s = .next s) ∧
    (∀ r x, (s.block blk).recq[k]? = some r → (s.region n).lost = false →
      x = (s.region n).act (s.renv n 0) r tr (s.block blk).failPlace →
      ∃ t, exec (.regionRecordReceived blk tr) s = .next t ∧ (t.block blk).recq = (s.block blk).recq.eraseIdx k ∧
        t.region n = (x.1.queue x.2.1).atRest ∧ (x.2.2 = true → (t.block blk).bit BLK_MX_STAT_SUSPECT = true) ∧
        (x.2.2 = false → t.block blk = { s.block blk with recq := (s.block blk).recq.eraseIdx k }) ∧
        ∀ j, j ≠ blk → t.block j = s.block j)) ∧
  (∀ (n k : Nat) (s : State), n < 24 → k = nextRecord (s.region n).recq →
    ((s.region n).recq[k]? = none → exec (.hubRecordReceived n) s = .next s) ∧
    (∀ r, (s.region n).recq[k]? = some r → ∃ t, exec (.hubRecordReceived n) s = .next t ∧
      (t.region n).recq = (s.region n).recq.eraseIdx k ∧ t.blocks = s.blocks ∧
      (s.err.q.length < 448 → ∃ a, t.err.q = s.err.q ++ [{ r with ann := a }] ∧ (r.fatal = false → r.tell = false → a = [])) ∧
      (r.teardown = true → s.pstate r.parcel = 2 → (s.ctx r.parcel).req = none →
        (t.ctx r.parcel).req = some (4, s.inTime) ∧ t.rd CTX_STAT_CAUSE r.parcel = 4) ∧
      (r.teardown = false → t.ctxs = s.ctxs))) ∧
  (∀ q : List ErrRec, q ≠ [] → ∃ r, q[nextRecord q]? = some r ∧
    ((∃ x ∈ q, x.fatal = true) → r.fatal = true ∧ ∀ i, i < nextRecord q → ∀ x, q[i]? = some x → x.fatal = false) ∧
    ((∀ x ∈ q, x.fatal = false) → nextRecord q = 0)) ∧
  (∀ (n : Nat) (s : State),
    (24 ≤ n → exec (.regionControllerFault n) s = .next s ∧ exec (.managementPathCut n) s = .next s) ∧
    (n < 24 → ∃ t u, exec (.regionControllerFault n) s = .next t ∧ exec (.managementPathCut n) s = .next u ∧
      t.blocks = s.blocks ∧ u.blocks = s.blocks ∧
      ∀ m, m < 24 → ((t.region m).lost = ((s.region m).lost || (lostWith n).contains m)) ∧
        ((u.region m).lost = ((s.region m).lost || (lostWith n).contains m))))

/-- SUSPECT_CLEAR, LEDGER_RELEASE, LEDGER_CLEAR, HOST_FENCE and RETEST (18 R481 to R489, R499). -/
def Obligations.LedgerFencesAndRetests : Prop :=
  (∀ (n i b : Nat) (r : Retest) (s : State),
    ((s.region n).lost = true → exec (.suspectClear n i) s = .next s ∧ exec (.ledgerRelease n i) s = .next s ∧
      exec (.retest n r) s = .next s ∧
      (s.ready = true → exec (.ledgerClear n i) s = .next s ∧ exec (.hostFence n b) s = .next s)) ∧
    (s.ready = false → exec (.hostFence n b) s = .next s.discard ∧ exec (.ledgerClear n i) s = .next s.discard)) ∧
  ∀ (n : Nat) (s : State) (G : Region), n < 24 → G = s.region n → G.lost = false →
    (∀ i, G.ledger[i]? = none → ∃ t u v, exec (.suspectClear n i) s = .next t ∧ t.region n = G.atRest ∧ t.blocks = s.blocks ∧
      exec (.ledgerRelease n i) s = .next u ∧ u.region n = G.atRest ∧ exec (.ledgerClear n i) s = .next v ∧
      (s.ready = true → v.region n = G.atRest)) ∧
    (∀ i x, G.ledger[i]? = some x →
      (x.b < 192 → x.suspect = true → 256 * G.rd RGN_SUSP_CTL_CLRF ≤ x.clean → ∃ t, exec (.suspectClear n i) s = .next t ∧
        (t.region n).ledger = G.ledger.map (fun y => if y.b = x.b then
          { x with suspect := false, level := 0, ofs := 0, step := none } else y) ∧
        (t.block (chipBlk n x.b)).bit BLK_MX_STAT_SUSPECT = false) ∧
      (x.suspect = false ∨ x.clean < 256 * G.rd RGN_SUSP_CTL_CLRF → ∃ t, exec (.suspectClear n i) s = .next t ∧
        t.region n = G.atRest ∧ t.blocks = s.blocks) ∧
      (x.suspect = false → x.stamp + 86400000 ≤ s.ms → ∃ t, exec (.ledgerRelease n i) s = .next t ∧
        (t.region n).ledger = G.ledger.filter (fun y => y.b != x.b) ∧ RegionFrame n s t) ∧
      (x.suspect = true ∨ s.ms < x.stamp + 86400000 → ∃ t, exec (.ledgerRelease n i) s = .next t ∧ t.region n = G.atRest) ∧
      (s.ready = true → ∃ t, exec (.ledgerClear n i) s = .next t ∧
        (t.region n).ledger = G.ledger.filter (fun y => y.b != x.b) ∧ RegionFrame n s t)) ∧
    (∀ b, s.ready = true →
      (b < 192 → G.isFenced b = false → G.fencing.any (fun x => x.1 == b) = false →
        ∃ t, exec (.hostFence n b) s = .next t ∧ (t.region n).fencing = G.fencing ++ [(b, 6)] ∧ RegionFrame n s t) ∧
      (192 ≤ b ∨ G.isFenced b = true ∨ G.fencing.any (fun x => x.1 == b) = true →
        ∃ t, exec (.hostFence n b) s = .next t ∧ t.region n = G.atRest)) ∧
    (∀ r : Retest,
      (∀ b, r.block = some b → G.isFenced b = true → ∃ t, exec (.retest n r) s = .next t ∧ t.region n = G.atRest ∧
        t.blocks = s.blocks) ∧
      ((∀ b, r.block = some b → G.isFenced b = false) → ∃ t, exec (.retest n r) s = .next t ∧
        (t.region n).srcseq = G.srcseq + 1 ∧ (t.region n).store = G.store ∧ (t.region n).stack = G.stack ∧
        (G.recq.length < 64 → ∃ x, (t.region n).recq = G.recq ++ [x] ∧ x.cls = 7 ∧ x.subtype = 0xE3 ∧
          x.hard = (G.retestHard (s.renv n 0) r).1) ∧
        ((G.retestHard (s.renv n 0) r).1 = false → (t.region n).fencing = G.fencing ∧ t.flash = s.flash ∧ t.ctxs = s.ctxs) ∧
        ((G.retestHard (s.renv n 0) r).1 = true →
          (∀ b, r.block = some b → G.fencing.any (fun x => x.1 == b) = false → (t.region n).fencing = G.fencing ++ [(b, 3)]) ∧
          (r = .memTimeout → (t.region n).rd HBM_STAT_TRAINED = 0) ∧
          (∀ g q, r = .queue g q → (queueOf (n / 6 + 4 * g + 32 * q)).1.1 < 24 → q % 32 < 16 →
            (t.region (queueOf (n / 6 + 4 * g + 32 * q)).1.1).bit XQ_CAL_DEF (queueOf (n / 6 + 4 * g + 32 * q)).1.2 (q % 32) = true) ∧
          (s.flash.log.length + (G.retestAct (s.renv n 0) r).defects.length ≤ 3000 → G.defects = [] →
            t.flash.log.length = s.flash.log.length + (G.retestAct (s.renv n 0) r).defects.length)) ∧
        (∀ b a l, r = .scratchUe b a l → b < 192 →
          (∀ y, y < 16 → (t.block (chipBlk n b)).spm.rd (16 * (a / 16) + y) = 0xAA) ∧
          ∀ k, k ≠ chipBlk n b → t.block k = s.block k) ∧
        ((∀ b a l, r ≠ .scratchUe b a l) → t.blocks = s.blocks)))

/-- TESTPACK, TEST_TILE_DONE, TESTPACK_ROUND and TESTPACK_STOP (18 R494 to R496). A fill tile (16 R441) is the test number 64 of
TEST_TILE_DONE (the model's choice, log 57). -/
def Obligations.TestPacks : Prop :=
  (∀ (fn ring slot : Nat) (pack : Option (List Byte)) (ok : Bool) (s : State) (i : ItemRef),
    (s.running fn ring slot 0xA = none → exec (.testpack fn ring slot pack ok) s = .next s) ∧
    (∀ x, fn < 34 → i = ⟨fn, ring, slot⟩ → s.running fn ring slot 0xA = some x →
      (pack = none → ∃ t, exec (.testpack fn ring slot pack ok) s = .next t ∧ t.doneWith i 9 0 ∧ t.tpk = s.tpk) ∧
      (∀ bs, pack = some bs →
        (∀ code, s.packCode bs ok = some code → ∃ t, exec (.testpack fn ring slot pack ok) s = .next t ∧ t.doneWith i 7 code ∧
          t.rd TPK_STAT_REFUSE = code ∧ t.tpk = s.tpk) ∧
        (s.packCode bs ok = none → ∃ t, exec (.testpack fn ring slot pack ok) s = .next t ∧ t.doneWith i 0 0 ∧
          t.tpk.lastId = some (numAt bs 8 4) ∧ t.tpk.next = some (numAt bs 8 4, numAt bs 12 2, numAt bs 16 3,
            (List.range (numAt bs 6 2)).map (testEntry bs)) ∧ t.rd TPK_STAT_STATE ≠ 0)))) ∧
  (∀ (blk cyc test : Nat) (faults : List CellFault) (s : State), test ≠ 64 →
    (s.tpk.tests[test]? = none ∨ s.rd TPK_STAT_STATE ≠ 2 ∨ s.takesTest blk = false ∨
        (s.tpk.ran.contains (blk, test) = true ∧ s.tpk.failed.contains (blk, test) = false) →
      exec (.testTileDone blk cyc test faults) s = .next s) ∧
    (∀ e ok, s.tpk.tests[test]? = some e → s.rd TPK_STAT_STATE = 2 → s.takesTest blk = true →
      ok = ((testPass (s.block blk) e faults).1.fail.isNone && (testPass (s.block blk) e faults).2 == e.expect) →
      (s.tpk.ran.contains (blk, test) = false → s.tpk.failed.contains (blk, test) = false →
        ∃ t, exec (.testTileDone blk cyc test faults) s = .next t ∧ t.tpk.run = s.tpk.run + 1 ∧ blk ∈ t.tpk.covered ∧
          (blk, test) ∈ t.tpk.ran ∧ t.tpk.once = s.tpk.once ∧ t.tpk.twice = s.tpk.twice ∧
          ((blk, test) ∈ t.tpk.failed ↔ ok = false) ∧ ∀ k, k ≠ blk → t.block k = s.block k) ∧
      (s.tpk.failed.contains (blk, test) = true → ∃ t, exec (.testTileDone blk cyc test faults) s = .next t ∧
        t.tpk.run = s.tpk.run + 1 ∧ blk ∈ t.tpk.covered ∧ (blk, test) ∉ t.tpk.failed ∧
        t.tpk.once = s.tpk.once + (if ok then 1 else 0) ∧ t.tpk.twice = s.tpk.twice + (if ok then 0 else 1) ∧
        t.bit TPK_STAT_FAIL = (s.bit TPK_STAT_FAIL || !ok) ∧
        (ok = false → blk < 4608 → (t.block blk).bit BLK_MX_STAT_POISON = true ∧ (t.block blk).bit BLK_MX_STAT_SUSPECT = true) ∧
        ∀ k, k ≠ blk → t.block k = s.block k))) ∧
  (∀ (blk cyc : Nat) (faults : List CellFault) (s : State),
    (s.takesFill blk = false → exec (.testTileDone blk cyc 64 faults) s = .next s) ∧
    (∀ B p, blk < 4608 → s.takesFill blk = true → B = s.blockAt blk cyc →
      p = (testPass B { fa := 0, fb := 0, k := 256, seed := Config.fillSeed, expect := 0 } faults).1.fail →
      ∃ t, exec (.testTileDone blk cyc 64 faults) s = .next t ∧ t.tpk = s.tpk ∧ BlockFrame blk s t ∧
        (t.block blk).testRun = (if p.isSome && B.testRun == 0 then 1 else 0) ∧
        (p.isSome = true → B.testRun = 0 → (t.block blk).bit BLK_MX_STAT_REPLAY = true) ∧
        (p.isSome = true → B.testRun ≠ 0 → (t.block blk).bit BLK_MX_STAT_POISON = true ∧
          (t.block blk).bit BLK_MX_STAT_SUSPECT = true) ∧
        (p = none → B.testRun ≠ 0 → (t.block blk).bit BLK_MX_STAT_TRANS = true))) ∧
  (∀ s : State, (s.rd TPK_STAT_STATE ≠ 2 ∨ s.frame.num < s.tpk.start + s.tpk.period → exec .testpackRound s = .next s) ∧
    (s.rd TPK_STAT_STATE = 2 → s.tpk.start + s.tpk.period ≤ s.frame.num → ∃ t, exec .testpackRound s = .next t ∧
      t.tpk.round = s.tpk.round + 1 ∧ t.tpk.start = s.frame.num ∧ t.tpk.run = 0 ∧ t.tpk.covered = [] ∧ t.tpk.firstFail = none ∧
      t.rd TPK_STAT_ROUNDS = min (s.rd TPK_STAT_ROUNDS + 1) 0xFFFF) ∧
    (s.ready = true → ∃ t, exec .testpackStop s = .next t ∧ t = { s with tpk := { s.tpk with stop := true } }) ∧
    (s.ready = false → exec .testpackStop s = .next s.discard))

/-- FABRIC_PHASE_LOST (15 R420). The record's place is shown where the queue it goes to has room. -/
def Obligations.FabricRailPhases : Prop :=
  ∀ (n ph : Nat) (s : State), n < 24 → ph < 2 → (s.region n).lost = false →
    ((s.region n).rd PWR_FAB_PHOK = 3 → ∃ t, exec (.fabricPhaseLost n ph) s = .next t ∧
      (t.region n).rd PWR_FAB_PHOK = 3 - 2 ^ ph ∧ (t.region n).lost = false ∧ (t.region n).srcseq = (s.region n).srcseq + 1 ∧
      ((s.region n).recq.length < 64 → ∃ r, (t.region n).recq = (s.region n).recq ++ [r] ∧ r.cls = 9 ∧ r.subtype = 0xA8) ∧
      ∀ m, m ≠ n → t.region m = s.region m) ∧
    ((s.region n).rd PWR_FAB_PHOK = 2 ^ ph → ∃ t, exec (.fabricPhaseLost n ph) s = .next t ∧
      (t.region n).rd PWR_FAB_PHOK = 0 ∧ (t.region n).lost = true ∧
      (s.err.q.length < 448 → ∃ r q, t.err.q = s.err.q ++ r :: q ∧ r.cls = 9 ∧ r.subtype = 0xA4 ∧ r.region = n))

/-- POWER_SAMPLE, CURRENT_WINDOW and CONTROL_INTERVAL (15 R423, 16 R430 to R439). Values between two units go to the nearest (the model's
choice, log 24). -/
def Obligations.SamplesWindowsAndIntervals : Prop :=
  (∀ (m : Meas) (s : State), s.bit PWR_IN_STAT_AUXOK = true → ∃ t, exec (.powerSample m) s = .next t ∧
    t.rd PWR_SAMPLE_N = min (s.rd PWR_SAMPLE_N + 1) 0xFFFFFFFF ∧ t.rd PWR_IN_V_V = min (nearest m.inV 10) 0xFFFF ∧
    t.rd PWR_IN_I_I = min (nearest m.inI 100) 0xFFFF ∧ t.rd PWR_IN_P_P = min (nearest m.inP 1000) 0xFFFF ∧
    t.bit PWR_IN_STAT_MAINOK = decide (40000 ≤ m.inV ∧ m.inV ≤ 60000) ∧
    (m.hubT < 115 → (∀ x ∈ m.tj, x < 115) → ∀ n, n < 24 →
      (t.region n).rd THM_RGN_TJ = m.tj.getD n 0 ∧ (t.region n).rd THM_RGN_TS = min (m.ts.getD n 0) 255)) ∧
  (∀ (n k ma : Nat) (s : State) (lim q : Nat), q = (s.region n).rd PCTL_DOM_QI k →
    lim = min (125 * (s.region n).rd PCTL_ILIM_LIM k) ((s.region n).rated k) →
    (24 ≤ n ∨ 4 ≤ k ∨ (s.region n).lost = true ∨ (s.region n).rd PWR_DOM_STAT_STATE k ≠ 1 →
      exec (.currentWindow (.dom n k ma)) s = .next s) ∧
    (n < 24 → k < 4 → (s.region n).lost = false → (s.region n).rd PWR_DOM_STAT_STATE k = 1 →
      (lim < ma → ∃ t, exec (.currentWindow (.dom n k ma)) s = .next t ∧
        (t.region n).rd PCTL_DOM_QI k = if q ≤ 6 then min q 4 else q - 2) ∧
      (ma ≤ lim → 10 * ma < 9 * lim → (s.dom (4 * n + k)).low90 = 31 → ∃ t, exec (.currentWindow (.dom n k ma)) s = .next t ∧
        (t.region n).rd PCTL_DOM_QI k = min 16 (q + 1) ∧ (t.dom (4 * n + k)).low90 = 0) ∧
      (ma ≤ lim → 10 * ma < 9 * lim → (s.dom (4 * n + k)).low90 ≠ 31 → ∃ t, exec (.currentWindow (.dom n k ma)) s = .next t ∧
        t.regions = s.regions ∧ t.blocks = s.blocks ∧ (t.dom (4 * n + k)).low90 = (s.dom (4 * n + k)).low90 + 1) ∧
      (9 * lim ≤ 10 * ma → ma ≤ lim → ∃ t, exec (.currentWindow (.dom n k ma)) s = .next t ∧ t.regions = s.regions ∧
        t.blocks = s.blocks ∧ (t.dom (4 * n + k)).low90 = 0))) ∧
  (∀ (c ma : Nat) (s : State),
    (12 ≤ c ∨ (s.rd PWR_IBC_IBCOK).testBit c = false ∨ 18 * ma ≤ 13000000 → exec (.currentWindow (.ibc c ma)) s = .next s) ∧
    (c < 12 → (s.rd PWR_IBC_IBCOK).testBit c = true → 13000000 < 18 * ma → ∃ t, exec (.currentWindow (.ibc c ma)) s = .next t ∧
      ∀ r k, r = 6 * (c / 3) + 2 * (c % 3) ∨ r = 6 * (c / 3) + 2 * (c % 3) + 1 → k < 4 → (t.region r).rd PCTL_DOM_QI k =
        if (s.region r).rd PCTL_DOM_QI k ≤ 6 then min ((s.region r).rd PCTL_DOM_QI k) 4 else (s.region r).rd PCTL_DOM_QI k - 2)) ∧
  (∀ (draws : List Nat) (s : State) (e : Nat), s.bit PWR_IN_STAT_AUXOK = true →
    e = draws.foldl (fun a x => a + x) 0 + s.pw.other → ∃ t, exec (.controlInterval draws) s = .next t ∧
      (s.pw.cap < e → ∀ i d, i < 8 → d = (s.pw.rrCap + i) % 96 →
        (t.region (d / 4)).rd PCTL_DOM_QC (d % 4) = max 1 ((s.region (d / 4)).rd PCTL_DOM_QC (d % 4) - 1)) ∧
      (e ≤ s.pw.cap → 100 * e < 98 * s.pw.cap → ∀ i d, i < 8 → d = (s.pw.rrCap + i) % 96 →
        (t.region (d / 4)).rd PCTL_DOM_QC (d % 4) = min 16 ((s.region (d / 4)).rd PCTL_DOM_QC (d % 4) + 1)) ∧
      (e ≤ s.pw.cap → 98 * s.pw.cap ≤ 100 * e → ∀ n k, n < 24 → k < 4 →
        (t.region n).rd PCTL_DOM_QC k = (s.region n).rd PCTL_DOM_QC k) ∧
      (s.rd GRD_STAT_STATE = 0 ∨ 5 ≤ s.rd GRD_STAT_STATE ∨ e ≤ s.pw.g + 5 * s.tdp ∧ s.pw.g ≤ e + 5 * s.tdp → ∀ n k, n < 24 → k < 4 →
        (t.region n).rd PCTL_DOM_QG k = (s.region n).rd PCTL_DOM_QG k) ∧
      (1 ≤ s.rd GRD_STAT_STATE → s.rd GRD_STAT_STATE < 5 → e ≤ s.pw.cap → 98 * s.pw.cap ≤ 100 * e →
        ∀ i d q f, i < (if s.pw.g + 20 * s.tdp < e ∨ e + 20 * s.tdp < s.pw.g then 8 else 1) → d = (s.pw.rrGrade + i) % 96 →
          q = (s.region (d / 4)).rd PCTL_DOM_QG (d % 4) → f = (if s.fillOk then (s.region (d / 4)).rd PCTL_FILL_FQ (d % 4) else 0) →
          (s.pw.g + 5 * s.tdp < e → (t.region (d / 4)).rd PCTL_DOM_QG (d % 4) = (if f = 0 then max 1 (q - 1) else q) ∧
            (f ≠ 0 → (t.region (d / 4)).rd PCTL_FILL_FQ (d % 4) = f - 1)) ∧
          (e + 5 * s.tdp < s.pw.g → (t.region (d / 4)).rd PCTL_DOM_QG (d % 4) = (if q < 16 then q + 1 else q)))) ∧
  (∀ (m : Meas) (draws : List Nat) (s : State), s.bit PWR_IN_STAT_AUXOK = false →
    exec (.powerSample m) s = .next s ∧ exec (.controlInterval draws) s = .next s)

/-- The inputs, converters, phases and domain commands of chapters 15 to 17. -/
def Obligations.InputsPhasesAndDomains : Prop :=
  (∀ s : State,
    (s.bit PWR_IN_STAT_AUXOK = false ∨ s.bit PWR_IN_STAT_MAINOK = false ∧ s.bit PWR_IBC_HCOK = false →
      exec .mainInputLost s = .next s) ∧
    (s.bit PWR_IN_STAT_AUXOK = true → s.bit PWR_IN_STAT_MAINOK = true ∨ s.bit PWR_IBC_HCOK = true →
      ∃ t, exec .mainInputLost s = .next t ∧ t.bit PWR_IN_STAT_MAINOK = false ∧ t.bit PWR_IN_STAT_INLOST = true ∧
        t.regions = [] ∧ t.blocks = [] ∧ t.frame.running = false ∧ t.fuse = s.fuse ∧ t.flash = s.flash ∧
        (s.rd BRUP_STAT_STAGE = 6 → t.oos = true) ∧
        (2 ≤ s.rd BRUP_STAT_STAGE → s.rd BRUP_STAT_STAGE ≤ 5 → t.rd BRUP_STAT_STAGE = 1 ∧ t.mc.waiting = true)) ∧
    (s.bit PWR_IN_STAT_AUXOK = false → exec .mainInputApplied s = .next s) ∧
    (s.bit PWR_IN_STAT_AUXOK = true → ∃ t, exec .mainInputApplied s = .next t ∧ t.bit PWR_IN_STAT_MAINOK = true ∧
      t.regions = s.regions ∧
      (s.mc.waiting = true → s.rd BRUP_STAT_STAGE = 1 → t.rd BRUP_STAT_STAGE = 2 ∧ t.rd PWR_IBC_IBCOK = 0xFFF ∧
        t.bit PWR_IBC_HCOK = true) ∧
      (s.mc.waiting = false ∨ s.rd BRUP_STAT_STAGE ≠ 1 → t = s.wr PWR_IN_STAT_MAINOK 1))) ∧
  (∀ (k : Nat) (s : State),
    ((s.rd PWR_IBC_IBCOK).testBit k = false → exec (.converterFault false k) s = .next s) ∧
    ((s.rd PWR_IBC_HBCOK).testBit k = false → exec (.converterFault true k) s = .next s) ∧
    (k < 12 → (s.rd PWR_IBC_IBCOK).testBit k = true → ∃ t, exec (.converterFault false k) s = .next t ∧
      (t.rd PWR_IBC_IBCOK).testBit k = false ∧ t.bit PWR_IBC_IBCFAIL = true ∧
      (t.region (6 * (k / 3) + 2 * (k % 3))).lost = true ∧ (t.region (6 * (k / 3) + 2 * (k % 3) + 1)).lost = true) ∧
    (k < 4 → (s.rd PWR_IBC_HBCOK).testBit k = true → ∃ t, exec (.converterFault true k) s = .next t ∧
      (t.rd PWR_IBC_HBCOK).testBit k = false ∧ ∀ f, f < 6 → (t.region (6 * k + f)).lost = true ∧ (t.region (6 * k + f)).stack = [])) ∧
  (∀ (n dom ph : Nat) (s : State) (G : Region) (ok st : Nat), G = s.region n →
    ok = G.rd PWR_DOM_STAT_PHOK dom → st = G.rd PWR_DOM_STAT_STATE dom →
    (24 ≤ n ∨ 4 ≤ dom ∨ G.lost = true ∨ st = 0 ∨ st = 3 ∨ ok.testBit ph = false → exec (.phaseLost n dom ph) s = .next s) ∧
    (n < 24 → dom < 4 → G.lost = false → st = 1 ∨ st = 2 → ok.testBit ph = true →
      (ok = 255 → ∃ t, exec (.phaseLost n dom ph) s = .next t ∧
        (t.region n).rd PWR_DOM_STAT_PHOK dom = 255 - 2 ^ ph ∧ (t.region n).bit PWR_DOM_STAT_CAP dom = true ∧
        (t.region n).rd PCTL_DOM_QPH dom = 13 ∧ (t.region n).rd PWR_DOM_STAT_STATE dom = st ∧
        ∀ b, b ∉ domBlocks n dom → t.block b = s.block b) ∧
      (ok ≠ 255 → ∃ t, exec (.phaseLost n dom ph) s = .next t ∧
        (t.region n).rd PWR_DOM_STAT_PHOK dom = 0 ∧ (t.region n).rd PWR_DOM_STAT_STATE dom = 3 ∧
        (∀ b ∈ domBlocks n dom, (t.block b).spm = [] ∧ (t.block b).imem = [] ∧ (t.block b).stakes = []) ∧
        ∀ b, b ∉ domBlocks n dom → t.block b = s.block b))) ∧
  (∀ (n dom ph : Nat) (pass : Bool) (s : State) (G : Region) (U : List Nat) (X : DomSt), G = s.region n → U = s.untested n dom →
    X = s.dom (4 * n + dom) →
    (24 ≤ n ∨ 4 ≤ dom ∨ s.rd BRUP_STAT_STAGE ≠ 3 ∨ G.lost = true ∨ G.rd PWR_DOM_STAT_STATE dom ≠ 0 ∨ ph ∉ U →
      exec (.phaseTest n dom ph pass) s = .next s) ∧
    (∀ c ok, n < 24 → dom < 4 → s.rd BRUP_STAT_STAGE = 3 → G.lost = false → G.rd PWR_DOM_STAT_STATE dom = 0 → ph ∈ U →
      c = ((X.tries.find? (fun t => t.1 == ph)).map (fun t => t.2)).getD 0 + 1 →
      ok = (if pass then X.passed ++ [ph] else X.passed).foldl (fun m p => m ||| 2 ^ p) 0 →
      ∃ t, exec (.phaseTest n dom ph pass) s = .next t ∧
        (pass = true → U ≠ [ph] → t.region n = G ∧ (t.dom (4 * n + dom)).passed = X.passed ++ [ph]) ∧
        (pass = false → c ≠ 3 → t.region n = G ∧
          (t.dom (4 * n + dom)).tries = (ph, c) :: X.tries.filter (fun t => t.1 != ph)) ∧
        (pass = false → c = 3 → U ≠ [ph] → (t.region n).srcseq = G.srcseq + 1 ∧ (t.region n).rd PWR_DOM_STAT_STATE dom = 0) ∧
        ((pass = true ∨ c = 3) → U = [ph] → (t.dom (4 * n + dom)).passed = [] ∧ (t.dom (4 * n + dom)).tries = [] ∧
          (7 ≤ bitsSet ok 8 → (t.region n).rd PWR_DOM_STAT_STATE dom = 1 ∧ (t.region n).rd PWR_DOM_STAT_PHOK dom = ok % 256) ∧
          (bitsSet ok 8 < 7 → (t.region n).rd PWR_DOM_STAT_STATE dom = 3 ∧ (t.region n).rd PWR_DOM_STAT_PHOK dom = 0)))) ∧
  (∀ (n dom v : Nat) (s : State) (G : Region), G = s.region n →
    (s.ready = false → exec (.domainStateRequest n dom v) s = .next s.discard ∧ exec (.ofsWrite n dom v) s = .next s.discard) ∧
    (s.ready = true → 24 ≤ n ∨ 4 ≤ dom ∨ G.lost = true →
      exec (.domainStateRequest n dom v) s = .next s ∧ exec (.ofsWrite n dom v) s = .next s) ∧
    (s.ready = true → n < 24 → dom < 4 → G.lost = false → ∃ t u, exec (.domainStateRequest n dom v) s = .next t ∧
      exec (.ofsWrite n dom v) s = .next u ∧ RegionFrame n s t ∧ RegionFrame n s u ∧
      (v = 0 ∨ 3 ≤ v → t.region n = G.atRest) ∧
      (v = 2 → s.domUsed n dom = true → (t.region n).bit PWR_DOM_STAT_RETREF dom = true ∧
        (t.region n).rd PWR_DOM_CTL_REQ dom = G.rd PWR_DOM_CTL_REQ dom) ∧
      (v = 1 ∨ v = 2 ∧ s.domUsed n dom = false → (t.region n).rd PWR_DOM_CTL_REQ dom = v) ∧
      (4 < v → u.region n = G.atRest) ∧
      (v ≤ 4 → G.rd PWR_DOM_STAT_STATE dom = 1 → 72 < G.vidAt s.gradeIdx dom G.cur v →
        (u.region n).bit PWR_DOM_STAT_OFSREF dom = true ∧ (u.region n).rd PWR_DOM_CTL_OFS dom = G.rd PWR_DOM_CTL_OFS dom) ∧
      (v ≤ 4 → G.rd PWR_DOM_STAT_STATE dom ≠ 1 ∨ G.vidAt s.gradeIdx dom G.cur v ≤ 72 →
        (u.region n).rd PWR_DOM_CTL_OFS dom = v))) ∧
  (∀ (n dom slack : Nat) (s : State) (G : Region), G = s.region n →
    (24 ≤ n ∨ 4 ≤ dom ∨ G.lost = true ∨ G.rd PWR_DOM_STAT_STATE dom ≠ 1 → exec (.ageMeasure n dom slack) s = .next s) ∧
    (n < 24 → dom < 4 → G.lost = false → G.rd PWR_DOM_STAT_STATE dom = 1 → ∃ t, exec (.ageMeasure n dom slack) s = .next t ∧
      (t.region n).rd AGE_MON_SLACK dom = min slack 255 ∧
      (t.dom (4 * n + dom)).ageLow = if slack < s.rd AGE_THR_PS then min ((s.dom (4 * n + dom)).ageLow + 1) 2 else 0)) ∧
  (∀ (v : Word) (s : State),
    (s.ready = false → exec (.pcapWrite v) s = .next s.discard) ∧
    (s.ready = true → ∃ t, exec (.pcapWrite v) s = .next t ∧ t.rd PCAP_RAMP = PCAP_RAMP.of v ∧
      t.rd PCAP_CAP = (if s.tdp ≤ 4 * PCAP_CAP.of v ∧ PCAP_CAP.of v ≤ s.tdp then PCAP_CAP.of v else s.rd PCAP_CAP) ∧
      t.pw.cap = (if s.pw.cap ≤ 1000 * t.rd PCAP_CAP ∨ PCAP_RAMP.of v = 0 then 1000 * t.rd PCAP_CAP else s.pw.cap) ∧
      t.regions = s.regions)) ∧
  (∀ (ok : Bool) (s : State), (s.mc.mainMs / 3600000 < s.mc.hoursLogged + 24 → exec (.hoursRecord ok) s = .next s) ∧
    (s.mc.hoursLogged + 24 ≤ s.mc.mainMs / 3600000 → ∃ t, exec (.hoursRecord ok) s = .next t ∧
      t.mc.hoursLogged = s.mc.hoursLogged + 24 ∧
      (ok = true → s.flash.log.length < 3000 → t.flash.log = s.flash.log ++ [.hours (s.mc.hours0 + (s.mc.hoursLogged + 24))]) ∧
      (ok = false ∨ 3000 ≤ s.flash.log.length → t.flash = s.flash ∧ t.err.srcseq = s.err.srcseq + 1)))

/-- The PMBus rows (15 R424, Tables 15-7 and 15-8). STATUS_WORD's bits and the handling of a wrong code follow the PMBus
specification (the model's, log 8). -/
def Obligations.PmbusCommands : Prop :=
  (∀ (s : State) (v code : Nat) (pec : Option Bool) (c : Instr), s.bit PWR_IN_STAT_AUXOK = false →
    c = .pmbusPage v pec ∨ c = .pmbusClearFaults pec ∨ c = .voutMode ∨ c = .statusWord ∨ c = .statusIout ∨ c = .statusInput ∨
      c = .statusCml ∨ c = .readVin ∨ c = .readIin ∨ c = .readVout ∨ c = .readIout ∨ c = .readTemperature1 ∨ c = .readPout ∨
      c = .readPin ∨ c = .pmbusRevision ∨ c = .pmbusUnsupported code → exec c s = .next { s with answer := .nack }) ∧
  (∀ s : State, s.bit PWR_IN_STAT_AUXOK = true →
    (∀ v pec c, c = .pmbusPage v pec ∨ c = .pmbusClearFaults pec →
      (pec = some false → exec c s = .next { s with pw := { s.pw with cml := s.pw.cml ||| 0x20 } }) ∧
      (pec = none → s.bit PWR_PMB_PECREQ = true → exec c s = .next s)) ∧
    (∀ v pec, pec = some true ∨ pec = none ∧ s.bit PWR_PMB_PECREQ = false →
      (pageListed v = true → exec (.pmbusPage v pec) s = .next { s with pw := { s.pw with page := v } }) ∧
      (pageListed v = false → exec (.pmbusPage v pec) s = .next { s with pw := { s.pw with cml := s.pw.cml ||| 0x40 } }) ∧
      (∃ t, exec (.pmbusClearFaults pec) s = .next t ∧ t.pw.cml = 0 ∧ t.smbAlert = true ∧ (∀ p, t.statIout p = 0) ∧
        t = { s with pw := { s.pw with iout := t.pw.iout, input := 0, cml := 0 } })) ∧
    exec .voutMode s = .next (s.reply 1 0x14) ∧ exec .pmbusRevision s = .next (s.reply 1 0x33) ∧
    exec .statusWord s = .next (s.reply 2 s.statWord) ∧ exec .statusIout s = .next (s.reply 1 (s.statIout s.pw.page)) ∧
    exec .statusInput s = .next (s.reply 1 (s.statInput s.pw.page)) ∧ exec .statusCml s = .next (s.reply 1 s.pw.cml) ∧
    exec .readVin s = .next (s.reply 2 (linear11 s.rail.vin 1000)) ∧ exec .readVout s = .next (s.reply 2 (linear16 s.rail.v)) ∧
    exec .readIout s = .next (s.reply 2 (linear11 s.rail.i 1000)) ∧
    exec .readTemperature1 s = .next (s.reply 2 (linear11 s.rail.t 1)) ∧
    exec .readPout s = .next (s.reply 2 (linear11 (s.rail.v * s.rail.i) 1000000)) ∧
    (s.pw.page = 0 → exec .readIin s = .next (s.reply 2 (linear11 s.rail.i 1000)) ∧
      exec .readPin s = .next (s.reply 2 (linear11 (if s.railOff 0 then 0 else s.pw.lastP) 1000))) ∧
    (s.pw.page ≠ 0 → exec .readIin s = .next s.unsupported ∧ exec .readPin s = .next s.unsupported) ∧
    (∀ code, code ∈ pmbusCodes → exec (.pmbusUnsupported code) s = .next s) ∧
    (∀ code, code ∉ pmbusCodes → exec (.pmbusUnsupported code) s = .next s.unsupported)) ∧
  (∀ s : State, s.unsupported.answer = .nack ∧ s.unsupported.pw.cml = s.pw.cml ||| 0x80)

/-- POWER_ON, AUX_INPUT_LOST, COLD_RESET, HUB_RST_COLD, JTAG_COLD_RESET, STAGE_END and STAGE_LIMIT. That an unfinished stage 1 is
recovery is the model's choice (log 26); where a controller's images stand in its memory is too (log 59). -/
def Obligations.ResetsAndStages : Prop :=
  (∀ s : State,
    (s.bit PWR_IN_STAT_AUXOK = false → ∃ t, exec .powerOn s = .next t ∧ t.bit PWR_IN_STAT_AUXOK = true ∧
      t.rd BRUP_STAT_STAGE = 1 ∧ t.ready = false ∧ t.regions = [] ∧ t.blocks = [] ∧ t.fuse = s.fuse ∧ t.flash = s.flash.boot) ∧
    (s.bit PWR_IN_STAT_AUXOK = true → exec .powerOn s = .next s) ∧
    (∃ t, exec .auxInputLost s = .next t ∧ t.bit PWR_IN_STAT_AUXOK = false ∧ t.bit PWR_IN_STAT_MAINOK = false ∧ t.regions = [] ∧
      t.blocks = [] ∧ t.frame.running = false ∧ t.fuse = s.fuse ∧ t.otp = s.otp ∧ t.flash = s.flash.boot) ∧
    (s.bit PWR_IN_STAT_AUXOK = false → exec .coldReset s = .next s ∧ exec .jtagColdReset s = .next s) ∧
    (∀ c, (c = .coldReset ∨ c = .jtagColdReset) ∧ s.bit PWR_IN_STAT_AUXOK = true ∨
        (s.ready = true ∧ ∃ v, HUB_RST_KEY.of v = 0x5A ∧ HUB_RST_COLD.on v = true ∧ c = .hubRstCold v) →
      ∃ t, exec c s = .next t ∧ t.rd BRUP_STAT_STAGE = 1 ∧ t.ready = false ∧ t.oos = false ∧ t.mc.crashPend = true ∧
        t.mc.crash = crashOf s.err.q ∧ t.regions = [] ∧ t.blocks = [] ∧ t.fuse = s.fuse ∧ t.flash = s.flash.boot) ∧
    (∀ v, s.ready = false ∨ HUB_RST_KEY.of v ≠ 0x5A → exec (.hubRstCold v) s = .next s.discard) ∧
    (∀ v, s.ready = true → HUB_RST_KEY.of v = 0x5A → HUB_RST_COLD.on v = false → exec (.hubRstCold v) s = .next s)) ∧
  (∀ (r : StageResult) (s : State),
    (s.mc.recovery = true ∨ s.mc.waiting = true → exec (.stageEnd r) s = .next s ∧ exec (.stageLimit r) s = .next s) ∧
    (s.rd BRUP_STAT_STAGE ∉ [1, 2, 3, 4, 5] → exec (.stageEnd r) s = .next s ∧ exec (.stageLimit r) s = .next s) ∧
    (s.mc.recovery = false → s.mc.waiting = false →
      (s.rd BRUP_STAT_STAGE = 1 → ∃ t, exec (.stageEnd r) s = .next t ∧
        (∀ c, s.fuseBad = some c → t.rd BRUP_STAT_STAGE = 7 ∧ t.bit BRUP_STAT_HALT = true ∧ t.rd BRUP_STAT_CODE = c) ∧
        (s.fuseBad = none → s.flash.factory = none → t.rd BRUP_STAT_STAGE = 7 ∧ t.rd BRUP_STAT_CODE = 1) ∧
        (s.fuseBad = none → s.flash.factory ≠ none → s.bit PWR_IN_STAT_MAINOK = true → t.rd BRUP_STAT_STAGE = 2) ∧
        (s.fuseBad = none → s.flash.factory ≠ none → s.bit PWR_IN_STAT_MAINOK = false →
          t.rd BRUP_STAT_STAGE = 1 ∧ t.mc.waiting = true)) ∧
      (s.rd BRUP_STAT_STAGE = 2 → ∃ t, exec (.stageEnd r) s = .next t ∧
        (r.noRef = true → t.rd BRUP_STAT_STAGE = 7 ∧ t.rd BRUP_STAT_CODE = 3) ∧
        (r.noRef = false → t.frame.running = true ∧ t.frame.num = 0 ∧ t.mc.ends = r.ends ∧
          (∀ n, n < 24 → n ∈ r.rgnPll ∨ n ∈ r.fabRail ∨ n / 6 ∈ r.diePll → (t.region n).lost = true) ∧
          ((∃ n, n < 24 ∧ (t.region n).lost = false) → t.rd BRUP_STAT_STAGE = 3) ∧
          ((∀ n, n < 24 → (t.region n).lost = true) → t.rd BRUP_STAT_STAGE = 7 ∧ t.rd BRUP_STAT_CODE = 4))) ∧
      (s.rd BRUP_STAT_STAGE = 3 → ∃ t, exec (.stageEnd r) s = .next t ∧ t.mc.mapPend ≠ none ∧
        (∀ n, n < 24 → n ∈ r.rgnMem → (t.region n).lost = true) ∧
        (∀ n, n < 24 → (t.region n).lost = false → n ∉ r.stkBad → (t.region n).bit HBM_STAT_TRAINED = true) ∧
        ((∃ n, n < 24 ∧ (t.region n).lost = false) → t.rd BRUP_STAT_STAGE = 4) ∧
        ((∀ n, n < 24 → (t.region n).lost = true) → t.rd BRUP_STAT_STAGE = 7 ∧ t.rd BRUP_STAT_CODE = 4)) ∧
      (s.rd BRUP_STAT_STAGE = 4 → ∃ t, exec (.stageEnd r) s = .next t ∧ t.rd BRUP_STAT_STAGE = 5) ∧
      (s.rd BRUP_STAT_STAGE = 5 → ∃ t, exec (.stageEnd r) s = .next t ∧
        (r.katHub = true → t.rd BRUP_STAT_STAGE = 7 ∧ t.rd BRUP_STAT_CODE = 5) ∧
        (r.katHub = false →
          (∀ x n, s.flash.images[s.rd MON_SVN_SLOT]? = some x → n < 24 → (s.region n).lost = false →
            (t.region n).ctlMem = Mem.wrN [] 0 ((x.rgn ++ x.imem ++ x.ldata).take 262144)) ∧
          (∀ x k, s.flash.images[s.rd MON_SVN_SLOT]? = some x → x.imem ≠ [] → k < 4608 → (s.region (regionOf k)).lost = false →
            (t.block k).imem = Mem.wrN [] 0 (x.imem.take 65536) ∧ (t.block k).ldata = Mem.wrN [] 0 (x.ldata.take 8192)) ∧
          ((∃ n, n < 24 ∧ (s.region n).lost = false ∧ (n, true) ∉ r.katRgn) →
            t.rd BRUP_STAT_STAGE = 6 ∧ t.ready = true ∧ t.rd BRUP_TIME_MS = min r.ms 0xFFFF ∧ t.pw.readyAt = some s.ms) ∧
          ((∀ n, n < 24 → (s.region n).lost = true ∨ (n, true) ∈ r.katRgn) →
            t.rd BRUP_STAT_STAGE = 7 ∧ t.rd BRUP_STAT_CODE = 4 ∧ t.ready = s.ready))) ∧
      (s.rd BRUP_STAT_STAGE = 1 → ∃ t, exec (.stageLimit r) s = .next t ∧ t = { s with mc := { s.mc with recovery := true } }) ∧
      (s.rd BRUP_STAT_STAGE ≠ 1 → exec (.stageLimit r) s = exec (.stageEnd r) s)))

/-- JTAG_FIRMWARE_LOAD, MAILBOX_REQUEST and CRASH_LOG_DELIVERY. That the MC's image stands at the bottom of its SRAM is the model's choice
(log 59). -/
def Obligations.FirmwareMailboxAndCrashLog : Prop :=
  (∀ (image : FwImage) (s : State),
    (s.mc.recovery = false → exec (.jtagFirmwareLoad image) s = .next s) ∧
    (s.mc.recovery = true → ∃ t, exec (.jtagFirmwareLoad image) s = .next t ∧
      t.flash = { s.flash with images := image :: s.flash.images.drop 1 } ∧ t.otp.slots = s.otp.slots ∧ t.regions = s.regions ∧
      (s.flash.active = 0 → image.good = true → s.otp.min ≤ image.svn → t.mc.recovery = false ∧ t.mc.fwVer = image.version ∧
        t.otp.min = image.svn ∧ t.rd MON_SVN_SLOT = 0 ∧ t.mc.sram = Mem.wrN [] 0 (image.mc.take 4194304)) ∧
      (s.flash.active = 0 → image.good = false ∨ image.svn < s.otp.min → s.slotOk 1 = none →
        t.mc.recovery = true ∧ t.otp = s.otp) ∧
      (s.flash.active = 1 → s.slotOk 1 = none → image.good = true → s.otp.min ≤ image.svn → t.mc.recovery = false ∧
        t.mc.fwVer = image.version ∧ t.bit MON_SVN_FALLBK = true))) ∧
  (∀ (req : Option (List Byte)) (ok : Bool) (image : FwImage) (flashOk : Bool) (s : State),
    ∃ t, exec (.mailboxRequest req ok image flashOk) s = .next t ∧ t.bit MON_MBX_CTL_DONE = true ∧ t.regions = s.regions ∧
      (s.ready = false ∨ s.bit MON_MBX_CTL_BUSY = true ∨ s.plat.load ≠ none → t.rd MON_MBX_CTL_STATUS = 8 ∧ t.otp = s.otp ∧
        t.flash = s.flash) ∧
      (s.ready = true → s.bit MON_MBX_CTL_BUSY = false → s.plat.load = none →
        (req = none → t.rd MON_MBX_CTL_STATUS = 1 ∧ t.otp = s.otp ∧ t.flash = s.flash) ∧
        (∀ bs, req = some bs →
          (∀ c, s.mailboxBad bs ok image = some c → t.rd MON_MBX_CTL_STATUS = c ∧ t.otp = s.otp ∧ t.flash = s.flash) ∧
          (s.mailboxBad bs ok image = none → flashOk = false → t.rd MON_MBX_CTL_STATUS = 6 ∧ t.bit MON_STAT_WFAIL = true ∧
            t.otp = s.otp ∧ t.flash = s.flash) ∧
          (s.mailboxBad bs ok image = none → flashOk = true → t.rd MON_MBX_CTL_STATUS = 0 ∧ t.flash.count = numAt bs 4 4 ∧
            (numAt bs 0 2 = 1 → t.flash.next = some (1 - s.flash.active) ∧ t.flash.active = s.flash.active ∧ t.otp = s.otp) ∧
            (numAt bs 0 2 = 2 → ∃ i, s.otp.slots.findIdx? (fun x => x.isNone) = some i ∧
              t.otp.slots = s.otp.slots.set i (some (beNat ((bs.drop 16).take 48)))) ∧
            (numAt bs 0 2 = 3 → t.otp.revoke = s.otp.revoke ||| 2 ^ (numAt bs 16 1 % 8)) ∧
            (numAt bs 0 2 = 4 → t.otp = s.otp ∧ t.mc.kept = [] ∧
              (s.flash.log.length < 3000 → t.flash.log = s.flash.log ++ [.clear (numAt bs 4 4)])))))) ∧
  (∀ s : State,
    (∀ fn, pfs.find? (fun k => (s.fn k).bookOn) = some fn → s.ready = true → s.mc.crashPend = true →
      ∃ t, exec .crashLogDelivery s = .next t ∧ t.mc.crash = [] ∧ t.mc.crashPend = false ∧ t.bit CRASH_VALID = true ∧
        t.rd CRASH_NREC = s.mc.crash.length % 128 ∧ (s.mc.crash ≠ [] → (s.fn fn).seq < (t.fn fn).seq)) ∧
    (s.ready = false ∨ s.mc.crashPend = false ∨ pfs.find? (fun k => (s.fn k).bookOn) = none →
      exec .crashLogDelivery s = .next s))

/-- The perturbation rows (20 R529 to R536). -/
def Obligations.PerturbationControls : Prop :=
  (∀ (v : Word) (k : Nat) (c : Instr) (s : State),
    c = .pertXdlyArm v ∧ k = 0 ∨ c = .pertSlholdArm v ∧ k = 1 ∨ c = .pertFstrArm v ∧ k = 2 ∨ c = .pertTmoArm v ∧ k = 3 ∨
      c = .pertMismArm v ∧ k = 4 →
    (s.ready = false ∨ s.pertLocked = true → exec c s = .next s.discard) ∧
    (s.ready = true → s.pertLocked = false →
      (k = 0 ∧ (segExists (s.pertVal PERT_XDLY_REGION v) (PERT_XDLY_SLOT.of v) = false ∨
          (s.region (s.pertVal PERT_XDLY_REGION v)).rd (if PERT_XDLY_DIR.on v then XQ_CAL_MDN else XQ_CAL_MUP) (PERT_XDLY_SLOT.of v)
            (PERT_XDLY_QUEUE.of v) < PERT_XDLY_DELAY.of v + 9) ∨
        k = 2 ∧ 400000 < s.frame.len + s.pertVal PERT_FSTR_ADD v ∨ k = 3 ∧ PERT_TMO_A_KIND.of v = 3 ∨
        k = 4 ∧ PERT_MISM_A_PASSES.of v = 0 → exec c s = .next s) ∧
      ((k = 0 → segExists (s.pertVal PERT_XDLY_REGION v) (PERT_XDLY_SLOT.of v) = true ∧ PERT_XDLY_DELAY.of v + 9 ≤
          (s.region (s.pertVal PERT_XDLY_REGION v)).rd (if PERT_XDLY_DIR.on v then XQ_CAL_MDN else XQ_CAL_MUP) (PERT_XDLY_SLOT.of v)
            (PERT_XDLY_QUEUE.of v)) →
        (k = 2 → s.frame.len + s.pertVal PERT_FSTR_ADD v ≤ 400000) → (k = 3 → PERT_TMO_A_KIND.of v ≠ 3) →
        (k = 4 → PERT_MISM_A_PASSES.of v ≠ 0) →
        (s.bit (pertEn k) = true → (∃ f ∈ pertFields k, f.of v ≠ s.rd f) → exec c s = .next s.discard) ∧
        (s.bit (pertEn k) = false ∨ (∀ f ∈ pertFields k, f.of v = s.rd f) → ∃ t, exec c s = .next t ∧ HubFrame s t ∧
          t.bit (pertEn k) = (pertEn k).on v ∧
          ∀ f ∈ pertFields k, t.rd f = s.pertVal f v)))) ∧
  (∀ s : State, (s.ready = true → ∃ t, exec .pertLock s = .next t ∧ t.pert.lockPend = true ∧ t.pertLocked = true ∧
      t.bit PERT_CTL_LOCK = true) ∧
    (s.ready = false → exec .pertLock s = .next s.discard)) ∧
  (∀ (cyc n blk tgt : Nat) (s : State), n = s.rd PERT_TMO_A_REGION → n < 24 → blk = chipBlk n (s.rd PERT_TMO_A_B) → blk < 4608 →
    tgt = s.rd PERT_TMO_B_TARGET →
    (s.pert.acting.getD 3 false = false ∨ s.bit PERT_TMO_A_EN = false → exec (.forcedTimeout cyc) s = .next s) ∧
    (s.pert.acting.getD 3 false = true → s.bit PERT_TMO_A_EN = true →
      (s.rd PERT_TMO_A_KIND = 0 → tgt < 2 ^ 14 →
        (∀ x, (s.block blk).sight = some x → x.cmd.stake = tgt → x.issued?.isSome = true → s.runs blk = true →
          ∃ t, exec (.forcedTimeout cyc) s = .next t ∧ t.bit PERT_TMO_A_EN = false ∧
            t.block blk = ((s.blockAt blk cyc).sightTimeout (s.env blk cyc) true).atRest ∧ ∀ j, j ≠ blk → t.block j = s.block j) ∧
        (s.runs blk = false ∨ (∀ x, (s.block blk).sight = some x → x.cmd.stake ≠ tgt ∨ x.issued?.isSome = false) →
          exec (.forcedTimeout cyc) s = .next s)) ∧
      (s.rd PERT_TMO_A_KIND = 0 → 2 ^ 14 ≤ tgt → ∀ w, w = (s.region n).xfers.find? (fun x => !x.started && !x.dead &&
          bitsOf ((s.region n).sd x.eng x.desc 4) 31 16 == tgt) →
        (∀ x, w = some x → ∃ t, exec (.forcedTimeout cyc) s = .next t ∧ t.bit PERT_TMO_A_EN = false ∧
          t.region n = ((s.region n).xferTimeout { s.renv n cyc with inj := true } x.eng x.desc true).atRest) ∧
        (w = none → ∀ z, z = (List.range 64).find? (fun i => ((s.region n).strm i).since.isSome &&
            bitsOf ((s.region n).ss i 2) 15 0 == tgt) →
          (∀ i, z = some i → ∃ t, exec (.forcedTimeout cyc) s = .next t ∧ t.bit PERT_TMO_A_EN = false ∧
            t.region n = ((s.region n).strmTimeout { s.renv n cyc with inj := true } i true).atRest) ∧
          (z = none → exec (.forcedTimeout cyc) s = .next s))) ∧
      (s.rd PERT_TMO_A_KIND = 1 →
        (∀ ring a b, (s.block blk).core.mode = .stall ring a b → ring = tgt % 32 → s.runs blk = true →
          ∃ t, exec (.forcedTimeout cyc) s = .next t ∧ t.bit PERT_TMO_A_EN = false ∧
            t.block blk = ((s.blockAt blk cyc).loadTimeout (s.env blk cyc) true).atRest ∧ ∀ j, j ≠ blk → t.block j = s.block j) ∧
        (s.runs blk = false ∨ (∀ ring a b, (s.block blk).core.mode = .stall ring a b → ring ≠ tgt % 32) →
          exec (.forcedTimeout cyc) s = .next s)) ∧
      (2 ≤ s.rd PERT_TMO_A_KIND →
        ((s.region n).reqs.reverse.find? (fun r => r.eng == tgt % 8) = none → exec (.forcedTimeout cyc) s = .next s) ∧
        (∀ r, (s.region n).reqs.reverse.find? (fun r => r.eng == tgt % 8) = some r →
          ∃ t, exec (.forcedTimeout cyc) s = .next t ∧ t.bit PERT_TMO_A_EN = false ∧
            ((s.region n).lost = true → t.region n = s.region n) ∧
            ((s.region n).lost = false → (t.region n).bit HBM_STAT_IFTMO = true ∧
              (t.region n).reqs.length < (s.region n).reqs.length)))))
end

