-- ==== Sys2Proof/Laws/Sparse.lean ====
section
/-!
SUPPORT. Laws of the sparse maps: a read after a write, other keys, and the canonical form that every operation keeps.
-/
namespace Sys2Proof.Machine

/-- A canonical map read below its first key answers the default. -/
theorem SMap.get_of_lt {α : Type} (d : Nat → α) (m : SMap α) (k : Nat) (h : ∀ e ∈ m, k < e.1) : m.get d k = d k := by
  induction m with
  | nil => rfl
  | cons e t ih =>
    obtain ⟨a, v⟩ := e
    have ha : k < a := h (a, v) (by simp)
    have : SMap.get d ((a, v) :: t) k = SMap.get d t k := by
      simp [SMap.get]; omega
    rw [this]
    exact ih (fun e he => h e (by simp [he]))

/-- A map without the entries of key `k` reads the default at `k`. -/
theorem SMap.get_filter_self {α : Type} (d : Nat → α) (m : SMap α) (k : Nat) :
    SMap.get d (m.filter (fun e => decide (e.1 ≠ k))) k = d k := by
  induction m with
  | nil => rfl
  | cons e t ih =>
    obtain ⟨a, v⟩ := e
    by_cases h : a = k
    · simpa [List.filter, h] using ih
    · simpa [List.filter, h, SMap.get] using ih

/-- A map without the entries of key `k` reads as before at another key. -/
theorem SMap.get_filter_ne {α : Type} (d : Nat → α) (m : SMap α) (k j : Nat) (h : j ≠ k) :
    SMap.get d (m.filter (fun e => decide (e.1 ≠ k))) j = m.get d j := by
  induction m with
  | nil => rfl
  | cons e t ih =>
    obtain ⟨a, v⟩ := e
    by_cases ha : a = k
    · have : a ≠ j := by omega
      simpa [List.filter, ha, SMap.get, this, h.symm] using ih
    · by_cases hj : a = j
      · simp [List.filter, SMap.get, hj, h]
      · simpa [List.filter, ha, SMap.get, hj] using ih

/-- A read of the key just written answers the value written. -/
theorem SMap.get_put_self {α : Type} [DecidableEq α] (d : Nat → α) (m : SMap α) (k : Nat) (v : α) :
    SMap.get d (SMap.put d m k v) k = v := by
  induction m with
  | nil => by_cases h : v = d k <;> simp [SMap.put, SMap.get, h]
  | cons e t ih =>
    obtain ⟨a, w⟩ := e
    by_cases h1 : a < k
    · have : a ≠ k := by omega
      simpa [SMap.put, h1, SMap.get, this] using ih
    · by_cases h2 : v = d k
      · simp only [SMap.put, h1, if_false, h2, if_true]
        exact SMap.get_filter_self d _ k
      · by_cases h3 : a = k <;> simp [SMap.put, h1, h2, h3, SMap.get]

/-- A write leaves every other key as it was. -/
theorem SMap.get_put_ne {α : Type} [DecidableEq α] (d : Nat → α) (m : SMap α) (k j : Nat) (v : α) (h : j ≠ k) :
    SMap.get d (SMap.put d m k v) j = m.get d j := by
  induction m with
  | nil => by_cases hv : v = d k <;> simp [SMap.put, SMap.get, hv, h.symm]
  | cons e t ih =>
    obtain ⟨a, w⟩ := e
    by_cases h1 : a < k
    · by_cases h4 : a = j
      · subst h4; simp [SMap.put, h1, SMap.get]
      · simpa [SMap.put, h1, SMap.get, h4] using ih
    · by_cases h2 : v = d k
      · simp only [SMap.put, h1, if_false, h2, if_true]
        exact SMap.get_filter_ne d _ k j h
      · by_cases h3 : a = k
        · subst h3; simp [SMap.put, h2, SMap.get, h.symm]
        · simp [SMap.put, h1, h2, h3, SMap.get, h.symm]

/-- The canonical form as a proposition: keys rise strictly and no entry is the default. -/
theorem SMap.wf_iff {α : Type} [DecidableEq α] (d : Nat → α) (m : SMap α) :
    SMap.wf d m = true ↔ m.Pairwise (fun x y => x.1 < y.1) ∧ ∀ e ∈ m, e.2 ≠ d e.1 := by
  induction m with
  | nil => simp [SMap.wf]
  | cons e t ih =>
    obtain ⟨a, v⟩ := e
    cases t with
    | nil => simp [SMap.wf]
    | cons f u =>
      obtain ⟨b, w⟩ := f
      rw [SMap.wf, Bool.and_eq_true, Bool.and_eq_true, ih]
      simp only [decide_eq_true_eq, List.pairwise_cons, List.mem_cons]
      constructor
      · rintro ⟨⟨hv, hab⟩, ⟨hp, hq⟩, hne⟩
        refine ⟨⟨?_, hp, hq⟩, ?_⟩
        · rintro x (rfl | hx)
          · exact hab
          · exact Nat.lt_trans hab (hp x hx)
        · rintro x (rfl | hx)
          · exact hv
          · exact hne x hx
      · rintro ⟨⟨ha, hp, hq⟩, hne⟩
        exact ⟨⟨hne _ (Or.inl rfl), ha _ (Or.inl rfl)⟩, ⟨hp, hq⟩, fun x hx => hne x (Or.inr hx)⟩

/-- Keeping some entries keeps the canonical form. -/
theorem SMap.wf_filter {α : Type} [DecidableEq α] (d : Nat → α) (m : SMap α) (p : Nat × α → Bool)
    (h : SMap.wf d m = true) : SMap.wf d (m.filter p) = true := by
  rw [SMap.wf_iff] at *
  exact ⟨h.1.filter p, fun e he => h.2 e (List.mem_filter.mp he).1⟩

/-- The entries after a write are old ones or the one written. -/
theorem SMap.mem_put {α : Type} [DecidableEq α] (d : Nat → α) (m : SMap α) (k : Nat) (v : α) (e : Nat × α)
    (h : e ∈ SMap.put d m k v) : e ∈ m ∨ (e = (k, v) ∧ v ≠ d k) := by
  induction m with
  | nil =>
    by_cases hv : v = d k
    · simp [SMap.put, hv] at h
    · simp [SMap.put, hv] at h; exact Or.inr ⟨h, hv⟩
  | cons x t ih =>
    obtain ⟨a, w⟩ := x
    by_cases h1 : a < k
    · simp only [SMap.put, h1, if_true, List.mem_cons] at h
      rcases h with h | h
      · exact Or.inl (by simp [h])
      · rcases ih h with h | h
        · exact Or.inl (by simp [h])
        · exact Or.inr h
    · by_cases h2 : v = d k
      · simp only [SMap.put, h1, if_false, h2, if_true] at h
        exact Or.inl (List.mem_filter.mp h).1
      · by_cases h3 : a = k
        · subst h3
          simp only [SMap.put, Nat.lt_irrefl, if_false, h2, if_true, List.mem_cons] at h
          rcases h with h | h
          · exact Or.inr ⟨h, h2⟩
          · exact Or.inl (by simp [h])
        · simp only [SMap.put, h1, if_false, h2, h3, List.mem_cons] at h
          rcases h with h | h | h
          · exact Or.inr ⟨h, h2⟩
          · exact Or.inl (by simp [h])
          · exact Or.inl (by simp [h])

/-- A write keeps the canonical form. -/
theorem SMap.wf_put {α : Type} [DecidableEq α] (d : Nat → α) (m : SMap α) (k : Nat) (v : α)
    (h : SMap.wf d m = true) : SMap.wf d (SMap.put d m k v) = true := by
  induction m with
  | nil => by_cases hv : v = d k <;> simp [SMap.put, SMap.wf, hv]
  | cons x t ih =>
    obtain ⟨a, w⟩ := x
    have h' := (SMap.wf_iff d _).mp h
    have ht : SMap.wf d t = true := (SMap.wf_iff d t).mpr ⟨(List.pairwise_cons.mp h'.1).2, fun e he => h'.2 e (by simp [he])⟩
    have hlt := (List.pairwise_cons.mp h'.1).1
    by_cases h1 : a < k
    · simp only [SMap.put, h1, if_true]
      rw [SMap.wf_iff]
      have hi := (SMap.wf_iff d _).mp (ih ht)
      refine ⟨List.pairwise_cons.mpr ⟨?_, hi.1⟩, ?_⟩
      · intro e he
        rcases SMap.mem_put d t k v e he with h | ⟨h, _⟩
        · exact hlt e h
        · simp [h, h1]
      · intro e he
        rcases List.mem_cons.mp he with h | h
        · subst h; exact h'.2 _ (by simp)
        · exact hi.2 e h
    · by_cases h2 : v = d k
      · simp only [SMap.put, h1, if_false, h2, if_true]
        exact SMap.wf_filter d _ _ h
      · by_cases h3 : a = k
        · subst h3
          simp only [SMap.put, Nat.lt_irrefl, if_false, h2, if_true]
          rw [SMap.wf_iff]
          refine ⟨List.pairwise_cons.mpr ⟨hlt, (List.pairwise_cons.mp h'.1).2⟩, ?_⟩
          intro e he
          rcases List.mem_cons.mp he with h | h
          · subst h; exact h2
          · exact h'.2 e (by simp [h])
        · simp only [SMap.put, h1, if_false, h2, h3]
          rw [SMap.wf_iff]
          have hka : k < a := by omega
          refine ⟨List.pairwise_cons.mpr ⟨?_, h'.1⟩, ?_⟩
          · intro e he
            rcases List.mem_cons.mp he with h | h
            · subst h; exact hka
            · exact Nat.lt_trans hka (hlt e h)
          · intro e he
            rcases List.mem_cons.mp he with h | h
            · subst h; exact h2
            · exact h'.2 e h

/-! ## Byte memories -/

/-- A byte just written reads back. -/
theorem Mem.rd_wr_self (m : Mem) (a : Nat) (b : Byte) : (m.wr a b).rd a = b := SMap.get_put_self _ _ _ _

/-- A write leaves every other byte. -/
theorem Mem.rd_wr_ne (m : Mem) (a c : Nat) (b : Byte) (h : c ≠ a) : (m.wr a b).rd c = m.rd c :=
  SMap.get_put_ne _ _ _ _ _ h

/-- A byte write keeps the canonical form. -/
theorem Mem.wf_wr (m : Mem) (a : Nat) (b : Byte) (h : m.wf = true) : (m.wr a b).wf = true := SMap.wf_put _ _ _ _ h

/-- A write of bytes keeps the canonical form. -/
theorem Mem.wf_wrN (m : Mem) (a : Nat) (bs : List Byte) (h : m.wf = true) : (m.wrN a bs).wf = true := by
  induction bs generalizing m a with
  | nil => exact h
  | cons b bs ih => exact ih _ _ (Mem.wf_wr m a b h)

/-- Zeroing a range keeps the canonical form. -/
theorem Mem.wf_zeroRange (m : Mem) (lo hi : Nat) (h : m.wf = true) : (m.zeroRange lo hi).wf = true :=
  SMap.wf_filter _ _ _ h

/-- A write of bytes leaves every byte outside it. -/
theorem Mem.rd_wrN_ne (m : Mem) (a c : Nat) (bs : List Byte) (h : c < a ∨ a + bs.length ≤ c) :
    (m.wrN a bs).rd c = m.rd c := by
  induction bs generalizing m a with
  | nil => rfl
  | cons b bs ih =>
    simp only [List.length_cons] at h
    rw [Mem.wrN, ih _ _ (by omega), Mem.rd_wr_ne _ _ _ _ (by omega)]

end Sys2Proof.Machine
end

