-- ==== Sys2Proof/Laws/Registers.lean ====
section
/-!
SUPPORT. Laws of the register files: a field reads back what was written into it, and a write changes no other field.
-/
namespace Sys2Proof.Machine

/-- A bit of a word with a field replaced. -/
theorem getLsbD_putBits (w : Word) (hi lo v i : Nat) (hh : hi < 32) (hl : lo ≤ hi) :
    (putBits w hi lo v).getLsbD i =
      if lo ≤ i ∧ i ≤ hi then v.testBit (i - lo) else w.getLsbD i := by
  have hm : ∀ j, (bitMask hi lo).getLsbD j = decide (lo ≤ j ∧ j ≤ hi) := by
    intro j
    simp only [bitMask, BitVec.getLsbD_ofNat, Nat.testBit_mul_two_pow, Nat.testBit_two_pow_sub_one]
    by_cases h1 : lo ≤ j <;> by_cases h2 : j ≤ hi <;> by_cases h3 : j < 32 <;> simp [h1, h2, h3] <;> omega
  simp only [putBits, BitVec.getLsbD_or, BitVec.getLsbD_and, BitVec.getLsbD_not, hm, BitVec.getLsbD_ofNat,
    Nat.testBit_mul_two_pow]
  by_cases h1 : lo ≤ i <;> by_cases h2 : i ≤ hi <;> by_cases h3 : i < 32 <;> simp [h1, h2, h3] <;>
    first | omega | exact BitVec.getLsbD_of_ge _ _ (by omega)

/-- A bit of a field of a word. -/
theorem testBit_bitsOf (w : Word) (hi lo i : Nat) (hl : lo ≤ hi) :
    (bitsOf w hi lo).testBit i = (decide (i ≤ hi - lo) && w.getLsbD (lo + i)) := by
  simp only [bitsOf, Nat.testBit_mod_two_pow, BitVec.testBit_toNat, BitVec.getLsbD_ushiftRight]
  by_cases h : i < hi + 1 - lo
  · have : i ≤ hi - lo := by omega
    simp [h, this]
  · have : ¬ i ≤ hi - lo := by omega
    simp [h, this]

/-- The field just replaced reads back the low bits of the value. -/
theorem bitsOf_putBits_self (w : Word) (hi lo v : Nat) (hh : hi < 32) (hl : lo ≤ hi) :
    bitsOf (putBits w hi lo v) hi lo = v % 2 ^ (hi + 1 - lo) := by
  apply Nat.eq_of_testBit_eq
  intro i
  rw [testBit_bitsOf _ _ _ _ hl, getLsbD_putBits _ _ _ _ _ hh hl, Nat.testBit_mod_two_pow]
  by_cases h : i < hi + 1 - lo
  · have h1 : i ≤ hi - lo := by omega
    have h2 : lo + i ≤ hi := by omega
    simp [h, h1, h2]
  · have h1 : ¬ i ≤ hi - lo := by omega
    simp [h, h1]

/-- Another field of the same word is unchanged. -/
theorem bitsOf_putBits_ne (w : Word) (hi lo v hi' lo' : Nat) (hh : hi < 32) (hl : lo ≤ hi) (hl' : lo' ≤ hi')
    (h : hi' < lo ∨ hi < lo') : bitsOf (putBits w hi lo v) hi' lo' = bitsOf w hi' lo' := by
  apply Nat.eq_of_testBit_eq
  intro i
  rw [testBit_bitsOf _ _ _ _ hl', testBit_bitsOf _ _ _ _ hl', getLsbD_putBits _ _ _ _ _ hh hl]
  by_cases h1 : i ≤ hi' - lo'
  · have : ¬ (lo ≤ lo' + i ∧ lo' + i ≤ hi) := by omega
    simp [this]
  · simp [h1]

/-- A field of a word is below its width. -/
theorem bitsOf_lt (w : Word) (hi lo : Nat) : bitsOf w hi lo < 2 ^ (hi + 1 - lo) :=
  Nat.mod_lt _ (Nat.two_pow_pos _)

/-- A word just stored reads back. -/
theorem Regs.word_setWord_self (r : Regs) (u : RegUnit) (o : Nat) (v : Word) : (r.setWord u o v).word u o = v :=
  SMap.get_put_self _ _ _ _

/-- A store leaves every other word. -/
theorem Regs.word_setWord_ne (r : Regs) (u : RegUnit) (o p : Nat) (v : Word) (h : p ≠ o) :
    (r.setWord u o v).word u p = r.word u p :=
  SMap.get_put_ne _ _ _ _ _ h

/-- A field just written reads back the low bits of the value. -/
theorem Regs.rd_wr_self (r : Regs) (f : Field) (v i j : Nat) (hh : f.hi < 32) (hl : f.lo ≤ f.hi) :
    (r.wr f v i j).rd f i j = v % 2 ^ (f.hi + 1 - f.lo) := by
  rw [Regs.rd, Regs.wr, Regs.word_setWord_self, bitsOf_putBits_self _ _ _ _ hh hl]

/-- A write changes no field of another word. -/
theorem Regs.rd_wr_at (r : Regs) (f g : Field) (v i j k l : Nat) (hu : g.unit = f.unit) (h : g.at k l ≠ f.at i j) :
    (r.wr f v i j).rd g k l = r.rd g k l := by
  rw [Regs.rd, Regs.wr, hu, Regs.word_setWord_ne _ _ _ _ _ h, Regs.rd, hu]

/-- A write changes no other field of the same word. -/
theorem Regs.rd_wr_bits (r : Regs) (f g : Field) (v i j k l : Nat) (hu : g.unit = f.unit) (ha : g.at k l = f.at i j)
    (hh : f.hi < 32) (hl : f.lo ≤ f.hi) (hl' : g.lo ≤ g.hi) (h : g.hi < f.lo ∨ f.hi < g.lo) :
    (r.wr f v i j).rd g k l = r.rd g k l := by
  rw [Regs.rd, Regs.wr, hu, ha, Regs.word_setWord_self, bitsOf_putBits_ne _ _ _ _ _ _ hh hl hl' h, Regs.rd, hu, ha]

/-- A field fits its width. -/
theorem Regs.rd_lt (r : Regs) (f : Field) (i j : Nat) : r.rd f i j < 2 ^ (f.hi + 1 - f.lo) := bitsOf_lt _ _ _

/-- Two fields do not overlap: other words, or other bits of one word. -/
def Field.apart (f g : Field) (i j k l : Nat) : Bool :=
  decide (g.unit = f.unit ∧ f.hi < 32 ∧ f.lo ≤ f.hi ∧ g.lo ≤ g.hi ∧
    (g.at k l ≠ f.at i j ∨ g.hi < f.lo ∨ f.hi < g.lo))

/-- A write changes no field apart from it. -/
theorem Regs.rd_wr_apart (r : Regs) (f g : Field) (v i j k l : Nat) (h : f.apart g i j k l = true) :
    (r.wr f v i j).rd g k l = r.rd g k l := by
  simp only [Field.apart, decide_eq_true_eq] at h
  obtain ⟨hu, hh, hl, hl', h⟩ := h
  by_cases ha : g.at k l = f.at i j
  · exact Regs.rd_wr_bits r f g v i j k l hu ha hh hl hl' (h.resolve_left (fun x => x ha))
  · exact Regs.rd_wr_at r f g v i j k l hu ha

end Sys2Proof.Machine
end

