-- ==== Sys2Proof/Laws/State.lean ====
section
/-!
SUPPORT. What each update of the state leaves alone, field by field, and what a read of a hub field answers after a write of one.
-/
namespace Sys2Proof.Machine

/-! `State.wr` changes `hub` only. -/
@[simp] theorem State.wr_pending (s : State) (f : Field) (v i j : Nat) : (s.wr f v i j).pending = s.pending := rfl
@[simp] theorem State.wr_fuse (s : State) (f : Field) (v i j : Nat) : (s.wr f v i j).fuse = s.fuse := rfl
@[simp] theorem State.wr_otp (s : State) (f : Field) (v i j : Nat) : (s.wr f v i j).otp = s.otp := rfl
@[simp] theorem State.wr_flash (s : State) (f : Field) (v i j : Nat) : (s.wr f v i j).flash = s.flash := rfl
@[simp] theorem State.wr_mc (s : State) (f : Field) (v i j : Nat) : (s.wr f v i j).mc = s.mc := rfl
@[simp] theorem State.wr_frame (s : State) (f : Field) (v i j : Nat) : (s.wr f v i j).frame = s.frame := rfl
@[simp] theorem State.wr_pw (s : State) (f : Field) (v i j : Nat) : (s.wr f v i j).pw = s.pw := rfl
@[simp] theorem State.wr_err (s : State) (f : Field) (v i j : Nat) : (s.wr f v i j).err = s.err := rfl
@[simp] theorem State.wr_ctxs (s : State) (f : Field) (v i j : Nat) : (s.wr f v i j).ctxs = s.ctxs := rfl
@[simp] theorem State.wr_pert (s : State) (f : Field) (v i j : Nat) : (s.wr f v i j).pert = s.pert := rfl
@[simp] theorem State.wr_tpk (s : State) (f : Field) (v i j : Nat) : (s.wr f v i j).tpk = s.tpk := rfl
@[simp] theorem State.wr_plat (s : State) (f : Field) (v i j : Nat) : (s.wr f v i j).plat = s.plat := rfl
@[simp] theorem State.wr_regions (s : State) (f : Field) (v i j : Nat) : (s.wr f v i j).regions = s.regions := rfl
@[simp] theorem State.wr_blocks (s : State) (f : Field) (v i j : Nat) : (s.wr f v i j).blocks = s.blocks := rfl
@[simp] theorem State.wr_ports (s : State) (f : Field) (v i j : Nat) : (s.wr f v i j).ports = s.ports := rfl
@[simp] theorem State.wr_fns (s : State) (f : Field) (v i j : Nat) : (s.wr f v i j).fns = s.fns := rfl
@[simp] theorem State.wr_host (s : State) (f : Field) (v i j : Nat) : (s.wr f v i j).host = s.host := rfl
@[simp] theorem State.wr_msgs (s : State) (f : Field) (v i j : Nat) : (s.wr f v i j).msgs = s.msgs := rfl
@[simp] theorem State.wr_freeCtr (s : State) (f : Field) (v i j : Nat) : (s.wr f v i j).freeCtr = s.freeCtr := rfl
@[simp] theorem State.wr_answer (s : State) (f : Field) (v i j : Nat) : (s.wr f v i j).answer = s.answer := rfl
@[simp] theorem State.wr_evcs (s : State) (f : Field) (v i j : Nat) : (s.wr f v i j).evcs = s.evcs := rfl
@[simp] theorem State.wr_mchk (s : State) (f : Field) (v i j : Nat) : (s.wr f v i j).mchk = s.mchk := rfl

/-! `State.set1` changes `hub` only. -/
@[simp] theorem State.set1_pending (s : State) (f : Field) (i : Nat) : (s.set1 f i).pending = s.pending := rfl
@[simp] theorem State.set1_fuse (s : State) (f : Field) (i : Nat) : (s.set1 f i).fuse = s.fuse := rfl
@[simp] theorem State.set1_otp (s : State) (f : Field) (i : Nat) : (s.set1 f i).otp = s.otp := rfl
@[simp] theorem State.set1_flash (s : State) (f : Field) (i : Nat) : (s.set1 f i).flash = s.flash := rfl
@[simp] theorem State.set1_mc (s : State) (f : Field) (i : Nat) : (s.set1 f i).mc = s.mc := rfl
@[simp] theorem State.set1_frame (s : State) (f : Field) (i : Nat) : (s.set1 f i).frame = s.frame := rfl
@[simp] theorem State.set1_pw (s : State) (f : Field) (i : Nat) : (s.set1 f i).pw = s.pw := rfl
@[simp] theorem State.set1_err (s : State) (f : Field) (i : Nat) : (s.set1 f i).err = s.err := rfl
@[simp] theorem State.set1_ctxs (s : State) (f : Field) (i : Nat) : (s.set1 f i).ctxs = s.ctxs := rfl
@[simp] theorem State.set1_pert (s : State) (f : Field) (i : Nat) : (s.set1 f i).pert = s.pert := rfl
@[simp] theorem State.set1_tpk (s : State) (f : Field) (i : Nat) : (s.set1 f i).tpk = s.tpk := rfl
@[simp] theorem State.set1_plat (s : State) (f : Field) (i : Nat) : (s.set1 f i).plat = s.plat := rfl
@[simp] theorem State.set1_regions (s : State) (f : Field) (i : Nat) : (s.set1 f i).regions = s.regions := rfl
@[simp] theorem State.set1_blocks (s : State) (f : Field) (i : Nat) : (s.set1 f i).blocks = s.blocks := rfl
@[simp] theorem State.set1_ports (s : State) (f : Field) (i : Nat) : (s.set1 f i).ports = s.ports := rfl
@[simp] theorem State.set1_fns (s : State) (f : Field) (i : Nat) : (s.set1 f i).fns = s.fns := rfl
@[simp] theorem State.set1_host (s : State) (f : Field) (i : Nat) : (s.set1 f i).host = s.host := rfl
@[simp] theorem State.set1_msgs (s : State) (f : Field) (i : Nat) : (s.set1 f i).msgs = s.msgs := rfl
@[simp] theorem State.set1_freeCtr (s : State) (f : Field) (i : Nat) : (s.set1 f i).freeCtr = s.freeCtr := rfl
@[simp] theorem State.set1_answer (s : State) (f : Field) (i : Nat) : (s.set1 f i).answer = s.answer := rfl
@[simp] theorem State.set1_evcs (s : State) (f : Field) (i : Nat) : (s.set1 f i).evcs = s.evcs := rfl
@[simp] theorem State.set1_mchk (s : State) (f : Field) (i : Nat) : (s.set1 f i).mchk = s.mchk := rfl

/-! `State.inc` changes `hub` only. -/
@[simp] theorem State.inc_pending (s : State) (c sat : Field) (i n : Nat) : (s.inc c sat i n).pending = s.pending := rfl
@[simp] theorem State.inc_fuse (s : State) (c sat : Field) (i n : Nat) : (s.inc c sat i n).fuse = s.fuse := rfl
@[simp] theorem State.inc_otp (s : State) (c sat : Field) (i n : Nat) : (s.inc c sat i n).otp = s.otp := rfl
@[simp] theorem State.inc_flash (s : State) (c sat : Field) (i n : Nat) : (s.inc c sat i n).flash = s.flash := rfl
@[simp] theorem State.inc_mc (s : State) (c sat : Field) (i n : Nat) : (s.inc c sat i n).mc = s.mc := rfl
@[simp] theorem State.inc_frame (s : State) (c sat : Field) (i n : Nat) : (s.inc c sat i n).frame = s.frame := rfl
@[simp] theorem State.inc_pw (s : State) (c sat : Field) (i n : Nat) : (s.inc c sat i n).pw = s.pw := rfl
@[simp] theorem State.inc_err (s : State) (c sat : Field) (i n : Nat) : (s.inc c sat i n).err = s.err := rfl
@[simp] theorem State.inc_ctxs (s : State) (c sat : Field) (i n : Nat) : (s.inc c sat i n).ctxs = s.ctxs := rfl
@[simp] theorem State.inc_pert (s : State) (c sat : Field) (i n : Nat) : (s.inc c sat i n).pert = s.pert := rfl
@[simp] theorem State.inc_tpk (s : State) (c sat : Field) (i n : Nat) : (s.inc c sat i n).tpk = s.tpk := rfl
@[simp] theorem State.inc_plat (s : State) (c sat : Field) (i n : Nat) : (s.inc c sat i n).plat = s.plat := rfl
@[simp] theorem State.inc_regions (s : State) (c sat : Field) (i n : Nat) : (s.inc c sat i n).regions = s.regions := rfl
@[simp] theorem State.inc_blocks (s : State) (c sat : Field) (i n : Nat) : (s.inc c sat i n).blocks = s.blocks := rfl
@[simp] theorem State.inc_ports (s : State) (c sat : Field) (i n : Nat) : (s.inc c sat i n).ports = s.ports := rfl
@[simp] theorem State.inc_fns (s : State) (c sat : Field) (i n : Nat) : (s.inc c sat i n).fns = s.fns := rfl
@[simp] theorem State.inc_host (s : State) (c sat : Field) (i n : Nat) : (s.inc c sat i n).host = s.host := rfl
@[simp] theorem State.inc_msgs (s : State) (c sat : Field) (i n : Nat) : (s.inc c sat i n).msgs = s.msgs := rfl
@[simp] theorem State.inc_freeCtr (s : State) (c sat : Field) (i n : Nat) : (s.inc c sat i n).freeCtr = s.freeCtr := rfl
@[simp] theorem State.inc_answer (s : State) (c sat : Field) (i n : Nat) : (s.inc c sat i n).answer = s.answer := rfl
@[simp] theorem State.inc_evcs (s : State) (c sat : Field) (i n : Nat) : (s.inc c sat i n).evcs = s.evcs := rfl
@[simp] theorem State.inc_mchk (s : State) (c sat : Field) (i n : Nat) : (s.inc c sat i n).mchk = s.mchk := rfl

/-! `State.incHold` changes `hub` only. -/
@[simp] theorem State.incHold_pending (s : State) (c : Field) (i : Nat) : (s.incHold c i).pending = s.pending := rfl
@[simp] theorem State.incHold_fuse (s : State) (c : Field) (i : Nat) : (s.incHold c i).fuse = s.fuse := rfl
@[simp] theorem State.incHold_otp (s : State) (c : Field) (i : Nat) : (s.incHold c i).otp = s.otp := rfl
@[simp] theorem State.incHold_flash (s : State) (c : Field) (i : Nat) : (s.incHold c i).flash = s.flash := rfl
@[simp] theorem State.incHold_mc (s : State) (c : Field) (i : Nat) : (s.incHold c i).mc = s.mc := rfl
@[simp] theorem State.incHold_frame (s : State) (c : Field) (i : Nat) : (s.incHold c i).frame = s.frame := rfl
@[simp] theorem State.incHold_pw (s : State) (c : Field) (i : Nat) : (s.incHold c i).pw = s.pw := rfl
@[simp] theorem State.incHold_err (s : State) (c : Field) (i : Nat) : (s.incHold c i).err = s.err := rfl
@[simp] theorem State.incHold_ctxs (s : State) (c : Field) (i : Nat) : (s.incHold c i).ctxs = s.ctxs := rfl
@[simp] theorem State.incHold_pert (s : State) (c : Field) (i : Nat) : (s.incHold c i).pert = s.pert := rfl
@[simp] theorem State.incHold_tpk (s : State) (c : Field) (i : Nat) : (s.incHold c i).tpk = s.tpk := rfl
@[simp] theorem State.incHold_plat (s : State) (c : Field) (i : Nat) : (s.incHold c i).plat = s.plat := rfl
@[simp] theorem State.incHold_regions (s : State) (c : Field) (i : Nat) : (s.incHold c i).regions = s.regions := rfl
@[simp] theorem State.incHold_blocks (s : State) (c : Field) (i : Nat) : (s.incHold c i).blocks = s.blocks := rfl
@[simp] theorem State.incHold_ports (s : State) (c : Field) (i : Nat) : (s.incHold c i).ports = s.ports := rfl
@[simp] theorem State.incHold_fns (s : State) (c : Field) (i : Nat) : (s.incHold c i).fns = s.fns := rfl
@[simp] theorem State.incHold_host (s : State) (c : Field) (i : Nat) : (s.incHold c i).host = s.host := rfl
@[simp] theorem State.incHold_msgs (s : State) (c : Field) (i : Nat) : (s.incHold c i).msgs = s.msgs := rfl
@[simp] theorem State.incHold_freeCtr (s : State) (c : Field) (i : Nat) : (s.incHold c i).freeCtr = s.freeCtr := rfl
@[simp] theorem State.incHold_answer (s : State) (c : Field) (i : Nat) : (s.incHold c i).answer = s.answer := rfl
@[simp] theorem State.incHold_evcs (s : State) (c : Field) (i : Nat) : (s.incHold c i).evcs = s.evcs := rfl
@[simp] theorem State.incHold_mchk (s : State) (c : Field) (i : Nat) : (s.incHold c i).mchk = s.mchk := rfl

/-! `State.discard` changes `hub` only. -/
@[simp] theorem State.discard_pending (s : State) (n : Nat) : (s.discard n).pending = s.pending := by unfold State.discard; split <;> rfl
@[simp] theorem State.discard_fuse (s : State) (n : Nat) : (s.discard n).fuse = s.fuse := by unfold State.discard; split <;> rfl
@[simp] theorem State.discard_otp (s : State) (n : Nat) : (s.discard n).otp = s.otp := by unfold State.discard; split <;> rfl
@[simp] theorem State.discard_flash (s : State) (n : Nat) : (s.discard n).flash = s.flash := by unfold State.discard; split <;> rfl
@[simp] theorem State.discard_mc (s : State) (n : Nat) : (s.discard n).mc = s.mc := by unfold State.discard; split <;> rfl
@[simp] theorem State.discard_frame (s : State) (n : Nat) : (s.discard n).frame = s.frame := by unfold State.discard; split <;> rfl
@[simp] theorem State.discard_pw (s : State) (n : Nat) : (s.discard n).pw = s.pw := by unfold State.discard; split <;> rfl
@[simp] theorem State.discard_err (s : State) (n : Nat) : (s.discard n).err = s.err := by unfold State.discard; split <;> rfl
@[simp] theorem State.discard_ctxs (s : State) (n : Nat) : (s.discard n).ctxs = s.ctxs := by unfold State.discard; split <;> rfl
@[simp] theorem State.discard_pert (s : State) (n : Nat) : (s.discard n).pert = s.pert := by unfold State.discard; split <;> rfl
@[simp] theorem State.discard_tpk (s : State) (n : Nat) : (s.discard n).tpk = s.tpk := by unfold State.discard; split <;> rfl
@[simp] theorem State.discard_plat (s : State) (n : Nat) : (s.discard n).plat = s.plat := by unfold State.discard; split <;> rfl
@[simp] theorem State.discard_regions (s : State) (n : Nat) : (s.discard n).regions = s.regions := by unfold State.discard; split <;> rfl
@[simp] theorem State.discard_blocks (s : State) (n : Nat) : (s.discard n).blocks = s.blocks := by unfold State.discard; split <;> rfl
@[simp] theorem State.discard_ports (s : State) (n : Nat) : (s.discard n).ports = s.ports := by unfold State.discard; split <;> rfl
@[simp] theorem State.discard_fns (s : State) (n : Nat) : (s.discard n).fns = s.fns := by unfold State.discard; split <;> rfl
@[simp] theorem State.discard_host (s : State) (n : Nat) : (s.discard n).host = s.host := by unfold State.discard; split <;> rfl
@[simp] theorem State.discard_msgs (s : State) (n : Nat) : (s.discard n).msgs = s.msgs := by unfold State.discard; split <;> rfl
@[simp] theorem State.discard_freeCtr (s : State) (n : Nat) : (s.discard n).freeCtr = s.freeCtr := by unfold State.discard; split <;> rfl
@[simp] theorem State.discard_answer (s : State) (n : Nat) : (s.discard n).answer = s.answer := by unfold State.discard; split <;> rfl
@[simp] theorem State.discard_evcs (s : State) (n : Nat) : (s.discard n).evcs = s.evcs := by unfold State.discard; split <;> rfl
@[simp] theorem State.discard_mchk (s : State) (n : Nat) : (s.discard n).mchk = s.mchk := by unfold State.discard; split <;> rfl

/-! `State.count` changes `evcs` only. -/
@[simp] theorem State.count_pending (s : State) (code : Nat) (p : Option Nat) (n : Nat) : (s.count code p n).pending = s.pending := by unfold State.count; split <;> rfl
@[simp] theorem State.count_fuse (s : State) (code : Nat) (p : Option Nat) (n : Nat) : (s.count code p n).fuse = s.fuse := by unfold State.count; split <;> rfl
@[simp] theorem State.count_otp (s : State) (code : Nat) (p : Option Nat) (n : Nat) : (s.count code p n).otp = s.otp := by unfold State.count; split <;> rfl
@[simp] theorem State.count_flash (s : State) (code : Nat) (p : Option Nat) (n : Nat) : (s.count code p n).flash = s.flash := by unfold State.count; split <;> rfl
@[simp] theorem State.count_mc (s : State) (code : Nat) (p : Option Nat) (n : Nat) : (s.count code p n).mc = s.mc := by unfold State.count; split <;> rfl
@[simp] theorem State.count_hub (s : State) (code : Nat) (p : Option Nat) (n : Nat) : (s.count code p n).hub = s.hub := by unfold State.count; split <;> rfl
@[simp] theorem State.count_frame (s : State) (code : Nat) (p : Option Nat) (n : Nat) : (s.count code p n).frame = s.frame := by unfold State.count; split <;> rfl
@[simp] theorem State.count_pw (s : State) (code : Nat) (p : Option Nat) (n : Nat) : (s.count code p n).pw = s.pw := by unfold State.count; split <;> rfl
@[simp] theorem State.count_err (s : State) (code : Nat) (p : Option Nat) (n : Nat) : (s.count code p n).err = s.err := by unfold State.count; split <;> rfl
@[simp] theorem State.count_ctxs (s : State) (code : Nat) (p : Option Nat) (n : Nat) : (s.count code p n).ctxs = s.ctxs := by unfold State.count; split <;> rfl
@[simp] theorem State.count_pert (s : State) (code : Nat) (p : Option Nat) (n : Nat) : (s.count code p n).pert = s.pert := by unfold State.count; split <;> rfl
@[simp] theorem State.count_tpk (s : State) (code : Nat) (p : Option Nat) (n : Nat) : (s.count code p n).tpk = s.tpk := by unfold State.count; split <;> rfl
@[simp] theorem State.count_plat (s : State) (code : Nat) (p : Option Nat) (n : Nat) : (s.count code p n).plat = s.plat := by unfold State.count; split <;> rfl
@[simp] theorem State.count_regions (s : State) (code : Nat) (p : Option Nat) (n : Nat) : (s.count code p n).regions = s.regions := by unfold State.count; split <;> rfl
@[simp] theorem State.count_blocks (s : State) (code : Nat) (p : Option Nat) (n : Nat) : (s.count code p n).blocks = s.blocks := by unfold State.count; split <;> rfl
@[simp] theorem State.count_ports (s : State) (code : Nat) (p : Option Nat) (n : Nat) : (s.count code p n).ports = s.ports := by unfold State.count; split <;> rfl
@[simp] theorem State.count_fns (s : State) (code : Nat) (p : Option Nat) (n : Nat) : (s.count code p n).fns = s.fns := by unfold State.count; split <;> rfl
@[simp] theorem State.count_host (s : State) (code : Nat) (p : Option Nat) (n : Nat) : (s.count code p n).host = s.host := by unfold State.count; split <;> rfl
@[simp] theorem State.count_msgs (s : State) (code : Nat) (p : Option Nat) (n : Nat) : (s.count code p n).msgs = s.msgs := by unfold State.count; split <;> rfl
@[simp] theorem State.count_freeCtr (s : State) (code : Nat) (p : Option Nat) (n : Nat) : (s.count code p n).freeCtr = s.freeCtr := by unfold State.count; split <;> rfl
@[simp] theorem State.count_answer (s : State) (code : Nat) (p : Option Nat) (n : Nat) : (s.count code p n).answer = s.answer := by unfold State.count; split <;> rfl
@[simp] theorem State.count_mchk (s : State) (code : Nat) (p : Option Nat) (n : Nat) : (s.count code p n).mchk = s.mchk := by unfold State.count; split <;> rfl

/-! `State.setCtx` changes `ctxs` only. -/
@[simp] theorem State.setCtx_pending (s : State) (p : Nat) (c : Ctx) : (s.setCtx p c).pending = s.pending := rfl
@[simp] theorem State.setCtx_fuse (s : State) (p : Nat) (c : Ctx) : (s.setCtx p c).fuse = s.fuse := rfl
@[simp] theorem State.setCtx_otp (s : State) (p : Nat) (c : Ctx) : (s.setCtx p c).otp = s.otp := rfl
@[simp] theorem State.setCtx_flash (s : State) (p : Nat) (c : Ctx) : (s.setCtx p c).flash = s.flash := rfl
@[simp] theorem State.setCtx_mc (s : State) (p : Nat) (c : Ctx) : (s.setCtx p c).mc = s.mc := rfl
@[simp] theorem State.setCtx_hub (s : State) (p : Nat) (c : Ctx) : (s.setCtx p c).hub = s.hub := rfl
@[simp] theorem State.setCtx_frame (s : State) (p : Nat) (c : Ctx) : (s.setCtx p c).frame = s.frame := rfl
@[simp] theorem State.setCtx_pw (s : State) (p : Nat) (c : Ctx) : (s.setCtx p c).pw = s.pw := rfl
@[simp] theorem State.setCtx_err (s : State) (p : Nat) (c : Ctx) : (s.setCtx p c).err = s.err := rfl
@[simp] theorem State.setCtx_pert (s : State) (p : Nat) (c : Ctx) : (s.setCtx p c).pert = s.pert := rfl
@[simp] theorem State.setCtx_tpk (s : State) (p : Nat) (c : Ctx) : (s.setCtx p c).tpk = s.tpk := rfl
@[simp] theorem State.setCtx_plat (s : State) (p : Nat) (c : Ctx) : (s.setCtx p c).plat = s.plat := rfl
@[simp] theorem State.setCtx_regions (s : State) (p : Nat) (c : Ctx) : (s.setCtx p c).regions = s.regions := rfl
@[simp] theorem State.setCtx_blocks (s : State) (p : Nat) (c : Ctx) : (s.setCtx p c).blocks = s.blocks := rfl
@[simp] theorem State.setCtx_ports (s : State) (p : Nat) (c : Ctx) : (s.setCtx p c).ports = s.ports := rfl
@[simp] theorem State.setCtx_fns (s : State) (p : Nat) (c : Ctx) : (s.setCtx p c).fns = s.fns := rfl
@[simp] theorem State.setCtx_host (s : State) (p : Nat) (c : Ctx) : (s.setCtx p c).host = s.host := rfl
@[simp] theorem State.setCtx_msgs (s : State) (p : Nat) (c : Ctx) : (s.setCtx p c).msgs = s.msgs := rfl
@[simp] theorem State.setCtx_freeCtr (s : State) (p : Nat) (c : Ctx) : (s.setCtx p c).freeCtr = s.freeCtr := rfl
@[simp] theorem State.setCtx_answer (s : State) (p : Nat) (c : Ctx) : (s.setCtx p c).answer = s.answer := rfl
@[simp] theorem State.setCtx_evcs (s : State) (p : Nat) (c : Ctx) : (s.setCtx p c).evcs = s.evcs := rfl
@[simp] theorem State.setCtx_mchk (s : State) (p : Nat) (c : Ctx) : (s.setCtx p c).mchk = s.mchk := rfl

/-! `State.setRegion` changes `regions` only. -/
@[simp] theorem State.setRegion_pending (s : State) (n : Nat) (g : Region) : (s.setRegion n g).pending = s.pending := by unfold State.setRegion; split <;> rfl
@[simp] theorem State.setRegion_fuse (s : State) (n : Nat) (g : Region) : (s.setRegion n g).fuse = s.fuse := by unfold State.setRegion; split <;> rfl
@[simp] theorem State.setRegion_otp (s : State) (n : Nat) (g : Region) : (s.setRegion n g).otp = s.otp := by unfold State.setRegion; split <;> rfl
@[simp] theorem State.setRegion_flash (s : State) (n : Nat) (g : Region) : (s.setRegion n g).flash = s.flash := by unfold State.setRegion; split <;> rfl
@[simp] theorem State.setRegion_mc (s : State) (n : Nat) (g : Region) : (s.setRegion n g).mc = s.mc := by unfold State.setRegion; split <;> rfl
@[simp] theorem State.setRegion_hub (s : State) (n : Nat) (g : Region) : (s.setRegion n g).hub = s.hub := by unfold State.setRegion; split <;> rfl
@[simp] theorem State.setRegion_frame (s : State) (n : Nat) (g : Region) : (s.setRegion n g).frame = s.frame := by unfold State.setRegion; split <;> rfl
@[simp] theorem State.setRegion_pw (s : State) (n : Nat) (g : Region) : (s.setRegion n g).pw = s.pw := by unfold State.setRegion; split <;> rfl
@[simp] theorem State.setRegion_err (s : State) (n : Nat) (g : Region) : (s.setRegion n g).err = s.err := by unfold State.setRegion; split <;> rfl
@[simp] theorem State.setRegion_ctxs (s : State) (n : Nat) (g : Region) : (s.setRegion n g).ctxs = s.ctxs := by unfold State.setRegion; split <;> rfl
@[simp] theorem State.setRegion_pert (s : State) (n : Nat) (g : Region) : (s.setRegion n g).pert = s.pert := by unfold State.setRegion; split <;> rfl
@[simp] theorem State.setRegion_tpk (s : State) (n : Nat) (g : Region) : (s.setRegion n g).tpk = s.tpk := by unfold State.setRegion; split <;> rfl
@[simp] theorem State.setRegion_plat (s : State) (n : Nat) (g : Region) : (s.setRegion n g).plat = s.plat := by unfold State.setRegion; split <;> rfl
@[simp] theorem State.setRegion_blocks (s : State) (n : Nat) (g : Region) : (s.setRegion n g).blocks = s.blocks := by unfold State.setRegion; split <;> rfl
@[simp] theorem State.setRegion_ports (s : State) (n : Nat) (g : Region) : (s.setRegion n g).ports = s.ports := by unfold State.setRegion; split <;> rfl
@[simp] theorem State.setRegion_fns (s : State) (n : Nat) (g : Region) : (s.setRegion n g).fns = s.fns := by unfold State.setRegion; split <;> rfl
@[simp] theorem State.setRegion_host (s : State) (n : Nat) (g : Region) : (s.setRegion n g).host = s.host := by unfold State.setRegion; split <;> rfl
@[simp] theorem State.setRegion_msgs (s : State) (n : Nat) (g : Region) : (s.setRegion n g).msgs = s.msgs := by unfold State.setRegion; split <;> rfl
@[simp] theorem State.setRegion_freeCtr (s : State) (n : Nat) (g : Region) : (s.setRegion n g).freeCtr = s.freeCtr := by unfold State.setRegion; split <;> rfl
@[simp] theorem State.setRegion_answer (s : State) (n : Nat) (g : Region) : (s.setRegion n g).answer = s.answer := by unfold State.setRegion; split <;> rfl
@[simp] theorem State.setRegion_evcs (s : State) (n : Nat) (g : Region) : (s.setRegion n g).evcs = s.evcs := by unfold State.setRegion; split <;> rfl
@[simp] theorem State.setRegion_mchk (s : State) (n : Nat) (g : Region) : (s.setRegion n g).mchk = s.mchk := by unfold State.setRegion; split <;> rfl

/-! `State.setBlock` changes `blocks` only. -/
@[simp] theorem State.setBlock_pending (s : State) (k : Nat) (b : Block) : (s.setBlock k b).pending = s.pending := by unfold State.setBlock; split <;> rfl
@[simp] theorem State.setBlock_fuse (s : State) (k : Nat) (b : Block) : (s.setBlock k b).fuse = s.fuse := by unfold State.setBlock; split <;> rfl
@[simp] theorem State.setBlock_otp (s : State) (k : Nat) (b : Block) : (s.setBlock k b).otp = s.otp := by unfold State.setBlock; split <;> rfl
@[simp] theorem State.setBlock_flash (s : State) (k : Nat) (b : Block) : (s.setBlock k b).flash = s.flash := by unfold State.setBlock; split <;> rfl
@[simp] theorem State.setBlock_mc (s : State) (k : Nat) (b : Block) : (s.setBlock k b).mc = s.mc := by unfold State.setBlock; split <;> rfl
@[simp] theorem State.setBlock_hub (s : State) (k : Nat) (b : Block) : (s.setBlock k b).hub = s.hub := by unfold State.setBlock; split <;> rfl
@[simp] theorem State.setBlock_frame (s : State) (k : Nat) (b : Block) : (s.setBlock k b).frame = s.frame := by unfold State.setBlock; split <;> rfl
@[simp] theorem State.setBlock_pw (s : State) (k : Nat) (b : Block) : (s.setBlock k b).pw = s.pw := by unfold State.setBlock; split <;> rfl
@[simp] theorem State.setBlock_err (s : State) (k : Nat) (b : Block) : (s.setBlock k b).err = s.err := by unfold State.setBlock; split <;> rfl
@[simp] theorem State.setBlock_ctxs (s : State) (k : Nat) (b : Block) : (s.setBlock k b).ctxs = s.ctxs := by unfold State.setBlock; split <;> rfl
@[simp] theorem State.setBlock_pert (s : State) (k : Nat) (b : Block) : (s.setBlock k b).pert = s.pert := by unfold State.setBlock; split <;> rfl
@[simp] theorem State.setBlock_tpk (s : State) (k : Nat) (b : Block) : (s.setBlock k b).tpk = s.tpk := by unfold State.setBlock; split <;> rfl
@[simp] theorem State.setBlock_plat (s : State) (k : Nat) (b : Block) : (s.setBlock k b).plat = s.plat := by unfold State.setBlock; split <;> rfl
@[simp] theorem State.setBlock_regions (s : State) (k : Nat) (b : Block) : (s.setBlock k b).regions = s.regions := by unfold State.setBlock; split <;> rfl
@[simp] theorem State.setBlock_ports (s : State) (k : Nat) (b : Block) : (s.setBlock k b).ports = s.ports := by unfold State.setBlock; split <;> rfl
@[simp] theorem State.setBlock_fns (s : State) (k : Nat) (b : Block) : (s.setBlock k b).fns = s.fns := by unfold State.setBlock; split <;> rfl
@[simp] theorem State.setBlock_host (s : State) (k : Nat) (b : Block) : (s.setBlock k b).host = s.host := by unfold State.setBlock; split <;> rfl
@[simp] theorem State.setBlock_msgs (s : State) (k : Nat) (b : Block) : (s.setBlock k b).msgs = s.msgs := by unfold State.setBlock; split <;> rfl
@[simp] theorem State.setBlock_freeCtr (s : State) (k : Nat) (b : Block) : (s.setBlock k b).freeCtr = s.freeCtr := by unfold State.setBlock; split <;> rfl
@[simp] theorem State.setBlock_answer (s : State) (k : Nat) (b : Block) : (s.setBlock k b).answer = s.answer := by unfold State.setBlock; split <;> rfl
@[simp] theorem State.setBlock_evcs (s : State) (k : Nat) (b : Block) : (s.setBlock k b).evcs = s.evcs := by unfold State.setBlock; split <;> rfl
@[simp] theorem State.setBlock_mchk (s : State) (k : Nat) (b : Block) : (s.setBlock k b).mchk = s.mchk := by unfold State.setBlock; split <;> rfl

/-! `State.setPort` changes `ports` only. -/
@[simp] theorem State.setPort_pending (s : State) (k : Nat) (p : Port) : (s.setPort k p).pending = s.pending := by unfold State.setPort; split <;> rfl
@[simp] theorem State.setPort_fuse (s : State) (k : Nat) (p : Port) : (s.setPort k p).fuse = s.fuse := by unfold State.setPort; split <;> rfl
@[simp] theorem State.setPort_otp (s : State) (k : Nat) (p : Port) : (s.setPort k p).otp = s.otp := by unfold State.setPort; split <;> rfl
@[simp] theorem State.setPort_flash (s : State) (k : Nat) (p : Port) : (s.setPort k p).flash = s.flash := by unfold State.setPort; split <;> rfl
@[simp] theorem State.setPort_mc (s : State) (k : Nat) (p : Port) : (s.setPort k p).mc = s.mc := by unfold State.setPort; split <;> rfl
@[simp] theorem State.setPort_hub (s : State) (k : Nat) (p : Port) : (s.setPort k p).hub = s.hub := by unfold State.setPort; split <;> rfl
@[simp] theorem State.setPort_frame (s : State) (k : Nat) (p : Port) : (s.setPort k p).frame = s.frame := by unfold State.setPort; split <;> rfl
@[simp] theorem State.setPort_pw (s : State) (k : Nat) (p : Port) : (s.setPort k p).pw = s.pw := by unfold State.setPort; split <;> rfl
@[simp] theorem State.setPort_err (s : State) (k : Nat) (p : Port) : (s.setPort k p).err = s.err := by unfold State.setPort; split <;> rfl
@[simp] theorem State.setPort_ctxs (s : State) (k : Nat) (p : Port) : (s.setPort k p).ctxs = s.ctxs := by unfold State.setPort; split <;> rfl
@[simp] theorem State.setPort_pert (s : State) (k : Nat) (p : Port) : (s.setPort k p).pert = s.pert := by unfold State.setPort; split <;> rfl
@[simp] theorem State.setPort_tpk (s : State) (k : Nat) (p : Port) : (s.setPort k p).tpk = s.tpk := by unfold State.setPort; split <;> rfl
@[simp] theorem State.setPort_plat (s : State) (k : Nat) (p : Port) : (s.setPort k p).plat = s.plat := by unfold State.setPort; split <;> rfl
@[simp] theorem State.setPort_regions (s : State) (k : Nat) (p : Port) : (s.setPort k p).regions = s.regions := by unfold State.setPort; split <;> rfl
@[simp] theorem State.setPort_blocks (s : State) (k : Nat) (p : Port) : (s.setPort k p).blocks = s.blocks := by unfold State.setPort; split <;> rfl
@[simp] theorem State.setPort_fns (s : State) (k : Nat) (p : Port) : (s.setPort k p).fns = s.fns := by unfold State.setPort; split <;> rfl
@[simp] theorem State.setPort_host (s : State) (k : Nat) (p : Port) : (s.setPort k p).host = s.host := by unfold State.setPort; split <;> rfl
@[simp] theorem State.setPort_msgs (s : State) (k : Nat) (p : Port) : (s.setPort k p).msgs = s.msgs := by unfold State.setPort; split <;> rfl
@[simp] theorem State.setPort_freeCtr (s : State) (k : Nat) (p : Port) : (s.setPort k p).freeCtr = s.freeCtr := by unfold State.setPort; split <;> rfl
@[simp] theorem State.setPort_answer (s : State) (k : Nat) (p : Port) : (s.setPort k p).answer = s.answer := by unfold State.setPort; split <;> rfl
@[simp] theorem State.setPort_evcs (s : State) (k : Nat) (p : Port) : (s.setPort k p).evcs = s.evcs := by unfold State.setPort; split <;> rfl
@[simp] theorem State.setPort_mchk (s : State) (k : Nat) (p : Port) : (s.setPort k p).mchk = s.mchk := by unfold State.setPort; split <;> rfl

/-! `State.setFn` changes `fns` only. -/
@[simp] theorem State.setFn_pending (s : State) (k : Nat) (f : Fn) : (s.setFn k f).pending = s.pending := by unfold State.setFn; split <;> rfl
@[simp] theorem State.setFn_fuse (s : State) (k : Nat) (f : Fn) : (s.setFn k f).fuse = s.fuse := by unfold State.setFn; split <;> rfl
@[simp] theorem State.setFn_otp (s : State) (k : Nat) (f : Fn) : (s.setFn k f).otp = s.otp := by unfold State.setFn; split <;> rfl
@[simp] theorem State.setFn_flash (s : State) (k : Nat) (f : Fn) : (s.setFn k f).flash = s.flash := by unfold State.setFn; split <;> rfl
@[simp] theorem State.setFn_mc (s : State) (k : Nat) (f : Fn) : (s.setFn k f).mc = s.mc := by unfold State.setFn; split <;> rfl
@[simp] theorem State.setFn_hub (s : State) (k : Nat) (f : Fn) : (s.setFn k f).hub = s.hub := by unfold State.setFn; split <;> rfl
@[simp] theorem State.setFn_frame (s : State) (k : Nat) (f : Fn) : (s.setFn k f).frame = s.frame := by unfold State.setFn; split <;> rfl
@[simp] theorem State.setFn_pw (s : State) (k : Nat) (f : Fn) : (s.setFn k f).pw = s.pw := by unfold State.setFn; split <;> rfl
@[simp] theorem State.setFn_err (s : State) (k : Nat) (f : Fn) : (s.setFn k f).err = s.err := by unfold State.setFn; split <;> rfl
@[simp] theorem State.setFn_ctxs (s : State) (k : Nat) (f : Fn) : (s.setFn k f).ctxs = s.ctxs := by unfold State.setFn; split <;> rfl
@[simp] theorem State.setFn_pert (s : State) (k : Nat) (f : Fn) : (s.setFn k f).pert = s.pert := by unfold State.setFn; split <;> rfl
@[simp] theorem State.setFn_tpk (s : State) (k : Nat) (f : Fn) : (s.setFn k f).tpk = s.tpk := by unfold State.setFn; split <;> rfl
@[simp] theorem State.setFn_plat (s : State) (k : Nat) (f : Fn) : (s.setFn k f).plat = s.plat := by unfold State.setFn; split <;> rfl
@[simp] theorem State.setFn_regions (s : State) (k : Nat) (f : Fn) : (s.setFn k f).regions = s.regions := by unfold State.setFn; split <;> rfl
@[simp] theorem State.setFn_blocks (s : State) (k : Nat) (f : Fn) : (s.setFn k f).blocks = s.blocks := by unfold State.setFn; split <;> rfl
@[simp] theorem State.setFn_ports (s : State) (k : Nat) (f : Fn) : (s.setFn k f).ports = s.ports := by unfold State.setFn; split <;> rfl
@[simp] theorem State.setFn_host (s : State) (k : Nat) (f : Fn) : (s.setFn k f).host = s.host := by unfold State.setFn; split <;> rfl
@[simp] theorem State.setFn_msgs (s : State) (k : Nat) (f : Fn) : (s.setFn k f).msgs = s.msgs := by unfold State.setFn; split <;> rfl
@[simp] theorem State.setFn_freeCtr (s : State) (k : Nat) (f : Fn) : (s.setFn k f).freeCtr = s.freeCtr := by unfold State.setFn; split <;> rfl
@[simp] theorem State.setFn_answer (s : State) (k : Nat) (f : Fn) : (s.setFn k f).answer = s.answer := by unfold State.setFn; split <;> rfl
@[simp] theorem State.setFn_evcs (s : State) (k : Nat) (f : Fn) : (s.setFn k f).evcs = s.evcs := by unfold State.setFn; split <;> rfl
@[simp] theorem State.setFn_mchk (s : State) (k : Nat) (f : Fn) : (s.setFn k f).mchk = s.mchk := by unfold State.setFn; split <;> rfl

/-! `State.hostWrite` changes `host` only. -/
@[simp] theorem State.hostWrite_pending (s : State) (a : Nat) (bs : List Byte) : (s.hostWrite a bs).pending = s.pending := rfl
@[simp] theorem State.hostWrite_fuse (s : State) (a : Nat) (bs : List Byte) : (s.hostWrite a bs).fuse = s.fuse := rfl
@[simp] theorem State.hostWrite_otp (s : State) (a : Nat) (bs : List Byte) : (s.hostWrite a bs).otp = s.otp := rfl
@[simp] theorem State.hostWrite_flash (s : State) (a : Nat) (bs : List Byte) : (s.hostWrite a bs).flash = s.flash := rfl
@[simp] theorem State.hostWrite_mc (s : State) (a : Nat) (bs : List Byte) : (s.hostWrite a bs).mc = s.mc := rfl
@[simp] theorem State.hostWrite_hub (s : State) (a : Nat) (bs : List Byte) : (s.hostWrite a bs).hub = s.hub := rfl
@[simp] theorem State.hostWrite_frame (s : State) (a : Nat) (bs : List Byte) : (s.hostWrite a bs).frame = s.frame := rfl
@[simp] theorem State.hostWrite_pw (s : State) (a : Nat) (bs : List Byte) : (s.hostWrite a bs).pw = s.pw := rfl
@[simp] theorem State.hostWrite_err (s : State) (a : Nat) (bs : List Byte) : (s.hostWrite a bs).err = s.err := rfl
@[simp] theorem State.hostWrite_ctxs (s : State) (a : Nat) (bs : List Byte) : (s.hostWrite a bs).ctxs = s.ctxs := rfl
@[simp] theorem State.hostWrite_pert (s : State) (a : Nat) (bs : List Byte) : (s.hostWrite a bs).pert = s.pert := rfl
@[simp] theorem State.hostWrite_tpk (s : State) (a : Nat) (bs : List Byte) : (s.hostWrite a bs).tpk = s.tpk := rfl
@[simp] theorem State.hostWrite_plat (s : State) (a : Nat) (bs : List Byte) : (s.hostWrite a bs).plat = s.plat := rfl
@[simp] theorem State.hostWrite_regions (s : State) (a : Nat) (bs : List Byte) : (s.hostWrite a bs).regions = s.regions := rfl
@[simp] theorem State.hostWrite_blocks (s : State) (a : Nat) (bs : List Byte) : (s.hostWrite a bs).blocks = s.blocks := rfl
@[simp] theorem State.hostWrite_ports (s : State) (a : Nat) (bs : List Byte) : (s.hostWrite a bs).ports = s.ports := rfl
@[simp] theorem State.hostWrite_fns (s : State) (a : Nat) (bs : List Byte) : (s.hostWrite a bs).fns = s.fns := rfl
@[simp] theorem State.hostWrite_msgs (s : State) (a : Nat) (bs : List Byte) : (s.hostWrite a bs).msgs = s.msgs := rfl
@[simp] theorem State.hostWrite_freeCtr (s : State) (a : Nat) (bs : List Byte) : (s.hostWrite a bs).freeCtr = s.freeCtr := rfl
@[simp] theorem State.hostWrite_answer (s : State) (a : Nat) (bs : List Byte) : (s.hostWrite a bs).answer = s.answer := rfl
@[simp] theorem State.hostWrite_evcs (s : State) (a : Nat) (bs : List Byte) : (s.hostWrite a bs).evcs = s.evcs := rfl
@[simp] theorem State.hostWrite_mchk (s : State) (a : Nat) (bs : List Byte) : (s.hostWrite a bs).mchk = s.mchk := rfl

/-! `State.reply` changes `answer` only. -/
@[simp] theorem State.reply_pending (s : State) (n v : Nat) : (s.reply n v).pending = s.pending := rfl
@[simp] theorem State.reply_fuse (s : State) (n v : Nat) : (s.reply n v).fuse = s.fuse := rfl
@[simp] theorem State.reply_otp (s : State) (n v : Nat) : (s.reply n v).otp = s.otp := rfl
@[simp] theorem State.reply_flash (s : State) (n v : Nat) : (s.reply n v).flash = s.flash := rfl
@[simp] theorem State.reply_mc (s : State) (n v : Nat) : (s.reply n v).mc = s.mc := rfl
@[simp] theorem State.reply_hub (s : State) (n v : Nat) : (s.reply n v).hub = s.hub := rfl
@[simp] theorem State.reply_frame (s : State) (n v : Nat) : (s.reply n v).frame = s.frame := rfl
@[simp] theorem State.reply_pw (s : State) (n v : Nat) : (s.reply n v).pw = s.pw := rfl
@[simp] theorem State.reply_err (s : State) (n v : Nat) : (s.reply n v).err = s.err := rfl
@[simp] theorem State.reply_ctxs (s : State) (n v : Nat) : (s.reply n v).ctxs = s.ctxs := rfl
@[simp] theorem State.reply_pert (s : State) (n v : Nat) : (s.reply n v).pert = s.pert := rfl
@[simp] theorem State.reply_tpk (s : State) (n v : Nat) : (s.reply n v).tpk = s.tpk := rfl
@[simp] theorem State.reply_plat (s : State) (n v : Nat) : (s.reply n v).plat = s.plat := rfl
@[simp] theorem State.reply_regions (s : State) (n v : Nat) : (s.reply n v).regions = s.regions := rfl
@[simp] theorem State.reply_blocks (s : State) (n v : Nat) : (s.reply n v).blocks = s.blocks := rfl
@[simp] theorem State.reply_ports (s : State) (n v : Nat) : (s.reply n v).ports = s.ports := rfl
@[simp] theorem State.reply_fns (s : State) (n v : Nat) : (s.reply n v).fns = s.fns := rfl
@[simp] theorem State.reply_host (s : State) (n v : Nat) : (s.reply n v).host = s.host := rfl
@[simp] theorem State.reply_msgs (s : State) (n v : Nat) : (s.reply n v).msgs = s.msgs := rfl
@[simp] theorem State.reply_freeCtr (s : State) (n v : Nat) : (s.reply n v).freeCtr = s.freeCtr := rfl
@[simp] theorem State.reply_evcs (s : State) (n v : Nat) : (s.reply n v).evcs = s.evcs := rfl
@[simp] theorem State.reply_mchk (s : State) (n v : Nat) : (s.reply n v).mchk = s.mchk := rfl

/-! ## Fields of the hub -/

/-- The units whose registers lie in the hub's groups. -/
def RegUnit.hubGroup : RegUnit → Bool
  | .frame | .hub | .plat | .power | .mon | .err | .ctx | .pert => true
  | _ => false

/-- A group just replaced reads back. -/
theorem HubRegs.of_set_self (h : HubRegs) (u : RegUnit) (r : Regs) (hu : u.hubGroup = true) : (h.set u r).of u = r := by
  cases u <;> first | rfl | cases hu

/-- Replacing a group leaves the others. -/
theorem HubRegs.of_set_ne (h : HubRegs) (u w : RegUnit) (r : Regs) (hw : w ≠ u) : (h.set u r).of w = h.of w := by
  cases u <;> cases w <;> first | rfl | exact absurd rfl hw

/-- A hub field just written reads back the low bits of the value. -/
theorem State.rd_wr_self (s : State) (f : Field) (v i j : Nat)
    (h : (f.unit.hubGroup && decide (f.hi < 32 ∧ f.lo ≤ f.hi)) = true) :
    (s.wr f v i j).rd f i j = v % 2 ^ (f.hi + 1 - f.lo) := by
  simp only [Bool.and_eq_true, decide_eq_true_eq] at h
  simp only [State.rd, State.wr, HubRegs.of_set_self _ _ _ h.1]
  exact Regs.rd_wr_self _ _ _ _ _ h.2.1 h.2.2

/-- Two hub fields are apart: of two groups, or apart in one. -/
def Field.hubApart (f g : Field) (i j k l : Nat) : Bool :=
  f.unit.hubGroup && (decide (g.unit ≠ f.unit) || f.apart g i j k l)

/-- A write of a hub field changes no field apart from it. -/
theorem State.rd_wr_apart (s : State) (f g : Field) (v i j k l : Nat) (h : f.hubApart g i j k l = true) :
    (s.wr f v i j).rd g k l = s.rd g k l := by
  simp only [Field.hubApart, Bool.and_eq_true, Bool.or_eq_true, decide_eq_true_eq] at h
  obtain ⟨hu, h⟩ := h
  by_cases hg : g.unit = f.unit
  · have h := h.resolve_left (fun x => x hg)
    simp only [State.rd, State.wr, hg, HubRegs.of_set_self _ _ _ hu]
    exact Regs.rd_wr_apart _ _ _ _ _ _ _ _ h
  · simp only [State.rd, State.wr, HubRegs.of_set_ne _ _ _ _ hg]

/-- A hub bit just written. -/
theorem State.bit_wr_self (s : State) (f : Field) (v i j : Nat)
    (h : (f.unit.hubGroup && decide (f.hi < 32 ∧ f.lo ≤ f.hi)) = true) :
    (s.wr f v i j).bit f i j = (v % 2 ^ (f.hi + 1 - f.lo) != 0) := by
  have := State.rd_wr_self s f v i j h
  simp only [State.rd] at this
  simp only [State.bit, Regs.bit, this]

/-- A write of a hub field changes no bit apart from it. -/
theorem State.bit_wr_apart (s : State) (f g : Field) (v i j k l : Nat) (h : f.hubApart g i j k l = true) :
    (s.wr f v i j).bit g k l = s.bit g k l := by
  have := State.rd_wr_apart s f g v i j k l h
  simp only [State.rd] at this
  simp only [State.bit, Regs.bit, this]

/-! ## Units -/

/-- A region just put back. -/
theorem State.region_setRegion_self (s : State) (n : Nat) (g : Region) (h : n < 24) : (s.setRegion n g).region n = g := by
  simp only [State.setRegion, h, if_true, State.region]
  exact SMap.get_put_self _ _ _ _

/-- Putting a region back leaves the others. -/
theorem State.region_setRegion_ne (s : State) (n m : Nat) (g : Region) (h : m ≠ n) :
    (s.setRegion n g).region m = s.region m := by
  unfold State.setRegion State.region
  split
  · exact SMap.get_put_ne _ _ _ _ _ h
  · rfl

/-- A block just put back. -/
theorem State.block_setBlock_self (s : State) (k : Nat) (b : Block) (h : k < 4608) : (s.setBlock k b).block k = b := by
  simp only [State.setBlock, h, if_true, State.block]
  exact SMap.get_put_self _ _ _ _

/-- Putting a block back leaves the others. -/
theorem State.block_setBlock_ne (s : State) (k j : Nat) (b : Block) (h : j ≠ k) :
    (s.setBlock k b).block j = s.block j := by
  unfold State.setBlock State.block
  split
  · exact SMap.get_put_ne _ _ _ _ _ h
  · rfl

/-- A port just put back. -/
theorem State.port_setPort_self (s : State) (k : Nat) (p : Port) (h : k < 24) : (s.setPort k p).port k = p := by
  simp only [State.setPort, h, if_true, State.port]
  exact SMap.get_put_self _ _ _ _

/-- Putting a port back leaves the others. -/
theorem State.port_setPort_ne (s : State) (k j : Nat) (p : Port) (h : j ≠ k) : (s.setPort k p).port j = s.port j := by
  unfold State.setPort State.port
  split
  · exact SMap.get_put_ne _ _ _ _ _ h
  · rfl

/-- A function just put back. -/
theorem State.fn_setFn_self (s : State) (k : Nat) (f : Fn) (h : k < 34) : (s.setFn k f).fn k = f := by
  simp only [State.setFn, h, if_true, State.fn]
  exact SMap.get_put_self _ _ _ _

/-- Putting a function back leaves the others. -/
theorem State.fn_setFn_ne (s : State) (k j : Nat) (f : Fn) (h : j ≠ k) : (s.setFn k f).fn j = s.fn j := by
  unfold State.setFn State.fn
  split
  · exact SMap.get_put_ne _ _ _ _ _ h
  · rfl

/-- A context just put back. -/
theorem State.ctx_setCtx_self (s : State) (p : Nat) (c : Ctx) : (s.setCtx p c).ctx p = c := SMap.get_put_self _ _ _ _

/-- Putting a context back leaves the others. -/
theorem State.ctx_setCtx_ne (s : State) (p q : Nat) (c : Ctx) (h : q ≠ p) : (s.setCtx p c).ctx q = s.ctx q :=
  SMap.get_put_ne _ _ _ _ _ h

end Sys2Proof.Machine
end

