-- ==== Sys2Proof/Laws/Keeps.lean ====
section
/-!
SUPPORT. What every operation keeps: the fuses, the queue of commands, the canonical maps, the bounds of the hub error queue and of the
field books' waiting buffer. One lemma for each operation over the whole state, each from the lemmas of the operations it is made of.
-/
namespace Sys2Proof.Machine

set_option linter.unusedTactic false
set_option linter.unreachableTactic false

/-- From `s` to `t` the fuses and the queue of commands stand, and what is safe stays safe. -/
structure Keeps (s t : State) : Prop where
  fuse : t.fuse = s.fuse
  pending : t.pending = s.pending
  canonical : s.canonical = true → t.canonical = true
  queue : queueOk s.err.q = true → queueOk t.err.q = true
  wait : s.err.wait.length ≤ 1024 → t.err.wait.length ≤ 1024

/-- A state keeps itself. -/
theorem Keeps.refl (s : State) : Keeps s s := ⟨rfl, rfl, id, id, id⟩

/-- Keeping is transitive. -/
theorem Keeps.trans {a b c : State} (h : Keeps a b) (k : Keeps b c) : Keeps a c :=
  ⟨k.fuse.trans h.fuse, k.pending.trans h.pending, fun x => k.canonical (h.canonical x), fun x => k.queue (h.queue x),
    fun x => k.wait (h.wait x)⟩

/-- The canonical form, map by map. -/
theorem State.canonical_iff (s : State) : s.canonical = true ↔ s.host.wf = true ∧ SMap.wf regionZero s.regions = true ∧
    SMap.wf blockZero s.blocks = true ∧ SMap.wf portZero s.ports = true ∧ SMap.wf fnZero s.fns = true ∧
    SMap.wf ctxZero s.ctxs = true := by
  simp [State.canonical, and_assoc]

/-- An update of the fields that hold none of this. -/
theorem Keeps.mk_ {z s : State} {otp flash mc hub frame pw pert tpk plat msgs freeCtr answer evcs mchk}
    (h : Keeps z s) : Keeps z { pending := s.pending, fuse := s.fuse, err := s.err, ctxs := s.ctxs, regions := s.regions
                                blocks := s.blocks, ports := s.ports, fns := s.fns, host := s.host
                                otp, flash, mc, hub, frame, pw, pert, tpk, plat, msgs, freeCtr, answer, evcs, mchk } :=
  ⟨h.fuse, h.pending, h.canonical, h.queue, h.wait⟩

/-- An update of the hub's error state whose queue and waiting buffer keep their bounds. -/
theorem Keeps.err {z s : State} {otp flash mc hub frame pw pert tpk plat msgs freeCtr answer evcs mchk} {e : ErrSt}
    (h : Keeps z s) (hq : queueOk s.err.q = true → queueOk e.q = true)
    (hw : s.err.wait.length ≤ 1024 → e.wait.length ≤ 1024) :
    Keeps z { pending := s.pending, fuse := s.fuse, err := e, ctxs := s.ctxs, regions := s.regions
              blocks := s.blocks, ports := s.ports, fns := s.fns, host := s.host
              otp, flash, mc, hub, frame, pw, pert, tpk, plat, msgs, freeCtr, answer, evcs, mchk } :=
  ⟨h.fuse, h.pending, h.canonical, fun x => hq (h.queue x), fun x => hw (h.wait x)⟩

/-- A fold of steps that keep. -/
theorem Keeps.foldl {α : Type} {z s : State} {l : List α} {f : State → α → State}
    (hf : ∀ x a, Keeps z x → Keeps z (f x a)) (h : Keeps z s) : Keeps z (l.foldl f s) := by
  induction l generalizing s with
  | nil => exact h
  | cons a t ih => exact ih (hf s a h)

/-- A record's addition within the bounds. -/
theorem queueOk_append_fatal (q : List ErrRec) (r : ErrRec) (hr : r.fatal = true) (hl : q.length < 512) (h : queueOk q = true) :
    queueOk (q ++ [r]) = true := by
  simp [queueOk, List.filter_append, hr] at *
  omega

/-- A record's addition within the bounds. -/
theorem queueOk_append (q : List ErrRec) (r : ErrRec) (hl : q.length < 512)
    (hf : (q.filter (fun x => !x.fatal)).length < 448) : queueOk (q ++ [r]) = true := by
  simp only [queueOk, List.filter_append, List.length_append, List.length_cons, List.length_nil, Bool.and_eq_true,
    decide_eq_true_eq]
  have := List.length_filter_le (fun x : ErrRec => !x.fatal) [r]
  simp only [List.length_cons, List.length_nil] at this
  omega

/-- A removal keeps the bounds. -/
theorem queueOk_eraseIdx (q : List ErrRec) (i : Nat) (h : queueOk q = true) : queueOk (q.eraseIdx i) = true := by
  simp only [queueOk, Bool.and_eq_true, decide_eq_true_eq] at *
  have h1 := (List.eraseIdx_sublist q i).length_le
  have h2 := ((List.eraseIdx_sublist q i).filter (fun x : ErrRec => !x.fatal)).length_le
  omega

theorem Keeps.setCtx {z : State} {s : State} {p : Nat} {c : Ctx} (h : Keeps z s) : Keeps z (s.setCtx p c) := by
  refine ⟨h.fuse, h.pending, fun x => ?_, h.queue, h.wait⟩
  have := (State.canonical_iff _).mp (h.canonical x)
  exact (State.canonical_iff _).mpr ⟨this.1, this.2.1, this.2.2.1, this.2.2.2.1, this.2.2.2.2.1, SMap.wf_put _ _ _ _ this.2.2.2.2.2⟩

theorem Keeps.setRegion {z : State} {s : State} {n : Nat} {g : Region} (h : Keeps z s) : Keeps z (s.setRegion n g) := by
  unfold State.setRegion
  split
  · refine ⟨h.fuse, h.pending, fun x => ?_, h.queue, h.wait⟩
    have := (State.canonical_iff _).mp (h.canonical x)
    exact (State.canonical_iff _).mpr ⟨this.1, SMap.wf_put _ _ _ _ this.2.1, this.2.2⟩
  · exact h

theorem Keeps.setBlock {z : State} {s : State} {k : Nat} {b : Block} (h : Keeps z s) : Keeps z (s.setBlock k b) := by
  unfold State.setBlock
  split
  · refine ⟨h.fuse, h.pending, fun x => ?_, h.queue, h.wait⟩
    have := (State.canonical_iff _).mp (h.canonical x)
    exact (State.canonical_iff _).mpr ⟨this.1, this.2.1, SMap.wf_put _ _ _ _ this.2.2.1, this.2.2.2⟩
  · exact h

theorem Keeps.setPort {z : State} {s : State} {k : Nat} {p : Port} (h : Keeps z s) : Keeps z (s.setPort k p) := by
  unfold State.setPort
  split
  · refine ⟨h.fuse, h.pending, fun x => ?_, h.queue, h.wait⟩
    have := (State.canonical_iff _).mp (h.canonical x)
    exact (State.canonical_iff _).mpr ⟨this.1, this.2.1, this.2.2.1, SMap.wf_put _ _ _ _ this.2.2.2.1, this.2.2.2.2⟩
  · exact h

theorem Keeps.setFn {z : State} {s : State} {k : Nat} {f : Fn} (h : Keeps z s) : Keeps z (s.setFn k f) := by
  unfold State.setFn
  split
  · refine ⟨h.fuse, h.pending, fun x => ?_, h.queue, h.wait⟩
    have := (State.canonical_iff _).mp (h.canonical x)
    exact (State.canonical_iff _).mpr ⟨this.1, this.2.1, this.2.2.1, this.2.2.2.1, SMap.wf_put _ _ _ _ this.2.2.2.2.1, this.2.2.2.2.2⟩
  · exact h

theorem Keeps.hostWrite {z : State} {s : State} {a : Nat} {bs : List Byte} (h : Keeps z s) : Keeps z (s.hostWrite a bs) := by
  refine ⟨h.fuse, h.pending, fun x => ?_, h.queue, h.wait⟩
  have := (State.canonical_iff _).mp (h.canonical x)
  exact (State.canonical_iff _).mpr ⟨Mem.wf_wrN _ _ _ this.1, this.2⟩

theorem Keeps.wr {z : State} {s : State} {f : Field} {v : Nat} {i : Nat} {j : Nat} (hk : Keeps z s) : Keeps z (State.wr s f v i j) := by
  unfold State.wr
  with_reducible repeat' (first | assumption | dsimp only | refine .mk_ ?_)

theorem Keeps.set1 {z : State} {s : State} {f : Field} {i : Nat} (hk : Keeps z s) : Keeps z (State.set1 s f i) := by
  unfold State.set1
  with_reducible repeat' (first | assumption | refine .wr ?_ | dsimp only | refine .mk_ ?_)

theorem Keeps.inc {z : State} {s : State} {c : Field} {sat : Field} {i : Nat} {n : Nat} (hk : Keeps z s) : Keeps z (State.inc s c sat i n) := by
  unfold State.inc
  with_reducible repeat' (first | assumption | dsimp only | refine .mk_ ?_)

theorem Keeps.incHold {z : State} {s : State} {c : Field} {i : Nat} (hk : Keeps z s) : Keeps z (State.incHold s c i) := by
  unfold State.incHold
  with_reducible repeat' (first | assumption | refine .wr ?_ | dsimp only | refine .mk_ ?_)

theorem Keeps.discard {z : State} {s : State} {n : Nat} (hk : Keeps z s) : Keeps z (State.discard s n) := by
  unfold State.discard
  with_reducible repeat' (first | assumption | refine .inc ?_ | split | dsimp only | refine .mk_ ?_)

theorem Keeps.count {z : State} {s : State} {code : Nat} {p : Option Nat} {n : Nat} (hk : Keeps z s) : Keeps z (State.count s code p n) := by
  unfold State.count
  with_reducible repeat' (first | assumption | split | dsimp only | refine .mk_ ?_)

theorem Keeps.fresh {z : State} {s : State} (hk : Keeps z s) : Keeps z (State.fresh s).2 := by
  unfold State.fresh
  with_reducible repeat' (first | assumption | dsimp only | refine .mk_ ?_)

theorem Keeps.vector {z : State} {s : State} {fn : Nat} {v : Nat} (hk : Keeps z s) : Keeps z (State.vector s fn v) := by
  unfold State.vector
  with_reducible repeat' (first | assumption | refine .setFn ?_ | split | dsimp only | refine .mk_ ?_)

theorem Keeps.showVf {z : State} {s : State} {p : Nat} (hk : Keeps z s) : Keeps z (State.showVf s p) := by
  unfold State.showVf
  with_reducible repeat' (first | assumption | refine .wr ?_ | refine .setFn ?_ | refine .foldl (fun _ _ _ => ?_) ?_ | split | dsimp only | refine .mk_ ?_)

theorem Keeps.pfVector {z : State} {s : State} {f : Field} (hk : Keeps z s) : Keeps z (State.pfVector s f) := by
  unfold State.pfVector
  with_reducible repeat' (first | assumption | refine .vector ?_ | refine .foldl (fun _ _ _ => ?_) ?_ | dsimp only | refine .mk_ ?_)

theorem Keeps.errVector {z : State} {s : State} {fn : Nat} (hk : Keeps z s) : Keeps z (State.errVector s fn) := by
  unfold State.errVector
  with_reducible repeat' (first | assumption | refine .vector ?_ | split | dsimp only | refine .mk_ ?_)

theorem Keeps.bookPut {z : State} {s : State} {fn : Nat} {r : BookRec} (hk : Keeps z s) : Keeps z (State.bookPut s fn r) := by
  unfold State.bookPut
  with_reducible repeat' (first | assumption | refine .count ?_ | refine .wr ?_ | refine .setFn ?_ | refine .hostWrite ?_ | refine .vector ?_ | split | dsimp only | refine .mk_ ?_)

theorem Keeps.bookLost {z : State} {s : State} {fn : Nat} {r : BookRec} (hk : Keeps z s) : Keeps z (State.bookLost s fn r) := by
  unfold State.bookLost
  with_reducible repeat' (first | assumption | refine .wr ?_ | refine .setFn ?_ | split | dsimp only | refine .mk_ ?_)

theorem Keeps.bookWait {z : State} {s : State} {fn : Nat} {r : BookRec} (hk : Keeps z s) : Keeps z (State.bookWait s fn r) := by
  unfold State.bookWait
  split
  · exact Keeps.err hk id (fun _ => by simp; omega)
  · split
    · exact Keeps.bookLost hk
    · split
      · next i hi =>
        refine Keeps.bookLost (Keeps.err hk id (fun hw => ?_))
        have h0 : i < s.err.wait.length := (List.findIdx?_eq_some_iff_findIdx_eq.mp hi).1
        simp [List.length_eraseIdx, h0]; omega
      · exact Keeps.bookLost hk

theorem Keeps.announce {z : State} {s : State} {fn : Nat} {r : BookRec} (hk : Keeps z s) : Keeps z (State.announce s fn r) := by
  unfold State.announce
  with_reducible repeat' (first | assumption | refine .errVector ?_ | split | dsimp only | refine .mk_ ?_)

theorem Keeps.bookGen {z : State} {s : State} {fn : Nat} {r : BookRec} (hk : Keeps z s) : Keeps z (State.bookGen s fn r) := by
  unfold State.bookGen
  with_reducible repeat' (first | assumption | refine .setFn ?_ | refine .bookPut ?_ | refine .bookWait ?_ | refine .announce ?_ | split | dsimp only | refine .mk_ ?_)

theorem Keeps.bookAll {z : State} {s : State} {r : BookRec} (hk : Keeps z s) : Keeps z (State.bookAll s r) := by
  unfold State.bookAll
  with_reducible repeat' (first | assumption | refine .bookGen ?_ | refine .foldl (fun _ _ _ => ?_) ?_ | dsimp only | refine .mk_ ?_)

theorem Keeps.bookFlush {z : State} {fn n : Nat} {s : State} (hk : Keeps z s) : Keeps z (State.bookFlush fn n s) := by
  induction n generalizing s with
  | zero => exact hk
  | succ n ih =>
    unfold State.bookFlush
    dsimp only
    split
    · exact hk
    · next i _ =>
      split
      · exact hk
      · split
        · exact hk
        · exact ih (Keeps.bookPut (Keeps.err hk id (fun hw => Nat.le_trans (List.eraseIdx_sublist _ i).length_le hw)))

theorem Keeps.showQ {z : State} {s : State} (hk : Keeps z s) : Keeps z (State.showQ s) := by
  unfold State.showQ
  with_reducible repeat' (first | assumption | refine .wr ?_ | dsimp only | refine .mk_ ?_)

theorem Keeps.hubAnnounce {z : State} {s : State} {r : ErrRec} (hk : Keeps z s) : Keeps z (State.hubAnnounce s r).1 := by
  unfold State.hubAnnounce
  with_reducible repeat' (first | assumption | refine .errVector ?_ | refine .foldl (fun _ _ _ => ?_) ?_ | split | dsimp only | refine .mk_ ?_)

theorem Keeps.hubQueue {z : State} {s : State} {r : ErrRec} (hk : Keeps z s) : Keeps z (State.hubQueue s r) := by
  unfold State.hubQueue
  extract_lets s1 s2 h s3 r3
  have h3 : Keeps z s3 := Keeps.foldl (fun _ _ h => Keeps.errVector h) (Keeps.count (Keeps.inc hk))
  have hr : r3.fatal = r.fatal := rfl
  clear_value s3 r3
  split
  · next hf =>
    split
    · next hl => exact Keeps.showQ (Keeps.err h3 (queueOk_append_fatal _ _ hf hl) id)
    · exact Keeps.foldl (fun _ _ h => Keeps.errVector h) (Keeps.set1 (Keeps.inc h3))
  · split
    · next hc => exact Keeps.showQ (Keeps.err h3 (fun _ => queueOk_append _ _ hc.2 hc.1) id)
    · exact Keeps.foldl (fun _ _ h => Keeps.errVector h) (Keeps.inc h3)

theorem Keeps.raise {z : State} {s : State} {r : ErrRec} (hk : Keeps z s) : Keeps z (State.raise s r) :=
  Keeps.hubQueue (Keeps.err hk id id)

theorem Keeps.cutLanes {z : State} {s : State} {xs : List (Nat × Nat)} (hk : Keeps z s) : Keeps z (State.cutLanes s xs) := by
  unfold State.cutLanes
  with_reducible repeat' (first | assumption | refine .setRegion ?_ | refine .foldl (fun _ _ _ => ?_) ?_ | dsimp only | refine .mk_ ?_)

theorem Keeps.loseCircuit {z : State} {s : State} {o : Nat} (hk : Keeps z s) : Keeps z (State.loseCircuit s o) := by
  unfold State.loseCircuit
  with_reducible repeat' (first | assumption | refine .wr ?_ | refine .set1 ?_ | refine .raise ?_ | refine .cutLanes ?_ | dsimp only | refine .mk_ ?_)

theorem Keeps.finish {z : State} {s : State} {r : ItemRef} {status : Nat} {detail : Nat} (hk : Keeps z s) : Keeps z (State.finish s r status detail) := by
  unfold State.finish
  with_reducible repeat' (first | assumption | refine .setFn ?_ | split | dsimp only | refine .mk_ ?_)

theorem Keeps.finishAll {z : State} {s : State} {rs : List ItemRef} {status : Nat} {detail : Nat} (hk : Keeps z s) : Keeps z (State.finishAll s rs status detail) := by
  unfold State.finishAll
  with_reducible repeat' (first | assumption | refine .finish ?_ | refine .foldl (fun _ _ _ => ?_) ?_ | dsimp only | refine .mk_ ?_)

theorem Keeps.startClearing {z : State} {s : State} {p : Nat} {ranges : Bool} (hk : Keeps z s) : Keeps z (State.startClearing s p ranges) := by
  unfold State.startClearing
  with_reducible repeat' (first | assumption | refine .wr ?_ | refine .setCtx ?_ | split | dsimp only | refine .mk_ ?_)

theorem Keeps.teardown {z : State} {s : State} {p : Nat} {cause : Nat} (hk : Keeps z s) : Keeps z (State.teardown s p cause) := by
  unfold State.teardown
  with_reducible repeat' (first | assumption | refine .wr ?_ | refine .setCtx ?_ | refine .finish ?_ | refine .startClearing ?_ | split | dsimp only | refine .mk_ ?_)

theorem Keeps.tearFor {z : State} {s : State} {r : ErrRec} (hk : Keeps z s) : Keeps z (State.tearFor s r) := by
  unfold State.tearFor
  with_reducible repeat' (first | assumption | refine .teardown ?_ | split | dsimp only | refine .mk_ ?_)

theorem Keeps.takeEvs {z : State} {s : State} {n : Option Nat} {evs : List (Nat × Option Nat × Nat)} (hk : Keeps z s) : Keeps z (State.takeEvs s n evs) := by
  unfold State.takeEvs
  with_reducible repeat' (first | assumption | refine .setRegion ?_ | refine .foldl (fun _ _ _ => ?_) ?_ | split | dsimp only | refine .mk_ ?_)

theorem Keeps.putBlock {z : State} {s : State} {blk : Nat} {b : Block} (hk : Keeps z s) : Keeps z (State.putBlock s blk b) := by
  unfold State.putBlock
  with_reducible repeat' (first | assumption | refine .discard ?_ | refine .setBlock ?_ | refine .takeEvs ?_ | dsimp only | refine .mk_ ?_)

theorem Keeps.onPage {z : State} {s : State} {blk : Nat} {f : Env → Block → Block} (hk : Keeps z s) : Keeps z (State.onPage s blk f) := by
  unfold State.onPage
  with_reducible repeat' (first | assumption | refine .putBlock ?_ | refine .discard ?_ | split)

theorem Keeps.onBlock {z : State} {s : State} {blk : Nat} {cyc : Nat} {f : Env → Block → Block} (hk : Keeps z s) : Keeps z (State.onBlock s blk cyc f) := by
  unfold State.onBlock
  with_reducible repeat' (first | assumption | refine .putBlock ?_ | dsimp only | refine .mk_ ?_)

theorem Keeps.onLive {z : State} {s : State} {blk : Nat} {cyc : Nat} {f : Env → Block → Block} (hk : Keeps z s) : Keeps z (State.onLive s blk cyc f) := by
  unfold State.onLive
  with_reducible repeat' (first | assumption | refine .onBlock ?_ | split | dsimp only | refine .mk_ ?_)

theorem Keeps.onIssue {z : State} {s : State} {blk : Nat} {cyc : Nat} {f : Env → Block → Block} (hk : Keeps z s) : Keeps z (State.onIssue s blk cyc f) := by
  unfold State.onIssue
  with_reducible repeat' (first | assumption | refine .onLive ?_ | split | dsimp only | refine .mk_ ?_)

theorem Keeps.logAppend {z : State} {s : State} {r : LogRec} {ok : Bool} (hk : Keeps z s) : Keeps z (State.logAppend s r ok).1 := by
  unfold State.logAppend
  with_reducible repeat' (first | assumption | refine .set1 ?_ | refine .raise ?_ | split | dsimp only | refine .mk_ ?_)

theorem Keeps.showField {z : State} {s : State} (hk : Keeps z s) : Keeps z (State.showField s) := by
  unfold State.showField
  with_reducible repeat' (first | assumption | refine .wr ?_ | dsimp only | refine .mk_ ?_)

theorem Keeps.showQueueDef {z : State} {s : State} {d : Defect} (hk : Keeps z s) : Keeps z (State.showQueueDef s d) := by
  unfold State.showQueueDef
  with_reducible repeat' (first | assumption | refine .setRegion ?_ | split | dsimp only)

theorem Keeps.defects {z : State} {s : State} {ds : List Defect} (hk : Keeps z s) : Keeps z (State.defects s ds) := by
  unfold State.defects
  with_reducible repeat' (first | assumption | refine .logAppend ?_ | refine .showField ?_ | refine .foldl (fun _ _ _ => ?_) ?_ | split | dsimp only | refine .mk_ ?_)

theorem Keeps.putRegion {z : State} {s : State} {n : Nat} {g : Region} (hk : Keeps z s) : Keeps z (State.putRegion s n g) := by
  unfold State.putRegion
  with_reducible repeat' (first | assumption | refine .discard ?_ | refine .setRegion ?_ | refine .teardown ?_ | refine .takeEvs ?_ | refine .defects ?_ | refine .foldl (fun _ _ _ => ?_) ?_ | dsimp only | refine .mk_ ?_)

theorem Keeps.onRegion {z : State} {s : State} {n : Nat} {cyc : Nat} {f : REnv → Region → Region} (hk : Keeps z s) : Keeps z (State.onRegion s n cyc f) := by
  unfold State.onRegion
  with_reducible repeat' (first | assumption | refine .putRegion ?_ | dsimp only | refine .mk_ ?_)

theorem Keeps.onLiveRegion {z : State} {s : State} {n : Nat} {cyc : Nat} {f : REnv → Region → Region} (hk : Keeps z s) : Keeps z (State.onLiveRegion s n cyc f) := by
  unfold State.onLiveRegion
  with_reducible repeat' (first | assumption | refine .onRegion ?_ | split | dsimp only | refine .mk_ ?_)

theorem Keeps.allRegions {z : State} {s : State} {f : Nat → Region → Region} (hk : Keeps z s) : Keeps z (State.allRegions s f) := by
  unfold State.allRegions
  with_reducible repeat' (first | assumption | refine .putRegion ?_ | refine .foldl (fun _ _ _ => ?_) ?_ | dsimp only | refine .mk_ ?_)

theorem Keeps.pass {z : State} {s : State} {n : Nat} (hk : Keeps z s) : Keeps z (State.pass s n) := by
  unfold State.pass
  with_reducible repeat' (first | assumption | refine .count ?_ | dsimp only | refine .mk_ ?_)

theorem Keeps.idle {z : State} {s : State} (hk : Keeps z s) : Keeps z (State.idle s) := by
  unfold State.idle
  with_reducible repeat' (first | assumption | refine .pass ?_ | split | dsimp only | refine .mk_ ?_)

theorem Keeps.mchkSet {z : State} {s : State} {p : Nat} {c : ChkUnit} (hk : Keeps z s) : Keeps z (State.mchkSet s p c) := by
  unfold State.mchkSet
  with_reducible repeat' (first | assumption | refine .wr ?_ | dsimp only | refine .mk_ ?_)

theorem Keeps.showPins {z : State} {s : State} (hk : Keeps z s) : Keeps z (State.showPins s) := by
  unfold State.showPins
  with_reducible repeat' (first | assumption | refine .wr ?_ | refine .setRegion ?_ | refine .foldl (fun _ _ _ => ?_) ?_ | split | dsimp only | refine .mk_ ?_)

theorem Keeps.pinSeg {z : State} {s : State} {n : Nat} {slot : Nat} {q : Nat} {cyc : Nat} {f : Field} {sub : Nat} {inj : Bool} (hk : Keeps z s) : Keeps z (State.pinSeg s n slot q cyc f sub inj) := by
  unfold State.pinSeg
  with_reducible repeat' (first | assumption | refine .set1 ?_ | refine .raise ?_ | refine .onRegion ?_ | refine .showPins ?_ | split | dsimp only | refine .mk_ ?_)

theorem Keeps.takeLink {z : State} {s : State} {blk cyc src : Nat} (hk : Keeps z s) : Keeps z (State.takeLink s blk cyc src).2.2 := by
  unfold State.takeLink
  with_reducible repeat' (first | assumption | refine .setRegion ?_ | refine .setBlock ?_ | split | dsimp only)

theorem Keeps.arrive {z : State} {s : State} {blk cyc src order sent : Nat} {w : FWord} (hk : Keeps z s) :
    Keeps z (State.arrive s blk cyc src order sent w) := by
  unfold State.arrive
  extract_lets seg
  clear_value seg
  split
  · split
    · exact Keeps.pinSeg hk
    · exact Keeps.onBlock hk
  · exact Keeps.onBlock hk

theorem Keeps.wordInput {z : State} {s : State} {blk cyc src order sent : Nat} {got : Option FWord} (hk : Keeps z s) :
    Keeps z (State.wordInput s blk cyc src order sent got) := by
  unfold State.wordInput
  split
  · exact hk
  · extract_lets x w o e
    clear_value e o w
    split
    · exact hk
    · exact Keeps.arrive (Keeps.takeLink hk)

theorem Keeps.wordShore {z : State} {s : State} {die lx cyc : Nat} {got : Option FWord} (hk : Keeps z s) : Keeps z (State.wordShore s die lx cyc got) := by
  unfold State.wordShore
  with_reducible repeat' (first | assumption | refine .setBlock ?_ | refine .raise ?_ | split | dsimp only | refine .mk_ ?_)

theorem Keeps.edgeOut {z : State} {s : State} {n : Nat} {cyc : Nat} {row : Nat} {w : FWord} (hk : Keeps z s) : Keeps z (State.edgeOut s n cyc row w) := by
  unfold State.edgeOut
  with_reducible repeat' (first | assumption | refine .setRegion ?_ | split | dsimp only | refine .mk_ ?_)

theorem Keeps.edgeDrop {z : State} {s : State} {n : Nat} {cyc : Nat} {cls : Nat} {sub : Nat} {spec : Nat} (hk : Keeps z s) : Keeps z (State.edgeDrop s n cyc cls sub spec) := by
  unfold State.edgeDrop
  with_reducible repeat' (first | assumption | refine .raise ?_ | refine .onRegion ?_ | dsimp only | refine .mk_ ?_)

theorem Keeps.wordEdge {z : State} {s : State} {n : Nat} {cyc : Nat} {row : Nat} {got : Option FWord} (hk : Keeps z s) : Keeps z (State.wordEdge s n cyc row got) := by
  unfold State.wordEdge
  with_reducible repeat' (first | assumption | refine .setBlock ?_ | refine .edgeOut ?_ | refine .edgeDrop ?_ | split | (intro x; first | (have : Keeps z x := (by dsimp only [x]; with_reducible repeat' (first | assumption | refine .setBlock ?_ | refine .edgeOut ?_ | refine .edgeDrop ?_ | split | dsimp only | refine .mk_ ?_)); clear_value x) | clear_value x) | lift_lets | dsimp only | refine .mk_ ?_)

theorem Keeps.launch {z : State} {s : State} {blk : Nat} {cyc : Nat} (hk : Keeps z s) : Keeps z (State.launch s blk cyc) := by
  unfold State.launch
  with_reducible repeat' (first | assumption | refine .putBlock ?_ | refine .onBlock ?_ | split | dsimp only | refine .mk_ ?_)

theorem Keeps.deadlineIn {z : State} {s : State} {n : Nat} {p : Nat} (hk : Keeps z s) : Keeps z (State.deadlineIn s n p) := by
  unfold State.deadlineIn
  with_reducible repeat' (first | assumption | refine .onBlock ?_ | refine .onLiveRegion ?_ | refine .foldl (fun _ _ _ => ?_) ?_ | split | dsimp only | refine .mk_ ?_)

theorem Keeps.settleJudged {z : State} {s : State} {n : Nat} (hk : Keeps z s) : Keeps z (State.settleJudged s n) := by
  unfold State.settleJudged
  with_reducible repeat' (first | assumption | refine .onBlock ?_ | refine .foldl (fun _ _ _ => ?_) ?_ | dsimp only)

theorem Keeps.overrunRecord {z : State} {s : State} {n : Nat} {p : Nat} (hk : Keeps z s) : Keeps z (State.overrunRecord s n p) := by
  unfold State.overrunRecord
  with_reducible repeat' (first | assumption | refine .raise ?_ | refine .onBlock ?_ | refine .onLiveRegion ?_ | refine .foldl (fun _ _ _ => ?_) ?_ | split | dsimp only | refine .mk_ ?_)

theorem Keeps.declareIn {z : State} {s : State} {n : Nat} (hk : Keeps z s) : Keeps z (State.declareIn s n) := by
  unfold State.declareIn
  with_reducible repeat' (first | assumption | refine .settleJudged ?_ | refine .setCtx ?_ | refine .overrunRecord ?_ | refine .foldl (fun _ _ _ => ?_) ?_ | dsimp only | refine .mk_ ?_)

theorem Keeps.rebaseHeld {z : State} {s : State} (hk : Keeps z s) : Keeps z (State.rebaseHeld s) := by
  unfold State.rebaseHeld
  with_reducible repeat' (first | assumption | refine .setBlock ?_ | refine .setRegion ?_ | refine .foldl (fun _ _ _ => ?_) ?_ | dsimp only)

theorem Keeps.tailDeadline {z : State} {s : State} {n : Nat} (hk : Keeps z s) : Keeps z (State.tailDeadline s n) := by
  unfold State.tailDeadline
  with_reducible repeat' (first | assumption | refine .deadlineIn ?_ | refine .declareIn ?_ | refine .foldl (fun _ _ _ => ?_) ?_ | dsimp only | refine .mk_ ?_)

theorem Keeps.tickDeadline {z : State} {s : State} (hk : Keeps z s) : Keeps z (State.tickDeadline s) := by
  unfold State.tickDeadline
  with_reducible repeat' (first | assumption | refine .rebaseHeld ?_ | refine .wr ?_ | refine .onBlock ?_ | refine .allRegions ?_ | refine .deadlineIn ?_ | refine .declareIn ?_ | refine .foldl (fun _ _ _ => ?_) ?_ | split | dsimp only | refine .mk_ ?_)

theorem Keeps.tearLoss {z : State} {s : State} {k : Nat} {p : Nat} (hk : Keeps z s) : Keeps z (State.tearLoss s k p) := by
  unfold State.tearLoss
  with_reducible repeat' (first | assumption | refine .wr ?_ | refine .setCtx ?_ | refine .teardown ?_ | split | dsimp only | refine .mk_ ?_)

theorem Keeps.loseRegions {z : State} {s : State} {cause : Nat} {roots : List Nat} (hk : Keeps z s) :
    Keeps z (State.loseRegions s cause roots) := by
  unfold State.loseRegions
  extract_lets new s1 r s2 k e0 s3
  have h1 : Keeps z s1 := by
    dsimp only [s1]
    exact Keeps.foldl (fun _ _ h => Keeps.setRegion h) hk
  clear_value s1
  have h2 : Keeps z s2 := Keeps.raise h1
  clear_value s2
  have h3 : Keeps z s3 := Keeps.err h2 id id
  clear_value s3
  split
  · exact hk
  · exact Keeps.foldl (fun _ _ h => Keeps.tearLoss h) h3

theorem Keeps.aer {z : State} {s : State} {fn : Nat} {k : Nat} (hk : Keeps z s) : Keeps z (State.aer s fn k) := by
  unfold State.aer
  with_reducible repeat' (first | assumption | refine .setFn ?_ | dsimp only | refine .mk_ ?_)

theorem Keeps.placeRead {z : State} {s : State} {o : Nat} {n : Nat} (hk : Keeps z s) : Keeps z (State.placeRead s o n).1 := by
  unfold State.placeRead
  with_reducible repeat' (first | assumption | refine .putRegion ?_ | refine .onRegion ?_ | refine .foldl (fun _ _ _ => ?_) ?_ | split | dsimp only | refine .mk_ ?_)

theorem Keeps.placeWrite {z : State} {s : State} {o : Nat} {bs : List Byte} (hk : Keeps z s) : Keeps z (State.placeWrite s o bs) := by
  unfold State.placeWrite
  with_reducible repeat' (first | assumption | refine .onRegion ?_ | split | dsimp only | refine .mk_ ?_)

theorem Keeps.hostStore {z : State} {s : State} {fn : Nat} {o : Nat} {bs : List Byte} (hk : Keeps z s) : Keeps z (State.hostStore s fn o bs) := by
  unfold State.hostStore
  with_reducible repeat' (first | assumption | refine .discard ?_ | refine .aer ?_ | refine .placeWrite ?_ | refine .foldl (fun _ _ _ => ?_) ?_ | split | dsimp only | refine .mk_ ?_)

theorem Keeps.setRing {z : State} {s : State} {fn : Nat} {r : Nat} {x : Ring} (hk : Keeps z s) : Keeps z (State.setRing s fn r x) := by
  unfold State.setRing
  with_reducible repeat' (first | assumption | refine .setFn ?_ | split | dsimp only | refine .mk_ ?_)

theorem Keeps.ringError {z : State} {s : State} {fn : Nat} {r : Nat} {code : Nat} (hk : Keeps z s) : Keeps z (State.ringError s fn r code) := by
  unfold State.ringError
  with_reducible repeat' (first | assumption | refine .wr ?_ | refine .errVector ?_ | refine .setRing ?_ | dsimp only | refine .mk_ ?_)

theorem Keeps.hostDrive {z : State} {s : State} {fn : Nat} {id : Nat} {region : Nat} {blk : Nat} {inc : Nat} {void : Bool} (hk : Keeps z s) : Keeps z (State.hostDrive s fn id region blk inc void).1 := by
  unfold State.hostDrive
  with_reducible repeat' (first | assumption | refine .inc ?_ | refine .onBlock ?_ | refine .onRegion ?_ | split | dsimp only | refine .mk_ ?_)

theorem Keeps.platVec {z : State} {old : State} {s : State} (hk : Keeps z s) : Keeps z (State.platVec old s) := by
  unfold State.platVec
  with_reducible repeat' (first | assumption | refine .pfVector ?_ | split | dsimp only | refine .mk_ ?_)

theorem Keeps.install {z : State} {s : State} {p : Plat} {old : Option Plat} (hk : Keeps z s) : Keeps z (State.install s p old) := by
  unfold State.install
  with_reducible repeat' (first | assumption | refine .wr ?_ | refine .setRegion ?_ | refine .setBlock ?_ | refine .foldl (fun _ _ _ => ?_) ?_ | split | dsimp only | refine .mk_ ?_)

theorem Keeps.deriveLanes {z : State} {s : State} (hk : Keeps z s) : Keeps z (State.deriveLanes s) := by
  unfold State.deriveLanes
  with_reducible repeat' (first | assumption | refine .wr ?_ | refine .launch ?_ | refine .foldl (fun _ _ _ => ?_) ?_ | split | dsimp only | refine .mk_ ?_)

theorem Keeps.installLanes {z : State} {s : State} (hk : Keeps z s) : Keeps z (State.installLanes s) := by
  unfold State.installLanes
  with_reducible repeat' (first | assumption | refine .wr ?_ | refine .deriveLanes ?_ | refine .foldl (fun _ _ _ => ?_) ?_ | split | dsimp only | refine .mk_ ?_)

theorem Keeps.adoptMaps {z : State} {s : State} (hk : Keeps z s) : Keeps z (State.adoptMaps s) := by
  unfold State.adoptMaps
  with_reducible repeat' (first | assumption | refine .wr ?_ | refine .setRegion ?_ | refine .setBlock ?_ | refine .foldl (fun _ _ _ => ?_) ?_ | split | dsimp only | refine .mk_ ?_)

theorem Keeps.adoptFrame {z : State} {s : State} (hk : Keeps z s) : Keeps z (State.adoptFrame s) := by
  unfold State.adoptFrame
  with_reducible repeat' (first | assumption | refine .wr ?_ | refine .set1 ?_ | split | dsimp only | refine .mk_ ?_)

theorem Keeps.wrHash {z : State} {s : State} {f : Field} {h : List Word} (hk : Keeps z s) : Keeps z (State.wrHash s f h) := by
  unfold State.wrHash
  with_reducible repeat' (first | assumption | refine .wr ?_ | refine .foldl (fun _ _ _ => ?_) ?_ | dsimp only | refine .mk_ ?_)

theorem Keeps.clearShadow {z : State} {s : State} (hk : Keeps z s) : Keeps z (State.clearShadow s) := by
  unfold State.clearShadow
  with_reducible repeat' (first | assumption | refine .wr ?_ | refine .setRegion ?_ | refine .foldl (fun _ _ _ => ?_) ?_ | dsimp only | refine .mk_ ?_)

theorem Keeps.cutAbandon {z : State} {s : State} {reason : Nat} (hk : Keeps z s) : Keeps z (State.cutAbandon s reason) := by
  unfold State.cutAbandon
  with_reducible repeat' (first | assumption | refine .wr ?_ | refine .set1 ?_ | refine .raise ?_ | refine .finish ?_ | refine .wrHash ?_ | refine .clearShadow ?_ | split | dsimp only | refine .mk_ ?_)

theorem Keeps.transferOne {z : State} {old s : State} {t : TransferRec} (hk : Keeps z s) : Keeps z (State.transferOne old s t) := by
  unfold State.transferOne
  with_reducible repeat' (first | assumption | refine .setBlock ?_ | refine .onBlock ?_ | refine .setRegion ?_ | split | dsimp only | refine .mk_ ?_)

theorem Keeps.newLegs {z : State} {s : State} {recs : List TransferRec} {o p : Plat} {f : Nat} (hk : Keeps z s) : Keeps z (State.newLegs s recs o p f) := by
  unfold State.newLegs
  with_reducible repeat' (first | assumption | refine .setRegion ?_ | refine .setBlock ?_ | refine .foldl (fun _ _ _ => ?_) ?_ | split | dsimp only | refine .mk_ ?_)

theorem Keeps.adoptBring {z : State} {s : State} {m : BringMap} (hk : Keeps z s) : Keeps z (State.adoptBring s m) := by
  unfold State.adoptBring
  with_reducible repeat' (first | assumption | refine .setRegion ?_ | refine .setBlock ?_ | refine .foldl (fun _ _ _ => ?_) ?_ | split | dsimp only | refine .mk_ ?_)

theorem Keeps.switchPlat {z : State} {s : State} (hk : Keeps z s) : Keeps z (State.switchPlat s) := by
  unfold State.switchPlat
  with_reducible repeat' (first | assumption | refine .installLanes ?_ | refine .wr ?_ | refine .set1 ?_ | refine .finish ?_ | refine .install ?_ | refine .adoptMaps ?_ | refine .adoptFrame ?_ | refine .wrHash ?_ | refine .clearShadow ?_ | refine .transferOne ?_ | refine .newLegs ?_ | refine .foldl (fun _ _ _ => ?_) ?_ | split | dsimp only | refine .mk_ ?_)

theorem Keeps.activatePlat {z : State} {s : State} (hk : Keeps z s) : Keeps z (State.activatePlat s) := by
  unfold State.activatePlat
  with_reducible repeat' (first | assumption | refine .wr ?_ | refine .setRegion ?_ | refine .onLiveRegion ?_ | refine .showPins ?_ | refine .installLanes ?_ | refine .adoptMaps ?_ | refine .adoptFrame ?_ | refine .foldl (fun _ _ _ => ?_) ?_ | split | dsimp only | refine .mk_ ?_)

theorem Keeps.unloadPlat {z : State} {s : State} (hk : Keeps z s) : Keeps z (State.unloadPlat s) := by
  unfold State.unloadPlat
  with_reducible repeat' (first | assumption | refine .wr ?_ | refine .finishAll ?_ | refine .wrHash ?_ | split | dsimp only | refine .mk_ ?_)

theorem Keeps.rejectPlat {z : State} {s : State} {l : LoadSt} {r : Rej} (hk : Keeps z s) : Keeps z (State.rejectPlat s l r) := by
  unfold State.rejectPlat
  with_reducible repeat' (first | assumption | refine .wr ?_ | refine .set1 ?_ | refine .finish ?_ | split | dsimp only | refine .mk_ ?_)

theorem Keeps.putPort {z : State} {s : State} {port : Nat} {p : Port} (hk : Keeps z s) : Keeps z (State.putPort s port p) := by
  unfold State.putPort
  with_reducible repeat' (first | assumption | refine .setPort ?_ | refine .pfVector ?_ | refine .raise ?_ | refine .takeEvs ?_ | refine .foldl (fun _ _ _ => ?_) ?_ | split | dsimp only | refine .mk_ ?_)

theorem Keeps.onPort {z : State} {s : State} {port : Nat} {t : Nat} {f : PEnv → Port → Port} (hk : Keeps z s) : Keeps z (State.onPort s port t f) := by
  unfold State.onPort
  with_reducible repeat' (first | assumption | refine .putPort ?_ | dsimp only | refine .mk_ ?_)

theorem Keeps.voidNotice {z : State} {s : State} {port : Nat} {p : Nat} {n : Nat} (hk : Keeps z s) : Keeps z (State.voidNotice s port p n) := by
  unfold State.voidNotice
  with_reducible repeat' (first | assumption | refine .wr ?_ | refine .raise ?_ | refine .onRegion ?_ | refine .onPort ?_ | refine .foldl (fun _ _ _ => ?_) ?_ | split | dsimp only | refine .mk_ ?_)

theorem Keeps.darken {z : State} {s : State} {k : Nat} (hk : Keeps z s) : Keeps z (State.darken s k) := by
  unfold State.darken
  with_reducible repeat' (first | assumption | refine .wr ?_ | refine .loseCircuit ?_ | refine .onPort ?_ | refine .foldl (fun _ _ _ => ?_) ?_ | split | dsimp only | refine .mk_ ?_)

theorem Keeps.light {z : State} {s : State} {k : Nat} (hk : Keeps z s) : Keeps z (State.light s k) := by
  unfold State.light
  with_reducible repeat' (first | assumption | refine .wr ?_ | refine .foldl (fun _ _ _ => ?_) ?_ | dsimp only | refine .mk_ ?_)

theorem Keeps.finishLoading {z : State} {s : State} {p : Nat} (hk : Keeps z s) : Keeps z (State.finishLoading s p) := by
  unfold State.finishLoading
  with_reducible repeat' (first | assumption | refine .setCtx ?_ | refine .setBlock ?_ | refine .foldl (fun _ _ _ => ?_) ?_ | split | dsimp only | refine .mk_ ?_)

theorem Keeps.startCtx {z : State} {s : State} {p : Nat} (hk : Keeps z s) : Keeps z (State.startCtx s p) := by
  unfold State.startCtx
  with_reducible repeat' (first | assumption | refine .wr ?_ | refine .setCtx ?_ | refine .setRegion ?_ | refine .setBlock ?_ | refine .showVf ?_ | refine .raise ?_ | refine .finish ?_ | refine .foldl (fun _ _ _ => ?_) ?_ | split | dsimp only | refine .mk_ ?_)

theorem Keeps.showEsc {z : State} {s : State} (hk : Keeps z s) : Keeps z (State.showEsc s) :=
  Keeps.wr (Keeps.err hk id id)

theorem Keeps.abortItems {z : State} {s : State} (hk : Keeps z s) : Keeps z (State.abortItems s) := by
  unfold State.abortItems
  with_reducible repeat' (first | assumption | refine .setFn ?_ | refine .foldl (fun _ _ _ => ?_) ?_ | split | dsimp only | refine .mk_ ?_)

theorem Keeps.enterOos {z : State} {s : State} (hk : Keeps z s) : Keeps z (State.enterOos s) := by
  unfold State.enterOos
  with_reducible repeat' (first | assumption | refine .wr ?_ | refine .set1 ?_ | refine .showVf ?_ | refine .errVector ?_ | refine .raise ?_ | refine .teardown ?_ | refine .platVec ?_ | refine .cutAbandon ?_ | refine .abortItems ?_ | refine .foldl (fun _ _ _ => ?_) ?_ | split | dsimp only | refine .mk_ ?_)

theorem Keeps.escalate {z : State} {s : State} {n : Nat} (hk : Keeps z s) : Keeps z (State.escalate s n) := by
  unfold State.escalate
  split
  · exact hk
  · extract_lets e0 s1 s2
    have h2 : Keeps z s2 := Keeps.wr (Keeps.showEsc (Keeps.err hk id id))
    split
    · exact Keeps.enterOos h2
    · exact h2

theorem Keeps.fenceStop {z : State} {s : State} {p : Nat} (hk : Keeps z s) : Keeps z (State.fenceStop s p) := by
  unfold State.fenceStop
  with_reducible repeat' (first | assumption | refine .setBlock ?_ | refine .foldl (fun _ _ _ => ?_) ?_ | split | dsimp only | refine .mk_ ?_)

theorem Keeps.fence {z : State} {s : State} {p : Nat} (hk : Keeps z s) : Keeps z (State.fence s p) := by
  unfold State.fence
  with_reducible repeat' (first | assumption | refine .wr ?_ | refine .setCtx ?_ | refine .setRegion ?_ | refine .setBlock ?_ | refine .setPort ?_ | refine .raise ?_ | refine .foldl (fun _ _ _ => ?_) ?_ | split | dsimp only | refine .mk_ ?_)

theorem Keeps.voidContexts {z : State} {s : State} {p : Nat} {ports : List Nat} (hk : Keeps z s) : Keeps z (State.voidContexts s p ports) := by
  unfold State.voidContexts
  with_reducible repeat' (first | assumption | refine .onPort ?_ | refine .foldl (fun _ _ _ => ?_) ?_ | dsimp only | refine .mk_ ?_)

theorem Keeps.endTeardown {z : State} {s : State} {p : Nat} (hk : Keeps z s) : Keeps z (State.endTeardown s p) := by
  unfold State.endTeardown
  with_reducible repeat' (first | assumption | refine .set1 ?_ | refine .setCtx ?_ | refine .showVf ?_ | refine .raise ?_ | refine .finishAll ?_ | refine .startClearing ?_ | dsimp only | refine .mk_ ?_)

theorem Keeps.finishClearing {z : State} {s : State} {p : Nat} (hk : Keeps z s) : Keeps z (State.finishClearing s p) := by
  unfold State.finishClearing
  with_reducible repeat' (first | assumption | refine .wr ?_ | refine .setCtx ?_ | refine .setRegion ?_ | refine .setBlock ?_ | refine .foldl (fun _ _ _ => ?_) ?_ | split | dsimp only | refine .mk_ ?_)

theorem Keeps.driveEntries {z : State} {fn : Nat} {x : Item} {l : List Nat} {s : State} {t : Option Nat} (hk : Keeps z s) :
    Keeps z (State.driveEntries fn x l s t).1 := by
  induction l generalizing s t with
  | nil => exact hk
  | cons i rest ih =>
    unfold State.driveEntries
    dsimp only
    split
    · exact ih hk
    · exact ih (Keeps.hostDrive hk)

theorem Keeps.fnReset {z : State} {s : State} {fn : Nat} (hk : Keeps z s) : Keeps z (State.fnReset s fn) := by
  unfold State.fnReset
  extract_lets e0 s1 s2
  have h2 : Keeps z s2 :=
    Keeps.setFn (Keeps.err hk id (fun hw => Nat.le_trans (List.filter_sublist).length_le hw))
  clear_value s2
  split
  · exact h2
  · exact Keeps.showVf h2

theorem Keeps.settleDomain {z : State} {s : State} {n : Nat} {k : Nat} {cyc : Nat} (hk : Keeps z s) : Keeps z (State.settleDomain s n k cyc) := by
  unfold State.settleDomain
  with_reducible repeat' (first | assumption | refine .onBlock ?_ | refine .foldl (fun _ _ _ => ?_) ?_ | dsimp only | refine .mk_ ?_)

theorem Keeps.settleNow {z : State} {s : State} {n k : Nat} (hk : Keeps z s) : Keeps z (State.settleNow s n k) := by
  unfold State.settleNow
  with_reducible repeat' (first | assumption | refine .settleDomain ?_ | dsimp only)

theorem Keeps.putRate {z : State} {s : State} {n k : Nat} {g : Region} (hk : Keeps z s) : Keeps z (State.putRate s n k g) := by
  unfold State.putRate
  with_reducible repeat' (first | assumption | refine .setRegion ?_ | refine .settleNow ?_ | split | dsimp only)

theorem Keeps.setDom {z : State} {s : State} {d : Nat} {x : DomSt} (hk : Keeps z s) : Keeps z (State.setDom s d x) := by
  unfold State.setDom
  with_reducible repeat' (first | assumption | dsimp only | refine .mk_ ?_)

theorem Keeps.noteRate {z : State} {s : State} {n : Nat} {k : Nat} (hk : Keeps z s) : Keeps z (State.noteRate s n k) := by
  unfold State.noteRate
  with_reducible repeat' (first | assumption | refine .setDom ?_ | dsimp only | refine .mk_ ?_)

theorem Keeps.setCeil {z : State} {s : State} {f : Field} {n : Nat} {k : Nat} {v : Nat} (hk : Keeps z s) : Keeps z (State.setCeil s f n k v) := by
  unfold State.setCeil
  with_reducible repeat' (first | assumption | refine .putRate ?_ | refine .wr ?_ | refine .setRegion ?_ | refine .noteRate ?_ | dsimp only | refine .mk_ ?_)

theorem Keeps.showPower {z : State} {s : State} (hk : Keeps z s) : Keeps z (State.showPower s) := by
  unfold State.showPower
  with_reducible repeat' (first | assumption | refine .wr ?_ | split | dsimp only | refine .mk_ ?_)

theorem Keeps.darkBlocks {z : State} {s : State} {n : Nat} {k : Nat} (hk : Keeps z s) : Keeps z (State.darkBlocks s n k) := by
  unfold State.darkBlocks
  with_reducible repeat' (first | assumption | refine .setBlock ?_ | refine .foldl (fun _ _ _ => ?_) ?_ | dsimp only | refine .mk_ ?_)

theorem Keeps.domBoundary {z : State} {s : State} {n : Nat} {k : Nat} (hk : Keeps z s) : Keeps z (State.domBoundary s n k) := by
  unfold State.domBoundary
  with_reducible repeat' (first | assumption | refine .wr ?_ | refine .setRegion ?_ | refine .setBlock ?_ | refine .onRegion ?_ | refine .foldl (fun _ _ _ => ?_) ?_ | split | dsimp only | refine .mk_ ?_)

theorem Keeps.vidBoundary {z : State} {s : State} {n : Nat} {k : Nat} (hk : Keeps z s) : Keeps z (State.vidBoundary s n k) := by
  unfold State.vidBoundary
  with_reducible repeat' (first | assumption | refine .wr ?_ | refine .setRegion ?_ | refine .onRegion ?_ | refine .setDom ?_ | split | dsimp only | refine .mk_ ?_)

theorem Keeps.railsOff {z : State} {s : State} (hk : Keeps z s) : Keeps z (State.railsOff s) := by
  unfold State.railsOff
  extract_lets esc fit e0 e1 e2 s1 s2
  have h1 : Keeps z s1 := by
    refine ⟨hk.fuse, hk.pending, fun x => ?_, hk.queue, hk.wait⟩
    have := (State.canonical_iff _).mp (hk.canonical x)
    exact (State.canonical_iff _).mpr ⟨this.1, rfl, rfl, rfl, this.2.2.2.2.1, rfl⟩
  clear_value s1
  have h2 : Keeps z s2 := Keeps.foldl (fun _ _ h => Keeps.fnReset h) h1
  clear_value s2
  exact Keeps.wr (Keeps.wr (Keeps.wr h2))

theorem Keeps.govStop {z : State} {s : State} (hk : Keeps z s) : Keeps z (State.govStop s) := by
  unfold State.govStop
  with_reducible repeat' (first | assumption | refine .wr ?_ | split | dsimp only | refine .mk_ ?_)

theorem Keeps.powerDown {z : State} {s : State} {r : ErrRec} {halt : Bool} (hk : Keeps z s) : Keeps z (State.powerDown s r halt) := by
  unfold State.powerDown
  with_reducible repeat' (first | assumption | refine .wr ?_ | refine .set1 ?_ | refine .raise ?_ | refine .railsOff ?_ | refine .govStop ?_ | split | dsimp only | refine .mk_ ?_)

theorem Keeps.mainIn {z : State} {s : State} (hk : Keeps z s) : Keeps z (State.mainIn s) := by
  unfold State.mainIn
  with_reducible repeat' (first | assumption | refine .wr ?_ | split | dsimp only | refine .mk_ ?_)

theorem Keeps.allDoms {z : State} {s : State} {f : State → Nat → Nat → State} (hf : ∀ (x : State) (y0 : Nat) (y1 : Nat), Keeps z x → Keeps z (f x y0 y1)) (hk : Keeps z s) : Keeps z (State.allDoms s f) := by
  unfold State.allDoms
  with_reducible repeat' (first | assumption | refine hf _ _ _ ?_ | refine .foldl (fun _ _ _ => ?_) ?_ | dsimp only | refine .mk_ ?_)

theorem Keeps.noFill {z : State} {s : State} (hk : Keeps z s) : Keeps z (State.noFill s) := by
  unfold State.noFill
  with_reducible repeat' (first | assumption | refine .wr ?_ | refine .setRegion ?_ | refine .allDoms (fun _ _ _ _ => ?_) ?_ | dsimp only | refine .mk_ ?_)

theorem Keeps.govOff {z : State} {s : State} (hk : Keeps z s) : Keeps z (State.govOff s) := by
  unfold State.govOff
  with_reducible repeat' (first | assumption | refine .wr ?_ | refine .setCeil ?_ | refine .allDoms (fun _ _ _ _ => ?_) ?_ | refine .noFill ?_ | dsimp only | refine .mk_ ?_)

theorem Keeps.endForced {z : State} {s : State} (hk : Keeps z s) : Keeps z (State.endForced s) := by
  unfold State.endForced
  with_reducible repeat' (first | assumption | refine .raise ?_ | refine .foldl (fun _ _ _ => ?_) ?_ | split | dsimp only | refine .mk_ ?_)

theorem Keeps.keepE {z : State} {s : State} {m : Meas} (hk : Keeps z s) : Keeps z (State.keepE s m) := by
  unfold State.keepE
  with_reducible repeat' (first | assumption | refine .setDom ?_ | refine .foldl (fun _ _ _ => ?_) ?_ | split | dsimp only | refine .mk_ ?_)

theorem Keeps.enterForced {z : State} {s : State} {p : Nat} {why : List Nat} (hk : Keeps z s) : Keeps z (State.enterForced s p why) := by
  unfold State.enterForced
  with_reducible repeat' (first | assumption | refine .wr ?_ | refine .set1 ?_ | refine .inc ?_ | split | dsimp only | refine .mk_ ?_)

theorem Keeps.descend {z : State} {s : State} (hk : Keeps z s) : Keeps z (State.descend s) := by
  unfold State.descend
  with_reducible repeat' (first | assumption | refine .wr ?_ | refine .noFill ?_ | refine .endForced ?_ | split | dsimp only | refine .mk_ ?_)

theorem Keeps.capStep {z : State} {s : State} (hk : Keeps z s) : Keeps z (State.capStep s) := by
  unfold State.capStep
  with_reducible repeat' (first | assumption | split | dsimp only | refine .mk_ ?_)

theorem Keeps.govern {z : State} {s : State} {p : Nat} (hk : Keeps z s) : Keeps z (State.govern s p) := by
  unfold State.govern
  with_reducible repeat' (first | assumption | refine .wr ?_ | refine .govOff ?_ | refine .endForced ?_ | refine .enterForced ?_ | refine .descend ?_ | split | dsimp only | refine .mk_ ?_)

theorem Keeps.showGrade {z : State} {s : State} {f : Nat} {h : Nat} (hk : Keeps z s) : Keeps z (State.showGrade s f h) := by
  unfold State.showGrade
  with_reducible repeat' (first | assumption | refine .wr ?_ | dsimp only | refine .mk_ ?_)

theorem Keeps.sampleRegs {z : State} {s : State} {m : Meas} (hk : Keeps z s) : Keeps z (State.sampleRegs s m) := by
  unfold State.sampleRegs
  with_reducible repeat' (first | assumption | refine .wr ?_ | refine .setRegion ?_ | refine .allDoms (fun _ _ _ _ => ?_) ?_ | refine .foldl (fun _ _ _ => ?_) ?_ | dsimp only | refine .mk_ ?_)

theorem Keeps.sampleInput {z : State} {s : State} {m : Meas} (hk : Keeps z s) : Keeps z (State.sampleInput s m) := by
  unfold State.sampleInput
  with_reducible repeat' (first | assumption | refine .wr ?_ | refine .set1 ?_ | refine .raise ?_ | refine .mainIn ?_ | split | dsimp only | refine .mk_ ?_)

theorem Keeps.thermRegion {z : State} {s : State} {m : Meas} {n : Nat} (hk : Keeps z s) : Keeps z (State.thermRegion s m n) := by
  unfold State.thermRegion
  with_reducible repeat' (first | assumption | refine .wr ?_ | refine .set1 ?_ | refine .setRegion ?_ | refine .raise ?_ | refine .setDom ?_ | refine .setCeil ?_ | refine .foldl (fun _ _ _ => ?_) ?_ | split | (intro x; first | (have : Keeps z x := (by dsimp only [x]; with_reducible repeat' (first | assumption | refine .wr ?_ | refine .set1 ?_ | refine .setRegion ?_ | refine .raise ?_ | refine .setDom ?_ | refine .setCeil ?_ | refine .foldl (fun _ _ _ => ?_) ?_ | split | dsimp only | refine .mk_ ?_)); clear_value x) | clear_value x) | lift_lets | dsimp only | refine .mk_ ?_)

theorem Keeps.sampleTherm {z : State} {s : State} {m : Meas} (hk : Keeps z s) : Keeps z (State.sampleTherm s m) := by
  unfold State.sampleTherm
  with_reducible repeat' (first | assumption | refine .wr ?_ | refine .set1 ?_ | refine .raise ?_ | refine .thermRegion ?_ | refine .foldl (fun _ _ _ => ?_) ?_ | split | dsimp only | refine .mk_ ?_)

theorem Keeps.sampleCurrent {z : State} {s : State} (hk : Keeps z s) : Keeps z (State.sampleCurrent s) := by
  unfold State.sampleCurrent
  with_reducible repeat' (first | assumption | refine .setRegion ?_ | refine .setDom ?_ | refine .allDoms (fun _ _ _ _ => ?_) ?_ | refine .foldl (fun _ _ _ => ?_) ?_ | split | dsimp only | refine .mk_ ?_)

theorem Keeps.sampleGrade {z : State} {s : State} {m : Meas} (hk : Keeps z s) : Keeps z (State.sampleGrade s m) := by
  unfold State.sampleGrade
  with_reducible repeat' (first | assumption | refine .idle ?_ | refine .keepE ?_ | refine .capStep ?_ | refine .govern ?_ | refine .showGrade ?_ | refine .foldl (fun _ _ _ => ?_) ?_ | split | dsimp only | refine .mk_ ?_)

theorem Keeps.boostRegion {z : State} {s : State} {m : Meas} {n : Nat} (hk : Keeps z s) : Keeps z (State.boostRegion s m n) := by
  unfold State.boostRegion
  with_reducible repeat' (first | assumption | refine .setRegion ?_ | refine .foldl (fun _ _ _ => ?_) ?_ | split | dsimp only | refine .mk_ ?_)

theorem Keeps.nextSample {z : State} {s : State} (hk : Keeps z s) : Keeps z (State.nextSample s) := by
  unfold State.nextSample
  with_reducible repeat' (first | assumption | refine .setDom ?_ | refine .noteRate ?_ | refine .allDoms (fun _ _ _ _ => ?_) ?_ | dsimp only | refine .mk_ ?_)

theorem Keeps.trip {z : State} {s : State} {m : Meas} (hk : Keeps z s) : Keeps z (State.trip s m) := by
  unfold State.trip
  with_reducible repeat' (first | assumption | refine .powerDown ?_ | split | dsimp only | refine .mk_ ?_)

theorem Keeps.lowerQi {z : State} {s : State} {n : Nat} {k : Nat} (hk : Keeps z s) : Keeps z (State.lowerQi s n k) := by
  unfold State.lowerQi
  with_reducible repeat' (first | assumption | refine .onRegion ?_ | refine .setDom ?_ | refine .setCeil ?_ | split | dsimp only | refine .mk_ ?_)

theorem Keeps.capLoop {z : State} {s : State} {e : Nat} (hk : Keeps z s) : Keeps z (State.capLoop s e) := by
  unfold State.capLoop
  extract_lets x0 move
  have hm : ∀ up, Keeps z (move up) := fun up => by
    dsimp only [move, x0]
    exact Keeps.mk_ (Keeps.foldl (fun _ _ h => Keeps.setCeil h) hk)
  clear_value move
  split
  · exact hm _
  · split
    · exact hm _
    · exact hk

theorem Keeps.gradeAt {z : State} {s : State} {up : Bool} {d : Nat} (hk : Keeps z s) : Keeps z (State.gradeAt s up d) := by
  unfold State.gradeAt
  with_reducible repeat' (first | assumption | refine .wr ?_ | refine .setRegion ?_ | refine .setCeil ?_ | split | dsimp only | refine .mk_ ?_)

theorem Keeps.gradeLoop {z : State} {s : State} {e : Nat} (hk : Keeps z s) : Keeps z (State.gradeLoop s e) := by
  unfold State.gradeLoop
  extract_lets st g cnt x0 move
  have hm : ∀ up, Keeps z (move up) := fun up => by
    dsimp only [move, x0]
    exact Keeps.mk_ (Keeps.foldl (fun _ _ h => Keeps.gradeAt h) hk)
  clear_value move
  split
  · exact hk
  · split
    · exact hm _
    · split
      · exact hm _
      · exact hk

theorem Keeps.softStart {z : State} {s : State} {n : Nat} {k : Nat} (hk : Keeps z s) : Keeps z (State.softStart s n k) := by
  unfold State.softStart
  with_reducible repeat' (first | assumption | refine .onRegion ?_ | refine .setDom ?_ | refine .noteRate ?_ | refine .foldl (fun _ _ _ => ?_) ?_ | split | dsimp only | refine .mk_ ?_)

theorem Keeps.phaseTest {z : State} {s : State} {n : Nat} {k : Nat} {ph : Nat} {pass : Bool} (hk : Keeps z s) : Keeps z (State.phaseTest s n k ph pass) := by
  unfold State.phaseTest
  with_reducible repeat' (first | assumption | refine .onRegion ?_ | refine .pass ?_ | refine .setDom ?_ | split | dsimp only | refine .mk_ ?_)

theorem Keeps.pcapWrite {z : State} {s : State} {v : Word} (hk : Keeps z s) : Keeps z (State.pcapWrite s v) := by
  unfold State.pcapWrite
  with_reducible repeat' (first | assumption | refine .wr ?_ | split | dsimp only | refine .mk_ ?_)

theorem Keeps.coldState {z : State} {s : State} (hk : Keeps z s) : Keeps z (State.coldState s) := by
  unfold State.coldState
  extract_lets t0 t t1
  have ht : Keeps z t := by
    refine ⟨hk.fuse, hk.pending, fun x => ?_, fun _ => rfl, fun _ => Nat.zero_le _⟩
    have := (State.canonical_iff _).mp (hk.canonical x)
    exact (State.canonical_iff _).mpr ⟨this.1, rfl, rfl, rfl, rfl, rfl⟩
  clear_value t
  have h1 : Keeps z t1 := Keeps.foldl (fun _ _ h => Keeps.wr h) ht
  clear_value t1
  exact Keeps.wr (Keeps.wr h1)

theorem Keeps.loadFuses {z : State} {s : State} (hk : Keeps z s) : Keeps z (State.loadFuses s) := by
  unfold State.loadFuses
  with_reducible repeat' (first | assumption | refine .wr ?_ | refine .showField ?_ | refine .foldl (fun _ _ _ => ?_) ?_ | split | dsimp only | refine .mk_ ?_)

theorem Keeps.startFw {z : State} {s : State} {i : Nat} {x : FwImage} (hk : Keeps z s) : Keeps z (State.startFw s i x) := by
  unfold State.startFw
  with_reducible repeat' (first | assumption | refine .wr ?_ | dsimp only | refine .mk_ ?_)

theorem Keeps.verifyFw {z : State} {s : State} (hk : Keeps z s) : Keeps z (State.verifyFw s) := by
  unfold State.verifyFw
  with_reducible repeat' (first | assumption | refine .set1 ?_ | refine .startFw ?_ | split | dsimp only | refine .mk_ ?_)

theorem Keeps.coldStart {z : State} {s : State} (hk : Keeps z s) : Keeps z (State.coldStart s) := by
  unfold State.coldStart
  with_reducible repeat' (first | assumption | refine .wr ?_ | refine .coldState ?_ | refine .loadFuses ?_ | refine .verifyFw ?_ | dsimp only | refine .mk_ ?_)

theorem Keeps.coldReset {z : State} {s : State} (hk : Keeps z s) : Keeps z (State.coldReset s) := by
  unfold State.coldReset
  with_reducible repeat' (first | assumption | refine .coldStart ?_ | dsimp only | refine .mk_ ?_)

theorem Keeps.halt {z : State} {s : State} {code : Nat} (hk : Keeps z s) : Keeps z (State.halt s code) := by
  unfold State.halt
  with_reducible repeat' (first | assumption | refine .wr ?_ | refine .set1 ?_ | dsimp only | refine .mk_ ?_)

theorem Keeps.lostAtStart {z : State} {s : State} {n : Nat} (hk : Keeps z s) : Keeps z (State.lostAtStart s n) := by
  unfold State.lostAtStart
  with_reducible repeat' (first | assumption | refine .wr ?_ | refine .setRegion ?_ | dsimp only | refine .mk_ ?_)

theorem Keeps.stageRec {z : State} {s : State} {cls : Nat} {sub : Nat} {n : Nat} {pblk : Nat} {specific : Nat} (hk : Keeps z s) : Keeps z (State.stageRec s cls sub n pblk specific) := by
  unfold State.stageRec
  with_reducible repeat' (first | assumption | refine .raise ?_ | split | dsimp only | refine .mk_ ?_)

theorem Keeps.loseAt {z : State} {s : State} {cls : Nat} {sub : Nat} {ns : List Nat} (hk : Keeps z s) : Keeps z (State.loseAt s cls sub ns) := by
  unfold State.loseAt
  with_reducible repeat' (first | assumption | refine .lostAtStart ?_ | refine .stageRec ?_ | refine .foldl (fun _ _ _ => ?_) ?_ | split | dsimp only | refine .mk_ ?_)

theorem Keeps.anyLeft {z : State} {s : State} (hk : Keeps z s) : Keeps z (State.anyLeft s) := by
  unfold State.anyLeft
  with_reducible repeat' (first | assumption | refine .halt ?_ | split | dsimp only | refine .mk_ ?_)

theorem Keeps.bringMap {z : State} {s : State} (hk : Keeps z s) : Keeps z (State.bringMap s) := by
  unfold State.bringMap
  with_reducible repeat' (first | assumption | refine .wr ?_ | refine .setRegion ?_ | refine .setBlock ?_ | refine .foldl (fun _ _ _ => ?_) ?_ | split | dsimp only | refine .mk_ ?_)

theorem Keeps.endStage1 {z : State} {s : State} (hk : Keeps z s) : Keeps z (State.endStage1 s) := by
  unfold State.endStage1
  with_reducible repeat' (first | assumption | refine .foldl (fun _ _ _ => ?_) ?_ | refine .raise ?_ | refine .mainIn ?_ | refine .halt ?_ | split | dsimp only | refine .mk_ ?_)

theorem Keeps.endStage2 {z : State} {s : State} {r : StageResult} (hk : Keeps z s) : Keeps z (State.endStage2 s r) := by
  unfold State.endStage2
  with_reducible repeat' (first | assumption | refine .showQueueDef ?_ | refine .wr ?_ | refine .set1 ?_ | refine .setRegion ?_ | refine .raise ?_ | refine .deriveLanes ?_ | refine .halt ?_ | refine .lostAtStart ?_ | refine .stageRec ?_ | refine .loseAt ?_ | refine .anyLeft ?_ | refine .foldl (fun _ _ _ => ?_) ?_ | split | dsimp only | refine .mk_ ?_)

theorem Keeps.softStartRest {z : State} {s : State} {r : StageResult} {n : Nat} {k : Nat} (hk : Keeps z s) : Keeps z (State.softStartRest s r n k) := by
  unfold State.softStartRest
  with_reducible repeat' (first | assumption | refine .softStart ?_ | refine .phaseTest ?_ | refine .foldl (fun _ _ _ => ?_) ?_ | split | dsimp only | refine .mk_ ?_)

theorem Keeps.loadAges {z : State} {s : State} (hk : Keeps z s) : Keeps z (State.loadAges s) := by
  unfold State.loadAges
  with_reducible repeat' (first | assumption | refine .wr ?_ | refine .setRegion ?_ | refine .foldl (fun _ _ _ => ?_) ?_ | split | dsimp only | refine .mk_ ?_)

theorem Keeps.endStage3 {z : State} {s : State} {r : StageResult} (hk : Keeps z s) : Keeps z (State.endStage3 s r) := by
  unfold State.endStage3
  with_reducible repeat' (first | assumption | refine .wr ?_ | refine .set1 ?_ | refine .setRegion ?_ | refine .defects ?_ | refine .allDoms (fun _ _ _ _ => ?_) ?_ | refine .stageRec ?_ | refine .loseAt ?_ | refine .anyLeft ?_ | refine .bringMap ?_ | refine .softStartRest ?_ | refine .loadAges ?_ | refine .foldl (fun _ _ _ => ?_) ?_ | split | dsimp only | refine .mk_ ?_)

theorem Keeps.endStage4 {z : State} {s : State} {r : StageResult} (hk : Keeps z s) : Keeps z (State.endStage4 s r) := by
  unfold State.endStage4
  with_reducible repeat' (first | assumption | refine .wr ?_ | refine .set1 ?_ | refine .light ?_ | refine .foldl (fun _ _ _ => ?_) ?_ | split | dsimp only | refine .mk_ ?_)

theorem Keeps.katFail {z : State} {s : State} {k : KatFail} (hk : Keeps z s) : Keeps z (State.katFail s k) := by
  unfold State.katFail
  with_reducible repeat' (first | assumption | refine .wr ?_ | refine .defects ?_ | refine .stageRec ?_ | split | dsimp only | refine .mk_ ?_)

theorem Keeps.katRegion {z : State} {s : State} {x : Nat × Bool} (hk : Keeps z s) : Keeps z (State.katRegion s x) := by
  unfold State.katRegion
  with_reducible repeat' (first | assumption | refine .wr ?_ | refine .stageRec ?_ | refine .loseAt ?_ | split | dsimp only | refine .mk_ ?_)

theorem Keeps.broadcast {z : State} {s : State} (hk : Keeps z s) : Keeps z (State.broadcast s) := by
  unfold State.broadcast
  with_reducible repeat' (first | assumption | refine .setRegion ?_ | refine .setBlock ?_ | refine .foldl (fun _ _ _ => ?_) ?_ | split | dsimp only)

theorem Keeps.endStage5 {z : State} {s : State} {r : StageResult} (hk : Keeps z s) : Keeps z (State.endStage5 s r) := by
  unfold State.endStage5
  with_reducible repeat' (first | assumption | refine .broadcast ?_ | refine .wr ?_ | refine .set1 ?_ | refine .halt ?_ | refine .stageRec ?_ | refine .anyLeft ?_ | refine .bringMap ?_ | refine .katFail ?_ | refine .katRegion ?_ | refine .foldl (fun _ _ _ => ?_) ?_ | split | dsimp only | refine .mk_ ?_)

theorem Keeps.endStage {z : State} {s : State} {r : StageResult} (hk : Keeps z s) : Keeps z (State.endStage s r) := by
  unfold State.endStage
  with_reducible repeat' (first | assumption | refine .endStage1 ?_ | refine .endStage2 ?_ | refine .endStage3 ?_ | refine .endStage4 ?_ | refine .endStage5 ?_ | split | dsimp only | refine .mk_ ?_)

theorem Keeps.mailboxAct {z : State} {s : State} {bs : List Byte} {image : FwImage} (hk : Keeps z s) : Keeps z (State.mailboxAct s bs image) := by
  unfold State.mailboxAct
  with_reducible repeat' (first | assumption | refine .wr ?_ | refine .count ?_ | refine .logAppend ?_ | refine .showField ?_ | split | dsimp only | refine .mk_ ?_)

theorem Keeps.blockBeat0 {z : State} {s : State} {gap : Nat} {k : Nat} (hk : Keeps z s) : Keeps z (State.blockBeat0 s gap k) := by
  unfold State.blockBeat0
  with_reducible repeat' (first | assumption | refine .setBlock ?_ | refine .putBlock ?_ | refine .foldl (fun _ _ _ => ?_) ?_ | split | dsimp only | refine .mk_ ?_)

theorem Keeps.coreOf {z : State} {s : State} {blk : Nat} {cyc : Nat} {kind : Rv → Bool} (hk : Keeps z s) : Keeps z (State.coreOf s blk cyc kind) := by
  unfold State.coreOf
  with_reducible repeat' (first | assumption | refine .onLive ?_ | split | dsimp only | refine .mk_ ?_)

theorem Keeps.packBoundary {z : State} {s : State} (hk : Keeps z s) : Keeps z (State.packBoundary s) := by
  unfold State.packBoundary
  with_reducible repeat' (first | assumption | refine .wr ?_ | split | dsimp only | refine .mk_ ?_)

theorem Keeps.checkEdge {z : State} {s : State} (hk : Keeps z s) : Keeps z (State.checkEdge s) := by
  unfold State.checkEdge
  with_reducible repeat' (first | assumption | refine .wr ?_ | refine .set1 ?_ | refine .raise ?_ | split | dsimp only | refine .mk_ ?_)

theorem Keeps.realign {z : State} {s : State} {n : Nat} (hk : Keeps z s) : Keeps z (State.realign s n) := by
  unfold State.realign
  with_reducible repeat' (first | assumption | refine .wr ?_ | refine .allRegions ?_ | refine .platVec ?_ | refine .cutAbandon ?_ | split | dsimp only | refine .mk_ ?_)

theorem Keeps.updEvc {z : State} {s : State} {f : Evc → Evc} {a0 : CtrAt} (hk : Keeps z s) : Keeps z (State.updEvc s f a0) := by
  unfold State.updEvc
  with_reducible repeat' (first | assumption | refine .setRegion ?_ | refine .setBlock ?_ | split | dsimp only | refine .mk_ ?_)

theorem Keeps.tickEvcs {z : State} {s : State} (hk : Keeps z s) : Keeps z (State.tickEvcs s) := by
  unfold State.tickEvcs
  with_reducible repeat' (first | assumption | refine .wr ?_ | refine .setRegion ?_ | refine .setBlock ?_ | refine .foldl (fun _ _ _ => ?_) ?_ | split | dsimp only | refine .mk_ ?_)

theorem Keeps.pertWrite {z : State} {s : State} {k : Nat} {v : Word} (hk : Keeps z s) : Keeps z (State.pertWrite s k v) := by
  unfold State.pertWrite
  with_reducible repeat' (first | assumption | refine .wr ?_ | refine .discard ?_ | refine .foldl (fun _ _ _ => ?_) ?_ | split | dsimp only | refine .mk_ ?_)

theorem Keeps.pertWriteB {z : State} {s : State} {k : Nat} {fs : List Field} {v : Word} (hk : Keeps z s) : Keeps z (State.pertWriteB s k fs v) := by
  unfold State.pertWriteB
  with_reducible repeat' (first | assumption | refine .wr ?_ | refine .discard ?_ | refine .foldl (fun _ _ _ => ?_) ?_ | split | dsimp only | refine .mk_ ?_)

theorem Keeps.forcedDone {z : State} {s : State} (hk : Keeps z s) : Keeps z (State.forcedDone s) := by
  unfold State.forcedDone
  with_reducible repeat' (first | assumption | refine .wr ?_ | dsimp only | refine .mk_ ?_)

theorem Keeps.hubClr {z : State} {s : State} {addr : Nat} (hk : Keeps z s) : Keeps z (State.hubClr s addr) := by
  unfold State.hubClr
  with_reducible repeat' (first | assumption | refine .wr ?_ | refine .foldl (fun _ _ _ => ?_) ?_ | split | dsimp only | refine .mk_ ?_)

theorem Keeps.nameF {z : State} {s : State} {l : LoadSt} {o : Plat} {p : Plat} {f : Nat} (hk : Keeps z s) : Keeps z (State.nameF s l o p f) := by
  unfold State.nameF
  with_reducible repeat' (first | assumption | refine .wr ?_ | refine .wrHash ?_ | split | dsimp only | refine .mk_ ?_)

theorem Keeps.showArmed {z : State} {s : State} (hk : Keeps z s) : Keeps z (State.showArmed s) := by
  unfold State.showArmed
  with_reducible repeat' (first | assumption | refine .wr ?_ | split | dsimp only | refine .mk_ ?_)

theorem Keeps.ownF {z : State} {s : State} {revert : Bool} (hk : Keeps z s) : Keeps z (State.ownF s revert).2 := by
  unfold State.ownF
  with_reducible repeat' (first | assumption | refine .fresh ?_ | split | dsimp only | refine .mk_ ?_)

theorem Keeps.startArming {z : State} {s : State} {l : LoadSt} {o : Plat} {p : Plat} (hk : Keeps z s) : Keeps z (State.startArming s l o p) := by
  unfold State.startArming
  with_reducible repeat' (first | assumption | refine .wr ?_ | refine .clearShadow ?_ | refine .nameF ?_ | refine .showArmed ?_ | refine .ownF ?_ | split | dsimp only | refine .mk_ ?_)

theorem Keeps.reply {z : State} {s : State} {n : Nat} {v : Nat} (hk : Keeps z s) : Keeps z (State.reply s n v) := by
  unfold State.reply
  with_reducible repeat' (first | assumption | dsimp only | refine .mk_ ?_)

theorem Keeps.unsupported {z : State} {s : State} (hk : Keeps z s) : Keeps z (State.unsupported s) := by
  unfold State.unsupported
  with_reducible repeat' (first | assumption | dsimp only | refine .mk_ ?_)

theorem Keeps.openHdrs {z : State} {s : State} {n : Nat} (hk : Keeps z s) : Keeps z (State.openHdrs s n).2 := by
  unfold State.openHdrs
  with_reducible repeat' (first | assumption | dsimp only | refine .mk_ ?_)

theorem Keeps.softWrite {z : State} {s : State} {a : Nat} {v : Word} (hk : Keeps z s) : Keeps z (State.softWrite s a v) := by
  unfold State.softWrite
  with_reducible repeat' (first | assumption | refine .discard ?_ | refine .hubClr ?_ | split | dsimp only | refine .mk_ ?_)

theorem Keeps.lsrcWrite {z : State} {s : State} {k : Nat} {v : Word} (hk : Keeps z s) : Keeps z (State.lsrcWrite s k v) := by
  unfold State.lsrcWrite
  with_reducible repeat' (first | assumption | refine .wr ?_ | refine .set1 ?_ | refine .fresh ?_ | refine .darken ?_ | refine .light ?_ | refine .softWrite ?_ | split | dsimp only | refine .mk_ ?_)

theorem Keeps.cdvWrite {z : State} {s : State} {a : Nat} {v : Word} (hk : Keeps z s) : Keeps z (State.cdvWrite s a v) := by
  unfold State.cdvWrite
  with_reducible repeat' (first | assumption | refine .discard ?_ | refine .softWrite ?_ | split | dsimp only | refine .mk_ ?_)

theorem Keeps.portWrite {z : State} {s : State} {k : Nat} {o : Nat} {v : Word} (hk : Keeps z s) : Keeps z (State.portWrite s k o v) := by
  unfold State.portWrite
  with_reducible repeat' (first | assumption | refine .discard ?_ | refine .onPort ?_ | split | dsimp only | refine .mk_ ?_)

theorem Keeps.regionWrite {z : State} {s : State} {n : Nat} {o : Nat} {v : Word} (hk : Keeps z s) : Keeps z (State.regionWrite s n o v) := by
  unfold State.regionWrite
  with_reducible repeat' (first | assumption | refine .discard ?_ | refine .putBlock ?_ | refine .onRegion ?_ | split | dsimp only | refine .mk_ ?_)

theorem Keeps.spendInj {z : State} {s : State} {hits : Nat} (hk : Keeps z s) : Keeps z (State.spendInj s hits) := by
  unfold State.spendInj
  with_reducible repeat' (first | assumption | refine .wr ?_ | split | dsimp only | refine .mk_ ?_)

theorem Keeps.settle {z : State} {s : State} (hk : Keeps z s) : Keeps z (State.settle s) := by
  unfold State.settle
  with_reducible repeat' (first | assumption | refine .onLive ?_ | refine .foldl (fun _ _ _ => ?_) ?_ | dsimp only | refine .mk_ ?_)

theorem Keeps.voidTiles {z : State} {s : State} {n : Nat} {p : Nat} (hk : Keeps z s) : Keeps z (State.voidTiles s n p) := by
  unfold State.voidTiles
  with_reducible repeat' (first | assumption | refine .onBlock ?_ | refine .onLiveRegion ?_ | refine .foldl (fun _ _ _ => ?_) ?_ | split | dsimp only | refine .mk_ ?_)

theorem Keeps.rollOver {z : State} {s : State} {n : Nat} {p : Nat} {overran : Bool} (hk : Keeps z s) : Keeps z (State.rollOver s n p overran) := by
  unfold State.rollOver
  with_reducible repeat' (first | assumption | refine .onBlock ?_ | refine .onLiveRegion ?_ | refine .foldl (fun _ _ _ => ?_) ?_ | dsimp only | refine .mk_ ?_)

theorem Keeps.standInsEnd {z : State} {s : State} {n : Nat} (hk : Keeps z s) : Keeps z (State.standInsEnd s n) := by
  unfold State.standInsEnd
  with_reducible repeat' (first | assumption | refine .setBlock ?_ | refine .onLiveRegion ?_ | refine .foldl (fun _ _ _ => ?_) ?_ | split | dsimp only | refine .mk_ ?_)

theorem Keeps.shadowErr {z : State} {s : State} {x : ShadowErr} (hk : Keeps z s) : Keeps z (State.shadowErr s x) := by
  unfold State.shadowErr
  with_reducible repeat' (first | assumption | refine .set1 ?_ | refine .setRegion ?_ | refine .raise ?_ | refine .loseRegions ?_ | split | dsimp only | refine .mk_ ?_)

theorem Keeps.portsOn {z : State} {s : State} (hk : Keeps z s) : Keeps z (State.portsOn s) := by
  unfold State.portsOn
  with_reducible repeat' (first | assumption | refine .wr ?_ | refine .onPort ?_ | refine .foldl (fun _ _ _ => ?_) ?_ | split | dsimp only | refine .mk_ ?_)

theorem Keeps.showDecl {z : State} {s : State} (hk : Keeps z s) : Keeps z (State.showDecl s) := by
  unfold State.showDecl
  with_reducible repeat' (first | assumption | refine .setPort ?_ | refine .foldl (fun _ _ _ => ?_) ?_ | dsimp only)

theorem Keeps.platStep {z : State} {s : State} {bad : List ShadowErr} (hk : Keeps z s) : Keeps z (State.platStep s bad) := by
  unfold State.platStep
  with_reducible repeat' (first | assumption | refine .adoptBring ?_ | refine .showDecl ?_ | refine .platVec ?_ | refine .adoptMaps ?_ | refine .adoptFrame ?_ | refine .cutAbandon ?_ | refine .switchPlat ?_ | refine .activatePlat ?_ | refine .unloadPlat ?_ | refine .shadowErr ?_ | refine .portsOn ?_ | refine .foldl (fun _ _ _ => ?_) ?_ | split | dsimp only | refine .mk_ ?_)

theorem Keeps.loseStep {z : State} {s : State} {ns : List Nat} (hk : Keeps z s) : Keeps z (State.loseStep s ns) := by
  unfold State.loseStep
  with_reducible repeat' (first | assumption | refine .wr ?_ | refine .setRegion ?_ | refine .loseCircuit ?_ | refine .showPins ?_ | refine .onPort ?_ | refine .foldl (fun _ _ _ => ?_) ?_ | split | dsimp only | refine .mk_ ?_)

theorem Keeps.granuleStep {z : State} {s : State} (hk : Keeps z s) : Keeps z (State.granuleStep s) := by
  unfold State.granuleStep
  with_reducible repeat' (first | assumption | refine .setBlock ?_ | refine .foldl (fun _ _ _ => ?_) ?_ | split | dsimp only | refine .mk_ ?_)

theorem Keeps.pertStart {z : State} {s : State} {k : Nat} (hk : Keeps z s) : Keeps z (State.pertStart s k) := by
  unfold State.pertStart
  with_reducible repeat' (first | assumption | refine .setBlock ?_ | refine .foldl (fun _ _ _ => ?_) ?_ | split | dsimp only | refine .mk_ ?_)

theorem Keeps.pertStop {z : State} {s : State} {k : Nat} (hk : Keeps z s) : Keeps z (State.pertStop s k) := by
  unfold State.pertStop
  extract_lets e0 s1 q
  have h1 : Keeps z s1 := Keeps.mk_ hk
  split
  · exact Keeps.onPort h1
  · exact h1

theorem Keeps.stretchStep {z : State} {s : State} (hk : Keeps z s) : Keeps z (State.stretchStep s) := by
  unfold State.stretchStep
  with_reducible repeat' (first | assumption | refine .wr ?_ | refine .pertStop ?_ | split | dsimp only | refine .mk_ ?_)

theorem Keeps.pertStep {z : State} {s : State} {oos : Bool} (hk : Keeps z s) : Keeps z (State.pertStep s oos) := by
  unfold State.pertStep
  with_reducible repeat' (first | assumption | refine .wr ?_ | refine .set1 ?_ | refine .pertStart ?_ | refine .pertStop ?_ | refine .stretchStep ?_ | refine .foldl (fun _ _ _ => ?_) ?_ | split | dsimp only | refine .mk_ ?_)

theorem Keeps.restartSend {z : State} {s : State} {leg : Nat} {fresh : Nat} (hk : Keeps z s) : Keeps z (State.restartSend s leg fresh) := by
  unfold State.restartSend
  with_reducible repeat' (first | assumption | refine .fresh ?_ | refine .setRegion ?_ | refine .setBlock ?_ | refine .foldl (fun _ _ _ => ?_) ?_ | split | dsimp only | refine .mk_ ?_)

theorem Keeps.joinLegs {z : State} {s : State} {q : Nat} {fresh : Nat} (hk : Keeps z s) : Keeps z (State.joinLegs s q fresh) := by
  unfold State.joinLegs
  with_reducible repeat' (first | assumption | refine .fresh ?_ | refine .setRegion ?_ | refine .restartSend ?_ | refine .foldl (fun _ _ _ => ?_) ?_ | split | dsimp only | refine .mk_ ?_)

theorem Keeps.portStep {z : State} {s : State} (hk : Keeps z s) : Keeps z (State.portStep s) := by
  unfold State.portStep
  with_reducible repeat' (first | assumption | refine .putPort ?_ | refine .onPort ?_ | refine .joinLegs ?_ | refine .foldl (fun _ _ _ => ?_) ?_ | dsimp only | refine .mk_ ?_)

theorem Keeps.changeStep {z : State} {s : State} {fenced : List Nat} {lost : List Nat} (hk : Keeps z s) : Keeps z (State.changeStep s fenced lost) := by
  unfold State.changeStep
  with_reducible repeat' (first | assumption | refine .onLiveRegion ?_ | refine .startCtx ?_ | refine .escalate ?_ | refine .fence ?_ | refine .domBoundary ?_ | refine .vidBoundary ?_ | refine .allDoms (fun _ _ _ _ => ?_) ?_ | refine .packBoundary ?_ | refine .loseStep ?_ | refine .granuleStep ?_ | refine .pertStep ?_ | refine .portStep ?_ | refine .foldl (fun _ _ _ => ?_) ?_ | dsimp only | refine .mk_ ?_)

theorem Keeps.writeStatus {z : State} {s : State} {r : RelBuf} {b : Nat} {frame : Nat} {status : Nat} (hk : Keeps z s) : Keeps z (State.writeStatus s r b frame status) := by
  unfold State.writeStatus
  with_reducible repeat' (first | assumption | refine .onLiveRegion ?_ | split | dsimp only | refine .mk_ ?_)

theorem Keeps.release {z : State} {s : State} {n : Nat} {status : Nat} {r : RelBuf} (hk : Keeps z s) : Keeps z (State.release s n status r) := by
  unfold State.release
  with_reducible repeat' (first | assumption | refine .writeStatus ?_ | dsimp only | refine .mk_ ?_)

theorem Keeps.streakStep {z : State} {s : State} {p : Nat} {status : Nat} (hk : Keeps z s) : Keeps z (State.streakStep s p status) := by
  unfold State.streakStep
  with_reducible repeat' (first | assumption | refine .setCtx ?_ | refine .teardown ?_ | split | dsimp only | refine .mk_ ?_)

theorem Keeps.commit {z : State} {s : State} {t : State} {x : Ended} {p : Nat} (hk : Keeps z s) : Keeps z (State.commit s t x p) := by
  unfold State.commit
  with_reducible repeat' (first | assumption | refine .incHold ?_ | refine .bookAll ?_ | refine .onPort ?_ | refine .release ?_ | refine .streakStep ?_ | refine .foldl (fun _ _ _ => ?_) ?_ | split | dsimp only | refine .mk_ ?_)

theorem Keeps.notJoined {z : State} {s : State} {x : Ended} (hk : Keeps z s) : Keeps z (State.notJoined s x) := by
  unfold State.notJoined
  with_reducible repeat' (first | assumption | refine .voidNotice ?_ | refine .foldl (fun _ _ _ => ?_) ?_ | split | dsimp only | refine .mk_ ?_)

theorem Keeps.commitStep {z : State} {s : State} {t : State} {x : Ended} {mark : Bool} (hk : Keeps z s) : Keeps z (State.commitStep s t x mark) := by
  unfold State.commitStep
  with_reducible repeat' (first | assumption | refine .incHold ?_ | refine .showVf ?_ | refine .bookAll ?_ | refine .voidContexts ?_ | refine .endTeardown ?_ | refine .commit ?_ | refine .notJoined ?_ | refine .foldl (fun _ _ _ => ?_) ?_ | dsimp only | refine .mk_ ?_)

theorem Keeps.clockStep {z : State} {s : State} (hk : Keeps z s) : Keeps z (State.clockStep s) := by
  unfold State.clockStep
  with_reducible repeat' (first | assumption | refine .set1 ?_ | refine .putRegion ?_ | refine .showPower ?_ | refine .foldl (fun _ _ _ => ?_) ?_ | split | dsimp only | refine .mk_ ?_)

theorem Keeps.newFrame {z : State} {s : State} (hk : Keeps z s) : Keeps z (State.newFrame s) := by
  unfold State.newFrame
  with_reducible repeat' (first | assumption | refine .wr ?_ | refine .setCtx ?_ | refine .setRegion ?_ | refine .setBlock ?_ | refine .foldl (fun _ _ _ => ?_) ?_ | split | dsimp only | refine .mk_ ?_)

theorem Keeps.tickZero {z : State} {s : State} {left : Nat} (hk : Keeps z s) : Keeps z (State.tickZero s left) := by
  unfold State.tickZero
  with_reducible repeat' (first | assumption | refine .wr ?_ | refine .set1 ?_ | refine .pass ?_ | refine .realign ?_ | dsimp only | refine .mk_ ?_)

theorem Keeps.gap {z : State} {t : State} {x : Ended} {lost : List Nat} {bad : List ShadowErr} {s : State} (hk : Keeps z s) : Keeps z (State.gap t x lost bad s) := by
  unfold State.gap
  with_reducible repeat' (first | assumption | refine .wr ?_ | refine .set1 ?_ | refine .count ?_ | refine .setRegion ?_ | refine .fenceStop ?_ | refine .tickEvcs ?_ | refine .voidTiles ?_ | refine .rollOver ?_ | refine .standInsEnd ?_ | refine .platStep ?_ | refine .changeStep ?_ | refine .commitStep ?_ | refine .clockStep ?_ | refine .newFrame ?_ | refine .foldl (fun _ _ _ => ?_) ?_ | split | dsimp only | refine .mk_ ?_)

theorem Keeps.frmNumLo {z : State} {s : State} (hk : Keeps z s) : Keeps z (State.frmNumLo s).1 := Keeps.mk_ hk
theorem Keeps.cutFrameLo {z : State} {s : State} (hk : Keeps z s) : Keeps z (State.cutFrameLo s).1 := Keeps.mk_ hk
theorem Keeps.crLastLo {z : State} {s : State} {fn r : Nat} (hk : Keeps z s) : Keeps z (State.crLastLo s fn r).1 := Keeps.setRing hk
theorem Keeps.evcLo {z : State} {s : State} {c : CtrAt} (hk : Keeps z s) : Keeps z (State.evcLo s c).1 := Keeps.updEvc hk
theorem Keeps.evcSnapLo {z : State} {s : State} {c : CtrAt} (hk : Keeps z s) : Keeps z (State.evcSnapLo s c).1 := Keeps.updEvc hk
theorem Keeps.slipDomain {z : State} {s : State} {n k cyc skipped : Nat} (hk : Keeps z s) : Keeps z (State.slipDomain s n k cyc skipped) := by
  unfold State.slipDomain
  exact Keeps.foldl (fun _ _ h => Keeps.onBlock h) hk

end Sys2Proof.Machine
end

