-- ==== Sys2Proof/Laws/Runs.lean ====
section
/-!
SUPPORT. Every command runs: its meaning answers a next state, and from the state before to that state everything is kept that
`Keeps` says. One lemma for each meaning, then the lemma over all commands and the one over steps.
-/
namespace Sys2Proof.Machine

set_option linter.unusedTactic false
set_option linter.unreachableTactic false

/-- The outcome is a next state, and to it everything is kept. -/
def Runs (z : State) (o : Host.Outcome State Fault Refusal) : Prop := ∃ t, o = .next t ∧ Keeps z t

/-- A next state that keeps. -/
theorem Runs.next {z t : State} (h : Keeps z t) : Runs z (.next t) := ⟨t, rfl, h⟩

/-- A host read keeps. -/
theorem Keeps.hostLoad {z : State} {s : State} {fn o n : Nat} (hk : Keeps z s) : Keeps z (State.hostLoad s fn o n).s := by
  unfold State.hostLoad
  have : ∀ (l : List (Nat × Nat)) (r : HostRead), Keeps z r.s → Keeps z (l.foldl (fun (r : HostRead) c =>
      if r.s.judge fn c.1 = 0 then
        let x := r.s.placeRead c.1 c.2
        { r with s := if x.2.2 then x.1.aer fn 1 else x.1, got := r.got ++ [(c.1, x.2.1)]
                 ans := r.ans ++ [if x.2.2 then .poisoned x.2.1 else .data x.2.1]
                 bad := if x.2.2 && r.bad.isNone then some (c.1 - o) else r.bad }
      else { r with s := (r.s.discard).aer fn 0, ans := r.ans ++ [.unsupported] }) r).s := by
    intro l
    induction l with
    | nil => exact fun _ h => h
    | cons c l ih =>
      intro r hr
      refine ih _ ?_
      by_cases hj : r.s.judge fn c.1 = 0
      · simp only [hj, if_true]
        cases (r.s.placeRead c.1 c.2).2.2
        · exact Keeps.placeRead hr
        · exact Keeps.aer (Keeps.placeRead hr)
      · simp only [hj, if_false]
        exact Keeps.aer (Keeps.discard hr)
  exact this _ _ hk

/-- A PMBus exchange. -/
theorem Runs.pmbus {z s : State} {f : State → State} (hf : ∀ x, Keeps z x → Keeps z (f x)) (hk : Keeps z s) :
    Runs z (s.pmbus f) := by
  unfold State.pmbus
  refine .next ?_
  split
  · exact hf s hk
  · exact Keeps.mk_ hk

/-- A PMBus write. -/
theorem Runs.pmbusWrite {z s : State} {pec : Option Bool} {f : State → State} (hf : ∀ x, Keeps z x → Keeps z (f x))
    (hk : Keeps z s) : Runs z (s.pmbusWrite pec f) := by
  unfold State.pmbusWrite
  refine Runs.pmbus (fun x hx => ?_) hk
  split
  · exact hf x hx
  · split
    · exact Keeps.mk_ hx
    · exact hx

/-- Either branch runs. -/
theorem Runs.ite {z : State} {p : Prop} [Decidable p] {a b : Host.Outcome State Fault Refusal} (ha : Runs z a) (hb : Runs z b) :
    Runs z (if p then a else b) := by
  split
  · exact ha
  · exact hb

theorem Runs.cbLoad {z s : State} {blk : Nat} {i : Nat} (hk : Keeps z s) : Runs z (execCbLoad blk i s) := by
  unfold execCbLoad
  with_reducible repeat' (first | assumption | refine Keeps.onPage ?_ | refine .next ?_ | refine Keeps.wr ?_ | refine Keeps.discard ?_ | refine Keeps.onLive ?_ | split | dsimp only | refine Keeps.mk_ ?_)

theorem Runs.cbDrop {z s : State} {blk : Nat} {i : Nat} (hk : Keeps z s) : Runs z (execCbDrop blk i s) := by
  unfold execCbDrop
  with_reducible repeat' (first | assumption | refine Keeps.onPage ?_ | refine .next ?_ | refine Keeps.wr ?_ | refine Keeps.discard ?_ | refine Keeps.onLive ?_ | split | dsimp only | refine Keeps.mk_ ?_)

theorem Runs.chkPolyWrite {z s : State} {at_ : ChkAt} {p : Nat} (hk : Keeps z s) : Runs z (execChkPolyWrite at_ p s) := by
  unfold execChkPolyWrite
  with_reducible repeat' (first | assumption | refine Keeps.onPage ?_ | refine .next ?_ | refine Keeps.onLive ?_ | refine Keeps.mchkSet ?_ | split | dsimp only | refine Keeps.mk_ ?_)

theorem Runs.chkInit {z s : State} {at_ : ChkAt} (hk : Keeps z s) : Runs z (execChkInit at_ s) := by
  unfold execChkInit
  with_reducible repeat' (first | assumption | refine Keeps.onPage ?_ | refine .next ?_ | refine Keeps.onLive ?_ | refine Keeps.mchkSet ?_ | split | dsimp only | refine Keeps.mk_ ?_)

theorem Runs.chkSeed {z s : State} {at_ : ChkAt} {v : Word} (hk : Keeps z s) : Runs z (execChkSeed at_ v s) := by
  unfold execChkSeed
  with_reducible repeat' (first | assumption | refine Keeps.onPage ?_ | refine .next ?_ | refine Keeps.onLive ?_ | refine Keeps.mchkSet ?_ | split | dsimp only | refine Keeps.mk_ ?_)

theorem Runs.spPwrWrite {z s : State} {blk : Nat} {v : Word} (hk : Keeps z s) : Runs z (execSpPwrWrite blk v s) := by
  unfold execSpPwrWrite
  with_reducible repeat' (first | assumption | refine Keeps.onPage ?_ | refine .next ?_ | refine Keeps.onLive ?_ | dsimp only | refine Keeps.mk_ ?_)

theorem Runs.scrubSlot {z s : State} {blk : Nat} {a : ScrubAt} (hk : Keeps z s) :
    Runs z (execScrubSlot blk a s) := by
  unfold execScrubSlot
  with_reducible repeat' (first | assumption | refine .next ?_ | refine Keeps.onLive ?_ | dsimp only | refine Keeps.mk_ ?_)

theorem Runs.inboundWord {z s : State} {blk : Nat} {cyc : Nat} {ep : Nat} {lost : Bool} (hk : Keeps z s) : Runs z (execInboundWord blk cyc ep lost s) := by
  unfold execInboundWord
  with_reducible repeat' (first | assumption | refine .next ?_ | refine Keeps.onLive ?_ | dsimp only | refine Keeps.mk_ ?_)

theorem Runs.heldWordWrite {z s : State} {blk : Nat} {cyc : Nat} (hk : Keeps z s) : Runs z (execHeldWordWrite blk cyc s) := by
  unfold execHeldWordWrite
  with_reducible repeat' (first | assumption | refine .next ?_ | refine Keeps.onLive ?_ | dsimp only | refine Keeps.mk_ ?_)

theorem Runs.holdWindowExpiry {z s : State} {blk : Nat} {cyc : Nat} (hk : Keeps z s) : Runs z (execHoldWindowExpiry blk cyc s) := by
  unfold execHoldWindowExpiry
  with_reducible repeat' (first | assumption | refine .next ?_ | refine Keeps.onLive ?_ | dsimp only | refine Keeps.mk_ ?_)

theorem Runs.tileReceived {z s : State} {blk : Nat} {cyc : Nat} {ep : Nat} (hk : Keeps z s) : Runs z (execTileReceived blk cyc ep s) := by
  unfold execTileReceived
  with_reducible repeat' (first | assumption | refine .next ?_ | refine Keeps.onLive ?_ | dsimp only | refine Keeps.mk_ ?_)

theorem Runs.deliveryFull {z s : State} {blk : Nat} {cyc : Nat} {ep : Nat} (hk : Keeps z s) : Runs z (execDeliveryFull blk cyc ep s) := by
  unfold execDeliveryFull
  with_reducible repeat' (first | assumption | refine .next ?_ | refine Keeps.onLive ?_ | dsimp only | refine Keeps.mk_ ?_)

theorem Runs.driveWordReceived {z s : State} {at_ : LegAt} (hk : Keeps z s) : Runs z (execDriveWordReceived at_ s) := by
  unfold execDriveWordReceived
  with_reducible repeat' (first | assumption | refine .next ?_ | refine Keeps.onLive ?_ | refine Keeps.onLiveRegion ?_ | split | dsimp only | refine Keeps.mk_ ?_)

theorem Runs.wordArrival {z s : State} {at_ : WordAt} {got : Option FWord} (hk : Keeps z s) : Runs z (execWordArrival at_ got s) := by
  unfold execWordArrival
  with_reducible repeat' (first | assumption | refine Keeps.wordShore ?_ | refine .next ?_ | refine Keeps.wordInput ?_ | refine Keeps.wordEdge ?_ | refine Keeps.launch ?_ | split | dsimp only | refine Keeps.mk_ ?_)

theorem Runs.marginSample {z s : State} {n : Nat} {slot : Nat} {ps : Nat} (hk : Keeps z s) : Runs z (execMarginSample n slot ps s) := by
  unfold execMarginSample
  with_reducible repeat' (first | assumption | refine .next ?_ | refine Keeps.pinSeg ?_ | split | dsimp only | refine Keeps.mk_ ?_)

theorem Runs.segmentRecal {z s : State} {n : Nat} {slot : Nat} (hk : Keeps z s) : Runs z (execSegmentRecal n slot s) := by
  unfold execSegmentRecal
  with_reducible repeat' (first | assumption | refine .next ?_ | refine Keeps.onRegion ?_ | split | dsimp only | refine Keeps.mk_ ?_)

theorem Runs.recalDone {z s : State} {n : Nat} {slot : Nat} {r : CalResult} (hk : Keeps z s) : Runs z (execRecalDone n slot r s) := by
  unfold execRecalDone
  with_reducible repeat' (first | assumption | refine Keeps.setRegion ?_ | refine .next ?_ | refine Keeps.wr ?_ | refine Keeps.set1 ?_ | refine Keeps.onRegion ?_ | refine Keeps.pass ?_ | refine Keeps.showPins ?_ | split | dsimp only | refine Keeps.mk_ ?_)

theorem Runs.circuitLockLost {z s : State} {oct : Nat} {margin : Nat} (hk : Keeps z s) : Runs z (execCircuitLockLost oct margin s) := by
  unfold execCircuitLockLost
  with_reducible repeat' (first | assumption | refine .next ?_ | refine Keeps.loseCircuit ?_ | split | dsimp only | refine Keeps.mk_ ?_)

theorem Runs.transferStart {z s : State} {n : Nat} {cyc : Nat} {eng : Nat} {desc : Nat} (hk : Keeps z s) : Runs z (execTransferStart n cyc eng desc s) := by
  unfold execTransferStart
  with_reducible repeat' (first | assumption | refine .next ?_ | refine Keeps.onLiveRegion ?_ | dsimp only | refine Keeps.mk_ ?_)

theorem Runs.requestAccepted {z s : State} {n : Nat} {cyc : Nat} {eng : Nat} {desc : Nat} (hk : Keeps z s) : Runs z (execRequestAccepted n cyc eng desc s) := by
  unfold execRequestAccepted
  with_reducible repeat' (first | assumption | refine .next ?_ | refine Keeps.onLiveRegion ?_ | dsimp only | refine Keeps.mk_ ?_)

theorem Runs.lineLanded {z s : State} {n : Nat} {cyc : Nat} {eng : Nat} {desc : Nat} {k : Nat} {first : Nat} (hk : Keeps z s) : Runs z (execLineLanded n cyc eng desc k first s) := by
  unfold execLineLanded
  with_reducible repeat' (first | assumption | refine .next ?_ | refine Keeps.onLiveRegion ?_ | dsimp only | refine Keeps.mk_ ?_)

theorem Runs.requestAbandon {z s : State} {n : Nat} {cyc : Nat} {eng : Nat} {desc : Nat} {k : Nat} {first : Nat} (hk : Keeps z s) : Runs z (execRequestAbandon n cyc eng desc k first s) := by
  unfold execRequestAbandon
  with_reducible repeat' (first | assumption | refine .next ?_ | refine Keeps.onLiveRegion ?_ | dsimp only | refine Keeps.mk_ ?_)

theorem Runs.storeStreamAccess {z s : State} {n : Nat} {cyc : Nat} {i : Nat} {port : Nat} (hk : Keeps z s) : Runs z (execStoreStreamAccess n cyc i port s) := by
  unfold execStoreStreamAccess
  with_reducible repeat' (first | assumption | refine .next ?_ | refine Keeps.onLiveRegion ?_ | split | dsimp only | refine Keeps.mk_ ?_)

theorem Runs.storeInTile {z s : State} {n : Nat} {cyc : Nat} {i : Nat} {port : Nat} {got : Option FWord} (hk : Keeps z s) : Runs z (execStoreInTile n cyc i port got s) := by
  unfold execStoreInTile
  with_reducible repeat' (first | assumption | refine .next ?_ | refine Keeps.onLiveRegion ?_ | split | dsimp only | refine Keeps.mk_ ?_)

theorem Runs.storeScrub {z s : State} {n : Nat} {a : ScrubAt} (hk : Keeps z s) : Runs z (execStoreScrub n a s) := by
  unfold execStoreScrub
  with_reducible repeat' (first | assumption | refine .next ?_ | refine Keeps.onLiveRegion ?_ | dsimp only | refine Keeps.mk_ ?_)

theorem Runs.patrolScrub {z s : State} {n : Nat} {a : ScrubAt} (hk : Keeps z s) : Runs z (execPatrolScrub n a s) := by
  unfold execPatrolScrub
  with_reducible repeat' (first | assumption | refine .next ?_ | refine Keeps.onLiveRegion ?_ | dsimp only | refine Keeps.mk_ ?_)

theorem Runs.memZeroStart {z s : State} {n : Nat} {v : Word} (hk : Keeps z s) : Runs z (execMemZeroStart n v s) := by
  unfold execMemZeroStart
  with_reducible repeat' (first | assumption | refine .next ?_ | refine Keeps.onLiveRegion ?_ | dsimp only | refine Keeps.mk_ ?_)

theorem Runs.zeroFillDone {z s : State} {n : Nat} {cyc : Nat} (hk : Keeps z s) : Runs z (execZeroFillDone n cyc s) := by
  unfold execZeroFillDone
  with_reducible repeat' (first | assumption | refine .next ?_ | refine Keeps.onLiveRegion ?_ | dsimp only | refine Keeps.mk_ ?_)

theorem Runs.doubledRefresh {z s : State} {n : Nat} {hot : Bool} (hk : Keeps z s) : Runs z (execDoubledRefresh n hot s) := by
  unfold execDoubledRefresh
  with_reducible repeat' (first | assumption | refine .next ?_ | refine Keeps.wr ?_ | refine Keeps.onLiveRegion ?_ | split | dsimp only | refine Keeps.mk_ ?_)

theorem Runs.laneLock {z s : State} {port : Nat} {t : Nat} {lane : Nat} {marks : List (List Byte)} {skewOk : Bool} (hk : Keeps z s) : Runs z (execLaneLock port t lane marks skewOk s) := by
  unfold execLaneLock
  with_reducible repeat' (first | assumption | refine .next ?_ | refine Keeps.onPort ?_ | dsimp only | refine Keeps.mk_ ?_)

theorem Runs.laneLockLost {z s : State} {port : Nat} {t : Nat} {lane : Nat} {marks : List (List Byte)} (hk : Keeps z s) : Runs z (execLaneLockLost port t lane marks s) := by
  unfold execLaneLockLost
  with_reducible repeat' (first | assumption | refine .next ?_ | refine Keeps.onPort ?_ | dsimp only | refine Keeps.mk_ ?_)

theorem Runs.shotReceived {z s : State} {port : Nat} {t : Nat} {shot : Shot} (hk : Keeps z s) : Runs z (execShotReceived port t shot s) := by
  unfold execShotReceived
  with_reducible repeat' (first | assumption | refine .next ?_ | refine Keeps.onPort ?_ | dsimp only | refine Keeps.mk_ ?_)

theorem Runs.replayTimeout {z s : State} {port : Nat} {t : Nat} (hk : Keeps z s) : Runs z (execReplayTimeout port t s) := by
  unfold execReplayTimeout
  with_reducible repeat' (first | assumption | refine .next ?_ | refine Keeps.onPort ?_ | dsimp only | refine Keeps.mk_ ?_)

theorem Runs.sightlineWordEnqueue {z s : State} {port : Nat} {t : Nat} {leg : Nat} {mark : Bool} {got : Option FWord} (hk : Keeps z s) : Runs z (execSightlineWordEnqueue port t leg mark got s) := by
  unfold execSightlineWordEnqueue
  with_reducible repeat' (first | assumption | refine .next ?_ | refine Keeps.setRegion ?_ | refine Keeps.onPort ?_ | split | dsimp only | refine Keeps.mk_ ?_)

theorem Runs.datumTimer {z s : State} {port : Nat} {t : Nat} (hk : Keeps z s) : Runs z (execDatumTimer port t s) := by
  unfold execDatumTimer
  with_reducible repeat' (first | assumption | refine .next ?_ | refine Keeps.onPort ?_ | dsimp only | refine Keeps.mk_ ?_)

theorem Runs.datumReceived {z s : State} {port : Nat} {t : Nat} (hk : Keeps z s) : Runs z (execDatumReceived port t s) := by
  unfold execDatumReceived
  with_reducible repeat' (first | assumption | refine .next ?_ | refine Keeps.onPort ?_ | dsimp only | refine Keeps.mk_ ?_)

theorem Runs.slSwap {z s : State} {port : Nat} (hk : Keeps z s) : Runs z (execSlSwap port s) := by
  unfold execSlSwap
  with_reducible repeat' (first | assumption | refine .next ?_ | refine Keeps.discard ?_ | refine Keeps.onPort ?_ | split | dsimp only | refine Keeps.mk_ ?_)

theorem Runs.slReset {z s : State} {port : Nat} (hk : Keeps z s) : Runs z (execSlReset port s) := by
  unfold execSlReset
  with_reducible repeat' (first | assumption | refine .next ?_ | refine Keeps.discard ?_ | refine Keeps.onPort ?_ | split | dsimp only | refine Keeps.mk_ ?_)

theorem Runs.frameVoidNotice {z s : State} {port : Nat} (hk : Keeps z s) : Runs z (execFrameVoidNotice port s) := by
  unfold execFrameVoidNotice
  with_reducible repeat' (first | assumption | refine .next ?_ | refine Keeps.setPort ?_ | refine Keeps.voidNotice ?_ | split | dsimp only | refine Keeps.mk_ ?_)

theorem Runs.voidContextReceived {z s : State} {port : Nat} (hk : Keeps z s) : Runs z (execVoidContextReceived port s) := by
  unfold execVoidContextReceived
  with_reducible repeat' (first | assumption | refine .next ?_ | refine Keeps.discard ?_ | refine Keeps.setPort ?_ | refine Keeps.raise ?_ | refine Keeps.onPort ?_ | split | dsimp only | refine Keeps.mk_ ?_)

theorem Runs.landingTile {z s : State} {port : Nat} {cyc : Nat} (hk : Keeps z s) : Runs z (execLandingTile port cyc s) := by
  unfold execLandingTile
  with_reducible repeat' (first | assumption | refine .next ?_ | refine Keeps.setPort ?_ | refine Keeps.raise ?_ | refine Keeps.onLiveRegion ?_ | split | dsimp only | refine Keeps.mk_ ?_)

theorem Runs.lsrcInsert {z s : State} {k : Nat} {power : Nat} (hk : Keeps z s) : Runs z (execLsrcInsert k power s) := by
  unfold execLsrcInsert
  with_reducible repeat' (first | assumption | refine .next ?_ | refine Keeps.wr ?_ | refine Keeps.set1 ?_ | refine Keeps.light ?_ | split | dsimp only | refine Keeps.mk_ ?_)

theorem Runs.lsrcRemove {z s : State} {k : Nat} (hk : Keeps z s) : Runs z (execLsrcRemove k s) := by
  unfold execLsrcRemove
  with_reducible repeat' (first | assumption | refine .next ?_ | refine Keeps.wr ?_ | refine Keeps.darken ?_ | dsimp only | refine Keeps.mk_ ?_)

theorem Runs.lsrcFault {z s : State} {k : Nat} {power : Nat} (hk : Keeps z s) : Runs z (execLsrcFault k power s) := by
  unfold execLsrcFault
  with_reducible repeat' (first | assumption | refine .next ?_ | refine Keeps.wr ?_ | refine Keeps.set1 ?_ | refine Keeps.raise ?_ | refine Keeps.darken ?_ | split | dsimp only | refine Keeps.mk_ ?_)

theorem Runs.slHoldStart {z s : State} {port : Nat} (hk : Keeps z s) : Runs z (execSlHoldStart port s) := by
  unfold execSlHoldStart
  with_reducible repeat' (first | assumption | refine .next ?_ | refine Keeps.onPort ?_ | split | dsimp only | refine Keeps.mk_ ?_)

theorem Runs.slHoldEnd {z s : State} {port : Nat} {t : Nat} (hk : Keeps z s) : Runs z (execSlHoldEnd port t s) := by
  unfold execSlHoldEnd
  with_reducible repeat' (first | assumption | refine .next ?_ | refine Keeps.wr ?_ | refine Keeps.onPort ?_ | split | dsimp only | refine Keeps.mk_ ?_)

theorem Runs.doorbell {z s : State} {fn : Nat} {ring : Nat} {v : Word} (hk : Keeps z s) : Runs z (execDoorbell fn ring v s) := by
  unfold execDoorbell
  with_reducible repeat' (first | assumption | refine .next ?_ | refine Keeps.setRing ?_ | refine Keeps.ringError ?_ | split | dsimp only | refine Keeps.mk_ ?_)

theorem Runs.itemBegin {z s : State} {fn : Nat} {ring : Nat} {bytes : Option (List Byte)} (hk : Keeps z s) : Runs z (execItemBegin fn ring bytes s) := by
  unfold execItemBegin
  with_reducible repeat' (first | assumption | refine Keeps.count ?_ | refine .next ?_ | refine Keeps.wr ?_ | refine Keeps.setRing ?_ | refine Keeps.ringError ?_ | refine Keeps.fence ?_ | split | dsimp only | refine Keeps.mk_ ?_)

theorem Runs.nop {z s : State} {fn : Nat} {ring : Nat} {slot : Nat} (hk : Keeps z s) : Runs z (execNop fn ring slot s) := by
  unfold execNop
  with_reducible repeat' (first | assumption | refine .next ?_ | refine Keeps.finish ?_ | split | dsimp only | refine Keeps.mk_ ?_)

theorem Runs.stakeDrive {z s : State} {fn : Nat} {ring : Nat} {slot : Nat} (hk : Keeps z s) : Runs z (execStakeDrive fn ring slot s) := by
  unfold execStakeDrive
  with_reducible repeat' (first | assumption | refine .next ?_ | refine Keeps.finish ?_ | refine Keeps.driveEntries ?_ | split | dsimp only | refine Keeps.mk_ ?_)

theorem Runs.dmaToDev {z s : State} {fn : Nat} {ring : Nat} {slot : Nat} {bytes : List Byte} (hk : Keeps z s) : Runs z (execDmaToDev fn ring slot bytes s) := by
  unfold execDmaToDev
  with_reducible repeat' (first | assumption | refine .next ?_ | refine Keeps.finish ?_ | refine Keeps.hostStore ?_ | refine Keeps.hostDrive ?_ | split | dsimp only | refine Keeps.mk_ ?_)

theorem Runs.dmaFromDev {z s : State} {fn : Nat} {ring : Nat} {slot : Nat} (hk : Keeps z s) :
    Runs z (execDmaFromDev fn ring slot s) := by
  unfold execDmaFromDev
  split
  · exact .next hk
  · exact .next (Keeps.finish (Keeps.foldl (fun _ _ h => Keeps.hostWrite h) (Keeps.hostLoad hk)))

theorem Runs.itemComplete {z s : State} {fn : Nat} {ring : Nat} (hk : Keeps z s) : Runs z (execItemComplete fn ring s) := by
  unfold execItemComplete
  with_reducible repeat' (first | assumption | refine .next ?_ | refine Keeps.wr ?_ | refine Keeps.hostWrite ?_ | refine Keeps.vector ?_ | refine Keeps.setRing ?_ | refine Keeps.settle ?_ | split | dsimp only | refine Keeps.mk_ ?_)

theorem Runs.ringFlush {z s : State} {fn : Nat} {ring : Nat} {hdrs : List (List Byte)} (hk : Keeps z s) : Runs z (execRingFlush fn ring hdrs s) := by
  unfold execRingFlush
  with_reducible repeat' (first | assumption | refine .next ?_ | refine Keeps.wr ?_ | refine Keeps.setRing ?_ | split | dsimp only | refine Keeps.mk_ ?_)

theorem Runs.ringDisable {z s : State} {fn : Nat} {ring : Nat} {v : Word} {hdrs : List (List Byte)} (hk : Keeps z s) : Runs z (execRingDisable fn ring v hdrs s) := by
  unfold execRingDisable
  with_reducible repeat' (first | assumption | refine .next ?_ | refine Keeps.wr ?_ | refine Keeps.setRing ?_ | refine Keeps.softWrite ?_ | refine Keeps.settle ?_ | split | dsimp only | refine Keeps.mk_ ?_)

theorem Runs.bar2Access {z s : State} {fn : Nat} {off : Nat} {req : Bar2Req} (hk : Keeps z s) :
    Runs z (execBar2Access fn off req s) := by
  unfold execBar2Access
  dsimp only
  split
  · exact .next (Keeps.count (Keeps.hostStore hk))
  · exact .next (Keeps.mk_ (Keeps.count (Keeps.hostLoad hk)))
  · exact .next (Keeps.aer (Keeps.foldl (fun _ _ h => Keeps.discard h) hk))

theorem Runs.fieldBookWrite {z s : State} {fn : Nat} (hk : Keeps z s) : Runs z (execFieldBookWrite fn s) := by
  unfold execFieldBookWrite
  dsimp only
  split
  · exact .next (Keeps.bookFlush hk)
  · split
    · exact .next hk
    · split
      · exact .next hk
      · split
        · exact .next hk
        · exact .next (Keeps.bookAll (Keeps.showQ (Keeps.err hk (queueOk_eraseIdx _ _) id)))

theorem Runs.flr {z s : State} {fn : Nat} (hk : Keeps z s) : Runs z (execFlr fn s) := by
  unfold execFlr
  with_reducible repeat' (first | assumption | refine .next ?_ | refine Keeps.teardown ?_ | refine Keeps.fnReset ?_ | split | dsimp only | refine Keeps.mk_ ?_)

theorem Runs.linkDown {z s : State} {port : Nat} (hk : Keeps z s) : Runs z (execLinkDown port s) := by
  unfold execLinkDown
  with_reducible repeat' (first | assumption | refine .next ?_ | refine Keeps.wr ?_ | refine Keeps.fnReset ?_ | refine Keeps.foldl (fun _ _ _ => ?_) ?_ | split | dsimp only | refine Keeps.mk_ ?_)

theorem Runs.linkUp {z s : State} {port : Nat} (hk : Keeps z s) : Runs z (execLinkUp port s) := by
  unfold execLinkUp
  with_reducible repeat' (first | assumption | refine .next ?_ | refine Keeps.set1 ?_ | split | dsimp only | refine Keeps.mk_ ?_)

theorem Runs.d3hot {z s : State} {fn : Nat} (hk : Keeps z s) : Runs z (execD3hot fn s) := by
  unfold execD3hot
  with_reducible repeat' (first | assumption | refine .next ?_ | refine Keeps.setFn ?_ | dsimp only | refine Keeps.mk_ ?_)

theorem Runs.powerStateD0 {z s : State} {fn : Nat} (hk : Keeps z s) : Runs z (execPowerStateD0 fn s) := by
  unfold execPowerStateD0
  with_reducible repeat' (first | assumption | refine .next ?_ | refine Keeps.setFn ?_ | refine Keeps.bookFlush ?_ | dsimp only | refine Keeps.mk_ ?_)

theorem Runs.msixVectorUnmask {z s : State} {fn : Nat} {vec : Nat} (hk : Keeps z s) : Runs z (execMsixVectorUnmask fn vec s) := by
  unfold execMsixVectorUnmask
  with_reducible repeat' (first | assumption | refine .next ?_ | refine Keeps.setFn ?_ | split | dsimp only | refine Keeps.mk_ ?_)

theorem Runs.crLastLoRead {z s : State} {fn : Nat} {ring : Nat} (hk : Keeps z s) : Runs z (execCrLastLoRead fn ring s) := by
  unfold execCrLastLoRead
  with_reducible repeat' (first | assumption | refine Keeps.crLastLo ?_ | refine .next ?_ | refine Keeps.setRing ?_ | dsimp only | refine Keeps.mk_ ?_)

theorem Runs.powerSample {z s : State} {m : Meas} (hk : Keeps z s) : Runs z (execPowerSample m s) := by
  unfold execPowerSample
  with_reducible repeat' (first | assumption | refine .next ?_ | refine Keeps.showEsc ?_ | refine Keeps.showPower ?_ | refine Keeps.sampleRegs ?_ | refine Keeps.sampleInput ?_ | refine Keeps.sampleTherm ?_ | refine Keeps.sampleCurrent ?_ | refine Keeps.sampleGrade ?_ | refine Keeps.boostRegion ?_ | refine Keeps.nextSample ?_ | refine Keeps.trip ?_ | refine Keeps.foldl (fun _ _ _ => ?_) ?_ | split | dsimp only | refine Keeps.mk_ ?_)

theorem Runs.currentWindow {z s : State} {at_ : WinAt} (hk : Keeps z s) : Runs z (execCurrentWindow at_ s) := by
  unfold execCurrentWindow
  with_reducible repeat' (first | assumption | refine .next ?_ | refine Keeps.setDom ?_ | refine Keeps.setCeil ?_ | refine Keeps.showPower ?_ | refine Keeps.lowerQi ?_ | refine Keeps.foldl (fun _ _ _ => ?_) ?_ | split | dsimp only | refine Keeps.mk_ ?_)

theorem Runs.controlInterval {z s : State} {draws : List Nat} (hk : Keeps z s) : Runs z (execControlInterval draws s) := by
  unfold execControlInterval
  with_reducible repeat' (first | assumption | refine .next ?_ | refine Keeps.showPower ?_ | refine Keeps.noFill ?_ | refine Keeps.capLoop ?_ | refine Keeps.gradeLoop ?_ | refine Keeps.foldl (fun _ _ _ => ?_) ?_ | split | dsimp only | refine Keeps.mk_ ?_)

theorem Runs.mainInputLost {z s : State}  (hk : Keeps z s) : Runs z (execMainInputLost s) := by
  unfold execMainInputLost
  with_reducible repeat' (first | assumption | refine .next ?_ | refine Keeps.wr ?_ | refine Keeps.set1 ?_ | refine Keeps.powerDown ?_ | split | dsimp only | refine Keeps.mk_ ?_)

theorem Runs.mainInputApplied {z s : State}  (hk : Keeps z s) : Runs z (execMainInputApplied s) := by
  unfold execMainInputApplied
  with_reducible repeat' (first | assumption | refine .next ?_ | refine Keeps.mainIn ?_ | split | dsimp only | refine Keeps.mk_ ?_)

theorem Runs.converterFault {z s : State} {hbc : Bool} {k : Nat} (hk : Keeps z s) : Runs z (execConverterFault hbc k s) := by
  unfold execConverterFault
  with_reducible repeat' (first | assumption | refine .next ?_ | refine Keeps.wr ?_ | refine Keeps.set1 ?_ | refine Keeps.setRegion ?_ | refine Keeps.raise ?_ | refine Keeps.loseRegions ?_ | refine Keeps.foldl (fun _ _ _ => ?_) ?_ | split | dsimp only | refine Keeps.mk_ ?_)

theorem Runs.phaseLost {z s : State} {n : Nat} {dom : Nat} {ph : Nat} (hk : Keeps z s) : Runs z (execPhaseLost n dom ph s) := by
  unfold execPhaseLost
  with_reducible repeat' (first | assumption | refine Keeps.settleNow ?_ | refine .next ?_ | refine Keeps.onRegion ?_ | refine Keeps.noteRate ?_ | refine Keeps.darkBlocks ?_ | split | dsimp only | refine Keeps.mk_ ?_)

theorem Runs.fabricPhaseLost {z s : State} {n : Nat} {ph : Nat} (hk : Keeps z s) : Runs z (execFabricPhaseLost n ph s) := by
  unfold execFabricPhaseLost
  with_reducible repeat' (first | assumption | refine .next ?_ | refine Keeps.wr ?_ | refine Keeps.setRegion ?_ | refine Keeps.raise ?_ | refine Keeps.onRegion ?_ | refine Keeps.loseRegions ?_ | split | dsimp only | refine Keeps.mk_ ?_)

theorem Runs.phaseTest {z s : State} {n : Nat} {dom : Nat} {ph : Nat} {pass : Bool} (hk : Keeps z s) : Runs z (execPhaseTest n dom ph pass s) := by
  unfold execPhaseTest
  with_reducible repeat' (first | assumption | refine .next ?_ | refine Keeps.pass ?_ | refine Keeps.softStart ?_ | refine Keeps.phaseTest ?_ | split | dsimp only | refine Keeps.mk_ ?_)

theorem Runs.domainStateRequest {z s : State} {n : Nat} {dom : Nat} {req : Nat} (hk : Keeps z s) : Runs z (execDomainStateRequest n dom req s) := by
  unfold execDomainStateRequest
  with_reducible repeat' (first | assumption | refine .next ?_ | refine Keeps.discard ?_ | refine Keeps.onLiveRegion ?_ | split | dsimp only | refine Keeps.mk_ ?_)

theorem Runs.ofsWrite {z s : State} {n : Nat} {dom : Nat} {v : Nat} (hk : Keeps z s) : Runs z (execOfsWrite n dom v s) := by
  unfold execOfsWrite
  with_reducible repeat' (first | assumption | refine .next ?_ | refine Keeps.discard ?_ | refine Keeps.onLiveRegion ?_ | split | dsimp only | refine Keeps.mk_ ?_)

theorem Runs.pcapWrite {z s : State} {v : Word} (hk : Keeps z s) : Runs z (execPcapWrite v s) := by
  unfold execPcapWrite
  with_reducible repeat' (first | assumption | refine .next ?_ | refine Keeps.discard ?_ | refine Keeps.pcapWrite ?_ | split | dsimp only | refine Keeps.mk_ ?_)

theorem Runs.ageMeasure {z s : State} {n : Nat} {dom : Nat} {slack : Nat} (hk : Keeps z s) : Runs z (execAgeMeasure n dom slack s) := by
  unfold execAgeMeasure
  with_reducible repeat' (first | assumption | refine .next ?_ | refine Keeps.wr ?_ | refine Keeps.setRegion ?_ | refine Keeps.onRegion ?_ | refine Keeps.setDom ?_ | split | dsimp only | refine Keeps.mk_ ?_)

theorem Runs.hoursRecord {z s : State} {ok : Bool} (hk : Keeps z s) : Runs z (execHoursRecord ok s) := by
  unfold execHoursRecord
  with_reducible repeat' (first | assumption | refine .next ?_ | refine Keeps.logAppend ?_ | split | dsimp only | refine Keeps.mk_ ?_)

theorem Runs.powerOn {z s : State}  (hk : Keeps z s) : Runs z (execPowerOn s) := by
  unfold execPowerOn
  with_reducible repeat' (first | assumption | refine .next ?_ | refine Keeps.coldStart ?_ | split | dsimp only | refine Keeps.mk_ ?_)

theorem Runs.auxInputLost {z s : State}  (hk : Keeps z s) : Runs z (execAuxInputLost s) := by
  unfold execAuxInputLost
  with_reducible repeat' (first | assumption | refine .next ?_ | refine Keeps.wr ?_ | refine Keeps.coldState ?_ | dsimp only | refine Keeps.mk_ ?_)

theorem Runs.coldReset {z s : State}  (hk : Keeps z s) : Runs z (execColdReset s) := by
  unfold execColdReset
  with_reducible repeat' (first | assumption | refine .next ?_ | refine Keeps.coldReset ?_ | split | dsimp only | refine Keeps.mk_ ?_)

theorem Runs.hubRstCold {z s : State} {v : Word} (hk : Keeps z s) : Runs z (execHubRstCold v s) := by
  unfold execHubRstCold
  with_reducible repeat' (first | assumption | refine .next ?_ | refine Keeps.discard ?_ | refine Keeps.coldReset ?_ | split | dsimp only | refine Keeps.mk_ ?_)

theorem Runs.jtagColdReset {z s : State}  (hk : Keeps z s) : Runs z (execJtagColdReset s) := by
  unfold execJtagColdReset
  with_reducible repeat' (first | assumption | refine .next ?_ | refine Keeps.coldReset ?_ | split | dsimp only | refine Keeps.mk_ ?_)

theorem Runs.stageEnd {z s : State} {r : StageResult} (hk : Keeps z s) : Runs z (execStageEnd r s) := by
  unfold execStageEnd
  with_reducible repeat' (first | assumption | refine .next ?_ | refine Keeps.endStage ?_ | dsimp only | refine Keeps.mk_ ?_)

theorem Runs.stageLimit {z s : State} {r : StageResult} (hk : Keeps z s) : Runs z (execStageLimit r s) := by
  unfold execStageLimit
  with_reducible repeat' (first | assumption | refine .next ?_ | refine Keeps.endStage ?_ | split | dsimp only | refine Keeps.mk_ ?_)

theorem Runs.jtagFirmwareLoad {z s : State} {image : FwImage} (hk : Keeps z s) : Runs z (execJtagFirmwareLoad image s) := by
  unfold execJtagFirmwareLoad
  with_reducible repeat' (first | assumption | refine .next ?_ | refine Keeps.verifyFw ?_ | split | dsimp only | refine Keeps.mk_ ?_)

theorem Runs.mailboxRequest {z s : State} {req : Option (List Byte)} {sigOk : Bool} {image : FwImage} {flashOk : Bool} (hk : Keeps z s) : Runs z (execMailboxRequest req sigOk image flashOk s) := by
  unfold execMailboxRequest
  with_reducible repeat' (first | assumption | refine .next ?_ | refine Keeps.wr ?_ | refine Keeps.set1 ?_ | refine Keeps.raise ?_ | refine Keeps.mailboxAct ?_ | split | dsimp only | refine Keeps.mk_ ?_)

theorem Runs.crashLogDelivery {z s : State}  (hk : Keeps z s) : Runs z (execCrashLogDelivery s) := by
  unfold execCrashLogDelivery
  with_reducible repeat' (first | assumption | refine .next ?_ | refine Keeps.wr ?_ | refine Keeps.set1 ?_ | refine Keeps.bookGen ?_ | refine Keeps.foldl (fun _ _ _ => ?_) ?_ | split | dsimp only | refine Keeps.mk_ ?_)

theorem Runs.beatStart {z s : State} {n : Nat} (hk : Keeps z s) : Runs z (execBeatStart n s) := by
  unfold execBeatStart
  with_reducible repeat' (first | assumption | refine .next ?_ | refine Keeps.setRegion ?_ | refine Keeps.onRegion ?_ | refine Keeps.easeOn ?_ | refine Keeps.blockBeat0 ?_ | refine Keeps.realign ?_ | refine Keeps.gap ?_ | refine Keeps.foldl (fun _ _ _ => ?_) ?_ | split | dsimp only | refine Keeps.mk_ ?_)

theorem Runs.stepCommit {z s : State} {n : Nat} (hk : Keeps z s) : Runs z (execStepCommit n s) := by
  unfold execStepCommit
  with_reducible repeat' (first | assumption | refine Keeps.foldl (fun _ _ _ => ?_) ?_ | refine .next ?_ | refine Keeps.set1 ?_ | refine Keeps.onLiveRegion ?_ | refine Keeps.commitStep ?_ | split | dsimp only | refine Keeps.mk_ ?_)

theorem Runs.idlePllLock {z s : State} {n : Nat} (hk : Keeps z s) : Runs z (execIdlePllLock n s) := by
  unfold execIdlePllLock
  with_reducible repeat' (first | assumption | refine .next ?_ | refine Keeps.onLiveRegion ?_ | dsimp only | refine Keeps.mk_ ?_)

theorem Runs.pllLockDeadline {z s : State} {n : Nat} (hk : Keeps z s) : Runs z (execPllLockDeadline n s) := by
  unfold execPllLockDeadline
  with_reducible repeat' (first | assumption | refine .next ?_ | refine Keeps.onLiveRegion ?_ | dsimp only | refine Keeps.mk_ ?_)

theorem Runs.regulatorReport {z s : State} {n : Nat} (hk : Keeps z s) : Runs z (execRegulatorReport n s) := by
  unfold execRegulatorReport
  with_reducible repeat' (first | assumption | refine .next ?_ | refine Keeps.onLiveRegion ?_ | dsimp only | refine Keeps.mk_ ?_)

theorem Runs.stepTail {z s : State} {n : Nat} (hk : Keeps z s) : Runs z (execStepTail n s) := by
  unfold execStepTail
  with_reducible repeat' (first | assumption | refine .next ?_ | refine Keeps.onLiveRegion ?_ | refine Keeps.tailDeadline ?_ | split | dsimp only | refine Keeps.mk_ ?_)

theorem Runs.refLost {z s : State}  (hk : Keeps z s) : Runs z (execRefLost s) := by
  unfold execRefLost
  with_reducible repeat' (first | assumption | refine .next ?_ | refine Keeps.wr ?_ | refine Keeps.set1 ?_ | refine Keeps.raise ?_ | split | dsimp only | refine Keeps.mk_ ?_)

theorem Runs.refReturn {z s : State}  (hk : Keeps z s) : Runs z (execRefReturn s) := by
  unfold execRefReturn
  with_reducible repeat' (first | assumption | refine .next ?_ | refine Keeps.raise ?_ | split | dsimp only | refine Keeps.mk_ ?_)

theorem Runs.diePllLost {z s : State} {die : Nat} (hk : Keeps z s) : Runs z (execDiePllLost die s) := by
  unfold execDiePllLost
  with_reducible repeat' (first | assumption | refine .next ?_ | refine Keeps.wr ?_ | refine Keeps.set1 ?_ | refine Keeps.raise ?_ | refine Keeps.loseRegions ?_ | split | dsimp only | refine Keeps.mk_ ?_)

theorem Runs.regionPllLost {z s : State} {n : Nat} (hk : Keeps z s) : Runs z (execRegionPllLost n s) := by
  unfold execRegionPllLost
  with_reducible repeat' (first | assumption | refine .next ?_ | refine Keeps.raise ?_ | refine Keeps.onRegion ?_ | refine Keeps.loseRegions ?_ | split | dsimp only | refine Keeps.mk_ ?_)

theorem Runs.droopTrip {z s : State} {n : Nat} {cyc : Nat} {dom : Nat} (hk : Keeps z s) : Runs z (execDroopTrip n cyc dom s) := by
  unfold execDroopTrip
  with_reducible repeat' (first | assumption | refine .next ?_ | refine Keeps.onLiveRegion ?_ | refine Keeps.settleDomain ?_ | dsimp only | refine Keeps.mk_ ?_)

theorem Runs.droopClear {z s : State} {n : Nat} {cyc : Nat} {dom : Nat} {skipped : Nat} (hk : Keeps z s) : Runs z (execDroopClear n cyc dom skipped s) := by
  unfold execDroopClear
  with_reducible repeat' (first | assumption | refine Keeps.slipDomain ?_ | refine Keeps.settleDomain ?_ | refine .next ?_ | refine Keeps.onLiveRegion ?_ | refine Keeps.settleDomain ?_ | dsimp only | refine Keeps.mk_ ?_)

theorem Runs.tpush {z s : State} {blk : Nat} {cyc : Nat} (hk : Keeps z s) : Runs z (execTpush blk cyc s) := by
  unfold execTpush
  with_reducible repeat' (first | assumption | refine .next ?_ | refine Keeps.coreOf ?_ | split | dsimp only | refine Keeps.mk_ ?_)

theorem Runs.tfull {z s : State} {blk : Nat} {cyc : Nat} (hk : Keeps z s) : Runs z (execTfull blk cyc s) := by
  unfold execTfull
  with_reducible repeat' (first | assumption | refine .next ?_ | refine Keeps.coreOf ?_ | split | dsimp only | refine Keeps.mk_ ?_)

theorem Runs.trel {z s : State} {blk : Nat} {cyc : Nat} (hk : Keeps z s) : Runs z (execTrel blk cyc s) := by
  unfold execTrel
  with_reducible repeat' (first | assumption | refine .next ?_ | refine Keeps.coreOf ?_ | split | dsimp only | refine Keeps.mk_ ?_)

theorem Runs.taddrT {z s : State} {blk : Nat} {cyc : Nat} (hk : Keeps z s) : Runs z (execTaddrT blk cyc s) := by
  unfold execTaddrT
  with_reducible repeat' (first | assumption | refine .next ?_ | refine Keeps.coreOf ?_ | split | dsimp only | refine Keeps.mk_ ?_)

theorem Runs.taddrF {z s : State} {blk : Nat} {cyc : Nat} (hk : Keeps z s) : Runs z (execTaddrF blk cyc s) := by
  unfold execTaddrF
  with_reducible repeat' (first | assumption | refine .next ?_ | refine Keeps.coreOf ?_ | split | dsimp only | refine Keeps.mk_ ?_)

theorem Runs.tfence {z s : State} {blk : Nat} {cyc : Nat} (hk : Keeps z s) : Runs z (execTfence blk cyc s) := by
  unfold execTfence
  with_reducible repeat' (first | assumption | refine .next ?_ | refine Keeps.coreOf ?_ | split | dsimp only | refine Keeps.mk_ ?_)

theorem Runs.tframe {z s : State} {blk : Nat} {cyc : Nat} (hk : Keeps z s) : Runs z (execTframe blk cyc s) := by
  unfold execTframe
  with_reducible repeat' (first | assumption | refine .next ?_ | refine Keeps.coreOf ?_ | split | dsimp only | refine Keeps.mk_ ?_)

theorem Runs.tcrcB {z s : State} {blk : Nat} {cyc : Nat} (hk : Keeps z s) : Runs z (execTcrcB blk cyc s) := by
  unfold execTcrcB
  with_reducible repeat' (first | assumption | refine .next ?_ | refine Keeps.coreOf ?_ | split | dsimp only | refine Keeps.mk_ ?_)

theorem Runs.tcrcH {z s : State} {blk : Nat} {cyc : Nat} (hk : Keeps z s) : Runs z (execTcrcH blk cyc s) := by
  unfold execTcrcH
  with_reducible repeat' (first | assumption | refine .next ?_ | refine Keeps.coreOf ?_ | split | dsimp only | refine Keeps.mk_ ?_)

theorem Runs.tcrcW {z s : State} {blk : Nat} {cyc : Nat} (hk : Keeps z s) : Runs z (execTcrcW blk cyc s) := by
  unfold execTcrcW
  with_reducible repeat' (first | assumption | refine .next ?_ | refine Keeps.coreOf ?_ | split | dsimp only | refine Keeps.mk_ ?_)

theorem Runs.mret {z s : State} {blk : Nat} {cyc : Nat} (hk : Keeps z s) : Runs z (execMret blk cyc s) := by
  unfold execMret
  with_reducible repeat' (first | assumption | refine .next ?_ | refine Keeps.coreOf ?_ | split | dsimp only | refine Keeps.mk_ ?_)

theorem Runs.terrWrite {z s : State} {blk : Nat} {cyc : Nat} (hk : Keeps z s) : Runs z (execTerrWrite blk cyc s) := by
  unfold execTerrWrite
  with_reducible repeat' (first | assumption | refine .next ?_ | refine Keeps.coreOf ?_ | split | dsimp only | refine Keeps.mk_ ?_)

theorem Runs.scalarInstruction {z s : State} {blk : Nat} {cyc : Nat} (hk : Keeps z s) : Runs z (execScalarInstruction blk cyc s) := by
  unfold execScalarInstruction
  with_reducible repeat' (first | assumption | refine .next ?_ | refine Keeps.onLive ?_ | dsimp only | refine Keeps.mk_ ?_)

theorem Runs.slotLoadTimeout {z s : State} {blk : Nat} {cyc : Nat} (hk : Keeps z s) : Runs z (execSlotLoadTimeout blk cyc s) := by
  unfold execSlotLoadTimeout
  with_reducible repeat' (first | assumption | refine .next ?_ | refine Keeps.onLive ?_ | dsimp only | refine Keeps.mk_ ?_)

theorem Runs.coreStart {z s : State} {blk : Nat} {cyc : Nat} (hk : Keeps z s) : Runs z (execCoreStart blk cyc s) := by
  unfold execCoreStart
  with_reducible repeat' (first | assumption | refine .next ?_ | refine Keeps.onLive ?_ | dsimp only | refine Keeps.mk_ ?_)

theorem Runs.ctxAdmit {z s : State} {fn : Nat} {ring : Nat} {slot : Nat} (hk : Keeps z s) : Runs z (execCtxAdmit fn ring slot s) := by
  unfold execCtxAdmit
  with_reducible repeat' (first | assumption | refine .next ?_ | refine Keeps.wr ?_ | refine Keeps.setCtx ?_ | refine Keeps.finish ?_ | split | dsimp only | refine Keeps.mk_ ?_)

theorem Runs.ctxTeardown {z s : State} {fn : Nat} {ring : Nat} {slot : Nat} (hk : Keeps z s) : Runs z (execCtxTeardown fn ring slot s) := by
  unfold execCtxTeardown
  with_reducible repeat' (first | assumption | refine .next ?_ | refine Keeps.setCtx ?_ | refine Keeps.finish ?_ | refine Keeps.teardown ?_ | split | dsimp only | refine Keeps.mk_ ?_)

theorem Runs.teardownRequest {z s : State} {p : Nat} {cause : Nat} (hk : Keeps z s) : Runs z (execTeardownRequest p cause s) := by
  unfold execTeardownRequest
  with_reducible repeat' (first | assumption | refine .next ?_ | refine Keeps.teardown ?_ | split | dsimp only | refine Keeps.mk_ ?_)

theorem Runs.loadingDone {z s : State} {p : Nat} (hk : Keeps z s) : Runs z (execLoadingDone p s) := by
  unfold execLoadingDone
  with_reducible repeat' (first | assumption | refine .next ?_ | refine Keeps.finishLoading ?_ | split | dsimp only | refine Keeps.mk_ ?_)

theorem Runs.clearingDone {z s : State} {p : Nat} (hk : Keeps z s) : Runs z (execClearingDone p s) := by
  unfold execClearingDone
  with_reducible repeat' (first | assumption | refine .next ?_ | refine Keeps.finishClearing ?_ | split | dsimp only | refine Keeps.mk_ ?_)

theorem Runs.regionRecordReceived {z s : State} {blk : Nat} {t : Trace} (hk : Keeps z s) : Runs z (execRegionRecordReceived blk t s) := by
  unfold execRegionRecordReceived
  with_reducible repeat' (first | assumption | refine .next ?_ | refine Keeps.set1 ?_ | refine Keeps.setBlock ?_ | refine Keeps.putRegion ?_ | split | dsimp only | refine Keeps.mk_ ?_)

theorem Runs.hubRecordReceived {z s : State} {n : Nat} (hk : Keeps z s) : Runs z (execHubRecordReceived n s) := by
  unfold execHubRecordReceived
  with_reducible repeat' (first | assumption | refine .next ?_ | refine Keeps.setRegion ?_ | refine Keeps.hubQueue ?_ | refine Keeps.tearFor ?_ | split | dsimp only | refine Keeps.mk_ ?_)

theorem Runs.suspectClear {z s : State} {n : Nat} {i : Nat} (hk : Keeps z s) : Runs z (execSuspectClear n i s) := by
  unfold execSuspectClear
  with_reducible repeat' (first | assumption | refine .next ?_ | refine Keeps.wr ?_ | refine Keeps.setBlock ?_ | refine Keeps.putRegion ?_ | split | dsimp only | refine Keeps.mk_ ?_)

theorem Runs.ledgerRelease {z s : State} {n : Nat} {i : Nat} (hk : Keeps z s) : Runs z (execLedgerRelease n i s) := by
  unfold execLedgerRelease
  with_reducible repeat' (first | assumption | refine .next ?_ | refine Keeps.onLiveRegion ?_ | dsimp only | refine Keeps.mk_ ?_)

theorem Runs.ledgerClear {z s : State} {n : Nat} {b : Nat} (hk : Keeps z s) : Runs z (execLedgerClear n b s) := by
  unfold execLedgerClear
  with_reducible repeat' (first | assumption | refine .next ?_ | refine Keeps.discard ?_ | refine Keeps.onLiveRegion ?_ | split | dsimp only | refine Keeps.mk_ ?_)

theorem Runs.hostFence {z s : State} {n : Nat} {b : Nat} (hk : Keeps z s) : Runs z (execHostFence n b s) := by
  unfold execHostFence
  with_reducible repeat' (first | assumption | refine .next ?_ | refine Keeps.discard ?_ | refine Keeps.onLiveRegion ?_ | split | dsimp only | refine Keeps.mk_ ?_)

theorem Runs.retest {z s : State} {n : Nat} {r : Retest} (hk : Keeps z s) : Runs z (execRetest n r s) := by
  unfold execRetest
  with_reducible repeat' (first | assumption | refine Keeps.showQueueDef ?_ | refine .next ?_ | refine Keeps.setBlock ?_ | refine Keeps.onLiveRegion ?_ | split | dsimp only | refine Keeps.mk_ ?_)

theorem Runs.regionControllerFault {z s : State} {n : Nat} (hk : Keeps z s) : Runs z (execRegionControllerFault n s) := by
  unfold execRegionControllerFault
  with_reducible repeat' (first | assumption | refine .next ?_ | refine Keeps.loseRegions ?_ | split | dsimp only | refine Keeps.mk_ ?_)

theorem Runs.managementPathCut {z s : State} {n : Nat} (hk : Keeps z s) : Runs z (execManagementPathCut n s) := by
  unfold execManagementPathCut
  with_reducible repeat' (first | assumption | refine .next ?_ | refine Keeps.loseRegions ?_ | split | dsimp only | refine Keeps.mk_ ?_)

theorem Runs.testpack {z s : State} {fn : Nat} {ring : Nat} {slot : Nat} {pack : Option (List Byte)} {sigOk : Bool} (hk : Keeps z s) : Runs z (execTestpack fn ring slot pack sigOk s) := by
  unfold execTestpack
  with_reducible repeat' (first | assumption | refine .next ?_ | refine Keeps.wr ?_ | refine Keeps.finish ?_ | split | dsimp only | refine Keeps.mk_ ?_)

theorem Runs.testpackStop {z s : State}  (hk : Keeps z s) : Runs z (execTestpackStop s) := by
  unfold execTestpackStop
  with_reducible repeat' (first | assumption | refine .next ?_ | refine Keeps.discard ?_ | split | dsimp only | refine Keeps.mk_ ?_)

theorem Runs.testTileDone {z s : State} {blk : Nat} {cyc : Nat} {test : Nat} {faults : List CellFault} (hk : Keeps z s) : Runs z (execTestTileDone blk cyc test faults s) := by
  unfold execTestTileDone
  with_reducible repeat' (first | assumption | refine Keeps.wr ?_ | refine .next ?_ | refine Keeps.set1 ?_ | refine Keeps.count ?_ | refine Keeps.onBlock ?_ | split | dsimp only | refine Keeps.mk_ ?_)

theorem Runs.testpackRound {z s : State}  (hk : Keeps z s) : Runs z (execTestpackRound s) := by
  unfold execTestpackRound
  with_reducible repeat' (first | assumption | refine .next ?_ | refine Keeps.wr ?_ | refine Keeps.bookAll ?_ | split | dsimp only | refine Keeps.mk_ ?_)

theorem Runs.frmLenWrite {z s : State} {v : Word} (hk : Keeps z s) : Runs z (execFrmLenWrite v s) := by
  unfold execFrmLenWrite
  with_reducible repeat' (first | assumption | refine .next ?_ | refine Keeps.wr ?_ | refine Keeps.set1 ?_ | refine Keeps.discard ?_ | split | dsimp only | refine Keeps.mk_ ?_)

theorem Runs.frmResWrite {z s : State} {v : Word} (hk : Keeps z s) : Runs z (execFrmResWrite v s) := by
  unfold execFrmResWrite
  with_reducible repeat' (first | assumption | refine .next ?_ | refine Keeps.wr ?_ | refine Keeps.set1 ?_ | refine Keeps.discard ?_ | split | dsimp only | refine Keeps.mk_ ?_)

theorem Runs.frmPhaseWrite {z s : State} {v : Word} (hk : Keeps z s) : Runs z (execFrmPhaseWrite v s) := by
  unfold execFrmPhaseWrite
  with_reducible repeat' (first | assumption | refine .next ?_ | refine Keeps.wr ?_ | refine Keeps.set1 ?_ | refine Keeps.discard ?_ | split | dsimp only | refine Keeps.mk_ ?_)

theorem Runs.epochArm {z s : State} {v : Word} (hk : Keeps z s) : Runs z (execEpochArm v s) := by
  unfold execEpochArm
  with_reducible repeat' (first | assumption | refine .next ?_ | refine Keeps.discard ?_ | refine Keeps.softWrite ?_ | split | dsimp only | refine Keeps.mk_ ?_)

theorem Runs.frmNumLoRead {z s : State}  (hk : Keeps z s) : Runs z (execFrmNumLoRead s) := by
  unfold execFrmNumLoRead
  with_reducible repeat' (first | assumption | refine Keeps.frmNumLo ?_ | refine .next ?_ | dsimp only | refine Keeps.mk_ ?_)

theorem Runs.cutFrameLoRead {z s : State}  (hk : Keeps z s) : Runs z (execCutFrameLoRead s) := by
  unfold execCutFrameLoRead
  with_reducible repeat' (first | assumption | refine Keeps.cutFrameLo ?_ | refine .next ?_ | dsimp only | refine Keeps.mk_ ?_)

theorem Runs.epochEdge {z s : State} {pos : Nat} (hk : Keeps z s) : Runs z (execEpochEdge pos s) := by
  unfold execEpochEdge
  with_reducible repeat' (first | assumption | refine .next ?_ | refine Keeps.wr ?_ | refine Keeps.set1 ?_ | refine Keeps.pass ?_ | refine Keeps.checkEdge ?_ | refine Keeps.realign ?_ | split | dsimp only | refine Keeps.mk_ ?_)

theorem Runs.evcLoRead {z s : State} {at_ : CtrAt} (hk : Keeps z s) : Runs z (execEvcLoRead at_ s) := by
  unfold execEvcLoRead
  with_reducible repeat' (first | assumption | refine Keeps.evcLo ?_ | refine .next ?_ | refine Keeps.updEvc ?_ | split | dsimp only | refine Keeps.mk_ ?_)

theorem Runs.evcSnapLoRead {z s : State} {at_ : CtrAt} (hk : Keeps z s) : Runs z (execEvcSnapLoRead at_ s) := by
  unfold execEvcSnapLoRead
  with_reducible repeat' (first | assumption | refine Keeps.evcSnapLo ?_ | refine .next ?_ | refine Keeps.updEvc ?_ | split | dsimp only | refine Keeps.mk_ ?_)

theorem Runs.evcFreeze {z s : State} {v : Word} (hk : Keeps z s) : Runs z (execEvcFreeze v s) := by
  unfold execEvcFreeze
  with_reducible repeat' (first | assumption | refine .next ?_ | refine Keeps.wr ?_ | refine Keeps.discard ?_ | split | dsimp only | refine Keeps.mk_ ?_)

theorem Runs.pertXdlyArm {z s : State} {v : Word} (hk : Keeps z s) : Runs z (execPertXdlyArm v s) := by
  unfold execPertXdlyArm
  with_reducible repeat' (first | assumption | refine .next ?_ | refine Keeps.discard ?_ | refine Keeps.pertWrite ?_ | split | dsimp only | refine Keeps.mk_ ?_)

theorem Runs.pertSlholdArm {z s : State} {v : Word} (hk : Keeps z s) : Runs z (execPertSlholdArm v s) := by
  unfold execPertSlholdArm
  with_reducible repeat' (first | assumption | refine .next ?_ | refine Keeps.discard ?_ | refine Keeps.pertWrite ?_ | split | dsimp only | refine Keeps.mk_ ?_)

theorem Runs.pertFstrArm {z s : State} {v : Word} (hk : Keeps z s) : Runs z (execPertFstrArm v s) := by
  unfold execPertFstrArm
  with_reducible repeat' (first | assumption | refine .next ?_ | refine Keeps.discard ?_ | refine Keeps.pertWrite ?_ | split | dsimp only | refine Keeps.mk_ ?_)

theorem Runs.pertTmoArm {z s : State} {v : Word} (hk : Keeps z s) : Runs z (execPertTmoArm v s) := by
  unfold execPertTmoArm
  with_reducible repeat' (first | assumption | refine .next ?_ | refine Keeps.discard ?_ | refine Keeps.pertWrite ?_ | split | dsimp only | refine Keeps.mk_ ?_)

theorem Runs.pertMismArm {z s : State} {v : Word} (hk : Keeps z s) : Runs z (execPertMismArm v s) := by
  unfold execPertMismArm
  with_reducible repeat' (first | assumption | refine .next ?_ | refine Keeps.discard ?_ | refine Keeps.pertWrite ?_ | split | dsimp only | refine Keeps.mk_ ?_)

theorem Runs.pertLock {z s : State}  (hk : Keeps z s) : Runs z (execPertLock s) := by
  unfold execPertLock
  with_reducible repeat' (first | assumption | refine .next ?_ | refine Keeps.set1 ?_ | refine Keeps.discard ?_ | split | dsimp only | refine Keeps.mk_ ?_)

theorem Runs.forcedTimeout {z s : State} {cyc : Nat} (hk : Keeps z s) : Runs z (execForcedTimeout cyc s) := by
  unfold execForcedTimeout
  with_reducible repeat' (first | assumption | refine .next ?_ | refine Keeps.onBlock ?_ | refine Keeps.onRegion ?_ | refine Keeps.onLiveRegion ?_ | refine Keeps.forcedDone ?_ | split | dsimp only | refine Keeps.mk_ ?_)

theorem Runs.countClr {z s : State} {addr : Nat} (hk : Keeps z s) : Runs z (execCountClr addr s) := by
  unfold execCountClr
  with_reducible repeat' (first | assumption | refine .next ?_ | refine Keeps.discard ?_ | refine Keeps.setRegion ?_ | refine Keeps.setBlock ?_ | refine Keeps.setPort ?_ | refine Keeps.updEvc ?_ | refine Keeps.hubClr ?_ | split | dsimp only | refine Keeps.mk_ ?_)

theorem Runs.platLoad {z s : State} {fn : Nat} {ring : Nat} {slot : Nat} (hk : Keeps z s) : Runs z (execPlatLoad fn ring slot s) := by
  unfold execPlatLoad
  with_reducible repeat' (first | assumption | refine .next ?_ | refine Keeps.wr ?_ | refine Keeps.finish ?_ | refine Keeps.platVec ?_ | split | dsimp only | refine Keeps.mk_ ?_)

theorem Runs.platCutover {z s : State} {fn : Nat} {ring : Nat} {slot : Nat} (hk : Keeps z s) : Runs z (execPlatCutover fn ring slot s) := by
  unfold execPlatCutover
  with_reducible repeat' (first | assumption | refine .next ?_ | refine Keeps.wr ?_ | refine Keeps.finish ?_ | refine Keeps.platVec ?_ | refine Keeps.rejectPlat ?_ | refine Keeps.startArming ?_ | split | dsimp only | refine Keeps.mk_ ?_)

theorem Runs.platImageReadDone {z s : State} {image : ImageRead} (hk : Keeps z s) : Runs z (execPlatImageReadDone image s) := by
  unfold execPlatImageReadDone
  with_reducible repeat' (first | assumption | refine .next ?_ | refine Keeps.wr ?_ | refine Keeps.platVec ?_ | refine Keeps.rejectPlat ?_ | refine Keeps.startArming ?_ | split | dsimp only | refine Keeps.mk_ ?_)

theorem Runs.platSeal {z s : State}  (hk : Keeps z s) : Runs z (execPlatSeal s) := by
  unfold execPlatSeal
  with_reducible repeat' (first | assumption | refine .next ?_ | refine Keeps.wr ?_ | refine Keeps.set1 ?_ | refine Keeps.finish ?_ | refine Keeps.platVec ?_ | refine Keeps.install ?_ | refine Keeps.wrHash ?_ | split | dsimp only | refine Keeps.mk_ ?_)

theorem Runs.platUnload {z s : State} {fn : Nat} {ring : Nat} {slot : Nat} (hk : Keeps z s) : Runs z (execPlatUnload fn ring slot s) := by
  unfold execPlatUnload
  with_reducible repeat' (first | assumption | refine .next ?_ | refine Keeps.finish ?_ | split | dsimp only | refine Keeps.mk_ ?_)

theorem Runs.cutCancel {z s : State} {fn : Nat} {ring : Nat} {slot : Nat} (hk : Keeps z s) : Runs z (execCutCancel fn ring slot s) := by
  unfold execCutCancel
  with_reducible repeat' (first | assumption | refine .next ?_ | refine Keeps.finish ?_ | refine Keeps.platVec ?_ | refine Keeps.cutAbandon ?_ | split | dsimp only | refine Keeps.mk_ ?_)

theorem Runs.cutAcknowledge {z s : State} {n : Nat} (hk : Keeps z s) : Runs z (execCutAcknowledge n s) := by
  unfold execCutAcknowledge
  with_reducible repeat' (first | assumption | refine .next ?_ | refine Keeps.wr ?_ | refine Keeps.set1 ?_ | refine Keeps.setRegion ?_ | refine Keeps.platVec ?_ | refine Keeps.showArmed ?_ | split | dsimp only | refine Keeps.mk_ ?_)

theorem Runs.cutWithdrawal {z s : State} {n : Nat} (hk : Keeps z s) : Runs z (execCutWithdrawal n s) := by
  unfold execCutWithdrawal
  with_reducible repeat' (first | assumption | refine .next ?_ | refine Keeps.wr ?_ | refine Keeps.set1 ?_ | refine Keeps.setRegion ?_ | refine Keeps.platVec ?_ | refine Keeps.showArmed ?_ | split | dsimp only | refine Keeps.mk_ ?_)

theorem Runs.decisionPoint {z s : State}  (hk : Keeps z s) : Runs z (execDecisionPoint s) := by
  unfold execDecisionPoint
  with_reducible repeat' (first | assumption | refine .next ?_ | refine Keeps.wr ?_ | refine Keeps.platVec ?_ | refine Keeps.cutAbandon ?_ | refine Keeps.onPort ?_ | refine Keeps.foldl (fun _ _ _ => ?_) ?_ | split | dsimp only | refine Keeps.mk_ ?_)

theorem Runs.pmbusPage {z s : State} {v : Nat} {pec : Option Bool} (hk : Keeps z s) : Runs z (execPmbusPage v pec s) := by
  unfold execPmbusPage
  with_reducible repeat' (first | assumption | refine .next ?_ | refine Runs.pmbusWrite (fun _ _ => ?_) ?_ | split | dsimp only | refine Keeps.mk_ ?_)

theorem Runs.pmbusClearFaults {z s : State} {pec : Option Bool} (hk : Keeps z s) : Runs z (execPmbusClearFaults pec s) := by
  unfold execPmbusClearFaults
  with_reducible repeat' (first | assumption | refine .next ?_ | refine Runs.pmbusWrite (fun _ _ => ?_) ?_ | dsimp only | refine Keeps.mk_ ?_)

theorem Runs.voutMode {z s : State}  (hk : Keeps z s) : Runs z (execVoutMode s) := by
  unfold execVoutMode
  with_reducible repeat' (first | assumption | refine .next ?_ | refine Runs.pmbus (fun _ _ => ?_) ?_ | refine Keeps.reply ?_ | dsimp only | refine Keeps.mk_ ?_)

theorem Runs.statusWord {z s : State}  (hk : Keeps z s) : Runs z (execStatusWord s) := by
  unfold execStatusWord
  with_reducible repeat' (first | assumption | refine .next ?_ | refine Runs.pmbus (fun _ _ => ?_) ?_ | refine Keeps.reply ?_ | dsimp only | refine Keeps.mk_ ?_)

theorem Runs.statusIout {z s : State}  (hk : Keeps z s) : Runs z (execStatusIout s) := by
  unfold execStatusIout
  with_reducible repeat' (first | assumption | refine .next ?_ | refine Runs.pmbus (fun _ _ => ?_) ?_ | refine Keeps.reply ?_ | dsimp only | refine Keeps.mk_ ?_)

theorem Runs.statusInput {z s : State}  (hk : Keeps z s) : Runs z (execStatusInput s) := by
  unfold execStatusInput
  with_reducible repeat' (first | assumption | refine .next ?_ | refine Runs.pmbus (fun _ _ => ?_) ?_ | refine Keeps.reply ?_ | dsimp only | refine Keeps.mk_ ?_)

theorem Runs.statusCml {z s : State}  (hk : Keeps z s) : Runs z (execStatusCml s) := by
  unfold execStatusCml
  with_reducible repeat' (first | assumption | refine .next ?_ | refine Runs.pmbus (fun _ _ => ?_) ?_ | refine Keeps.reply ?_ | dsimp only | refine Keeps.mk_ ?_)

theorem Runs.readVin {z s : State}  (hk : Keeps z s) : Runs z (execReadVin s) := by
  unfold execReadVin
  with_reducible repeat' (first | assumption | refine .next ?_ | refine Runs.pmbus (fun _ _ => ?_) ?_ | refine Keeps.reply ?_ | dsimp only | refine Keeps.mk_ ?_)

theorem Runs.readIin {z s : State}  (hk : Keeps z s) : Runs z (execReadIin s) := by
  unfold execReadIin
  with_reducible repeat' (first | assumption | refine .next ?_ | refine Runs.pmbus (fun _ _ => ?_) ?_ | refine Keeps.reply ?_ | refine Keeps.unsupported ?_ | split | dsimp only | refine Keeps.mk_ ?_)

theorem Runs.readVout {z s : State}  (hk : Keeps z s) : Runs z (execReadVout s) := by
  unfold execReadVout
  with_reducible repeat' (first | assumption | refine .next ?_ | refine Runs.pmbus (fun _ _ => ?_) ?_ | refine Keeps.reply ?_ | dsimp only | refine Keeps.mk_ ?_)

theorem Runs.readIout {z s : State}  (hk : Keeps z s) : Runs z (execReadIout s) := by
  unfold execReadIout
  with_reducible repeat' (first | assumption | refine .next ?_ | refine Runs.pmbus (fun _ _ => ?_) ?_ | refine Keeps.reply ?_ | dsimp only | refine Keeps.mk_ ?_)

theorem Runs.readTemperature1 {z s : State}  (hk : Keeps z s) : Runs z (execReadTemperature1 s) := by
  unfold execReadTemperature1
  with_reducible repeat' (first | assumption | refine .next ?_ | refine Runs.pmbus (fun _ _ => ?_) ?_ | refine Keeps.reply ?_ | dsimp only | refine Keeps.mk_ ?_)

theorem Runs.readPout {z s : State}  (hk : Keeps z s) : Runs z (execReadPout s) := by
  unfold execReadPout
  with_reducible repeat' (first | assumption | refine .next ?_ | refine Runs.pmbus (fun _ _ => ?_) ?_ | refine Keeps.reply ?_ | dsimp only | refine Keeps.mk_ ?_)

theorem Runs.readPin {z s : State}  (hk : Keeps z s) : Runs z (execReadPin s) := by
  unfold execReadPin
  with_reducible repeat' (first | assumption | refine .next ?_ | refine Runs.pmbus (fun _ _ => ?_) ?_ | refine Keeps.reply ?_ | refine Keeps.unsupported ?_ | split | dsimp only | refine Keeps.mk_ ?_)

theorem Runs.pmbusRevision {z s : State}  (hk : Keeps z s) : Runs z (execPmbusRevision s) := by
  unfold execPmbusRevision
  with_reducible repeat' (first | assumption | refine .next ?_ | refine Runs.pmbus (fun _ _ => ?_) ?_ | refine Keeps.reply ?_ | dsimp only | refine Keeps.mk_ ?_)

theorem Runs.pmbusUnsupported {z s : State} {code : Nat} (hk : Keeps z s) : Runs z (execPmbusUnsupported code s) := by
  unfold execPmbusUnsupported
  with_reducible repeat' (first | assumption | refine .next ?_ | refine Runs.pmbus (fun _ _ => ?_) ?_ | refine Keeps.unsupported ?_ | split | dsimp only | refine Keeps.mk_ ?_)

theorem Runs.ringWrite {z s : State} {fn : Nat} {r : Nat} {o : Nat} {v : Word} (hk : Keeps z s) : Runs z (State.ringWrite s fn r o v) := by
  unfold State.ringWrite
  with_reducible repeat' (first | assumption | refine .next ?_ | refine Runs.doorbell ?_ | refine Runs.ringFlush ?_ | refine Runs.ringDisable ?_ | refine Keeps.discard ?_ | refine Keeps.setRing ?_ | refine Keeps.openHdrs ?_ | split | dsimp only | refine Keeps.mk_ ?_)

theorem Runs.vfWrite {z s : State} {fn : Nat} {a : Nat} {v : Word} (hk : Keeps z s) : Runs z (State.vfWrite s fn a v) := by
  unfold State.vfWrite
  with_reducible repeat' (first | assumption | refine .next ?_ | refine Runs.ringWrite ?_ | refine Keeps.discard ?_ | refine Keeps.setFn ?_ | split | dsimp only | refine Keeps.mk_ ?_)

theorem Runs.mchkWrite {z s : State} {a : Nat} {v : Word} (hk : Keeps z s) : Runs z (State.mchkWrite s a v) := by
  unfold State.mchkWrite
  with_reducible repeat' (first | assumption | refine .next ?_ | refine Runs.chkPolyWrite ?_ | refine Runs.chkSeed ?_ | refine Keeps.softWrite ?_ | split | dsimp only | refine Keeps.mk_ ?_)

theorem Runs.pertRegWrite {z s : State} {a : Nat} {v : Word} (hk : Keeps z s) : Runs z (State.pertRegWrite s a v) := by
  unfold State.pertRegWrite
  with_reducible repeat' (first | assumption | refine .next ?_ | refine Runs.pertXdlyArm ?_ | refine Runs.pertSlholdArm ?_ | refine Runs.pertFstrArm ?_ | refine Runs.pertTmoArm ?_ | refine Runs.pertMismArm ?_ | refine Runs.pertLock ?_ | refine Keeps.pertWriteB ?_ | refine Keeps.softWrite ?_ | split | dsimp only | refine Keeps.mk_ ?_)

theorem Runs.hubWrite {z s : State} {fn : Nat} {a : Nat} {v : Word} (hk : Keeps z s) : Runs z (State.hubWrite s fn a v) := by
  unfold State.hubWrite
  with_reducible repeat' (first | assumption | refine .next ?_ | refine Runs.pcapWrite ?_ | refine Runs.hubRstCold ?_ | refine Runs.testpackStop ?_ | refine Runs.frmLenWrite ?_ | refine Runs.frmResWrite ?_ | refine Runs.frmPhaseWrite ?_ | refine Runs.mchkWrite ?_ | refine Runs.pertRegWrite ?_ | refine Keeps.discard ?_ | refine Keeps.setFn ?_ | refine Keeps.deriveLanes ?_ | refine Keeps.updEvc ?_ | refine Keeps.softWrite ?_ | refine Keeps.lsrcWrite ?_ | refine Keeps.cdvWrite ?_ | refine Keeps.portWrite ?_ | refine Runs.ite ?_ ?_ | split | dsimp only | refine Keeps.mk_ ?_)

theorem Runs.pfWrite {z s : State} {fn : Nat} {a : Nat} {v : Word} (hk : Keeps z s) : Runs z (State.pfWrite s fn a v) := by
  unfold State.pfWrite
  with_reducible repeat' (first | assumption | refine .next ?_ | refine Runs.ringWrite ?_ | refine Runs.hubWrite ?_ | refine Keeps.discard ?_ | refine Keeps.softWrite ?_ | refine Keeps.regionWrite ?_ | split | dsimp only | refine Keeps.mk_ ?_)

theorem Runs.bar0Write {z s : State} {fn a : Nat} {v : Word} (hk : Keeps z s) : Runs z (State.bar0Write s fn a v) := by
  unfold State.bar0Write
  split
  · exact Runs.pfWrite hk
  · exact Runs.vfWrite hk

theorem Runs.registerWrite {z s : State} {fn addr : Nat} {w : BarWrite} (hk : Keeps z s) :
    Runs z (execRegisterWrite fn addr w s) := by
  unfold execRegisterWrite
  split
  · exact Runs.bar0Write hk
  · split
    · obtain ⟨t, ht, hz⟩ := Runs.bar0Write (fn := fn) (a := addr) (v := w.v.setWidth 32) hk
      rw [ht]
      exact Runs.bar0Write hz
    · exact .next hk

theorem Runs.matrixIssue {z s : State} {blk : Nat} {cyc : Nat} (hk : Keeps z s) : Runs z (execMatrixIssue blk cyc s) := by
  unfold execMatrixIssue
  with_reducible repeat' (first | assumption | refine .next ?_ | refine Keeps.onIssue ?_ | refine Keeps.spendInj ?_ | dsimp only | refine Keeps.mk_ ?_)

theorem Runs.tileOutcome {z s : State} {blk : Nat} {cyc : Nat} {faults : List CellFault} (hk : Keeps z s) : Runs z (execTileOutcome blk cyc faults s) := by
  unfold execTileOutcome
  with_reducible repeat' (first | assumption | refine .next ?_ | refine Keeps.onLive ?_ | dsimp only | refine Keeps.mk_ ?_)

theorem Runs.bankCommandIssue {z s : State} {blk : Nat} {cyc : Nat} (hk : Keeps z s) : Runs z (execBankCommandIssue blk cyc s) := by
  unfold execBankCommandIssue
  with_reducible repeat' (first | assumption | refine .next ?_ | refine Keeps.onIssue ?_ | dsimp only | refine Keeps.mk_ ?_)

theorem Runs.bankCommandDone {z s : State} {blk : Nat} {cyc : Nat} (hk : Keeps z s) : Runs z (execBankCommandDone blk cyc s) := by
  unfold execBankCommandDone
  with_reducible repeat' (first | assumption | refine .next ?_ | refine Keeps.onLive ?_ | dsimp only | refine Keeps.mk_ ?_)

theorem Runs.codebookLoad {z s : State} {blk : Nat} {cyc : Nat} (hk : Keeps z s) : Runs z (execCodebookLoad blk cyc s) := by
  unfold execCodebookLoad
  with_reducible repeat' (first | assumption | refine .next ?_ | refine Keeps.onIssue ?_ | dsimp only | refine Keeps.mk_ ?_)

theorem Runs.lookupLoad {z s : State} {blk : Nat} {cyc : Nat} (hk : Keeps z s) : Runs z (execLookupLoad blk cyc s) := by
  unfold execLookupLoad
  with_reducible repeat' (first | assumption | refine .next ?_ | refine Keeps.onIssue ?_ | dsimp only | refine Keeps.mk_ ?_)

theorem Runs.checkCommand {z s : State} {blk : Nat} {cyc : Nat} (hk : Keeps z s) : Runs z (execCheckCommand blk cyc s) := by
  unfold execCheckCommand
  with_reducible repeat' (first | assumption | refine .next ?_ | refine Keeps.onIssue ?_ | dsimp only | refine Keeps.mk_ ?_)

theorem Runs.checkDone {z s : State} {blk : Nat} {cyc : Nat} (hk : Keeps z s) : Runs z (execCheckDone blk cyc s) := by
  unfold execCheckDone
  with_reducible repeat' (first | assumption | refine .next ?_ | refine Keeps.onLive ?_ | dsimp only | refine Keeps.mk_ ?_)

theorem Runs.stakeDriveCommand {z s : State} {blk : Nat} {cyc : Nat} (hk : Keeps z s) : Runs z (execStakeDriveCommand blk cyc s) := by
  unfold execStakeDriveCommand
  with_reducible repeat' (first | assumption | refine .next ?_ | refine Keeps.onIssue ?_ | dsimp only | refine Keeps.mk_ ?_)

theorem Runs.stakeSight {z s : State} {blk : Nat} {cyc : Nat} (hk : Keeps z s) : Runs z (execStakeSight blk cyc s) := by
  unfold execStakeSight
  with_reducible repeat' (first | assumption | refine .next ?_ | refine Keeps.onIssue ?_ | dsimp only | refine Keeps.mk_ ?_)

theorem Runs.planPoint {z s : State} {blk : Nat} {cyc : Nat} (hk : Keeps z s) : Runs z (execPlanPoint blk cyc s) := by
  unfold execPlanPoint
  with_reducible repeat' (first | assumption | refine .next ?_ | refine Keeps.onIssue ?_ | dsimp only | refine Keeps.mk_ ?_)

theorem Runs.sightTimeout {z s : State} {at_ : WaitAt} (hk : Keeps z s) : Runs z (execSightTimeout at_ s) := by
  unfold execSightTimeout
  with_reducible repeat' (first | assumption | refine .next ?_ | refine Keeps.onLive ?_ | refine Keeps.onLiveRegion ?_ | split | dsimp only | refine Keeps.mk_ ?_)

theorem Runs.driveApplied {z s : State} {at_ : UnitAt} (hk : Keeps z s) : Runs z (execDriveApplied at_ s) := by
  unfold execDriveApplied
  with_reducible repeat' (first | assumption | refine .next ?_ | refine Keeps.onLive ?_ | refine Keeps.onLiveRegion ?_ | split | dsimp only | refine Keeps.mk_ ?_)

theorem Runs.frameTick {z s : State} {bad : List ShadowErr} (hk : Keeps z s) : Runs z (execFrameTick bad s) := by
  unfold execFrameTick
  with_reducible repeat' (first | assumption | refine .next ?_ | refine Keeps.pass ?_ | refine Keeps.tickDeadline ?_ | refine Keeps.realign ?_ | refine Keeps.settle ?_ | refine Keeps.tickZero ?_ | refine Keeps.gap ?_ | split | dsimp only | refine Keeps.mk_ ?_)

/-- Every command runs and keeps. -/
theorem exec_runs (c : Instr) (s : State) : Runs s (exec c s) := by
  cases c with
  | frameTick _ => exact Runs.frameTick (Keeps.refl s)
  | stepTail _ => exact Runs.stepTail (Keeps.refl s)
  | beatStart _ => exact Runs.beatStart (Keeps.refl s)
  | epochEdge _ => exact Runs.epochEdge (Keeps.refl s)
  | frmLenWrite _ => exact Runs.frmLenWrite (Keeps.refl s)
  | frmResWrite _ => exact Runs.frmResWrite (Keeps.refl s)
  | frmPhaseWrite _ => exact Runs.frmPhaseWrite (Keeps.refl s)
  | epochArm _ => exact Runs.epochArm (Keeps.refl s)
  | frmNumLoRead => exact Runs.frmNumLoRead (Keeps.refl s)
  | cutFrameLoRead => exact Runs.cutFrameLoRead (Keeps.refl s)
  | crLastLoRead _ _ => exact Runs.crLastLoRead (Keeps.refl s)
  | evcLoRead _ => exact Runs.evcLoRead (Keeps.refl s)
  | evcSnapLoRead _ => exact Runs.evcSnapLoRead (Keeps.refl s)
  | registerWrite _ _ _ => exact Runs.registerWrite (Keeps.refl s)
  | countClr _ => exact Runs.countClr (Keeps.refl s)
  | tpush _ _ => exact Runs.tpush (Keeps.refl s)
  | tfull _ _ => exact Runs.tfull (Keeps.refl s)
  | trel _ _ => exact Runs.trel (Keeps.refl s)
  | taddrT _ _ => exact Runs.taddrT (Keeps.refl s)
  | taddrF _ _ => exact Runs.taddrF (Keeps.refl s)
  | tfence _ _ => exact Runs.tfence (Keeps.refl s)
  | tframe _ _ => exact Runs.tframe (Keeps.refl s)
  | tcrcB _ _ => exact Runs.tcrcB (Keeps.refl s)
  | tcrcH _ _ => exact Runs.tcrcH (Keeps.refl s)
  | tcrcW _ _ => exact Runs.tcrcW (Keeps.refl s)
  | scalarInstruction _ _ => exact Runs.scalarInstruction (Keeps.refl s)
  | mret _ _ => exact Runs.mret (Keeps.refl s)
  | terrWrite _ _ => exact Runs.terrWrite (Keeps.refl s)
  | slotLoadTimeout _ _ => exact Runs.slotLoadTimeout (Keeps.refl s)
  | coreStart _ _ => exact Runs.coreStart (Keeps.refl s)
  | matrixIssue _ _ => exact Runs.matrixIssue (Keeps.refl s)
  | tileOutcome _ _ _ => exact Runs.tileOutcome (Keeps.refl s)
  | bankCommandIssue _ _ => exact Runs.bankCommandIssue (Keeps.refl s)
  | bankCommandDone _ _ => exact Runs.bankCommandDone (Keeps.refl s)
  | codebookLoad _ _ => exact Runs.codebookLoad (Keeps.refl s)
  | lookupLoad _ _ => exact Runs.lookupLoad (Keeps.refl s)
  | checkCommand _ _ => exact Runs.checkCommand (Keeps.refl s)
  | checkDone _ _ => exact Runs.checkDone (Keeps.refl s)
  | stakeDriveCommand _ _ => exact Runs.stakeDriveCommand (Keeps.refl s)
  | stakeSight _ _ => exact Runs.stakeSight (Keeps.refl s)
  | sightTimeout _ => exact Runs.sightTimeout (Keeps.refl s)
  | planPoint _ _ => exact Runs.planPoint (Keeps.refl s)
  | cbLoad _ _ => exact Runs.cbLoad (Keeps.refl s)
  | cbDrop _ _ => exact Runs.cbDrop (Keeps.refl s)
  | chkPolyWrite _ _ => exact Runs.chkPolyWrite (Keeps.refl s)
  | chkInit _ => exact Runs.chkInit (Keeps.refl s)
  | chkSeed _ _ => exact Runs.chkSeed (Keeps.refl s)
  | inboundWord _ _ _ _ => exact Runs.inboundWord (Keeps.refl s)
  | heldWordWrite _ _ => exact Runs.heldWordWrite (Keeps.refl s)
  | holdWindowExpiry _ _ => exact Runs.holdWindowExpiry (Keeps.refl s)
  | scrubSlot _ _ => exact Runs.scrubSlot (Keeps.refl s)
  | spPwrWrite _ _ => exact Runs.spPwrWrite (Keeps.refl s)
  | transferStart _ _ _ _ => exact Runs.transferStart (Keeps.refl s)
  | requestAccepted _ _ _ _ => exact Runs.requestAccepted (Keeps.refl s)
  | lineLanded _ _ _ _ _ _ => exact Runs.lineLanded (Keeps.refl s)
  | requestAbandon _ _ _ _ _ _ => exact Runs.requestAbandon (Keeps.refl s)
  | storeStreamAccess _ _ _ _ => exact Runs.storeStreamAccess (Keeps.refl s)
  | storeScrub _ _ => exact Runs.storeScrub (Keeps.refl s)
  | patrolScrub _ _ => exact Runs.patrolScrub (Keeps.refl s)
  | memZeroStart _ _ => exact Runs.memZeroStart (Keeps.refl s)
  | zeroFillDone _ _ => exact Runs.zeroFillDone (Keeps.refl s)
  | wordArrival _ _ => exact Runs.wordArrival (Keeps.refl s)
  | marginSample _ _ _ => exact Runs.marginSample (Keeps.refl s)
  | segmentRecal _ _ => exact Runs.segmentRecal (Keeps.refl s)
  | recalDone _ _ _ => exact Runs.recalDone (Keeps.refl s)
  | circuitLockLost _ _ => exact Runs.circuitLockLost (Keeps.refl s)
  | tileReceived _ _ _ => exact Runs.tileReceived (Keeps.refl s)
  | deliveryFull _ _ _ => exact Runs.deliveryFull (Keeps.refl s)
  | storeInTile _ _ _ _ _ => exact Runs.storeInTile (Keeps.refl s)
  | landingTile _ _ => exact Runs.landingTile (Keeps.refl s)
  | driveWordReceived _ => exact Runs.driveWordReceived (Keeps.refl s)
  | driveApplied _ => exact Runs.driveApplied (Keeps.refl s)
  | platLoad _ _ _ => exact Runs.platLoad (Keeps.refl s)
  | platImageReadDone _ => exact Runs.platImageReadDone (Keeps.refl s)
  | platSeal => exact Runs.platSeal (Keeps.refl s)
  | platUnload _ _ _ => exact Runs.platUnload (Keeps.refl s)
  | platCutover _ _ _ => exact Runs.platCutover (Keeps.refl s)
  | cutCancel _ _ _ => exact Runs.cutCancel (Keeps.refl s)
  | cutAcknowledge _ => exact Runs.cutAcknowledge (Keeps.refl s)
  | cutWithdrawal _ => exact Runs.cutWithdrawal (Keeps.refl s)
  | decisionPoint => exact Runs.decisionPoint (Keeps.refl s)
  | laneLock _ _ _ _ _ => exact Runs.laneLock (Keeps.refl s)
  | laneLockLost _ _ _ _ => exact Runs.laneLockLost (Keeps.refl s)
  | shotReceived _ _ _ => exact Runs.shotReceived (Keeps.refl s)
  | replayTimeout _ _ => exact Runs.replayTimeout (Keeps.refl s)
  | sightlineWordEnqueue _ _ _ _ _ => exact Runs.sightlineWordEnqueue (Keeps.refl s)
  | datumTimer _ _ => exact Runs.datumTimer (Keeps.refl s)
  | datumReceived _ _ => exact Runs.datumReceived (Keeps.refl s)
  | frameVoidNotice _ => exact Runs.frameVoidNotice (Keeps.refl s)
  | voidContextReceived _ => exact Runs.voidContextReceived (Keeps.refl s)
  | slSwap _ => exact Runs.slSwap (Keeps.refl s)
  | slReset _ => exact Runs.slReset (Keeps.refl s)
  | lsrcInsert _ _ => exact Runs.lsrcInsert (Keeps.refl s)
  | lsrcRemove _ => exact Runs.lsrcRemove (Keeps.refl s)
  | lsrcFault _ _ => exact Runs.lsrcFault (Keeps.refl s)
  | doorbell _ _ _ => exact Runs.doorbell (Keeps.refl s)
  | itemBegin _ _ _ => exact Runs.itemBegin (Keeps.refl s)
  | nop _ _ _ => exact Runs.nop (Keeps.refl s)
  | stakeDrive _ _ _ => exact Runs.stakeDrive (Keeps.refl s)
  | dmaToDev _ _ _ _ => exact Runs.dmaToDev (Keeps.refl s)
  | dmaFromDev _ _ _ => exact Runs.dmaFromDev (Keeps.refl s)
  | ctxAdmit _ _ _ => exact Runs.ctxAdmit (Keeps.refl s)
  | ctxTeardown _ _ _ => exact Runs.ctxTeardown (Keeps.refl s)
  | testpack _ _ _ _ _ => exact Runs.testpack (Keeps.refl s)
  | itemComplete _ _ => exact Runs.itemComplete (Keeps.refl s)
  | ringFlush _ _ _ => exact Runs.ringFlush (Keeps.refl s)
  | ringDisable _ _ _ _ => exact Runs.ringDisable (Keeps.refl s)
  | bar2Access _ _ _ => exact Runs.bar2Access (Keeps.refl s)
  | fieldBookWrite _ => exact Runs.fieldBookWrite (Keeps.refl s)
  | flr _ => exact Runs.flr (Keeps.refl s)
  | linkDown _ => exact Runs.linkDown (Keeps.refl s)
  | d3hot _ => exact Runs.d3hot (Keeps.refl s)
  | stepCommit _ => exact Runs.stepCommit (Keeps.refl s)
  | idlePllLock _ => exact Runs.idlePllLock (Keeps.refl s)
  | pllLockDeadline _ => exact Runs.pllLockDeadline (Keeps.refl s)
  | regulatorReport _ => exact Runs.regulatorReport (Keeps.refl s)
  | refLost => exact Runs.refLost (Keeps.refl s)
  | refReturn => exact Runs.refReturn (Keeps.refl s)
  | diePllLost _ => exact Runs.diePllLost (Keeps.refl s)
  | regionPllLost _ => exact Runs.regionPllLost (Keeps.refl s)
  | droopTrip _ _ _ => exact Runs.droopTrip (Keeps.refl s)
  | droopClear _ _ _ _ => exact Runs.droopClear (Keeps.refl s)
  | powerSample _ => exact Runs.powerSample (Keeps.refl s)
  | currentWindow _ => exact Runs.currentWindow (Keeps.refl s)
  | controlInterval _ => exact Runs.controlInterval (Keeps.refl s)
  | mainInputLost => exact Runs.mainInputLost (Keeps.refl s)
  | converterFault _ _ => exact Runs.converterFault (Keeps.refl s)
  | phaseLost _ _ _ => exact Runs.phaseLost (Keeps.refl s)
  | fabricPhaseLost _ _ => exact Runs.fabricPhaseLost (Keeps.refl s)
  | phaseTest _ _ _ _ => exact Runs.phaseTest (Keeps.refl s)
  | domainStateRequest _ _ _ => exact Runs.domainStateRequest (Keeps.refl s)
  | ofsWrite _ _ _ => exact Runs.ofsWrite (Keeps.refl s)
  | pcapWrite _ => exact Runs.pcapWrite (Keeps.refl s)
  | ageMeasure _ _ _ => exact Runs.ageMeasure (Keeps.refl s)
  | hoursRecord _ => exact Runs.hoursRecord (Keeps.refl s)
  | pmbusPage _ _ => exact Runs.pmbusPage (Keeps.refl s)
  | pmbusClearFaults _ => exact Runs.pmbusClearFaults (Keeps.refl s)
  | voutMode => exact Runs.voutMode (Keeps.refl s)
  | statusWord => exact Runs.statusWord (Keeps.refl s)
  | statusIout => exact Runs.statusIout (Keeps.refl s)
  | statusInput => exact Runs.statusInput (Keeps.refl s)
  | statusCml => exact Runs.statusCml (Keeps.refl s)
  | readVin => exact Runs.readVin (Keeps.refl s)
  | readIin => exact Runs.readIin (Keeps.refl s)
  | readVout => exact Runs.readVout (Keeps.refl s)
  | readIout => exact Runs.readIout (Keeps.refl s)
  | readTemperature1 => exact Runs.readTemperature1 (Keeps.refl s)
  | readPout => exact Runs.readPout (Keeps.refl s)
  | readPin => exact Runs.readPin (Keeps.refl s)
  | pmbusRevision => exact Runs.pmbusRevision (Keeps.refl s)
  | pmbusUnsupported _ => exact Runs.pmbusUnsupported (Keeps.refl s)
  | powerOn => exact Runs.powerOn (Keeps.refl s)
  | auxInputLost => exact Runs.auxInputLost (Keeps.refl s)
  | coldReset => exact Runs.coldReset (Keeps.refl s)
  | hubRstCold _ => exact Runs.hubRstCold (Keeps.refl s)
  | jtagColdReset => exact Runs.jtagColdReset (Keeps.refl s)
  | stageEnd _ => exact Runs.stageEnd (Keeps.refl s)
  | stageLimit _ => exact Runs.stageLimit (Keeps.refl s)
  | jtagFirmwareLoad _ => exact Runs.jtagFirmwareLoad (Keeps.refl s)
  | mailboxRequest _ _ _ _ => exact Runs.mailboxRequest (Keeps.refl s)
  | crashLogDelivery => exact Runs.crashLogDelivery (Keeps.refl s)
  | regionRecordReceived _ _ => exact Runs.regionRecordReceived (Keeps.refl s)
  | hubRecordReceived _ => exact Runs.hubRecordReceived (Keeps.refl s)
  | suspectClear _ _ => exact Runs.suspectClear (Keeps.refl s)
  | ledgerRelease _ _ => exact Runs.ledgerRelease (Keeps.refl s)
  | retest _ _ => exact Runs.retest (Keeps.refl s)
  | hostFence _ _ => exact Runs.hostFence (Keeps.refl s)
  | ledgerClear _ _ => exact Runs.ledgerClear (Keeps.refl s)
  | testpackRound => exact Runs.testpackRound (Keeps.refl s)
  | testTileDone _ _ _ _ => exact Runs.testTileDone (Keeps.refl s)
  | testpackStop => exact Runs.testpackStop (Keeps.refl s)
  | teardownRequest _ _ => exact Runs.teardownRequest (Keeps.refl s)
  | loadingDone _ => exact Runs.loadingDone (Keeps.refl s)
  | clearingDone _ => exact Runs.clearingDone (Keeps.refl s)
  | evcFreeze _ => exact Runs.evcFreeze (Keeps.refl s)
  | pertXdlyArm _ => exact Runs.pertXdlyArm (Keeps.refl s)
  | pertSlholdArm _ => exact Runs.pertSlholdArm (Keeps.refl s)
  | slHoldStart _ => exact Runs.slHoldStart (Keeps.refl s)
  | slHoldEnd _ _ => exact Runs.slHoldEnd (Keeps.refl s)
  | pertFstrArm _ => exact Runs.pertFstrArm (Keeps.refl s)
  | pertTmoArm _ => exact Runs.pertTmoArm (Keeps.refl s)
  | forcedTimeout _ => exact Runs.forcedTimeout (Keeps.refl s)
  | pertMismArm _ => exact Runs.pertMismArm (Keeps.refl s)
  | pertLock => exact Runs.pertLock (Keeps.refl s)
  | mainInputApplied => exact Runs.mainInputApplied (Keeps.refl s)
  | doubledRefresh _ _ => exact Runs.doubledRefresh (Keeps.refl s)
  | linkUp _ => exact Runs.linkUp (Keeps.refl s)
  | powerStateD0 _ => exact Runs.powerStateD0 (Keeps.refl s)
  | msixVectorUnmask _ _ => exact Runs.msixVectorUnmask (Keeps.refl s)
  | regionControllerFault _ => exact Runs.regionControllerFault (Keeps.refl s)
  | managementPathCut _ => exact Runs.managementPathCut (Keeps.refl s)

/-- Every step runs and keeps, counted from the state without its front command. -/
theorem step_runs (s : State) : Runs { s with pending := s.pending.tail } (step s) := by
  unfold step
  split
  · next h =>
    have : { s with pending := s.pending.tail } = s := by cases s; simp_all
    rw [this]
    exact Runs.next (Keeps.idle (Keeps.refl s))
  · next c rest h =>
    have : { s with pending := s.pending.tail } = { s with pending := rest } := by rw [h]; rfl
    rw [this]
    exact exec_runs c _

end Sys2Proof.Machine
end

