-- ==== Sys2Proof/Laws/Same.lean ====
section
/-!
SUPPORT. What every operation that does not restart the frame counter leaves alone: the frame number (02_the_frame.md R36) and the fuses of
the OTP that requests set (17_bring_up_monument.md R467). One lemma for each operation over the whole state.
-/
namespace Sys2Proof.Machine
set_option linter.unusedTactic false
set_option linter.unreachableTactic false

/-- From `s` to `t` the frame number and the settable fuses stand. -/
structure Same (s t : State) : Prop where
  num : t.frame.num = s.frame.num
  otp : t.otp = s.otp

/-- A state stands for itself. -/
theorem Same.refl (s : State) : Same s s := ⟨rfl, rfl⟩

/-- Standing is transitive. -/
theorem Same.trans {a b c : State} (h : Same a b) (k : Same b c) : Same a c := ⟨k.1.trans h.1, k.2.trans h.2⟩

/-- An update of other parts. -/
theorem Same.mk_ {z s : State} {pending fuse flash mc hub frame pw err ctxs pert tpk plat regions blocks ports fns host msgs freeCtr answer evcs mchk}
    (h : Same z s) (hf : frame.num = s.frame.num) : Same z { pending, fuse, err, ctxs, regions, blocks, ports, fns, host, otp := s.otp, flash, mc, hub, frame, pw, pert, tpk, plat, msgs, freeCtr, answer, evcs, mchk } := ⟨hf.trans h.1, h.2⟩

/-- The same, its reason first. -/
theorem Same.mkr {z s : State} {pending fuse flash mc hub frame pw err ctxs pert tpk plat regions blocks ports fns host msgs freeCtr answer evcs mchk} (hf : frame.num = s.frame.num) (h : Same z s) : Same z { pending, fuse, err, ctxs, regions, blocks, ports, fns, host, otp := s.otp, flash, mc, hub, frame, pw, pert, tpk, plat, msgs, freeCtr, answer, evcs, mchk } := h.mk_ hf
theorem Same.err {z s : State} {e : ErrSt} (h : Same z s) : Same z { s with err := e } := ⟨h.1, h.2⟩

/-- A fold of such steps. -/
theorem Same.foldl {α : Type} {z s : State} {l : List α} {f : State → α → State}
    (hf : ∀ x a, Same z x → Same z (f x a)) (h : Same z s) : Same z (l.foldl f s) := by
  induction l generalizing s with
  | nil => exact h
  | cons a t ih => exact ih (hf s a h)
theorem Same.setCtx {z s : State} {p : Nat} {c : Ctx} (h : Same z s) : Same z (s.setCtx p c) := ⟨h.1, h.2⟩
theorem Same.setRegion {z s : State} {n : Nat} {g : Region} (h : Same z s) : Same z (s.setRegion n g) := by
  unfold State.setRegion; split; exact ⟨h.1, h.2⟩; exact h
theorem Same.setBlock {z s : State} {n : Nat} {g : Block} (h : Same z s) : Same z (s.setBlock n g) := by
  unfold State.setBlock; split; exact ⟨h.1, h.2⟩; exact h
theorem Same.setPort {z s : State} {n : Nat} {g : Port} (h : Same z s) : Same z (s.setPort n g) := by
  unfold State.setPort; split; exact ⟨h.1, h.2⟩; exact h
theorem Same.setFn {z s : State} {n : Nat} {g : Fn} (h : Same z s) : Same z (s.setFn n g) := by
  unfold State.setFn; split; exact ⟨h.1, h.2⟩; exact h
theorem Same.hostWrite {z s : State} {a : Nat} {b : List Byte} (h : Same z s) : Same z (s.hostWrite a b) := ⟨h.1, h.2⟩

theorem Same.wr {z : State} {s : State} {f : Field} {v : Nat} {i : Nat} {j : Nat} (hk : Same z s) : Same z (State.wr s f v i j) := by
  unfold State.wr
  with_reducible repeat' (first | assumption | dsimp only | refine .mk_ ?_ rfl)

theorem Same.set1 {z : State} {s : State} {f : Field} {i : Nat} (hk : Same z s) : Same z (State.set1 s f i) := by
  unfold State.set1
  with_reducible repeat' (first | assumption | refine .wr ?_ | dsimp only | refine .mk_ ?_ rfl)

theorem Same.inc {z : State} {s : State} {c : Field} {sat : Field} {i : Nat} {n : Nat} (hk : Same z s) : Same z (State.inc s c sat i n) := by
  unfold State.inc
  with_reducible repeat' (first | assumption | dsimp only | refine .mk_ ?_ rfl)

theorem Same.incHold {z : State} {s : State} {c : Field} {i : Nat} (hk : Same z s) : Same z (State.incHold s c i) := by
  unfold State.incHold
  with_reducible repeat' (first | assumption | refine .wr ?_ | dsimp only | refine .mk_ ?_ rfl)

theorem Same.discard {z : State} {s : State} {n : Nat} (hk : Same z s) : Same z (State.discard s n) := by
  unfold State.discard
  with_reducible repeat' (first | assumption | refine .inc ?_ | split | dsimp only | refine .mk_ ?_ rfl)

theorem Same.count {z : State} {s : State} {code : Nat} {p : Option Nat} {n : Nat} (hk : Same z s) : Same z (State.count s code p n) := by
  unfold State.count
  with_reducible repeat' (first | assumption | split | dsimp only | refine .mk_ ?_ rfl)

theorem Same.fresh {z : State} {s : State} (hk : Same z s) : Same z (State.fresh s).2 := by
  unfold State.fresh
  with_reducible repeat' (first | assumption | dsimp only | refine .mk_ ?_ rfl)

theorem Same.vector {z : State} {s : State} {fn : Nat} {v : Nat} (hk : Same z s) : Same z (State.vector s fn v) := by
  unfold State.vector
  with_reducible repeat' (first | assumption | refine .setFn ?_ | split | dsimp only | refine .mk_ ?_ rfl)

theorem Same.showVf {z : State} {s : State} {p : Nat} (hk : Same z s) : Same z (State.showVf s p) := by
  unfold State.showVf
  with_reducible repeat' (first | assumption | refine .wr ?_ | refine .setFn ?_ | refine .foldl (fun _ _ _ => ?_) ?_ | split | dsimp only | refine .mk_ ?_ rfl)

theorem Same.pfVector {z : State} {s : State} {f : Field} (hk : Same z s) : Same z (State.pfVector s f) := by
  unfold State.pfVector
  with_reducible repeat' (first | assumption | refine .vector ?_ | refine .foldl (fun _ _ _ => ?_) ?_ | dsimp only | refine .mk_ ?_ rfl)

theorem Same.errVector {z : State} {s : State} {fn : Nat} (hk : Same z s) : Same z (State.errVector s fn) := by
  unfold State.errVector
  with_reducible repeat' (first | assumption | refine .vector ?_ | split | dsimp only | refine .mk_ ?_ rfl)

theorem Same.bookPut {z : State} {s : State} {fn : Nat} {r : BookRec} (hk : Same z s) : Same z (State.bookPut s fn r) := by
  unfold State.bookPut
  with_reducible repeat' (first | assumption | refine .count ?_ | refine .wr ?_ | refine .setFn ?_ | refine .hostWrite ?_ | refine .vector ?_ | split | dsimp only | refine .mk_ ?_ rfl)

theorem Same.bookLost {z : State} {s : State} {fn : Nat} {r : BookRec} (hk : Same z s) : Same z (State.bookLost s fn r) := by
  unfold State.bookLost
  with_reducible repeat' (first | assumption | refine .wr ?_ | refine .setFn ?_ | split | dsimp only | refine .mk_ ?_ rfl)

theorem Same.bookWait {z : State} {s : State} {fn : Nat} {r : BookRec} (hk : Same z s) : Same z (State.bookWait s fn r) := by
  unfold State.bookWait
  split
  · exact Same.err hk
  · split
    · exact Same.bookLost hk
    · split
      · exact Same.bookLost (Same.err hk)
      · exact Same.bookLost hk

theorem Same.announce {z : State} {s : State} {fn : Nat} {r : BookRec} (hk : Same z s) : Same z (State.announce s fn r) := by
  unfold State.announce
  with_reducible repeat' (first | assumption | refine .errVector ?_ | split | dsimp only | refine .mk_ ?_ rfl)

theorem Same.bookGen {z : State} {s : State} {fn : Nat} {r : BookRec} (hk : Same z s) : Same z (State.bookGen s fn r) := by
  unfold State.bookGen
  with_reducible repeat' (first | assumption | refine .setFn ?_ | refine .bookPut ?_ | refine .bookWait ?_ | refine .announce ?_ | split | dsimp only | refine .mk_ ?_ rfl)

theorem Same.bookAll {z : State} {s : State} {r : BookRec} (hk : Same z s) : Same z (State.bookAll s r) := by
  unfold State.bookAll
  with_reducible repeat' (first | assumption | refine .bookGen ?_ | refine .foldl (fun _ _ _ => ?_) ?_ | dsimp only | refine .mk_ ?_ rfl)

theorem Same.bookFlush {z : State} {fn n : Nat} {s : State} (hk : Same z s) : Same z (State.bookFlush fn n s) := by
  induction n generalizing s with
  | zero => exact hk
  | succ n ih =>
    unfold State.bookFlush
    dsimp only
    split
    · exact hk
    · next i _ =>
      split
      · exact hk
      · split
        · exact hk
        · exact ih (Same.bookPut (Same.err hk))

theorem Same.showQ {z : State} {s : State} (hk : Same z s) : Same z (State.showQ s) := by
  unfold State.showQ
  with_reducible repeat' (first | assumption | refine .wr ?_ | dsimp only | refine .mk_ ?_ rfl)

theorem Same.hubQueue {z : State} {s : State} {r : ErrRec} (hk : Same z s) : Same z (State.hubQueue s r) := by
  unfold State.hubQueue
  extract_lets s1 s2 h s3 r3
  have h3 : Same z s3 := Same.foldl (fun _ _ h => Same.errVector h) (Same.count (Same.inc hk))
  have hr : r3.fatal = r.fatal := rfl
  clear_value s3 r3
  split
  · next hf =>
    split
    · next hl => exact Same.showQ (Same.err h3)
    · exact Same.foldl (fun _ _ h => Same.errVector h) (Same.set1 (Same.inc h3))
  · split
    · next hc => exact Same.showQ (Same.err h3)
    · exact Same.foldl (fun _ _ h => Same.errVector h) (Same.inc h3)

theorem Same.raise {z : State} {s : State} {r : ErrRec} (hk : Same z s) : Same z (State.raise s r) :=
  Same.hubQueue (Same.err hk)

theorem Same.cutLanes {z : State} {s : State} {xs : List (Nat × Nat)} (hk : Same z s) : Same z (State.cutLanes s xs) := by
  unfold State.cutLanes
  with_reducible repeat' (first | assumption | refine .setRegion ?_ | refine .foldl (fun _ _ _ => ?_) ?_ | dsimp only | refine .mk_ ?_ rfl)

theorem Same.loseCircuit {z : State} {s : State} {o : Nat} (hk : Same z s) : Same z (State.loseCircuit s o) := by
  unfold State.loseCircuit
  with_reducible repeat' (first | assumption | refine .wr ?_ | refine .set1 ?_ | refine .raise ?_ | refine .cutLanes ?_ | dsimp only | refine .mk_ ?_ rfl)

theorem Same.finish {z : State} {s : State} {r : ItemRef} {status : Nat} {detail : Nat} (hk : Same z s) : Same z (State.finish s r status detail) := by
  unfold State.finish
  with_reducible repeat' (first | assumption | refine .setFn ?_ | split | dsimp only | refine .mk_ ?_ rfl)

theorem Same.finishAll {z : State} {s : State} {rs : List ItemRef} {status : Nat} {detail : Nat} (hk : Same z s) : Same z (State.finishAll s rs status detail) := by
  unfold State.finishAll
  with_reducible repeat' (first | assumption | refine .finish ?_ | refine .foldl (fun _ _ _ => ?_) ?_ | dsimp only | refine .mk_ ?_ rfl)

theorem Same.startClearing {z : State} {s : State} {p : Nat} {ranges : Bool} (hk : Same z s) : Same z (State.startClearing s p ranges) := by
  unfold State.startClearing
  with_reducible repeat' (first | assumption | refine .wr ?_ | refine .setCtx ?_ | split | dsimp only | refine .mk_ ?_ rfl)

theorem Same.teardown {z : State} {s : State} {p : Nat} {cause : Nat} (hk : Same z s) : Same z (State.teardown s p cause) := by
  unfold State.teardown
  with_reducible repeat' (first | assumption | refine .wr ?_ | refine .setCtx ?_ | refine .finish ?_ | refine .startClearing ?_ | split | dsimp only | refine .mk_ ?_ rfl)

theorem Same.tearFor {z : State} {s : State} {r : ErrRec} (hk : Same z s) : Same z (State.tearFor s r) := by
  unfold State.tearFor
  with_reducible repeat' (first | assumption | refine .teardown ?_ | split | dsimp only | refine .mk_ ?_ rfl)

theorem Same.takeEvs {z : State} {s : State} {n : Option Nat} {evs : List (Nat × Option Nat × Nat)} (hk : Same z s) : Same z (State.takeEvs s n evs) := by
  unfold State.takeEvs
  with_reducible repeat' (first | assumption | refine .setRegion ?_ | refine .foldl (fun _ _ _ => ?_) ?_ | split | dsimp only | refine .mk_ ?_ rfl)

theorem Same.putBlock {z : State} {s : State} {blk : Nat} {b : Block} (hk : Same z s) : Same z (State.putBlock s blk b) := by
  unfold State.putBlock
  with_reducible repeat' (first | assumption | refine .discard ?_ | refine .setBlock ?_ | refine .takeEvs ?_ | dsimp only | refine .mk_ ?_ rfl)

theorem Same.onPage {z : State} {s : State} {blk : Nat} {f : Env → Block → Block} (hk : Same z s) : Same z (State.onPage s blk f) := by
  unfold State.onPage
  with_reducible repeat' (first | assumption | refine .putBlock ?_ | refine .discard ?_ | split)

theorem Same.onBlock {z : State} {s : State} {blk : Nat} {cyc : Nat} {f : Env → Block → Block} (hk : Same z s) : Same z (State.onBlock s blk cyc f) := by
  unfold State.onBlock
  with_reducible repeat' (first | assumption | refine .putBlock ?_ | dsimp only | refine .mk_ ?_ rfl)

theorem Same.onLive {z : State} {s : State} {blk : Nat} {cyc : Nat} {f : Env → Block → Block} (hk : Same z s) : Same z (State.onLive s blk cyc f) := by
  unfold State.onLive
  with_reducible repeat' (first | assumption | refine .onBlock ?_ | split | dsimp only | refine .mk_ ?_ rfl)

theorem Same.onIssue {z : State} {s : State} {blk : Nat} {cyc : Nat} {f : Env → Block → Block} (hk : Same z s) : Same z (State.onIssue s blk cyc f) := by
  unfold State.onIssue
  with_reducible repeat' (first | assumption | refine .onLive ?_ | split | dsimp only | refine .mk_ ?_ rfl)

theorem Same.logAppend {z : State} {s : State} {r : LogRec} {ok : Bool} (hk : Same z s) : Same z (State.logAppend s r ok).1 := by
  unfold State.logAppend
  with_reducible repeat' (first | assumption | refine .set1 ?_ | refine .raise ?_ | split | dsimp only | refine .mk_ ?_ rfl)

theorem Same.showField {z : State} {s : State} (hk : Same z s) : Same z (State.showField s) := by
  unfold State.showField
  with_reducible repeat' (first | assumption | refine .wr ?_ | dsimp only | refine .mk_ ?_ rfl)

theorem Same.showQueueDef {z : State} {s : State} {d : Defect} (hk : Same z s) : Same z (State.showQueueDef s d) := by
  unfold State.showQueueDef
  with_reducible repeat' (first | assumption | refine .setRegion ?_ | split | dsimp only)

theorem Same.defects {z : State} {s : State} {ds : List Defect} (hk : Same z s) : Same z (State.defects s ds) := by
  unfold State.defects
  with_reducible repeat' (first | assumption | refine .logAppend ?_ | refine .showField ?_ | refine .foldl (fun _ _ _ => ?_) ?_ | split | dsimp only | refine .mk_ ?_ rfl)

theorem Same.putRegion {z : State} {s : State} {n : Nat} {g : Region} (hk : Same z s) : Same z (State.putRegion s n g) := by
  unfold State.putRegion
  with_reducible repeat' (first | assumption | refine .discard ?_ | refine .setRegion ?_ | refine .teardown ?_ | refine .takeEvs ?_ | refine .defects ?_ | refine .foldl (fun _ _ _ => ?_) ?_ | dsimp only | refine .mk_ ?_ rfl)

theorem Same.onRegion {z : State} {s : State} {n : Nat} {cyc : Nat} {f : REnv → Region → Region} (hk : Same z s) : Same z (State.onRegion s n cyc f) := by
  unfold State.onRegion
  with_reducible repeat' (first | assumption | refine .putRegion ?_ | dsimp only | refine .mk_ ?_ rfl)

theorem Same.onLiveRegion {z : State} {s : State} {n : Nat} {cyc : Nat} {f : REnv → Region → Region} (hk : Same z s) : Same z (State.onLiveRegion s n cyc f) := by
  unfold State.onLiveRegion
  with_reducible repeat' (first | assumption | refine .onRegion ?_ | split | dsimp only | refine .mk_ ?_ rfl)

theorem Same.allRegions {z : State} {s : State} {f : Nat → Region → Region} (hk : Same z s) : Same z (State.allRegions s f) := by
  unfold State.allRegions
  with_reducible repeat' (first | assumption | refine .putRegion ?_ | refine .foldl (fun _ _ _ => ?_) ?_ | dsimp only | refine .mk_ ?_ rfl)

theorem Same.pass {z : State} {s : State} {n : Nat} (hk : Same z s) : Same z (State.pass s n) := by
  unfold State.pass
  with_reducible repeat' (first | assumption | refine .count ?_ | dsimp only | refine .mk_ ?_ rfl)

theorem Same.idle {z : State} {s : State} (hk : Same z s) : Same z (State.idle s) := by
  unfold State.idle
  with_reducible repeat' (first | assumption | refine .pass ?_ | split | dsimp only | refine .mk_ ?_ rfl)

theorem Same.mchkSet {z : State} {s : State} {p : Nat} {c : ChkUnit} (hk : Same z s) : Same z (State.mchkSet s p c) := by
  unfold State.mchkSet
  with_reducible repeat' (first | assumption | refine .wr ?_ | dsimp only | refine .mk_ ?_ rfl)

theorem Same.showPins {z : State} {s : State} (hk : Same z s) : Same z (State.showPins s) := by
  unfold State.showPins
  with_reducible repeat' (first | assumption | refine .wr ?_ | refine .setRegion ?_ | refine .foldl (fun _ _ _ => ?_) ?_ | split | dsimp only | refine .mk_ ?_ rfl)

theorem Same.pinSeg {z : State} {s : State} {n : Nat} {slot : Nat} {q : Nat} {cyc : Nat} {f : Field} {sub : Nat} {inj : Bool} (hk : Same z s) : Same z (State.pinSeg s n slot q cyc f sub inj) := by
  unfold State.pinSeg
  with_reducible repeat' (first | assumption | refine .set1 ?_ | refine .raise ?_ | refine .onRegion ?_ | refine .showPins ?_ | split | dsimp only | refine .mk_ ?_ rfl)

theorem Same.takeLink {z : State} {s : State} {blk cyc src : Nat} (hk : Same z s) : Same z (State.takeLink s blk cyc src).2.2 := by
  unfold State.takeLink
  with_reducible repeat' (first | assumption | refine .setRegion ?_ | refine .setBlock ?_ | split | dsimp only)

theorem Same.arrive {z : State} {s : State} {blk cyc src order sent : Nat} {w : FWord} (hk : Same z s) :
    Same z (State.arrive s blk cyc src order sent w) := by
  unfold State.arrive
  extract_lets seg
  clear_value seg
  split
  · split
    · exact Same.pinSeg hk
    · exact Same.onBlock hk
  · exact Same.onBlock hk

theorem Same.wordInput {z : State} {s : State} {blk cyc src order sent : Nat} {got : Option FWord} (hk : Same z s) :
    Same z (State.wordInput s blk cyc src order sent got) := by
  unfold State.wordInput
  split
  · exact hk
  · extract_lets x w o e
    clear_value e o w
    split
    · exact hk
    · exact Same.arrive (Same.takeLink hk)

theorem Same.wordShore {z : State} {s : State} {die lx cyc : Nat} {got : Option FWord} (hk : Same z s) : Same z (State.wordShore s die lx cyc got) := by
  unfold State.wordShore
  with_reducible repeat' (first | assumption | refine .setBlock ?_ | refine .raise ?_ | split | dsimp only | refine .mk_ ?_ rfl)

theorem Same.edgeOut {z : State} {s : State} {n : Nat} {cyc : Nat} {row : Nat} {w : FWord} (hk : Same z s) : Same z (State.edgeOut s n cyc row w) := by
  unfold State.edgeOut
  with_reducible repeat' (first | assumption | refine .setRegion ?_ | split | dsimp only | refine .mk_ ?_ rfl)

theorem Same.edgeDrop {z : State} {s : State} {n : Nat} {cyc : Nat} {cls : Nat} {sub : Nat} {spec : Nat} (hk : Same z s) : Same z (State.edgeDrop s n cyc cls sub spec) := by
  unfold State.edgeDrop
  with_reducible repeat' (first | assumption | refine .raise ?_ | refine .onRegion ?_ | dsimp only | refine .mk_ ?_ rfl)

theorem Same.wordEdge {z : State} {s : State} {n : Nat} {cyc : Nat} {row : Nat} {got : Option FWord} (hk : Same z s) : Same z (State.wordEdge s n cyc row got) := by
  unfold State.wordEdge
  with_reducible repeat' (first | assumption | refine .setBlock ?_ | refine .edgeOut ?_ | refine .edgeDrop ?_ | split | (intro x; first | (have : Same z x := (by dsimp only [x]; with_reducible repeat' (first | assumption | refine .setBlock ?_ | refine .edgeOut ?_ | refine .edgeDrop ?_ | split | dsimp only | refine .mk_ ?_ rfl)); clear_value x) | clear_value x) | lift_lets | dsimp only | refine .mk_ ?_ rfl)

theorem Same.launch {z : State} {s : State} {blk : Nat} {cyc : Nat} (hk : Same z s) : Same z (State.launch s blk cyc) := by
  unfold State.launch
  with_reducible repeat' (first | assumption | refine .putBlock ?_ | refine .onBlock ?_ | split | dsimp only | refine .mk_ ?_ rfl)

theorem Same.deadlineIn {z : State} {s : State} {n : Nat} {p : Nat} (hk : Same z s) : Same z (State.deadlineIn s n p) := by
  unfold State.deadlineIn
  with_reducible repeat' (first | assumption | refine .onBlock ?_ | refine .onLiveRegion ?_ | refine .foldl (fun _ _ _ => ?_) ?_ | split | dsimp only | refine .mk_ ?_ rfl)

theorem Same.settleJudged {z : State} {s : State} {n : Nat} (hk : Same z s) : Same z (State.settleJudged s n) := by
  unfold State.settleJudged
  with_reducible repeat' (first | assumption | refine .onBlock ?_ | refine .foldl (fun _ _ _ => ?_) ?_ | dsimp only)

theorem Same.overrunRecord {z : State} {s : State} {n : Nat} {p : Nat} (hk : Same z s) : Same z (State.overrunRecord s n p) := by
  unfold State.overrunRecord
  with_reducible repeat' (first | assumption | refine .raise ?_ | refine .onBlock ?_ | refine .onLiveRegion ?_ | refine .foldl (fun _ _ _ => ?_) ?_ | split | dsimp only | refine .mk_ ?_ rfl)

theorem Same.declareIn {z : State} {s : State} {n : Nat} (hk : Same z s) : Same z (State.declareIn s n) := by
  unfold State.declareIn
  with_reducible repeat' (first | assumption | refine .settleJudged ?_ | refine .setCtx ?_ | refine .overrunRecord ?_ | refine .foldl (fun _ _ _ => ?_) ?_ | dsimp only | refine .mk_ ?_ rfl)

theorem Same.rebaseHeld {z : State} {s : State} (hk : Same z s) : Same z (State.rebaseHeld s) := by
  unfold State.rebaseHeld
  with_reducible repeat' (first | assumption | refine .setBlock ?_ | refine .setRegion ?_ | refine .foldl (fun _ _ _ => ?_) ?_ | dsimp only)

theorem Same.tailDeadline {z : State} {s : State} {n : Nat} (hk : Same z s) : Same z (State.tailDeadline s n) := by
  unfold State.tailDeadline
  with_reducible repeat' (first | assumption | refine .deadlineIn ?_ | refine .declareIn ?_ | refine .foldl (fun _ _ _ => ?_) ?_ | dsimp only | refine .mk_ ?_ rfl)

theorem Same.tickDeadline {z : State} {s : State} (hk : Same z s) : Same z (State.tickDeadline s) := by
  unfold State.tickDeadline
  with_reducible repeat' (first | assumption | refine .rebaseHeld ?_ | refine .wr ?_ | refine .onBlock ?_ | refine .allRegions ?_ | refine .deadlineIn ?_ | refine .declareIn ?_ | refine .foldl (fun _ _ _ => ?_) ?_ | split | dsimp only | refine .mk_ ?_ rfl)

theorem Same.tearLoss {z : State} {s : State} {k : Nat} {p : Nat} (hk : Same z s) : Same z (State.tearLoss s k p) := by
  unfold State.tearLoss
  with_reducible repeat' (first | assumption | refine .wr ?_ | refine .setCtx ?_ | refine .teardown ?_ | split | dsimp only | refine .mk_ ?_ rfl)

theorem Same.loseRegions {z : State} {s : State} {cause : Nat} {roots : List Nat} (hk : Same z s) :
    Same z (State.loseRegions s cause roots) := by
  unfold State.loseRegions
  extract_lets new s1 r s2 k e0 s3
  have h1 : Same z s1 := by
    dsimp only [s1]
    exact Same.foldl (fun _ _ h => Same.setRegion h) hk
  clear_value s1
  have h2 : Same z s2 := Same.raise h1
  clear_value s2
  have h3 : Same z s3 := Same.err h2
  clear_value s3
  split
  · exact hk
  · exact Same.foldl (fun _ _ h => Same.tearLoss h) h3

theorem Same.aer {z : State} {s : State} {fn : Nat} {k : Nat} (hk : Same z s) : Same z (State.aer s fn k) := by
  unfold State.aer
  with_reducible repeat' (first | assumption | refine .setFn ?_ | dsimp only | refine .mk_ ?_ rfl)

theorem Same.placeRead {z : State} {s : State} {o : Nat} {n : Nat} (hk : Same z s) : Same z (State.placeRead s o n).1 := by
  unfold State.placeRead
  with_reducible repeat' (first | assumption | refine .putRegion ?_ | refine .onRegion ?_ | refine .foldl (fun _ _ _ => ?_) ?_ | split | dsimp only | refine .mk_ ?_ rfl)

theorem Same.placeWrite {z : State} {s : State} {o : Nat} {bs : List Byte} (hk : Same z s) : Same z (State.placeWrite s o bs) := by
  unfold State.placeWrite
  with_reducible repeat' (first | assumption | refine .onRegion ?_ | split | dsimp only | refine .mk_ ?_ rfl)

theorem Same.hostStore {z : State} {s : State} {fn : Nat} {o : Nat} {bs : List Byte} (hk : Same z s) : Same z (State.hostStore s fn o bs) := by
  unfold State.hostStore
  with_reducible repeat' (first | assumption | refine .discard ?_ | refine .aer ?_ | refine .placeWrite ?_ | refine .foldl (fun _ _ _ => ?_) ?_ | split | dsimp only | refine .mk_ ?_ rfl)

theorem Same.setRing {z : State} {s : State} {fn : Nat} {r : Nat} {x : Ring} (hk : Same z s) : Same z (State.setRing s fn r x) := by
  unfold State.setRing
  with_reducible repeat' (first | assumption | refine .setFn ?_ | split | dsimp only | refine .mk_ ?_ rfl)

theorem Same.ringError {z : State} {s : State} {fn : Nat} {r : Nat} {code : Nat} (hk : Same z s) : Same z (State.ringError s fn r code) := by
  unfold State.ringError
  with_reducible repeat' (first | assumption | refine .wr ?_ | refine .errVector ?_ | refine .setRing ?_ | dsimp only | refine .mk_ ?_ rfl)

theorem Same.hostDrive {z : State} {s : State} {fn : Nat} {id : Nat} {region : Nat} {blk : Nat} {inc : Nat} {void : Bool} (hk : Same z s) : Same z (State.hostDrive s fn id region blk inc void).1 := by
  unfold State.hostDrive
  with_reducible repeat' (first | assumption | refine .inc ?_ | refine .onBlock ?_ | refine .onRegion ?_ | split | dsimp only | refine .mk_ ?_ rfl)

theorem Same.platVec {z : State} {old : State} {s : State} (hk : Same z s) : Same z (State.platVec old s) := by
  unfold State.platVec
  with_reducible repeat' (first | assumption | refine .pfVector ?_ | split | dsimp only | refine .mk_ ?_ rfl)

theorem Same.install {z : State} {s : State} {p : Plat} {old : Option Plat} (hk : Same z s) : Same z (State.install s p old) := by
  unfold State.install
  with_reducible repeat' (first | assumption | refine .wr ?_ | refine .setRegion ?_ | refine .setBlock ?_ | refine .foldl (fun _ _ _ => ?_) ?_ | split | dsimp only | refine .mk_ ?_ rfl)

theorem Same.deriveLanes {z : State} {s : State} (hk : Same z s) : Same z (State.deriveLanes s) := by
  unfold State.deriveLanes
  with_reducible repeat' (first | assumption | refine .wr ?_ | refine .launch ?_ | refine .foldl (fun _ _ _ => ?_) ?_ | split | dsimp only | refine .mk_ ?_ rfl)

theorem Same.installLanes {z : State} {s : State} (hk : Same z s) : Same z (State.installLanes s) := by
  unfold State.installLanes
  with_reducible repeat' (first | assumption | refine .wr ?_ | refine .deriveLanes ?_ | refine .foldl (fun _ _ _ => ?_) ?_ | split | dsimp only | refine .mk_ ?_ rfl)

theorem Same.adoptMaps {z : State} {s : State} (hk : Same z s) : Same z (State.adoptMaps s) := by
  unfold State.adoptMaps
  with_reducible repeat' (first | assumption | refine .wr ?_ | refine .setRegion ?_ | refine .setBlock ?_ | refine .foldl (fun _ _ _ => ?_) ?_ | split | dsimp only | refine .mk_ ?_ rfl)

theorem Same.adoptFrame {z : State} {s : State} (hk : Same z s) : Same z (State.adoptFrame s) := by
  unfold State.adoptFrame
  with_reducible repeat' (first | assumption | refine .wr ?_ | refine .set1 ?_ | split | dsimp only | refine .mk_ ?_ rfl)

theorem Same.wrHash {z : State} {s : State} {f : Field} {h : List Word} (hk : Same z s) : Same z (State.wrHash s f h) := by
  unfold State.wrHash
  with_reducible repeat' (first | assumption | refine .wr ?_ | refine .foldl (fun _ _ _ => ?_) ?_ | dsimp only | refine .mk_ ?_ rfl)

theorem Same.clearShadow {z : State} {s : State} (hk : Same z s) : Same z (State.clearShadow s) := by
  unfold State.clearShadow
  with_reducible repeat' (first | assumption | refine .wr ?_ | refine .setRegion ?_ | refine .foldl (fun _ _ _ => ?_) ?_ | dsimp only | refine .mk_ ?_ rfl)

theorem Same.cutAbandon {z : State} {s : State} {reason : Nat} (hk : Same z s) : Same z (State.cutAbandon s reason) := by
  unfold State.cutAbandon
  with_reducible repeat' (first | assumption | refine .wr ?_ | refine .set1 ?_ | refine .raise ?_ | refine .finish ?_ | refine .wrHash ?_ | refine .clearShadow ?_ | split | dsimp only | refine .mk_ ?_ rfl)

theorem Same.transferOne {z : State} {old s : State} {t : TransferRec} (hk : Same z s) : Same z (State.transferOne old s t) := by
  unfold State.transferOne
  with_reducible repeat' (first | assumption | refine .setBlock ?_ | refine .onBlock ?_ | refine .setRegion ?_ | split | dsimp only | refine .mk_ ?_ rfl)

theorem Same.newLegs {z : State} {s : State} {recs : List TransferRec} {o p : Plat} {f : Nat} (hk : Same z s) : Same z (State.newLegs s recs o p f) := by
  unfold State.newLegs
  with_reducible repeat' (first | assumption | refine .setRegion ?_ | refine .setBlock ?_ | refine .foldl (fun _ _ _ => ?_) ?_ | split | dsimp only | refine .mk_ ?_ rfl)

theorem Same.adoptBring {z : State} {s : State} {m : BringMap} (hk : Same z s) : Same z (State.adoptBring s m) := by
  unfold State.adoptBring
  with_reducible repeat' (first | assumption | refine .setRegion ?_ | refine .setBlock ?_ | refine .foldl (fun _ _ _ => ?_) ?_ | split | dsimp only | refine .mk_ ?_ rfl)

theorem Same.switchPlat {z : State} {s : State} (hk : Same z s) : Same z (State.switchPlat s) := by
  unfold State.switchPlat
  with_reducible repeat' (first | assumption | refine .installLanes ?_ | refine .wr ?_ | refine .set1 ?_ | refine .finish ?_ | refine .install ?_ | refine .adoptMaps ?_ | refine .adoptFrame ?_ | refine .wrHash ?_ | refine .clearShadow ?_ | refine .transferOne ?_ | refine .newLegs ?_ | refine .foldl (fun _ _ _ => ?_) ?_ | split | dsimp only | refine .mk_ ?_ rfl)

theorem Same.activatePlat {z : State} {s : State} (hk : Same z s) : Same z (State.activatePlat s) := by
  unfold State.activatePlat
  with_reducible repeat' (first | assumption | refine .wr ?_ | refine .setRegion ?_ | refine .onLiveRegion ?_ | refine .showPins ?_ | refine .installLanes ?_ | refine .adoptMaps ?_ | refine .adoptFrame ?_ | refine .foldl (fun _ _ _ => ?_) ?_ | split | dsimp only | refine .mk_ ?_ rfl)

theorem Same.unloadPlat {z : State} {s : State} (hk : Same z s) : Same z (State.unloadPlat s) := by
  unfold State.unloadPlat
  with_reducible repeat' (first | assumption | refine .wr ?_ | refine .finishAll ?_ | refine .wrHash ?_ | split | dsimp only | refine .mk_ ?_ rfl)

theorem Same.rejectPlat {z : State} {s : State} {l : LoadSt} {r : Rej} (hk : Same z s) : Same z (State.rejectPlat s l r) := by
  unfold State.rejectPlat
  with_reducible repeat' (first | assumption | refine .wr ?_ | refine .set1 ?_ | refine .finish ?_ | split | dsimp only | refine .mk_ ?_ rfl)

theorem Same.putPort {z : State} {s : State} {port : Nat} {p : Port} (hk : Same z s) : Same z (State.putPort s port p) := by
  unfold State.putPort
  with_reducible repeat' (first | assumption | refine .setPort ?_ | refine .pfVector ?_ | refine .raise ?_ | refine .takeEvs ?_ | refine .foldl (fun _ _ _ => ?_) ?_ | split | dsimp only | refine .mk_ ?_ rfl)

theorem Same.onPort {z : State} {s : State} {port : Nat} {t : Nat} {f : PEnv → Port → Port} (hk : Same z s) : Same z (State.onPort s port t f) := by
  unfold State.onPort
  with_reducible repeat' (first | assumption | refine .putPort ?_ | dsimp only | refine .mk_ ?_ rfl)

theorem Same.voidNotice {z : State} {s : State} {port : Nat} {p : Nat} {n : Nat} (hk : Same z s) : Same z (State.voidNotice s port p n) := by
  unfold State.voidNotice
  with_reducible repeat' (first | assumption | refine .wr ?_ | refine .raise ?_ | refine .onRegion ?_ | refine .onPort ?_ | refine .foldl (fun _ _ _ => ?_) ?_ | split | dsimp only | refine .mk_ ?_ rfl)

theorem Same.darken {z : State} {s : State} {k : Nat} (hk : Same z s) : Same z (State.darken s k) := by
  unfold State.darken
  with_reducible repeat' (first | assumption | refine .wr ?_ | refine .loseCircuit ?_ | refine .onPort ?_ | refine .foldl (fun _ _ _ => ?_) ?_ | split | dsimp only | refine .mk_ ?_ rfl)

theorem Same.light {z : State} {s : State} {k : Nat} (hk : Same z s) : Same z (State.light s k) := by
  unfold State.light
  with_reducible repeat' (first | assumption | refine .wr ?_ | refine .foldl (fun _ _ _ => ?_) ?_ | dsimp only | refine .mk_ ?_ rfl)

theorem Same.finishLoading {z : State} {s : State} {p : Nat} (hk : Same z s) : Same z (State.finishLoading s p) := by
  unfold State.finishLoading
  with_reducible repeat' (first | assumption | refine .setCtx ?_ | refine .setBlock ?_ | refine .foldl (fun _ _ _ => ?_) ?_ | split | dsimp only | refine .mk_ ?_ rfl)

theorem Same.startCtx {z : State} {s : State} {p : Nat} (hk : Same z s) : Same z (State.startCtx s p) := by
  unfold State.startCtx
  with_reducible repeat' (first | assumption | refine .wr ?_ | refine .setCtx ?_ | refine .setRegion ?_ | refine .setBlock ?_ | refine .showVf ?_ | refine .raise ?_ | refine .finish ?_ | refine .foldl (fun _ _ _ => ?_) ?_ | split | dsimp only | refine .mk_ ?_ rfl)

theorem Same.showEsc {z : State} {s : State} (hk : Same z s) : Same z (State.showEsc s) :=
  Same.wr (Same.err hk)

theorem Same.abortItems {z : State} {s : State} (hk : Same z s) : Same z (State.abortItems s) := by
  unfold State.abortItems
  with_reducible repeat' (first | assumption | refine .setFn ?_ | refine .foldl (fun _ _ _ => ?_) ?_ | split | dsimp only | refine .mk_ ?_ rfl)

theorem Same.enterOos {z : State} {s : State} (hk : Same z s) : Same z (State.enterOos s) := by
  unfold State.enterOos
  with_reducible repeat' (first | assumption | refine .wr ?_ | refine .set1 ?_ | refine .showVf ?_ | refine .errVector ?_ | refine .raise ?_ | refine .teardown ?_ | refine .platVec ?_ | refine .cutAbandon ?_ | refine .abortItems ?_ | refine .foldl (fun _ _ _ => ?_) ?_ | split | dsimp only | refine .mk_ ?_ rfl)

theorem Same.escalate {z : State} {s : State} {n : Nat} (hk : Same z s) : Same z (State.escalate s n) := by
  unfold State.escalate
  split
  · exact hk
  · extract_lets e0 s1 s2
    have h2 : Same z s2 := Same.wr (Same.showEsc (Same.err hk))
    split
    · exact Same.enterOos h2
    · exact h2

theorem Same.fenceStop {z : State} {s : State} {p : Nat} (hk : Same z s) : Same z (State.fenceStop s p) := by
  unfold State.fenceStop
  with_reducible repeat' (first | assumption | refine .setBlock ?_ | refine .foldl (fun _ _ _ => ?_) ?_ | split | dsimp only | refine .mk_ ?_ rfl)

theorem Same.fence {z : State} {s : State} {p : Nat} (hk : Same z s) : Same z (State.fence s p) := by
  unfold State.fence
  with_reducible repeat' (first | assumption | refine .wr ?_ | refine .setCtx ?_ | refine .setRegion ?_ | refine .setBlock ?_ | refine .setPort ?_ | refine .raise ?_ | refine .foldl (fun _ _ _ => ?_) ?_ | split | dsimp only | refine .mk_ ?_ rfl)

theorem Same.voidContexts {z : State} {s : State} {p : Nat} {ports : List Nat} (hk : Same z s) : Same z (State.voidContexts s p ports) := by
  unfold State.voidContexts
  with_reducible repeat' (first | assumption | refine .onPort ?_ | refine .foldl (fun _ _ _ => ?_) ?_ | dsimp only | refine .mk_ ?_ rfl)

theorem Same.endTeardown {z : State} {s : State} {p : Nat} (hk : Same z s) : Same z (State.endTeardown s p) := by
  unfold State.endTeardown
  with_reducible repeat' (first | assumption | refine .set1 ?_ | refine .setCtx ?_ | refine .showVf ?_ | refine .raise ?_ | refine .finishAll ?_ | refine .startClearing ?_ | dsimp only | refine .mk_ ?_ rfl)

theorem Same.finishClearing {z : State} {s : State} {p : Nat} (hk : Same z s) : Same z (State.finishClearing s p) := by
  unfold State.finishClearing
  with_reducible repeat' (first | assumption | refine .wr ?_ | refine .setCtx ?_ | refine .setRegion ?_ | refine .setBlock ?_ | refine .foldl (fun _ _ _ => ?_) ?_ | split | dsimp only | refine .mk_ ?_ rfl)

theorem Same.driveEntries {z : State} {fn : Nat} {x : Item} {l : List Nat} {s : State} {t : Option Nat} (hk : Same z s) :
    Same z (State.driveEntries fn x l s t).1 := by
  induction l generalizing s t with
  | nil => exact hk
  | cons i rest ih =>
    unfold State.driveEntries
    dsimp only
    split
    · exact ih hk
    · exact ih (Same.hostDrive hk)

theorem Same.fnReset {z : State} {s : State} {fn : Nat} (hk : Same z s) : Same z (State.fnReset s fn) := by
  unfold State.fnReset
  extract_lets e0 s1 s2
  have h2 : Same z s2 :=
    Same.setFn (Same.err hk)
  clear_value s2
  split
  · exact h2
  · exact Same.showVf h2

theorem Same.settleDomain {z : State} {s : State} {n : Nat} {k : Nat} {cyc : Nat} (hk : Same z s) : Same z (State.settleDomain s n k cyc) := by
  unfold State.settleDomain
  with_reducible repeat' (first | assumption | refine .onBlock ?_ | refine .foldl (fun _ _ _ => ?_) ?_ | dsimp only | refine .mk_ ?_ rfl)

theorem Same.settleNow {z : State} {s : State} {n k : Nat} (hk : Same z s) : Same z (State.settleNow s n k) := by
  unfold State.settleNow
  with_reducible repeat' (first | assumption | refine .settleDomain ?_ | dsimp only)

theorem Same.putRate {z : State} {s : State} {n k : Nat} {g : Region} (hk : Same z s) : Same z (State.putRate s n k g) := by
  unfold State.putRate
  with_reducible repeat' (first | assumption | refine .setRegion ?_ | refine .settleNow ?_ | split | dsimp only)

theorem Same.setDom {z : State} {s : State} {d : Nat} {x : DomSt} (hk : Same z s) : Same z (State.setDom s d x) := by
  unfold State.setDom
  with_reducible repeat' (first | assumption | dsimp only | refine .mk_ ?_ rfl)

theorem Same.noteRate {z : State} {s : State} {n : Nat} {k : Nat} (hk : Same z s) : Same z (State.noteRate s n k) := by
  unfold State.noteRate
  with_reducible repeat' (first | assumption | refine .setDom ?_ | dsimp only | refine .mk_ ?_ rfl)

theorem Same.setCeil {z : State} {s : State} {f : Field} {n : Nat} {k : Nat} {v : Nat} (hk : Same z s) : Same z (State.setCeil s f n k v) := by
  unfold State.setCeil
  with_reducible repeat' (first | assumption | refine .putRate ?_ | refine .wr ?_ | refine .setRegion ?_ | refine .noteRate ?_ | dsimp only | refine .mk_ ?_ rfl)

theorem Same.showPower {z : State} {s : State} (hk : Same z s) : Same z (State.showPower s) := by
  unfold State.showPower
  with_reducible repeat' (first | assumption | refine .wr ?_ | split | dsimp only | refine .mk_ ?_ rfl)

theorem Same.darkBlocks {z : State} {s : State} {n : Nat} {k : Nat} (hk : Same z s) : Same z (State.darkBlocks s n k) := by
  unfold State.darkBlocks
  with_reducible repeat' (first | assumption | refine .setBlock ?_ | refine .foldl (fun _ _ _ => ?_) ?_ | dsimp only | refine .mk_ ?_ rfl)

theorem Same.domBoundary {z : State} {s : State} {n : Nat} {k : Nat} (hk : Same z s) : Same z (State.domBoundary s n k) := by
  unfold State.domBoundary
  with_reducible repeat' (first | assumption | refine .wr ?_ | refine .setRegion ?_ | refine .setBlock ?_ | refine .onRegion ?_ | refine .foldl (fun _ _ _ => ?_) ?_ | split | dsimp only | refine .mk_ ?_ rfl)

theorem Same.vidBoundary {z : State} {s : State} {n : Nat} {k : Nat} (hk : Same z s) : Same z (State.vidBoundary s n k) := by
  unfold State.vidBoundary
  with_reducible repeat' (first | assumption | refine .wr ?_ | refine .setRegion ?_ | refine .onRegion ?_ | refine .setDom ?_ | split | dsimp only | refine .mk_ ?_ rfl)

theorem Same.govStop {z : State} {s : State} (hk : Same z s) : Same z (State.govStop s) := by
  unfold State.govStop
  with_reducible repeat' (first | assumption | refine .wr ?_ | split | dsimp only | refine .mk_ ?_ rfl)

theorem Same.mainIn {z : State} {s : State} (hk : Same z s) : Same z (State.mainIn s) := by
  unfold State.mainIn
  with_reducible repeat' (first | assumption | refine .wr ?_ | split | dsimp only | refine .mk_ ?_ rfl)

theorem Same.allDoms {z : State} {s : State} {f : State → Nat → Nat → State} (hf : ∀ (x : State) (y0 : Nat) (y1 : Nat), Same z x → Same z (f x y0 y1)) (hk : Same z s) : Same z (State.allDoms s f) := by
  unfold State.allDoms
  with_reducible repeat' (first | assumption | refine hf _ _ _ ?_ | refine .foldl (fun _ _ _ => ?_) ?_ | dsimp only | refine .mk_ ?_ rfl)

theorem Same.noFill {z : State} {s : State} (hk : Same z s) : Same z (State.noFill s) := by
  unfold State.noFill
  with_reducible repeat' (first | assumption | refine .wr ?_ | refine .setRegion ?_ | refine .allDoms (fun _ _ _ _ => ?_) ?_ | dsimp only | refine .mk_ ?_ rfl)

theorem Same.govOff {z : State} {s : State} (hk : Same z s) : Same z (State.govOff s) := by
  unfold State.govOff
  with_reducible repeat' (first | assumption | refine .wr ?_ | refine .setCeil ?_ | refine .allDoms (fun _ _ _ _ => ?_) ?_ | refine .noFill ?_ | dsimp only | refine .mk_ ?_ rfl)

theorem Same.endForced {z : State} {s : State} (hk : Same z s) : Same z (State.endForced s) := by
  unfold State.endForced
  with_reducible repeat' (first | assumption | refine .raise ?_ | refine .foldl (fun _ _ _ => ?_) ?_ | split | dsimp only | refine .mk_ ?_ rfl)

theorem Same.keepE {z : State} {s : State} {m : Meas} (hk : Same z s) : Same z (State.keepE s m) := by
  unfold State.keepE
  with_reducible repeat' (first | assumption | refine .setDom ?_ | refine .foldl (fun _ _ _ => ?_) ?_ | split | dsimp only | refine .mk_ ?_ rfl)

theorem Same.enterForced {z : State} {s : State} {p : Nat} {why : List Nat} (hk : Same z s) : Same z (State.enterForced s p why) := by
  unfold State.enterForced
  with_reducible repeat' (first | assumption | refine .wr ?_ | refine .set1 ?_ | refine .inc ?_ | split | dsimp only | refine .mk_ ?_ rfl)

theorem Same.descend {z : State} {s : State} (hk : Same z s) : Same z (State.descend s) := by
  unfold State.descend
  with_reducible repeat' (first | assumption | refine .wr ?_ | refine .noFill ?_ | refine .endForced ?_ | split | dsimp only | refine .mk_ ?_ rfl)

theorem Same.capStep {z : State} {s : State} (hk : Same z s) : Same z (State.capStep s) := by
  unfold State.capStep
  with_reducible repeat' (first | assumption | split | dsimp only | refine .mk_ ?_ rfl)

theorem Same.govern {z : State} {s : State} {p : Nat} (hk : Same z s) : Same z (State.govern s p) := by
  unfold State.govern
  with_reducible repeat' (first | assumption | refine .wr ?_ | refine .govOff ?_ | refine .endForced ?_ | refine .enterForced ?_ | refine .descend ?_ | split | dsimp only | refine .mk_ ?_ rfl)

theorem Same.showGrade {z : State} {s : State} {f : Nat} {h : Nat} (hk : Same z s) : Same z (State.showGrade s f h) := by
  unfold State.showGrade
  with_reducible repeat' (first | assumption | refine .wr ?_ | dsimp only | refine .mk_ ?_ rfl)

theorem Same.sampleRegs {z : State} {s : State} {m : Meas} (hk : Same z s) : Same z (State.sampleRegs s m) := by
  unfold State.sampleRegs
  with_reducible repeat' (first | assumption | refine .wr ?_ | refine .setRegion ?_ | refine .allDoms (fun _ _ _ _ => ?_) ?_ | refine .foldl (fun _ _ _ => ?_) ?_ | dsimp only | refine .mk_ ?_ rfl)

theorem Same.sampleInput {z : State} {s : State} {m : Meas} (hk : Same z s) : Same z (State.sampleInput s m) := by
  unfold State.sampleInput
  with_reducible repeat' (first | assumption | refine .wr ?_ | refine .set1 ?_ | refine .raise ?_ | refine .mainIn ?_ | split | dsimp only | refine .mk_ ?_ rfl)

theorem Same.thermRegion {z : State} {s : State} {m : Meas} {n : Nat} (hk : Same z s) : Same z (State.thermRegion s m n) := by
  unfold State.thermRegion
  with_reducible repeat' (first | assumption | refine .wr ?_ | refine .set1 ?_ | refine .setRegion ?_ | refine .raise ?_ | refine .setDom ?_ | refine .setCeil ?_ | refine .foldl (fun _ _ _ => ?_) ?_ | split | (intro x; first | (have : Same z x := (by dsimp only [x]; with_reducible repeat' (first | assumption | refine .wr ?_ | refine .set1 ?_ | refine .setRegion ?_ | refine .raise ?_ | refine .setDom ?_ | refine .setCeil ?_ | refine .foldl (fun _ _ _ => ?_) ?_ | split | dsimp only | refine .mk_ ?_ rfl)); clear_value x) | clear_value x) | lift_lets | dsimp only | refine .mk_ ?_ rfl)

theorem Same.sampleTherm {z : State} {s : State} {m : Meas} (hk : Same z s) : Same z (State.sampleTherm s m) := by
  unfold State.sampleTherm
  with_reducible repeat' (first | assumption | refine .wr ?_ | refine .set1 ?_ | refine .raise ?_ | refine .thermRegion ?_ | refine .foldl (fun _ _ _ => ?_) ?_ | split | dsimp only | refine .mk_ ?_ rfl)

theorem Same.sampleCurrent {z : State} {s : State} (hk : Same z s) : Same z (State.sampleCurrent s) := by
  unfold State.sampleCurrent
  with_reducible repeat' (first | assumption | refine .setRegion ?_ | refine .setDom ?_ | refine .allDoms (fun _ _ _ _ => ?_) ?_ | refine .foldl (fun _ _ _ => ?_) ?_ | split | dsimp only | refine .mk_ ?_ rfl)

theorem Same.sampleGrade {z : State} {s : State} {m : Meas} (hk : Same z s) : Same z (State.sampleGrade s m) := by
  unfold State.sampleGrade
  with_reducible repeat' (first | assumption | refine .idle ?_ | refine .keepE ?_ | refine .capStep ?_ | refine .govern ?_ | refine .showGrade ?_ | refine .foldl (fun _ _ _ => ?_) ?_ | split | dsimp only | refine .mk_ ?_ rfl)

theorem Same.boostRegion {z : State} {s : State} {m : Meas} {n : Nat} (hk : Same z s) : Same z (State.boostRegion s m n) := by
  unfold State.boostRegion
  with_reducible repeat' (first | assumption | refine .setRegion ?_ | refine .foldl (fun _ _ _ => ?_) ?_ | split | dsimp only | refine .mk_ ?_ rfl)

theorem Same.nextSample {z : State} {s : State} (hk : Same z s) : Same z (State.nextSample s) := by
  unfold State.nextSample
  with_reducible repeat' (first | assumption | refine .setDom ?_ | refine .noteRate ?_ | refine .allDoms (fun _ _ _ _ => ?_) ?_ | dsimp only | refine .mk_ ?_ rfl)

theorem Same.lowerQi {z : State} {s : State} {n : Nat} {k : Nat} (hk : Same z s) : Same z (State.lowerQi s n k) := by
  unfold State.lowerQi
  with_reducible repeat' (first | assumption | refine .onRegion ?_ | refine .setDom ?_ | refine .setCeil ?_ | split | dsimp only | refine .mk_ ?_ rfl)

theorem Same.capLoop {z : State} {s : State} {e : Nat} (hk : Same z s) : Same z (State.capLoop s e) := by
  unfold State.capLoop
  extract_lets x0 move
  have hm : ∀ up, Same z (move up) := fun up => by
    dsimp only [move, x0]
    exact Same.mkr rfl (Same.foldl (fun _ _ h => Same.setCeil h) hk)
  clear_value move
  split
  · exact hm _
  · split
    · exact hm _
    · exact hk

theorem Same.gradeAt {z : State} {s : State} {up : Bool} {d : Nat} (hk : Same z s) : Same z (State.gradeAt s up d) := by
  unfold State.gradeAt
  with_reducible repeat' (first | assumption | refine .wr ?_ | refine .setRegion ?_ | refine .setCeil ?_ | split | dsimp only | refine .mk_ ?_ rfl)

theorem Same.gradeLoop {z : State} {s : State} {e : Nat} (hk : Same z s) : Same z (State.gradeLoop s e) := by
  unfold State.gradeLoop
  extract_lets st g cnt x0 move
  have hm : ∀ up, Same z (move up) := fun up => by
    dsimp only [move, x0]
    exact Same.mkr rfl (Same.foldl (fun _ _ h => Same.gradeAt h) hk)
  clear_value move
  split
  · exact hk
  · split
    · exact hm _
    · split
      · exact hm _
      · exact hk

theorem Same.softStart {z : State} {s : State} {n : Nat} {k : Nat} (hk : Same z s) : Same z (State.softStart s n k) := by
  unfold State.softStart
  with_reducible repeat' (first | assumption | refine .onRegion ?_ | refine .setDom ?_ | refine .noteRate ?_ | refine .foldl (fun _ _ _ => ?_) ?_ | split | dsimp only | refine .mk_ ?_ rfl)

theorem Same.phaseTest {z : State} {s : State} {n : Nat} {k : Nat} {ph : Nat} {pass : Bool} (hk : Same z s) : Same z (State.phaseTest s n k ph pass) := by
  unfold State.phaseTest
  with_reducible repeat' (first | assumption | refine .onRegion ?_ | refine .pass ?_ | refine .setDom ?_ | split | dsimp only | refine .mk_ ?_ rfl)

theorem Same.pcapWrite {z : State} {s : State} {v : Word} (hk : Same z s) : Same z (State.pcapWrite s v) := by
  unfold State.pcapWrite
  with_reducible repeat' (first | assumption | refine .wr ?_ | split | dsimp only | refine .mk_ ?_ rfl)

theorem Same.loadFuses {z : State} {s : State} (hk : Same z s) : Same z (State.loadFuses s) := by
  unfold State.loadFuses
  with_reducible repeat' (first | assumption | refine .wr ?_ | refine .showField ?_ | refine .foldl (fun _ _ _ => ?_) ?_ | split | dsimp only | refine .mk_ ?_ rfl)

theorem Same.halt {z : State} {s : State} {code : Nat} (hk : Same z s) : Same z (State.halt s code) := by
  unfold State.halt
  with_reducible repeat' (first | assumption | refine .wr ?_ | refine .set1 ?_ | dsimp only | refine .mk_ ?_ rfl)

theorem Same.lostAtStart {z : State} {s : State} {n : Nat} (hk : Same z s) : Same z (State.lostAtStart s n) := by
  unfold State.lostAtStart
  with_reducible repeat' (first | assumption | refine .wr ?_ | refine .setRegion ?_ | dsimp only | refine .mk_ ?_ rfl)

theorem Same.stageRec {z : State} {s : State} {cls : Nat} {sub : Nat} {n : Nat} {pblk : Nat} {specific : Nat} (hk : Same z s) : Same z (State.stageRec s cls sub n pblk specific) := by
  unfold State.stageRec
  with_reducible repeat' (first | assumption | refine .raise ?_ | split | dsimp only | refine .mk_ ?_ rfl)

theorem Same.loseAt {z : State} {s : State} {cls : Nat} {sub : Nat} {ns : List Nat} (hk : Same z s) : Same z (State.loseAt s cls sub ns) := by
  unfold State.loseAt
  with_reducible repeat' (first | assumption | refine .lostAtStart ?_ | refine .stageRec ?_ | refine .foldl (fun _ _ _ => ?_) ?_ | split | dsimp only | refine .mk_ ?_ rfl)

theorem Same.anyLeft {z : State} {s : State} (hk : Same z s) : Same z (State.anyLeft s) := by
  unfold State.anyLeft
  with_reducible repeat' (first | assumption | refine .halt ?_ | split | dsimp only | refine .mk_ ?_ rfl)

theorem Same.bringMap {z : State} {s : State} (hk : Same z s) : Same z (State.bringMap s) := by
  unfold State.bringMap
  with_reducible repeat' (first | assumption | refine .wr ?_ | refine .setRegion ?_ | refine .setBlock ?_ | refine .foldl (fun _ _ _ => ?_) ?_ | split | dsimp only | refine .mk_ ?_ rfl)

theorem Same.endStage1 {z : State} {s : State} (hk : Same z s) : Same z (State.endStage1 s) := by
  unfold State.endStage1
  with_reducible repeat' (first | assumption | refine .foldl (fun _ _ _ => ?_) ?_ | refine .raise ?_ | refine .mainIn ?_ | refine .halt ?_ | split | dsimp only | refine .mk_ ?_ rfl)

theorem Same.softStartRest {z : State} {s : State} {r : StageResult} {n : Nat} {k : Nat} (hk : Same z s) : Same z (State.softStartRest s r n k) := by
  unfold State.softStartRest
  with_reducible repeat' (first | assumption | refine .softStart ?_ | refine .phaseTest ?_ | refine .foldl (fun _ _ _ => ?_) ?_ | split | dsimp only | refine .mk_ ?_ rfl)

theorem Same.loadAges {z : State} {s : State} (hk : Same z s) : Same z (State.loadAges s) := by
  unfold State.loadAges
  with_reducible repeat' (first | assumption | refine .wr ?_ | refine .setRegion ?_ | refine .foldl (fun _ _ _ => ?_) ?_ | split | dsimp only | refine .mk_ ?_ rfl)

theorem Same.endStage3 {z : State} {s : State} {r : StageResult} (hk : Same z s) : Same z (State.endStage3 s r) := by
  unfold State.endStage3
  with_reducible repeat' (first | assumption | refine .wr ?_ | refine .set1 ?_ | refine .setRegion ?_ | refine .defects ?_ | refine .allDoms (fun _ _ _ _ => ?_) ?_ | refine .stageRec ?_ | refine .loseAt ?_ | refine .anyLeft ?_ | refine .bringMap ?_ | refine .softStartRest ?_ | refine .loadAges ?_ | refine .foldl (fun _ _ _ => ?_) ?_ | split | dsimp only | refine .mk_ ?_ rfl)

theorem Same.endStage4 {z : State} {s : State} {r : StageResult} (hk : Same z s) : Same z (State.endStage4 s r) := by
  unfold State.endStage4
  with_reducible repeat' (first | assumption | refine .wr ?_ | refine .set1 ?_ | refine .light ?_ | refine .foldl (fun _ _ _ => ?_) ?_ | split | dsimp only | refine .mk_ ?_ rfl)

theorem Same.katFail {z : State} {s : State} {k : KatFail} (hk : Same z s) : Same z (State.katFail s k) := by
  unfold State.katFail
  with_reducible repeat' (first | assumption | refine .wr ?_ | refine .defects ?_ | refine .stageRec ?_ | split | dsimp only | refine .mk_ ?_ rfl)

theorem Same.katRegion {z : State} {s : State} {x : Nat × Bool} (hk : Same z s) : Same z (State.katRegion s x) := by
  unfold State.katRegion
  with_reducible repeat' (first | assumption | refine .wr ?_ | refine .stageRec ?_ | refine .loseAt ?_ | split | dsimp only | refine .mk_ ?_ rfl)

theorem Same.broadcast {z : State} {s : State} (hk : Same z s) : Same z (State.broadcast s) := by
  unfold State.broadcast
  with_reducible repeat' (first | assumption | refine .setRegion ?_ | refine .setBlock ?_ | refine .foldl (fun _ _ _ => ?_) ?_ | split | dsimp only)

theorem Same.endStage5 {z : State} {s : State} {r : StageResult} (hk : Same z s) : Same z (State.endStage5 s r) := by
  unfold State.endStage5
  with_reducible repeat' (first | assumption | refine .broadcast ?_ | refine .wr ?_ | refine .set1 ?_ | refine .halt ?_ | refine .stageRec ?_ | refine .anyLeft ?_ | refine .bringMap ?_ | refine .katFail ?_ | refine .katRegion ?_ | refine .foldl (fun _ _ _ => ?_) ?_ | split | dsimp only | refine .mk_ ?_ rfl)

theorem Same.blockBeat0 {z : State} {s : State} {gap : Nat} {k : Nat} (hk : Same z s) : Same z (State.blockBeat0 s gap k) := by
  unfold State.blockBeat0
  with_reducible repeat' (first | assumption | refine .setBlock ?_ | refine .putBlock ?_ | refine .foldl (fun _ _ _ => ?_) ?_ | split | dsimp only | refine .mk_ ?_ rfl)

theorem Same.coreOf {z : State} {s : State} {blk : Nat} {cyc : Nat} {kind : Rv → Bool} (hk : Same z s) : Same z (State.coreOf s blk cyc kind) := by
  unfold State.coreOf
  with_reducible repeat' (first | assumption | refine .onLive ?_ | split | dsimp only | refine .mk_ ?_ rfl)

theorem Same.packBoundary {z : State} {s : State} (hk : Same z s) : Same z (State.packBoundary s) := by
  unfold State.packBoundary
  with_reducible repeat' (first | assumption | refine .wr ?_ | split | dsimp only | refine .mk_ ?_ rfl)

theorem Same.checkEdge {z : State} {s : State} (hk : Same z s) : Same z (State.checkEdge s) := by
  unfold State.checkEdge
  with_reducible repeat' (first | assumption | refine .wr ?_ | refine .set1 ?_ | refine .raise ?_ | split | dsimp only | refine .mk_ ?_ rfl)

theorem Same.realign {z : State} {s : State} {n : Nat} (hk : Same z s) : Same z (State.realign s n) := by
  unfold State.realign
  with_reducible repeat' (first | assumption | refine .wr ?_ | refine .allRegions ?_ | refine .platVec ?_ | refine .cutAbandon ?_ | split | dsimp only | refine .mk_ ?_ rfl)

theorem Same.updEvc {z : State} {s : State} {f : Evc → Evc} {a0 : CtrAt} (hk : Same z s) : Same z (State.updEvc s f a0) := by
  unfold State.updEvc
  with_reducible repeat' (first | assumption | refine .setRegion ?_ | refine .setBlock ?_ | split | dsimp only | refine .mk_ ?_ rfl)

theorem Same.tickEvcs {z : State} {s : State} (hk : Same z s) : Same z (State.tickEvcs s) := by
  unfold State.tickEvcs
  with_reducible repeat' (first | assumption | refine .wr ?_ | refine .setRegion ?_ | refine .setBlock ?_ | refine .foldl (fun _ _ _ => ?_) ?_ | split | dsimp only | refine .mk_ ?_ rfl)

theorem Same.pertWrite {z : State} {s : State} {k : Nat} {v : Word} (hk : Same z s) : Same z (State.pertWrite s k v) := by
  unfold State.pertWrite
  with_reducible repeat' (first | assumption | refine .wr ?_ | refine .discard ?_ | refine .foldl (fun _ _ _ => ?_) ?_ | split | dsimp only | refine .mk_ ?_ rfl)

theorem Same.pertWriteB {z : State} {s : State} {k : Nat} {fs : List Field} {v : Word} (hk : Same z s) : Same z (State.pertWriteB s k fs v) := by
  unfold State.pertWriteB
  with_reducible repeat' (first | assumption | refine .wr ?_ | refine .discard ?_ | refine .foldl (fun _ _ _ => ?_) ?_ | split | dsimp only | refine .mk_ ?_ rfl)

theorem Same.forcedDone {z : State} {s : State} (hk : Same z s) : Same z (State.forcedDone s) := by
  unfold State.forcedDone
  with_reducible repeat' (first | assumption | refine .wr ?_ | dsimp only | refine .mk_ ?_ rfl)

theorem Same.hubClr {z : State} {s : State} {addr : Nat} (hk : Same z s) : Same z (State.hubClr s addr) := by
  unfold State.hubClr
  with_reducible repeat' (first | assumption | refine .wr ?_ | refine .foldl (fun _ _ _ => ?_) ?_ | split | dsimp only | refine .mk_ ?_ rfl)

theorem Same.nameF {z : State} {s : State} {l : LoadSt} {o : Plat} {p : Plat} {f : Nat} (hk : Same z s) : Same z (State.nameF s l o p f) := by
  unfold State.nameF
  with_reducible repeat' (first | assumption | refine .wr ?_ | refine .wrHash ?_ | split | dsimp only | refine .mk_ ?_ rfl)

theorem Same.showArmed {z : State} {s : State} (hk : Same z s) : Same z (State.showArmed s) := by
  unfold State.showArmed
  with_reducible repeat' (first | assumption | refine .wr ?_ | split | dsimp only | refine .mk_ ?_ rfl)

theorem Same.ownF {z : State} {s : State} {revert : Bool} (hk : Same z s) : Same z (State.ownF s revert).2 := by
  unfold State.ownF
  with_reducible repeat' (first | assumption | refine .fresh ?_ | split | dsimp only | refine .mk_ ?_ rfl)

theorem Same.startArming {z : State} {s : State} {l : LoadSt} {o : Plat} {p : Plat} (hk : Same z s) : Same z (State.startArming s l o p) := by
  unfold State.startArming
  with_reducible repeat' (first | assumption | refine .wr ?_ | refine .clearShadow ?_ | refine .nameF ?_ | refine .showArmed ?_ | refine .ownF ?_ | split | dsimp only | refine .mk_ ?_ rfl)

theorem Same.reply {z : State} {s : State} {n : Nat} {v : Nat} (hk : Same z s) : Same z (State.reply s n v) := by
  unfold State.reply
  with_reducible repeat' (first | assumption | dsimp only | refine .mk_ ?_ rfl)

theorem Same.unsupported {z : State} {s : State} (hk : Same z s) : Same z (State.unsupported s) := by
  unfold State.unsupported
  with_reducible repeat' (first | assumption | dsimp only | refine .mk_ ?_ rfl)

theorem Same.openHdrs {z : State} {s : State} {n : Nat} (hk : Same z s) : Same z (State.openHdrs s n).2 := by
  unfold State.openHdrs
  with_reducible repeat' (first | assumption | dsimp only | refine .mk_ ?_ rfl)

theorem Same.softWrite {z : State} {s : State} {a : Nat} {v : Word} (hk : Same z s) : Same z (State.softWrite s a v) := by
  unfold State.softWrite
  with_reducible repeat' (first | assumption | refine .discard ?_ | refine .hubClr ?_ | split | dsimp only | refine .mk_ ?_ rfl)

theorem Same.lsrcWrite {z : State} {s : State} {k : Nat} {v : Word} (hk : Same z s) : Same z (State.lsrcWrite s k v) := by
  unfold State.lsrcWrite
  with_reducible repeat' (first | assumption | refine .wr ?_ | refine .set1 ?_ | refine .fresh ?_ | refine .darken ?_ | refine .light ?_ | refine .softWrite ?_ | split | dsimp only | refine .mk_ ?_ rfl)

theorem Same.cdvWrite {z : State} {s : State} {a : Nat} {v : Word} (hk : Same z s) : Same z (State.cdvWrite s a v) := by
  unfold State.cdvWrite
  with_reducible repeat' (first | assumption | refine .discard ?_ | refine .softWrite ?_ | split | dsimp only | refine .mk_ ?_ rfl)

theorem Same.portWrite {z : State} {s : State} {k : Nat} {o : Nat} {v : Word} (hk : Same z s) : Same z (State.portWrite s k o v) := by
  unfold State.portWrite
  with_reducible repeat' (first | assumption | refine .discard ?_ | refine .onPort ?_ | split | dsimp only | refine .mk_ ?_ rfl)

theorem Same.regionWrite {z : State} {s : State} {n : Nat} {o : Nat} {v : Word} (hk : Same z s) : Same z (State.regionWrite s n o v) := by
  unfold State.regionWrite
  with_reducible repeat' (first | assumption | refine .discard ?_ | refine .putBlock ?_ | refine .onRegion ?_ | split | dsimp only | refine .mk_ ?_ rfl)

theorem Same.spendInj {z : State} {s : State} {hits : Nat} (hk : Same z s) : Same z (State.spendInj s hits) := by
  unfold State.spendInj
  with_reducible repeat' (first | assumption | refine .wr ?_ | split | dsimp only | refine .mk_ ?_ rfl)

theorem Same.settle {z : State} {s : State} (hk : Same z s) : Same z (State.settle s) := by
  unfold State.settle
  with_reducible repeat' (first | assumption | refine .onLive ?_ | refine .foldl (fun _ _ _ => ?_) ?_ | dsimp only | refine .mk_ ?_ rfl)

theorem Same.voidTiles {z : State} {s : State} {n : Nat} {p : Nat} (hk : Same z s) : Same z (State.voidTiles s n p) := by
  unfold State.voidTiles
  with_reducible repeat' (first | assumption | refine .onBlock ?_ | refine .onLiveRegion ?_ | refine .foldl (fun _ _ _ => ?_) ?_ | split | dsimp only | refine .mk_ ?_ rfl)

theorem Same.rollOver {z : State} {s : State} {n : Nat} {p : Nat} {overran : Bool} (hk : Same z s) : Same z (State.rollOver s n p overran) := by
  unfold State.rollOver
  with_reducible repeat' (first | assumption | refine .onBlock ?_ | refine .onLiveRegion ?_ | refine .foldl (fun _ _ _ => ?_) ?_ | dsimp only | refine .mk_ ?_ rfl)

theorem Same.standInsEnd {z : State} {s : State} {n : Nat} (hk : Same z s) : Same z (State.standInsEnd s n) := by
  unfold State.standInsEnd
  with_reducible repeat' (first | assumption | refine .setBlock ?_ | refine .onLiveRegion ?_ | refine .foldl (fun _ _ _ => ?_) ?_ | split | dsimp only | refine .mk_ ?_ rfl)

theorem Same.shadowErr {z : State} {s : State} {x : ShadowErr} (hk : Same z s) : Same z (State.shadowErr s x) := by
  unfold State.shadowErr
  with_reducible repeat' (first | assumption | refine .set1 ?_ | refine .setRegion ?_ | refine .raise ?_ | refine .loseRegions ?_ | split | dsimp only | refine .mk_ ?_ rfl)

theorem Same.portsOn {z : State} {s : State} (hk : Same z s) : Same z (State.portsOn s) := by
  unfold State.portsOn
  with_reducible repeat' (first | assumption | refine .wr ?_ | refine .onPort ?_ | refine .foldl (fun _ _ _ => ?_) ?_ | split | dsimp only | refine .mk_ ?_ rfl)

theorem Same.showDecl {z : State} {s : State} (hk : Same z s) : Same z (State.showDecl s) := by
  unfold State.showDecl
  with_reducible repeat' (first | assumption | refine .setPort ?_ | refine .foldl (fun _ _ _ => ?_) ?_ | dsimp only)

theorem Same.platStep {z : State} {s : State} {bad : List ShadowErr} (hk : Same z s) : Same z (State.platStep s bad) := by
  unfold State.platStep
  with_reducible repeat' (first | assumption | refine .adoptBring ?_ | refine .showDecl ?_ | refine .platVec ?_ | refine .adoptMaps ?_ | refine .adoptFrame ?_ | refine .cutAbandon ?_ | refine .switchPlat ?_ | refine .activatePlat ?_ | refine .unloadPlat ?_ | refine .shadowErr ?_ | refine .portsOn ?_ | refine .foldl (fun _ _ _ => ?_) ?_ | split | dsimp only | refine .mk_ ?_ rfl)

theorem Same.loseStep {z : State} {s : State} {ns : List Nat} (hk : Same z s) : Same z (State.loseStep s ns) := by
  unfold State.loseStep
  with_reducible repeat' (first | assumption | refine .wr ?_ | refine .setRegion ?_ | refine .loseCircuit ?_ | refine .showPins ?_ | refine .onPort ?_ | refine .foldl (fun _ _ _ => ?_) ?_ | split | dsimp only | refine .mk_ ?_ rfl)

theorem Same.granuleStep {z : State} {s : State} (hk : Same z s) : Same z (State.granuleStep s) := by
  unfold State.granuleStep
  with_reducible repeat' (first | assumption | refine .setBlock ?_ | refine .foldl (fun _ _ _ => ?_) ?_ | split | dsimp only | refine .mk_ ?_ rfl)

theorem Same.pertStart {z : State} {s : State} {k : Nat} (hk : Same z s) : Same z (State.pertStart s k) := by
  unfold State.pertStart
  with_reducible repeat' (first | assumption | refine .setBlock ?_ | refine .foldl (fun _ _ _ => ?_) ?_ | split | dsimp only | refine .mk_ ?_ rfl)

theorem Same.pertStop {z : State} {s : State} {k : Nat} (hk : Same z s) : Same z (State.pertStop s k) := by
  unfold State.pertStop
  extract_lets e0 s1 q
  have h1 : Same z s1 := Same.mkr rfl hk
  split
  · exact Same.onPort h1
  · exact h1

theorem Same.stretchStep {z : State} {s : State} (hk : Same z s) : Same z (State.stretchStep s) := by
  unfold State.stretchStep
  with_reducible repeat' (first | assumption | refine .wr ?_ | refine .pertStop ?_ | split | dsimp only | refine .mk_ ?_ rfl)

theorem Same.pertStep {z : State} {s : State} {oos : Bool} (hk : Same z s) : Same z (State.pertStep s oos) := by
  unfold State.pertStep
  with_reducible repeat' (first | assumption | refine .wr ?_ | refine .set1 ?_ | refine .pertStart ?_ | refine .pertStop ?_ | refine .stretchStep ?_ | refine .foldl (fun _ _ _ => ?_) ?_ | split | dsimp only | refine .mk_ ?_ rfl)

theorem Same.restartSend {z : State} {s : State} {leg : Nat} {fresh : Nat} (hk : Same z s) : Same z (State.restartSend s leg fresh) := by
  unfold State.restartSend
  with_reducible repeat' (first | assumption | refine .fresh ?_ | refine .setRegion ?_ | refine .setBlock ?_ | refine .foldl (fun _ _ _ => ?_) ?_ | split | dsimp only | refine .mk_ ?_ rfl)

theorem Same.joinLegs {z : State} {s : State} {q : Nat} {fresh : Nat} (hk : Same z s) : Same z (State.joinLegs s q fresh) := by
  unfold State.joinLegs
  with_reducible repeat' (first | assumption | refine .fresh ?_ | refine .setRegion ?_ | refine .restartSend ?_ | refine .foldl (fun _ _ _ => ?_) ?_ | split | dsimp only | refine .mk_ ?_ rfl)

theorem Same.portStep {z : State} {s : State} (hk : Same z s) : Same z (State.portStep s) := by
  unfold State.portStep
  with_reducible repeat' (first | assumption | refine .putPort ?_ | refine .onPort ?_ | refine .joinLegs ?_ | refine .foldl (fun _ _ _ => ?_) ?_ | dsimp only | refine .mk_ ?_ rfl)

theorem Same.changeStep {z : State} {s : State} {fenced : List Nat} {lost : List Nat} (hk : Same z s) : Same z (State.changeStep s fenced lost) := by
  unfold State.changeStep
  with_reducible repeat' (first | assumption | refine .onLiveRegion ?_ | refine .startCtx ?_ | refine .escalate ?_ | refine .fence ?_ | refine .domBoundary ?_ | refine .vidBoundary ?_ | refine .allDoms (fun _ _ _ _ => ?_) ?_ | refine .packBoundary ?_ | refine .loseStep ?_ | refine .granuleStep ?_ | refine .pertStep ?_ | refine .portStep ?_ | refine .foldl (fun _ _ _ => ?_) ?_ | dsimp only | refine .mk_ ?_ rfl)

theorem Same.writeStatus {z : State} {s : State} {r : RelBuf} {b : Nat} {frame : Nat} {status : Nat} (hk : Same z s) : Same z (State.writeStatus s r b frame status) := by
  unfold State.writeStatus
  with_reducible repeat' (first | assumption | refine .onLiveRegion ?_ | split | dsimp only | refine .mk_ ?_ rfl)

theorem Same.release {z : State} {s : State} {n : Nat} {status : Nat} {r : RelBuf} (hk : Same z s) : Same z (State.release s n status r) := by
  unfold State.release
  with_reducible repeat' (first | assumption | refine .writeStatus ?_ | dsimp only | refine .mk_ ?_ rfl)

theorem Same.streakStep {z : State} {s : State} {p : Nat} {status : Nat} (hk : Same z s) : Same z (State.streakStep s p status) := by
  unfold State.streakStep
  with_reducible repeat' (first | assumption | refine .setCtx ?_ | refine .teardown ?_ | split | dsimp only | refine .mk_ ?_ rfl)

theorem Same.commit {z : State} {s : State} {t : State} {x : Ended} {p : Nat} (hk : Same z s) : Same z (State.commit s t x p) := by
  unfold State.commit
  with_reducible repeat' (first | assumption | refine .incHold ?_ | refine .bookAll ?_ | refine .onPort ?_ | refine .release ?_ | refine .streakStep ?_ | refine .foldl (fun _ _ _ => ?_) ?_ | split | dsimp only | refine .mk_ ?_ rfl)

theorem Same.notJoined {z : State} {s : State} {x : Ended} (hk : Same z s) : Same z (State.notJoined s x) := by
  unfold State.notJoined
  with_reducible repeat' (first | assumption | refine .voidNotice ?_ | refine .foldl (fun _ _ _ => ?_) ?_ | split | dsimp only | refine .mk_ ?_ rfl)

theorem Same.commitStep {z : State} {s : State} {t : State} {x : Ended} {mark : Bool} (hk : Same z s) : Same z (State.commitStep s t x mark) := by
  unfold State.commitStep
  with_reducible repeat' (first | assumption | refine .incHold ?_ | refine .showVf ?_ | refine .bookAll ?_ | refine .voidContexts ?_ | refine .endTeardown ?_ | refine .commit ?_ | refine .notJoined ?_ | refine .foldl (fun _ _ _ => ?_) ?_ | dsimp only | refine .mk_ ?_ rfl)

theorem Same.clockStep {z : State} {s : State} (hk : Same z s) : Same z (State.clockStep s) := by
  unfold State.clockStep
  with_reducible repeat' (first | assumption | refine .set1 ?_ | refine .putRegion ?_ | refine .showPower ?_ | refine .foldl (fun _ _ _ => ?_) ?_ | split | dsimp only | refine .mk_ ?_ rfl)

theorem Same.newFrame {z : State} {s : State} (hk : Same z s) : Same z (State.newFrame s) := by
  unfold State.newFrame
  with_reducible repeat' (first | assumption | refine .wr ?_ | refine .setCtx ?_ | refine .setRegion ?_ | refine .setBlock ?_ | refine .foldl (fun _ _ _ => ?_) ?_ | split | dsimp only | refine .mk_ ?_ rfl)

theorem Same.gap {z : State} {t : State} {x : Ended} {lost : List Nat} {bad : List ShadowErr} {s : State} (hk : Same z s) : Same z (State.gap t x lost bad s) := by
  unfold State.gap
  with_reducible repeat' (first | assumption | refine .wr ?_ | refine .set1 ?_ | refine .count ?_ | refine .setRegion ?_ | refine .fenceStop ?_ | refine .tickEvcs ?_ | refine .voidTiles ?_ | refine .rollOver ?_ | refine .standInsEnd ?_ | refine .platStep ?_ | refine .changeStep ?_ | refine .commitStep ?_ | refine .clockStep ?_ | refine .newFrame ?_ | refine .foldl (fun _ _ _ => ?_) ?_ | split | dsimp only | refine .mk_ ?_ rfl)

theorem Same.frmNumLo {z : State} {s : State} (hk : Same z s) : Same z (State.frmNumLo s).1 := Same.mk_ hk rfl
theorem Same.cutFrameLo {z : State} {s : State} (hk : Same z s) : Same z (State.cutFrameLo s).1 := Same.mk_ hk rfl
theorem Same.crLastLo {z : State} {s : State} {fn r : Nat} (hk : Same z s) : Same z (State.crLastLo s fn r).1 := Same.setRing hk
theorem Same.evcLo {z : State} {s : State} {c : CtrAt} (hk : Same z s) : Same z (State.evcLo s c).1 := Same.updEvc hk
theorem Same.evcSnapLo {z : State} {s : State} {c : CtrAt} (hk : Same z s) : Same z (State.evcSnapLo s c).1 := Same.updEvc hk
theorem Same.slipDomain {z : State} {s : State} {n k cyc skipped : Nat} (hk : Same z s) : Same z (State.slipDomain s n k cyc skipped) := by
  unfold State.slipDomain
  exact Same.foldl (fun _ _ h => Same.onBlock h) hk

end Sys2Proof.Machine
end

