-- ==== Sys2Proof/Laws/Stays.lean ====
section
/-!
SUPPORT. Which meanings leave the frame number and the settable fuses alone: one lemma for each meaning that neither ends a frame nor loses
the rails nor resets nor carries out a signed request.
-/
namespace Sys2Proof.Machine

set_option linter.unusedTactic false
set_option linter.unreachableTactic false

/-- The outcome is a next state, and to it the frame number and the settable fuses stand. -/
def Stays (z : State) (o : Host.Outcome State Fault Refusal) : Prop := ∃ t, o = .next t ∧ Same z t

/-- A next state that keeps. -/
theorem Stays.next {z t : State} (h : Same z t) : Stays z (.next t) := ⟨t, rfl, h⟩

/-- A host read keeps. -/
theorem Same.hostLoad {z : State} {s : State} {fn o n : Nat} (hk : Same z s) : Same z (State.hostLoad s fn o n).s := by
  unfold State.hostLoad
  have : ∀ (l : List (Nat × Nat)) (r : HostRead), Same z r.s → Same z (l.foldl (fun (r : HostRead) c =>
      if r.s.judge fn c.1 = 0 then
        let x := r.s.placeRead c.1 c.2
        { r with s := if x.2.2 then x.1.aer fn 1 else x.1, got := r.got ++ [(c.1, x.2.1)]
                 ans := r.ans ++ [if x.2.2 then .poisoned x.2.1 else .data x.2.1]
                 bad := if x.2.2 && r.bad.isNone then some (c.1 - o) else r.bad }
      else { r with s := (r.s.discard).aer fn 0, ans := r.ans ++ [.unsupported] }) r).s := by
    intro l
    induction l with
    | nil => exact fun _ h => h
    | cons c l ih =>
      intro r hr
      refine ih _ ?_
      by_cases hj : r.s.judge fn c.1 = 0
      · simp only [hj, if_true]
        cases (r.s.placeRead c.1 c.2).2.2
        · exact Same.placeRead hr
        · exact Same.aer (Same.placeRead hr)
      · simp only [hj, if_false]
        exact Same.aer (Same.discard hr)
  exact this _ _ hk

/-- A PMBus exchange. -/
theorem Stays.pmbus {z s : State} {f : State → State} (hf : ∀ x, Same z x → Same z (f x)) (hk : Same z s) :
    Stays z (s.pmbus f) := by
  unfold State.pmbus
  refine .next ?_
  split
  · exact hf s hk
  · exact Same.mkr rfl hk

/-- A PMBus write. -/
theorem Stays.pmbusWrite {z s : State} {pec : Option Bool} {f : State → State} (hf : ∀ x, Same z x → Same z (f x))
    (hk : Same z s) : Stays z (s.pmbusWrite pec f) := by
  unfold State.pmbusWrite
  refine Stays.pmbus (fun x hx => ?_) hk
  split
  · exact hf x hx
  · split
    · exact Same.mkr rfl hx
    · exact hx

/-- Either branch runs. -/
theorem Stays.ite {z : State} {p : Prop} [Decidable p] {a b : Host.Outcome State Fault Refusal} (ha : Stays z a) (hb : Stays z b) :
    Stays z (if p then a else b) := by
  split
  · exact ha
  · exact hb

theorem Stays.cbLoad {z s : State} {blk : Nat} {i : Nat} (hk : Same z s) : Stays z (execCbLoad blk i s) := by
  unfold execCbLoad
  with_reducible repeat' (first | assumption | refine Same.onPage ?_ | refine .next ?_ | refine Same.wr ?_ | refine Same.discard ?_ | refine Same.onLive ?_ | split | dsimp only | refine Same.mk_ ?_ rfl)

theorem Stays.cbDrop {z s : State} {blk : Nat} {i : Nat} (hk : Same z s) : Stays z (execCbDrop blk i s) := by
  unfold execCbDrop
  with_reducible repeat' (first | assumption | refine Same.onPage ?_ | refine .next ?_ | refine Same.wr ?_ | refine Same.discard ?_ | refine Same.onLive ?_ | split | dsimp only | refine Same.mk_ ?_ rfl)

theorem Stays.chkPolyWrite {z s : State} {at_ : ChkAt} {p : Nat} (hk : Same z s) : Stays z (execChkPolyWrite at_ p s) := by
  unfold execChkPolyWrite
  with_reducible repeat' (first | assumption | refine Same.onPage ?_ | refine .next ?_ | refine Same.onLive ?_ | refine Same.mchkSet ?_ | split | dsimp only | refine Same.mk_ ?_ rfl)

theorem Stays.chkInit {z s : State} {at_ : ChkAt} (hk : Same z s) : Stays z (execChkInit at_ s) := by
  unfold execChkInit
  with_reducible repeat' (first | assumption | refine Same.onPage ?_ | refine .next ?_ | refine Same.onLive ?_ | refine Same.mchkSet ?_ | split | dsimp only | refine Same.mk_ ?_ rfl)

theorem Stays.chkSeed {z s : State} {at_ : ChkAt} {v : Word} (hk : Same z s) : Stays z (execChkSeed at_ v s) := by
  unfold execChkSeed
  with_reducible repeat' (first | assumption | refine Same.onPage ?_ | refine .next ?_ | refine Same.onLive ?_ | refine Same.mchkSet ?_ | split | dsimp only | refine Same.mk_ ?_ rfl)

theorem Stays.spPwrWrite {z s : State} {blk : Nat} {v : Word} (hk : Same z s) : Stays z (execSpPwrWrite blk v s) := by
  unfold execSpPwrWrite
  with_reducible repeat' (first | assumption | refine Same.onPage ?_ | refine .next ?_ | refine Same.onLive ?_ | dsimp only | refine Same.mk_ ?_ rfl)

theorem Stays.scrubSlot {z s : State} {blk : Nat} {a : ScrubAt} (hk : Same z s) :
    Stays z (execScrubSlot blk a s) := by
  unfold execScrubSlot
  with_reducible repeat' (first | assumption | refine .next ?_ | refine Same.onLive ?_ | dsimp only | refine Same.mk_ ?_ rfl)

theorem Stays.inboundWord {z s : State} {blk : Nat} {cyc : Nat} {ep : Nat} {lost : Bool} (hk : Same z s) : Stays z (execInboundWord blk cyc ep lost s) := by
  unfold execInboundWord
  with_reducible repeat' (first | assumption | refine .next ?_ | refine Same.onLive ?_ | dsimp only | refine Same.mk_ ?_ rfl)

theorem Stays.heldWordWrite {z s : State} {blk : Nat} {cyc : Nat} (hk : Same z s) : Stays z (execHeldWordWrite blk cyc s) := by
  unfold execHeldWordWrite
  with_reducible repeat' (first | assumption | refine .next ?_ | refine Same.onLive ?_ | dsimp only | refine Same.mk_ ?_ rfl)

theorem Stays.holdWindowExpiry {z s : State} {blk : Nat} {cyc : Nat} (hk : Same z s) : Stays z (execHoldWindowExpiry blk cyc s) := by
  unfold execHoldWindowExpiry
  with_reducible repeat' (first | assumption | refine .next ?_ | refine Same.onLive ?_ | dsimp only | refine Same.mk_ ?_ rfl)

theorem Stays.tileReceived {z s : State} {blk : Nat} {cyc : Nat} {ep : Nat} (hk : Same z s) : Stays z (execTileReceived blk cyc ep s) := by
  unfold execTileReceived
  with_reducible repeat' (first | assumption | refine .next ?_ | refine Same.onLive ?_ | dsimp only | refine Same.mk_ ?_ rfl)

theorem Stays.deliveryFull {z s : State} {blk : Nat} {cyc : Nat} {ep : Nat} (hk : Same z s) : Stays z (execDeliveryFull blk cyc ep s) := by
  unfold execDeliveryFull
  with_reducible repeat' (first | assumption | refine .next ?_ | refine Same.onLive ?_ | dsimp only | refine Same.mk_ ?_ rfl)

theorem Stays.driveWordReceived {z s : State} {at_ : LegAt} (hk : Same z s) : Stays z (execDriveWordReceived at_ s) := by
  unfold execDriveWordReceived
  with_reducible repeat' (first | assumption | refine .next ?_ | refine Same.onLive ?_ | refine Same.onLiveRegion ?_ | split | dsimp only | refine Same.mk_ ?_ rfl)

theorem Stays.wordArrival {z s : State} {at_ : WordAt} {got : Option FWord} (hk : Same z s) : Stays z (execWordArrival at_ got s) := by
  unfold execWordArrival
  with_reducible repeat' (first | assumption | refine Same.wordShore ?_ | refine .next ?_ | refine Same.wordInput ?_ | refine Same.wordEdge ?_ | refine Same.launch ?_ | split | dsimp only | refine Same.mk_ ?_ rfl)

theorem Stays.marginSample {z s : State} {n : Nat} {slot : Nat} {ps : Nat} (hk : Same z s) : Stays z (execMarginSample n slot ps s) := by
  unfold execMarginSample
  with_reducible repeat' (first | assumption | refine .next ?_ | refine Same.pinSeg ?_ | split | dsimp only | refine Same.mk_ ?_ rfl)

theorem Stays.segmentRecal {z s : State} {n : Nat} {slot : Nat} (hk : Same z s) : Stays z (execSegmentRecal n slot s) := by
  unfold execSegmentRecal
  with_reducible repeat' (first | assumption | refine .next ?_ | refine Same.onRegion ?_ | split | dsimp only | refine Same.mk_ ?_ rfl)

theorem Stays.recalDone {z s : State} {n : Nat} {slot : Nat} {r : CalResult} (hk : Same z s) : Stays z (execRecalDone n slot r s) := by
  unfold execRecalDone
  with_reducible repeat' (first | assumption | refine Same.setRegion ?_ | refine .next ?_ | refine Same.wr ?_ | refine Same.set1 ?_ | refine Same.onRegion ?_ | refine Same.pass ?_ | refine Same.showPins ?_ | split | dsimp only | refine Same.mk_ ?_ rfl)

theorem Stays.circuitLockLost {z s : State} {oct : Nat} {margin : Nat} (hk : Same z s) : Stays z (execCircuitLockLost oct margin s) := by
  unfold execCircuitLockLost
  with_reducible repeat' (first | assumption | refine .next ?_ | refine Same.loseCircuit ?_ | split | dsimp only | refine Same.mk_ ?_ rfl)

theorem Stays.transferStart {z s : State} {n : Nat} {cyc : Nat} {eng : Nat} {desc : Nat} (hk : Same z s) : Stays z (execTransferStart n cyc eng desc s) := by
  unfold execTransferStart
  with_reducible repeat' (first | assumption | refine .next ?_ | refine Same.onLiveRegion ?_ | dsimp only | refine Same.mk_ ?_ rfl)

theorem Stays.requestAccepted {z s : State} {n : Nat} {cyc : Nat} {eng : Nat} {desc : Nat} (hk : Same z s) : Stays z (execRequestAccepted n cyc eng desc s) := by
  unfold execRequestAccepted
  with_reducible repeat' (first | assumption | refine .next ?_ | refine Same.onLiveRegion ?_ | dsimp only | refine Same.mk_ ?_ rfl)

theorem Stays.lineLanded {z s : State} {n : Nat} {cyc : Nat} {eng : Nat} {desc : Nat} {k : Nat} {first : Nat} (hk : Same z s) : Stays z (execLineLanded n cyc eng desc k first s) := by
  unfold execLineLanded
  with_reducible repeat' (first | assumption | refine .next ?_ | refine Same.onLiveRegion ?_ | dsimp only | refine Same.mk_ ?_ rfl)

theorem Stays.requestAbandon {z s : State} {n : Nat} {cyc : Nat} {eng : Nat} {desc : Nat} {k : Nat} {first : Nat} (hk : Same z s) : Stays z (execRequestAbandon n cyc eng desc k first s) := by
  unfold execRequestAbandon
  with_reducible repeat' (first | assumption | refine .next ?_ | refine Same.onLiveRegion ?_ | dsimp only | refine Same.mk_ ?_ rfl)

theorem Stays.storeStreamAccess {z s : State} {n : Nat} {cyc : Nat} {i : Nat} {port : Nat} (hk : Same z s) : Stays z (execStoreStreamAccess n cyc i port s) := by
  unfold execStoreStreamAccess
  with_reducible repeat' (first | assumption | refine .next ?_ | refine Same.onLiveRegion ?_ | split | dsimp only | refine Same.mk_ ?_ rfl)

theorem Stays.storeInTile {z s : State} {n : Nat} {cyc : Nat} {i : Nat} {port : Nat} {got : Option FWord} (hk : Same z s) : Stays z (execStoreInTile n cyc i port got s) := by
  unfold execStoreInTile
  with_reducible repeat' (first | assumption | refine .next ?_ | refine Same.onLiveRegion ?_ | split | dsimp only | refine Same.mk_ ?_ rfl)

theorem Stays.storeScrub {z s : State} {n : Nat} {a : ScrubAt} (hk : Same z s) : Stays z (execStoreScrub n a s) := by
  unfold execStoreScrub
  with_reducible repeat' (first | assumption | refine .next ?_ | refine Same.onLiveRegion ?_ | dsimp only | refine Same.mk_ ?_ rfl)

theorem Stays.patrolScrub {z s : State} {n : Nat} {a : ScrubAt} (hk : Same z s) : Stays z (execPatrolScrub n a s) := by
  unfold execPatrolScrub
  with_reducible repeat' (first | assumption | refine .next ?_ | refine Same.onLiveRegion ?_ | dsimp only | refine Same.mk_ ?_ rfl)

theorem Stays.memZeroStart {z s : State} {n : Nat} {v : Word} (hk : Same z s) : Stays z (execMemZeroStart n v s) := by
  unfold execMemZeroStart
  with_reducible repeat' (first | assumption | refine .next ?_ | refine Same.onLiveRegion ?_ | dsimp only | refine Same.mk_ ?_ rfl)

theorem Stays.zeroFillDone {z s : State} {n : Nat} {cyc : Nat} (hk : Same z s) : Stays z (execZeroFillDone n cyc s) := by
  unfold execZeroFillDone
  with_reducible repeat' (first | assumption | refine .next ?_ | refine Same.onLiveRegion ?_ | dsimp only | refine Same.mk_ ?_ rfl)

theorem Stays.doubledRefresh {z s : State} {n : Nat} {hot : Bool} (hk : Same z s) : Stays z (execDoubledRefresh n hot s) := by
  unfold execDoubledRefresh
  with_reducible repeat' (first | assumption | refine .next ?_ | refine Same.wr ?_ | refine Same.onLiveRegion ?_ | split | dsimp only | refine Same.mk_ ?_ rfl)

theorem Stays.laneLock {z s : State} {port : Nat} {t : Nat} {lane : Nat} {marks : List (List Byte)} {skewOk : Bool} (hk : Same z s) : Stays z (execLaneLock port t lane marks skewOk s) := by
  unfold execLaneLock
  with_reducible repeat' (first | assumption | refine .next ?_ | refine Same.onPort ?_ | dsimp only | refine Same.mk_ ?_ rfl)

theorem Stays.laneLockLost {z s : State} {port : Nat} {t : Nat} {lane : Nat} {marks : List (List Byte)} (hk : Same z s) : Stays z (execLaneLockLost port t lane marks s) := by
  unfold execLaneLockLost
  with_reducible repeat' (first | assumption | refine .next ?_ | refine Same.onPort ?_ | dsimp only | refine Same.mk_ ?_ rfl)

theorem Stays.shotReceived {z s : State} {port : Nat} {t : Nat} {shot : Shot} (hk : Same z s) : Stays z (execShotReceived port t shot s) := by
  unfold execShotReceived
  with_reducible repeat' (first | assumption | refine .next ?_ | refine Same.onPort ?_ | dsimp only | refine Same.mk_ ?_ rfl)

theorem Stays.replayTimeout {z s : State} {port : Nat} {t : Nat} (hk : Same z s) : Stays z (execReplayTimeout port t s) := by
  unfold execReplayTimeout
  with_reducible repeat' (first | assumption | refine .next ?_ | refine Same.onPort ?_ | dsimp only | refine Same.mk_ ?_ rfl)

theorem Stays.sightlineWordEnqueue {z s : State} {port : Nat} {t : Nat} {leg : Nat} {mark : Bool} {got : Option FWord} (hk : Same z s) : Stays z (execSightlineWordEnqueue port t leg mark got s) := by
  unfold execSightlineWordEnqueue
  with_reducible repeat' (first | assumption | refine .next ?_ | refine Same.setRegion ?_ | refine Same.onPort ?_ | split | dsimp only | refine Same.mk_ ?_ rfl)

theorem Stays.datumTimer {z s : State} {port : Nat} {t : Nat} (hk : Same z s) : Stays z (execDatumTimer port t s) := by
  unfold execDatumTimer
  with_reducible repeat' (first | assumption | refine .next ?_ | refine Same.onPort ?_ | dsimp only | refine Same.mk_ ?_ rfl)

theorem Stays.datumReceived {z s : State} {port : Nat} {t : Nat} (hk : Same z s) : Stays z (execDatumReceived port t s) := by
  unfold execDatumReceived
  with_reducible repeat' (first | assumption | refine .next ?_ | refine Same.onPort ?_ | dsimp only | refine Same.mk_ ?_ rfl)

theorem Stays.slSwap {z s : State} {port : Nat} (hk : Same z s) : Stays z (execSlSwap port s) := by
  unfold execSlSwap
  with_reducible repeat' (first | assumption | refine .next ?_ | refine Same.discard ?_ | refine Same.onPort ?_ | split | dsimp only | refine Same.mk_ ?_ rfl)

theorem Stays.slReset {z s : State} {port : Nat} (hk : Same z s) : Stays z (execSlReset port s) := by
  unfold execSlReset
  with_reducible repeat' (first | assumption | refine .next ?_ | refine Same.discard ?_ | refine Same.onPort ?_ | split | dsimp only | refine Same.mk_ ?_ rfl)

theorem Stays.frameVoidNotice {z s : State} {port : Nat} (hk : Same z s) : Stays z (execFrameVoidNotice port s) := by
  unfold execFrameVoidNotice
  with_reducible repeat' (first | assumption | refine .next ?_ | refine Same.setPort ?_ | refine Same.voidNotice ?_ | split | dsimp only | refine Same.mk_ ?_ rfl)

theorem Stays.voidContextReceived {z s : State} {port : Nat} (hk : Same z s) : Stays z (execVoidContextReceived port s) := by
  unfold execVoidContextReceived
  with_reducible repeat' (first | assumption | refine .next ?_ | refine Same.discard ?_ | refine Same.setPort ?_ | refine Same.raise ?_ | refine Same.onPort ?_ | split | dsimp only | refine Same.mk_ ?_ rfl)

theorem Stays.landingTile {z s : State} {port : Nat} {cyc : Nat} (hk : Same z s) : Stays z (execLandingTile port cyc s) := by
  unfold execLandingTile
  with_reducible repeat' (first | assumption | refine .next ?_ | refine Same.setPort ?_ | refine Same.raise ?_ | refine Same.onLiveRegion ?_ | split | dsimp only | refine Same.mk_ ?_ rfl)

theorem Stays.lsrcInsert {z s : State} {k : Nat} {power : Nat} (hk : Same z s) : Stays z (execLsrcInsert k power s) := by
  unfold execLsrcInsert
  with_reducible repeat' (first | assumption | refine .next ?_ | refine Same.wr ?_ | refine Same.set1 ?_ | refine Same.light ?_ | split | dsimp only | refine Same.mk_ ?_ rfl)

theorem Stays.lsrcRemove {z s : State} {k : Nat} (hk : Same z s) : Stays z (execLsrcRemove k s) := by
  unfold execLsrcRemove
  with_reducible repeat' (first | assumption | refine .next ?_ | refine Same.wr ?_ | refine Same.darken ?_ | dsimp only | refine Same.mk_ ?_ rfl)

theorem Stays.lsrcFault {z s : State} {k : Nat} {power : Nat} (hk : Same z s) : Stays z (execLsrcFault k power s) := by
  unfold execLsrcFault
  with_reducible repeat' (first | assumption | refine .next ?_ | refine Same.wr ?_ | refine Same.set1 ?_ | refine Same.raise ?_ | refine Same.darken ?_ | split | dsimp only | refine Same.mk_ ?_ rfl)

theorem Stays.slHoldStart {z s : State} {port : Nat} (hk : Same z s) : Stays z (execSlHoldStart port s) := by
  unfold execSlHoldStart
  with_reducible repeat' (first | assumption | refine .next ?_ | refine Same.onPort ?_ | split | dsimp only | refine Same.mk_ ?_ rfl)

theorem Stays.slHoldEnd {z s : State} {port : Nat} {t : Nat} (hk : Same z s) : Stays z (execSlHoldEnd port t s) := by
  unfold execSlHoldEnd
  with_reducible repeat' (first | assumption | refine .next ?_ | refine Same.wr ?_ | refine Same.onPort ?_ | split | dsimp only | refine Same.mk_ ?_ rfl)

theorem Stays.doorbell {z s : State} {fn : Nat} {ring : Nat} {v : Word} (hk : Same z s) : Stays z (execDoorbell fn ring v s) := by
  unfold execDoorbell
  with_reducible repeat' (first | assumption | refine .next ?_ | refine Same.setRing ?_ | refine Same.ringError ?_ | split | dsimp only | refine Same.mk_ ?_ rfl)

theorem Stays.itemBegin {z s : State} {fn : Nat} {ring : Nat} {bytes : Option (List Byte)} (hk : Same z s) : Stays z (execItemBegin fn ring bytes s) := by
  unfold execItemBegin
  with_reducible repeat' (first | assumption | refine Same.count ?_ | refine .next ?_ | refine Same.wr ?_ | refine Same.setRing ?_ | refine Same.ringError ?_ | refine Same.fence ?_ | split | dsimp only | refine Same.mk_ ?_ rfl)

theorem Stays.nop {z s : State} {fn : Nat} {ring : Nat} {slot : Nat} (hk : Same z s) : Stays z (execNop fn ring slot s) := by
  unfold execNop
  with_reducible repeat' (first | assumption | refine .next ?_ | refine Same.finish ?_ | split | dsimp only | refine Same.mk_ ?_ rfl)

theorem Stays.stakeDrive {z s : State} {fn : Nat} {ring : Nat} {slot : Nat} (hk : Same z s) : Stays z (execStakeDrive fn ring slot s) := by
  unfold execStakeDrive
  with_reducible repeat' (first | assumption | refine .next ?_ | refine Same.finish ?_ | refine Same.driveEntries ?_ | split | dsimp only | refine Same.mk_ ?_ rfl)

theorem Stays.dmaToDev {z s : State} {fn : Nat} {ring : Nat} {slot : Nat} {bytes : List Byte} (hk : Same z s) : Stays z (execDmaToDev fn ring slot bytes s) := by
  unfold execDmaToDev
  with_reducible repeat' (first | assumption | refine .next ?_ | refine Same.finish ?_ | refine Same.hostStore ?_ | refine Same.hostDrive ?_ | split | dsimp only | refine Same.mk_ ?_ rfl)

theorem Stays.dmaFromDev {z s : State} {fn : Nat} {ring : Nat} {slot : Nat} (hk : Same z s) :
    Stays z (execDmaFromDev fn ring slot s) := by
  unfold execDmaFromDev
  split
  · exact .next hk
  · exact .next (Same.finish (Same.foldl (fun _ _ h => Same.hostWrite h) (Same.hostLoad hk)))

theorem Stays.itemComplete {z s : State} {fn : Nat} {ring : Nat} (hk : Same z s) : Stays z (execItemComplete fn ring s) := by
  unfold execItemComplete
  with_reducible repeat' (first | assumption | refine .next ?_ | refine Same.wr ?_ | refine Same.hostWrite ?_ | refine Same.vector ?_ | refine Same.setRing ?_ | refine Same.settle ?_ | split | dsimp only | refine Same.mk_ ?_ rfl)

theorem Stays.ringFlush {z s : State} {fn : Nat} {ring : Nat} {hdrs : List (List Byte)} (hk : Same z s) : Stays z (execRingFlush fn ring hdrs s) := by
  unfold execRingFlush
  with_reducible repeat' (first | assumption | refine .next ?_ | refine Same.wr ?_ | refine Same.setRing ?_ | split | dsimp only | refine Same.mk_ ?_ rfl)

theorem Stays.ringDisable {z s : State} {fn : Nat} {ring : Nat} {v : Word} {hdrs : List (List Byte)} (hk : Same z s) : Stays z (execRingDisable fn ring v hdrs s) := by
  unfold execRingDisable
  with_reducible repeat' (first | assumption | refine .next ?_ | refine Same.wr ?_ | refine Same.setRing ?_ | refine Same.softWrite ?_ | refine Same.settle ?_ | split | dsimp only | refine Same.mk_ ?_ rfl)

theorem Stays.bar2Access {z s : State} {fn : Nat} {off : Nat} {req : Bar2Req} (hk : Same z s) :
    Stays z (execBar2Access fn off req s) := by
  unfold execBar2Access
  dsimp only
  split
  · exact .next (Same.count (Same.hostStore hk))
  · exact .next (Same.mkr rfl (Same.count (Same.hostLoad hk)))
  · exact .next (Same.aer (Same.foldl (fun _ _ h => Same.discard h) hk))

theorem Stays.fieldBookWrite {z s : State} {fn : Nat} (hk : Same z s) : Stays z (execFieldBookWrite fn s) := by
  unfold execFieldBookWrite
  dsimp only
  split
  · exact .next (Same.bookFlush hk)
  · split
    · exact .next hk
    · split
      · exact .next hk
      · split
        · exact .next hk
        · exact .next (Same.bookAll (Same.showQ (Same.err hk)))

theorem Stays.flr {z s : State} {fn : Nat} (hk : Same z s) : Stays z (execFlr fn s) := by
  unfold execFlr
  with_reducible repeat' (first | assumption | refine .next ?_ | refine Same.teardown ?_ | refine Same.fnReset ?_ | split | dsimp only | refine Same.mk_ ?_ rfl)

theorem Stays.linkDown {z s : State} {port : Nat} (hk : Same z s) : Stays z (execLinkDown port s) := by
  unfold execLinkDown
  with_reducible repeat' (first | assumption | refine .next ?_ | refine Same.wr ?_ | refine Same.fnReset ?_ | refine Same.foldl (fun _ _ _ => ?_) ?_ | split | dsimp only | refine Same.mk_ ?_ rfl)

theorem Stays.linkUp {z s : State} {port : Nat} (hk : Same z s) : Stays z (execLinkUp port s) := by
  unfold execLinkUp
  with_reducible repeat' (first | assumption | refine .next ?_ | refine Same.set1 ?_ | split | dsimp only | refine Same.mk_ ?_ rfl)

theorem Stays.d3hot {z s : State} {fn : Nat} (hk : Same z s) : Stays z (execD3hot fn s) := by
  unfold execD3hot
  with_reducible repeat' (first | assumption | refine .next ?_ | refine Same.setFn ?_ | dsimp only | refine Same.mk_ ?_ rfl)

theorem Stays.powerStateD0 {z s : State} {fn : Nat} (hk : Same z s) : Stays z (execPowerStateD0 fn s) := by
  unfold execPowerStateD0
  with_reducible repeat' (first | assumption | refine .next ?_ | refine Same.setFn ?_ | refine Same.bookFlush ?_ | dsimp only | refine Same.mk_ ?_ rfl)

theorem Stays.msixVectorUnmask {z s : State} {fn : Nat} {vec : Nat} (hk : Same z s) : Stays z (execMsixVectorUnmask fn vec s) := by
  unfold execMsixVectorUnmask
  with_reducible repeat' (first | assumption | refine .next ?_ | refine Same.setFn ?_ | split | dsimp only | refine Same.mk_ ?_ rfl)

theorem Stays.crLastLoRead {z s : State} {fn : Nat} {ring : Nat} (hk : Same z s) : Stays z (execCrLastLoRead fn ring s) := by
  unfold execCrLastLoRead
  with_reducible repeat' (first | assumption | refine Same.crLastLo ?_ | refine .next ?_ | refine Same.setRing ?_ | dsimp only | refine Same.mk_ ?_ rfl)

theorem Stays.currentWindow {z s : State} {at_ : WinAt} (hk : Same z s) : Stays z (execCurrentWindow at_ s) := by
  unfold execCurrentWindow
  with_reducible repeat' (first | assumption | refine .next ?_ | refine Same.setDom ?_ | refine Same.setCeil ?_ | refine Same.showPower ?_ | refine Same.lowerQi ?_ | refine Same.foldl (fun _ _ _ => ?_) ?_ | split | dsimp only | refine Same.mk_ ?_ rfl)

theorem Stays.controlInterval {z s : State} {draws : List Nat} (hk : Same z s) : Stays z (execControlInterval draws s) := by
  unfold execControlInterval
  with_reducible repeat' (first | assumption | refine .next ?_ | refine Same.showPower ?_ | refine Same.noFill ?_ | refine Same.capLoop ?_ | refine Same.gradeLoop ?_ | refine Same.foldl (fun _ _ _ => ?_) ?_ | split | dsimp only | refine Same.mk_ ?_ rfl)

theorem Stays.mainInputApplied {z s : State}  (hk : Same z s) : Stays z (execMainInputApplied s) := by
  unfold execMainInputApplied
  with_reducible repeat' (first | assumption | refine .next ?_ | refine Same.mainIn ?_ | split | dsimp only | refine Same.mk_ ?_ rfl)

theorem Stays.converterFault {z s : State} {hbc : Bool} {k : Nat} (hk : Same z s) : Stays z (execConverterFault hbc k s) := by
  unfold execConverterFault
  with_reducible repeat' (first | assumption | refine .next ?_ | refine Same.wr ?_ | refine Same.set1 ?_ | refine Same.setRegion ?_ | refine Same.raise ?_ | refine Same.loseRegions ?_ | refine Same.foldl (fun _ _ _ => ?_) ?_ | split | dsimp only | refine Same.mk_ ?_ rfl)

theorem Stays.phaseLost {z s : State} {n : Nat} {dom : Nat} {ph : Nat} (hk : Same z s) : Stays z (execPhaseLost n dom ph s) := by
  unfold execPhaseLost
  with_reducible repeat' (first | assumption | refine Same.settleNow ?_ | refine .next ?_ | refine Same.onRegion ?_ | refine Same.noteRate ?_ | refine Same.darkBlocks ?_ | split | dsimp only | refine Same.mk_ ?_ rfl)

theorem Stays.fabricPhaseLost {z s : State} {n : Nat} {ph : Nat} (hk : Same z s) : Stays z (execFabricPhaseLost n ph s) := by
  unfold execFabricPhaseLost
  with_reducible repeat' (first | assumption | refine .next ?_ | refine Same.wr ?_ | refine Same.setRegion ?_ | refine Same.raise ?_ | refine Same.onRegion ?_ | refine Same.loseRegions ?_ | split | dsimp only | refine Same.mk_ ?_ rfl)

theorem Stays.phaseTest {z s : State} {n : Nat} {dom : Nat} {ph : Nat} {pass : Bool} (hk : Same z s) : Stays z (execPhaseTest n dom ph pass s) := by
  unfold execPhaseTest
  with_reducible repeat' (first | assumption | refine .next ?_ | refine Same.pass ?_ | refine Same.softStart ?_ | refine Same.phaseTest ?_ | split | dsimp only | refine Same.mk_ ?_ rfl)

theorem Stays.domainStateRequest {z s : State} {n : Nat} {dom : Nat} {req : Nat} (hk : Same z s) : Stays z (execDomainStateRequest n dom req s) := by
  unfold execDomainStateRequest
  with_reducible repeat' (first | assumption | refine .next ?_ | refine Same.discard ?_ | refine Same.onLiveRegion ?_ | split | dsimp only | refine Same.mk_ ?_ rfl)

theorem Stays.ofsWrite {z s : State} {n : Nat} {dom : Nat} {v : Nat} (hk : Same z s) : Stays z (execOfsWrite n dom v s) := by
  unfold execOfsWrite
  with_reducible repeat' (first | assumption | refine .next ?_ | refine Same.discard ?_ | refine Same.onLiveRegion ?_ | split | dsimp only | refine Same.mk_ ?_ rfl)

theorem Stays.pcapWrite {z s : State} {v : Word} (hk : Same z s) : Stays z (execPcapWrite v s) := by
  unfold execPcapWrite
  with_reducible repeat' (first | assumption | refine .next ?_ | refine Same.discard ?_ | refine Same.pcapWrite ?_ | split | dsimp only | refine Same.mk_ ?_ rfl)

theorem Stays.ageMeasure {z s : State} {n : Nat} {dom : Nat} {slack : Nat} (hk : Same z s) : Stays z (execAgeMeasure n dom slack s) := by
  unfold execAgeMeasure
  with_reducible repeat' (first | assumption | refine .next ?_ | refine Same.wr ?_ | refine Same.setRegion ?_ | refine Same.onRegion ?_ | refine Same.setDom ?_ | split | dsimp only | refine Same.mk_ ?_ rfl)

theorem Stays.hoursRecord {z s : State} {ok : Bool} (hk : Same z s) : Stays z (execHoursRecord ok s) := by
  unfold execHoursRecord
  with_reducible repeat' (first | assumption | refine .next ?_ | refine Same.logAppend ?_ | split | dsimp only | refine Same.mk_ ?_ rfl)

theorem Stays.crashLogDelivery {z s : State}  (hk : Same z s) : Stays z (execCrashLogDelivery s) := by
  unfold execCrashLogDelivery
  with_reducible repeat' (first | assumption | refine .next ?_ | refine Same.wr ?_ | refine Same.set1 ?_ | refine Same.bookGen ?_ | refine Same.foldl (fun _ _ _ => ?_) ?_ | split | dsimp only | refine Same.mk_ ?_ rfl)

theorem Stays.beatStart {z s : State} {n : Nat} (hk : Same z s) : Stays z (execBeatStart n s) := by
  unfold execBeatStart
  with_reducible repeat' (first | assumption | refine .next ?_ | refine Same.setRegion ?_ | refine Same.easeOn ?_ | refine Same.onRegion ?_ | refine Same.blockBeat0 ?_ | refine Same.realign ?_ | refine Same.gap ?_ | refine Same.foldl (fun _ _ _ => ?_) ?_ | split | dsimp only | refine Same.mk_ ?_ rfl)

theorem Stays.stepCommit {z s : State} {n : Nat} (hk : Same z s) : Stays z (execStepCommit n s) := by
  unfold execStepCommit
  with_reducible repeat' (first | assumption | refine Same.foldl (fun _ _ _ => ?_) ?_ | refine .next ?_ | refine Same.set1 ?_ | refine Same.onLiveRegion ?_ | refine Same.commitStep ?_ | split | dsimp only | refine Same.mk_ ?_ rfl)

theorem Stays.idlePllLock {z s : State} {n : Nat} (hk : Same z s) : Stays z (execIdlePllLock n s) := by
  unfold execIdlePllLock
  with_reducible repeat' (first | assumption | refine .next ?_ | refine Same.onLiveRegion ?_ | dsimp only | refine Same.mk_ ?_ rfl)

theorem Stays.pllLockDeadline {z s : State} {n : Nat} (hk : Same z s) : Stays z (execPllLockDeadline n s) := by
  unfold execPllLockDeadline
  with_reducible repeat' (first | assumption | refine .next ?_ | refine Same.onLiveRegion ?_ | dsimp only | refine Same.mk_ ?_ rfl)

theorem Stays.regulatorReport {z s : State} {n : Nat} (hk : Same z s) : Stays z (execRegulatorReport n s) := by
  unfold execRegulatorReport
  with_reducible repeat' (first | assumption | refine .next ?_ | refine Same.onLiveRegion ?_ | dsimp only | refine Same.mk_ ?_ rfl)

theorem Stays.stepTail {z s : State} {n : Nat} (hk : Same z s) : Stays z (execStepTail n s) := by
  unfold execStepTail
  with_reducible repeat' (first | assumption | refine .next ?_ | refine Same.onLiveRegion ?_ | refine Same.tailDeadline ?_ | split | dsimp only | refine Same.mk_ ?_ rfl)

theorem Stays.refLost {z s : State}  (hk : Same z s) : Stays z (execRefLost s) := by
  unfold execRefLost
  with_reducible repeat' (first | assumption | refine .next ?_ | refine Same.wr ?_ | refine Same.set1 ?_ | refine Same.raise ?_ | split | dsimp only | refine Same.mk_ ?_ rfl)

theorem Stays.refReturn {z s : State}  (hk : Same z s) : Stays z (execRefReturn s) := by
  unfold execRefReturn
  with_reducible repeat' (first | assumption | refine .next ?_ | refine Same.raise ?_ | split | dsimp only | refine Same.mk_ ?_ rfl)

theorem Stays.diePllLost {z s : State} {die : Nat} (hk : Same z s) : Stays z (execDiePllLost die s) := by
  unfold execDiePllLost
  with_reducible repeat' (first | assumption | refine .next ?_ | refine Same.wr ?_ | refine Same.set1 ?_ | refine Same.raise ?_ | refine Same.loseRegions ?_ | split | dsimp only | refine Same.mk_ ?_ rfl)

theorem Stays.regionPllLost {z s : State} {n : Nat} (hk : Same z s) : Stays z (execRegionPllLost n s) := by
  unfold execRegionPllLost
  with_reducible repeat' (first | assumption | refine .next ?_ | refine Same.raise ?_ | refine Same.onRegion ?_ | refine Same.loseRegions ?_ | split | dsimp only | refine Same.mk_ ?_ rfl)

theorem Stays.droopTrip {z s : State} {n : Nat} {cyc : Nat} {dom : Nat} (hk : Same z s) : Stays z (execDroopTrip n cyc dom s) := by
  unfold execDroopTrip
  with_reducible repeat' (first | assumption | refine .next ?_ | refine Same.onLiveRegion ?_ | refine Same.settleDomain ?_ | dsimp only | refine Same.mk_ ?_ rfl)

theorem Stays.droopClear {z s : State} {n : Nat} {cyc : Nat} {dom : Nat} {skipped : Nat} (hk : Same z s) : Stays z (execDroopClear n cyc dom skipped s) := by
  unfold execDroopClear
  with_reducible repeat' (first | assumption | refine Same.slipDomain ?_ | refine Same.settleDomain ?_ | refine .next ?_ | refine Same.onLiveRegion ?_ | refine Same.settleDomain ?_ | dsimp only | refine Same.mk_ ?_ rfl)

theorem Stays.tpush {z s : State} {blk : Nat} {cyc : Nat} (hk : Same z s) : Stays z (execTpush blk cyc s) := by
  unfold execTpush
  with_reducible repeat' (first | assumption | refine .next ?_ | refine Same.coreOf ?_ | split | dsimp only | refine Same.mk_ ?_ rfl)

theorem Stays.tfull {z s : State} {blk : Nat} {cyc : Nat} (hk : Same z s) : Stays z (execTfull blk cyc s) := by
  unfold execTfull
  with_reducible repeat' (first | assumption | refine .next ?_ | refine Same.coreOf ?_ | split | dsimp only | refine Same.mk_ ?_ rfl)

theorem Stays.trel {z s : State} {blk : Nat} {cyc : Nat} (hk : Same z s) : Stays z (execTrel blk cyc s) := by
  unfold execTrel
  with_reducible repeat' (first | assumption | refine .next ?_ | refine Same.coreOf ?_ | split | dsimp only | refine Same.mk_ ?_ rfl)

theorem Stays.taddrT {z s : State} {blk : Nat} {cyc : Nat} (hk : Same z s) : Stays z (execTaddrT blk cyc s) := by
  unfold execTaddrT
  with_reducible repeat' (first | assumption | refine .next ?_ | refine Same.coreOf ?_ | split | dsimp only | refine Same.mk_ ?_ rfl)

theorem Stays.taddrF {z s : State} {blk : Nat} {cyc : Nat} (hk : Same z s) : Stays z (execTaddrF blk cyc s) := by
  unfold execTaddrF
  with_reducible repeat' (first | assumption | refine .next ?_ | refine Same.coreOf ?_ | split | dsimp only | refine Same.mk_ ?_ rfl)

theorem Stays.tfence {z s : State} {blk : Nat} {cyc : Nat} (hk : Same z s) : Stays z (execTfence blk cyc s) := by
  unfold execTfence
  with_reducible repeat' (first | assumption | refine .next ?_ | refine Same.coreOf ?_ | split | dsimp only | refine Same.mk_ ?_ rfl)

theorem Stays.tframe {z s : State} {blk : Nat} {cyc : Nat} (hk : Same z s) : Stays z (execTframe blk cyc s) := by
  unfold execTframe
  with_reducible repeat' (first | assumption | refine .next ?_ | refine Same.coreOf ?_ | split | dsimp only | refine Same.mk_ ?_ rfl)

theorem Stays.tcrcB {z s : State} {blk : Nat} {cyc : Nat} (hk : Same z s) : Stays z (execTcrcB blk cyc s) := by
  unfold execTcrcB
  with_reducible repeat' (first | assumption | refine .next ?_ | refine Same.coreOf ?_ | split | dsimp only | refine Same.mk_ ?_ rfl)

theorem Stays.tcrcH {z s : State} {blk : Nat} {cyc : Nat} (hk : Same z s) : Stays z (execTcrcH blk cyc s) := by
  unfold execTcrcH
  with_reducible repeat' (first | assumption | refine .next ?_ | refine Same.coreOf ?_ | split | dsimp only | refine Same.mk_ ?_ rfl)

theorem Stays.tcrcW {z s : State} {blk : Nat} {cyc : Nat} (hk : Same z s) : Stays z (execTcrcW blk cyc s) := by
  unfold execTcrcW
  with_reducible repeat' (first | assumption | refine .next ?_ | refine Same.coreOf ?_ | split | dsimp only | refine Same.mk_ ?_ rfl)

theorem Stays.mret {z s : State} {blk : Nat} {cyc : Nat} (hk : Same z s) : Stays z (execMret blk cyc s) := by
  unfold execMret
  with_reducible repeat' (first | assumption | refine .next ?_ | refine Same.coreOf ?_ | split | dsimp only | refine Same.mk_ ?_ rfl)

theorem Stays.terrWrite {z s : State} {blk : Nat} {cyc : Nat} (hk : Same z s) : Stays z (execTerrWrite blk cyc s) := by
  unfold execTerrWrite
  with_reducible repeat' (first | assumption | refine .next ?_ | refine Same.coreOf ?_ | split | dsimp only | refine Same.mk_ ?_ rfl)

theorem Stays.scalarInstruction {z s : State} {blk : Nat} {cyc : Nat} (hk : Same z s) : Stays z (execScalarInstruction blk cyc s) := by
  unfold execScalarInstruction
  with_reducible repeat' (first | assumption | refine .next ?_ | refine Same.onLive ?_ | dsimp only | refine Same.mk_ ?_ rfl)

theorem Stays.slotLoadTimeout {z s : State} {blk : Nat} {cyc : Nat} (hk : Same z s) : Stays z (execSlotLoadTimeout blk cyc s) := by
  unfold execSlotLoadTimeout
  with_reducible repeat' (first | assumption | refine .next ?_ | refine Same.onLive ?_ | dsimp only | refine Same.mk_ ?_ rfl)

theorem Stays.coreStart {z s : State} {blk : Nat} {cyc : Nat} (hk : Same z s) : Stays z (execCoreStart blk cyc s) := by
  unfold execCoreStart
  with_reducible repeat' (first | assumption | refine .next ?_ | refine Same.onLive ?_ | dsimp only | refine Same.mk_ ?_ rfl)

theorem Stays.ctxAdmit {z s : State} {fn : Nat} {ring : Nat} {slot : Nat} (hk : Same z s) : Stays z (execCtxAdmit fn ring slot s) := by
  unfold execCtxAdmit
  with_reducible repeat' (first | assumption | refine .next ?_ | refine Same.wr ?_ | refine Same.setCtx ?_ | refine Same.finish ?_ | split | dsimp only | refine Same.mk_ ?_ rfl)

theorem Stays.ctxTeardown {z s : State} {fn : Nat} {ring : Nat} {slot : Nat} (hk : Same z s) : Stays z (execCtxTeardown fn ring slot s) := by
  unfold execCtxTeardown
  with_reducible repeat' (first | assumption | refine .next ?_ | refine Same.setCtx ?_ | refine Same.finish ?_ | refine Same.teardown ?_ | split | dsimp only | refine Same.mk_ ?_ rfl)

theorem Stays.teardownRequest {z s : State} {p : Nat} {cause : Nat} (hk : Same z s) : Stays z (execTeardownRequest p cause s) := by
  unfold execTeardownRequest
  with_reducible repeat' (first | assumption | refine .next ?_ | refine Same.teardown ?_ | split | dsimp only | refine Same.mk_ ?_ rfl)

theorem Stays.loadingDone {z s : State} {p : Nat} (hk : Same z s) : Stays z (execLoadingDone p s) := by
  unfold execLoadingDone
  with_reducible repeat' (first | assumption | refine .next ?_ | refine Same.finishLoading ?_ | split | dsimp only | refine Same.mk_ ?_ rfl)

theorem Stays.clearingDone {z s : State} {p : Nat} (hk : Same z s) : Stays z (execClearingDone p s) := by
  unfold execClearingDone
  with_reducible repeat' (first | assumption | refine .next ?_ | refine Same.finishClearing ?_ | split | dsimp only | refine Same.mk_ ?_ rfl)

theorem Stays.regionRecordReceived {z s : State} {blk : Nat} {t : Trace} (hk : Same z s) : Stays z (execRegionRecordReceived blk t s) := by
  unfold execRegionRecordReceived
  with_reducible repeat' (first | assumption | refine .next ?_ | refine Same.set1 ?_ | refine Same.setBlock ?_ | refine Same.putRegion ?_ | split | dsimp only | refine Same.mk_ ?_ rfl)

theorem Stays.hubRecordReceived {z s : State} {n : Nat} (hk : Same z s) : Stays z (execHubRecordReceived n s) := by
  unfold execHubRecordReceived
  with_reducible repeat' (first | assumption | refine .next ?_ | refine Same.setRegion ?_ | refine Same.hubQueue ?_ | refine Same.tearFor ?_ | split | dsimp only | refine Same.mk_ ?_ rfl)

theorem Stays.suspectClear {z s : State} {n : Nat} {i : Nat} (hk : Same z s) : Stays z (execSuspectClear n i s) := by
  unfold execSuspectClear
  with_reducible repeat' (first | assumption | refine .next ?_ | refine Same.wr ?_ | refine Same.setBlock ?_ | refine Same.putRegion ?_ | split | dsimp only | refine Same.mk_ ?_ rfl)

theorem Stays.ledgerRelease {z s : State} {n : Nat} {i : Nat} (hk : Same z s) : Stays z (execLedgerRelease n i s) := by
  unfold execLedgerRelease
  with_reducible repeat' (first | assumption | refine .next ?_ | refine Same.onLiveRegion ?_ | dsimp only | refine Same.mk_ ?_ rfl)

theorem Stays.ledgerClear {z s : State} {n : Nat} {b : Nat} (hk : Same z s) : Stays z (execLedgerClear n b s) := by
  unfold execLedgerClear
  with_reducible repeat' (first | assumption | refine .next ?_ | refine Same.discard ?_ | refine Same.onLiveRegion ?_ | split | dsimp only | refine Same.mk_ ?_ rfl)

theorem Stays.hostFence {z s : State} {n : Nat} {b : Nat} (hk : Same z s) : Stays z (execHostFence n b s) := by
  unfold execHostFence
  with_reducible repeat' (first | assumption | refine .next ?_ | refine Same.discard ?_ | refine Same.onLiveRegion ?_ | split | dsimp only | refine Same.mk_ ?_ rfl)

theorem Stays.retest {z s : State} {n : Nat} {r : Retest} (hk : Same z s) : Stays z (execRetest n r s) := by
  unfold execRetest
  with_reducible repeat' (first | assumption | refine Same.showQueueDef ?_ | refine .next ?_ | refine Same.setBlock ?_ | refine Same.onLiveRegion ?_ | split | dsimp only | refine Same.mk_ ?_ rfl)

theorem Stays.regionControllerFault {z s : State} {n : Nat} (hk : Same z s) : Stays z (execRegionControllerFault n s) := by
  unfold execRegionControllerFault
  with_reducible repeat' (first | assumption | refine .next ?_ | refine Same.loseRegions ?_ | split | dsimp only | refine Same.mk_ ?_ rfl)

theorem Stays.managementPathCut {z s : State} {n : Nat} (hk : Same z s) : Stays z (execManagementPathCut n s) := by
  unfold execManagementPathCut
  with_reducible repeat' (first | assumption | refine .next ?_ | refine Same.loseRegions ?_ | split | dsimp only | refine Same.mk_ ?_ rfl)

theorem Stays.testpack {z s : State} {fn : Nat} {ring : Nat} {slot : Nat} {pack : Option (List Byte)} {sigOk : Bool} (hk : Same z s) : Stays z (execTestpack fn ring slot pack sigOk s) := by
  unfold execTestpack
  with_reducible repeat' (first | assumption | refine .next ?_ | refine Same.wr ?_ | refine Same.finish ?_ | split | dsimp only | refine Same.mk_ ?_ rfl)

theorem Stays.testpackStop {z s : State}  (hk : Same z s) : Stays z (execTestpackStop s) := by
  unfold execTestpackStop
  with_reducible repeat' (first | assumption | refine .next ?_ | refine Same.discard ?_ | split | dsimp only | refine Same.mk_ ?_ rfl)

theorem Stays.testTileDone {z s : State} {blk : Nat} {cyc : Nat} {test : Nat} {faults : List CellFault} (hk : Same z s) : Stays z (execTestTileDone blk cyc test faults s) := by
  unfold execTestTileDone
  with_reducible repeat' (first | assumption | refine Same.wr ?_ | refine .next ?_ | refine Same.set1 ?_ | refine Same.count ?_ | refine Same.onBlock ?_ | split | dsimp only | refine Same.mk_ ?_ rfl)

theorem Stays.testpackRound {z s : State}  (hk : Same z s) : Stays z (execTestpackRound s) := by
  unfold execTestpackRound
  with_reducible repeat' (first | assumption | refine .next ?_ | refine Same.wr ?_ | refine Same.bookAll ?_ | split | dsimp only | refine Same.mk_ ?_ rfl)

theorem Stays.frmLenWrite {z s : State} {v : Word} (hk : Same z s) : Stays z (execFrmLenWrite v s) := by
  unfold execFrmLenWrite
  with_reducible repeat' (first | assumption | refine .next ?_ | refine Same.wr ?_ | refine Same.set1 ?_ | refine Same.discard ?_ | split | dsimp only | refine Same.mk_ ?_ rfl)

theorem Stays.frmResWrite {z s : State} {v : Word} (hk : Same z s) : Stays z (execFrmResWrite v s) := by
  unfold execFrmResWrite
  with_reducible repeat' (first | assumption | refine .next ?_ | refine Same.wr ?_ | refine Same.set1 ?_ | refine Same.discard ?_ | split | dsimp only | refine Same.mk_ ?_ rfl)

theorem Stays.frmPhaseWrite {z s : State} {v : Word} (hk : Same z s) : Stays z (execFrmPhaseWrite v s) := by
  unfold execFrmPhaseWrite
  with_reducible repeat' (first | assumption | refine .next ?_ | refine Same.wr ?_ | refine Same.set1 ?_ | refine Same.discard ?_ | split | dsimp only | refine Same.mk_ ?_ rfl)

theorem Stays.epochArm {z s : State} {v : Word} (hk : Same z s) : Stays z (execEpochArm v s) := by
  unfold execEpochArm
  with_reducible repeat' (first | assumption | refine .next ?_ | refine Same.discard ?_ | refine Same.softWrite ?_ | split | dsimp only | refine Same.mk_ ?_ rfl)

theorem Stays.frmNumLoRead {z s : State}  (hk : Same z s) : Stays z (execFrmNumLoRead s) := by
  unfold execFrmNumLoRead
  with_reducible repeat' (first | assumption | refine Same.frmNumLo ?_ | refine .next ?_ | dsimp only | refine Same.mk_ ?_ rfl)

theorem Stays.cutFrameLoRead {z s : State}  (hk : Same z s) : Stays z (execCutFrameLoRead s) := by
  unfold execCutFrameLoRead
  with_reducible repeat' (first | assumption | refine Same.cutFrameLo ?_ | refine .next ?_ | dsimp only | refine Same.mk_ ?_ rfl)

theorem Stays.epochEdge {z s : State} {pos : Nat} (hk : Same z s) : Stays z (execEpochEdge pos s) := by
  unfold execEpochEdge
  with_reducible repeat' (first | assumption | refine .next ?_ | refine Same.wr ?_ | refine Same.set1 ?_ | refine Same.pass ?_ | refine Same.checkEdge ?_ | refine Same.realign ?_ | split | dsimp only | refine Same.mk_ ?_ rfl)

theorem Stays.evcLoRead {z s : State} {at_ : CtrAt} (hk : Same z s) : Stays z (execEvcLoRead at_ s) := by
  unfold execEvcLoRead
  with_reducible repeat' (first | assumption | refine Same.evcLo ?_ | refine .next ?_ | refine Same.updEvc ?_ | split | dsimp only | refine Same.mk_ ?_ rfl)

theorem Stays.evcSnapLoRead {z s : State} {at_ : CtrAt} (hk : Same z s) : Stays z (execEvcSnapLoRead at_ s) := by
  unfold execEvcSnapLoRead
  with_reducible repeat' (first | assumption | refine Same.evcSnapLo ?_ | refine .next ?_ | refine Same.updEvc ?_ | split | dsimp only | refine Same.mk_ ?_ rfl)

theorem Stays.evcFreeze {z s : State} {v : Word} (hk : Same z s) : Stays z (execEvcFreeze v s) := by
  unfold execEvcFreeze
  with_reducible repeat' (first | assumption | refine .next ?_ | refine Same.wr ?_ | refine Same.discard ?_ | split | dsimp only | refine Same.mk_ ?_ rfl)

theorem Stays.pertXdlyArm {z s : State} {v : Word} (hk : Same z s) : Stays z (execPertXdlyArm v s) := by
  unfold execPertXdlyArm
  with_reducible repeat' (first | assumption | refine .next ?_ | refine Same.discard ?_ | refine Same.pertWrite ?_ | split | dsimp only | refine Same.mk_ ?_ rfl)

theorem Stays.pertSlholdArm {z s : State} {v : Word} (hk : Same z s) : Stays z (execPertSlholdArm v s) := by
  unfold execPertSlholdArm
  with_reducible repeat' (first | assumption | refine .next ?_ | refine Same.discard ?_ | refine Same.pertWrite ?_ | split | dsimp only | refine Same.mk_ ?_ rfl)

theorem Stays.pertFstrArm {z s : State} {v : Word} (hk : Same z s) : Stays z (execPertFstrArm v s) := by
  unfold execPertFstrArm
  with_reducible repeat' (first | assumption | refine .next ?_ | refine Same.discard ?_ | refine Same.pertWrite ?_ | split | dsimp only | refine Same.mk_ ?_ rfl)

theorem Stays.pertTmoArm {z s : State} {v : Word} (hk : Same z s) : Stays z (execPertTmoArm v s) := by
  unfold execPertTmoArm
  with_reducible repeat' (first | assumption | refine .next ?_ | refine Same.discard ?_ | refine Same.pertWrite ?_ | split | dsimp only | refine Same.mk_ ?_ rfl)

theorem Stays.pertMismArm {z s : State} {v : Word} (hk : Same z s) : Stays z (execPertMismArm v s) := by
  unfold execPertMismArm
  with_reducible repeat' (first | assumption | refine .next ?_ | refine Same.discard ?_ | refine Same.pertWrite ?_ | split | dsimp only | refine Same.mk_ ?_ rfl)

theorem Stays.pertLock {z s : State}  (hk : Same z s) : Stays z (execPertLock s) := by
  unfold execPertLock
  with_reducible repeat' (first | assumption | refine .next ?_ | refine Same.set1 ?_ | refine Same.discard ?_ | split | dsimp only | refine Same.mk_ ?_ rfl)

theorem Stays.forcedTimeout {z s : State} {cyc : Nat} (hk : Same z s) : Stays z (execForcedTimeout cyc s) := by
  unfold execForcedTimeout
  with_reducible repeat' (first | assumption | refine .next ?_ | refine Same.onBlock ?_ | refine Same.onRegion ?_ | refine Same.onLiveRegion ?_ | refine Same.forcedDone ?_ | split | dsimp only | refine Same.mk_ ?_ rfl)

theorem Stays.countClr {z s : State} {addr : Nat} (hk : Same z s) : Stays z (execCountClr addr s) := by
  unfold execCountClr
  with_reducible repeat' (first | assumption | refine .next ?_ | refine Same.discard ?_ | refine Same.setRegion ?_ | refine Same.setBlock ?_ | refine Same.setPort ?_ | refine Same.updEvc ?_ | refine Same.hubClr ?_ | split | dsimp only | refine Same.mk_ ?_ rfl)

theorem Stays.platLoad {z s : State} {fn : Nat} {ring : Nat} {slot : Nat} (hk : Same z s) : Stays z (execPlatLoad fn ring slot s) := by
  unfold execPlatLoad
  with_reducible repeat' (first | assumption | refine .next ?_ | refine Same.wr ?_ | refine Same.finish ?_ | refine Same.platVec ?_ | split | dsimp only | refine Same.mk_ ?_ rfl)

theorem Stays.platCutover {z s : State} {fn : Nat} {ring : Nat} {slot : Nat} (hk : Same z s) : Stays z (execPlatCutover fn ring slot s) := by
  unfold execPlatCutover
  with_reducible repeat' (first | assumption | refine .next ?_ | refine Same.wr ?_ | refine Same.finish ?_ | refine Same.platVec ?_ | refine Same.rejectPlat ?_ | refine Same.startArming ?_ | split | dsimp only | refine Same.mk_ ?_ rfl)

theorem Stays.platImageReadDone {z s : State} {image : ImageRead} (hk : Same z s) : Stays z (execPlatImageReadDone image s) := by
  unfold execPlatImageReadDone
  with_reducible repeat' (first | assumption | refine .next ?_ | refine Same.wr ?_ | refine Same.platVec ?_ | refine Same.rejectPlat ?_ | refine Same.startArming ?_ | split | dsimp only | refine Same.mk_ ?_ rfl)

theorem Stays.platSeal {z s : State}  (hk : Same z s) : Stays z (execPlatSeal s) := by
  unfold execPlatSeal
  with_reducible repeat' (first | assumption | refine .next ?_ | refine Same.wr ?_ | refine Same.set1 ?_ | refine Same.finish ?_ | refine Same.platVec ?_ | refine Same.install ?_ | refine Same.wrHash ?_ | split | dsimp only | refine Same.mk_ ?_ rfl)

theorem Stays.platUnload {z s : State} {fn : Nat} {ring : Nat} {slot : Nat} (hk : Same z s) : Stays z (execPlatUnload fn ring slot s) := by
  unfold execPlatUnload
  with_reducible repeat' (first | assumption | refine .next ?_ | refine Same.finish ?_ | split | dsimp only | refine Same.mk_ ?_ rfl)

theorem Stays.cutCancel {z s : State} {fn : Nat} {ring : Nat} {slot : Nat} (hk : Same z s) : Stays z (execCutCancel fn ring slot s) := by
  unfold execCutCancel
  with_reducible repeat' (first | assumption | refine .next ?_ | refine Same.finish ?_ | refine Same.platVec ?_ | refine Same.cutAbandon ?_ | split | dsimp only | refine Same.mk_ ?_ rfl)

theorem Stays.cutAcknowledge {z s : State} {n : Nat} (hk : Same z s) : Stays z (execCutAcknowledge n s) := by
  unfold execCutAcknowledge
  with_reducible repeat' (first | assumption | refine .next ?_ | refine Same.wr ?_ | refine Same.set1 ?_ | refine Same.setRegion ?_ | refine Same.platVec ?_ | refine Same.showArmed ?_ | split | dsimp only | refine Same.mk_ ?_ rfl)

theorem Stays.cutWithdrawal {z s : State} {n : Nat} (hk : Same z s) : Stays z (execCutWithdrawal n s) := by
  unfold execCutWithdrawal
  with_reducible repeat' (first | assumption | refine .next ?_ | refine Same.wr ?_ | refine Same.set1 ?_ | refine Same.setRegion ?_ | refine Same.platVec ?_ | refine Same.showArmed ?_ | split | dsimp only | refine Same.mk_ ?_ rfl)

theorem Stays.decisionPoint {z s : State}  (hk : Same z s) : Stays z (execDecisionPoint s) := by
  unfold execDecisionPoint
  with_reducible repeat' (first | assumption | refine .next ?_ | refine Same.wr ?_ | refine Same.platVec ?_ | refine Same.cutAbandon ?_ | refine Same.onPort ?_ | refine Same.foldl (fun _ _ _ => ?_) ?_ | split | dsimp only | refine Same.mk_ ?_ rfl)

theorem Stays.pmbusPage {z s : State} {v : Nat} {pec : Option Bool} (hk : Same z s) : Stays z (execPmbusPage v pec s) := by
  unfold execPmbusPage
  with_reducible repeat' (first | assumption | refine .next ?_ | refine Stays.pmbusWrite (fun _ _ => ?_) ?_ | split | dsimp only | refine Same.mk_ ?_ rfl)

theorem Stays.pmbusClearFaults {z s : State} {pec : Option Bool} (hk : Same z s) : Stays z (execPmbusClearFaults pec s) := by
  unfold execPmbusClearFaults
  with_reducible repeat' (first | assumption | refine .next ?_ | refine Stays.pmbusWrite (fun _ _ => ?_) ?_ | dsimp only | refine Same.mk_ ?_ rfl)

theorem Stays.voutMode {z s : State}  (hk : Same z s) : Stays z (execVoutMode s) := by
  unfold execVoutMode
  with_reducible repeat' (first | assumption | refine .next ?_ | refine Stays.pmbus (fun _ _ => ?_) ?_ | refine Same.reply ?_ | dsimp only | refine Same.mk_ ?_ rfl)

theorem Stays.statusWord {z s : State}  (hk : Same z s) : Stays z (execStatusWord s) := by
  unfold execStatusWord
  with_reducible repeat' (first | assumption | refine .next ?_ | refine Stays.pmbus (fun _ _ => ?_) ?_ | refine Same.reply ?_ | dsimp only | refine Same.mk_ ?_ rfl)

theorem Stays.statusIout {z s : State}  (hk : Same z s) : Stays z (execStatusIout s) := by
  unfold execStatusIout
  with_reducible repeat' (first | assumption | refine .next ?_ | refine Stays.pmbus (fun _ _ => ?_) ?_ | refine Same.reply ?_ | dsimp only | refine Same.mk_ ?_ rfl)

theorem Stays.statusInput {z s : State}  (hk : Same z s) : Stays z (execStatusInput s) := by
  unfold execStatusInput
  with_reducible repeat' (first | assumption | refine .next ?_ | refine Stays.pmbus (fun _ _ => ?_) ?_ | refine Same.reply ?_ | dsimp only | refine Same.mk_ ?_ rfl)

theorem Stays.statusCml {z s : State}  (hk : Same z s) : Stays z (execStatusCml s) := by
  unfold execStatusCml
  with_reducible repeat' (first | assumption | refine .next ?_ | refine Stays.pmbus (fun _ _ => ?_) ?_ | refine Same.reply ?_ | dsimp only | refine Same.mk_ ?_ rfl)

theorem Stays.readVin {z s : State}  (hk : Same z s) : Stays z (execReadVin s) := by
  unfold execReadVin
  with_reducible repeat' (first | assumption | refine .next ?_ | refine Stays.pmbus (fun _ _ => ?_) ?_ | refine Same.reply ?_ | dsimp only | refine Same.mk_ ?_ rfl)

theorem Stays.readIin {z s : State}  (hk : Same z s) : Stays z (execReadIin s) := by
  unfold execReadIin
  with_reducible repeat' (first | assumption | refine .next ?_ | refine Stays.pmbus (fun _ _ => ?_) ?_ | refine Same.reply ?_ | refine Same.unsupported ?_ | split | dsimp only | refine Same.mk_ ?_ rfl)

theorem Stays.readVout {z s : State}  (hk : Same z s) : Stays z (execReadVout s) := by
  unfold execReadVout
  with_reducible repeat' (first | assumption | refine .next ?_ | refine Stays.pmbus (fun _ _ => ?_) ?_ | refine Same.reply ?_ | dsimp only | refine Same.mk_ ?_ rfl)

theorem Stays.readIout {z s : State}  (hk : Same z s) : Stays z (execReadIout s) := by
  unfold execReadIout
  with_reducible repeat' (first | assumption | refine .next ?_ | refine Stays.pmbus (fun _ _ => ?_) ?_ | refine Same.reply ?_ | dsimp only | refine Same.mk_ ?_ rfl)

theorem Stays.readTemperature1 {z s : State}  (hk : Same z s) : Stays z (execReadTemperature1 s) := by
  unfold execReadTemperature1
  with_reducible repeat' (first | assumption | refine .next ?_ | refine Stays.pmbus (fun _ _ => ?_) ?_ | refine Same.reply ?_ | dsimp only | refine Same.mk_ ?_ rfl)

theorem Stays.readPout {z s : State}  (hk : Same z s) : Stays z (execReadPout s) := by
  unfold execReadPout
  with_reducible repeat' (first | assumption | refine .next ?_ | refine Stays.pmbus (fun _ _ => ?_) ?_ | refine Same.reply ?_ | dsimp only | refine Same.mk_ ?_ rfl)

theorem Stays.readPin {z s : State}  (hk : Same z s) : Stays z (execReadPin s) := by
  unfold execReadPin
  with_reducible repeat' (first | assumption | refine .next ?_ | refine Stays.pmbus (fun _ _ => ?_) ?_ | refine Same.reply ?_ | refine Same.unsupported ?_ | split | dsimp only | refine Same.mk_ ?_ rfl)

theorem Stays.pmbusRevision {z s : State}  (hk : Same z s) : Stays z (execPmbusRevision s) := by
  unfold execPmbusRevision
  with_reducible repeat' (first | assumption | refine .next ?_ | refine Stays.pmbus (fun _ _ => ?_) ?_ | refine Same.reply ?_ | dsimp only | refine Same.mk_ ?_ rfl)

theorem Stays.pmbusUnsupported {z s : State} {code : Nat} (hk : Same z s) : Stays z (execPmbusUnsupported code s) := by
  unfold execPmbusUnsupported
  with_reducible repeat' (first | assumption | refine .next ?_ | refine Stays.pmbus (fun _ _ => ?_) ?_ | refine Same.unsupported ?_ | split | dsimp only | refine Same.mk_ ?_ rfl)

theorem Stays.ringWrite {z s : State} {fn : Nat} {r : Nat} {o : Nat} {v : Word} (hk : Same z s) : Stays z (State.ringWrite s fn r o v) := by
  unfold State.ringWrite
  with_reducible repeat' (first | assumption | refine .next ?_ | refine Stays.doorbell ?_ | refine Stays.ringFlush ?_ | refine Stays.ringDisable ?_ | refine Same.discard ?_ | refine Same.setRing ?_ | refine Same.openHdrs ?_ | split | dsimp only | refine Same.mk_ ?_ rfl)

theorem Stays.vfWrite {z s : State} {fn : Nat} {a : Nat} {v : Word} (hk : Same z s) : Stays z (State.vfWrite s fn a v) := by
  unfold State.vfWrite
  with_reducible repeat' (first | assumption | refine .next ?_ | refine Stays.ringWrite ?_ | refine Same.discard ?_ | refine Same.setFn ?_ | split | dsimp only | refine Same.mk_ ?_ rfl)

theorem Stays.mchkWrite {z s : State} {a : Nat} {v : Word} (hk : Same z s) : Stays z (State.mchkWrite s a v) := by
  unfold State.mchkWrite
  with_reducible repeat' (first | assumption | refine .next ?_ | refine Stays.chkPolyWrite ?_ | refine Stays.chkSeed ?_ | refine Same.softWrite ?_ | split | dsimp only | refine Same.mk_ ?_ rfl)

theorem Stays.pertRegWrite {z s : State} {a : Nat} {v : Word} (hk : Same z s) : Stays z (State.pertRegWrite s a v) := by
  unfold State.pertRegWrite
  with_reducible repeat' (first | assumption | refine .next ?_ | refine Stays.pertXdlyArm ?_ | refine Stays.pertSlholdArm ?_ | refine Stays.pertFstrArm ?_ | refine Stays.pertTmoArm ?_ | refine Stays.pertMismArm ?_ | refine Stays.pertLock ?_ | refine Same.pertWriteB ?_ | refine Same.softWrite ?_ | split | dsimp only | refine Same.mk_ ?_ rfl)

theorem Stays.matrixIssue {z s : State} {blk : Nat} {cyc : Nat} (hk : Same z s) : Stays z (execMatrixIssue blk cyc s) := by
  unfold execMatrixIssue
  with_reducible repeat' (first | assumption | refine .next ?_ | refine Same.onIssue ?_ | refine Same.spendInj ?_ | dsimp only | refine Same.mk_ ?_ rfl)

theorem Stays.tileOutcome {z s : State} {blk : Nat} {cyc : Nat} {faults : List CellFault} (hk : Same z s) : Stays z (execTileOutcome blk cyc faults s) := by
  unfold execTileOutcome
  with_reducible repeat' (first | assumption | refine .next ?_ | refine Same.onLive ?_ | dsimp only | refine Same.mk_ ?_ rfl)

theorem Stays.bankCommandIssue {z s : State} {blk : Nat} {cyc : Nat} (hk : Same z s) : Stays z (execBankCommandIssue blk cyc s) := by
  unfold execBankCommandIssue
  with_reducible repeat' (first | assumption | refine .next ?_ | refine Same.onIssue ?_ | dsimp only | refine Same.mk_ ?_ rfl)

theorem Stays.bankCommandDone {z s : State} {blk : Nat} {cyc : Nat} (hk : Same z s) : Stays z (execBankCommandDone blk cyc s) := by
  unfold execBankCommandDone
  with_reducible repeat' (first | assumption | refine .next ?_ | refine Same.onLive ?_ | dsimp only | refine Same.mk_ ?_ rfl)

theorem Stays.codebookLoad {z s : State} {blk : Nat} {cyc : Nat} (hk : Same z s) : Stays z (execCodebookLoad blk cyc s) := by
  unfold execCodebookLoad
  with_reducible repeat' (first | assumption | refine .next ?_ | refine Same.onIssue ?_ | dsimp only | refine Same.mk_ ?_ rfl)

theorem Stays.lookupLoad {z s : State} {blk : Nat} {cyc : Nat} (hk : Same z s) : Stays z (execLookupLoad blk cyc s) := by
  unfold execLookupLoad
  with_reducible repeat' (first | assumption | refine .next ?_ | refine Same.onIssue ?_ | dsimp only | refine Same.mk_ ?_ rfl)

theorem Stays.checkCommand {z s : State} {blk : Nat} {cyc : Nat} (hk : Same z s) : Stays z (execCheckCommand blk cyc s) := by
  unfold execCheckCommand
  with_reducible repeat' (first | assumption | refine .next ?_ | refine Same.onIssue ?_ | dsimp only | refine Same.mk_ ?_ rfl)

theorem Stays.checkDone {z s : State} {blk : Nat} {cyc : Nat} (hk : Same z s) : Stays z (execCheckDone blk cyc s) := by
  unfold execCheckDone
  with_reducible repeat' (first | assumption | refine .next ?_ | refine Same.onLive ?_ | dsimp only | refine Same.mk_ ?_ rfl)

theorem Stays.stakeDriveCommand {z s : State} {blk : Nat} {cyc : Nat} (hk : Same z s) : Stays z (execStakeDriveCommand blk cyc s) := by
  unfold execStakeDriveCommand
  with_reducible repeat' (first | assumption | refine .next ?_ | refine Same.onIssue ?_ | dsimp only | refine Same.mk_ ?_ rfl)

theorem Stays.stakeSight {z s : State} {blk : Nat} {cyc : Nat} (hk : Same z s) : Stays z (execStakeSight blk cyc s) := by
  unfold execStakeSight
  with_reducible repeat' (first | assumption | refine .next ?_ | refine Same.onIssue ?_ | dsimp only | refine Same.mk_ ?_ rfl)

theorem Stays.planPoint {z s : State} {blk : Nat} {cyc : Nat} (hk : Same z s) : Stays z (execPlanPoint blk cyc s) := by
  unfold execPlanPoint
  with_reducible repeat' (first | assumption | refine .next ?_ | refine Same.onIssue ?_ | dsimp only | refine Same.mk_ ?_ rfl)

theorem Stays.sightTimeout {z s : State} {at_ : WaitAt} (hk : Same z s) : Stays z (execSightTimeout at_ s) := by
  unfold execSightTimeout
  with_reducible repeat' (first | assumption | refine .next ?_ | refine Same.onLive ?_ | refine Same.onLiveRegion ?_ | split | dsimp only | refine Same.mk_ ?_ rfl)

theorem Stays.driveApplied {z s : State} {at_ : UnitAt} (hk : Same z s) : Stays z (execDriveApplied at_ s) := by
  unfold execDriveApplied
  with_reducible repeat' (first | assumption | refine .next ?_ | refine Same.onLive ?_ | refine Same.onLiveRegion ?_ | split | dsimp only | refine Same.mk_ ?_ rfl)


end Sys2Proof.Machine
end

