-- ==== Sys2Proof/Laws/Units.lean ====
section
/-!
SUPPORT. What a step of one block, one region or one sightline port does to the whole state: the unit becomes what the step makes of it,
and nothing else changes but what the step hands on (`BlockFrame`, `RegionFrame`, `PortFrame`).
-/
namespace Sys2Proof.Machine

/-! ## Fields of a region and of a block -/

theorem Region.rd_wr_self (g : Region) (f : Field) (v i j : Nat) (hh : f.hi < 32) (hl : f.lo ≤ f.hi) :
    (g.wr f v i j).rd f i j = v % 2 ^ (f.hi + 1 - f.lo) := Regs.rd_wr_self _ _ _ _ _ hh hl
theorem Region.rd_wr_apart (g : Region) (f h : Field) (v i j k l : Nat) (ha : f.apart h i j k l = true) :
    (g.wr f v i j).rd h k l = g.rd h k l := Regs.rd_wr_apart _ _ _ _ _ _ _ _ ha
theorem Region.bit_wr_self (g : Region) (f : Field) (v i j : Nat) (hh : f.hi < 32) (hl : f.lo ≤ f.hi) :
    (g.wr f v i j).bit f i j = (v % 2 ^ (f.hi + 1 - f.lo) != 0) := by
  show ((g.wr f v i j).rd f i j != 0) = _
  rw [Region.rd_wr_self _ _ _ _ _ hh hl]
theorem Region.bit_wr_apart (g : Region) (f h : Field) (v i j k l : Nat) (ha : f.apart h i j k l = true) :
    (g.wr f v i j).bit h k l = g.bit h k l := by
  show ((g.wr f v i j).rd h k l != 0) = _
  rw [Region.rd_wr_apart _ _ _ _ _ _ _ _ ha]; rfl
theorem Block.rd_wr_self (b : Block) (f : Field) (v i j : Nat) (hh : f.hi < 32) (hl : f.lo ≤ f.hi) :
    (b.wr f v i j).rd f i j = v % 2 ^ (f.hi + 1 - f.lo) := Regs.rd_wr_self _ _ _ _ _ hh hl
theorem Block.rd_wr_apart (b : Block) (f h : Field) (v i j k l : Nat) (ha : f.apart h i j k l = true) :
    (b.wr f v i j).rd h k l = b.rd h k l := Regs.rd_wr_apart _ _ _ _ _ _ _ _ ha
theorem Block.bit_wr_self (b : Block) (f : Field) (v i j : Nat) (hh : f.hi < 32) (hl : f.lo ≤ f.hi) :
    (b.wr f v i j).bit f i j = (v % 2 ^ (f.hi + 1 - f.lo) != 0) := by
  show ((b.wr f v i j).rd f i j != 0) = _
  rw [Block.rd_wr_self _ _ _ _ _ hh hl]
theorem Block.bit_wr_apart (b : Block) (f h : Field) (v i j k l : Nat) (ha : f.apart h i j k l = true) :
    (b.wr f v i j).bit h k l = b.bit h k l := by
  show ((b.wr f v i j).rd h k l != 0) = _
  rw [Block.rd_wr_apart _ _ _ _ _ _ _ _ ha]; rfl

/-- An event changes the hub's counters alone. -/
theorem State.count_only (s : State) (c : Nat) (p : Option Nat) (n : Nat) : s.count c p n = { s with evcs := (s.count c p n).evcs } := by
  unfold State.count
  by_cases h : s.frozen = true
  · simp only [if_pos h]
  · simp only [if_neg h]

/-- Reference periods that pass move the frame counter and the hub's counters alone. -/
theorem State.pass_only (s : State) (n : Nat) :
    s.pass n = { s with frame := { s.frame with pos := s.frame.pos + n, now := s.frame.now + n }, evcs := (s.pass n).evcs } :=
  State.count_only { s with frame := { s.frame with pos := s.frame.pos + n, now := s.frame.now + n } } 0x060 none n

/-! ## Hub words -/

/-- Another word than that of the counter stands. -/
theorem Regs.word_incSat_ne (r : Regs) (c sat : Field) (i n o : Nat) (hu : sat.unit = c.unit) (h1 : o ≠ c.at i) (h2 : o ≠ sat.at i) :
    (r.incSat c sat i n).word c.unit o = r.word c.unit o := by
  unfold Regs.incSat
  dsimp only
  split
  · show Regs.word (Regs.setWord _ sat.unit _ _) c.unit o = _
    rw [hu, Regs.word_setWord_ne _ _ _ _ _ h2]
    exact Regs.word_setWord_ne _ _ _ _ _ h1
  · exact Regs.word_setWord_ne _ _ _ _ _ h1

/-- A count of discarded accesses changes nothing but that count. -/
theorem State.discard_only (s : State) (n : Nat) :
    s.discard n = { s with hub := (s.discard n).hub } ∧ (s.discard n).hub = { s.hub with hub := (s.discard n).hub.hub } ∧
    ∀ o, o ≠ 0x7004 → (s.discard n).hub.hub.word .hub o = s.hub.hub.word .hub o := by
  unfold State.discard
  split
  · exact ⟨rfl, rfl, fun _ _ => rfl⟩
  · refine ⟨rfl, rfl, fun o ho => ?_⟩
    exact Regs.word_incSat_ne _ HIF_DISC_COUNT HIF_DISC_SAT 0 n o rfl ho ho

@[simp] theorem State.discard_block (s : State) (n k : Nat) : (s.discard n).block k = s.block k := by
  unfold State.discard; split <;> rfl
@[simp] theorem State.discard_region (s : State) (n k : Nat) : (s.discard n).region k = s.region k := by
  unfold State.discard; split <;> rfl
@[simp] theorem State.discard_port (s : State) (n k : Nat) : (s.discard n).port k = s.port k := by
  unfold State.discard; split <;> rfl

/-! ## Events -/

/-- Events change the hub's counters and those of one region. -/
theorem State.takeEvs_frame (s : State) (n : Option Nat) (evs : List (Nat × Option Nat × Nat)) :
    s.takeEvs n evs = { s with evcs := (s.takeEvs n evs).evcs, regions := (s.takeEvs n evs).regions } ∧
    ∀ m, (s.takeEvs n evs).region m = { s.region m with evcs := ((s.takeEvs n evs).region m).evcs } := by
  unfold State.takeEvs
  split
  · exact ⟨rfl, fun _ => rfl⟩
  · cases n with
    | none => exact ⟨rfl, fun _ => rfl⟩
    | some n =>
      dsimp only
      split
      · exact ⟨rfl, fun _ => rfl⟩
      · refine ⟨?_, fun m => ?_⟩
        · unfold State.setRegion; split <;> rfl
        · by_cases hm : m = n
          · subst hm
            by_cases h24 : m < 24
            · rw [State.region_setRegion_self _ _ _ h24]; rfl
            · simp only [State.setRegion, h24, if_false]; rfl
          · rw [State.region_setRegion_ne _ _ _ _ hm]; rfl

@[simp] theorem State.takeEvs_block (s : State) (n : Option Nat) (evs : List (Nat × Option Nat × Nat)) (k : Nat) :
    (s.takeEvs n evs).block k = s.block k := by
  rw [(s.takeEvs_frame n evs).1]; rfl
@[simp] theorem State.takeEvs_port (s : State) (n : Option Nat) (evs : List (Nat × Option Nat × Nat)) (k : Nat) :
    (s.takeEvs n evs).port k = s.port k := by
  rw [(s.takeEvs_frame n evs).1]; rfl
@[simp] theorem State.takeEvs_region (s : State) (evs : List (Nat × Option Nat × Nat)) (k : Nat) :
    (s.takeEvs none evs).region k = s.region k := by
  unfold State.takeEvs; split <;> rfl
@[simp] theorem State.takeEvs_hub (s : State) (n : Option Nat) (evs : List (Nat × Option Nat × Nat)) :
    (s.takeEvs n evs).hub = s.hub := by
  rw [(s.takeEvs_frame n evs).1]

/-! ## Blocks -/

/-- Block `blk` after its step. -/
theorem State.block_putBlock_self (s : State) (blk : Nat) (b : Block) (h : blk < 4608) :
    (s.putBlock blk b).block blk = { b with disc := 0, evs := [] } := by
  unfold State.putBlock
  rw [State.takeEvs_block, State.discard_block, State.block_setBlock_self _ _ _ h]

/-- What a block's step may change. -/
theorem State.putBlock_frame (s : State) (blk : Nat) (b : Block) : BlockFrame blk s (s.putBlock blk b) := by
  unfold State.putBlock
  generalize hx : s.setBlock blk { b with disc := 0, evs := [] } = x
  have h0 : x = { s with blocks := x.blocks } := by
    rw [← hx]; unfold State.setBlock; split <;> rfl
  have hb : ∀ k, k ≠ blk → x.block k = s.block k := fun k hk => by
    rw [← hx]; exact State.block_setBlock_ne _ _ _ _ hk
  have h1 := x.discard_only b.disc
  have h2 := (x.discard b.disc).takeEvs_frame (some (regionOf blk)) b.evs
  have hr : ∀ m, x.region m = s.region m := fun m => by rw [h0]; rfl
  have hh : x.hub = s.hub := by rw [h0]
  refine ⟨?_, fun k hk => ?_, fun m => ?_, ?_, fun o ho => ?_⟩
  · rw [h2.1, h1.1]; dsimp only; rw [h0]
  · rw [State.takeEvs_block, State.discard_block]; exact hb k hk
  · have := h2.2 m
    rw [State.discard_region, hr] at this
    exact this
  · rw [State.takeEvs_hub, h1.2.1]; dsimp only; rw [hh]
  · rw [State.takeEvs_hub, h1.2.2 o ho, hh]

/-- A step of a block whose clock runs. -/
theorem State.block_onLive_self (s : State) (blk cyc : Nat) (f : Env → Block → Block) (hk : blk < 4608) (h : s.runs blk = true) :
    (s.onLive blk cyc f).block blk = { f (s.env blk cyc) (s.blockAt blk cyc) with disc := 0, evs := [] } := by
  unfold State.onLive State.onBlock
  rw [if_pos h]
  exact State.block_putBlock_self _ _ _ hk

/-- What a step of a block may change. -/
theorem State.onLive_frame (s : State) (blk cyc : Nat) (f : Env → Block → Block) : BlockFrame blk s (s.onLive blk cyc f) := by
  unfold State.onLive State.onBlock
  split
  · exact State.putBlock_frame _ _ _
  · exact ⟨rfl, fun _ _ => rfl, fun _ => rfl, rfl, fun _ _ => rfl⟩

/-- A step of a block whose clock does not run is none. -/
theorem State.onLive_still (s : State) (blk cyc : Nat) (f : Env → Block → Block) (h : s.runs blk = false) :
    s.onLive blk cyc f = s := by
  unfold State.onLive; rw [h]; rfl

/-- A step that issues, of a block whose clock runs, in the working span. -/
theorem State.onIssue_eq (s : State) (blk cyc : Nat) (f : Env → Block → Block)
    (h : (s.region (regionOf blk)).bit RGN_BEAT_GAP = false) : s.onIssue blk cyc f = s.onLive blk cyc f := by
  unfold State.onIssue; rw [h]; rfl

/-- What a step that issues may change. -/
theorem State.onIssue_frame (s : State) (blk cyc : Nat) (f : Env → Block → Block) : BlockFrame blk s (s.onIssue blk cyc f) := by
  unfold State.onIssue
  split
  · exact ⟨rfl, fun _ _ => rfl, fun _ => rfl, rfl, fun _ _ => rfl⟩
  · exact State.onLive_frame _ _ _ _

/-- A region without its event counters. -/
def Region.bare (g : Region) : Region := { g with evcs := [] }

/-- From `s` to `t` every region stands but for its event counters. -/
def RegionsStand (s t : State) : Prop := ∀ m, (t.region m).bare = (s.region m).bare

theorem RegionsStand.refl (s : State) : RegionsStand s s := fun _ => rfl
theorem RegionsStand.trans {a b c : State} (h : RegionsStand a b) (k : RegionsStand b c) : RegionsStand a c :=
  fun m => (k m).trans (h m)

/-- A fold of such steps. -/
theorem RegionsStand.foldl {α : Type} {z s : State} {l : List α} {f : State → α → State}
    (hf : ∀ x a, RegionsStand x (f x a)) (h : RegionsStand z s) : RegionsStand z (l.foldl f s) := by
  induction l generalizing s with
  | nil => exact h
  | cons a t ih => exact ih (h.trans (hf s a))

theorem RegionsStand.setBlock (s : State) (k : Nat) (b : Block) : RegionsStand s (s.setBlock k b) := fun _ => by
  unfold State.setBlock; split <;> rfl
theorem RegionsStand.putBlock (s : State) (k : Nat) (b : Block) : RegionsStand s (s.putBlock k b) := fun m => by
  rw [(s.putBlock_frame k b).2.2.1 m]; rfl
theorem RegionsStand.onBlock (s : State) (k cyc : Nat) (f : Env → Block → Block) : RegionsStand s (s.onBlock k cyc f) :=
  RegionsStand.putBlock _ _ _

/-- From `b` to `x` only time has passed: memories, deliveries, legs, stakes, drives and the router stand, and of the core all but its cycle
counter. The tiles that complete (05 R141) change registers, rings, the queue and the records. -/
structure Timed (b x : Block) : Prop where
  mem : x.spm = b.spm ∧ x.ecc = b.ecc ∧ x.imem = b.imem ∧ x.ldata = b.ldata ∧ x.sets = b.sets
  core : x.core = { b.core with mcycle := x.core.mcycle }
  rest : x.held = b.held ∧ x.luts = b.luts ∧ x.legs = b.legs ∧ x.stakes = b.stakes ∧ x.driveq = b.driveq ∧ x.router = b.router ∧
    x.testRun = b.testRun ∧ x.scrubPos = b.scrubPos

theorem Timed.refl (b : Block) : Timed b b := ⟨⟨rfl, rfl, rfl, rfl, rfl⟩, rfl, ⟨rfl, rfl, rfl, rfl, rfl, rfl, rfl, rfl⟩⟩
/-- A step that leaves what time leaves. -/
theorem Timed.of {b x y : Block} (h : Timed b x)
    (hm : y.spm = x.spm ∧ y.ecc = x.ecc ∧ y.imem = x.imem ∧ y.ldata = x.ldata ∧ y.sets = x.sets) (hc : y.core = x.core)
    (hr : y.held = x.held ∧ y.luts = x.luts ∧ y.legs = x.legs ∧ y.stakes = x.stakes ∧ y.driveq = x.driveq ∧ y.router = x.router ∧
      y.testRun = x.testRun ∧ y.scrubPos = x.scrubPos) : Timed b y := by
  obtain ⟨m1, m2, m3, m4, m5⟩ := hm
  obtain ⟨r1, r2, r3, r4, r5, r6, r7, r8⟩ := hr
  refine ⟨by rw [m1, m2, m3, m4, m5]; exact h.mem, ?_, by rw [r1, r2, r3, r4, r5, r6, r7, r8]; exact h.rest⟩
  rw [hc]; exact h.core
theorem Timed.wr {b x : Block} {f : Field} {v i j : Nat} (h : Timed b x) : Timed b (x.wr f v i j) := ⟨h.mem, h.core, h.rest⟩
theorem Timed.count {b x : Block} {e : Env} {k n : Nat} {p : Option Nat} (h : Timed b x) : Timed b (x.count e k p n) := by
  unfold Block.count
  split
  · exact h
  · exact ⟨h.mem, h.core, h.rest⟩
theorem Timed.foldl {α : Type} {z x : Block} {l : List α} {f : Block → α → Block} (hf : ∀ y a, Timed z y → Timed z (f y a))
    (h : Timed z x) : Timed z (l.foldl f x) := by
  induction l generalizing x with
  | nil => exact h
  | cons a t ih => exact ih (hf x a h)
theorem Timed.raise {b x : Block} {e : Env} {r : ErrRec} (h : Timed b x) : Timed b (x.raise e r) := by
  unfold Block.raise
  dsimp only
  split
  · exact ⟨h.mem, h.core, h.rest⟩
  · split
    · split <;> exact ⟨h.mem, h.core, h.rest⟩
    · exact ⟨h.mem, h.core, h.rest⟩
theorem Timed.tagFault {b x : Block} {e : Env} {r s : Nat} (h : Timed b x) : Timed b (x.tagFault e r s) := by
  unfold Block.tagFault Block.spBreach
  exact Timed.raise (Timed.wr (Timed.wr (Timed.wr h)))
theorem Timed.markFull {b x : Block} {e : Env} {r s : Nat} {t : TagEnt} (h : Timed b x) : Timed b (x.markFull e r s t) := by
  unfold Block.markFull
  split
  · exact Timed.tagFault h
  · exact ⟨h.mem, h.core, h.rest⟩
theorem Timed.release {b x : Block} {e : Env} {r s c : Nat} (h : Timed b x) : Timed b (x.release e r s c) := by
  unfold Block.release
  split
  · exact Timed.tagFault h
  · dsimp only
    have h1 : ∀ y : Block, Timed b y → Timed b (y.advTake r c) := fun y hy => by
      unfold Block.advTake
      dsimp only
      split
      · exact Timed.wr hy
      · exact ⟨hy.mem, hy.core, hy.rest⟩
    apply h1
    split <;> exact ⟨h.mem, h.core, h.rest⟩

/-- Completed tiles mark their destinations and release their sources (05 R135, R141). -/
theorem Timed.land {b x : Block} {e : Env} {t : Nat} (h : Timed b x) : Timed b (x.land e t) := by
  unfold Block.land
  refine Timed.foldl (fun y a hy => ?_) h
  split
  · split
    · unfold Block.finish Block.releaseSources
      dsimp only
      have hf : ∀ y : Block, Timed b y → ∀ (c : Bool), Timed b (if c then y.markVoid else y) := fun y hy c => by
        split
        · exact ⟨hy.mem, hy.core, hy.rest⟩
        · exact hy
      have hd : ∀ y : Block, Timed b y → ∀ i, Timed b (y.dropEntry i) := fun y hy i => ⟨hy.mem, hy.core, hy.rest⟩
      apply hd
      apply hf
      refine Timed.foldl (fun z r hz => Timed.release hz) ?_
      split
      · exact Timed.markFull (Timed.markFull hy)
      · exact Timed.markFull hy
    · exact hy
  all_goals exact hy

/-- Cycles in which no tile changes its stage. -/
theorem Timed.span {b x : Block} {e : Env} {t : Nat} (h : Timed b x) : Timed b (x.span e t) := by
  unfold Block.span
  split
  · exact h
  · extract_lets dt d0 d c b1 b2 b3 b4 b5
    have h1 : Timed b b1 := by
      dsimp only [b1]
      split
      · exact Timed.wr (Timed.wr h)
      · exact h
    have h3 : Timed b b3 := Timed.count (Timed.count h1)
    have h4 : Timed b b4 := by
      dsimp only [b4]
      split
      · exact Timed.count h3
      · exact h3
    have hk : ∀ y : Block, Timed b y → Timed b (y.chkRun dt) := fun y hy => by
      unfold Block.chkRun Block.chkTake
      split
      · exact hy
      · split
        · exact hy
        · exact ⟨hy.mem, hy.core, hy.rest⟩
    have hc : ∀ y : Block, Timed b y → Timed b (y.coreCycles dt) := fun y hy => by
      unfold Block.coreCycles
      split
      · exact hy
      · exact ⟨hy.mem, by rw [hy.core], hy.rest⟩
    have h5 : Timed b b5 := hc _ (hk _ h4)
    exact ⟨h5.mem, h5.core, h5.rest⟩

/-- What passing time may change. -/
theorem Block.advance_timed (e : Env) (b : Block) : Timed b (b.advance e) := by
  unfold Block.advance
  have h : Timed b ((b.stages e.cyc ++ [e.cyc]).foldl (fun (b : Block) t => (b.span e t).land e t) b) :=
    Timed.foldl (fun y t hy => Timed.land (Timed.span hy)) (Timed.refl b)
  dsimp only
  have hr : ∀ y : Block, Timed b y → Timed b (y.retime e) := fun y hy => by
    unfold Block.retime
    split
    · exact hy
    · exact ⟨hy.mem, hy.core, hy.rest⟩
  exact Timed.wr (Timed.wr (Timed.wr (hr _ h)))

/-- A block whose core is at rest or running fetches the same instruction after time has passed. -/
theorem Block.advance_nextInstr (e : Env) (b : Block) : (b.advance e).nextInstr = b.nextInstr := by
  have h := b.advance_timed e
  have hp : (b.advance e).core.pc = b.core.pc := by rw [h.core]
  have hm : (b.advance e).core.mode = b.core.mode := by rw [h.core]
  unfold Block.nextInstr Block.fetch
  rw [hm, hp, h.mem.2.2.1]

/-! ## What a step hands on -/

/-- From `s` to `t` only what records and events reach changes: the hub's registers and counters, functions, error queue, messages. -/
def Noted (s t : State) : Prop :=
  t = { s with hub := t.hub, evcs := t.evcs, fns := t.fns, err := t.err, msgs := t.msgs }

/-- Nothing changes. -/
theorem Noted.refl (s : State) : Noted s s := rfl

/-- One such step more. -/
theorem Noted.mk_ {z s : State} {hub evcs fns err msgs} (h : Noted z s) :
    Noted z { s with hub := hub, evcs := evcs, fns := fns, err := err, msgs := msgs } := by
  cases z; cases s
  simp only [Noted, State.mk.injEq] at h ⊢
  simp [h]

/-- A fold of such steps. -/
theorem Noted.foldl {α : Type} {z s : State} {l : List α} {f : State → α → State} (hf : ∀ x a, Noted z x → Noted z (f x a))
    (h : Noted z s) : Noted z (l.foldl f s) := by
  induction l generalizing s with
  | nil => exact h
  | cons a t ih => exact ih (hf s a h)

theorem Noted.wr {z s : State} {f : Field} {v i j : Nat} (h : Noted z s) : Noted z (s.wr f v i j) := Noted.mk_ h
theorem Noted.inc {z s : State} {c f : Field} {i n : Nat} (h : Noted z s) : Noted z (s.inc c f i n) := by
  unfold State.inc; exact Noted.mk_ h
theorem Noted.set1 {z s : State} {f : Field} {i : Nat} (h : Noted z s) : Noted z (s.set1 f i) := Noted.mk_ h
theorem Noted.count {z s : State} {c n : Nat} {p : Option Nat} (h : Noted z s) : Noted z (s.count c p n) := by
  unfold State.count; split
  · exact h
  · exact Noted.mk_ h
theorem Noted.discard {z s : State} {n : Nat} (h : Noted z s) : Noted z (s.discard n) := by
  unfold State.discard; split
  · exact h
  · exact Noted.inc h
theorem Noted.setFn {z s : State} {k : Nat} {f : Fn} (h : Noted z s) : Noted z (s.setFn k f) := by
  unfold State.setFn; split
  · exact Noted.mk_ h
  · exact h
theorem Noted.vector {z s : State} {k v : Nat} (h : Noted z s) : Noted z (s.vector k v) := by
  unfold State.vector; dsimp only; split
  · exact Noted.setFn h
  · exact Noted.mk_ h
theorem Noted.pfVector {z s : State} {f : Field} (h : Noted z s) : Noted z (s.pfVector f) :=
  Noted.foldl (fun _ _ hx => Noted.vector hx) h
theorem Noted.showQ {z s : State} (h : Noted z s) : Noted z s.showQ := Noted.wr (Noted.wr h)
theorem Noted.hubQueue {z s : State} {r : ErrRec} (h : Noted z s) : Noted z (s.hubQueue r) := by
  unfold State.hubQueue
  extract_lets s1 s2 e s3 r3
  have h3 : Noted z s3 := Noted.foldl (fun _ _ hx => Noted.vector hx) (Noted.count (Noted.inc h))
  clear_value s3 r3
  split
  · split
    · exact Noted.showQ (Noted.mk_ h3)
    · exact Noted.foldl (fun _ _ hx => Noted.vector hx) (Noted.set1 (Noted.inc h3))
  · split
    · exact Noted.showQ (Noted.mk_ h3)
    · exact Noted.foldl (fun _ _ hx => Noted.vector hx) (Noted.inc h3)
theorem Noted.raise {z s : State} {r : ErrRec} (h : Noted z s) : Noted z (s.raise r) := Noted.hubQueue (Noted.mk_ h)
theorem Noted.finish {z s : State} {r : ItemRef} {a b : Nat} (h : Noted z s) : Noted z (s.finish r a b) := Noted.setFn h
theorem Noted.takeEvs {z s : State} {evs : List (Nat × Option Nat × Nat)} (h : Noted z s) : Noted z (s.takeEvs none evs) := by
  unfold State.takeEvs; split
  · exact h
  · exact Noted.mk_ h

/-- From `s` to `t` only the hub's side changes: also contexts and the monument. -/
def Aside (s t : State) : Prop :=
  t = { s with hub := t.hub, evcs := t.evcs, ctxs := t.ctxs, fns := t.fns, err := t.err, msgs := t.msgs, flash := t.flash, mc := t.mc }

/-- Nothing changes. -/
theorem Aside.refl (s : State) : Aside s s := rfl

/-- One such step more. -/
theorem Aside.mk_ {z s : State} {hub evcs ctxs fns err msgs flash mc} (h : Aside z s) :
    Aside z { s with hub := hub, evcs := evcs, ctxs := ctxs, fns := fns, err := err, msgs := msgs, flash := flash, mc := mc } := by
  cases z; cases s
  simp only [Aside, State.mk.injEq] at h ⊢
  simp [h]

/-- A record or an event more. -/
theorem Aside.noted {z s t : State} (h : Aside z s) (k : Noted s t) : Aside z t := by
  rw [k]; exact Aside.mk_ h

/-- A fold of such steps. -/
theorem Aside.foldl {α : Type} {z s : State} {l : List α} {f : State → α → State} (hf : ∀ x a, Aside z x → Aside z (f x a))
    (h : Aside z s) : Aside z (l.foldl f s) := by
  induction l generalizing s with
  | nil => exact h
  | cons a t ih => exact ih (hf s a h)

theorem Aside.wr {z s : State} {f : Field} {v i j : Nat} (h : Aside z s) : Aside z (s.wr f v i j) := Aside.mk_ h
theorem Aside.setCtx {z s : State} {p : Nat} {c : Ctx} (h : Aside z s) : Aside z (s.setCtx p c) := Aside.mk_ h
theorem Aside.startClearing {z s : State} {p : Nat} {b : Bool} (h : Aside z s) : Aside z (s.startClearing p b) :=
  Aside.setCtx (Aside.wr (Aside.wr h))
theorem Aside.teardown {z s : State} {p c : Nat} (h : Aside z s) : Aside z (s.teardown p c) := by
  unfold State.teardown
  dsimp only
  split
  · refine Aside.startClearing ?_
    split
    · exact h.noted (Noted.finish (Noted.refl _))
    · exact h
  · split
    · split
      · exact Aside.setCtx (Aside.wr h)
      · exact Aside.setCtx h
    · exact h
theorem Aside.logAppend {z s : State} {r : LogRec} {ok : Bool} (h : Aside z s) : Aside z (s.logAppend r ok).1 := by
  unfold State.logAppend
  split <;> dsimp only
  · exact h.noted (Noted.raise (Noted.set1 (Noted.refl _)))
  · split <;> dsimp only
    · exact Aside.mk_ h
    · exact h.noted (Noted.raise (Noted.set1 (Noted.refl _)))
theorem Aside.defects {z s : State} {ds : List Defect} (h : Aside z s) : Aside z (s.defects ds) := by
  refine Aside.foldl (fun x d hx => ?_) h
  refine Aside.wr ?_
  split
  · exact Aside.logAppend hx
  · exact Aside.mk_ (Aside.logAppend hx)

/-- Regions, blocks, ports and the other parts outside the hub's side stand. -/
theorem Aside.region {s t : State} (h : Aside s t) (n : Nat) : t.region n = s.region n := by rw [h]; rfl
theorem Aside.block {s t : State} (h : Aside s t) (k : Nat) : t.block k = s.block k := by rw [h]; rfl
theorem Aside.port {s t : State} (h : Aside s t) (k : Nat) : t.port k = s.port k := by rw [h]; rfl

/-! ## Regions -/

/-- A region's step is the region put back, then what it hands on. -/
theorem State.putRegion_aside (s : State) (n : Nat) (g : Region) :
    Aside (s.setRegion n { g with disc := 0, evs := [], defects := [], tears := [] }) (s.putRegion n g) := by
  unfold State.putRegion
  exact Aside.foldl (fun _ _ h => Aside.teardown h) 
    (Aside.defects ((Aside.refl _).noted (Noted.takeEvs (Noted.discard (Noted.refl _)))))

/-- Region `n` after its step. -/
theorem State.region_putRegion_self (s : State) (n : Nat) (g : Region) (h : n < 24) :
    (s.putRegion n g).region n = { g with disc := 0, evs := [], defects := [], tears := [] } := by
  rw [(s.putRegion_aside n g).region, State.region_setRegion_self _ _ _ h]

/-- What a region's step may change. -/
theorem State.putRegion_frame (s : State) (n : Nat) (g : Region) : RegionFrame n s (s.putRegion n g) := by
  have h := s.putRegion_aside n g
  refine ⟨?_, fun m hm => ?_⟩
  · rw [h]; unfold State.setRegion; split <;> rfl
  · rw [h.region, State.region_setRegion_ne _ _ _ _ hm]

/-- A region that is not lost, after its step. -/
theorem State.region_onLiveRegion_self (s : State) (n cyc : Nat) (f : REnv → Region → Region) (hn : n < 24)
    (h : (s.region n).lost = false) :
    (s.onLiveRegion n cyc f).region n = { f (s.renv n cyc) (s.region n) with disc := 0, evs := [], defects := [], tears := [] } := by
  unfold State.onLiveRegion State.onRegion
  rw [h]
  exact State.region_putRegion_self _ _ _ hn

/-- A lost region makes no step. -/
theorem State.onLiveRegion_lost (s : State) (n cyc : Nat) (f : REnv → Region → Region) (h : (s.region n).lost = true) :
    s.onLiveRegion n cyc f = s := by
  unfold State.onLiveRegion; rw [h]; rfl

/-- What a step of a region may change. -/
theorem State.onLiveRegion_frame (s : State) (n cyc : Nat) (f : REnv → Region → Region) :
    RegionFrame n s (s.onLiveRegion n cyc f) := by
  unfold State.onLiveRegion State.onRegion
  split
  · exact ⟨rfl, fun _ _ => rfl⟩
  · exact State.putRegion_frame _ _ _

/-- A teardown for a lost region changes the hub's side alone. -/
theorem Aside.tearLoss {z s : State} {k p : Nat} (h : Aside z s) : Aside z (s.tearLoss k p) := by
  unfold State.tearLoss
  dsimp only
  split
  · exact Aside.teardown h
  · split
    · split
      · exact Aside.setCtx (Aside.wr h)
      · exact Aside.setCtx h
    · exact h

/-- Marking regions lost. -/
theorem State.mark_lost (l : List Nat) (s : State) (m : Nat) (hm : m < 24) :
    (l.foldl (fun (s : State) n => s.setRegion n { s.region n with lost := true, stopped := true }) s).region m =
      if m ∈ l then { s.region m with lost := true, stopped := true } else s.region m := by
  induction l generalizing s with
  | nil => simp
  | cons a l ih =>
    rw [List.foldl_cons, ih]
    by_cases h : m = a
    · subst h
      rw [State.region_setRegion_self _ _ _ hm]
      simp
    · rw [State.region_setRegion_ne _ _ _ _ h]
      simp [h]

/-- A region that is not lost yet and that one of the roots takes with it is lost and stopped. -/
theorem State.loseRegions_region (s : State) (cause : Nat) (roots : List Nat) (m : Nat) (hm : m < 24) :
    (s.loseRegions cause roots).region m =
      if (roots.flatMap lostWith).contains m = true ∧ (s.region m).lost = false then
        { s.region m with lost := true, stopped := true } else s.region m := by
  have hmem : m ∈ (List.range 24).filter (fun n => (roots.flatMap lostWith).contains n && !(s.region n).lost) ↔
      (roots.flatMap lostWith).contains m = true ∧ (s.region m).lost = false := by simp [hm]
  unfold State.loseRegions
  extract_lets new s1 r s2 k e3 s3
  have h2 : Aside s1 s3 := ((Aside.refl s1).noted (Noted.raise (Noted.refl s1))).noted (Noted.mk_ (Noted.refl _))
  split
  · next h =>
    rw [if_neg]
    rw [← hmem]
    have hn : new = [] := List.isEmpty_iff.mp h
    exact fun x => by
      have x : m ∈ new := x
      rw [hn] at x; simp at x
  · rw [(Aside.foldl (fun _ _ h => Aside.tearLoss h) h2).region]
    show s1.region m = _
    rw [State.mark_lost _ _ _ hm]
    exact if_congr hmem rfl rfl

/-! ## Sightline ports -/

/-- A port's step is the port put back, then what it hands on. -/
theorem State.putPort_noted (s : State) (k : Nat) (p : Port) :
    Noted (s.setPort k { p with recs := [], evs := [] }) (s.putPort k p) := by
  unfold State.putPort
  have h := Noted.foldl (l := p.recs) (f := fun s r => s.raise r) (fun _ _ h => Noted.raise h)
    (Noted.takeEvs (evs := p.evs) (Noted.refl (s.setPort k { p with recs := [], evs := [] })))
  dsimp only
  split
  · exact h
  · exact Noted.pfVector h

/-- Ports stand. -/
theorem Noted.port {s t : State} (h : Noted s t) (k : Nat) : t.port k = s.port k := by rw [h]; rfl

/-- What a port's step may change. -/
theorem State.onPort_frame (s : State) (k t : Nat) (f : PEnv → Port → Port) : PortFrame k s (s.onPort k t f) := by
  have h := s.putPort_noted k (f (s.penv k t) (s.port k))
  refine ⟨?_, fun j hj => ?_⟩
  · unfold State.onPort
    rw [h]; unfold State.setPort; split <;> rfl
  · unfold State.onPort
    rw [h.port, State.port_setPort_ne _ _ _ _ hj]

/-- Port `k` after its step. -/
theorem State.port_onPort_self (s : State) (k t : Nat) (f : PEnv → Port → Port) (h : k < 24) :
    (s.onPort k t f).port k = { f (s.penv k t) (s.port k) with recs := [], evs := [] } := by
  unfold State.onPort
  rw [(s.putPort_noted k _).port, State.port_setPort_self _ _ _ h]

end Sys2Proof.Machine
end

