-- ==== Sys2Proof/Tests/Slice0.lean ====
section
/-!
SUPPORT. The model's own tests: ill-formed commands that WellFormed refuses, states that meet the hypotheses of the statements, and
single commands whose results the spec's own numbers give.
-/
namespace Sys2Proof.Tests
set_option Elab.async false
open Sys2Proof.Machine

/-! Ill-formed commands: each index one past its range, each address off its word, each absent unit is refused. -/

theorem test_illformed_stepTail_0 :
    (¬ Instr.WellFormed (.stepTail 24)) ∧
    (¬ Instr.WellFormed (.beatStart 24)) ∧
    (∀ ring, ¬ Instr.WellFormed (.crLastLoRead 34 ring)) ∧
    (¬ Instr.WellFormed (.crLastLoRead 0 (fnRings 0))) ∧
    (∀ at_, ¬ at_.wf → ¬ Instr.WellFormed (.evcLoRead at_)) ∧
    (∀ at_, ¬ at_.wf → ¬ Instr.WellFormed (.evcSnapLoRead at_)) ∧
    (∀ addr size x2, ¬ Instr.WellFormed (.registerWrite 34 addr ⟨size, x2⟩)) ∧
    (∀ fn size x2, ¬ Instr.WellFormed (.registerWrite fn 0x4000000 ⟨size, x2⟩)) ∧
    (∀ fn addr x2, ¬ Instr.WellFormed (.registerWrite fn addr ⟨9, x2⟩)) ∧
    (¬ Instr.WellFormed (.countClr 0x4000000)) ∧
    (¬ Instr.WellFormed (.countClr 6)) ∧
    (∀ x1, ¬ Instr.WellFormed (.tpush 4608 x1)) := by
  simp +contextual [Instr.WellFormed]

theorem test_illformed_tfull_1 :
    (∀ x1, ¬ Instr.WellFormed (.tfull 4608 x1)) ∧
    (∀ x1, ¬ Instr.WellFormed (.trel 4608 x1)) ∧
    (∀ x1, ¬ Instr.WellFormed (.taddrT 4608 x1)) ∧
    (∀ x1, ¬ Instr.WellFormed (.taddrF 4608 x1)) ∧
    (∀ x1, ¬ Instr.WellFormed (.tfence 4608 x1)) ∧
    (∀ x1, ¬ Instr.WellFormed (.tframe 4608 x1)) ∧
    (∀ x1, ¬ Instr.WellFormed (.tcrcB 4608 x1)) ∧
    (∀ x1, ¬ Instr.WellFormed (.tcrcH 4608 x1)) ∧
    (∀ x1, ¬ Instr.WellFormed (.tcrcW 4608 x1)) ∧
    (∀ x1, ¬ Instr.WellFormed (.scalarInstruction 4608 x1)) ∧
    (∀ x1, ¬ Instr.WellFormed (.mret 4608 x1)) ∧
    (∀ x1, ¬ Instr.WellFormed (.terrWrite 4608 x1)) := by
  simp +contextual [Instr.WellFormed]

theorem test_illformed_slotLoadTimeout_2 :
    (∀ x1, ¬ Instr.WellFormed (.slotLoadTimeout 4608 x1)) ∧
    (∀ x1, ¬ Instr.WellFormed (.coreStart 4608 x1)) ∧
    (∀ x1, ¬ Instr.WellFormed (.matrixIssue 4608 x1)) ∧
    (∀ x1 faults, ¬ Instr.WellFormed (.tileOutcome 4608 x1 faults)) ∧
    (∀ x1, ¬ Instr.WellFormed (.tileOutcome 0 x1 [{ row := 65, col := 0, mask := 0 }])) ∧
    (∀ x1, ¬ Instr.WellFormed (.bankCommandIssue 4608 x1)) ∧
    (∀ x1, ¬ Instr.WellFormed (.bankCommandDone 4608 x1)) ∧
    (∀ x1, ¬ Instr.WellFormed (.codebookLoad 4608 x1)) ∧
    (∀ x1, ¬ Instr.WellFormed (.lookupLoad 4608 x1)) ∧
    (∀ x1, ¬ Instr.WellFormed (.checkCommand 4608 x1)) ∧
    (∀ x1, ¬ Instr.WellFormed (.checkDone 4608 x1)) ∧
    (∀ x1, ¬ Instr.WellFormed (.stakeDriveCommand 4608 x1)) := by
  simp +contextual [Instr.WellFormed]

theorem test_illformed_stakeSight_3 :
    (∀ x1, ¬ Instr.WellFormed (.stakeSight 4608 x1)) ∧
    (∀ at_, ¬ at_.wf → ¬ Instr.WellFormed (.sightTimeout at_)) ∧
    (∀ x1, ¬ Instr.WellFormed (.planPoint 4608 x1)) ∧
    (∀ idx, ¬ Instr.WellFormed (.cbLoad 4608 idx)) ∧
    (∀ blk, ¬ Instr.WellFormed (.cbLoad blk 32)) ∧
    (∀ idx, ¬ Instr.WellFormed (.cbDrop 4608 idx)) ∧
    (∀ blk, ¬ Instr.WellFormed (.cbDrop blk 32)) ∧
    (∀ at_ p, ¬ at_.wf → ¬ Instr.WellFormed (.chkPolyWrite at_ p)) ∧
    (∀ at_, ¬ Instr.WellFormed (.chkPolyWrite at_ 4)) ∧
    (∀ at_, ¬ at_.wf → ¬ Instr.WellFormed (.chkInit at_)) ∧
    (∀ at_ x1, ¬ at_.wf → ¬ Instr.WellFormed (.chkSeed at_ x1)) ∧
    (∀ x1 ep x3, ¬ Instr.WellFormed (.inboundWord 4608 x1 ep x3)) := by
  simp +contextual [Instr.WellFormed]

theorem test_illformed_inboundWord_4 :
    (∀ blk x1 x3, ¬ Instr.WellFormed (.inboundWord blk x1 64 x3)) ∧
    (∀ x1, ¬ Instr.WellFormed (.heldWordWrite 4608 x1)) ∧
    (∀ x1, ¬ Instr.WellFormed (.holdWindowExpiry 4608 x1)) ∧
    (∀ x1 x2, ¬ Instr.WellFormed (.scrubSlot 4608 ⟨x1, x2⟩)) ∧
    (∀ x1, ¬ Instr.WellFormed (.spPwrWrite 4608 x1)) ∧
    (∀ x1 eng desc, ¬ Instr.WellFormed (.transferStart 24 x1 eng desc)) ∧
    (∀ n x1 desc, ¬ Instr.WellFormed (.transferStart n x1 8 desc)) ∧
    (∀ n x1 eng, ¬ Instr.WellFormed (.transferStart n x1 eng 256)) ∧
    (∀ x1 eng desc, ¬ Instr.WellFormed (.requestAccepted 24 x1 eng desc)) ∧
    (∀ n x1 desc, ¬ Instr.WellFormed (.requestAccepted n x1 8 desc)) ∧
    (∀ n x1 eng, ¬ Instr.WellFormed (.requestAccepted n x1 eng 256)) ∧
    (∀ x1 eng desc x4 x5, ¬ Instr.WellFormed (.lineLanded 24 x1 eng desc x4 x5)) := by
  simp +contextual [Instr.WellFormed]

theorem test_illformed_lineLanded_5 :
    (∀ n x1 desc x4 x5, ¬ Instr.WellFormed (.lineLanded n x1 8 desc x4 x5)) ∧
    (∀ n x1 eng x4 x5, ¬ Instr.WellFormed (.lineLanded n x1 eng 256 x4 x5)) ∧
    (∀ x1 eng desc x4 x5, ¬ Instr.WellFormed (.requestAbandon 24 x1 eng desc x4 x5)) ∧
    (∀ n x1 desc x4 x5, ¬ Instr.WellFormed (.requestAbandon n x1 8 desc x4 x5)) ∧
    (∀ n x1 eng x4 x5, ¬ Instr.WellFormed (.requestAbandon n x1 eng 256 x4 x5)) ∧
    (∀ x1 idx port, ¬ Instr.WellFormed (.storeStreamAccess 24 x1 idx port)) ∧
    (∀ n x1 port, ¬ Instr.WellFormed (.storeStreamAccess n x1 64 port)) ∧
    (∀ n x1 idx, ¬ Instr.WellFormed (.storeStreamAccess n x1 idx 8)) ∧
    (∀ x1 us, ¬ Instr.WellFormed (.storeScrub 24 ⟨x1, us⟩)) ∧
    (∀ n x1, ¬ Instr.WellFormed (.storeScrub n ⟨x1, [(4194304, 1)]⟩)) ∧
    (∀ x1 us, ¬ Instr.WellFormed (.patrolScrub 24 ⟨x1, us⟩)) ∧
    (∀ n x1, ¬ Instr.WellFormed (.patrolScrub n ⟨x1, [(0, 3)]⟩)) ∧
    (∀ blk x1, ¬ Instr.WellFormed (.scrubSlot blk ⟨x1, [(131072, 1)]⟩)) ∧
    (∀ x1, ¬ Instr.WellFormed (.memZeroStart 24 x1)) ∧
    (∀ x1, ¬ Instr.WellFormed (.zeroFillDone 24 x1)) := by
  simp +contextual [Instr.WellFormed]

theorem test_illformed_wordArrival_6 :
    (∀ at_ x1, ¬ at_.wf → ¬ Instr.WellFormed (.wordArrival at_ x1)) ∧
    (∀ slot x2, ¬ Instr.WellFormed (.marginSample 24 slot x2)) ∧
    (∀ n x2, ¬ Instr.WellFormed (.marginSample n 2 x2)) ∧
    (∀ slot, ¬ Instr.WellFormed (.segmentRecal 24 slot)) ∧
    (∀ n, ¬ Instr.WellFormed (.segmentRecal n 2)) ∧
    (∀ slot x2, ¬ Instr.WellFormed (.recalDone 24 slot x2)) ∧
    (∀ n x2, ¬ Instr.WellFormed (.recalDone n 2 x2)) ∧
    (∀ x1, ¬ Instr.WellFormed (.circuitLockLost 72 x1)) ∧
    (∀ x1 ep, ¬ Instr.WellFormed (.tileReceived 4608 x1 ep)) ∧
    (∀ blk x1, ¬ Instr.WellFormed (.tileReceived blk x1 64)) ∧
    (∀ x1 ep, ¬ Instr.WellFormed (.deliveryFull 4608 x1 ep)) ∧
    (∀ blk x1, ¬ Instr.WellFormed (.deliveryFull blk x1 64)) := by
  simp +contextual [Instr.WellFormed]

theorem test_illformed_storeInTile_7 :
    (∀ x1 idx port x4, ¬ Instr.WellFormed (.storeInTile 24 x1 idx port x4)) ∧
    (∀ n x1 port x4, ¬ Instr.WellFormed (.storeInTile n x1 64 port x4)) ∧
    (∀ n x1 idx x4, ¬ Instr.WellFormed (.storeInTile n x1 idx 8 x4)) ∧
    (∀ x1, ¬ Instr.WellFormed (.landingTile 24 x1)) ∧
    (∀ at_, ¬ at_.wf → ¬ Instr.WellFormed (.driveWordReceived at_)) ∧
    (∀ at_, ¬ at_.wf → ¬ Instr.WellFormed (.driveApplied at_)) ∧
    (∀ ring x2, ¬ Instr.WellFormed (.platLoad 34 ring x2)) ∧
    (∀ x2, ¬ Instr.WellFormed (.platLoad 0 (fnRings 0) x2)) ∧
    (∀ ring x2, ¬ Instr.WellFormed (.platUnload 34 ring x2)) ∧
    (∀ x2, ¬ Instr.WellFormed (.platUnload 0 (fnRings 0) x2)) ∧
    (∀ ring x2, ¬ Instr.WellFormed (.platCutover 34 ring x2)) ∧
    (∀ x2, ¬ Instr.WellFormed (.platCutover 0 (fnRings 0) x2)) := by
  simp +contextual [Instr.WellFormed]

theorem test_illformed_cutCancel_8 :
    (∀ ring x2, ¬ Instr.WellFormed (.cutCancel 34 ring x2)) ∧
    (∀ x2, ¬ Instr.WellFormed (.cutCancel 0 (fnRings 0) x2)) ∧
    (¬ Instr.WellFormed (.cutAcknowledge 24)) ∧
    (¬ Instr.WellFormed (.cutWithdrawal 24)) ∧
    (∀ x1 lane x3 x4, ¬ Instr.WellFormed (.laneLock 24 x1 lane x3 x4)) ∧
    (∀ port x1 x3 x4, ¬ Instr.WellFormed (.laneLock port x1 8 x3 x4)) ∧
    (∀ x1 lane x3, ¬ Instr.WellFormed (.laneLockLost 24 x1 lane x3)) ∧
    (∀ port x1 x3, ¬ Instr.WellFormed (.laneLockLost port x1 8 x3)) ∧
    (∀ x1 x2, ¬ Instr.WellFormed (.shotReceived 24 x1 x2)) ∧
    (∀ x1, ¬ Instr.WellFormed (.replayTimeout 24 x1)) ∧
    (∀ x1 x2 x3 x4, ¬ Instr.WellFormed (.sightlineWordEnqueue 24 x1 x2 x3 x4)) ∧
    (∀ x1, ¬ Instr.WellFormed (.datumTimer 24 x1)) := by
  simp +contextual [Instr.WellFormed]

theorem test_illformed_datumReceived_9 :
    (∀ x1, ¬ Instr.WellFormed (.datumReceived 24 x1)) ∧
    (¬ Instr.WellFormed (.frameVoidNotice 24)) ∧
    (¬ Instr.WellFormed (.voidContextReceived 24)) ∧
    (¬ Instr.WellFormed (.slSwap 24)) ∧
    (¬ Instr.WellFormed (.slReset 24)) ∧
    (∀ x1, ¬ Instr.WellFormed (.lsrcInsert 8 x1)) ∧
    (¬ Instr.WellFormed (.lsrcRemove 8)) ∧
    (∀ x1, ¬ Instr.WellFormed (.lsrcFault 8 x1)) ∧
    (∀ ring x2, ¬ Instr.WellFormed (.doorbell 34 ring x2)) ∧
    (∀ x2, ¬ Instr.WellFormed (.doorbell 0 (fnRings 0) x2)) ∧
    (∀ ring x2, ¬ Instr.WellFormed (.itemBegin 34 ring x2)) ∧
    (∀ x2, ¬ Instr.WellFormed (.itemBegin 0 (fnRings 0) x2)) := by
  simp +contextual [Instr.WellFormed]

theorem test_illformed_nop_10 :
    (∀ ring x2, ¬ Instr.WellFormed (.nop 34 ring x2)) ∧
    (∀ x2, ¬ Instr.WellFormed (.nop 0 (fnRings 0) x2)) ∧
    (∀ ring x2, ¬ Instr.WellFormed (.stakeDrive 34 ring x2)) ∧
    (∀ x2, ¬ Instr.WellFormed (.stakeDrive 0 (fnRings 0) x2)) ∧
    (∀ ring x2 x3, ¬ Instr.WellFormed (.dmaToDev 34 ring x2 x3)) ∧
    (∀ x2 x3, ¬ Instr.WellFormed (.dmaToDev 0 (fnRings 0) x2 x3)) ∧
    (∀ ring x2, ¬ Instr.WellFormed (.dmaFromDev 34 ring x2)) ∧
    (∀ x2, ¬ Instr.WellFormed (.dmaFromDev 0 (fnRings 0) x2)) ∧
    (∀ ring x2, ¬ Instr.WellFormed (.ctxAdmit 34 ring x2)) ∧
    (∀ x2, ¬ Instr.WellFormed (.ctxAdmit 0 (fnRings 0) x2)) ∧
    (∀ ring x2, ¬ Instr.WellFormed (.ctxTeardown 34 ring x2)) ∧
    (∀ x2, ¬ Instr.WellFormed (.ctxTeardown 0 (fnRings 0) x2)) := by
  simp +contextual [Instr.WellFormed]

theorem test_illformed_testpack_11 :
    (∀ ring x2 x3 x4, ¬ Instr.WellFormed (.testpack 34 ring x2 x3 x4)) ∧
    (∀ x2 x3 x4, ¬ Instr.WellFormed (.testpack 0 (fnRings 0) x2 x3 x4)) ∧
    (∀ ring, ¬ Instr.WellFormed (.itemComplete 34 ring)) ∧
    (¬ Instr.WellFormed (.itemComplete 0 (fnRings 0))) ∧
    (∀ ring x2, ¬ Instr.WellFormed (.ringFlush 34 ring x2)) ∧
    (∀ x2, ¬ Instr.WellFormed (.ringFlush 0 (fnRings 0) x2)) ∧
    (∀ ring x2 x3, ¬ Instr.WellFormed (.ringDisable 34 ring x2 x3)) ∧
    (∀ x2 x3, ¬ Instr.WellFormed (.ringDisable 0 (fnRings 0) x2 x3)) ∧
    (∀ x1 x2, ¬ Instr.WellFormed (.bar2Access 34 x1 x2)) ∧
    (¬ Instr.WellFormed (.fieldBookWrite 34)) ∧
    (¬ Instr.WellFormed (.flr 34)) ∧
    (¬ Instr.WellFormed (.linkDown 2)) := by
  simp +contextual [Instr.WellFormed]

theorem test_illformed_d3hot_12 :
    (¬ Instr.WellFormed (.d3hot 34)) ∧
    (¬ Instr.WellFormed (.stepCommit 24)) ∧
    (¬ Instr.WellFormed (.idlePllLock 24)) ∧
    (¬ Instr.WellFormed (.pllLockDeadline 24)) ∧
    (¬ Instr.WellFormed (.regulatorReport 24)) ∧
    (¬ Instr.WellFormed (.diePllLost 4)) ∧
    (¬ Instr.WellFormed (.regionPllLost 24)) ∧
    (∀ x1 dom, ¬ Instr.WellFormed (.droopTrip 24 x1 dom)) ∧
    (∀ n x1, ¬ Instr.WellFormed (.droopTrip n x1 4)) ∧
    (∀ x1 dom x3, ¬ Instr.WellFormed (.droopClear 24 x1 dom x3)) ∧
    (∀ n x1 x3, ¬ Instr.WellFormed (.droopClear n x1 4 x3)) ∧
    (∀ m, ¬ m.wf → ¬ Instr.WellFormed (.powerSample m)) := by
  simp +contextual [Instr.WellFormed]

theorem test_illformed_currentWindow_13 :
    (∀ at_, ¬ at_.wf → ¬ Instr.WellFormed (.currentWindow at_)) ∧
    (∀ draws, draws.length ≠ 96 → ¬ Instr.WellFormed (.controlInterval draws)) ∧
    (¬ Instr.WellFormed (.converterFault true 4)) ∧
    (¬ Instr.WellFormed (.converterFault false 12)) ∧
    (∀ dom ph, ¬ Instr.WellFormed (.phaseLost 24 dom ph)) ∧
    (∀ n ph, ¬ Instr.WellFormed (.phaseLost n 4 ph)) ∧
    (∀ n dom, ¬ Instr.WellFormed (.phaseLost n dom 8)) ∧
    (∀ ph, ¬ Instr.WellFormed (.fabricPhaseLost 24 ph)) ∧
    (∀ n, ¬ Instr.WellFormed (.fabricPhaseLost n 2)) ∧
    (∀ dom ph x3, ¬ Instr.WellFormed (.phaseTest 24 dom ph x3)) ∧
    (∀ n ph x3, ¬ Instr.WellFormed (.phaseTest n 4 ph x3)) ∧
    (∀ n dom x3, ¬ Instr.WellFormed (.phaseTest n dom 8 x3)) := by
  simp +contextual [Instr.WellFormed]

theorem test_illformed_domainStateRequest_14 :
    (∀ dom req, ¬ Instr.WellFormed (.domainStateRequest 24 dom req)) ∧
    (∀ n req, ¬ Instr.WellFormed (.domainStateRequest n 4 req)) ∧
    (∀ n dom, ¬ Instr.WellFormed (.domainStateRequest n dom 4)) ∧
    (∀ dom v, ¬ Instr.WellFormed (.ofsWrite 24 dom v)) ∧
    (∀ n v, ¬ Instr.WellFormed (.ofsWrite n 4 v)) ∧
    (∀ n dom, ¬ Instr.WellFormed (.ofsWrite n dom 8)) ∧
    (∀ dom x2, ¬ Instr.WellFormed (.ageMeasure 24 dom x2)) ∧
    (∀ n x2, ¬ Instr.WellFormed (.ageMeasure n 4 x2)) ∧
    (∀ x1, ¬ Instr.WellFormed (.pmbusPage 256 x1)) ∧
    (¬ Instr.WellFormed (.pmbusUnsupported 256)) ∧
    (∀ x1, ¬ Instr.WellFormed (.regionRecordReceived 4608 x1)) ∧
    (¬ Instr.WellFormed (.hubRecordReceived 24)) := by
  simp +contextual [Instr.WellFormed]

theorem test_illformed_suspectClear_15 :
    (∀ idx, ¬ Instr.WellFormed (.suspectClear 24 idx)) ∧
    (∀ n, ¬ Instr.WellFormed (.suspectClear n 16)) ∧
    (∀ idx, ¬ Instr.WellFormed (.ledgerRelease 24 idx)) ∧
    (∀ n, ¬ Instr.WellFormed (.ledgerRelease n 16)) ∧
    (∀ x1, ¬ Instr.WellFormed (.retest 24 x1)) ∧
    (∀ b, ¬ Instr.WellFormed (.hostFence 24 b)) ∧
    (∀ n, ¬ Instr.WellFormed (.hostFence n 192)) ∧
    (∀ b, ¬ Instr.WellFormed (.ledgerClear 24 b)) ∧
    (∀ n, ¬ Instr.WellFormed (.ledgerClear n 192)) ∧
    (∀ x1 x2 x3, ¬ Instr.WellFormed (.testTileDone 4608 x1 x2 x3)) ∧
    (∀ blk x1 x3, ¬ Instr.WellFormed (.testTileDone blk x1 65 x3)) ∧
    (∀ cause, ¬ Instr.WellFormed (.teardownRequest 16 cause)) ∧
    (∀ p, ¬ Instr.WellFormed (.teardownRequest p 16)) := by
  simp +contextual [Instr.WellFormed]

theorem test_illformed_loadingDone_16 :
    (¬ Instr.WellFormed (.loadingDone 16)) ∧
    (¬ Instr.WellFormed (.clearingDone 16)) ∧
    (¬ Instr.WellFormed (.slHoldStart 24)) ∧
    (∀ x1, ¬ Instr.WellFormed (.slHoldEnd 24 x1)) ∧
    (∀ x1, ¬ Instr.WellFormed (.doubledRefresh 24 x1)) ∧
    (¬ Instr.WellFormed (.linkUp 2)) ∧
    (¬ Instr.WellFormed (.powerStateD0 34)) ∧
    (∀ vec, ¬ Instr.WellFormed (.msixVectorUnmask 34 vec)) ∧
    (∀ fn, ¬ Instr.WellFormed (.msixVectorUnmask fn 32)) ∧
    (¬ Instr.WellFormed (.regionControllerFault 24)) ∧
    (¬ Instr.WellFormed (.managementPathCut 24)) := by
  simp +contextual [Instr.WellFormed]

theorem test_illformed_places :
    (¬ (CtrAt.block 4608 0).wf ∧ ¬ (CtrAt.block 0 4).wf ∧ ¬ (CtrAt.region 24 0).wf ∧ ¬ (CtrAt.region 0 16).wf ∧ ¬ (CtrAt.hub 32).wf) ∧
    (¬ (ChkAt.block 4608).wf) ∧
    (∀ c, ¬ (WaitAt.block 4608 c).wf ∧ ¬ (WaitAt.engine 24 c 0 0).wf ∧ ¬ (WaitAt.engine 0 c 8 0).wf ∧ ¬ (WaitAt.engine 0 c 0 256).wf ∧
      ¬ (WaitAt.stream 24 c 0).wf ∧ ¬ (WaitAt.stream 0 c 64).wf) ∧
    (∀ c, ¬ (UnitAt.block 4608 c).wf ∧ ¬ (UnitAt.region 24 c).wf) ∧
    (∀ c o b, ¬ (WordAt.launch 4608 c).wf ∧ ¬ (WordAt.input 4608 c 1 o b).wf ∧ ¬ (WordAt.input 0 c 0 o b).wf ∧
      ¬ (WordAt.input 0 c 5 o b).wf ∧ ¬ (WordAt.edge 24 c 0).wf ∧ ¬ (WordAt.edge 0 c 16).wf ∧ ¬ (WordAt.shore 4 0 c).wf ∧
      ¬ (WordAt.shore 0 12 c).wf) ∧
    (∀ c w, ¬ (LegAt.endpoint 4608 c 0).wf ∧ ¬ (LegAt.endpoint 0 c 64).wf ∧ ¬ (LegAt.stream 24 c 0 w).wf ∧ ¬ (LegAt.stream 0 c 64 w).wf) ∧
    (∀ ma, ¬ (WinAt.dom 24 0 ma).wf ∧ ¬ (WinAt.dom 0 4 ma).wf ∧ ¬ (WinAt.ibc 12 ma).wf) := by
  simp [CtrAt.wf, ChkAt.wf, WaitAt.wf, UnitAt.wf, WordAt.wf, LegAt.wf, WinAt.wf]

theorem test_illformed_sample (m : Meas) (h : m.tj = []) : ¬ m.wf := by
  simp [Meas.wf, h]
/-! ## The spec's own numbers -/

/-- The ASCII bytes of 123456789. -/
def digits : List Byte := [0x31, 0x32, 0x33, 0x34, 0x35, 0x36, 0x37, 0x38, 0x39]

/-- Table 6-9, its last column. -/
theorem test_crc_checks : (List.range 4).map (fun p => crcOf p digits) = [0xE3069283, 0xCBF43926, 0x29B1, 0x6C40DF5F0B497347] := by
  decide +kernel

/-- 01_dies_fields_blocks.md, worked example: block (17, 37) of die 2 with a column skipped in region row 5. -/
theorem test_block_numbers :
    regionOf 3209 = 17 ∧ indexOf 3209 = 65 ∧ chipBlk 17 65 = 3209 ∧
    ({ skip0 := 0xCC3CCCCC } : Region).pblk 17 65 = 3477 := by decide +kernel

/-- A region whose clock runs at step `a`. -/
def wClock (a : Nat) : State := { State.reset with regions := [(0, ({} : Region).wr RGN_CLK_STAT_CUR a)] }

/-- 02_the_frame.md, worked example: the default frame and the shortest frame at 1.10 GHz. -/
theorem test_frame_spans :
    (wClock 1).res = 2000 ∧ (wClock 1).wholeBeats 0 = 979 ∧ (wClock 1).reserveCyc 0 = 22176 ∧
    (let s := { wClock 1 with frame := { (wClock 1).frame with len := 2000, resQ := 16 } }
     s.res = 80 ∧ s.wholeBeats 0 = 73 ∧ s.reserveCyc 0 = 1112) := by decide +kernel

/-- 14_clocks.md, worked example: the same frame at 0.95 GHz. -/
theorem test_frame_after_step : (wClock 3).wholeBeats 0 = 846 ∧ (wClock 3).reserveCyc 0 = 19024 := by decide +kernel

/-- 03_cell_array.md, worked check: an I8 × I8 tile with M = 2, N = 3, K = 2. -/
def wCells : TileIn :=
  { rate := 2, isInt := true, m := 2, n := 3, k := 2
    ai := fun i k => ([[3, -2], [1, 4]].getD i []).getD k 0
    bi := fun k j => ([[5, 0, -1], [2, 7, 3]].getD k []).getD j 0
    af := fun _ _ => .nan, bf := fun _ _ => .nan, init := fun _ _ => 0 }

/-- Data rows 11, −14, −9 and 13, 28, 11 pass their comparison; tile time 68; one changed cell fails in its own row. -/
theorem test_tile_check :
    comparePass true 2 3 0 0 (accOf wCells) [] = ⟨[[11, 2 ^ 32 - 14, 2 ^ 32 - 9], [13, 28, 11]], none, false⟩ ∧
    (comparePass true 2 3 0 0 (accOf wCells) [⟨1, 2, 16⟩]).fail = some ⟨0, 1⟩ ∧ tileTime 1 1 2 = 68 := by decide +kernel

/-- 09_stations_traverses.md, worked example: compute cycles of the stations' pairs. -/
theorem test_tile_times :
    computeCycles 1 0 4480 = 2240 ∧ computeCycles 1 1 1024 = 512 ∧ tileTime 0 0 4480 + 4 = 1191 := by decide +kernel

/-- The standard grid (04 Table 4-2). -/
def bell : Grid := [-127, -88, -62, -44, -30, -19, -9, 0, 8, 17, 27, 38, 51, 67, 89, 127]

/-- 04_number_formats.md, worked example: a rescaled tile of four elements, drained to `ofmt`. -/
def wDrain (ofmt : Nat) : DrainIn :=
  { isInt := true, m := 1, n := 4
    d := { ofmt := 0, rsc := true, sat := true, wid := true, cbo := 31, ccwRsv := 0, acc := false, ringP := 0, luten := false,
           lut := 0, cmx := 0, rtab := 0, ringC := 0, rmx := false, ringR := 0, cmxk := 0 }
    ofmt := ofmt, sat := true, grid := bell
    scale := fun j => [0x3B000000, 0x3B000000, 0x3A000000, 0x3C800000].getD j 0
    offset := fun j => if j = 3 then 0xC0200000 else 0
    part := fun _ _ => 0, cmp := fun _ _ => 0, x0 := 0, rinv := 0, y := fun _ => 0 }

/-- The accumulators 21,350, −4,100, 96,000 and 600. -/
def wAccs : List (List Nat) := [[21350, 2 ^ 32 - 4100, 96000, 600]]

/-- The first pass, to G4: bytes 0x6B and 0x8C, then the zero code; statistic 0x4103_CCB4. -/
theorem test_drain_g4 :
    (wDrain 0).grid = bell ∧ (drainTile (wDrain 0) wAccs).stat = 0x4103CCB4 ∧
    (((drainTile (wDrain 0) wAccs).rows.getD 0 []).take 6) = [0xB, 0x6, 0xC, 0x8, 7, 7] := by decide +kernel

/-- The widened re-run, to F8E4: bytes 0x62, 0xD0, 0x64 and 0x4E, then zeros; statistic 0x3F85_65A0. -/
theorem test_drain_widened :
    (drainTile (wDrain 2) wAccs).stat = 0x3F8565A0 ∧
    (((drainTile (wDrain 2) wAccs).rows.getD 0 []).take 5) = [0x62, 0xD0, 0x64, 0x4E, 0] := by decide +kernel

/-- 15_power_delivery.md, worked example: 180.0 A and 0.775 V as PMBus words; VID 62 of 1.10 GHz. -/
theorem test_pmbus_words : linear11 180000 1000 = 0xF2D0 ∧ linear16 775 = 0x0C66 ∧ vidOfMult (stepMult 0 1) = 62 := by
  decide +kernel

/-- The table gives no command bits, so no word spells a command. -/
theorem test_no_word_decodes (n w : Nat) : decodeTableWord n w = none := rfl

/-! ## States that meet the hypotheses of the statements -/

/-- A device that is ready. -/
def wReady : State := State.reset.wr BRUP_STAT_READY 1

/-- A device whose frames run. -/
def wRun : State := { wReady with frame := { wReady.frame with running := true } }

/-- A region outside the boundary gap with core domain 0 on. -/
def wOn : Region := (({} : Region).wr PWR_DOM_STAT_STATE 1 0).wr RGN_BEAT_GAP 0

/-- A device with that region, changed by `f`, and block 0. -/
def wLive (b : Block) (f : Region → Region := id) : State := { wRun with regions := [(0, f wOn)], blocks := [(0, b)] }

/-- A parcel's context is active. -/
def wActive (s : State) (p : Nat) : State := s.wr CTX_STAT_STATE 2 p

theorem witness_QueueIsFirstInFirstOut : wRun.pending = [] ∧ wRun.frame.running = true ∧ State.reset.frame.running = false := by
  decide +kernel

theorem witness_LogicalBlockNumbers : 3 < 4 ∧ 23 < 24 ∧ 47 < 48 ∧ regionOf (1152 * 3 + 24 * 47 + 23) = 23 := by decide +kernel

theorem witness_FusesNeverChange : step wReady = .next wReady := rfl

theorem witness_QueuesStayInTheirBounds : queueOk wReady.err.q = true ∧ wReady.err.wait.length ≤ 1024 ∧ step wReady = .next wReady :=
  ⟨by decide +kernel, by decide +kernel, rfl⟩

theorem witness_MemoriesStayCanonical : wReady.canonical = true ∧ step wReady = .next wReady := ⟨by decide +kernel, rfl⟩

theorem witness_OnlyTicksAndResetsMoveTheFrameNumber : ∃ t, exec .refLost wReady = .next t := ⟨_, rfl⟩

theorem witness_FrameTicksAndEpochEdges :
    (wRun.frame.running = true ∧ wRun.frame.realign = none) ∧ (({ wRun.frame with realign := some 3 } : FrameSt).realign = some 3) ∧
    State.reset.frame.running = false ∧ (State.reset.ready = false ∧ wReady.ready = true) ∧
    (let s := wRun.wr FRM_CTL_EPOCH_ARM 1
     s.frame.running = true ∧ s.bit FRM_CTL_EPOCH_ARM = true ∧ s.anyActive = false) ∧
    (let s := wActive (wRun.wr FRM_CTL_EPOCH_ARM 1) 15
     s.frame.running = true ∧ s.bit FRM_CTL_EPOCH_ARM = true ∧ s.anyActive = true) ∧
    (wRun.frame.running = true ∧ wRun.bit FRM_CTL_EPOCH_ARM = false) ∧
    (epochSlip wRun.frame.len (wRun.rd FRM_PHASE_PHASE) wRun.frame.pos).natAbs ≤ wRun.rd FRM_CTL_EPOCH_TOL ∧
    wRun.rd FRM_CTL_EPOCH_TOL < (epochSlip wRun.frame.len (wRun.rd FRM_PHASE_PHASE) 12500).natAbs := by decide +kernel

theorem witness_FrameRegisterWrites :
    State.reset.ready = false ∧ ((wReady.wr PLAT_STAT_SEALED 1).ready = true ∧ (wReady.wr PLAT_STAT_SEALED 1).sealed = true) ∧
    (let s : State := { wReady with plat := { load := some { item := ⟨0, 0, 0⟩ } } }
     s.ready = true ∧ s.sealed = false ∧ s.loading = true) ∧
    (wReady.ready = true ∧ wReady.sealed = false ∧ wReady.loading = false ∧ wReady.anyActive = false) ∧
    FRM_LEN_LEN.of 2000 = 2000 ∧ FRM_LEN_LEN.of 400000 = 400000 ∧ FRM_LEN_LEN.of 1999 = 1999 ∧ FRM_LEN_LEN.of 400001 = 400001 ∧
    FRM_RES_RES_Q.of 16 = 16 ∧ FRM_RES_RES_Q.of 200 = 200 ∧ FRM_RES_RES_Q.of 15 = 15 ∧ FRM_RES_RES_Q.of 201 = 201 ∧
    (FRM_PHASE_PHASE.of 24999 < wReady.frame.len ∧ wReady.frame.len ≤ FRM_PHASE_PHASE.of 25000) := by decide +kernel

theorem witness_PhaseWriteWithActiveContext : (wActive wReady 1).ready = true ∧ (wActive wReady 1).anyActive = true := by decide +kernel

theorem witness_LatchedReadsAndCounterControls :
    7 < fnRings 17 ∧ 1 < fnRings 33 ∧ 33 < 34 ∧ 31 < 32 ∧ wReady.ready = true ∧ State.reset.ready = false ∧
    ((wLive {}).evcThere (.block 0 3) = true ∧ wRun.evcThere (.region 23 15) = true ∧ wRun.evcThere (.hub 31) = true) ∧
    (((wLive {}).wr BRUP_RLOST_RGN 1).evcThere (.block 0 3) = false ∧ wRun.evcThere (.region 24 0) = false) ∧
    ((wOn.clrWrite 0x828).isSome = true ∧ (wOn.clrWrite 0x10004).isSome = true) ∧
    ((wLive {}).reaches (chipBlk 0 0) = true ∧ (((wLive {}).block (chipBlk 0 0)).clrWrite 0x20C).isSome = true ∧
      (((wLive {}).block (chipBlk 0 0)).clrWrite 0x310).isSome = true) ∧
    (wLive {} (fun g => g.wr PWR_DOM_STAT_STATE 2 0)).reaches (chipBlk 0 0) = false := by decide +kernel

/-- Region 0 at step 2, which its list does not hold, so that a step to 1 is wanted. -/
def wStep (f : Region → Region := id) : State := wLive {} (fun g => f (g.wr RGN_CLK_STAT_CUR 2))

/-- Region 0 with a committed step. -/
def wCommit (lockb : Nat) (f : Region → Region := id) : State :=
  wLive {} (fun g => f ((g.wr RGN_CLK_STAT_COMMIT 1).wr RGN_CLK_STAT_LOCKB lockb))

theorem witness_BeatsFollowOneAnother :
    (((wLive {}).region 0).lost = false ∧ (wLive {}).frame.running = true ∧ ((wLive {}).region 0).bit RGN_BEAT_GAP = false ∧
      ((wLive {}).region 0).stopped = false) ∧
    (let g := (wLive {} (fun g => { g with stopped := true })).region 0
     g.lost = false ∧ g.bit RGN_BEAT_GAP = false ∧ g.stopped = true) ∧
    ((wRun.region 23).lost = false ∧ (wRun.region 23).bit RGN_BEAT_GAP = true ∧ wRun.frame.pos < 200 ∧ wRun.frame.realign = none) ∧
    (200 ≤ ({ wRun.frame with pos := 200 } : FrameSt).pos ∧ ({ wRun.frame with pos := 200 } : FrameSt).realign = none) ∧
    ({ wRun.frame with realign := some 0 } : FrameSt).realign.isSome = true ∧
    ((wLive {} (fun g => { g with lost := true })).region 0).lost = true := by decide +kernel

theorem witness_StepsAreCommittedAndTaken :
    (let s := wStep
     (s.region 0).lost = false ∧ s.arming = false ∧ s.wantedStep 0 ≠ (s.region 0).cur ∧ s.wantedStep 0 < 8 ∧
      (s.region 0).bit RGN_CLK_STAT_COMMIT = false ∧ (∀ m ∈ s.group 0, 0 ≤ m) ∧ s.commitWhy 0 (s.wantedStep 0) = none) ∧
    (let s : State := { wStep with frame := { wStep.frame with len := 2000 } }
     (s.region 0).lost = false ∧ s.arming = false ∧ s.wantedStep 0 ≠ (s.region 0).cur ∧ (s.region 0).bit RGN_CLK_STAT_COMMIT = false ∧
      (∀ m ∈ s.group 0, 0 ≤ m) ∧ s.commitWhy 0 (s.wantedStep 0) = some 3) ∧
    (let s : State := { wRun with regions := [0, 23].map (fun n => (n, (wOn.wr RGN_LOCK_LOCKED 1).wr RGN_LOCK_LEADER 0)) }
     s.group 23 = [0, 23] ∧ (∃ m ∈ s.group 23, m < 23)) ∧
    (let s := wCommit 0
     (s.region 0).lost = false ∧ (s.region 0).bit RGN_CLK_STAT_COMMIT = true ∧ (s.region 0).bit RGN_CLK_STAT_LOCKB = false ∧
      (s.region 0).stopped = false ∧ s.pinned 0 = false ∧
      (s.group 0).all (fun m => (s.region m).bit RGN_CLK_STAT_COMMIT && (s.region m).bit RGN_CLK_STAT_LOCKB) = false) ∧
    (let s := wCommit 1
     (s.region 0).bit RGN_CLK_STAT_COMMIT = true ∧ (s.region 0).bit RGN_CLK_STAT_LOCKB = true ∧ (s.region 0).stopped = false ∧
      s.pinned 0 = false ∧
      (s.group 0).all (fun m => (s.region m).bit RGN_CLK_STAT_COMMIT && (s.region m).bit RGN_CLK_STAT_LOCKB) = true) ∧
    (let s := wCommit 1 (fun g => g.wr XSEG_STAT_PINNED 1 0)
     (s.region 0).bit RGN_CLK_STAT_COMMIT = true ∧ (s.region 0).stopped = false ∧ s.pinned 0 = true) ∧
    ((wLive {}).region 0).bit RGN_CLK_STAT_COMMIT = false ∧ ((wCommit 1 (fun g => { g with stopped := true })).region 0).stopped = true := by
  decide +kernel

theorem witness_LostReferenceAndClocks :
    wRun.bit CLK_STAT_HOLDOVER = false ∧ ((wRun.wr CLK_STAT_HOLDOVER 1).bit CLK_STAT_HOLDOVER = true ∧ wRun.frame.refBack = false) ∧
    (3 < 4 ∧ ((wRun.wr CLK_STAT_DIELOCK 8).rd CLK_STAT_DIELOCK).testBit 3 = true ∧
      ((wRun.wr CLK_STAT_DIELOCK 8).rd CLK_STAT_DIELOCK).testBit 2 = false) ∧
    (wRun.region 23).lost = false ∧ ((wLive {} (fun g => { g with lost := true })).region 0).lost = true := by decide +kernel

theorem witness_DroopStretching : 23 < 24 ∧ 3 < 4 ∧ (wRun.region 23).lost = false := by decide +kernel

/-- A block whose core runs at pc 0 with the instruction `w` there, x1 = 1, x5 = `a`, ring 1 on with the core its consumer 1;
changed by `f`. -/
def wCore (w : Nat) (a : Word := 0x10000) (f : Block → Block := id) : Block :=
  f { core := { mode := .running, x := [(1, 1), (5, a)] }, imem := Mem.wrN [] 0 (leBytes 4 w)
      regs := (Regs.wr [] SP_RING_CTL_EN 1 1).setWord .block 0x130 4 }

/-- What the core of block 0 at region cycle 0 fetches when `w` stands at its pc. -/
def wFetch (w : Nat) : Fetch := ((wLive (wCore w)).blockAt 0 0).fetch

theorem witness_UnitCommandsKeepToTheirUnit :
    (∃ t, exec (.tfull 0 0) (wLive {}) = .next t) ∧ (wRun.runs 4607 = false ∧ ∃ t, exec (.tfull 4607 0) wRun = .next t) ∧
    (∃ t, exec (.storeScrub 0 ⟨0, []⟩) (wLive {}) = .next t) ∧ ((wLive {} (fun g => { g with lost := true })).region 0).lost = true ∧
    (∃ t, exec (.cbDrop 0 3) (wLive {}) = .next t) ∧ (wRun.ready = true ∧ wRun.reaches 4608 = false) ∧
    ∃ t, exec (.slReset 23) wRun = .next t :=
  ⟨⟨_, rfl⟩, ⟨by decide +kernel, _, rfl⟩, ⟨_, rfl⟩, by decide +kernel, ⟨_, rfl⟩, by decide +kernel, _, rfl⟩

theorem witness_CoreArithmetic :
    ((wLive (wCore 0x002081B3)).runs 0 = true ∧ ((wLive (wCore 0)).block 0).core.mode = .running) ∧
    wFetch 0x002081B3 = .ok (.op 0 3 1 2 false) 0x002081B3 4 ∧ wFetch 0xFFF00013 = .ok (.opImm 0 0 0 false 0xFFFFFFFF) 0xFFF00013 4 ∧
    wFetch 0x022081B3 = .ok (.mul 0 3 1 2) 0x022081B3 4 ∧ wFetch 0x12345FB7 = .ok (.lui 31 0x12345000) 0x12345FB7 4 ∧
    wFetch 0x00001197 = .ok (.auipc 3 0x1000) 0x00001197 4 ∧ wFetch 0x008000EF = .ok (.jal 1 8) 0x008000EF 4 ∧
    wFetch 0x000280E7 = .ok (.jalr 1 5 0) 0x000280E7 4 ∧ wFetch 0x0000000F = .ok .nop 0x0000000F 4 ∧
    wFetch 0x00108463 = .ok (.branch 0 1 1 8) 0x00108463 4 := by decide +kernel

/-- Does a load answer data, or stall? -/
def wLoaded (r : LoadRes) (stall : Bool) : Bool :=
  match r with
  | .data _ _ => !stall
  | .stall _ _ => stall
  | .trap _ _ => false

theorem witness_CoreArithmetic_memory :
    wFetch 0x0002A183 = .ok (.load 2 3 5 0) 0x0002A183 4 ∧ wFetch 0x0012A023 = .ok (.store 2 5 1 0) 0x0012A023 4 ∧
    wFetch 0x340021F3 = .ok (.csr 2 3 0 0x340) 0x340021F3 4 ∧ wFetch 0x340091F3 = .ok (.csr 1 3 1 0x340) 0x340091F3 4 ∧
    (placeOf 0x10000 = .ldata 0 ∧ placeOf 0x11FFF = .ldata 0x1FFF ∧ (0x10000 : Word).toNat % 4 = 0) ∧
    (let s := wLive (wCore 0x0002A183)
     let B := s.blockAt 0 0
     wLoaded (B.loadAt (s.env 0 0) 0x10000 4) false = true ∧ wLoaded (B.loadAt (s.env 0 0) 0x200000 4) true = true ∧
       (B.storeAt (s.env 0 0) 0x200000 4 1).isLeft = true ∧ (B.csrRead (s.env 0 0) 0x340).isSome = true ∧ csrReadOnly 0x340 = false) := by
  decide +kernel

theorem witness_CoreExceptions :
    ((wLive (wCore 0x73)).runs 0 = true ∧ ((wLive (wCore 0x73)).block 0).core.inTrap = false) ∧
    wFetch 0x73 = .ok .ecall 0x73 4 ∧ wFetch 0x00100073 = .ok .ebreak 0x00100073 4 ∧ wFetch 0 = .ok .illegal 0 2 ∧
    wFetch 0x30200073 = .ok .mret 0x30200073 4 ∧ ({ (wCore 0x73).core with inTrap := true } : Core).inTrap = true ∧
    ((wLive (wCore 0 0 (fun b => { b with core := { b.core with pc := 0x10000 } }))).blockAt 0 0).fetch = .fault 0x10000 := by decide +kernel

theorem witness_CoreExceptions_access :
    wFetch 0x000021F3 = .ok (.csr 2 3 0 0) 0x000021F3 4 ∧ wFetch 0xF14091F3 = .ok (.csr 1 3 1 0xF14) 0xF14091F3 4 ∧
    (let s := wLive (wCore 0x73)
     (s.blockAt 0 0).csrRead (s.env 0 0) 0 = none ∧ ((s.blockAt 0 0).csrRead (s.env 0 0) 0xF14).isSome = true) ∧ csrReadOnly 0xF14 = true ∧
    wFetch 0x0012A183 = .ok (.load 2 3 5 1) 0x0012A183 4 ∧ wFetch 0x0012A0A3 = .ok (.store 2 5 1 1) 0x0012A0A3 4 ∧
    ((0x10001 : Word).toNat % 4 ≠ 0 ∧ (0xFFFC : Word).toNat % 4 = 0 ∧ placeOf 0xFFFC = .none ∧ placeOf 0x12000 = .none) ∧
    wFetch 0xFFC2A183 = .ok (.load 2 3 5 0xFFFFFFFC) 0xFFC2A183 4 ∧ wFetch 0xFE12AE23 = .ok (.store 2 5 1 0xFFFFFFFC) 0xFE12AE23 4 := by
  decide +kernel

theorem witness_CoreQueueInstructions :
    ((wLive (wCore 0x0002800B)).runs 0 = true ∧ ((wLive (wCore 0x0002800B)).blockAt 0 0).core.mode = .running) ∧
    (wFetch 0x0002800B = .ok (.tpush 5 0) 0x0002800B 4 ∧
      ((wCore 0).core.get 5 + 0).toNat % 16 = 0 ∧ placeOf ((wCore 0).core.get 5 + 0) = .ldata 0 ∧ (wCore 0).seq.q.length < 32) ∧
    32 ≤ (List.replicate 32 ({ cmd := ⟨0, 0, 0, 0⟩, id := 0, frame := 0 } : QEntry)).length ∧
    (wFetch 0x0042800B = .ok (.tpush 5 4) 0x0042800B 4 ∧ ((wCore 0).core.get 5 + 4).toNat % 16 ≠ 0 ∧ (wCore 0).core.inTrap = false) ∧
    (((wCore 0 0x12000).core.get 5 + 0).toNat % 16 = 0 ∧ placeOf ((wCore 0 0x12000).core.get 5 + 0) = .none) ∧
    wFetch 0x0800100B = .ok .tfence 0x0800100B 4 ∧ wFetch 0x0A00118B = .ok (.tframe 3) 0x0A00118B 4 ∧
    ({ core := { mode := .frame 3 } } : Block).core.mode = .frame 3 := by decide +kernel

theorem witness_CoreRingAndOtherInstructions :
    (wLive (wCore 0)).runs 0 = true ∧ ((wLive (wCore 0)).blockAt 0 0).core.mode = .running ∧
    wFetch 0x0020900B = .ok (.tfull 1 2) 0x0020900B 4 ∧ wFetch 0x0200900B = .ok (.trel 1) 0x0200900B 4 ∧
    wFetch 0x0400918B = .ok (.taddrT 3 1) 0x0400918B 4 ∧ wFetch 0x0600918B = .ok (.taddrF 3 1) 0x0600918B 4 ∧
    (let B := (wLive (wCore 0)).blockAt 0 0
     B.ringOn ((B.core.get 1).toNat % 32) = true ∧ B.coreCons ((B.core.get 1).toNat % 32) ≠ 0 ∧ B.chkRoom 1 = true ∧ B.chkRoom 4 = true ∧
       B.core.inTrap = false) ∧
    (let B := (wLive (wCore 0 0 (fun b => { b with regs := [], chk := { b.chk with buf := List.replicate 13 0 } }))).blockAt 0 0
     B.ringOn ((B.core.get 1).toNat % 32) = false ∧ B.chkRoom 4 = false ∧ B.chkRoom 2 = true) ∧
    wFetch 0x0000A00B = .ok (.tcrc 1 1) 0x0000A00B 4 ∧ wFetch 0x0200A00B = .ok (.tcrc 2 1) 0x0200A00B 4 ∧
    wFetch 0x0400A00B = .ok (.tcrc 4 1) 0x0400A00B 4 ∧ wFetch 0x7C2091F3 = .ok (.csr 1 3 1 0x7C2) 0x7C2091F3 4 ∧
    wFetch 0x7C2021F3 = .ok (.csr 2 3 0 0x7C2) 0x7C2021F3 4 := by decide +kernel

/-- Block 0 whose core waits in a load of slot 0 of ring 1 with the load timeout `tmo`. -/
def wStall (tmo : Nat) : State :=
  wLive ({ core := { mode := .stall 1 0 0x200000 }, regs := Regs.wr [] SP_RING_TMO_TMO tmo 1 } : Block)

theorem witness_CoreRingAndOtherInstructions_timeout :
    (let B := (wStall 1).blockAt 0 0
     (wStall 1).runs 0 = true ∧ B.core.mode = .stall 1 0 0x200000 ∧ B.slotFull 1 0 = false ∧ B.rd SP_RING_TMO_TMO 1 ≠ 0 ∧
       B.core.inTrap = false) ∧
    ((wStall 0).blockAt 0 0).rd SP_RING_TMO_TMO 1 = 0 ∧ ∀ ring slot a, ((wLive {}).blockAt 0 0).core.mode ≠ .stall ring slot a := by
  have m : ((wLive {}).blockAt 0 0).core.mode = .halted := by decide +kernel
  exact ⟨by decide +kernel, by decide +kernel, fun _ _ _ h => CoreMode.noConfusion (m.symm.trans h)⟩

/-- Rings 1 and 2 on with slots of 16 KiB, slot 0 of ring 1 full of a tile of tag 1, drain descriptor 0 with tag 1; `f` changes
the rest. -/
def wRings (f : Block → Block := id) : Block :=
  let on (g : Regs) (r : Nat) : Regs := ((g.wr SP_RING_CTL_EN 1 r).wr SP_RING_BASE_SSIZE 64 r).wr SP_RING_BASE_BASE (64 * r) r
  f { regs := ((on (on [] 1) 2).wr DRN_DESC0_CCW 1 0).wr SP_RING_STATE_FULL 1 1, tags := [(16, { hdr := { fmt := 1 } })] }

/-- Block 0 with the queue `q`. -/
def wQueue (q : List QEntry) : Block := wRings (fun b => { b with seq := { q := q } })

/-- A waiting entry. -/
def wEnt (w0 w1 w2 : Word) : QEntry := { cmd := ⟨w0, w1, w2, 7⟩, id := 0, frame := 0 }

/-- Block 0 of the device with the queue `q`, as a step finds it. -/
def wB (q : List QEntry) : Block := (wLive (wQueue q)).blockAt 0 0

/-- A matrix command of 64 by 64 and K 1 from ring `a` into ring 2, with initialisation `init`. -/
def wMx (a : Nat) (m : Nat := 64) : QEntry := wEnt 0x111 (BitVec.ofNat 32 (m + 64 * 2 ^ 7 + 2 ^ 14)) (BitVec.ofNat 32 (a + 32 * a + 2 * 2 ^ 10))

theorem witness_MatrixIssue :
    ((wLive (wQueue [wMx 1])).runs 0 = true ∧ ((wLive {}).region 0).bit RGN_BEAT_GAP = false) ∧
    (let B := wB [wMx 1]
     let x := wMx 1
     B.head = some x ∧ x.cmd.opc = 1 ∧ B.matrixBadHead x.cmd = false ∧ B.sourcesFull x.cmd = true ∧ B.destsEmpty x.cmd = true ∧
       B.arrayFree 0 = true ∧ B.setFree (x.keptSet.getD B.seq.nextSet) (B.firstCompute x 0) = true ∧ B.matrixTags x.cmd = some (1, 1)) ∧
    (let B := wB [wMx 2]
     B.head = some (wMx 2) ∧ B.matrixBadHead (wMx 2).cmd = false ∧ B.sourcesFull (wMx 2).cmd = false) ∧
    (let B := (wLive (wRings (fun b => { b with tags := [(16, { hdr := { fmt := 4 } })], seq := { q := [wMx 1] } }))).blockAt 0 0
     let x := wMx 1
     B.head = some x ∧ B.matrixBadHead x.cmd = false ∧ B.sourcesFull x.cmd = true ∧ B.destsEmpty x.cmd = true ∧
       B.arrayFree 0 = true ∧ B.setFree (x.keptSet.getD B.seq.nextSet) (B.firstCompute x 0) = true ∧ B.matrixTags x.cmd = none) ∧
    (wB [wMx 1 65]).matrixBadHead (wMx 1 65).cmd = true ∧ (wEnt 0 0 0).cmd.opc = 0 ∧ (wEnt 9 0 0).cmd.opc = 9 ∧ (wEnt 2 0 0).cmd.opc = 2 ∧
    (wB []).head = none ∧ (let s := wLive {} (fun g => g.wr RGN_BEAT_GAP 1); s.runs 0 = true ∧ (s.region 0).bit RGN_BEAT_GAP = true) := by
  decide +kernel

/-- A tile of one row, one column and K 0 in pass `pass`, with an injected mismatch when `inj`. -/
def wTile (pass inj : Nat) : QEntry :=
  { wEnt 0x111 (1 + 2 ^ 7) 0x800 with st := .issued { pass := pass, ta := 1, tb := 1, inj := inj } }

theorem witness_TileOutcomes :
    (wB []).draining = none ∧
    (let y : QEntry := { wEnt 0x111 (1 + 2 ^ 7) 0x800 with st := .issued { ta := 1, tb := 1, de := 70 } }
     (wB [y]).draining = some (y, { ta := 1, tb := 1, de := 70 }) ∧ 0 + 1 < 70) ∧
    ((wB [wTile 0 0]).draining = some (wTile 0 0, { ta := 1, tb := 1 }) ∧ (wTile 0 0).cmd.opc = 1 ∧ ({ ta := 1, tb := 1 } : Run).de ≤ 0 + 1) ∧
    ((wB [wTile 0 0]).passOf (wTile 0 0).cmd { ta := 1, tb := 1 } []).fail = none ∧
    ((wB [wTile 0 1]).passOf (wTile 0 1).cmd { ta := 1, tb := 1, inj := 1 } []).fail.isSome = true ∧
    ((wB [wTile 1 2]).draining = some (wTile 1 2, { pass := 1, ta := 1, tb := 1, inj := 2 }) ∧
      ((wB [wTile 1 2]).passOf (wTile 1 2).cmd { pass := 1, ta := 1, tb := 1, inj := 2 } []).fail.isSome = true) := by decide +kernel

/-- A bank command, of operation `op`, from ring 1 into ring 2. -/
def wBank (op : Nat) : QEntry := wEnt (BitVec.ofNat 32 (2 + 16 * op + 2 ^ 8 + 2 * 2 ^ 13)) (1 + 2 ^ 7) 0
/-- A load of OPC 3 or 4 from ring `r` into index `i`. -/
def wLoad (opc r i : Nat) : QEntry := wEnt (BitVec.ofNat 32 (opc + 16 * r + 2 ^ 9 * i)) 0 0

theorem witness_BankCommandsAndLoads :
    (let B := wB [wBank 0]
     let c := (wBank 0).cmd
     B.head = some (wBank 0) ∧ c.opc = 2 ∧ B.bankBadHead c = false ∧ B.bankBadTag c = false ∧ B.sourcesFull c = true ∧
       B.destsEmpty c = true) ∧
    ((wBank 2).cmd.opc = 2 ∧ (wB [wBank 2]).bankBadHead (wBank 2).cmd = true) ∧
    (let B := wB [wLoad 3 1 30]
     let c := (wLoad 3 1 30).cmd
     B.head = some (wLoad 3 1 30) ∧ c.opc = 3 ∧ B.otherBad c = false ∧ B.sourcesFull c = true ∧
       (B.before (wLoad 3 1 30)).any (B.usesCb c.idx) = false ∧ c.idx = 30) ∧ (wLoad 3 1 31).cmd.idx = 31 ∧
    (wB [wLoad 3 3 0]).otherBad (wLoad 3 3 0).cmd = true ∧
    (let B := wB [wLoad 4 1 3]
     let c := (wLoad 4 1 3).cmd
     B.head = some (wLoad 4 1 3) ∧ c.opc = 4 ∧ c.tbl = 3 ∧ B.otherBad c = false ∧ B.sourcesFull c = true ∧
       (B.before (wLoad 4 1 3)).any (B.usesLut c.tbl) = false) ∧
    (wB [wLoad 4 3 0]).otherBad (wLoad 4 3 0).cmd = true ∧
    (wB [{ wBank 0 with st := .issued {} }]).draining = some ({ wBank 0 with st := .issued {} }, {}) := by decide +kernel

/-- A matrix command issued before a waiting load. -/
def wBehind (x : QEntry) : List QEntry := [{ wEnt 0x101 (64 + 2 ^ 14) 0 with st := .issued {} }, { x with id := 1 }]

theorem witness_BankCommandsAndLoads_waits :
    (let B := (wLive (wRings (fun b => { b with tags := [(16, { hdr := { fmt := 1 }, multi := true })], seq := { q := [wBank 0] } }))).blockAt 0 0
     let c := (wBank 0).cmd
     B.head = some (wBank 0) ∧ B.sourcesFull c = true ∧ B.destsEmpty c = true ∧ B.bankBadTag c = true) ∧
    (let B := (wLive (wRings (fun b => { b with regs := b.regs.wr SP_RING_STATE_FULL 0 1, seq := { q := [wBank 0] } }))).blockAt 0 0
     B.head = some (wBank 0) ∧ B.bankBadHead (wBank 0).cmd = false ∧ B.sourcesFull (wBank 0).cmd = false) ∧
    (let B := wB [wLoad 3 2 0]
     B.head = some (wLoad 3 2 0) ∧ B.otherBad (wLoad 3 2 0).cmd = false ∧ B.sourcesFull (wLoad 3 2 0).cmd = false) ∧
    (let x := { wLoad 3 1 0 with id := 1 }
     let B := wB (wBehind (wLoad 3 1 0))
     B.head = some x ∧ B.otherBad x.cmd = false ∧ (B.before x).any (B.usesCb x.cmd.idx) = true) ∧
    (let x := { wLoad 4 1 0 with id := 1 }
     let B := (wLive (wRings (fun b => { b with regs := b.regs.wr DRN_DESC0_LUTEN 1 0, seq := { q := wBehind (wLoad 4 1 0) } }))).blockAt 0 0
     B.head = some x ∧ B.otherBad x.cmd = false ∧ (B.before x).any (B.usesLut x.cmd.tbl) = true) ∧
    (wB [wLoad 3 1 0]).draining = none ∧ (wTile 0 0).cmd.opc ≠ 2 := by decide +kernel

/-- A check command over 16 bytes of ring 1. -/
def wChk : QEntry := wEnt (5 + 16) 0 16

theorem witness_CheckUnitCommands :
    (let B := wB [wChk]
     B.head = some wChk ∧ wChk.cmd.opc = 5 ∧ B.otherBad wChk.cmd = false ∧ B.sourcesFull wChk.cmd = true ∧ B.chkRunning = false ∧
       wChk.cmd.poly = B.rd CHK_CTL_POLY ∧ wChk.cmd.chkInit = false) ∧
    (wEnt (5 + 16 + 2 ^ 11) 0 16).cmd.chkInit = true ∧ (wB [wEnt 5 0 16]).otherBad (wEnt 5 0 16).cmd = true ∧
    (let B := wB [{ wChk with st := .issued {} }, { wChk with id := 1 }]
     B.head = some { wChk with id := 1 } ∧ B.chkRunning = true) ∧
    (let B := wB [wEnt (5 + 32) 0 16]
     B.otherBad (wEnt (5 + 32) 0 16).cmd = false ∧ B.sourcesFull (wEnt (5 + 32) 0 16).cmd = false) ∧
    (wB [{ wChk with st := .issued {} }]).seq.q.findSome? (fun x => if x.cmd.opc = 5 then x.issued?.map (fun r => (x, r)) else none) =
      some ({ wChk with st := .issued {} }, {}) ∧
    (wB [wChk]).seq.q.findSome? (fun x => if x.cmd.opc = 5 then x.issued?.map (fun r => (x, r)) else none) = none ∧
    ((wLive {}).ready = true ∧ (wLive {}).reaches 0 = true ∧ ((wLive {}).block 0).chkBusy = false ∧
      ((wLive { chk := { buf := [0] } }).block 0).chkBusy = true) := by
  decide +kernel

/-- A sight of count 0 at stake 63. -/
def wSight : QEntry := wEnt 7 63 0
/-- A drive of stake 63 by one. -/
def wDrive : QEntry := wEnt 6 0x1003F 0
/-- A drive of local stake 63. -/
def wDrv (parcel : Nat) : Drive := { stake := 63, inc := 1, void := false, tag := 0, parcel := parcel, gen := none, by_ := .mc }
/-- Local stake 63 with the configuration word `cfg`. -/
def wStake (cfg : Word) (q : List Drive) (es : List QEntry) : Block :=
  (wLive { stakes := [(63, { cfg := cfg })], driveq := q, seq := { q := es } }).blockAt 0 1024

theorem witness_StakeCommandsOfABlock :
    (let B := wB [wSight]
     B.head = some wSight ∧ B.otherBad wSight.cmd = false ∧ wSight.cmd.opc = 7 ∧ B.seq.q = [] ++ wSight :: [] ∧
       wSight.cmd.count ≤ (B.stake 63).cnt ∧ (B.stake 63).poison = false) ∧
    (let x := wEnt 7 63 1
     let B := wB [x]
     B.head = some x ∧ B.seq.q = [] ++ x :: [] ∧ (B.stake 63).cnt < x.cmd.count ∧ (B.stake 63).poison = false) ∧
    (let B := wB [wDrive]
     B.head = some wDrive ∧ B.otherBad wDrive.cmd = false ∧ wDrive.cmd.opc = 6 ∧ B.isOldest wDrive = true ∧
       wDrive.cmd.stake / 2 ^ 14 = 0 ∧ B.driveq.length < 14) ∧
    (let x := { wDrive with id := 1 }
     let B := wB [{ wMx 1 with st := .issued {} }, x]
     B.head = some x ∧ B.isOldest x = false) ∧
    14 ≤ (List.replicate 14 (wDrv 0)).length ∧
    ((wB [wEnt 8 5 0]).head = some (wEnt 8 5 0) ∧ (wB [wEnt 8 5 0]).otherBad (wEnt 8 5 0).cmd = false ∧ (wEnt 8 5 0).cmd.opc = 8) ∧
    ((wB [wEnt 7 64 0]).otherBad (wEnt 7 64 0).cmd = true ∧ (wB [wSight]).sight = none ∧ (wB [wSight]).driveq = []) ∧
    (let B := wStake 0x440 [] [{ wSight with st := .issued {} }]
     B.sight = some { wSight with st := .issued {} } ∧ (B.stake 63).tmode = 1 ∧ 0 + (B.stake 63).tmo * 256 ≤ 1024) ∧
    ((wStake 0x400 [] [{ wSight with st := .issued {} }]).stake 63).tmode ≠ 1 := by decide +kernel

/-- A drive of outbound endpoint 63 by one. -/
def wLegDrive : QEntry := wEnt 6 0x1803F 0

/-- Block 0 with outbound endpoint 63, which holds the drives `ds`. -/
def wOut (ds : List LegDrive) : Block :=
  (wLive (({ wQueue [wLegDrive] with regs := ((wQueue []).regs.wr LEP_A0_EN 1 63).wr LEP_A0_DIR 1 63 } : Block).setLeg 63
    { drives := ds })).blockAt 0 0

theorem witness_StakeCommandsOfABlock_drives :
    (let B := wOut []
     B.head = some wLegDrive ∧ B.otherBad wLegDrive.cmd = false ∧ B.isOldest wLegDrive = true ∧ wLegDrive.cmd.stake / 2 ^ 14 ≠ 0 ∧
       (B.leg (wLegDrive.cmd.stake % 64)).drives.length < 4) ∧
    4 ≤ ((wOut (List.replicate 4 ⟨1, false, 0, 0, 0⟩)).leg 63).drives.length ∧
    (let B := wStake 0x410 [wDrv 0] []
     B.driveq = [wDrv 0] ∧ (B.stake 63).en = true ∧ (B.stake 63).poison = false ∧ (B.stake 63).cnt + 1 ≤ 0x7FFFFFFF) ∧
    (let B := (wLive { stakes := [(63, { cfg := 0x410, cnt := 0x7FFFFFFF })], driveq := [wDrv 0] }).blockAt 0 0
     B.driveq = [wDrv 0] ∧ 0x7FFFFFFF < (B.stake 63).cnt + 1) ∧
    (({ cfg := 0x410, poison := true } : Stake).en = true ∧ ({ cfg := 0x410, poison := true } : Stake).poison = true) ∧
    ((wDrv 3).parcel ≠ ((wStake 0x410 [wDrv 3] []).stake 63).parcel ∧ (wDrv 3).parcel ≠ 0) ∧
    (({ wDrv 3 with gen := some 1 } : Drive).gen = some 1 ∧ 1 ≠ (wLive {}).genOf 3) := by decide +kernel

/-- Block 0 of parcel 1. -/
def wTenant : Block := { regs := Regs.wr [] RT_CTL_PARCEL 1 }

theorem witness_CodebooksAndScratchpadPower :
    ((wActive (wLive wTenant) 1).env 0 0).active = true ∧ ((wActive (wLive wTenant) 1).ready = true ∧ (wActive (wLive wTenant) 1).reaches 0 = true) ∧
    ((wLive {}).env 0 0).active = false ∧ (wLive {}).runs 0 = true ∧ gridValid (((wLive {}).block 0).grid 30) = false ∧
    (bitsOf 0xC000 (2 * 7 + 1) (2 * 7) = 3 ∧ bitsOf 0x8000 (2 * 7 + 1) (2 * 7) = 2 ∧ bitsOf 0 (2 * 7 + 1) (2 * 7) = 0) ∧
    (let B := wRings (fun b => { b with regs := b.regs.wr RT_CTL_PARCEL 1 })
     ((wActive (wLive B) 1).env 0 0).active = true ∧ ((wLive B).block 0).granUsed 0 = true ∧ ((wLive B).block 0).granUsed 7 = false) := by
  decide +kernel

/-- A beat schedule at step 1 whose every beat gives cycle 5 to scrubbing. -/
def wScrubs (g : Region) : Region :=
  { g.wr RGN_CLK_STAT_CUR 1 with variants := [{ step := 1, beats := [{ pat := 0, scrub := true }], reserve := [{ pat := 0, scrub := true }] }] }

theorem witness_CodebooksAndScratchpadPower_scrub :
    (let s := wLive { scrubPos := 8191, ecc := [(131071, 1)] } wScrubs
     s.runs 0 = true ∧ s.scrubAt (regionOf 0) 261 = true ∧ s.scrubAt (regionOf 0) 262 = false ∧
       ((s.blockAt 0 261).upset [(131070, 2)]).nextLine 9 8191 = some 8191) ∧
    (((wLive { regs := Regs.wr [] SP_PWR_CUR 0x5555, scrubPos := 8191 } wScrubs).blockAt 0 261).upset []).nextLine 9 8191 = none := by
  decide +kernel

/-- Endpoint 63 in use as an inbound one of ring 1, with the word `w` delivered to it, and held words. -/
def wLeg (w : Nat) (held : List Held) (f : Block → Block := id) (last : Bool := true) : Block :=
  (wLive (wRings (fun b => f { b with
    regs := (((b.regs.wr LEP_A0_EN 1 63).wr LEP_A0_RING 2 63).wr SP_RING_CTL_HWIN 1 1).wr LEP_STK_STK1 5 31, held := held
    router := { b.router with dlv := [(63, FWord.make 0 0 last w)] } }))).blockAt 0 10

/-- A held payload word for slot 0 of ring `r`. -/
def wHeld (r : Nat) : Held := { ep := 63, ring := r, slot := 0, off := 0, data := 5, dlv := 0, lost := false, since := 0 }

theorem witness_InboundWords :
    (let B := wLeg 1 []
     B.legIn 63 = true ∧ (B.leg 63).stalled = false ∧ takeFirst 63 B.router.dlv = some (FWord.make 0 0 true 1, []) ∧
       (FWord.make 0 0 true 1).data % 16 ≠ 15) ∧
    (wLeg 1 []).legIn 62 = false ∧
    (let B := wLeg 1 [wHeld 2]
     B.held.zipIdx.filter (fun x => !x.1.isVoid && B.heldReady x.2 x.1) = [(wHeld 2, 0)]) ∧
    (let B := wLeg 1 []
     B.held.zipIdx.filter (fun x => !x.1.isVoid && B.heldReady x.2 x.1) = []) ∧
    (let B := wLeg 1 [wHeld 1]
     let f : Held → Bool := fun h => B.slotFull h.ring h.slot && B.rd SP_RING_CTL_HWIN h.ring != 0 &&
       decide (h.since + (B.rd SP_RING_CTL_HWIN h.ring : Int) < ((2 : Nat) : Int))
     B.held.find? f = some (wHeld 1)) ∧
    (let B := wLeg 1 [] (fun b => b.setLeg 63 { complete := [{ seq := 0 }] })
     (B.leg 63).complete = [{ seq := 0 }] ∧ B.held.any (fun h => h.ep == 63 && h.dlv == 0 && !h.isVoid) = false ∧
       B.dlvFree 63 0 = true) ∧
    (let B := wLeg 1 [wHeld 2] (fun b => b.setLeg 63 { complete := [{ seq := 0 }] })
     B.held.any (fun h => h.ep == 63 && h.dlv == 0 && !h.isVoid) = true) := by decide +kernel

theorem witness_InboundWords_marks :
    (let B := wLeg 0 [] id false
     let h := Hdr.ofBits 0
     (B.leg 63).part = none ∧ h.leg = B.rd LEP_A0_LEG 63 ∧ extCount (B.leg 63).n64 h.seq = (B.leg 63).n64 ∧
       B.fmtOk 63 h ((B.leg 63).dlv (B.leg 63).n64) = true ∧ h.part ≤ B.rd LEP_A1_NPAN 63 ∧
       h.part ∉ ((B.leg 63).dlv (B.leg 63).n64).arrived ∧ (FWord.make 0 0 false 0).last = false) ∧
    (let p : OpenPart := { hdr := {}, dlv := 0, want := 1, got := 0, drop := false }
     let B := wLeg 7 [] (fun b => b.setLeg 63 { part := some p })
     (B.leg 63).part = some p ∧ B.rd LEP_A0_RING 63 = 2 ∧ p.hdr.part * B.partStride 63 + 128 ≤ B.slotSize 2 ∧ B.dlvFree 63 0 = true ∧
       B.held.any (fun h => h.ring == 2 && h.slot == B.dlvSlot 63 0) = false ∧
       B.granOn (B.slotAddr 2 (B.dlvSlot 63 0) + p.hdr.part * B.partStride 63)
         (B.slotAddr 2 (B.dlvSlot 63 0) + p.hdr.part * B.partStride 63 + 128) = true) ∧
    (let B := wLeg 15 []
     let W : Block := { B.setLeg 63 { B.leg 63 with stalled := false } with router := { B.router with dlv := [] } }
     takeFirst 63 B.router.dlv = some (FWord.make 0 0 true 15, []) ∧ (FWord.make 0 0 true 15).data % 16 = 15 ∧
       (W.driveWord ((wLive {}).env 0 10) 63 (Hdr.ofBits 15)).isSome = true ∧
       (({ W with driveq := List.replicate 14 (wDrv 0) } : Block).driveWord ((wLive {}).env 0 10) 63 (Hdr.ofBits 15)).isSome = false ∧
       (B.leg 63).part = none ∧ (Hdr.ofBits 15).leg = B.rd LEP_A0_LEG 63 ∧ extCount (B.leg 63).dseq (Hdr.ofBits 15).seq = (B.leg 63).dseq ∧
       B.legStake 63 ≠ 0xFFFF ∧ B.driveq.length < 14) := by decide +kernel

/-- Region 0 with stream descriptor 255 of engine 7, its words, and its stream slot in the edge entry of cycle 8. -/
def wDesc (ws : List (Nat × Word)) (f : Region → Region := id) : State :=
  wLive {} (fun g => f { g with
    regs := ws.foldl (fun r x => r.setWord .region (0x20000 + 0x2000 * 7 + 32 * 255 + 4 * x.1) x.2) g.regs, edge := [(8, 4095 * 2 ^ 192)] })

/-- A started transfer of that descriptor. -/
def wXfer : Xfer := { eng := 7, desc := 255, k := 0, frame := 0, parcel := 0, hline := 0, started := true, since := 0 }
/-- A read request of it. -/
def wReq : Req := { eng := 7, desc := 255, k := 0, frame := wXfer.frame, first := 0, n := 8, write := false, data := List.replicate 2048 0 }

theorem witness_TransferStart :
    (let G := (wDesc []).region 0
     G.lost = false ∧ (G.planAt 8).2 = some (7, 255) ∧ (G.planAt 9).2 ≠ some (7, 255) ∧ bitsOf (G.sd 7 255 0) 2 0 = 0) ∧
    ({ wOn with drain := [0] } : Region).drain.contains 0 = true ∧
    (let s := wDesc [(0, 0x83), (5, 1)]
     let G := s.region 0
     (G.planAt 8).2 = some (7, 255) ∧ bitsOf (G.sd 7 255 0) 2 0 ∈ [1, 2, 3] ∧ G.drain.contains 0 = false ∧
       G.pendingOf (fun _ => true) < 4 ∧ bitsOf (G.sd 7 255 0) 7 7 = 1 ∧
       G.gate (s.renv 0 8) (bitsOf (G.sd 7 255 4) 31 16) ((G.sd 7 255 5).toInt + (G.xcount 7 255 0).started) = none) ∧
    (let s := wDesc [(0, 0x82)]
     let G := s.region 0
     bitsOf (G.sd 7 255 0) 7 7 = 1 ∧
       G.gate (s.renv 0 8) (bitsOf (G.sd 7 255 4) 31 16) ((G.sd 7 255 5).toInt + (G.xcount 7 255 0).started) = some false) ∧
    (let G := (wDesc [(0, 2)]).region 0
     bitsOf (G.sd 7 255 0) 2 0 ∈ [1, 2, 3] ∧ bitsOf (G.sd 7 255 0) 7 7 = 0 ∧ bitsOf (G.sd 7 255 0) 2 0 ≠ 3) ∧
    (let G := (wDesc [(0, 3)] (fun g => { g with driveq := List.replicate 4 ⟨0, 1, false, 0, 0, none, .engine 0 7 255⟩ })).region 0
     4 ≤ G.pendingOf (fun d => match d with | .engine _ m _ => m == 7 | _ => false)) := by decide +kernel

theorem witness_TransferStart_index :
    (let s := wDesc [(0, 3), (6, 0x3FFFF)]
     let G := s.region 0
     (G.planAt 8).2 = some (7, 255) ∧ bitsOf (G.sd 7 255 0) 2 0 = 3 ∧
       (G.rsEcc (s.renv 0 8) (256 * bitsOf (G.sd 7 255 6) 17 0) (256 * bitsOf (G.sd 7 255 6) 17 0 + 4)).2 = false ∧
       G.inWindow 0 (bitsOf (G.sd 7 255 1) 27 0 + leNat (G.store.rdN (256 * bitsOf (G.sd 7 255 6) 17 0) 4)) 1 = false) ∧
    (let G := (wDesc [] (fun g => ((g.wr MEM_WIN_B_EN 1 15).wr MEM_WIN_A_LIMIT 4095 15).wr MEM_WIN_B_PARCEL 0 15)).region 0
     G.inWindow 0 0 1 = true) := by decide +kernel

theorem witness_TransferStart_timeout :
    (let x : Xfer := { wXfer with started := false }
     let s := wDesc [(0, 0x81), (4, 0x50000)] (fun g => { g with xfers := [x], stakes := [(5, { cfg := 0x440 })] })
     let G := s.region 0
     G.xfers.find? (fun z => z.eng == 7 && z.desc == 255 && !z.started && !z.dead) = some x ∧ bitsOf (G.sd 7 255 0) 7 7 = 1 ∧
       G.timeUp (s.renv 0 1024) (bitsOf (G.sd 7 255 4) 31 16) x.since false = true ∧
       G.timeUp (s.renv 0 1023) (bitsOf (G.sd 7 255 4) 31 16) x.since false = false) ∧
    ((wDesc []).region 0).xfers.find? (fun z => z.eng == 7 && z.desc == 255 && !z.started && !z.dead) = none := by decide +kernel

theorem witness_StackRequests :
    (let G := (wDesc [(0, 0x200001)] (fun g => { g with xfers := [wXfer] })).region 0
     G.xfers.find? (fun y => y.eng == 7 && y.desc == 255 && y.started && !y.dead && decide (y.asked < G.sdLen 7 255)) = some wXfer ∧
       G.stopped = false ∧ G.sdOp 7 255 ≠ 2 ∧ G.held 7 false < 60) ∧
    60 ≤ ({ wOn with reqs := List.replicate 60 wReq } : Region).held 7 false ∧
    (let G := (wDesc [(0, 0x200002)] (fun g => { g with xfers := [{ wXfer with gvoid := true }] })).region 0
     G.xfers.find? (fun y => y.eng == 7 && y.desc == 255 && y.started && !y.dead && decide (y.asked < G.sdLen 7 255)) =
         some { wXfer with gvoid := true } ∧ G.sdOp 7 255 = 2 ∧ G.held 7 true < 30) ∧
    30 ≤ ({ wOn with reqs := List.replicate 30 { wReq with write := true } } : Region).held 7 true ∧
    (let G := (wDesc [(0, 0x200001)] (fun g => { g with xfers := [wXfer], reqs := [wReq] })).region 0
     G.reqs.find? (fun y => (y.eng == 7 && y.desc == 255 && y.k == 0 && y.first == 0) && (y.write || !G.stopped)) = some wReq ∧
       G.xfers.find? (fun y => y.isX 7 255 0 wReq.frame && y.started) = some wXfer ∧ wReq.write = false ∧
       wXfer.dead = false ∧ wXfer.landed < G.sdLen 7 255 ∧ wReq.bad = []) ∧
    (let G := (wDesc [(0, 0x200001)] (fun g => { g with reqs := [wReq] })).region 0
     G.xfers.find? (fun y => y.isX 7 255 0 wReq.frame && y.started) = none ∧
       G.reqs.find? (fun y => y.eng == 7 && y.desc == 255 && y.k == 0 && y.first == 8) = none) ∧
    ((wDesc [(0, 0x200001)]).region 0).xfers = [] ∧ ((wLive {} (fun g => { g with stopped := true })).region 0).stopped = true := by decide +kernel

/-- Region 0 with store stream 63, its words, and an access of it through port 7 in the edge entry of cycle 8. -/
def wStrm (ws : List (Nat × Word)) (f : Region → Region := id) : State :=
  wLive {} (fun g => f { g with
    regs := ws.foldl (fun r x => r.setWord .region (0x1000 + 16 * 63 + 4 * x.1) x.2) g.regs, edge := [(8, 127 * 2 ^ 184)] })

theorem witness_StoreStreams :
    (let s := wStrm [(0, 0x08000000), (1, 1), (3, 1)]
     let G := s.region 0
     (G.planAt 8).1.contains (7, 63) = true ∧ (G.planAt 9).1.contains (7, 63) = false ∧ G.ssLen 63 ≠ 0 ∧
       G.drain.contains (G.ssParcel 63) = false ∧ G.pendingOf (fun _ => true) < 4 ∧
       G.took.contains (8, G.ssAddr 63 / 256 % 16) = false ∧ G.ssGate (s.renv 0 8) 63 = none ∧
       bitsOf (G.ss 63 0) 22 22 = 0) ∧
    (let G := (wStrm [(1, 1)] (fun g => { g with took := [(8, 0)] })).region 0
     G.ssLen 63 ≠ 0 ∧ G.took.contains (8, G.ssAddr 63 / 256 % 16) = true) ∧
    ((wStrm []).region 0).ssLen 63 = 0 ∧
    (let s := wStrm [(1, 2)] (fun g => { g with strms := [(63, { j := 1 })] })
     let G := s.region 0
     G.ssGate (s.renv 0 8) 63 = some false ∧ bitsOf (G.ss 63 0) 22 22 = 0 ∧ (G.strm 63).j % G.ssLen 63 ≠ 0 ∧ (G.strm 63).tvoid = false ∧
       G.bit STRM_HDR_HSRC 63 = false ∧ (G.rsEcc (s.renv 0 8) (G.ssAddr 63) (G.ssAddr 63 + 256)).2 = false ∧ 7 < 8) ∧
    (let w := FWord.make 0 0 false 0
     let p : OpenPart := { hdr := {}, dlv := 0, want := 2, got := 0, drop := false }
     let s := wStrm [(0, 0x00400000), (1, 1)] (fun g => { g with strms := [(63, { part := some p })], links := [(46, w), (47, w)] })
     let G := s.region 0
     (bitsOf (G.ss 63 0) 22 22 == 1) = true ∧ G.ssGate (s.renv 0 8) 63 = some false ∧ (G.strm 63).part = some p ∧ p.got + 2 ≤ p.want ∧
       (G.links.get noWord 46).v = true ∧ (G.links.get noWord 47).v = true ∧ (G.links.get noWord 46).last = false) := by decide +kernel

theorem witness_StoreStreams_tiles :
    (let G := (wStrm [(0, 0x00400000), (1, 1)]).region 0
     let w := FWord.make 0 0 false 0
     w.v = true ∧ (bitsOf (G.ss 63 0) 22 22 == 1) = true ∧ (Hdr.ofBits w.data).fmt ≠ 15 ∧ G.ssLen 63 ≠ 0 ∧ w.last = false ∧
       (Hdr.ofBits w.data).leg = G.rd STRM_HDR_LEG 63 ∧ G.ssFmtOk 63 (Hdr.ofBits w.data).fmt = true ∧ G.ssFmtOk 63 1 = false ∧
       (G.strm 63).part = none) ∧ (FWord.make 0 0 true 0).last = true ∧ (noWord 0).v = false ∧
    (Hdr.ofBits (2 ^ 64)).leg ≠ ((wStrm []).region 0).rd STRM_HDR_LEG 63 ∧
    (let s := wStrm [(2, 5)] (fun g => { g with stakes := [(5, { cfg := 0x440 })], strms := [(63, { since := some 0 })] })
     let G := s.region 0
     (G.strm 63).since = some 0 ∧ G.timeUp (s.renv 0 1024) (bitsOf (G.ss 63 2) 15 0) 0 false = true ∧
       G.timeUp (s.renv 0 1023) (bitsOf (G.ss 63 2) 15 0) 0 false = false) ∧
    ((wStrm []).region 0).strm 63 = {} := by decide +kernel

theorem witness_StoreStreams_drives :
    (let G := (wStrm [] (fun g => g.wr STRM_STK_ARRIVE 0x4005 63)).region 0
     let w := FWord.make 0 0 true 15
     w.v = true ∧ (Hdr.ofBits w.data).fmt = 15 ∧ (G.strm 63).part = none ∧ (Hdr.ofBits w.data).leg = G.rd STRM_HDR_LEG 63 ∧
       (G.strm 63).dseq ≤ extCount (G.strm 63).dseq (Hdr.ofBits w.data).seq ∧ G.rd STRM_STK_ARRIVE 63 / 2 ^ 14 = 1 ∧
       (G.strm 63).waits = [] ∧ G.driveq.length < 32) ∧
    32 ≤ ((wStrm [] (fun g => { g with driveq := List.replicate 32 ⟨0, 1, false, 0, 0, none, .mc⟩ })).region 0).driveq.length ∧
    (((wStrm [] (fun g => { g with strms := [(63, { waits := [Hdr.ofBits 15] })] })).region 0).strm 63).waits ≠ [] ∧
    ((Hdr.ofBits (15 + 2 ^ 64)).fmt = 15 ∧ (Hdr.ofBits (15 + 2 ^ 64)).leg ≠ ((wStrm []).region 0).rd STRM_HDR_LEG 63) ∧
    (let G := (wStrm [] (fun g => { g with strms := [(63, { dseq := 3 })] })).region 0
     extCount (G.strm 63).dseq (Hdr.ofBits (15 + 2 * 2 ^ 32)).seq < (G.strm 63).dseq ∧
       (G.strm 63).dseq < extCount (G.strm 63).dseq (Hdr.ofBits (15 + 4 * 2 ^ 32)).seq ∧ G.rd STRM_STK_ARRIVE 63 / 2 ^ 14 ≠ 1) := by
  decide +kernel

/-- Region 0 with the zero-fill registers. -/
def wZero (base len : Nat) : Region := (wOn.wr MEM_ZERO_BASE_BASE base).wr MEM_ZERO_LEN_LEN len

theorem witness_ScrubsAndZeroFill :
    ((wLive {}).region 0).lost = false ∧
    (MEM_ZERO_CTL_START.on 3 = true ∧ MEM_ZERO_CTL_TGT.of 3 = 1 ∧ MEM_ZERO_CTL_START.on 2 = false ∧ wOn.fill = none ∧
      wOn.rd MEM_ZERO_LEN_LEN = 0) ∧
    (let s := wLive {} (fun _ => wZero 262143 2)
     (s.region 0).fillBad (s.renv 0 0) 1 262143 2 = true) ∧
    (let s := wLive {} (fun _ => wZero 262143 1)
     (s.region 0).rd MEM_ZERO_LEN_LEN ≠ 0 ∧ (s.renv 0 0).clearing = false ∧ (s.region 0).rd MEM_ZERO_BASE_BASE % 2 ^ 18 = 262143 ∧
       (s.region 0).fillBad (s.renv 0 0) 1 262143 1 = false) ∧
    (({ (wLive {}).wr CTX_STAT_STATE 4 1 with
      ctxs := [(1, { clearing := [{ region := 0, tgt := 1, base := 0, len := 1 }] })] } : State).renv 0 0).clearing = true ∧
    (let G : Region := { wOn with fill := some { tgt := 1, base := 262143, len := 1 } }
     G.fill = some { tgt := 1, base := 262143, len := 1 }) ∧
    (MEM_ZERO_CTL_DONE.on 0x18 = true ∧ MEM_ZERO_CTL_REFUSED.on 0x18 = true ∧ MEM_ZERO_CTL_START.on 0x18 = false) := by
  decide +kernel

theorem witness_ScrubsAndZeroFill_errors :
    (let G : Region := { wOn with scrubPos := 262143, storeEcc := [(4194303, 1)] }
     (G.upset [(4194302, 1)]).storeEcc.length = 2 ∧ 16 * G.scrubPos ≤ 4194303 ∧ 4194303 < 16 * G.scrubPos + 16 ∧
       G.fixes.contains 4194303 = false ∧ ∃ x ∈ (G.upset []).storeEcc, x.1 = 4194303 ∧ x.2 = 1) ∧
    (let G : Region := { wOn with patrolPos := 150994943, stackEcc := [(1207959551, 1)] }
     8 * G.patrolPos ≤ 1207959551 ∧ 1207959551 < 8 * G.patrolPos + 8 ∧ (G.stkUpset []).stackEcc.get natZero 1207959551 = 1 ∧
       G.rd HBM_PATROL_PASSES < 0xFFFF) := by decide +kernel

/-- A drive of region stake 4095 by `inc` from parcel `p` with generation `gen`. -/
def wRDrv (p inc gen : Nat) : Drive := { stake := 4095, inc := inc, void := false, tag := 0, parcel := p, gen := some gen, by_ := .mc }
/-- Region 0 whose stake 4095 is parcel 15's, with a count. -/
def wRStk (cnt : Int) (q : List Drive) : State :=
  wLive {} (fun g => { g with stakes := [(4095, { cfg := 0x41F, cnt := cnt })], driveq := q })

theorem witness_RegionDrives :
    (let s := wRStk 0 []
     (s.region 0).lost = false ∧ (∀ x ∈ (s.region 0).xfers, x.started = true ∨ x.dead = true) ∧ (s.region 0).driveq = [] ∧
       ∀ i, i < 64 → ((s.region 0).strm i).waits = []) ∧
    (let s := wRStk 0x7FFFFFFE [wRDrv 15 1 0]
     let G := s.region 0
     G.driveq = [wRDrv 15 1 0] ∧ (wRDrv 15 1 0).gen = some ((s.renv 0 0).gens.getD 15 0) ∧ 15 = (G.stake 4095).parcel ∧
       (G.stake 4095).en = true ∧ (G.stake 4095).poison = false ∧ (G.stake 4095).cnt + 1 ≤ 0x7FFFFFFF ∧
       0x7FFFFFFF < (G.stake 4095).cnt + 2) ∧
    ((wRDrv 14 1 0).parcel ≠ ((wRStk 0 []).region 0 |>.stake 4095).parcel ∧ (wRDrv 14 1 0).parcel ≠ 0 ∧
      (wRDrv 14 1 0).gen = some (((wRStk 0 []).renv 0 0).gens.getD 14 0)) ∧
    (({ cfg := 0x41F, poison := true } : Stake).parcel = 15 ∧ ({ cfg := 0x41F, poison := true } : Stake).en = true) ∧
    (1 ≠ ((wRStk 0 []).renv 0 0).gens.getD 15 0 ∧ (wRDrv 15 1 1).gen = some 1 ∧ (wRDrv 15 1 1).parcel ≠ 0) := by decide +kernel

/-- The assignment that LANE_OCT shows for octet `o`, in force. -/
def wAssign (s : State) (o : Nat) : State :=
  { s with plat := { s.plat with lanes := s.plat.lanes.put laneZero o (s.hub.hub.word .hub (0x3000 + 4 * o)) } }

/-- Block 25 of parcel `p`, pattern entry `w` at cycle 8, changed by `f`; its south neighbour is block 1. -/
def wRouter (p : Nat) (w : Word) (f : Block → Block := id) : State :=
  { wLive {} with plat := { active := some {} }
                  blocks := [(25, f { regs := Regs.wr [] RT_CTL_PARCEL p, router := { pat := [(8, w)] } })] }

/-- An easement word. -/
def wEas (parcel : Nat) : FWord := { FWord.make parcel 0 true 7 with eas := true }

theorem witness_FabricWords :
    (beyond 1128 (1 - 1) = .none ∧ beyond 12 (2 - 1) = .none ∧ beyond 25 (2 - 1) = .block 1 ∧ beyond 4582 (4 - 1) = .block 4581 ∧
      beyond 3456 (2 - 1) = .shore ∧ beyond 1151 (3 - 1) = .edge 5 15 ∧ beyond 0 (4 - 1) = .edge 0 0) ∧
    (let s := wRouter 1 2
     (s.env 25 8).easeCycle = false ∧ (s.env 25 2).easeCycle = true ∧ (s.block 25).easeWaits (s.env 25 2) 2 (wEas 0) 0 = false) ∧
    (let x : Eased := { order := 0, dirs := [3], w := wEas 0 }
     let s := wRouter 1 2 (fun b => { b with router := { ein := [x, x], eout := [x, x] } })
     ((s.block 25).easeWaits (s.env 25 2) 3 (wEas 0) 0 || (s.block 25).easeWaits (s.env 25 2) 4 (wEas 0) 0) = true) ∧
    (segBetween 25 1 = none ∧ segBetween 384 360 = some (0, 1) ∧ (FWord.make 1 0 true 7).stamp = 4 % 4 ∧
      (FWord.make 1 0 true 7).stamp ≠ 5 % 4) := by decide +kernel

theorem witness_FabricWords_router :
    (let s := wRouter 1 2
     let B := s.blockAt 25 8
     let w := FWord.make 1 0 true 7
     w.v = true ∧ w.eas = false ∧ w.par = parOf w.data ∧ (wEas 0).par = parOf (wEas 0).data ∧ (wEas 1).parcel ≠ 0 ∧
       entryOuts (B.slotEntry (s.region (regionOf 25)).pat (8 % 256)) 2 = [0] ∧ w.parcel = B.rd RT_CTL_PARCEL ∧ w.gen = (s.env 25 8).gen ∧
       entryOuts (B.slotEntry (s.region (regionOf 25)).pat (9 % 256)) 2 = [] ∧ (s.env 25 8).fenced = false ∧ (B.leg 0).stalled = false) ∧
    entryOuts (2 * 2 ^ 12) 2 = [4] ∧ ({ FWord.make 1 0 true 7 with par := 0 } : FWord).par ≠ parOf 7 ∧
    (FWord.make 2 0 true 7).parcel ≠ ((wRouter 1 2).blockAt 25 0).rd RT_CTL_PARCEL ∧
    (FWord.make 1 1 true 7).gen ≠ ((wRouter 1 2).env 25 0).gen := by decide +kernel

theorem witness_FabricWords_launch :
    ((wLive {} (fun g => { g with lost := true })).region (regionOf 0)).lost = true ∧
    (let s : State := { wLive {} (fun g => { g with stopped := true }) with plat := { active := some {} } }
     (s.region (regionOf 0)).lost = false ∧ (s.region (regionOf 0)).stopped = true ∧ (s.env 0 8).easeCycle = false ∧
       (s.env 0 2).easeCycle = true) ∧
    (let s : State := { wLive {} with plat := { active := some {} } }
     s.runs 0 = true ∧ (s.region (regionOf 0)).lost = false ∧ (s.region (regionOf 0)).stopped = false ∧ (s.env 0 8).easeCycle = false) ∧
    (let s := wActive { wLive wTenant (fun g => g.wr RGN_FENCE_FENCED 1 0) with plat := { active := some {} } } 1
     s.runs 0 = false ∧ ((s.region (regionOf 0)).isFenced (indexOf 0) && s.activeP ((s.block 0).rd RT_CTL_PARCEL)) = true) ∧
    (let s : State := { wRun with plat := { active := some {} } }
     s.runs 0 = false ∧ ((s.region (regionOf 0)).isFenced (indexOf 0) && s.activeP ((s.block 0).rd RT_CTL_PARCEL)) = false) := by
  decide +kernel

/-- Octet 48 of kind `k` ends at lane port 4 of region 0 and lane port 3 of region 23. -/
def wCircuit (k lock : Nat) : State :=
  let s0 := wLive {} (fun g => { g with edge := [(8, 2 ^ (64 + 4 * 15)), (9, 6 * 2 ^ (64 + 4 * 15)), (10, 7 * 2 ^ (64 + 4 * 15))] })
  let s : State := { s0 with plat := { active := some {} } }
  let s := (((s.wr LANE_OCT_KIND k 48).wr LANE_OCT_A_DIE 0 48).wr LANE_OCT_A_FLD 0 48).wr LANE_OCT_A_PORT 4 48
  wAssign ((((s.wr LANE_OCT_B_DIE 3 48).wr LANE_OCT_B_FLD 5 48).wr LANE_OCT_B_PORT 3 48).wr LANE_STAT_LOCK lock 48) 48

theorem witness_FabricWords_edge :
    (let t := wCircuit 1 1
     let w := FWord.make 0 0 true 7
     edgeBlock 0 15 = (360, 3) ∧ (t.env 360 8).easeCycle = false ∧ (t.env 360 2).easeCycle = true ∧ (t.block 360).rd RT_CTL_PARCEL = 0 ∧
       (t.region 0).recq.length < 64 ∧ w.v = true ∧ w.par = parOf w.data ∧
       (t.region 0).selector 8 15 true = 1 ∧ (t.region 0).selector 9 15 true = 4 + 2 ∧ (t.region 0).selector 10 15 true = 7 ∧
       (t.region 0).selector 11 15 true = 0 ∧ t.octetOf 0 4 = some 48 ∧ t.lane LANE_OCT_KIND 48 ≠ 2 ∧ t.bit LANE_STAT_LOCK 48 = true ∧
       t.farEnd 48 0 4 = (23, 3)) ∧
    ((wCircuit 1 0).bit LANE_STAT_LOCK 48 = false ∧ (wCircuit 2 1).lane LANE_OCT_KIND 48 = 2 ∧ (wCircuit 0 1).octetOf 0 4 = none) ∧
    (FWord.make 1 0 true 7).parcel ≠ ((wCircuit 1 1).block 360).rd RT_CTL_PARCEL ∧
    (let t := { wCircuit 1 1 with blocks := [(360, wTenant)] }
     (FWord.make 1 1 true 7).parcel = (t.block 360).rd RT_CTL_PARCEL ∧ (FWord.make 1 1 true 7).gen ≠ t.genOf 1) ∧
    (chipBlk (6 * 3) 11 = 3467 ∧ (FWord.make 0 0 true 7).v = true ∧ (noWord 0).v = false) := by decide +kernel

theorem witness_SegmentsAndCircuits :
    (segExists 22 0 = true ∧ segExists 20 1 = true ∧ segExists 23 0 = false ∧ wRun.pert.acting.getD 0 false = false) ∧
    (let s := { (wRun.wr PERT_XDLY_REGION 20).wr PERT_XDLY_SLOT 1 with pert := { acting := [true, false, false, false, false] } }
     (s.pert.acting.getD 0 false && s.rd PERT_XDLY_REGION == 20 && s.rd PERT_XDLY_SLOT == 1) = true) ∧
    ((segRegions 0 0).any (wActive (wLive wTenant) 1).activeIn = true ∧ (segRegions 20 1).any wRun.activeIn = false) ∧
    ((wLive {} (fun g => g.wr XSEG_CTL_RBUSY 1 1)).region 0).bit XSEG_CTL_RBUSY 1 = true ∧
    ((wLive {}).region 0).bit XSEG_CTL_RBUSY 1 = false ∧
    ((wAssign (wRun.wr LANE_OCT_KIND 1 71) 71).lane LANE_OCT_KIND 71 = 1 ∧ (wAssign (wRun.wr LANE_OCT_KIND 2 71) 71).lane LANE_OCT_KIND 71 ≠ 1) := by
  decide +kernel

/-- A good marker of lane 7 with the count `c` (12_sightlines.md Table 12-2). -/
def wMark (c : Nat) : List Byte :=
  let m := leBytes 4 0xB4E21D4B ++ leBytes 2 (7 + 16 * c)
  m ++ leBytes 1 (crcOf 2 m / 256) ++ leBytes 1 (crcOf 2 m % 256)

/-- Sightline port 23 in state `st`, changed by `f`. -/
def wPort (st : Nat) (f : Port → Port := id) : State := { wRun with ports := [(23, f (({} : Port).wr SL_STAT_STATE st))] }

theorem witness_SightlineLanes :
    (let P := ((wPort 1).port 23).resetDone ((wPort 1).penv 23 0)
     P.state ≠ 0 ∧ [wMark 0, wMark 1, wMark 2, wMark 3].length = 4 ∧
       markersGood 7 none [wMark 0, wMark 1, wMark 2, wMark 3] = true ∧ markersGood 7 none [wMark 0, wMark 1, wMark 2, wMark 2] = false) ∧
    (((wPort 0).port 23).resetDone ((wPort 0).penv 23 0)).state = 0 ∧
    (let p := (wPort 2 (fun p => p.wr SL_STAT_LOCK 0x80)).port 23
     (p.rd SL_STAT_LOCK).testBit 7 = true ∧ (p.rd SL_STAT_LOCK).testBit 6 = false ∧ 2 ≤ p.state ∧
       [[], [], [], ([] : List Byte)].any (markerGood 7 none) = false ∧ [wMark 0].any (markerGood 7 none) = true) ∧
    ((wPort 1).port 23).state < 2 ∧ (wPort 1).ready = true ∧ State.reset.ready = false ∧
    (let s := { wRun.wr PERT_SLHOLD_PORT 23 with pert := { acting := [false, true, false, false, false] } }
     s.pert.acting.getD 1 false = true ∧ s.rd PERT_SLHOLD_PORT = 23 ∧ s.rd PERT_SLHOLD_PORT ≠ 22) ∧
    wRun.pert.acting.getD 1 false = false ∧ ((wPort 4 (fun p => { p with slhold := true })).port 23).slhold = true ∧
    ((wPort 4).port 23).slhold = false := by decide +kernel

/-- A word shot of sequence number `q`, with its own CRC. -/
def wShot (q : Nat) : Shot :=
  let x : Shot := { kind := 1, last := true, parcel := 1, gen := 0, nak := false, seq := q, ack := 0, body := 1, crc := 0 }
  { x with crc := crcOf 3 (leBytes 8 x.word0 ++ leBytes 128 x.body) }

/-- Port 23 joined for parcel 1 that expects sequence number 2²⁴ − 1. -/
def wJoined : State := wPort 4 (fun p => { p.wr SL_JOIN_JOINED 2 with expSeq := some (2 ^ 24 - 1) })

/-- Octet 5 is sightline port 23's, with its end at lane port 0 of region 0, which holds the word `w` for it. -/
def wHome (st : Nat) (ws : List (Nat × FWord)) (f : Port → Port := id) (g : Region → Region := id) : State :=
  let s := { wPort st f with regions := [(0, g { wOn with laneOut := ws })] }
  let s := (s.wr LANE_OCT_KIND 2 5).wr LANE_OCT_SL 23 5
  wAssign (((s.wr LANE_OCT_A_DIE 0 5).wr LANE_OCT_A_FLD 0 5).wr LANE_OCT_A_PORT 0 5) 5

theorem witness_SightlineShots :
    (2 ≤ (wJoined.port 23).state ∧ ((wPort 1).port 23).state < 2 ∧ (wShot (2 ^ 24 - 1)).crcOk = true ∧ (wShot 0).crcOk = true ∧
      ({ wShot 0 with crc := (wShot 0).crc + 1 } : Shot).crcOk = false ∧ (wShot 0).kind = 1) ∧
    (let x : Shot := { wShot 0 with kind := 0 }
     ({ x with crc := crcOf 3 (leBytes 8 x.word0 ++ leBytes 128 x.body) } : Shot).crcOk = true) ∧
    ((wJoined.port 23).expSeq = some (2 ^ 24 - 1) ∧ (wJoined.port 23).state = 4 ∧ ((wJoined.port 23).rd SL_JOIN_JOINED).testBit 1 = true ∧
      ((wPort 4).port 23 |>.rd SL_JOIN_JOINED).testBit 1 = false ∧
      seqAhead (2 ^ 24 - 1) (2 ^ 24 - 1) = 0 ∧ 1 ≤ seqAhead 0 (2 ^ 24 - 1) ∧ seqAhead 4094 (2 ^ 24 - 1) < 4096 ∧
      4096 ≤ seqAhead 4095 (2 ^ 24 - 1) ∧ seqAhead (2 ^ 24 - 4098) (2 ^ 24 - 1) < 2 ^ 24 - 4096 ∧
      2 ^ 24 - 4096 ≤ seqAhead (2 ^ 24 - 2) (2 ^ 24 - 1)) := by decide +kernel

/-- A sent shot in the replay buffer, sent `n` times. -/
def wSent (n : Nat) : Sent := { ctl := 0, body := 0, seq := some 0, sent := n }

theorem witness_SightlineShots_replay :
    ((wPort 4 (fun p => { p with buf := [wSent 1] })).port 23).buf.find? (fun y => decide (y.sent ≠ 0)) = some (wSent 1) ∧
    (let p := (wPort 4 (fun p => { p with buf := [wSent 200] })).port 23
     p.buf.any (fun x => (x.sent != 0 && (match x.seq with | some q => decide (seqAhead q 0 < 4096) | none => false)) &&
       decide (p.rd SL_CTL_RETRY_MAX < x.sent)) = true ∧ 2 ≤ p.state) ∧
    ((wPort 4).port 23).buf.find? (fun y => decide (y.sent ≠ 0)) = none := by decide +kernel

theorem witness_SightlineShots_words :
    (let s := wHome 4 [(0, FWord.make 1 0 true 9)] (fun p => p.wr SL_JOIN_JOINED 2)
     s.homeOf 23 = some (0, 0) ∧ takeFirst 0 (s.region 0).laneOut = some (FWord.make 1 0 true 9, []) ∧ (s.port 23).state = 4 ∧
       ((s.port 23).rd SL_JOIN_JOINED).testBit 1 = true ∧ 3 ∉ (s.port 23).drops ∧
       ((s.port 23).buf.filter (fun x => x.ctl == 0)).length < 4080) ∧
    ((wHome 2 []).port 23).state ≠ 4 ∧ takeFirst 0 ((wHome 4 []).region 0).laneOut = none ∧
    (wHome 4 []).homeOf 22 ≠ some (0, 0) ∧
    (let s := (List.range 24).foldl (fun s o => wAssign (s.wr LANE_OCT_KIND 0 (48 + o)) (48 + o)) wRun
     s.homeOf 23 = none) ∧
    3 ∈ ({ drops := [3] } : Port).drops ∧
    4080 ≤ ((List.replicate 4080 ({ ctl := 0, body := 0 } : Sent)).filter (fun x => x.ctl == 0)).length := by decide +kernel

/-- Region 0 with landing record 15 for leg 7 at lane port 0, into store stream 63. -/
def wLand (g : Region) : Region :=
  (((g.wr SL_LAND0_EN 1 15).wr SL_LAND0_LPORT 0 15).wr SL_LAND0_LEG 7 15).wr SL_LAND0_WSTRM 63 15

theorem witness_SightlineDatums :
    (2 ≤ ((wPort 2).port 23).state ∧ ((wPort 2).port 23).state ≠ 4 ∧ ((wPort 2).port 23).buf.length < 4096 ∧ ((wPort 1).port 23).state < 2 ∧
      ((wPort 2).port 23).rx = []) ∧
    4096 ≤ (List.replicate 4096 ({ ctl := 0, body := 0 } : Sent)).length ∧
    (let s := wHome 4 [] (fun p => { p.wr SL_JOIN_JOINED 0x8000 with rx := [(1 + 24999 * 2 ^ 192, 0)] })
     (s.port 23).rx = [(1 + 24999 * 2 ^ 192, 0)] ∧ (1 + 24999 * 2 ^ 192) % 2 ^ 16 = 1 ∧ s.armedF 23 = none ∧ (s.port 23).state = 4 ∧
       ((s.penv 23 0).refFor (Datum.ofBody (1 + 24999 * 2 ^ 192))).len ≠ (Datum.ofBody (1 + 24999 * 2 ^ 192)).len ∧
       (3 + 15 * 2 ^ 16) % 2 ^ 16 = 3 ∧ ((s.port 23).rd SL_JOIN_JOINED).testBit (field (3 + 15 * 2 ^ 16) 16 4) = true ∧
       ((s.port 23).rd SL_JOIN_JOINED).testBit (field (3 + 14 * 2 ^ 16) 16 4) = false ∧ (2 + 0 * 2 ^ 16) % 2 ^ 16 = 2) ∧
    (let s := wHome 3 []
     let E := s.penv 23 0
     let r := E.own
     let d := Datum.ofBody (Datum.body { Datum.ofBody 1 with len := r.len, fwver := E.fw, hash := r.expect, expect := r.hash, parcels := r.mask })
     s.armedF 23 = none ∧ (s.port 23).heldDatum = [] ∧ d.echo = 0 ∧ (s.port 23).judge E d = 0 ∧ (s.port 23).state = 3) ∧
    (let s0 := wHome 4 []
     let s : State := { s0.wr CUT_ACK_ARMED 1 with plat := { s0.plat with load := some { item := ⟨0, 0, 0⟩, cut := true, partners := 2 ^ 23, f := 5 } } }
     s.armedF 23 = some 5 ∧ 5 ≤ (Datum.ofBody (1 + 5 * 2 ^ 128)).frame ∧ (s.penv 23 0).later = none) := by decide +kernel

theorem witness_SightlineDatums_landings :
    (let s := wHome 4 [] id wLand
     s.homeOf 23 = some (0, 0) ∧ 15 ∈ (s.region 0).landings 0 (field 2 16 4) ∧ (s.region 0).lateNotice s.frame.num 15 (field 2 64 48) = false ∧
       (s.region 0).lateNotice 1 15 (field 2 64 48) = true) ∧
    (let w := FWord.make 0 0 true (15 + 7 * 2 ^ 64)
     let s := wHome 4 [] (fun p => { p with rxw := [w] }) wLand
     (s.port 23).rxw = [w] ∧ (s.region 0).lost = false ∧ (Hdr.ofBits w.data).fmt = 15 ∧
       (s.region 0).landing 0 (Hdr.ofBits w.data).leg = some 15 ∧ (s.region 0).landing 0 6 = none) ∧
    (wHome 4 [] id (fun g => { g with lost := true })).region 0 = { (wHome 4 []).region 0 with lost := true } ∧
    ((Hdr.ofBits 0).fmt ≠ 15 ∧ splitTile [FWord.make 0 0 false 0, FWord.make 0 0 true 1, FWord.make 0 0 true 2] =
      some ([FWord.make 0 0 false 0, FWord.make 0 0 true 1], [FWord.make 0 0 true 2]) ∧ splitTile [FWord.make 0 0 false 0] = none) ∧
    ((wPort 2).port 23).rxw = [] := by decide +kernel

theorem witness_LaserSources :
    ((wRun.wr SL_LSRC_EN 1 7).bit SL_LSRC_EN 7 = true ∧ (wRun.wr SL_LSRC_EN 0 7).bit SL_LSRC_EN 7 = false) ∧
    (((wRun.wr SL_LSRC_PRESENT 1 7).wr SL_LSRC_EN 1 7).bit SL_LSRC_PRESENT 7 = true) ∧ wRun.bit SL_LSRC_PRESENT 7 = false := by
  decide +kernel

/-- An item of operation `opc` at slot 1 with bytes `bs`. -/
def wItem (opc : Nat) (bs : List Byte := []) : Item :=
  { slot := 1, opc := opc, nslots := 1, fence := false, irq := false, serial := 1, bytes := bs }

/-- A ready device whose VF 15 of port 1 has begun that item in ring 1. -/
def wHost (opc : Nat) (bs : List Byte := []) : State :=
  { wRun with fns := [(33, { fnZero 33 with rings := [(1, { regs := Regs.wr [] CR_CTL_EN 1, items := [wItem opc bs] })] })] }

/-- A cut-over under way for an item of ring 0 of PF 0, which waits. -/
def wCut (s : State) (l : LoadSt) : State :=
  { s with plat := { s.plat with load := some l }, fns := (0, { rings := [(0, { items := [wItem 5] })] }) :: s.fns }

/-- A plat of one-step variants with nothing planned. -/
def wPlat : Plat :=
  { regions := (List.range 24).map (fun n => (n, { variants := [{ step := 1, beats := [], reserve := [{ pat := 0, scrub := true }] }] })) }

/-- An error record. -/
def wRec (fatal : Bool) : ErrRec := { cls := 5, subtype := 2, level := 1, fatal := fatal, block := 0 }

theorem witness_PlatLoads :
    ((wHost 4).running 33 1 1 4 = some (wItem 4) ∧ (wHost 4).running 33 1 1 6 = none ∧ (wActive (wHost 4) 15).anyActive = true ∧
      (wHost 4).anyActive = false ∧ (wHost 4).platBusy = false ∧ (wCut (wHost 4) { item := ⟨0, 0, 1⟩ }).platBusy = true) ∧
    ((wHost 6).running 33 1 1 6 = some (wItem 6) ∧ (wHost 6).running 33 1 1 4 = none ∧
      (wHost 6).plat.unload.contains (⟨33, 1, 1⟩ : ItemRef) = false ∧
      ({ (wHost 6).plat with unload := [⟨33, 1, 1⟩] } : PlatSt).unload.contains (⟨33, 1, 1⟩ : ItemRef) = true) ∧
    (let s := wCut wRun { item := ⟨0, 0, 1⟩ }
     s.plat.load = some { item := ⟨0, 0, 1⟩ } ∧ (0 < 34 ∧ ∃ y ∈ (s.ring 0 0).items, y.slot = 1 ∧ y.done = none) ∧ wRun.plat.load = none) ∧
    (let s := wCut wRun { item := ⟨0, 0, 1⟩, plat := some wPlat }
     s.plat.load = some { item := ⟨0, 0, 1⟩, plat := some wPlat } ∧ (some wPlat).isSome = true) := by decide +kernel

theorem witness_PlatLoads_cut :
    orRej (wRun.cutRej wPlat wPlat 0 false) (wRun.cutFabricRej wPlat wPlat) = none ∧
    (orRej (wRun.cutRej wPlat { wPlat with pclDef := [(15, 1)] } 0 false) (wRun.cutFabricRej wPlat { wPlat with pclDef := [(15, 1)] }) = none ∧
    (orRej ((wActive wRun 15).cutRej wPlat { wPlat with pclDef := [(15, 1)] } 0 false)
      ((wActive wRun 15).cutFabricRej wPlat { wPlat with pclDef := [(15, 1)] })).isSome = true) := by decide +kernel

/-- A generation-1 image that passes every check. -/
def wImage : ImageRead :=
  { image := some { bytes := leBytes 512 (2 ^ 32 + 2 ^ 64), plat := wPlat, gen1 := some { dies := [], frmLen := 25000, resQ := 32, links := [] } }
    sigOk := true, timed := none }

theorem witness_PlatLoads_accepted : (match (State.reset.checkImage wImage).1 with | .inl _ => true | .inr _ => false) = true := by
  decide +kernel

theorem witness_PlatLoads_rejected : (wRun.checkImage { image := none, sigOk := true, timed := none }).1 = .inr { code := 0x22 } := rfl

theorem witness_CutOversBegin :
    (let f1 := List.replicate 32 (0 : Byte) ++ [1]
     let f2 := List.replicate 28 (0 : Byte) ++ [1, 0, 0, 0, 2]
     (wHost 5 f1).running 33 1 1 5 = some (wItem 5 f1) ∧ (wHost 5 f1).running 33 1 1 7 = none ∧ (wItem 5 f1).num 32 6 ≠ 0 ∧
       (wItem 5 f1).num 32 6 ≤ (wHost 5 f1).frame.num + 1 ∧ (wHost 5 f2).frame.num + 1 < (wItem 5 f2).num 32 6 ∧
       (wItem 5 f1).num 28 1 % 2 = 0 ∧ (wItem 5 f2).num 28 1 % 2 = 1 ∧ (wItem 5 []).num 32 6 = 0 ∧ (wHost 5 f2).platBusy = false ∧
       (wHost 5 f2).bit CUT_STAT_REVOK = false) ∧
    (let l : LoadSt := { item := ⟨0, 0, 1⟩, cut := true }
     let s := wCut (wHost 7) l
     s.running 33 1 1 7 = some (wItem 7) ∧ s.running 33 1 1 5 = none ∧ s.platBusy = true ∧ s.plat.load = some l ∧ l.item ≠ ⟨33, 1, 1⟩ ∧
       (0 < 34 ∧ ∃ y ∈ (s.ring 0 0).items, y.slot = 1 ∧ y.done = none) ∧ s.plat.switch = false ∧
       ({ s.plat with switch := true } : PlatSt).switch = true) ∧
    (let s : State := { wRun.wr CUT_STAT_REVOK 1 with plat := { active := some wPlat, shadow := some wPlat } }
     s.bit CUT_STAT_REVOK = true ∧ s.plat.active = some wPlat ∧ s.plat.shadow = some wPlat ∧ s.platBusy = false) := by decide +kernel

theorem witness_CutOversBegin_reversion : orRej (wRun.cutRej wPlat wPlat 0 true) (wRun.cutFabricRej wPlat wPlat) = none := by
  decide +kernel

theorem witness_CutOversDecide :
    (let l : LoadSt := { item := ⟨0, 0, 1⟩, cut := true, plat := some wPlat, f := 1 }
     let s := ((wCut wRun l).wr CUT_NEED_RGN 0x800000).wr CUT_ACK_RGN 0x800000
     let t : State := { s with plat := { s.plat with cutF := some 1 } }
     s.plat.load = some l ∧ l.cut = true ∧ s.plat.switch = false ∧ (s.region 23).lost = false ∧ (s.region 23).recq = [] ∧
       (s.rd CUT_NEED_RGN).testBit 23 = true ∧ (s.rd CUT_NEED_RGN).testBit 22 = false ∧
       ((wPlat.regionSec 23).variants.map (fun v => v.step)).contains (s.region 23).cur = true ∧ s.fenceCounts.getD 23 0 = l.fences.getD 23 0 ∧
       (s.region 23).bit RGN_SHADOW_WITHDRAWN = false ∧ (s.rd CUT_ACK_RGN).testBit 23 = true ∧ (s.rd CUT_ACK_RGN).testBit 22 = false ∧
       ((wPlat.regionSec 23).variants.map (fun v => v.step)).contains (wOn.wr RGN_CLK_STAT_CUR 2).cur = false ∧
       t.plat.cutF = some 1 ∧ s.plat.cutF = none ∧ t.frame.num + 1 = 1 ∧ t.frame.num + 1 ≠ 2 ∧ t.partnersOk l = true ∧
       t.partnersOk { l with partners := 1 } = false ∧ (0 < 34 ∧ ∃ y ∈ (t.ring 0 0).items, y.slot = 1 ∧ y.done = none) ∧
       (∀ n, n < 24 → (t.rd CUT_NEED_RGN).testBit n = true →
         (t.rd CUT_ACK_RGN).testBit n = true ∧ (t.region n).bit RGN_SHADOW_WITHDRAWN = false) ∧
       t.bit CUT_NEED_HUB = false ∧ (t.wr CUT_NEED_HUB 1).bit CUT_NEED_HUB = true ∧ (t.wr CUT_NEED_HUB 1).bit CUT_ACK_HUB = false) := by
  decide +kernel

theorem witness_CutOversDecide_withdrawn :
    (let s := { wRun.wr CUT_NEED_RGN 1 with regions := [(0, wOn.wr RGN_SHADOW_WITHDRAWN 1)] }
     (s.rd CUT_NEED_RGN).testBit 0 = true ∧ (s.region 0).bit RGN_SHADOW_WITHDRAWN = true) ∧
    ({ wRun with regions := [(0, { wOn.wr RGN_FENCE_FENCED 1 0 with recq := [wRec false] })] } : State).fenceCounts.getD 0 0 = 1 ∧
    ({ wOn with recq := [wRec false] } : Region).recq ≠ [] := by decide +kernel

/-- Ring 1 of VF 15 of port 1, changed by `f`, with doorbell 1. -/
def wRing (f : Ring → Ring := id) : State :=
  { wRun with fns := [(33, { fnZero 33 with rings := [(1, f { regs := (Regs.wr [] CR_CTL_EN 1).wr CR_CTL_LOG2SLOTS 6, pi := 1 })] })] }

theorem witness_RingsTakeItems :
    1 < fnRings 33 ∧
    (let x := wRing.ring 33 1
     x.bit CR_CTL_EN = true ∧ ((64 : Word).toNat + 2 ^ 32 - x.rd CR_CI_CI) % 2 ^ 32 ≤ x.slots ∧
       x.slots < ((65 : Word).toNat + 2 ^ 32 - x.rd CR_CI_CI) % 2 ^ 32 ∧ wRing.canBegin 33 1 = true) ∧
    ((wRun.ring 33 1).bit CR_CTL_EN = false ∧ wRun.canBegin 33 1 = false) ∧
    (Item.parse 0 []).nslots = 0 ∧ 8 < (Item.parse 0 [0, 9]).nslots ∧
    (let i := Item.parse 0 [0, 1, 0, 0, 0, 0, 0, 0, 1]
     1 ≤ i.nslots ∧ i.nslots ≤ 8 ∧ i.nslots ≤ (wRing.ring 33 1).unread ∧ i.fence = false ∧
       (wRing.ring 33 1).used + (wRing.ring 33 1).items.length + 1 ≤ (wRing.ring 33 1).ents ∧ (wRing.ring 33 1).last < i.serial ∧
       i.serial < 2 ^ 64) ∧
    (wRing.ring 33 1).unread < (Item.parse 0 [0, 2]).nslots ∧ (Item.parse 0 [0, 17]).fence = true ∧
    (let x := (wRing (fun r => { r with items := [wItem 0] })).ring 33 1
     x.items ≠ [] ∧ wRing.canBegin 33 1 = true) ∧
    (Item.parse 0 [0, 1]).serial ≤ (wRing.ring 33 1).last ∧
    (let x := (wRing (fun r => r.wr CC_TAIL_TAIL 64)).ring 33 1
     x.ents < x.used + x.items.length + 1) := by decide +kernel

theorem witness_CompletionsAndStops :
    (let y : Item := { wItem 0 with done := some (0, 0) }
     let x := (wRing (fun r => { r with items := [y] })).ring 33 1
     x.items.findIdx? (fun z => z.done.isSome) = some 0 ∧ x.items[0]? = some y ∧ y.done = some (0, 0) ∧ x.used < x.ents ∧ y.irq = false ∧
       x.bit CR_CTL_EN = true) ∧
    (wRing.ring 33 1).items.findIdx? (fun z => z.done.isSome) = none ∧
    (let x := (wRing (fun r => r.wr CC_TAIL_TAIL 64)).ring 33 1
     x.ents ≤ x.used) ∧
    ((wRun.ring 33 1).bit CR_CTL_EN = false ∧ CR_CTL_EN.on 0 = false ∧ CR_CTL_EN.on 1 = true ∧
      ((wRing (fun r => r.wr CR_STAT_ERR 1)).ring 33 1).rd CR_STAT_ERR = 1 ∧
      ((wRing (fun r => r.wr CR_STAT_ERR 1)).ring 33 1).items = [] ∧ (wRing.ring 33 1).rd CR_STAT_ERR = 0) := by decide +kernel

theorem witness_ItemsMoveData :
    ((wHost 0).running 33 1 1 0 = some (wItem 0) ∧ (wHost 1).running 33 1 1 1 = some (wItem 1) ∧ (wHost 3).running 33 1 1 3 = some (wItem 3) ∧
      wRun.running 33 1 1 0 = none) ∧
    (let bs := List.replicate 32 (0 : Byte) ++ [4, 0, 0, 0, 0xFF, 0xFF]
     (wHost 2 bs).running 33 1 1 2 = some (wItem 2 bs) ∧ ([] : List Byte).length < (wItem 2 bs).num 32 4 ∧
       [0, 0, 0, (0 : Byte)].length = (wItem 2 bs).num 32 4 ∧ (wItem 2 bs).num 36 2 = 0xFFFF ∧
       (wItem 2 (List.replicate 40 0)).num 36 2 ≠ 0xFFFF) ∧
    (((wLive {} (fun g => { g with stackEcc := [(0, 2)] })).hostLoad 0 0 4).bad.isSome = true ∧ (wRun.hostLoad 0 0 4).bad.isSome = false) := by decide +kernel

theorem witness_ItemsMoveData_admit : ∀ p, ((wHost 0).ctx p).admitItem ≠ some ⟨33, 1, 1⟩ := fun _ h => nomatch h

theorem witness_HostStoreReachesItsLines :
    (hostPlace (23 * 0x1000000000 + 0x8FFFFFFFF) = .stack 23 0x8FFFFFFFF ∧ wRun.judge 17 (23 * 0x1000000000 + 0x8FFFFFFFF) = 0 ∧
      (23 * 0x1000000000 + 0x8FFFFFFFF) % 256 + 1 ≤ 256 ∧ (wRun.region 23).stkBad 0x8FFFFFFFF 0x900000000 = []) ∧
    (hostPlace (0x1F000000000 + 0x5C000000) = .store 23 0 ∧ wRun.judge 0 (0x1F000000000 + 0x5C000000) = 0 ∧
      ((wRun.region 23).rsEcc (wRun.renv 23 0) 0 4).2 = false) ∧
    (let s := wLive {} (fun g => { g with storeEcc := [(0, 2)] })
     hostPlace 0x1F000000000 = .store 0 0 ∧ ((s.region 0).rsEcc (s.renv 0 0) 0 4).2 = true) ∧
    wRun.judge 0 0x900000000 ≠ 0 ∧ isPf 17 = true ∧ (isPf 18 = false ∧ fnParcel 18 = 0) := by decide +kernel

theorem witness_FunctionsAndLinks :
    ((wActive wRun 15).pstate (fnParcel 33) = 2 ∧ ((wActive wRun 15).ctx (fnParcel 33)).req = none ∧ isPf 33 = false ∧ fnParcel 33 ≠ 0) ∧
    (wRun.err.wait.any (fun y => y.1 == 17) = false ∧ (wRun.fn 17).bookOn = false ∧ wRun.err.q.any (fun r => r.book.receivers.contains 17) = false) ∧
    (let r : ErrRec := { cls := 2, subtype := 0xD4, level := 3 }
     let s : State := { wRun with err := { q := [r] }, fns := [(17, { book := Regs.wr [] FB_CTL_EN 1 })] }
     s.err.q = [r] ∧ r.book.receivers.contains 17 = true ∧ (s.fn 17).bookOn = true ∧ (s.fn 17).d3 = false ∧
       s.err.q.findIdx? (fun x => x.fatal && x.book.receivers.contains 17) = none ∧
       s.err.q.findIdx? (fun x => x.book.receivers.contains 17) = some 0 ∧
       [r, { r with fatal := true }].findIdx? (fun x => x.fatal && x.book.receivers.contains 17) = some 1) ∧
    (let b : BookRec := ({ cls := 2, subtype := 0xD4, level := 3 } : ErrRec).book
     let s : State := { wRun with err := { wait := [(17, b)] }, fns := [(17, { book := Regs.wr [] FB_CTL_EN 1 })] }
     s.err.wait.any (fun y => y.1 == 17) = true ∧ (s.fn 17).bookOn = true ∧ (s.fn 17).bookRoom = true ∧ (s.fn 17).d3 = false ∧
       s.err.wait.findIdx? (fun y => y.1 == 17) = some 0 ∧ s.err.wait[0]? = some (17, b) ∧ ({ s.fn 17 with d3 := true } : Fn).d3 = true) := by
  decide +kernel

theorem witness_RegisterWrites :
    (¬(8 = 4 ∧ 4 % 4 = 0) ∧ ¬(8 = 8 ∧ 4 % 8 = 0) ∧ ¬(2 = 4 ∧ 0 % 4 = 0) ∧ 0x30 % 8 = 0) ∧
    (isPf 0 = true ∧ State.reset.ready = false ∧ 0x71FC < 0x7200 ∧ 0x7400 ≤ 0x7400) ∧
    (isPf 33 = false ∧ wRun.ready = true ∧ 0x180 ≤ 0x180) ∧
    (wRun.sealed = false ∧ wRun.loading = false ∧ assigned .mon 0x9000 = true ∧ assigned .ctx 0xB000 = true ∧ bitsOf 0 31 31 = 0) ∧
    ((wRun.wr BRUP_RLOST_RGN 0x800000).reaches 4607 = false ∧ (wLive {}).reaches 0 = true ∧ (wRun.wr BRUP_RLOST_RGN 0x800000).ready = true) ∧
    (FRM_LEN_LEN.lo ≤ FRM_LEN_LEN.hi ∧ FRM_LEN_LEN.hi < 32 ∧
      fieldBad SP_RING_BASE_SSIZE 0 = true ∧ fieldBad SP_RING_BASE_SSIZE 1 = false) := by decide +kernel

/-- An item of a context for parcel `p` with FIRST `f`. -/
def wCtxItem (p f : Nat) : List Byte := List.replicate 16 0 ++ leBytes 1 p ++ List.replicate 7 0 ++ leBytes 6 f

/-- A station of parcel 15 over one block. -/
def wStation : StationRec :=
  { station := 0, parcel := 15, die := 0, x0 := 0, x1 := 0, y0 := 0, y1 := 0, prog := 0, entry := 0, thr := 0, tol := 8, floor := 0
    layer := 0, nrel := 0 }

theorem witness_ContextsBeginAndEnd :
    (let bs := wCtxItem 15 0
     let s := wHost 8 bs
     s.running 33 1 1 8 = some (wItem 8 bs) ∧ s.running 33 1 1 9 = none ∧ (wItem 8 bs).num 16 1 % 16 = 15 ∧ (s.admitCode 15 0).isSome = true) ∧
    (({ (wRun.wr PLAT_STAT_SEALED 1).wr PCL_DEF_EN 1 15 with plat := { active := some { stations := [wStation] } } } : State).admitCode 15 0 =
      none) ∧
    (let bs := wCtxItem 15 0
     let s := wHost 9 bs
     s.running 33 1 1 9 = some (wItem 9 bs) ∧ s.running 33 1 1 8 = none ∧ s.pstate 15 = 0 ∧ (s.wr CTX_STAT_STATE 4 15).pstate 15 = 4 ∧
       (wActive s 15).pstate 15 = 2 ∧ ((wActive s 15).ctx 15).req = none ∧ (s.wr CTX_STAT_STATE 3 15).pstate 15 = 3 ∧
       (s.wr CTX_STAT_STATE 1 15).pstate 15 = 1 ∧ (s.ctx 15).admitItem ≠ some ⟨33, 1, 1⟩ ∧ (s.ctx 15).loaded = false) ∧
    (let x : Ctx := { req := some (9, true), admitItem := some ⟨0, 0, 1⟩, loaded := true
                      clearing := [{ region := 23, tgt := 1, base := 0, len := 1 }] }
     let s : State := { wRun with ctxs := [(15, x)], fns := [(0, { rings := [(0, { items := [wItem 8] })] })] }
     (s.ctx 15).req = some (9, true) ∧ (s.ctx 15).admitItem = some ⟨0, 0, 1⟩ ∧ (s.ctx 15).loaded = true ∧ (s.region 23).lost = false ∧
       (0 < 34 ∧ ∃ y ∈ (s.ring 0 0).items, y.slot = 1 ∧ y.done = none)) ∧
    (let s : State := { wLive wTenant with plat := { active := some { stations := [{ wStation with parcel := 1 }] } } }
     0 ∈ s.stationBlocks 1 ∧ s.absent 0 = false ∧ 24 ∉ s.stationBlocks 1 ∧ 0 ∈ s.listedBlocks ∧ (s.block 0).rd RT_CTL_PARCEL = 1) := by
  decide +kernel

theorem witness_FaultRecordsTravel :
    (((wLive {}).block 0).recq = [] ∧ ((wLive {} (fun g => { g with lost := true })).region 0).lost = true) ∧
    (let s := wLive { recq := [wRec false] }
     nextRecord (s.block 0).recq = 0 ∧ (s.block 0).recq[0]? = some (wRec false) ∧ (s.region 0).lost = false) ∧
    ((wLive {}).region 0).recq = [] ∧
    (let s := wLive {} (fun g => { g with recq := [wRec false, wRec true] })
     nextRecord (s.region 0).recq = 1 ∧ (s.region 0).recq[1]? = some (wRec true) ∧ s.err.q.length < 448) ∧
    ((wRec false).fatal = false ∧ (wRec false).tell = false ∧ nextRecord [wRec false] = 0) ∧
    (let r : ErrRec := { wRec false with teardown := true, parcel := 15 }
     let s := wActive (wLive {} (fun g => { g with recq := [r] })) 15
     (s.region 0).recq[nextRecord (s.region 0).recq]? = some r ∧ s.pstate r.parcel = 2 ∧ (s.ctx r.parcel).req = none) ∧
    (regionOf 4607 = 23 ∧ (lostWith 1).contains 5 = true ∧ (lostWith 1).contains 2 = false) := by decide +kernel

/-- A ledger entry of block 191. -/
def wLed (suspect : Bool) (clean : Nat) : Ledger :=
  { b := 191, level := 1, poisons := 0, trans := 1, start := 0, suspect := suspect, clean := clean, stamp := 0, fails := [] }

theorem witness_LedgerFencesAndRetests :
    (let G : Region := { wOn.wr RGN_SUSP_CTL_CLRF 1 with ledger := [wLed true 256, wLed true 255, wLed false 0] }
     G.lost = false ∧ G.ledger[0]? = some (wLed true 256) ∧ G.ledger[3]? = none ∧ (wLed true 256).b < 192 ∧ (wLed true 256).suspect = true ∧
       256 * G.rd RGN_SUSP_CTL_CLRF ≤ (wLed true 256).clean ∧ (wLed true 255).clean < 256 * G.rd RGN_SUSP_CTL_CLRF ∧
       (wLed false 0).suspect = false) ∧
    (let s := wReady.wr PWR_SAMPLE_N 86400000
     (wLed false 0).stamp + 86400000 ≤ s.ms ∧ (wReady.wr PWR_SAMPLE_N 86399999).ms < (wLed false 0).stamp + 86400000 ∧ s.ready = true) ∧
    (wOn.isFenced 191 = false ∧ wOn.fencing.any (fun x => x.1 == 191) = false ∧ (wOn.wr RGN_FENCE_FENCED 0x80000000 5).isFenced 191 = true) ∧
    ((wLive {} (fun g => { g with lost := true })).region 0).lost = true ∧ State.reset.ready = false ∧ (wLive {}).ready = true := by
  decide +kernel

theorem witness_LedgerFencesAndRetests_hard :
    (let s := wLive {}
     ((s.region 0).retestHard (s.renv 0 0) (.stackUe 0 0 [true, true, true, true])).1 = true ∧
       ((s.region 0).retestHard (s.renv 0 0) (.stackUe 0 0 [true, true, true, false])).1 = false ∧
       ((s.region 0).retestHard (s.renv 0 0) (.scratchUe 191 16 [false])).1 = true ∧ (Retest.scratchUe 191 16 [false]).block = some 191 ∧
       (s.region 0).recq.length < 64 ∧ (s.region 0).defects = [] ∧
       s.flash.log.length + ((s.region 0).retestAct (s.renv 0 0) (.stackUe 0 0 [true, true, true, true])).defects.length ≤ 3000) ∧
    (let s := wLive {} (fun g => { g with events := List.replicate 4 { kind := 3, unit := 0, stamp := 0 } })
     ((s.region 0).retestHard (s.renv 0 0) .memTimeout).1 = true ∧ Retest.memTimeout.block = none) ∧
    (let s := wLive {} (fun g => { g with events := List.replicate 16 { kind := 1, unit := 15, stamp := 0 } })
     ((s.region 0).retestHard (s.renv 0 0) (.queue 0 15)).1 = true ∧ (queueOf (0 / 6 + 4 * 0 + 32 * 15)).1.1 < 24 ∧ 15 % 32 < 16) := by
  decide +kernel

/-- A test pack of one entry, with PACKID `id`, that key slot 0 signs. -/
def wPack (id : Nat) : List Byte :=
  leBytes 4 0x4B415054 ++ leBytes 2 1 ++ leBytes 2 1 ++ leBytes 4 id ++ leBytes 2 1 ++ leBytes 2 0 ++ leBytes 3 0xFFFFFF ++
    List.replicate 45 0 ++ (leBytes 1 0x11 ++ [0] ++ leBytes 2 64 ++ leBytes 4 5 ++ leBytes 4 9 ++ List.replicate 20 0) ++ List.replicate 256 0

/-- A device whose test pack runs in region 0. -/
def wTpk (f : Tpk → Tpk := id) : State :=
  { (wLive {}).wr TPK_STAT_STATE 2 with tpk := f { regions := 1, tests := [{ fa := 1, fb := 1, k := 64, seed := 5, expect := 9 }] } }

theorem witness_TestPacks :
    ((wHost 0xA).running 33 1 1 0xA = some (wItem 0xA) ∧ wRun.running 33 1 1 0xA = none ∧ wRun.packCode (wPack 1) false = some 1) ∧
    (wRun.wr GRD_CTL_FILLEN 1).packCode (wPack 1) true = none ∧
    (wTpk.tpk.tests[0]? = some { fa := 1, fb := 1, k := 64, seed := 5, expect := 9 } ∧ wTpk.tpk.tests[1]? = none ∧
      wTpk.rd TPK_STAT_STATE = 2 ∧ wTpk.takesTest 0 = true ∧ wTpk.takesTest 4607 = false ∧
      wTpk.tpk.ran.contains (0, 0) = false ∧ wTpk.tpk.failed.contains (0, 0) = false ∧ wTpk.frame.num < wTpk.tpk.start + wTpk.tpk.period) ∧
    (wTpk (fun k => { k with failed := [(0, 0)] })).tpk.failed.contains (0, 0) = true ∧
    (wTpk (fun k => { k with ran := [(0, 0)] })).tpk.ran.contains (0, 0) = true ∧
    (let s : State := { wTpk with frame := { wTpk.frame with num := 1 } }
     s.rd TPK_STAT_STATE = 2 ∧ s.tpk.start + s.tpk.period ≤ s.frame.num) ∧
    wRun.rd TPK_STAT_STATE ≠ 2 ∧ wRun.ready = true ∧ State.reset.ready = false := by decide +kernel

/-- A fill tile's outcome rests on the free seed, so only what makes a block run one is shown. -/
theorem witness_TestPacks_fill :
    (let s := ((wLive {} (fun g => g.wr PCTL_FILL_FQ 1 0)).wr GRD_CTL_FILLEN 1).wr GRD_STAT_STATE 1
     s.takesFill 0 = true ∧ (s.blockAt 0 0).testRun = 0) ∧ (wLive {}).takesFill 0 = false := by decide +kernel

theorem witness_TestPacks_fails (b : Block) : ∃ e : TestEnt, (testPass b e []).2 ≠ e.expect :=
  ⟨{ fa := 1, fb := 1, k := 64, seed := 5, expect := (testPass b { fa := 1, fb := 1, k := 64, seed := 5, expect := 0 } []).2 + 1 },
    Nat.ne_of_lt (Nat.lt_succ_self _)⟩

/-- The registers of region 0, changed by `f`. -/
def wReg (f : Region → Region) : State := wLive {} f

theorem witness_FabricRailPhases :
    (let s := wReg (fun g => g.wr PWR_FAB_PHOK 3)
     (s.region 0).lost = false ∧ (s.region 0).rd PWR_FAB_PHOK = 3 ∧ (s.region 0).recq.length < 64 ∧ s.err.q.length < 448) ∧
    ((wReg (fun g => g.wr PWR_FAB_PHOK 2)).region 0).rd PWR_FAB_PHOK = 2 ^ 1 ∧
    ((wReg (fun g => g.wr PWR_FAB_PHOK 1)).region 0).rd PWR_FAB_PHOK = 2 ^ 0 := by decide +kernel

theorem witness_SamplesWindowsAndIntervals :
    (wRun.wr PWR_IN_STAT_AUXOK 1).bit PWR_IN_STAT_AUXOK = true ∧ 114 < 115 ∧ (∀ x ∈ List.replicate 24 114, x < 115) ∧
    (let s := { wReg (fun g => (g.wr PWR_DOM_STAT_PHOK 0xFF).wr PCTL_ILIM_LIM 80) with pw := { wRun.pw with doms := [(0, { low90 := 31 })] } }
     let lim := min (125 * (s.region 0).rd PCTL_ILIM_LIM) ((s.region 0).rated 0)
     (s.region 0).lost = false ∧ (s.region 0).rd PWR_DOM_STAT_STATE = 1 ∧ lim = 10000 ∧ lim < 10001 ∧ 10 * 8999 < 9 * lim ∧
       (s.dom 0).low90 = 31 ∧ 9 * lim ≤ 10 * 9000 ∧ 10000 ≤ lim) ∧
    (({} : DomSt).low90 ≠ 31 ∧ (wRun.region 23).rd PWR_DOM_STAT_STATE 3 ≠ 1) ∧
    (18 * 722222 ≤ 13000000 ∧ 13000000 < 18 * 722223 ∧ ((wRun.wr PWR_IBC_IBCOK 0x800).rd PWR_IBC_IBCOK).testBit 11 = true ∧
      ((wRun.wr PWR_IBC_IBCOK 0x400).rd PWR_IBC_IBCOK).testBit 11 = false) ∧ State.reset.bit PWR_IN_STAT_AUXOK = false := by
  decide +kernel

theorem witness_SamplesWindowsAndIntervals_caps :
    wRun.pw.cap < (List.replicate 96 156251).foldl (fun a x => a + x) 0 + wRun.pw.other ∧
    (let s : State := { wRun with pw := { wRun.pw with cap := 1000000 } }
     let e := [979999].foldl (fun a x => a + x) 0 + s.pw.other
     e ≤ s.pw.cap ∧ 100 * e < 98 * s.pw.cap) ∧
    (let s : State := { (wRun.wr GRD_STAT_STATE 4) with pw := { wRun.pw with cap := 1000000, g := 0 } }
     let e := [980000].foldl (fun a x => a + x) 0 + s.pw.other
     e ≤ s.pw.cap ∧ 98 * s.pw.cap ≤ 100 * e ∧ 1 ≤ s.rd GRD_STAT_STATE ∧ s.rd GRD_STAT_STATE < 5 ∧ s.pw.g + 5 * s.tdp < e ∧
       s.pw.g + 20 * s.tdp < e) ∧
    (let s : State := { (wRun.wr GRD_STAT_STATE 1) with pw := { wRun.pw with cap := 1000000, g := 2000000 } }
     980000 + s.pw.other + 5 * s.tdp < s.pw.g) ∧ wRun.rd GRD_STAT_STATE = 0 := by decide +kernel

theorem witness_InputsPhasesAndDomains :
    State.reset.bit PWR_IN_STAT_AUXOK = false ∧
    (let s := ((wRun.wr PWR_IN_STAT_AUXOK 1).wr PWR_IN_STAT_MAINOK 1).wr BRUP_STAT_STAGE 6
     s.bit PWR_IN_STAT_AUXOK = true ∧ s.bit PWR_IN_STAT_MAINOK = true ∧ s.rd BRUP_STAT_STAGE = 6 ∧ s.mc.waiting = false) ∧
    (let s := (((wRun.wr PWR_IN_STAT_AUXOK 1).wr PWR_IN_STAT_MAINOK 0).wr PWR_IBC_HCOK 0).wr BRUP_STAT_STAGE 5
     s.bit PWR_IN_STAT_MAINOK = false ∧ s.bit PWR_IBC_HCOK = false ∧ 2 ≤ s.rd BRUP_STAT_STAGE ∧ s.rd BRUP_STAT_STAGE ≤ 5) ∧
    (let s := { (wRun.wr PWR_IN_STAT_AUXOK 1).wr BRUP_STAT_STAGE 1 with mc := { waiting := true } }
     s.bit PWR_IN_STAT_AUXOK = true ∧ s.mc.waiting = true ∧ s.rd BRUP_STAT_STAGE = 1) ∧
    (((wRun.wr PWR_IBC_IBCOK 0x800).rd PWR_IBC_IBCOK).testBit 11 = true ∧ ((wRun.wr PWR_IBC_HBCOK 8).rd PWR_IBC_HBCOK).testBit 3 = true ∧
      ((wRun.wr PWR_IBC_IBCOK 0x800).rd PWR_IBC_IBCOK).testBit 10 = false ∧ ((wRun.wr PWR_IBC_HBCOK 8).rd PWR_IBC_HBCOK).testBit 2 = false) ∧
    (let s := wReg (fun g => (g.wr PWR_DOM_STAT_PHOK 0xFF).wr PWR_DOM_STAT_PHOK 0x7F 3)
     (s.region 0).rd PWR_DOM_STAT_PHOK = 255 ∧ (s.region 0).rd PWR_DOM_STAT_STATE = 1 ∧ (s.region 0).rd PWR_DOM_STAT_PHOK 3 ≠ 255 ∧
       ((s.region 0).rd PWR_DOM_STAT_PHOK 3).testBit 6 = true ∧ ((s.region 0).rd PWR_DOM_STAT_PHOK 3).testBit 7 = false) := by decide +kernel

theorem witness_InputsPhasesAndDomains_softStart :
    (let s := (wReg (fun g => g.wr PWR_DOM_STAT_STATE 0 3)).wr BRUP_STAT_STAGE 3
     s.rd BRUP_STAT_STAGE = 3 ∧ (s.region 0).lost = false ∧ (s.region 0).rd PWR_DOM_STAT_STATE 3 = 0 ∧
       s.untested 0 3 = [0, 1, 2, 3, 4, 5, 6, 7] ∧ (s.dom 3).tries = []) ∧
    (let x : DomSt := { passed := [0, 1, 2, 3, 4, 5, 6], tries := [(7, 2)] }
     let s := { (wReg (fun g => g.wr PWR_DOM_STAT_STATE 0 3)).wr BRUP_STAT_STAGE 3 with pw := { wRun.pw with doms := [(3, x)] } }
     s.untested 0 3 = [7] ∧ ((x.tries.find? (fun t => t.1 == 7)).map (fun t => t.2)).getD 0 + 1 = 3 ∧
       7 ≤ bitsSet (x.passed.foldl (fun m p => m ||| 2 ^ p) 0) 8 ∧ 7 ∉ (wRun.untested 0 3).take 7) ∧
    bitsSet (([0, 1, 2, 3, 4, 5] : List Nat).foldl (fun m p => m ||| 2 ^ p) 0) 8 < 7 := by decide +kernel

theorem witness_InputsPhasesAndDomains_requests :
    (wRun.ready = true ∧ wRun.domUsed 23 3 = false ∧
      (wActive (wLive { regs := (Regs.wr [] BLK_STN_MEMBER 1).wr RT_CTL_PARCEL 1 }) 1).domUsed 0 0 = true) ∧
    ((wOn.vidAt 0 0 1 4 ≤ 72) ∧ 72 < (wOn.wr PWR_DOM_STAT_AGE 4 0).vidAt 0 0 0 4 ∧ wOn.rd PWR_DOM_STAT_STATE 0 = 1) ∧
    (State.reset.ready = false ∧ wRun.rd AGE_THR_PS ≤ 255 ∧ 0 < (wRun.wr AGE_THR_PS 1).rd AGE_THR_PS) ∧
    (wRun.tdp ≤ 4 * PCAP_CAP.of (BitVec.ofNat 32 wRun.tdp) ∧ PCAP_CAP.of (BitVec.ofNat 32 wRun.tdp) ≤ wRun.tdp ∧ PCAP_CAP.of 0 < wRun.tdp) ∧
    wRun.mc.mainMs / 3600000 < wRun.mc.hoursLogged + 24 ∧
    (let s : State := { wRun with mc := { mainMs := 86400000 } }
     s.mc.hoursLogged + 24 ≤ s.mc.mainMs / 3600000 ∧ s.flash.log.length < 3000) := by decide +kernel

/-- A device with the auxiliary input, in stage `k`. -/
def wStage (k : Nat) : State := (State.reset.wr PWR_IN_STAT_AUXOK 1).wr BRUP_STAT_STAGE k

theorem witness_PmbusCommands :
    State.reset.bit PWR_IN_STAT_AUXOK = false ∧ (wStage 6).bit PWR_IN_STAT_AUXOK = true ∧
    (pageListed 13 = true ∧ pageListed 16 = true ∧ pageListed 135 = true ∧ pageListed 14 = false ∧ pageListed 136 = false) ∧
    ((wStage 6).wr PWR_PMB_PECREQ 1).bit PWR_PMB_PECREQ = true ∧ (wStage 6).bit PWR_PMB_PECREQ = false ∧ (wStage 6).pw.page = 0 ∧
    ({ (wStage 6).pw with page := 135 } : PwSt).page ≠ 0 ∧ 0x99 ∉ pmbusCodes ∧ 0x98 ∈ pmbusCodes := by decide +kernel

theorem witness_ResetsAndStages :
    (State.reset.bit PWR_IN_STAT_AUXOK = false ∧ (wStage 1).bit PWR_IN_STAT_AUXOK = true ∧ wReady.ready = true ∧
      HUB_RST_KEY.of 0x15A = 0x5A ∧ HUB_RST_COLD.on 0x15A = true ∧ HUB_RST_KEY.of 0x15B ≠ 0x5A ∧ HUB_RST_COLD.on 0x5A = false ∧
      HUB_RST_KEY.of 0x5A = 0x5A) ∧
    (({ (wStage 1).mc with recovery := true } : McSt).recovery = true ∧ (wStage 7).rd BRUP_STAT_STAGE = 7) ∧
    ((wStage 1).mc.recovery = false ∧ (wStage 1).mc.waiting = false ∧ (wStage 1).rd BRUP_STAT_STAGE = 1 ∧ (wStage 1).fuseBad = none ∧
      (wStage 1).flash.factory ≠ none ∧ (wStage 1).bit PWR_IN_STAT_MAINOK = false ∧
      ((wStage 1).wr PWR_IN_STAT_MAINOK 1).bit PWR_IN_STAT_MAINOK = true ∧
      ({ (wStage 1).flash with factory := none } : Flash).factory = none ∧
      ({ wStage 1 with fuse := { fuseDefault with grade := 4 } } : State).fuseBad = some 2 ∧
      ({ wStage 1 with fuse := { fuseDefault with tdp := 1501 } } : State).fuseBad = some 6) ∧
    ((wStage 2).rd BRUP_STAT_STAGE = 2 ∧ (wStage 3).rd BRUP_STAT_STAGE = 3 ∧ (wStage 4).rd BRUP_STAT_STAGE = 4 ∧
      (wStage 5).rd BRUP_STAT_STAGE = 5 ∧ ∃ n, n < 24 ∧ ((wStage 5).region n).lost = false) ∧
    (let x : FwImage := { version := 1, svn := 0, good := true, rgn := [1], imem := [2], ldata := [3] }
     let s : State := { wStage 5 with flash := { (wStage 5).flash with images := [x] } }
     s.flash.images[s.rd MON_SVN_SLOT]? = some x ∧ x.imem ≠ []) ∧
    (let r : StageResult := { katRgn := (List.range 24).map (fun n => (n, true)) }
     ∀ n, n < 24 → (n, true) ∈ r.katRgn) := by decide +kernel

theorem witness_FirmwareMailboxAndCrashLog :
    (let s : State := { wStage 1 with mc := { recovery := true } }
     s.mc.recovery = true ∧ s.flash.active = 0 ∧ s.otp.min ≤ 0 ∧ (wStage 1).mc.recovery = false) ∧
    (let s : State := { wStage 1 with mc := { recovery := true }, flash := { (wStage 1).flash with active := 1, images := [] } }
     s.flash.active = 1 ∧ s.slotOk 1 = none ∧ s.otp.min ≤ 0) ∧
    (let s : State := { wReady with mc := { crash := [wRec true], crashPend := true }, fns := [(17, { book := Regs.wr [] FB_CTL_EN 1 })] }
     pfs.find? (fun k => (s.fn k).bookOn) = some 17 ∧ s.ready = true ∧ s.mc.crashPend = true ∧ s.mc.crash ≠ []) ∧
    pfs.find? (fun k => (wReady.fn k).bookOn) = none ∧ State.reset.ready = false ∧ wReady.mc.crashPend = false := by decide +kernel

/-- A mailbox request of type `ty` with COUNT 1 and operand byte `x`, signed by the key of 256 zeros. -/
def wMbx (ty x : Nat) : List Byte :=
  leBytes 2 ty ++ leBytes 2 0 ++ leBytes 4 1 ++ leBytes 8 wReady.fuse.serial ++ leBytes 1 x ++ List.replicate 239 0 ++ List.replicate 256 0

theorem witness_FirmwareMailboxAndCrashLog_requests :
    (wReady.ready = true ∧ wReady.bit MON_MBX_CTL_BUSY = false ∧ wReady.plat.load = none ∧
      (wReady.wr MON_MBX_CTL_BUSY 1).bit MON_MBX_CTL_BUSY = true) ∧
    (wReady.mailboxBad (wMbx 1 0) true { version := 1, svn := 0, good := true } = none ∧ numAt (wMbx 1 0) 0 2 = 1) ∧
    (wReady.mailboxBad (wMbx 2 0) true { version := 1, svn := 0, good := true } = none ∧ numAt (wMbx 2 0) 0 2 = 2) ∧
    (let s : State := { wReady with otp := { wReady.otp with slots := [some 1, some (keyDigest (wMbx 3 0)), none] } }
     s.mailboxBad (wMbx 3 0) true { version := 1, svn := 0, good := true } = none ∧ numAt (wMbx 3 0) 0 2 = 3) ∧
    (let s : State := { wReady with fuse := { wReady.fuse with factkey := keyDigest (wMbx 4 0) } }
     s.mailboxBad (wMbx 4 0) true { version := 1, svn := 0, good := true } = none ∧ numAt (wMbx 4 0) 0 2 = 4 ∧ s.flash.log.length < 3000) ∧
    wReady.mailboxBad (wMbx 2 0) false { version := 1, svn := 0, good := true } = some 1 := by decide +kernel

theorem witness_PerturbationControls :
    (State.reset.ready = false ∧ (wReady.wr PERT_STAT_LOCKED 1).pertLocked = true ∧ wReady.ready = true ∧ wReady.pertLocked = false) ∧
    (let v : Word := BitVec.ofNat 32 (22 + 2 ^ 5 + 7 * 2 ^ 11 + 2 ^ 19)
     let u : Word := BitVec.ofNat 32 (2 + 2 ^ 5 + 91 * 2 ^ 11 + 2 ^ 19)
     let s : State := { wReady with regions := [(2, wOn.wr XQ_CAL_MUP 100 1 0)] }
     segExists (PERT_XDLY_REGION.of v) (PERT_XDLY_SLOT.of v) = false ∧ segExists (PERT_XDLY_REGION.of u) (PERT_XDLY_SLOT.of u) = true ∧
       s.bit PERT_XDLY_EN = false ∧ PERT_XDLY_DIR.on u = false ∧ PERT_XDLY_DELAY.of u + 9 ≤ (s.region 2).rd XQ_CAL_MUP 1 0) ∧
    (wReady.bit PERT_SLHOLD_EN = false ∧ (wReady.wr PERT_SLHOLD_EN 1).bit (pertEn 1) = true ∧
      (∃ f ∈ pertFields 1, f.of 23 ≠ (wReady.wr PERT_SLHOLD_EN 1).rd f)) ∧
    (let s : State := { wReady with frame := { wReady.frame with len := 400000 } }
     400000 < s.frame.len + PERT_FSTR_ADD.of 1 ∧ s.frame.len + PERT_FSTR_ADD.of 0 ≤ 400000 ∧ s.bit PERT_FSTR_EN = false) ∧
    (PERT_TMO_A_KIND.of 3 = 3 ∧ PERT_TMO_A_KIND.of 2 ≠ 3 ∧ wReady.bit PERT_TMO_A_EN = false ∧ PERT_MISM_A_PASSES.of 0 = 0 ∧
      PERT_MISM_A_PASSES.of 0x4000 ≠ 0 ∧ wReady.bit PERT_MISM_A_EN = false) := by decide +kernel

/-- A forced timeout of kind `k` at target `tgt` acts on region 0, block 0. -/
def wTmo (k tgt : Nat) (s : State) : State :=
  { ((s.wr PERT_TMO_A_EN 1).wr PERT_TMO_A_KIND k).wr PERT_TMO_B_TARGET tgt with pert := { acting := [false, false, false, true, false] } }

theorem witness_PerturbationControls_timeouts :
    (let s := wTmo 2 7 (wLive {} (fun g => { g with reqs := [wReq] }))
     s.rd PERT_TMO_A_REGION = 0 ∧ chipBlk 0 (s.rd PERT_TMO_A_B) = 0 ∧ s.pert.acting.getD 3 false = true ∧ s.bit PERT_TMO_A_EN = true ∧
       s.rd PERT_TMO_A_KIND = 2 ∧ (s.region 0).lost = false ∧
       (s.region 0).reqs.reverse.find? (fun r => r.eng == s.rd PERT_TMO_B_TARGET % 8) = some wReq) ∧
    (let x := { wSight with st := .issued {} }
     let s := wTmo 0 63 (wLive { seq := { q := [x] } })
     s.rd PERT_TMO_A_KIND = 0 ∧ s.rd PERT_TMO_B_TARGET = 63 ∧ (s.block 0).sight = some x ∧ x.cmd.stake = 63 ∧ x.issued?.isSome = true ∧
       s.runs 0 = true) ∧
    (let x : Xfer := { wXfer with started := false }
     let s := wTmo 0 0x4005 (wDesc [(4, 0x40050000)] (fun g => { g with xfers := [x] }))
     2 ^ 14 ≤ s.rd PERT_TMO_B_TARGET ∧ (s.region 0).xfers.find? (fun x => !x.started && !x.dead &&
       bitsOf ((s.region 0).sd x.eng x.desc 4) 31 16 == 0x4005) = some x) ∧
    (let s := wTmo 0 0x4005 (wStrm [(2, 0x4005)] (fun g => { g with strms := [(63, { since := some 0 })] }))
     (List.range 64).find? (fun i => ((s.region 0).strm i).since.isSome && bitsOf ((s.region 0).ss i 2) 15 0 == 0x4005) = some 63) ∧
    (let s := wTmo 1 1 (wStall 1)
     s.rd PERT_TMO_A_KIND = 1 ∧ (s.block 0).core.mode = .stall 1 0 0x200000 ∧ 1 = s.rd PERT_TMO_B_TARGET % 32 ∧ s.runs 0 = true) ∧
    ((wLive {}).block 0).sight = none ∧ ((wLive {}).region 0).reqs = [] ∧ ((wLive {}).region 0).xfers = [] ∧ wRun.runs 0 = false := by
  decide +kernel

end Sys2Proof.Tests
end

/-!
PROOFS. The numbering of blocks (00 R13, 01 R19) and the writes through BAR0 (00 R5 to R8, 01 R28, 17 R455): what an aligned write
reaches, what a plain register write leaves in its unit, and what an access code does to one field.
-/
namespace Sys2Proof.Machine

/-! ## The numbering of blocks -/

/-- The region of the block in column `x` and row `y` of die `d`. -/
theorem regionOf_coordinates {d x y : Nat} (hx : x < 24) :
    regionOf (1152 * d + 24 * y + x) = 6 * d + (2 * (y / 16) + x / 12) := by
  unfold regionOf
  omega

/-- The index of the block in column `x` and row `y` of die `d`. -/
theorem indexOf_coordinates {d x y : Nat} (hx : x < 24) :
    indexOf (1152 * d + 24 * y + x) = 12 * (y % 16) + x % 12 := by
  unfold indexOf
  omega

@[simp] theorem chipBlk_regionOf_indexOf (blk : Nat) : chipBlk (regionOf blk) (indexOf blk) = blk := by
  unfold chipBlk regionOf indexOf
  omega

theorem regionOf_lt {blk : Nat} (h : blk < 4608) : regionOf blk < 24 := by
  unfold regionOf
  omega

theorem indexOf_lt (blk : Nat) : indexOf blk < 192 := by
  unfold indexOf
  omega

/-- Settles O4: the two numberings are the quotients and remainders of one mixed-radix number. -/
theorem logicalBlockNumbers : Obligations.LogicalBlockNumbers := by
  intro d x y _ hx _
  have hr := regionOf_coordinates (d := d) (y := y) hx
  have hi := indexOf_coordinates (d := d) (y := y) hx
  refine ⟨hr, hi, ?_, by omega, by omega, by omega, by omega⟩
  rw [← hr, ← hi, chipBlk_regionOf_indexOf]

/-! ## One field by its access code (00 R6 to R8) -/

theorem getLsbD_bitMask (hi lo i : Nat) (hh : hi < 32) :
    (bitMask hi lo).getLsbD i = decide (lo ≤ i ∧ i ≤ hi) := by
  simp only [bitMask, BitVec.getLsbD_ofNat, Nat.testBit_mul_two_pow, Nat.testBit_two_pow_sub_one, ← Bool.decide_and]
  exact decide_eq_decide.mpr (by omega)

/-- A field replaced by the same field of another word takes that word's bits. -/
theorem getLsbD_putBits_of (f : Field) (new old : Word) (i : Nat) (hl : f.lo ≤ f.hi) (hh : f.hi < 32) :
    (putBits old f.hi f.lo (f.of new)).getLsbD i =
      if f.lo ≤ i ∧ i ≤ f.hi then new.getLsbD i else old.getLsbD i := by
  rw [getLsbD_putBits _ _ _ _ _ hh hl]
  split
  · next hin =>
    have hle : i - f.lo ≤ f.hi - f.lo := by omega
    rw [Field.of, testBit_bitsOf _ _ _ _ hl, Nat.add_sub_cancel' hin.1, decide_eq_true hle, Bool.true_and]
  · rfl

/-- A code that gives software no write keeps the word: RO, WO, and RWS while sealed. -/
theorem applyRow_of_unwritable {rws : Bool} {r : RegRow} (new old : Word)
    (h : r.acc = .ro ∨ r.acc = .wo ∨ r.acc = .rws ∧ rws = false) : applyRow rws r new old = old := by
  rcases h with hacc | hacc | ⟨hacc, rfl⟩ <;> simp [applyRow, hacc]

/-- A value out of the field's range keeps the word. -/
theorem applyRow_of_fieldBad {rws : Bool} {r : RegRow} {new : Word} (old : Word) (h : r.acc = .rw ∨ r.acc = .rws)
    (hbad : fieldBad r.field (r.field.of new) = true) : applyRow rws r new old = old := by
  rcases h with hacc | hacc <;> simp [applyRow, hacc, hbad]

/-- A value in range replaces the field of an RW row, and of an RWS row that may change. -/
theorem applyRow_of_writable {rws : Bool} {r : RegRow} {new : Word} (old : Word) (h : r.acc = .rw ∨ r.acc = .rws ∧ rws = true)
    (hgood : fieldBad r.field (r.field.of new) = false) :
    applyRow rws r new old = putBits old r.field.hi r.field.lo (r.field.of new) := by
  rcases h with hacc | ⟨hacc, rfl⟩ <;> simp [applyRow, hacc, hgood]

/-- A bit of a word after a write of one of its W1C fields: a written 1 inside the field clears it. -/
theorem getLsbD_applyRow_w1c (rws : Bool) {r : RegRow} (new old : Word) {i : Nat} (hacc : r.acc = .w1c) (hh : r.field.hi < 32)
    (hi : i < 32) :
    (applyRow rws r new old).getLsbD i =
      (old.getLsbD i && !(new.getLsbD i && decide (r.field.lo ≤ i) && decide (i ≤ r.field.hi))) := by
  simp only [applyRow, hacc, BitVec.getLsbD_and, BitVec.getLsbD_not, getLsbD_bitMask _ _ _ hh, hi, decide_true, Bool.true_and,
    Bool.decide_and, Bool.and_assoc]

/-! ## A plain write of a hub register -/

/-- The word that a software write leaves at its own offset. -/
theorem Regs.word_softWrite_self (r : Regs) (u : RegUnit) (rws : Bool) (o : Nat) (v : Word) :
    (r.softWrite u rws o v).word u o = (rowsAt u o).foldl (fun x row => applyRow rws row v x) (r.word u o) :=
  Regs.word_setWord_self _ _ _ _

/-- A software write leaves every other offset. -/
theorem Regs.word_softWrite_ne (r : Regs) (u : RegUnit) (rws : Bool) (v : Word) {o p : Nat} (h : p ≠ o) :
    (r.softWrite u rws o v).word u p = r.word u p :=
  Regs.word_setWord_ne _ _ _ _ _ h

/-- A write of an assigned register without CLR, neither sealed nor loading, changes its group by the access codes and no more. -/
theorem State.softWrite_eq {s : State} {a : Nat} {v : Word} (hs : s.sealed = false) (hl : s.loading = false)
    (ha : assigned (hubUnit a) a = true) (hv : bitsOf v 31 31 = 0) :
    s.softWrite a v =
      { s with hub := s.hub.set (hubUnit a) ((s.hub.of (hubUnit a)).softWrite (hubUnit a) true a v) } := by
  simp [State.softWrite, hs, hl, ha, hv]

/-- The addresses of the monitor group and of the context group's plain registers (23 Table 23-2). -/
def plainHubAddr (u : RegUnit) (a : Nat) : Prop :=
  u = .mon ∧ 0x9000 ≤ a ∧ a < 0xA000 ∨ u = .ctx ∧ 0xB000 ≤ a ∧ a < 0xB100

theorem hubUnit_of_plainHubAddr {u : RegUnit} {a : Nat} (h : plainHubAddr u a) : hubUnit a = u := by
  rcases h with ⟨rfl, hlo, hhi⟩ | ⟨rfl, hlo, hhi⟩
  · have hpage : a / 0x1000 = 9 := by omega
    simp [hubUnit, hpage]
  · have hpage : a / 0x1000 = 0xB := by omega
    simp [hubUnit, hpage]

theorem hubGroup_of_plainHubAddr {u : RegUnit} {a : Nat} (h : plainHubAddr u a) : u.hubGroup = true := by
  rcases h with ⟨rfl, _⟩ | ⟨rfl, _⟩ <;> rfl

/-- No register of these groups has a row of its own: a write goes by the access codes. -/
theorem State.hubWrite_of_plainHubAddr {s : State} {fn a : Nat} {v : Word} {u : RegUnit} (h : plainHubAddr u a) :
    s.hubWrite fn a v = .next (s.softWrite a v) := by
  have hrange : 0x9000 ≤ a ∧ a < 0xA000 ∨ 0xB000 ≤ a ∧ a < 0xB100 :=
    h.imp And.right And.right
  unfold State.hubWrite
  repeat rw [if_neg (by omega)]

/-! ## What a write through BAR0 reaches -/

/-- An aligned write of 4 bytes is one write of a word. -/
theorem exec_registerWrite_word {fn addr : Nat} {v : BitVec 64} {s : State} (h : addr % 4 = 0) :
    exec (.registerWrite fn addr ⟨4, v⟩) s = s.bar0Write fn addr (v.setWidth 32) := by
  show execRegisterWrite fn addr ⟨4, v⟩ s = _
  simp [execRegisterWrite, h]

/-- An aligned write of 8 bytes is a write of the low word, then one of the high word at the next address. -/
theorem exec_registerWrite_dword {fn addr : Nat} {v : BitVec 64} {s t : State} (h : addr % 8 = 0)
    (ht : s.bar0Write fn addr (v.setWidth 32) = .next t) :
    exec (.registerWrite fn addr ⟨8, v⟩) s = t.bar0Write fn (addr + 4) ((v >>> 32).setWidth 32) := by
  show execRegisterWrite fn addr ⟨8, v⟩ s = _
  simp [execRegisterWrite, h, ht]

/-- A write of another size or alignment does nothing (log 14). -/
theorem exec_registerWrite_of_misaligned {fn addr size : Nat} {v : BitVec 64} {s : State} (h4 : ¬(size = 4 ∧ addr % 4 = 0))
    (h8 : ¬(size = 8 ∧ addr % 8 = 0)) : exec (.registerWrite fn addr ⟨size, v⟩) s = .next s := by
  show execRegisterWrite fn addr ⟨size, v⟩ s = _
  simp only [execRegisterWrite, if_neg h4, if_neg h8]

/-- Every write of a word answers a next state. -/
theorem State.bar0Write_next (s : State) (fn a : Nat) (v : Word) : ∃ t, s.bar0Write fn a v = .next t := by
  obtain ⟨t, ht, _⟩ := Runs.bar0Write (fn := fn) (a := a) (v := v) (Keeps.refl s)
  exact ⟨t, ht⟩

/-- Before ready a PF reaches its rings and MON_MBX_CTL alone (17 R455, log 22). -/
theorem State.pfWrite_of_not_ready {s : State} {fn a : Nat} {v : Word} (hr : s.ready = false)
    (ha : a < 0x7200 ∨ 0x7400 ≤ a) (hm : a ≠ 0x903C) : s.pfWrite fn a v = .next s.discard := by
  have hring : ¬(0x7200 ≤ a ∧ a < 0x7400) := by omega
  simp [State.pfWrite, hring, hm, hr]

/-- A VF reaches nothing past its rings, and before ready nothing below them (17 R455, log 22). -/
theorem State.vfWrite_discarded {s : State} {fn a : Nat} {v : Word}
    (h : 0x180 ≤ a ∨ s.ready = false ∧ a < 0x100) : s.vfWrite fn a v = .next s.discard := by
  unfold State.vfWrite
  rw [if_neg (by omega)]
  cases hr : s.ready with
  | false => rfl
  | true =>
    have ha : 0x180 ≤ a := h.resolve_right (by simp [hr])
    simp only [Bool.not_true, Bool.false_eq_true, if_false]
    repeat rw [if_neg (by omega)]

/-- A PF's write past its rings on a ready device, MON_MBX_CTL apart, is one in the hub window or past it. -/
theorem State.pfWrite_hub {s : State} {fn a : Nat} {v : Word} (hr : s.ready = true) (ha : 0x7400 ≤ a) (hm : a ≠ 0x903C)
    (hw : a < 0x1000000) : s.pfWrite fn a v = s.hubWrite fn a v := by
  have hring : ¬(0x7200 ≤ a ∧ a < 0x7400) := by omega
  simp [State.pfWrite, hring, hm, hr, hw]

/-- The BAR0 address of offset `o` of the page of block `i` of region `n` (00 R10). -/
def pageAddr (n i o : Nat) : Nat := 0x1000000 + n * 0x100000 + 0x40000 + i * 0x1000 + o

/-- A write of a block's page through its region's window is the page's, or is discarded where no access reaches it (01 R28). -/
theorem State.regionWrite_page {s : State} {n i o : Nat} {v : Word} (hi : i < 192) (ho : o < 0x1000) :
    s.regionWrite n (0x40000 + i * 0x1000 + o) v =
      if s.reaches (chipBlk n i) then
        s.putBlock (chipBlk n i) ((s.block (chipBlk n i)).pageWrite (s.env (chipBlk n i) 0) o v)
      else s.discard := by
  have hpage : ¬(0x40000 + i * 0x1000 + o < 0x40000) := by omega
  have hidx : (0x40000 + i * 0x1000 + o - 0x40000) / 0x1000 = i := by omega
  have hoff : (0x40000 + i * 0x1000 + o) % 0x1000 = o := by omega
  simp only [State.regionWrite, if_neg hpage, hidx, hoff]
  cases s.reaches (chipBlk n i) <;> simp [Nat.not_le.mpr hi]

/-- On a ready device a PF's write at the address of a page goes to the region's window. -/
theorem State.pfWrite_pageAddr {s : State} {fn n i o : Nat} {v : Word} (hr : s.ready = true) (hn : n < 24) (hi : i < 192)
    (ho : o < 0x1000) :
    s.pfWrite fn (pageAddr n i o) v = .next (s.regionWrite n (0x40000 + i * 0x1000 + o) v) := by
  have hlo : 0x1000000 ≤ pageAddr n i o := by unfold pageAddr; omega
  have hhi : pageAddr n i o < 0x2800000 := by unfold pageAddr; omega
  have hregion : (pageAddr n i o - 0x1000000) / 0x100000 = n := by unfold pageAddr; omega
  have hoff : (pageAddr n i o - 0x1000000) % 0x100000 = 0x40000 + i * 0x1000 + o := by unfold pageAddr; omega
  generalize pageAddr n i o = a at *
  have hring : ¬(0x7200 ≤ a ∧ a < 0x7400) := by omega
  have hmbx : a ≠ 0x903C := by omega
  have hhub : ¬(a < 0x1000000) := by omega
  simp only [State.pfWrite, if_neg hring, if_neg hmbx, hr, Bool.not_true, Bool.false_eq_true, if_false, if_neg hhub, if_pos hhi,
    hregion, hoff]

/-! ## A write command on a ready device -/

/-- A PF's write of a word on a page of a ready device. -/
theorem exec_registerWrite_page {fn blk o : Nat} {v : BitVec 64} {s : State} (hb : blk < 4608) (hpf : isPf fn = true)
    (hr : s.ready = true) (ho4 : o % 4 = 0) (ho : o < 0x1000) :
    exec (.registerWrite fn (pageAddr (regionOf blk) (indexOf blk) o) ⟨4, v⟩) s =
      .next (if s.reaches blk then s.putBlock blk ((s.block blk).pageWrite (s.env blk 0) o (v.setWidth 32)) else s.discard) := by
  have haligned : pageAddr (regionOf blk) (indexOf blk) o % 4 = 0 := by unfold pageAddr; omega
  rw [exec_registerWrite_word haligned, State.bar0Write, if_pos hpf, State.pfWrite_pageAddr hr (regionOf_lt hb) (indexOf_lt blk) ho,
    State.regionWrite_page (indexOf_lt blk) ho, chipBlk_regionOf_indexOf]

/-- A PF's write of an assigned plain register of the monitor or context group, without CLR. -/
theorem exec_registerWrite_plain {fn a : Nat} {u : RegUnit} {v : BitVec 64} {s : State} (ha4 : a % 4 = 0) (hpf : isPf fn = true)
    (hr : s.ready = true) (hs : s.sealed = false) (hl : s.loading = false) (ha : plainHubAddr u a) (hm : a ≠ 0x903C)
    (has : assigned u a = true) (hv : bitsOf (v.setWidth 32) 31 31 = 0) :
    exec (.registerWrite fn a ⟨4, v⟩) s =
      .next { s with hub := s.hub.set u ((s.hub.of u).softWrite u true a (v.setWidth 32)) } := by
  have hu := hubUnit_of_plainHubAddr ha
  have hlo : 0x7400 ≤ a := by rcases ha with ⟨_, h⟩ | ⟨_, h⟩ <;> omega
  have hhi : a < 0x1000000 := by rcases ha with ⟨_, h⟩ | ⟨_, h⟩ <;> omega
  rw [exec_registerWrite_word ha4, State.bar0Write, if_pos hpf, State.pfWrite_hub hr hlo hm hhi, State.hubWrite_of_plainHubAddr ha,
    State.softWrite_eq hs hl (hu ▸ has) hv, hu]

/-- Settles O49. What BAR0 does not take is discarded; what it takes goes by page or by register, and a register's word is what its
rows' access codes make of it, one field after the other. -/
theorem registerWrites : Obligations.RegisterWrites := by
  refine ⟨?sizes, ?discarded, ?plain, ?pages, ?fields⟩
  case sizes =>
    intro fn addr size v s
    refine ⟨exec_registerWrite_of_misaligned, fun h8 => ?_⟩
    obtain ⟨t, ht⟩ := s.bar0Write_next fn addr (v.setWidth 32)
    obtain ⟨u, hu⟩ := t.bar0Write_next fn (addr + 4) ((v >>> 32).setWidth 32)
    refine ⟨t, u, ?_, ?_, ?_⟩
    · rw [exec_registerWrite_word (by omega), ht]
    · rw [exec_registerWrite_word (by omega), hu]
    · rw [exec_registerWrite_dword h8 ht, hu]
  case discarded =>
    intro fn addr v s h4
    rw [exec_registerWrite_word h4, State.bar0Write]
    refine ⟨fun hpf hr ha hm => ?_, fun hvf h => ?_⟩
    · rw [if_pos hpf, State.pfWrite_of_not_ready hr ha hm]
    · simp only [hvf, Bool.false_eq_true, if_false, State.vfWrite_discarded h]
  case plain =>
    intro fn a u v w s ha4 hpf hr hs hl ha hm has hw hv
    subst hw
    have hgroup := hubGroup_of_plainHubAddr ha
    refine ⟨_, exec_registerWrite_plain ha4 hpf hr hs hl ha hm has hv, ?_⟩
    dsimp only
    rw [HubRegs.of_set_self _ _ _ hgroup]
    exact ⟨Regs.word_softWrite_self _ _ _ _ _, fun o ho => Regs.word_softWrite_ne _ _ _ _ ho, rfl⟩
  case pages =>
    rintro fn blk o v s a hb hpf hr ho4 ho rfl
    have hexec := exec_registerWrite_page (v := v) hb hpf hr ho4 ho
    refine ⟨fun hreach => ?_, fun hreach => ⟨_, hexec, ?_⟩⟩
    · rw [hreach] at hexec
      exact hexec
    · rw [if_pos hreach]
      obtain ⟨_, hothers, _⟩ := s.putBlock_frame blk ((s.block blk).pageWrite (s.env blk 0) o (v.setWidth 32))
      exact ⟨State.block_putBlock_self _ _ _ hb, hothers⟩
  case fields =>
    intro rws r new old i hlo hhi hi
    refine ⟨applyRow_of_unwritable new old, applyRow_of_fieldBad old, fun hacc hgood => ?_,
      fun hacc => getLsbD_applyRow_w1c rws new old hacc hhi hi⟩
    rw [applyRow_of_writable old hacc hgood, getLsbD_putBits_of _ _ _ _ hlo hhi]

end Sys2Proof.Machine

/-!
PROOFS. The frame and what stands over it: the reset state and the queue, the frame registers (02 R35, R40), ticks and edges of EPOCH
(02 R36 to R39), beats (02 R33, 08 R228), latched reads and counts (20 R527, R528, 18 R476), and how a cut-over decides (11 R322, R323).
-/
namespace Sys2Proof.Machine

/-! ## Frame registers -/

/-- Before ready a write of FRM_LEN, FRM_RES or FRM_PHASE is discarded and counted (17 R455). -/
theorem exec_frameWrites_of_not_ready (v : Word) {s : State} (hr : s.ready = false) :
    exec (.frmLenWrite v) s = .next s.discard ∧ exec (.frmResWrite v) s = .next s.discard ∧
      exec (.frmPhaseWrite v) s = .next s.discard := by
  refine ⟨?_, ?_, ?_⟩
  · show execFrmLenWrite v s = _
    simp [execFrmLenWrite, hr]
  · show execFrmResWrite v s = _
    simp [execFrmResWrite, hr]
  · show execFrmPhaseWrite v s = _
    simp [execFrmPhaseWrite, hr]

/-- A write of FRM_LEN on a ready device, neither sealed nor loading, goes by its range (02 R35). -/
theorem exec_frmLenWrite_of_open (v : Word) {s : State} (hr : s.ready = true) (hs : s.sealed = false) (hl : s.loading = false) :
    exec (.frmLenWrite v) s = .next
      (if FRM_LEN_LEN.of v < 2000 ∨ 400000 < FRM_LEN_LEN.of v then s.wr FRM_STAT_BAD_WRITE 1
        else s.wr FRM_LEN_LEN (FRM_LEN_LEN.of v)) := by
  show execFrmLenWrite v s = _
  simp only [execFrmLenWrite, hr, hs, hl, Bool.not_true, Bool.false_eq_true, if_false, apply_ite Host.Outcome.next]
  rfl

/-- A write of FRM_RES on a ready device, neither sealed nor loading, goes by its range (02 R35). -/
theorem exec_frmResWrite_of_open (v : Word) {s : State} (hr : s.ready = true) (hs : s.sealed = false) (hl : s.loading = false) :
    exec (.frmResWrite v) s = .next
      (if FRM_RES_RES_Q.of v < 16 ∨ 200 < FRM_RES_RES_Q.of v then s.wr FRM_STAT_BAD_WRITE 1
        else s.wr FRM_RES_RES_Q (FRM_RES_RES_Q.of v)) := by
  show execFrmResWrite v s = _
  simp only [execFrmResWrite, hr, hs, hl, Bool.not_true, Bool.false_eq_true, if_false, apply_ite Host.Outcome.next]
  rfl

/-- A write of FRM_PHASE on a ready device goes by its range and by the active contexts (02 R35, R40). -/
theorem exec_frmPhaseWrite_of_ready (v : Word) {s : State} (hr : s.ready = true) :
    exec (.frmPhaseWrite v) s = .next
      (if s.anyActive = true ∨ s.frame.len ≤ FRM_PHASE_PHASE.of v then s.wr FRM_STAT_BAD_WRITE 1
        else s.wr FRM_PHASE_PHASE (FRM_PHASE_PHASE.of v)) := by
  show execFrmPhaseWrite v s = _
  simp only [execFrmPhaseWrite, hr, Bool.not_true, Bool.false_eq_true, if_false, Bool.or_eq_true, decide_eq_true_eq,
    apply_ite Host.Outcome.next]
  rfl

/-- Settles O11, clause by clause from what each of the three writes does. -/
theorem frameRegisterWrites : Obligations.FrameRegisterWrites := by
  refine ⟨fun v s => ⟨fun hr => ?before, fun hr hs => ?sealed, fun hr hs hl => ?loading, fun hr hs hl => ?ranges⟩,
    fun v s => ⟨fun hr => (exec_frameWrites_of_not_ready v hr).2.2, fun hr ha hlt => ?phase, fun hr h => ?badPhase⟩⟩
  case before =>
    obtain ⟨hlen, hres, _⟩ := exec_frameWrites_of_not_ready v hr
    exact ⟨hlen, hres⟩
  case sealed =>
    constructor
    · show execFrmLenWrite v s = _
      simp [execFrmLenWrite, hr, hs]
    · show execFrmResWrite v s = _
      simp [execFrmResWrite, hr, hs]
  case loading =>
    constructor
    · show execFrmLenWrite v s = _
      simp [execFrmLenWrite, hr, hs, hl]
    · show execFrmResWrite v s = _
      simp [execFrmResWrite, hr, hs, hl]
  case ranges =>
    rw [exec_frmLenWrite_of_open v hr hs hl, exec_frmResWrite_of_open v hr hs hl]
    exact ⟨fun h => by rw [if_neg (by omega)], fun h => by rw [if_pos h], fun h => by rw [if_neg (by omega)],
      fun h => by rw [if_pos h]⟩
  case phase =>
    rw [exec_frmPhaseWrite_of_ready v hr, if_neg (by simp [ha, hlt])]
  case badPhase =>
    rw [exec_frmPhaseWrite_of_ready v hr, if_pos h]

/-- Settles O12: the active context alone decides. -/
theorem phaseWriteWithActiveContext : Obligations.PhaseWriteWithActiveContext := by
  intro v s hr ha
  rw [exec_frmPhaseWrite_of_ready v hr, if_pos (Or.inl ha)]

/-! ## The state at reset -/

/-- Settles O8: the reset state lists no unit, and each register reads its Reset column. -/
theorem resetStateIsSafe : Obligations.ResetStateIsSafe := by
  refine ⟨by decide, rfl, rfl, by decide, by decide, rfl, by decide, by decide, by decide, fun n k hk => ?_⟩
  have hregion : State.reset.region n = {} := rfl
  rw [hregion]
  revert k
  decide

/-! ## Steps and the queue -/

/-- On an empty queue one reference period passes (log 1). -/
theorem step_of_empty {s : State} (h : s.pending = []) : step s = .next s.idle := by
  unfold step
  rw [h]

/-- Settles O2: every command keeps the queue it is handed, and a step hands it the rest. -/
theorem queueIsFirstInFirstOut : Obligations.QueueIsFirstInFirstOut := by
  refine ⟨fun s => ?_, fun s hq => ⟨fun hrun => ⟨s.pass 1, ?_, ?_, ?_⟩, fun hrun => ?_⟩⟩
  · obtain ⟨t, ht, hkeep⟩ := step_runs s
    exact ⟨t, ht, hkeep.pending⟩
  · rw [step_of_empty hq, State.idle, if_pos hrun]
  · rw [s.pass_only 1]
  · rw [s.pass_only 1]
  · rw [step_of_empty hq, State.idle, hrun]
    rfl

/-! ## What moves the frame number -/

/-- The commands that may move the frame number or the settable fuses: ticks (02 R36), the rails' loss, cold starts and resets and the
stages of a bring-up (17 R458), signed requests (17 R467), and the writes and samples that may end in one of these. -/
def movesFrame : Instr → Bool
  | .frameTick _ | .powerOn | .auxInputLost | .mainInputLost | .coldReset | .hubRstCold _ | .jtagColdReset
  | .stageEnd _ | .stageLimit _ | .jtagFirmwareLoad _ | .mailboxRequest _ _ _ _ | .registerWrite _ _ _ | .powerSample _ => true
  | _ => false

/-- Every other command leaves the frame number and the settable fuses. -/
theorem exec_stays {c : Instr} (h : movesFrame c = false) (s : State) : Stays s (exec c s) := by
  cases c with
  | frameTick _ => cases h
  | powerOn => cases h
  | auxInputLost => cases h
  | mainInputLost => cases h
  | coldReset => cases h
  | hubRstCold _ => cases h
  | jtagColdReset => cases h
  | stageEnd _ => cases h
  | stageLimit _ => cases h
  | jtagFirmwareLoad _ => cases h
  | mailboxRequest _ _ _ _ => cases h
  | registerWrite _ _ _ => cases h
  | powerSample _ => cases h
  | stepTail _ => exact Stays.stepTail (Same.refl s)
  | beatStart _ => exact Stays.beatStart (Same.refl s)
  | epochEdge _ => exact Stays.epochEdge (Same.refl s)
  | frmLenWrite _ => exact Stays.frmLenWrite (Same.refl s)
  | frmResWrite _ => exact Stays.frmResWrite (Same.refl s)
  | frmPhaseWrite _ => exact Stays.frmPhaseWrite (Same.refl s)
  | epochArm _ => exact Stays.epochArm (Same.refl s)
  | frmNumLoRead => exact Stays.frmNumLoRead (Same.refl s)
  | cutFrameLoRead => exact Stays.cutFrameLoRead (Same.refl s)
  | crLastLoRead _ _ => exact Stays.crLastLoRead (Same.refl s)
  | evcLoRead _ => exact Stays.evcLoRead (Same.refl s)
  | evcSnapLoRead _ => exact Stays.evcSnapLoRead (Same.refl s)
  | countClr _ => exact Stays.countClr (Same.refl s)
  | tpush _ _ => exact Stays.tpush (Same.refl s)
  | tfull _ _ => exact Stays.tfull (Same.refl s)
  | trel _ _ => exact Stays.trel (Same.refl s)
  | taddrT _ _ => exact Stays.taddrT (Same.refl s)
  | taddrF _ _ => exact Stays.taddrF (Same.refl s)
  | tfence _ _ => exact Stays.tfence (Same.refl s)
  | tframe _ _ => exact Stays.tframe (Same.refl s)
  | tcrcB _ _ => exact Stays.tcrcB (Same.refl s)
  | tcrcH _ _ => exact Stays.tcrcH (Same.refl s)
  | tcrcW _ _ => exact Stays.tcrcW (Same.refl s)
  | scalarInstruction _ _ => exact Stays.scalarInstruction (Same.refl s)
  | mret _ _ => exact Stays.mret (Same.refl s)
  | terrWrite _ _ => exact Stays.terrWrite (Same.refl s)
  | slotLoadTimeout _ _ => exact Stays.slotLoadTimeout (Same.refl s)
  | coreStart _ _ => exact Stays.coreStart (Same.refl s)
  | matrixIssue _ _ => exact Stays.matrixIssue (Same.refl s)
  | tileOutcome _ _ _ => exact Stays.tileOutcome (Same.refl s)
  | bankCommandIssue _ _ => exact Stays.bankCommandIssue (Same.refl s)
  | bankCommandDone _ _ => exact Stays.bankCommandDone (Same.refl s)
  | codebookLoad _ _ => exact Stays.codebookLoad (Same.refl s)
  | lookupLoad _ _ => exact Stays.lookupLoad (Same.refl s)
  | checkCommand _ _ => exact Stays.checkCommand (Same.refl s)
  | checkDone _ _ => exact Stays.checkDone (Same.refl s)
  | stakeDriveCommand _ _ => exact Stays.stakeDriveCommand (Same.refl s)
  | stakeSight _ _ => exact Stays.stakeSight (Same.refl s)
  | sightTimeout _ => exact Stays.sightTimeout (Same.refl s)
  | planPoint _ _ => exact Stays.planPoint (Same.refl s)
  | cbLoad _ _ => exact Stays.cbLoad (Same.refl s)
  | cbDrop _ _ => exact Stays.cbDrop (Same.refl s)
  | chkPolyWrite _ _ => exact Stays.chkPolyWrite (Same.refl s)
  | chkInit _ => exact Stays.chkInit (Same.refl s)
  | chkSeed _ _ => exact Stays.chkSeed (Same.refl s)
  | inboundWord _ _ _ _ => exact Stays.inboundWord (Same.refl s)
  | heldWordWrite _ _ => exact Stays.heldWordWrite (Same.refl s)
  | holdWindowExpiry _ _ => exact Stays.holdWindowExpiry (Same.refl s)
  | scrubSlot _ _ => exact Stays.scrubSlot (Same.refl s)
  | spPwrWrite _ _ => exact Stays.spPwrWrite (Same.refl s)
  | transferStart _ _ _ _ => exact Stays.transferStart (Same.refl s)
  | requestAccepted _ _ _ _ => exact Stays.requestAccepted (Same.refl s)
  | lineLanded _ _ _ _ _ _ => exact Stays.lineLanded (Same.refl s)
  | requestAbandon _ _ _ _ _ _ => exact Stays.requestAbandon (Same.refl s)
  | storeStreamAccess _ _ _ _ => exact Stays.storeStreamAccess (Same.refl s)
  | storeScrub _ _ => exact Stays.storeScrub (Same.refl s)
  | patrolScrub _ _ => exact Stays.patrolScrub (Same.refl s)
  | memZeroStart _ _ => exact Stays.memZeroStart (Same.refl s)
  | zeroFillDone _ _ => exact Stays.zeroFillDone (Same.refl s)
  | wordArrival _ _ => exact Stays.wordArrival (Same.refl s)
  | marginSample _ _ _ => exact Stays.marginSample (Same.refl s)
  | segmentRecal _ _ => exact Stays.segmentRecal (Same.refl s)
  | recalDone _ _ _ => exact Stays.recalDone (Same.refl s)
  | circuitLockLost _ _ => exact Stays.circuitLockLost (Same.refl s)
  | tileReceived _ _ _ => exact Stays.tileReceived (Same.refl s)
  | deliveryFull _ _ _ => exact Stays.deliveryFull (Same.refl s)
  | storeInTile _ _ _ _ _ => exact Stays.storeInTile (Same.refl s)
  | landingTile _ _ => exact Stays.landingTile (Same.refl s)
  | driveWordReceived _ => exact Stays.driveWordReceived (Same.refl s)
  | driveApplied _ => exact Stays.driveApplied (Same.refl s)
  | platLoad _ _ _ => exact Stays.platLoad (Same.refl s)
  | platImageReadDone _ => exact Stays.platImageReadDone (Same.refl s)
  | platSeal => exact Stays.platSeal (Same.refl s)
  | platUnload _ _ _ => exact Stays.platUnload (Same.refl s)
  | platCutover _ _ _ => exact Stays.platCutover (Same.refl s)
  | cutCancel _ _ _ => exact Stays.cutCancel (Same.refl s)
  | cutAcknowledge _ => exact Stays.cutAcknowledge (Same.refl s)
  | cutWithdrawal _ => exact Stays.cutWithdrawal (Same.refl s)
  | decisionPoint => exact Stays.decisionPoint (Same.refl s)
  | laneLock _ _ _ _ _ => exact Stays.laneLock (Same.refl s)
  | laneLockLost _ _ _ _ => exact Stays.laneLockLost (Same.refl s)
  | shotReceived _ _ _ => exact Stays.shotReceived (Same.refl s)
  | replayTimeout _ _ => exact Stays.replayTimeout (Same.refl s)
  | sightlineWordEnqueue _ _ _ _ _ => exact Stays.sightlineWordEnqueue (Same.refl s)
  | datumTimer _ _ => exact Stays.datumTimer (Same.refl s)
  | datumReceived _ _ => exact Stays.datumReceived (Same.refl s)
  | frameVoidNotice _ => exact Stays.frameVoidNotice (Same.refl s)
  | voidContextReceived _ => exact Stays.voidContextReceived (Same.refl s)
  | slSwap _ => exact Stays.slSwap (Same.refl s)
  | slReset _ => exact Stays.slReset (Same.refl s)
  | lsrcInsert _ _ => exact Stays.lsrcInsert (Same.refl s)
  | lsrcRemove _ => exact Stays.lsrcRemove (Same.refl s)
  | lsrcFault _ _ => exact Stays.lsrcFault (Same.refl s)
  | doorbell _ _ _ => exact Stays.doorbell (Same.refl s)
  | itemBegin _ _ _ => exact Stays.itemBegin (Same.refl s)
  | nop _ _ _ => exact Stays.nop (Same.refl s)
  | stakeDrive _ _ _ => exact Stays.stakeDrive (Same.refl s)
  | dmaToDev _ _ _ _ => exact Stays.dmaToDev (Same.refl s)
  | dmaFromDev _ _ _ => exact Stays.dmaFromDev (Same.refl s)
  | ctxAdmit _ _ _ => exact Stays.ctxAdmit (Same.refl s)
  | ctxTeardown _ _ _ => exact Stays.ctxTeardown (Same.refl s)
  | testpack _ _ _ _ _ => exact Stays.testpack (Same.refl s)
  | itemComplete _ _ => exact Stays.itemComplete (Same.refl s)
  | ringFlush _ _ _ => exact Stays.ringFlush (Same.refl s)
  | ringDisable _ _ _ _ => exact Stays.ringDisable (Same.refl s)
  | bar2Access _ _ _ => exact Stays.bar2Access (Same.refl s)
  | fieldBookWrite _ => exact Stays.fieldBookWrite (Same.refl s)
  | flr _ => exact Stays.flr (Same.refl s)
  | linkDown _ => exact Stays.linkDown (Same.refl s)
  | d3hot _ => exact Stays.d3hot (Same.refl s)
  | stepCommit _ => exact Stays.stepCommit (Same.refl s)
  | idlePllLock _ => exact Stays.idlePllLock (Same.refl s)
  | pllLockDeadline _ => exact Stays.pllLockDeadline (Same.refl s)
  | regulatorReport _ => exact Stays.regulatorReport (Same.refl s)
  | refLost => exact Stays.refLost (Same.refl s)
  | refReturn => exact Stays.refReturn (Same.refl s)
  | diePllLost _ => exact Stays.diePllLost (Same.refl s)
  | regionPllLost _ => exact Stays.regionPllLost (Same.refl s)
  | droopTrip _ _ _ => exact Stays.droopTrip (Same.refl s)
  | droopClear _ _ _ _ => exact Stays.droopClear (Same.refl s)
  | currentWindow _ => exact Stays.currentWindow (Same.refl s)
  | controlInterval _ => exact Stays.controlInterval (Same.refl s)
  | converterFault _ _ => exact Stays.converterFault (Same.refl s)
  | phaseLost _ _ _ => exact Stays.phaseLost (Same.refl s)
  | fabricPhaseLost _ _ => exact Stays.fabricPhaseLost (Same.refl s)
  | phaseTest _ _ _ _ => exact Stays.phaseTest (Same.refl s)
  | domainStateRequest _ _ _ => exact Stays.domainStateRequest (Same.refl s)
  | ofsWrite _ _ _ => exact Stays.ofsWrite (Same.refl s)
  | pcapWrite _ => exact Stays.pcapWrite (Same.refl s)
  | ageMeasure _ _ _ => exact Stays.ageMeasure (Same.refl s)
  | hoursRecord _ => exact Stays.hoursRecord (Same.refl s)
  | pmbusPage _ _ => exact Stays.pmbusPage (Same.refl s)
  | pmbusClearFaults _ => exact Stays.pmbusClearFaults (Same.refl s)
  | voutMode => exact Stays.voutMode (Same.refl s)
  | statusWord => exact Stays.statusWord (Same.refl s)
  | statusIout => exact Stays.statusIout (Same.refl s)
  | statusInput => exact Stays.statusInput (Same.refl s)
  | statusCml => exact Stays.statusCml (Same.refl s)
  | readVin => exact Stays.readVin (Same.refl s)
  | readIin => exact Stays.readIin (Same.refl s)
  | readVout => exact Stays.readVout (Same.refl s)
  | readIout => exact Stays.readIout (Same.refl s)
  | readTemperature1 => exact Stays.readTemperature1 (Same.refl s)
  | readPout => exact Stays.readPout (Same.refl s)
  | readPin => exact Stays.readPin (Same.refl s)
  | pmbusRevision => exact Stays.pmbusRevision (Same.refl s)
  | pmbusUnsupported _ => exact Stays.pmbusUnsupported (Same.refl s)
  | crashLogDelivery => exact Stays.crashLogDelivery (Same.refl s)
  | regionRecordReceived _ _ => exact Stays.regionRecordReceived (Same.refl s)
  | hubRecordReceived _ => exact Stays.hubRecordReceived (Same.refl s)
  | suspectClear _ _ => exact Stays.suspectClear (Same.refl s)
  | ledgerRelease _ _ => exact Stays.ledgerRelease (Same.refl s)
  | retest _ _ => exact Stays.retest (Same.refl s)
  | hostFence _ _ => exact Stays.hostFence (Same.refl s)
  | ledgerClear _ _ => exact Stays.ledgerClear (Same.refl s)
  | testpackRound => exact Stays.testpackRound (Same.refl s)
  | testTileDone _ _ _ _ => exact Stays.testTileDone (Same.refl s)
  | testpackStop => exact Stays.testpackStop (Same.refl s)
  | teardownRequest _ _ => exact Stays.teardownRequest (Same.refl s)
  | loadingDone _ => exact Stays.loadingDone (Same.refl s)
  | clearingDone _ => exact Stays.clearingDone (Same.refl s)
  | evcFreeze _ => exact Stays.evcFreeze (Same.refl s)
  | pertXdlyArm _ => exact Stays.pertXdlyArm (Same.refl s)
  | pertSlholdArm _ => exact Stays.pertSlholdArm (Same.refl s)
  | slHoldStart _ => exact Stays.slHoldStart (Same.refl s)
  | slHoldEnd _ _ => exact Stays.slHoldEnd (Same.refl s)
  | pertFstrArm _ => exact Stays.pertFstrArm (Same.refl s)
  | pertTmoArm _ => exact Stays.pertTmoArm (Same.refl s)
  | forcedTimeout _ => exact Stays.forcedTimeout (Same.refl s)
  | pertMismArm _ => exact Stays.pertMismArm (Same.refl s)
  | pertLock => exact Stays.pertLock (Same.refl s)
  | mainInputApplied => exact Stays.mainInputApplied (Same.refl s)
  | doubledRefresh _ _ => exact Stays.doubledRefresh (Same.refl s)
  | linkUp _ => exact Stays.linkUp (Same.refl s)
  | powerStateD0 _ => exact Stays.powerStateD0 (Same.refl s)
  | msixVectorUnmask _ _ => exact Stays.msixVectorUnmask (Same.refl s)
  | regionControllerFault _ => exact Stays.regionControllerFault (Same.refl s)
  | managementPathCut _ => exact Stays.managementPathCut (Same.refl s)

/-- Settles O9: the commands that the statement leaves out are those of `movesFrame`, and every other one stays. -/
theorem onlyTicksAndResetsMoveTheFrameNumber : Obligations.OnlyTicksAndResetsMoveTheFrameNumber := by
  intro c s t hc ht
  have hstill : movesFrame c = false := by
    cases hm : movesFrame c with
    | false => rfl
    | true => cases c <;> first | exact hc.elim | cases hm
  obtain ⟨u, hu, hsame⟩ := exec_stays hstill s
  rw [hu] at ht
  cases ht
  exact ⟨hsame.num, hsame.otp⟩

/-! ## Ticks and edges -/

/-- The tick of frame 0 of a realignment restarts the frame number and leaves the settable fuses (02 R37). -/
theorem State.tickZero_num_otp (s : State) (left : Nat) : (s.tickZero left).frame.num = 0 ∧ (s.tickZero left).otp = s.otp :=
  ⟨rfl, (Same.pass (n := left) (Same.refl s)).otp⟩

/-- The tick of a realignment: what follows it in the boundary gap leaves the frame number and the settable fuses (02 R37, R42). -/
theorem exec_frameTick_of_realign (bad : List ShadowErr) {s : State} {n : Nat} (hrun : s.frame.running = true)
    (hre : s.frame.realign = some n) :
    ∃ t, exec (.frameTick bad) s = .next t ∧ Same (s.tickZero (n - s.frame.pos)) t := by
  show ∃ t, execFrameTick bad s = .next t ∧ _
  simp only [execFrameTick, hrun, hre, Bool.not_true, Bool.false_eq_true, if_false]
  exact ⟨_, rfl, Same.gap (Same.refl _)⟩

/-- Any other tick: from the end of the frame on, only the tick's own count moves the frame number (02 R36, R42). -/
theorem exec_frameTick_of_aligned (bad : List ShadowErr) {s : State} (hrun : s.frame.running = true) (hre : s.frame.realign = none) :
    ∃ u t, Same s u ∧ exec (.frameTick bad) s = .next t ∧
      Same { u with frame := { u.frame with num := nextFrame u.frame.num, pos := 0 } } t := by
  show ∃ u t, Same s u ∧ execFrameTick bad s = .next t ∧ _
  simp only [execFrameTick, hrun, hre, Bool.not_true, Bool.false_eq_true, if_false]
  exact ⟨_, _, Same.tickDeadline (Same.settle (Same.pass (Same.refl s))), rfl, Same.gap (Same.refl _)⟩

/-- While frames run a tick counts the frame, or is that of frame 0 (02 R36, R37). -/
theorem exec_frameTick_num (bad : List ShadowErr) {s : State} (hrun : s.frame.running = true) :
    ∃ t, exec (.frameTick bad) s = .next t ∧ t.otp = s.otp ∧
      t.frame.num = if s.frame.realign.isSome then 0 else (s.frame.num + 1) % 2 ^ 48 := by
  cases hre : s.frame.realign with
  | some n =>
    obtain ⟨t, ht, hsame⟩ := exec_frameTick_of_realign bad hrun hre
    obtain ⟨hnum, hotp⟩ := s.tickZero_num_otp (n - s.frame.pos)
    exact ⟨t, ht, hsame.otp.trans hotp, hsame.num.trans hnum⟩
  | none =>
    obtain ⟨u, t, hend, ht, hsame⟩ := exec_frameTick_of_aligned bad hrun hre
    refine ⟨t, ht, hsame.otp.trans hend.otp, ?_⟩
    rw [hsame.num]
    exact congrArg nextFrame hend.num


/-- A one-bit field of a word is that bit of it. -/
theorem bitsOf_bne_zero (w : Word) (i : Nat) : (bitsOf w i i != 0) = w.getLsbD i := by
  have hbit := testBit_bitsOf w i i 0 (le_refl i)
  have hlt : bitsOf w i i < 2 := by simpa using bitsOf_lt w i i
  simp only [Nat.sub_self, le_refl, decide_true, Bool.true_and, Nat.add_zero] at hbit
  rw [← hbit, Nat.testBit_zero]
  interval_cases bitsOf w i i <;> rfl

/-- A written 1 sets a bit of a W1S field, and a 0 leaves it. -/
theorem getLsbD_applyRow_w1s (rws : Bool) {r : RegRow} (new old : Word) {i : Nat} (hacc : r.acc = .w1s) (hh : r.field.hi < 32) :
    (applyRow rws r new old).getLsbD i =
      (old.getLsbD i || (new.getLsbD i && decide (r.field.lo ≤ i ∧ i ≤ r.field.hi))) := by
  simp only [applyRow, hacc, BitVec.getLsbD_or, BitVec.getLsbD_and, getLsbD_bitMask _ _ _ hh]

/-- The rows of FRM_CTL (02 Table 2-5). -/
theorem rowsAt_frmCtl : rowsAt .frame 0x200C =
    [⟨FRM_CTL_EPOCH_ARM, 1, 1, .w1s⟩, ⟨FRM_CTL_EPOCH_TOL, 1, 1, .rw⟩, ⟨FRM_CTL_OVR_LIMIT, 1, 1, .rw⟩] := by
  decide +kernel

/-- FRM_CTL after a software write: EPOCH_ARM is set by a 1, the other two fields take their values (02 Table 2-5). -/
theorem Regs.word_softWrite_frmCtl (r : Regs) (rws : Bool) (v : Word) :
    (r.softWrite .frame rws 0x200C v).word .frame 0x200C =
      putBits (putBits (applyRow rws ⟨FRM_CTL_EPOCH_ARM, 1, 1, .w1s⟩ v (r.word .frame 0x200C)) 15 8 (FRM_CTL_EPOCH_TOL.of v))
        19 16 (FRM_CTL_OVR_LIMIT.of v) := by
  rw [Regs.word_softWrite_self, rowsAt_frmCtl]
  simp only [List.foldl_cons, List.foldl_nil]
  rw [applyRow_of_writable (r := ⟨FRM_CTL_OVR_LIMIT, 1, 1, .rw⟩) _ (Or.inl rfl) rfl,
    applyRow_of_writable (r := ⟨FRM_CTL_EPOCH_TOL, 1, 1, .rw⟩) _ (Or.inl rfl) rfl]

/-- A write of FRM_CTL on a ready device (02 R37, Table 2-5). -/
theorem exec_epochArm_of_ready (v : Word) {s : State} (hr : s.ready = true) :
    ∃ t, exec (.epochArm v) s = .next t ∧ HubFrame s t ∧
      t.bit FRM_CTL_EPOCH_ARM = (s.bit FRM_CTL_EPOCH_ARM || v.getLsbD 0) ∧
      t.rd FRM_CTL_EPOCH_TOL = FRM_CTL_EPOCH_TOL.of v ∧ t.rd FRM_CTL_OVR_LIMIT = FRM_CTL_OVR_LIMIT.of v := by
  have hword := s.hub.frame.word_softWrite_frmCtl (!s.sealed && !s.loading) v
  refine ⟨{ s with hub := { s.hub with frame := s.hub.frame.softWrite .frame (!s.sealed && !s.loading) 0x200C v } }, ?exec, rfl,
    ?arm, ?tol, ?limit⟩
  case exec =>
    show execEpochArm v s = _
    simp [execEpochArm, hr]
  case arm =>
    show (bitsOf ((s.hub.frame.softWrite .frame (!s.sealed && !s.loading) 0x200C v).word .frame 0x200C) 0 0 != 0) =
      ((bitsOf (s.hub.frame.word .frame 0x200C) 0 0 != 0) || _)
    rw [hword, bitsOf_putBits_ne _ _ _ _ _ _ (by decide) (by decide) (by decide) (by decide),
      bitsOf_putBits_ne _ _ _ _ _ _ (by decide) (by decide) (by decide) (by decide), bitsOf_bne_zero, bitsOf_bne_zero,
      getLsbD_applyRow_w1s _ _ _ rfl (by decide)]
    simp
  case tol =>
    show bitsOf ((s.hub.frame.softWrite .frame (!s.sealed && !s.loading) 0x200C v).word .frame 0x200C) 15 8 = _
    rw [hword, bitsOf_putBits_ne _ _ _ _ _ _ (by decide) (by decide) (by decide) (by decide),
      bitsOf_putBits_self _ _ _ _ (by decide) (by decide)]
    exact Nat.mod_eq_of_lt (bitsOf_lt v 15 8)
  case limit =>
    show bitsOf ((s.hub.frame.softWrite .frame (!s.sealed && !s.loading) 0x200C v).word .frame 0x200C) 19 16 = _
    rw [hword, bitsOf_putBits_self _ _ _ _ (by decide) (by decide)]
    exact Nat.mod_eq_of_lt (bitsOf_lt v 19 16)

/-! ## Edges of EPOCH -/

/-- Periods that pass leave the registers of the hub. -/
@[simp] theorem State.pass_hub (s : State) (n : Nat) : (s.pass n).hub = s.hub := by rw [s.pass_only n]

/-- Periods that pass move POS and the time since cold reset (log 1). -/
theorem State.pass_frame (s : State) (n : Nat) :
    (s.pass n).frame = { s.frame with pos := s.frame.pos + n, now := s.frame.now + n } := by
  rw [s.pass_only n]

@[simp] theorem State.pass_rd (s : State) (n : Nat) (f : Field) (i j : Nat) : (s.pass n).rd f i j = s.rd f i j := by
  rw [State.rd, State.pass_hub]; rfl

@[simp] theorem State.pass_bit (s : State) (n : Nat) (f : Field) (i j : Nat) : (s.pass n).bit f i j = s.bit f i j := by
  rw [State.bit, State.pass_hub]; rfl

@[simp] theorem State.pass_anyActive (s : State) (n : Nat) : (s.pass n).anyActive = s.anyActive := by
  have hact : (s.pass n).activeP = s.activeP := by
    funext p
    simp only [State.activeP, State.pstate, State.pass_rd]
  rw [State.anyActive, hact, State.anyActive]

/-- An edge while frames run, judged after the time up to it has passed (02 R37 to R39). -/
theorem exec_epochEdge_of_running (pos : Nat) {s : State} (hrun : s.frame.running = true) :
    exec (.epochEdge pos) s =
      let u := s.pass (pos - s.frame.pos)
      .next (if s.bit FRM_CTL_EPOCH_ARM = false then u.checkEdge
        else if s.anyActive = true then ((u.wr FRM_CTL_EPOCH_ARM 0).wr FRM_STAT_EPOCH_REFUSED 1).checkEdge
        else u.realign (s.rd FRM_PHASE_PHASE % s.frame.len)) := by
  show execEpochEdge pos s = _
  simp only [execEpochEdge, hrun, Bool.not_true, Bool.false_eq_true, if_false, State.pass_bit, State.pass_anyActive, State.pass_rd,
    State.pass_frame, Bool.not_eq_true', apply_ite Host.Outcome.next]
  rfl

/-- A realignment restarts POS, keeps the frame number and makes frame 0's tick due (02 R37). -/
theorem State.realign_frame (s : State) (n : Nat) :
    (s.realign n).frame.pos = 0 ∧ (s.realign n).frame.num = s.frame.num ∧ (s.realign n).frame.realign = some n :=
  ⟨rfl, (Same.realign (n := n) (Same.refl s)).num, rfl⟩

/-- A check edge writes the signed deviation to SLIP, and above EPOCH_TOL sets EPOCH_SLIP and raises record 0x90 (02 R39). -/
theorem State.checkEdge_eq (s : State) :
    s.checkEdge =
      let z := epochSlip s.frame.len (s.rd FRM_PHASE_PHASE) s.frame.pos
      let u := s.wr FRM_STAT_SLIP (BitVec.ofInt 16 (slipSat z)).toNat
      if s.rd FRM_CTL_EPOCH_TOL < z.natAbs then (u.wr FRM_STAT_EPOCH_SLIP 1).raise { cls := 8, subtype := 0x90, level := 3 } else u := by
  unfold State.checkEdge
  simp only [State.rd_wr_apart s FRM_STAT_SLIP FRM_CTL_EPOCH_TOL _ 0 0 0 0 rfl, Nat.cast_lt]
  rfl

/-- Settles O10: the tick's count, the fields of FRM_CTL one by one, and the four ways an edge is judged. -/
theorem frameTicksAndEpochEdges : Obligations.FrameTicksAndEpochEdges := by
  refine ⟨fun bad s => ⟨exec_frameTick_num bad, fun hrun => ?noTick⟩, fun v s => ⟨fun hr => ?before, exec_epochArm_of_ready v⟩,
    fun pos s => ⟨fun hrun => ?noEdge, fun hrun harm hact => ?realign, fun hrun harm hact => ?refused, fun hrun harm => ?check⟩,
    fun s u z hz hu => ?slip⟩
  case noTick =>
    show execFrameTick bad s = _
    simp [execFrameTick, hrun]
  case before =>
    show execEpochArm v s = _
    simp [execEpochArm, hr]
  case noEdge =>
    show execEpochEdge pos s = _
    simp [execEpochEdge, hrun]
  case realign =>
    refine ⟨_, exec_epochEdge_of_running pos hrun, ?_⟩
    simp only [harm, hact, Bool.true_eq_false, Bool.false_eq_true, if_false]
    simpa only [State.pass_frame] using (s.pass (pos - s.frame.pos)).realign_frame (s.rd FRM_PHASE_PHASE % s.frame.len)
  case refused =>
    rw [exec_epochEdge_of_running pos hrun]
    simp only [harm, hact, Bool.true_eq_false, if_false, if_true]
  case check =>
    rw [exec_epochEdge_of_running pos hrun]
    simp only [harm, if_true]
  case slip =>
    subst hz hu
    rw [State.checkEdge_eq]
    exact ⟨fun h => if_neg (by omega), fun h => if_pos h⟩

/-! ## Beats -/

/-- From `g` to `h` a region's place in its beats stands: the beat, whether it issues, and the word of RGN_BEAT. -/
structure BeatStands (g h : Region) : Prop where
  beat : h.beat = g.beat
  stopped : h.stopped = g.stopped
  word : h.regs.word .region 0x200 = g.regs.word .region 0x200

namespace BeatStands

theorem refl (g : Region) : BeatStands g g := ⟨rfl, rfl, rfl⟩

theorem trans {a b c : Region} (h : BeatStands a b) (k : BeatStands b c) : BeatStands a c :=
  ⟨k.beat.trans h.beat, k.stopped.trans h.stopped, k.word.trans h.word⟩

/-- An update of other parts of the region. -/
theorem of_regs {z g h : Region} (k : BeatStands z g) (hbeat : h.beat = g.beat) (hstopped : h.stopped = g.stopped)
    (hregs : h.regs = g.regs) : BeatStands z h :=
  ⟨hbeat.trans k.beat, hstopped.trans k.stopped, hregs ▸ k.word⟩

/-- RGN_BEAT.GAP is a bit of the word that stands. -/
theorem gap {g h : Region} (k : BeatStands g h) : h.bit RGN_BEAT_GAP = g.bit RGN_BEAT_GAP := by
  show (bitsOf (h.regs.word .region 0x200) 19 19 != 0) = (bitsOf (g.regs.word .region 0x200) 19 19 != 0)
  rw [k.word]

/-- A fold of steps that leave the beat. -/
theorem foldl {α : Type} {z g : Region} {l : List α} {f : Region → α → Region}
    (hf : ∀ x a, BeatStands z x → BeatStands z (f x a)) (h : BeatStands z g) : BeatStands z (l.foldl f g) := by
  induction l generalizing g with
  | nil => exact h
  | cons a l ih => exact ih (hf g a h)

/-- A write of a field of another register. -/
theorem wr {z g : Region} {f : Field} {v i j : Nat} (hu : f.unit = .region) (ho : 0x200 < f.off) (h : BeatStands z g) :
    BeatStands z (g.wr f v i j) := by
  refine ⟨h.beat, h.stopped, Eq.trans ?_ h.word⟩
  have hat : 0x200 ≠ f.at i j := by
    unfold Field.at
    omega
  show (Regs.setWord _ f.unit _ _).word .region 0x200 = _
  rw [hu]
  exact Regs.word_setWord_ne _ _ _ _ _ hat

/-- A saturating count of another register. -/
theorem inc {z g : Region} {c sat : Field} {n : Nat} (hc : c.unit = .region) (hs : sat.unit = .region) (hco : 0x200 < c.off)
    (hso : 0x200 < sat.off) (h : BeatStands z g) : BeatStands z (g.inc c sat n) := by
  unfold Region.inc Regs.incSat
  dsimp only
  split
  · exact wr hs hso (wr hc hco h)
  · exact wr hc hco h

theorem count {z g : Region} {e : REnv} {code n : Nat} {p : Option Nat} (h : BeatStands z g) :
    BeatStands z (g.count e code p n) := by
  unfold Region.count
  split
  · exact h
  · exact h.of_regs rfl rfl rfl

theorem queue {z g : Region} {r : ErrRec} (h : BeatStands z g) : BeatStands z (g.queue r) := by
  have hlost := h.inc (c := RGN_ERRQ_LOST) (sat := RGN_ERRQ_LSAT) (n := 1) rfl rfl (by decide) (by decide)
  unfold Region.queue
  split
  · exact h.of_regs rfl rfl rfl
  · dsimp only
    split
    · split
      · exact hlost.of_regs rfl rfl rfl
      · exact hlost
    · exact hlost

theorem raise {z g : Region} {e : REnv} {r : ErrRec} (h : BeatStands z g) : BeatStands z (g.raise e r) :=
  queue (h.of_regs rfl rfl rfl)

theorem rsOne {z g : Region} {e : REnv} {gr st : Nat} (h : BeatStands z g) : BeatStands z (g.rsOne e gr st) := by
  have haddr : ∀ v, BeatStands z ((g.wr RS_ECC_ADDR_ADDR (16 * gr)).wr RS_ECC_ADDR_UE v) := fun v =>
    wr rfl (by norm_num) (wr rfl (by norm_num) h)
  unfold Region.rsOne
  dsimp only
  split
  · exact raise (of_regs (wr (f := RS_STAT_CE) rfl (by norm_num) (inc (c := RS_ECC_CNT_CE) (sat := RS_ECC_CNT_CESAT) rfl rfl
      (by norm_num) (by norm_num) (haddr _))) rfl rfl rfl)
  · exact raise (wr rfl (by norm_num) (inc rfl rfl (by norm_num) (by norm_num) (haddr _)))

theorem rsEcc {z g : Region} {e : REnv} {lo hi : Nat} (h : BeatStands z g) : BeatStands z (g.rsEcc e lo hi).1 := by
  unfold Region.rsEcc
  suffices hfold : ∀ (l : List (Nat × Nat)) (a : Region × Bool), BeatStands z a.1 →
      BeatStands z (l.foldl (fun a x => (a.1.rsOne e x.1 x.2, a.2 || x.2 == 2)) a).1 from hfold _ _ h
  intro l
  induction l with
  | nil => exact fun _ ha => ha
  | cons x l ih => exact fun _ ha => ih _ (rsOne ha)

theorem setXfer {z g : Region} {y : Xfer} (h : BeatStands z g) : BeatStands z (g.setXfer y) := h.of_regs rfl rfl rfl

theorem setStrm {z g : Region} {i : Nat} {x : Strm} (h : BeatStands z g) : BeatStands z (g.setStrm i x) :=
  h.of_regs rfl rfl rfl

theorem drive {z g : Region} {e : REnv} {id inc parcel : Nat} {void : Bool} {d : Driver} (h : BeatStands z g) :
    BeatStands z (g.drive e id inc void parcel d) := by
  unfold Region.drive
  split
  · exact h
  · exact h.of_regs rfl rfl rfl

theorem noteVoid {z g : Region} {p : Nat} {void : Bool} (h : BeatStands z g) : BeatStands z (g.noteVoid p void) := by
  unfold Region.noteVoid
  split
  · exact h.of_regs rfl rfl rfl
  · exact h

theorem driveDone {z : Region} {e : REnv} {n i fr m : Nat} {g : Region} (h : BeatStands z g) :
    BeatStands z (Region.driveDone e n i fr m g) := by
  induction m generalizing g with
  | zero => exact h
  | succ m ih =>
    unfold Region.driveDone
    dsimp only
    split
    · exact h
    · split
      · exact ih (drive (noteVoid (h.of_regs rfl rfl rfl)))
      · exact h

theorem startX {z g : Region} {e : REnv} {x : Xfer} {gv : Bool} (h : BeatStands z g) : BeatStands z (g.startX e x gv) := by
  have hlast := (h.wr (f := STR_STAT_LAST) (v := x.desc) (i := x.eng) (j := 0) rfl (by decide)).count (e := e) (code := 0x045)
    (p := some x.parcel) (n := ((e.cyc : Int) - x.since).toNat)
  unfold Region.startX
  dsimp only
  split
  · split
    · exact driveDone (setXfer (rsEcc hlast))
    · split
      · exact driveDone (setXfer (raise (wr rfl (by decide) (rsEcc hlast))))
      · exact setXfer (rsEcc hlast)
  · exact setXfer hlast

theorem tryStart {z g : Region} {e : REnv} {x : Xfer} (h : BeatStands z g) : BeatStands z (g.tryStart e x) := by
  unfold Region.tryStart
  dsimp only
  split
  · exact h
  · split
    · exact startX h
    · split
      · exact h
      · exact startX h

theorem tryAll {z g : Region} {e : REnv} (h : BeatStands z g) : BeatStands z (g.tryAll e) :=
  foldl (fun _ _ hx => tryStart hx) h

theorem rebase {z g : Region} {c : Nat} (h : BeatStands z g) : BeatStands z (g.rebase c) := by
  refine foldl (fun x i hx => ?_) (h.of_regs rfl rfl rfl)
  split
  · exact setStrm hx
  · exact hx

/-- A region put back after its step: what the step hands on is taken. -/
theorem atRest {z g : Region} (h : BeatStands z g) : BeatStands z g.atRest := h.of_regs rfl rfl rfl

end BeatStands

/-- Beat 0 at a block leaves the regions but for their event counters. -/
theorem RegionsStand.blockBeat0 (s : State) (gap k : Nat) : RegionsStand s (s.blockBeat0 gap k) := by
  unfold State.blockBeat0
  dsimp only
  split
  · split
    · exact RegionsStand.setBlock _ _ _
    · exact RegionsStand.refl _
  · split
    · exact RegionsStand.putBlock _ _ _
    · exact RegionsStand.refl _

/-- A region whose event counters alone may change keeps its place in its beats. -/
theorem RegionsStand.beat {s t : State} (h : RegionsStand s t) (n : Nat) : BeatStands (s.region n) (t.region n) :=
  ⟨(congrArg Region.beat (h n) :), (congrArg Region.stopped (h n) :), (congrArg (fun g => g.regs.word .region 0x200) (h n) :)⟩

/-- A beat that begins is the region's beat, out of the boundary gap; whether the region issues stands. -/
theorem Region.enterBeat_place (g : Region) (whole total b : Nat) :
    (g.enterBeat whole total b).beat = b ∧ (g.enterBeat whole total b).bit RGN_BEAT_GAP = false ∧
      (g.enterBeat whole total b).stopped = g.stopped :=
  ⟨rfl, Region.bit_wr_self _ RGN_BEAT_GAP 0 0 0 (by decide) (by decide), rfl⟩

/-- What the streams and transfers of a region do at beat 0 leaves its place in its beats. -/
theorem BeatStands.beatZero (e : REnv) (gap : Nat) (g : Region) :
    BeatStands g (((List.range 64).foldl (fun (g : Region) i =>
      g.setStrm i { g.strm i with j := 0, since := none, forced := false }) (g.rebase gap)).tryAll e) :=
  tryAll (foldl (fun _ _ hx => setStrm hx) (rebase (refl g)))

/-- A region in the working span that issues goes on to its next beat (08 R228). -/
theorem exec_beatStart_next {n : Nat} {s : State} (hn : n < 24) (hlost : (s.region n).lost = false) (hrun : s.frame.running = true)
    (hgap : (s.region n).bit RGN_BEAT_GAP = false) (hstop : (s.region n).stopped = false) :
    exec (.beatStart n) s =
      .next (s.setRegion n ((s.region n).enterBeat (s.wholeBeats n) (s.frameBeats n) ((s.region n).beat + 1))) := by
  show execBeatStart n s = _
  simp [execBeatStart, Nat.not_le.mpr hn, hlost, hrun, hgap, hstop]

/-- The boundary gap of a region ends 200 periods after the tick: beat 0 begins, and the region issues again (02 R33). -/
theorem exec_beatStart_zero {n : Nat} {s : State} (hn : n < 24) (hlost : (s.region n).lost = false) (hrun : s.frame.running = true)
    (hgap : (s.region n).bit RGN_BEAT_GAP = true) (hpos : 200 ≤ s.frame.pos) (hre : s.frame.realign = none) :
    ∃ t, exec (.beatStart n) s = .next t ∧
      BeatStands { (s.region n).enterBeat (s.wholeBeats n) (s.frameBeats n) 0 with stopped := false } (t.region n) := by
  have hcond : ¬(24 ≤ n ∨ (s.region n).lost = true ∨ s.frame.running = false) := by simp [Nat.not_le.mpr hn, hlost, hrun]
  have hopen : ¬(s.frame.pos < 200 ∨ s.frame.realign.isSome = true) := by simp [Nat.not_lt.mpr hpos, hre]
  show ∃ t, execBeatStart n s = .next t ∧ _
  unfold execBeatStart
  rw [if_neg hcond, if_pos hgap, if_neg hopen]
  refine ⟨_, rfl, ?_⟩
  generalize { (s.region n).enterBeat (s.wholeBeats n) (s.frameBeats n) 0 with stopped := false } = g
  refine BeatStands.trans ?_ ((RegionsStand.foldl (fun x k => RegionsStand.blockBeat0 x _ k) (RegionsStand.refl _)).beat n)
  rw [State.onRegion, State.region_putRegion_self _ _ _ hn, State.region_setRegion_self _ _ _ hn]
  exact BeatStands.atRest (BeatStands.beatZero _ _ _)

/-- Settles O14: the next beat is one unit put back, beat 0 one step of the region and its blocks, and no other case begins a beat. -/
theorem beatsFollowOneAnother : Obligations.BeatsFollowOneAnother := by
  intro n s hn
  refine ⟨fun h => ?idle, fun hlost hrun => ⟨fun hgap hstop => ?next, fun hgap hstop => ?stopped, fun hgap hpos hre => ?zero,
    fun hgap h => ?early⟩⟩
  case idle =>
    show execBeatStart n s = _
    unfold execBeatStart
    rw [if_pos (Or.inr h)]
  case next =>
    obtain ⟨hbeat, hout, _⟩ := (s.region n).enterBeat_place (s.wholeBeats n) (s.frameBeats n) ((s.region n).beat + 1)
    refine ⟨_, exec_beatStart_next hn hlost hrun hgap hstop, ?_, ?_, ?_, ?_, fun m hm => State.region_setRegion_ne _ _ _ _ hm⟩
    · rw [State.region_setRegion_self _ _ _ hn, hbeat]
    · rw [State.region_setRegion_self _ _ _ hn, hout]
    · rw [State.region_setRegion_self _ _ _ hn]
    · rw [State.setRegion, if_pos hn]
  case stopped =>
    show execBeatStart n s = _
    simp [execBeatStart, hgap, hstop]
  case zero =>
    obtain ⟨hbeat, hout, _⟩ := (s.region n).enterBeat_place (s.wholeBeats n) (s.frameBeats n) 0
    obtain ⟨t, ht, hstands⟩ := exec_beatStart_zero hn hlost hrun hgap hpos hre
    exact ⟨t, ht, hstands.beat.trans hbeat, hstands.gap.trans hout, hstands.stopped⟩
  case early =>
    show execBeatStart n s = _
    simp [execBeatStart, hgap, h]

/-! ## Latched reads -/

/-- A ring just put back. -/
theorem State.ring_setRing_self {fn r : Nat} (s : State) (x : Ring) (hfn : fn < 34) (hr : r < fnRings fn) :
    (s.setRing fn r x).ring fn r = x := by
  rw [State.setRing, if_pos hr, State.ring, State.fn_setFn_self _ _ _ hfn]
  exact SMap.get_put_self _ _ _ _

/-- Putting a ring back leaves every other ring. -/
theorem State.ring_setRing_ne {fn r f q : Nat} (s : State) (x : Ring) (h : f ≠ fn ∨ q ≠ r) :
    (s.setRing fn r x).ring f q = s.ring f q := by
  unfold State.setRing
  split
  · by_cases hf : f = fn
    · subst hf
      have hq : q ≠ r := h.resolve_left fun hne => hne rfl
      by_cases hlt : f < 34
      · rw [State.ring, State.fn_setFn_self _ _ _ hlt]
        exact SMap.get_put_ne _ _ _ _ _ hq
      · rw [State.setFn, if_neg hlt]
    · rw [State.ring, State.fn_setFn_ne _ _ _ _ hf, State.ring]
  · rfl

/-- Putting a ring back changes the functions alone. -/
theorem State.setRing_only (s : State) (fn r : Nat) (x : Ring) : s.setRing fn r x = { s with fns := (s.setRing fn r x).fns } := by
  unfold State.setRing State.setFn
  split
  · split <;> rfl
  · rfl

/-- The read of CR_LAST_LO answers the low half and latches the high one (13 R392). -/
theorem exec_crLastLoRead_latches (fn r : Nat) (s : State) : ∃ t, exec (.crLastLoRead fn r) s = .next t ∧
    t.answer = .word (BitVec.ofNat 32 ((s.ring fn r).rd CR_LAST_LO_SER)) ∧ t = { s with fns := t.fns, answer := t.answer } ∧
    (fn < 34 → r < fnRings fn → t.ring fn r = { s.ring fn r with lastHi := (s.ring fn r).rd CR_LAST_HI_SER }) ∧
    (∀ f q, f ≠ fn ∨ q ≠ r → t.ring f q = s.ring f q) := by
  refine ⟨{ (s.crLastLo fn r).1 with answer := .word (s.crLastLo fn r).2 }, rfl, rfl, ?_, s.ring_setRing_self _, fun f q h => ?_⟩
  · rw [State.crLastLo, s.setRing_only]
  · exact s.ring_setRing_ne _ h

/-- A counter just changed. -/
theorem State.evcAt_updEvc_self {s : State} {f : Evc → Evc} {c : CtrAt} (h : c.wf) : (s.updEvc f c).evcAt c = f (s.evcAt c) := by
  cases c with
  | block k i =>
    obtain ⟨hk, hi⟩ := h
    rw [State.updEvc, if_pos hi, State.evcAt, State.block_setBlock_self _ _ _ hk]
    exact SMap.get_put_self _ _ _ _
  | region n i =>
    obtain ⟨hn, hi⟩ := h
    rw [State.updEvc, if_pos hi, State.evcAt, State.region_setRegion_self _ _ _ hn]
    exact SMap.get_put_self _ _ _ _
  | hub i =>
    have hi : i < 32 := h
    rw [State.updEvc, if_pos hi]
    exact SMap.get_put_self _ _ _ _

/-- Changing a counter leaves every other counter. -/
theorem State.evcAt_updEvc_ne {s : State} {f : Evc → Evc} {c d : CtrAt} (h : d ≠ c) : (s.updEvc f c).evcAt d = s.evcAt d := by
  cases c with
  | block k i =>
    rw [State.updEvc]
    split
    · cases d with
      | block j q =>
        by_cases hj : j = k
        · subst hj
          have hq : q ≠ i := fun he => h (he ▸ rfl)
          by_cases hlt : j < 4608
          · rw [State.evcAt, State.block_setBlock_self _ _ _ hlt]
            exact SMap.get_put_ne _ _ _ _ _ hq
          · rw [State.setBlock, if_neg hlt]
        · rw [State.evcAt, State.block_setBlock_ne _ _ _ _ hj, State.evcAt]
      | region n q => simp [State.evcAt, State.region]
      | hub q => simp [State.evcAt]
    · rfl
  | region n i =>
    rw [State.updEvc]
    split
    · cases d with
      | block j q => simp [State.evcAt, State.block]
      | region m q =>
        by_cases hm : m = n
        · subst hm
          have hq : q ≠ i := fun he => h (he ▸ rfl)
          by_cases hlt : m < 24
          · rw [State.evcAt, State.region_setRegion_self _ _ _ hlt]
            exact SMap.get_put_ne _ _ _ _ _ hq
          · rw [State.setRegion, if_neg hlt]
        · rw [State.evcAt, State.region_setRegion_ne _ _ _ _ hm, State.evcAt]
      | hub q => simp [State.evcAt]
    · rfl
  | hub i =>
    rw [State.updEvc]
    split
    · cases d with
      | block j q => rfl
      | region m q => rfl
      | hub q => exact SMap.get_put_ne _ _ _ _ _ fun he => h (he ▸ rfl)
    · rfl

/-- Changing a counter changes nothing outside the hub's counters, the regions and the blocks. -/
theorem State.updEvc_only (s : State) (f : Evc → Evc) (c : CtrAt) :
    s.updEvc f c = { s with evcs := (s.updEvc f c).evcs, regions := (s.updEvc f c).regions, blocks := (s.updEvc f c).blocks } := by
  cases c <;> rw [State.updEvc] <;> split
  case block.isTrue => unfold State.setBlock; split <;> rfl
  case region.isTrue => unfold State.setRegion; split <;> rfl
  all_goals rfl

/-- The counter's latch: what a read of a low half does to the state (20 R527). -/
theorem State.evcAt_latch {s : State} {f : Evc → Evc} {c : CtrAt} (w : Word) (h : c.wf) :
    ({ s.updEvc f c with answer := .word w } : State).evcAt c = f (s.evcAt c) ∧
    (∀ d, d ≠ c → ({ s.updEvc f c with answer := .word w } : State).evcAt d = s.evcAt d) ∧
    ({ s.updEvc f c with answer := .word w } : State) =
      { s with evcs := (s.updEvc f c).evcs, regions := (s.updEvc f c).regions, blocks := (s.updEvc f c).blocks, answer := .word w } := by
  have hat : ∀ d, ({ s.updEvc f c with answer := .word w } : State).evcAt d = (s.updEvc f c).evcAt d := fun d => by cases d <;> rfl
  refine ⟨(hat c).trans (State.evcAt_updEvc_self h), fun d hd => (hat d).trans (State.evcAt_updEvc_ne hd), ?_⟩
  rw [s.updEvc_only f c]

/-- The reads of EVC_LO and EVC_SNAP_LO on a page that is there (20 R527). -/
theorem exec_evcReads_latch {c : CtrAt} {s : State} (hthere : s.evcThere c = true) (hwf : c.wf) :
    ∃ t u, exec (.evcLoRead c) s = .next t ∧ exec (.evcSnapLoRead c) s = .next u ∧
      t.answer = .word (BitVec.ofNat 32 (s.evcAt c).cnt) ∧ t.evcAt c = { s.evcAt c with hi := (s.evcAt c).cnt / 2 ^ 32 } ∧
      u.answer = .word (BitVec.ofNat 32 (s.evcAt c).snap) ∧ u.evcAt c = { s.evcAt c with snapHi := (s.evcAt c).snap / 2 ^ 32 } ∧
      (∀ d, d ≠ c → t.evcAt d = s.evcAt d ∧ u.evcAt d = s.evcAt d) ∧
      t = { s with evcs := t.evcs, regions := t.regions, blocks := t.blocks, answer := t.answer } ∧
      u = { s with evcs := u.evcs, regions := u.regions, blocks := u.blocks, answer := u.answer } := by
  obtain ⟨htc, htd, hto⟩ := State.evcAt_latch (f := fun c => { c with hi := c.cnt / 2 ^ 32 })
    (BitVec.ofNat 32 (s.evcAt c).cnt) hwf
  obtain ⟨huc, hud, huo⟩ := State.evcAt_latch (f := fun c => { c with snapHi := c.snap / 2 ^ 32 })
    (BitVec.ofNat 32 (s.evcAt c).snap) hwf
  exact ⟨_, _, if_pos hthere, if_pos hthere, rfl, htc, rfl, huc, fun d hd => ⟨htd d hd, hud d hd⟩, hto, huo⟩

/-- A counter's page that is not there answers all ones (01 R28). -/
theorem exec_evcReads_away {c : CtrAt} {s : State} (h : s.evcThere c = false) :
    exec (.evcLoRead c) s = .next { s with answer := .word 0xFFFFFFFF } ∧
    exec (.evcSnapLoRead c) s = .next { s with answer := .word 0xFFFFFFFF } :=
  have hno : ¬s.evcThere c = true := by simp [h]
  ⟨if_neg hno, if_neg hno⟩

/-! ## Counts that a write of CLR clears -/

section CountClr
variable {s : State}

/-- Before ready a write of CLR is discarded and counted (17 R455). -/
theorem exec_countClr_notReady (addr : Nat) (h : s.ready = false) : exec (.countClr addr) s = .next s.discard := by
  show execCountClr addr s = _
  simp [execCountClr, h]

/-- COUNT_CLR in the hub outside the ports' and the counters' pages. -/
theorem exec_countClr_hub {addr : Nat} (h : s.ready = true) (hlt : addr < 0x1000000)
    (hport : addr < 0x6100 ∨ 0x6700 ≤ addr) (hevc : addr < 0xC000) : exec (.countClr addr) s = .next (s.hubClr addr) := by
  show execCountClr addr s = _
  rw [execCountClr, h, if_neg (by decide), if_pos hlt, if_neg (by omega), if_neg (by omega)]

/-- COUNT_CLR of one of the ten HERR_CNT. -/
theorem State.hubClr_herrCnt {i : Nat} (hi : i < 10) :
    s.hubClr (0xA008 + 4 * i) = (s.wr HERR_CNT_COUNT 0 i).wr HERR_CNT_SAT 0 i := by
  have hidx : (0xA008 + 4 * i - 0xA008) / 4 = i := by omega
  rw [State.hubClr, if_pos (by omega), hidx]

/-- COUNT_CLR of an event counter of the hub. -/
theorem exec_countClr_hubEvc {i : Nat} (h : s.ready = true) (hi : i < 32) :
    exec (.countClr (0xC000 + 16 * i)) s = .next (s.updEvc (fun c => c.clear) (.hub i)) := by
  show execCountClr (0xC000 + 16 * i) s = _
  have hidx : (0xC000 + 16 * i - 0xC000) / 16 = i := by omega
  rw [execCountClr, h, if_neg (by decide), if_pos (by omega), if_neg (by omega), if_pos (by omega), hidx]

/-- COUNT_CLR of a count of a sightline port. -/
theorem exec_countClr_port {k o : Nat} (h : s.ready = true) (hk : k < 24) (ho : o = 0x20 ∨ o = 0x24 ∨ o = 0x28) :
    exec (.countClr (0x6100 + 0x40 * k + o)) s = .next (s.setPort k ((s.port k).pageWrite o 0x80000000)) := by
  show execCountClr (0x6100 + 0x40 * k + o) s = _
  have hkey : (0x6100 + 0x40 * k + o - 0x6100) / 0x40 = k := by omega
  have hoff : (0x6100 + 0x40 * k + o - 0x6100) % 0x40 = o := by omega
  rw [execCountClr, h, if_neg (by decide), if_pos (by omega), if_pos (by omega)]
  simp only [hkey, hoff]
  exact if_pos ho

/-- COUNT_CLR on region `n`'s page. -/
theorem exec_countClr_region {n o : Nat} (h : s.ready = true) (hn : n < 24) (ho : o < 0x40000) :
    exec (.countClr (0x1000000 + 0x100000 * n + o)) s =
      if 0x900 ≤ o ∧ o < 0xA00 ∧ o % 16 = 0 then .next (s.updEvc (fun c => c.clear) (.region n ((o - 0x900) / 16)))
      else .next (s.setRegion n (((s.region n).clrWrite o).getD (s.region n))) := by
  show execCountClr (0x1000000 + 0x100000 * n + o) s = _
  have hkey : (0x1000000 + 0x100000 * n + o - 0x1000000) / 0x100000 = n := by omega
  have hoff : (0x1000000 + 0x100000 * n + o - 0x1000000) % 0x100000 = o := by omega
  rw [execCountClr, h, if_neg (by decide), if_neg (by omega)]
  simp only [hkey, hoff]
  rw [if_neg (by omega), if_pos ho]

/-- The counts of a region stand in its page and outside its event counters. -/
theorem Region.clrWrite_offset {g x : Region} {o : Nat} (h : g.clrWrite o = some x) :
    o < 0x40000 ∧ ¬(0x900 ≤ o ∧ o < 0xA00 ∧ o % 16 = 0) := by
  unfold Region.clrWrite at h
  split at h
  case h_9 => cases h
  all_goals omega

/-- COUNT_CLR on the page of block `b` of region `n`'s chips. -/
theorem exec_countClr_block {n b p : Nat} (h : s.ready = true) (hn : n < 24) (hb : b < 192) (hp : p < 0x1000) :
    exec (.countClr (0x1040000 + 0x100000 * n + 0x1000 * b + p)) s =
      if !s.reaches (chipBlk n b) then .next s.discard
      else if 0x1C0 ≤ p ∧ p < 0x200 ∧ p % 16 = 0 then
        .next (s.updEvc (fun c => c.clear) (.block (chipBlk n b) ((p - 0x1C0) / 16)))
      else .next (s.setBlock (chipBlk n b) (((s.block (chipBlk n b)).clrWrite p).getD (s.block (chipBlk n b)))) := by
  show execCountClr (0x1040000 + 0x100000 * n + 0x1000 * b + p) s = _
  have hkey : (0x1040000 + 0x100000 * n + 0x1000 * b + p - 0x1000000) / 0x100000 = n := by omega
  have hoff : (0x1040000 + 0x100000 * n + 0x1000 * b + p - 0x1000000) % 0x100000 = 0x40000 + 0x1000 * b + p := by omega
  have hblk : (0x40000 + 0x1000 * b + p - 0x40000) / 0x1000 = b := by
    rw [Nat.add_assoc, Nat.add_sub_cancel_left]
    omega
  have hpage : (0x40000 + 0x1000 * b + p) % 0x1000 = p := by omega
  have hb' : ¬192 ≤ b := by omega
  rw [execCountClr, h, if_neg (by decide), if_neg (by omega)]
  simp only [hkey, hoff]
  rw [if_neg (by omega), if_neg (by omega)]
  simp only [hblk, hpage, hb', false_or]

/-- The counts of a block stand outside its event counters. -/
theorem Block.clrWrite_offset {b x : Block} {o : Nat} (h : b.clrWrite o = some x) :
    ¬(0x1C0 ≤ o ∧ o < 0x200 ∧ o % 16 = 0) := by
  unfold Block.clrWrite at h
  split at h
  case h_9 => cases h
  all_goals omega

/-- COUNT_CLR of an event counter or of a count of a block that can be reached, or not (01 R28). -/
theorem exec_countClr_block_cases {n b p : Nat} (h : s.ready = true) (hn : n < 24) (hb : b < 192) (hp : p < 0x1000) :
    (s.reaches (chipBlk n b) = false →
      exec (.countClr (0x1040000 + 0x100000 * n + 0x1000 * b + p)) s = .next s.discard) ∧
    (s.reaches (chipBlk n b) = true →
      (∀ i, i < 4 → p = 0x1C0 + 16 * i →
        exec (.countClr (0x1040000 + 0x100000 * n + 0x1000 * b + p)) s =
          .next (s.updEvc (fun c => c.clear) (.block (chipBlk n b) i))) ∧
      (∀ x, (s.block (chipBlk n b)).clrWrite p = some x →
        exec (.countClr (0x1040000 + 0x100000 * n + 0x1000 * b + p)) s = .next (s.setBlock (chipBlk n b) x))) := by
  rw [exec_countClr_block h hn hb hp]
  refine ⟨fun haway => if_pos (by simp [haway]), fun hthere => ⟨fun i hi hpi => ?_, fun x hx => ?_⟩⟩
  · have hidx : (p - 0x1C0) / 16 = i := by omega
    rw [if_neg (by simp [hthere]), if_pos (by omega), hidx]
  · rw [if_neg (by simp [hthere]), if_neg (Block.clrWrite_offset hx), hx, Option.getD_some]

end CountClr

/-- Settles O13: each latch is a counter's own update, and each clause of COUNT_CLR one branch of its address. -/
theorem latchedReadsAndCounterControls : Obligations.LatchedReadsAndCounterControls := by
  refine ⟨fun s => ⟨rfl, rfl⟩, exec_crLastLoRead_latches, fun c s => ⟨fun hthere hrange => ?_, exec_evcReads_away⟩,
    fun v addr s hr => ⟨?_, exec_countClr_notReady addr hr⟩, fun s hr => ⟨fun v => ?_, ?_, ?_, ?_, fun i hi => ?_,
      fun i hi => exec_countClr_hubEvc hr hi, fun k o hk ho => exec_countClr_port hr hk ho, fun n i hn hi => ?_,
      fun n o g hn hg => ?_, fun n b p hn hb hp => exec_countClr_block_cases hr hn hb hp⟩⟩
  · have hwf : c.wf := by cases c <;> exact hrange
    exact exec_evcReads_latch hthere hwf
  · show execEvcFreeze v s = _
    rw [execEvcFreeze, hr, if_pos (by decide)]
  · show execEvcFreeze v s = _
    rw [execEvcFreeze, hr, if_neg (by decide)]
  · exact exec_countClr_hub hr (by norm_num) (by norm_num) (by norm_num)
  · exact exec_countClr_hub hr (by norm_num) (by norm_num) (by norm_num)
  · exact exec_countClr_hub hr (by norm_num) (by norm_num) (by norm_num)
  · rw [exec_countClr_hub hr (by omega) (by omega) (by omega), State.hubClr_herrCnt hi]
  · have hidx : (0x900 + 16 * i - 0x900) / 16 = i := by omega
    rw [Nat.add_assoc, exec_countClr_region hr hn (by omega), if_pos (by omega), hidx]
  · obtain ⟨ho, hevc⟩ := Region.clrWrite_offset hg
    rw [exec_countClr_region hr hn ho, if_neg hevc, hg, Option.getD_some]

/-! ## What records and vectors leave -/

/-- From `s` to `t` the plat's registers stand, and so do the items of every ring. -/
structure PlatStands (s t : State) : Prop where
  regs : t.hub.plat = s.hub.plat
  rings : ∀ k, (t.fn k).rings = (s.fn k).rings

namespace PlatStands

theorem refl (s : State) : PlatStands s s := ⟨rfl, fun _ => rfl⟩

/-- An update of other parts of the state. -/
theorem of_parts {z s t : State} (h : PlatStands z s) (hregs : t.hub.plat = s.hub.plat) (hfns : t.fns = s.fns) : PlatStands z t :=
  ⟨hregs.trans h.regs, fun k => (show (t.fn k).rings = (s.fn k).rings by rw [State.fn, State.fn, hfns]).trans (h.rings k)⟩

theorem foldl {α : Type} {z s : State} {l : List α} {f : State → α → State} (hf : ∀ x a, PlatStands z x → PlatStands z (f x a))
    (h : PlatStands z s) : PlatStands z (l.foldl f s) := by
  induction l generalizing s with
  | nil => exact h
  | cons a l ih => exact ih (hf s a h)

/-- A write in another group of the hub's registers. -/
theorem of_set {z s : State} {u : RegUnit} {r : Regs} (hu : u ≠ .plat) (h : PlatStands z s) :
    PlatStands z { s with hub := s.hub.set u r } :=
  h.of_parts (HubRegs.of_set_ne s.hub u .plat r hu.symm) rfl

theorem wr {z s : State} {f : Field} {v i j : Nat} (hu : f.unit ≠ .plat) (h : PlatStands z s) : PlatStands z (s.wr f v i j) :=
  of_set hu h

theorem inc {z s : State} {c sat : Field} {i n : Nat} (hu : c.unit ≠ .plat) (h : PlatStands z s) : PlatStands z (s.inc c sat i n) :=
  of_set hu h

theorem count {z s : State} {c n : Nat} {p : Option Nat} (h : PlatStands z s) : PlatStands z (s.count c p n) := by
  rw [s.count_only]
  exact h.of_parts rfl rfl

/-- A function put back with its rings. -/
theorem setFn {z s : State} {k : Nat} {f : Fn} (hf : f.rings = (s.fn k).rings) (h : PlatStands z s) : PlatStands z (s.setFn k f) := by
  refine ⟨?_, fun j => Eq.trans ?_ (h.rings j)⟩
  · unfold State.setFn
    split <;> exact h.regs
  · by_cases hj : j = k
    · subst hj
      by_cases hlt : j < 34
      · rw [State.fn_setFn_self _ _ _ hlt, hf]
      · rw [State.setFn, if_neg hlt]
    · rw [State.fn_setFn_ne _ _ _ _ hj]

theorem vector {z s : State} {k v : Nat} (h : PlatStands z s) : PlatStands z (s.vector k v) := by
  unfold State.vector
  dsimp only
  split
  · exact h.setFn rfl
  · exact h.of_parts rfl rfl

theorem vectors {z s : State} {l : List Nat} (h : PlatStands z s) : PlatStands z (l.foldl State.errVector s) :=
  h.foldl fun _ _ hx => hx.vector

theorem pfVector {z s : State} {f : Field} (h : PlatStands z s) : PlatStands z (s.pfVector f) :=
  h.foldl fun _ _ hx => hx.vector

theorem platVec {z old s : State} (h : PlatStands z s) : PlatStands z (State.platVec old s) := by
  unfold State.platVec
  split
  · exact h
  · exact h.pfVector

theorem showQ {z s : State} (h : PlatStands z s) : PlatStands z s.showQ := wr (by decide) (wr (by decide) h)

theorem hubQueue {z s : State} {r : ErrRec} (h : PlatStands z s) : PlatStands z (s.hubQueue r) := by
  unfold State.hubQueue
  extract_lets s1 s2 e s3 r3
  have h3 : PlatStands z s3 := vectors (count (inc (by decide) h))
  have hlost : PlatStands z (s3.inc HERR_LOST_COUNT HERR_LOST_SAT) := inc (by decide) h3
  have hput : PlatStands z ({ s3 with err := { s3.err with q := s3.err.q ++ [r3] } } : State).showQ := showQ (h3.of_parts rfl rfl)
  clear_value s3 r3
  split
  · split
    · exact hput
    · exact vectors (wr (by decide) hlost)
  · split
    · exact hput
    · exact vectors hlost

theorem raise {z s : State} {r : ErrRec} (h : PlatStands z s) : PlatStands z (s.raise r) := hubQueue (h.of_parts rfl rfl)

theorem takeEvs {z s : State} {evs : List (Nat × Option Nat × Nat)} (h : PlatStands z s) : PlatStands z (s.takeEvs none evs) := by
  rw [(s.takeEvs_frame none evs).1]
  exact h.of_parts rfl rfl

theorem setPort {z s : State} {k : Nat} {p : Port} (h : PlatStands z s) : PlatStands z (s.setPort k p) :=
  h.of_parts (congrArg HubRegs.plat (s.setPort_hub k p)) (s.setPort_fns k p)

theorem onPort {z s : State} {k t : Nat} {f : PEnv → Port → Port} (h : PlatStands z s) : PlatStands z (s.onPort k t f) := by
  unfold State.onPort State.putPort
  extract_lets old s1 s2
  have h2 : PlatStands z s2 := foldl (fun _ _ hx => hx.raise) (h.setPort.takeEvs)
  split
  · exact h2
  · exact h2.pfVector

/-- Fields of the plat's registers read the same. -/
theorem rd {s t : State} {f : Field} (h : PlatStands s t) (hu : f.unit = .plat) (i j : Nat := 0) : t.rd f i j = s.rd f i j := by
  show (t.hub.of f.unit).rd f i j = (s.hub.of f.unit).rd f i j
  rw [hu]
  exact congrArg (fun r : Regs => r.rd f i j) h.regs

theorem bit {s t : State} {f : Field} (h : PlatStands s t) (hu : f.unit = .plat) : t.bit f = s.bit f :=
  congrArg (· != 0) (h.rd hu)

theorem ring {s t : State} (h : PlatStands s t) (fn r : Nat) : t.ring fn r = s.ring fn r :=
  congrArg (fun m => SMap.get ringZero m r) (h.rings fn)

theorem waits {s t : State} {i : ItemRef} (h : PlatStands s t) (hw : s.waits i) : t.waits i := by
  unfold State.waits
  rw [h.ring]
  exact hw

theorem doneWith {s t : State} {i : ItemRef} {a b : Nat} (h : PlatStands s t) (hd : s.doneWith i a b) : t.doneWith i a b := by
  unfold State.doneWith
  rw [h.ring]
  exact hd

end PlatStands

/-- An item that waits has its outcome once it is finished. -/
theorem State.doneWith_finish {s : State} {i : ItemRef} {status detail : Nat} (h : s.waits i) :
    (s.finish i status detail).doneWith i status detail := by
  obtain ⟨hfn, y, hy, hslot, hnone⟩ := h
  refine ⟨{ y with done := some (status, detail) }, ?_, hslot, rfl⟩
  have hrings : ((s.finish i status detail).fn i.fn).rings = _ := congrArg Fn.rings (s.fn_setFn_self i.fn _ hfn)
  rw [State.ring, hrings, SMap.get_put_self]
  exact List.mem_map.mpr ⟨y, hy, if_pos ⟨hslot, by simp [hnone]⟩⟩

/-! ## An acknowledgement and a withdrawal -/

theorem Noted.platVec {z old s : State} (h : Noted z s) : Noted z (State.platVec old s) := by
  unfold State.platVec
  split
  · exact h
  · exact h.pfVector

/-- Regions stand. -/
theorem Noted.region {s t : State} (h : Noted s t) (n : Nat) : t.region n = s.region n := by rw [h]; rfl

/-- The plat's own state stands. -/
theorem Noted.plat {s t : State} (h : Noted s t) : t.plat = s.plat := by rw [h]

/-- CUT_STAT.STATE shows 3 exactly where CUT_ACK.ARMED is set (11 R322). -/
theorem State.showArmed_state (s : State) :
    s.showArmed.rd CUT_STAT_STATE = (if s.showArmed.bit CUT_ACK_ARMED then 3 else 2) := by
  unfold State.showArmed
  extract_lets all
  rw [State.rd_wr_self _ _ _ 0 0 (by decide), State.bit_wr_apart _ _ _ _ 0 0 0 0 (by decide),
    State.bit_wr_self _ _ _ 0 0 (by decide)]
  cases all <;> rfl

/-- Showing what is armed leaves the acknowledgements. -/
theorem State.showArmed_ack (s : State) : s.showArmed.rd CUT_ACK_RGN = s.rd CUT_ACK_RGN := by
  unfold State.showArmed
  rw [State.rd_wr_apart _ _ _ _ 0 0 0 0 (by decide), State.rd_wr_apart _ _ _ _ 0 0 0 0 (by decide)]

/-- The state after CUT_ACK.RGN becomes `ack` and region `n` becomes `g`: what acknowledgements and withdrawals do. -/
def State.ackTo (s : State) (n : Nat) (g : Region) (ack : Nat) : State :=
  State.platVec s ((s.setRegion n g).wr CUT_ACK_RGN ack).showArmed

theorem State.ackTo_region_self {s : State} {n : Nat} {g : Region} {ack : Nat} (hn : n < 24) :
    (s.ackTo n g ack).region n = g :=
  ((Noted.refl _).platVec.region n).trans (s.region_setRegion_self n g hn)

theorem State.ackTo_region_ne {s : State} {n m : Nat} {g : Region} {ack : Nat} (hm : m ≠ n) :
    (s.ackTo n g ack).region m = s.region m :=
  ((Noted.refl _).platVec.region m).trans (s.region_setRegion_ne n m g hm)

theorem State.ackTo_ack (s : State) (n : Nat) (g : Region) (ack : Nat) : (s.ackTo n g ack).rd CUT_ACK_RGN = ack % 2 ^ 24 := by
  rw [State.ackTo, (PlatStands.refl _).platVec.rd rfl, State.showArmed_ack, State.rd_wr_self _ _ _ 0 0 (by decide)]
  rfl

theorem State.ackTo_state (s : State) (n : Nat) (g : Region) (ack : Nat) :
    (s.ackTo n g ack).rd CUT_STAT_STATE = (if (s.ackTo n g ack).bit CUT_ACK_ARMED then 3 else 2) := by
  rw [State.ackTo, (PlatStands.refl _).platVec.rd rfl, (PlatStands.refl _).platVec.bit rfl, State.showArmed_state]

/-- A region's step stands in the incoming list of its share (11 R322). -/
def Region.stepOk (g : Region) (n : Nat) (p : Plat) : Bool := ((p.regionSec n).variants.map (fun v => v.step)).contains g.cur

/-- The region after it withdrew (11 R322). -/
def Region.withdraw (g : Region) (same : Bool) : Region :=
  let g := (g.set1 RGN_SHADOW_WITHDRAWN).wr RGN_SHADOW_ARMED 0
  if same then g.set1 RGN_SHADOW_SBERR else g

section Asks
variable {s : State} {l : LoadSt} {n : Nat} (hload : s.plat.load = some l) (hcut : l.cut = true) (hsw : s.plat.switch = false)
include hload

/-- An acknowledgement that a plat without image, a lost or unaffected region, or a waiting record holds back (02 R50). -/
theorem exec_cutAcknowledge_held (h : l.plat = none ∨ (s.region n).lost = true ∨ (s.rd CUT_NEED_RGN).testBit n = false ∨
    (s.region n).recq ≠ []) : exec (.cutAcknowledge n) s = .next s := by
  show execCutAcknowledge n s = _
  unfold execCutAcknowledge
  rw [hload]
  dsimp only
  split
  · rfl
  · next p hp =>
    have hany : (s.region n).lost = true ∨ (s.rd CUT_NEED_RGN).testBit n = false ∨ (s.region n).recq ≠ [] :=
      h.resolve_left (by simp [hp])
    rw [if_pos]
    rcases hany with h | h | h <;> simp [h]

/-- A withdrawal by a region that had not acknowledged, or behind a waiting record. -/
theorem exec_cutWithdrawal_held (h : (s.rd CUT_ACK_RGN).testBit n = false ∨ (s.region n).recq ≠ []) :
    exec (.cutWithdrawal n) s = .next s := by
  show execCutWithdrawal n s = _
  unfold execCutWithdrawal
  rw [hload]
  dsimp only
  rw [if_pos]
  rcases h with h | h <;> simp [h]

include hcut hsw

/-- An affected region's acknowledgement with nothing before it (11 R322). -/
theorem exec_cutAcknowledge_asked {p : Plat} (hp : l.plat = some p) (hlost : (s.region n).lost = false)
    (hneed : (s.rd CUT_NEED_RGN).testBit n = true) (hrecq : (s.region n).recq = []) :
    exec (.cutAcknowledge n) s =
      if (s.region n).stepOk n p && s.fenceCounts.getD n 0 == l.fences.getD n 0 && !(s.region n).bit RGN_SHADOW_WITHDRAWN then
        .next (s.ackTo n (((s.region n).wr RGN_SHADOW_STEPOK 1).set1 RGN_SHADOW_ARMED) (s.rd CUT_ACK_RGN ||| 2 ^ n))
      else .next (s.setRegion n ((s.region n).wr RGN_SHADOW_STEPOK (if (s.region n).stepOk n p then 1 else 0))) := by
  show execCutAcknowledge n s = _
  have hack : (s.setRegion n (((s.region n).wr RGN_SHADOW_STEPOK 1).set1 RGN_SHADOW_ARMED)).rd CUT_ACK_RGN = s.rd CUT_ACK_RGN := by
    rw [State.rd, State.setRegion_hub, State.rd]
  unfold execCutAcknowledge
  rw [hload]
  dsimp only
  rw [hp]
  dsimp only
  rw [if_neg (by simp [hcut, hsw, hlost, hneed, hrecq]),
    Region.bit_wr_apart _ RGN_SHADOW_STEPOK RGN_SHADOW_WITHDRAWN _ 0 0 0 0 (by decide)]
  change (if ((s.region n).stepOk n p && _ && _) = true then _ else _) = _
  split
  · next h =>
    have hok : (s.region n).stepOk n p = true := by
      simp only [Bool.and_eq_true] at h
      exact h.1.1
    rw [State.ackTo, ← hack]
    unfold Region.stepOk at hok
    rw [hok]
    rfl
  · rfl

/-- A withdrawal with nothing before it. -/
theorem exec_cutWithdrawal_asked (hack : (s.rd CUT_ACK_RGN).testBit n = true) (hrecq : (s.region n).recq = []) :
    exec (.cutWithdrawal n) s = .next (s.ackTo n ((s.region n).withdraw (s.fenceCounts.getD n 0 == l.fences.getD n 0))
      (setBitNat (s.rd CUT_ACK_RGN) n false)) := by
  show execCutWithdrawal n s = _
  have hrd : ∀ g, (s.setRegion n g).rd CUT_ACK_RGN = s.rd CUT_ACK_RGN := fun g => by
    rw [State.rd, State.setRegion_hub, State.rd]
  unfold execCutWithdrawal
  rw [hload]
  dsimp only
  rw [if_neg (by simp [hcut, hsw, hack, hrecq]), hrd]
  rfl

end Asks

/-- ARMED is set in the region's shadow once it acknowledged. -/
theorem Region.bit_armed_set1 (g : Region) : (g.set1 RGN_SHADOW_ARMED).bit RGN_SHADOW_ARMED = true :=
  g.bit_wr_self RGN_SHADOW_ARMED 1 0 0 (by decide) (by decide)

theorem Region.withdraw_withdrawn (g : Region) (same : Bool) : (g.withdraw same).bit RGN_SHADOW_WITHDRAWN = true := by
  have h : ((g.set1 RGN_SHADOW_WITHDRAWN).wr RGN_SHADOW_ARMED 0).bit RGN_SHADOW_WITHDRAWN = true := by
    rw [Region.bit_wr_apart _ _ _ _ 0 0 0 0 (by decide)]
    exact g.bit_wr_self RGN_SHADOW_WITHDRAWN 1 0 0 (by decide) (by decide)
  cases same with
  | false => exact h
  | true => exact (Region.bit_wr_apart _ _ _ _ 0 0 0 0 (by decide)).trans h

theorem Region.withdraw_armed (g : Region) (same : Bool) : (g.withdraw same).bit RGN_SHADOW_ARMED = false := by
  have h : ((g.set1 RGN_SHADOW_WITHDRAWN).wr RGN_SHADOW_ARMED 0).bit RGN_SHADOW_ARMED = false :=
    Region.bit_wr_self _ RGN_SHADOW_ARMED 0 0 0 (by decide) (by decide)
  cases same with
  | false => exact h
  | true => exact (Region.bit_wr_apart _ _ _ _ 0 0 0 0 (by decide)).trans h

theorem Region.withdraw_sberr (g : Region) : (g.withdraw true).bit RGN_SHADOW_SBERR = true :=
  Region.bit_wr_self _ RGN_SHADOW_SBERR 1 0 0 (by decide) (by decide)

/-- Bit `n` of a mask that `setBitNat` cleared. -/
theorem testBit_setBitNat_false (m n : Nat) : (setBitNat m n false).testBit n = false := by
  rw [setBitNat, if_neg (by decide)]
  split
  · next h =>
    obtain ⟨d, rfl⟩ : ∃ d, m = d + 2 ^ n := ⟨m - 2 ^ n, (Nat.sub_add_cancel (Nat.ge_two_pow_of_testBit h)).symm⟩
    rw [Nat.add_comm, Nat.testBit_two_pow_add_eq] at h
    rw [Nat.add_sub_cancel]
    simpa using h
  · next h => simpa using h

/-! ## The decision point -/

theorem Port.count_heldDatum (e : PEnv) (p : Port) (code n : Nat) : (p.count e code n).heldDatum = p.heldDatum := by
  unfold Port.count
  split <;> rfl

theorem Port.stream_heldDatum (p : Port) (xs : List Sent) : (p.stream xs).heldDatum = p.heldDatum := by
  unfold Port.stream
  split <;> rfl

theorem Port.flush_heldDatum (e : PEnv) (p : Port) : (p.flush e).heldDatum = p.heldDatum := by
  unfold Port.flush
  rw [Port.count_heldDatum, Port.stream_heldDatum]

/-- Judging a datum leaves those that are held. -/
theorem Port.judged_heldDatum (e : PEnv) (p : Port) (d : Datum) : (p.judged e d).heldDatum = p.heldDatum := by
  unfold Port.judged
  extract_lets f p1 p2 p3 p4
  have h4 : p4.heldDatum = p.heldDatum := by
    unfold p4
    split <;> rfl
  split
  · split
    · exact Port.flush_heldDatum _ _
    · split
      · exact Port.flush_heldDatum _ _
      · rfl
  · split <;> exact h4

/-- Held datums that are judged are held no longer (12 R351). -/
theorem Port.judgeHeld_heldDatum (e : PEnv) (p : Port) : (p.judgeHeld e).heldDatum = [] :=
  List.foldlRecOn (motive := fun q : Port => q.heldDatum = []) _ _ rfl fun q hq d _ => (q.judged_heldDatum e d).trans hq

/-- Every port's held datums are judged, port by port. -/
def State.judgePorts (s : State) : State :=
  (List.range 24).foldl (fun (t : State) q => t.onPort q t.now16 (fun e p => p.judgeHeld e)) s

theorem State.judgePorts_plat (s : State) : s.judgePorts.plat = s.plat :=
  List.foldlRecOn (motive := fun t : State => t.plat = s.plat) _ _ rfl fun t ht q _ =>
    (congrArg State.plat (t.onPort_frame q t.now16 _).1).trans ht

theorem State.judgePorts_stands (s : State) : PlatStands s s.judgePorts :=
  (PlatStands.refl s).foldl fun _ _ hx => hx.onPort

/-- The ports that a fold over `l` judges hold no datum. -/
theorem State.judgePorts_heldDatum_of_mem {l : List Nat} {s : State} {q : Nat} (hq : q < 24) (h : q ∈ l ∨ (s.port q).heldDatum = []) :
    ((l.foldl (fun (t : State) q => t.onPort q t.now16 (fun e p => p.judgeHeld e)) s).port q).heldDatum = [] := by
  induction l generalizing s with
  | nil => exact h.resolve_left List.not_mem_nil
  | cons a l ih =>
    refine ih ?_
    by_cases ha : q = a
    · subst ha
      refine .inr ?_
      rw [State.port_onPort_self _ _ _ _ hq]
      exact Port.judgeHeld_heldDatum _ _
    · rw [(s.onPort_frame a s.now16 _).2 q ha]
      exact h.imp_left fun hm => (List.mem_cons.mp hm).resolve_left ha

theorem State.judgePorts_heldDatum (s : State) {q : Nat} (hq : q < 24) : (s.judgePorts.port q).heldDatum = [] :=
  State.judgePorts_heldDatum_of_mem hq (.inl (List.mem_range.mpr hq))

/-- CUT_STAT shows a cut-over abandoned with `reason` (11 Table 11-8). -/
structure ShowsAbandon (reason : Nat) (s : State) : Prop where
  flag : s.bit CUT_STAT_ABANDONED = true
  code : s.rd CUT_STAT_REASON = reason

namespace ShowsAbandon
variable {reason : Nat} {s t : State}

theorem of_hub (h : ShowsAbandon reason s) (hub : t.hub = s.hub) : ShowsAbandon reason t := by
  refine ⟨?_, ?_⟩
  · rw [State.bit, hub]
    exact h.flag
  · rw [State.rd, hub]
    exact h.code

theorem stands (h : ShowsAbandon reason s) (hs : PlatStands s t) : ShowsAbandon reason t :=
  ⟨(hs.bit rfl).trans h.flag, (hs.rd rfl).trans h.code⟩

/-- A write of a field apart from both. -/
theorem wr {f : Field} {v i : Nat} (h : ShowsAbandon reason s)
    (ha : (f.hubApart CUT_STAT_ABANDONED i 0 0 0 && f.hubApart CUT_STAT_REASON i 0 0 0) = true) :
    ShowsAbandon reason (s.wr f v i) := by
  obtain ⟨hflag, hcode⟩ := Bool.and_eq_true_iff.mp ha
  exact ⟨(State.bit_wr_apart _ _ _ _ _ _ _ _ hflag).trans h.flag, (State.rd_wr_apart _ _ _ _ _ _ _ _ hcode).trans h.code⟩

theorem wrHash {w : List Word} (h : ShowsAbandon reason s) : ShowsAbandon reason (s.wrHash PLAT_HASH_S_HASH w) := by
  have hapart : ∀ i ∈ List.range 12, (PLAT_HASH_S_HASH.hubApart CUT_STAT_ABANDONED i 0 0 0 &&
      PLAT_HASH_S_HASH.hubApart CUT_STAT_REASON i 0 0 0) = true := by decide
  exact List.foldlRecOn (motive := ShowsAbandon reason) _ _ h fun x hx i hi => hx.wr (hapart i hi)

/-- What abandonment writes. -/
theorem written (hr : reason < 16) : ShowsAbandon reason (((s.set1 CUT_STAT_ABANDONED).wr CUT_STAT_REASON reason).wr CUT_STAT_REVOK 0) := by
  refine ⟨?_, ?_⟩
  · rw [State.bit_wr_apart _ _ _ _ 0 0 0 0 (by decide), State.bit_wr_apart _ _ _ _ 0 0 0 0 (by decide)]
    exact s.bit_wr_self CUT_STAT_ABANDONED 1 0 0 (by decide)
  · rw [State.rd_wr_apart _ _ _ _ 0 0 0 0 (by decide), State.rd_wr_self _ _ _ 0 0 (by decide)]
    exact Nat.mod_eq_of_lt hr

end ShowsAbandon

/-- Shadows that are cleared change regions alone. -/
theorem State.clearShadow_parts (s : State) : s.clearShadow.hub = s.hub ∧ s.clearShadow.fns = s.fns ∧ s.clearShadow.plat = s.plat :=
  List.foldlRecOn (motive := fun t : State => t.hub = s.hub ∧ t.fns = s.fns ∧ t.plat = s.plat) _ _ ⟨rfl, rfl, rfl⟩
    fun t ht n _ => by simpa using ht

theorem State.wrHash_parts (s : State) (f : Field) (w : List Word) : (s.wrHash f w).fns = s.fns ∧ (s.wrHash f w).plat = s.plat :=
  List.foldlRecOn (motive := fun t : State => t.fns = s.fns ∧ t.plat = s.plat) _ _ ⟨rfl, rfl⟩ fun _ ht _ _ => ht

/-- Outcomes of items are those of the functions' rings. -/
theorem State.doneWith_of_fns {s t : State} {i : ItemRef} {a b : Nat} (h : t.fns = s.fns) (hd : s.doneWith i a b) :
    t.doneWith i a b := by
  unfold State.doneWith State.ring State.fn
  rw [h]
  exact hd

/-- The first part of abandonment: CUT_STAT, the record and the item's completion. -/
def State.reportAbandon (s : State) (i : ItemRef) (reason : Nat) : State :=
  ((((s.set1 CUT_STAT_ABANDONED).wr CUT_STAT_REASON reason).wr CUT_STAT_REVOK 0).raise
    { cls := 2, subtype := 0x70, level := 3, specific := reason }).finish i 8 reason

/-- The registers of a cut-over that is no longer under way. -/
def State.clearNeeds (s : State) : State :=
  let s := ((s.wr CUT_STAT_STATE 0).wr CUT_NEED_RGN 0).wr CUT_NEED_HUB 0
  (((s.wr CUT_ACK_RGN 0).wr CUT_ACK_HUB 0).wr CUT_ACK_ARMED 0).wr CUT_ACK_PARTNERS 0

/-- The shadow plat is dropped with them. -/
def State.clearCut (s : State) : State := (s.clearNeeds.wrHash PLAT_HASH_S_HASH []).clearShadow

/-- The plat's own state of a cut-over that is over, with what the shadow banks hold. -/
def State.endCut (s : State) (shadow : Option Plat) : State :=
  { s with plat := { s.plat with load := none, cutF := none, switch := false, shadow := shadow } }

theorem State.endCut_hub (s : State) (shadow : Option Plat) : (s.endCut shadow).hub = s.hub := rfl
theorem State.endCut_fns (s : State) (shadow : Option Plat) : (s.endCut shadow).fns = s.fns := rfl
theorem State.endCut_plat (s : State) (shadow : Option Plat) : (s.endCut shadow).plat =
    { s.plat with load := none, cutF := none, switch := false, shadow := shadow } := rfl

/-- The second part of abandonment: the shadow banks stay under reason 3 and are cleared else (11 R331). -/
def State.dropCut (s : State) (reason : Nat) : State :=
  if reason = 3 then (s.wr CUT_STAT_STATE 4).endCut s.plat.shadow else s.clearCut.endCut none

theorem State.cutAbandon_eq {s : State} {l : LoadSt} (hload : s.plat.load = some l) (hcut : l.cut = true) (reason : Nat) :
    s.cutAbandon reason = (s.reportAbandon l.item reason).dropCut reason := by
  unfold State.cutAbandon
  rw [hload]
  exact if_neg (by simp [hcut])

theorem State.reportAbandon_plat (s : State) (i : ItemRef) (reason : Nat) : (s.reportAbandon i reason).plat = s.plat :=
  ((Noted.refl (((s.set1 CUT_STAT_ABANDONED).wr CUT_STAT_REASON reason).wr CUT_STAT_REVOK 0)).raise.finish).plat

theorem State.reportAbandon_shows (s : State) (i : ItemRef) {reason : Nat} (hr : reason < 16) :
    ShowsAbandon reason (s.reportAbandon i reason) :=
  ((ShowsAbandon.written hr).stands (PlatStands.refl _).raise).of_hub (State.setFn_hub _ _ _)

theorem State.reportAbandon_done {s : State} {i : ItemRef} {reason : Nat} (h : s.waits i) :
    (s.reportAbandon i reason).doneWith i 8 reason :=
  State.doneWith_finish ((PlatStands.refl (((s.set1 CUT_STAT_ABANDONED).wr CUT_STAT_REASON reason).wr CUT_STAT_REVOK 0)).raise.waits h)

theorem ShowsAbandon.clearNeeds {reason : Nat} {s : State} (h : ShowsAbandon reason s) : ShowsAbandon reason s.clearNeeds := by
  refine .wr (.wr (.wr (.wr (.wr (.wr (.wr h ?_) ?_) ?_) ?_) ?_) ?_) ?_ <;> decide

theorem ShowsAbandon.clearCut {reason : Nat} {s : State} (h : ShowsAbandon reason s) : ShowsAbandon reason s.clearCut := by
  have hhash : ShowsAbandon reason (s.clearNeeds.wrHash PLAT_HASH_S_HASH []) := h.clearNeeds.wrHash
  exact hhash.of_hub (State.clearShadow_parts (s.clearNeeds.wrHash PLAT_HASH_S_HASH [])).1

theorem State.clearCut_fns (s : State) : s.clearCut.fns = s.fns := by
  rw [State.clearCut, (State.clearShadow_parts _).2.1, (State.wrHash_parts _ _ _).1]
  simp only [State.clearNeeds, State.wr_fns]

theorem State.clearCut_plat (s : State) : s.clearCut.plat = s.plat := by
  rw [State.clearCut, (State.clearShadow_parts _).2.2, (State.wrHash_parts _ _ _).2]
  simp only [State.clearNeeds, State.wr_plat]

theorem ShowsAbandon.dropCut {reason : Nat} {s : State} (h : ShowsAbandon reason s) : ShowsAbandon reason (s.dropCut reason) := by
  unfold State.dropCut
  split
  · exact (h.wr (f := CUT_STAT_STATE) (v := 4) (i := 0) (by decide)).of_hub (State.endCut_hub _ _)
  · exact h.clearCut.of_hub (State.endCut_hub _ _)

theorem State.dropCut_fns (s : State) (reason : Nat) : (s.dropCut reason).fns = s.fns := by
  unfold State.dropCut
  split
  · rfl
  · rw [State.endCut_fns, State.clearCut_fns]

/-- The plat's own state after abandonment. -/
theorem State.dropCut_plat (s : State) (reason : Nat) : (s.dropCut reason).plat =
    { s.plat with load := none, cutF := none, switch := false, shadow := if reason = 3 then s.plat.shadow else none } := by
  unfold State.dropCut
  split
  · rfl
  · rw [State.endCut_plat, s.clearCut_plat]

/-- The cut-over `l` is over, abandoned with `reason`; `s` is the state before (11 R326, R331). -/
structure Abandoned (s : State) (l : LoadSt) (reason : Nat) (t : State) : Prop where
  plat : t.plat = { s.plat with load := none, cutF := none, switch := false, shadow := if reason = 3 then s.plat.shadow else none }
  shows : ShowsAbandon reason t
  done : s.waits l.item → t.doneWith l.item 8 reason

/-- What abandonment leaves. -/
theorem State.cutAbandon_abandoned {s : State} {l : LoadSt} {reason : Nat} (hload : s.plat.load = some l) (hcut : l.cut = true)
    (hr : reason < 16) : Abandoned s l reason (s.cutAbandon reason) := by
  rw [State.cutAbandon_eq hload hcut]
  refine ⟨?_, (s.reportAbandon_shows l.item hr).dropCut, fun hw =>
    State.doneWith_of_fns (State.dropCut_fns _ _) (State.reportAbandon_done hw)⟩
  rw [State.dropCut_plat, State.reportAbandon_plat]

/-- The state that the decision leaves before the held datums are judged: the switch flag, or the cut-over abandoned (11 R323, R326). -/
def State.decided (s : State) (l : LoadSt) (late wd : Bool) : State :=
  let t := s.wr CUT_ACK_PARTNERS (if s.partnersOk l then 1 else 0)
  if late then t.cutAbandon 1
  else if wd then t.cutAbandon 2
  else if !s.partnersOk l then t.cutAbandon 3
  else { t with plat := { t.plat with switch := true } }

section Decision
variable {s : State} {l : LoadSt} (hload : s.plat.load = some l) (hcut : l.cut = true)
include hload

/-- A frame whose decision point is not this one. -/
theorem exec_decisionPoint_early {f : Nat} (hf : s.plat.cutF = some f) (hnot : s.frame.num + 1 ≠ f) :
    exec .decisionPoint s = .next s := by
  show execDecisionPoint s = _
  rw [execDecisionPoint, hload, hf]
  exact if_pos (.inl hnot)

include hcut

/-- The decision point in the frame before F. -/
theorem exec_decisionPoint_due {f : Nat} {late wd : Bool} (hsw : s.plat.switch = false) (hf : s.plat.cutF = some f)
    (hdue : s.frame.num + 1 = f)
    (hlate : late = true ↔ (∃ n, n < 24 ∧ (s.rd CUT_NEED_RGN).testBit n = true ∧ (s.rd CUT_ACK_RGN).testBit n = false ∧
      (s.region n).bit RGN_SHADOW_WITHDRAWN = false) ∨ s.bit CUT_NEED_HUB = true ∧ s.bit CUT_ACK_HUB = false)
    (hwd : wd = true ↔ ∃ n, n < 24 ∧ (s.rd CUT_NEED_RGN).testBit n = true ∧ (s.region n).bit RGN_SHADOW_WITHDRAWN = true) :
    exec .decisionPoint s = .next (State.platVec s (s.decided l late wd).judgePorts) := by
  have hlate' : ((List.range 24).any (fun n => (s.rd CUT_NEED_RGN).testBit n && !(s.rd CUT_ACK_RGN).testBit n &&
      !(s.region n).bit RGN_SHADOW_WITHDRAWN) || (s.bit CUT_NEED_HUB && !s.bit CUT_ACK_HUB)) = late := by
    rw [Bool.eq_iff_iff, hlate]
    simp [and_assoc]
  have hwd' : (List.range 24).any (fun n => (s.rd CUT_NEED_RGN).testBit n && (s.region n).bit RGN_SHADOW_WITHDRAWN) = wd := by
    rw [Bool.eq_iff_iff, hwd]
    simp
  show execDecisionPoint s = _
  rw [execDecisionPoint, hload, hf]
  dsimp only
  rw [if_neg (by simp [hdue, hsw, hcut]), hlate', hwd']
  rfl

/-- An abandoned decision: its reason, and what is left. -/
theorem State.decided_abandoned {late wd : Bool} (h : late = true ∨ wd = true ∨ s.partnersOk l = false) :
    Abandoned s l (if late then 1 else if wd then 2 else 3) (s.decided l late wd) := by
  have habandon : ∀ reason, reason < 16 →
      Abandoned s l reason ((s.wr CUT_ACK_PARTNERS (if s.partnersOk l then 1 else 0)).cutAbandon reason) :=
    fun reason hr =>
      have hab : Abandoned (s.wr CUT_ACK_PARTNERS (if s.partnersOk l then 1 else 0)) l reason _ := State.cutAbandon_abandoned hload hcut hr
      ⟨hab.plat, hab.shows, hab.done⟩
  unfold State.decided
  cases late with
  | true => exact habandon 1 (by decide)
  | false =>
    cases wd with
    | true => exact habandon 2 (by decide)
    | false =>
      have hok : s.partnersOk l = false := (h.resolve_left (by decide)).resolve_left (by decide)
      simp only [hok] at habandon ⊢
      exact habandon 3 (by decide)

end Decision

/-- The partner set is armed and nothing is missing: the switch flag is set (11 R323, R330). -/
theorem State.decided_switch {s : State} {l : LoadSt} (hok : s.partnersOk l = true) :
    (s.decided l false false).plat = { s.plat with switch := true } ∧ (s.decided l false false).bit CUT_ACK_PARTNERS = true := by
  unfold State.decided
  simp only [hok]
  exact ⟨rfl, s.bit_wr_self CUT_ACK_PARTNERS 1 0 0 (by decide)⟩

section Idle
variable {s : State} (hidle : s.plat.load = none ∨ (∃ l, s.plat.load = some l ∧ l.cut = false) ∨ s.plat.switch = true)
include hidle

/-- What is loading where no cut-over waits for its decision is no cut-over, or is decided. -/
theorem cut_or_switch_of_idle {l : LoadSt} (hload : s.plat.load = some l) : l.cut = false ∨ s.plat.switch = true := by
  rcases hidle with h | ⟨k, hk, hcut⟩ | h
  · cases hload.symm.trans h
  · cases hload.symm.trans hk
    exact .inl hcut
  · exact .inr h

theorem exec_cutAcknowledge_idle (n : Nat) : exec (.cutAcknowledge n) s = .next s := by
  show execCutAcknowledge n s = _
  unfold execCutAcknowledge
  split
  · rfl
  · next l hload =>
    split
    · rfl
    · refine if_pos ?_
      rcases cut_or_switch_of_idle hidle hload with h | h <;> simp [h]

theorem exec_cutWithdrawal_idle (n : Nat) : exec (.cutWithdrawal n) s = .next s := by
  show execCutWithdrawal n s = _
  unfold execCutWithdrawal
  split
  · rfl
  · next l hload =>
    refine if_pos ?_
    rcases cut_or_switch_of_idle hidle hload with h | h <;> simp [h]

theorem exec_decisionPoint_idle : exec .decisionPoint s = .next s := by
  show execDecisionPoint s = _
  unfold execDecisionPoint
  split
  · next l f hload _ =>
    refine if_pos ?_
    rcases cut_or_switch_of_idle hidle hload with h | h <;> simp [h]
  · rfl

end Idle

/-- Settles O43: an acknowledgement or a withdrawal rewrites CUT_ACK and one region (`State.ackTo`), and the decision is the switch flag
or one of three abandonments (`State.decided`), followed by the ports' held datums. -/
theorem cutOversDecide : Obligations.CutOversDecide := by
  refine ⟨fun s => ⟨fun hidle => ?_, fun hF => ?_⟩, fun s l hload hcut hsw => ⟨fun n hn => ⟨exec_cutAcknowledge_held hload,
    fun p ok hp hlost hneed hrecq hok => ?_, exec_cutWithdrawal_held hload, fun hack hrecq => ?_⟩,
    fun f hf => ⟨exec_decisionPoint_early hload hf, fun late wd hdue hlate hwd => ?_⟩⟩⟩
  · exact ⟨fun n => ⟨exec_cutAcknowledge_idle hidle n, exec_cutWithdrawal_idle hidle n⟩, exec_decisionPoint_idle hidle⟩
  · show execDecisionPoint s = _
    rw [execDecisionPoint, hF]
    split
    · next h => cases h
    · rfl
  · rw [exec_cutAcknowledge_asked hload hcut hsw hp hlost hneed hrecq]
    replace hok : ok = (s.region n).stepOk n p := hok
    rw [← hok]
    refine ⟨fun hyes hsame hstay => ?_, fun hno => ?_⟩
    · rw [if_pos (by rw [hyes, hsame, hstay, beq_self_eq_true]; rfl)]
      exact ⟨_, rfl, (congrArg (fun g : Region => g.bit RGN_SHADOW_ARMED) (State.ackTo_region_self hn)).trans (Region.bit_armed_set1 _),
        State.ackTo_ack _ _ _ _, fun m hm => State.ackTo_region_ne hm, State.ackTo_state _ _ _ _⟩
    · rw [if_neg]
      · exact ⟨_, rfl, State.setRegion_hub _ _ _, State.region_setRegion_self _ _ _ hn, fun m hm =>
          State.region_setRegion_ne _ _ _ _ hm⟩
      · simp only [Bool.and_eq_true, beq_iff_eq, Bool.not_eq_true', not_and, Bool.not_eq_false]
        exact fun ⟨hyes, hsame⟩ => (hno.resolve_left (by simp [hyes])).resolve_left fun hne => hne hsame
  · refine ⟨_, exec_cutWithdrawal_asked hload hcut hsw hack hrecq, ?_, ?_, ?_, fun m hm => State.ackTo_region_ne hm, fun hsame => ?_⟩
    · rw [State.ackTo_ack, Nat.testBit_mod_two_pow, testBit_setBitNat_false, Bool.and_false]
    · rw [State.ackTo_region_self hn]
      exact Region.withdraw_withdrawn _ _
    · rw [State.ackTo_region_self hn]
      exact Region.withdraw_armed _ _
    · rw [State.ackTo_region_self hn, beq_iff_eq.mpr hsame]
      exact Region.withdraw_sberr _
  · have hstands : PlatStands (s.decided l late wd) (State.platVec s (s.decided l late wd).judgePorts) :=
      (State.judgePorts_stands _).platVec
    have hplat : (State.platVec s (s.decided l late wd).judgePorts).plat = (s.decided l late wd).plat :=
      (Noted.refl _).platVec.plat.trans (State.judgePorts_plat _)
    refine ⟨_, exec_decisionPoint_due hload hcut hsw hf hdue hlate hwd, fun q hq => ?_, fun hl hw hok => ?_, fun hno => ?_⟩
    · rw [(Noted.refl _).platVec.port q]
      exact State.judgePorts_heldDatum _ hq
    · subst hl hw
      obtain ⟨hswitch, hbit⟩ := State.decided_switch hok
      exact ⟨hplat.trans hswitch, (hstands.bit rfl).trans hbit⟩
    · obtain ⟨hend, hshows, hdone⟩ := State.decided_abandoned hload hcut hno
      obtain ⟨hflag, hcode⟩ := hshows.stands hstands
      rw [hplat, hend]
      refine ⟨rfl, rfl, rfl, hflag, hcode, ?_, fun hw => hstands.doneWith (hdone hw)⟩
      cases late <;> cases wd <;> rfl

end Sys2Proof.Machine

/-!
PROOFS. The cell array (03_cell_array.md): how a matrix command at the head issues, waits or is refused (R61, R64 to R66, 04 R121), and
what a tile's drain cycle 64 brings (R83 to R88).
-/
namespace Sys2Proof.Machine

/-! ## What the operations of a block leave -/

/-- A saturating count leaves every field apart from it and from its flag. -/
theorem Regs.rd_incSat_apart {r : Regs} {c sat f : Field} {i n k l : Nat} (hc : c.apart f i 0 k l = true)
    (hs : sat.apart f i 0 k l = true) : (r.incSat c sat i n).rd f k l = r.rd f k l := by
  unfold Regs.incSat
  dsimp only
  split
  · rw [Regs.rd_wr_apart _ _ _ _ _ _ _ _ hs, Regs.rd_wr_apart _ _ _ _ _ _ _ _ hc]
  · exact Regs.rd_wr_apart _ _ _ _ _ _ _ _ hc

/-- A record changes the block's record queue and its count of lost records (06 R184). -/
theorem Block.raise_only (e : Env) (b : Block) (r : ErrRec) :
    b.raise e r = { b with regs := (b.raise e r).regs, srcseq := b.srcseq + 1, recq := (b.raise e r).recq
                           rdrop := (b.raise e r).rdrop } := by
  unfold Block.raise
  dsimp only
  split
  · rfl
  · split
    · split <;> rfl
    · rfl

/-- A record leaves every register bit outside SC_REC. -/
theorem Block.bit_raise {e : Env} {b : Block} {r : ErrRec} {f : Field} (hc : SC_REC_LOST.apart f 0 0 0 0 = true)
    (hs : SC_REC_LSAT.apart f 0 0 0 0 = true) : (b.raise e r).bit f = b.bit f := by
  have hinc : (b.regs.incSat SC_REC_LOST SC_REC_LSAT 0 1).bit f 0 0 = b.regs.bit f 0 0 := by
    rw [Regs.bit, Regs.rd_incSat_apart hc hs, Regs.bit]
  unfold Block.raise
  dsimp only
  split
  · rfl
  · split
    · split <;> exact hinc
    · exact hinc

/-- An event changes the block's counters and what it hands on (20 R524). -/
theorem Block.count_only (e : Env) (b : Block) (c : Nat) (p : Option Nat) (n : Nat) :
    b.count e c p n = { b with evcs := (b.count e c p n).evcs, evs := (b.count e c p n).evs } := by
  unfold Block.count
  split <;> rfl

@[simp] theorem Block.bit_count (e : Env) (b : Block) (c : Nat) (p : Option Nat) (n : Nat) (f : Field) (i j : Nat) :
    (b.count e c p n).bit f i j = b.bit f i j := by
  rw [Block.count_only]
  rfl

/-- What the sets show leaves every other bit of the block. -/
theorem Block.bit_showSets {b : Block} {t : Nat} {f : Field} (h0 : BLK_MX_STAT_SET0.apart f 0 0 0 0 = true)
    (h1 : BLK_MX_STAT_SET1.apart f 0 0 0 0 = true) (hb : BLK_MX_STAT_BUSY.apart f 0 0 0 0 = true) :
    (b.showSets t).bit f = b.bit f := by
  unfold Block.showSets
  rw [Block.bit_wr_apart _ _ _ _ _ _ _ _ hb, Block.bit_wr_apart _ _ _ _ _ _ _ _ h1, Block.bit_wr_apart _ _ _ _ _ _ _ _ h0]

/-! ## The sequencer stands -/

@[simp] theorem Block.seq_count (e : Env) (b : Block) (c : Nat) (p : Option Nat) (n : Nat) : (b.count e c p n).seq = b.seq := by
  rw [Block.count_only]

@[simp] theorem Block.seq_raise (e : Env) (b : Block) (r : ErrRec) : (b.raise e r).seq = b.seq := by
  rw [Block.raise_only]

@[simp] theorem Block.seq_wr (b : Block) (f : Field) (v i j : Nat) : (b.wr f v i j).seq = b.seq := rfl
@[simp] theorem Block.seq_set1 (b : Block) (f : Field) : (b.set1 f).seq = b.seq := rfl
@[simp] theorem Block.seq_showSets (b : Block) (t : Nat) : (b.showSets t).seq = b.seq := rfl
@[simp] theorem Block.seq_mxLast (b : Block) (tag pass : Nat) (f : FailAt) : (b.mxLast tag pass f).seq = b.seq := rfl
@[simp] theorem Block.seq_accumulate (b : Block) (c : Cmd) (r : Run) (v : List Word) : (b.accumulate c r v).seq = b.seq := rfl

@[simp] theorem Block.seq_spBreach (e : Env) (b : Block) (sub ring slot : Nat) (td : Bool) :
    (b.spBreach e sub ring slot td).seq = b.seq := Block.seq_raise _ _ _

@[simp] theorem Block.seq_granCheck (e : Env) (b : Block) (ring slot lo hi : Nat) : (b.granCheck e ring slot lo hi).seq = b.seq := by
  unfold Block.granCheck
  split
  · rfl
  · exact Block.seq_spBreach _ _ _ _ _ _

@[simp] theorem Block.seq_eccOne (e : Env) (b : Block) (g st : Nat) : (b.eccOne e g st).seq = b.seq := by
  unfold Block.eccOne
  dsimp only
  split
  · rw [Block.seq_raise, Block.seq_count]
    rfl
  · rw [Block.seq_raise]
    rfl

/-- A fold of steps that leave the sequencer. -/
theorem Block.seq_foldl {α : Type} {f : Block × Bool → α → Block × Bool} (hf : ∀ y a, (f y a).1.seq = y.1.seq) (l : List α)
    (x : Block × Bool) : (l.foldl f x).1.seq = x.1.seq := by
  induction l generalizing x with
  | nil => rfl
  | cons a t ih => exact (ih _).trans (hf x a)

@[simp] theorem Block.seq_eccReadIf (e : Env) (b : Block) (hit : Nat → Bool) : (b.eccReadIf e hit).1.seq = b.seq :=
  Block.seq_foldl (fun y a => Block.seq_eccOne e y.1 a.1 a.2) _ _

@[simp] theorem Block.seq_portReadIf (e : Env) (b : Block) (ring slot lo hi : Nat) (hit : Nat → Bool) :
    (b.portReadIf e ring slot lo hi hit).1.seq = b.seq :=
  (Block.seq_eccReadIf _ _ _).trans (Block.seq_granCheck _ _ _ _ _ _)

@[simp] theorem Block.seq_portRead (e : Env) (b : Block) (ring slot lo hi : Nat) : (b.portRead e ring slot lo hi).1.seq = b.seq :=
  (Block.seq_eccReadIf _ _ _).trans (Block.seq_granCheck _ _ _ _ _ _)

@[simp] theorem Block.seq_portWrite (e : Env) (b : Block) (ring slot a : Nat) (bs : List Byte) :
    (b.portWrite e ring slot a bs).seq = b.seq := by
  unfold Block.portWrite
  split
  · rfl
  · exact Block.seq_spBreach _ _ _ _ _ _

/-- The operand port's reads of a tile leave the sequencer (03 R66). -/
@[simp] theorem Block.seq_operandReads (e : Env) (b : Block) (c : Cmd) (r : Run) (readBias : Bool) :
    (b.operandReads e c r readBias).1.seq = b.seq := by
  unfold Block.operandReads
  by_cases hk : c.k = 0 <;> cases readBias <;> simp [hk]

/-- The drain path's reads leave the sequencer (Table 5-16). -/
@[simp] theorem Block.seq_drainEcc (e : Env) (b : Block) (d : Drn) (r : Run) (m n : Nat) : (b.drainEcc e d r m n).1.seq = b.seq := by
  unfold Block.drainEcc
  cases d.acc <;> cases d.usesC <;> cases d.rsc <;> simp

@[simp] theorem Block.seq_writeOut (e : Env) (b : Block) (d : Drn) (r : Run) (ringD ofmt : Nat) (o : DrainOut) :
    (b.writeOut e d r ringD ofmt o).seq = b.seq := by
  unfold Block.writeOut
  cases d.rmx <;> simp

@[simp] theorem Block.seq_passDrain (e : Env) (b : Block) (x : QEntry) (r : Run) (p : PassOut) :
    (b.passDrain e x r p).1.seq = b.seq :=
  (Block.seq_writeOut _ _ _ _ _ _ _).trans (Block.seq_drainEcc _ _ _ _ _ _)

@[simp] theorem Block.seq_atRest (b : Block) : b.atRest.seq = b.seq := rfl
@[simp] theorem Block.bit_atRest (b : Block) (f : Field) (i j : Nat) : b.atRest.bit f i j = b.bit f i j := rfl

/-! ## Refusals -/

/-- A queue whose head `x` is refused has no head: the entries with its number are refused, and nothing passes them (06 R176). -/
theorem headOf_refuse {q : List QEntry} {x : QEntry} (h : headOf q = some x) :
    headOf (q.map (fun z => if z.id = x.id then { z with st := .refused } else z)) = none := by
  induction q with
  | nil => rfl
  | cons y t ih =>
    by_cases hid : y.id = x.id
    · simp [headOf, hid]
    · rw [List.map_cons, if_neg hid]
      cases hst : y.st with
      | waiting =>
        simp only [headOf, hst, Option.some.injEq] at h
        exact absurd (congrArg QEntry.id h) hid
      | issued r =>
        simp only [headOf, hst] at h ⊢
        split at h
        · cases h
        · next hw => rw [if_neg hw, ih h]
      | landing r hd at_ =>
        simp only [headOf, hst] at h ⊢
        split at h
        · cases h
        · next hw => rw [if_neg hw, ih h]
      | refused => simp [headOf, hst]

/-- Refusing the head is what 06 R176 says. -/
theorem Block.illegal_refused (e : Env) {b : Block} {x : QEntry} (h : b.head = some x) : Refused b x (b.illegal e x).atRest := by
  have hbit : (b.illegal e x).atRest.bit BLK_MX_STAT_BREACH = true := by
    show (b.illegal e x).bit BLK_MX_STAT_BREACH = true
    rw [Block.illegal, Block.bit_raise (by decide) (by decide), Block.set1, Block.bit_wr_self _ _ _ _ _ (by decide) (by decide)]
    rfl
  have hseq : (b.illegal e x).seq = (b.setEntry x.id (fun y => { y with st := .refused })).seq := by simp [Block.illegal]
  have hq : (b.illegal e x).atRest.seq.q = b.seq.q.map (fun z => if z.id = x.id then { z with st := .refused } else z) := by
    show (b.illegal e x).seq.q = _
    rw [hseq]
    rfl
  refine ⟨hbit, hq, ?_, ?_⟩
  · rw [Block.head, hq]
    exact headOf_refuse h
  · rw [Block.illegal, Block.raise_only]
    exact ⟨rfl, rfl, rfl, rfl⟩

/-! ## Issue -/

/-- Are the slots, the array and the accumulator set of the matrix command `x` there (R65, R66)? -/
def Block.matrixReady (b : Block) (x : QEntry) (cyc : Nat) : Bool :=
  b.sourcesFull x.cmd && b.destsEmpty x.cmd && b.arrayFree cyc &&
    b.setFree (x.keptSet.getD b.seq.nextSet) (b.firstCompute x cyc)

theorem Block.matrixIssue_none {e : Env} {b : Block} (h : b.head = none) : b.matrixIssue e = b := by
  unfold Block.matrixIssue
  rw [h]

section Head
variable {e : Env} {b : Block} {x : QEntry} (h : b.head = some x)
include h

theorem Block.matrixIssue_ready (hopc : x.cmd.opc = 1) (hgood : b.matrixBadHead x.cmd = false) (hready : b.matrixReady x e.cyc = true) :
    b.matrixIssue e = (b.matrixTags x.cmd).elim (b.illegal e x) (fun t => b.issueMatrix e x t.1 t.2) := by
  unfold Block.matrixReady at hready
  unfold Block.matrixIssue
  rw [h]
  simp only [hopc, hgood, hready, if_true, Bool.false_eq_true, if_false]
  cases b.matrixTags x.cmd <;> rfl

theorem Block.matrixIssue_waits (hopc : x.cmd.opc = 1) (hgood : b.matrixBadHead x.cmd = false)
    (hwaits : b.matrixReady x e.cyc = false) : b.matrixIssue e = b := by
  unfold Block.matrixReady at hwaits
  unfold Block.matrixIssue
  rw [h]
  simp only [hopc, hgood, hwaits, if_true, Bool.false_eq_true, if_false]

theorem Block.matrixIssue_badHead (hopc : x.cmd.opc = 1) (hbad : b.matrixBadHead x.cmd = true) :
    b.matrixIssue e = b.illegal e x := by
  unfold Block.matrixIssue
  rw [h]
  simp only [hopc, hbad, if_true]

theorem Block.matrixIssue_reserved (hopc : x.cmd.opc = 0 ∨ 9 ≤ x.cmd.opc) : b.matrixIssue e = b.illegal e x := by
  unfold Block.matrixIssue
  rw [h]
  dsimp only
  rw [if_neg (by omega), if_pos hopc]

theorem Block.matrixIssue_other (hlo : 2 ≤ x.cmd.opc) (hhi : x.cmd.opc ≤ 8) : b.matrixIssue e = b := by
  unfold Block.matrixIssue
  rw [h]
  dsimp only
  rw [if_neg (by omega), if_neg (by omega)]

/-- The three refusals of a head (R64, 04 R121, 06 R176). -/
theorem Block.matrixIssue_refuses
    (hbad : (x.cmd.opc = 1 ∧ b.matrixBadHead x.cmd = true) ∨
      (x.cmd.opc = 1 ∧ b.matrixTags x.cmd = none ∧ b.matrixReady x e.cyc = true) ∨ x.cmd.opc = 0 ∨ 9 ≤ x.cmd.opc) :
    b.matrixIssue e = b.illegal e x := by
  rcases hbad with ⟨hopc, hbad⟩ | ⟨hopc, htags, hready⟩ | hopc
  · exact Block.matrixIssue_badHead h hopc hbad
  · cases hhead : b.matrixBadHead x.cmd with
    | true => exact Block.matrixIssue_badHead h hopc hhead
    | false =>
      rw [Block.matrixIssue_ready h hopc hhead hready, htags]
      rfl
  · exact Block.matrixIssue_reserved h hopc

end Head

/-- The entry of an issued matrix command holds its set, its pair, its first compute cycle and its slots (R61, R65, R66, 04 R121). -/
theorem Block.issueMatrix_entry (e : Env) (b : Block) (x : QEntry) (ta tb : Nat) : ∃ (r : Run) (v : Option (List Word)),
    (b.issueMatrix e x ta tb).seq.q = b.seq.q.map (fun y => if y.id = x.id then
      { y with st := .issued r, keptSet := some (x.keptSet.getD b.seq.nextSet), bias := v } else y) ∧
    r.set = x.keptSet.getD b.seq.nextSet ∧ r.ta = ta ∧ r.tb = tb ∧ r.pass = 0 ∧ r.cyc = e.cyc ∧ r.fc = b.firstCompute x e.cyc ∧
    r.sa = b.headSrc x.cmd.ringA ∧ r.sb = b.headSrc x.cmd.ringB ∧ r.sd = b.headDst x.cmd.ringDM := by
  unfold Block.issueMatrix
  extract_lets c d set readBias fc sub fresh hit r0 r void vec b1 rd void' b2 b3 q3 b4
  refine ⟨{ r with void := void' }, if c.init = 0 then none else some vec, ?_, rfl, rfl, rfl, rfl, rfl, rfl, rfl, rfl, rfl⟩
  have h1 : b1.seq = b.seq := by
    dsimp only [b1]
    split <;> simp
  have h2 : b2.seq = b.seq := by simp [b2, rd, h1]
  have h4 : (if fresh then b4.count e 0x010 (some e.parcel) else b4).seq = b4.seq := by split <;> simp
  rw [Block.seq_showSets, h4]
  show List.map _ b2.seq.q = _
  rw [h2]

/-- Injections spent change the control and its register alone (20 R536). -/
theorem State.spendInj_only (s : State) (n : Nat) :
    s.spendInj n = { s with hub := (s.spendInj n).hub, pert := (s.spendInj n).pert } := by
  unfold State.spendInj
  split
  · rfl
  · dsimp only
    split <;> rfl

/-- A command that makes no step of the block spends no injection: in the gap nothing changes (02 R42). -/
theorem exec_matrixIssue_gap {blk cyc : Nat} {s : State} (hgap : (s.region (regionOf blk)).bit RGN_BEAT_GAP = true) :
    exec (.matrixIssue blk cyc) s = .next s := by
  show execMatrixIssue blk cyc s = _
  simp [execMatrixIssue, State.onIssue, hgap, State.spendInj]

/-- MATRIX_ISSUE outside the gap is a step of its block, beside the injections that it spends. -/
theorem exec_matrixIssue_step {blk cyc : Nat} {s : State} (hblk : blk < 4608) (hruns : s.runs blk = true)
    (hgap : (s.region (regionOf blk)).bit RGN_BEAT_GAP = false) : ∃ t, exec (.matrixIssue blk cyc) s = .next t ∧
      t.block blk = ((s.blockAt blk cyc).matrixIssue (s.env blk cyc)).atRest ∧ (∀ k, k ≠ blk → t.block k = s.block k) ∧
      t = { s with blocks := t.blocks, hub := t.hub, regions := t.regions, evcs := t.evcs, pert := t.pert } := by
  refine ⟨_, rfl, ?_, fun k hk => ?_, ?_⟩
  all_goals rw [State.spendInj_only]
  · refine Eq.trans ?_ (State.block_onLive_self s blk cyc (fun e b => b.matrixIssue e) hblk hruns)
    rw [State.onIssue_eq _ _ _ _ hgap]
    rfl
  · obtain ⟨-, hothers, -⟩ := State.onIssue_frame s blk cyc (fun e b => b.matrixIssue e)
    exact hothers k hk
  · obtain ⟨hstate, -⟩ := State.onIssue_frame s blk cyc (fun e b => b.matrixIssue e)
    generalize s.onIssue blk cyc (fun e b => b.matrixIssue e) = u at *
    rw [hstate]

/-- Settles O23: the head decides, and what it decides is a step of its block (`exec_matrixIssue_step`). -/
theorem matrixIssue : Obligations.MatrixIssue := by
  intro blk cyc s B hblk hruns hB
  have hstep := exec_matrixIssue_step (cyc := cyc) hblk hruns
  rw [← hB] at hstep
  have hcyc : (s.env blk cyc).cyc = cyc := rfl
  generalize s.env blk cyc = e at hstep hcyc ⊢
  refine ⟨fun x set hgap hhead hset => ?_, fun hgap hhead => ?_, exec_matrixIssue_gap⟩
  all_goals obtain ⟨t, hexec, hblock, hothers, honly⟩ := hstep hgap
  · subst hset
    refine ⟨fun hopc hgood => ⟨fun hready ta tb htags => ?issues, fun hwaits => ⟨t, hexec, ?waits⟩⟩,
      fun hbad => ⟨t, hexec, ?refused⟩, fun hlo hhi => ⟨t, hexec, ?other⟩⟩
    case issues =>
      rw [Block.matrixIssue_ready hhead hopc hgood (hcyc ▸ hready), htags] at hblock
      obtain ⟨r, v, hq, hset, hta, htb, hpass, hcycle, hfc, hslots⟩ := B.issueMatrix_entry e x ta tb
      rw [hcyc] at hcycle hfc
      refine ⟨t, r, hexec, hblock, hothers, honly, ⟨v, ?_⟩, hset, hta, htb, hpass, hcycle, hfc, hslots⟩
      rw [hblock]
      exact hq
    case waits => rw [hblock, Block.matrixIssue_waits hhead hopc hgood (hcyc ▸ hwaits)]
    case refused =>
      rw [hblock, Block.matrixIssue_refuses hhead (hcyc ▸ hbad)]
      exact Block.illegal_refused _ hhead
    case other => rw [hblock, Block.matrixIssue_other hhead hlo hhi]
  · exact ⟨t, hexec, by rw [hblock, Block.matrixIssue_none hhead]⟩

/-! ## Cycles that pass before an outcome -/

/-- A word stored elsewhere leaves a field. -/
theorem Regs.rd_setWord_ne {r : Regs} {u : RegUnit} {o : Nat} {v : Word} {f : Field} {k l : Nat} (hu : f.unit = u)
    (h : f.at k l ≠ o) : (r.setWord u o v).rd f k l = r.rd f k l := by
  subst hu
  rw [Regs.rd, Regs.word_setWord_ne _ _ _ _ _ h, Regs.rd]

/-- The causes of delay are numbered 1 to 7 (Table 2-10). -/
theorem Block.cause_le (e : Env) (b : Block) (c : Nat) : b.cause e c ≤ 7 := by
  unfold Block.cause
  dsimp only
  repeat' split
  all_goals omega

/-- The check unit's bytes leave every field above its registers. -/
theorem Block.rd_chkRun_above {b : Block} {dt : Nat} {f : Field} (hu : f.unit = .block) (h : 0x148 < f.at 0 0) :
    (b.chkRun dt).rd f = b.rd f := by
  unfold Block.chkRun Block.chkTake
  split
  · rfl
  · split
    · rfl
    · show ((b.regs.wr CHK_CTL_POLY _).chkShow .block 0x144 0x148 _ _).rd f 0 0 = b.regs.rd f 0 0
      have hpoly : f.at 0 0 ≠ CHK_CTL_POLY.at 0 0 := by
        show f.at 0 0 ≠ 0x140
        omega
      rw [Regs.chkShow, Regs.rd_setWord_ne hu (by omega), Regs.rd_setWord_ne hu (by omega), Regs.rd_wr_at _ _ _ _ _ _ _ _ hu hpoly]

/-- Cycles that pass leave every field above the delay's and the check unit's registers. -/
theorem Block.rd_span_above {e : Env} {b : Block} {t : Nat} {f : Field} (hu : f.unit = .block) (h : 0x148 < f.at 0 0) :
    (b.span e t).rd f = b.rd f := by
  unfold Block.span
  split
  · rfl
  · extract_lets dt d0 d c b1 b2 b3 b4 b5
    have hcount : ∀ (y : Block) (k : Nat) (p : Option Nat) (n : Nat), (y.count e k p n).rd f = y.rd f := fun y k p n => by
      rw [Block.count_only]
      rfl
    have h1 : b1.rd f = b.rd f := by
      have hdelay : f.at 0 0 ≠ SEQ_DELAY_DELAY.at 0 0 := by
        show f.at 0 0 ≠ 0x104
        omega
      have hcause : f.at 0 0 ≠ SEQ_CHG_CYC.at (c - 1) 0 := by
        have hle : c ≤ 7 := Block.cause_le _ _ _
        show f.at 0 0 ≠ 0x108 + (c - 1) * 4 + 0 * 0
        omega
      dsimp only [b1]
      split
      · exact (Regs.rd_wr_at _ _ _ _ _ _ _ _ hu hcause).trans (Regs.rd_wr_at _ _ _ _ _ _ _ _ hu hdelay)
      · rfl
    have h4 : b4.rd f = b.rd f := by
      have h3 : b3.rd f = b.rd f := by rw [← h1, hcount, hcount]
      dsimp only [b4]
      split
      · rw [hcount, h3]
      · exact h3
    have h5 : b5.rd f = (b4.chkRun dt).rd f := by
      dsimp only [b5]
      unfold Block.coreCycles
      split <;> rfl
    show b5.rd f = _
    rw [h5, Block.rd_chkRun_above hu h, h4]

@[simp] theorem Block.tenant_span (e : Env) (b : Block) (t : Nat) : (b.span e t).tenant e = b.tenant e := by
  obtain ⟨-, -, -, -, -, -, -, -, htest, -⟩ := (Timed.refl b).span (e := e) (t := t)
  rw [Block.tenant, htest, Block.tenant]

/-- A pass compares the same values before and after cycles that pass. -/
@[simp] theorem Block.passOf_span (e : Env) (b : Block) (t : Nat) (c : Cmd) (r : Run) (fs : List CellFault) :
    (b.span e t).passOf c r fs = b.passOf c r fs := by
  obtain ⟨⟨-, -, -, -, hsets⟩, -⟩ := (Timed.refl b).span (e := e) (t := t)
  unfold Block.passOf Block.acc
  rw [Block.rd_span_above rfl (by decide), Block.rd_span_above rfl (by decide), hsets]

@[simp] theorem Block.seq_chkRun (b : Block) (dt : Nat) : (b.chkRun dt).seq = b.seq := by
  unfold Block.chkRun Block.chkTake
  split
  · rfl
  · split <;> rfl

@[simp] theorem Block.seq_coreCycles (b : Block) (dt : Nat) : (b.coreCycles dt).seq = b.seq := by
  unfold Block.coreCycles
  split <;> rfl

/-- Cycles that pass move the sequencer's own cycle alone. -/
theorem Block.seq_span (e : Env) (b : Block) (t : Nat) : (b.span e t).seq = { b.seq with lastCyc := max t b.seq.lastCyc } := by
  unfold Block.span
  split
  · next h => rw [Nat.max_eq_right h]
  · next h =>
    extract_lets dt d0 d c b1 b2 b3 b4 b5
    have h1 : b1.seq = b.seq := by
      dsimp only [b1]
      split <;> rfl
    have h4 : b4.seq = b.seq := by
      dsimp only [b4]
      split <;> simp [b3, b2, h1]
    have h5 : b5.seq = b.seq := by simp [b5, h4]
    show ({ b5.seq with lastCyc := t } : Seqr) = _
    rw [h5, Nat.max_eq_left (by omega)]

/-! ## Drain cycle 64 (R83 to R88) -/

/-- The block at the end of drain cycle 64 of a pass of `x`, with the cycles and the operand reads of the pass counted
(20 Table 20-1). -/
def Block.countPass (e : Env) (b : Block) (x : QEntry) (r : Run) : Block :=
  let cc := computeCycles r.ta r.tb x.cmd.k
  (((b.span e (e.cyc + 1)).count e (if b.tenant e then 0x003 else 0x004) (some e.parcel) cc).count e 0x005 (some e.parcel)
    (r.ce - r.fc - cc - r.skip)).count e 0x020 (some e.parcel) (cc + (if r.pass = 0 ∧ x.cmd.init ≠ 0 then 1 else 0))

/-- The block after a pass whose comparison `f` failed: its rows are written, and BLK_MX_LAST names the mismatch (R69, R93). -/
def Block.failPass (e : Env) (b : Block) (x : QEntry) (r : Run) (p : PassOut) (f : FailAt) : Block :=
  ((b.countPass e x r).passDrain e x r p).1.mxLast x.cmd.tag r.pass f

/-- A failed pass leaves the sequencer but for its own cycle. -/
theorem Block.seq_failPass (e : Env) (b : Block) (x : QEntry) (r : Run) (p : PassOut) (f : FailAt) :
    (b.failPass e x r p f).seq = { b.seq with lastCyc := max (e.cyc + 1) b.seq.lastCyc } := by
  simp [Block.failPass, Block.countPass, Block.seq_span]

theorem Block.tileOutcome_none {e : Env} {b : Block} (fs : List CellFault) (h : b.draining = none) : b.tileOutcome e fs = b := by
  unfold Block.tileOutcome
  rw [h]

section Draining
variable {e : Env} {b : Block} {x : QEntry} {r : Run} {fs : List CellFault} (h : b.draining = some (x, r))
include h

theorem Block.tileOutcome_early (hearly : x.cmd.opc ≠ 1 ∨ e.cyc + 1 < r.de) : b.tileOutcome e fs = b := by
  unfold Block.tileOutcome
  rw [h]
  exact if_pos hearly

variable (hopc : x.cmd.opc = 1) (hdue : r.de ≤ e.cyc + 1)
include hopc hdue

/-- A pass whose comparisons hold. -/
theorem Block.tileOutcome_clean (hp : (b.passOf x.cmd r fs).fail = none) :
    b.tileOutcome e fs = ((b.countPass e x r).cleanPass e x r (b.passOf x.cmd r fs)).showSets (e.cyc + 1) := by
  unfold Block.tileOutcome Block.countPass
  rw [h]
  dsimp only
  rw [if_neg (by omega), Block.passOf_span, Block.tenant_span, hp]

/-- A first pass that fails is replayed (R84). -/
theorem Block.tileOutcome_replay {f : FailAt} (hp : (b.passOf x.cmd r fs).fail = some f) (hfirst : r.pass = 0) :
    b.tileOutcome e fs = ((b.failPass e x r (b.passOf x.cmd r fs) f).rerun e x r 1 0).showSets (e.cyc + 1) := by
  unfold Block.tileOutcome Block.failPass Block.countPass
  rw [h]
  dsimp only
  rw [if_neg (by omega), Block.passOf_span, Block.tenant_span, hp]
  dsimp only
  rw [if_pos hfirst]

/-- A later pass that fails poisons its tile (R85). -/
theorem Block.tileOutcome_poison {f : FailAt} (hp : (b.passOf x.cmd r fs).fail = some f) (hlater : r.pass ≠ 0) :
    ∃ range, b.tileOutcome e fs = ((b.failPass e x r (b.passOf x.cmd r fs) f).poison e x r range).showSets (e.cyc + 1) := by
  refine ⟨(b.passOf x.cmd r fs).range || ((b.countPass e x r).passDrain e x r (b.passOf x.cmd r fs)).2.1.ovf, ?_⟩
  unfold Block.tileOutcome Block.failPass Block.countPass
  rw [h]
  dsimp only
  rw [if_neg (by omega), Block.passOf_span, Block.tenant_span, hp]
  dsimp only
  rw [if_neg hlater]

end Draining

/-- Every entry with the number of a changed one is what the change makes of an entry. -/
theorem Block.mem_setEntry {b : Block} {i : Nat} {f : QEntry → QEntry} {y : QEntry} (hy : y ∈ (b.setEntry i f).seq.q)
    (hid : y.id = i) : ∃ z, y = f z := by
  obtain ⟨z, -, rfl⟩ := List.mem_map.mp hy
  by_cases hz : z.id = i
  · exact ⟨z, if_pos hz⟩
  · rw [if_neg hz] at hid
    exact absurd hid hz

/-- A replay shows REPLAY (R84). -/
theorem Block.rerun_replay_bit (e : Env) (b : Block) (x : QEntry) (r : Run) (stat : Word) :
    (b.rerun e x r 1 stat).bit BLK_MX_STAT_REPLAY = true := by
  unfold Block.rerun
  extract_lets t b1 r1 r2 r3 b2 b3 b4
  show b4.bit BLK_MX_STAT_REPLAY = true
  rw [Block.bit_count]
  show (b2.wr BLK_MX_STAT_REPLAY 1).bit BLK_MX_STAT_REPLAY = true
  rw [Block.bit_wr_self _ _ _ _ _ (by decide) (by decide)]
  rfl

/-- A pass that runs again holds the set and the slots of the pass before it, and issues in the next cycle (R84, R86). -/
theorem Block.rerun_entry {e : Env} {b : Block} {x : QEntry} {r : Run} {pass : Nat} {stat : Word} {y : QEntry}
    (hy : y ∈ (b.rerun e x r pass stat).seq.q) (hid : y.id = x.id) : ∃ u, y.st = .issued u ∧
      u.pass = pass ∧ u.set = r.set ∧ u.sa = r.sa ∧ u.sb = r.sb ∧ u.sd = r.sd ∧ u.cyc = e.cyc + 1 := by
  unfold Block.rerun at hy
  extract_lets t b1 r1 r2 r3 b2 b3 b4 at hy
  have h3 : b3.seq = b2.seq := by
    dsimp only [b3]
    split <;> rfl
  have h4 : b4.seq = b2.seq := by simp [b4, h3]
  have hmem : y ∈ b2.seq.q := by rw [← h4]; exact hy
  obtain ⟨z, rfl⟩ := Block.mem_setEntry hmem hid
  exact ⟨r3, rfl, rfl, rfl, rfl, rfl, rfl, rfl⟩

/-- A poisoned tile shows POISON and not REPLAY (R85). -/
theorem Block.poison_bits (e : Env) (b : Block) (x : QEntry) (r : Run) (range : Bool) :
    (b.poison e x r range).bit BLK_MX_STAT_POISON = true ∧ (b.poison e x r range).bit BLK_MX_STAT_REPLAY = false := by
  unfold Block.poison
  extract_lets d b1 b2 b3 b4 q4 b5
  have h2 : b2.bit BLK_MX_STAT_POISON = true ∧ b2.bit BLK_MX_STAT_REPLAY = false := by
    constructor
    · rw [Block.bit_wr_apart _ _ _ _ _ _ _ _ (by decide), Block.set1, Block.bit_wr_self _ _ _ _ _ (by decide) (by decide)]
      rfl
    · rw [Block.bit_wr_self _ _ _ _ _ (by decide) (by decide)]
      rfl
  have h3 : ∀ f, BLK_MX_STAT_SUSPECT.apart f 0 0 0 0 = true → b3.bit f = b2.bit f := fun f hf => by
    dsimp only [b3]
    split
    · exact Block.bit_wr_apart _ _ _ _ _ _ _ _ hf
    · rfl
  have h5 : ∀ f, b5.bit f = b3.bit f := fun f => Block.bit_count _ _ _ _ _ _ _ _
  rw [Block.bit_raise (by decide) (by decide), Block.bit_raise (by decide) (by decide), h5, h5, h3 _ (by decide), h3 _ (by decide)]
  exact h2

/-- A poisoned tile is counted, and is on its way with a void header, full five cycles later (R85, 05 R141). -/
theorem Block.poison_seq (e : Env) (b : Block) (x : QEntry) (r : Run) (range : Bool) :
    (b.poison e x r range).seq.poisoned = b.seq.poisoned + 1 ∧
    ∀ y ∈ (b.poison e x r range).seq.q, y.id = x.id → ∃ hd, y.st = .landing r hd (e.cyc + 5) ∧ hd.void = true := by
  unfold Block.poison
  extract_lets d b1 b2 b3 b4 q4 b5
  have h3 : b3.seq = b1.seq := by
    dsimp only [b3]
    split <;> rfl
  have h4 : b4.seq = b1.seq := by rw [← h3]; exact Block.seq_count _ _ _ _ _
  rw [Block.seq_raise]
  refine ⟨?_, fun y hy hid => ?_⟩
  · show b4.seq.poisoned + 1 = _
    rw [h4]
    rfl
  · have hmem : y ∈ b1.seq.q := by rw [← h4]; exact hy
    obtain ⟨z, rfl⟩ := Block.mem_setEntry hmem hid
    exact ⟨_, rfl, rfl⟩

/-- TILE_OUTCOME is a step of its block. -/
theorem exec_tileOutcome_step {blk cyc : Nat} {s : State} (faults : List CellFault) (hblk : blk < 4608) (hruns : s.runs blk = true) :
    ∃ t, exec (.tileOutcome blk cyc faults) s = .next t ∧ BlockFrame blk s t ∧
      t.block blk = ((s.blockAt blk cyc).tileOutcome (s.env blk cyc) faults).atRest :=
  ⟨_, rfl, s.onLive_frame blk cyc _, s.block_onLive_self blk cyc _ hblk hruns⟩

/-- Settles O24: the comparisons of the pass decide, and what they decide is a step of the block (`exec_tileOutcome_step`). -/
theorem tileOutcomes : Obligations.TileOutcomes := by
  intro blk cyc faults s B hblk hruns hB
  obtain ⟨t, hexec, hframe, hblock⟩ := exec_tileOutcome_step (cyc := cyc) faults hblk hruns
  rw [← hB] at hblock
  have hcyc : (s.env blk cyc).cyc = cyc := rfl
  generalize s.env blk cyc = e at hblock hcyc ⊢
  subst hcyc
  refine ⟨fun hnone => ⟨t, hexec, ?_⟩, fun x r hdrain hearly => ⟨t, hexec, ?_⟩,
    fun x r C W p cc hdrain hopc hdue hcc hp hC hW => ⟨t, hexec, hframe, ?clean, ?replay, ?poison⟩⟩
  · rw [hblock, Block.tileOutcome_none _ hnone]
  · rw [hblock, Block.tileOutcome_early hdrain hearly]
  case clean =>
    intro hok
    subst hp hcc hC
    rw [hblock, Block.tileOutcome_clean hdrain hopc hdue hok]
    rfl
  case replay =>
    intro f hfail hfirst
    have hlast : B.failPass e x r p f = W.mxLast x.cmd.tag 0 f := by
      rw [Block.failPass, Block.countPass, hfirst, hW, hC, hcc, hfirst]
    rw [hblock, Block.tileOutcome_replay hdrain hopc hdue (hp ▸ hfail) hfirst, ← hp, hlast, Block.bit_atRest, Block.seq_atRest,
      Block.seq_showSets, Block.bit_showSets (by decide) (by decide) (by decide)]
    exact ⟨rfl, Block.rerun_replay_bit _ _ _ _ _, fun y hy hid => Block.rerun_entry hy hid⟩
  case poison =>
    intro f hfail hlater
    obtain ⟨range, hpoison⟩ := Block.tileOutcome_poison hdrain hopc hdue (hp ▸ hfail) hlater
    rw [hblock, hpoison, Block.bit_atRest, Block.bit_atRest, Block.seq_atRest, Block.seq_showSets,
      Block.bit_showSets (by decide) (by decide) (by decide), Block.bit_showSets (by decide) (by decide) (by decide)]
    generalize hF : B.failPass e x r (B.passOf x.cmd r faults) f = F
    obtain ⟨hset, hclear⟩ := F.poison_bits e x r range
    obtain ⟨hcount, hentry⟩ := F.poison_seq e x r range
    refine ⟨hset, hclear, ?_, hentry⟩
    rw [hcount, ← hF, Block.seq_failPass]

end Sys2Proof.Machine

/-!
PROOFS. Codebooks, granules and scrubbing of a block: what CB_LOAD and CB_DROP make of VALID (04 R103), what a write of SP_PWR asks of
each granule (05 R160, R161), and what a scrub slot leaves of a line's errors (05 R157 to R159).
-/
namespace Sys2Proof.Machine

/-! ## A write that reaches a block's page -/

/-- A step of a page that an access reaches. -/
theorem State.block_onPage_self {s : State} {blk : Nat} (f : Env → Block → Block) (hready : s.ready = true)
    (hreach : s.reaches blk = true) : (s.onPage blk f).block blk = (f (s.env blk 0) (s.block blk)).atRest := by
  have hblk : blk < 4608 := by
    simp only [State.reaches, Bool.and_eq_true, decide_eq_true_eq] at hreach
    exact hreach.1.1
  rw [State.onPage, hready, hreach, Bool.and_self, if_pos rfl]
  exact State.block_putBlock_self _ _ _ hblk

@[simp] theorem Block.rd_atRest (b : Block) (f : Field) (i j : Nat) : b.atRest.rd f i j = b.rd f i j := rfl
@[simp] theorem Block.granuleReq_atRest (b : Block) (g : Nat) : b.atRest.granuleReq g = b.granuleReq g := rfl

/-- A block that differs in its registers alone differs in them alone at rest. -/
theorem Block.atRest_regs {b x : Block} (h : x = { b with regs := x.regs }) : x.atRest = { b.atRest with regs := x.atRest.regs } := by
  rw [h]
  rfl

/-! ## Codebooks -/

/-- Taking a power of two that a number holds leaves its bit clear. -/
theorem testBit_sub_two_pow_self {m i : Nat} (h : m.testBit i = true) : (m - 2 ^ i).testBit i = false := by
  have hflip := Nat.testBit_two_pow_add_eq (m - 2 ^ i) i
  rw [Nat.add_sub_cancel' (Nat.ge_two_pow_of_testBit h), h] at hflip
  simpa using hflip.symm

/-- The VALID bit of an index is what it was set to (04 R103). -/
theorem Block.testBit_setCbValid {b : Block} {i : Nat} (on : Bool) (hi : i < 31) :
    ((b.setCbValid i on).rd BLK_CB_VALID_VALID).testBit i = on := by
  have hwidth : BLK_CB_VALID_VALID.hi + 1 - BLK_CB_VALID_VALID.lo = 31 := rfl
  rw [Block.setCbValid, Block.rd_wr_self _ _ _ _ _ (by decide) (by decide), hwidth, Nat.testBit_mod_two_pow, decide_eq_true hi,
    Bool.true_and]
  cases on with
  | true => simp
  | false =>
    rw [if_neg Bool.false_ne_true]
    split
    · next h => exact testBit_sub_two_pow_self h
    · next h => exact eq_false_of_ne_true h

/-- Naming an index in BLK_CB_CTL leaves the images. -/
theorem Block.grid_wr_ctl (b : Block) (v i : Nat) : (b.wr BLK_CB_CTL_IDX v).grid i = b.grid i := by
  unfold Block.grid
  refine List.map_congr_left fun c _ => ?_
  have hword : (b.wr BLK_CB_CTL_IDX v).regs.word .block (0x400 + 16 * i + 4 * (c / 4)) =
      b.regs.word .block (0x400 + 16 * i + 4 * (c / 4)) :=
    Regs.word_setWord_ne _ _ _ _ _ (show _ ≠ 0x284 by omega)
  rw [hword]

theorem Block.cbLoad_only (b : Block) (i : Nat) : b.cbLoad i = { b with regs := (b.cbLoad i).regs } := by
  unfold Block.cbLoad
  split
  · rfl
  · split <;> rfl

theorem Block.cbDrop_only (b : Block) (i : Nat) : b.cbDrop i = { b with regs := (b.cbDrop i).regs } := by
  unfold Block.cbDrop
  split <;> rfl

/-- Index 31 is the fixed codebook: it is neither loaded nor dropped (04 R103). -/
theorem Block.cbLoad_fixed (b : Block) : b.cbLoad 31 = b.set1 BLK_FMT_STAT_CBREF := by simp [Block.cbLoad]
theorem Block.cbDrop_fixed (b : Block) : b.cbDrop 31 = b.set1 BLK_FMT_STAT_CBREF := by simp [Block.cbDrop]

theorem Block.bit_set1_cbref (b : Block) : (b.set1 BLK_FMT_STAT_CBREF).bit BLK_FMT_STAT_CBREF = true := by
  rw [Block.set1, Block.bit_wr_self _ _ _ _ _ (by decide) (by decide)]
  rfl

theorem Block.valid_set1_cbref (b : Block) : (b.set1 BLK_FMT_STAT_CBREF).rd BLK_CB_VALID_VALID = b.rd BLK_CB_VALID_VALID :=
  Block.rd_wr_apart _ _ _ _ _ _ _ _ (by decide)

/-- A load gives the VALID bit that the test of the image gives (04 R103). -/
theorem Block.cbLoad_valid (b : Block) {i : Nat} (hi : i < 31) :
    ((b.cbLoad i).rd BLK_CB_VALID_VALID).testBit i = gridValid (b.grid i) := by
  unfold Block.cbLoad
  by_cases hgrid : gridValid (b.grid i) = true
  · rw [if_pos ⟨hi.ne, hgrid⟩, Block.testBit_setCbValid _ hi, hgrid]
  · rw [if_neg (fun h => hgrid h.2), if_neg hi.ne, Block.valid_set1_cbref, Block.testBit_setCbValid _ hi, eq_false_of_ne_true hgrid]

/-- A load of an invalid image is refused (04 R103). -/
theorem Block.cbLoad_refused {b : Block} {i : Nat} (hgrid : gridValid (b.grid i) = false) :
    (b.cbLoad i).bit BLK_FMT_STAT_CBREF = true := by
  rw [Block.cbLoad, if_neg (by simp [hgrid]), Block.bit_set1_cbref]

/-- A drop clears the VALID bit (04 R103). -/
theorem Block.cbDrop_valid (b : Block) {i : Nat} (hi : i < 31) : ((b.cbDrop i).rd BLK_CB_VALID_VALID).testBit i = false := by
  rw [Block.cbDrop, if_neg hi.ne, Block.testBit_setCbValid _ hi]

section Codebooks
variable {s : State} {blk : Nat} (hready : s.ready = true) (hreach : s.reaches blk = true)
include hready hreach

/-- While a context is active on the block, loads and drops are discarded (04 R103). -/
theorem exec_cb_active (i : Nat) (hact : (s.env blk 0).active = true) :
    ∃ t u, exec (.cbLoad blk i) s = .next t ∧ exec (.cbDrop blk i) s = .next u ∧
      t.block blk = (s.block blk).atRest ∧ u.block blk = (s.block blk).atRest := by
  refine ⟨_, _, rfl, rfl, ?_, ?_⟩ <;>
  · rw [State.block_onPage_self _ hready hreach, if_pos hact]
    rfl

/-- Otherwise they are steps of the block, with the index in BLK_CB_CTL (04 R103). -/
theorem exec_cb_inactive (i : Nat) (hact : (s.env blk 0).active = false) :
    ∃ t u, exec (.cbLoad blk i) s = .next t ∧ exec (.cbDrop blk i) s = .next u ∧
      t.block blk = (((s.block blk).wr BLK_CB_CTL_IDX i).cbLoad i).atRest ∧
      u.block blk = (((s.block blk).wr BLK_CB_CTL_IDX i).cbDrop i).atRest := by
  refine ⟨_, _, rfl, rfl, ?_, ?_⟩ <;>
    rw [State.block_onPage_self _ hready hreach, if_neg (by simp [hact])]

end Codebooks

/-! ## Granule requests -/

/-- One granule's part of a write of SP_PWR (05 R160, R161). -/
def Block.requestGranule (e : Env) (v : Word) (b : Block) (g : Nat) : Block :=
  let q := bitsOf v (2 * g + 1) (2 * g)
  if q = 3 then b
  else if q ≠ 0 ∧ e.active ∧ b.granUsed g then b.set1 SP_STAT_PWRREF
  else { b with regs := b.regs.setWord .block 0x30C (putBits (b.regs.word .block 0x30C) (2 * g + 1) (2 * g) q) }

theorem Block.spPwrWrite_eq (e : Env) (b : Block) (v : Word) : b.spPwrWrite e v = (List.range 8).foldl (Block.requestGranule e v) b := rfl

/-- A granule's request is its two bits of the word of SP_PWR (Table 5-21). -/
theorem Block.granuleReq_eq (b : Block) {g : Nat} (hg : g < 8) :
    b.granuleReq g = bitsOf (b.regs.word .block 0x30C) (2 * g + 1) (2 * g) := by
  refine Nat.eq_of_testBit_eq fun i => ?_
  show (bitsOf (b.regs.word .block 0x30C) 15 0 / 2 ^ (2 * g) % 2 ^ 2).testBit i = _
  rw [Nat.testBit_mod_two_pow, Nat.testBit_div_two_pow, testBit_bitsOf _ _ _ _ (by omega), testBit_bitsOf _ _ _ _ (by omega)]
  by_cases hi : i < 2
  · have h15 : i + 2 * g ≤ 15 := by omega
    simp [hi, h15, Nat.add_comm, Nat.le_of_lt_succ hi]
  · have h1 : ¬ i ≤ 1 := by omega
    simp [hi, h1]

/-- The rings lie above the words of SP_STAT and SP_PWR: a word stored below them leaves the granules in use. -/
theorem Block.granUsed_setWord (b : Block) {o : Nat} (v : Word) (ho : o < 0xC00) (g : Nat) :
    Block.granUsed { b with regs := b.regs.setWord .block o v } g = b.granUsed g := by
  have hrd : ∀ (f : Field) (r : Nat), f.unit = .block → 0xC00 ≤ f.off → (b.regs.setWord .block o v).rd f r 0 = b.regs.rd f r 0 :=
    fun f r hu hf => Regs.rd_setWord_ne hu (by unfold Field.at; omega)
  have hon : ∀ r, Block.ringOn { b with regs := b.regs.setWord .block o v } r = b.ringOn r := fun r =>
    congrArg (· != 0) (hrd SP_RING_CTL_EN r rfl (by decide))
  unfold Block.granUsed Block.slotAddr Block.ringSlots Block.slotSize Block.rd
  refine congrArg (List.any _) (funext fun r => ?_)
  dsimp only
  rw [hon, hrd SP_RING_BASE_BASE r rfl (by decide), hrd SP_RING_BASE_SSIZE r rfl (by decide), hrd SP_RING_CTL_SCOUNT r rfl (by decide)]

/-- What the requests for other granules than `g` leave. -/
structure RequestStands (g : Nat) (b x : Block) : Prop where
  only : x = { b with regs := x.regs }
  used : ∀ k, x.granUsed k = b.granUsed k
  req : x.granuleReq g = b.granuleReq g
  refused : b.bit SP_STAT_PWRREF = true → x.bit SP_STAT_PWRREF = true

theorem RequestStands.refl (g : Nat) (b : Block) : RequestStands g b b := ⟨rfl, fun _ => rfl, rfl, id⟩

theorem RequestStands.trans {g : Nat} {b x y : Block} (h : RequestStands g b x) (k : RequestStands g x y) : RequestStands g b y where
  only := by rw [k.only, h.only]
  used j := (k.used j).trans (h.used j)
  req := k.req.trans h.req
  refused hb := k.refused (h.refused hb)

theorem Block.bit_set1_pwrref (b : Block) : (b.set1 SP_STAT_PWRREF).bit SP_STAT_PWRREF = true := by
  rw [Block.set1, Block.bit_wr_self _ _ _ _ _ (by decide) (by decide)]
  rfl

/-- A refusal of any granule leaves every granule's request (05 R161). -/
theorem RequestStands.set1_pwrref {g : Nat} (b : Block) (hg : g < 8) : RequestStands g b (b.set1 SP_STAT_PWRREF) where
  only := rfl
  used := b.granUsed_setWord _ (by decide)
  req := by
    rw [Block.granuleReq_eq _ hg, Block.granuleReq_eq _ hg]
    exact congrArg (bitsOf · (2 * g + 1) (2 * g)) (Regs.word_setWord_ne _ _ _ _ _ (by decide))
  refused _ := b.bit_set1_pwrref

/-- The request for another granule. -/
theorem Block.requestGranule_other (e : Env) (v : Word) (b : Block) {g k : Nat} (hg : g < 8) (hk : k < 8) (hne : k ≠ g) :
    RequestStands g b (b.requestGranule e v k) := by
  unfold Block.requestGranule
  dsimp only
  split
  · exact RequestStands.refl g b
  · split
    · exact RequestStands.set1_pwrref b hg
    · refine ⟨rfl, b.granUsed_setWord _ (by decide), ?_, fun h => ?_⟩
      · rw [Block.granuleReq_eq _ hg, Block.granuleReq_eq _ hg, Regs.word_setWord_self]
        exact bitsOf_putBits_ne _ _ _ _ _ _ (by omega) (by omega) (by omega) (by omega)
      · have hstat : ∀ w, (b.regs.setWord .block 0x30C w).rd SP_STAT_PWRREF = b.regs.rd SP_STAT_PWRREF := fun w =>
          Regs.rd_setWord_ne rfl (by decide)
        rw [Block.bit, Regs.bit, hstat]
        exact h

theorem Block.requestGranules_other (e : Env) (v : Word) (b : Block) {g : Nat} {l : List Nat} (hg : g < 8) (hl : ∀ k ∈ l, k < 8)
    (hgl : g ∉ l) : RequestStands g b (l.foldl (Block.requestGranule e v) b) := by
  induction l generalizing b with
  | nil => exact RequestStands.refl g b
  | cons k l ih =>
    obtain ⟨hk, hl⟩ := List.forall_mem_cons.mp hl
    obtain ⟨hne, hgl⟩ := List.ne_and_not_mem_of_not_mem_cons hgl
    exact (b.requestGranule_other e v hg hk hne.symm).trans (ih _ hl hgl)

/-- A write of SP_PWR is, for one granule, that granule's part between steps that leave it. -/
theorem Block.spPwrWrite_at (e : Env) (b : Block) (v : Word) {g : Nat} (hg : g < 8) :
    ∃ x, RequestStands g b x ∧ RequestStands g (x.requestGranule e v g) (b.spPwrWrite e v) := by
  obtain ⟨l, r, hsplit⟩ := List.append_of_mem (List.mem_range.mpr hg)
  have hlt : ∀ k ∈ l ++ g :: r, k < 8 := fun k hk => List.mem_range.mp (hsplit ▸ hk)
  have hnodup : (l ++ g :: r).Nodup := hsplit ▸ List.nodup_range
  obtain ⟨hgl, hgr⟩ : g ∉ l ∧ g ∉ r := by simpa using (List.nodup_cons.mp (List.nodup_middle.mp hnodup)).1
  refine ⟨l.foldl (Block.requestGranule e v) b, Block.requestGranules_other e v b hg (fun k hk => hlt k (by simp [hk])) hgl, ?_⟩
  rw [Block.spPwrWrite_eq, hsplit, List.foldl_append, List.foldl_cons]
  exact Block.requestGranules_other e v _ hg (fun k hk => hlt k (by simp [hk])) hgr

theorem Block.requestGranule_only (e : Env) (v : Word) (b : Block) (g : Nat) :
    b.requestGranule e v g = { b with regs := (b.requestGranule e v g).regs } := by
  unfold Block.requestGranule
  dsimp only
  split
  · rfl
  · split <;> rfl

/-- A write of SP_PWR changes registers alone. -/
theorem Block.spPwrWrite_only (e : Env) (b : Block) (v : Word) : b.spPwrWrite e v = { b with regs := (b.spPwrWrite e v).regs } := by
  obtain ⟨x, hx, hafter⟩ := b.spPwrWrite_at e v (show 0 < 8 by decide)
  rw [hafter.only, Block.requestGranule_only, hx.only]

section Request
variable (e : Env) (b : Block) {v : Word} {g : Nat} (hg : g < 8)
include hg

/-- The value 3 leaves the request (Table 5-21). -/
theorem Block.spPwrWrite_three (hq : bitsOf v (2 * g + 1) (2 * g) = 3) : (b.spPwrWrite e v).granuleReq g = b.granuleReq g := by
  obtain ⟨x, hx, hafter⟩ := b.spPwrWrite_at e v hg
  rw [hafter.req, Block.requestGranule, if_pos hq, hx.req]

/-- A request that no active context's ring stands against is taken (05 R160). -/
theorem Block.spPwrWrite_taken (hq : bitsOf v (2 * g + 1) (2 * g) ≠ 3)
    (hfree : bitsOf v (2 * g + 1) (2 * g) = 0 ∨ e.active = false ∨ b.granUsed g = false) :
    (b.spPwrWrite e v).granuleReq g = bitsOf v (2 * g + 1) (2 * g) := by
  obtain ⟨x, hx, hafter⟩ := b.spPwrWrite_at e v hg
  have hfits : bitsOf v (2 * g + 1) (2 * g) < 2 ^ (2 * g + 1 + 1 - 2 * g) := bitsOf_lt _ _ _
  have hno : ¬ (bitsOf v (2 * g + 1) (2 * g) ≠ 0 ∧ e.active = true ∧ x.granUsed g = true) := by
    rintro ⟨h0, hact, hused⟩
    rw [hx.used] at hused
    simp [h0, hact, hused] at hfree
  rw [hafter.req, Block.requestGranule, if_neg hq, if_neg hno, Block.granuleReq_eq _ hg, Regs.word_setWord_self,
    bitsOf_putBits_self _ _ _ _ (by omega) (by omega), Nat.mod_eq_of_lt hfits]

/-- Retain or off for a granule in use by an active context is refused (05 R161). -/
theorem Block.spPwrWrite_refused (hq : bitsOf v (2 * g + 1) (2 * g) ≠ 3) (h0 : bitsOf v (2 * g + 1) (2 * g) ≠ 0)
    (hact : e.active = true) (hused : b.granUsed g = true) :
    (b.spPwrWrite e v).granuleReq g = b.granuleReq g ∧ (b.spPwrWrite e v).bit SP_STAT_PWRREF = true := by
  obtain ⟨x, hx, hafter⟩ := b.spPwrWrite_at e v hg
  have hstep : x.requestGranule e v g = x.set1 SP_STAT_PWRREF := by
    rw [Block.requestGranule, if_neg hq, if_pos ⟨h0, hact, (hx.used g).trans hused⟩]
  rw [hstep] at hafter
  have hset := RequestStands.set1_pwrref x hg
  exact ⟨hafter.req.trans (hset.req.trans hx.req), hafter.refused x.bit_set1_pwrref⟩

end Request

/-! ## Scrubbing -/

/-- A key that does not read as the default is listed with what it reads. -/
theorem SMap.mem_of_get_ne {α : Type} {d : Nat → α} {m : SMap α} {k : Nat} (h : m.get d k ≠ d k) : (k, m.get d k) ∈ m := by
  induction m with
  | nil => exact absurd rfl h
  | cons x t ih =>
    obtain ⟨a, v⟩ := x
    by_cases ha : a = k
    · simp [SMap.get, ha]
    · simp only [SMap.get, ha, if_false] at h ⊢
      exact List.mem_cons_of_mem _ (ih h)

/-- A read corrects a single-bit error and leaves an uncorrectable one (05 R157, R158). -/
theorem Block.ecc_eccOne (e : Env) (b : Block) (g st : Nat) :
    (b.eccOne e g st).ecc = if st = 1 then b.ecc.put natZero g 0 else b.ecc := by
  unfold Block.eccOne
  dsimp only
  split
  · rw [Block.raise_only, Block.count_only]
    rfl
  · rw [Block.raise_only]
    rfl

/-- A read for ECC leaves the contents. -/
@[simp] theorem Block.spm_eccOne (e : Env) (b : Block) (g st : Nat) : (b.eccOne e g st).spm = b.spm := by
  unfold Block.eccOne
  dsimp only
  split
  · rw [Block.raise_only, Block.count_only]
    rfl
  · rw [Block.raise_only]
    rfl

/-- A corrected granule stays corrected under further reads. -/
theorem Block.ecc_eccOne_zero {e : Env} {b : Block} {k : Nat} (g st : Nat) (h : b.ecc.get natZero k = 0) :
    (b.eccOne e g st).ecc.get natZero k = 0 := by
  rw [Block.ecc_eccOne]
  split
  · by_cases hk : k = g
    · rw [hk, SMap.get_put_self]
    · rw [SMap.get_put_ne _ _ _ _ _ hk, h]
  · exact h

/-- The granules of a list of errors are read one after the other. -/
def Block.eccAll (e : Env) (b : Block) (l : List (Nat × Nat)) : Block := l.foldl (fun y x => y.eccOne e x.1 x.2) b

theorem Block.eccReadIf_fst (e : Env) (b : Block) (hit : Nat → Bool) :
    (b.eccReadIf e hit).1 = b.eccAll e (b.ecc.filter (fun x => hit (16 * x.1))) :=
  (List.foldl_hom Prod.fst (fun _ _ => rfl)).symm

@[simp] theorem Block.spm_eccAll (e : Env) (b : Block) (l : List (Nat × Nat)) : (b.eccAll e l).spm = b.spm := by
  induction l generalizing b with
  | nil => rfl
  | cons x t ih => exact (ih _).trans (Block.spm_eccOne _ _ _ _)

theorem Block.ecc_eccAll_zero {e : Env} {b : Block} {k : Nat} (l : List (Nat × Nat)) (h : b.ecc.get natZero k = 0) :
    (b.eccAll e l).ecc.get natZero k = 0 := by
  induction l generalizing b with
  | nil => exact h
  | cons x t ih => exact ih (Block.ecc_eccOne_zero _ _ h)

/-- Every single-bit error that is read is corrected. -/
theorem Block.ecc_eccAll_corrects (e : Env) (b : Block) {l : List (Nat × Nat)} {g : Nat} (h : (g, 1) ∈ l) :
    (b.eccAll e l).ecc.get natZero g = 0 := by
  induction l generalizing b with
  | nil => cases h
  | cons x t ih =>
    rcases List.mem_cons.mp h with rfl | ht
    · refine Block.ecc_eccAll_zero t ?_
      rw [Block.ecc_eccOne, if_pos rfl, SMap.get_put_self]
    · exact ih _ ht

/-- A read of bytes corrects the single-bit errors of the granules that it meets (05 R157). -/
theorem Block.ecc_eccRead_corrects (e : Env) {b : Block} {lo hi g : Nat} (hlo : lo < 16 * g + 16) (hhi : 16 * g < hi)
    (h : b.ecc.get natZero g = 1) : (b.eccRead e lo hi).1.ecc.get natZero g = 0 := by
  have hmem : (g, 1) ∈ b.ecc := h ▸ SMap.mem_of_get_ne (d := natZero) (by rw [h]; exact Nat.one_ne_zero)
  rw [Block.eccRead, Block.eccReadIf_fst]
  exact Block.ecc_eccAll_corrects e b (List.mem_filter.mpr ⟨hmem, decide_eq_true ⟨hlo, hhi⟩⟩)

theorem Block.spm_eccRead (e : Env) (b : Block) (lo hi : Nat) : (b.eccRead e lo hi).1.spm = b.spm := by
  rw [Block.eccRead, Block.eccReadIf_fst, Block.spm_eccAll]

section Scrub
variable (e : Env) {b : Block} {us : List (Nat × Nat)}

/-- A scrub slot with no granule on brings the errors and reads nothing (05 R159). -/
theorem Block.scrub_none (h : (b.upset us).nextLine 9 (b.upset us).scrubPos = none) : b.scrub e us = b.upset us := by
  unfold Block.scrub
  dsimp only
  rw [h]

/-- A scrub slot reads the next line that is on and goes on behind it (05 R159). -/
theorem Block.scrub_line {l : Nat} (h : (b.upset us).nextLine 9 (b.upset us).scrubPos = some l) :
    b.scrub e us = { ((b.upset us).eccRead e (256 * l) (256 * l + 256)).1 with scrubPos := (l + 1) % 8192 } := by
  unfold Block.scrub
  dsimp only
  rw [h]

end Scrub

/-- SCRUB_SLOT is a step of its block: a scrub in a slot of the beat schedule, else the errors alone (05 R157 to R159, 08 R235). -/
theorem exec_scrubSlot_step {blk cyc : Nat} {s : State} (us : List (Nat × Nat)) (hblk : blk < 4608) (hruns : s.runs blk = true) :
    ∃ t, exec (.scrubSlot blk ⟨cyc, us⟩) s = .next t ∧ t.block blk =
      (if s.scrubAt (regionOf blk) cyc then (s.blockAt blk cyc).scrub (s.env blk cyc) us else (s.blockAt blk cyc).upset us).atRest :=
  ⟨_, rfl, s.block_onLive_self blk cyc _ hblk hruns⟩

/-- Settles O28: each command is a step of its block, and what the step makes of VALID, of the requests and of the errors is said by
`Block.cbLoad_valid`, `Block.cbDrop_valid`, the cases of `Block.spPwrWrite` and `Block.ecc_eccRead_corrects`. -/
theorem codebooksAndScratchpadPower : Obligations.CodebooksAndScratchpadPower := by
  refine ⟨?codebooks, ?power, ?scrub⟩
  case codebooks =>
    rintro blk i s B hready hreach rfl hi
    refine ⟨exec_cb_active hready hreach i, fun hact => ?_⟩
    obtain ⟨t, u, hload, hdrop, ht, hu⟩ := exec_cb_inactive hready hreach i hact
    refine ⟨t, u, hload, hdrop, ?_⟩
    rw [ht, hu]
    refine ⟨fun hne => ?_, fun h31 => ?_, Block.atRest_regs (Block.cbLoad_only _ _), Block.atRest_regs (Block.cbDrop_only _ _)⟩
    · have hlt : i < 31 := by omega
      rw [← Block.grid_wr_ctl _ i i]
      exact ⟨Block.cbLoad_valid _ hlt, Block.cbDrop_valid _ hlt, Block.cbLoad_refused⟩
    · subst h31
      have hctl : ((s.block blk).wr BLK_CB_CTL_IDX 31).rd BLK_CB_VALID_VALID = (s.block blk).rd BLK_CB_VALID_VALID :=
        Block.rd_wr_apart _ _ _ _ _ _ _ _ (by decide)
      rw [Block.cbLoad_fixed, Block.cbDrop_fixed, Block.bit_atRest, Block.rd_atRest, Block.bit_set1_cbref, Block.valid_set1_cbref, hctl]
      exact ⟨rfl, rfl, rfl, rfl⟩
  case power =>
    rintro blk v s B hready hreach rfl
    refine ⟨_, rfl, ?_⟩
    rw [State.block_onPage_self _ hready hreach]
    refine ⟨Block.atRest_regs (Block.spPwrWrite_only _ _ _), ?_⟩
    rintro g q hg rfl
    exact ⟨Block.spPwrWrite_taken _ _ hg, Block.spPwrWrite_three _ _ hg, Block.spPwrWrite_refused _ _ hg⟩
  case scrub =>
    rintro blk cyc us s B hblk hruns rfl
    obtain ⟨t, hexec, hblock⟩ := exec_scrubSlot_step (cyc := cyc) us hblk hruns
    refine ⟨fun l hslot hline => ⟨t, hexec, ?_⟩, fun hidle => ⟨t, hexec, ?_⟩⟩
    · rw [hblock, if_pos hslot, Block.scrub_line _ hline]
      exact ⟨rfl, Block.spm_eccRead _ _ _ _, fun g hlo hhi herr =>
        Block.ecc_eccRead_corrects _ (by omega) (by omega) herr⟩
    · rw [hblock]
      rcases hidle with hslot | hline
      · rw [if_neg (by simp [hslot])]
      · rw [Block.scrub_none _ hline, ite_self]

end Sys2Proof.Machine

/-!
PROOFS. The bank commands and the loads of codebooks and lookup tables (05_scratchpad_bank_alus.md R149, R155, R156, 04 R101, R102): how
each issues, waits or is refused at the head of the queue (06 R176), and what it leaves when it ends.
-/
namespace Sys2Proof.Machine

/-! ## What the engines of the scratchpad leave -/

/-- What of a block stands while its engines read, write and release slots: all but registers, scratchpad, tags, positions, lookup tables,
records, counts and the void mark. -/
def Block.standing (b : Block) : Block :=
  { b with regs := [], spm := [], ecc := [], tags := [], takes := [], luts := [], recq := [], rdrop := 0, srcseq := 0, evcs := []
           evs := [], seq := { b.seq with voidSeen := false } }

section Standing
variable (e : Env) (b : Block)

@[simp] theorem Block.standing_wr (f : Field) (v i j : Nat) : (b.wr f v i j).standing = b.standing := rfl
@[simp] theorem Block.standing_set1 (f : Field) : (b.set1 f).standing = b.standing := rfl
@[simp] theorem Block.standing_inc (c sat : Field) (n : Nat) : (b.inc c sat n).standing = b.standing := rfl
@[simp] theorem Block.standing_setCbValid (i : Nat) (on : Bool) : (b.setCbValid i on).standing = b.standing := rfl
@[simp] theorem Block.standing_setLut (t : Nat) (ws : List Word) : (b.setLut t ws).standing = b.standing := by
  simp only [Block.setLut, Block.standing]
@[simp] theorem Block.standing_markVoid : b.markVoid.standing = b.standing := rfl
@[simp] theorem Block.standing_dropEntry (i : Nat) : (b.dropEntry i).standing = b.standing.dropEntry i := rfl

@[simp] theorem Block.standing_count (c : Nat) (p : Option Nat) (n : Nat) : (b.count e c p n).standing = b.standing := by
  rw [Block.count_only]
  rfl

@[simp] theorem Block.standing_raise (r : ErrRec) : (b.raise e r).standing = b.standing := by
  rw [Block.raise_only]
  rfl

@[simp] theorem Block.standing_spBreach (sub ring slot : Nat) (td : Bool) : (b.spBreach e sub ring slot td).standing = b.standing :=
  Block.standing_raise _ _ _

@[simp] theorem Block.standing_tagFault (r s : Nat) : (b.tagFault e r s).standing = b.standing := Block.standing_spBreach _ _ _ _ _ _

/-- A fold of steps that leave what stands. -/
theorem Block.standing_foldl {α : Type} {f : Block → α → Block} (hf : ∀ y a, (f y a).standing = y.standing) (l : List α)
    (b : Block) : (l.foldl f b).standing = b.standing := by
  induction l generalizing b with
  | nil => rfl
  | cons a t ih => exact (ih _).trans (hf b a)

/-- Writing an image changes registers alone (04 R100). -/
@[simp] theorem Block.standing_setCbImage (i : Nat) (bs : List Byte) : (b.setCbImage i bs).standing = b.standing := by
  refine Block.standing_foldl (fun y w => ?_) _ _
  rfl

@[simp] theorem Block.standing_granCheck (ring slot lo hi : Nat) : (b.granCheck e ring slot lo hi).standing = b.standing := by
  unfold Block.granCheck
  split
  · rfl
  · exact Block.standing_spBreach _ _ _ _ _ _

theorem Block.standing_eccOne (g st : Nat) : (b.eccOne e g st).standing = b.standing := by
  unfold Block.eccOne
  dsimp only
  split
  · rw [Block.standing_raise, Block.standing_count]
    rfl
  · rw [Block.standing_raise]
    rfl

@[simp] theorem Block.standing_eccReadIf (hit : Nat → Bool) : (b.eccReadIf e hit).1.standing = b.standing := by
  rw [Block.eccReadIf_fst]
  exact Block.standing_foldl (fun y (x : Nat × Nat) => Block.standing_eccOne e y x.1 x.2) _ _

@[simp] theorem Block.standing_portReadIf (ring slot lo hi : Nat) (hit : Nat → Bool) :
    (b.portReadIf e ring slot lo hi hit).1.standing = b.standing :=
  (Block.standing_eccReadIf _ _ _).trans (Block.standing_granCheck _ _ _ _ _ _)

@[simp] theorem Block.standing_portRead (ring slot lo hi : Nat) : (b.portRead e ring slot lo hi).1.standing = b.standing :=
  (Block.standing_eccReadIf _ _ _).trans (Block.standing_granCheck _ _ _ _ _ _)

@[simp] theorem Block.standing_portWrite (ring slot a : Nat) (bs : List Byte) : (b.portWrite e ring slot a bs).standing = b.standing := by
  unfold Block.portWrite
  split
  · rfl
  · exact Block.standing_spBreach _ _ _ _ _ _

@[simp] theorem Block.standing_markFull (r s : Nat) (t : TagEnt) : (b.markFull e r s t).standing = b.standing := by
  unfold Block.markFull
  split
  · exact Block.standing_tagFault _ _ _ _
  · rfl

@[simp] theorem Block.standing_advTake (r c : Nat) : (b.advTake r c).standing = b.standing := by
  unfold Block.advTake
  dsimp only
  split <;> rfl

@[simp] theorem Block.standing_release (r s c : Nat) : (b.release e r s c).standing = b.standing := by
  unfold Block.release
  split
  · exact Block.standing_tagFault _ _ _ _
  · rw [Block.standing_advTake]
    split <;> rfl

@[simp] theorem Block.standing_releaseSources (c : Cmd) (r : Run) : (b.releaseSources e c r).standing = b.standing :=
  Block.standing_foldl (fun y _ => Block.standing_release e y _ _ _) _ _

/-- The drain path's reads leave what stands (Table 5-16). -/
@[simp] theorem Block.standing_drainEcc (d : Drn) (r : Run) (m n : Nat) : (b.drainEcc e d r m n).1.standing = b.standing := by
  unfold Block.drainEcc
  cases d.acc <;> cases d.usesC <;> cases d.rsc <;> simp

@[simp] theorem Block.standing_writeOut (d : Drn) (r : Run) (ringD ofmt : Nat) (o : DrainOut) :
    (b.writeOut e d r ringD ofmt o).standing = b.standing := by
  unfold Block.writeOut
  cases d.rmx <;> simp

@[simp] theorem Block.standing_keepStat (o : DrainOut) (widened : Bool) : (b.keepStat e o widened).standing = b.standing := by
  unfold Block.keepStat
  cases b.tenant e
  · rfl
  · cases o.nan <;> by_cases hsat : 0 < o.sats <;> simp [hsat]

/-- A command that marks its destinations full leaves the queue (R69, 05 R135). -/
@[simp] theorem Block.standing_finish (x : QEntry) (r : Run) (h : Hdr) : (b.finish e x r h).standing = b.standing.dropEntry x.id := by
  unfold Block.finish
  dsimp only
  cases h.void <;> cases (b.destDrn x.cmd).rmx <;> simp

end Standing

/-- A command whose engine did no more than take it out of the queue is completed. -/
theorem Block.completed_of_standing {b y : Block} {x : QEntry} (h : y.standing = b.standing.dropEntry x.id) : Completed b x y.atRest :=
  ⟨(congrArg (·.seq.q) h :), (congrArg Block.core h :), (congrArg Block.imem h :), (congrArg Block.ldata h :),
    (congrArg Block.legs h :), (congrArg Block.held h :), (congrArg Block.router h :)⟩

/-! ## Fields after a record and after a load -/

/-- A record leaves every register field outside SC_REC. -/
theorem Block.rd_raise {e : Env} {b : Block} {r : ErrRec} {f : Field} {i : Nat} (hc : SC_REC_LOST.apart f 0 0 i 0 = true)
    (hs : SC_REC_LSAT.apart f 0 0 i 0 = true) : (b.raise e r).rd f i = b.rd f i := by
  have hinc : (b.regs.incSat SC_REC_LOST SC_REC_LSAT 0 1).rd f i 0 = b.regs.rd f i 0 := Regs.rd_incSat_apart hc hs
  unfold Block.raise
  dsimp only
  split
  · rfl
  · split
    · split <;> exact hinc
    · exact hinc

/-- Taking up a lookup table sets its VALID bit (05 R149). -/
theorem Block.testBit_lutValid_set {b z : Block} {t : Nat} (ht : t < 4) :
    ((b.wr DRN_LUT_STAT_VALID (z.rd DRN_LUT_STAT_VALID ||| 2 ^ t)).rd DRN_LUT_STAT_VALID).testBit t = true := by
  have hwidth : DRN_LUT_STAT_VALID.hi + 1 - DRN_LUT_STAT_VALID.lo = 4 := rfl
  rw [Block.rd_wr_self _ _ _ _ _ (by decide) (by decide), hwidth, Nat.testBit_mod_two_pow]
  simp [ht]

/-- Refusing a lookup table clears its VALID bit (05 R149). -/
theorem Block.testBit_lutValid_clear {b z : Block} {t : Nat} (ht : t < 4) :
    ((b.wr DRN_LUT_STAT_VALID (if (z.rd DRN_LUT_STAT_VALID).testBit t then z.rd DRN_LUT_STAT_VALID - 2 ^ t
      else z.rd DRN_LUT_STAT_VALID)).rd DRN_LUT_STAT_VALID).testBit t = false := by
  have hwidth : DRN_LUT_STAT_VALID.hi + 1 - DRN_LUT_STAT_VALID.lo = 4 := rfl
  rw [Block.rd_wr_self _ _ _ _ _ (by decide) (by decide), hwidth, Nat.testBit_mod_two_pow, decide_eq_true ht, Bool.true_and]
  split
  · next hbit => exact testBit_sub_two_pow_self hbit
  · next hbit => exact eq_false_of_ne_true hbit

/-! ## Commands that issue from the head -/

/-- The step `f` of a block is the issue of commands of operation `opc`: it acts on the head of the queue alone, refuses it where it is
`bad` and leaves the block where it `waits` (06 R175, R176). -/
structure IssuesFromHead (opc : Nat) (bad waits : Block → QEntry → Prop) (f : Env → Block → Block) : Prop where
  empty : ∀ {e b}, b.head = none → f e b = b
  other : ∀ {e b x}, b.head = some x → x.cmd.opc ≠ opc → f e b = b
  refuses : ∀ {e b x}, b.head = some x → x.cmd.opc = opc → bad b x → f e b = b.illegal e x
  waits : ∀ {e b x}, b.head = some x → x.cmd.opc = opc → waits b x → f e b = b

/-- A command that acts on a block whose clock runs is a step of that block. -/
theorem exec_live_step {blk cyc : Nat} {s : State} {c : Instr} {f : Env → Block → Block} (hc : exec c s = .next (s.onLive blk cyc f))
    (hblk : blk < 4608) (hruns : s.runs blk = true) :
    ∃ t, exec c s = .next t ∧ t.block blk = (f (s.env blk cyc) (s.blockAt blk cyc)).atRest :=
  ⟨_, hc, s.block_onLive_self blk cyc f hblk hruns⟩

section Issue
variable {blk cyc : Nat} {s : State} {c : Instr} {f : Env → Block → Block} (hc : exec c s = .next (s.onIssue blk cyc f))
include hc

/-- In the boundary gap nothing issues (02 R42). -/
theorem exec_issue_gap (hgap : (s.region (regionOf blk)).bit RGN_BEAT_GAP = true) : exec c s = .next s := by
  rw [hc, State.onIssue, hgap, if_pos rfl]

variable (hblk : blk < 4608) (hruns : s.runs blk = true) (hgap : (s.region (regionOf blk)).bit RGN_BEAT_GAP = false)
include hblk hruns hgap

/-- Outside the gap an issue is a step of its block. -/
theorem exec_issue_step : ∃ t, exec c s = .next t ∧ t.block blk = (f (s.env blk cyc) (s.blockAt blk cyc)).atRest := by
  rw [State.onIssue_eq _ _ _ _ hgap] at hc
  exact exec_live_step hc hblk hruns

/-- What a command that issues from the head does where it does not issue. -/
theorem IssuesFromHead.exec_idle {opc : Nat} {bad waits : Block → QEntry → Prop} (hf : IssuesFromHead opc bad waits f) {B : Block}
    (hB : B = s.blockAt blk cyc) :
    (B.head = none → ∃ t, exec c s = .next t ∧ t.block blk = B.atRest) ∧
    ∀ x, B.head = some x →
      (x.cmd.opc ≠ opc → ∃ t, exec c s = .next t ∧ t.block blk = B.atRest) ∧
      (x.cmd.opc = opc → (bad B x → ∃ t, exec c s = .next t ∧ Refused B x (t.block blk)) ∧
        (waits B x → ∃ t, exec c s = .next t ∧ t.block blk = B.atRest)) := by
  obtain ⟨t, hexec, hblock⟩ := exec_issue_step hc hblk hruns hgap
  subst hB
  refine ⟨fun hnone => ⟨t, hexec, ?_⟩, fun x hx => ⟨fun hne => ⟨t, hexec, ?_⟩, fun hopc =>
    ⟨fun hbad => ⟨t, hexec, ?_⟩, fun hwaits => ⟨t, hexec, ?_⟩⟩⟩⟩ <;> rw [hblock]
  · rw [hf.empty hnone]
  · rw [hf.other hx hne]
  · rw [hf.refuses hx hopc hbad]
    exact Block.illegal_refused _ hx
  · rw [hf.waits hx hopc hwaits]

end Issue

/-- BANK_COMMAND_ISSUE (05 R155, R156). -/
theorem Block.bankIssue_issuesFromHead : IssuesFromHead 2
    (fun b x => b.bankBadHead x.cmd = true ∨ (b.sourcesFull x.cmd && b.destsEmpty x.cmd) = true ∧ b.bankBadTag x.cmd = true)
    (fun b x => b.bankBadHead x.cmd = false ∧ (b.sourcesFull x.cmd && b.destsEmpty x.cmd) = false)
    (fun e b => b.bankIssue e) where
  empty h := by simp only [Block.bankIssue, h]
  other h hopc := by simp only [Block.bankIssue, h, if_pos hopc]
  refuses {e b x} h hopc hbad := by
    rcases hbad with hhead | ⟨hready, htag⟩
    · simp [Block.bankIssue, h, hopc, hhead]
    · cases hhead : b.bankBadHead x.cmd <;> simp [Block.bankIssue, h, hopc, hhead, hready, htag]
  waits h hopc hwaits := by simp only [Block.bankIssue, h, hopc, hwaits.1, hwaits.2]; simp

/-- CODEBOOK_LOAD (04 R101, R102). -/
theorem Block.codebookLoad_issuesFromHead : IssuesFromHead 3 (fun b x => b.otherBad x.cmd = true)
    (fun b x => b.otherBad x.cmd = false ∧ (b.sourcesFull x.cmd = false ∨ (b.before x).any (b.usesCb x.cmd.idx) = true))
    (fun e b => b.codebookLoad e) where
  empty h := by simp only [Block.codebookLoad, h]
  other h hopc := by simp only [Block.codebookLoad, h, if_pos hopc]
  refuses h hopc hbad := by simp [Block.codebookLoad, h, hopc, hbad]
  waits := by
    rintro e b x h hopc ⟨hgood, hwaits⟩
    have hwaits : (!b.sourcesFull x.cmd || (b.before x).any (b.usesCb x.cmd.idx)) = true := by simpa using hwaits
    simp only [Block.codebookLoad, h, hopc, hgood, hwaits]
    simp

/-- LOOKUP_LOAD (05 R149). -/
theorem Block.lookupLoad_issuesFromHead : IssuesFromHead 4 (fun b x => b.otherBad x.cmd = true)
    (fun b x => b.otherBad x.cmd = false ∧ (b.sourcesFull x.cmd = false ∨ (b.before x).any (b.usesLut x.cmd.tbl) = true))
    (fun e b => b.lookupLoad e) where
  empty h := by simp only [Block.lookupLoad, h]
  other h hopc := by simp only [Block.lookupLoad, h, if_pos hopc]
  refuses h hopc hbad := by simp [Block.lookupLoad, h, hopc, hbad]
  waits := by
    rintro e b x h hopc ⟨hgood, hwaits⟩
    have hwaits : (!b.sourcesFull x.cmd || (b.before x).any (b.usesLut x.cmd.tbl)) = true := by simpa using hwaits
    simp only [Block.lookupLoad, h, hopc, hgood, hwaits]
    simp

/-! ## What an issue, a load and an end leave -/

/-- A block that differs in its sequencer alone differs in it alone at rest. -/
theorem Block.atRest_seq {b x : Block} (h : x = { b with seq := x.seq }) : x.atRest = { b.atRest with seq := x.atRest.seq } := by
  rw [h]
  rfl

section Head
variable {e : Env} {b : Block} {x : QEntry} (h : b.head = some x)
include h

/-- A legal bank command whose slots are there is marked issued with them and its source's format, and changes the sequencer alone
(05 R156). -/
theorem Block.bankIssue_issues (hopc : x.cmd.opc = 2) (hhead : b.bankBadHead x.cmd = false) (htag : b.bankBadTag x.cmd = false)
    (hready : (b.sourcesFull x.cmd && b.destsEmpty x.cmd) = true) :
    ∃ r : Run, r.sa = b.headSrc x.cmd.ringS ∧ r.sd = b.headDst x.cmd.ringDB ∧
      r.ta = (b.tag x.cmd.ringS (b.headSrc x.cmd.ringS)).hdr.fmt ∧ b.bankIssue e = { b with seq := (b.bankIssue e).seq } ∧
      (b.bankIssue e).seq.q = b.seq.q.map (fun y => if y.id = x.id then { y with st := .issued r, keptSet := some 0 } else y) := by
  have hopc : ¬ x.cmd.opc ≠ 2 := not_not.mpr hopc
  simp only [Block.bankIssue, h, if_neg hopc, hhead, htag, hready, Bool.false_eq_true, if_false, if_true]
  exact ⟨_, rfl, rfl, rfl, rfl, rfl⟩

/-- A legal codebook load whose slot is full and whose index no earlier command uses (04 R101 to R103). -/
theorem Block.codebookLoad_loads (hopc : x.cmd.opc = 3) (hgood : b.otherBad x.cmd = false) (hfull : b.sourcesFull x.cmd = true)
    (hunused : (b.before x).any (b.usesCb x.cmd.idx) = false) {a : Nat} {R : Block}
    (ha : a = b.slotAddr x.cmd.ring (b.headSrc x.cmd.ring))
    (hR : R = (b.portRead e x.cmd.ring (b.headSrc x.cmd.ring) a (a + 16)).1) :
    (b.codebookLoad e).standing = b.standing.dropEntry x.id ∧
    (x.cmd.idx ≠ 31 → ((b.codebookLoad e).rd BLK_CB_VALID_VALID).testBit x.cmd.idx = gridValid (gridOfBytes (R.spRead a 16))) ∧
    (x.cmd.idx = 31 ∨ gridValid (gridOfBytes (R.spRead a 16)) = false → (b.codebookLoad e).bit BLK_FMT_STAT_CBREF = true) := by
  have hidx : x.cmd.idx ≠ 31 → x.cmd.idx < 31 := by
    have : x.cmd.idx < 32 := bitsOf_lt _ _ _
    omega
  have hopc : ¬ x.cmd.opc ≠ 3 := not_not.mpr hopc
  simp only [Block.codebookLoad, h, if_neg hopc, hgood, hfull, hunused, Bool.not_true, Bool.or_self, Bool.false_eq_true, if_false,
    ← ha, ← hR]
  have hdrop : ((R.release e x.cmd.ring (b.headSrc x.cmd.ring) 0).dropEntry x.id).standing = b.standing.dropEntry x.id := by simp [hR]
  generalize (R.release e x.cmd.ring (b.headSrc x.cmd.ring) 0).dropEntry x.id = z at hdrop ⊢
  generalize R.spRead a 16 = bs
  by_cases hvalid : x.cmd.idx ≠ 31 ∧ gridValid (gridOfBytes bs) = true
  · rw [if_pos hvalid]
    refine ⟨by simp [hdrop], fun hne => ?_, fun hbad => ?_⟩
    · rw [Block.testBit_setCbValid _ (hidx hne), hvalid.2]
    · simp [hvalid] at hbad
  · rw [if_neg hvalid]
    refine ⟨?_, fun hne => ?_, fun _ => ?_⟩
    · split <;> simp [hdrop]
    · rw [Block.rd_raise (by decide) (by decide), Block.valid_set1_cbref, if_neg hne, Block.testBit_setCbValid _ (hidx hne)]
      simpa [hne] using hvalid
    · rw [Block.bit_raise (by decide) (by decide), Block.bit_set1_cbref]

/-- A legal lookup load whose slot is full and whose table no earlier command uses (05 R149). -/
theorem Block.lookupLoad_loads (hopc : x.cmd.opc = 4) (hgood : b.otherBad x.cmd = false) (hfull : b.sourcesFull x.cmd = true)
    (hunused : (b.before x).any (b.usesLut x.cmd.tbl) = false) {a : Nat} {R : Block}
    (ha : a = b.slotAddr x.cmd.ring (b.headSrc x.cmd.ring))
    (hR : R = (b.portRead e x.cmd.ring (b.headSrc x.cmd.ring) a (a + 1056)).1) :
    (b.lookupLoad e).standing = b.standing.dropEntry x.id ∧
    ((b.lookupLoad e).rd DRN_LUT_STAT_VALID).testBit x.cmd.tbl = lutValid (wordsOf 264 (R.spRead a 1056)) ∧
    (lutValid (wordsOf 264 (R.spRead a 1056)) = false → (b.lookupLoad e).bit SP_STAT_LUTREF = true) := by
  have htbl : x.cmd.tbl < 4 := bitsOf_lt _ _ _
  have hopc : ¬ x.cmd.opc ≠ 4 := not_not.mpr hopc
  simp only [Block.lookupLoad, h, if_neg hopc, hgood, hfull, hunused, Bool.not_true, Bool.or_self, Bool.false_eq_true, if_false,
    ← ha, ← hR]
  have hdrop : ((R.release e x.cmd.ring (b.headSrc x.cmd.ring) 0).dropEntry x.id).standing = b.standing.dropEntry x.id := by simp [hR]
  generalize (R.release e x.cmd.ring (b.headSrc x.cmd.ring) 0).dropEntry x.id = z at hdrop ⊢
  generalize wordsOf 264 (R.spRead a 1056) = ws
  cases hvalid : lutValid ws with
  | true =>
    refine ⟨by simp [hdrop], ?_, fun hbad => by cases hbad⟩
    rw [if_pos rfl]
    exact Block.testBit_lutValid_set htbl
  | false =>
    rw [if_neg Bool.false_ne_true]
    refine ⟨by simp [hdrop], ?_, fun _ => ?_⟩
    · rw [Block.rd_raise (by decide) (by decide), Block.set1, Block.rd_wr_apart _ _ _ _ _ _ _ _ (by decide)]
      exact Block.testBit_lutValid_clear htbl
    · rw [Block.bit_raise (by decide) (by decide), Block.set1, Block.bit_wr_self _ _ _ _ _ (by decide) (by decide)]
      rfl

end Head

/-- The bank command whose drain is the oldest ends: its destinations are marked, its sources released, its entry is gone (05 R156). -/
theorem Block.bankDone_standing (e : Env) {b : Block} {x : QEntry} {r : Run} (h : b.draining = some (x, r)) (hopc : x.cmd.opc = 2) :
    (b.bankDone e).standing = b.standing.dropEntry x.id := by
  have hopc : ¬ x.cmd.opc ≠ 2 := not_not.mpr hopc
  simp only [Block.bankDone, h, if_neg hopc]
  split
  · simp
  · split <;> split <;> simp

theorem Block.bankDone_none (e : Env) {b : Block} (h : b.draining = none) : b.bankDone e = b := by
  simp only [Block.bankDone, h]

theorem Block.bankDone_other (e : Env) {b : Block} {x : QEntry} {r : Run} (h : b.draining = some (x, r)) (hopc : x.cmd.opc ≠ 2) :
    b.bankDone e = b := by
  simp only [Block.bankDone, h, if_pos hopc]

/-- Settles O25: the three commands issue from the head (`IssuesFromHead`), and what each leaves is said by `Block.bankIssue_issues`,
`Block.codebookLoad_loads`, `Block.lookupLoad_loads` and `Block.bankDone_standing`. -/
theorem bankCommandsAndLoads : Obligations.BankCommandsAndLoads := by
  rintro blk cyc s B hblk hruns rfl
  refine ⟨fun c opc hc => ?idle,
    fun x hgap hhead => ⟨fun hopc hgood htag hready => ?issues, fun a R hopc hgood hfull hfree ha hR => ?codebook,
      fun a R hopc hgood hfull hfree ha hR => ?lookup⟩,
    fun y r hdrain => ⟨fun hopc => ?done, fun hopc => ?others⟩, fun hnone => ?nothing⟩
  case idle =>
    rcases hc with ⟨rfl, rfl⟩ | ⟨rfl, rfl⟩ | ⟨rfl, rfl⟩
    all_goals refine ⟨exec_issue_gap rfl, fun hgap => ?_⟩
    · simpa using Block.bankIssue_issuesFromHead.exec_idle (c := .bankCommandIssue blk cyc) rfl hblk hruns hgap rfl
    · simpa using Block.codebookLoad_issuesFromHead.exec_idle (c := .codebookLoad blk cyc) rfl hblk hruns hgap rfl
    · simpa using Block.lookupLoad_issuesFromHead.exec_idle (c := .lookupLoad blk cyc) rfl hblk hruns hgap rfl
  case issues =>
    obtain ⟨t, hexec, hblock⟩ := exec_issue_step (c := .bankCommandIssue blk cyc) rfl hblk hruns hgap
    obtain ⟨r, hsa, hsd, hta, honly, hq⟩ := Block.bankIssue_issues (e := s.env blk cyc) hhead hopc hgood htag hready
    refine ⟨t, r, hexec, hsa, hsd, hta, ?_, ?_⟩ <;> rw [hblock]
    · exact Block.atRest_seq honly
    · rw [Block.seq_atRest, hq]
  case codebook =>
    obtain ⟨t, hexec, hblock⟩ := exec_issue_step (c := .codebookLoad blk cyc) rfl hblk hruns hgap
    obtain ⟨hstands, hvalid, hrefused⟩ := Block.codebookLoad_loads hhead hopc hgood hfull hfree ha hR
    refine ⟨t, hexec, ?_⟩
    rw [hblock, Block.rd_atRest, Block.bit_atRest]
    exact ⟨Block.completed_of_standing hstands, hvalid, hrefused⟩
  case lookup =>
    obtain ⟨t, hexec, hblock⟩ := exec_issue_step (c := .lookupLoad blk cyc) rfl hblk hruns hgap
    obtain ⟨hstands, hvalid, hrefused⟩ := Block.lookupLoad_loads hhead hopc hgood hfull hfree ha hR
    refine ⟨t, hexec, ?_⟩
    rw [hblock, Block.rd_atRest, Block.bit_atRest]
    exact ⟨Block.completed_of_standing hstands, hvalid, hrefused⟩
  all_goals
    obtain ⟨t, hexec, hblock⟩ := exec_live_step (c := .bankCommandDone blk cyc) rfl hblk hruns
    refine ⟨t, hexec, ?_⟩
    rw [hblock]
  case done => exact Block.completed_of_standing (Block.bankDone_standing _ hdrain hopc)
  case others => rw [Block.bankDone_other _ hdrain hopc]
  case nothing => rw [Block.bankDone_none _ hnone]

end Sys2Proof.Machine

/-!
PROOFS. Inbound words of a block: payload and mark words at a leg endpoint (09_stations_traverses.md R263 to R266), the holding buffer
(05_scratchpad_bank_alus.md R138, R139), drive words (10_stakes.md R290, R298) and full deliveries (09 R263).
-/
namespace Sys2Proof.Machine

/-! ## Fields of a block at rest -/

@[simp] theorem Block.spm_atRest (b : Block) : b.atRest.spm = b.spm := rfl
@[simp] theorem Block.held_atRest (b : Block) : b.atRest.held = b.held := rfl
@[simp] theorem Block.router_atRest (b : Block) : b.atRest.router = b.router := rfl
@[simp] theorem Block.driveq_atRest (b : Block) : b.atRest.driveq = b.driveq := rfl
@[simp] theorem Block.leg_atRest (b : Block) (k : Nat) : b.atRest.leg k = b.leg k := rfl
@[simp] theorem Block.slotFull_atRest (b : Block) (r s : Nat) : b.atRest.slotFull r s = b.slotFull r s := rfl

/-! ## Leg endpoints -/

@[simp] theorem Block.leg_setLeg_self (b : Block) (k : Nat) (l : LegEnd) : (b.setLeg k l).leg k = l := SMap.get_put_self _ _ _ _

@[simp] theorem Block.leg_count (e : Env) (b : Block) (c : Nat) (p : Option Nat) (n k : Nat) : (b.count e c p n).leg k = b.leg k := by
  rw [Block.count_only]
  rfl

/-- A ring has at most 16 slots (Table 5-5). -/
theorem Block.dlvSlot_lt (b : Block) (k q : Nat) : b.dlvSlot k q < 16 := by
  have hslots : b.rd SP_RING_CTL_SCOUNT (b.rd LEP_A0_RING k) < 16 := Regs.rd_lt _ _ _ _
  have hlt : b.dlvSlot k q < b.rd SP_RING_CTL_SCOUNT (b.rd LEP_A0_RING k) + 1 := Nat.mod_lt _ (Nat.succ_pos _)
  omega

/-- A leg fault changes registers, counts and records (R264). -/
theorem Block.legFault_only (e : Env) (b : Block) (k cls sub leg seq : Nat) :
    b.legFault e k cls sub leg seq =
      let y := b.legFault e k cls sub leg seq
      { b with regs := y.regs, evcs := y.evcs, evs := y.evs, srcseq := y.srcseq, recq := y.recq, rdrop := y.rdrop } := by
  unfold Block.legFault
  rw [Block.raise_only, Block.count_only]
  rfl

/-- Where no part is open, none is closed. -/
theorem Block.closePart_none (e : Env) {b : Block} {k : Nat} (h : (b.leg k).part = none) : b.closePart e k = b := by
  simp only [Block.closePart, h]

/-- Closing a part changes its endpoint, and notes a short payload (Table 9-7). -/
theorem Block.closePart_only (e : Env) (b : Block) (k : Nat) :
    b.closePart e k =
      let y := b.closePart e k
      { b with regs := y.regs, legs := y.legs, evcs := y.evcs, evs := y.evs, srcseq := y.srcseq, recq := y.recq, rdrop := y.rdrop } := by
  unfold Block.closePart
  dsimp only
  split
  · rfl
  · split
    · rfl
    · split
      · rw [Block.legFault_only]
        rfl
      · rfl

@[simp] theorem Block.spm_closePart (e : Env) (b : Block) (k : Nat) : (b.closePart e k).spm = b.spm := by rw [Block.closePart_only]
@[simp] theorem Block.router_closePart (e : Env) (b : Block) (k : Nat) : (b.closePart e k).router = b.router := by
  rw [Block.closePart_only]
@[simp] theorem Block.driveq_closePart (e : Env) (b : Block) (k : Nat) : (b.closePart e k).driveq = b.driveq := by
  rw [Block.closePart_only]

/-! ## Words from the router -/

/-- The block whose router holds the deliveries `q`. -/
def Block.withDlv (b : Block) (q : List (Nat × FWord)) : Block := { b with router := { b.router with dlv := q } }

section Word
variable (e : Env) {b : Block} {k : Nat} {w : FWord} {q : List (Nat × FWord)} (hin : b.legIn k = true)
  (hfree : (b.leg k).stalled = false) (hw : takeFirst k b.router.dlv = some (w, q))
include hin hfree hw

/-- The first word held for an endpoint in use inbound, whose leg is not stalled, is handed on. -/
theorem Block.withWord_word (f : Block → FWord → Block) : b.withWord k f = f (b.withDlv q) w := by
  simp [Block.withWord, Block.withDlv, hin, hfree, hw]

theorem Block.inboundWord_word (lost : Bool) : b.inboundWord e k lost = (b.withDlv q).payloadIn e k w.data w.last lost :=
  Block.withWord_word hin hfree hw _

/-- A mark word goes to its checks, a drive word stays (10 R288). -/
theorem Block.tileWord_word :
    b.tileWord e k = if w.data % 16 = 15 then b else (b.withDlv q).tileReceived e k (Hdr.ofBits w.data) w.last :=
  Block.withWord_word hin hfree hw _

end Word

theorem Block.withWord_idle {b : Block} {k : Nat} (h : b.legIn k = false ∨ (b.leg k).stalled = true ∨ takeFirst k b.router.dlv = none)
    (f : Block → FWord → Block) : b.withWord k f = b := by
  unfold Block.withWord
  rcases h with h | h | h
  · simp [h]
  · simp [h]
  · simp only [h, ite_self]

/-! ## Payload and mark words -/

@[simp] theorem Block.spm_spWrite (b : Block) (a : Nat) (bs : List Byte) : (b.spWrite a bs).spm = b.spm.wrN a bs := rfl
@[simp] theorem Block.router_spWrite (b : Block) (a : Nat) (bs : List Byte) : (b.spWrite a bs).router = b.router := rfl

/-- A word written where its granules are on (R161). -/
theorem Block.writeWord_on (e : Env) {b : Block} {r s off : Nat} (data : Nat)
    (hon : b.granOn (b.slotAddr r s + off) (b.slotAddr r s + off + 128) = true) :
    b.writeWord e r s off data = b.spWrite (b.slotAddr r s + off) (leBytes 128 data) := if_pos hon

/-- The next word of an open part, in its slot, that is free and without held words, is written to its place (R138, R263). -/
theorem Block.inWord_written (e : Env) {b : Block} {k q off r s : Nat} (data : Nat) (hr : r = b.rd LEP_A0_RING k) (hs : s = b.dlvSlot k q)
    (hfit : off + 128 ≤ b.slotSize r) (hfree : b.dlvFree k q = true) (hheld : b.held.any (fun h => h.ring == r && h.slot == s) = false)
    (hon : b.granOn (b.slotAddr r s + off) (b.slotAddr r s + off + 128) = true) :
    b.inWord e k q off data false = b.spWrite (b.slotAddr r s + off) (leBytes 128 data) := by
  subst hr hs
  simp only [Block.inWord, if_neg (Nat.not_lt.mpr hfit), hfree, hheld, Bool.not_false, Bool.and_self, if_true]
  exact Block.writeWord_on e data hon

/-- The block when one word more of the open part `p` of endpoint `k` has come. -/
def Block.gotWord (b : Block) (k : Nat) (p : OpenPart) : Block := b.setLeg k { b.leg k with part := some { p with got := p.got + 1 } }

/-- The word that comes leaves the slots of the endpoint's deliveries. -/
theorem Block.dlvSlot_gotWord (b : Block) (k : Nat) (p : OpenPart) (q : Nat) : (b.gotWord k p).dlvSlot k q = b.dlvSlot k q := by
  unfold Block.dlvSlot Block.gotWord
  rw [Block.leg_setLeg_self]
  rfl

theorem Block.dlvFree_gotWord (b : Block) (k : Nat) (p : OpenPart) (q : Nat) : (b.gotWord k p).dlvFree k q = b.dlvFree k q := by
  unfold Block.dlvFree
  rw [Block.dlvSlot_gotWord, Block.gotWord, Block.leg_setLeg_self]
  rfl

/-- A payload word of an open part goes to its delivery; the last one closes the part (R263). -/
theorem Block.payloadIn_open (e : Env) {b : Block} {k : Nat} {p : OpenPart} (data : Nat) (last lost : Bool) (hp : (b.leg k).part = some p)
    (hkeep : p.drop = false) (hgot : p.got < p.want) :
    b.payloadIn e k data last lost =
      let y := (b.gotWord k p).inWord e k p.dlv (p.hdr.part * b.partStride k + 128 * p.got) data lost
      if last then y.closePart e k else y := by
  have htaken : (p.drop || decide (p.want ≤ p.got)) = false := by simp [hkeep, hgot]
  simp only [Block.payloadIn, hp, htaken, Bool.false_eq_true, if_false]
  rfl

/-- Such a word whose slot takes it is written to its place (R138, R263). -/
theorem Block.payloadIn_written (e : Env) {b : Block} {k off r s : Nat} {p : OpenPart} (data : Nat) (last : Bool)
    (hp : (b.leg k).part = some p) (hkeep : p.drop = false) (hgot : p.got < p.want) (hr : r = b.rd LEP_A0_RING k)
    (hs : s = b.dlvSlot k p.dlv) (hoff : off = p.hdr.part * b.partStride k + 128 * p.got) (hfit : off + 128 ≤ b.slotSize r)
    (hfree : b.dlvFree k p.dlv = true) (hheld : b.held.any (fun h => h.ring == r && h.slot == s) = false)
    (hon : b.granOn (b.slotAddr r s + off) (b.slotAddr r s + off + 128) = true) :
    (b.payloadIn e k data last false).spm = b.spm.wrN (b.slotAddr r s + off) (leBytes 128 data) ∧
      (b.payloadIn e k data last false).router = b.router := by
  have hwritten : (b.gotWord k p).inWord e k p.dlv off data false = (b.gotWord k p).spWrite (b.slotAddr r s + off) (leBytes 128 data) :=
    Block.inWord_written e data hr (hs.trans (b.dlvSlot_gotWord k p _).symm) hfit ((b.dlvFree_gotWord k p _).trans hfree) hheld hon
  rw [Block.payloadIn_open e data last false hp hkeep hgot, ← hoff, hwritten]
  cases last
  · exact ⟨Block.spm_spWrite _ _ _, Block.router_spWrite _ _ _⟩
  · dsimp only
    rw [if_pos rfl, Block.spm_closePart, Block.router_closePart]
    exact ⟨Block.spm_spWrite _ _ _, Block.router_spWrite _ _ _⟩

/-- A mark of the next delivery with the right leg and format and a part not there yet opens that part (R263, R266, Table 9-7). -/
theorem Block.tileReceived_opens (e : Env) {b : Block} {k n : Nat} {h : Hdr} {d : Dlv} (hn : n = (b.leg k).n64)
    (hd : d = (b.leg k).dlv n) (hnone : (b.leg k).part = none) (hleg : h.leg = b.rd LEP_A0_LEG k) (hseq : extCount n h.seq = n)
    (hfmt : b.fmtOk k h d = true) (hpart : h.part ≤ b.rd LEP_A1_NPAN k) (hnew : h.part ∉ d.arrived) :
    ∃ p, ((b.tileReceived e k h false).leg k).part = some p ∧ p.dlv = n ∧ p.got = 0 ∧ p.drop = false ∧
      p.want = (if h.void then 0 else payloadWords (b.rd LEP_A1_TWORDS k) h.fmt (b.rd LEP_A0_DFMT k)) := by
  subst hn hd
  have hbad : ¬ (b.rd LEP_A1_NPAN k < h.part ∨ h.part ∈ ((b.leg k).dlv (b.leg k).n64).arrived) := by
    rintro (hlt | hmem)
    · omega
    · exact hnew hmem
  have hopens : b.tileReceived e k h false = b.acceptPart e k (b.leg k).n64 h false false := by
    simp [Block.tileReceived, Block.closePart_none e hnone, hleg, hseq, Block.markChecks, hfmt, hbad]
  rw [hopens]
  simp only [Block.acceptPart, Bool.false_eq_true, if_false, Block.leg_setLeg_self]
  exact ⟨_, rfl, rfl, rfl, rfl, rfl⟩

/-! ## Drive words -/

/-- The block with the leg of endpoint `k` stalled or not. -/
def Block.setStalled (b : Block) (k : Nat) (on : Bool) : Block := b.setLeg k { b.leg k with stalled := on }

@[simp] theorem Block.stalled_setStalled (b : Block) (k : Nat) (on : Bool) : ((b.setStalled k on).leg k).stalled = on := by
  rw [Block.setStalled, Block.leg_setLeg_self]

/-- Raising PEAK changes registers alone (Table 5-22). -/
theorem Block.peak_only (b : Block) : b.peak = { b with regs := b.peak.regs } := by
  unfold Block.peak
  split <;> rfl

/-- A drive word that waits stays in the router, and its leg is stalled (10 R298). -/
theorem Block.stalled_waits (e : Env) (b : Block) (k : Nat) :
    let y := (((b.setStalled k false).closePart e k).setStalled k true).peak
    (y.leg k).stalled = true ∧ y.router = b.router ∧ y.driveq = b.driveq := by
  dsimp only
  rw [Block.peak_only]
  exact ⟨Block.stalled_setStalled _ _ _, Block.router_closePart e (b.setStalled k false) k,
    Block.driveq_closePart e (b.setStalled k false) k⟩

/-- A drive word in sequence, with room for its drive, is a drive of the endpoint's stake (10 R290). -/
theorem Block.driveWord_queued (e : Env) {b : Block} {k : Nat} {h : Hdr} (hnone : (b.leg k).part = none) (hleg : h.leg = b.rd LEP_A0_LEG k)
    (hseq : extCount (b.leg k).dseq h.seq = (b.leg k).dseq) (hstake : b.legStake k ≠ 0xFFFF) (hroom : b.driveq.length < 14) :
    b.driveWord e k h = some
      { b.setLeg k { b.leg k with dseq := (b.leg k).dseq + 1, totals := addTotal (b.leg k).totals h.frame h.inc } with
        driveq := b.driveq ++ [{ stake := b.legStake k % 64, inc := h.inc, void := h.void, tag := h.frame, parcel := b.rd RT_CTL_PARCEL
                                 gen := some e.gen, by_ := .endpoint e.blk k }] } := by
  have hfits : ¬ (¬ b.legStake k = 0xFFFF ∧ 14 ≤ b.driveq.length) := by omega
  unfold Block.driveWord
  rw [Block.closePart_none e hnone]
  dsimp only
  rw [if_neg (not_not.mpr hleg), hseq, if_neg (lt_irrefl _), if_neg hfits, if_neg (lt_irrefl _), if_neg hstake, Int.toNat_natCast]
  rfl

section DriveWord
variable (e : Env) {b : Block} {k : Nat} {w : FWord} {q : List (Nat × FWord)} (hin : b.legIn k = true)
  (hw : takeFirst k b.router.dlv = some (w, q)) (hdrive : w.data % 16 = 15)
include hin hw hdrive

/-- A drive word is taken, or waits and stalls its leg (10 R290, R298). -/
theorem Block.driveIn_word :
    b.driveIn e k = (((b.setStalled k false).withDlv q).driveWord e k (Hdr.ofBits w.data)).getD
      ((((b.setStalled k false).closePart e k).setStalled k true).peak) := by
  unfold Block.driveIn
  change (b.setStalled k false).withWord k _ = _
  rw [Block.withWord_word (b := b.setStalled k false) hin (b.stalled_setStalled k false) hw, if_neg (not_not.mpr hdrive)]
  split
  · next h => rw [h, Option.getD_some]
  · next h =>
    rw [h, Option.getD_none]
    rfl

/-- A drive word in sequence, with room, leaves the router, and its drive stands at the tail of the queue (10 R290). -/
theorem Block.driveIn_queued {h : Hdr} (hh : h = Hdr.ofBits w.data) (hnone : (b.leg k).part = none) (hleg : h.leg = b.rd LEP_A0_LEG k)
    (hseq : extCount (b.leg k).dseq h.seq = (b.leg k).dseq) (hstake : b.legStake k ≠ 0xFFFF) (hroom : b.driveq.length < 14) :
    (b.driveIn e k).router.dlv = q ∧ ((b.driveIn e k).leg k).dseq = (b.leg k).dseq + 1 ∧
      (b.driveIn e k).driveq = b.driveq ++ [{ stake := b.legStake k % 64, inc := h.inc, void := h.void, tag := h.frame
                                              parcel := b.rd RT_CTL_PARCEL, gen := some e.gen, by_ := .endpoint e.blk k }] := by
  have hrun : ((b.setStalled k false).withDlv q).leg k = { b.leg k with stalled := false } := b.leg_setLeg_self _ _
  have hqueued := Block.driveWord_queued e (b := (b.setStalled k false).withDlv q) (k := k) (h := h) (by rw [hrun, hnone]) hleg
    (by rw [hrun, hseq]) hstake hroom
  rw [Block.driveIn_word e hin hw hdrive, ← hh, hqueued, Option.getD_some]
  refine ⟨rfl, ?_, rfl⟩
  refine (congrArg LegEnd.dseq (Block.leg_setLeg_self _ k _)).trans ?_
  rw [hrun]

end DriveWord

/-! ## The holding buffer -/

theorem Block.heldWrite_none (e : Env) {b : Block} (h : b.held.zipIdx.filter (fun x => !x.1.isVoid && b.heldReady x.2 x.1) = []) :
    b.heldWrite e = b := by
  simp only [Block.heldWrite, h]

/-- The first held word that may be written leaves the buffer, for its place where its granules are on (R138, R161). -/
theorem Block.heldWrite_first (e : Env) {b : Block} {h : Held} {i : Nat} {rest : List (Held × Nat)}
    (hfirst : b.held.zipIdx.filter (fun x => !x.1.isVoid && b.heldReady x.2 x.1) = (h, i) :: rest) :
    (b.heldWrite e).held = b.held.eraseIdx i ∧
      (b.granOn (b.slotAddr h.ring h.slot + h.off) (b.slotAddr h.ring h.slot + h.off + 128) = true →
        (b.heldWrite e).spm = b.spm.wrN (b.slotAddr h.ring h.slot + h.off) (leBytes 128 h.data)) := by
  simp only [Block.heldWrite, hfirst]
  refine ⟨trivial, fun hon => ?_⟩
  rw [Block.writeWord_on e _ hon, Block.spm_spWrite]

/-- A held word whose slot has stayed full beyond its ring's window (R138). -/
def Block.heldTooLong (b : Block) (cyc : Nat) (h : Held) : Bool :=
  b.slotFull h.ring h.slot && b.rd SP_RING_CTL_HWIN h.ring != 0 && decide (h.since + (b.rd SP_RING_CTL_HWIN h.ring : Int) < cyc)

theorem Block.holdExpiry_none {e : Env} {b : Block} (h : b.held.find? (b.heldTooLong e.cyc) = none) : b.holdExpiry e = b := by
  unfold Block.heldTooLong at h
  simp only [Block.holdExpiry, h]

theorem Block.holdExpiry_breach {e : Env} {b : Block} {h : Held} (hfind : b.held.find? (b.heldTooLong e.cyc) = some h) :
    b.holdExpiry e = b.holdBreach e 0x10 h.ring h.slot := by
  unfold Block.heldTooLong at hfind
  simp only [Block.holdExpiry, hfind]

theorem Block.holdBreach_only (e : Env) (b : Block) (sub r s : Nat) :
    b.holdBreach e sub r s =
      { (b.set1 SP_STAT_HBREACH).spBreach e sub r s true with held := [], router := (b.holdBreach e sub r s).router } := rfl

/-- A breach of the holding buffer drops every held word, sets HBREACH and shows its subtype (R139). -/
theorem Block.holdBreach_shows (e : Env) (b : Block) {sub : Nat} (hsub : sub < 256) (r s : Nat) :
    (b.holdBreach e sub r s).held = [] ∧ (b.holdBreach e sub r s).bit SP_STAT_HBREACH = true ∧
      (b.holdBreach e sub r s).rd SP_LAST_SUBTYPE = sub ∧ (b.holdBreach e sub r s).spm = b.spm := by
  rw [Block.holdBreach_only]
  refine ⟨rfl, ?_, ?_, ?_⟩
  · show (Block.spBreach e _ sub r s true).bit SP_STAT_HBREACH = true
    rw [Block.spBreach, Block.bit_raise (by decide) (by decide), Block.bit_wr_apart _ _ _ _ _ _ _ _ (by decide),
      Block.bit_wr_apart _ _ _ _ _ _ _ _ (by decide), Block.bit_wr_apart _ _ _ _ _ _ _ _ (by decide), Block.set1,
      Block.bit_wr_self _ _ _ _ _ (by decide) (by decide)]
    rfl
  · show (Block.spBreach e _ sub r s true).rd SP_LAST_SUBTYPE = sub
    rw [Block.spBreach, Block.rd_raise (by decide) (by decide), Block.rd_wr_self _ _ _ _ _ (by decide) (by decide)]
    exact Nat.mod_eq_of_lt hsub
  · show (Block.spBreach e _ sub r s true).spm = b.spm
    rw [Block.spBreach, Block.raise_only]
    rfl

/-! ## Full deliveries -/

/-- The full bits of the rings lie above the registers of breaches and records. -/
theorem Field.apart_full {f : Field} (r : Nat) (hu : f.unit = .block) (hbits : f.hi < 32 ∧ f.lo ≤ f.hi) (hlow : f.off < 0xC00) :
    f.apart SP_RING_STATE_FULL 0 0 r 0 = true := by
  refine decide_eq_true ⟨hu.symm, hbits.1, hbits.2, by decide, Or.inl ?_⟩
  show 0xC0C + r * 16 + 0 * 0 ≠ f.off + 0 * f.str + 0 * f.str2
  omega

/-- A breach leaves the full bits. -/
theorem Block.slotFull_spBreach (e : Env) (b : Block) (sub ring slot : Nat) (td : Bool) (r s : Nat) :
    (b.spBreach e sub ring slot td).slotFull r s = b.slotFull r s := by
  unfold Block.slotFull Block.spBreach
  rw [Block.rd_raise (Field.apart_full r rfl (by decide) (by decide)) (Field.apart_full r rfl (by decide) (by decide)),
    Block.rd_wr_apart _ _ _ _ _ _ _ _ (Field.apart_full r rfl (by decide) (by decide)),
    Block.rd_wr_apart _ _ _ _ _ _ _ _ (Field.apart_full r rfl (by decide) (by decide)),
    Block.rd_wr_apart _ _ _ _ _ _ _ _ (Field.apart_full r rfl (by decide) (by decide))]

/-- A slot that is marked full is full, whether it was before or not (R135, R136). -/
theorem Block.slotFull_markFull (e : Env) (b : Block) (r : Nat) {s : Nat} (t : TagEnt) (hs : s < 16) :
    (b.markFull e r s t).slotFull r s = true := by
  unfold Block.markFull
  split
  · next hfull => rw [Block.tagFault, Block.slotFull_spBreach, hfull]
  · have hapart : SP_RING_STATE_FILL.apart SP_RING_STATE_FULL r 0 r 0 = true :=
      decide_eq_true ⟨rfl, by decide, by decide, by decide, Or.inr (Or.inr (by decide))⟩
    have hwidth : SP_RING_STATE_FULL.hi + 1 - SP_RING_STATE_FULL.lo = 16 := rfl
    rw [Block.slotFull, Block.rd_wr_apart _ _ _ _ _ _ _ _ hapart, Block.setFull,
      Block.rd_wr_self _ _ _ _ _ (by decide) (by decide), hwidth, Nat.testBit_mod_two_pow]
    simp [hs]

theorem Block.slotFull_count (e : Env) (b : Block) (c : Nat) (p : Option Nat) (n r s : Nat) :
    (b.count e c p n).slotFull r s = b.slotFull r s := by
  rw [Block.count_only]
  rfl

theorem Block.deliveryFull_empty (e : Env) {b : Block} {k : Nat} (h : (b.leg k).complete = []) : b.deliveryFull e k = b := by
  simp only [Block.deliveryFull, h]

section Delivery
variable (e : Env) {b : Block} {k : Nat} {d : Dlv} {q : List Dlv} (h : (b.leg k).complete = d :: q)
include h

/-- A delivery whose words are still held, or whose slot is not free, waits (R263). -/
theorem Block.deliveryFull_waits
    (hwaits : (b.held.any (fun h => h.ep == k && h.dlv == d.seq && !h.isVoid) || !b.dlvFree k d.seq) = true) : b.deliveryFull e k = b := by
  simp only [Block.deliveryFull, h, hwaits, if_true]

/-- The oldest complete delivery fills its slot and leaves the endpoint's list (R263). -/
theorem Block.deliveryFull_fills
    (hready : (b.held.any (fun h => h.ep == k && h.dlv == d.seq && !h.isVoid) || !b.dlvFree k d.seq) = false) :
    ((b.deliveryFull e k).leg k).complete = q ∧ ((b.deliveryFull e k).leg k).fullTo = (b.leg k).fullTo + 1 ∧
      (b.deliveryFull e k).slotFull (b.rd LEP_A0_RING k) (b.dlvSlot k d.seq) = true := by
  simp only [Block.deliveryFull, h, hready, Bool.false_eq_true, if_false]
  have hfilled : ∀ (y : Block) (t : TagEnt) (l : LegEnd), ((y.markFull e (b.rd LEP_A0_RING k) (b.dlvSlot k d.seq) t).setLeg k l).slotFull
      (b.rd LEP_A0_RING k) (b.dlvSlot k d.seq) = true := fun y t l => Block.slotFull_markFull e y _ t (b.dlvSlot_lt k d.seq)
  split <;> simp only [Block.leg_count, Block.slotFull_count, Block.leg_setLeg_self, hfilled, true_and]

end Delivery

/-- Settles O29: each command is a step of its block (`exec_live_step`), and what the step does is said by `Block.payloadIn_written`,
`Block.tileReceived_opens`, `Block.driveIn_word`, `Block.driveWord_queued`, `Block.heldWrite_first`, `Block.holdBreach_shows` and
`Block.deliveryFull_fills`. -/
theorem inboundWords : Obligations.InboundWords := by
  intro blk cyc ep s B hblk hruns hB
  have hstep : ∀ (c : Instr) (f : Env → Block → Block), exec c s = .next (s.onLive blk cyc f) →
      ∃ t, exec c s = .next t ∧ t.block blk = (f (s.env blk cyc) B).atRest := fun c f hc => hB ▸ exec_live_step hc hblk hruns
  have hcyc : (s.env blk cyc).cyc = cyc := rfl
  have hself : (s.env blk cyc).blk = blk := rfl
  clear hB
  generalize s.env blk cyc = e at hstep hcyc hself ⊢
  refine ⟨fun w q lost W hin hfree hw hW => ⟨?payload, fun hmark => ?mark, fun hdrive => ?noMark⟩, fun hidle lost => ?idle,
    fun w q W hin hw hdrive hW => ?drive, fun h i rest hfirst => ?held, fun hnone => ?noneReady,
    fun f hf => ⟨fun h hfind => ?breach, fun hfind => ?inTime⟩, fun d q hq => ⟨fun hready => ?fills, fun hwaits => ?waits⟩,
    fun hempty => ?noDelivery⟩
  case payload =>
    obtain ⟨t, hexec, hblock⟩ := hstep (.inboundWord blk cyc ep lost) _ rfl
    have hW : W = B.withDlv q := hW
    rw [Block.inboundWord_word e hin hfree hw, ← hW] at hblock
    refine ⟨t, hexec, hblock, ?_⟩
    rintro p r sl off hp hkeep hgot hr hsl hoff hfit hslot rfl hheld hon
    subst hW
    obtain ⟨hspm, hrouter⟩ := Block.payloadIn_written e (b := B.withDlv q) w.data w.last hp hkeep hgot hr hsl hoff hfit hslot
      hheld hon
    rw [hblock, Block.spm_atRest, Block.router_atRest, hrouter]
    exact ⟨hspm, rfl⟩
  case mark =>
    obtain ⟨t, hexec, hblock⟩ := hstep (.tileReceived blk cyc ep) _ rfl
    have hW : W = B.withDlv q := hW
    rw [Block.tileWord_word e hin hfree hw, if_neg hmark, ← hW] at hblock
    refine ⟨t, hexec, hblock, ?_⟩
    intro h d n hh hn hd hnone hleg hseq hfmt hpart hnew hlast
    subst hW
    rw [hblock, hlast, ← hh, Block.leg_atRest]
    exact Block.tileReceived_opens e (b := B.withDlv q) hn hd hnone hleg hseq hfmt hpart hnew
  case noMark =>
    obtain ⟨t, hexec, hblock⟩ := hstep (.tileReceived blk cyc ep) _ rfl
    exact ⟨t, hexec, by rw [hblock, Block.tileWord_word e hin hfree hw, if_pos hdrive]⟩
  case idle =>
    obtain ⟨t, hexec, hblock⟩ := hstep (.inboundWord blk cyc ep lost) _ rfl
    obtain ⟨u, huexec, hublock⟩ := hstep (.tileReceived blk cyc ep) _ rfl
    refine ⟨t, u, hexec, huexec, ?_, ?_⟩
    · rw [hblock, Block.inboundWord, Block.withWord_idle hidle]
    · rw [hublock, Block.tileWord, Block.withWord_idle hidle]
  case drive =>
    obtain ⟨t, hexec, hblock⟩ := hstep (.driveWordReceived (.endpoint blk cyc ep)) _ rfl
    have hW : W = (B.setStalled ep false).withDlv q := hW
    have hword := Block.driveIn_word e hin hw hdrive
    rw [← hW] at hword
    refine ⟨fun y hy => ⟨t, hexec, ?_⟩, fun hy => ⟨t, hexec, ?_⟩, fun h hh hnone hleg hseq hstake hroom => ⟨t, hexec, ?_⟩⟩
    · rw [hblock, hword, hy, Option.getD_some]
    · rw [hblock, hword, hy, Option.getD_none, Block.leg_atRest, Block.router_atRest, Block.driveq_atRest]
      exact Block.stalled_waits e B ep
    · subst hh hself
      rw [hblock, Block.leg_atRest, Block.router_atRest, Block.driveq_atRest]
      exact Block.driveIn_queued e hin hw hdrive rfl hnone hleg hseq hstake hroom
  case held =>
    obtain ⟨t, hexec, hblock⟩ := hstep (.heldWordWrite blk cyc) _ rfl
    refine ⟨t, hexec, ?_⟩
    rw [hblock, Block.held_atRest, Block.spm_atRest]
    exact Block.heldWrite_first e hfirst
  case noneReady =>
    obtain ⟨t, hexec, hblock⟩ := hstep (.heldWordWrite blk cyc) _ rfl
    exact ⟨t, hexec, by rw [hblock, Block.heldWrite_none e hnone]⟩
  case breach =>
    obtain ⟨t, hexec, hblock⟩ := hstep (.holdWindowExpiry blk cyc) _ rfl
    subst hf hcyc
    refine ⟨t, hexec, ?_⟩
    rw [hblock, Block.holdExpiry_breach hfind, Block.held_atRest, Block.bit_atRest, Block.rd_atRest, Block.spm_atRest]
    exact Block.holdBreach_shows e B (by decide) _ _
  case inTime =>
    obtain ⟨t, hexec, hblock⟩ := hstep (.holdWindowExpiry blk cyc) _ rfl
    subst hf hcyc
    exact ⟨t, hexec, by rw [hblock, Block.holdExpiry_none hfind]⟩
  all_goals obtain ⟨t, hexec, hblock⟩ := hstep (.deliveryFull blk cyc ep) _ rfl
  case fills =>
    refine ⟨t, hexec, ?_⟩
    rw [hblock, Block.leg_atRest, Block.slotFull_atRest]
    exact Block.deliveryFull_fills e hq hready
  case waits => exact ⟨t, hexec, by rw [hblock, Block.deliveryFull_waits e hq hwaits]⟩
  case noDelivery => exact ⟨t, hexec, by rw [hblock, Block.deliveryFull_empty e hempty]⟩

end Sys2Proof.Machine

/-!
PROOFS. The frames of the units: what a command of one block, of one region or of one sightline port may change (06 R163, 05 R138,
07 R195, 10 R298, 12 R338), and that a unit which does not run, or that no access reaches, is left alone (18 R491, 01 R28, 17 R455).
-/
namespace Sys2Proof.Machine

/-! ## Blocks -/

theorem BlockFrame.refl (blk : Nat) (s : State) : BlockFrame blk s s :=
  ⟨rfl, fun _ _ => rfl, fun _ => rfl, rfl, fun _ _ => rfl⟩

/-- A discarded access stays in the frame of every block. -/
theorem BlockFrame.discard (blk : Nat) (s : State) (n : Nat) : BlockFrame blk s (s.discard n) := by
  obtain ⟨hstate, hhub, hwords⟩ := s.discard_only n
  refine ⟨?_, fun k _ => s.discard_block n k, fun m => ?_, hhub, hwords⟩
  · conv_lhs => rw [hstate]
    rw [hstate]
  · rw [s.discard_region n m]

/-- A command of a block keeps to its frame, and is no step where the block's clock does not run. -/
theorem State.onLive_keeps (s : State) (blk cyc : Nat) (f : Env → Block → Block) :
    BlockFrame blk s (s.onLive blk cyc f) ∧ (s.runs blk = false → s.onLive blk cyc f = s) :=
  ⟨s.onLive_frame blk cyc f, s.onLive_still blk cyc f⟩

theorem State.onIssue_keeps (s : State) (blk cyc : Nat) (f : Env → Block → Block) :
    BlockFrame blk s (s.onIssue blk cyc f) ∧ (s.runs blk = false → s.onIssue blk cyc f = s) := by
  refine ⟨s.onIssue_frame blk cyc f, fun hstill => ?_⟩
  rw [State.onIssue, s.onLive_still blk cyc f hstill, ite_self]

/-- A command of one kind of core instruction is a step of the core when that kind is next, and else none. -/
theorem State.coreOf_cases (s : State) (blk cyc : Nat) (kind : Rv → Bool) :
    s.coreOf blk cyc kind = s.onLive blk cyc (fun e b => b.coreStep e) ∨ s.coreOf blk cyc kind = s := by
  unfold State.coreOf
  split
  · split
    · exact .inl rfl
    · exact .inr rfl
  · exact .inr rfl

theorem State.coreOf_keeps (s : State) (blk cyc : Nat) (kind : Rv → Bool) :
    BlockFrame blk s (s.coreOf blk cyc kind) ∧ (s.runs blk = false → s.coreOf blk cyc kind = s) := by
  rcases s.coreOf_cases blk cyc kind with h | h
  · rw [h]
    exact s.onLive_keeps blk cyc _
  · rw [h]
    exact ⟨BlockFrame.refl blk s, fun _ => rfl⟩

/-- A write of a block's page keeps to the block's frame; before ready, and where no access reaches the page, it is discarded. -/
theorem State.onPage_keeps (s : State) (blk : Nat) (f : Env → Block → Block) :
    BlockFrame blk s (s.onPage blk f) ∧ (s.ready = false ∨ s.reaches blk = false → s.onPage blk f = s.discard) := by
  unfold State.onPage
  refine ⟨?_, fun h => if_neg ?_⟩
  · split
    · exact s.putBlock_frame blk _
    · exact BlockFrame.discard blk s 1
  · rcases h with h | h <;> simp [h]

/-! ## Regions -/

theorem RegionFrame.refl (n : Nat) (s : State) : RegionFrame n s s := ⟨rfl, fun _ _ => rfl⟩

/-- A command of a region keeps to its frame, and a lost region makes no step. -/
theorem State.onLiveRegion_keeps (s : State) (n cyc : Nat) (f : REnv → Region → Region) :
    RegionFrame n s (s.onLiveRegion n cyc f) ∧ ((s.region n).lost = true → s.onLiveRegion n cyc f = s) :=
  ⟨s.onLiveRegion_frame n cyc f, s.onLiveRegion_lost n cyc f⟩

/-- A word at a store stream that is no drive word changes nothing. -/
theorem exec_driveWordReceived_stream_keeps {n cyc i : Nat} {w : FWord} {s t : State}
    (hexec : exec (.driveWordReceived (.stream n cyc i w)) s = .next t) :
    RegionFrame n s t ∧ ((s.region n).lost = true → t = s) := by
  have hmeans : exec (.driveWordReceived (.stream n cyc i w)) s =
      if (Hdr.ofBits w.data).fmt = 15 ∧ w.v then
        .next (s.onLiveRegion n cyc (fun e g => g.driveWord e i (Hdr.ofBits w.data)))
      else .next s := rfl
  rw [hmeans] at hexec
  split at hexec
  · obtain rfl := Host.Outcome.next.inj hexec
    exact s.onLiveRegion_keeps n cyc _
  · obtain rfl := Host.Outcome.next.inj hexec
    exact ⟨RegionFrame.refl n s, fun _ => rfl⟩

/-! ## Sightline ports -/

theorem PortFrame.refl (k : Nat) (s : State) : PortFrame k s s := ⟨rfl, fun _ _ => rfl⟩

theorem PortFrame.trans {k : Nat} {s t u : State} (h : PortFrame k s t) (h' : PortFrame k t u) : PortFrame k s u := by
  obtain ⟨hstate, hports⟩ := h
  obtain ⟨hstate', hports'⟩ := h'
  refine ⟨?_, fun j hj => (hports' j hj).trans (hports j hj)⟩
  rw [hstate', hstate]

theorem PortFrame.discard (k : Nat) (s : State) (n : Nat) : PortFrame k s (s.discard n) := by
  obtain ⟨hstate, -, -⟩ := s.discard_only n
  refine ⟨?_, fun j _ => s.discard_port n j⟩
  conv_lhs => rw [hstate]
  rw [hstate]

theorem PortFrame.setPort (k : Nat) (s : State) (p : Port) : PortFrame k s (s.setPort k p) := by
  refine ⟨?_, fun j hj => s.port_setPort_ne k j p hj⟩
  unfold State.setPort
  split <;> rfl

/-- The oldest accepted control message leaves the port, and what it says is a step of the port (12 R359). -/
theorem exec_voidContextReceived_frame {k : Nat} {s t : State} (hexec : exec (.voidContextReceived k) s = .next t) :
    PortFrame k s t := by
  change execVoidContextReceived k s = _ at hexec
  unfold execVoidContextReceived at hexec
  dsimp only at hexec
  split at hexec
  · split at hexec
    · have hstep : ∀ f : PEnv → Port → Port, ∀ p : Port, PortFrame k s ((s.setPort k p).onPort k (s.setPort k p).now16 f) :=
        fun f p => (PortFrame.setPort k s p).trans ((s.setPort k p).onPort_frame k _ f)
      split at hexec
      all_goals
        obtain rfl := Host.Outcome.next.inj hexec
        exact hstep _ _
    · obtain rfl := Host.Outcome.next.inj hexec
      exact PortFrame.refl k s
  · obtain rfl := Host.Outcome.next.inj hexec
    exact PortFrame.refl k s

/-- A port's step that a condition of the device holds back keeps to the port's frame. -/
theorem PortFrame.ite {k : Nat} {s t u v : State} {p : Prop} [Decidable p] (ht : PortFrame k s t) (hu : PortFrame k s u)
    (h : (if p then .next t else .next u : Host.Outcome State Fault Refusal) = .next v) : PortFrame k s v := by
  split at h
  · exact Host.Outcome.next.inj h ▸ ht
  · exact Host.Outcome.next.inj h ▸ hu

/-- Settles O18: each command is a step of its unit, a write of its page or the step of its port, and what such a step may change is
said by `State.onLive_keeps`, `State.onPage_keeps`, `State.onLiveRegion_keeps` and `State.onPort_frame`. -/
theorem unitCommandsKeepToTheirUnit : Obligations.UnitCommandsKeepToTheirUnit := by
  refine ⟨?blocks, ?pages, ?regions, ?ports⟩
  case blocks =>
    rintro blk cyc c s t ⟨ep, lost, faults, upsets, hc⟩ hexec
    rcases hc with rfl | rfl | rfl | rfl | rfl | rfl | rfl | rfl | rfl | rfl | rfl | rfl | rfl | rfl | rfl | rfl | rfl | rfl | rfl |
      rfl | rfl | rfl | rfl | rfl | rfl | rfl | rfl | rfl | rfl | rfl | rfl | rfl | rfl | rfl
    all_goals obtain rfl := Host.Outcome.next.inj hexec
    -- instructions of the core, commands that issue, and the other steps of the block
    any_goals with_reducible exact s.coreOf_keeps blk cyc _
    any_goals with_reducible exact s.onIssue_keeps blk cyc _
    all_goals exact s.onLive_keeps blk cyc _
  case pages =>
    rintro blk c s t ⟨v, p, i, rfl | rfl | rfl | rfl | rfl | rfl⟩ hexec
    all_goals
      obtain rfl := Host.Outcome.next.inj hexec
      exact s.onPage_keeps blk _
  case regions =>
    rintro n c s t ⟨cyc, eng, desc, k, first, port, v, hot, i, got, w, upsets, hc⟩ hexec
    rcases hc with rfl | rfl | rfl | rfl | rfl | rfl | rfl | rfl | rfl | rfl | rfl | rfl | rfl | rfl | rfl
    any_goals
      obtain rfl := Host.Outcome.next.inj hexec
      exact s.onLiveRegion_keeps n _ _
    exact exec_driveWordReceived_stream_keeps hexec
  case ports =>
    rintro k c s t ⟨tm, lane, marks, ok, shot, hc⟩ hexec
    rcases hc with rfl | rfl | rfl | rfl | rfl | rfl | rfl | rfl | rfl | rfl
    any_goals
      obtain rfl := Host.Outcome.next.inj hexec
      exact s.onPort_frame k _ _
    · exact exec_voidContextReceived_frame hexec
    · exact PortFrame.ite (PortFrame.discard k s 1) (s.onPort_frame k _ _) hexec
    · exact PortFrame.ite (PortFrame.discard k s 1) (s.onPort_frame k _ _) hexec
    · exact PortFrame.ite (s.onPort_frame k _ _) (PortFrame.refl k s) hexec

end Sys2Proof.Machine

/-!
PROOFS. The scalar core (06_scalar_core.md R163 to R173): what a command that executes one instruction makes of its block, how an
instruction retires, loads, stores, reads and writes a CSR, and how an exception is taken and left (R169).
-/
namespace Sys2Proof.Machine

/-! ## Registers and retirement -/

/-- The register just written reads back, but x0, which reads 0 (R163). -/
theorem Core.get_set_self (c : Core) (rd : Nat) (v : Word) : (c.set rd v).get rd = if rd % 32 = 0 then 0 else v := by
  unfold Core.get Core.set
  by_cases hx0 : rd % 32 = 0
  · rw [if_pos hx0, if_pos hx0]
  · rw [if_neg hx0, if_neg hx0, if_neg hx0]
    exact SMap.get_put_self _ _ _ _

/-- A write leaves every other register. -/
theorem Core.get_set_ne (c : Core) {rd r : Nat} (v : Word) (h : r % 32 ≠ rd % 32) : (c.set rd v).get r = c.get r := by
  unfold Core.get Core.set
  by_cases hx0 : rd % 32 = 0
  · rw [if_pos hx0]
  · rw [if_neg hx0]
    show (if r % 32 = 0 then 0 else (c.x.put wordZero (rd % 32) v).get wordZero (r % 32)) = _
    rw [SMap.get_put_ne _ _ _ _ _ h]

/-- A register write changes the register file alone. -/
theorem Core.set_only (c : Core) (rd : Nat) (v : Word) : c.set rd v = { c with x := (c.set rd v).x } := by
  unfold Core.set
  split <;> rfl

/-- Writing a register and retiring changes the core alone, and of what a retirement leaves the register file alone. -/
theorem Core.retire_set_only (c : Core) (rd : Nat) (v p : Word) :
    (c.set rd v).retire p = { c.retire p with x := ((c.set rd v).retire p).x } := by
  rw [Core.set_only]
  rfl

/-! ## Steps of a block's core -/

@[simp] theorem Block.core_atRest (b : Block) : b.atRest.core = b.core := rfl

/-- The command `c` answers a state in which block `blk` is `y` at rest and nothing else changed but what a block's step hands on. -/
def StepsTo (blk : Nat) (s : State) (c : Instr) (y : Block) : Prop :=
  ∃ t, exec c s = .next t ∧ BlockFrame blk s t ∧ t.block blk = y.atRest

section Steps
variable {blk cyc : Nat} {s : State} {c : Instr}

/-- A step that leaves all but the core. -/
theorem StepsTo.coreOnly {b y : Block} {k : Core} (h : StepsTo blk s c y) (hy : y = { b with core := k }) :
    ∃ t, exec c s = .next t ∧ CoreOnly blk s b k t := by
  obtain ⟨t, hexec, hframe, hblock⟩ := h
  exact ⟨t, hexec, by rw [hblock, hy]; rfl, hframe⟩

/-- A step that writes a register and retires. -/
theorem StepsTo.retireRd {b : Block} {p v : Word} {rd : Nat} (h : StepsTo blk s c (b.retireRd p rd v)) :
    ∃ t k, exec c s = .next t ∧ CoreOnly blk s b k t ∧ k = { b.core.retire p with x := k.x } ∧
      k.get rd = (if rd % 32 = 0 then 0 else v) ∧ ∀ r, r % 32 ≠ rd % 32 → k.get r = b.core.get r := by
  obtain ⟨t, hexec, honly⟩ := h.coreOnly (b := b) (k := (b.core.set rd v).retire p) rfl
  exact ⟨t, _, hexec, honly, Core.retire_set_only _ _ _ _, Core.get_set_self _ _ _, fun r hr => Core.get_set_ne _ _ hr⟩

variable (hblk : blk < 4608) (hruns : s.runs blk = true)
include hblk hruns

/-- A command that acts on a block whose clock runs. -/
theorem stepsTo_of_onLive {f : Env → Block → Block} (hc : exec c s = .next (s.onLive blk cyc f)) :
    StepsTo blk s c (f (s.env blk cyc) (s.blockAt blk cyc)) :=
  ⟨_, hc, s.onLive_frame blk cyc f, s.block_onLive_self blk cyc f hblk hruns⟩

variable {i : Rv} {bits : Word} {len : Nat} (hmode : (s.blockAt blk cyc).core.mode = .running)
include hmode

/-- SCALAR_INSTRUCTION executes what is fetched at the pc (R163). -/
theorem scalarInstruction_steps (hfetch : (s.blockAt blk cyc).fetch = .ok i bits len) :
    StepsTo blk s (.scalarInstruction blk cyc) ((s.blockAt blk cyc).exec1 (s.env blk cyc) i bits len) := by
  have hstep := stepsTo_of_onLive (c := .scalarInstruction blk cyc) (cyc := cyc) hblk hruns rfl
  rwa [Block.coreStep, hmode, hfetch] at hstep

/-- SCALAR_INSTRUCTION whose fetch faults takes cause 1 (R169). -/
theorem scalarInstruction_steps_fault {a : Word} (hfetch : (s.blockAt blk cyc).fetch = .fault a) :
    StepsTo blk s (.scalarInstruction blk cyc) ((s.blockAt blk cyc).trap (s.env blk cyc) 1 a) := by
  have hstep := stepsTo_of_onLive (c := .scalarInstruction blk cyc) (cyc := cyc) hblk hruns rfl
  rwa [Block.coreStep, hmode, hfetch] at hstep

/-- A command of one kind of instruction executes what is fetched, when that is of its kind (R163). -/
theorem coreOf_steps {kind : Rv → Bool} (hfetch : (s.blockAt blk cyc).fetch = .ok i bits len)
    (hc : exec c s = .next (s.coreOf blk cyc kind)) (hkind : kind i = true) :
    StepsTo blk s c ((s.blockAt blk cyc).exec1 (s.env blk cyc) i bits len) := by
  have hnext : (s.block blk).nextInstr = some i := by
    rw [← Block.advance_nextInstr (s.env blk cyc)]
    show (s.blockAt blk cyc).nextInstr = some i
    rw [Block.nextInstr, hmode, hfetch]
    rfl
  have hlive : s.coreOf blk cyc kind = s.onLive blk cyc (fun e b => b.coreStep e) := by
    simp only [State.coreOf, hnext, hkind, if_true]
  rw [hlive] at hc
  have hstep := stepsTo_of_onLive hblk hruns hc
  rwa [Block.coreStep, hmode, hfetch] at hstep

end Steps

/-! ## Loads and stores (R166, Table 6-3) -/

section Memory
variable (e : Env) (b : Block) {a : Word} {n : Nat}

theorem Block.loadAt_ldata {o : Nat} (halign : a.toNat % n = 0) (hplace : placeOf a = .ldata o) :
    b.loadAt e a n = .data b (leNat (b.ldata.rdN o n)) := by
  simp only [Block.loadAt, halign, hplace, ne_eq, not_true_eq_false, if_false]

theorem Block.loadAt_misaligned (halign : a.toNat % n ≠ 0) : b.loadAt e a n = .trap b 4 := if_pos halign

theorem Block.loadAt_none (halign : a.toNat % n = 0) (hplace : placeOf a = .none) : b.loadAt e a n = .trap b 5 := by
  simp only [Block.loadAt, halign, hplace, ne_eq, not_true_eq_false, if_false]

theorem Block.storeAt_ldata {o : Nat} (v : Nat) (halign : a.toNat % n = 0) (hplace : placeOf a = .ldata o) :
    b.storeAt e a n v = .inl { b with ldata := b.ldata.wrN o (leBytes n v) } := by
  simp only [Block.storeAt, halign, hplace, ne_eq, not_true_eq_false, if_false]

theorem Block.storeAt_misaligned (v : Nat) (halign : a.toNat % n ≠ 0) : b.storeAt e a n v = .inr 6 := if_pos halign

theorem Block.storeAt_none (v : Nat) (halign : a.toNat % n = 0) (hplace : placeOf a = .none) : b.storeAt e a n v = .inr 7 := by
  simp only [Block.storeAt, halign, hplace, ne_eq, not_true_eq_false, if_false]

end Memory

theorem length_leBytes (n v : Nat) : (leBytes n v).length = n := by
  induction n generalizing v with
  | zero => rfl
  | succ n ih => rw [leBytes, List.length_cons, ih]

/-- Byte `j` of a number stored little-endian reads back (00 R5). -/
theorem Mem.rd_wrN_leBytes (m : Mem) (a : Nat) {n j : Nat} (v : Nat) (hj : j < n) :
    (m.wrN a (leBytes n v)).rd (a + j) = BitVec.ofNat 8 (v / 2 ^ (8 * j)) := by
  induction n generalizing m a v j with
  | zero => omega
  | succ n ih =>
    rw [leBytes, Mem.wrN]
    cases j with
    | zero =>
      rw [Mem.rd_wrN_ne _ _ _ _ (by omega), Nat.add_zero, Mem.rd_wr_self, Nat.mul_zero, Nat.pow_zero, Nat.div_one]
    | succ j =>
      have hpow : 2 ^ (8 * (j + 1)) = 256 * 2 ^ (8 * j) := by rw [Nat.mul_succ, Nat.pow_add, Nat.mul_comm]
      rw [show a + (j + 1) = a + 1 + j by omega, ih _ _ _ (by omega), Nat.div_div_eq_div_mul, hpow]

/-! ## One instruction -/

section Instruction
variable (e : Env) (b : Block) (bits : Word) (len : Nat) {f3 rd rs1 rs2 n : Nat} {off : Word}

theorem Block.exec1_load_data {y : Block} {v : Nat} (h : b.loadAt e (b.core.get rs1 + off) (2 ^ (f3 % 4)) = .data y v) :
    b.exec1 e (.load f3 rd rs1 off) bits len = y.retireRd (b.core.pc + BitVec.ofNat 32 len) rd (extendLoad f3 v) := by
  simp only [Block.exec1, h]

theorem Block.exec1_load_stall {ring slot : Nat} (h : b.loadAt e (b.core.get rs1 + off) (2 ^ (f3 % 4)) = .stall ring slot) :
    b.exec1 e (.load f3 rd rs1 off) bits len =
      { b with core := { b.core with mode := .stall ring slot (b.core.get rs1 + off) } } := by
  simp only [Block.exec1, h]

theorem Block.exec1_load_trap {y : Block} {cause : Nat} (h : b.loadAt e (b.core.get rs1 + off) (2 ^ (f3 % 4)) = .trap y cause) :
    b.exec1 e (.load f3 rd rs1 off) bits len = y.trap e cause (trapVal cause (b.core.get rs1 + off) bits) := by
  simp only [Block.exec1, h]

theorem Block.exec1_store_done {y : Block} (h : b.storeAt e (b.core.get rs1 + off) (2 ^ f3) (b.core.get rs2).toNat = .inl y) :
    b.exec1 e (.store f3 rs1 rs2 off) bits len = y.retire (b.core.pc + BitVec.ofNat 32 len) := by
  simp only [Block.exec1, h]

theorem Block.exec1_store_trap {cause : Nat}
    (h : b.storeAt e (b.core.get rs1 + off) (2 ^ f3) (b.core.get rs2).toNat = .inr cause) :
    b.exec1 e (.store f3 rs1 rs2 off) bits len = b.trap e cause (trapVal cause (b.core.get rs1 + off) bits) := by
  simp only [Block.exec1, h]

theorem Block.exec1_ecall : b.exec1 e .ecall bits len = b.trap e 11 0 := by rw [Block.exec1]
theorem Block.exec1_ebreak : b.exec1 e .ebreak bits len = b.trap e 3 0 := by rw [Block.exec1]
theorem Block.exec1_illegal : b.exec1 e .illegal bits len = b.trap e 2 bits := by rw [Block.exec1]

/-- MRET ends the handler and goes on where the exception was taken (R169). -/
theorem Block.exec1_mret :
    b.exec1 e .mret bits len = { b with core := { b.core.retire b.core.mepc with inTrap := false } } := rfl

/-- The value that a CSR instruction writes: it replaces, sets or clears bits (R167). -/
def csrNext (f3 : Nat) (old src : Word) : Word :=
  if f3 % 4 = 1 then src else if f3 % 4 = 2 then old ||| src else old &&& ~~~src

/-- The operand of a CSR instruction: the immediate, or rs1 (R167). -/
def Core.csrSrc (c : Core) (f3 rs1 : Nat) : Word := if 4 ≤ f3 then BitVec.ofNat 32 rs1 else c.get rs1

/-- A CSR that the core does not implement is illegal (R167). -/
theorem Block.exec1_csr_none (h : b.csrRead e n = none) : b.exec1 e (.csr f3 rd rs1 n) bits len = b.trap e 2 bits := by
  simp only [Block.exec1, h]

/-- So is a write of a read-only one (R167). -/
theorem Block.exec1_csr_readOnly (hwrites : f3 % 4 = 1 ∨ rs1 ≠ 0) (hro : csrReadOnly n = true) :
    b.exec1 e (.csr f3 rd rs1 n) bits len = b.trap e 2 bits := by
  cases hread : b.csrRead e n with
  | none => exact b.exec1_csr_none e bits len hread
  | some old => simp only [Block.exec1, hread, if_pos (And.intro hwrites hro)]

/-- A CSR instruction that writes nothing reads (R167). -/
theorem Block.exec1_csr_reads {old : Word} (hread : b.csrRead e n = some old) (hf3 : f3 % 4 ≠ 1) (hrs1 : rs1 = 0) :
    b.exec1 e (.csr f3 rd rs1 n) bits len = b.retireRd (b.core.pc + BitVec.ofNat 32 len) rd old := by
  have hno : ¬(f3 % 4 = 1 ∨ rs1 ≠ 0) := by omega
  simp only [Block.exec1, hread, hno, false_and, if_false]

/-- A CSR instruction that writes puts the old value in its register (R167). -/
theorem Block.exec1_csr_writes {old : Word} (hread : b.csrRead e n = some old) (hwrites : f3 % 4 = 1 ∨ rs1 ≠ 0)
    (hro : csrReadOnly n = false) (hlo : n ≠ 0xB02) (hhi : n ≠ 0xB82) :
    b.exec1 e (.csr f3 rd rs1 n) bits len =
      (b.csrWrite e n (csrNext f3 old (b.core.csrSrc f3 rs1))).retireRd (b.core.pc + BitVec.ofNat 32 len) rd old := by
  have hcount : ¬(n = 0xB02 ∨ n = 0xB82) := by omega
  simp only [Block.exec1, hread, hwrites, hro, hcount, true_and, Bool.false_eq_true, if_false, if_true]
  congr 2
  unfold csrNext Core.csrSrc
  split
  · next h => rw [if_pos h]
  · next h => rw [if_neg (show ¬f3 % 4 = 1 by omega), if_pos h]
  · next h1 h2 => rw [if_neg h1, if_neg h2]

end Instruction

/-! ## Exceptions (R169) -/

/-- Outside a handler an exception changes the core alone. -/
theorem Block.trap_first (e : Env) {b : Block} (cause : Nat) (val : Word) (h : b.core.inTrap = false) :
    b.trap e cause val = { b with core := { b.core.trapped cause val with mode := .running } } := by
  unfold Block.trap
  rw [h]
  rfl

/-- In a handler it halts the core and sets DBLF. -/
theorem Block.trap_double (e : Env) {b : Block} (cause : Nat) (val : Word) (h : b.core.inTrap = true) :
    (b.trap e cause val).core = { b.core with mode := .halted } ∧ (b.trap e cause val).bit SC_CTL_DBLF = true := by
  unfold Block.trap
  rw [h, if_pos rfl]
  constructor
  · rw [Block.raise_only]
    rfl
  · rw [Block.bit_raise (by decide) (by decide), Block.set1, Block.bit_wr_self _ _ _ _ _ (by decide) (by decide)]
    rfl

/-- A running core takes an exception outside a handler. -/
theorem StepsTo.trapped {blk : Nat} {s : State} {c : Instr} {e : Env} {b : Block} {cause : Nat} {val : Word}
    (h : StepsTo blk s c (b.trap e cause val)) (hmode : b.core.mode = .running) (htrap : b.core.inTrap = false) :
    ∃ t, exec c s = .next t ∧ CoreOnly blk s b (b.core.trapped cause val) t := by
  rw [Block.trap_first e cause val htrap] at h
  have hcore : { b.core.trapped cause val with mode := .running } = b.core.trapped cause val := by
    rw [← hmode]
    rfl
  rw [hcore] at h
  exact h.coreOnly rfl

/-- Settles O19: SCALAR_INSTRUCTION is one instruction of the core (`scalarInstruction_steps`), and what each kind of instruction does
is said by its equation. -/
theorem coreArithmetic : Obligations.CoreArithmetic := by
  rintro blk cyc s B i bits len nx hblk hruns rfl hmode hfetch rfl
  have hstep := scalarInstruction_steps hblk hruns hmode hfetch
  generalize s.blockAt blk cyc = b at *
  generalize s.env blk cyc = e at *
  refine ⟨fun rd v p hres => ?result, fun p hgoes => ?goes, ?load, ?store, ?csr⟩
  case result =>
    have hretires : StepsTo blk s (.scalarInstruction blk cyc) (b.retireRd p rd v) := by
      obtain ⟨f3, rs1, rs2, alt, imm, a, o, ⟨rfl, hi⟩ | ⟨rfl, hi⟩⟩ := hres
      · rcases hi with ⟨rfl, rfl⟩ | ⟨rfl, rfl⟩ | ⟨rfl, rfl⟩ | ⟨rfl, rfl⟩ | ⟨rfl, rfl⟩ | ⟨rfl, rfl, halign, hplace, rfl⟩
        on_goal 6 => rwa [b.exec1_load_data e bits len (b.loadAt_ldata e halign hplace)] at hstep
        all_goals exact hstep
      · rcases hi with ⟨rfl, rfl⟩ | ⟨rfl, rfl⟩ <;> exact hstep
    exact hretires.retireRd
  case goes =>
    have hretires : StepsTo blk s (.scalarInstruction blk cyc) (b.retire p) := by
      rcases hgoes with ⟨rfl, rfl⟩ | ⟨f3, rs1, rs2, off, rfl, rfl⟩ <;> exact hstep
    exact hretires.coreOnly rfl
  case load =>
    rintro f3 rd rs1 off a rfl rfl
    refine ⟨fun y v hdata => ?_, fun ring slot hstall => ?_⟩
    · rw [b.exec1_load_data e bits len hdata] at hstep
      obtain ⟨t, hexec, hframe, hblock⟩ := hstep
      exact ⟨t, hexec, hblock, hframe⟩
    · rw [b.exec1_load_stall e bits len hstall] at hstep
      exact hstep.coreOnly rfl
  case store =>
    rintro f3 rs1 rs2 off a rfl rfl
    refine ⟨fun y hdone => ?_, fun o halign hplace => ?_⟩
    · rw [b.exec1_store_done e bits len hdone] at hstep
      obtain ⟨t, hexec, hframe, hblock⟩ := hstep
      exact ⟨t, hexec, hblock, hframe⟩
    · rw [b.exec1_store_done e bits len (b.storeAt_ldata e _ halign hplace)] at hstep
      obtain ⟨t, hexec, -, hblock⟩ := hstep
      refine ⟨t, hexec, by rw [hblock]; rfl, fun k hk => ?_, fun j hj => ?_⟩ <;> rw [hblock]
      · exact Mem.rd_wrN_ne _ _ _ _ (by rwa [length_leBytes])
      · exact Mem.rd_wrN_leBytes _ _ _ hj
  case csr =>
    rintro f3 rd rs1 n old src rfl hread rfl
    refine ⟨fun hf3 hrs1 => ?_, fun hwrites hro hlo hhi => ?_⟩
    · rw [b.exec1_csr_reads e bits len hread (by omega) hrs1] at hstep
      obtain ⟨t, k, hexec, honly, hk, hget, -⟩ := hstep.retireRd
      exact ⟨t, k, hexec, honly, hk, hget⟩
    · rw [b.exec1_csr_writes e bits len hread (by omega) hro hlo hhi] at hstep
      obtain ⟨t, hexec, hframe, hblock⟩ := hstep
      exact ⟨t, hexec, hblock, hframe⟩

/-- Settles O20: each of the causes leads to `Block.trap`. -/
theorem coreExceptions : Obligations.CoreExceptions := by
  rintro blk cyc s B hblk hruns rfl hmode
  refine ⟨fun cause val hcause => ?exceptions, fun bits len hfetch => ?returns⟩
  case exceptions =>
    have htraps : StepsTo blk s (.scalarInstruction blk cyc) ((s.blockAt blk cyc).trap (s.env blk cyc) cause val) := by
      rcases hcause with ⟨a, hfetch, rfl, rfl⟩ | ⟨i, bits, len, hfetch, hi⟩
      · exact scalarInstruction_steps_fault hblk hruns hmode hfetch
      have hstep := scalarInstruction_steps hblk hruns hmode hfetch
      generalize s.blockAt blk cyc = b at *
      generalize s.env blk cyc = e at *
      rcases hi with ⟨rfl, rfl, rfl⟩ | ⟨rfl, rfl, rfl⟩ | ⟨rfl, rfl, rfl⟩ | ⟨f3, rd, rs1, n, rfl, rfl, rfl, hcsr⟩ |
        ⟨f3, rd, rs1, off, rfl, rfl, hload⟩ | ⟨f3, rs1, rs2, off, rfl, rfl, hstore⟩
      · rwa [b.exec1_ecall] at hstep
      · rwa [b.exec1_ebreak] at hstep
      · rwa [b.exec1_illegal] at hstep
      · rcases hcsr with hnone | ⟨hwrites, hro⟩
        · rwa [b.exec1_csr_none e _ len hnone] at hstep
        · rwa [b.exec1_csr_readOnly e _ len hwrites hro] at hstep
      · rcases hload with ⟨rfl, halign⟩ | ⟨rfl, halign, hplace⟩
        · rwa [b.exec1_load_trap e bits len (b.loadAt_misaligned e halign)] at hstep
        · rwa [b.exec1_load_trap e bits len (b.loadAt_none e halign hplace)] at hstep
      · rcases hstore with ⟨rfl, halign⟩ | ⟨rfl, halign, hplace⟩
        · rwa [b.exec1_store_trap e bits len (b.storeAt_misaligned e _ halign)] at hstep
        · rwa [b.exec1_store_trap e bits len (b.storeAt_none e _ halign hplace)] at hstep
    refine ⟨htraps.trapped hmode, fun hin => ?_⟩
    obtain ⟨t, hexec, hframe, hblock⟩ := htraps
    obtain ⟨hcore, hdblf⟩ := Block.trap_double (s.env blk cyc) cause val hin
    refine ⟨t, hexec, ?_, ?_, hframe⟩ <;> rw [hblock]
    · rw [Block.core_atRest, hcore]
    · rw [Block.bit_atRest, hdblf]
  case returns =>
    have hstep := coreOf_steps hblk hruns hmode hfetch (c := .mret blk cyc) rfl rfl
    rw [Block.exec1_mret] at hstep
    exact hstep.coreOnly rfl


/-! ## The queue instructions (R171, R173) -/

section Queue
variable (e : Env) (b : Block) (bits : Word) (len : Nat) {rs1 : Nat} {imm : Word}

/-- TPUSH of an aligned address in local data while the queue has room. -/
theorem Block.exec1_tpush_room {o : Nat} (halign : (b.core.get rs1 + imm).toNat % 16 = 0)
    (hplace : placeOf (b.core.get rs1 + imm) = .ldata o) (hroom : b.seq.q.length < 32) :
    b.exec1 e (.tpush rs1 imm) bits len =
      (b.push e ⟨(wordsOf 4 (b.ldata.rdN o 16)).getD 0 0, (wordsOf 4 (b.ldata.rdN o 16)).getD 1 0,
        (wordsOf 4 (b.ldata.rdN o 16)).getD 2 0, (wordsOf 4 (b.ldata.rdN o 16)).getD 3 0⟩).retire
          (b.core.pc + BitVec.ofNat 32 len) := by
  simp only [Block.exec1, halign, hplace, Nat.not_le.mpr hroom, ne_eq, not_true_eq_false, if_false]

/-- TPUSH waits while the queue is full. -/
theorem Block.exec1_tpush_full {o : Nat} (halign : (b.core.get rs1 + imm).toNat % 16 = 0)
    (hplace : placeOf (b.core.get rs1 + imm) = .ldata o) (hfull : 32 ≤ b.seq.q.length) :
    b.exec1 e (.tpush rs1 imm) bits len = b := by
  simp only [Block.exec1, halign, hplace, hfull, ne_eq, not_true_eq_false, if_false, if_true]

theorem Block.exec1_tpush_misaligned (halign : (b.core.get rs1 + imm).toNat % 16 ≠ 0) :
    b.exec1 e (.tpush rs1 imm) bits len = b.trap e 4 (b.core.get rs1 + imm) := by
  simp only [Block.exec1, if_pos halign]

theorem Block.exec1_tpush_outside (halign : (b.core.get rs1 + imm).toNat % 16 = 0)
    (hplace : ∀ o, placeOf (b.core.get rs1 + imm) ≠ .ldata o) :
    b.exec1 e (.tpush rs1 imm) bits len = b.trap e 5 (b.core.get rs1 + imm) := by
  simp only [Block.exec1, halign, ne_eq, not_true_eq_false, if_false]

/-- TFENCE moves on when the queue is empty. -/
theorem Block.exec1_tfence :
    b.exec1 e .tfence bits len =
      { b with core := if b.seq.q = [] then b.core.retire (b.core.pc + BitVec.ofNat 32 len) else b.core } := by
  by_cases hempty : b.seq.q = []
  · simp only [Block.exec1, hempty, List.isEmpty_nil, if_true]
    rfl
  · simp only [Block.exec1, List.isEmpty_iff, if_neg hempty]

/-- TFRAME waits behind itself. -/
theorem Block.exec1_tframe (rd : Nat) :
    b.exec1 e (.tframe rd) bits len =
      { b with core := { b.core with mode := .frame rd, pc := b.core.pc + BitVec.ofNat 32 len } } := by
  rw [Block.exec1]

end Queue

/-- Beat 0 wakes a core that waits in TFRAME: the frame number is in its register, and it goes on where it waits (R173). -/
theorem Block.beat0_core_of_frame {b : Block} {frame rd : Nat} (overran starts : Bool) (hmode : b.core.mode = .frame rd) :
    (b.beat0 frame overran starts).core =
      (({ b.core with tframe := frame % 2 ^ 32, ovr := overran } : Core).set rd (BitVec.ofNat 32 frame)).retire b.core.pc := by
  simp only [Block.beat0, hmode]

/-- Settles O21: the three instructions are steps of the core, and beat 0 is `Block.beat0_core_of_frame`. -/
theorem coreQueueInstructions : Obligations.CoreQueueInstructions := by
  refine ⟨?instructions, fun b frame rd overran starts hmode => ?wakes⟩
  case instructions =>
    rintro blk cyc s B i bits len nx hblk hruns rfl hmode hfetch rfl
    refine ⟨?push, ?fence, ?frame⟩
    case push =>
      rintro rs1 imm a rfl rfl
      have hstep := coreOf_steps hblk hruns hmode hfetch (c := .tpush blk cyc) rfl rfl
      have hframe : (s.env blk cyc).frame = s.frame.num := rfl
      generalize s.blockAt blk cyc = b at *
      generalize s.env blk cyc = e at *
      refine ⟨fun o halign hplace => ⟨fun hroom => ?_, fun hfull => ?_⟩,
        fun htrap => ⟨fun halign => ?_, fun halign hplace => ?_⟩⟩
      · rw [b.exec1_tpush_room e bits len halign hplace hroom] at hstep
        obtain ⟨t, hexec, hkeeps, hblock⟩ := hstep
        refine ⟨t, { cmd := _, id := b.seq.nextId, frame := e.frame, plan := b.seq.planNext }, hexec, ?_, ?_, hframe, rfl, rfl, rfl,
          hkeeps⟩ <;> rw [hblock] <;> rfl
      · rw [b.exec1_tpush_full e bits len halign hplace hfull] at hstep
        exact hstep.coreOnly rfl
      · rw [b.exec1_tpush_misaligned e bits len halign] at hstep
        exact hstep.trapped hmode htrap
      · rw [b.exec1_tpush_outside e bits len halign hplace] at hstep
        exact hstep.trapped hmode htrap
    case fence =>
      rintro rfl
      exact (coreOf_steps hblk hruns hmode hfetch (c := .tfence blk cyc) rfl rfl).coreOnly (Block.exec1_tfence _ _ _ _)
    case frame =>
      rintro rd rfl
      exact (coreOf_steps hblk hruns hmode hfetch (c := .tframe blk cyc) rfl rfl).coreOnly (Block.exec1_tframe _ _ _ _ _)
  case wakes =>
    rw [Block.beat0_core_of_frame overran starts hmode]
    exact ⟨rfl, by rw [Core.retire_set_only]; rfl, Core.get_set_self _ _ _⟩

/-! ## Rings, the check unit's input and the other instructions (R172, R182, R185, R186) -/

section Rings
variable (e : Env) (b : Block) (bits : Word) (len : Nat) {rd rs1 rs2 : Nat}

theorem Block.exec1_tfull_on (hon : b.ringOn ((b.core.get rs1).toNat % 32) = true) :
    b.exec1 e (.tfull rs1 rs2) bits len =
      (b.markFull e ((b.core.get rs1).toNat % 32) (b.fillPos ((b.core.get rs1).toNat % 32))
        { hdr := hdrOfRs2 (b.core.get rs2) }).retire (b.core.pc + BitVec.ofNat 32 len) := by
  simp only [Block.exec1, hon, Bool.not_true, Bool.false_eq_true, if_false]

theorem Block.exec1_tfull_off (hoff : b.ringOn ((b.core.get rs1).toNat % 32) = false) :
    b.exec1 e (.tfull rs1 rs2) bits len = b.trap e 2 bits := by
  simp only [Block.exec1, hoff, Bool.not_false, if_true]

theorem Block.exec1_trel_on (hon : b.ringOn ((b.core.get rs1).toNat % 32) = true)
    (hcons : b.coreCons ((b.core.get rs1).toNat % 32) ≠ 0) :
    b.exec1 e (.trel rs1) bits len =
      (b.release e ((b.core.get rs1).toNat % 32)
        (b.takePos ((b.core.get rs1).toNat % 32) (b.coreCons ((b.core.get rs1).toNat % 32)))
        (b.coreCons ((b.core.get rs1).toNat % 32))).retire (b.core.pc + BitVec.ofNat 32 len) := by
  simp only [Block.exec1, hon, beq_eq_false_iff_ne.mpr hcons, Bool.not_true, Bool.or_self, Bool.false_eq_true, if_false]

theorem Block.exec1_taddrT_on (hon : b.ringOn ((b.core.get rs1).toNat % 32) = true)
    (hcons : b.coreCons ((b.core.get rs1).toNat % 32) ≠ 0) :
    b.exec1 e (.taddrT rd rs1) bits len =
      b.retireRd (b.core.pc + BitVec.ofNat 32 len) rd (BitVec.ofNat 32 (0x200000 + b.slotAddr ((b.core.get rs1).toNat % 32)
        (b.takePos ((b.core.get rs1).toNat % 32) (b.coreCons ((b.core.get rs1).toNat % 32))))) := by
  simp only [Block.exec1, hon, beq_eq_false_iff_ne.mpr hcons, Bool.not_true, Bool.or_self, Bool.false_eq_true, if_false]

theorem Block.exec1_taddrF_on (hon : b.ringOn ((b.core.get rs1).toNat % 32) = true) :
    b.exec1 e (.taddrF rd rs1) bits len =
      b.retireRd (b.core.pc + BitVec.ofNat 32 len) rd (BitVec.ofNat 32 (0x200000 + b.slotAddr ((b.core.get rs1).toNat % 32)
        (b.fillPos ((b.core.get rs1).toNat % 32)))) := by
  simp only [Block.exec1, hon, Bool.not_true, Bool.false_eq_true, if_false]

theorem Block.exec1_taddrF_off (hoff : b.ringOn ((b.core.get rs1).toNat % 32) = false) :
    b.exec1 e (.taddrF rd rs1) bits len = b.trap e 2 bits := by
  simp only [Block.exec1, hoff, Bool.not_false, if_true]

section Consumer
variable {b} (hoff : b.ringOn ((b.core.get rs1).toNat % 32) = false ∨ b.coreCons ((b.core.get rs1).toNat % 32) = 0)
include hoff

/-- A core that is no consumer of the ring has no take position there. -/
theorem Block.noTakePos : (!b.ringOn ((b.core.get rs1).toNat % 32) || b.coreCons ((b.core.get rs1).toNat % 32) == 0) = true := by
  simpa using hoff

theorem Block.exec1_trel_off : b.exec1 e (.trel rs1) bits len = b.trap e 2 bits := by
  simp only [Block.exec1, Block.noTakePos hoff, if_true]

theorem Block.exec1_taddrT_off : b.exec1 e (.taddrT rd rs1) bits len = b.trap e 2 bits := by
  simp only [Block.exec1, Block.noTakePos hoff, if_true]

end Consumer

/-- TCRC appends bytes to the check unit's input while it takes them (R182). -/
theorem Block.exec1_tcrc_room {n : Nat} (hroom : b.chkRoom n = true) :
    b.exec1 e (.tcrc n rs1) bits len =
      { b with core := b.core.retire (b.core.pc + BitVec.ofNat 32 len)
               chk := { b.chk with buf := b.chk.buf ++ leBytes n (b.core.get rs1).toNat } } := by
  simp only [Block.exec1, hroom, if_true]
  rfl

theorem Block.exec1_tcrc_waits {n : Nat} (hroom : b.chkRoom n = false) : b.exec1 e (.tcrc n rs1) bits len = b := by
  simp only [Block.exec1, hroom, Bool.false_eq_true, if_false]

end Rings

/-- A CSR write of terr leaves the software record that the value gives; terr itself reads 0 (R185). -/
theorem Block.exec1_terr_writes (e : Env) (b : Block) (bits : Word) (len : Nat) {f3 rd rs1 : Nat}
    (hwrites : f3 % 4 = 1 ∨ f3 % 4 = 2 ∧ rs1 ≠ 0) :
    b.exec1 e (.csr f3 rd rs1 0x7C2) bits len =
      (b.terrWrite e (b.core.csrSrc f3 rs1)).retireRd (b.core.pc + BitVec.ofNat 32 len) rd 0 := by
  have hnext : csrNext f3 0 (b.core.csrSrc f3 rs1) = b.core.csrSrc f3 rs1 := by
    unfold csrNext
    rcases hwrites with h | ⟨h, -⟩
    · rw [if_pos h]
    · rw [if_neg (by omega), if_pos h]
      exact BitVec.zero_or
  rw [b.exec1_csr_writes e bits len (old := 0) rfl (hwrites.imp_right And.right) (by decide) (by decide) (by decide), hnext]
  rfl

/-! ## A slot load that times out (05 R137) -/

section Timeout
variable (e : Env) {b : Block} {ring slot : Nat} {a : Word} (hmode : b.core.mode = .stall ring slot a)
include hmode

theorem Block.loadTimeout_waits (h : b.slotFull ring slot = true ∨ b.rd SP_RING_TMO_TMO ring = 0) : b.loadTimeout e false = b := by
  simp only [Block.loadTimeout, hmode]
  rcases h with hfull | htmo
  · rw [if_pos hfull]
  · rw [htmo]
    exact ite_self _

/-- The load that waited too long ends with cause 24, LTMO and the ring in SP_LAST. -/
theorem Block.loadTimeout_ends (hempty : b.slotFull ring slot = false) (htmo : b.rd SP_RING_TMO_TMO ring ≠ 0)
    (htrap : b.core.inTrap = false) :
    (b.loadTimeout e false).core = { b.core.trapped 24 a with mode := .running } ∧
    (b.loadTimeout e false).bit SP_STAT_LTMO = true ∧ (b.loadTimeout e false).rd SP_LAST_SUBTYPE = 0x12 ∧
    (b.loadTimeout e false).rd SP_LAST_RING = ring % 32 := by
  have hends : b.loadTimeout e false =
      ((b.set1 SP_STAT_LTMO).spBreach { e with inj := e.inj || false } 0x12 ring slot false).trap e 24 a := by
    simp only [Block.loadTimeout, hmode, hempty, beq_eq_false_iff_ne.mpr htmo, Bool.false_eq_true, if_false, Bool.and_false]
  have hcore : ((b.set1 SP_STAT_LTMO).spBreach { e with inj := e.inj || false } 0x12 ring slot false).core = b.core := by
    rw [Block.spBreach, Block.raise_only]
    rfl
  rw [hends, Block.trap_first _ _ _ (by rw [hcore, htrap]), hcore]
  refine ⟨rfl, ?_, ?_, ?_⟩
  · show (Block.spBreach _ _ 0x12 ring slot false).bit SP_STAT_LTMO = true
    rw [Block.spBreach, Block.bit_raise (by decide) (by decide), Block.bit_wr_apart _ _ _ _ _ _ _ _ (by decide),
      Block.bit_wr_apart _ _ _ _ _ _ _ _ (by decide), Block.bit_wr_apart _ _ _ _ _ _ _ _ (by decide), Block.set1,
      Block.bit_wr_self _ _ _ _ _ (by decide) (by decide)]
    rfl
  · show (Block.spBreach _ _ 0x12 ring slot false).rd SP_LAST_SUBTYPE = 0x12
    rw [Block.spBreach, Block.rd_raise (by decide) (by decide), Block.rd_wr_self _ _ _ _ _ (by decide) (by decide)]
    rfl
  · show (Block.spBreach _ _ 0x12 ring slot false).rd SP_LAST_RING = ring % 32
    rw [Block.spBreach, Block.rd_raise (by decide) (by decide), Block.rd_wr_apart _ _ _ _ _ _ _ _ (by decide),
      Block.rd_wr_apart _ _ _ _ _ _ _ _ (by decide), Block.rd_wr_self _ _ _ _ _ (by decide) (by decide)]
    rfl

end Timeout

theorem Block.loadTimeout_none (e : Env) {b : Block} (h : ∀ ring slot a, b.core.mode ≠ .stall ring slot a) :
    b.loadTimeout e false = b := by
  unfold Block.loadTimeout
  split
  · next hmode => exact absurd hmode (h _ _ _)
  · rfl

theorem Block.coreStart_eq (b : Block) :
    b.coreStart = { b with core := if b.core.mode = .halted then { b.core with mode := .running } else b.core } := by
  unfold Block.coreStart
  split <;> rfl

/-- Settles O22: each instruction is a step of the core with an equation of its own; CORE_START and SLOT_LOAD_TIMEOUT are
`Block.coreStart_eq` and `Block.loadTimeout_ends`. -/
theorem coreRingAndOtherInstructions : Obligations.CoreRingAndOtherInstructions := by
  refine ⟨?instructions, ?others⟩
  case instructions =>
    rintro blk cyc s B i bits len nx hblk hruns rfl hmode hfetch rfl
    have hsteps : ∀ {c : Instr} {kind : Rv → Bool}, exec c s = .next (s.coreOf blk cyc kind) → kind i = true →
        StepsTo blk s c ((s.blockAt blk cyc).exec1 (s.env blk cyc) i bits len) :=
      coreOf_steps hblk hruns hmode hfetch
    generalize s.blockAt blk cyc = b at *
    generalize s.env blk cyc = e at *
    refine ⟨?rings, ?check, ?terr⟩
    case rings =>
      rintro rd rs1 rs2 r k c rfl rfl
      refine ⟨?full, ?release, ?address, ?illegal⟩
      case full =>
        rintro ⟨rfl, rfl⟩ hon
        have hstep := hsteps (c := .tfull blk cyc) rfl rfl
        rwa [b.exec1_tfull_on e bits len hon] at hstep
      case release =>
        rintro ⟨rfl, rfl⟩ hon hcons
        have hstep := hsteps (c := .trel blk cyc) rfl rfl
        rwa [b.exec1_trel_on e bits len hon hcons] at hstep
      case address =>
        rintro v hkind hon
        rcases hkind with ⟨rfl, rfl, hcons, rfl⟩ | ⟨rfl, rfl, rfl⟩
        · have hstep := hsteps (c := .taddrT blk cyc) rfl rfl
          rw [b.exec1_taddrT_on e bits len hon hcons] at hstep
          exact hstep.retireRd
        · have hstep := hsteps (c := .taddrF blk cyc) rfl rfl
          rw [b.exec1_taddrF_on e bits len hon] at hstep
          exact hstep.retireRd
      case illegal =>
        rintro hkind htrap
        have hillegal : StepsTo blk s c (b.trap e 2 bits) := by
          rcases hkind with ⟨rfl, rfl, hoff⟩ | ⟨rfl, rfl, hoff⟩ | ⟨rfl, rfl, hoff⟩ | ⟨rfl, rfl, hoff⟩
          · rw [← b.exec1_tfull_off e bits len hoff]
            exact hsteps rfl rfl
          · rw [← b.exec1_taddrF_off e bits len hoff]
            exact hsteps rfl rfl
          · rw [← Block.exec1_trel_off e bits len hoff]
            exact hsteps rfl rfl
          · rw [← Block.exec1_taddrT_off e bits len hoff]
            exact hsteps rfl rfl
        exact hillegal.trapped hmode htrap
    case check =>
      rintro n rs1 c rfl hkind
      have hstep : StepsTo blk s c (b.exec1 e (.tcrc n rs1) bits len) := by
        rcases hkind with ⟨rfl, rfl⟩ | ⟨rfl, rfl⟩ | ⟨rfl, rfl⟩ <;> exact hsteps rfl rfl
      refine ⟨fun hroom => ?_, fun hroom => ?_⟩
      · rwa [b.exec1_tcrc_room e bits len hroom] at hstep
      · rw [b.exec1_tcrc_waits e bits len hroom] at hstep
        exact hstep.coreOnly rfl
    case terr =>
      rintro f3 rd rs1 src rfl rfl
      have hstep := hsteps (c := .terrWrite blk cyc) rfl rfl
      refine ⟨fun hwrites => ?_, fun hf3 hrs1 => ?_⟩
      · rwa [b.exec1_terr_writes e bits len hwrites] at hstep
      · rwa [b.exec1_csr_reads e bits len (old := 0) rfl (by omega) hrs1] at hstep
  case others =>
    rintro blk cyc s B hblk hruns rfl
    have hstart := stepsTo_of_onLive (cyc := cyc) hblk hruns (c := .coreStart blk cyc) rfl
    have htimeout := stepsTo_of_onLive (cyc := cyc) hblk hruns (c := .slotLoadTimeout blk cyc) rfl
    generalize s.blockAt blk cyc = b at *
    generalize s.env blk cyc = e at *
    refine ⟨hstart.coreOnly b.coreStart_eq,
      fun ring slot a hmode => ⟨fun hempty htmo htrap => ?ends, fun h => htimeout.coreOnly (b.loadTimeout_waits e hmode h)⟩,
      fun hmode => htimeout.coreOnly (b.loadTimeout_none e hmode)⟩
    case ends =>
      obtain ⟨t, hexec, hframe, hblock⟩ := htimeout
      obtain ⟨hcore, hltmo, hsub, hring⟩ := b.loadTimeout_ends e hmode hempty htmo htrap
      refine ⟨t, hexec, ?_, ?_, ?_, ?_, hframe⟩ <;> rw [hblock]
      · rw [Block.core_atRest, hcore]
      · rw [Block.bit_atRest, hltmo]
      · rw [Block.rd_atRest, hsub]
      · rw [Block.rd_atRest, hring]

end Sys2Proof.Machine

/-!
PROOFS. The check unit (06_scalar_core.md R181 to R183, 23 R569): what setting and feeding it leave of a block, how a check command
issues and ends, and the writes of a block's page and of the management controller that set it.
-/
namespace Sys2Proof.Machine

/-! ## What setting the unit leaves -/

/-- The unit's registers: CHK_CTL, CHK_VAL_LO and CHK_VAL_HI of a block, or the MC's at another base. -/
theorem Regs.rd_chkShow_ne {r : Regs} {u : RegUnit} {lo hi p : Nat} {c : ChkUnit} {f : Field} {i j : Nat} (hu : f.unit = u)
    (hlo : f.at i j ≠ lo) (hhi : f.at i j ≠ hi) : (r.chkShow u lo hi p c).rd f i j = r.rd f i j := by
  rw [Regs.chkShow, Regs.rd_setWord_ne hu hhi, Regs.rd_setWord_ne hu hlo]

section Set
variable (b : Block) (p : Nat) (c : ChkUnit)

@[simp] theorem Block.chk_setChk : (b.setChk p c).chk = c := rfl
@[simp] theorem Block.seq_setChk : (b.setChk p c).seq = b.seq := rfl
@[simp] theorem Block.standing_setChk : (b.setChk p c).standing = { b.standing with chk := c } := rfl

/-- The polynomial that the unit is set to. -/
theorem Block.rd_setChk_poly : (b.setChk p c).rd CHK_CTL_POLY = p % 4 := by
  show ((b.regs.wr CHK_CTL_POLY p).chkShow .block 0x144 0x148 p c).rd CHK_CTL_POLY 0 0 = p % 4
  rw [Regs.rd_chkShow_ne (f := CHK_CTL_POLY) rfl (by decide) (by decide), Regs.rd_wr_self _ _ _ _ _ (by decide) (by decide)]
  rfl

/-- Every register above the unit's stands. -/
theorem Block.rd_setChk_above {f : Field} (i j : Nat) (hf : f.unit = .block ∧ 0x148 < f.off) :
    (b.setChk p c).rd f i j = b.rd f i j := by
  obtain ⟨hu, hoff⟩ := hf
  have hat : f.off ≤ f.at i j := Nat.le_trans (Nat.le_add_right _ _) (Nat.le_add_right _ _)
  have hpoly : f.at i j ≠ CHK_CTL_POLY.at 0 0 := by
    show f.at i j ≠ 0x140
    omega
  show ((b.regs.wr CHK_CTL_POLY p).chkShow .block 0x144 0x148 p c).rd f i j = b.regs.rd f i j
  rw [Regs.rd_chkShow_ne hu (by omega) (by omega), Regs.rd_wr_at _ _ _ _ _ _ _ _ hu hpoly]

theorem Block.bit_setChk_above {f : Field} (i j : Nat) (hf : f.unit = .block ∧ 0x148 < f.off) :
    (b.setChk p c).bit f i j = b.bit f i j := by
  show ((b.setChk p c).rd f i j != 0) = (b.rd f i j != 0)
  rw [Block.rd_setChk_above _ _ _ _ _ hf]

/-- Descriptors and rings lie above the unit's registers, so the head slots of the sources stand. -/
theorem Block.drn_setChk (n : Nat) : (b.setChk p c).drn n = b.drn n := by
  simp (disch := decide) only [Block.drn, Block.rd_setChk_above, Block.bit_setChk_above]

theorem Block.headSrc_setChk (r : Nat) : (b.setChk p c).headSrc r = b.headSrc r := by
  have hsources : ∀ x : Cmd, (b.setChk p c).srcRings x = b.srcRings x := fun x => by
    simp only [Block.srcRings, Block.drn_setChk]
  have hpending : (b.setChk p c).pendingSrc r = b.pendingSrc r := by
    simp only [Block.pendingSrc, Block.seq_setChk, hsources]
  have htake : (b.setChk p c).takePos r 0 = b.takePos r 0 := by
    rw [Block.takePos, if_pos rfl, Block.rd_setChk_above _ _ _ _ _ (by decide), Block.takePos, if_pos rfl]
  rw [Block.headSrc, hpending, htake, Block.ringSlots, Block.rd_setChk_above _ _ _ _ _ (by decide), Block.headSrc, Block.ringSlots]

end Set

theorem Block.poly_lt (b : Block) : b.rd CHK_CTL_POLY < 4 := Regs.rd_lt _ _ _ _

/-- The unit takes its whole input: what the core fed before goes first (R182). -/
theorem Block.chkTake_all (b : Block) : ∃ regs,
    b.chkTake b.chk.buf.length =
      { b with regs := regs, chk := { reg := (crcPoly (b.rd CHK_CTL_POLY)).feedAll b.chk.reg b.chk.buf, hi := b.chk.hi } } ∧
    (b.chkTake b.chk.buf.length).rd CHK_CTL_POLY = b.rd CHK_CTL_POLY ∧
    ∀ r, (b.chkTake b.chk.buf.length).headSrc r = b.headSrc r := by
  unfold Block.chkTake
  cases hbuf : b.chk.buf with
  | nil =>
    refine ⟨b.regs, ?_, rfl, fun _ => rfl⟩
    have hchk : b.chk = { reg := b.chk.reg, hi := b.chk.hi } := by rw [← hbuf]
    simp only [List.isEmpty_nil, Bool.true_or, if_true, CrcPoly.feedAll, List.foldl_nil, ← hchk]
  | cons x l =>
    have hfed : ((x :: l).isEmpty || (x :: l).length == 0) = false := rfl
    simp only [hfed, Bool.false_eq_true, if_false, List.take_length, List.drop_length]
    refine ⟨_, rfl, ?_, fun r => b.headSrc_setChk _ _ r⟩
    exact (b.rd_setChk_poly _ _).trans (Nat.mod_eq_of_lt b.poly_lt)

/-! ## CHECK_COMMAND (R181, R182) -/

/-- CHECK_COMMAND issues from the head of the queue. -/
theorem Block.checkIssue_issuesFromHead : IssuesFromHead 5 (fun b x => b.otherBad x.cmd = true)
    (fun b x => b.otherBad x.cmd = false ∧ (b.sourcesFull x.cmd = false ∨ b.chkRunning = true)) (fun e b => b.checkIssue e) where
  empty h := by simp only [Block.checkIssue, h]
  other h hopc := by simp only [Block.checkIssue, h, if_pos hopc]
  refuses h hopc hbad := by simp [Block.checkIssue, h, hopc, hbad]
  waits := by
    rintro e b x h hopc ⟨hgood, hwaits⟩
    have hwaits : (!b.sourcesFull x.cmd || b.chkRunning) = true := by simpa using hwaits
    simp only [Block.checkIssue, h, hopc, hgood, hwaits]
    simp

theorem mem_of_headOf {q : List QEntry} {x : QEntry} (h : headOf q = some x) : x ∈ q := by
  induction q with
  | nil => cases h
  | cons y t ih =>
    unfold headOf at h
    split at h
    · obtain rfl := Option.some.inj h
      exact List.mem_cons_self
    · split at h
      · cases h
      · exact List.mem_cons_of_mem _ (ih h)
    · split at h
      · cases h
      · exact List.mem_cons_of_mem _ (ih h)
    · cases h

@[simp] theorem Block.chkBusy_atRest (b : Block) : b.atRest.chkBusy = b.chkBusy := rfl
@[simp] theorem Block.chk_atRest (b : Block) : b.atRest.chk = b.chk := rfl

/-- A block whose check command is marked issued runs it. -/
theorem Block.chkRunning_setEntry {b : Block} {x : QEntry} {r : Run} (hx : x ∈ b.seq.q) (hopc : x.cmd.opc = 5) :
    (b.setEntry x.id (fun y => { y with st := .issued r })).chkRunning = true := by
  refine List.any_eq_true.mpr ⟨{ x with st := .issued r }, ?_, ?_⟩
  · exact List.mem_map.mpr ⟨x, hx, if_pos rfl⟩
  · simp only [hopc, QEntry.issued?]
    rfl

/-- The block whose unit begins the check command `c`: it has taken what the core fed, and starts anew where the command says so
(R181, R182). -/
def Block.chkBegin (b : Block) (c : Cmd) : Block :=
  let y := b.chkTake b.chk.buf.length
  if c.poly ≠ y.rd CHK_CTL_POLY ∨ c.chkInit = true then y.setChk c.poly (y.chk.init c.poly) else y

section Begin
variable (b : Block) (c : Cmd)

/-- A unit that starts anew. -/
theorem Block.chkBegin_anew (h : c.poly ≠ b.rd CHK_CTL_POLY ∨ c.chkInit = true) :
    b.chkBegin c = (b.chkTake b.chk.buf.length).setChk c.poly { reg := (crcPoly c.poly).init, hi := b.chk.hi } := by
  obtain ⟨regs, htake, hpoly, -⟩ := b.chkTake_all
  have hhi : (b.chkTake b.chk.buf.length).chk.hi = b.chk.hi := by rw [htake]
  simp only [Block.chkBegin, hpoly, if_pos h, ChkUnit.init, hhi]

/-- A unit that goes on. -/
theorem Block.chkBegin_on (h : ¬(c.poly ≠ b.rd CHK_CTL_POLY ∨ c.chkInit = true)) :
    b.chkBegin c = b.chkTake b.chk.buf.length := by
  obtain ⟨-, -, hpoly, -⟩ := b.chkTake_all
  simp only [Block.chkBegin, hpoly, if_neg h]

theorem Block.chkBegin_poly : (b.chkBegin c).rd CHK_CTL_POLY = c.poly := by
  by_cases h : c.poly ≠ b.rd CHK_CTL_POLY ∨ c.chkInit = true
  · rw [b.chkBegin_anew c h, Block.rd_setChk_poly]
    exact Nat.mod_eq_of_lt (bitsOf_lt _ _ _)
  · obtain ⟨-, -, hpoly, -⟩ := b.chkTake_all
    rw [b.chkBegin_on c h, hpoly]
    exact (not_not.mp (not_or.mp h).1).symm

/-- The unit's register; its input is empty, and the value last written to HI stands. -/
theorem Block.chkBegin_chk : (b.chkBegin c).chk =
    { reg := if c.poly ≠ b.rd CHK_CTL_POLY ∨ c.chkInit = true then (crcPoly c.poly).init
             else (crcPoly c.poly).feedAll b.chk.reg b.chk.buf
      hi := b.chk.hi } := by
  by_cases h : c.poly ≠ b.rd CHK_CTL_POLY ∨ c.chkInit = true
  · rw [b.chkBegin_anew c h, Block.chk_setChk, if_pos h]
  · obtain ⟨regs, htake, -, -⟩ := b.chkTake_all
    rw [b.chkBegin_on c h, htake, if_neg h, not_not.mp (not_or.mp h).1]

@[simp] theorem Block.chkBegin_seq : (b.chkBegin c).seq = b.seq := by
  obtain ⟨regs, htake, -, -⟩ := b.chkTake_all
  by_cases h : c.poly ≠ b.rd CHK_CTL_POLY ∨ c.chkInit = true
  · rw [b.chkBegin_anew c h, Block.seq_setChk, htake]
  · rw [b.chkBegin_on c h, htake]

theorem Block.chkBegin_headSrc (r : Nat) : (b.chkBegin c).headSrc r = b.headSrc r := by
  obtain ⟨-, -, -, hsrc⟩ := b.chkTake_all
  by_cases h : c.poly ≠ b.rd CHK_CTL_POLY ∨ c.chkInit = true
  · rw [b.chkBegin_anew c h, Block.headSrc_setChk, hsrc]
  · rw [b.chkBegin_on c h, hsrc]

end Begin

/-- A legal check command whose slot is full is marked issued with that slot, and the unit begins it (R182). -/
theorem Block.checkIssue_issues {e : Env} {b : Block} {x : QEntry} (h : b.head = some x) (hopc : x.cmd.opc = 5)
    (hgood : b.otherBad x.cmd = false) (hfull : b.sourcesFull x.cmd = true) (hidle : b.chkRunning = false) :
    b.checkIssue e = (b.chkBegin x.cmd).setEntry x.id
      (fun y => { y with st := .issued { sa := b.headSrc x.cmd.ring, cyc := e.cyc } }) := by
  have hopc : ¬x.cmd.opc ≠ 5 := not_not.mpr hopc
  rw [← b.chkBegin_headSrc x.cmd]
  simp only [Block.checkIssue, h, if_neg hopc, hgood, hfull, hidle, Bool.not_true, Bool.or_self, Bool.false_eq_true, if_false]
  rfl

/-! ## CHECK_DONE (R182) -/

section Reads
variable (e : Env) (b : Block)

/-- The reads of a port leave the polynomial (05 R157, R158, R161). -/
theorem Block.poly_spBreach (sub ring slot : Nat) (td : Bool) :
    (b.spBreach e sub ring slot td).rd CHK_CTL_POLY = b.rd CHK_CTL_POLY := by
  rw [Block.spBreach, Block.rd_raise (by decide) (by decide), Block.rd_wr_apart _ _ _ _ _ _ _ _ (by decide),
    Block.rd_wr_apart _ _ _ _ _ _ _ _ (by decide), Block.rd_wr_apart _ _ _ _ _ _ _ _ (by decide)]

theorem Block.poly_granCheck (ring slot lo hi : Nat) : (b.granCheck e ring slot lo hi).rd CHK_CTL_POLY = b.rd CHK_CTL_POLY := by
  unfold Block.granCheck
  split
  · rfl
  · exact b.poly_spBreach e _ _ _ _

theorem Block.rd_inc_apart {c sat f : Field} {n : Nat} (hc : c.apart f 0 0 0 0 = true) (hs : sat.apart f 0 0 0 0 = true) :
    (b.inc c sat n).rd f = b.rd f := Regs.rd_incSat_apart hc hs

theorem Block.poly_eccOne (g st : Nat) : (b.eccOne e g st).rd CHK_CTL_POLY = b.rd CHK_CTL_POLY := by
  unfold Block.eccOne
  dsimp only
  split
  · rw [Block.rd_raise (by decide) (by decide), Block.count_only]
    show (Block.set1 _ SP_STAT_CE).rd CHK_CTL_POLY = _
    rw [Block.set1, Block.rd_wr_apart _ _ _ _ _ _ _ _ (by decide), Block.rd_inc_apart _ (by decide) (by decide),
      Block.rd_wr_apart _ _ _ _ _ _ _ _ (by decide), Block.rd_wr_apart _ _ _ _ _ _ _ _ (by decide)]
  · rw [Block.rd_raise (by decide) (by decide), Block.set1, Block.rd_wr_apart _ _ _ _ _ _ _ _ (by decide),
      Block.rd_inc_apart _ (by decide) (by decide), Block.rd_wr_apart _ _ _ _ _ _ _ _ (by decide),
      Block.rd_wr_apart _ _ _ _ _ _ _ _ (by decide)]

theorem Block.poly_eccAll (l : List (Nat × Nat)) : (b.eccAll e l).rd CHK_CTL_POLY = b.rd CHK_CTL_POLY := by
  induction l generalizing b with
  | nil => rfl
  | cons x t ih => exact (ih _).trans (b.poly_eccOne e _ _)

theorem Block.poly_portRead (ring slot lo hi : Nat) : (b.portRead e ring slot lo hi).1.rd CHK_CTL_POLY = b.rd CHK_CTL_POLY := by
  show ((b.granCheck e ring slot lo hi).eccReadIf e _).1.rd CHK_CTL_POLY = _
  rw [Block.eccReadIf_fst, Block.poly_eccAll, Block.poly_granCheck]

end Reads

/-- The oldest check command that runs. -/
def Block.chkOldest (b : Block) : Option (QEntry × Run) :=
  b.seq.q.findSome? (fun x => if x.cmd.opc = 5 then x.issued?.map (fun r => (x, r)) else none)

theorem Block.checkDone_none (e : Env) {b : Block} (h : b.chkOldest = none) : b.checkDone e = b := by
  unfold Block.chkOldest at h
  simp only [Block.checkDone, h]

/-- The bytes that the command names have been fed: its slot is released, its entry is gone, DONE and its TAG show (R182). -/
theorem Block.checkDone_ends (e : Env) {b R : Block} {y : QEntry} {r : Run} {a : Nat} (h : b.chkOldest = some (y, r))
    (ha : a = b.slotAddr y.cmd.ring r.sa + y.cmd.offset) (hR : R = (b.portRead e y.cmd.ring r.sa a (a + y.cmd.len)).1) :
    Completed b y (b.checkDone e).atRest ∧ (b.checkDone e).bit CHK_STAT_DONE = true ∧
    (b.checkDone e).rd CHK_STAT_TAG = y.cmd.tag ∧
    (b.checkDone e).chk.reg = (crcPoly (b.rd CHK_CTL_POLY)).feedAll b.chk.reg (R.spRead a y.cmd.len) := by
  unfold Block.chkOldest at h
  have hdone : b.checkDone e =
      (((((R.chkFeed (R.spRead a y.cmd.len)).release e y.cmd.ring r.sa 0).dropEntry y.id).set1 CHK_STAT_DONE).wr
        CHK_STAT_TAG y.cmd.tag) := by
    simp only [Block.checkDone, h, ← ha, ← hR]
  have hread : R.standing = b.standing := by simp [hR]
  have hchk : R.chk = b.chk := (congrArg Block.chk hread :)
  have hpoly : R.rd CHK_CTL_POLY = b.rd CHK_CTL_POLY := by rw [hR, Block.poly_portRead]
  have hstands : (b.checkDone e).standing = ({ b.standing with chk := (R.chkFeed (R.spRead a y.cmd.len)).chk } : Block).dropEntry y.id := by
    rw [hdone, ← hread]
    simp [Block.chkFeed]
  refine ⟨⟨(congrArg (·.seq.q) hstands :), (congrArg Block.core hstands :), (congrArg Block.imem hstands :),
    (congrArg Block.ldata hstands :), (congrArg Block.legs hstands :), (congrArg Block.held hstands :),
    (congrArg Block.router hstands :)⟩, ?_, ?_, ?_⟩
  · rw [hdone, Block.bit_wr_apart _ _ _ _ _ _ _ _ (by decide), Block.set1, Block.bit_wr_self _ _ _ _ _ (by decide) (by decide)]
    rfl
  · rw [hdone, Block.rd_wr_self _ _ _ _ _ (by decide) (by decide)]
    exact Nat.mod_eq_of_lt (bitsOf_lt _ _ _)
  · rw [← hpoly, ← hchk]
    exact (congrArg (·.chk.reg) hstands :)

/-! ## Writes that set the unit (R181, R183, 23 R569) -/

/-- While the unit is busy a write of its registers leaves it (R182). -/
theorem Block.chkCtlWrite_busy {b : Block} (v : Word) (h : b.chkBusy = true) : b.chkCtlWrite v = b := if_pos h
theorem Block.chkSeed_busy {b : Block} (v : Word) (h : b.chkBusy = true) : b.chkSeed v = b := if_pos h

theorem Block.chkSeed_idle {b : Block} (v : Word) (h : b.chkBusy = false) :
    b.chkSeed v = b.setChk (b.rd CHK_CTL_POLY)
      { reg := (crcPoly (b.rd CHK_CTL_POLY)).seed (v.toNat + 2 ^ 32 * b.chk.hi.toNat), hi := b.chk.hi } := by
  simp only [Block.chkSeed, h, Bool.false_eq_true, if_false]

/-- A write of POLY sets the unit anew. -/
theorem Block.chkCtlWrite_idle {b : Block} (p : Nat) (h : b.chkBusy = false) :
    b.chkCtlWrite (BitVec.ofNat 32 (p % 4)) = b.setChk (p % 4) { reg := (crcPoly (p % 4)).init, hi := b.chk.hi } := by
  have hof : CHK_CTL_POLY.of (BitVec.ofNat 32 (p % 4)) = p % 4 := by
    show (BitVec.ofNat 32 (p % 4) >>> 0).toNat % 2 ^ 2 = p % 4
    rw [BitVec.ushiftRight_zero, BitVec.toNat_ofNat]
    omega
  simp only [Block.chkCtlWrite, h, hof, ChkUnit.init, Bool.false_eq_true, if_false]

/-- Setting the MC's unit selects its polynomial. -/
theorem State.rd_mchkSet_poly (s : State) (p : Nat) (c : ChkUnit) : (s.mchkSet p c).rd MCHK_CTL_POLY = p % 4 := by
  show (((s.hub.of .hub).wr MCHK_CTL_POLY p).chkShow .hub 0xF004 0xF008 p c).rd MCHK_CTL_POLY 0 0 = p % 4
  rw [Regs.rd_chkShow_ne (f := MCHK_CTL_POLY) rfl (by decide) (by decide), Regs.rd_wr_self _ _ _ _ _ (by decide) (by decide)]
  rfl

/-- Settles O26: a check command issues from the head (`Block.checkIssue_issues`) and ends (`Block.checkDone_ends`), and the writes are
`Block.setChk` of an idle unit. -/
theorem checkUnitCommands : Obligations.CheckUnitCommands := by
  refine ⟨?commands, ?writes, ?mc⟩
  case commands =>
    rintro blk cyc s B hblk hruns rfl
    refine ⟨exec_issue_gap rfl, fun hgap => ?issue, fun y r a R hold ha hR => ?done, fun hnone => ?nothing⟩
    case issue =>
      obtain ⟨hempty, hhead⟩ :=
        Block.checkIssue_issuesFromHead.exec_idle (c := .checkCommand blk cyc) rfl hblk hruns hgap rfl
      refine ⟨hempty, fun x hx => ?_⟩
      obtain ⟨hother, hcheck⟩ := hhead x hx
      refine ⟨fun h => ?waits, fun hopc => (hcheck hopc).1, fun hopc hgood hfull hidle => ?issues⟩
      case waits =>
        by_cases hopc : x.cmd.opc = 5
        · exact (hcheck hopc).2 (h.resolve_left (not_not.mpr hopc))
        · exact hother hopc
      case issues =>
        obtain ⟨t, hexec, hblock⟩ := exec_issue_step (c := .checkCommand blk cyc) rfl hblk hruns hgap
        rw [Block.checkIssue_issues hx hopc hgood hfull hidle] at hblock
        generalize s.blockAt blk cyc = b at *
        have hchk : (t.block blk).chk = (b.chkBegin x.cmd).chk := by rw [hblock]; rfl
        rw [b.chkBegin_chk] at hchk
        refine ⟨t, hexec, ?_, ?_, by rw [hchk], by rw [hchk], fun hanew => by rw [hchk, if_pos hanew],
          fun hsame hon => by rw [hchk, if_neg (by simp [hsame, hon])], ?_⟩ <;> rw [hblock]
        · rw [Block.chkBusy_atRest, Block.chkBusy, Block.chkRunning_setEntry (by rw [b.chkBegin_seq]; exact mem_of_headOf hx) hopc,
            Bool.true_or]
        · exact b.chkBegin_poly x.cmd
        · show List.map _ (b.chkBegin x.cmd).seq.q = _
          rw [b.chkBegin_seq]
          rfl
    all_goals
      obtain ⟨t, hexec, hblock⟩ := exec_live_step (c := .checkDone blk cyc) rfl hblk hruns
      refine ⟨t, hexec, ?_⟩
      rw [hblock]
    case done =>
      rw [Block.bit_atRest, Block.rd_atRest, Block.chk_atRest]
      exact Block.checkDone_ends _ hold ha hR
    case nothing => rw [Block.checkDone_none _ hnone]
  case writes =>
    rintro blk s B p v hready hreach rfl
    refine ⟨fun hbusy c hc => ?busy, fun hidle => ⟨⟨_, rfl, ?poly⟩, ⟨_, rfl, ?init⟩, ⟨_, rfl, ?seed⟩⟩⟩
    case busy =>
      rcases hc with rfl | rfl | rfl
      all_goals
        refine ⟨_, rfl, ?_⟩
        rw [State.block_onPage_self _ hready hreach]
      · rw [Block.chkCtlWrite_busy _ hbusy]
      · rw [if_pos hbusy]
      · rw [Block.chkSeed_busy _ hbusy]
    all_goals rw [State.block_onPage_self _ hready hreach]
    case poly =>
      rw [Block.chkCtlWrite_idle p hidle]
      exact ⟨(Block.rd_setChk_poly _ _ _).trans (Nat.mod_mod _ _), rfl, rfl⟩
    case init =>
      rw [if_neg (by simp [hidle])]
      exact ⟨(Block.rd_setChk_poly _ _ _).trans (Nat.mod_eq_of_lt (Block.poly_lt _)), rfl⟩
    case seed =>
      rw [Block.chkSeed_idle v hidle]
      exact ⟨(Block.rd_setChk_poly _ _ _).trans (Nat.mod_eq_of_lt (Block.poly_lt _)), rfl⟩
  case mc =>
    intro s p v
    exact ⟨⟨_, rfl, (s.rd_mchkSet_poly _ _).trans (Nat.mod_mod _ _), rfl⟩, ⟨_, rfl, rfl⟩, ⟨_, rfl, rfl⟩⟩

end Sys2Proof.Machine

/-!
PROOFS. The memories: the canonical form of the maps, and the region's store and stack (07_region_store_hbm.md): what a region reports,
scrubs and zero-fill (R209, R210, R214), requests that are accepted, land and are abandoned (R200 to R211), transfers that start and gates
that time out (R196, R198, R199, 10 R294).
-/
namespace Sys2Proof.Machine

/-! ## The canonical form -/

/-- Settles O7: what every step keeps (`step_runs`) holds the canonical form. -/
theorem memoriesStayCanonical : Obligations.MemoriesStayCanonical := by
  intro s t hs hstep
  obtain ⟨u, hu, hkeeps⟩ := step_runs s
  have htu : t = u := by injection hstep.symm.trans hu
  exact htu ▸ hkeeps.canonical hs

/-! ## Maps and memories -/

/-- A map with some keys taken out reads the default there and as before elsewhere. -/
theorem SMap.get_filter_key {α : Type} (d : Nat → α) (m : SMap α) (p : Nat → Bool) (k : Nat) :
    SMap.get d (m.filter (fun e => p e.1)) k = if p k then m.get d k else d k := by
  induction m with
  | nil => exact (ite_self _).symm
  | cons e t ih =>
    obtain ⟨a, v⟩ := e
    by_cases hak : a = k
    · subst hak
      cases hp : p a <;> simp [hp, SMap.get, ih]
    · cases hp : p a <;> simp [hp, SMap.get, hak, ih]

/-- A value other than the default is listed. -/
theorem SMap.mem_of_get {α : Type} {d : Nat → α} {m : SMap α} {k : Nat} {v : α} (h : m.get d k = v) (hv : v ≠ d k) :
    (k, v) ∈ m := by
  induction m with
  | nil => exact absurd h.symm hv
  | cons e t ih =>
    obtain ⟨a, w⟩ := e
    by_cases hak : a = k
    · simp only [SMap.get, if_pos hak] at h
      simp [hak, h]
    · simp only [SMap.get, if_neg hak] at h
      exact List.mem_cons_of_mem _ (ih h)

/-- Successive keys that are given one value read it. -/
theorem SMap.get_foldl_put {α : Type} [DecidableEq α] (d : Nat → α) (m : SMap α) (v : α) (b n k : Nat) (hlo : b ≤ k) (hhi : k < b + n) :
    SMap.get d ((List.range n).foldl (fun m i => SMap.put d m (b + i) v) m) k = v := by
  induction n with
  | zero => omega
  | succ n ih =>
    rw [List.range_succ, List.foldl_append, List.foldl_cons, List.foldl_nil]
    by_cases hk : k = b + n
    · rw [hk, SMap.get_put_self]
    · rw [SMap.get_put_ne _ _ _ _ _ hk]
      exact ih (by omega)

/-- A zeroed range reads zero, and every other byte stands. -/
theorem Mem.rd_zeroRange (m : Mem) (lo hi a : Nat) : (m.zeroRange lo hi).rd a = if lo ≤ a ∧ a < hi then 0 else m.rd a := by
  have hget := SMap.get_filter_key Mem.zero m (fun k => decide (k < lo ∨ hi ≤ k)) a
  by_cases ha : lo ≤ a ∧ a < hi
  · rw [if_pos ha]
    rwa [if_neg (by simp; omega)] at hget
  · rw [if_neg ha]
    rwa [if_pos (by simp; omega)] at hget

@[simp] theorem Mem.length_rdN (m : Mem) (a n : Nat) : (m.rdN a n).length = n := by
  induction n generalizing a with
  | zero => rfl
  | succ n ih => exact congrArg (· + 1) (ih (a + 1))

/-! ## A region's own reports -/

/-- A command that acts on a region that is not lost is a step of that region. -/
theorem exec_region_step {n cyc : Nat} {s : State} {c : Instr} {f : REnv → Region → Region}
    (hc : exec c s = .next (s.onLiveRegion n cyc f)) (hn : n < 24) (hlost : (s.region n).lost = false) :
    ∃ t, exec c s = .next t ∧ t.region n = (f (s.renv n cyc) (s.region n)).atRest :=
  ⟨_, hc, s.region_onLiveRegion_self n cyc f hn hlost⟩

/-- A region without its registers, records, event counters and corrected granules. -/
def Region.unreported (g : Region) : Region := { g with regs := [], recq := [], srcseq := 0, evcs := [], evs := [], fixes := [] }

/-- From `z` to `g` a region only reports: of its registers the words at `W` may change, and records, events and corrected granules may
come. -/
structure Reports (W : List Nat) (z g : Region) : Prop where
  rest : g.unreported = z.unreported
  word : ∀ o, o ∉ W → g.regs.word .region o = z.regs.word .region o

namespace Reports

section Reads
variable {W : List Nat} {z g : Region} (h : Reports W z g)
include h

theorem store : g.store = z.store := (congrArg Region.store h.rest :)
theorem stack : g.stack = z.stack := (congrArg Region.stack h.rest :)
theorem storeEcc : g.storeEcc = z.storeEcc := (congrArg Region.storeEcc h.rest :)
theorem stackEcc : g.stackEcc = z.stackEcc := (congrArg Region.stackEcc h.rest :)
theorem stakes : g.stakes = z.stakes := (congrArg Region.stakes h.rest :)
theorem reqs : g.reqs = z.reqs := (congrArg Region.reqs h.rest :)
theorem xfers : g.xfers = z.xfers := (congrArg Region.xfers h.rest :)
theorem xcounts : g.xcounts = z.xcounts := (congrArg Region.xcounts h.rest :)
theorem scrubPos : g.scrubPos = z.scrubPos := (congrArg Region.scrubPos h.rest :)

theorem rd {f : Field} {i j : Nat} (hu : f.unit = .region) (ha : f.at i j ∉ W) : g.rd f i j = z.rd f i j := by
  show bitsOf (g.regs.word f.unit _) _ _ = bitsOf (z.regs.word f.unit _) _ _
  rw [hu, h.word _ ha]

theorem bit {f : Field} {i j : Nat} (hu : f.unit = .region) (ha : f.at i j ∉ W) : g.bit f i j = z.bit f i j :=
  congrArg (· != 0) (h.rd hu ha)

theorem mono {V : List Nat} (hW : W ⊆ V) : Reports V z g := ⟨h.rest, fun o ho => h.word o (fun hm => ho (hW hm))⟩

end Reads

variable {W : List Nat} {z g : Region}

theorem refl (W : List Nat) (g : Region) : Reports W g g := ⟨rfl, fun _ _ => rfl⟩

theorem trans {a b c : Region} (h : Reports W a b) (k : Reports W b c) : Reports W a c :=
  ⟨k.rest.trans h.rest, fun o ho => (k.word o ho).trans (h.word o ho)⟩

/-- An update of records, events and corrected granules. -/
theorem mk_ {recq srcseq evcs evs fixes} (h : Reports W z g) :
    Reports W z { g with recq := recq, srcseq := srcseq, evcs := evcs, evs := evs, fixes := fixes } := ⟨h.rest, h.word⟩

/-- A fold of reports. -/
theorem foldl {α : Type} {l : List α} {f : Region → α → Region} (hf : ∀ a ∈ l, ∀ x, Reports W z x → Reports W z (f x a))
    (h : Reports W z g) : Reports W z (l.foldl f g) := by
  induction l generalizing g with
  | nil => exact h
  | cons a l ih => exact ih (fun b hb => hf b (List.mem_cons_of_mem _ hb)) (hf a List.mem_cons_self g h)

theorem wr {f : Field} {v i j : Nat} (hu : f.unit = .region) (hW : f.at i j ∈ W) (h : Reports W z g) :
    Reports W z (g.wr f v i j) := by
  refine ⟨h.rest, fun o ho => Eq.trans ?_ (h.word o ho)⟩
  show (Regs.setWord _ f.unit _ _).word .region o = _
  rw [hu]
  exact Regs.word_setWord_ne _ _ _ _ _ (fun heq => ho (heq ▸ hW))

theorem inc {c sat : Field} {n : Nat} (hc : c.unit = .region) (hs : sat.unit = .region) (hcW : c.at 0 ∈ W) (hsW : sat.at 0 ∈ W)
    (h : Reports W z g) : Reports W z (g.inc c sat n) := by
  unfold Region.inc Regs.incSat
  dsimp only
  split
  · exact wr hs hsW (wr hc hcW h)
  · exact wr hc hcW h

theorem count {e : REnv} {code n : Nat} {p : Option Nat} (h : Reports W z g) : Reports W z (g.count e code p n) := by
  unfold Region.count
  split
  · exact h
  · exact h.mk_

theorem queue {r : ErrRec} (hW : 0x828 ∈ W) (h : Reports W z g) : Reports W z (g.queue r) := by
  have hlost := h.inc (c := RGN_ERRQ_LOST) (sat := RGN_ERRQ_LSAT) (n := 1) rfl rfl hW hW
  unfold Region.queue
  split
  · exact h.mk_
  · dsimp only
    split
    · split
      · exact hlost.mk_
      · exact hlost
    · exact hlost

theorem raise {e : REnv} {r : ErrRec} (hW : 0x828 ∈ W) (h : Reports W z g) : Reports W z (g.raise e r) :=
  queue hW h.mk_

end Reports

/-! ## The registers that show the queues (07 Tables 7-11, 7-12 and 7-14) -/

/-- HBM_QOCC, MEM_DRAIN and the engines' STR_STAT. -/
def shownWords : List Nat := 0x10118 :: 0x1012C :: (List.range 8).map (fun n => 0x10300 + 4 * n)

theorem strStat_mem_shownWords {n : Nat} (hn : n ∈ List.range 8) : 0x10300 + n * 4 + 0 * 0 ∈ shownWords := by
  have hmem : 0x10300 + 4 * n ∈ shownWords :=
    List.mem_cons_of_mem _ (List.mem_cons_of_mem _ (List.mem_map_of_mem hn))
  rwa [Nat.mul_comm] at hmem

theorem Region.showWait_reports (g : Region) : Reports shownWords g g.showWait :=
  .foldl (fun _ hn _ hx => .wr rfl (strStat_mem_shownWords hn) hx) (.refl _ _)

theorem Region.showPend_reports (g : Region) : Reports shownWords g g.showPend := .wr rfl (by decide) (.refl _ _)

theorem Region.showQ_reports (g : Region) : Reports shownWords g g.showQ :=
  .wr rfl (by decide) (.wr rfl (by decide)
    (.foldl (fun _ hn _ hx => .wr rfl (strStat_mem_shownWords hn) (.wr rfl (strStat_mem_shownWords hn) hx)) (.refl _ _)))

/-! ## Bad words and granules that a read meets -/

/-- The status words of the store and the region's record queue. -/
def storeStatWords : List Nat := [0x828, 0x10000, 0x10004, 0x10008]

/-- The status words of the stack and the region's record queue. -/
def stackStatWords : List Nat := [0x828, 0x10100, 0x10104, 0x10108, 0x1010C, 0x10110]

theorem Region.rsOne_reports (e : REnv) (g : Region) (gr st : Nat) : Reports storeStatWords g (g.rsOne e gr st) := by
  have haddr : ∀ v, Reports storeStatWords g ((g.wr RS_ECC_ADDR_ADDR (16 * gr)).wr RS_ECC_ADDR_UE v) := fun v =>
    .wr rfl (by decide) (.wr rfl (by decide) (.refl _ _))
  unfold Region.rsOne
  dsimp only
  split
  · have hcount := Reports.wr (f := RS_STAT_CE) (v := 1) (i := 0) (j := 0) rfl (by decide)
      (Reports.inc (c := RS_ECC_CNT_CE) (sat := RS_ECC_CNT_CESAT) (n := 1) rfl rfl (by decide) (by decide) (haddr 0))
    exact .raise (by decide) hcount.mk_
  · exact .raise (by decide) (.wr rfl (by decide) (.inc rfl rfl (by decide) (by decide) (haddr 1)))

/-- The bad granules that a read of store bytes `[lo, hi)` meets. -/
def Region.rsMet (g : Region) (lo hi : Nat) : List (Nat × Nat) :=
  g.storeEcc.filter (fun x => decide (lo < 16 * x.1 + 16 ∧ 16 * x.1 < hi))

/-- A read meets each bad granule in turn, and answers whether one was uncorrectable. -/
theorem Region.rsEcc_eq (e : REnv) (g : Region) (lo hi : Nat) :
    g.rsEcc e lo hi = ((g.rsMet lo hi).foldl (fun g x => g.rsOne e x.1 x.2) g, (g.rsMet lo hi).any (fun x => x.2 == 2)) := by
  have hfold : ∀ (l : List (Nat × Nat)) (a : Region × Bool),
      l.foldl (fun a x => (a.1.rsOne e x.1 x.2, a.2 || x.2 == 2)) a =
        (l.foldl (fun g x => g.rsOne e x.1 x.2) a.1, a.2 || l.any (fun x => x.2 == 2)) := by
    intro l
    induction l with
    | nil => simp
    | cons x l ih => simp [ih, Bool.or_assoc]
  exact (hfold _ _).trans (by rw [Bool.false_or]; rfl)

theorem Region.rsEcc_reports (e : REnv) (g : Region) (lo hi : Nat) : Reports storeStatWords g (g.rsEcc e lo hi).1 := by
  rw [g.rsEcc_eq]
  exact .foldl (fun x _ _ hy => hy.trans (Region.rsOne_reports _ _ _ _)) (.refl _ _)

/-! ## Scrubs (07 R209, R210) -/

@[simp] theorem Region.queue_fixes (g : Region) (r : ErrRec) : (g.queue r).fixes = g.fixes := by
  unfold Region.queue
  split
  · rfl
  · dsimp only
    split
    · split <;> rfl
    · rfl

/-- A corrected granule is noted for the next scrub cycle. -/
theorem Region.rsOne_fixes (e : REnv) (g : Region) (gr st : Nat) :
    (g.rsOne e gr st).fixes = if st = 1 then gr :: g.fixes.filter (fun x => x != gr) else g.fixes := by
  unfold Region.rsOne Region.raise
  dsimp only
  split
  · rw [Region.queue_fixes]
    rfl
  · rw [Region.queue_fixes]
    rfl

theorem Region.mem_rsOne_fixes (e : REnv) (g : Region) (gr st k : Nat) (h : k ∈ g.fixes ∨ st = 1 ∧ k = gr) :
    k ∈ (g.rsOne e gr st).fixes := by
  rw [Region.rsOne_fixes]
  split
  · by_cases hk : k = gr
    · exact hk ▸ List.mem_cons_self
    · exact List.mem_cons_of_mem _ (List.mem_filter.mpr ⟨h.resolve_right (fun x => hk x.2), bne_iff_ne.mpr hk⟩)
  · next hst => exact h.resolve_right (fun x => hst x.1)

/-- Each single-bit error that a read meets is noted for the next scrub cycle. -/
theorem Region.mem_rsEcc_fixes (e : REnv) (g : Region) (lo hi k : Nat) (h : (k, 1) ∈ g.rsMet lo hi) :
    k ∈ (g.rsEcc e lo hi).1.fixes := by
  rw [Region.rsEcc_eq]
  have hfold : ∀ (l : List (Nat × Nat)) (x : Region), k ∈ x.fixes ∨ (k, 1) ∈ l →
      k ∈ (l.foldl (fun g y => g.rsOne e y.1 y.2) x).fixes := by
    intro l
    induction l with
    | nil => simp
    | cons y l ih =>
      intro x hk
      rcases hk with hk | hk
      · exact ih _ (.inl (Region.mem_rsOne_fixes _ _ _ _ _ (.inl hk)))
      · rcases List.mem_cons.mp hk with rfl | hk
        · exact ih _ (.inl (Region.mem_rsOne_fixes _ _ _ _ _ (.inr ⟨rfl, rfl⟩)))
        · exact ih _ (.inr hk)
  exact hfold _ _ (.inr h)

/-- The region whose corrected granules the scrub cycle has rewritten. -/
def Region.rewritten (g : Region) : Region :=
  { g with storeEcc := g.storeEcc.filter (fun x => !(x.2 == 1 && g.fixes.contains x.1)), fixes := [] }

theorem Region.mem_rewritten {g : Region} {x : Nat × Nat} :
    x ∈ g.rewritten.storeEcc ↔ x ∈ g.storeEcc ∧ (x.2 = 1 → g.fixes.contains x.1 = false) := by
  rw [Region.rewritten, List.mem_filter]
  simp only [Bool.not_eq_true', Bool.and_eq_false_iff, beq_eq_false_iff_ne, imp_iff_not_or, ne_eq]

/-- STORE_SCRUB rewrites what was corrected, then reads its line. -/
theorem Region.storeScrub_reports (e : REnv) (g : Region) :
    Reports storeStatWords { g.rewritten with scrubPos := (g.scrubPos + 1) % 262144 } (g.storeScrub e) := by
  have h := Region.rsEcc_reports e g.rewritten (256 * g.scrubPos) (256 * g.scrubPos + 256)
  exact ⟨congrArg (fun x : Region => { x with scrubPos := (g.scrubPos + 1) % 262144 }) h.rest, h.word⟩

/-- Each single-bit error of the line that STORE_SCRUB reads is noted for the next one. -/
theorem Region.storeScrub_fixes (e : REnv) {g : Region} {k : Nat} (hk : (k, 1) ∈ g.rewritten.storeEcc) (hlo : 16 * g.scrubPos ≤ k)
    (hhi : k < 16 * g.scrubPos + 16) : k ∈ (g.storeScrub e).fixes :=
  Region.mem_rsEcc_fixes e g.rewritten (256 * g.scrubPos) (256 * g.scrubPos + 256) k
    (List.mem_filter.mpr ⟨hk, decide_eq_true (by dsimp only; omega)⟩)

/-- The marks of the stack after a bad word is met: a correctable error is corrected (07 R207). -/
def Region.stkFixed (g : Region) (x : Nat × Nat) : SMap Nat :=
  if x.2 = 1 then g.stackEcc.put natZero x.1 0 else g.stackEcc

theorem Reports.marked {W : List Nat} {z g : Region} (h : Reports W z g) (c : SMap Nat) :
    Reports W { z with stackEcc := c } { g with stackEcc := c } :=
  ⟨congrArg (fun x : Region => { x with stackEcc := c }) h.rest, h.word⟩

theorem Region.stkOne_reports (e : REnv) (patrol : Bool) (g : Region) (x : Nat × Nat) :
    Reports stackStatWords { g with stackEcc := g.stkFixed x } (Region.stkOne e patrol g x) := by
  have haddr : ∀ a b c, Reports stackStatWords g (((g.wr HBM_ECC_ADDR_LO_ADDR a).wr HBM_ECC_ADDR_HI_ADDR b).wr HBM_ECC_ADDR_HI_UE c) :=
    fun _ _ _ => .wr rfl (by decide) (.wr rfl (by decide) (.wr rfl (by decide) (.refl _ _)))
  unfold Region.stkOne Region.stkFixed
  by_cases hpoison : x.2 = 3
  · rw [if_pos hpoison, if_neg (by omega)]
    split
    · exact .refl _ _
    · exact .inc rfl rfl (by decide) (by decide) (.refl _ _)
  · rw [if_neg hpoison]
    dsimp only
    by_cases hone : x.2 = 1
    · simp only [if_pos hone]
      exact .raise (by decide) (.count (.marked (.wr rfl (by decide) (.inc rfl rfl (by decide) (by decide) (haddr _ _ _))) _))
    · simp only [if_neg hone]
      exact .raise (by decide) (.wr rfl (by decide) (.inc rfl rfl (by decide) (by decide) (haddr _ _ _)))

/-- Bad words of the stack that are met change registers and records, and the marks of the stack. -/
theorem Region.stkMeet_reports (e : REnv) (patrol : Bool) (l : List (Nat × Nat)) (g : Region) :
    ∃ c, Reports stackStatWords { g with stackEcc := c } (l.foldl (Region.stkOne e patrol) g) := by
  induction l generalizing g with
  | nil => exact ⟨g.stackEcc, .refl _ _⟩
  | cons x l ih =>
    obtain ⟨c, hc⟩ := ih (Region.stkOne e patrol g x)
    exact ⟨c, .trans ((Region.stkOne_reports e patrol g x).marked c) hc⟩

/-- A correctable word that is met reads correct from then on. -/
theorem Region.stkMeet_corrects (e : REnv) (patrol : Bool) (w : Nat) (l : List (Nat × Nat)) (g : Region)
    (h : g.stackEcc.get natZero w = 0 ∨ (w, 1) ∈ l) :
    (l.foldl (Region.stkOne e patrol) g).stackEcc.get natZero w = 0 := by
  induction l generalizing g with
  | nil => exact h.resolve_right List.not_mem_nil
  | cons x l ih =>
    refine ih _ ?_
    rw [(Region.stkOne_reports e patrol g x).stackEcc]
    show (g.stkFixed x).get natZero w = 0 ∨ _
    unfold Region.stkFixed
    rcases h with h | h
    · left
      split
      · by_cases hw : w = x.1
        · rw [hw, SMap.get_put_self]
        · rw [SMap.get_put_ne _ _ _ _ _ hw, h]
      · exact h
    · rcases List.mem_cons.mp h with rfl | h
      · exact .inl (by rw [if_pos rfl, SMap.get_put_self])
      · exact .inr h

/-- PATROL_SCRUB moves on to the next line, and round after the last. -/
theorem Region.patrol_frame (e : REnv) (g : Region) :
    (g.patrol e).patrolPos = (if g.patrolPos + 1 < 150994944 then g.patrolPos + 1 else 0) ∧ (g.patrol e).store = g.store ∧
    (g.patrol e).stack = g.stack ∧
    (g.patrol e).stackEcc = ((g.stkBad (256 * g.patrolPos) (256 * g.patrolPos + 256)).foldl (Region.stkOne e true) g).stackEcc := by
  obtain ⟨c, h⟩ := Region.stkMeet_reports e true (g.stkBad (256 * g.patrolPos) (256 * g.patrolPos + 256)) g
  unfold Region.patrol
  dsimp only
  split
  · exact ⟨rfl, h.store, h.stack, rfl⟩
  · split
    · exact ⟨rfl, h.store, h.stack, rfl⟩
    · exact ⟨rfl, h.store, h.stack, rfl⟩

/-- The correctable errors of the line that PATROL_SCRUB reads are corrected. -/
theorem Region.patrol_corrects (e : REnv) {g : Region} {w : Nat} (hlo : 8 * g.patrolPos ≤ w) (hhi : w < 8 * g.patrolPos + 8)
    (hw : g.stackEcc.get natZero w = 1) : (g.patrol e).stackEcc.get natZero w = 0 := by
  obtain ⟨-, -, -, hecc⟩ := g.patrol_frame e
  have hmem : (w, 1) ∈ g.stkBad (256 * g.patrolPos) (256 * g.patrolPos + 256) :=
    List.mem_filter.mpr ⟨SMap.mem_of_get hw Nat.one_ne_zero, decide_eq_true (by dsimp only; omega)⟩
  rw [hecc]
  exact Region.stkMeet_corrects _ _ _ _ _ (.inr hmem)

/-- The last line ends a pass (07 R209). -/
theorem Region.patrol_pass (e : REnv) {g : Region} (hlast : g.patrolPos = 150994943) (hroom : g.rd HBM_PATROL_PASSES < 0xFFFF) :
    (g.patrol e).rd HBM_PATROL_PASSES = g.rd HBM_PATROL_PASSES + 1 := by
  obtain ⟨c, h⟩ := Region.stkMeet_reports e true (g.stkBad (256 * g.patrolPos) (256 * g.patrolPos + 256)) g
  have hpasses : Region.rd (List.foldl _ _ _) HBM_PATROL_PASSES = g.rd HBM_PATROL_PASSES := h.rd rfl (by decide)
  unfold Region.patrol
  dsimp only
  rw [if_neg (by omega), hpasses, if_pos hroom]
  show (Region.wr _ HBM_PATROL_PASSES (g.rd HBM_PATROL_PASSES + 1)).rd HBM_PATROL_PASSES = _
  rw [Region.rd_wr_self _ _ _ _ _ (by decide) (by decide)]
  exact Nat.mod_eq_of_lt (show _ < 2 ^ 16 by omega)

/-! ## Zero-fill (07 R214, 23 R575) -/

/-- A write of MEM_ZERO_CTL clears DONE and REFUSED where it says so. -/
def Region.zeroClear (v : Word) (g : Region) : Region :=
  let g := if MEM_ZERO_CTL_DONE.on v then g.wr MEM_ZERO_CTL_DONE 0 else g
  if MEM_ZERO_CTL_REFUSED.on v then g.wr MEM_ZERO_CTL_REFUSED 0 else g

section ZeroClear
variable (v : Word) (g : Region)

theorem Region.zeroClear_only : g.zeroClear v = { g with regs := (g.zeroClear v).regs } := by
  unfold Region.zeroClear
  cases MEM_ZERO_CTL_DONE.on v <;> cases MEM_ZERO_CTL_REFUSED.on v <;> rfl

/-- The other fields stand. -/
theorem Region.rd_zeroClear {f : Field} {i j : Nat} (hd : MEM_ZERO_CTL_DONE.apart f 0 0 i j = true)
    (hr : MEM_ZERO_CTL_REFUSED.apart f 0 0 i j = true) : (g.zeroClear v).rd f i j = g.rd f i j := by
  unfold Region.zeroClear
  cases MEM_ZERO_CTL_DONE.on v <;> cases MEM_ZERO_CTL_REFUSED.on v
  · rfl
  · exact g.rd_wr_apart _ _ _ _ _ _ _ hr
  · exact g.rd_wr_apart _ _ _ _ _ _ _ hd
  · exact (Region.rd_wr_apart _ _ _ _ _ _ _ _ hr).trans (g.rd_wr_apart _ _ _ _ _ _ _ hd)

theorem Region.zeroClear_done (h : MEM_ZERO_CTL_DONE.on v = true) : (g.zeroClear v).bit MEM_ZERO_CTL_DONE = false := by
  unfold Region.zeroClear
  simp only [h, if_true]
  split
  · rw [Region.bit_wr_apart _ _ _ _ _ _ _ _ (by decide)]
    exact Region.bit_wr_self _ _ _ _ _ (by decide) (by decide)
  · exact Region.bit_wr_self _ _ _ _ _ (by decide) (by decide)

theorem Region.zeroClear_refused (h : MEM_ZERO_CTL_REFUSED.on v = true) : (g.zeroClear v).bit MEM_ZERO_CTL_REFUSED = false := by
  unfold Region.zeroClear
  simp only [h, if_true]
  exact Region.bit_wr_self _ _ _ _ _ (by decide) (by decide)

end ZeroClear

section ZeroCtl
variable (e : REnv) (v : Word) (g : Region)

/-- A write of MEM_ZERO_CTL while a fill runs: START is refused, and TGT stands. -/
theorem Region.zeroCtlWrite_running (h : g.fill.isSome = true) :
    ∃ d, g.zeroCtlWrite e v =
      if MEM_ZERO_CTL_START.on v then (Region.zeroClear v { g with disc := d }).set1 MEM_ZERO_CTL_REFUSED
      else Region.zeroClear v { g with disc := d } := by
  unfold Region.zeroCtlWrite
  simp only [h, if_true]
  by_cases hd : (MEM_ZERO_CTL_START.on v || MEM_ZERO_CTL_TGT.of v != g.rd MEM_ZERO_CTL_TGT) = true
  · exact ⟨g.disc + 1, by rw [if_pos hd]; rfl⟩
  · exact ⟨g.disc, by rw [if_neg hd]; rfl⟩

/-- A write of MEM_ZERO_CTL while none runs sets TGT, and starts a fill where START is set. -/
theorem Region.zeroCtlWrite_idle (h : g.fill = none) :
    g.zeroCtlWrite e v =
      if MEM_ZERO_CTL_START.on v then
        ((g.wr MEM_ZERO_CTL_TGT (MEM_ZERO_CTL_TGT.of v)).zeroClear v).zeroStart e (MEM_ZERO_CTL_TGT.of v)
      else (g.wr MEM_ZERO_CTL_TGT (MEM_ZERO_CTL_TGT.of v)).zeroClear v := by
  unfold Region.zeroCtlWrite
  simp only [h, Option.isSome_none, Bool.false_eq_true, if_false]
  rfl

end ZeroCtl

/-- A write of TGT, DONE and REFUSED changes MEM_ZERO_CTL alone. -/
theorem Region.zeroClear_reports (v : Word) (g : Region) (tgt : Nat) :
    Reports [0x10128] g ((g.wr MEM_ZERO_CTL_TGT tgt).zeroClear v) := by
  have h : Reports [0x10128] g (g.wr MEM_ZERO_CTL_TGT tgt) := .wr rfl (by decide) (.refl _ _)
  unfold Region.zeroClear
  cases MEM_ZERO_CTL_DONE.on v <;> cases MEM_ZERO_CTL_REFUSED.on v
  · exact h
  · exact .wr rfl (by decide) h
  · exact .wr rfl (by decide) h
  · exact .wr rfl (by decide) (.wr rfl (by decide) h)

/-- A test of the first indices goes by what it says of each. -/
theorem any_range_congr {n : Nat} {p q : Nat → Bool} (h : ∀ i < n, p i = q i) : (List.range n).any p = (List.range n).any q := by
  rw [Bool.eq_iff_iff, List.any_eq_true, List.any_eq_true]
  exact exists_congr fun i => and_congr_right fun hi => by rw [h i (List.mem_range.mp hi)]

section Windows
variable {W : List Nat} {z g : Region} (h : Reports W z g) (hW : ∀ o ∈ W, o < 0x10200 ∨ 0x10280 ≤ o)
include h hW

/-- A report outside the window registers leaves the 16 windows. -/
theorem Reports.window {w : Nat} (hw : w < 16) : g.bit MEM_WIN_B_EN w = z.bit MEM_WIN_B_EN w ∧
    g.rd MEM_WIN_B_PARCEL w = z.rd MEM_WIN_B_PARCEL w ∧ g.rd MEM_WIN_A_BASE w = z.rd MEM_WIN_A_BASE w ∧
    g.rd MEM_WIN_A_LIMIT w = z.rd MEM_WIN_A_LIMIT w := by
  have ha : 0x10200 + w * 8 + 0 * 0 ∉ W := fun hm => by have := hW _ hm; omega
  have hb : 0x10204 + w * 8 + 0 * 0 ∉ W := fun hm => by have := hW _ hm; omega
  exact ⟨h.bit rfl hb, h.rd rfl hb, h.rd rfl ha, h.rd rfl ha⟩

theorem Reports.fillBad (e : REnv) (tgt base len : Nat) : g.fillBad e tgt base len = z.fillBad e tgt base len := by
  unfold Region.fillBad
  refine ite_congr rfl (fun _ => rfl) (fun _ => congrArg _ (any_range_congr fun w hw => ?_))
  obtain ⟨hen, hparcel, hbase, hlimit⟩ := h.window hW hw
  rw [hen, hparcel, hbase, hlimit]

theorem Reports.inWindow (p a n : Nat) : g.inWindow p a n = z.inWindow p a n := by
  unfold Region.inWindow
  refine congrArg _ (funext fun j => any_range_congr fun w hw => ?_)
  obtain ⟨hen, hparcel, hbase, hlimit⟩ := h.window hW hw
  rw [hen, hparcel, hbase, hlimit]

end Windows

/-- The first line that a fill of target `tgt` would zero. -/
def Region.zeroBase (g : Region) (tgt : Nat) : Nat :=
  if tgt = 1 then g.rd MEM_ZERO_BASE_BASE % 2 ^ 18 else g.rd MEM_ZERO_BASE_BASE

section ZeroStart
variable {e : REnv} {v : Word} {g : Region} (hidle : g.fill = none) (hstart : MEM_ZERO_CTL_START.on v = true)
include hidle hstart

/-- START on an idle unit: refused for its length, a clearing context or its range; else the fill runs (07 R214, 23 R575). -/
theorem Region.zeroCtlWrite_start {tgt base : Nat} (htgt : tgt = MEM_ZERO_CTL_TGT.of v) (hbase : base = g.zeroBase tgt) :
    g.zeroCtlWrite e v =
      if g.rd MEM_ZERO_LEN_LEN = 0 ∨ e.clearing = true ∨ g.fillBad e tgt base (g.rd MEM_ZERO_LEN_LEN) = true then
        ((g.wr MEM_ZERO_CTL_TGT tgt).zeroClear v).set1 MEM_ZERO_CTL_REFUSED
      else { ((g.wr MEM_ZERO_CTL_TGT tgt).zeroClear v).wr MEM_ZERO_CTL_BUSY 1 with
             fill := some { tgt := tgt, base := base, len := g.rd MEM_ZERO_LEN_LEN } } := by
  subst htgt hbase
  rw [Region.zeroCtlWrite_idle _ _ _ hidle, if_pos hstart]
  have h := Region.zeroClear_reports v g (MEM_ZERO_CTL_TGT.of v)
  have hlen := h.rd (f := MEM_ZERO_LEN_LEN) (i := 0) (j := 0) rfl (by decide)
  have hbase := h.rd (f := MEM_ZERO_BASE_BASE) (i := 0) (j := 0) rfl (by decide)
  have hbad := h.fillBad (by simp) e
  have hfill : ((g.wr MEM_ZERO_CTL_TGT (MEM_ZERO_CTL_TGT.of v)).zeroClear v).fill = none := by
    rw [Region.zeroClear_only]
    exact hidle
  unfold Region.zeroStart Region.zeroBase
  simp only [hlen, hbase, hbad, hfill, Option.isSome_none, Bool.false_or, Bool.or_eq_true, beq_iff_eq, or_assoc]

end ZeroStart

/-- A fill of the store zeroes its lines there, and any other fill none of them. -/
theorem Region.zeroLines_store (g : Region) (tgt base len a : Nat) : (g.zeroLines tgt base len).store.rd a =
    if tgt = 1 ∧ 256 * base ≤ a ∧ a < 256 * (base + len) then 0 else g.store.rd a := by
  unfold Region.zeroLines
  by_cases htgt : tgt = 1
  · simp only [htgt, if_true, true_and]
    exact Mem.rd_zeroRange _ _ _ _
  · simp only [htgt, if_false, false_and]

/-- A fill of the stack zeroes its lines there, and a fill of the store none of them. -/
theorem Region.zeroLines_stack (g : Region) (tgt base len a : Nat) : (g.zeroLines tgt base len).stack.rd a =
    if tgt ≠ 1 ∧ 256 * base ≤ a ∧ a < 256 * (base + len) then 0 else g.stack.rd a := by
  unfold Region.zeroLines
  by_cases htgt : tgt = 1
  · simp only [htgt, if_true, ne_eq, not_true_eq_false, false_and, if_false]
  · simp only [htgt, if_false, ne_eq, not_false_eq_true, true_and]
    exact Mem.rd_zeroRange _ _ _ _

/-- The end of a fill: its lines are zero, BUSY is clear and DONE is set (07 R214). -/
theorem Region.zeroDone_some {g : Region} {f : Fill} (h : g.fill = some f) :
    g.zeroDone = (({ g with fill := none }.zeroLines f.tgt f.base f.len).wr MEM_ZERO_CTL_BUSY 0).set1 MEM_ZERO_CTL_DONE := by
  unfold Region.zeroDone
  rw [h]

theorem Region.zeroLines_fill (g : Region) (tgt base len : Nat) : (g.zeroLines tgt base len).fill = g.fill := by
  unfold Region.zeroLines
  dsimp only
  split <;> rfl

/-- Settles O33: each command is one step of the region; the scrubs go by what a read meets, the fill by `Region.zeroCtlWrite_start` and
`Region.zeroDone_some`. -/
theorem scrubsAndZeroFill : Obligations.ScrubsAndZeroFill := by
  rintro n cyc s G hn rfl hlost
  refine ⟨?storeScrub, ?patrolScrub, ?write, ?fillEnds, fun hnone => ?noFill, fun hot => ?refresh⟩
  case storeScrub =>
    rintro us S rfl
    obtain ⟨t, hexec, ht⟩ := exec_region_step (c := .storeScrub n ⟨cyc, us⟩) rfl hn hlost
    have h := Region.storeScrub_reports (s.renv n cyc) ((s.region n).upset us)
    refine ⟨t, hexec, ?_⟩
    rw [ht]
    generalize s.region n = g at *
    refine ⟨h.scrubPos, h.store, h.stack, fun x hx => ?_, fun x hx hlo hhi hone hfix => ?_⟩
    · have hx : x ∈ ((g.upset us).storeScrub (s.renv n cyc)).storeEcc := hx
      rw [h.storeEcc] at hx
      exact Region.mem_rewritten.mp hx
    · have hk : (x.1, 1) ∈ (g.upset us).rewritten.storeEcc := hone ▸ Region.mem_rewritten.mpr ⟨hx, fun _ => hfix⟩
      exact List.contains_iff_mem.mpr (Region.storeScrub_fixes (s.renv n cyc) hk hlo hhi)
  case patrolScrub =>
    rintro us S rfl
    obtain ⟨t, hexec, ht⟩ := exec_region_step (c := .patrolScrub n ⟨cyc, us⟩) rfl hn hlost
    refine ⟨t, hexec, ?_⟩
    rw [ht]
    generalize s.region n = g at *
    obtain ⟨hpos, hstore, hstack, -⟩ := (g.stkUpset us).patrol_frame (s.renv n cyc)
    exact ⟨hpos, hstore, hstack, fun w hlo hhi hw => Region.patrol_corrects _ hlo hhi hw,
      fun hlast hroom => Region.patrol_pass (g := g.stkUpset us) _ hlast hroom⟩
  case write =>
    rintro v base tgt htgt hbase
    obtain ⟨t, hexec, ht⟩ := exec_region_step (c := .memZeroStart n v) rfl hn hlost
    generalize s.region n = g at *
    generalize s.renv n 0 = e at *
    have hregs : ∀ {x : Region}, x = { g with regs := x.regs, disc := x.disc } →
        x.atRest = { g.atRest with regs := x.atRest.regs } := fun hx => by rw [hx]; rfl
    refine ⟨fun hstart hidle => ⟨fun hbad => ?refused, fun hlen hclear hrange => ?runs⟩, fun hstart f hf => ?busy, fun hstart => ?plain⟩
    all_goals
      refine ⟨t, hexec, ?_⟩
      rw [ht]
    case refused =>
      rw [Region.zeroCtlWrite_start hidle hstart htgt hbase, if_pos hbad]
      refine ⟨Region.bit_wr_self _ _ _ _ _ (by decide) (by decide), ?_, hregs ?_⟩
      all_goals
        rw [Region.zeroClear_only]
      · exact hidle
      · rfl
    case runs =>
      rw [Region.zeroCtlWrite_start hidle hstart htgt hbase, if_neg (by simp [hlen, hclear, hrange])]
      refine ⟨Region.bit_wr_self _ _ _ _ _ (by decide) (by decide), rfl, ?_⟩
      rw [Region.zeroClear_only]
      rfl
    case busy =>
      obtain ⟨d, hd⟩ := g.zeroCtlWrite_running e v (by rw [hf]; rfl)
      rw [hd, if_pos hstart]
      refine ⟨Region.bit_wr_self _ _ _ _ _ (by decide) (by decide), hregs ?_⟩
      rw [Region.zeroClear_only]
      rfl
    case plain =>
      cases hf : g.fill with
      | none =>
        rw [Region.zeroCtlWrite_idle _ _ _ hf, if_neg (by simp [hstart])]
        refine ⟨hregs ?_, fun _ => ?_, fun h => Region.zeroClear_done _ _ h, fun h => Region.zeroClear_refused _ _ h⟩
        · rw [Region.zeroClear_only]
          rfl
        · refine (Region.rd_zeroClear _ _ (by decide) (by decide)).trans ?_
          rw [Region.rd_wr_self _ _ _ _ _ (by decide) (by decide), htgt]
          exact Nat.mod_mod _ _
      | some f =>
        obtain ⟨d, hd⟩ := g.zeroCtlWrite_running e v (by rw [hf]; rfl)
        rw [hd, if_neg (by simp [hstart])]
        refine ⟨hregs ?_, nofun, fun h => Region.zeroClear_done _ _ h, fun h => Region.zeroClear_refused _ _ h⟩
        rw [Region.zeroClear_only]
  case fillEnds =>
    intro f hf
    obtain ⟨t, hexec, ht⟩ := exec_region_step (c := .zeroFillDone n cyc) rfl hn hlost
    refine ⟨t, hexec, ?_⟩
    rw [ht, Region.zeroDone_some hf]
    refine ⟨Region.zeroLines_fill _ _ _ _, ?_, Region.bit_wr_self _ _ _ _ _ (by decide) (by decide),
      Region.zeroLines_store _ _ _ _, Region.zeroLines_stack _ _ _ _⟩
    refine (Region.bit_wr_apart _ MEM_ZERO_CTL_DONE MEM_ZERO_CTL_BUSY _ _ _ _ _ (by decide)).trans ?_
    exact Region.bit_wr_self _ _ _ _ _ (by decide) (by decide)
  case noFill =>
    obtain ⟨t, hexec, ht⟩ := exec_region_step (c := .zeroFillDone n cyc) rfl hn hlost
    refine ⟨t, hexec, ?_⟩
    rw [ht, Region.zeroDone, hnone]
  case refresh =>
    obtain ⟨t, hexec, ht⟩ := exec_region_step (c := .doubledRefresh n hot) rfl hn hlost
    refine ⟨t, hexec, ?_⟩
    rw [ht]
    refine ⟨(Region.bit_wr_self _ HBM_STAT_HOT _ 0 0 (by decide) (by decide)).trans ?_, rfl⟩
    cases hot <;> rfl

/-! ## Transfers and their counts (07 R198 to R202) -/

theorem Xfer.isX_self (y : Xfer) : y.isX y.eng y.desc y.k y.frame = true := by simp [Xfer.isX]

theorem Xfer.isX_iff {x : Xfer} {n i k fr : Nat} : x.isX n i k fr = true ↔ x.eng = n ∧ x.desc = i ∧ x.k = k ∧ x.frame = fr := by
  simp [Xfer.isX, and_assoc]

/-- A transfer that is changed stands among the transfers. -/
theorem Region.mem_setXfer {g : Region} {x y : Xfer} (hx : x ∈ g.xfers) (hid : x.isX y.eng y.desc y.k y.frame = true) :
    y ∈ (g.setXfer y).xfers :=
  List.mem_map.mpr ⟨x, hx, if_pos hid⟩

/-- Every transfer of the number is the changed one. -/
theorem Region.eq_of_mem_setXfer {g : Region} {x y : Xfer} (hx : x ∈ (g.setXfer y).xfers)
    (hid : x.isX y.eng y.desc y.k y.frame = true) : x = y := by
  obtain ⟨z, -, rfl⟩ := List.mem_map.mp hx
  split
  · rfl
  · next hz => exact absurd (by rwa [if_neg hz] at hid) hz

/-- A descriptor's count in a frame is listed under that descriptor and frame. -/
theorem Region.xcount_id (g : Region) (n i fr : Nat) :
    (g.xcount n i fr).eng = n ∧ (g.xcount n i fr).desc = i ∧ (g.xcount n i fr).frame = fr := by
  unfold Region.xcount
  cases h : g.xcounts.find? (fun c => c.eng == n && c.desc == i && c.frame == fr) with
  | none => exact ⟨rfl, rfl, rfl⟩
  | some c =>
    have hc := List.find?_some h
    simp only [Bool.and_eq_true, beq_iff_eq] at hc
    exact ⟨hc.1.1, hc.1.2, hc.2⟩

theorem Region.xcount_setXcount_self (g : Region) {c : XCount} {n i fr : Nat} (hn : c.eng = n) (hi : c.desc = i) (hfr : c.frame = fr) :
    (g.setXcount c).xcount n i fr = c := by
  simp [Region.setXcount, Region.xcount, hn, hi, hfr]

/-! ## DONE is driven (07 R202) -/

/-- A region without its transfers, their counts, the drives that wait and the parcels with a void in the frame. -/
def Region.undriven (g : Region) : Region := { g with xfers := [], xcounts := [], driveq := [], voids := [] }

/-- Drives of DONE remove transfers, and change but their counts, the drives that wait and the voids of the frame. -/
structure Driven (n i fr : Nat) (z g : Region) : Prop where
  rest : g.undriven = z.undriven
  xfers : ∀ y ∈ g.xfers, y ∈ z.xfers
  started : (g.xcount n i fr).started = (z.xcount n i fr).started

namespace Driven
variable {n i fr : Nat} {z g : Region}

theorem refl (n i fr : Nat) (g : Region) : Driven n i fr g g := ⟨rfl, fun _ h => h, rfl⟩

theorem drive {e : REnv} {id inc p : Nat} {void : Bool} {d : Driver} (h : Driven n i fr z g) :
    Driven n i fr z (g.drive e id inc void p d) := by
  unfold Region.drive
  split
  · exact h
  · exact ⟨h.rest, h.xfers, h.started⟩

theorem noteVoid {p : Nat} {void : Bool} (h : Driven n i fr z g) : Driven n i fr z (g.noteVoid p void) := by
  unfold Region.noteVoid
  split
  · exact ⟨h.rest, h.xfers, h.started⟩
  · exact h

/-- A transfer whose DONE is driven is removed and counted. -/
theorem done {p : Xfer → Bool} (h : Driven n i fr z g) : Driven n i fr z ({ g with xfers := g.xfers.filter p }.setXcount
    { g.xcount n i fr with done := (g.xcount n i fr).done + 1 }) := by
  obtain ⟨hn, hi, hfr⟩ := g.xcount_id n i fr
  refine ⟨h.rest, fun y hy => h.xfers y (List.mem_filter.mp hy).1, Eq.trans ?_ h.started⟩
  exact (congrArg XCount.started
    (Region.xcount_setXcount_self _ (c := { g.xcount n i fr with done := (g.xcount n i fr).done + 1 }) hn hi hfr)).trans rfl

theorem driveDone {e : REnv} {m : Nat} (h : Driven n i fr z g) : Driven n i fr z (Region.driveDone e n i fr m g) := by
  induction m generalizing g with
  | zero => exact h
  | succ m ih =>
    unfold Region.driveDone
    dsimp only
    split
    · exact h
    · split
      · exact ih (drive (noteVoid (done h)))
      · exact h

section Reads
variable (h : Driven n i fr z g)
include h

theorem regs : g.regs = z.regs := (congrArg Region.regs h.rest :)
theorem store : g.store = z.store := (congrArg Region.store h.rest :)
theorem stack : g.stack = z.stack := (congrArg Region.stack h.rest :)
theorem stackEcc : g.stackEcc = z.stackEcc := (congrArg Region.stackEcc h.rest :)
theorem stakes : g.stakes = z.stakes := (congrArg Region.stakes h.rest :)
theorem reqs : g.reqs = z.reqs := (congrArg Region.reqs h.rest :)

end Reads
end Driven

/-! ## What accepting and landing leave alone -/

/-- From `z` to `g` the memories, the requests, the stakes and the registers that do not show the queues stand, and transfers only go. -/
structure Stands (z g : Region) : Prop where
  store : g.store = z.store
  stack : g.stack = z.stack
  stackEcc : g.stackEcc = z.stackEcc
  reqs : g.reqs = z.reqs
  stakes : g.stakes = z.stakes
  word : ∀ o, o ∉ shownWords → g.regs.word .region o = z.regs.word .region o
  xfers : ∀ y ∈ g.xfers, y ∈ z.xfers

theorem Stands.trans {a b c : Region} (h : Stands a b) (k : Stands b c) : Stands a c :=
  ⟨k.store.trans h.store, k.stack.trans h.stack, k.stackEcc.trans h.stackEcc, k.reqs.trans h.reqs, k.stakes.trans h.stakes,
    fun o ho => (k.word o ho).trans (h.word o ho), fun y hy => h.xfers y (k.xfers y hy)⟩

theorem Stands.bit {z g : Region} (h : Stands z g) {f : Field} {i j : Nat} (hu : f.unit = .region) (ha : f.at i j ∉ shownWords) :
    g.bit f i j = z.bit f i j := by
  show (bitsOf (g.regs.word f.unit _) _ _ != 0) = (bitsOf (z.regs.word f.unit _) _ _ != 0)
  rw [hu, h.word _ ha]

theorem Reports.stands {W : List Nat} {z g : Region} (h : Reports W z g) (hW : W ⊆ shownWords) : Stands z g :=
  ⟨h.store, h.stack, h.stackEcc, h.reqs, h.stakes, (h.mono hW).word, fun _ hy => h.xfers ▸ hy⟩

theorem Driven.stands {n i fr : Nat} {z g : Region} (h : Driven n i fr z g) : Stands z g :=
  ⟨h.store, h.stack, h.stackEcc, h.reqs, h.stakes, fun _ _ => by rw [h.regs], h.xfers⟩

theorem Region.showDrain_stands (g : Region) : Stands g g.showDrain :=
  ⟨rfl, rfl, rfl, rfl, rfl, (Region.showPend_reports _).word, fun _ hy => (List.mem_filter.mp hy).1⟩

/-- A request's acceptance ends so. -/
theorem Region.shown_reports (g : Region) : Reports shownWords g g.showQ.showWait.showPend :=
  .trans g.showQ_reports (.trans (Region.showWait_reports _) (Region.showPend_reports _))

theorem Region.showQ_showDrain_stands (g : Region) : Stands g g.showQ.showDrain :=
  .trans (g.showQ_reports.stands (List.Subset.refl _)) (Region.showDrain_stands _)

/-- A request that leaves ends so: DONE of each complete transfer is driven, and the queues are shown. -/
theorem Region.driveDone_shown_stands (e : REnv) (n i fr m : Nat) (g : Region) :
    Stands g (Region.driveDone e n i fr m g).showQ.showDrain :=
  .trans (Driven.driveDone (.refl n i fr g)).stands (Region.showQ_showDrain_stands _)

/-! ## Descriptors -/

section Descriptors
variable {W : List Nat} {z g : Region} (h : Reports W z g) (hW : ∀ o ∈ W, o < 0x20000)
include h hW

/-- A report below the descriptors leaves them. -/
theorem Reports.sd (n i w : Nat) : g.sd n i w = z.sd n i w :=
  h.word _ (fun hm => by have := hW _ hm; omega)

theorem Reports.sdLen (n i : Nat) : g.sdLen n i = z.sdLen n i := by
  unfold Region.sdLen
  rw [h.sd hW]

theorem Reports.sdOp (n i : Nat) : g.sdOp n i = z.sdOp n i := by
  unfold Region.sdOp
  rw [h.sd hW]

theorem Reports.xStore (x : Xfer) (a : Nat) : g.xStore x a = z.xStore x a := by
  unfold Region.xStore
  rw [h.sd hW, h.sd hW, h.sdLen hW]

end Descriptors

/-! ## REQUEST_ACCEPTED (07 R200 to R203) -/

/-- The lines that the next request of a transfer takes: eight at most, within a group of eight and the transfer (07 R200). -/
def Region.nextLines (g : Region) (x : Xfer) : Nat :=
  min (min 8 (g.sdLen x.eng x.desc - x.asked)) (8 - (x.hline + x.asked) % 8)

/-- The oldest started transfer of a descriptor that has lines to ask for. -/
def Region.nextAsking (g : Region) (n i : Nat) : Option Xfer :=
  g.xfers.find? (fun x => x.eng == n && x.desc == i && x.started && !x.dead && decide (x.asked < g.sdLen n i))

section Accept
variable {e : REnv} {g : Region} {n i : Nat} {x : Xfer}

theorem Region.requestAccepted_none (h : g.nextAsking n i = none ∨ g.stopped = true) : g.requestAccepted e n i = g := by
  unfold Region.requestAccepted
  split
  · rfl
  · next x hx =>
    rcases h with h | h
    · exact absurd (hx.symm.trans h) nofun
    · dsimp only
      rw [if_pos (by rw [h, Bool.or_true])]

variable (hx : g.nextAsking n i = some x) (hlost : g.lost = false) (hstop : g.stopped = false)
include hx

/-- The transfer found is one of the descriptor. -/
theorem Region.nextAsking_id : x ∈ g.xfers ∧ x.eng = n ∧ x.desc = i := by
  have h := List.find?_some hx
  simp only [Bool.and_eq_true, beq_iff_eq] at h
  exact ⟨List.mem_of_find?_eq_some hx, h.1.1.1.1, h.1.1.1.2⟩

include hlost hstop

/-- With its share full the request waits (07 R201). -/
theorem Region.requestAccepted_full (hfull : (if g.sdOp n i == 2 then 30 else 60) ≤ g.held n (g.sdOp n i == 2)) :
    g.requestAccepted e n i = g.setXfer { x with wait := some (x.wait.getD e.cyc) } := by
  unfold Region.requestAccepted
  rw [← Region.nextAsking, hx]
  dsimp only
  rw [if_neg (by simp [hlost, hstop]), if_pos hfull]

end Accept

/-- A read request of the next lines, with the stack's bytes as they stand. -/
def Region.readReq (g : Region) (x : Xfer) : Req :=
  { eng := x.eng, desc := x.desc, k := x.k, frame := x.frame, first := x.asked, n := g.nextLines x, write := false
    data := g.stack.rdN (256 * (x.hline + x.asked)) (256 * g.nextLines x)
    bad := g.stkBad (256 * (x.hline + x.asked)) (256 * (x.hline + x.asked + g.nextLines x)) }

/-- A region that has accepted a read of the next lines of `x`. -/
def Region.readAccepted (g : Region) (x : Xfer) : Region :=
  { g with reqs := g.reqs ++ [g.readReq x] }.setXfer { x with asked := x.asked + g.nextLines x, wait := none }

/-- What is reported before a read is accepted leaves the read. -/
theorem Reports.readAccepted {W : List Nat} {z g : Region} (h : Reports W z g) (hW : ∀ o ∈ W, o < 0x20000) (x : Xfer) :
    Reports W (z.readAccepted x) (g.readAccepted x) := by
  have hlines : g.nextLines x = z.nextLines x := by
    unfold Region.nextLines
    rw [h.sdLen hW]
  have hreq : g.readReq x = z.readReq x := by
    unfold Region.readReq Region.stkBad
    rw [hlines, h.stack, h.stackEcc]
  unfold Region.readAccepted
  rw [hlines, hreq, h.reqs]
  exact ⟨congrArg (fun y : Region => Region.setXfer { y with reqs := z.reqs ++ [z.readReq x] }
    { x with asked := x.asked + z.nextLines x, wait := none }) h.rest, h.word⟩

/-- A write request of the next lines. -/
def Region.writeReq (g : Region) (x : Xfer) : Req :=
  { eng := x.eng, desc := x.desc, k := x.k, frame := x.frame, first := x.asked, n := g.nextLines x, write := true }

/-- A region that has accepted a write of the next lines of `x`: they are copied from the store, poisoned for a void tile (07 R208). -/
def Region.writeAccepted (e : REnv) (g : Region) (x : Xfer) : Region :=
  let a := g.xStore x x.asked
  let r := g.rsEcc e a (a + 256 * g.nextLines x)
  let y : Xfer := { x with gvoid := x.gvoid || r.2, asked := x.asked + g.nextLines x, wait := none }
  let h := r.1.stkWrite (256 * (x.hline + x.asked)) (r.1.store.rdN a (256 * g.nextLines x)) y.gvoid
  { h with reqs := h.reqs ++ [g.writeReq x] }.setXfer y

section WriteAccepted
variable (e : REnv) (g : Region) (x : Xfer)

theorem Region.writeAccepted_reqs : (g.writeAccepted e x).reqs = g.reqs ++ [g.writeReq x] :=
  congrArg (· ++ [g.writeReq x]) (g.rsEcc_reports e _ _).reqs

theorem Region.writeAccepted_store : (g.writeAccepted e x).store = g.store := (g.rsEcc_reports e _ _).store

theorem Region.writeAccepted_stack : (g.writeAccepted e x).stack =
    g.stack.wrN (256 * (x.hline + x.asked)) (g.store.rdN (g.xStore x x.asked) (256 * g.nextLines x)) := by
  have h := g.rsEcc_reports e (g.xStore x x.asked) (g.xStore x x.asked + 256 * g.nextLines x)
  show (Region.stack _).wrN _ ((Region.store _).rdN _ _) = _
  rw [h.stack, h.store]

/-- The words of a void tile's lines are poisoned. -/
theorem Region.writeAccepted_poison (hvoid : x.gvoid = true) {l : Nat} (hlo : 8 * (x.hline + x.asked) ≤ l)
    (hhi : l < 8 * (x.hline + x.asked + g.nextLines x)) : (g.writeAccepted e x).stackEcc.get natZero l = 3 := by
  show (Region.stkWrite _ _ _ (x.gvoid || _)).stackEcc.get natZero l = 3
  unfold Region.stkWrite
  simp only [hvoid, Bool.true_or, if_true, Mem.length_rdN]
  exact SMap.get_foldl_put _ _ _ _ _ _ (by omega) (by omega)

end WriteAccepted

section Accept
variable {e : REnv} {g : Region} {n i : Nat} {x : Xfer}
  (hx : g.nextAsking n i = some x) (hlost : g.lost = false) (hstop : g.stopped = false)
include hx hlost hstop

/-- With room in the read share a read is accepted; the cycles that it waited are counted. -/
theorem Region.requestAccepted_read (hop : (g.sdOp n i == 2) = false) (hroom : g.held n false < 60) :
    Reports shownWords (g.readAccepted x) (g.requestAccepted e n i) := by
  obtain ⟨-, rfl, rfl⟩ := Region.nextAsking_id hx
  have hreads : ∀ {y : Region}, Reports [] g y → Reports shownWords (g.readAccepted x)
      ((y.readAccepted x).count e 0x042 (some x.parcel)).showQ.showWait.showPend := fun hy =>
    .trans (.mono (.count (hy.readAccepted nofun x)) (List.nil_subset _)) (Region.shown_reports _)
  unfold Region.requestAccepted
  rw [← Region.nextAsking, hx]
  dsimp only
  rw [if_neg (by simp [hlost, hstop]), hop, if_neg (by simpa using hroom)]
  cases x.wait with
  | none => exact hreads (.refl _ _)
  | some t => exact hreads (.count (.refl _ _))

/-- With room in the write share a write is accepted; the cycles that it waited are counted first. -/
theorem Region.requestAccepted_write (hop : (g.sdOp n i == 2) = true) (hroom : g.held n true < 30) :
    ∃ y, Reports [] g y ∧ Stands (y.writeAccepted e x) (g.requestAccepted e n i) := by
  obtain ⟨-, rfl, rfl⟩ := Region.nextAsking_id hx
  have hwrites : ∀ {z y : Region} {m : Nat}, Reports [] z y →
      Stands z (Region.driveDone e x.eng x.desc x.frame m y).showQ.showWait.showPend := fun hy =>
    .trans (hy.stands (List.nil_subset _)) (.trans (Driven.driveDone (.refl _ _ _ _)).stands
      ((Region.shown_reports _).stands (List.Subset.refl _)))
  unfold Region.requestAccepted
  rw [← Region.nextAsking, hx]
  dsimp only
  rw [if_neg (by simp [hlost, hstop]), hop, if_neg (by simpa using hroom)]
  simp only [Nat.add_sub_cancel, if_true]
  cases x.wait with
  | none => exact ⟨g, .refl _ _, hwrites (.count (.count (.refl _ _)))⟩
  | some t => exact ⟨_, .count (.refl _ _), hwrites (.count (.count (.refl _ _)))⟩

end Accept

/-! ## LINE_LANDED and REQUEST_ABANDON (07 R207, R208, R211) -/

theorem Reports.setXfer {W : List Nat} {z g : Region} (h : Reports W z g) (y : Xfer) : Reports W (z.setXfer y) (g.setXfer y) :=
  ⟨congrArg (fun x : Region => x.setXfer y) h.rest, h.word⟩

/-- The started transfer of a number. -/
def Region.startedXfer (g : Region) (n i k fr : Nat) : Option Xfer := g.xfers.find? (fun x => x.isX n i k fr && x.started)

/-- The request of a transfer that starts at line `first`. -/
def Region.openReq (g : Region) (n i k first : Nat) : Option Req :=
  g.reqs.find? (fun r => r.eng == n && r.desc == i && r.k == k && r.first == first)

/-- The same, where it can land: a read lands only while the region issues (07 R205). -/
def Region.landingReq (g : Region) (n i k first : Nat) : Option Req :=
  g.reqs.find? (fun r => r.eng == n && r.desc == i && r.k == k && r.first == first && (r.write || !g.stopped))

section Land
variable (e : REnv) {g : Region} {n i k first : Nat} {r : Req}

theorem Region.lineLanded_none (h : g.landingReq n i k first = none) : g.lineLanded e n i k first = g := by
  unfold Region.lineLanded
  rw [← Region.landingReq, h]

/-- A request that lands is removed. Its lines are written to the store when it is a read of a started transfer that is neither
cancelled nor complete. -/
theorem Region.lineLanded_cases (hr : g.landingReq n i k first = some r) :
    ∃ c y, Reports stackStatWords { g with reqs := g.reqs.erase r, stackEcc := c } y ∧
      (Stands y (g.lineLanded e n i k first) ∧
          (∀ z, g.startedXfer n i k r.frame = some z →
            r.write = true ∨ z.dead = true ∨ g.sdLen n i ≤ z.landed) ∨
        ∃ z, g.startedXfer n i k r.frame = some z ∧
          (r.write = false ∧ z.dead = false ∧ z.landed < g.sdLen n i) ∧
          Stands ((y.rsWrite (g.xStore z r.first) r.data).setXfer
            { z with landed := z.landed + r.n, void := z.void || r.bad.any (fun b => decide (2 ≤ b.2)) })
            (g.lineLanded e n i k first)) := by
  obtain ⟨c, h⟩ := Region.stkMeet_reports e false r.bad { g with reqs := g.reqs.erase r }
  have hW : ∀ o ∈ stackStatWords, o < 0x20000 := by decide
  have hlen : Region.sdLen (r.bad.foldl (Region.stkOne e false) { g with reqs := g.reqs.erase r }) n i = g.sdLen n i := h.sdLen hW n i
  have hxfers : Region.xfers (r.bad.foldl (Region.stkOne e false) { g with reqs := g.reqs.erase r }) = g.xfers := h.xfers
  refine ⟨c, _, h, ?_⟩
  unfold Region.lineLanded
  rw [← Region.landingReq, hr]
  dsimp only
  rw [hxfers, ← Region.startedXfer]
  cases g.startedXfer n i k r.frame with
  | none => exact .inl ⟨Region.showQ_showDrain_stands _, nofun⟩
  | some z =>
    dsimp only
    split
    · next hcond =>
      rw [hlen] at hcond
      refine .inl ⟨Region.showQ_showDrain_stands _, fun w hw => ?_⟩
      obtain rfl : z = w := by injection hw
      simpa [or_assoc] using hcond
    · next hcond =>
      rw [hlen] at hcond
      rw [h.xStore hW]
      refine .inr ⟨z, rfl, by simpa [and_assoc] using hcond, .trans ?_ (Region.driveDone_shown_stands _ _ _ _ _ _)⟩
      exact (Reports.setXfer (W := []) (.count (.count (.refl _ _))) _).stands (List.nil_subset _)

theorem Region.requestAbandon_none (h : g.openReq n i k first = none) : g.requestAbandon e n i k first = g := by
  unfold Region.requestAbandon
  rw [← Region.openReq, h]

end Land

/-! REQUEST_ABANDON in two parts: the request is removed with its record, then its transfer ends. -/

/-- The first part. -/
def Region.abandonReq (e : REnv) (g : Region) (n i : Nat) (r : Req) : Region :=
  let g := (g.set1 HBM_STAT_IFTMO).raise e
    { cls := 8, subtype := 0x35, level := 2, parcel := bitsOf (g.sd n i 0) 6 3, tag := bitsOf (g.sd n i 7) 15 0
      object := n + 2 ^ 8 * i, objkind := 4, inj := e.inj }
  let g : Region := if e.inj then g else { g with events := g.events ++ [{ kind := 3, unit := 0, stamp := e.frame }] }
  { g with reqs := g.reqs.erase r }

/-- The second part: the transfer is void and asks for and awaits nothing more. -/
def Region.abandonXfer (e : REnv) (g : Region) (n i k fr : Nat) : Region :=
  match g.startedXfer n i k fr with
  | none => g.showQ.showDrain
  | some x =>
    let g := g.setXfer { x with void := true, asked := g.sdLen n i, landed := g.sdLen n i }
    (Region.driveDone e n i x.frame g.xfers.length g).showQ.showDrain

section Abandon
variable (e : REnv) {g : Region} {n i k first : Nat} {r : Req}

theorem Region.requestAbandon_eq (hr : g.openReq n i k first = some r) :
    g.requestAbandon e n i k first = Region.abandonXfer e (g.abandonReq e n i r) n i k r.frame := by
  unfold Region.requestAbandon
  rw [← Region.openReq, hr]
  rfl

theorem Region.abandonReq_reports (g : Region) (n i : Nat) (r : Req) :
    ∃ v, Reports [0x828] { g.set1 HBM_STAT_IFTMO with reqs := g.reqs.erase r, events := v } (g.abandonReq e n i r) := by
  have h : ∀ q, Reports [0x828] (g.set1 HBM_STAT_IFTMO) ((g.set1 HBM_STAT_IFTMO).raise e q) := fun q =>
    .raise (by decide) (.refl _ _)
  have hreqs : ∀ q, ((g.set1 HBM_STAT_IFTMO).raise e q).reqs = g.reqs := fun q => (h q).reqs
  have hnoted : ∀ q v, Reports [0x828] { g.set1 HBM_STAT_IFTMO with reqs := g.reqs.erase r, events := v }
      { (g.set1 HBM_STAT_IFTMO).raise e q with reqs := g.reqs.erase r, events := v } := fun q v =>
    ⟨congrArg (fun y : Region => { y with reqs := g.reqs.erase r, events := v }) (h q).rest, (h q).word⟩
  unfold Region.abandonReq
  dsimp only
  cases e.inj
  all_goals
    simp only [Bool.false_eq_true, if_false, if_true, hreqs]
    exact ⟨_, hnoted _ _⟩

/-- In a region with the request removed its transfer, where it is started, is void and complete; all else stands. -/
theorem Region.abandonXfer_cases (g : Region) (n i k fr : Nat) :
    g.startedXfer n i k fr = none ∧ Stands g (g.abandonXfer e n i k fr) ∨
      ∃ z, g.startedXfer n i k fr = some z ∧
        Stands (g.setXfer { z with void := true, asked := g.sdLen n i, landed := g.sdLen n i }) (g.abandonXfer e n i k fr) := by
  unfold Region.abandonXfer
  cases g.startedXfer n i k fr with
  | none => exact .inl ⟨rfl, Region.showQ_showDrain_stands _⟩
  | some z => exact .inr ⟨z, rfl, Region.driveDone_shown_stands _ _ _ _ _ _⟩

end Abandon

theorem Region.startedXfer_id {g : Region} {n i k fr : Nat} {z : Xfer} (hz : g.startedXfer n i k fr = some z) :
    z.eng = n ∧ z.desc = i ∧ z.k = k ∧ z.frame = fr := by
  have h := List.find?_some hz
  exact Xfer.isX_iff.mp ((Bool.and_eq_true _ _).mp h).1

/-- The one transfer of a number is the changed one, and its number stands. -/
theorem Region.eq_of_mem_setXfer_started {g h : Region} {n i k fr : Nat} {z w y : Xfer}
    (hz : g.startedXfer n i k fr = some z)
    (hy : y ∈ (h.setXfer w).xfers) (hid : y.isX n i k fr = true)
    (hw : w.eng = z.eng ∧ w.desc = z.desc ∧ w.k = z.k ∧ w.frame = z.frame) : y = w := by
  obtain ⟨rfl, rfl, rfl, rfl⟩ := Region.startedXfer_id hz
  obtain ⟨hn, hi, hk, hfr⟩ := hw
  exact Region.eq_of_mem_setXfer hy (by rwa [hn, hi, hk, hfr])

/-- A request that lands: it is removed, and a read's lines are written and counted. -/
theorem Region.lineLanded_lands (e : REnv) {g : Region} {n i k first : Nat} {r : Req}
    (hr : g.landingReq n i k first = some r) :
    (g.lineLanded e n i k first).reqs = g.reqs.erase r ∧ (g.lineLanded e n i k first).stack = g.stack ∧
    (∀ z, g.startedXfer n i k r.frame = some z →
      (r.write = false → z.dead = false → z.landed < g.sdLen n i →
        (g.lineLanded e n i k first).store = g.store.wrN (g.xStore z r.first) r.data ∧
        ∀ y ∈ (g.lineLanded e n i k first).xfers, y.isX n i k r.frame = true →
          y.landed = z.landed + r.n ∧ y.void = (z.void || r.bad.any (fun b => decide (2 ≤ b.2)))) ∧
      (r.write = true ∨ z.dead = true ∨ g.sdLen n i ≤ z.landed → (g.lineLanded e n i k first).store = g.store)) ∧
    (g.startedXfer n i k r.frame = none → (g.lineLanded e n i k first).store = g.store) := by
  obtain ⟨c, y, hy, ⟨h, hcond⟩ | ⟨z, hz, ⟨hread, hlive, hopen⟩, h⟩⟩ := Region.lineLanded_cases e hr
  · have hstore := h.store.trans hy.store
    refine ⟨h.reqs.trans hy.reqs, h.stack.trans hy.stack, fun z hz => ⟨fun hread hlive hopen => ?_, fun _ => hstore⟩, fun _ => hstore⟩
    rcases hcond z hz with hwrite | hdead | hdone
    · exact absurd hwrite (by simp [hread])
    · exact absurd hdead (by simp [hlive])
    · exact absurd hdone (by omega)
  · refine ⟨h.reqs.trans hy.reqs, h.stack.trans hy.stack, fun w hw => ?_, fun hnone => absurd (hz.symm.trans hnone) nofun⟩
    obtain rfl : z = w := Option.some.inj (hz.symm.trans hw)
    refine ⟨fun _ _ _ => ⟨h.store.trans (congrArg (fun m => Mem.wrN m (g.xStore z r.first) r.data) hy.store), fun u hu hid => ?_⟩,
      fun hidle => absurd hidle (by simp [hread, hlive, hopen])⟩
    rw [Region.eq_of_mem_setXfer_started hz (h.xfers u hu) hid ⟨rfl, rfl, rfl, rfl⟩]
    exact ⟨rfl, rfl⟩

/-- An abandoned request is removed with IFTMO set; its transfer is void and asks for and awaits nothing more. -/
theorem Region.requestAbandon_abandons (e : REnv) {g : Region} {n i k first : Nat} {r : Req}
    (hr : g.openReq n i k first = some r) :
    (g.requestAbandon e n i k first).bit HBM_STAT_IFTMO = true ∧ (g.requestAbandon e n i k first).store = g.store ∧
    (g.requestAbandon e n i k first).stack = g.stack ∧ (g.requestAbandon e n i k first).reqs = g.reqs.erase r ∧
    (∀ z, g.startedXfer n i k r.frame = some z →
      ∀ y ∈ (g.requestAbandon e n i k first).xfers, y.isX n i k r.frame = true →
        y.void = true ∧ y.asked = g.sdLen n i ∧ y.landed = g.sdLen n i) := by
  rw [Region.requestAbandon_eq e hr]
  obtain ⟨v, hv⟩ := Region.abandonReq_reports e g n i r
  have hset : Reports [0x10100] g (g.set1 HBM_STAT_IFTMO) := .wr rfl (by decide) (.refl _ _)
  have hbit : (g.abandonReq e n i r).bit HBM_STAT_IFTMO = true :=
    (hv.bit rfl (by decide)).trans (Region.bit_wr_self g HBM_STAT_IFTMO 1 0 0 (by decide) (by decide))
  have hlen : (g.abandonReq e n i r).sdLen n i = g.sdLen n i :=
    (hv.sdLen (by decide) n i).trans (hset.sdLen (by decide) n i)
  have hfound : (g.abandonReq e n i r).startedXfer n i k r.frame = g.startedXfer n i k r.frame := congrArg (List.find? _) hv.xfers
  rcases Region.abandonXfer_cases e (g.abandonReq e n i r) n i k r.frame with ⟨hnone, h⟩ | ⟨z, hz, h⟩
  all_goals
    refine ⟨(h.bit rfl (by decide)).trans hbit, h.store.trans hv.store, h.stack.trans hv.stack, h.reqs.trans hv.reqs,
      fun w hw => ?_⟩
    rw [← hfound] at hw
  · exact absurd (hnone.symm.trans hw) nofun
  · obtain rfl : z = w := Option.some.inj (hz.symm.trans hw)
    intro u hu hid
    rw [Region.eq_of_mem_setXfer_started hz (h.xfers u hu) hid ⟨rfl, rfl, rfl, rfl⟩]
    exact ⟨rfl, hlen, hlen⟩

/-- Settles O31: an accepted request is `Region.readAccepted` or `Region.writeAccepted`, a landed one goes by
`Region.lineLanded_cases`, an abandoned one by `Region.abandonReq_reports` and `Region.abandonXfer_cases`. -/
theorem stackRequests : Obligations.StackRequests := by
  rintro n cyc eng desc s G e x hn rfl hlost rfl
  refine ⟨?accepts, ?leaves⟩
  case accepts =>
    rintro f rfl
    obtain ⟨t, hexec, ht⟩ := exec_region_step (c := .requestAccepted n cyc eng desc) rfl hn hlost
    generalize s.region n = g at *
    have hcyc : (s.renv n cyc).cyc = cyc := rfl
    generalize s.renv n cyc = e at *
    refine ⟨fun hnone => ⟨t, hexec, by rw [ht, Region.requestAccepted_none hnone]⟩, ?_⟩
    rintro m h w hx hstop rfl rfl rfl
    obtain ⟨hmem, heng, hdesc⟩ := Region.nextAsking_id hx
    have hlines : g.nextLines x = min (min 8 (g.sdLen eng desc - x.asked)) (8 - (x.hline + x.asked) % 8) := by
      rw [Region.nextLines, heng, hdesc]
    rw [← hlines]
    refine ⟨fun hfull => ⟨t, hexec, ?_⟩, fun hread hroom => ?read, fun hwrite hroom => ?write⟩
    · rw [ht, Region.requestAccepted_full hx hlost hstop hfull, hcyc]
    case read =>
      have h := Region.requestAccepted_read (e := e) hx hlost hstop hread (hread ▸ hroom)
      refine ⟨t, g.readReq x, hexec, ?_⟩
      rw [ht]
      refine ⟨h.reqs, heng, hdesc, rfl, rfl, rfl, rfl, rfl, rfl, h.store, h.stack, ?_⟩
      have hxfers : (g.requestAccepted e eng desc).xfers = (g.readAccepted x).xfers := h.xfers
      show _ ∈ (g.requestAccepted e eng desc).xfers
      rw [hxfers]
      exact Region.mem_setXfer hmem (Xfer.isX_self x)
    case write =>
      obtain ⟨y, hy, h⟩ := Region.requestAccepted_write (e := e) hx hlost hstop hwrite (hwrite ▸ hroom)
      have hsd : ∀ o ∈ ([] : List Nat), o < 0x20000 := nofun
      have hylines : y.nextLines x = g.nextLines x := by
        unfold Region.nextLines
        rw [hy.sdLen hsd]
      have hreq : y.writeReq x = g.writeReq x := by
        unfold Region.writeReq
        rw [hylines]
      refine ⟨t, g.writeReq x, hexec, ?_⟩
      rw [ht]
      refine ⟨?_, heng, hdesc, rfl, rfl, rfl, rfl, rfl, ?_, ?_, fun hvoid l hlo hhi => ?_⟩
      · exact h.reqs.trans (by rw [Region.writeAccepted_reqs, hy.reqs, hreq])
      · exact h.store.trans (by rw [Region.writeAccepted_store, hy.store])
      · exact h.stack.trans (by rw [Region.writeAccepted_stack, hy.stack, hy.store, hy.xStore hsd, hylines])
      · show (g.requestAccepted e eng desc).stackEcc.get natZero l = 3
        rw [h.stackEcc]
        exact Region.writeAccepted_poison e y x hvoid hlo (by rwa [hylines])
  case leaves =>
    rintro k first f rfl
    refine ⟨fun r hr => ?lands, fun hnone => ?nothing, fun r hr => ?abandoned, fun hnone => ?none⟩
    case lands =>
      obtain ⟨t, hexec, ht⟩ := exec_region_step (c := .lineLanded n cyc eng desc k first) rfl hn hlost
      refine ⟨t, hexec, ?_⟩
      rw [ht]
      exact Region.lineLanded_lands _ hr
    case nothing =>
      obtain ⟨t, hexec, ht⟩ := exec_region_step (c := .lineLanded n cyc eng desc k first) rfl hn hlost
      exact ⟨t, hexec, by rw [ht, Region.lineLanded_none _ hnone]⟩
    case abandoned =>
      obtain ⟨t, hexec, ht⟩ := exec_region_step (c := .requestAbandon n cyc eng desc k first) rfl hn hlost
      refine ⟨t, hexec, ?_⟩
      rw [ht]
      exact Region.requestAbandon_abandons _ hr
    case none =>
      obtain ⟨t, hexec, ht⟩ := exec_region_step (c := .requestAbandon n cyc eng desc k first) rfl hn hlost
      exact ⟨t, hexec, by rw [ht, Region.requestAbandon_none _ hnone]⟩

/-! ## A transfer that starts (07 R196, R198, R199) -/

/-- A region whose engine shows the descriptor of the transfer that starts, with its wait counted. -/
def Region.lastStarted (e : REnv) (g : Region) (x : Xfer) : Region :=
  (g.wr STR_STAT_LAST x.desc x.eng).count e 0x045 (some x.parcel) ((e.cyc : Int) - x.since).toNat

theorem Region.lastStarted_reports (e : REnv) (g : Region) (x : Xfer) :
    Reports [0x10300 + x.eng * 4] g (g.lastStarted e x) :=
  .count (.wr rfl (List.mem_singleton_self _) (.refl _ _))

/-- The engine's own status is no descriptor of it. -/
theorem Region.lastStarted_sd (e : REnv) (g : Region) (x : Xfer) (i w : Nat) : (g.lastStarted e x).sd x.eng i w = g.sd x.eng i w :=
  (g.lastStarted_reports e x).word _ (by rw [List.mem_singleton]; omega)

/-- The first stack line of a contiguous transfer (07 R198). -/
def Region.xLine (g : Region) (x : Xfer) : Nat :=
  bitsOf (g.sd x.eng x.desc 1) 27 0 + x.k * bitsOf (g.sd x.eng x.desc 2) 27 0

theorem Reports.xLine {W : List Nat} {z g : Region} (h : Reports W z g) (hW : ∀ o ∈ W, o < 0x20000) (y : Xfer) :
    g.xLine y = z.xLine y := by
  unfold Region.xLine
  rw [h.sd hW, h.sd hW]

/-- The store byte at which the index of a transfer lies (07 R198). -/
def Region.indexAddr (g : Region) (x : Xfer) : Nat := 256 * bitsOf (g.sd x.eng x.desc 6) 17 0 + 4 * x.k

/-- The first stack line of an indexed transfer (07 R198). -/
def Region.indexLine (g : Region) (x : Xfer) : Nat :=
  bitsOf (g.sd x.eng x.desc 1) 27 0 + leNat (g.store.rdN (g.indexAddr x) 4)

/-- The words that the start of a transfer may change. -/
def startWords (x : Xfer) : List Nat := (0x10300 + x.eng * 4) :: 0x10100 :: storeStatWords

/-- None of them is a window's. -/
theorem startWords_windows (x : Xfer) : ∀ o ∈ startWords x, o < 0x10200 ∨ 0x10280 ≤ o := by
  intro o ho
  simp only [startWords, storeStatWords, List.mem_cons, List.not_mem_nil, or_false] at ho
  omega

section Start
variable (e : REnv) (g : Region) (x : Xfer) (gv : Bool)

/-- A region that has read the transfer's index. -/
def Region.indexRead : Region := ((g.lastStarted e x).rsEcc e (g.indexAddr x) (g.indexAddr x + 4)).1

theorem Region.indexRead_reports : Reports (startWords x) g (g.indexRead e x) := by
  refine .trans ((g.lastStarted_reports e x).mono ?_) ((Region.rsEcc_reports _ _ _ _).mono ?_)
  · exact List.cons_subset_cons _ (List.nil_subset _)
  · exact fun _ h => List.mem_cons_of_mem _ (List.mem_cons_of_mem _ h)

/-- What a read answers rests on the marks of the store alone. -/
theorem Region.rsEcc_snd_congr {g h : Region} (hecc : g.storeEcc = h.storeEcc) (lo hi : Nat) :
    (g.rsEcc e lo hi).2 = (h.rsEcc e lo hi).2 := by
  rw [Region.rsEcc_eq, Region.rsEcc_eq, Region.rsMet, Region.rsMet, hecc]

/-- A contiguous transfer starts at its line, void when it is a write of a void gate (07 R198, R199). -/
theorem Region.startX_contiguous (hop : g.sdOp x.eng x.desc ≠ 3) : g.startX e x gv =
    (g.lastStarted e x).setXfer { x with started := true, hline := g.xLine x, gvoid := gv && g.sdOp x.eng x.desc == 2 } := by
  unfold Region.startX Region.xLine
  simp only [if_neg hop]
  rw [← Region.lastStarted, Region.lastStarted_sd]

/-- The record of an indexed transfer whose lines lie in no window of its parcel. -/
def Region.windowRec : ErrRec :=
  { cls := 2, subtype := 0x30, level := 2, parcel := x.parcel, tag := bitsOf ((g.indexRead e x).sd x.eng x.desc 7) 15 0
    object := x.eng + 2 ^ 8 * x.desc, objkind := 4, address := e.region * 2 ^ 36 + 256 * g.indexLine x, teardown := true }

/-- An indexed transfer starts at the line that its index names, or ends void: with an index that cannot be read, or with lines outside
the windows of its parcel, which WINV shows (07 R196, R210). -/
theorem Region.startX_indexed (hop : g.sdOp x.eng x.desc = 3) : g.startX e x gv =
    if (g.rsEcc e (g.indexAddr x) (g.indexAddr x + 4)).2 = false ∧ g.inWindow x.parcel (g.indexLine x) (g.sdLen x.eng x.desc) = true then
      (g.indexRead e x).setXfer { x with started := true, hline := g.indexLine x }
    else
      Region.driveDone e x.eng x.desc x.frame 1 (Region.setXfer
        (if (g.rsEcc e (g.indexAddr x) (g.indexAddr x + 4)).2 then g.indexRead e x
          else ((g.indexRead e x).set1 HBM_STAT_WINV).raise e (g.windowRec e x))
        { x with started := true, hline := g.indexLine x, void := true, asked := g.sdLen x.eng x.desc
                 landed := g.sdLen x.eng x.desc }) := by
  have hread := g.indexRead_reports e x
  have hecc : ((g.lastStarted e x).rsEcc e (g.indexAddr x) (g.indexAddr x + 4)).2 =
      (g.rsEcc e (g.indexAddr x) (g.indexAddr x + 4)).2 :=
    Region.rsEcc_snd_congr e (g.lastStarted_reports e x).storeEcc _ _
  have hwindow := hread.inWindow (startWords_windows x) x.parcel (g.indexLine x) (g.sdLen x.eng x.desc)
  unfold Region.startX
  simp only [if_pos hop]
  rw [← Region.lastStarted, Region.lastStarted_sd, ← Region.indexAddr, hecc, ← Region.indexRead, hread.store, ← Region.indexLine, hwindow]
  cases (g.rsEcc e (g.indexAddr x) (g.indexAddr x + 4)).2
  · cases g.inWindow x.parcel (g.indexLine x) (g.sdLen x.eng x.desc) <;> rfl
  · rfl

/-- From `z` to `g` a transfer of a descriptor may have started: memories, requests, stakes, the number of transfers and the registers
at `W` aside stand. -/
structure Begins (W : List Nat) (n i fr : Nat) (z g : Region) : Prop where
  store : g.store = z.store
  stack : g.stack = z.stack
  reqs : g.reqs = z.reqs
  stakes : g.stakes = z.stakes
  started : (g.xcount n i fr).started = (z.xcount n i fr).started
  word : ∀ o, o ∉ W → g.regs.word .region o = z.regs.word .region o

namespace Begins
variable {W : List Nat} {n i fr : Nat} {z h : Region}

theorem of_reports (k : Reports W z h) : Begins W n i fr z h :=
  ⟨k.store, k.stack, k.reqs, k.stakes, by rw [Region.xcount, k.xcounts]; rfl, k.word⟩

theorem setXfer {y : Xfer} (k : Begins W n i fr z h) : Begins W n i fr z (h.setXfer y) :=
  ⟨k.store, k.stack, k.reqs, k.stakes, k.started, k.word⟩

theorem driveDone {e : REnv} {m : Nat} (k : Begins W n i fr z h) : Begins W n i fr z (Region.driveDone e n i fr m h) := by
  have hdone := Driven.driveDone (e := e) (m := m) (.refl n i fr h)
  exact ⟨hdone.store.trans k.store, hdone.stack.trans k.stack, hdone.reqs.trans k.reqs, hdone.stakes.trans k.stakes,
    hdone.started.trans k.started, fun o ho => by rw [hdone.regs, k.word o ho]⟩

theorem bit (k : Begins W n i fr z h) {f : Field} {a b : Nat} (hu : f.unit = .region) (ha : f.at a b ∉ W) :
    h.bit f a b = z.bit f a b := by
  show (bitsOf (h.regs.word f.unit _) _ _ != 0) = (bitsOf (z.regs.word f.unit _) _ _ != 0)
  rw [hu, k.word _ ha]

end Begins

theorem Region.startX_begins : Begins (startWords x) x.eng x.desc x.frame g (g.startX e x gv) := by
  have hread := g.indexRead_reports e x
  by_cases hop : g.sdOp x.eng x.desc = 3
  · rw [Region.startX_indexed e g x gv hop]
    split
    · exact .setXfer (.of_reports hread)
    · refine .driveDone (.setXfer (.of_reports ?_))
      split
      · exact hread
      · exact .raise (by simp [startWords, storeStatWords]) (.wr rfl (by simp [startWords, Field.at]) hread)
  · rw [Region.startX_contiguous e g x gv hop]
    exact .setXfer (.of_reports ((g.lastStarted_reports e x).mono (List.cons_subset_cons _ (List.nil_subset _))))

theorem Region.mem_startX_contiguous (hop : g.sdOp x.eng x.desc ≠ 3) (hmem : x ∈ g.xfers) :
    { x with started := true, hline := g.xLine x, gvoid := gv && g.sdOp x.eng x.desc == 2 } ∈ (g.startX e x gv).xfers := by
  rw [Region.startX_contiguous e g x gv hop]
  refine Region.mem_setXfer (x := x) ?_ (Xfer.isX_self x)
  rwa [(g.lastStarted_reports e x).xfers]

theorem Region.mem_startX_indexed (hop : g.sdOp x.eng x.desc = 3) (hecc : (g.rsEcc e (g.indexAddr x) (g.indexAddr x + 4)).2 = false)
    (hin : g.inWindow x.parcel (g.indexLine x) (g.sdLen x.eng x.desc) = true) (hmem : x ∈ g.xfers) :
    { x with started := true, hline := g.indexLine x } ∈ (g.startX e x gv).xfers := by
  rw [Region.startX_indexed e g x gv hop, if_pos ⟨hecc, hin⟩]
  refine Region.mem_setXfer (x := x) ?_ (Xfer.isX_self x)
  rwa [(g.indexRead_reports e x).xfers]

/-- Lines outside the windows of the parcel set WINV. -/
theorem Region.startX_outside (hop : g.sdOp x.eng x.desc = 3) (hecc : (g.rsEcc e (g.indexAddr x) (g.indexAddr x + 4)).2 = false)
    (hout : g.inWindow x.parcel (g.indexLine x) (g.sdLen x.eng x.desc) = false) :
    (g.startX e x gv).bit HBM_STAT_WINV = true := by
  rw [Region.startX_indexed e g x gv hop, if_neg (by simp [hout]), hecc, if_neg Bool.false_ne_true]
  have hset := Region.bit_wr_self (g.indexRead e x) HBM_STAT_WINV 1 0 0 (by decide) (by decide)
  have hraise : Reports [0x828] ((g.indexRead e x).set1 HBM_STAT_WINV) (((g.indexRead e x).set1 HBM_STAT_WINV).raise e (g.windowRec e x)) :=
    .raise (by decide) (.refl _ _)
  have hdone := Driven.driveDone (e := e) (m := 1) (.refl x.eng x.desc x.frame
    (Region.setXfer (((g.indexRead e x).set1 HBM_STAT_WINV).raise e (g.windowRec e x))
      { x with started := true, hline := g.indexLine x, void := true, asked := g.sdLen x.eng x.desc
               landed := g.sdLen x.eng x.desc }))
  exact (congrArg (fun r => Regs.bit r HBM_STAT_WINV) hdone.regs).trans ((hraise.bit rfl (by decide)).trans hset)

end Start

/-! ## Gates and drives that a start waits for (07 R199, 10 R298) -/

/-- The pending drives of an engine. -/
def Region.enginePending (g : Region) (n : Nat) : Nat :=
  g.pendingOf (fun d => match d with | .engine _ m _ => m == n | _ => false)

section Try
variable {e : REnv} {g : Region} {x : Xfer}

/-- A transfer waits while four drives of its engine are pending, and while its gate is short. -/
theorem Region.tryStart_waits (h : 4 ≤ g.enginePending x.eng ∨
    (bitsOf (g.sd x.eng x.desc 0) 7 7 = 1 ∧
      g.gate e (bitsOf (g.sd x.eng x.desc 4) 31 16) ((g.sd x.eng x.desc 5).toInt + x.k) = none)) : g.tryStart e x = g := by
  unfold Region.tryStart
  dsimp only
  split
  · rfl
  · next hroom =>
    rcases h with hfull | ⟨hgate, hshort⟩
    · exact absurd (by simp only [Bool.or_eq_true, decide_eq_true_eq]; exact .inr hfull) hroom
    · rw [if_neg (by omega), hshort]

/-- In a region that issues it starts when its engine has room and its gate allows, or it has none. -/
theorem Region.tryStart_starts {v : Bool} (hstop : g.stopped = false) (hroom : g.enginePending x.eng < 4)
    (hgate : bitsOf (g.sd x.eng x.desc 0) 7 7 = 0 ∧ v = false ∨ bitsOf (g.sd x.eng x.desc 0) 7 7 = 1 ∧
      g.gate e (bitsOf (g.sd x.eng x.desc 4) 31 16) ((g.sd x.eng x.desc 5).toInt + x.k) = some v) :
    g.tryStart e x = g.startX e x v := by
  unfold Region.tryStart
  dsimp only
  rw [if_neg (by simp only [hstop, Bool.false_or, decide_eq_true_eq]; exact Nat.not_le.mpr hroom)]
  rcases hgate with ⟨hnone, rfl⟩ | ⟨hsome, hopen⟩
  · rw [if_pos hnone]
  · rw [if_neg (by omega), hopen]

theorem Region.tryStart_begins (e : REnv) (g : Region) (x : Xfer) :
    Begins (startWords x) x.eng x.desc x.frame g (g.tryStart e x) := by
  have hrefl : Begins (startWords x) x.eng x.desc x.frame g g := .of_reports (.refl _ _)
  unfold Region.tryStart
  dsimp only
  split
  · exact hrefl
  · split
    · exact Region.startX_begins _ _ _ _
    · split
      · exact hrefl
      · exact Region.startX_begins _ _ _ _

end Try

/-! ## TRANSFER_START (07 R198, R199, 08 R232) -/

/-- A plan that names a slot is that of a region that issues. -/
theorem Region.stopped_of_planAt {g : Region} {cyc : Nat} {y : Nat × Nat} (h : (g.planAt cyc).2 = some y) : g.stopped = false := by
  unfold Region.planAt at h
  split at h
  · exact absurd h nofun
  · next hcond =>
    simp only [Bool.or_eq_true, not_or, Bool.not_eq_true] at hcond
    exact hcond.1.2

/-- The frame of a transfer that the slot of a descriptor starts. -/
def Region.slotFrame (e : REnv) (g : Region) (n i : Nat) : Nat := e.frame + bitsOf (g.sd n i 0) 12 12

/-- The next transfer of a descriptor, numbered in its frame (07 R198). -/
def Region.nextXfer (e : REnv) (g : Region) (n i : Nat) : Xfer :=
  { eng := n, desc := i, k := (g.xcount n i (g.slotFrame e n i)).started
    frame := g.slotFrame e n i, parcel := bitsOf (g.sd n i 0) 6 3, hline := 0, started := false, since := e.cyc }

/-- The region with that transfer counted and appended. -/
def Region.appended (e : REnv) (g : Region) (n i : Nat) : Region :=
  { g.setXcount { g.xcount n i (g.slotFrame e n i) with
      started := (g.xcount n i (g.slotFrame e n i)).started + 1 } with xfers := g.xfers ++ [g.nextXfer e n i] }

section TransferStart
variable (e : REnv) (g : Region) (n i : Nat)

theorem Region.appended_started : ((g.appended e n i).xcount n i (g.slotFrame e n i)).started =
    (g.xcount n i (g.slotFrame e n i)).started + 1 := by
  obtain ⟨hn, hi, hfr⟩ := g.xcount_id n i (g.slotFrame e n i)
  exact congrArg XCount.started (g.xcount_setXcount_self (c := { g.xcount n i (g.slotFrame e n i) with
      started := (g.xcount n i (g.slotFrame e n i)).started + 1 }) hn hi hfr)

theorem Region.transferStart_none (h : bitsOf (g.sd n i 0) 2 0 = 0 ∨ 4 ≤ bitsOf (g.sd n i 0) 2 0 ∨
    g.drain.contains (bitsOf (g.sd n i 0) 6 3) = true) : g.transferStart e n i = g := by
  unfold Region.transferStart
  exact if_pos (by simp only [Bool.or_eq_true, beq_iff_eq, decide_eq_true_eq, or_assoc]; exact .inr (.inr h))

theorem Region.nextXfer_mem : g.nextXfer e n i ∈ (g.appended e n i).xfers :=
  List.mem_append_right _ (List.mem_singleton_self _)

section Planned
variable {e g n i} (hlost : g.lost = false) (hstop : g.stopped = false) (hop : bitsOf (g.sd n i 0) 2 0 ∈ [1, 2, 3])
  (hdrain : g.drain.contains (bitsOf (g.sd n i 0) 6 3) = false)
include hlost hstop hop hdrain

/-- The transfer is appended, tried, and the queues are shown. -/
theorem Region.transferStart_eq :
    g.transferStart e n i = ((g.appended e n i).tryStart e (g.nextXfer e n i)).showWait.showPend := by
  have hne : bitsOf (g.sd n i 0) 2 0 ≠ 0 ∧ bitsOf (g.sd n i 0) 2 0 < 4 := by
    simp only [List.mem_cons, List.not_mem_nil, or_false] at hop
    omega
  unfold Region.transferStart
  exact if_neg (by simp only [hlost, hstop, hdrain]; simpa using hne)

theorem Region.transferStart_reports :
    Reports shownWords ((g.appended e n i).tryStart e (g.nextXfer e n i)) (g.transferStart e n i) := by
  rw [Region.transferStart_eq hlost hstop hop hdrain]
  exact (Region.showWait_reports _).trans (Region.showPend_reports _)

theorem Region.transferStart_counts :
    ((g.transferStart e n i).xcount n i (g.slotFrame e n i)).started =
      (g.xcount n i (g.slotFrame e n i)).started + 1 ∧
    (g.transferStart e n i).reqs = g.reqs ∧ (g.transferStart e n i).store = g.store ∧ (g.transferStart e n i).stack = g.stack ∧
    (g.transferStart e n i).stakes = g.stakes := by
  have h := Region.tryStart_begins e (g.appended e n i) (g.nextXfer e n i)
  have hshown := Region.transferStart_reports (e := e) hlost hstop hop hdrain
  exact ⟨(Begins.of_reports hshown).started.trans (h.started.trans (g.appended_started e n i)), hshown.reqs.trans h.reqs,
    hshown.store.trans h.store, hshown.stack.trans h.stack, hshown.stakes.trans h.stakes⟩

theorem Region.transferStart_waits (h : 4 ≤ g.enginePending n ∨
    (bitsOf (g.sd n i 0) 7 7 = 1 ∧ g.gate e (bitsOf (g.sd n i 4) 31 16) ((g.sd n i 5).toInt + (g.nextXfer e n i).k) = none)) :
    (g.transferStart e n i).xfers = g.xfers ++ [g.nextXfer e n i] := by
  have hwaits : (g.appended e n i).tryStart e (g.nextXfer e n i) = g.appended e n i := Region.tryStart_waits h
  have hshown := Region.transferStart_reports (e := e) hlost hstop hop hdrain
  rw [hwaits] at hshown
  exact hshown.xfers

variable {v : Bool} (hroom : g.enginePending n < 4)
  (hgate : bitsOf (g.sd n i 0) 7 7 = 0 ∧ v = false ∨ bitsOf (g.sd n i 0) 7 7 = 1 ∧
    g.gate e (bitsOf (g.sd n i 4) 31 16) ((g.sd n i 5).toInt + (g.nextXfer e n i).k) = some v)
include hroom hgate

theorem Region.transferStart_starts :
    Reports shownWords ((g.appended e n i).startX e (g.nextXfer e n i) v) (g.transferStart e n i) := by
  have hstarts : (g.appended e n i).tryStart e (g.nextXfer e n i) = (g.appended e n i).startX e (g.nextXfer e n i) v :=
    Region.tryStart_starts hstop hroom hgate
  exact hstarts ▸ Region.transferStart_reports hlost hstop hop hdrain

theorem Region.transferStart_contiguous (hop3 : bitsOf (g.sd n i 0) 2 0 ≠ 3) :
    { g.nextXfer e n i with started := true, hline := g.xLine (g.nextXfer e n i), gvoid := v && bitsOf (g.sd n i 0) 2 0 == 2 } ∈
      (g.transferStart e n i).xfers := by
  have hshown := Region.transferStart_starts hlost hstop hop hdrain hroom hgate
  have hmem := Region.mem_startX_contiguous e (g.appended e n i) (g.nextXfer e n i) v hop3 (g.nextXfer_mem e n i)
  rw [hshown.xfers]
  exact hmem

/-- With an index that can be read an indexed transfer starts where it names, and WINV shows lines outside the windows. -/
theorem Region.transferStart_indexed (hop3 : bitsOf (g.sd n i 0) 2 0 = 3)
    (hecc : (g.rsEcc e (g.indexAddr (g.nextXfer e n i)) (g.indexAddr (g.nextXfer e n i) + 4)).2 = false) :
    (g.inWindow (bitsOf (g.sd n i 0) 6 3) (g.indexLine (g.nextXfer e n i)) (g.sdLen n i) = true →
      { g.nextXfer e n i with started := true, hline := g.indexLine (g.nextXfer e n i) } ∈ (g.transferStart e n i).xfers) ∧
    (g.inWindow (bitsOf (g.sd n i 0) 6 3) (g.indexLine (g.nextXfer e n i)) (g.sdLen n i) = false →
      (g.transferStart e n i).bit HBM_STAT_WINV = true) := by
  have hshown := Region.transferStart_starts hlost hstop hop hdrain hroom hgate
  have hread := (Region.rsEcc_snd_congr e (g := g.appended e n i) (h := g) rfl _ _).trans hecc
  refine ⟨fun hin => ?_, fun hout => ?_⟩
  · rw [hshown.xfers]
    exact Region.mem_startX_indexed e (g.appended e n i) (g.nextXfer e n i) v hop3 hread hin (g.nextXfer_mem e n i)
  · rw [hshown.bit rfl (by decide)]
    exact Region.startX_outside e (g.appended e n i) (g.nextXfer e n i) v hop3 hread hout

end Planned
end TransferStart

/-! ## SIGHT_TIMEOUT at an engine's gate (10 R294) -/

/-- The oldest waiting transfer of a descriptor. -/
def Region.nextWaiting (g : Region) (n i : Nat) : Option Xfer := g.xfers.find? (fun x => x.eng == n && x.desc == i && !x.started && !x.dead)

section Timeout
variable (e : REnv) {g : Region} {n i : Nat} {x : Xfer}

theorem Region.stale_reports (g : Region) (id p w : Nat) : Reports [0x600, 0x828] g (g.stale e id p w) :=
  .raise (by decide) (.count (.wr rfl (by decide) (.refl _ _)))

theorem Region.stale_bit (g : Region) (id p w : Nat) : (g.stale e id p w).bit STK_RSTAT_STALE = true := by
  have h : Reports [0x828] (g.set1 STK_RSTAT_STALE) (g.stale e id p w) := .raise (by decide) (.count (.refl _ _))
  exact (h.bit rfl (by decide)).trans (Region.bit_wr_self _ _ _ _ _ (by decide) (by decide))

theorem Region.xferTimeout_none (h : g.nextWaiting n i = none) : g.xferTimeout e n i false = g := by
  unfold Region.xferTimeout
  rw [← Region.nextWaiting, h]

variable (hx : g.nextWaiting n i = some x)
include hx

/-- With no gate, or with time left, nothing happens. -/
theorem Region.xferTimeout_waits (h : bitsOf (g.sd n i 0) 7 7 = 0 ∨ g.timeUp e (bitsOf (g.sd n i 4) 31 16) x.since false = false) :
    g.xferTimeout e n i false = g := by
  unfold Region.xferTimeout
  rw [← Region.nextWaiting, hx]
  exact if_neg (by rcases h with h | h <;> simp [h])

/-- A gate whose time is over: its oldest waiting transfer starts as if by a void drive. -/
theorem Region.xferTimeout_starts (hgate : bitsOf (g.sd n i 0) 7 7 = 1)
    (htime : g.timeUp e (bitsOf (g.sd n i 4) 31 16) x.since false = true) :
    g.xferTimeout e n i false =
      ((g.stale e (bitsOf (g.sd n i 4) 31 16) x.parcel (n + 2 ^ 8 * i)).startX e x true).showWait := by
  unfold Region.xferTimeout
  rw [← Region.nextWaiting, hx]
  exact if_pos ⟨by omega, htime⟩

/-- The transfer found waits at the descriptor. -/
theorem Region.nextWaiting_id : x ∈ g.xfers ∧ x.eng = n ∧ x.desc = i := by
  have h := List.find?_some hx
  simp only [Bool.and_eq_true, beq_iff_eq] at h
  exact ⟨List.mem_of_find?_eq_some hx, h.1.1.1, h.1.1.2⟩

theorem Region.xferTimeout_begins (hgate : bitsOf (g.sd n i 0) 7 7 = 1)
    (htime : g.timeUp e (bitsOf (g.sd n i 4) 31 16) x.since false = true) :
    (g.xferTimeout e n i false).bit STK_RSTAT_STALE = true ∧ (g.xferTimeout e n i false).store = g.store ∧
    (g.xferTimeout e n i false).stack = g.stack ∧ (g.xferTimeout e n i false).reqs = g.reqs ∧
    (g.sdOp n i ≠ 3 → { x with started := true, hline := g.xLine x, gvoid := g.sdOp n i == 2 } ∈ (g.xferTimeout e n i false).xfers) := by
  obtain ⟨hmem, rfl, rfl⟩ := Region.nextWaiting_id hx
  have hstale := g.stale_reports e (bitsOf (g.sd x.eng x.desc 4) 31 16) x.parcel (x.eng + 2 ^ 8 * x.desc)
  have hbit := g.stale_bit e (bitsOf (g.sd x.eng x.desc 4) 31 16) x.parcel (x.eng + 2 ^ 8 * x.desc)
  have hsd : ∀ o ∈ [0x600, 0x828], o < 0x20000 := by decide
  rw [Region.xferTimeout_starts e hx hgate htime]
  generalize g.stale e (bitsOf (g.sd x.eng x.desc 4) 31 16) x.parcel (x.eng + 2 ^ 8 * x.desc) = z at *
  have hbegins := Region.startX_begins e z x true
  have hshown := Region.showWait_reports (z.startX e x true)
  have hword : STK_RSTAT_STALE.at 0 ∉ startWords x := by
    have hoff : STK_RSTAT_STALE.at 0 = 0x600 := rfl
    rw [hoff]
    simp only [startWords, storeStatWords, List.mem_cons, List.not_mem_nil, or_false]
    omega
  refine ⟨(hshown.bit rfl (by decide)).trans ((hbegins.bit rfl hword).trans hbit), hshown.store.trans (hbegins.store.trans hstale.store),
    hshown.stack.trans (hbegins.stack.trans hstale.stack), hshown.reqs.trans (hbegins.reqs.trans hstale.reqs), fun hop => ?_⟩
  have hx' := Region.mem_startX_contiguous e z x true (by rwa [hstale.sdOp hsd]) (by rwa [hstale.xfers])
  rw [hshown.xfers]
  rwa [hstale.sdOp hsd, hstale.xLine hsd, Bool.true_and] at hx'

end Timeout

/-- Settles O30: a planned transfer is `Region.appended`, then waits or starts (`Region.tryStart_waits`, `Region.tryStart_starts`); a gate
that times out starts its oldest waiting transfer (`Region.xferTimeout_starts`). -/
theorem transferStart : Obligations.TransferStart := by
  rintro n cyc eng desc s G e p op fr len c x hn rfl hlost rfl rfl rfl rfl rfl rfl hx
  obtain ⟨t, hexec, ht⟩ := exec_region_step (c := .transferStart n cyc eng desc) rfl hn hlost
  obtain ⟨u, hexec', hu⟩ := exec_region_step (c := .sightTimeout (.engine n cyc eng desc)) rfl hn hlost
  have hx : x = (s.region n).nextXfer (s.renv n cyc) eng desc := hx
  generalize s.region n = g at *
  generalize s.renv n cyc = e at *
  refine ⟨fun hnothing => ⟨t, hexec, ?nothing⟩, fun hplan hop hdrain => ⟨t, hexec, ?starts⟩,
    fun y hy => ⟨fun ⟨hgate, htime⟩ => ⟨u, hexec', ?timeout⟩, fun hwait => ⟨u, hexec', ?waits⟩⟩, fun hnone => ⟨u, hexec', ?none⟩⟩
  case nothing =>
    rw [ht]
    split
    · next hplan => rw [Region.transferStart_none e g eng desc (hnothing.resolve_left (not_not.mpr hplan))]
    · rfl
  case starts =>
    have hstop := Region.stopped_of_planAt hplan
    rw [ht, if_pos hplan]
    subst hx
    obtain ⟨hstarted, hreqs, hstore, hstack, hstakes⟩ := Region.transferStart_counts (e := e) hlost hstop hop hdrain
    refine ⟨hstarted, hreqs, hstore, hstack, hstakes, fun hwaits => Region.transferStart_waits hlost hstop hop hdrain hwaits,
      fun v hroom hgate => ⟨fun hop3 => Region.transferStart_contiguous hlost hstop hop hdrain hroom hgate hop3, ?_⟩⟩
    rintro a h hop3 rfl hecc rfl
    exact Region.transferStart_indexed hlost hstop hop hdrain hroom hgate hop3 hecc
  case timeout =>
    obtain ⟨-, rfl, rfl⟩ := Region.nextWaiting_id hy
    rw [hu]
    exact Region.xferTimeout_begins e hy hgate htime
  case waits => rw [hu, Region.xferTimeout_waits e hy hwait]
  case none => rw [hu, Region.xferTimeout_none e hnone]

end Sys2Proof.Machine

/-!
PROOFS. The fabric's route plans (08_fabric_route_plans.md): store streams and words that arrive. Both statements fail, each where an index
that they leave free names no unit of the device: a store stream past the 64 of a region (R234), and a circuit whose far end lies past the
24 regions (R247, Table 8-15).
-/
namespace Sys2Proof.Machine

/-! ## A store stream that no region has -/

/-- Region 0, whose words where a stream 192 would have its registers read as those of a write stream of one line of format F8E4, with WID.
Its STRM_HDR would stand at 0x1400 + 4 × 192, which is STRM_FAULT (Tables 9-9 and 9-9a), and its descriptor at 0x1C00 (Table 8-8). -/
def strayStream : State :=
  { State.reset with regions := [(0, { regs := [(0x1700, 0x10000002), (0x1C00, 0x400000), (0x1C04, 1)] })] }

/-- A mark word of leg 1 and format G4, with payload behind it. -/
def strayMark : FWord := FWord.make 0 0 false (2 ^ 64)

/-- The leg fault of a stream 192 is noted over the FMT that its payload count is read with (`Region.strmFault`, `Region.ssWant`): the tile
that opens expects one word. -/
theorem exec_storeInTile_strayStream : ∃ t, exec (.storeInTile 0 0 192 0 (some strayMark)) strayStream = .next t ∧
    ((t.region 0).strm 192).part.map OpenPart.want = some 1 :=
  ⟨_, rfl, by decide +kernel⟩

/-- Refutes O32: the clause on STORE_IN_TILE leaves the stream free. At a stream 192, which no region has (R234), the leg fault of the mark
is noted in the very word that the payload count is read from, so the tile expects one word and not the two that the statement reads
before the fault. -/
theorem not_storeStreams : ¬ Obligations.StoreStreams := by
  unfold Obligations.StoreStreams
  intro h
  obtain ⟨-, -, htile, -⟩ := h 0 0 192 0 1 0 strayStream (strayStream.region 0) (strayStream.renv 0 0) true _ _ _ (by decide) rfl
    (by decide +kernel) rfl (by decide +kernel) (by decide +kernel) (by decide +kernel) rfl rfl rfl
  obtain ⟨t, hexec, -, -, -, -, hopen⟩ := (htile (some strayMark) strayMark (Hdr.ofBits strayMark.data) rfl rfl).2 (by decide +kernel) rfl
    (by decide +kernel) (by decide)
  obtain ⟨p, hpart, -, hwant, -⟩ := hopen (by decide +kernel)
  obtain ⟨u, hexec', hone⟩ := exec_storeInTile_strayStream
  obtain rfl : t = u := by injection hexec.symm.trans hexec'
  have htwo : (strayStream.region 0).ssWant 192 1 (Hdr.ofBits strayMark.data).fmt = 2 := by decide +kernel
  rw [hpart, Option.map_some, hwant, htwo] at hone
  exact absurd hone (by decide)

/-! ## A circuit whose far end names no region -/

/-- Octet 0 joins lane port 0 of region 0 to field 6 of die 3, which LANE_OCT can hold and no die has; the assignment is in force, its
circuits locked (08 R247), and the edge entry of cycle 8 sends the word of row 0 into that lane port. -/
def strayCircuit : State :=
  (({ State.reset with
      regions := [(0, { regs := Regs.wr [] RGN_BEAT_GAP 0, edge := [(8, 2 * 2 ^ 64)] })]
      plat := { active := some {} } } : State).wr LANE_OCT_B_DIE 3 |>.wr LANE_OCT_B_FLD 6).installLanes

/-- A word of parcel 0 with good parity. -/
def strayWord : FWord := FWord.make 0 0 false 0

/-- A lane port that a word comes to is not empty. -/
theorem laneAdd_ne_nil (l : List (Nat × FWord)) (q : Nat) (w : FWord) : laneAdd l q w ≠ [] := by
  unfold laneAdd
  split
  · exact List.append_ne_nil_of_right_ne_nil _ (List.cons_ne_nil _ _)
  · next hfull =>
    rintro rfl
    exact hfull (by simp)

/-- The edge sends row 0 to lane port 0, which the locked circuit of octet 0 joins to a region 24. -/
theorem strayCircuit_joins : (strayCircuit.env 0 8).easeCycle = false ∧ (strayCircuit.region 0).selector 8 0 true = 2 ∧
    strayWord.parcel = (strayCircuit.block 0).rd RT_CTL_PARCEL ∧ strayCircuit.octetOf 0 0 = some 0 ∧
    strayCircuit.lane LANE_OCT_KIND 0 ≠ 2 ∧ strayCircuit.bit LANE_STAT_LOCK 0 = true ∧ strayCircuit.farEnd 0 0 0 = (24, 0) := by
  decide +kernel

/-- The word goes nowhere: a region past the 24 is not put back (`State.setRegion`). -/
theorem exec_wordArrival_strayCircuit : ∃ t, exec (.wordArrival (.edge 0 8 0) (some strayWord)) strayCircuit = .next t ∧
    (t.region 24).lanes = [] :=
  ⟨_, rfl, by decide +kernel⟩

/-- Refutes O35: the clause on a locked die-to-die circuit takes the far end that LANE_OCT names for a region. FLD has three bits for the
six fields of a die (Table 8-15); at field 6 of die 3 the far end is a region 24, and the word is not in any lane port. -/
theorem not_fabricWords : ¬ Obligations.FabricWords := by
  unfold Obligations.FabricWords
  intro h
  obtain ⟨-, -, -, -, hedge, -⟩ := h
  obtain ⟨hease, hsel, hparcel, hoct, hkind, hlock, hfar⟩ := strayCircuit_joins
  obtain ⟨t, hexec, -, -, -, -, hgood⟩ := hedge 0 8 0 0 3 2 (some strayWord) strayWord strayCircuit false (by decide) (by decide)
    (by decide) rfl hease.symm hsel.symm
  obtain ⟨-, -, hchecked⟩ := hgood rfl (by decide +kernel)
  obtain ⟨-, -, hpassed⟩ := hchecked (.inl rfl) rfl
  obtain ⟨-, -, hlane⟩ := hpassed hparcel (.inl rfl)
  obtain ⟨-, hoctet⟩ := hlane 0 rfl (by decide)
  obtain ⟨-, -, hcircuit⟩ := hoctet 0 hoct
  have hthere := hcircuit hkind hlock 24 (by rw [hfar])
  obtain ⟨u, hexec', hnowhere⟩ := exec_wordArrival_strayCircuit
  obtain rfl : t = u := by injection hexec.symm.trans hexec'
  rw [hthere] at hnowhere
  dsimp only at hnowhere
  exact laneAdd_ne_nil _ _ _ hnowhere

end Sys2Proof.Machine

/-!
PROOFS. Drives (10_stakes.md): what a drive does at its stake (R283, R292, R293), and the oldest drive of a region with the transfers and
the drive words that it lets go on (R283, R286, R298).
-/
namespace Sys2Proof.Machine

/-! ## A drive at its stake (R283, R292, R293) -/

/-- The stake with the void bit of a void drive's frame set (R286). -/
def Stake.marked (k : Stake) (d : Drive) : Stake := if d.void then k.setVoid d.tag else k

theorem Stake.marked_void (k : Stake) (d : Drive) : (k.marked d).void = if d.void then (k.setVoid d.tag).void else k.void := by
  unfold Stake.marked
  split <;> rfl

section Outcome
variable {k : Stake} {d : Drive} {gen : Nat}

theorem Stake.drive_stale {g : Nat} (hgen : d.gen = some g) (hold : g ≠ gen) (hp : d.parcel ≠ 0) : k.drive d gen = .stale := by
  simp only [Stake.drive, hgen]
  exact if_pos ⟨hold, hp⟩

variable (hcur : d.gen = none ∨ d.gen = some gen ∨ d.parcel = 0)
include hcur

/-- A drive of the current generation, or of parcel 0, is judged by its stake alone. -/
theorem Stake.drive_current : k.drive d gen = Stake.drive.go k d := by
  unfold Stake.drive
  split
  · next g hgen =>
    refine if_neg fun hstale => ?_
    rcases hcur with hnone | hsame | hzero
    · exact absurd (hgen.symm.trans hnone) nofun
    · exact hstale.1 (Option.some.inj (hgen.symm.trans hsame))
    · exact hstale.2 hzero
  · rfl

theorem Stake.drive_trespass (h : d.parcel ≠ k.parcel ∧ d.parcel ≠ 0 ∨ k.en = false) : k.drive d gen = .trespass := by
  rw [Stake.drive_current hcur, Stake.drive.go, if_pos (h.imp_right fun hoff => by simp [hoff])]

variable (hown : d.parcel = k.parcel ∨ d.parcel = 0) (hen : k.en = true)
include hown hen

/-- A drive of the stake's parcel, or of parcel 0, at an enabled stake meets its poison and its count. -/
theorem Stake.drive_own : k.drive d gen =
    if k.poison then .poisoned
    else if 0x7FFFFFFF < k.cnt + d.inc then .overflow { k.marked d with cnt := 0x7FFFFFFF, ovf := true }
    else .applied { k.marked d with cnt := k.cnt + d.inc } := by
  have hpass : ¬((d.parcel ≠ k.parcel ∧ d.parcel ≠ 0) ∨ !k.en) := by
    rintro (⟨hother, hne⟩ | hoff)
    · exact hown.elim hother hne
    · simp [hen] at hoff
  rw [Stake.drive_current hcur, Stake.drive.go, if_neg hpass]
  rfl

theorem Stake.drive_poisoned (hpoison : k.poison = true) : k.drive d gen = .poisoned := by
  rw [Stake.drive_own hcur hown hen, if_pos hpoison]

theorem Stake.drive_overflow (hpoison : k.poison = false) (hbig : 0x7FFFFFFF < k.cnt + d.inc) :
    k.drive d gen = .overflow { k.marked d with cnt := 0x7FFFFFFF, ovf := true } := by
  rw [Stake.drive_own hcur hown hen, if_neg (by simp [hpoison]), if_pos hbig]

theorem Stake.drive_applied (hpoison : k.poison = false) (hfits : k.cnt + d.inc ≤ 0x7FFFFFFF) :
    k.drive d gen = .applied { k.marked d with cnt := k.cnt + d.inc } := by
  rw [Stake.drive_own hcur hown hen, if_neg (by simp [hpoison]), if_neg (Int.not_lt.mpr hfits)]

end Outcome

/-! ## Drives queued at a region (R298) -/

/-- The bits of STK_RSTAT that a drive at its stake sets. -/
def driveBits : List Field := [STK_RSTAT_TRESP, STK_RSTAT_OVF]

/-- From `z` to `g` drives are queued behind those that wait: the stakes and the bits of `driveBits` stand. -/
structure DrivesQueued (z g : Region) : Prop where
  stakes : g.stakes = z.stakes
  queue : z.driveq <+: g.driveq
  status : ∀ f ∈ driveBits, g.bit f = z.bit f

namespace DrivesQueued

theorem refl (g : Region) : DrivesQueued g g := ⟨rfl, List.prefix_rfl, fun _ _ => rfl⟩

theorem trans {a b c : Region} (h : DrivesQueued a b) (k : DrivesQueued b c) : DrivesQueued a c :=
  ⟨k.stakes.trans h.stakes, h.queue.trans k.queue, fun f hf => (k.status f hf).trans (h.status f hf)⟩

variable {z g : Region}

theorem stake (h : DrivesQueued z g) (k : Nat) : g.stake k = z.stake k := congrArg (SMap.get stakeZero · k) h.stakes

/-- The bits of `driveBits` stand in the word STK_RSTAT. -/
theorem status_of_word (h : g.regs.word .region 0x600 = z.regs.word .region 0x600) : ∀ f ∈ driveBits, g.bit f = z.bit f := by
  intro f hf
  have hword : f.unit = .region ∧ f.at 0 0 = 0x600 := by
    revert f
    decide
  show (bitsOf (g.regs.word f.unit (f.at 0 0)) _ _ != 0) = (bitsOf (z.regs.word f.unit (f.at 0 0)) _ _ != 0)
  rw [hword.1, hword.2, h]

/-- What a region reports outside STK_RSTAT. -/
theorem reports {W : List Nat} {y : Region} (k : Reports W g y) (hW : 0x600 ∉ W) (h : DrivesQueued z g) : DrivesQueued z y := by
  have hqueue : y.driveq = g.driveq := (congrArg Region.driveq k.rest :)
  exact h.trans ⟨k.stakes, hqueue ▸ List.prefix_rfl, status_of_word (k.word _ hW)⟩

/-- A fold of steps that queue drives. -/
theorem foldl {α : Type} {f : Region → α → Region} {l : List α} (hf : ∀ y a, DrivesQueued z y → DrivesQueued z (f y a))
    (h : DrivesQueued z g) : DrivesQueued z (l.foldl f g) := by
  induction l generalizing g with
  | nil => exact h
  | cons a l ih => exact ih (hf g a h)

theorem append {l : List Drive} (h : DrivesQueued z g) : DrivesQueued z { g with driveq := g.driveq ++ l } :=
  ⟨h.stakes, h.queue.trans (List.prefix_append _ _), h.status⟩

theorem setXfer {y : Xfer} (h : DrivesQueued z g) : DrivesQueued z (g.setXfer y) := ⟨h.stakes, h.queue, h.status⟩

theorem setStrm {i : Nat} {y : Strm} (h : DrivesQueued z g) : DrivesQueued z (g.setStrm i y) := ⟨h.stakes, h.queue, h.status⟩

theorem drive {e : REnv} {id inc p : Nat} {void : Bool} {u : Driver} (h : DrivesQueued z g) :
    DrivesQueued z (g.drive e id inc void p u) := by
  unfold Region.drive
  split
  · exact h
  · exact h.append

theorem noteVoid {p : Nat} {void : Bool} (h : DrivesQueued z g) : DrivesQueued z (g.noteVoid p void) := by
  unfold Region.noteVoid
  split
  · exact ⟨h.stakes, h.queue, h.status⟩
  · exact h

theorem driveDone {e : REnv} {n i fr m : Nat} (h : DrivesQueued z g) : DrivesQueued z (Region.driveDone e n i fr m g) := by
  induction m generalizing g with
  | zero => exact h
  | succ m ih =>
    unfold Region.driveDone
    dsimp only
    split
    · exact h
    · split
      · exact ih (drive (noteVoid ⟨h.stakes, h.queue, h.status⟩))
      · exact h

/-- A transfer that starts may drive DONE at once (07 R196, R210). -/
theorem startX {e : REnv} {x : Xfer} {gv : Bool} (h : DrivesQueued z g) : DrivesQueued z (g.startX e x gv) := by
  have hwords : 0x600 ∉ startWords x := by
    simp only [startWords, storeStatWords, List.mem_cons, List.not_mem_nil, or_false]
    omega
  have hread := h.reports (g.indexRead_reports e x) hwords
  by_cases hop : g.sdOp x.eng x.desc = 3
  · rw [Region.startX_indexed e g x gv hop]
    split
    · exact setXfer hread
    · refine driveDone (setXfer ?_)
      split
      · exact hread
      · exact hread.reports (W := [0x828, 0x10100]) (.raise (by decide) (.wr rfl (by decide) (.refl _ _))) (by decide)
  · rw [Region.startX_contiguous e g x gv hop]
    refine setXfer (h.reports (g.lastStarted_reports e x) ?_)
    rw [List.mem_singleton]
    omega

theorem tryStart {e : REnv} {x : Xfer} (h : DrivesQueued z g) : DrivesQueued z (g.tryStart e x) := by
  unfold Region.tryStart
  dsimp only
  split
  · exact h
  · split
    · exact startX h
    · split
      · exact h
      · exact startX h

theorem tryAll {e : REnv} (h : DrivesQueued z g) : DrivesQueued z (g.tryAll e) := foldl (fun _ _ hy => tryStart hy) h

theorem showWait (h : DrivesQueued z g) : DrivesQueued z g.showWait := h.reports g.showWait_reports (by decide)

theorem raise {e : REnv} {r : ErrRec} (h : DrivesQueued z g) : DrivesQueued z (g.raise e r) :=
  h.reports (W := [0x828]) (.raise (by decide) (.refl _ _)) (by decide)

theorem strmFault {e : REnv} {i cls sub leg seq : Nat} (h : DrivesQueued z g) : DrivesQueued z (g.strmFault e i cls sub leg seq) :=
  h.reports (W := [0x828, 0x1700, 0x1704])
    (.raise (by decide) (.inc rfl rfl (by decide) (by decide) (.wr rfl (by decide) (.wr rfl (by decide) (.refl _ _))))) (by decide)

/-- DSEQ stands apart from the bits of `driveBits`. -/
theorem set1_dseq (h : DrivesQueued z g) : DrivesQueued z (g.set1 STK_RSTAT_DSEQ) := by
  refine ⟨h.stakes, h.queue, fun f hf => Eq.trans ?_ (h.status f hf)⟩
  have hapart : STK_RSTAT_DSEQ.apart f 0 0 0 0 = true := by
    revert f
    decide
  exact Region.bit_wr_apart g _ f 1 0 0 0 0 hapart

/-- A drive word that passes its checks is queued (R290). -/
theorem driveTake {e : REnv} {i : Nat} {w : Hdr} (h : DrivesQueued z g) : DrivesQueued z (g.driveTake e i w) := by
  unfold Region.driveTake
  split
  · exact strmFault h
  · extract_lets s qi gap taken id d
    split
    · exact h.reports (W := [0x1704]) (.inc rfl rfl (by decide) (by decide) (.refl _ _)) (by decide)
    · have hgap : DrivesQueued z gap := by
        dsimp only [gap]
        split
        · exact raise (set1_dseq h)
        · exact h
      split
      · exact setStrm hgap
      · exact append (setStrm hgap)

theorem driveTry {e : REnv} {i : Nat} {w : Hdr} (h : DrivesQueued z g) : DrivesQueued z (g.driveTry e i w) := by
  unfold Region.driveTry
  dsimp only
  split
  · exact setStrm h
  · exact driveTake h

theorem driveWake {e : REnv} (h : DrivesQueued z g) : DrivesQueued z (g.driveWake e) := by
  refine foldl (fun y i hy => foldl (fun _ _ hx => driveTry hx) ?_) h
  split
  · exact hy
  · exact setStrm hy

/-- A region put back after its step. -/
theorem atRest (h : DrivesQueued z g) : DrivesQueued z g.atRest := ⟨h.stakes, h.queue, h.status⟩

end DrivesQueued

/-! ## The oldest drive of a region -/

/-- The region whose oldest drive, at stake `k`, has met it with outcome `o`, and whose other drives are `q`. -/
def Region.met (g : Region) (k : Nat) (q : List Drive) : DriveOutcome → Region
  | .applied s => { g with driveq := q }.setStake k s
  | .overflow s => ({ g with driveq := q }.setStake k s).set1 STK_RSTAT_OVF
  | .trespass => { g with driveq := q }.set1 STK_RSTAT_TRESP
  | .poisoned | .stale => { g with driveq := q }

section Met
variable (g : Region) (k : Nat) (q : List Drive)

@[simp] theorem Region.driveq_met (o : DriveOutcome) : (g.met k q o).driveq = q := by cases o <;> rfl

theorem Region.stake_met_ne (o : DriveOutcome) {j : Nat} (h : j ≠ k) : (g.met k q o).stake j = g.stake j := by
  cases o with
  | applied s => exact SMap.get_put_ne _ _ _ _ _ h
  | overflow s => exact SMap.get_put_ne _ _ _ _ _ h
  | trespass => rfl
  | poisoned => rfl
  | stale => rfl

@[simp] theorem Region.stake_met_applied (s : Stake) : (g.met k q (.applied s)).stake k = s := SMap.get_put_self _ _ _ _
@[simp] theorem Region.stake_met_overflow (s : Stake) : (g.met k q (.overflow s)).stake k = s := SMap.get_put_self _ _ _ _
@[simp] theorem Region.stake_met_trespass (j : Nat) : (g.met k q .trespass).stake j = g.stake j := rfl
@[simp] theorem Region.stake_met_poisoned (j : Nat) : (g.met k q .poisoned).stake j = g.stake j := rfl
@[simp] theorem Region.stake_met_stale (j : Nat) : (g.met k q .stale).stake j = g.stake j := rfl

theorem Region.bit_met_trespass : (g.met k q .trespass).bit STK_RSTAT_TRESP = true := by
  rw [Region.met, Region.set1, Region.bit_wr_self _ _ _ _ _ (by decide) (by decide)]
  rfl

theorem Region.bit_met_overflow (s : Stake) : (g.met k q (.overflow s)).bit STK_RSTAT_OVF = true := by
  rw [Region.met, Region.set1, Region.bit_wr_self _ _ _ _ _ (by decide) (by decide)]
  rfl

end Met

/-- Drives queued before the oldest one meets its stake stand behind it afterwards. -/
theorem DrivesQueued.met {z g : Region} (h : DrivesQueued z g) (k : Nat) {q r : List Drive} (hq : q <+: r) (o : DriveOutcome) :
    DrivesQueued (z.met k q o) (g.met k r o) := by
  have hset : ∀ f ∈ driveBits, ∀ c ∈ driveBits, (g.regs.wr c 1).bit f = (z.regs.wr c 1).bit f := by
    intro f hf c hc
    by_cases hfc : f = c
    · subst hfc
      have hwidth : f.hi < 32 ∧ f.lo ≤ f.hi := by
        revert f
        decide
      rw [Regs.bit, Regs.bit, Regs.rd_wr_self _ _ _ _ _ hwidth.1 hwidth.2, Regs.rd_wr_self _ _ _ _ _ hwidth.1 hwidth.2]
    · have hapart : ∀ f ∈ driveBits, ∀ c ∈ driveBits, f ≠ c → c.apart f 0 0 0 0 = true := by decide
      rw [Regs.bit, Regs.bit, Regs.rd_wr_apart _ _ _ _ _ _ _ _ (hapart f hf c hc hfc),
        Regs.rd_wr_apart _ _ _ _ _ _ _ _ (hapart f hf c hc hfc)]
      exact h.status f hf
  have hput (s : Stake) : g.stakes.put stakeZero k s = z.stakes.put stakeZero k s := by rw [h.stakes]
  cases o with
  | applied s => exact ⟨hput s, hq, h.status⟩
  | overflow s => exact ⟨hput s, hq, fun f hf => hset f hf _ (by decide)⟩
  | trespass => exact ⟨h.stakes, hq, fun f hf => hset f hf _ (by decide)⟩
  | poisoned => exact ⟨h.stakes, hq, h.status⟩
  | stale => exact ⟨h.stakes, hq, h.status⟩

section Applied
variable (e : REnv) {g : Region} {d : Drive} {q : List Drive}

/-- The oldest drive meets its stake; what waited on it may go on. -/
theorem Region.driveMeet_queues (h : g.driveq = d :: q) :
    DrivesQueued (g.met d.stake q ((g.stake d.stake).drive d (e.gens.getD d.parcel 0))) (g.driveMeet e) := by
  have hstake : ({ g with driveq := q } : Region).stake d.stake = g.stake d.stake := rfl
  unfold Region.driveMeet
  rw [h]
  dsimp only
  rw [hstake]
  cases (g.stake d.stake).drive d (e.gens.getD d.parcel 0) with
  | applied s => exact .showWait (.tryAll (.reports (W := []) (.count (.refl _ _)) (by decide) (.refl _)))
  | overflow s => exact .raise (.showWait (.tryAll (.refl _)))
  | trespass =>
    exact .raise (.reports (W := [0x60C]) (.count (.inc rfl rfl (by decide) (by decide) (.refl _ _))) (by decide) (.refl _))
  | poisoned => exact .refl _
  | stale => exact .reports (W := [0x610]) (.inc rfl rfl (by decide) (by decide) (.refl _ _)) (by decide) (.refl _)

/-- DRIVE_APPLIED at a region: the oldest drive meets its stake, and drives may be queued behind the others. -/
theorem Region.driveApplied_queues (h : g.driveq = d :: q) :
    DrivesQueued (g.met d.stake q ((g.stake d.stake).drive d (e.gens.getD d.parcel 0)))
      (((g.tryAll e).driveApply e).tryAll e) := by
  have htry := DrivesQueued.tryAll (e := e) (.refl g)
  obtain ⟨more, hmore⟩ := htry.queue
  rw [h, List.cons_append] at hmore
  have hmeet := Region.driveMeet_queues e hmore.symm
  rw [htry.stake] at hmeet
  exact .tryAll (.driveWake ((htry.met d.stake (List.prefix_append q more) _).trans hmeet))

end Applied

theorem Region.tryAll_none (e : REnv) {g : Region} (h : ∀ x ∈ g.xfers, x.started = true ∨ x.dead = true) : g.tryAll e = g := by
  have hnone : g.xfers.filter (fun x => !x.started && !x.dead) = [] :=
    List.filter_eq_nil_iff.mpr fun x hx => by rcases h x hx with hx | hx <;> simp [hx]
  rw [Region.tryAll, hnone, List.foldl_nil]

/-- A fold of steps that each leave the start. -/
theorem foldl_fixed_of_mem {α β : Type} {f : α → β → α} {a : α} {l : List β} (h : ∀ x ∈ l, f a x = a) : l.foldl f a = a := by
  induction l with
  | nil => rfl
  | cons x l ih =>
    rw [List.foldl_cons, h x List.mem_cons_self]
    exact ih fun y hy => h y (List.mem_cons_of_mem _ hy)

theorem Region.driveWake_none (e : REnv) {g : Region} (h : ∀ i, i < 64 → (g.strm i).waits = []) : g.driveWake e = g :=
  foldl_fixed_of_mem fun i hi => by simp [h i (List.mem_range.mp hi)]

/-- Settles O34: the oldest drive meets its stake (`Region.met`) with the outcome that `Stake.drive` gives, and whatever goes on after it
only queues drives (`Region.driveApplied_queues`). -/
theorem regionDrives : Obligations.RegionDrives := by
  rintro n cyc s G hn rfl hlost
  obtain ⟨t, hexec, ht⟩ := exec_region_step (c := .driveApplied (.region n cyc)) rfl hn hlost
  dsimp only at ht
  refine ⟨fun hempty hxfers hwaits => ⟨t, hexec, ?none⟩, ?drive⟩
  case none =>
    have hmeet : (s.region n).driveMeet (s.renv n cyc) = s.region n := by simp only [Region.driveMeet, hempty]
    have happly : (s.region n).driveApply (s.renv n cyc) = s.region n := by
      rw [Region.driveApply, hmeet, Region.driveWake_none _ hwaits]
    rw [ht, Region.tryAll_none _ hxfers, happly, Region.tryAll_none _ hxfers]
  case drive =>
    rintro d q k gen y hq rfl rfl rfl
    have h := (Region.driveApplied_queues (s.renv n cyc) hq).atRest
    rw [← ht] at h
    refine ⟨t, hexec, ?queue, fun j hj => ?others, fun g hg hold hp => ?stale, fun hcur => ⟨fun htres => ?trespass,
      fun hown hen hpoison => ?poisoned, fun hown hen hpoison => ⟨fun hfits => ?applied, fun hbig => ?overflow⟩⟩⟩
    case queue =>
      obtain ⟨more, hmore⟩ := h.queue
      rw [Region.driveq_met] at hmore
      exact ⟨more, hmore.symm⟩
    case others => rw [h.stake, Region.stake_met_ne _ _ _ _ hj]
    case stale => rw [h.stake, Stake.drive_stale hg hold hp, Region.stake_met_stale]
    case trespass =>
      rw [h.stake, h.status _ (by decide), Stake.drive_trespass hcur htres, Region.stake_met_trespass]
      exact ⟨rfl, Region.bit_met_trespass _ _ _⟩
    case poisoned => rw [h.stake, Stake.drive_poisoned hcur hown hen hpoison, Region.stake_met_poisoned]
    case applied =>
      rw [h.stake, Stake.drive_applied hcur hown hen hpoison hfits, Region.stake_met_applied]
      rfl
    case overflow =>
      rw [h.stake, h.status _ (by decide), Stake.drive_overflow hcur hown hen hpoison hbig, Region.stake_met_overflow]
      exact ⟨rfl, Region.bit_met_overflow _ _ _ _⟩

end Sys2Proof.Machine

/-!
PROOFS. Sights, drives and plan points of a block (10_stakes.md R282 to R298, 06_scalar_core.md R179): what leaves the queue and what waits,
and what the oldest drive leaves of the block.
-/
namespace Sys2Proof.Machine

/-! ## Entries that leave the queue -/

@[simp] theorem Block.stakes_atRest (b : Block) : b.atRest.stakes = b.stakes := rfl

/-- An entry that leaves the queue does so whatever state it was put in before. -/
theorem Block.dropEntry_setEntry (b : Block) (x : QEntry) (st : EState) :
    (b.setEntry x.id (fun y => { y with st := st })).dropEntry x.id = b.dropEntry x.id := by
  have hq (q : List QEntry) : (q.map (fun y => if y.id = x.id then { y with st := st } else y)).filter (fun y => decide (y.id ≠ x.id)) =
      q.filter (fun y => decide (y.id ≠ x.id)) := by
    induction q with
    | nil => rfl
    | cons y t ih =>
      by_cases hid : y.id = x.id <;> simpa [hid] using ih
  simp only [Block.setEntry, Block.dropEntry, hq]

theorem Block.dropEntry_completed (b : Block) (x : QEntry) : Completed b x (b.dropEntry x.id).atRest := ⟨rfl, rfl, rfl, rfl, rfl, rfl, rfl⟩

section SightDone
variable (b : Block) (x : QEntry) (void : Bool)

theorem Block.sightDone_completed : Completed b x (b.sightDone x void).atRest := by cases void <;> exact ⟨rfl, rfl, rfl, rfl, rfl, rfl, rfl⟩

/-- A void sight marks the sequencer (R287). -/
theorem Block.sightDone_voidSight : (b.sightDone x void).seq.voidSight = (b.seq.voidSight || void) := by
  cases void
  · exact (Bool.or_false _).symm
  · exact (Bool.or_true _).symm

theorem Block.sightDone_setEntry (st : EState) :
    (b.setEntry x.id (fun y => { y with st := st })).sightDone { x with st := st } void = b.sightDone x void := by
  unfold Block.sightDone
  rw [Block.dropEntry_setEntry]

end SightDone

/-- Completing a sight that waits changes the sequencer alone. -/
theorem Block.sightCheck_only (e : Env) (b : Block) : b.sightCheck e = { b with seq := (b.sightCheck e).seq } := by
  unfold Block.sightCheck Block.sightDone
  split
  · rfl
  · dsimp only
    split
    · rfl
    · split
      · split <;> rfl
      · rfl

/-! ## STAKE_SIGHT (R282, R286, R293) -/

/-- STAKE_SIGHT issues from the head of the queue. -/
theorem Block.stakeSight_issuesFromHead :
    IssuesFromHead 7 (fun b x => b.otherBad x.cmd = true) (fun _ _ => False) (fun e b => b.stakeSight e) where
  empty h := by simp only [Block.stakeSight, h]
  other h hopc := by simp only [Block.stakeSight, h, if_pos hopc]
  refuses h hopc hbad := by simp [Block.stakeSight, h, hopc, hbad]
  waits _ _ hwaits := hwaits.elim

section Sight
variable {e : Env} {b : Block} {x : QEntry} {p r : List QEntry} (hopc : x.cmd.opc = 7) (hq : b.seq.q = p ++ x :: r)
  (hp : ∀ y ∈ p, y.cmd.opc ≠ 7)
include hopc hq hp

/-- A sight that is issued with none before it is the block's issued sight. -/
theorem Block.sight_setEntry (u : Run) :
    (b.setEntry x.id (fun y => { y with st := .issued u })).sight = some { x with st := .issued u } := by
  have hbefore : (p.map (fun y => if y.id = x.id then { y with st := .issued u } else y)).find?
      (fun y => y.cmd.opc == 7 && y.issued?.isSome) = none := by
    refine List.find?_eq_none.mpr fun y hy => ?_
    obtain ⟨z, hz, rfl⟩ := List.mem_map.mp hy
    split <;> simp [hp z hz]
  show (b.seq.q.map _).find? _ = _
  rw [hq, List.map_append, List.map_cons, if_pos rfl, List.find?_append, hbefore, Option.none_or]
  exact List.find?_cons_of_pos (by simp [hopc, QEntry.issued?])

variable (hhead : b.head = some x) (hgood : b.otherBad x.cmd = false) {k : Stake} (hk : k = b.stake (x.cmd.stake % 64))
include hhead hgood hk

/-- A legal sight is issued, and judged by its stake at once. -/
theorem Block.stakeSight_judged : b.stakeSight e =
    if k.poison then b.sightDone x true
    else if x.cmd.count ≤ k.cnt then b.sightDone x (k.sightVoid e.frame)
    else b.setEntry x.id (fun y => { y with st := .issued { cyc := e.cyc } }) := by
  have hissue : b.stakeSight e = (b.setEntry x.id (fun y => { y with st := .issued { cyc := e.cyc } })).sightCheck e := by
    simp only [Block.stakeSight, hhead, hopc, hgood]
    rfl
  have hstake : (b.setEntry x.id (fun y => { y with st := .issued { cyc := e.cyc } })).stake (x.cmd.stake % 64) = k := hk.symm
  rw [hissue, Block.sightCheck, Block.sight_setEntry hopc hq hp]
  dsimp only
  rw [hstake, Block.sightDone_setEntry, Block.sightDone_setEntry]

/-- It ends when the stake is poisoned or there. -/
theorem Block.stakeSight_ends (h : k.poison = true ∨ x.cmd.count ≤ k.cnt) :
    b.stakeSight e = b.sightDone x (k.poison || k.sightVoid e.frame) := by
  rw [Block.stakeSight_judged hopc hq hp hhead hgood hk]
  cases hpoison : k.poison with
  | true => rfl
  | false =>
    rw [hpoison] at h
    rw [if_neg Bool.false_ne_true, if_pos (h.resolve_left Bool.false_ne_true), Bool.false_or]

/-- It waits while the stake is short. -/
theorem Block.stakeSight_waits (hpoison : k.poison = false) (hshort : k.cnt < x.cmd.count) :
    b.stakeSight e = b.setEntry x.id (fun y => { y with st := .issued { cyc := e.cyc } }) := by
  rw [Block.stakeSight_judged hopc hq hp hhead hgood hk, hpoison, if_neg Bool.false_ne_true, if_neg (Int.not_le.mpr hshort)]

end Sight

/-! ## STAKE_DRIVE_COMMAND (R288, R289, R298) and PLAN_POINT (06 R179) -/

/-- The block with the drive of entry `x` at the end of its queue in place of the entry (R281, R287). -/
def Block.driveLocal (e : Env) (b : Block) (x : QEntry) : Block :=
  { b.dropEntry x.id with driveq := b.driveq ++ [{ stake := x.cmd.stake, inc := x.cmd.inc, void := b.seq.voidSeen
                                                   tag := e.frame % 2 ^ 16, parcel := b.rd RT_CTL_PARCEL
                                                   gen := some e.gen, by_ := .block e.blk }] }

theorem Block.driveLocal_completed (e : Env) (b : Block) (x : QEntry) : Completed b x (b.driveLocal e x).atRest :=
  ⟨rfl, rfl, rfl, rfl, rfl, rfl, rfl⟩

/-- The drive that command `c` queues at its endpoint, behind the full slots that the endpoint has not released (R289). -/
def Block.legDrive (e : Env) (b : Block) (c : Cmd) : LegDrive :=
  let r := b.rd LEP_A0_RING (c.stake % 64)
  { inc := c.inc, void := b.seq.voidSeen, tag := e.frame % 2 ^ 16, since := e.cyc
    after := ((List.range (b.ringSlots r)).filter (fun s =>
      b.slotFull r s && !(b.tag r s).released (b.rd LEP_A0_CONS (c.stake % 64)))).length }

section Drive
variable {e : Env} {b : Block} {x : QEntry} (h : b.head = some x) (hopc : x.cmd.opc = 6) (hgood : b.otherBad x.cmd = false)
  (hold : b.isOldest x = true)
include h hopc hgood hold

/-- A legal drive that is the oldest command goes to its queue, where that has room. -/
theorem Block.driveCommand_oldest : b.driveCommand e =
    if x.cmd.stake / 2 ^ 14 = 0 then if 14 ≤ b.driveq.length then b else b.driveLocal e x
    else if 4 ≤ (b.leg (x.cmd.stake % 64)).drives.length then b
    else (b.dropEntry x.id).setLeg (x.cmd.stake % 64)
      { b.leg (x.cmd.stake % 64) with drives := (b.leg (x.cmd.stake % 64)).drives ++ [b.legDrive e x.cmd] } := by
  simp only [Block.driveCommand, h, hopc, hgood, hold, ne_eq, not_true_eq_false, Bool.false_eq_true, Bool.not_true, if_false]
  rfl

end Drive

/-- Is there no room for the drive of command `c` (R298)? -/
def Block.driveFull (b : Block) (c : Cmd) : Prop :=
  c.stake / 2 ^ 14 = 0 ∧ 14 ≤ b.driveq.length ∨ c.stake / 2 ^ 14 ≠ 0 ∧ 4 ≤ (b.leg (c.stake % 64)).drives.length

/-- STAKE_DRIVE_COMMAND issues from the head of the queue, where it is the oldest and has room. -/
theorem Block.driveCommand_issuesFromHead : IssuesFromHead 6 (fun b x => b.otherBad x.cmd = true)
    (fun b x => b.otherBad x.cmd = false ∧ (b.isOldest x = false ∨ b.driveFull x.cmd)) (fun e b => b.driveCommand e) where
  empty h := by simp only [Block.driveCommand, h]
  other h hopc := by simp only [Block.driveCommand, h, if_pos hopc]
  refuses h hopc hbad := by simp [Block.driveCommand, h, hopc, hbad]
  waits := by
    rintro e b x h hopc ⟨hgood, hwaits⟩
    cases hold : b.isOldest x with
    | false => simp [Block.driveCommand, h, hopc, hgood, hold]
    | true =>
      rw [hold] at hwaits
      obtain ⟨hlocal, hfull⟩ | ⟨hleg, hfull⟩ := hwaits.resolve_left (by simp)
      · rw [Block.driveCommand_oldest h hopc hgood hold, if_pos hlocal, if_pos hfull]
      · rw [Block.driveCommand_oldest h hopc hgood hold, if_neg hleg, if_pos hfull]

/-- PLAN_POINT issues from the head of the queue. -/
theorem Block.planPoint_issuesFromHead :
    IssuesFromHead 8 (fun b x => b.otherBad x.cmd = true) (fun _ _ => False) (fun e b => b.planPoint e) where
  empty h := by simp only [Block.planPoint, h]
  other h hopc := by simp only [Block.planPoint, h, if_pos hopc]
  refuses h hopc hbad := by simp [Block.planPoint, h, hopc, hbad]
  waits _ _ hwaits := hwaits.elim

theorem Block.planPoint_leaves {e : Env} {b : Block} {x : QEntry} (h : b.head = some x) (hopc : x.cmd.opc = 8)
    (hgood : b.otherBad x.cmd = false) : b.planPoint e = b.dropEntry x.id := by
  simp [Block.planPoint, h, hopc, hgood]

/-! ## SIGHT_TIMEOUT (R294) -/

theorem Block.sightTimeout_none (e : Env) {b : Block} (h : b.sight = none) (forced : Bool) : b.sightTimeout e forced = b := by
  simp only [Block.sightTimeout, h]

section Timeout
variable {e : Env} {b : Block} {x : QEntry} {r : Run} (h : b.sight = some x) (hr : x.issued? = some r)
include h hr

/-- The time of the sight's stake is not over, or it has none. -/
theorem Block.sightTimeout_waits
    (hwait : (b.stake (x.cmd.stake % 64)).tmode ≠ 1 ∨ e.cyc < r.cyc + (b.stake (x.cmd.stake % 64)).tmo * 256) :
    b.sightTimeout e false = b := by
  have hcond : ((b.stake (x.cmd.stake % 64)).tmode == 1 && decide (r.cyc + (b.stake (x.cmd.stake % 64)).tmo * 256 ≤ e.cyc)) = false := by
    rcases hwait with hmode | htime
    · simp [hmode]
    · simp [Nat.not_le.mpr htime]
  simp [Block.sightTimeout, h, hr, hcond]

/-- The sight ends void, and STALE shows it. -/
theorem Block.sightTimeout_ends (htime : (b.stake (x.cmd.stake % 64)).tmode = 1 ∧ r.cyc + (b.stake (x.cmd.stake % 64)).tmo * 256 ≤ e.cyc) :
    Completed b x (b.sightTimeout e false).atRest ∧ (b.sightTimeout e false).seq.voidSight = true ∧
      (b.sightTimeout e false).bit STK_BSTAT_STALE = true ∧ (b.sightTimeout e false).stakes = b.stakes := by
  simp only [Block.sightTimeout, h, hr, Option.getD_some, htime.1, htime.2]
  generalize hy : Block.raise e _ _ = y
  have hstands : y.standing = (b.sightDone x true).standing := by simp [← hy]
  refine ⟨⟨(congrArg (·.seq.q) hstands :), (congrArg Block.core hstands :), (congrArg Block.imem hstands :),
    (congrArg Block.ldata hstands :), (congrArg Block.legs hstands :), (congrArg Block.held hstands :),
    (congrArg Block.router hstands :)⟩, (congrArg (·.seq.voidSight) hstands :), ?_, (congrArg Block.stakes hstands :)⟩
  show y.bit STK_BSTAT_STALE = true
  rw [← hy, Block.bit_raise (by decide) (by decide), Block.bit_count, Block.set1, Block.bit_wr_self _ _ _ _ _ (by decide) (by decide)]
  rfl

end Timeout

/-! ## DRIVE_APPLIED at a block (R283, R286, R292, R293, R298) -/

/-- The block whose oldest drive, at stake `k`, has met it with outcome `o`, and whose other drives are `q`. -/
def Block.met (b : Block) (k : Nat) (q : List Drive) : DriveOutcome → Block
  | .applied s => { b with driveq := q }.setStake k s
  | .overflow s => ({ b with driveq := q }.setStake k s).set1 STK_BSTAT_OVF
  | .trespass => { b with driveq := q }.set1 STK_BSTAT_TRESP
  | .poisoned | .stale => { b with driveq := q }

/-- From `z` to `b` a block only reports a drive: its drives, its stakes and the two bits that a drive sets in STK_BSTAT stand. -/
structure DriveReported (z b : Block) : Prop where
  driveq : b.driveq = z.driveq
  stakes : b.stakes = z.stakes
  tresp : b.bit STK_BSTAT_TRESP = z.bit STK_BSTAT_TRESP
  ovf : b.bit STK_BSTAT_OVF = z.bit STK_BSTAT_OVF

namespace DriveReported
variable {z b : Block}

theorem refl (b : Block) : DriveReported b b := ⟨rfl, rfl, rfl, rfl⟩

theorem stake (h : DriveReported z b) (k : Nat) : b.stake k = z.stake k := congrArg (SMap.get stakeZero · k) h.stakes

theorem wr {f : Field} {v : Nat} (ht : f.apart STK_BSTAT_TRESP 0 0 0 0 = true) (ho : f.apart STK_BSTAT_OVF 0 0 0 0 = true)
    (h : DriveReported z b) : DriveReported z (b.wr f v) :=
  ⟨h.driveq, h.stakes, (Block.bit_wr_apart b f _ v 0 0 0 0 ht).trans h.tresp, (Block.bit_wr_apart b f _ v 0 0 0 0 ho).trans h.ovf⟩

theorem inc {c sat : Field} {n : Nat} (hct : c.apart STK_BSTAT_TRESP 0 0 0 0 = true) (hst : sat.apart STK_BSTAT_TRESP 0 0 0 0 = true)
    (hco : c.apart STK_BSTAT_OVF 0 0 0 0 = true) (hso : sat.apart STK_BSTAT_OVF 0 0 0 0 = true) (h : DriveReported z b) :
    DriveReported z (b.inc c sat n) :=
  ⟨h.driveq, h.stakes, (congrArg (· != 0) (b.rd_inc_apart hct hst)).trans h.tresp,
    (congrArg (· != 0) (b.rd_inc_apart hco hso)).trans h.ovf⟩

theorem count {e : Env} {c n : Nat} {p : Option Nat} (h : DriveReported z b) : DriveReported z (b.count e c p n) := by
  rw [Block.count_only]
  exact ⟨h.driveq, h.stakes, h.tresp, h.ovf⟩

theorem raise {e : Env} {r : ErrRec} (h : DriveReported z b) : DriveReported z (b.raise e r) := by
  refine ⟨Eq.trans ?_ h.driveq, Eq.trans ?_ h.stakes, (Block.bit_raise (by decide) (by decide)).trans h.tresp,
    (Block.bit_raise (by decide) (by decide)).trans h.ovf⟩ <;> rw [Block.raise_only]

theorem sightCheck {e : Env} (h : DriveReported z b) : DriveReported z (b.sightCheck e) := by
  rw [Block.sightCheck_only]
  exact ⟨h.driveq, h.stakes, h.tresp, h.ovf⟩

/-- A block put back after its step. -/
theorem atRest (h : DriveReported z b) : DriveReported z b.atRest := ⟨h.driveq, h.stakes, h.tresp, h.ovf⟩

end DriveReported

section Met
variable (b : Block) (k : Nat) (q : List Drive)

@[simp] theorem Block.driveq_met (o : DriveOutcome) : (b.met k q o).driveq = q := by cases o <;> rfl
@[simp] theorem Block.stake_met_applied (s : Stake) : (b.met k q (.applied s)).stake k = s := SMap.get_put_self _ _ _ _
@[simp] theorem Block.stake_met_overflow (s : Stake) : (b.met k q (.overflow s)).stake k = s := SMap.get_put_self _ _ _ _

@[simp] theorem Block.stakes_met_trespass : (b.met k q .trespass).stakes = b.stakes := rfl
@[simp] theorem Block.stakes_met_stale : (b.met k q .stale).stakes = b.stakes := rfl

theorem Block.stake_met_ne (s : Stake) {j : Nat} (h : j ≠ k) : (b.met k q (.applied s)).stake j = b.stake j :=
  SMap.get_put_ne _ _ _ _ _ h

theorem Block.bit_met_trespass : (b.met k q .trespass).bit STK_BSTAT_TRESP = true := by
  rw [Block.met, Block.set1, Block.bit_wr_self _ _ _ _ _ (by decide) (by decide)]
  rfl

theorem Block.bit_met_overflow (s : Stake) : (b.met k q (.overflow s)).bit STK_BSTAT_OVF = true := by
  rw [Block.met, Block.set1, Block.bit_wr_self _ _ _ _ _ (by decide) (by decide)]
  rfl

end Met

theorem Block.driveApply_none (e : Env) {b : Block} (h : b.driveq = []) (gen : Nat) : b.driveApply e gen = b := by
  simp only [Block.driveApply, h]

section Apply
variable (e : Env) {b : Block} {d : Drive} {q : List Drive} (h : b.driveq = d :: q) (gen : Nat)
include h

/-- The oldest drive meets its stake; the sight that waits on it may end. -/
theorem Block.driveApply_reported :
    DriveReported (b.met d.stake q ((b.stake d.stake).drive d gen)) (b.driveApply e gen) := by
  have hstake : ({ b with driveq := q } : Block).stake d.stake = b.stake d.stake := rfl
  unfold Block.driveApply
  rw [h]
  dsimp only
  rw [hstake]
  cases (b.stake d.stake).drive d gen with
  | applied s => exact .sightCheck (.count (.refl _))
  | overflow s => exact .raise (.sightCheck (.refl _))
  | trespass =>
    dsimp only
    refine .raise ?_
    split
    · exact .wr (by decide) (by decide) (.count (.refl _))
    · exact .count (.refl _)
  | poisoned => exact .refl _
  | stale => exact .inc (by decide) (by decide) (by decide) (by decide) (.refl _)

/-- A poisoned stake leaves the drive without effect (R293). -/
theorem Block.driveApply_poisoned (ho : (b.stake d.stake).drive d gen = .poisoned) : b.driveApply e gen = { b with driveq := q } := by
  have hstake : ({ b with driveq := q } : Block).stake d.stake = b.stake d.stake := rfl
  unfold Block.driveApply
  rw [h]
  dsimp only
  rw [hstake, ho]

end Apply

/-- DRIVE_APPLIED at a block whose clock runs is a step of that block, with the current generation of the oldest drive's parcel: passing
time queues no drive. -/
theorem exec_driveApplied_step {blk cyc : Nat} {s : State} {d : Drive} {q : List Drive} (hblk : blk < 4608) (hruns : s.runs blk = true)
    (hq : (s.blockAt blk cyc).driveq = d :: q) :
    ∃ t, exec (.driveApplied (.block blk cyc)) s = .next t ∧
      t.block blk = ((s.blockAt blk cyc).driveApply (s.env blk cyc) (s.genOf d.parcel)).atRest := by
  obtain ⟨-, -, -, -, hsame, -⟩ := ((s.block blk).advance_timed (s.env blk cyc)).rest
  have hq : (s.block blk).driveq = d :: q := hsame.symm.trans hq
  refine exec_live_step (f := fun e b => b.driveApply e (s.genOf d.parcel)) ?_ hblk hruns
  show execDriveApplied (.block blk cyc) s = _
  simp only [execDriveApplied, hq, List.head?_cons]

/-- What a command that issues from the head does where the head is not its own, or illegal (06 R175, R176). -/
theorem IssuesFromHead.exec_refuses {opc blk cyc : Nat} {bad waits : Block → QEntry → Prop} {f : Env → Block → Block}
    (hf : IssuesFromHead opc bad waits f) {s : State} {c : Instr} {B : Block} (hc : exec c s = .next (s.onIssue blk cyc f))
    (hblk : blk < 4608) (hruns : s.runs blk = true) (hgap : (s.region (regionOf blk)).bit RGN_BEAT_GAP = false)
    (hB : B = s.blockAt blk cyc) :
    (B.head = none → ∃ t, exec c s = .next t ∧ t.block blk = B.atRest) ∧
    ∀ x, B.head = some x →
      (x.cmd.opc ≠ opc → ∃ t, exec c s = .next t ∧ t.block blk = B.atRest) ∧
      (x.cmd.opc = opc → bad B x → ∃ t, exec c s = .next t ∧ Refused B x (t.block blk)) := by
  obtain ⟨hempty, hhead⟩ := hf.exec_idle hc hblk hruns hgap hB
  exact ⟨hempty, fun x hx => (hhead x hx).imp_right fun hown hopc => (hown hopc).1⟩

/-- A legal drive that is not the oldest command, or has no room, waits (R281, R298). -/
theorem exec_stakeDriveCommand_waits {blk cyc : Nat} {s : State} {x : QEntry} (hblk : blk < 4608) (hruns : s.runs blk = true)
    (hgap : (s.region (regionOf blk)).bit RGN_BEAT_GAP = false) (hhead : (s.blockAt blk cyc).head = some x) (hopc : x.cmd.opc = 6)
    (hgood : (s.blockAt blk cyc).otherBad x.cmd = false)
    (hwaits : (s.blockAt blk cyc).isOldest x = false ∨ (s.blockAt blk cyc).driveFull x.cmd) :
    ∃ t, exec (.stakeDriveCommand blk cyc) s = .next t ∧ t.block blk = (s.blockAt blk cyc).atRest := by
  obtain ⟨-, hidle⟩ :=
    Block.driveCommand_issuesFromHead.exec_idle (c := .stakeDriveCommand blk cyc) rfl hblk hruns hgap rfl
  exact ((hidle x hhead).2 hopc).2 ⟨hgood, hwaits⟩

/-- Settles O27: the three commands issue from the head (`IssuesFromHead`), and what each leaves is said by `Block.stakeSight_ends`,
`Block.stakeSight_waits`, `Block.driveCommand_oldest` and `Block.planPoint_leaves`; a sight that times out ends void
(`Block.sightTimeout_ends`), and the oldest drive meets its stake (`Block.driveApply_reported`). -/
theorem stakeCommandsOfABlock : Obligations.StakeCommandsOfABlock := by
  rintro blk cyc s B hblk hruns rfl
  refine ⟨fun c opc hc => ?idle,
    fun x hgap hhead hgood => ⟨fun p r k hopc hq hp hk => ⟨fun hthere => ?ends, fun hpoison hshort => ?waits⟩,
      fun hopc => ⟨fun hyoung => ?young, fun hold hlocal => ⟨fun hroom => ?queued, fun hfull => ?full⟩,
        fun hold hleg => ⟨fun hroom => ?atEndpoint, fun hfull => ?endpointFull⟩⟩, fun hopc => ?plan⟩,
    fun x r hsight hr => ⟨fun htime => ?timeout, fun hwait => ?inTime⟩, fun hnone => ?noSight, fun hnone => ?noDrive,
    fun d q k hq hk => ⟨fun hcur => ⟨fun ⟨hown, hen⟩ => ⟨fun hpoison hfits => ?applied, fun hpoison hbig => ?overflow,
      fun hpoison => ?poisoned⟩, fun htres => ?trespass⟩, fun g hg hold hp => ?stale⟩⟩
  case idle =>
    rcases hc with ⟨rfl, rfl⟩ | ⟨rfl, rfl⟩ | ⟨rfl, rfl⟩
    all_goals refine ⟨exec_issue_gap rfl, fun hgap => ?_⟩
    · exact Block.stakeSight_issuesFromHead.exec_refuses (c := .stakeSight blk cyc) rfl hblk hruns hgap rfl
    · exact Block.driveCommand_issuesFromHead.exec_refuses (c := .stakeDriveCommand blk cyc) rfl hblk hruns hgap rfl
    · exact Block.planPoint_issuesFromHead.exec_refuses (c := .planPoint blk cyc) rfl hblk hruns hgap rfl
  case ends =>
    obtain ⟨t, hexec, hblock⟩ := exec_issue_step (c := .stakeSight blk cyc) rfl hblk hruns hgap
    rw [Block.stakeSight_ends hopc hq hp hhead hgood hk hthere] at hblock
    refine ⟨t, hexec, ?_, ?_⟩ <;> rw [hblock]
    · exact Block.sightDone_completed _ _ _
    · rw [Block.seq_atRest, Block.sightDone_voidSight, Bool.or_assoc]
      rfl
  case waits =>
    obtain ⟨t, hexec, hblock⟩ := exec_issue_step (c := .stakeSight blk cyc) rfl hblk hruns hgap
    rw [Block.stakeSight_waits hopc hq hp hhead hgood hk hpoison hshort] at hblock
    exact ⟨t, hexec, by rw [hblock]; rfl, by rw [hblock]; rfl⟩
  case young => exact exec_stakeDriveCommand_waits hblk hruns hgap hhead hopc hgood (.inl hyoung)
  case full => exact exec_stakeDriveCommand_waits hblk hruns hgap hhead hopc hgood (.inr (.inl ⟨hlocal, hfull⟩))
  case endpointFull => exact exec_stakeDriveCommand_waits hblk hruns hgap hhead hopc hgood (.inr (.inr ⟨hleg, hfull⟩))
  case queued =>
    obtain ⟨t, hexec, hblock⟩ := exec_issue_step (c := .stakeDriveCommand blk cyc) rfl hblk hruns hgap
    rw [Block.driveCommand_oldest hhead hopc hgood hold, if_pos hlocal, if_neg (Nat.not_le.mpr hroom)] at hblock
    refine ⟨t, hexec, ?_, ?_⟩ <;> rw [hblock]
    · exact Block.driveLocal_completed _ _ _
    · rfl
  case atEndpoint =>
    obtain ⟨t, hexec, hblock⟩ := exec_issue_step (c := .stakeDriveCommand blk cyc) rfl hblk hruns hgap
    rw [Block.driveCommand_oldest hhead hopc hgood hold, if_neg hleg, if_neg (Nat.not_le.mpr hroom)] at hblock
    refine ⟨t, (s.blockAt blk cyc).legDrive (s.env blk cyc) x.cmd, hexec, ?_, rfl, rfl, rfl, rfl, ?_⟩ <;> rw [hblock]
    · rfl
    · rw [Block.leg_atRest, Block.leg_setLeg_self]
  case plan =>
    obtain ⟨t, hexec, hblock⟩ := exec_issue_step (c := .planPoint blk cyc) rfl hblk hruns hgap
    rw [Block.planPoint_leaves hhead hopc hgood] at hblock
    exact ⟨t, hexec, by rw [hblock]; exact Block.dropEntry_completed _ _⟩
  case timeout =>
    obtain ⟨t, hexec, hblock⟩ := exec_live_step (c := .sightTimeout (.block blk cyc)) rfl hblk hruns
    refine ⟨t, hexec, ?_⟩
    rw [hblock, Block.seq_atRest, Block.bit_atRest, Block.stakes_atRest]
    exact Block.sightTimeout_ends (e := s.env blk cyc) hsight hr htime
  case inTime =>
    obtain ⟨t, hexec, hblock⟩ := exec_live_step (c := .sightTimeout (.block blk cyc)) rfl hblk hruns
    exact ⟨t, hexec, by rw [hblock, Block.sightTimeout_waits hsight hr hwait]⟩
  case noSight =>
    obtain ⟨t, hexec, hblock⟩ := exec_live_step (c := .sightTimeout (.block blk cyc)) rfl hblk hruns
    exact ⟨t, hexec, by rw [hblock, Block.sightTimeout_none _ hnone]⟩
  case noDrive =>
    obtain ⟨t, hexec, hblock⟩ := exec_live_step (c := .driveApplied (.block blk cyc)) rfl hblk hruns
    exact ⟨t, hexec, by rw [hblock, Block.driveApply_none _ hnone]⟩
  all_goals
    subst hk
    obtain ⟨t, hexec, hblock⟩ := exec_driveApplied_step hblk hruns hq
    have h := (Block.driveApply_reported (s.env blk cyc) hq (s.genOf d.parcel)).atRest
    rw [← hblock] at h
    have hrest := h.driveq.trans (Block.driveq_met _ _ _ _)
  case applied =>
    rw [Stake.drive_applied (hcur.imp_right Or.symm) hown hen hpoison hfits] at h
    refine ⟨t, hexec, hrest, ?_, ?_, fun j hj => ?_⟩ <;> rw [h.stake]
    · rw [Block.stake_met_applied]
    · rw [Block.stake_met_applied]
      exact Stake.marked_void _ _
    · exact Block.stake_met_ne _ _ _ _ hj
  case overflow =>
    rw [Stake.drive_overflow (hcur.imp_right Or.symm) hown hen hpoison hbig] at h
    refine ⟨t, hexec, hrest, ?_, ?_⟩
    · rw [h.stake, Block.stake_met_overflow]
    · rw [h.ovf, Block.bit_met_overflow]
  case poisoned =>
    have ho := Stake.drive_poisoned (hcur.imp_right Or.symm) hown hen hpoison
    exact ⟨t, hexec, by rw [hblock, Block.driveApply_poisoned _ hq _ ho]; rfl⟩
  case trespass =>
    rw [Stake.drive_trespass (hcur.imp_right Or.symm) htres] at h
    exact ⟨t, hexec, hrest, by rw [h.stakes, Block.stakes_met_trespass], by rw [h.tresp, Block.bit_met_trespass]⟩
  case stale =>
    rw [Stake.drive_stale hg hold hp] at h
    exact ⟨t, hexec, hrest, by rw [h.stakes, Block.stakes_met_stale]⟩

end Sys2Proof.Machine

/-!
PROOFS. The plat (11_plat.md): what a load, its check, the seal and a cut-over's beginning leave (R310, R315, R318 to R322, R326, R329).
-/
namespace Sys2Proof.Machine

/-! ## Items of a ring -/

/-- An item that runs has begun and has no outcome yet. -/
theorem State.waits_of_running {s : State} {fn ring slot opc : Nat} {x : Item} (hfn : fn < 34)
    (h : s.running fn ring slot opc = some x) : s.waits ⟨fn, ring, slot⟩ := by
  have hx := List.find?_some h
  simp only [Bool.and_eq_true, beq_iff_eq, Option.isNone_iff_eq_none] at hx
  exact ⟨hfn, x, List.mem_of_find?_eq_some h, hx.1.1.1, hx.2⟩

/-- Items wait as the functions' rings show. -/
theorem State.waits_of_fns {s t : State} {i : ItemRef} (h : t.fns = s.fns) (hw : s.waits i) : t.waits i := by
  unfold State.waits State.ring State.fn
  rw [h]
  exact hw

/-- An item that is another one, or has its outcome, stands when an item is finished. -/
theorem State.mem_items_finish {s : State} {i j : ItemRef} {a b : Nat} {y : Item} (hy : y ∈ (s.ring i.fn i.ring).items)
    (hslot : y.slot = i.slot) (hkeep : i = j → y.done ≠ none) : y ∈ ((s.finish j a b).ring i.fn i.ring).items := by
  by_cases hfn : i.fn = j.fn ∧ i.fn < 34
  · obtain ⟨hfn, hlt⟩ := hfn
    have hrings : ((s.finish j a b).fn j.fn).rings = _ := congrArg Fn.rings (s.fn_setFn_self j.fn _ (hfn ▸ hlt))
    rw [State.ring, hfn, hrings]
    by_cases hring : i.ring = j.ring
    · rw [hring, SMap.get_put_self]
      refine List.mem_map.mpr ⟨y, ?_, if_neg ?_⟩
      · rw [hfn, hring] at hy
        exact hy
      · rintro ⟨hsame, hnone⟩
        refine hkeep ?_ (Option.isNone_iff_eq_none.mp hnone)
        rw [ItemRef.mk.injEq]
        exact ⟨hfn, hring, hslot.symm.trans hsame⟩
    · rw [SMap.get_put_ne _ _ _ _ _ hring]
      rw [hfn] at hy
      exact hy
  · have hstand : (s.finish j a b).fn i.fn = s.fn i.fn := by
      by_cases hne : i.fn = j.fn
      · have hge : ¬ j.fn < 34 := fun hlt => hfn ⟨hne, hne ▸ hlt⟩
        rw [State.finish, State.setFn, if_neg hge]
      · exact State.fn_setFn_ne _ _ _ _ hne
    rw [State.ring, hstand]
    exact hy

/-- An item waits on when another one is finished. -/
theorem State.waits_finish {s : State} {i j : ItemRef} {a b : Nat} (hne : i ≠ j) (h : s.waits i) : (s.finish j a b).waits i := by
  obtain ⟨hfn, y, hy, hslot, hnone⟩ := h
  exact ⟨hfn, y, State.mem_items_finish hy hslot fun he => absurd he hne, hslot, hnone⟩

/-- An outcome stands when another item is finished. -/
theorem State.doneWith_finish_done {s : State} {i j : ItemRef} {a b c d : Nat} (h : s.doneWith i a b) :
    (s.finish j c d).doneWith i a b := by
  obtain ⟨y, hy, hslot, hdone⟩ := h
  exact ⟨y, State.mem_items_finish hy hslot fun _ => by rw [hdone]; exact Option.some_ne_none _, hslot, hdone⟩

/-! ## What the plat's vector and its hashes leave -/

@[simp] theorem State.vector_hub (s : State) (k v : Nat) : (s.vector k v).hub = s.hub := by
  unfold State.vector
  dsimp only
  split
  · exact State.setFn_hub _ _ _
  · rfl

@[simp] theorem State.platVec_hub (old s : State) : (State.platVec old s).hub = s.hub := by
  unfold State.platVec
  split
  · rfl
  · exact List.foldlRecOn (motive := fun t : State => t.hub = s.hub) _ _ rfl fun t ht k _ => (State.vector_hub _ _ _).trans ht

@[simp] theorem State.platVec_plat (old s : State) : (State.platVec old s).plat = s.plat := (Noted.refl s).platVec.plat
@[simp] theorem State.platVec_regions (old s : State) : (State.platVec old s).regions = s.regions := by
  rw [show State.platVec old s = _ from (Noted.refl s).platVec]
@[simp] theorem State.platVec_blocks (old s : State) : (State.platVec old s).blocks = s.blocks := by
  rw [show State.platVec old s = _ from (Noted.refl s).platVec]
@[simp] theorem State.platVec_frame (old s : State) : (State.platVec old s).frame = s.frame := by
  rw [show State.platVec old s = _ from (Noted.refl s).platVec]
theorem State.doneWith_platVec {old s : State} {i : ItemRef} {a b : Nat} (h : s.doneWith i a b) :
    (State.platVec old s).doneWith i a b := (PlatStands.refl s).platVec.doneWith h

@[simp] theorem State.finish_hub (s : State) (i : ItemRef) (a b : Nat) : (s.finish i a b).hub = s.hub := State.setFn_hub _ _ _
@[simp] theorem State.finish_plat (s : State) (i : ItemRef) (a b : Nat) : (s.finish i a b).plat = s.plat := State.setFn_plat _ _ _
@[simp] theorem State.finish_regions (s : State) (i : ItemRef) (a b : Nat) : (s.finish i a b).regions = s.regions :=
  State.setFn_regions _ _ _
@[simp] theorem State.finish_blocks (s : State) (i : ItemRef) (a b : Nat) : (s.finish i a b).blocks = s.blocks := State.setFn_blocks _ _ _
@[simp] theorem State.finish_frame (s : State) (i : ItemRef) (a b : Nat) : (s.finish i a b).frame = s.frame := State.setFn_frame _ _ _

/-- A refused item. -/
theorem State.finish_refused {s : State} {i : ItemRef} (code : Nat) (hw : s.waits i) :
    (s.finish i 7 code).doneWith i 7 code ∧ (s.finish i 7 code).plat = s.plat :=
  ⟨State.doneWith_finish hw, s.finish_plat _ _ _⟩

/-- Hub fields read the same where the hub's registers stand. -/
theorem State.rd_of_hub {s t : State} (h : t.hub = s.hub) (f : Field) (i j : Nat := 0) : t.rd f i j = s.rd f i j := by
  rw [State.rd, h, State.rd]

theorem State.bit_of_hub {s t : State} (h : t.hub = s.hub) (f : Field) (i j : Nat := 0) : t.bit f i j = s.bit f i j := by
  rw [State.bit, h, State.bit]

/-- From `s` to `t` only registers of the hub and the free values that are left change. -/
def Shown (s t : State) : Prop := t = { s with hub := t.hub, freeCtr := t.freeCtr }

namespace Shown
variable {z s t : State}

theorem refl (s : State) : Shown s s := rfl
theorem plat (h : Shown s t) : t.plat = s.plat := by rw [show t = _ from h]
theorem regions (h : Shown s t) : t.regions = s.regions := by rw [show t = _ from h]
theorem blocks (h : Shown s t) : t.blocks = s.blocks := by rw [show t = _ from h]
theorem frame (h : Shown s t) : t.frame = s.frame := by rw [show t = _ from h]
theorem fns (h : Shown s t) : t.fns = s.fns := by rw [show t = _ from h]

theorem wr {f : Field} {v i j : Nat} (h : Shown z s) : Shown z (s.wr f v i j) := by
  rw [show s = _ from h]
  rfl

theorem wrHash {f : Field} {w : List Word} (h : Shown z s) : Shown z (s.wrHash f w) :=
  List.foldlRecOn (motive := Shown z) _ _ h fun _ hx _ _ => hx.wr

theorem showArmed (h : Shown z s) : Shown z s.showArmed := h.wr.wr

end Shown

theorem State.rd_wrHash_apart (s : State) (f g : Field) (w : List Word) (i j : Nat)
    (h : (List.range 12).all (fun k => f.hubApart g k 0 i j) = true) : (s.wrHash f w).rd g i j = s.rd g i j :=
  List.foldlRecOn (motive := fun t : State => t.rd g i j = s.rd g i j) _ _ rfl fun _ ht k hk =>
    (State.rd_wr_apart _ _ _ _ _ _ _ _ (List.all_eq_true.mp h k hk)).trans ht

theorem State.bit_wrHash_apart (s : State) (f g : Field) (w : List Word) (i j : Nat)
    (h : (List.range 12).all (fun k => f.hubApart g k 0 i j) = true) : (s.wrHash f w).bit g i j = s.bit g i j :=
  congrArg (· != 0) (s.rd_wrHash_apart f g w i j h)

/-! ## A rejected plat (R310) -/

/-- The registers that show a rejection, before the item completes. -/
def State.showReject (s : State) (l : LoadSt) (r : Rej) : State :=
  let s := (s.set1 PLAT_STAT_REJECT).wr PLAT_STAT_CODE r.code
  let s := ((s.wr PLAT_ERR_SECTION r.sec).wr PLAT_ERR_RECORD r.record).wr PLAT_ERR_X_DETAIL r.detail
  let s := if r.code = 0x1B then s.wr CDV_CNT_XFAIL (min (s.rd CDV_CNT_XFAIL + 1) 0xFFFF) else s
  if l.cut then s.wr CUT_STAT_STATE (if s.plat.shadow.isSome && !s.bit CUT_STAT_REVOK then 4 else 0)
  else s.wr PLAT_STAT_STATE (if s.plat.active.isSome then 4 else 0)

theorem State.rejectPlat_eq (s : State) (l : LoadSt) (r : Rej) : s.rejectPlat l r =
    { (s.showReject l r).finish l.item 7 r.code with plat := { (s.showReject l r).plat with load := none } } := rfl

theorem State.showReject_only (s : State) (l : LoadSt) (r : Rej) : Shown s (s.showReject l r) := by
  unfold State.showReject
  extract_lets s1 s2 s3
  have h2 : Shown s s2 := (Shown.refl s).wr.wr.wr.wr.wr
  clear_value s2
  have h3 : Shown s s3 := by
    unfold s3
    split
    · exact h2.wr
    · exact h2
  clear_value s3
  split
  · exact h3.wr
  · exact h3.wr

theorem State.showReject_shows (s : State) (l : LoadSt) (r : Rej) :
    (s.showReject l r).bit PLAT_STAT_REJECT = true ∧ (s.showReject l r).rd PLAT_STAT_CODE = r.code % 256 := by
  unfold State.showReject
  extract_lets s1 s2 s3
  have h1 : s1.bit PLAT_STAT_REJECT = true ∧ s1.rd PLAT_STAT_CODE = r.code % 256 := by
    refine ⟨?_, State.rd_wr_self _ _ _ 0 0 (by decide)⟩
    rw [State.bit_wr_apart _ _ _ _ 0 0 0 0 (by decide)]
    exact s.bit_wr_self PLAT_STAT_REJECT 1 0 0 (by decide)
  have h2 : s2.bit PLAT_STAT_REJECT = true ∧ s2.rd PLAT_STAT_CODE = r.code % 256 := by
    simpa (disch := decide) only [s2, State.bit_wr_apart, State.rd_wr_apart] using h1
  have h3 : s3.bit PLAT_STAT_REJECT = true ∧ s3.rd PLAT_STAT_CODE = r.code % 256 := by
    unfold s3
    split
    · simpa (disch := decide) only [State.bit_wr_apart, State.rd_wr_apart] using h2
    · exact h2
  split <;> simpa (disch := decide) only [State.bit_wr_apart, State.rd_wr_apart] using h3

/-- From `s` to `t` the load `l` is rejected with `r`, and nothing else of the plat, no region, no block and no frame has changed. -/
structure Rejected (s : State) (l : LoadSt) (r : Rej) (t : State) : Prop where
  flag : t.bit PLAT_STAT_REJECT = true
  code : t.rd PLAT_STAT_CODE = r.code % 256
  done : s.waits l.item → t.doneWith l.item 7 r.code
  plat : t.plat = { s.plat with load := none }
  regions : t.regions = s.regions
  blocks : t.blocks = s.blocks
  frame : t.frame = s.frame

theorem State.rejectPlat_rejected (s : State) (l : LoadSt) (r : Rej) : Rejected s l r (s.rejectPlat l r) := by
  have honly := s.showReject_only l r
  obtain ⟨hflag, hcode⟩ := s.showReject_shows l r
  have hhub : (s.rejectPlat l r).hub = (s.showReject l r).hub := State.finish_hub _ _ _ _
  refine ⟨(State.bit_of_hub hhub _).trans hflag, (State.rd_of_hub hhub _).trans hcode, fun hw => ?_, ?_, ?_, ?_, ?_⟩
  · exact State.doneWith_of_fns (s := (s.showReject l r).finish l.item 7 r.code) rfl
      (State.doneWith_finish (State.waits_of_fns honly.fns hw))
  · rw [s.rejectPlat_eq, honly.plat]
  · exact (State.finish_regions _ _ _ _).trans honly.regions
  · exact (State.finish_blocks _ _ _ _).trans honly.blocks
  · exact (State.finish_frame _ _ _ _).trans honly.frame

theorem Rejected.platVec {s t old : State} {l : LoadSt} {r : Rej} (h : Rejected s l r t) : Rejected s l r (State.platVec old t) where
  flag := (State.bit_of_hub (State.platVec_hub _ _) _).trans h.flag
  code := (State.rd_of_hub (State.platVec_hub _ _) _).trans h.code
  done hw := State.doneWith_platVec (h.done hw)
  plat := (State.platVec_plat _ _).trans h.plat
  regions := (State.platVec_regions _ _).trans h.regions
  blocks := (State.platVec_blocks _ _).trans h.blocks
  frame := (State.platVec_frame _ _).trans h.frame

/-! ## Arming begins (R320 to R322) -/

/-- The cut-over `l` from `o` to `p` arms for frame `f`. -/
structure Arms (s : State) (o p : Plat) (f : Nat) (t : State) : Prop where
  named : t.plat.cutF = some f
  shadow : t.plat.shadow = some p
  active : t.plat.active = s.plat.active
  need : t.rd CUT_NEED_RGN = affectedRegions o p % 2 ^ 24
  state : t.rd CUT_STAT_STATE = (if t.bit CUT_ACK_ARMED then 3 else 2)
  revok : t.bit CUT_STAT_REVOK = false
  blocks : t.blocks = s.blocks

theorem Arms.platVec {s t old : State} {o p : Plat} {f : Nat} (h : Arms s o p f t) : Arms s o p f (State.platVec old t) where
  named := (congrArg PlatSt.cutF (State.platVec_plat _ _)).trans h.named
  shadow := (congrArg PlatSt.shadow (State.platVec_plat _ _)).trans h.shadow
  active := (congrArg PlatSt.active (State.platVec_plat _ _)).trans h.active
  need := (State.rd_of_hub (State.platVec_hub _ _) _).trans h.need
  state := by
    rw [State.rd_of_hub (State.platVec_hub _ _), State.bit_of_hub (State.platVec_hub _ _)]
    exact h.state
  revok := (State.bit_of_hub (State.platVec_hub _ _) _).trans h.revok
  blocks := (State.platVec_blocks _ _).trans h.blocks

/-- The plat's own state once F is named. -/
def State.nameShadow (s : State) (l : LoadSt) (p : Plat) (f : Nat) : State :=
  { s with plat := { s.plat with
      load := some { l with plat := some p, f := f, fences := s.fenceCounts }, shadow := some p, cutF := some f, cutShow := f } }

/-- Naming F writes the plat's own state; the rest is registers. -/
theorem State.nameF_only (s : State) (l : LoadSt) (o p : Plat) (f : Nat) : Shown (s.nameShadow l p f) (s.nameF l o p f) :=
  (Shown.refl (s.nameShadow l p f)).wr.wr.wr.wr.wr.wr.wrHash

/-- The registers once F is named: CUT_NEED names the affected regions, and the last cut-over can no longer be reverted. -/
theorem State.nameF_regs (s : State) (l : LoadSt) (o p : Plat) (f : Nat) :
    (s.nameF l o p f).rd CUT_NEED_RGN = affectedRegions o p % 2 ^ 24 ∧ (s.nameF l o p f).bit CUT_STAT_REVOK = false := by
  unfold State.nameF
  simp (disch := decide) only [State.rd_wrHash_apart, State.bit_wrHash_apart, State.rd_wr_apart, State.bit_wr_apart,
    State.rd_wr_self, State.bit_wr_self]
  decide

/-- Naming F, with what CUT_ACK.RGN shows then. -/
theorem State.nameF_arms (s : State) (l : LoadSt) (o p : Plat) (f ack : Nat) :
    Arms s o p f ((s.nameF l o p f).wr CUT_ACK_RGN ack).showArmed := by
  obtain ⟨hneed, hrevok⟩ := s.nameF_regs l o p f
  have honly : Shown (s.nameShadow l p f) ((s.nameF l o p f).wr CUT_ACK_RGN ack).showArmed := (s.nameF_only l o p f).wr.showArmed
  refine ⟨congrArg PlatSt.cutF honly.plat, congrArg PlatSt.shadow honly.plat, honly.plat ▸ rfl, ?_,
    State.showArmed_state _, ?_, honly.blocks⟩
  · unfold State.showArmed
    simpa (disch := decide) only [State.rd_wr_apart] using hneed
  · unfold State.showArmed
    simpa (disch := decide) only [State.bit_wr_apart] using hrevok

theorem Arms.of_parts {s u t : State} {o p : Plat} {f : Nat} (h : Arms u o p f t) (hactive : u.plat.active = s.plat.active)
    (hblocks : u.blocks = s.blocks) : Arms s o p f t :=
  { h with active := h.active.trans hactive, blocks := h.blocks.trans hblocks }

theorem State.clearShadow_blocks (s : State) : s.clearShadow.blocks = s.blocks :=
  List.foldlRecOn (motive := fun t : State => t.blocks = s.blocks) _ _ rfl fun _ ht _ _ => (State.setRegion_blocks _ _ _).trans ht

/-- F and the state in which it is named: the command's F, or the MC's own. -/
def State.pickF (s : State) (l : LoadSt) : Nat × State := if l.f = 0 then s.ownF l.revert else (l.f, s)

/-- Picking F takes at most a free value. -/
theorem State.pickF_only (s : State) (l : LoadSt) : Shown s (s.pickF l).2 := by
  unfold State.pickF State.ownF
  split
  · split <;> rfl
  · rfl

theorem State.startArming_arms (s : State) (l : LoadSt) (o p : Plat) : Arms s o p (s.pickF l).1 (s.startArming l o p) := by
  have honly := s.pickF_only l
  have hactive : (s.pickF l).2.plat.active = s.plat.active := congrArg PlatSt.active honly.plat
  unfold State.startArming
  extract_lets held x ack
  split
  · exact (x.2.nameF_arms l o p x.1 ack).of_parts hactive honly.blocks
  · refine (x.2.clearShadow.nameF_arms l o p x.1 0).of_parts ?_ (x.2.clearShadow_blocks.trans honly.blocks)
    rw [x.2.clearShadow_parts.2.2]
    exact hactive

/-- A cut-over from `o` to `p` after the check of R319 with the verdict `rej`: the load is rejected, or arms. -/
def State.judgeCut (s : State) (l : LoadSt) (o p : Plat) (rej : Option Rej) : State :=
  match rej with
  | some r => s.rejectPlat l r
  | none => s.startArming l o p

theorem State.judgeCut_rejected (s : State) (l : LoadSt) (o p : Plat) (r : Rej) : Rejected s l r (s.judgeCut l o p (some r)) :=
  s.rejectPlat_rejected l r

theorem State.judgeCut_arms (s : State) (l : LoadSt) (o p : Plat) : Arms s o p (s.pickF l).1 (s.judgeCut l o p none) :=
  s.startArming_arms l o p

theorem State.pickF_named (s : State) {l : LoadSt} (h : l.f ≠ 0) : (s.pickF l).1 = l.f := by rw [State.pickF, if_neg h]

theorem State.pickF_revert (s : State) {l : LoadSt} (h : l.f = 0) (hrev : l.revert = true) : (s.pickF l).1 = s.frame.num + 2 := by
  rw [State.pickF, if_pos h, State.ownF, if_pos hrev]

/-- The MC's own F is at least two frames ahead (R321, R329). -/
theorem State.le_pickF (s : State) {l : LoadSt} (h : l.f = 0) : s.frame.num + 2 ≤ (s.pickF l).1 := by
  rw [State.pickF, if_pos h, State.ownF]
  split
  · exact Nat.le_refl _
  · dsimp only
    omega

/-! ## The check of an image (R310) -/

/-- The state that the check of an image leaves: a translation that completed is counted and takes its free values. -/
def State.afterCheck (s : State) (image : ImageRead) : State :=
  if (s.checkImage image).2 then { s.wr CDV_CNT_XLATE (min (s.rd CDV_CNT_XLATE + 1) 0xFFFF) with freeCtr := s.freeCtr + 12 } else s

theorem State.afterCheck_only (s : State) (image : ImageRead) : Shown s (s.afterCheck image) := by
  unfold State.afterCheck
  split <;> rfl

/-- A rejection after the check is one of the state before it. -/
theorem Rejected.of_afterCheck {s t : State} {image : ImageRead} {l : LoadSt} {r : Rej} (h : Rejected (s.afterCheck image) l r t) :
    Rejected s l r t := by
  have honly := s.afterCheck_only image
  exact ⟨h.flag, h.code, fun hw => h.done (State.waits_of_fns honly.fns hw), h.plat.trans (by rw [honly.plat]),
    h.regions.trans honly.regions, h.blocks.trans honly.blocks, h.frame.trans honly.frame⟩

section Check
variable {s : State} {image : ImageRead} {l : LoadSt} (hload : s.plat.load = some l)
include hload

theorem exec_platImageReadDone_checked (h : l.plat.isSome = true) : exec (.platImageReadDone image) s = .next s := by
  show execPlatImageReadDone image s = _
  rw [execPlatImageReadDone, hload]
  exact if_pos h

variable (hwait : l.plat = none)
include hwait

/-- An image that R310 rejects. -/
theorem exec_platImageReadDone_bad {r : Rej} (h : (s.checkImage image).1 = .inr r) :
    exec (.platImageReadDone image) s = .next (State.platVec s ((s.afterCheck image).rejectPlat l r)) := by
  show execPlatImageReadDone image s = _
  rw [execPlatImageReadDone, hload]
  dsimp only
  rw [if_neg (by simp [hwait]), h]
  rfl

variable {p : Plat} (hgood : (s.checkImage image).1 = .inl p)
include hgood

theorem exec_platImageReadDone_load (hcut : l.cut = false) :
    exec (.platImageReadDone image) s = .next (State.platVec s { (s.afterCheck image).wr PLAT_STAT_STATE 3 with
      plat := { (s.afterCheck image).plat with load := some { l with plat := some p } } }) := by
  show execPlatImageReadDone image s = _
  rw [execPlatImageReadDone, hload]
  dsimp only
  rw [if_neg (by simp [hwait]), hgood]
  dsimp only
  rw [if_pos (by rw [hcut]; rfl)]
  rfl

variable (hcut : l.cut = true)
include hcut

/-- A cut-over's plat without an outgoing plat (log 18). -/
theorem exec_platImageReadDone_inactive (hactive : s.plat.active = none) :
    exec (.platImageReadDone image) s = .next (State.platVec s ((s.afterCheck image).rejectPlat l { code := 0x20 })) := by
  have hout : (s.afterCheck image).plat.active = none := by rw [(s.afterCheck_only image).plat, hactive]
  show execPlatImageReadDone image s = _
  rw [execPlatImageReadDone, hload]
  dsimp only
  rw [if_neg (by simp [hwait]), hgood]
  dsimp only
  rw [if_neg (by rw [hcut]; decide)]
  change (match (s.afterCheck image).plat.active with | none => _ | some o => _) = _
  rw [hout]
  rfl

/-- A cut-over's plat is judged against the outgoing one (R319). -/
theorem exec_platImageReadDone_cut {o : Plat} (hactive : s.plat.active = some o) :
    exec (.platImageReadDone image) s = .next (State.platVec s
      ((s.afterCheck image).judgeCut l o p
        (orRej ((s.afterCheck image).cutRej o p l.partners false) ((s.afterCheck image).cutFabricRej o p)))) := by
  have hout : (s.afterCheck image).plat.active = some o := by rw [(s.afterCheck_only image).plat, hactive]
  show execPlatImageReadDone image s = _
  rw [execPlatImageReadDone, hload]
  dsimp only
  rw [if_neg (by simp [hwait]), hgood]
  dsimp only
  rw [if_neg (by rw [hcut]; decide)]
  change (match (s.afterCheck image).plat.active with | none => _ | some o => _) = _
  rw [hout]
  dsimp only
  change (match orRej ((s.afterCheck image).cutRej o p l.partners false) ((s.afterCheck image).cutFabricRej o p) with
    | some r => _ | none => _) = _
  cases orRej ((s.afterCheck image).cutRej o p l.partners false) ((s.afterCheck image).cutFabricRej o p) <;> rfl

end Check

/-! ## What the seal writes (R306, R315) -/

/-- The hub's part of a plat: frame registers, parcel definitions, lane assignment. -/
def State.installHub (s : State) (p : Plat) : State :=
  let s := (s.wr FRM_LEN_LEN p.frmLen).wr FRM_RES_RES_Q p.frmRes
  let s := (List.range 15).foldl (fun (s : State) i =>
    { s with hub := { s.hub with hub := Regs.putRws .hub s.hub.hub (0x4004 + 4 * i) (lookupD 0 p.pclDef (i + 1)) } }) s
  (List.range 72).foldl (fun (s : State) o =>
    { s with hub := { s.hub with hub := Regs.putRws .hub s.hub.hub (0x3000 + 4 * o) (lookupD (laneZero o) p.laneOct o) } }) s

/-- What a plat writes in a region that is not lost. -/
def Region.load (p : Plat) (n : Nat) (g : Region) : Region :=
  ((g.install (p.regionSec n) ((0x204, lookupD 0 p.lock n) :: p.landRegs n)).calShow n 0).calShow n 1

/-- The part of region `n`. -/
def State.installRegion (p : Plat) (s : State) (n : Nat) : State :=
  if (s.region n).lost then s else s.setRegion n ((s.region n).load p n)

/-- The part of block `k`. -/
def State.installBlock (p : Plat) (old : Option Plat) (s : State) (k : Nat) : State :=
  if (s.region (regionOf k)).lost then s else s.setBlock k (p.installBlock old k (s.block k))

theorem State.install_eq (s : State) (p : Plat) (old : Option Plat) : s.install p old =
    allBlocks.foldl (State.installBlock p old) ((List.range 24).foldl (State.installRegion p) (s.installHub p)) := rfl

/-- From `s` to `t` the plat's own state, the functions and the frame registers stand. -/
structure Installs (s t : State) : Prop where
  plat : t.plat = s.plat
  fns : t.fns = s.fns
  frame : t.hub.frame = s.hub.frame

namespace Installs

theorem refl (s : State) : Installs s s := ⟨rfl, rfl, rfl⟩

theorem trans {s t u : State} (h : Installs s t) (k : Installs t u) : Installs s u :=
  ⟨k.plat.trans h.plat, k.fns.trans h.fns, k.frame.trans h.frame⟩

theorem foldl {α : Type} {f : State → α → State} (hf : ∀ x a, Installs x (f x a)) (l : List α) (s : State) :
    Installs s (l.foldl f s) :=
  List.foldlRecOn (motive := Installs s) _ _ (refl s) fun x hx a _ => hx.trans (hf x a)

theorem installRegion (p : Plat) (s : State) (n : Nat) : Installs s (s.installRegion p n) := by
  unfold State.installRegion
  split
  · exact refl s
  · exact ⟨State.setRegion_plat _ _ _, State.setRegion_fns _ _ _, congrArg HubRegs.frame (State.setRegion_hub _ _ _)⟩

theorem installBlock (p : Plat) (old : Option Plat) (s : State) (k : Nat) : Installs s (s.installBlock p old k) := by
  unfold State.installBlock
  split
  · exact refl s
  · exact ⟨State.setBlock_plat _ _ _, State.setBlock_fns _ _ _, congrArg HubRegs.frame (State.setBlock_hub _ _ _)⟩

theorem installHub (s : State) (p : Plat) : Installs ((s.wr FRM_LEN_LEN p.frmLen).wr FRM_RES_RES_Q p.frmRes) (s.installHub p) := by
  unfold State.installHub
  refine (foldl ?_ _ _).trans (foldl ?_ _ _)
  · exact fun _ _ => ⟨rfl, rfl, rfl⟩
  · exact fun _ _ => ⟨rfl, rfl, rfl⟩

/-- A plat is written: beside FRM_LEN and FRM_RES, the registers of the frame stand. -/
theorem install (s : State) (p : Plat) (old : Option Plat) :
    Installs ((s.wr FRM_LEN_LEN p.frmLen).wr FRM_RES_RES_Q p.frmRes) (s.install p old) := by
  rw [s.install_eq]
  exact ((installHub s p).trans (foldl (installRegion p) _ _)).trans (foldl (installBlock p old) _ _)

/-- Fields of the frame registers read the same. -/
theorem rd {s t : State} (h : Installs s t) {f : Field} (hu : f.unit = .frame) : t.rd f 0 = s.rd f 0 := by
  rw [State.rd, State.rd, hu]
  exact congrArg (fun r : Regs => r.rd f 0 0) h.frame

end Installs

theorem State.installHub_regions (s : State) (p : Plat) : (s.installHub p).regions = s.regions := by
  have hfold {f : State → Nat → State} (hf : ∀ x a, (f x a).regions = x.regions) (l : List Nat) (t : State) :
      (l.foldl f t).regions = t.regions :=
    List.foldlRecOn (motive := fun x : State => x.regions = t.regions) _ _ rfl fun x hx a _ => (hf x a).trans hx
  unfold State.installHub
  refine (hfold ?_ _ _).trans (hfold ?_ _ _)
  · exact fun _ _ => rfl
  · exact fun _ _ => rfl

theorem State.installBlocks_regions (p : Plat) (old : Option Plat) (l : List Nat) (s : State) :
    (l.foldl (State.installBlock p old) s).regions = s.regions :=
  List.foldlRecOn (motive := fun x : State => x.regions = s.regions) _ _ rfl fun x hx k _ => by
    refine Eq.trans ?_ hx
    unfold State.installBlock
    split
    · rfl
    · exact State.setBlock_regions _ _ _

/-- A fold over a list of regions without repetition writes each that is not lost once. -/
theorem State.installRegions_region (p : Plat) {l : List Nat} (hl : l.Nodup) (s : State) {m : Nat} (hm : m < 24) :
    (l.foldl (State.installRegion p) s).region m =
      if m ∈ l ∧ (s.region m).lost = false then (s.region m).load p m else s.region m := by
  induction l generalizing s with
  | nil => simp
  | cons n l ih =>
    obtain ⟨hn, hl⟩ := List.nodup_cons.mp hl
    rw [List.foldl_cons, ih hl]
    by_cases h : m = n
    · subst h
      rw [if_neg (fun hmem => hn hmem.1), State.installRegion]
      cases hlost : (s.region m).lost with
      | true => simp
      | false => simp [State.region_setRegion_self _ _ _ hm]
    · have hstand : (s.installRegion p n).region m = s.region m := by
        unfold State.installRegion
        split
        · rfl
        · exact State.region_setRegion_ne _ _ _ _ h
      rw [hstand]
      simp [h]

/-- A region after a plat is written: a lost one is left (18 R491). -/
theorem State.install_region (s : State) (p : Plat) (old : Option Plat) {n : Nat} (hn : n < 24) :
    (s.install p old).region n = if (s.region n).lost then s.region n else (s.region n).load p n := by
  have hhub : (s.installHub p).region n = s.region n := by rw [State.region, s.installHub_regions, State.region]
  have hblocks : (s.install p old).region n = ((List.range 24).foldl (State.installRegion p) (s.installHub p)).region n := by
    rw [s.install_eq, State.region, State.installBlocks_regions, State.region]
  rw [hblocks, State.installRegions_region p List.nodup_range _ hn, hhub]
  cases hlost : (s.region n).lost <;> simp [hn]

/-- Showing a calibration changes registers alone. -/
theorem Region.calShow_only (g : Region) (n slot : Nat) : g.calShow n slot = { g with regs := (g.calShow n slot).regs } := by
  unfold Region.calShow
  split <;> rfl

/-- What a plat writes in a region: beside registers and stakes its edge entries, beat schedules and hints; the memories stand. -/
theorem Region.load_only (p : Plat) (n : Nat) (g : Region) : (g.load p n).edge = (p.regionSec n).edge ∧
    (g.load p n).variants = (p.regionSec n).variants ∧ (g.load p n).hints = (p.regionSec n).hints ∧ (g.load p n).store = g.store ∧
    (g.load p n).stack = g.stack := by
  unfold Region.load
  rw [Region.calShow_only _ n 1, Region.calShow_only _ n 0]
  exact ⟨rfl, rfl, rfl, rfl, rfl⟩

/-! ## The seal (R315) -/

/-- The state with `p` sealed, before the item completes. -/
def State.sealPlat (s : State) (p : Plat) : State :=
  let t := ((s.install p none).set1 PLAT_STAT_SEALED).wrHash PLAT_HASH_A_HASH p.hash
  let t := (t.wrHash PLAT_HASH_S_HASH []).wr CUT_STAT_REVOK 0
  let t := t.wr CUT_STAT_STATE 0
  t.wr PLAT_CNT_LOADS (min (t.rd PLAT_CNT_LOADS + 1) 0xFFFF)

theorem State.sealPlat_only (s : State) (p : Plat) : Shown (s.install p none) (s.sealPlat p) :=
  (Shown.refl (s.install p none)).wr.wrHash.wrHash.wr.wr.wr

theorem State.sealPlat_sealed (s : State) (p : Plat) : (s.sealPlat p).bit PLAT_STAT_SEALED = true := by
  unfold State.sealPlat State.set1
  simp (disch := decide) only [State.bit_wr_apart, State.bit_wrHash_apart, State.bit_wr_self]
  rfl

/-- The frame registers are those that the plat gives. -/
theorem State.sealPlat_frame (s : State) (p : Plat) :
    (s.sealPlat p).rd FRM_LEN_LEN = p.frmLen % 2 ^ 19 ∧ (s.sealPlat p).rd FRM_RES_RES_Q = p.frmRes % 2 ^ 9 := by
  unfold State.sealPlat State.set1
  simp (disch := decide) only [State.rd_wr_apart, State.rd_wrHash_apart, (Installs.install s p none).rd, State.rd_wr_self, and_self]

/-- The state with the load `l` of `p` sealed and its item complete. -/
def State.sealLoad (s : State) (l : LoadSt) (p : Plat) : State :=
  { (s.sealPlat p).finish l.item 0 0 with
    plat := { ((s.sealPlat p).finish l.item 0 0).plat with load := some { l with sealed := true }, shadow := none } }

theorem State.sealLoad_hub (s : State) (l : LoadSt) (p : Plat) : (s.sealLoad l p).hub = (s.sealPlat p).hub := State.finish_hub _ _ _ _

theorem State.sealLoad_plat (s : State) (l : LoadSt) (p : Plat) :
    (s.sealLoad l p).plat = { s.plat with load := some { l with sealed := true }, shadow := none } := by
  have hplat : ((s.sealPlat p).finish l.item 0 0).plat = s.plat :=
    (State.finish_plat _ _ _ _).trans ((s.sealPlat_only p).plat.trans (Installs.install s p none).plat)
  exact congrArg (fun x : PlatSt => { x with load := some { l with sealed := true }, shadow := none }) hplat

theorem State.sealLoad_done {s : State} {l : LoadSt} (p : Plat) (hw : s.waits l.item) : (s.sealLoad l p).doneWith l.item 0 0 :=
  State.doneWith_of_fns (s := (s.sealPlat p).finish l.item 0 0) rfl (State.doneWith_finish
    (State.waits_of_fns ((s.sealPlat_only p).fns.trans (Installs.install s p none).fns) hw))

theorem State.sealLoad_region (s : State) (l : LoadSt) (p : Plat) {n : Nat} (hn : n < 24) :
    (s.sealLoad l p).region n = if (s.region n).lost then s.region n else (s.region n).load p n := by
  have hregions : (s.sealLoad l p).regions = (s.install p none).regions :=
    (State.finish_regions _ _ _ _).trans (s.sealPlat_only p).regions
  rw [← s.install_region p none hn, State.region, hregions, State.region]

section Seal
variable {s : State} {l : LoadSt} (hload : s.plat.load = some l)
include hload

theorem exec_platSeal_idle (h : l.plat = none ∨ l.cut = true ∨ l.sealed = true) : exec .platSeal s = .next s := by
  show execPlatSeal s = _
  rw [execPlatSeal, hload]
  dsimp only
  split
  · rfl
  · next p hp =>
    have hover : l.cut = true ∨ l.sealed = true := h.resolve_left (by simp [hp])
    exact if_pos (by simpa using hover)

theorem exec_platSeal_checked {p : Plat} (hp : l.plat = some p) (hcut : l.cut = false) (hopen : l.sealed = false) :
    exec .platSeal s = .next (State.platVec s (s.sealLoad l p)) := by
  show execPlatSeal s = _
  rw [execPlatSeal, hload]
  dsimp only
  split
  · next hnone => cases hp.symm.trans hnone
  · next q hq =>
    cases hp.symm.trans hq
    exact if_neg (by simp [hcut, hopen])

end Seal

/-! ## A load and an unload begin (R315, R318) -/

section Begin
variable {fn ring slot : Nat} {s : State} {x : Item}

theorem exec_platLoad_refused (hrun : s.running fn ring slot 4 = some x) (h : s.anyActive = true ∨ s.platBusy = true) :
    exec (.platLoad fn ring slot) s = .next (s.finish ⟨fn, ring, slot⟩ 7 0x21) := by
  show execPlatLoad fn ring slot s = _
  rw [execPlatLoad, hrun]
  exact if_pos (by simpa using h)

theorem exec_platLoad_starts (hrun : s.running fn ring slot 4 = some x) (hidle : s.anyActive = false) (hbusy : s.platBusy = false) :
    exec (.platLoad fn ring slot) s = .next (State.platVec s
      { s.wr PLAT_STAT_STATE 1 with plat := { s.plat with load := some { item := ⟨fn, ring, slot⟩ } } }) := by
  show execPlatLoad fn ring slot s = _
  rw [execPlatLoad, hrun]
  exact if_neg (by simp [hidle, hbusy])

theorem exec_platUnload_refused (hrun : s.running fn ring slot 6 = some x) (h : s.anyActive = true) :
    exec (.platUnload fn ring slot) s = .next (s.finish ⟨fn, ring, slot⟩ 7 0x21) := by
  show execPlatUnload fn ring slot s = _
  rw [execPlatUnload, hrun]
  exact if_pos h

/-- An unload waits for the tick once. -/
theorem exec_platUnload_waits (hrun : s.running fn ring slot 6 = some x) (hidle : s.anyActive = false) :
    exec (.platUnload fn ring slot) s = if s.plat.unload.contains ⟨fn, ring, slot⟩ then .next s
      else .next { s with plat := { s.plat with unload := s.plat.unload ++ [⟨fn, ring, slot⟩] } } := by
  show execPlatUnload fn ring slot s = _
  rw [execPlatUnload, hrun]
  exact if_neg (by simp [hidle])

end Begin

/-- Settles O41: a refusal finishes the item alone, the check ends in a rejection (`Rejected`), a checked plat or an arming cut-over
(`Arms`), and the seal writes what `State.install` writes. -/
theorem platLoads : Obligations.PlatLoads := by
  refine ⟨?begins, fun image s u (hu : u = s.afterCheck image) => ⟨fun hnone => ?noRead, fun l hload =>
    ⟨exec_platImageReadDone_checked hload, fun r hwait hw hrej => ?rejected, fun p hwait hgood =>
      ⟨fun hcut => ?loaded, fun o hcut ho hok => ?arms⟩⟩⟩,
    fun s => ⟨fun hnone => ?noSeal, fun l hload => ⟨exec_platSeal_idle hload, fun p hp hcut hopen hw => ?seals⟩⟩⟩
  case begins =>
    rintro fn ring slot s i hfn rfl
    refine ⟨fun hnone => ?idleLoad, fun hnone => ?idleUnload, fun x hrun => ⟨fun hno => ?refused, fun hidle hbusy => ?starts⟩,
      fun x hrun => ⟨fun hactive => ?unloadRefused, fun hidle hin => ?unloadWaits, fun hidle hout => ?unloads⟩⟩
    case idleLoad =>
      show execPlatLoad fn ring slot s = _
      rw [execPlatLoad, hnone]
    case idleUnload =>
      show execPlatUnload fn ring slot s = _
      rw [execPlatUnload, hnone]
    case refused =>
      exact ⟨_, exec_platLoad_refused hrun hno, State.doneWith_finish (State.waits_of_running hfn hrun), State.finish_plat _ _ _ _,
        State.finish_regions _ _ _ _, State.finish_hub _ _ _ _⟩
    case starts =>
      refine ⟨_, exec_platLoad_starts hrun hidle hbusy, ?_, State.platVec_plat _ _, State.platVec_regions _ _⟩
      rw [State.rd_of_hub (State.platVec_hub _ _)]
      exact s.rd_wr_self PLAT_STAT_STATE 1 0 0 (by decide)
    case unloadRefused =>
      exact ⟨_, exec_platUnload_refused hrun hactive, State.finish_refused _ (State.waits_of_running hfn hrun)⟩
    case unloadWaits => exact (exec_platUnload_waits hrun hidle).trans (if_pos hin)
    case unloads => exact ⟨_, (exec_platUnload_waits hrun hidle).trans (if_neg (by rw [hout]; decide)), rfl⟩
  case noRead =>
    show execPlatImageReadDone image s = _
    rw [execPlatImageReadDone, hnone]
  case rejected =>
    obtain ⟨t, hexec, ht⟩ : ∃ t, exec (.platImageReadDone image) s = .next t ∧ Rejected s l r t := by
      have hreject : Rejected s l r (State.platVec s ((s.afterCheck image).rejectPlat l r)) :=
        ((s.afterCheck image).rejectPlat_rejected l r).platVec.of_afterCheck
      refine ⟨_, ?_, hreject⟩
      rcases hrej with hbad | ⟨p, hgood, hcut, ⟨hactive, rfl⟩ | ⟨o, ho, hr⟩⟩
      · exact exec_platImageReadDone_bad hload hwait hbad
      · exact exec_platImageReadDone_inactive hload hwait hgood hcut hactive
      · rw [exec_platImageReadDone_cut hload hwait hgood hcut ho, ← hu, hr]
        rfl
    exact ⟨t, hexec, ht.flag, ht.code, ht.done hw, ht.plat, ht.regions, ht.blocks, ht.frame⟩
  case loaded =>
    have honly := s.afterCheck_only image
    refine ⟨_, exec_platImageReadDone_load hload hwait hgood hcut, ?_, ?_, ?_, ?_⟩
    · rw [State.rd_of_hub (State.platVec_hub _ _)]
      exact (s.afterCheck image).rd_wr_self PLAT_STAT_STATE 3 0 0 (by decide)
    · rw [State.platVec_plat, honly.plat]
    · exact (State.platVec_regions _ _).trans honly.regions
    · exact (State.platVec_blocks _ _).trans honly.blocks
  case arms =>
    have honly := s.afterCheck_only image
    have hnext : exec (.platImageReadDone image) s = .next (State.platVec s ((s.afterCheck image).judgeCut l o p none)) := by
      rw [exec_platImageReadDone_cut hload hwait hgood hcut ho, ← hu, hok]
    obtain ⟨hnamed, hshadow, hactive, hneed, hstate, -, hblocks⟩ := ((s.afterCheck image).judgeCut_arms l o p).platVec (old := s)
    exact ⟨_, _, hnext, hnamed, fun hgiven => State.pickF_named _ hgiven, fun hzero => honly.frame ▸ State.le_pickF _ hzero, hshadow,
      hactive.trans ((congrArg PlatSt.active honly.plat).trans ho), hneed, hstate, hblocks.trans honly.blocks⟩
  case noSeal =>
    show execPlatSeal s = _
    rw [execPlatSeal, hnone]
  case seals =>
    have hhub := (State.platVec_hub s (s.sealLoad l p)).trans (s.sealLoad_hub l p)
    obtain ⟨hlen, hres⟩ := s.sealPlat_frame p
    refine ⟨_, exec_platSeal_checked hload hp hcut hopen, (State.bit_of_hub hhub _).trans (s.sealPlat_sealed p),
      (State.rd_of_hub hhub _).trans hlen, (State.rd_of_hub hhub _).trans hres, State.doneWith_platVec (State.sealLoad_done p hw),
      (State.platVec_plat _ _).trans (s.sealLoad_plat l p), fun n hn => ?_⟩
    rw [(Noted.refl _).platVec.region n, s.sealLoad_region l p hn]
    refine ⟨fun hlost => if_pos hlost, fun hlive => ?_⟩
    rw [if_neg (by rw [hlive]; decide)]
    exact Region.load_only p n _

/-! ## A cut-over begins or is cancelled (R319, R322, R326, R329) -/

/-- The cut-over that an item asks for. -/
def Item.cutLoad (x : Item) (i : ItemRef) : LoadSt :=
  { item := i, cut := true, f := x.num 32 6, partners := x.num 40 3, revert := x.num 28 1 % 2 == 1 }

section Cutover
variable {fn ring slot : Nat} {s : State} {x : Item} (hrun : s.running fn ring slot 5 = some x)
include hrun

theorem exec_platCutover_busy (hbusy : s.platBusy = true) :
    exec (.platCutover fn ring slot) s = .next (s.finish ⟨fn, ring, slot⟩ 7 0x21) := by
  show execPlatCutover fn ring slot s = _
  rw [execPlatCutover, hrun]
  exact if_pos hbusy

variable (hbusy : s.platBusy = false)
include hbusy

theorem exec_platCutover_late (hf : x.num 32 6 ≠ 0) (hlate : x.num 32 6 ≤ s.frame.num + 1) :
    exec (.platCutover fn ring slot) s = .next (s.finish ⟨fn, ring, slot⟩ 7 0x23) := by
  show execPlatCutover fn ring slot s = _
  rw [execPlatCutover, hrun]
  dsimp only
  rw [if_neg (by rw [hbusy]; decide), if_pos ⟨hf, hlate⟩]

variable (hf : x.num 32 6 = 0 ∨ s.frame.num + 1 < x.num 32 6)
include hf

theorem exec_platCutover_image (himage : x.num 28 1 % 2 = 0) :
    exec (.platCutover fn ring slot) s = .next (State.platVec s
      { s.wr CUT_STAT_STATE 1 with plat := { s.plat with load := some (x.cutLoad ⟨fn, ring, slot⟩) } }) := by
  show execPlatCutover fn ring slot s = _
  rw [execPlatCutover, hrun]
  dsimp only
  rw [if_neg (by rw [hbusy]; decide), if_neg (by omega), if_pos (by simp [himage])]
  rfl

variable (hrev : x.num 28 1 % 2 = 1)
include hrev

/-- A revert that the last switch does not allow, or for which a plat is missing (R329). -/
theorem exec_platCutover_noRevert (hno : s.bit CUT_STAT_REVOK = false ∨ s.plat.active = none ∨ s.plat.shadow = none) :
    exec (.platCutover fn ring slot) s = .next (s.finish ⟨fn, ring, slot⟩ 7 0x20) := by
  show execPlatCutover fn ring slot s = _
  rw [execPlatCutover, hrun]
  dsimp only
  rw [if_neg (by rw [hbusy]; decide), if_neg (by omega), if_neg (by simp [hrev])]
  split
  · next o p ho hp =>
    have hrevok : s.bit CUT_STAT_REVOK = false := hno.resolve_right (by simp [ho, hp])
    rw [if_pos (by simp [hrevok])]
  · rfl

/-- A revert between the two plats is checked at once (R329). -/
theorem exec_platCutover_revert {o p : Plat} (hrevok : s.bit CUT_STAT_REVOK = true) (ho : s.plat.active = some o)
    (hp : s.plat.shadow = some p) :
    exec (.platCutover fn ring slot) s =
      .next (State.platVec s (s.judgeCut (x.cutLoad ⟨fn, ring, slot⟩) o p
        (orRej (s.cutRej o p (x.num 40 3) true) (s.cutFabricRej o p)))) := by
  show execPlatCutover fn ring slot s = _
  rw [execPlatCutover, hrun]
  dsimp only
  rw [if_neg (by rw [hbusy]; decide), if_neg (by omega), if_neg (by simp [hrev]), ho, hp]
  dsimp only
  rw [if_neg (by simp [hrevok])]
  cases orRej (s.cutRej o p (x.num 40 3) true) (s.cutFabricRej o p) <;> rfl

end Cutover

/-- A cancel of an item that runs. -/
theorem exec_cutCancel_runs {fn ring slot : Nat} {s : State} {x : Item} (hrun : s.running fn ring slot 7 = some x) :
    exec (.cutCancel fn ring slot) s =
      .next (State.platVec s ((if s.plat.switch then s else s.cutAbandon 5).finish ⟨fn, ring, slot⟩ 0 0)) := by
  show execCutCancel fn ring slot s = _
  rw [execCutCancel, hrun]

/-- Without a cut-over there is nothing to abandon. -/
theorem State.cutAbandon_idle {s : State} (reason : Nat) (h : s.plat.load = none ∨ ∃ l, s.plat.load = some l ∧ l.cut = false) :
    s.cutAbandon reason = s := by
  rcases h with h | ⟨l, h, hcut⟩
  · rw [State.cutAbandon, h]
  · rw [State.cutAbandon, h]
    exact if_pos (by rw [hcut]; rfl)

/-- A cut-over is abandoned without its item's outcome touching another item that waits. -/
theorem State.cutAbandon_waits {s : State} {l : LoadSt} {i : ItemRef} (reason : Nat) (hload : s.plat.load = some l) (hcut : l.cut = true)
    (hne : i ≠ l.item) (hw : s.waits i) : (s.cutAbandon reason).waits i := by
  rw [State.cutAbandon_eq hload hcut]
  exact State.waits_of_fns (State.dropCut_fns _ _) (State.waits_finish hne
    ((PlatStands.refl (((s.set1 CUT_STAT_ABANDONED).wr CUT_STAT_REASON reason).wr CUT_STAT_REVOK 0)).raise.waits hw))

/-- Settles O42: a refusal finishes the item and leaves the plats, a start arms them (`Arms`), and a cancel abandons what has not been
decided (`Abandoned`). -/
theorem cutOversBegin : Obligations.CutOversBegin := by
  rintro fn ring slot s i hfn rfl
  refine ⟨fun hnone => ?idleCut, fun hnone => ?idleCancel, fun x hrun => ⟨fun hbusy => ?busy, fun hbusy hf hlate => ?late,
    fun hbusy hf => ⟨fun himage => ?image, fun hrev => ⟨fun hno => ?noRevert, fun o p hrevok ho hp => ⟨fun r hr => ?rejected,
      fun hok => ?reverts⟩⟩⟩⟩, fun x hrun => ⟨fun hno => ?nothing, fun l hload hcut hne hwl hsw => ?cancelled⟩⟩
  case idleCut =>
    show execPlatCutover fn ring slot s = _
    rw [execPlatCutover, hnone]
  case idleCancel =>
    show execCutCancel fn ring slot s = _
    rw [execCutCancel, hnone]
  case busy => exact ⟨_, exec_platCutover_busy hrun hbusy, State.finish_refused _ (State.waits_of_running hfn hrun)⟩
  case late => exact ⟨_, exec_platCutover_late hrun hbusy hf hlate, State.finish_refused _ (State.waits_of_running hfn hrun)⟩
  case image =>
    refine ⟨_, _, exec_platCutover_image hrun hbusy hf himage, ?_, State.platVec_plat _ _, rfl, rfl, rfl, rfl, ?_, rfl⟩
    · rw [State.rd_of_hub (State.platVec_hub _ _)]
      exact s.rd_wr_self CUT_STAT_STATE 1 0 0 (by decide)
    · simp [Item.cutLoad, himage]
  case noRevert =>
    exact ⟨_, exec_platCutover_noRevert hrun hbusy hf hrev hno, State.finish_refused _ (State.waits_of_running hfn hrun)⟩
  case rejected =>
    refine ⟨_, exec_platCutover_revert hrun hbusy hf hrev hrevok ho hp, ?_⟩
    rw [hr]
    have hrej := (s.judgeCut_rejected (x.cutLoad ⟨fn, ring, slot⟩) o p r).platVec (old := s)
    have hload : s.plat.load = none := by simpa [State.platBusy] using hbusy
    exact ⟨hrej.done (State.waits_of_running hfn hrun), hrej.plat.trans (by rw [← hload])⟩
  case reverts =>
    refine ⟨_, (s.pickF (x.cutLoad ⟨fn, ring, slot⟩)).1, exec_platCutover_revert hrun hbusy hf hrev hrevok ho hp, ?_⟩
    rw [hok]
    obtain ⟨hnamed, hshadow, hactive, -, -, hoff, hblocks⟩ := (s.judgeCut_arms (x.cutLoad ⟨fn, ring, slot⟩) o p).platVec (old := s)
    refine ⟨hnamed, ?_, hshadow, hactive.trans ho, hoff, hblocks⟩
    split
    · next hzero => exact s.pickF_revert hzero (by simp [Item.cutLoad, hrev])
    · next hgiven => exact s.pickF_named hgiven
  case nothing =>
    have hstay : (if s.plat.switch then s else s.cutAbandon 5) = s := by
      split
      · rfl
      · next hsw => exact State.cutAbandon_idle 5 (hno.resolve_left hsw)
    refine ⟨_, exec_cutCancel_runs hrun, ?_⟩
    rw [hstay]
    exact ⟨State.doneWith_platVec (State.doneWith_finish (State.waits_of_running hfn hrun)),
      (State.platVec_plat _ _).trans (State.finish_plat _ _ _ _)⟩
  case cancelled =>
    obtain ⟨hplat, ⟨hflag, hcode⟩, hdone⟩ := State.cutAbandon_abandoned (reason := 5) hload hcut (by decide)
    refine ⟨_, exec_cutCancel_runs hrun, ?_⟩
    rw [if_neg (by rw [hsw]; decide), State.platVec_plat, State.finish_plat, hplat]
    have hhub : (State.platVec s ((s.cutAbandon 5).finish ⟨fn, ring, slot⟩ 0 0)).hub = (s.cutAbandon 5).hub :=
      (State.platVec_hub _ _).trans (State.finish_hub _ _ _ _)
    exact ⟨State.doneWith_platVec (State.doneWith_finish
        (State.cutAbandon_waits 5 hload hcut hne.symm (State.waits_of_running hfn hrun))),
      State.doneWith_platVec (State.doneWith_finish_done (hdone hwl)), (State.bit_of_hub hhub _).trans hflag,
      (State.rd_of_hub hhub _).trans hcode, rfl, rfl, rfl, rfl⟩

end Sys2Proof.Machine

/-!
PROOFS. The sightlines' ports (12_sightlines.md): lanes that lock and are lost, resets and holds (R338, R345, R353, R365, 20 R533), and the
words that a port's home region holds for it (R334, R340).
-/
namespace Sys2Proof.Machine

/-! ## Fields of a port -/

theorem Port.rd_wr_self (p : Port) (f : Field) (v : Nat) (hh : f.hi < 32) (hl : f.lo ≤ f.hi) :
    (p.wr f v).rd f = v % 2 ^ (f.hi + 1 - f.lo) := Regs.rd_wr_self _ _ _ _ _ hh hl
theorem Port.rd_wr_apart (p : Port) (f g : Field) (v : Nat) (h : f.apart g 0 0 0 0 = true) : (p.wr f v).rd g = p.rd g :=
  Regs.rd_wr_apart _ _ _ _ _ _ _ _ h
theorem Port.bit_wr_self (p : Port) (f : Field) (v : Nat) (hh : f.hi < 32) (hl : f.lo ≤ f.hi) :
    (p.wr f v).bit f = (v % 2 ^ (f.hi + 1 - f.lo) != 0) := congrArg (· != 0) (p.rd_wr_self f v hh hl)
theorem Port.bit_wr_apart (p : Port) (f g : Field) (v : Nat) (h : f.apart g 0 0 0 0 = true) : (p.wr f v).bit g = p.bit g :=
  congrArg (· != 0) (p.rd_wr_apart f g v h)

/-! ## What sending leaves -/

/-- Events are handed on. -/
theorem Port.count_only (e : PEnv) (p : Port) (c n : Nat) : p.count e c n = { p with evs := (p.count e c n).evs } := by
  unfold Port.count
  split <;> rfl

/-- The stream moves the scrambler's state and the line (R337). -/
theorem Port.stream_only (p : Port) (xs : List Sent) : p.stream xs = { p with tx58 := (p.stream xs).tx58, line := (p.stream xs).line } := by
  unfold Port.stream
  split <;> rfl

/-- Sending changes the buffer and the numbers given, and hands shots to the stream and events to the hub. -/
theorem Port.flush_only (e : PEnv) (p : Port) : p.flush e =
    { p with buf := (p.flush e).buf, nextSeq := (p.flush e).nextSeq, tx58 := (p.flush e).tx58, line := (p.flush e).line
             evs := (p.flush e).evs } := by
  unfold Port.flush
  dsimp only
  rw [Port.count_only, Port.stream_only]

@[simp] theorem Port.regs_flush (e : PEnv) (p : Port) : (p.flush e).regs = p.regs := by rw [Port.flush_only]
@[simp] theorem Port.rd_flush (e : PEnv) (p : Port) (f : Field) : (p.flush e).rd f = p.rd f := by rw [Port.rd, Port.regs_flush, Port.rd]
@[simp] theorem Port.state_flush (e : PEnv) (p : Port) : (p.flush e).state = p.state := p.rd_flush e _

/-! ## Lanes (R338) -/

/-- A command that acts on a port is a step of that port. -/
theorem exec_port_step {k tm : Nat} {s : State} {c : Instr} {f : PEnv → Port → Port} (hc : exec c s = .next (s.onPort k tm f))
    (hk : k < 24) : ∃ t, exec c s = .next t ∧ t.port k = (f (s.penv k tm) (s.port k)).atRest :=
  ⟨_, hc, s.port_onPort_self k tm f hk⟩

/-- A reset that completes leaves the locks. -/
theorem Port.lock_resetDone (e : PEnv) (p : Port) : (p.resetDone e).rd SL_STAT_LOCK = p.rd SL_STAT_LOCK := by
  unfold Port.resetDone
  split
  · exact p.rd_wr_apart SL_STAT_STATE SL_STAT_LOCK 1 (by decide)
  · rfl

/-- A searching port whose lanes are all locked with their skew in range is aligned; any other stays as it is (R338). -/
theorem Port.align_shows (e : PEnv) (p : Port) (ok : Bool) : (p.align e ok).rd SL_STAT_LOCK = p.rd SL_STAT_LOCK ∧
    (p.align e ok).state = if p.state = 1 ∧ p.rd SL_STAT_LOCK = 255 ∧ ok = true then 2 else p.state := by
  unfold Port.align
  by_cases h : p.state = 1 ∧ p.rd SL_STAT_LOCK = 255 ∧ ok = true
  · rw [if_pos h, if_pos h]
    extract_lets q r
    have hrole : r.rd SL_STAT_LOCK = q.rd SL_STAT_LOCK ∧ r.state = q.state := by
      dsimp only [r]
      split
      · exact ⟨rfl, rfl⟩
      · exact ⟨Port.rd_wr_apart _ _ _ _ (by decide), Port.rd_wr_apart _ _ _ _ (by decide)⟩
    rw [Port.rd_flush, Port.state_flush]
    exact ⟨hrole.1.trans (p.rd_wr_apart _ _ 2 (by decide)), hrole.2.trans (p.rd_wr_self _ 2 (by decide) (by decide))⟩
  · rw [if_neg h, if_neg h]
    exact ⟨rfl, rfl⟩

section Lanes
variable {e : PEnv} {p : Port} {lane : Nat} {ms : List (List Byte)}

/-- Four good markers lock the lane and may align the port. -/
theorem Port.laneLock_locks {P : Port} (ok : Bool) (hP : P = p.resetDone e) (hlane : lane < 8) (hon : P.state ≠ 0) (hlen : ms.length = 4)
    (hgood : markersGood lane none ms = true) :
    (p.laneLock e lane ms ok).rd SL_STAT_LOCK = (p.rd SL_STAT_LOCK ||| 2 ^ lane) % 256 ∧
    (p.laneLock e lane ms ok).state =
      if P.state = 1 ∧ (p.rd SL_STAT_LOCK ||| 2 ^ lane) % 256 = 255 ∧ ok = true then 2 else P.state := by
  unfold Port.laneLock
  dsimp only
  rw [← hP, if_pos ⟨hlane, hon, hlen, hgood⟩]
  generalize hq : ({ P.wr SL_STAT_LOCK (P.rd SL_STAT_LOCK ||| 2 ^ lane) with lastCount := _ } : Port) = q
  have hlock : q.rd SL_STAT_LOCK = (p.rd SL_STAT_LOCK ||| 2 ^ lane) % 256 := by
    rw [← p.lock_resetDone e, ← hP, ← hq]
    exact P.rd_wr_self SL_STAT_LOCK _ (by decide) (by decide)
  have hstate : q.state = P.state := by
    rw [← hq]
    exact P.rd_wr_apart SL_STAT_LOCK SL_STAT_STATE _ (by decide)
  obtain ⟨hkept, haligned⟩ := q.align_shows e ok
  rw [hkept, haligned, hstate, hlock]
  exact ⟨rfl, rfl⟩

/-- Other markers, another lane and a port that is off lock nothing. -/
theorem Port.laneLock_none {P : Port} (ok : Bool) (hP : P = p.resetDone e)
    (h : 8 ≤ lane ∨ P.state = 0 ∨ ms.length ≠ 4 ∨ markersGood lane none ms = false) : p.laneLock e lane ms ok = P := by
  unfold Port.laneLock
  dsimp only
  rw [← hP, if_neg]
  rintro ⟨hlane, hon, hlen, hgood⟩
  rcases h with h | h | h | h
  · omega
  · exact hon h
  · exact h hlen
  · exact absurd (hgood.symm.trans h) (by decide)

/-- A link loss leaves every field but STATE and DOWNEV. -/
theorem Port.rd_linkLoss {f : Field} (hdown : SL_STAT_DOWNEV.apart f 0 0 0 0 = true) (hstate : SL_STAT_STATE.apart f 0 0 0 0 = true) :
    p.linkLoss.rd f = p.rd f := by
  unfold Port.linkLoss
  split
  · exact (Port.rd_wr_apart _ _ _ _ hstate).trans (Port.rd_wr_apart _ _ _ _ hdown)
  · rfl

/-- A port in DATUM, HOLD or READY goes down for SEARCH, or for OFF with NORETRAIN (Table 12-5). -/
theorem Port.linkLoss_down (h : 2 ≤ p.state) : p.linkLoss.bit SL_STAT_DOWNEV = true ∧
    p.linkLoss.state = if p.bit SL_CTL_NORETRAIN = true then 0 else 1 := by
  unfold Port.linkLoss
  rw [if_pos h]
  refine ⟨(Port.bit_wr_apart _ SL_STAT_STATE SL_STAT_DOWNEV _ (by decide)).trans (p.bit_wr_self _ 1 (by decide) (by decide)),
    (Port.rd_wr_self _ SL_STAT_STATE _ (by decide) (by decide)).trans ?_⟩
  split <;> rfl

/-- A port that is not up loses no link. -/
theorem Port.linkLoss_idle (h : p.state < 2) : p.linkLoss = p := if_neg (by omega)

/-- Four positions of a locked lane without a good marker unlock it, and a link that is up is lost. -/
theorem Port.laneLost_unlocks (hlane : lane < 8) (hlocked : (p.rd SL_STAT_LOCK).testBit lane = true) (hlen : ms.length = 4)
    (hbad : ms.any (markerGood lane none) = false) :
    (p.laneLost e lane ms).rd SL_STAT_LOCK = p.rd SL_STAT_LOCK - 2 ^ lane ∧
    (2 ≤ p.state → (p.laneLost e lane ms).bit SL_STAT_DOWNEV = true ∧
      (p.laneLost e lane ms).state = if p.bit SL_CTL_NORETRAIN = true then 0 else 1) ∧
    (p.state < 2 → (p.laneLost e lane ms).state = p.state) := by
  unfold Port.laneLost
  dsimp only
  rw [if_pos ⟨hlane, hlocked, hlen, by simp [hbad]⟩]
  generalize hq : ((p.wr SL_STAT_LOCK (p.rd SL_STAT_LOCK - 2 ^ lane)).raise e _) = q
  have hfield {f : Field} (h : SL_STAT_LOCK.apart f 0 0 0 0 = true) : q.rd f = p.rd f := by
    rw [← hq]
    exact p.rd_wr_apart SL_STAT_LOCK f _ h
  have hstate : q.state = p.state := hfield (by decide)
  have hretrain : q.bit SL_CTL_NORETRAIN = p.bit SL_CTL_NORETRAIN := congrArg (· != 0) (hfield (by decide))
  refine ⟨?_, fun hup => ?_, fun hdown => ?_⟩
  · rw [Port.rd_linkLoss (by decide) (by decide), ← hq]
    exact (p.rd_wr_self SL_STAT_LOCK _ (by decide) (by decide)).trans
      (Nat.mod_eq_of_lt (Nat.lt_of_le_of_lt (Nat.sub_le _ _) (p.regs.rd_lt SL_STAT_LOCK 0 0)))
  · rw [← hretrain]
    exact Port.linkLoss_down (by rw [hstate]; exact hup)
  · rw [Port.linkLoss_idle (by rw [hstate]; exact hdown), hstate]

/-- A good marker, and a lane that is not locked, change nothing. -/
theorem Port.laneLost_none
    (h : 8 ≤ lane ∨ (p.rd SL_STAT_LOCK).testBit lane = false ∨ ms.length ≠ 4 ∨ ms.any (markerGood lane none) = true) :
    p.laneLost e lane ms = p := by
  unfold Port.laneLost
  dsimp only
  rw [if_neg]
  rintro ⟨hlane, hlocked, hlen, hbad⟩
  rcases h with h | h | h | h
  · omega
  · exact absurd (hlocked.symm.trans h) (by decide)
  · exact h hlen
  · exact hbad h

end Lanes

/-! ## Resets and holds (R345, R365, 20 R533) -/

/-- A reset empties the port and leaves it off with no joined parcel. -/
theorem Port.reset_empties (p : Port) : p.reset.state = 0 ∧ p.reset.rd SL_JOIN_JOINED = 0 :=
  ⟨(Port.rd_wr_apart _ SL_JOIN_JOINED SL_STAT_STATE _ (by decide)).trans (p.rd_wr_self _ 0 (by decide) (by decide)),
    Port.rd_wr_self _ SL_JOIN_JOINED 0 (by decide) (by decide)⟩

/-- The hold's control is off and acts no longer. -/
def State.holdEnded (s : State) : State :=
  { s.wr PERT_SLHOLD_EN 0 with pert := { s.pert with acting := s.pert.acting.set 1 false } }

theorem State.holdEnded_shows (s : State) : s.holdEnded.bit PERT_SLHOLD_EN = false ∧ s.holdEnded.pert.acting.getD 1 false = false := by
  refine ⟨s.bit_wr_self PERT_SLHOLD_EN 0 0 0 (by decide), ?_⟩
  show (s.pert.acting.set 1 false).getD 1 false = false
  rw [List.getD_eq_getElem?_getD, List.getElem?_set_self']
  cases s.pert.acting[1]? <;> rfl

theorem State.port_holdEnded (s : State) (k : Nat) : s.holdEnded.port k = s.port k := rfl

/-- The hold of a held port ends, and its control with it. -/
theorem exec_slHoldEnd_held {k tm : Nat} {s : State} (h : (s.port k).slhold = true) : exec (.slHoldEnd k tm) s =
    .next (s.onPort k tm (fun e p => ({ p with slhold := false } : Port).flush e)).holdEnded := if_pos h

/-- Settles O37: a lane locks or is lost by `Port.laneLock_locks` and `Port.laneLost_unlocks`, and every other clause is a step of the port
that says what it leaves. -/
theorem sightlineLanes : Obligations.SightlineLanes := by
  unfold Obligations.SightlineLanes
  rintro k tm lane s p E hk rfl rfl
  refine ⟨fun marks ok P hP => ⟨fun hlane hon hlen hgood => ?lock, fun h => ?noLock⟩,
    fun marks => ⟨fun hlane hlocked hlen hbad => ?lost, fun h => ?notLost⟩, fun hready => ?reset, fun hready => ?early,
    fun hact hport => ?hold, fun h => ?noHold, fun hheld => ?ends, fun hheld => ?notHeld⟩
  case lock =>
    obtain ⟨t, hexec, hport⟩ := exec_port_step (c := .laneLock k tm lane marks ok) rfl hk
    refine ⟨t, hexec, ?_⟩
    rw [hport]
    exact Port.laneLock_locks ok hP hlane hon hlen hgood
  case noLock =>
    obtain ⟨t, hexec, hport⟩ := exec_port_step (c := .laneLock k tm lane marks ok) rfl hk
    exact ⟨t, hexec, hport.trans (congrArg Port.atRest (Port.laneLock_none ok hP h))⟩
  case lost =>
    obtain ⟨t, hexec, hport⟩ := exec_port_step (c := .laneLockLost k tm lane marks) rfl hk
    refine ⟨t, hexec, ?_⟩
    rw [hport]
    exact Port.laneLost_unlocks hlane hlocked hlen hbad
  case notLost =>
    obtain ⟨t, hexec, hport⟩ := exec_port_step (c := .laneLockLost k tm lane marks) rfl hk
    exact ⟨t, hexec, hport.trans (congrArg Port.atRest (Port.laneLost_none h))⟩
  case reset =>
    have hreset : exec (.slReset k) s = .next (s.onPort k s.now16 (fun _ p => p.reset)) := if_neg (by simp [hready])
    have hswap : exec (.slSwap k) s = .next (s.onPort k s.now16 (fun _ p => { p with swap := true })) := if_neg (by simp [hready])
    obtain ⟨t, ht, hport⟩ := exec_port_step hreset hk
    obtain ⟨u, hu, hswapped⟩ := exec_port_step hswap hk
    refine ⟨t, u, ht, hu, ?_⟩
    obtain ⟨hoff, hjoined⟩ := (s.port k).reset_empties
    rw [hport]
    exact ⟨hoff, rfl, rfl, rfl, rfl, hjoined, hswapped⟩
  case early => exact ⟨if_pos (by simp [hready]), if_pos (by simp [hready])⟩
  case hold => exact exec_port_step (c := .slHoldStart k) (if_pos ⟨hact, hport⟩) hk
  case noHold =>
    refine if_neg ?_
    rintro ⟨hact, hport⟩
    exact h.elim (fun hno => absurd (hact.symm.trans hno) (by decide)) (fun hother => hother hport)
  case ends => 
    exact ⟨_, exec_slHoldEnd_held hheld, (State.port_holdEnded _ k).trans (s.port_onPort_self k tm _ hk), State.holdEnded_shows _⟩
  case notHeld => exact if_neg (by simp [hheld])

/-! ## A word whose home names no region (R334, Table 8-15) -/

/-- A port's step leaves the regions. -/
@[simp] theorem State.onPort_regions (s : State) (k t : Nat) (f : PEnv → Port → Port) : (s.onPort k t f).regions = s.regions := by
  rw [(s.onPort_frame k t f).1]

/-- The oldest word that waits at the home for the port is taken to it. -/
theorem exec_sightlineWordEnqueue_taken {k tm leg n q : Nat} {mark : Bool} {got : Option FWord} {s : State} {w : FWord}
    {rest : List (Nat × FWord)} (hhome : s.homeOf k = some (n, q)) (htake : takeFirst q (s.region n).laneOut = some (w, rest)) :
    exec (.sightlineWordEnqueue k tm leg mark got) s =
      .next ((s.setRegion n { s.region n with laneOut := rest }).onPort k tm (fun e p => p.enqueue e (got.getD w) leg mark)) := by
  show execSightlineWordEnqueue k tm leg mark got s = _
  unfold execSightlineWordEnqueue
  rw [hhome]
  dsimp only
  rw [htake]

/-- Octet 0 joins sightline port 0 to field 6 of die 3, which LANE_OCT can hold and no die has; a word that waits there for the port is
listed under the number 24. -/
def strayHome : State :=
  { State.reset with
    regions := [(24, { laneOut := [(0, noWord 0)] })]
    plat := { lanes := [(0, putBits (putBits (putBits 0 22 21 2) 1 0 3) 4 2 6)] } }

theorem strayHome_holds : strayHome.homeOf 0 = some (24, 0) ∧ takeFirst 0 (strayHome.region 24).laneOut = some (noWord 0, []) := by
  decide +kernel

/-- Refutes O38: the clause on SIGHTLINE_WORD_ENQUEUE takes the home that LANE_OCT names for a region. FLD has three bits for the six fields
of a die (Table 8-15); at field 6 of die 3 the home is a region 24, which is not put back (`State.setRegion`), and the word does not
leave it. Only a state that lists words under such a number, as the statement allows, speaks against the clause. -/
theorem not_sightlineShots : ¬ Obligations.SightlineShots := by
  unfold Obligations.SightlineShots
  intro h
  obtain ⟨-, -, -, henqueue⟩ := h
  obtain ⟨-, -, hword⟩ := henqueue 0 0 0 false none strayHome _ (by decide) rfl
  obtain ⟨hhome, htaken⟩ := strayHome_holds
  obtain ⟨t, hexec, hgone, -⟩ := hword 24 0 (noWord 0) [] hhome (.inl ⟨noWord 0, htaken, rfl⟩)
  obtain rfl := Host.Outcome.next.inj (hexec.symm.trans (exec_sightlineWordEnqueue_taken hhome htaken))
  have hstays : strayHome.setRegion 24 { strayHome.region 24 with laneOut := [] } = strayHome := if_neg (by decide)
  rw [hstays, State.region, State.onPort_regions] at hgone
  change (strayHome.region 24).laneOut = [] at hgone
  rw [hgone] at htaken
  exact absurd htaken (by decide)

end Sys2Proof.Machine

/-!
PROOFS. Laser sources (12_sightlines.md R335, 08_fabric_route_plans.md R249, R251): what lights an octet, and what goes dark with it.
-/
namespace Sys2Proof.Machine

/-! ## Words of the hub's group -/

/-- A write changes its own word. -/
theorem State.hubWord_wr_ne (s : State) {f : Field} {v i o : Nat} (hu : f.unit = .hub) (ho : o ≠ f.at i) :
    (s.wr f v i).hub.hub.word .hub o = s.hub.hub.word .hub o := by
  unfold State.wr Regs.wr
  rw [hu]
  exact Regs.word_setWord_ne _ _ _ _ _ ho

/-- A field reads the same where its word stands. -/
theorem State.rd_of_hubWord {s t : State} {f : Field} {i : Nat} (hu : f.unit = .hub)
    (h : t.hub.hub.word .hub (f.at i) = s.hub.hub.word .hub (f.at i)) : t.rd f i = s.rd f i := by
  unfold State.rd Regs.rd
  rw [hu]
  exact congrArg (bitsOf · f.hi f.lo) h

theorem State.bit_of_hubWord {s t : State} {f : Field} {i : Nat} (hu : f.unit = .hub)
    (h : t.hub.hub.word .hub (f.at i) = s.hub.hub.word .hub (f.at i)) : t.bit f i = s.bit f i :=
  congrArg (· != 0) (State.rd_of_hubWord hu h)

theorem State.errVectors_hub (l : List Nat) (s : State) : (l.foldl State.errVector s).hub = s.hub :=
  List.foldlRecOn (motive := fun t : State => t.hub = s.hub) _ _ rfl fun t ht _ _ => (t.vector_hub _ _).trans ht

/-- A record is shown in the registers of the error queue alone. -/
theorem State.hubQueue_hub_hub (s : State) (r : ErrRec) : (s.hubQueue r).hub.hub = s.hub.hub := by
  unfold State.hubQueue
  extract_lets s1 s2 e s3 r3
  have h3 : s3.hub.hub = s.hub.hub := by
    dsimp only [s3, e, State.hubAnnounce]
    rw [State.errVectors_hub]
    dsimp only [s2]
    rw [State.count_only]
    rfl
  clear_value s3 r3
  split
  · split
    · exact h3
    · rw [State.errVectors_hub]
      exact h3
  · split
    · exact h3
    · rw [State.errVectors_hub]
      exact h3

theorem State.raise_hub_hub (s : State) (r : ErrRec) : (s.raise r).hub.hub = s.hub.hub := State.hubQueue_hub_hub _ _

/-- A port's step leaves the hub's own group. -/
theorem State.onPort_hub_hub (s : State) (k t : Nat) (f : PEnv → Port → Port) : (s.onPort k t f).hub.hub = s.hub.hub := by
  unfold State.onPort State.putPort
  extract_lets old s1 s2
  have h2 : s2.hub.hub = s.hub.hub :=
    List.foldlRecOn (motive := fun t : State => t.hub.hub = s.hub.hub) _ _
      (congrArg HubRegs.hub ((State.takeEvs_hub _ _ _).trans (State.setPort_hub _ _ _)))
      fun t ht r _ => (t.raise_hub_hub r).trans ht
  split
  · exact h2
  · exact (congrArg HubRegs.hub (List.foldlRecOn (motive := fun t : State => t.hub = s2.hub) _ _ rfl
      fun t ht _ _ => (t.vector_hub _ _).trans ht)).trans h2

/-! ## Octets that go dark (R335, 08 R251) -/

/-- The bits of LANE_STAT that light and its loss move. -/
def laneBits : List Field := [LANE_STAT_LOS, LANE_STAT_LOCK, LANE_STAT_LOST]

/-- They are apart, in one octet's word and in two. -/
theorem State.bit_wr_laneBits (s : State) {f g : Field} (hf : f ∈ laneBits) (hg : g ∈ laneBits) (v : Nat) {i j : Nat}
    (hne : f ≠ g ∨ i ≠ j) : (s.wr f v i).bit g j = s.bit g j := by
  have hword : ∀ f ∈ laneBits, f.unit = .hub ∧ f.off = 0x3200 ∧ f.str = 4 ∧ f.str2 = 0 ∧ f.hi < 32 ∧ f.lo ≤ f.hi := by decide
  have hbits : ∀ f ∈ laneBits, ∀ g ∈ laneBits, f ≠ g → g.hi < f.lo ∨ f.hi < g.lo := by decide
  obtain ⟨hfu, hfo, hfs, hfs2, hfhi, hflo⟩ := hword f hf
  obtain ⟨hgu, hgo, hgs, hgs2, -, hglo⟩ := hword g hg
  refine s.bit_wr_apart f g v i 0 j 0 ?_
  have hapart : f.apart g i 0 j 0 = true := by
    simp only [Field.apart, Field.at, decide_eq_true_eq, hfu, hgu, hfo, hgo, hfs, hgs]
    refine ⟨trivial, hfhi, hflo, hglo, ?_⟩
    rcases hne with hne | hne
    · exact .inr (hbits f hf g hg hne)
    · exact .inl (by omega)
  simp [Field.hubApart, hapart, hfu, RegUnit.hubGroup]

/-- From `s` to `t` octets may go dark: of a region at most the words that its lane ports hold change, no block and no source does, and what
is dark or unlocked stays so. -/
structure Darkens (s t : State) : Prop where
  plat : t.plat = s.plat
  blocks : t.blocks = s.blocks
  region : ∀ m, t.region m = { s.region m with lanes := (t.region m).lanes }
  source : ∀ o, 0x6000 ≤ o → t.hub.hub.word .hub o = s.hub.hub.word .hub o
  los : ∀ o, s.bit LANE_STAT_LOS o = true → t.bit LANE_STAT_LOS o = true
  lock : ∀ o, s.bit LANE_STAT_LOCK o = false → t.bit LANE_STAT_LOCK o = false
  port : ∀ q, (s.port q).rd SL_STAT_LOCK = 0 → (t.port q).rd SL_STAT_LOCK = 0

namespace Darkens
variable {s t u : State}

theorem refl (s : State) : Darkens s s := ⟨rfl, rfl, fun _ => rfl, fun _ _ => rfl, fun _ h => h, fun _ h => h, fun _ h => h⟩

theorem trans (h : Darkens s t) (k : Darkens t u) : Darkens s u where
  plat := k.plat.trans h.plat
  blocks := k.blocks.trans h.blocks
  region m := by rw [k.region m, h.region m]
  source o ho := (k.source o ho).trans (h.source o ho)
  los o ho := k.los o (h.los o ho)
  lock o ho := k.lock o (h.lock o ho)
  port q hq := k.port q (h.port q hq)

/-- A step that leaves the hub's own group, the plats and the blocks. -/
theorem of_hub (hplat : t.plat = s.plat) (hblocks : t.blocks = s.blocks)
    (hregion : ∀ m, t.region m = { s.region m with lanes := (t.region m).lanes }) (hhub : t.hub.hub = s.hub.hub)
    (hport : ∀ q, (s.port q).rd SL_STAT_LOCK = 0 → (t.port q).rd SL_STAT_LOCK = 0) : Darkens s t :=
  ⟨hplat, hblocks, hregion, fun _ _ => by rw [hhub], fun _ h => (State.bit_of_hubWord rfl (by rw [hhub])).trans h,
    fun _ h => (State.bit_of_hubWord rfl (by rw [hhub])).trans h, hport⟩

/-- Fields of a source read the same. -/
theorem rd (h : Darkens s t) {f : Field} {k : Nat} (hu : f.unit = .hub) (ho : 0x6000 ≤ f.off) : t.rd f k = s.rd f k :=
  State.rd_of_hubWord hu (h.source _ (by unfold Field.at; omega))

theorem bit (h : Darkens s t) {f : Field} {k : Nat} (hu : f.unit = .hub) (ho : 0x6000 ≤ f.off) : t.bit f k = s.bit f k :=
  congrArg (· != 0) (h.rd hu ho)

end Darkens

section Octet
variable (s : State) {o : Nat}

theorem State.raise_darkens (r : ErrRec) : Darkens s (s.raise r) := by
  have h : Noted s (s.raise r) := Noted.raise (.refl s)
  refine .of_hub ?_ ?_ (fun m => ?_) (s.raise_hub_hub r) (fun q hq => ?_)
  · rw [show s.raise r = _ from h]
  · rw [show s.raise r = _ from h]
  · rw [show s.raise r = _ from h]
    rfl
  · rwa [h.port]

theorem State.cutLanes_darkens (xs : List (Nat × Nat)) : Darkens s (s.cutLanes xs) := by
  refine List.foldlRecOn (motive := Darkens s) _ _ (.refl s) fun t ht x _ => ht.trans ?_
  refine .of_hub (State.setRegion_plat _ _ _) (State.setRegion_blocks _ _ _) (fun m => ?_)
    (congrArg HubRegs.hub (State.setRegion_hub _ _ _)) (fun q hq => ?_)
  · by_cases hm : m = x.1
    · subst hm
      by_cases hlt : x.1 < 24
      · rw [State.region_setRegion_self _ _ _ hlt]
        rfl
      · rw [State.setRegion, if_neg hlt]
    · rw [State.region_setRegion_ne _ _ _ _ hm]
  · rw [State.port, State.setRegion_ports]
    exact hq

/-- A write of LOS, LOCK or LOST of an octet that darkens it. -/
theorem State.laneBit_darkens {f : Field} {v : Nat} (hf : f ∈ laneBits) (ho : o < 72)
    (hv : v = if f = LANE_STAT_LOCK then 0 else 1) : Darkens s (s.wr f v o) := by
  have hself : (s.wr f v o).bit f o = (v % 2 != 0) := by
    have hone : ∀ f ∈ laneBits, (f.unit.hubGroup && decide (f.hi < 32 ∧ f.lo ≤ f.hi)) = true ∧ 2 ^ (f.hi + 1 - f.lo) = 2 := by
      decide
    rw [State.bit_wr_self _ _ _ _ _ (hone f hf).1, (hone f hf).2]
  have hother {g : Field} (hg : g ∈ laneBits) (i : Nat) (hne : f ≠ g ∨ o ≠ i) : (s.wr f v o).bit g i = s.bit g i :=
    s.bit_wr_laneBits hf hg v hne
  refine ⟨rfl, rfl, fun _ => rfl, fun a ha => ?_, fun i hi => ?_, fun i hi => ?_, fun _ h => h⟩
  · have hat : ∀ f ∈ laneBits, f.unit = .hub ∧ f.off = 0x3200 ∧ f.str = 4 := by decide
    obtain ⟨hu, hoff, hstr⟩ := hat f hf
    refine s.hubWord_wr_ne hu ?_
    simp only [Field.at, hoff, hstr]
    omega
  · by_cases h : f = LANE_STAT_LOS ∧ o = i
    · obtain ⟨rfl, rfl⟩ := h
      rw [hself, hv]
      rfl
    · rw [hother (by decide) i (by tauto), hi]
  · by_cases h : f = LANE_STAT_LOCK ∧ o = i
    · obtain ⟨rfl, rfl⟩ := h
      rw [hself, hv]
      rfl
    · rw [hother (by decide) i (by tauto), hi]

/-- A circuit that is lost is unlocked. -/
theorem State.loseCircuit_darkens (ho : o < 72) : Darkens s (s.loseCircuit o) ∧ (s.loseCircuit o).bit LANE_STAT_LOCK o = false := by
  have hlost : Darkens s (s.set1 LANE_STAT_LOST o) := s.laneBit_darkens (by decide) ho rfl
  have hunlock := (s.set1 LANE_STAT_LOST o).laneBit_darkens (f := LANE_STAT_LOCK) (v := 0) (by decide) ho rfl
  have hcut := (((s.set1 LANE_STAT_LOST o).wr LANE_STAT_LOCK 0 o).cutLanes_darkens (s.octetEnds o)).trans (State.raise_darkens _
    { cls := 8, subtype := 0x46, level := 3, object := o, objkind := 9 })
  exact ⟨hlost.trans (hunlock.trans hcut), hcut.lock o (State.bit_wr_self _ LANE_STAT_LOCK 0 o 0 (by decide))⟩

/-- A dark port has no locked lane. -/
theorem Port.lock_dark (e : PEnv) (p : Port) : (p.dark e).rd SL_STAT_LOCK = 0 := by
  unfold Port.dark
  split
  · assumption
  · rw [Port.rd_linkLoss (by decide) (by decide)]
    exact p.rd_wr_self SL_STAT_LOCK 0 (by decide) (by decide)

theorem State.darkPort_darkens (q t : Nat) : Darkens s (s.onPort q t (fun e p => p.dark e)) := by
  have h := s.onPort_frame q t (fun e p => p.dark e)
  refine .of_hub ?_ ?_ (fun m => ?_) (s.onPort_hub_hub _ _ _) (fun j hj => ?_)
  · rw [h.1]
  · rw [h.1]
  · rw [h.1]
    rfl
  · by_cases hjq : j = q
    · subst hjq
      by_cases hlt : j < 24
      · rw [State.port_onPort_self _ _ _ _ hlt]
        exact Port.lock_dark _ _
      · rw [State.onPort, (s.putPort_noted j _).port, State.setPort, if_neg hlt]
        exact hj
    · rwa [h.2 j hjq]

/-- What the loss of light does to one octet. -/
def State.darkOctet (o : Nat) : State :=
  if (s.wr LANE_STAT_LOS 1 o).lane LANE_OCT_KIND o = 1 ∧ (s.wr LANE_STAT_LOS 1 o).bit LANE_STAT_LOCK o then
    (s.wr LANE_STAT_LOS 1 o).loseCircuit o
  else if (s.wr LANE_STAT_LOS 1 o).lane LANE_OCT_KIND o = 2 then
    (s.wr LANE_STAT_LOS 1 o).onPort ((s.wr LANE_STAT_LOS 1 o).lane LANE_OCT_SL o) (s.wr LANE_STAT_LOS 1 o).now16 (fun e p => p.dark e)
  else s.wr LANE_STAT_LOS 1 o

theorem State.darken_eq (k : Nat) : s.darken k = (litBy k).foldl State.darkOctet s := rfl

/-- In `t` octet `o`, assigned as in `z`, is dark: a die-to-die circuit has no lock, a sightline port no locked lane. -/
structure Dark (z : State) (o : Nat) (t : State) : Prop where
  los : t.bit LANE_STAT_LOS o = true
  circuit : z.lane LANE_OCT_KIND o = 1 → t.bit LANE_STAT_LOCK o = false
  port : z.lane LANE_OCT_KIND o = 2 → z.lane LANE_OCT_SL o < 24 → (t.port (z.lane LANE_OCT_SL o)).rd SL_STAT_LOCK = 0

theorem Dark.darkens {z t u : State} (h : Dark z o t) (k : Darkens t u) : Dark z o u :=
  ⟨k.los o h.los, fun hz => k.lock o (h.circuit hz), fun hz hq => k.port _ (h.port hz hq)⟩

theorem Dark.of_plat {y z t : State} (h : Dark z o t) (hp : z.plat = y.plat) : Dark y o t := by
  have hlane (f : Field) : y.lane f o = z.lane f o := by rw [State.lane, ← hp, State.lane]
  exact ⟨h.los, fun hy => h.circuit ((hlane _).symm.trans hy), fun hy hq => by
    rw [hlane] at hy hq ⊢
    exact h.port hy hq⟩

theorem State.darkOctet_dark (ho : o < 72) : Darkens s (s.darkOctet o) ∧ Dark s o (s.darkOctet o) := by
  have hdark : Darkens s (s.wr LANE_STAT_LOS 1 o) := s.laneBit_darkens (by decide) ho rfl
  have hlos : (s.wr LANE_STAT_LOS 1 o).bit LANE_STAT_LOS o = true := s.bit_wr_self LANE_STAT_LOS 1 o 0 (by decide)
  have hlane (f : Field) : (s.wr LANE_STAT_LOS 1 o).lane f o = s.lane f o := rfl
  unfold State.darkOctet
  rw [hlane, hlane]
  generalize hx : s.wr LANE_STAT_LOS 1 o = x at *
  split
  · next hcircuit =>
    obtain ⟨hlose, hunlocked⟩ := x.loseCircuit_darkens ho
    exact ⟨hdark.trans hlose, hlose.los o hlos, fun _ => hunlocked, fun hport => by omega⟩
  · next hno =>
    have hnone (hcircuit : s.lane LANE_OCT_KIND o = 1) : x.bit LANE_STAT_LOCK o = false :=
      eq_false_of_ne_true fun hlock => hno ⟨hcircuit, hlock⟩
    split
    · have hd := x.darkPort_darkens (s.lane LANE_OCT_SL o) x.now16
      refine ⟨hdark.trans hd, hd.los o hlos, fun hcircuit => hd.lock o (hnone hcircuit), fun _ hq => ?_⟩
      rw [State.port_onPort_self _ _ _ _ hq]
      exact Port.lock_dark _ _
    · next hnot => exact ⟨hdark, hlos, hnone, fun hport => absurd hport hnot⟩

/-- Octets that go dark one after the other are all dark. -/
theorem State.darkOctets_dark {l : List Nat} (hl : ∀ o ∈ l, o < 72) :
    Darkens s (l.foldl State.darkOctet s) ∧ ∀ o ∈ l, Dark s o (l.foldl State.darkOctet s) := by
  induction l generalizing s with
  | nil => exact ⟨.refl s, fun o ho => absurd ho List.not_mem_nil⟩
  | cons a l ih =>
    obtain ⟨hstep, hdark⟩ := s.darkOctet_dark (hl a List.mem_cons_self)
    obtain ⟨hrest, hall⟩ := ih (s.darkOctet a) fun o ho => hl o (List.mem_cons_of_mem _ ho)
    refine ⟨hstep.trans hrest, fun o ho => ?_⟩
    rcases List.mem_cons.mp ho with rfl | ho
    · exact hdark.darkens hrest
    · exact (hall o ho).of_plat hstep.plat

end Octet

theorem litBy_lt {k o : Nat} (hk : k < 8) (ho : o ∈ litBy k) : o < 72 := by
  obtain ⟨i, hi, rfl⟩ := List.mem_map.mp ho
  have := List.mem_range.mp hi
  omega

/-- The octets of a slot go dark (R335). -/
theorem State.darken_dark (s : State) {k : Nat} (hk : k < 8) : Darkens s (s.darken k) ∧ ∀ o ∈ litBy k, Dark s o (s.darken k) := by
  rw [State.darken_eq]
  exact s.darkOctets_dark fun o ho => litBy_lt hk ho

/-! ## Octets that have light -/

/-- Light at octets clears their LOS, and changes no word but those of LANE_STAT. -/
theorem State.lightOctets_shows (s : State) (l : List Nat) (hl : ∀ o ∈ l, o < 72) :
    HubFrame s (l.foldl (fun s o => s.wr LANE_STAT_LOS 0 o) s) ∧
    (∀ a, 0x6000 ≤ a → (l.foldl (fun s o => s.wr LANE_STAT_LOS 0 o) s).hub.hub.word .hub a = s.hub.hub.word .hub a) ∧
    ∀ o, o ∈ l ∨ s.bit LANE_STAT_LOS o = false → (l.foldl (fun s o => s.wr LANE_STAT_LOS 0 o) s).bit LANE_STAT_LOS o = false := by
  induction l generalizing s with
  | nil => exact ⟨rfl, fun _ _ => rfl, fun o ho => ho.resolve_left List.not_mem_nil⟩
  | cons a l ih =>
    obtain ⟨hframe, hword, hlos⟩ := ih (s.wr LANE_STAT_LOS 0 a) fun o ho => hl o (List.mem_cons_of_mem _ ho)
    have ha := hl a List.mem_cons_self
    refine ⟨hframe, fun o ho => (hword o ho).trans (s.hubWord_wr_ne rfl ?_), fun o ho => hlos o ?_⟩
    · simp only [Field.at]
      omega
    · by_cases hoa : a = o
      · subst hoa
        exact .inr (s.bit_wr_self LANE_STAT_LOS 0 a 0 (by decide))
      · rw [s.bit_wr_laneBits (by decide) (by decide) 0 (.inr hoa)]
        exact ho.imp_left fun hm => (List.mem_cons.mp hm).resolve_left (Ne.symm hoa)

/-! ## The commands of a laser source -/

/-- The fields of SL_LSRC (Table 12-12). -/
def lsrcFields : List Field := [SL_LSRC_PRESENT, SL_LSRC_EN, SL_LSRC_LIT, SL_LSRC_FAULT, SL_LSRC_POWER]

theorem lsrcFields_apart : ∀ k < 8, ∀ f ∈ lsrcFields, ∀ g ∈ lsrcFields, f ≠ g → f.hubApart g k 0 k 0 = true := by decide

/-- A write of a source's field leaves its others. -/
theorem State.bit_wr_lsrc (s : State) {f g : Field} {k : Nat} (v : Nat) (hk : k < 8) (hf : f ∈ lsrcFields) (hg : g ∈ lsrcFields)
    (hne : f ≠ g) : (s.wr f v k).bit g k = s.bit g k := s.bit_wr_apart f g v k 0 k 0 (lsrcFields_apart k hk f hf g hg hne)

/-- Settles O40: a removed or faulty source darkens its octets (`State.darken_dark`), one that lights clears their LOS
(`State.lightOctets_shows`), and the source's own fields stand under both. -/
theorem laserSources : Obligations.LaserSources := by
  unfold Obligations.LaserSources
  intro k power s hk
  have hself {t : State} {f : Field} (v : Nat) (hf : (f.unit.hubGroup && decide (f.hi < 32 ∧ f.lo ≤ f.hi)) = true) :
      (t.wr f v k).bit f k = (v % 2 ^ (f.hi + 1 - f.lo) != 0) := t.bit_wr_self f v k 0 hf
  have hen : (s.set1 SL_LSRC_PRESENT k).bit SL_LSRC_EN k = s.bit SL_LSRC_EN k :=
    s.bit_wr_lsrc 1 hk (by decide) (by decide) (by decide)
  refine ⟨?insert, ?remove, fun hpresent hon => ?fault, fun h => ?none⟩
  case insert =>
    by_cases hlit : s.bit SL_LSRC_EN k = true ∧ power ≠ 0
    · have hexec : exec (.lsrcInsert k power) s =
          .next ((((s.set1 SL_LSRC_PRESENT k).set1 SL_LSRC_LIT k).wr SL_LSRC_POWER power k).light k) := by
        refine if_pos ⟨?_, hlit.2⟩
        rw [hen]
        exact hlit.1
      obtain ⟨hframe, hword, hlos⟩ := State.lightOctets_shows
        (((s.set1 SL_LSRC_PRESENT k).set1 SL_LSRC_LIT k).wr SL_LSRC_POWER power k) (litBy k) fun o ho => litBy_lt hk ho
      rw [← State.light] at hframe hword hlos
      have hat (f : Field) (ho : 0x6000 ≤ f.off) : 0x6000 ≤ f.at k := by
        unfold Field.at
        omega
      refine ⟨_, hexec, ?_, hframe, fun _ _ => ⟨?_, ?_, fun o ho => hlos o (.inl ho)⟩, fun hno => ?_⟩
      · rw [State.bit_of_hubWord rfl (hword _ (hat SL_LSRC_PRESENT (by decide))),
          State.bit_wr_lsrc _ _ hk (by decide) (by decide) (by decide), State.set1,
          State.bit_wr_lsrc _ _ hk (by decide) (by decide) (by decide)]
        exact hself 1 (by decide)
      · rw [State.bit_of_hubWord rfl (hword _ (hat SL_LSRC_LIT (by decide))),
          State.bit_wr_lsrc _ _ hk (by decide) (by decide) (by decide)]
        exact hself 1 (by decide)
      · rw [State.rd_of_hubWord rfl (hword _ (hat SL_LSRC_POWER (by decide)))]
        exact State.rd_wr_self _ SL_LSRC_POWER power k 0 (by decide)
      · exact absurd hlit fun hboth => hno.elim (fun hoff => by simp [hoff] at hboth) hboth.2
    · have hexec : exec (.lsrcInsert k power) s = .next (s.set1 SL_LSRC_PRESENT k) := by
        refine if_neg ?_
        rw [hen]
        exact hlit
      refine ⟨_, hexec, hself 1 (by decide), rfl, fun hon hpow => absurd ⟨hon, hpow⟩ hlit, fun _ => ⟨?_, fun o ho => ?_⟩⟩
      · exact s.bit_wr_lsrc 1 hk (by decide) (by decide) (by decide)
      · refine State.bit_of_hubWord rfl (s.hubWord_wr_ne rfl ?_)
        simp only [Field.at]
        omega
  case remove =>
    obtain ⟨hdark, hall⟩ := (((s.wr SL_LSRC_PRESENT 0 k).wr SL_LSRC_LIT 0 k).wr SL_LSRC_POWER 0 k).darken_dark hk
    refine ⟨_, rfl, ?_, ?_, ?_, fun o ho => ?_, hdark.blocks, hdark.region⟩
    · rw [hdark.bit rfl (by decide), State.bit_wr_lsrc _ _ hk (by decide) (by decide) (by decide),
        State.bit_wr_lsrc _ _ hk (by decide) (by decide) (by decide)]
      exact hself 0 (by decide)
    · rw [hdark.bit rfl (by decide), State.bit_wr_lsrc _ _ hk (by decide) (by decide) (by decide)]
      exact hself 0 (by decide)
    · rw [hdark.rd rfl (by decide)]
      exact State.rd_wr_self _ SL_LSRC_POWER 0 k 0 (by decide)
    · exact ⟨(hall o ho).los, (hall o ho).circuit, (hall o ho).port⟩
  case fault =>
    have hexec : exec (.lsrcFault k power) s =
        .next (((((s.set1 SL_LSRC_FAULT k).wr SL_LSRC_LIT 0 k).wr SL_LSRC_POWER power k).raise
          { cls := 8, subtype := 0x85, level := 4, specific := k + 1 }).darken k) := if_pos ⟨hpresent, hon⟩
    have hraise := (((s.set1 SL_LSRC_FAULT k).wr SL_LSRC_LIT 0 k).wr SL_LSRC_POWER power k).raise_darkens
      { cls := 8, subtype := 0x85, level := 4, specific := k + 1 }
    obtain ⟨hdarken, hall⟩ := ((((s.set1 SL_LSRC_FAULT k).wr SL_LSRC_LIT 0 k).wr SL_LSRC_POWER power k).raise
      { cls := 8, subtype := 0x85, level := 4, specific := k + 1 }).darken_dark hk
    have hdark := hraise.trans hdarken
    refine ⟨_, hexec, ?_, ?_, fun o ho => ?_, hdark.blocks⟩
    · rw [hdark.bit rfl (by decide), State.bit_wr_lsrc _ _ hk (by decide) (by decide) (by decide),
        State.bit_wr_lsrc _ _ hk (by decide) (by decide) (by decide)]
      exact hself 1 (by decide)
    · rw [hdark.bit rfl (by decide), State.bit_wr_lsrc _ _ hk (by decide) (by decide) (by decide)]
      exact hself 0 (by decide)
    · have hz := (hall o ho).of_plat (y := s) hraise.plat
      exact ⟨hz.los, hz.circuit⟩
  case none =>
    refine if_neg ?_
    rintro ⟨hpresent, hon⟩
    exact h.elim (fun hno => absurd (hpresent.symm.trans hno) (by decide)) fun hoff => absurd (hon.symm.trans hoff) (by decide)

end Sys2Proof.Machine

/-!
PROOFS. Datums (12_sightlines.md R347 to R354): what a port sends, what it shows of a received one, and how it judges it.
-/
namespace Sys2Proof.Machine

/-! ## Sending (R340, R348) -/

theorem length_assignSeq (t n : Nat) (l : List Sent) : (assignSeq t n l).1.length = l.length := by
  induction l generalizing n with
  | nil => rfl
  | cons x l ih =>
    unfold assignSeq
    split <;> exact congrArg (· + 1) (ih _)

/-- The order in which shots first go, by their type, leaves none out. -/
theorem length_filter_ctl (l : List Sent) : (l.filter (fun x => x.ctl == 1)).length + (l.filter (fun x => decide (1 < x.ctl))).length +
    (l.filter (fun x => x.ctl == 0)).length = l.length := by
  induction l with
  | nil => rfl
  | cons x l ih =>
    obtain h | h | h : x.ctl = 0 ∨ x.ctl = 1 ∨ 1 < x.ctl := by omega
    · simp [h]
      omega
    · simp [h]
      omega
    · have h0 : x.ctl ≠ 0 := by omega
      have h1 : x.ctl ≠ 1 := by omega
      simp [h, h0, h1]
      omega

/-- Sent shots stay in the buffer. -/
theorem Port.length_buf_flush (e : PEnv) (p : Port) : (p.flush e).buf.length = p.buf.length := by
  unfold Port.flush
  extract_lets seqd due fresh wait go go' r old again
  rw [Port.count_only, Port.stream_only]
  show (old ++ r.1 ++ wait).length = _
  have hold : old.length = seqd.length := List.length_map _
  have hgo : r.1.length = go.length := by
    rw [length_assignSeq, List.length_append, List.length_append, length_filter_ctl]
  have hseq : p.buf.length = seqd.length + fresh.length := by
    rw [List.length_eq_length_filter_add (fun x : Sent => x.seq.isSome) (l := p.buf)]
    simp only [Option.not_isSome, seqd, fresh]
  have hfresh : fresh.length = go.length + wait.length := List.length_eq_length_filter_add p.passes
  simp only [List.length_append]
  omega

/-- A control shot joins the buffer while it has room; registers and the last datum's note stand. -/
theorem Port.control_queues (e : PEnv) (p : Port) (c b : Nat) : (p.control e c b).regs = p.regs ∧ (p.control e c b).mySwap = p.mySwap ∧
    (p.control e c b).buf.length = if p.buf.length < 4096 then p.buf.length + 1 else p.buf.length := by
  unfold Port.control
  by_cases hroom : p.buf.length < 4096
  · rw [if_neg (by omega), if_pos hroom, Port.length_buf_flush, Port.regs_flush, Port.flush_only]
    exact ⟨rfl, rfl, by simp⟩
  · rw [if_pos (by omega), if_neg hroom]
    exact ⟨rfl, rfl, rfl⟩

/-- The outcome of swap requests is a role for the next boundary (R353). -/
theorem Port.swapJudge_only (e : PEnv) (p : Port) (peer : Nat) :
    p.swapJudge e peer = { p with nextRole := (p.swapJudge e peer).nextRole, swap := (p.swapJudge e peer).swap } := by
  unfold Port.swapJudge
  split
  · split
    · rfl
    · split <;> rfl
  · rfl

/-- A port that is not up sends no datum (R348). -/
theorem Port.sendDatum_down (e : PEnv) {p : Port} (h : p.state < 2) : p.sendDatum e = p := if_pos h

/-- A port that is up queues one datum and notes its frame and SWAPREQ (R348, R353). -/
theorem Port.sendDatum_up (e : PEnv) {p : Port} (h : 2 ≤ p.state) : (p.sendDatum e).state = p.state ∧
    (p.sendDatum e).mySwap = some (e.frame, p.swap) ∧
    (p.sendDatum e).buf.length = if p.buf.length < 4096 then p.buf.length + 1 else p.buf.length := by
  unfold Port.sendDatum
  rw [if_neg (by omega)]
  extract_lets d
  obtain ⟨hregs, hswap, hbuf⟩ := ({ p with mySwap := some (e.frame, p.swap) } : Port).control_queues e 1 d.body
  rw [Port.swapJudge_only]
  exact ⟨congrArg (Regs.rd · SL_STAT_STATE) hregs, hswap, hbuf⟩

/-! ## What the steps of a received datum leave -/

/-- From `p` to `q` the messages that wait, what the last datum said and the datums that are held stand, and so does every field apart from
those at `fs`. -/
structure Port.Leaves (fs : List Field) (p q : Port) : Prop where
  rx : q.rx = p.rx
  lastRx : q.lastRx = p.lastRx
  peerArm : q.peerArm = p.peerArm
  heldDatum : q.heldDatum = p.heldDatum
  rd : ∀ f, (∀ w ∈ fs, w.apart f 0 0 0 0 = true) → q.rd f = p.rd f

namespace Port.Leaves
variable {fs gs : List Field} {p q r : Port}

theorem refl (fs : List Field) (p : Port) : Leaves fs p p := ⟨rfl, rfl, rfl, rfl, fun _ _ => rfl⟩

theorem trans (h : Leaves fs p q) (k : Leaves fs q r) : Leaves fs p r :=
  ⟨k.rx.trans h.rx, k.lastRx.trans h.lastRx, k.peerArm.trans h.peerArm, k.heldDatum.trans h.heldDatum,
    fun f hf => (k.rd f hf).trans (h.rd f hf)⟩

theorem mono (h : Leaves fs p q) (hs : fs ⊆ gs) : Leaves gs p q :=
  ⟨h.rx, h.lastRx, h.peerArm, h.heldDatum, fun f hf => h.rd f fun w hw => hf w (hs hw)⟩

theorem wr {f : Field} {v : Nat} (hf : f ∈ fs) (h : Leaves fs p q) : Leaves fs p (q.wr f v) :=
  ⟨h.rx, h.lastRx, h.peerArm, h.heldDatum, fun g hg => (q.rd_wr_apart f g v (hg f hf)).trans (h.rd g hg)⟩

theorem flush {e : PEnv} (h : Leaves fs p q) : Leaves fs p (q.flush e) := by
  rw [Port.flush_only]
  exact ⟨h.rx, h.lastRx, h.peerArm, h.heldDatum, h.rd⟩

theorem bit (h : Leaves fs p q) {f : Field} (hf : ∀ w ∈ fs, w.apart f 0 0 0 0 = true) : q.bit f = p.bit f :=
  congrArg (· != 0) (h.rd f hf)

end Port.Leaves

/-! ## What a port shows of a datum (R349, R353) -/

/-- The port that has measured with a datum and noted it. -/
def Port.heard (p : Port) (d : Datum) (t : Nat) : Port :=
  { p.measure d t with
    lastRx := some (d.tsend, t), peerSwap := some (d.frame, d.swapReq), peerArm := if d.armed then some (d.cutf, d.inhash) else none }

/-- The port with its role settled against the partner's (R353). -/
def Port.takeRole (e : PEnv) (p : Port) (d : Datum) : Port :=
  if p.roleSet then p
  else if d.role = p.bit SL_STAT_ROLE then { p.wr SL_STAT_ROLE (if e.serial < d.serial then 1 else 0) with roleSet := true }
  else { p with roleSet := true }

/-- The port that shows the partner's serial number, firmware and offer. -/
def Port.showPeer (p : Port) (d : Datum) : Port :=
  (((p.wr SL_PSER_LO_SER (d.serial % 2 ^ 32)).wr SL_PSER_HI_SER (d.serial / 2 ^ 32)).wr SL_PFW_FW d.fwver).wr SL_JOIN_PEER d.offer

/-- The port that goes on sending where the partner's datum says, when it waits for that (R346). -/
def Port.resumed (e : PEnv) (p : Port) (d : Datum) : Port := if p.resume then p.resumeAt e d else p

/-- The port that has taken in a datum and not judged it yet. -/
def Port.told (e : PEnv) (p : Port) (d : Datum) (t : Nat) : Port :=
  ((((p.heard d t).takeRole e d).swapJudge e d.serial).showPeer d).resumed e d

/-- The port that has judged a datum, or holds it (R351). -/
def Port.acted (e : PEnv) (p : Port) (d : Datum) (t : Nat) : Port :=
  match e.armed with
  | some f => if f ≤ d.frame && e.later.isNone then { p with heldDatum := p.heldDatum ++ [(d, t)] } else p.judged e d
  | none => (p.judgeHeld e).judged e d

/-- The port that has named or copied a join frame, when no check fails (R354). -/
def Port.joining (e : PEnv) (p : Port) (d : Datum) : Port := if p.disRec.isNone then p.nameJoin e d else p

theorem Port.datumReceived_eq (e : PEnv) {p : Port} {b t : Nat} {rest : List (Nat × Nat)} (h : p.rx = (b, t) :: rest)
    (hb : b % 2 ^ 16 = 1) : p.datumReceived e =
      (((({ p with rx := rest } : Port).told e (Datum.ofBody b) t).acted e (Datum.ofBody b) t)).joining e (Datum.ofBody b) := by
  unfold Port.datumReceived
  rw [h]
  refine (if_neg (not_not.mpr hb)).trans ?_
  extract_lets d taken measured noted settled role swapped shown resumed ended judged
  have htold : resumed = taken.told e d t := rfl
  have hacted : judged = resumed.acted e d t := by
    dsimp only [judged, ended, Port.acted]
    cases e.armed <;> rfl
  show judged.joining e d = _
  rw [hacted, htold]

/-- Another message is left. -/
theorem Port.datumReceived_other (e : PEnv) {p : Port} (h : ∀ b t rest, p.rx = (b, t) :: rest → b % 2 ^ 16 ≠ 1) :
    p.datumReceived e = p := by
  unfold Port.datumReceived
  split
  · next hrx => exact if_pos (h _ _ _ hrx)
  · rfl

/-- The fields that a datum moves before it is judged. -/
def measuredFields : List Field := [SL_LAT_LAT, SL_OFS_OFS, SL_STAT_LATOK]
def peerFields : List Field := [SL_STAT_ROLE, SL_PSER_LO_SER, SL_PSER_HI_SER, SL_PFW_FW, SL_JOIN_PEER]

/-- A datum that echoes none of ours measures nothing (R349). -/
theorem Port.measure_none (p : Port) {d : Datum} (t : Nat) (h : d.echo = 0) : p.measure d t = p := if_pos h

theorem Port.measure_leaves (p : Port) (d : Datum) (t : Nat) : Leaves measuredFields p (p.measure d t) := by
  unfold Port.measure
  split
  · exact .refl _ _
  · exact .wr (by decide) (.wr (by decide) (.wr (by decide) (.refl _ _)))

theorem Port.measure_latok (p : Port) {d : Datum} (t : Nat) (h : d.echo ≠ 0) : (p.measure d t).bit SL_STAT_LATOK = true := by
  unfold Port.measure
  rw [if_neg h]
  exact Port.bit_wr_self _ SL_STAT_LATOK 1 (by decide) (by decide)

theorem Port.takeRole_leaves (e : PEnv) (p : Port) (d : Datum) : Leaves [SL_STAT_ROLE] p (p.takeRole e d) := by
  unfold Port.takeRole
  split
  · exact .refl _ _
  · split
    · have h : Leaves [SL_STAT_ROLE] p (p.wr SL_STAT_ROLE (if e.serial < d.serial then 1 else 0)) := .wr (by decide) (.refl _ _)
      exact ⟨h.rx, h.lastRx, h.peerArm, h.heldDatum, h.rd⟩
    · exact ⟨rfl, rfl, rfl, rfl, fun _ _ => rfl⟩

theorem Port.swapJudge_leaves (e : PEnv) (p : Port) (peer : Nat) : Leaves [] p (p.swapJudge e peer) := by
  rw [Port.swapJudge_only]
  exact ⟨rfl, rfl, rfl, rfl, fun _ _ => rfl⟩

theorem Port.showPeer_leaves (p : Port) (d : Datum) : Leaves peerFields p (p.showPeer d) :=
  .wr (by decide) (.wr (by decide) (.wr (by decide) (.wr (by decide) (.refl _ _))))

theorem Port.showPeer_shows (p : Port) (d : Datum) :
    (p.showPeer d).rd SL_PFW_FW = d.fwver % 2 ^ 32 ∧ (p.showPeer d).rd SL_JOIN_PEER = d.offer % 2 ^ 16 :=
  ⟨(Port.rd_wr_apart _ SL_JOIN_PEER SL_PFW_FW _ (by decide)).trans (Port.rd_wr_self _ SL_PFW_FW _ (by decide) (by decide)),
    Port.rd_wr_self _ SL_JOIN_PEER _ (by decide) (by decide)⟩

theorem Port.resumed_leaves (e : PEnv) (p : Port) (d : Datum) : Leaves [] p (p.resumed e d) := by
  unfold Port.resumed Port.resumeAt
  split
  · exact .flush ⟨rfl, rfl, rfl, rfl, fun _ _ => rfl⟩
  · exact .refl _ _

section Told
variable (e : PEnv) (p : Port) (d : Datum) (t : Nat)

/-- From its note of a datum to its judgement a port moves what it shows of the partner. -/
theorem Port.told_leaves : Leaves peerFields (p.heard d t) (p.told e d t) := by
  have hrole : Leaves peerFields (p.heard d t) ((p.heard d t).takeRole e d) := (Port.takeRole_leaves _ _ _).mono (by decide)
  have hswap := hrole.trans ((((p.heard d t).takeRole e d).swapJudge_leaves e d.serial).mono (List.nil_subset _))
  exact (hswap.trans (Port.showPeer_leaves _ d)).trans ((Port.resumed_leaves e _ d).mono (List.nil_subset _))

/-- It shows the partner's firmware and offer. -/
theorem Port.told_shows : (p.told e d t).rd SL_PFW_FW = d.fwver % 2 ^ 32 ∧ (p.told e d t).rd SL_JOIN_PEER = d.offer % 2 ^ 16 := by
  obtain ⟨hfw, hoffer⟩ := (((p.heard d t).takeRole e d).swapJudge e d.serial).showPeer_shows d
  have hkeep := Port.resumed_leaves e ((((p.heard d t).takeRole e d).swapJudge e d.serial).showPeer d) d
  exact ⟨(hkeep.rd _ (by decide)).trans hfw, (hkeep.rd _ (by decide)).trans hoffer⟩

theorem Port.rd_heard (f : Field) : (p.heard d t).rd f = (p.measure d t).rd f := rfl

/-- It keeps its state. -/
theorem Port.state_told : (p.told e d t).state = p.state :=
  ((p.told_leaves e d t).rd SL_STAT_STATE (by decide)).trans ((p.measure_leaves d t).rd SL_STAT_STATE (by decide))

theorem Port.heldDatum_told : (p.told e d t).heldDatum = p.heldDatum :=
  (p.told_leaves e d t).heldDatum.trans (p.measure_leaves d t).heldDatum

end Told

/-! ## Judging (R351, R352, Table 12-7) -/

/-- The fields that judging a datum reads, and those that it moves. -/
def judgedBy : List Field := [SL_OFS_OFS, SL_STAT_LATOK, SL_CTL_TOL]
def judgeFields : List Field := [SL_DIS_FAIL, SL_STAT_STATE, SL_STAT_DISEV]

/-- Ports that read alike where the checks look judge a datum alike. -/
theorem Port.judge_congr {e : PEnv} {p q : Port} {d : Datum} (h : ∀ f ∈ judgedBy, q.rd f = p.rd f) : q.judge e d = p.judge e d := by
  have hlatok : q.bit SL_STAT_LATOK = p.bit SL_STAT_LATOK := congrArg (· != 0) (h _ (by decide))
  unfold Port.judge
  rw [h SL_OFS_OFS (by decide), h SL_CTL_TOL (by decide), hlatok]

/-- Another frame length is a check that fails (R351). -/
theorem Port.judge_ne_zero_of_len (e : PEnv) (p : Port) {d : Datum} (h : (e.refFor d).len ≠ d.len) : p.judge e d ≠ 0 := by
  unfold Port.judge
  dsimp only
  rw [if_pos h.symm]
  omega

section Judged
variable (e : PEnv) (p : Port) (d : Datum)

theorem Port.judged_leaves : Leaves judgeFields p (p.judged e d) := by
  have hshow (v : Nat) : Leaves judgeFields p (p.wr SL_DIS_FAIL v) := .wr (by decide) (.refl _ _)
  unfold Port.judged
  extract_lets f p1 p2 p3 p4 p5 p6
  have h1 : Leaves judgeFields p p1 := hshow f
  split
  · have h2 : Leaves judgeFields p p2 := ⟨h1.rx, h1.lastRx, h1.peerArm, h1.heldDatum, h1.rd⟩
    have hready : Leaves judgeFields p p3 := .wr (by decide) h2
    split
    · exact .flush ⟨hready.rx, hready.lastRx, hready.peerArm, hready.heldDatum, hready.rd⟩
    · split
      · exact .flush hready
      · exact h2
  · have h4 : Leaves judgeFields p p4 := by
      dsimp only [p4]
      split
      · exact .wr (by decide) h1
      · exact h1
    have h5 : Leaves judgeFields p p5 := .wr (by decide) h4
    split <;> exact ⟨h5.rx, h5.lastRx, h5.peerArm, h5.heldDatum, h5.rd⟩

/-- A datum whose checks all pass takes HOLD, and DATUM with a measured latency, to READY (Table 12-5). -/
theorem Port.judged_agrees (h : p.judge e d = 0) :
    (p.judged e d).state = if p.state = 3 ∨ p.state = 2 ∧ p.bit SL_STAT_LATOK = true then 4 else p.state := by
  unfold Port.judged
  extract_lets f p1 p2
  rw [if_pos h]
  have hstate : p2.state = p.state := p.rd_wr_apart SL_DIS_FAIL SL_STAT_STATE f (by decide)
  have hlatok : p2.bit SL_STAT_LATOK = p.bit SL_STAT_LATOK := p.bit_wr_apart SL_DIS_FAIL SL_STAT_LATOK f (by decide)
  have hready : (p2.wr SL_STAT_STATE 4).state = 4 := Port.rd_wr_self _ SL_STAT_STATE 4 (by decide) (by decide)
  rw [hstate, hlatok]
  by_cases hhold : p.state = 3
  · rw [if_pos hhold, if_pos (.inl hhold), Port.state_flush]
    exact hready
  · rw [if_neg hhold]
    by_cases hdatum : p.state = 2 ∧ p.bit SL_STAT_LATOK = true
    · rw [if_pos (by simp [hdatum.1, hdatum.2]), if_pos (.inr hdatum), Port.state_flush]
      exact hready
    · rw [if_neg (by simpa using hdatum), if_neg (by tauto)]
      exact hstate

/-- A datum with a check that fails takes DATUM and READY to HOLD, sets DISEV, and ends a pending join (Table 12-5, R365). -/
theorem Port.judged_disagrees (h : p.judge e d ≠ 0) :
    (p.judged e d).state = (if p.state = 2 ∨ p.state = 4 then 3 else p.state) ∧ (p.judged e d).bit SL_STAT_DISEV = true ∧
    (p.judged e d).joinf = 0 ∧ (p.judged e d).disRec.isNone = false := by
  unfold Port.judged
  extract_lets f p1 p2 p3 p4 p5 p6
  rw [if_neg h]
  have h1 : p1.state = p.state := p.rd_wr_apart SL_DIS_FAIL SL_STAT_STATE f (by decide)
  have h4 : p4.state = if p.state = 2 ∨ p.state = 4 then 3 else p.state := by
    dsimp only [p4]
    rw [h1]
    split
    · exact Port.rd_wr_self _ SL_STAT_STATE 3 (by decide) (by decide)
    · exact h1
  have h5 : p5.state = _ := (p4.rd_wr_apart SL_STAT_DISEV SL_STAT_STATE 1 (by decide)).trans h4
  have hdisev : p5.bit SL_STAT_DISEV = true := p4.bit_wr_self SL_STAT_DISEV 1 (by decide) (by decide)
  split
  · next hsame => exact ⟨h5, hdisev, rfl, by rw [hsame]; rfl⟩
  · exact ⟨h5, hdisev, rfl, rfl⟩

/-- Judging keeps a port that was READY in HOLD or READY. -/
theorem Port.judged_holds (h : p.state = 3 ∨ p.state = 4) : (p.judged e d).state = 3 ∨ (p.judged e d).state = 4 := by
  by_cases hjudge : p.judge e d = 0
  · rw [p.judged_agrees e d hjudge]
    split
    · exact .inr rfl
    · exact h
  · rw [(p.judged_disagrees e d hjudge).1]
    split
    · exact .inl rfl
    · exact h

theorem Port.judgeHeld_holds (h : p.state = 3 ∨ p.state = 4) : (p.judgeHeld e).state = 3 ∨ (p.judgeHeld e).state = 4 :=
  List.foldlRecOn (motive := fun q : Port => q.state = 3 ∨ q.state = 4) _ _ h fun q hq d _ => q.judged_holds e d hq

theorem Port.judgeHeld_leaves : Leaves judgeFields { p with heldDatum := [] } (p.judgeHeld e) :=
  List.foldlRecOn (motive := Leaves judgeFields { p with heldDatum := [] }) _ _ (.refl _ _) fun q hq d _ => hq.trans (q.judged_leaves e d)

/-- A port that holds no datum judges none. -/
theorem Port.judgeHeld_none (h : p.heldDatum = []) : p.judgeHeld e = p := by
  rw [Port.judgeHeld, h]
  show { p with heldDatum := [] } = p
  rw [← h]

end Judged

/-! ## DATUM_RECEIVED -/

section Acted
variable {e : PEnv} {p : Port} {d : Datum} {t : Nat}

theorem Port.acted_none (h : e.armed = none) : p.acted e d t = (p.judgeHeld e).judged e d := by rw [Port.acted, h]

/-- With a share armed for F and no switch flag a datum for F or later is held (R351). -/
theorem Port.acted_held {f : Nat} (h : e.armed = some f) (hf : f ≤ d.frame) (hlater : e.later = none) :
    p.acted e d t = { p with heldDatum := p.heldDatum ++ [(d, t)] } := by
  rw [Port.acted, h]
  exact if_pos (by simp [hf, hlater])

end Acted

/-- What is judged or held, the rest of the port stands but for what judging moves. -/
theorem Port.acted_leaves (e : PEnv) (p : Port) (d : Datum) (t : Nat) :
    ∃ held, Leaves judgeFields { p with heldDatum := held } (p.acted e d t) := by
  unfold Port.acted
  split
  · split
    · exact ⟨_, .refl _ _⟩
    · exact ⟨p.heldDatum, p.judged_leaves e d⟩
  · exact ⟨[], (p.judgeHeld_leaves e).trans (Port.judged_leaves e _ d)⟩

theorem Port.joining_leaves (e : PEnv) (p : Port) (d : Datum) : Leaves [] p (p.joining e d) := by
  unfold Port.joining Port.nameJoin
  extract_lets q both
  split
  · split
    · split <;> exact ⟨rfl, rfl, rfl, rfl, fun _ _ => rfl⟩
    · exact ⟨rfl, rfl, rfl, rfl, fun _ _ => rfl⟩
  · exact .refl _ _

theorem Port.state_joining (e : PEnv) (p : Port) (d : Datum) : (p.joining e d).state = p.state :=
  (p.joining_leaves e d).rd SL_STAT_STATE (by decide)

section Received
variable (e : PEnv) {p : Port} {b t : Nat} {rest : List (Nat × Nat)} (hrx : p.rx = (b, t) :: rest) (hb : b % 2 ^ 16 = 1)
include hrx hb

/-- A received datum leaves the queue, and the port shows it (R346, R349 to R353). -/
theorem Port.datumReceived_shows {d : Datum} (hd : d = Datum.ofBody b) : (p.datumReceived e).rx = rest ∧
    (p.datumReceived e).lastRx = some (d.tsend, t) ∧ (p.datumReceived e).rd SL_PFW_FW = d.fwver ∧
    (p.datumReceived e).rd SL_JOIN_PEER = d.offer ∧
    (p.datumReceived e).peerArm = (if d.armed then some (d.cutf, d.inhash) else none) ∧
    (d.echo ≠ 0 → (p.datumReceived e).bit SL_STAT_LATOK = true) := by
  subst hd
  rw [Port.datumReceived_eq e hrx hb]
  generalize hz : ({ p with rx := rest } : Port) = z
  have hmeasure := z.measure_leaves (Datum.ofBody b) t
  have htold := z.told_leaves e (Datum.ofBody b) t
  obtain ⟨held, hacted⟩ := (z.told e (Datum.ofBody b) t).acted_leaves e (Datum.ofBody b) t
  have hjoin := ((z.told e (Datum.ofBody b) t).acted e (Datum.ofBody b) t).joining_leaves e (Datum.ofBody b)
  have hend := hacted.trans (hjoin.mono (List.nil_subset _))
  obtain ⟨hfw, hoffer⟩ := z.told_shows e (Datum.ofBody b) t
  refine ⟨?_, hend.lastRx.trans htold.lastRx, ?_, ?_, hend.peerArm.trans htold.peerArm, fun hecho => ?_⟩
  · rw [hend.rx]
    exact htold.rx.trans (hmeasure.rx.trans (by rw [← hz]))
  · rw [hend.rd _ (by decide)]
    exact hfw.trans (Nat.mod_eq_of_lt (Nat.mod_lt _ (by decide)))
  · rw [hend.rd _ (by decide)]
    exact hoffer.trans (Nat.mod_eq_of_lt (Nat.mod_lt _ (by decide)))
  · rw [hend.bit (by decide)]
    exact (htold.bit (by decide)).trans (z.measure_latok t hecho)

/-- A READY port whose partner has another frame length goes to HOLD (R351, R352). -/
theorem Port.datumReceived_disagrees (harmed : e.armed = none) (hready : p.state = 4)
    (hlen : (e.refFor (Datum.ofBody b)).len ≠ (Datum.ofBody b).len) :
    (p.datumReceived e).state = 3 ∧ (p.datumReceived e).bit SL_STAT_DISEV = true ∧ (p.datumReceived e).joinf = 0 := by
  rw [Port.datumReceived_eq e hrx hb, Port.acted_none harmed]
  generalize hz : (({ p with rx := rest } : Port).told e (Datum.ofBody b) t).judgeHeld e = z
  have hup : z.state = 3 ∨ z.state = 4 := by
    rw [← hz]
    exact Port.judgeHeld_holds e _ (.inr ((Port.state_told _ _ _ _).trans hready))
  obtain ⟨hstate, hdisev, hjoinf, hrec⟩ := z.judged_disagrees e (Datum.ofBody b) (z.judge_ne_zero_of_len e hlen)
  rw [Port.joining, hrec, if_neg (by decide)]
  refine ⟨hstate.trans ?_, hdisev, hjoinf⟩
  rcases hup with h | h
  · rw [if_neg (by omega), h]
  · rw [if_pos (.inr h)]

/-- A datum whose checks all pass takes HOLD, and DATUM with a measured latency, to READY (R352). -/
theorem Port.datumReceived_agrees (harmed : e.armed = none) (hheld : p.heldDatum = []) (hecho : (Datum.ofBody b).echo = 0)
    (hjudge : p.judge e (Datum.ofBody b) = 0) :
    (p.datumReceived e).state = if p.state = 3 ∨ p.state = 2 ∧ p.bit SL_STAT_LATOK = true then 4 else p.state := by
  rw [Port.datumReceived_eq e hrx hb, Port.acted_none harmed, Port.state_joining,
    Port.judgeHeld_none e _ ((Port.heldDatum_told e { p with rx := rest } _ _).trans hheld)]
  have htold := ({ p with rx := rest } : Port).told_leaves e (Datum.ofBody b) t
  have hread {f : Field} (hf : ∀ w ∈ peerFields, w.apart f 0 0 0 0 = true) :
      (({ p with rx := rest } : Port).told e (Datum.ofBody b) t).rd f = p.rd f := by
    rw [htold.rd f hf, Port.rd_heard, Port.measure_none _ t hecho]
    rfl
  have hapart : ∀ f ∈ judgedBy, ∀ w ∈ peerFields, w.apart f 0 0 0 0 = true := by decide
  have hzero := (Port.judge_congr (e := e) (d := Datum.ofBody b) fun f hf => hread (hapart f hf)).trans hjudge
  have hlatok : (({ p with rx := rest } : Port).told e (Datum.ofBody b) t).bit SL_STAT_LATOK = p.bit SL_STAT_LATOK :=
    congrArg (· != 0) (hread (by decide))
  rw [Port.judged_agrees e _ _ hzero, Port.state_told, hlatok]
  rfl

/-- A datum that is held is not judged. -/
theorem Port.datumReceived_held {f : Nat} (harmed : e.armed = some f) (hf : f ≤ (Datum.ofBody b).frame) (hlater : e.later = none) :
    (p.datumReceived e).state = p.state ∧ (p.datumReceived e).heldDatum = p.heldDatum ++ [(Datum.ofBody b, t)] := by
  rw [Port.datumReceived_eq e hrx hb, Port.acted_held harmed hf hlater, Port.state_joining, (Port.joining_leaves e _ _).heldDatum]
  exact ⟨Port.state_told _ _ _ _, congrArg (· ++ _) (Port.heldDatum_told _ _ _ _)⟩

end Received

end Sys2Proof.Machine

/-!
PROOFS. Control messages and landings (12_sightlines.md R357 to R361): a parcel that the partner no longer offers, frames that are void, and
tiles and drive words that land in the port's home region.
-/
namespace Sys2Proof.Machine

/-! ## The home region and what a port's step leaves of it -/

theorem State.setPort_eq (s : State) {k : Nat} (p : Port) (hk : k < 24) : s.setPort k p = { s with ports := s.ports.put portZero k p } :=
  if_pos hk

/-- The home is named by the lane assignment (R334). -/
theorem State.homeOf_setPort (s : State) (k j : Nat) (p : Port) : (s.setPort k p).homeOf j = s.homeOf j := by
  unfold State.homeOf State.lane
  rw [State.setPort_plat]

theorem State.region_setPort (s : State) (k n : Nat) (p : Port) : (s.setPort k p).region n = s.region n := by
  rw [State.region, State.setPort_regions, State.region]

theorem State.region_onPort (s : State) (k t n : Nat) (f : PEnv → Port → Port) : (s.onPort k t f).region n = s.region n := by
  rw [State.region, State.onPort_regions, State.region]

/-- The surroundings of a region do not name the ports. -/
theorem State.renv_setPort (s : State) {k : Nat} (p : Port) (n c : Nat) (hk : k < 24) : (s.setPort k p).renv n c = s.renv n c := by
  rw [s.setPort_eq p hk]
  rfl

/-- A region's step leaves the ports. -/
theorem RegionFrame.port {n : Nat} {s t : State} (h : RegionFrame n s t) (k : Nat) : t.port k = s.port k := by
  rw [h.1]
  rfl

theorem State.onRegion_frame (s : State) (n cyc : Nat) (f : REnv → Region → Region) : RegionFrame n s (s.onRegion n cyc f) :=
  s.putRegion_frame n _

/-! ## VOID_CONTEXT_RECEIVED (R359) -/

/-- A parcel that leaves the partner's offers. -/
theorem Port.testBit_peerLeaves (p : Port) (k : Nat) : ((p.peerLeaves k).rd SL_JOIN_PEER).testBit k = false := by
  have hfield : (p.peerLeaves k).rd SL_JOIN_PEER = Port.peerLeaves.setOff (p.rd SL_JOIN_PEER) k % 2 ^ 16 :=
    p.rd_wr_self SL_JOIN_PEER _ (by decide) (by decide)
  have hoff (m : Nat) : (Port.peerLeaves.setOff m k).testBit k = false := by
    unfold Port.peerLeaves.setOff
    split
    · next hset => exact testBit_sub_two_pow_self hset
    · next hclear => exact eq_false_of_ne_true hclear
  rw [hfield, Nat.testBit_mod_two_pow, hoff, Bool.and_false]

section VoidContext
variable {k b at_ : Nat} {rest : List (Nat × Nat)} {s : State} (hk : k < 24) (hrx : (s.port k).rx = (b, at_) :: rest)
include hrx

theorem exec_voidContextReceived_other (hb : b % 2 ^ 16 ≠ 3) : exec (.voidContextReceived k) s = .next s := by
  show execVoidContextReceived k s = _
  unfold execVoidContextReceived
  dsimp only
  rw [hrx]
  exact if_neg hb

include hk

/-- A void-context message is taken: of a joined parcel it clears the offer, of another it is discarded. -/
theorem exec_voidContextReceived_takes (hb : b % 2 ^ 16 = 3) : ∃ t, exec (.voidContextReceived k) s = .next t ∧ (t.port k).rx = rest ∧
    (((s.port k).rd SL_JOIN_JOINED).testBit (field b 16 4) = true → ((t.port k).rd SL_JOIN_PEER).testBit (field b 16 4) = false) ∧
    (((s.port k).rd SL_JOIN_JOINED).testBit (field b 16 4) = false →
      t.port k = ({ s.port k with rx := rest } : Port).discard.atRest) := by
  have hexec : exec (.voidContextReceived k) s =
      if ((s.port k).rd SL_JOIN_JOINED).testBit (field b 16 4) then
        .next ((s.setPort k { s.port k with rx := rest }).onPort k (s.setPort k { s.port k with rx := rest }).now16
          (fun e p => (p.peerLeaves (field b 16 4)).raise e
            { cls := 8, subtype := 0xF3, level := 4, parcel := field b 16 4, specific := field b 16 4 + 2 ^ 4 * field b 20 2 }))
      else .next ((s.setPort k { s.port k with rx := rest }).onPort k (s.setPort k { s.port k with rx := rest }).now16
        (fun _ p => p.discard)) := by
    show execVoidContextReceived k s = _
    unfold execVoidContextReceived
    dsimp only
    rw [hrx]
    exact if_pos hb
  rw [hexec]
  split
  · next hjoined =>
    refine ⟨_, rfl, ?_, fun _ => ?_, fun hno => absurd (hjoined.symm.trans hno) (by decide)⟩
    · rw [State.port_onPort_self _ _ _ _ hk, State.port_setPort_self _ _ _ hk]
      rfl
    · rw [State.port_onPort_self _ _ _ _ hk]
      exact Port.testBit_peerLeaves _ _
  · next hnot =>
    refine ⟨_, rfl, ?_, fun hyes => absurd hyes hnot, fun _ => ?_⟩
    · rw [State.port_onPort_self _ _ _ _ hk, State.port_setPort_self _ _ _ hk]
      rfl
    · rw [State.port_onPort_self _ _ _ _ hk, State.port_setPort_self _ _ _ hk]
      rfl

end VoidContext

/-! ## What transfers that start leave of the streams -/

/-- From `z` to `g` the running states of the store streams and the words of the landing records stand. -/
structure StreamsStand (z g : Region) : Prop where
  strms : g.strms = z.strms
  word : ∀ o, 0x1600 ≤ o → o < 0x1680 → g.regs.word .region o = z.regs.word .region o

namespace StreamsStand
variable {z g y : Region}

theorem refl (g : Region) : StreamsStand g g := ⟨rfl, fun _ _ _ => rfl⟩

theorem trans (h : StreamsStand z g) (k : StreamsStand g y) : StreamsStand z y :=
  ⟨k.strms.trans h.strms, fun o hlo hhi => (k.word o hlo hhi).trans (h.word o hlo hhi)⟩

theorem of_reports {W : List Nat} (h : Reports W z g) (hW : ∀ o ∈ W, o < 0x1600 ∨ 0x1680 ≤ o) : StreamsStand z g :=
  ⟨(congrArg Region.strms h.rest :), fun o hlo hhi => h.word o fun ho => by
    have := hW o ho
    omega⟩

theorem of_driven {n i fr : Nat} (h : Driven n i fr z g) : StreamsStand z g :=
  ⟨(congrArg Region.strms h.rest :), fun _ _ _ => by rw [h.regs]⟩

theorem setXfer {x : Xfer} (h : StreamsStand z g) : StreamsStand z (g.setXfer x) := ⟨h.strms, h.word⟩

theorem driveDone {e : REnv} {n i fr m : Nat} (h : StreamsStand z g) : StreamsStand z (Region.driveDone e n i fr m g) :=
  h.trans (of_driven (.driveDone (.refl n i fr g)))

/-- A transfer that starts. -/
theorem startX (e : REnv) (g : Region) (x : Xfer) (gv : Bool) : StreamsStand g (g.startX e x gv) := by
  have hread : StreamsStand g (g.indexRead e x) := by
    refine of_reports (g.indexRead_reports e x) fun o ho => ?_
    simp only [startWords, storeStatWords, List.mem_cons, List.not_mem_nil, or_false] at ho
    omega
  by_cases hop : g.sdOp x.eng x.desc = 3
  · rw [Region.startX_indexed e g x gv hop]
    split
    · exact hread.setXfer
    · refine driveDone (setXfer ?_)
      split
      · exact hread
      · exact hread.trans (of_reports (W := [0x828, 0x10100]) (.raise (by decide) (.wr rfl (by decide) (.refl _ _))) (by decide))
  · rw [Region.startX_contiguous e g x gv hop]
    refine setXfer (of_reports (g.lastStarted_reports e x) fun o ho => ?_)
    rw [List.mem_singleton] at ho
    omega

/-- A waiting transfer starts or goes on waiting. -/
theorem tryStart (e : REnv) (g : Region) (x : Xfer) : StreamsStand g (g.tryStart e x) := by
  unfold Region.tryStart
  dsimp only
  split
  · exact refl g
  · split
    · exact startX e g x _
    · split
      · exact refl g
      · exact startX e g x _

theorem tryAll (e : REnv) (g : Region) : StreamsStand g (g.tryAll e) :=
  List.foldlRecOn (motive := StreamsStand g) _ _ (refl g) fun y hy x _ => hy.trans (tryStart e y x)

theorem showWait (g : Region) : StreamsStand g g.showWait := of_reports g.showWait_reports (by decide)

/-- The stream of a landing record reads the same. -/
theorem wstrm (h : StreamsStand z g) {k : Nat} (hk : k < 16) : g.rd SL_LAND0_WSTRM k = z.rd SL_LAND0_WSTRM k :=
  congrArg (bitsOf · 9 4) (h.word (SL_LAND0_WSTRM.at k) (by simp only [Field.at]; omega) (by simp only [Field.at]; omega))

end StreamsStand

/-! ## Landing records that are voided (R359) -/

/-- The region with frame `n` noted at the stream of landing record `k`. -/
def Region.frameNoted (g : Region) (k n : Nat) : Region :=
  g.setStrm (g.rd SL_LAND0_WSTRM k)
    { g.strm (g.rd SL_LAND0_WSTRM k) with
      notices := ((g.strm (g.rd SL_LAND0_WSTRM k)).notices.filter (fun x => x != n % 2 ^ 16)) ++ [n % 2 ^ 16]
      saved := (g.strm (g.rd SL_LAND0_WSTRM k)).saved.map
        (fun x => if x.2.frame = n % 2 ^ 16 then (x.1, { x.2 with void := true }) else x) }

/-- What is driven for the notice leaves the streams. -/
theorem Region.voidLeg_streams (e : REnv) (g : Region) (k n : Nat) : StreamsStand (g.frameNoted k n) (g.voidLeg e k n) := by
  unfold Region.voidLeg
  dsimp only
  split
  · exact .refl _
  · refine .trans (.trans ?_ (.tryAll e _)) (.showWait _)
    exact ⟨rfl, fun _ _ _ => rfl⟩

section Notices
variable (e : REnv) (g : Region) (k n : Nat)

theorem Region.frameNoted_notices (i : Nat) (h : n % 2 ^ 16 ∈ (g.strm i).notices ∨ i = g.rd SL_LAND0_WSTRM k) :
    n % 2 ^ 16 ∈ ((g.frameNoted k n).strm i).notices := by
  by_cases hi : i = g.rd SL_LAND0_WSTRM k
  · subst hi
    rw [Region.frameNoted, Region.strm, Region.setStrm, SMap.get_put_self]
    exact List.mem_append_right _ (List.mem_singleton_self _)
  · rw [Region.frameNoted, Region.strm, Region.setStrm, SMap.get_put_ne _ _ _ _ _ hi]
    exact h.resolve_right hi

/-- A frame stays noted at a stream, and is noted at that of the record. -/
theorem Region.voidLeg_notices (i : Nat) (h : n % 2 ^ 16 ∈ (g.strm i).notices ∨ i = g.rd SL_LAND0_WSTRM k) :
    n % 2 ^ 16 ∈ ((g.voidLeg e k n).strm i).notices := by
  rw [Region.strm, (g.voidLeg_streams e k n).strms]
  exact g.frameNoted_notices k n i h

theorem Region.voidLeg_wstrm {j : Nat} (hj : j < 16) : (g.voidLeg e k n).rd SL_LAND0_WSTRM j = g.rd SL_LAND0_WSTRM j :=
  (g.voidLeg_streams e k n).wstrm hj

/-- After all its records a frame is noted at the stream of each. -/
theorem Region.voidLegs_notices {l : List Nat} (hl : ∀ j ∈ l, j < 16) (i : Nat)
    (h : n % 2 ^ 16 ∈ (g.strm i).notices ∨ ∃ j ∈ l, i = g.rd SL_LAND0_WSTRM j) :
    n % 2 ^ 16 ∈ ((l.foldl (fun g k => g.voidLeg e k n) g).strm i).notices := by
  induction l generalizing g with
  | nil => exact h.resolve_right fun ⟨_, hj, _⟩ => List.not_mem_nil hj
  | cons a l ih =>
    refine ih (g.voidLeg e a n) (fun j hj => hl j (List.mem_cons_of_mem _ hj)) ?_
    rcases h with h | ⟨j, hj, hi⟩
    · exact .inl (g.voidLeg_notices e a n i (.inl h))
    · rcases List.mem_cons.mp hj with rfl | hj
      · exact .inl (g.voidLeg_notices e j n i (.inr hi))
      · exact .inr ⟨j, hj, hi.trans (g.voidLeg_wstrm e a n (hl j (List.mem_cons_of_mem _ hj))).symm⟩

end Notices

/-- The landing records of the parcel whose frame is committed already (R359, log 69). -/
def State.lateLandings (s : State) (m q p n : Nat) : List Nat :=
  ((s.region m).landings q p).filter (fun k => (s.region m).lateNotice s.frame.num k n)

/-- The others. -/
def State.openLandings (s : State) (m q p n : Nat) : List Nat :=
  ((s.region m).landings q p).filter (fun k => !(s.lateLandings m q p n).contains k)

/-- The device whose home region has the frame noted at the open records. -/
def State.notedAt (s : State) (m q p n : Nat) : State :=
  s.onRegion m 0 (fun e g => (s.openLandings m q p n).foldl (fun g k => g.voidLeg e k n) g)

section Notice
variable {s : State} {k m q p n : Nat}

theorem State.voidNotice_none (h : s.homeOf k = none) : s.voidNotice k p n = s := by rw [State.voidNotice, h]

theorem State.voidNotice_home (h : s.homeOf k = some (m, q)) : s.voidNotice k p n =
    if (s.lateLandings m q p n).isEmpty then s.notedAt m q p n
    else (s.notedAt m q p n).onPort k (s.notedAt m q p n).now16
      (fun e p => (p.wr SL_STAT_LATE 1).raise e { cls := 8, subtype := 0x86, level := 4 }) := by
  rw [State.voidNotice, h]
  rfl

/-- A notice takes no message from the port. -/
theorem State.rx_voidNotice (s : State) (k p n : Nat) (hk : k < 24) : ((s.voidNotice k p n).port k).rx = (s.port k).rx := by
  cases h : s.homeOf k with
  | none => rw [State.voidNotice_none h]
  | some x =>
    obtain ⟨m, q⟩ := x
    have hport : (s.notedAt m q p n).port k = s.port k := (s.onRegion_frame m 0 _).port k
    rw [State.voidNotice_home h]
    split
    · rw [hport]
    · rw [State.port_onPort_self _ _ _ _ hk, hport]
      rfl

/-- The frame is noted at every landing record whose frame is not committed. -/
theorem State.voidNotice_notices (h : s.homeOf k = some (m, q)) (hm : m < 24) {j : Nat} (hj : j ∈ (s.region m).landings q p)
    (hopen : (s.region m).lateNotice s.frame.num j n = false) :
    n % 2 ^ 16 ∈ (((s.voidNotice k p n).region m).strm ((s.region m).rd SL_LAND0_WSTRM j)).notices := by
  have hregion : (s.voidNotice k p n).region m = (s.notedAt m q p n).region m := by
    rw [State.voidNotice_home h]
    split
    · rfl
    · rw [State.region_onPort]
  have hopens : j ∈ s.openLandings m q p n := by
    refine List.mem_filter.mpr ⟨hj, ?_⟩
    simp [State.lateLandings, hopen]
  have hbound : ∀ i ∈ s.openLandings m q p n, i < 16 := fun i hi =>
    List.mem_range.mp (List.mem_filter.mp (List.mem_filter.mp hi).1).1
  rw [hregion, State.notedAt, State.onRegion, State.region_putRegion_self _ _ _ hm]
  exact (s.region m).voidLegs_notices _ n hbound _ (.inr ⟨j, hopens, rfl⟩)

/-- A notice that comes too late sets LATE. -/
theorem State.voidNotice_late (hk : k < 24) (h : s.homeOf k = some (m, q)) {j : Nat} (hj : j ∈ (s.region m).landings q p)
    (hlate : (s.region m).lateNotice s.frame.num j n = true) : ((s.voidNotice k p n).port k).bit SL_STAT_LATE = true := by
  have hmem : j ∈ s.lateLandings m q p n := List.mem_filter.mpr ⟨hj, hlate⟩
  have hsome : ¬ (s.lateLandings m q p n).isEmpty = true := fun hnil => by
    rw [List.isEmpty_iff.mp hnil] at hmem
    exact List.not_mem_nil hmem
  rw [State.voidNotice_home h, if_neg hsome, State.port_onPort_self _ _ _ _ hk]
  exact Port.bit_wr_self _ SL_STAT_LATE 1 (by decide) (by decide)

end Notice

/-! ## FRAME_VOID_NOTICE (R359) -/

section FrameVoid
variable {k b at_ : Nat} {rest : List (Nat × Nat)} {s : State} (hrx : (s.port k).rx = (b, at_) :: rest)
include hrx

theorem exec_frameVoidNotice_other (hb : b % 2 ^ 16 ≠ 2) : exec (.frameVoidNotice k) s = .next s := by
  show execFrameVoidNotice k s = _
  unfold execFrameVoidNotice
  dsimp only
  rw [hrx]
  exact if_neg hb

theorem exec_frameVoidNotice_takes (hb : b % 2 ^ 16 = 2) : exec (.frameVoidNotice k) s =
    .next ((s.setPort k { s.port k with rx := rest }).voidNotice k (field b 16 4) (field b 64 48)) := by
  show execFrameVoidNotice k s = _
  unfold execFrameVoidNotice
  dsimp only
  rw [hrx]
  exact if_pos hb

/-- A notice is taken, its frame noted at the open records, and LATE set for one that comes too late. -/
theorem exec_frameVoidNotice_notes (hk : k < 24) (hb : b % 2 ^ 16 = 2) : ∃ t, exec (.frameVoidNotice k) s = .next t ∧
    (t.port k).rx = rest ∧ (s.homeOf k = none → t.regions = s.regions) ∧
    (∀ m q j, s.homeOf k = some (m, q) → m < 24 → j ∈ (s.region m).landings q (field b 16 4) →
      ((s.region m).lateNotice s.frame.num j (field b 64 48) = false →
        field b 64 48 % 2 ^ 16 ∈ ((t.region m).strm ((s.region m).rd SL_LAND0_WSTRM j)).notices) ∧
      ((s.region m).lateNotice s.frame.num j (field b 64 48) = true → (t.port k).bit SL_STAT_LATE = true)) := by
  refine ⟨_, exec_frameVoidNotice_takes hrx hb, ?_, fun hnone => ?_, fun m q j hhome hm hj => ?_⟩
  · rw [State.rx_voidNotice _ _ _ _ hk, State.port_setPort_self _ _ _ hk]
  · rw [State.voidNotice_none ((s.homeOf_setPort k k _).trans hnone), State.setPort_regions]
  · have hhome' := (s.homeOf_setPort k k { s.port k with rx := rest }).trans hhome
    have hregion := s.region_setPort k m { s.port k with rx := rest }
    have hframe := s.setPort_frame k { s.port k with rx := rest }
    generalize s.setPort k { s.port k with rx := rest } = x at hhome' hregion hframe ⊢
    rw [← hregion] at hj ⊢
    rw [← hframe]
    exact ⟨State.voidNotice_notices hhome' hm hj, State.voidNotice_late hk hhome' hj⟩

end FrameVoid

/-! ## LANDING_TILE (R360, R361) -/

/-- The step of a region at which a drive word lands. -/
def Region.landDrive (e : REnv) (g : Region) (q : Nat) (h : Hdr) : Region :=
  match g.landing q h.leg with
  | some k => g.driveWord e (g.rd SL_LAND0_WSTRM k) h
  | none => g.raise e { cls := 2, subtype := 0x54, level := 2, parcel := h.parcel, object := 2 ^ 16 * h.leg + 2 ^ 32 * h.seq, objkind := 3 }

/-- A region without a landing record for the leg reports the word. -/
theorem Region.landDrive_none {e : REnv} {g : Region} {q : Nat} {h : Hdr} (hno : g.landing q h.leg = none) :
    (g.landDrive e q h).store = g.store ∧ (g.landDrive e q h).driveq = g.driveq := by
  rw [Region.landDrive, hno]
  have hraise (r : ErrRec) : Reports [0x828] g (g.raise e r) := .raise (by decide) (.refl _ g)
  exact ⟨(hraise _).store, (congrArg Region.driveq (hraise _).rest :)⟩

/-- Words leave the port, and the home region, when it is not lost, makes a step. -/
theorem landed_step {k m tm : Nat} (s : State) (words : List FWord) (f : REnv → Region → Region) (hk : k < 24) (hm : m < 24) :
    ((((s.setPort k { s.port k with rxw := words }).onLiveRegion m tm f).port k).rxw = words) ∧
    ((s.region m).lost = true → ((s.setPort k { s.port k with rxw := words }).onLiveRegion m tm f).regions = s.regions) ∧
    ((s.region m).lost = false → ((s.setPort k { s.port k with rxw := words }).onLiveRegion m tm f).region m =
      (f (s.renv m tm) (s.region m)).atRest) := by
  refine ⟨?_, fun hlost => ?_, fun hlive => ?_⟩
  · rw [(State.onLiveRegion_frame _ m tm f).port, State.port_setPort_self _ _ _ hk]
  · rw [State.onLiveRegion_lost _ _ _ _ (by rw [State.region_setPort, hlost]), State.setPort_regions]
  · rw [State.region_onLiveRegion_self _ _ _ _ hm (by rw [State.region_setPort, hlive]), State.renv_setPort _ _ _ _ hk,
      State.region_setPort]
    rfl

section Landing
variable {k tm m q : Nat} {s : State} {w : FWord} {rest : List FWord}

theorem exec_landingTile_none (h : s.homeOf k = none ∨ (s.port k).rxw = []) : exec (.landingTile k tm) s = .next s := by
  show execLandingTile k tm s = _
  unfold execLandingTile
  dsimp only
  rcases h with h | h
  · rw [h]
  · rw [h]
    cases s.homeOf k <;> rfl

variable (hhome : s.homeOf k = some (m, q)) (hrxw : (s.port k).rxw = w :: rest)
include hhome hrxw

theorem exec_landingTile_drive (hfmt : (Hdr.ofBits w.data).fmt = 15) : exec (.landingTile k tm) s =
    .next ((s.setPort k { s.port k with rxw := rest }).onLiveRegion m tm (fun e g => g.landDrive e q (Hdr.ofBits w.data))) := by
  show execLandingTile k tm s = _
  unfold execLandingTile
  dsimp only
  rw [hhome, hrxw]
  exact if_pos hfmt

theorem exec_landingTile_open (hfmt : (Hdr.ofBits w.data).fmt ≠ 15) (hopen : splitTile (s.port k).rxw = none) :
    exec (.landingTile k tm) s = .next s := by
  show execLandingTile k tm s = _
  unfold execLandingTile
  rw [hrxw] at hopen
  dsimp only
  rw [hhome, hrxw]
  dsimp only
  rw [if_neg hfmt, hopen]

theorem exec_landingTile_tile {tile more : List FWord} (hfmt : (Hdr.ofBits w.data).fmt ≠ 15)
    (hwhole : splitTile (s.port k).rxw = some (tile, more)) : exec (.landingTile k tm) s =
      .next ((s.setPort k { s.port k with rxw := more }).onLiveRegion m tm
        (fun e g => g.landTile e q (Hdr.ofBits w.data) (tile.tail.map (fun x => x.data)))) := by
  show execLandingTile k tm s = _
  unfold execLandingTile
  rw [hrxw] at hwhole
  dsimp only
  rw [hhome, hrxw]
  dsimp only
  rw [if_neg hfmt, hwhole]

end Landing

/-- Settles O39: a datum is sent by `Port.sendDatum_up` and taken by `Port.datumReceived_eq`; a void context and a notice are taken by
`exec_voidContextReceived_takes` and `exec_frameVoidNotice_notes`; what lands is a step of the home region (`landed_step`). -/
theorem sightlineDatums : Obligations.SightlineDatums := by
  unfold Obligations.SightlineDatums
  rintro k tm s p E hk rfl rfl
  have hreceived := exec_port_step (c := .datumReceived k tm) (s := s) rfl hk
  have hother (h : ∀ b at_ rest, (s.port k).rx = (b, at_) :: rest → b % 2 ^ 16 ≠ 1) :
      ∃ t, exec (.datumReceived k tm) s = .next t ∧ t.port k = (s.port k).atRest := by
    obtain ⟨t, hexec, hport⟩ := hreceived
    exact ⟨t, hexec, hport.trans (congrArg Port.atRest (Port.datumReceived_other _ h))⟩
  refine ⟨fun hstill => ?still, fun hup hready => ?sent, fun hnil => ?empty, fun b at_ rest hrx =>
    ⟨fun hb => hother fun b' _ _ hrx' => ?another, exec_frameVoidNotice_other hrx, exec_voidContextReceived_other hrx,
      fun d hb hd => ?datum, exec_voidContextReceived_takes hk hrx, exec_frameVoidNotice_notes hrx hk⟩,
    exec_landingTile_none, fun m q w rest hhome hm hrxw => ⟨fun hfmt => ?drive, exec_landingTile_open hhome hrxw,
      fun tile more hfmt hwhole => ⟨_, exec_landingTile_tile hhome hrxw hfmt hwhole, landed_step s more _ hk hm⟩⟩⟩
  case still =>
    obtain ⟨t, hexec, hport⟩ := exec_port_step (c := .datumTimer k tm) (s := s) rfl hk
    refine ⟨t, hexec, hport.trans (congrArg Port.atRest ?_)⟩
    rcases hstill with hdown | hready
    · rw [Port.sendDatum_down _ hdown, ite_self]
    · exact if_pos hready
  case sent =>
    obtain ⟨t, hexec, hport⟩ := exec_port_step (c := .datumTimer k tm) (s := s) rfl hk
    rw [if_neg hready] at hport
    refine ⟨t, hexec, ?_⟩
    rw [hport]
    exact Port.sendDatum_up _ hup
  case empty =>
    refine ⟨hother fun b at_ rest hrx => absurd (hnil.symm.trans hrx) (List.cons_ne_nil _ _).symm, ?_, ?_⟩
    · show execVoidContextReceived k s = _
      unfold execVoidContextReceived
      dsimp only
      rw [hnil]
    · show execFrameVoidNotice k s = _
      unfold execFrameVoidNotice
      dsimp only
      rw [hnil]
  case another =>
    rw [hrx] at hrx'
    injection hrx' with hhead
    injection hhead with hbody
    exact hbody ▸ hb
  case datum =>
    obtain ⟨t, hexec, hport⟩ := hreceived
    obtain ⟨hrest, hlast, hfw, hoffer, harm, hlatok⟩ := Port.datumReceived_shows (s.penv k tm) hrx hb hd
    refine ⟨t, hexec, ?_⟩
    rw [hport]
    subst hd
    exact ⟨hrest, hlast, hfw, hoffer, harm, hlatok, fun harmed => Port.datumReceived_disagrees _ hrx hb harmed,
      fun harmed => Port.datumReceived_agrees _ hrx hb harmed, fun f harmed => Port.datumReceived_held _ hrx hb harmed⟩
  case drive =>
    obtain ⟨hwords, hlost, hlive⟩ := landed_step (tm := tm) s rest (fun e g => g.landDrive e q (Hdr.ofBits w.data)) hk hm
    refine ⟨_, exec_landingTile_drive hhome hrxw hfmt, hwords, hlost, fun hl j hj => ?_, fun hl hno => ?_⟩
    · rw [hlive hl, Region.landDrive, hj]
    · rw [hlive hl]
      exact Region.landDrive_none hno

end Sys2Proof.Machine

/-!
PROOFS. What every step keeps: a step is its front command run (95_what_each_step_holds.md), no command stops a run, the fuses stand
(17_bring_up_monument.md R461), and the hub's queues keep their bounds (18_faults_repair.md R475, 13_host_interface.md R389).
-/
namespace Sys2Proof.Machine

/-- The state that a step answers keeps what `Keeps` says of the state it began in, but for the command it took. -/
theorem step_keeps {s t : State} (h : step s = .next t) : Keeps { s with pending := s.pending.tail } t := by
  obtain ⟨u, hu, hkeeps⟩ := step_runs s
  have htu : t = u := by injection h.symm.trans hu
  exact htu ▸ hkeeps

/-- Settles O5: no operation writes a fuse. -/
theorem fusesNeverChange : Obligations.FusesNeverChange := fun _ _ h => (step_keeps h).fuse

/-- Settles O6: every operation on the error queue and on the waiting buffer keeps its bound. -/
theorem queuesStayInTheirBounds : Obligations.QueuesStayInTheirBounds :=
  ⟨fun _ _ hq h => (step_keeps h).queue hq, fun _ _ hw h => (step_keeps h).wait hw⟩

/-- Settles O3: every command runs, and leaves the queue it is handed. -/
theorem everyCommandAnswersANextState : Obligations.EveryCommandAnswersANextState := fun c s => by
  obtain ⟨t, ht, hkeeps⟩ := exec_runs c s
  exact ⟨t, ht, hkeeps.pending⟩

/-- Settles O1: a step reads the front of the queue. -/
theorem stepTakesTheFrontCommand : Obligations.StepTakesTheFrontCommand := fun _ _ _ => rfl

end Sys2Proof.Machine

/-!
PROOFS. Clocks (14_clocks.md): droop stretching (R404), steps that are committed, refused and taken (R397 to R401, 08 R243, R244), and the
loss of the reference and of PLLs (R406, R407).
-/
namespace Sys2Proof.Machine

/-! ## Bits of a mask -/

/-- A set bit taken away leaves the other bits. -/
theorem testBit_sub_two_pow_ne {m n k : Nat} (hset : m.testBit n = true) (h : k ≠ n) : (m - 2 ^ n).testBit k = m.testBit k := by
  obtain ⟨q, r, hr, rfl⟩ : ∃ q r, r < 2 ^ n ∧ m = 2 ^ n * (2 * q + 1) + r := by
    have hodd : m / 2 ^ n % 2 = 1 := by simpa [Nat.testBit_eq_decide_div_mod_eq] using hset
    refine ⟨m / 2 ^ n / 2, m % 2 ^ n, Nat.mod_lt _ (Nat.two_pow_pos n), ?_⟩
    have hq : 2 * (m / 2 ^ n / 2) + 1 = m / 2 ^ n := by omega
    rw [hq]
    exact (Nat.div_add_mod m (2 ^ n)).symm
  have hsub : 2 ^ n * (2 * q + 1) + r - 2 ^ n = 2 ^ n * (2 * q) + r := by
    have : 2 ^ n * (2 * q + 1) = 2 ^ n * (2 * q) + 2 ^ n := by ring
    omega
  rw [hsub, Nat.testBit_two_pow_mul_add _ hr, Nat.testBit_two_pow_mul_add _ hr]
  split
  · rfl
  · obtain ⟨j, hj⟩ : ∃ j, k - n = j + 1 := ⟨k - n - 1, by omega⟩
    rw [hj, Nat.testBit_succ, Nat.testBit_succ]
    congr 1
    omega

/-- Bit `n` of a mask that `setBitNat` set. -/
theorem testBit_setBitNat_true (m n : Nat) : (setBitNat m n true).testBit n = true := by
  rw [setBitNat, if_pos rfl, Nat.testBit_or, Nat.testBit_two_pow_self, Bool.or_true]

/-- Another bit of the mask. -/
theorem testBit_setBitNat_ne (m : Nat) {n k : Nat} (on : Bool) (h : k ≠ n) : (setBitNat m n on).testBit k = m.testBit k := by
  cases on with
  | true => rw [setBitNat, if_pos rfl, Nat.testBit_or, Nat.testBit_two_pow_of_ne h.symm, Bool.or_false]
  | false =>
    rw [setBitNat, if_neg (by decide)]
    split
    · next hset => exact testBit_sub_two_pow_ne hset h
    · rfl

/-! ## Droop stretching (R404) -/

/-- A region that stands but for its event counters. -/
theorem RegionsStand.region_eq {s t : State} (h : RegionsStand s t) (m : Nat) :
    t.region m = { s.region m with evcs := (t.region m).evcs } :=
  congrArg (fun g : Region => { g with evcs := (t.region m).evcs }) (h m)

/-- Time that passes for the blocks of a domain leaves the regions. -/
theorem State.settleDomain_stands (s : State) (n k cyc : Nat) : RegionsStand s (s.settleDomain n k cyc) :=
  RegionsStand.foldl (fun _ _ => RegionsStand.onBlock _ _ _ _) (RegionsStand.refl s)

/-- Skipped cycles of a domain's blocks leave the regions. -/
theorem State.slipDomain_stands (s : State) (n k cyc skipped : Nat) : RegionsStand s (s.slipDomain n k cyc skipped) :=
  RegionsStand.foldl (fun _ _ => RegionsStand.onBlock _ _ _ _) (RegionsStand.refl s)

/-- STR after a trip. -/
theorem Region.str_droopTrip (g : Region) (k : Nat) {d : Nat} (hd : d < 4) :
    ((g.droopTrip k).rd RGN_CLK_STAT_STR).testBit d = (setBitNat (g.rd RGN_CLK_STAT_STR) k true).testBit d := by
  rw [Region.droopTrip, Region.rd_wr_self _ _ _ _ _ (by decide) (by decide), Nat.testBit_mod_two_pow]
  simp [hd]

/-- STR after a clear. -/
theorem Region.str_droopClear (g : Region) (k skipped : Nat) {d : Nat} (hd : d < 4) :
    ((g.droopClear k skipped).rd RGN_CLK_STAT_STR).testBit d = (setBitNat (g.rd RGN_CLK_STAT_STR) k false).testBit d := by
  unfold Region.droopClear
  split
  · have hinc : ∀ x : Region, (x.inc RGN_CLK_STR_COUNT RGN_CLK_STR_SAT skipped).rd RGN_CLK_STAT_STR = x.rd RGN_CLK_STAT_STR :=
      fun x => Regs.rd_incSat_apart (by decide) (by decide)
    rw [hinc, Region.rd_wr_self _ _ _ _ _ (by decide) (by decide), Nat.testBit_mod_two_pow]
    simp [hd]
  · next h => rw [setBitNat, if_neg (by decide), if_neg h]

/-- The region's part of a trip or a clear, behind steps of blocks. -/
theorem State.region_stood_onLiveRegion {s u : State} {n cyc : Nat} {f : REnv → Region → Region} (h : RegionsStand s u) (hn : n < 24)
    (hlost : (s.region n).lost = false) : ∃ e evcs, (u.onLiveRegion n cyc f).region n = (f e { s.region n with evcs := evcs }).atRest := by
  have hregion := h.region_eq n
  have hlive : (u.region n).lost = false := by rw [hregion]; exact hlost
  refine ⟨u.renv n cyc, (u.region n).evcs, ?_⟩
  rw [State.region_onLiveRegion_self _ _ _ _ hn hlive, ← hregion]
  rfl

/-- Settles O17: the blocks' time passes beside the region (`State.region_stood_onLiveRegion`), and its step sets or clears one bit. -/
theorem droopStretching : Obligations.DroopStretching := by
  intro n cyc dom skipped s hn hdom hlost
  constructor
  · obtain ⟨e, evcs, hregion⟩ := State.region_stood_onLiveRegion (cyc := cyc)
      (f := fun _ g => { g.droopTrip dom with droop := g.droop.set dom true }) (s.settleDomain_stands n dom (cyc + 2)) hn hlost
    have hstr : ∀ d, d < 4 → _ := fun d hd => (s.region n).str_droopTrip dom hd
    refine ⟨_, rfl, ?_, ?_, fun d hd hne => ?_⟩
    · rw [hregion]
      exact (hstr dom hdom).trans (testBit_setBitNat_true _ _)
    · rw [hregion]
      rfl
    · rw [hregion]
      exact (hstr d hd).trans (testBit_setBitNat_ne _ _ hne)
  · have hstands := (s.settleDomain_stands n dom (cyc + 16)).trans (State.slipDomain_stands _ n dom (cyc + 16) skipped)
    obtain ⟨e, evcs, hregion⟩ := State.region_stood_onLiveRegion (cyc := cyc)
      (f := fun _ g => { g.droopClear dom skipped with droop := g.droop.set dom false }) hstands hn hlost
    have hstr : ∀ d, d < 4 → _ := fun d hd => Region.str_droopClear { s.region n with evcs := evcs } dom skipped hd
    refine ⟨_, rfl, ?_, ?_, fun d hd hne => ?_⟩
    · rw [hregion]
      exact (hstr dom hdom).trans (testBit_setBitNat_false _ _)
    · rw [hregion]
      rfl
    · rw [hregion]
      exact (hstr d hd).trans (testBit_setBitNat_ne _ _ hne)

/-! ## Steps (R397 to R401) -/

/-- The words of PWR_DOM_STAT, which show the voltage targets, and of RGN_ERRQ, where records that find no room are counted. -/
def vidWords : List Nat := [0x704, 0x714, 0x724, 0x734, 0x828]

/-- PWR_DOM_STAT of the four domains lies there. -/
theorem domStat_mem_vidWords {k : Nat} (hk : k ∈ List.range 4) : 0x704 + 16 * k + 0 * 0 ∈ vidWords := by
  revert k
  decide

/-- A voltage that is refused. -/
theorem Region.refuseVid_reports {e : REnv} {g x : Region} {k : Nat} (hk : k ∈ List.range 4) (h : Reports vidWords g x) :
    Reports vidWords g (x.refuseVid e k) :=
  (h.wr (f := PWR_DOM_STAT_OFSREF) (i := k) (j := 0) rfl (by simpa [Field.at, Nat.mul_comm] using domStat_mem_vidWords hk)).raise (by decide)

/-- Targets raised for a step up. -/
theorem Region.raiseVids_reports (e : REnv) (g : Region) (step : Nat) : Reports vidWords g (g.raiseVids e step) := by
  unfold Region.raiseVids
  split
  · refine Reports.foldl (fun k hk x hx => ?_) (Reports.refl _ g)
    split
    · exact hx.wr rfl (by simpa [Field.at, Nat.mul_comm] using domStat_mem_vidWords hk)
    · exact hx
  · exact Reports.refl _ g

/-- Targets of the step in force. -/
theorem Region.setVids_reports (e : REnv) (g : Region) : Reports vidWords g (g.setVids e) := by
  refine Reports.foldl (fun k hk x hx => ?_) (Reports.refl _ g)
  split
  · dsimp only
    split
    · exact Region.refuseVid_reports hk hx
    · exact hx.wr rfl (by simpa [Field.at, Nat.mul_comm] using domStat_mem_vidWords hk)
  · exact hx

/-- Targets kept where a step ended. -/
theorem Region.keepVids_reports (e : REnv) (old g : Region) : Reports vidWords g (Region.keepVids e old g) := by
  unfold Region.keepVids
  split
  · exact Region.setVids_reports e g
  · exact Reports.refl _ g

/-- RGN_CLK_STAT stands over a report that does not reach its word. -/
theorem Reports.clkStat {z g : Region} (h : Reports vidWords z g) {f : Field} (hu : f.unit = .region) (ha : f.at 0 0 = 0x210) :
    g.rd f = z.rd f :=
  h.rd hu (by rw [ha]; decide)

/-- What a region shows of a step that is committed. -/
theorem Region.committed_shows (e : REnv) (g : Region) {step : Nat} (hstep : step < 8) :
    ((g.commitStep step).raiseVids e step).rd RGN_CLK_STAT_NEXT = step ∧
    ((g.commitStep step).raiseVids e step).rd RGN_CLK_STAT_COMMIT = 1 ∧
    ((g.commitStep step).raiseVids e step).rd RGN_CLK_STAT_LOCKB = 0 ∧
    ((g.commitStep step).raiseVids e step).cur = g.cur := by
  have h := Region.raiseVids_reports e (g.commitStep step) step
  have hshown : ∀ f ∈ [RGN_CLK_STAT_NEXT, RGN_CLK_STAT_COMMIT, RGN_CLK_STAT_LOCKB, RGN_CLK_STAT_CUR],
      ((g.commitStep step).raiseVids e step).rd f = (g.commitStep step).rd f := by
    simp only [List.forall_mem_cons]
    exact ⟨h.clkStat rfl rfl, h.clkStat rfl rfl, h.clkStat rfl rfl, h.clkStat rfl rfl, by simp⟩
  simp only [List.forall_mem_cons] at hshown
  obtain ⟨hnext, hcommit, hlock, hcur, -⟩ := hshown
  rw [hnext, hcommit, hlock, Region.cur, hcur]
  simp (disch := decide) [Region.commitStep, Region.cur, Region.rd, Region.wr, Regs.rd_wr_apart, Regs.rd_wr_self, Nat.mod_eq_of_lt hstep]

/-- What a region shows of a step that is refused, whatever becomes of its targets then. -/
theorem Region.refused_shows (e : REnv) (g : Region) {x : Region} {why : Nat} (hwhy : why < 8)
    (hx : Reports vidWords (g.refuseStep e why) x) :
    x.bit RGN_CLK_STAT_COMMIT = false ∧ x.cur = g.cur ∧ x.rd RGN_CLK_STAT_REFWHY = why ∧
    x.rd RGN_CLK_STAT_REFCNT = min (g.rd RGN_CLK_STAT_REFCNT + 1) 255 := by
  obtain ⟨y, hy, hshown⟩ : ∃ y, Reports vidWords y (g.refuseStep e why) ∧
      y.rd RGN_CLK_STAT_COMMIT = 0 ∧ y.cur = g.cur ∧ y.rd RGN_CLK_STAT_REFWHY = why ∧
      y.rd RGN_CLK_STAT_REFCNT = min (g.rd RGN_CLK_STAT_REFCNT + 1) 255 := by
    unfold Region.refuseStep
    extract_lets g1 g2 g3
    refine ⟨g3, ?_, ?_⟩
    · split
      · exact (Reports.refl _ _).raise (by decide)
      · exact Reports.refl _ _
    · have hcount : min (g.regs.rd RGN_CLK_STAT_REFCNT + 1) 255 % 256 = min (g.regs.rd RGN_CLK_STAT_REFCNT + 1) 255 :=
        Nat.mod_eq_of_lt (by omega)
      simp (disch := decide) [g1, g2, g3, Region.cur, Region.rd, Region.wr, Regs.rd_wr_apart, Regs.rd_wr_self, hcount,
        Nat.mod_eq_of_lt hwhy]
  have h := hy.trans hx
  obtain ⟨hcommit, hcur, hreason, hcount⟩ := hshown
  refine ⟨?_, (h.clkStat rfl rfl).trans hcur, (h.clkStat rfl rfl).trans hreason, (h.clkStat rfl rfl).trans hcount⟩
  show (x.rd RGN_CLK_STAT_COMMIT != 0) = false
  rw [h.clkStat rfl rfl, hcommit]
  rfl

/-- The tests of Table 14-2 have the codes 1 to 4. -/
theorem Region.commitTest_lt {e : REnv} {g : Region} {step why : Nat} {boost pinned : Bool}
    (h : g.commitTest e step boost pinned = some why) : why < 8 := by
  unfold Region.commitTest at h
  repeat' split at h
  all_goals simp_all <;> omega

/-- The members of a lock group are the device's regions, each once. -/
theorem State.group_members (s : State) {n : Nat} (hn : n < 24) : (s.group n).Nodup ∧ ∀ m ∈ s.group n, m < 24 := by
  unfold State.group
  dsimp only
  split
  · exact ⟨List.nodup_range.filter _, fun m hm => List.mem_range.mp (List.mem_filter.mp hm).1⟩
  · exact ⟨List.nodup_singleton n, fun m hm => by rwa [List.mem_singleton.mp hm]⟩

/-- A step that several regions make one after the other. -/
theorem State.foldl_onLiveRegion (f : REnv → Region → Region) {l : List Nat} (hl : l.Nodup) (hlt : ∀ m ∈ l, m < 24) (s : State) :
    (l.foldl (fun (s : State) m => s.onLiveRegion m 0 f) s).blocks = s.blocks ∧
    (∀ m ∈ l, (s.region m).lost = false →
      ∃ e, (l.foldl (fun (s : State) m => s.onLiveRegion m 0 f) s).region m = (f e (s.region m)).atRest) ∧
    ∀ m, m ∉ l → (l.foldl (fun (s : State) m => s.onLiveRegion m 0 f) s).region m = s.region m := by
  induction l generalizing s with
  | nil => exact ⟨rfl, fun m hm => absurd hm List.not_mem_nil, fun _ _ => rfl⟩
  | cons a l ih =>
    obtain ⟨ha, hl⟩ := List.nodup_cons.mp hl
    obtain ⟨hframe, hother⟩ := s.onLiveRegion_frame a 0 f
    obtain ⟨hblocks, hin, hout⟩ := ih hl (fun m hm => hlt m (List.mem_cons_of_mem _ hm)) (s.onLiveRegion a 0 f)
    refine ⟨hblocks.trans (by rw [hframe]), fun m hm hlost => ?_, fun m hm => ?_⟩
    · by_cases hma : m = a
      · subst hma
        exact ⟨_, (hout m ha).trans (State.region_onLiveRegion_self _ _ _ _ (hlt m List.mem_cons_self) hlost)⟩
      · obtain ⟨e, he⟩ := hin m ((List.mem_cons.mp hm).resolve_left hma) (by rw [hother m hma]; exact hlost)
        exact ⟨e, by rw [List.foldl_cons, he, hother m hma]⟩
    · rw [List.foldl_cons, hout m (fun h => hm (List.mem_cons_of_mem _ h)), hother m (fun h => hm (h ▸ List.mem_cons_self))]

section Commit
variable {n : Nat} {s : State}

/-- STEP_COMMIT where nothing is to be committed. -/
theorem exec_stepCommit_none (h : (s.region n).lost = true ∨ s.arming = true ∨ s.wantedStep n = (s.region n).cur ∨
    (s.region n).bit RGN_CLK_STAT_COMMIT = true ∨ (∃ m ∈ s.group n, m < n)) : exec (.stepCommit n) s = .next s :=
  if_pos (by simpa only [List.any_eq_true, decide_eq_true_eq] using h)

variable (hn : n < 24) (hlost : (s.region n).lost = false) (harm : s.arming = false) (hwant : s.wantedStep n ≠ (s.region n).cur)
  (hcommit : (s.region n).bit RGN_CLK_STAT_COMMIT = false) (hlead : ∀ m ∈ s.group n, n ≤ m)
include hlost harm hwant hcommit hlead

/-- The step of a leader whose region wants another step is judged. -/
theorem exec_stepCommit_judged : ¬ ((s.region n).lost = true ∨ s.arming = true ∨ s.wantedStep n = (s.region n).cur ∨
    (s.region n).bit RGN_CLK_STAT_COMMIT = true ∨ (s.group n).any (fun m => decide (m < n)) = true) := by
  have hfirst : (s.group n).any (fun m => decide (m < n)) = false :=
    List.any_eq_false.mpr fun m hm => by simpa using hlead m hm
  simp [hlost, harm, hwant, hcommit, hfirst]

include hn

/-- STEP_COMMIT of a step that passes every test. -/
theorem exec_stepCommit_committed (hwhy : s.commitWhy n (s.wantedStep n) = none) (hstep : s.wantedStep n < 8) :
    ∃ t, exec (.stepCommit n) s = .next t ∧ t.blocks = s.blocks ∧
      (∀ m ∈ s.group n, (s.region m).lost = false → (t.region m).rd RGN_CLK_STAT_NEXT = s.wantedStep n ∧
        (t.region m).bit RGN_CLK_STAT_COMMIT = true ∧ (t.region m).bit RGN_CLK_STAT_LOCKB = false ∧
        (t.region m).cur = (s.region m).cur) ∧
      (∀ m, m ∉ s.group n → t.region m = s.region m) := by
  obtain ⟨hnodup, hlt⟩ := s.group_members hn
  obtain ⟨hblocks, hin, hout⟩ := s.foldl_onLiveRegion (fun e g => (g.commitStep (s.wantedStep n)).raiseVids e (s.wantedStep n))
    hnodup hlt
  refine ⟨_, ?_, hblocks, fun m hm hl => ?_, hout⟩
  · show execStepCommit n s = _
    unfold execStepCommit
    dsimp only
    rw [if_neg (exec_stepCommit_judged hlost harm hwant hcommit hlead), hwhy]
  · obtain ⟨e, he⟩ := hin m hm hl
    obtain ⟨hnext, hc, hb, hcur⟩ := Region.committed_shows e (s.region m) hstep
    rw [he]
    exact ⟨hnext, (congrArg (· != 0) hc :), (congrArg (· != 0) hb :), hcur⟩

/-- STEP_COMMIT of a step that a member's test refuses. -/
theorem exec_stepCommit_refused {why : Nat} (hwhy : s.commitWhy n (s.wantedStep n) = some why) :
    ∃ t, exec (.stepCommit n) s = .next t ∧ t.blocks = s.blocks ∧
      (∀ m ∈ s.group n, (s.region m).lost = false → (t.region m).bit RGN_CLK_STAT_COMMIT = false ∧
        (t.region m).cur = (s.region m).cur ∧ (t.region m).rd RGN_CLK_STAT_REFWHY = why ∧
        (t.region m).rd RGN_CLK_STAT_REFCNT = min ((s.region m).rd RGN_CLK_STAT_REFCNT + 1) 255) ∧
      (∀ m, m ∉ s.group n → t.region m = s.region m) ∧ (why = 3 → t.bit FRM_STAT_STEP_REFUSED = true) := by
  obtain ⟨k, -, hk⟩ := List.exists_of_findSome?_eq_some hwhy
  obtain ⟨hnodup, hlt⟩ := s.group_members hn
  obtain ⟨hblocks, hin, hout⟩ := s.foldl_onLiveRegion (fun e g => g.refuseStep e why) hnodup hlt
  generalize hu : (s.group n).foldl (fun (s : State) m => s.onLiveRegion m 0 (fun e g => g.refuseStep e why)) s = u at hblocks hin hout
  have hregion : ∀ m, (if why = 3 then u.set1 FRM_STAT_STEP_REFUSED else u).region m = u.region m := fun m => by split <;> rfl
  refine ⟨if why = 3 then u.set1 FRM_STAT_STEP_REFUSED else u, ?_, ?_, fun m hm hl => ?_, fun m hm => ?_, fun h3 => ?_⟩
  · show execStepCommit n s = _
    unfold execStepCommit
    dsimp only
    rw [if_neg (exec_stepCommit_judged hlost harm hwant hcommit hlead), hwhy]
    dsimp only
    rw [hu]
  · rw [← hblocks]
    split <;> rfl
  · obtain ⟨e, he⟩ := hin m hm hl
    rw [hregion, he]
    have hshows := Region.refused_shows e (s.region m) (Region.commitTest_lt hk) (Reports.refl vidWords _)
    exact hshows
  · rw [hregion, hout m hm]
  · rw [if_pos h3]
    exact State.bit_wr_self _ _ _ _ _ (by decide)

end Commit

/-- A region that is not lost makes its step. -/
theorem State.onLiveRegion_live {s : State} {n cyc : Nat} {f : REnv → Region → Region} (hlost : (s.region n).lost = false) :
    s.onLiveRegion n cyc f = s.putRegion n (f (s.renv n cyc) (s.region n)) := by
  rw [State.onLiveRegion, hlost]
  rfl

section Take
variable {n : Nat} {s : State} (hn : n < 24) (hlost : (s.region n).lost = false)
include hn hlost

/-- A command that refuses the step of a region that is not lost, and may bring its targets back. -/
theorem exec_refuses {c : Instr} {why : Nat} (hwhy : why < 8)
    (hc : exec c s = .next (s.onLiveRegion n 0 (fun e g => Region.keepVids e g (g.refuseStep e why)))) :
    ∃ t, exec c s = .next t ∧ (t.region n).bit RGN_CLK_STAT_COMMIT = false ∧ (t.region n).rd RGN_CLK_STAT_REFWHY = why ∧
      RegionFrame n s t := by
  obtain ⟨hcommit, -, hreason, -⟩ := Region.refused_shows (s.renv n 0) (s.region n) hwhy
    (Region.keepVids_reports (s.renv n 0) (s.region n) _)
  refine ⟨_, hc, ?_, ?_, s.onLiveRegion_frame n 0 _⟩
  all_goals rw [State.region_onLiveRegion_self _ _ _ _ hn hlost]
  · exact hcommit
  · exact hreason

/-- IDLE_PLL_LOCK (R399). -/
theorem exec_idlePllLock_locks : ∃ t, exec (.idlePllLock n) s = .next t ∧ RegionFrame n s t ∧
    (t.region n).bit RGN_CLK_STAT_LOCKB = ((s.region n).bit RGN_CLK_STAT_LOCKB || (s.region n).bit RGN_CLK_STAT_COMMIT) := by
  refine ⟨_, rfl, s.onLiveRegion_frame n 0 _, ?_⟩
  rw [State.region_onLiveRegion_self _ _ _ _ hn hlost]
  show (s.region n).pllLock.bit RGN_CLK_STAT_LOCKB = _
  unfold Region.pllLock
  split
  · next h => rw [h, Region.set1, Region.bit_wr_self _ _ _ _ _ (by decide) (by decide), Bool.or_true]; rfl
  · next h => rw [Bool.not_eq_true _ |>.mp h, Bool.or_false]

/-- REGULATOR_REPORT (R401). -/
theorem exec_regulatorReport_notes : ∃ t, exec (.regulatorReport n) s = .next t ∧ RegionFrame n s t ∧
    (t.region n).report = ((s.region n).report || (s.region n).bit RGN_CLK_STAT_COMMIT) := by
  refine ⟨_, rfl, s.onLiveRegion_frame n 0 _, ?_⟩
  rw [State.region_onLiveRegion_self _ _ _ _ hn hlost]
  show (s.region n).regReport.report = _
  unfold Region.regReport
  split
  · next h => rw [h, Bool.or_true]
  · next h => rw [Bool.not_eq_true _ |>.mp h, Bool.or_false]

/-- PLL_LOCK_DEADLINE of a step that is not locked. -/
theorem exec_pllLockDeadline_refuses (hcommit : (s.region n).bit RGN_CLK_STAT_COMMIT = true)
    (hlock : (s.region n).bit RGN_CLK_STAT_LOCKB = false) :
    ∃ t, exec (.pllLockDeadline n) s = .next t ∧ (t.region n).bit RGN_CLK_STAT_COMMIT = false ∧
      (t.region n).rd RGN_CLK_STAT_REFWHY = 5 ∧ RegionFrame n s t := by
  refine exec_refuses hn hlost (by decide) ?_
  have hrefuse : Region.pllDeadline (s.renv n 0) (s.region n) = (s.region n).refuseStep (s.renv n 0) 5 :=
    if_pos (by rw [hcommit, hlock]; rfl)
  refine congrArg Host.Outcome.next ?_
  rw [State.onLiveRegion_live hlost, State.onLiveRegion_live hlost, hrefuse]

omit hn in
/-- PLL_LOCK_DEADLINE without such a step. -/
theorem exec_pllLockDeadline_stands (h : (s.region n).bit RGN_CLK_STAT_COMMIT = false ∨ (s.region n).bit RGN_CLK_STAT_LOCKB = true) :
    exec (.pllLockDeadline n) s = .next (s.putRegion n (s.region n)) := by
  have hstands : Region.pllDeadline (s.renv n 0) (s.region n) = s.region n := if_neg (by rcases h with h | h <;> simp [h])
  have hkeep : Region.keepVids (s.renv n 0) (s.region n) (s.region n) = s.region n := if_neg (by simp)
  refine congrArg Host.Outcome.next ?_
  rw [State.onLiveRegion_live hlost, hstands, hkeep]

end Take

/-- STEP_TAIL of a region that has a step and issues. -/
theorem exec_stepTail_of_committed {n : Nat} {s : State} (hlost : (s.region n).lost = false)
    (hcommit : (s.region n).bit RGN_CLK_STAT_COMMIT = true) (hrun : (s.region n).stopped = false) :
    exec (.stepTail n) s =
      if s.pinned n then .next (s.onLiveRegion n 0 (fun e g => Region.keepVids e g (g.refuseStep e 4)))
      else if (s.group n).all (fun m => (s.region m).bit RGN_CLK_STAT_COMMIT && (s.region m).bit RGN_CLK_STAT_LOCKB) then
        .next ((s.tailDeadline n).onLiveRegion n 0 (fun _ g => { g with stopped := true, go := true }))
      else .next (s.onLiveRegion n 0 (fun e g => Region.keepVids e g (g.refuseStep e 5))) :=
  if_neg (by simp [hlost, hcommit, hrun])

/-- Settles O15: a commit goes member by member (`State.foldl_onLiveRegion`), the deadline and the tail refuse alike
(`exec_refuses`), and the rest are branches of the commands. -/
theorem stepsAreCommittedAndTaken : Obligations.StepsAreCommittedAndTaken := by
  refine ⟨fun n s hn => ⟨exec_stepCommit_none, fun hlost harm hwant hcommit hlead =>
      ⟨exec_stepCommit_committed hn hlost harm hwant hcommit hlead,
        fun why => exec_stepCommit_refused hn hlost harm hwant hcommit hlead⟩⟩,
    fun n s hn hlost => ⟨exec_idlePllLock_locks hn hlost, exec_regulatorReport_notes hn hlost, exec_pllLockDeadline_refuses hn hlost,
      exec_pllLockDeadline_stands hlost, fun h => if_pos (Or.inr h.symm), fun hcommit hrun => ⟨fun hpin => ?pinned,
        fun hpin => ⟨fun hall => ?taken, fun hall => ?late⟩⟩⟩⟩
  case pinned =>
    refine exec_refuses hn hlost (by decide) ?_
    rw [exec_stepTail_of_committed hlost hcommit hrun, if_pos hpin]
  case taken => rw [exec_stepTail_of_committed hlost hcommit hrun, hpin, if_neg Bool.false_ne_true, if_pos hall]
  case late =>
    refine exec_refuses hn hlost (by decide) ?_
    rw [exec_stepTail_of_committed hlost hcommit hrun, hpin, if_neg Bool.false_ne_true, hall, if_neg Bool.false_ne_true]

/-! ## The reference and the PLLs (R406, R407) -/

/-- A report leaves the mark of a lost region. -/
theorem Reports.lost {W : List Nat} {z g : Region} (h : Reports W z g) : g.lost = z.lost := (congrArg Region.lost h.rest :)

/-- A region is lost with itself. -/
theorem self_mem_lostWith (n : Nat) : n ∈ lostWith n := by
  have hn := Nat.div_add_mod n 6
  have hlt := Nat.mod_lt n (by decide : 0 < 6)
  unfold lostWith
  dsimp only
  split
  · next h => exact List.mem_map.mpr ⟨0, by simp, by omega⟩
  all_goals simp

/-- The regions lost with one of the device's regions are the device's. -/
theorem lt_of_mem_lostWith {n m : Nat} (hn : n < 24) (h : m ∈ lostWith n) : m < 24 := by
  revert m
  interval_cases n <;> decide

/-- What a loss of regions makes of the marks. -/
theorem State.lost_loseRegions (s : State) (cause : Nat) (roots : List Nat) {m : Nat} (hm : m < 24) :
    ((s.loseRegions cause roots).region m).lost = ((s.region m).lost || (roots.flatMap lostWith).contains m) := by
  rw [State.loseRegions_region _ _ _ _ hm]
  split
  · next h => rw [h.1, h.2]; rfl
  · next h =>
    cases hlost : (s.region m).lost
    · simpa [hlost] using h
    · rfl

/-- REF_RETURN in holdover. -/
theorem exec_refReturn_marks {s : State} (hhold : s.bit CLK_STAT_HOLDOVER = true) (hback : s.frame.refBack = false) :
    exec .refReturn s =
      .next { s.raise { cls := 8, subtype := 0x92, level := 3 } with frame := { s.frame with refBack := true } } := by
  show execRefReturn s = _
  have hframe : (s.raise { cls := 8, subtype := 0x92, level := 3 }).frame = s.frame := by
    rw [(Noted.refl s).raise (r := { cls := 8, subtype := 0x92, level := 3 })]
  rw [execRefReturn, hhold, hback, if_pos (by decide)]
  dsimp only
  rw [hframe]

/-- DIE_PLL_LOST of a locked die PLL. -/
theorem exec_diePllLost_locked {die : Nat} {s : State} (hdie : die < 4) (hlock : (s.rd CLK_STAT_DIELOCK).testBit die = true) :
    ∃ u, exec (.diePllLost die) s = .next (State.loseRegions u 7 ((List.range 6).map (fun f => 6 * die + f))) :=
  ⟨_, if_pos ⟨hdie, hlock⟩⟩

/-- REGION_PLL_LOST of a region that is not lost. -/
theorem exec_regionPllLost_live {n : Nat} {s : State} (hn : n < 24) (hlost : (s.region n).lost = false) :
    ∃ t, exec (.regionPllLost n) s = .next t ∧ (t.region n).stopped = true ∧ ∀ m ∈ lostWith n, (t.region m).lost = true := by
  refine ⟨_, if_neg (by simp [hlost]; omega), ?_, fun m hm => ?_⟩
  · rw [State.loseRegions_region _ _ _ _ hn, if_pos]
    refine ⟨by simpa using self_mem_lostWith n, ?_⟩
    rw [State.onRegion, State.region_putRegion_self _ _ _ hn]
    exact ((Reports.refl [0x828] _).raise (by decide)).lost.trans hlost
  · rw [State.lost_loseRegions _ _ _ (lt_of_mem_lostWith hn hm)]
    simp [hm]

/-- Settles O16: the reference's two commands are their branches, and a PLL's loss is `State.loseRegions`. -/
theorem lostReferenceAndClocks : Obligations.LostReferenceAndClocks := by
  refine ⟨fun s => ⟨fun h => ?_, fun h => if_pos h, fun h hback => ⟨_, exec_refReturn_marks h hback, rfl, rfl⟩, fun h => ?_⟩,
    fun die s => ⟨fun hdie hlock => ?_, fun h => ?_⟩, fun n s => ⟨exec_regionPllLost_live, fun h => if_pos h⟩⟩
  · exact if_neg (by simp [h])
  · refine if_neg ?_
    rcases h with h | h <;> simp [h]
  · obtain ⟨u, hexec⟩ := exec_diePllLost_locked hdie hlock
    refine ⟨_, hexec, fun f hf => ?_⟩
    have hin : 6 * die + f ∈ ((List.range 6).map (fun f => 6 * die + f)).flatMap lostWith :=
      List.mem_flatMap.mpr ⟨_, List.mem_map.mpr ⟨f, List.mem_range.mpr hf, rfl⟩, self_mem_lostWith _⟩
    rw [State.lost_loseRegions _ _ _ (by omega)]
    simpa using Or.inr hin
  · refine if_neg fun hlock => ?_
    rcases h with h | h
    · omega
    · exact absurd (hlock.2.symm.trans h) (by decide)

end Sys2Proof.Machine

/-!
PROOFS. Records at the hub (18_faults_repair.md R471 to R475, 13_host_interface.md R386): what a message and a record change, and where a
record stands in the error queue; the fabric rails (15_power_delivery.md R420) with it.
-/
namespace Sys2Proof.Machine

/-! ## Messages and records -/

/-- From `s` to `t` only functions and messages change. -/
def Messaged (s t : State) : Prop := t = { s with fns := t.fns, msgs := t.msgs }

/-- Nothing changes. -/
theorem Messaged.refl (s : State) : Messaged s s := rfl

/-- One such step more. -/
theorem Messaged.mk_ {z s : State} {fns msgs} (h : Messaged z s) : Messaged z { s with fns := fns, msgs := msgs } := by
  cases z; cases s
  simp only [Messaged, State.mk.injEq] at h ⊢
  simp [h]

/-- A function put back. -/
theorem Messaged.setFn {z s : State} {k : Nat} {f : Fn} (h : Messaged z s) : Messaged z (s.setFn k f) := by
  unfold State.setFn
  split
  · exact h.mk_ (msgs := s.msgs)
  · exact h

/-- A vector raised (13 R386). -/
theorem Messaged.vector {z s : State} {k v : Nat} (h : Messaged z s) : Messaged z (s.vector k v) := by
  unfold State.vector
  dsimp only
  split
  · exact h.setFn
  · exact h.mk_ (fns := s.fns)

/-- The error vectors of several functions. -/
theorem Messaged.errVectors {z : State} (l : List Nat) {s : State} (h : Messaged z s) : Messaged z (l.foldl State.errVector s) := by
  induction l generalizing s with
  | nil => exact h
  | cons k l ih => exact ih h.vector

/-- The hub's error state stands over messages. -/
theorem Messaged.err {s t : State} (h : Messaged s t) : t.err = s.err := by rw [h]

/-- The hub's error queue takes a record at its end while it has room for it (R475). -/
theorem State.err_hubQueue {s : State} {r : ErrRec} (hroom : s.err.q.length < if r.fatal then 512 else 448) :
    ∃ a, (s.hubQueue r).err = { s.err with q := s.err.q ++ [{ r with ann := a }] } ∧ (r.fatal = false → r.tell = false → a = []) := by
  unfold State.hubQueue
  extract_lets s1 s2 h s3 r3
  have herr : s3.err = s.err := by
    have hsent : s3.err = s2.err := (Messaged.errVectors _ (Messaged.refl s2)).err
    rw [hsent, State.count_err, State.inc_err]
  have hplaced : ({ s3.err with q := s.err.q ++ [r3] } : ErrSt) = { s.err with q := s.err.q ++ [{ r with ann := r3.ann }] } := by
    rw [herr]
    rfl
  have hfatal : r3.fatal = r.fatal := rfl
  refine ⟨r3.ann, ?_, fun hf ht => ?_⟩
  · rw [hfatal]
    split at hroom
    · next hf =>
      rw [if_pos hf, herr, if_pos hroom]
      exact hplaced
    · next hf =>
      have hlen := List.length_filter_le (fun x : ErrRec => !x.fatal) s.err.q
      rw [if_neg hf, herr, if_pos ⟨by omega, by omega⟩]
      exact hplaced
  · show ((if (r.fatal || r.tell) = true then r.book.receivers else []).filter s2.bookFree) = []
    rw [hf, ht]
    rfl

/-- A record of the MC stands at the queue's end while it has room. -/
theorem State.err_raise {s : State} {r : ErrRec} (hroom : s.err.q.length < if r.fatal then 512 else 448) :
    ∃ x : ErrRec, (s.raise r).err = { s.err with q := s.err.q ++ [x], srcseq := s.err.srcseq + 1 } ∧ x.cls = r.cls ∧
      x.subtype = r.subtype ∧ x.fatal = r.fatal ∧ x.region = (if r.region = 0xFF then 0x18 else r.region) := by
  obtain ⟨a, ha, -⟩ := State.err_hubQueue (s := { s with err := { s.err with srcseq := s.err.srcseq + 1 } })
    (r := s.mcStamp { r with region := if r.region = 0xFF then 0x18 else r.region }) hroom
  exact ⟨_, ha, rfl, rfl, rfl, rfl⟩

/-- A fatal record's place. -/
theorem State.errq_raise_fatal {s : State} {r : ErrRec} (hf : r.fatal = true) (hroom : s.err.q.length < 512) :
    ∃ x, (s.raise r).err.q = s.err.q ++ [x] := by
  obtain ⟨x, hx, -⟩ := State.err_raise (s := s) (r := r) (by rw [hf]; exact hroom)
  exact ⟨x, congrArg ErrSt.q hx⟩

/-! ## Teardowns and the error state -/

/-- An item that is finished leaves the hub's error state. -/
@[simp] theorem State.finish_err (s : State) (i : ItemRef) (a b : Nat) : (s.finish i a b).err = s.err := State.setFn_err _ _ _

/-- A parcel that enters clearing leaves it. -/
@[simp] theorem State.startClearing_err (s : State) (p : Nat) (ranges : Bool) : (s.startClearing p ranges).err = s.err := rfl

/-- A teardown request leaves it. -/
@[simp] theorem State.teardown_err (s : State) (p cause : Nat) : (s.teardown p cause).err = s.err := by
  unfold State.teardown
  dsimp only
  split
  · rw [State.startClearing_err]
    split
    · exact State.finish_err _ _ _ _
    · rfl
  · split
    · split <;> rfl
    · rfl

/-- A teardown for a lost region leaves it. -/
@[simp] theorem State.tearLoss_err (s : State) (k p : Nat) : (s.tearLoss k p).err = s.err := by
  unfold State.tearLoss
  dsimp only
  split
  · exact State.teardown_err _ _ _
  · split
    · split <;> rfl
    · rfl

/-- Several of them. -/
theorem State.tearLosses_err (k : Nat) (l : List Nat) (s : State) : (l.foldl (fun (s : State) p => s.tearLoss k p) s).err = s.err := by
  induction l generalizing s with
  | nil => rfl
  | cons p l ih => rw [List.foldl_cons, ih, State.tearLoss_err]

/-- A loss of regions adds one record, where there is room for it (18 R491). -/
theorem State.errq_loseRegions {s : State} (cause : Nat) (roots : List Nat) (hroom : s.err.q.length < 512) :
    ∃ q, (s.loseRegions cause roots).err.q = s.err.q ++ q := by
  unfold State.loseRegions
  extract_lets new s1 r s2 k e3 s3
  split
  · exact ⟨[], (List.append_nil _).symm⟩
  · have h1 : s1.err = s.err := by
      suffices h : ∀ (l : List Nat) (x : State),
          (l.foldl (fun (s : State) n => s.setRegion n { s.region n with lost := true, stopped := true }) x).err = x.err from h _ _
      intro l
      induction l with
      | nil => exact fun _ => rfl
      | cons n l ih => exact fun x => (ih _).trans (State.setRegion_err _ _ _)
    obtain ⟨x, hx⟩ : ∃ x, s2.err.q = s1.err.q ++ [x] := State.errq_raise_fatal rfl (by rw [h1]; exact hroom)
    refine ⟨[x], ?_⟩
    rw [State.tearLosses_err]
    exact hx.trans (by rw [h1])

/-! ## Fabric rails (15 R420) -/

/-- One of two phases cleared. -/
theorem setBitNat_three {ph : Nat} (hph : ph < 2) : setBitNat 3 ph false = 3 - 2 ^ ph := by
  interval_cases ph <;> rfl

/-- The only phase cleared. -/
theorem setBitNat_two_pow (ph : Nat) : setBitNat (2 ^ ph) ph false = 0 := by
  rw [setBitNat, if_neg (by decide), if_pos Nat.testBit_two_pow_self, Nat.sub_self]

/-- The phases in service of region `n`'s fabric rail become `new`, and the rail's PMBus page shows a fault. -/
def State.fabPhases (s : State) (n new : Nat) : State :=
  { s.setRegion n ((s.region n).wr PWR_FAB_PHOK new) with
    pw := { s.pw with iout := SMap.put (fun _ => 0) s.pw.iout (112 + n) (s.pw.iout.get (fun _ => 0) (112 + n) ||| 0x80) } }

/-- What the phases in service leave of the hub's error state. -/
@[simp] theorem State.err_fabPhases (s : State) (n new : Nat) : (s.fabPhases n new).err = s.err := State.setRegion_err _ _ _

/-- A queued record is no record of the region's own. -/
theorem Region.srcseq_queue (g : Region) (r : ErrRec) : (g.queue r).srcseq = g.srcseq := by
  unfold Region.queue
  split
  · rfl
  · dsimp only
    split
    · split <;> rfl
    · rfl

/-- A record of a region counts one. -/
theorem Region.srcseq_raise (e : REnv) (g : Region) (r : ErrRec) : (g.raise e r).srcseq = g.srcseq + 1 := Region.srcseq_queue _ _

/-- A record is queued at the end while there is room. -/
theorem Region.recq_queue {g : Region} {r : ErrRec} (hroom : g.recq.length < 64) : (g.queue r).recq = g.recq ++ [r] :=
  congrArg Region.recq (if_pos hroom)

/-- A record stands at the end of its region's queue while there is room. -/
theorem Region.recq_raise (e : REnv) {g : Region} (r : ErrRec) (hroom : g.recq.length < 64) :
    ∃ x : ErrRec, (g.raise e r).recq = g.recq ++ [x] ∧ x.cls = r.cls ∧ x.subtype = r.subtype ∧ x.hard = r.hard := by
  exact ⟨_, Region.recq_queue (g := { g with srcseq := g.srcseq + 1 }) hroom, rfl, rfl, rfl⟩

section Fabric
variable {n ph : Nat} {s : State} (hn : n < 24) (hlost : (s.region n).lost = false)

/-- FABRIC_PHASE_LOST of a phase in service. -/
theorem exec_fabricPhaseLost_in (hn : n < 24) (hlost : (s.region n).lost = false)
    (hok : ((s.region n).rd PWR_FAB_PHOK).testBit ph = true) {u : State}
    (hu : u = s.fabPhases n (setBitNat ((s.region n).rd PWR_FAB_PHOK) ph false)) :
    exec (.fabricPhaseLost n ph) s = .next (if setBitNat ((s.region n).rd PWR_FAB_PHOK) ph false = 0 then
        (u.raise { cls := 9, subtype := 0xA4, level := 3, region := n, die := n / 6 }).loseRegions 9 [n]
      else u.onRegion n 0 (fun e g => g.raise e { cls := 9, subtype := 0xA8, level := 2, object := 2 ^ 8 * ph, objkind := 8 })) := by
  subst hu
  exact if_pos ⟨hn, hlost, hok⟩

include hn hlost

/-- With one of two phases lost the region runs on the other and writes its record. -/
theorem exec_fabricPhaseLost_one (hph : ph < 2) (hok : (s.region n).rd PWR_FAB_PHOK = 3) :
    ∃ t, exec (.fabricPhaseLost n ph) s = .next t ∧ (t.region n).rd PWR_FAB_PHOK = 3 - 2 ^ ph ∧ (t.region n).lost = false ∧
      (t.region n).srcseq = (s.region n).srcseq + 1 ∧
      ((s.region n).recq.length < 64 → ∃ r, (t.region n).recq = (s.region n).recq ++ [r] ∧ r.cls = 9 ∧ r.subtype = 0xA8) ∧
      ∀ m, m ≠ n → t.region m = s.region m := by
  have hbit : ((s.region n).rd PWR_FAB_PHOK).testBit ph = true := by
    rw [hok]
    interval_cases ph <;> rfl
  have hleft : 3 - 2 ^ ph ≠ 0 ∧ (3 - 2 ^ ph) % 2 ^ 2 = 3 - 2 ^ ph := by interval_cases ph <;> decide
  have hexec := exec_fabricPhaseLost_in hn hlost hbit rfl
  rw [hok, setBitNat_three hph, if_neg hleft.1] at hexec
  have hself : (s.fabPhases n (3 - 2 ^ ph)).region n = (s.region n).wr PWR_FAB_PHOK (3 - 2 ^ ph) :=
    State.region_setRegion_self _ _ _ hn
  have hraised : ∀ e r, Reports [0x828] ((s.region n).wr PWR_FAB_PHOK (3 - 2 ^ ph))
      (((s.region n).wr PWR_FAB_PHOK (3 - 2 ^ ph)).raise e r) := fun _ _ => (Reports.refl _ _).raise (by decide)
  refine ⟨_, hexec, ?_, ?_, ?_, fun hroom => ?_, fun m hm => ?_⟩
  case refine_5 => exact ((State.putRegion_frame _ _ _).2 m hm).trans (State.region_setRegion_ne _ _ _ _ hm)
  all_goals rw [State.onRegion, State.region_putRegion_self _ _ _ hn, hself]
  · refine ((hraised _ _).rd rfl (by decide)).trans ?_
    rw [Region.rd_wr_self _ _ _ _ _ (by decide) (by decide)]
    exact hleft.2
  · exact (hraised _ _).lost.trans hlost
  · exact Region.srcseq_raise _ _ _
  · obtain ⟨x, hx, hcls, hsub, -⟩ := Region.recq_raise ((s.fabPhases n (3 - 2 ^ ph)).renv n 0)
      (g := (s.region n).wr PWR_FAB_PHOK (3 - 2 ^ ph)) { cls := 9, subtype := 0xA8, level := 2, object := 2 ^ 8 * ph, objkind := 8 } hroom
    exact ⟨x, hx, hcls, hsub⟩

/-- With the only phase lost the hub writes the record, and the region is lost. -/
theorem exec_fabricPhaseLost_last (hok : (s.region n).rd PWR_FAB_PHOK = 2 ^ ph) :
    ∃ t, exec (.fabricPhaseLost n ph) s = .next t ∧ (t.region n).rd PWR_FAB_PHOK = 0 ∧ (t.region n).lost = true ∧
      (s.err.q.length < 448 → ∃ r q, t.err.q = s.err.q ++ r :: q ∧ r.cls = 9 ∧ r.subtype = 0xA4 ∧ r.region = n) := by
  have hexec := exec_fabricPhaseLost_in hn hlost (by rw [hok]; exact Nat.testBit_two_pow_self) rfl
  rw [hok, setBitNat_two_pow, if_pos rfl] at hexec
  have hself : (s.fabPhases n 0).region n = (s.region n).wr PWR_FAB_PHOK 0 := State.region_setRegion_self _ _ _ hn
  have hin : ([n].flatMap lostWith).contains n = true := by simpa using self_mem_lostWith n
  refine ⟨_, hexec, ?_, ?_, fun hroom => ?_⟩
  · rw [State.loseRegions_region _ _ _ _ hn, (Noted.raise (Noted.refl _)).region, hself, if_pos ⟨hin, hlost⟩]
    exact Region.rd_wr_self _ _ _ _ _ (by decide) (by decide)
  · rw [State.lost_loseRegions _ _ _ hn, hin, Bool.or_true]
  · obtain ⟨x, hx, hcls, hsub, -, hregion⟩ := State.err_raise (s := s.fabPhases n 0)
      (r := { cls := 9, subtype := 0xA4, level := 3, region := n, die := n / 6 }) (by simpa using hroom)
    have hq : ((s.fabPhases n 0).raise { cls := 9, subtype := 0xA4, level := 3, region := n, die := n / 6 }).err.q = s.err.q ++ [x] := by
      rw [hx, State.err_fabPhases]
    obtain ⟨q, hlose⟩ := State.errq_loseRegions 9 [n] (s := (s.fabPhases n 0).raise _) (by rw [hq]; simp; omega)
    refine ⟨x, q, ?_, hcls, hsub, ?_⟩
    · rw [hlose, hq]
      simp
    · rw [hregion, if_neg]
      show n ≠ 0xFF
      omega

end Fabric

/-- Settles O54: with a phase left the region writes the record, with none the hub writes it and the region is lost. -/
theorem fabricRailPhases : Obligations.FabricRailPhases := fun _ _ _ hn hph hlost =>
  ⟨exec_fabricPhaseLost_one hn hlost hph, exec_fabricPhaseLost_last hn hlost⟩

end Sys2Proof.Machine

/-!
PROOFS. The PMBus target (15_power_delivery.md R424): every row is an exchange (`State.pmbus`), which the auxiliary input lets through.
-/
namespace Sys2Proof.Machine

section Exchange
variable {s : State} {f : State → State} {pec : Option Bool}

/-- An exchange without the auxiliary input. -/
theorem State.pmbus_off (h : s.bit PWR_IN_STAT_AUXOK = false) : s.pmbus f = .next { s with answer := .nack } :=
  congrArg Host.Outcome.next (if_neg (by rw [h]; decide))

/-- A write without it. -/
theorem State.pmbusWrite_off (h : s.bit PWR_IN_STAT_AUXOK = false) : s.pmbusWrite pec f = .next { s with answer := .nack } :=
  State.pmbus_off h

/-- An exchange with it. -/
theorem State.pmbus_on (h : s.bit PWR_IN_STAT_AUXOK = true) : s.pmbus f = .next (f s) := congrArg Host.Outcome.next (if_pos h)

variable (h : s.bit PWR_IN_STAT_AUXOK = true)
include h

/-- A write whose packet error code the target takes. -/
theorem State.pmbusWrite_taken (hpec : pec = some true ∨ pec = none ∧ s.bit PWR_PMB_PECREQ = false) :
    s.pmbusWrite pec f = .next (f s) := by
  refine (State.pmbus_on h).trans (congrArg Host.Outcome.next (if_pos ?_))
  rcases hpec with rfl | ⟨rfl, hreq⟩
  · rfl
  · simp [State.pecOk, hreq]

/-- A write with a wrong packet error code. -/
theorem State.pmbusWrite_wrong (hpec : pec = some false) :
    s.pmbusWrite pec f = .next { s with pw := { s.pw with cml := s.pw.cml ||| 0x20 } } := by
  subst hpec
  exact State.pmbus_on h

/-- A write without the packet error code that is required. -/
theorem State.pmbusWrite_missing (hpec : pec = none) (hreq : s.bit PWR_PMB_PECREQ = true) : s.pmbusWrite pec f = .next s := by
  subst hpec
  refine (State.pmbus_on h).trans (congrArg Host.Outcome.next ?_)
  simp [State.pecOk, hreq]

end Exchange

/-- Settles O57: with the auxiliary input each row is its own branch, without it none is acknowledged. -/
theorem pmbusCommands : Obligations.PmbusCommands := by
  refine ⟨fun s v code pec c h hc => ?off, fun s h => ⟨?codes, ?writes, ?_⟩, fun s => ⟨rfl, rfl⟩⟩
  case off =>
    rcases hc with rfl | rfl | rfl | rfl | rfl | rfl | rfl | rfl | rfl | rfl | rfl | rfl | rfl | rfl | rfl | rfl
    exacts [(State.pmbusWrite_off h : execPmbusPage v pec s = _),
      (State.pmbusWrite_off h : execPmbusClearFaults pec s = _),
      (State.pmbus_off h : execVoutMode s = _),
      (State.pmbus_off h : execStatusWord s = _),
      (State.pmbus_off h : execStatusIout s = _),
      (State.pmbus_off h : execStatusInput s = _),
      (State.pmbus_off h : execStatusCml s = _),
      (State.pmbus_off h : execReadVin s = _),
      (State.pmbus_off h : execReadIin s = _),
      (State.pmbus_off h : execReadVout s = _),
      (State.pmbus_off h : execReadIout s = _),
      (State.pmbus_off h : execReadTemperature1 s = _),
      (State.pmbus_off h : execReadPout s = _),
      (State.pmbus_off h : execReadPin s = _),
      (State.pmbus_off h : execPmbusRevision s = _),
      (State.pmbus_off h : execPmbusUnsupported code s = _)]
  case codes =>
    rintro v pec c (rfl | rfl)
    · exact ⟨fun hpec => (State.pmbusWrite_wrong h hpec : execPmbusPage v pec s = _),
        fun hpec hreq => (State.pmbusWrite_missing h hpec hreq : execPmbusPage v pec s = _)⟩
    · exact ⟨fun hpec => (State.pmbusWrite_wrong h hpec : execPmbusClearFaults pec s = _),
        fun hpec hreq => (State.pmbusWrite_missing h hpec hreq : execPmbusClearFaults pec s = _)⟩
  case writes =>
    intro v pec hpec
    have hpage : execPmbusPage v pec s = _ := State.pmbusWrite_taken h hpec
    have hclear : execPmbusClearFaults pec s = _ := State.pmbusWrite_taken h hpec
    exact ⟨fun hv => hpage.trans (congrArg Host.Outcome.next (if_pos hv)),
      fun hv => hpage.trans (congrArg Host.Outcome.next (if_neg (by rw [hv]; decide))), _, hclear, rfl, rfl, fun _ => rfl, rfl⟩
  have hiin : execReadIin s = _ := State.pmbus_on h
  have hpin : execReadPin s = _ := State.pmbus_on h
  have hcode : ∀ code, execPmbusUnsupported code s = _ := fun _ => State.pmbus_on h
  exact ⟨(State.pmbus_on h : execVoutMode s = _),
    (State.pmbus_on h : execPmbusRevision s = _),
    (State.pmbus_on h : execStatusWord s = _),
    (State.pmbus_on h : execStatusIout s = _),
    (State.pmbus_on h : execStatusInput s = _),
    (State.pmbus_on h : execStatusCml s = _),
    (State.pmbus_on h : execReadVin s = _),
    (State.pmbus_on h : execReadVout s = _),
    (State.pmbus_on h : execReadIout s = _),
    (State.pmbus_on h : execReadTemperature1 s = _),
    (State.pmbus_on h : execReadPout s = _),
    fun hp => ⟨hiin.trans (congrArg Host.Outcome.next (if_pos hp)), hpin.trans (congrArg Host.Outcome.next (if_pos hp))⟩,
    fun hp => ⟨hiin.trans (congrArg Host.Outcome.next (if_neg hp)), hpin.trans (congrArg Host.Outcome.next (if_neg hp))⟩,
    fun code hc => (hcode code).trans (congrArg Host.Outcome.next (if_pos (by simpa using hc))),
    fun code hc => (hcode code).trans (congrArg Host.Outcome.next (if_neg (by simpa using hc)))⟩

end Sys2Proof.Machine

/-!
PROOFS. Command rings (13_host_interface.md R374 to R384): what a ring shows of an item that begins, of a completion, a flush and a disable.
-/
namespace Sys2Proof.Machine

/-! ## A ring and its function -/

/-- A vector changes a function's PBA bits alone (R386). -/
theorem State.fn_vector (s : State) (k v j : Nat) : (s.vector k v).fn j = { s.fn j with pending := ((s.vector k v).fn j).pending } := by
  unfold State.vector
  dsimp only
  split
  · by_cases hj : j = k
    · subst hj
      by_cases hlt : j < 34
      · rw [State.fn_setFn_self _ _ _ hlt]
      · rw [State.setFn, if_neg hlt]
    · rw [State.fn_setFn_ne _ _ _ _ hj]
  · rfl

/-- Rings stand over a vector. -/
@[simp] theorem State.ring_vector (s : State) (k v fn r : Nat) : (s.vector k v).ring fn r = s.ring fn r := by
  rw [State.ring, State.fn_vector]
  rfl

/-- The ring that has entered error (R378). -/
theorem State.ring_ringError (s : State) {fn r : Nat} (code : Nat) (hfn : fn < 34) (hr : r < fnRings fn) :
    (s.ringError fn r code).ring fn r = (s.ring fn r).wr CR_STAT_ERR code := by
  rw [State.ringError, State.errVector, State.ring_vector, State.ring_setRing_self _ _ hfn hr]

/-- The error code shows in ERR. -/
theorem Ring.err_wr (x : Ring) {code : Nat} (h : code < 16) : (x.wr CR_STAT_ERR code).rd CR_STAT_ERR = code :=
  (Regs.rd_wr_self _ _ _ _ _ (by decide) (by decide)).trans (Nat.mod_eq_of_lt h)

/-- CR_STAT alone shows BUSY and FLUSHING. -/
theorem Ring.rd_show (x : Ring) {f : Field} (hb : CR_STAT_BUSY.apart f 0 0 0 0 = true) (hf : CR_STAT_FLUSHING.apart f 0 0 0 0 = true) :
    x.show.rd f = x.rd f :=
  (Regs.rd_wr_apart _ _ _ _ _ _ _ _ hf).trans (Regs.rd_wr_apart _ _ _ _ _ _ _ _ hb)

/-- CR_LAST stands over BUSY and FLUSHING. -/
theorem Ring.last_show (x : Ring) : x.show.last = x.last := by
  unfold Ring.last
  rw [Ring.rd_show _ (by decide) (by decide), Ring.rd_show _ (by decide) (by decide)]

/-- CR_LAST just set. -/
theorem Ring.last_setLast (x : Ring) {v : Nat} (h : v < 2 ^ 64) : (x.setLast v).last = v := by
  have hlo : (x.setLast v).rd CR_LAST_LO_SER = v % 2 ^ 32 := by
    refine (Regs.rd_wr_apart _ _ _ _ _ _ _ _ (by decide)).trans ((Regs.rd_wr_self _ _ _ _ _ (by decide) (by decide)).trans ?_)
    exact Nat.mod_eq_of_lt (Nat.mod_lt _ (by decide))
  have hhi : (x.setLast v).rd CR_LAST_HI_SER = v / 2 ^ 32 := by
    refine (Regs.rd_wr_self _ _ _ _ _ (by decide) (by decide)).trans (Nat.mod_eq_of_lt ?_)
    show v / 2 ^ 32 < 2 ^ 32
    omega
  rw [Ring.last, hlo, hhi]
  omega

/-- A disable that takes effect clears EN alone of the registers. -/
theorem Ring.rd_settle (x : Ring) {f : Field} (h : CR_CTL_EN.apart f 0 0 0 0 = true) : x.settle.rd f = x.rd f := by
  unfold Ring.settle
  split
  · exact Regs.rd_wr_apart _ _ _ _ _ _ _ _ h
  · rfl

/-- Items stand when a disable takes effect. -/
@[simp] theorem Ring.items_settle (x : Ring) : x.settle.items = x.items := by
  unfold Ring.settle
  split <;> rfl

/-! ## Items that begin (R374 to R379) -/

/-- The item `i` as it joins ring `x`: a serial that is not above CR_LAST ends it, and a faulty item ends at once (R377, R378). -/
def Ring.entry (x : Ring) (s : State) (fn : Nat) (i : Item) : Item :=
  { i with done := if i.serial ≤ x.last then some (1, 0) else s.atOnce fn i }

/-- A ring as it stands when `i`, read as its oldest unread item, begins (R376 to R378). -/
def Ring.begun (x : Ring) (s : State) (fn : Nat) (i : Item) : Ring :=
  let y := x.wr CR_CI_CI ((x.rd CR_CI_CI + i.nslots) % 2 ^ 32)
  ({ (if i.serial ≤ x.last then y else y.setLast i.serial) with items := x.items ++ [x.entry s fn i] } : Ring).show

/-- The items of a ring whose oldest unread item begins. -/
theorem Ring.items_begun (x : Ring) (s : State) (fn : Nat) (i : Item) : (x.begun s fn i).items = x.items ++ [x.entry s fn i] := rfl

/-- CR_CI passes the item's slots. -/
theorem Ring.ci_begun (x : Ring) (s : State) (fn : Nat) (i : Item) :
    (x.begun s fn i).rd CR_CI_CI = (x.rd CR_CI_CI + i.nslots) % 2 ^ 32 := by
  refine (Ring.rd_show _ (by decide) (by decide)).trans ?_
  have hci : (x.wr CR_CI_CI ((x.rd CR_CI_CI + i.nslots) % 2 ^ 32)).rd CR_CI_CI = (x.rd CR_CI_CI + i.nslots) % 2 ^ 32 :=
    (Regs.rd_wr_self _ _ _ _ _ (by decide) (by decide)).trans (Nat.mod_eq_of_lt (Nat.mod_lt _ (by decide)))
  split
  · exact hci
  · exact (Regs.rd_wr_apart _ _ _ _ _ _ _ _ (by decide)).trans ((Regs.rd_wr_apart _ _ _ _ _ _ _ _ (by decide)).trans hci)

/-- CR_LAST stands where the item's serial is not above it. -/
theorem Ring.last_begun_old {x : Ring} (s : State) (fn : Nat) {i : Item} (h : i.serial ≤ x.last) : (x.begun s fn i).last = x.last := by
  refine (Ring.last_show _).trans ?_
  rw [if_pos h]
  exact congrArg₂ (fun a b => a + 2 ^ 32 * b) (Regs.rd_wr_apart _ _ _ _ _ _ _ _ (by decide))
    (Regs.rd_wr_apart _ _ _ _ _ _ _ _ (by decide))

/-- CR_LAST takes the serial that is above it. -/
theorem Ring.last_begun_new {x : Ring} (s : State) (fn : Nat) {i : Item} (h : x.last < i.serial) (h64 : i.serial < 2 ^ 64) :
    (x.begun s fn i).last = i.serial := by
  refine (Ring.last_show _).trans ?_
  rw [if_neg (Nat.not_le.mpr h)]
  exact Ring.last_setLast _ h64

section Begin
variable {fn ring : Nat} {s : State} {x : Ring}

/-- ITEM_BEGIN whose read failed. -/
theorem exec_itemBegin_unread (hcan : s.canBegin fn ring = true) : exec (.itemBegin fn ring none) s = .next (s.ringError fn ring 3) := by
  show execItemBegin fn ring none s = _
  unfold execItemBegin
  dsimp only
  rw [hcan, if_neg (by decide)]

variable (hx : x = s.ring fn ring)
include hx

/-- DOORBELL of an enabled ring. -/
theorem exec_doorbell_enabled (v : Word) (hen : x.bit CR_CTL_EN = true) : exec (.doorbell fn ring v) s =
    .next (if x.slots < (v.toNat + 2 ^ 32 - x.rd CR_CI_CI) % 2 ^ 32 then s.ringError fn ring 2
      else s.setRing fn ring { x with pi := v.toNat }) := by
  subst hx
  show execDoorbell fn ring v s = _
  unfold execDoorbell
  dsimp only
  rw [hen, if_neg (by decide)]
  split <;> rfl

variable (hcan : s.canBegin fn ring = true) {bs : List Byte} {i : Item} (hi : i = Item.parse (x.rd CR_CI_CI % x.slots) bs)
include hcan hi

/-- ITEM_BEGIN of a header with a faulty NSLOTS. -/
theorem exec_itemBegin_faulty (h : i.nslots = 0 ∨ 8 < i.nslots) :
    exec (.itemBegin fn ring (some bs)) s = .next (s.ringError fn ring 1) := by
  subst hx hi
  show execItemBegin fn ring (some bs) s = _
  unfold execItemBegin
  dsimp only
  rw [hcan, if_neg (by decide), if_pos h]

/-- ITEM_BEGIN of a header with a good one. -/
theorem exec_itemBegin_good (hlo : 1 ≤ i.nslots) (hhi : i.nslots ≤ 8) : exec (.itemBegin fn ring (some bs)) s =
    .next (if x.unread < i.nslots ∨ (i.fence ∧ !x.items.isEmpty) ∨ x.ents < x.used + x.items.length + 1 then s
      else (s.count 0x064 none).setRing fn ring (x.begun s fn i)) := by
  subst hx hi
  show execItemBegin fn ring (some bs) s = _
  unfold execItemBegin
  dsimp only
  rw [hcan, if_neg (by decide), if_neg (by omega), apply_ite Host.Outcome.next]
  refine if_congr Iff.rfl rfl ?_
  unfold Ring.begun Ring.entry
  dsimp only
  split <;> rfl

/-- ITEM_BEGIN of an item that is whole, whose fence holds and that finds a completion entry. -/
theorem exec_itemBegin_begins (hlo : 1 ≤ i.nslots) (hhi : i.nslots ≤ 8) (hread : i.nslots ≤ x.unread)
    (hfence : i.fence = true → x.items = []) (hroom : x.used + x.items.length + 1 ≤ x.ents) :
    exec (.itemBegin fn ring (some bs)) s = .next ((s.count 0x064 none).setRing fn ring (x.begun s fn i)) := by
  refine (exec_itemBegin_good hx hcan hi hlo hhi).trans (congrArg Host.Outcome.next (if_neg ?_))
  rintro (h | ⟨hf, hitems⟩ | h)
  · omega
  · rw [hfence hf] at hitems
    exact absurd hitems (by decide)
  · omega

end Begin

/-- Settles O44: a doorbell and an item that begins write one ring, and a faulty one puts it in error (`State.ring_ringError`). -/
theorem ringsTakeItems : Obligations.RingsTakeItems := by
  intro fn ring s x hfn hring hx
  have herror : ∀ code, (s.ringError fn ring code).ring fn ring = x.wr CR_STAT_ERR code := fun code => by
    rw [hx]
    exact s.ring_ringError code hfn hring
  refine ⟨fun v => ⟨fun hoff => ?off, fun hen hle => ⟨_, exec_doorbell_enabled hx v hen, ?_⟩,
      fun hen hlt => ⟨_, exec_doorbell_enabled hx v hen, ?_⟩⟩, fun hnot bytes => ?held,
    fun hcan => ⟨⟨_, exec_itemBegin_unread hcan, ?_⟩, fun bs i hi => ⟨fun hbad => ⟨_, exec_itemBegin_faulty hx hcan hi hbad, ?_⟩,
      fun hlo hhi => ⟨fun hwait => ?waits, fun hread hfence hroom =>
        ⟨_, x.entry s fn i, exec_itemBegin_begins hx hcan hi hlo hhi hread hfence hroom, ?begins⟩⟩⟩⟩⟩
  case off => exact if_pos (by rw [← hx, hoff]; rfl)
  · rw [if_neg (by omega)]
    exact State.ring_setRing_self _ _ hfn hring
  · rw [if_pos hlt, herror]
    exact ⟨Ring.err_wr x (by decide), rfl⟩
  case held => exact if_pos (by rw [hnot]; rfl)
  · rw [herror]
    exact ⟨Ring.err_wr x (by decide), rfl⟩
  · rw [herror]
    exact ⟨Ring.err_wr x (by decide), rfl⟩
  case waits =>
    refine (exec_itemBegin_good hx hcan hi hlo hhi).trans (congrArg Host.Outcome.next (if_pos ?_))
    simpa using hwait
  case begins =>
    rw [State.ring_setRing_self _ _ hfn hring]
    exact ⟨Ring.items_begun _ _ _ _, Ring.ci_begun _ _ _ _, rfl, rfl, by rw [hi]; rfl,
      fun hle => ⟨if_pos hle, Ring.last_begun_old s fn hle⟩,
      fun hlt h64 => ⟨if_neg (Nat.not_le.mpr hlt), Ring.last_begun_new s fn hlt h64⟩⟩

/-! ## Completions, flushes and disables (R382 to R384) -/

/-- The bits of a field stand over a written row of another field. -/
theorem bitsOf_applyRow_rw {rws : Bool} {f : Field} (new old : Word) {hi lo : Nat} (hf : f.lo ≤ f.hi ∧ f.hi < 32) (hl : lo ≤ hi)
    (h : hi < f.lo ∨ f.hi < lo) : bitsOf (applyRow rws ⟨f, 1, 1, .rw⟩ new old) hi lo = bitsOf old hi lo := by
  show bitsOf (if fieldBad f (f.of new) then old else putBits old f.hi f.lo (f.of new)) hi lo = _
  split
  · rfl
  · exact bitsOf_putBits_ne _ _ _ _ _ _ hf.2 hf.1 hl h

/-- The rows of CR_CTL (Table 13-20). -/
theorem rowsAt_crCtl : rowsAt .ring 8 =
    [⟨CR_CTL_EN, 1, 1, .rw⟩, ⟨CR_CTL_FLUSH, 1, 1, .wo⟩, ⟨CR_CTL_LOG2SLOTS, 1, 1, .rw⟩, ⟨CR_CTL_CPLVEC, 1, 1, .rw⟩] := by
  decide +kernel

/-- EN after a software write of CR_CTL. -/
theorem Regs.en_softWrite (r : Regs) (rws : Bool) (v : Word) : (r.softWrite .ring rws 8 v).rd CR_CTL_EN = CR_CTL_EN.of v := by
  show bitsOf ((r.softWrite .ring rws 8 v).word .ring 8) 0 0 = _
  rw [Regs.word_softWrite_self, rowsAt_crCtl]
  simp only [List.foldl_cons, List.foldl_nil]
  rw [bitsOf_applyRow_rw (f := CR_CTL_CPLVEC) _ _ (by decide) (by decide) (by decide),
    bitsOf_applyRow_rw (f := CR_CTL_LOG2SLOTS) _ _ (by decide) (by decide) (by decide)]
  show bitsOf (applyRow rws ⟨CR_CTL_EN, 1, 1, .rw⟩ v (r.word .ring 8)) 0 0 = _
  rw [applyRow_of_writable (r := ⟨CR_CTL_EN, 1, 1, .rw⟩) _ (Or.inl rfl) rfl, bitsOf_putBits_self _ _ _ _ (by decide) (by decide)]
  exact Nat.mod_eq_of_lt (bitsOf_lt v 0 0)

/-- Host memory stands when a ring is put back. -/
theorem State.host_setRing (s : State) (fn r : Nat) (x : Ring) : (s.setRing fn r x).host = s.host := by rw [State.setRing_only]

/-- So do the messages sent. -/
theorem State.msgs_setRing (s : State) (fn r : Nat) (x : Ring) : (s.setRing fn r x).msgs = s.msgs := by rw [State.setRing_only]

section Complete
variable {fn ring : Nat} {s : State} {x : Ring} (hx : x = s.ring fn ring)

/-- A ring whose completion at entry `k` of its items has been written. -/
def Ring.completed (x : Ring) (k : Nat) : Ring :=
  ({ x.wr CC_TAIL_TAIL ((x.rd CC_TAIL_TAIL + 1) % 2 ^ 32) with items := x.items.eraseIdx k } : Ring).show.settle

/-- The items of such a ring. -/
theorem Ring.items_completed (x : Ring) (k : Nat) : (x.completed k).items = x.items.eraseIdx k := Ring.items_settle _

/-- CC_TAIL moves by one. -/
theorem Ring.tail_completed (x : Ring) (k : Nat) : (x.completed k).rd CC_TAIL_TAIL = (x.rd CC_TAIL_TAIL + 1) % 2 ^ 32 :=
  (Ring.rd_settle _ (by decide)).trans ((Ring.rd_show _ (by decide) (by decide)).trans
    ((Regs.rd_wr_self _ _ _ _ _ (by decide) (by decide)).trans (Nat.mod_eq_of_lt (Nat.mod_lt _ (by decide)))))

include hx

/-- ITEM_COMPLETE without an outcome. -/
theorem exec_itemComplete_none (h : x.items.findIdx? (fun z => z.done.isSome) = none) : exec (.itemComplete fn ring) s = .next s := by
  subst hx
  show execItemComplete fn ring s = _
  unfold execItemComplete
  dsimp only
  rw [h]

variable {k : Nat} {y : Item} (hk : x.items.findIdx? (fun z => z.done.isSome) = some k) (hy : x.items[k]? = some y)
include hk hy

/-- ITEM_COMPLETE without a free entry. -/
theorem exec_itemComplete_full (h : x.ents ≤ x.used) : exec (.itemComplete fn ring) s = .next s := by
  subst hx
  show execItemComplete fn ring s = _
  unfold execItemComplete
  dsimp only
  rw [hk]
  dsimp only
  rw [hy]
  exact if_pos h

/-- ITEM_COMPLETE of the oldest item with an outcome. -/
theorem exec_itemComplete_writes {d : Nat × Nat} (hd : y.done = some d) (h : x.used < x.ents) {u : State}
    (hu : u = (s.hostWrite (x.rd CC_BASE_LO_BASE * 4096 + x.rd CC_BASE_HI_BASE * 2 ^ 32 + 16 * (x.rd CC_TAIL_TAIL % x.ents))
      (y.completion d.1 d.2 x.ents (x.rd CC_TAIL_TAIL))).setRing fn ring (x.completed k)) :
    ∃ vec, exec (.itemComplete fn ring) s = .next (if y.irq then u.vector fn vec else u) := by
  subst hx hu
  refine ⟨if isPf fn then (s.ring fn ring).rd CR_CTL_CPLVEC else ring, ?_⟩
  show execItemComplete fn ring s = _
  unfold execItemComplete
  dsimp only
  rw [hk]
  dsimp only
  rw [hy]
  dsimp only
  rw [if_neg (by omega), hd]
  rfl

end Complete

section Stop
variable {fn ring : Nat} {s : State} {x : Ring}

/-- A ring whose unread items have completed as `es` (R383, R384). -/
def Ring.drained (x : Ring) (es : List Item) : Ring := { (x.wr CR_CI_CI x.pi).wr CR_STAT_ERR 0 with items := x.items ++ es }

/-- What a drained ring shows in CR_CI and ERR, whatever it shows of BUSY and FLUSHING. -/
theorem Ring.shows_drained (x : Ring) (es : List Item) {y : Ring} (h : y.regs = (x.drained es).regs) :
    y.show.rd CR_CI_CI = x.pi % 2 ^ 32 ∧ y.show.rd CR_STAT_ERR = 0 := by
  have hregs : ∀ f, y.rd f = ((x.wr CR_CI_CI x.pi).wr CR_STAT_ERR 0).rd f := fun f => congrArg (fun r => Regs.rd r f) h
  rw [Ring.rd_show _ (by decide) (by decide), Ring.rd_show _ (by decide) (by decide), hregs, hregs]
  exact ⟨(Regs.rd_wr_apart _ _ _ _ _ _ _ _ (by decide)).trans (Regs.rd_wr_self _ _ _ _ _ (by decide) (by decide)),
    Regs.rd_wr_self _ _ _ _ _ (by decide) (by decide)⟩

/-- RING_FLUSH of an enabled ring. -/
theorem exec_ringFlush_enabled (hx : x = s.ring fn ring) (hdrs : List (List Byte)) (hen : x.bit CR_CTL_EN = true) {es : List Item}
    (hes : es = if x.rd CR_STAT_ERR = 1 ∨ x.rd CR_STAT_ERR = 3 then [] else
      unbegun (x.rd CR_CI_CI + x.unread) 3 2 x.slots (x.rd CR_CI_CI) hdrs) :
    exec (.ringFlush fn ring hdrs) s = .next (s.setRing fn ring ({ x.drained es with flush := !es.isEmpty } : Ring).show) := by
  subst hx hes
  exact if_neg (by rw [hen]; decide)

/-- What a flush leaves of the ring. -/
theorem exec_ringFlush_shows (hfn : fn < 34) (hring : ring < fnRings fn) (hx : x = s.ring fn ring) (hdrs : List (List Byte))
    (hen : x.bit CR_CTL_EN = true) {es : List Item} (hes : es = if x.rd CR_STAT_ERR = 1 ∨ x.rd CR_STAT_ERR = 3 then [] else
      unbegun (x.rd CR_CI_CI + x.unread) 3 2 x.slots (x.rd CR_CI_CI) hdrs) :
    ∃ t, exec (.ringFlush fn ring hdrs) s = .next t ∧ (t.ring fn ring).rd CR_CI_CI = x.pi % 2 ^ 32 ∧
      (t.ring fn ring).rd CR_STAT_ERR = 0 ∧ (t.ring fn ring).items = x.items ++ es := by
  obtain ⟨hci, herr⟩ := Ring.shows_drained x es (y := { x.drained es with flush := !es.isEmpty }) rfl
  refine ⟨_, exec_ringFlush_enabled hx hdrs hen hes, ?_⟩
  rw [State.ring_setRing_self _ _ hfn hring]
  exact ⟨hci, herr, rfl⟩

/-- A ring with the vector that a write of CR_CTL gives a PF's ring. -/
def Ring.withVec (x : Ring) (fn : Nat) (v : Word) : Ring := if isPf fn then x.wr CR_CTL_CPLVEC (CR_CTL_CPLVEC.of v) else x

/-- The vector is another field. -/
theorem Ring.rd_withVec (x : Ring) (fn : Nat) (v : Word) {f : Field} (h : CR_CTL_CPLVEC.apart f 0 0 0 0 = true) :
    (x.withVec fn v).rd f = x.rd f := by
  unfold Ring.withVec
  split
  · exact Regs.rd_wr_apart _ _ _ _ _ _ _ _ h
  · rfl

/-- The same of a one-bit field. -/
theorem Ring.bit_withVec (x : Ring) (fn : Nat) (v : Word) {f : Field} (h : CR_CTL_CPLVEC.apart f 0 0 0 0 = true) :
    (x.withVec fn v).bit f = x.bit f := congrArg (· != 0) (x.rd_withVec fn v h)

/-- Nothing but the registers holds it. -/
theorem Ring.withVec_only (x : Ring) (fn : Nat) (v : Word) : x.withVec fn v = { x with regs := (x.withVec fn v).regs } := by
  unfold Ring.withVec
  split <;> rfl

/-- A ring that closes, with what `es` completes, settled. -/
def Ring.stopped (x : Ring) (es : List Item) : Ring := ({ x.drained es with closing := true } : Ring).show.settle

/-- EN and the closing mark of a ring that closes: it closes while an item is left. -/
theorem Ring.stopped_shows {x : Ring} (es : List Item) (hen : x.bit CR_CTL_EN = true) :
    (x.stopped es).bit CR_CTL_EN = !(x.items ++ es).isEmpty ∧ (x.stopped es).closing = !(x.items ++ es).isEmpty := by
  have hkept : (({ x.drained es with closing := true } : Ring).show).bit CR_CTL_EN = true := by
    refine Eq.trans ?_ hen
    refine congrArg (· != 0) ((Ring.rd_show _ (by decide) (by decide)).trans ?_)
    exact (Regs.rd_wr_apart _ _ _ _ _ _ _ _ (by decide)).trans (Regs.rd_wr_apart _ _ _ _ _ _ _ _ (by decide))
  unfold Ring.stopped Ring.settle
  cases hempty : (x.items ++ es).isEmpty
  · rw [if_neg]
    · exact ⟨hkept, rfl⟩
    · show ¬ ((true && (x.items ++ es).isEmpty) = true)
      rw [hempty]
      decide
  · rw [if_pos]
    · exact ⟨congrArg (· != 0) (Regs.rd_wr_self _ _ _ _ _ (by decide) (by decide)), rfl⟩
    · show (true && (x.items ++ es).isEmpty) = true
      rw [hempty]
      rfl

/-- RING_DISABLE, by what the ring was. -/
theorem exec_ringDisable_writes (hx : x = s.ring fn ring) (v : Word) (hdrs : List (List Byte)) (hv : CR_CTL_EN.on v = false) {es : List Item}
    (hes : es = if x.rd CR_STAT_ERR = 1 ∨ x.rd CR_STAT_ERR = 3 then [] else
      unbegun (x.rd CR_CI_CI + x.unread) 0x0B 0x0B x.slots (x.rd CR_CI_CI) hdrs) :
    exec (.ringDisable fn ring v hdrs) s = .next (s.setRing fn ring (if x.bit CR_CTL_EN then (x.withVec fn v).stopped es
      else { x.withVec fn v with regs := (x.withVec fn v).regs.softWrite .ring true 8 v })) := by
  subst hx
  show execRingDisable fn ring v hdrs s = _
  have hen := (s.ring fn ring).bit_withVec fn v (f := CR_CTL_EN) (by decide)
  have hpi : ((s.ring fn ring).withVec fn v).pi = (s.ring fn ring).pi := by rw [Ring.withVec_only]
  have hci := (s.ring fn ring).rd_withVec fn v (f := CR_CI_CI) (by decide)
  have herr := (s.ring fn ring).rd_withVec fn v (f := CR_STAT_ERR) (by decide)
  have hslots := (s.ring fn ring).rd_withVec fn v (f := CR_CTL_LOG2SLOTS) (by decide)
  have hes' : es = if ((s.ring fn ring).withVec fn v).rd CR_STAT_ERR = 1 ∨ ((s.ring fn ring).withVec fn v).rd CR_STAT_ERR = 3 then [] else
      unbegun (((s.ring fn ring).withVec fn v).rd CR_CI_CI + ((s.ring fn ring).withVec fn v).unread) 0x0B 0x0B
        ((s.ring fn ring).withVec fn v).slots (((s.ring fn ring).withVec fn v).rd CR_CI_CI) hdrs := by
    rw [hes, herr, hci, Ring.unread, Ring.unread, Ring.slots, Ring.slots, hpi, hci, hslots]
  rw [← hen]
  clear hen hpi hci herr hslots hes
  subst hes'
  unfold execRingDisable
  dsimp only
  rw [hv, if_neg (by decide), apply_ite (State.setRing s fn ring), apply_ite Host.Outcome.next]
  change (if (!((s.ring fn ring).withVec fn v).bit CR_CTL_EN) = true then _ else _) = _
  cases ((s.ring fn ring).withVec fn v).bit CR_CTL_EN <;> rfl

end Stop

/-- Settles O45: a completion is written by `exec_itemComplete_writes`, and a flush and a disable drain the ring (`Ring.drained`). -/
theorem completionsAndStops : Obligations.CompletionsAndStops := by
  intro fn ring s x hfn hring hx
  refine ⟨exec_itemComplete_none hx, fun k y d hk hy hd => ⟨fun hroom => ?complete, exec_itemComplete_full hx hk hy⟩,
    fun hdrs => ⟨fun hoff => if_pos (by rw [← hx, hoff]; rfl), fun hen => exec_ringFlush_shows hfn hring hx hdrs hen rfl⟩,
    fun v hdrs => ⟨fun hv => if_pos hv, fun hv hoff => ⟨_, exec_ringDisable_writes hx v hdrs hv rfl, ?_⟩,
      fun es hv hen hes => ⟨_, exec_ringDisable_writes hx v hdrs hv hes, ?_⟩⟩⟩
  case complete =>
    obtain ⟨vec, hexec⟩ := exec_itemComplete_writes hx hk hy hd hroom rfl
    refine ⟨_, hexec, ?_⟩
    generalize hu : (s.hostWrite _ _).setRing fn ring (x.completed k) = u
    have hring' : u.ring fn ring = x.completed k := by rw [← hu]; exact State.ring_setRing_self _ _ hfn hring
    have hsent : (if y.irq then u.vector fn vec else u).ring fn ring = x.completed k := by
      split
      · exact (u.ring_vector _ _ _ _).trans hring'
      · exact hring'
    rw [hsent]
    refine ⟨Ring.items_completed x k, Ring.tail_completed x k, ?_, fun hirq => ?_⟩
    · have hhost : (if y.irq then u.vector fn vec else u).host = u.host := by
        split
        · rw [(Messaged.refl u).vector (k := fn) (v := vec)]
        · rfl
      rw [hhost, ← hu, State.host_setRing]
      rfl
    · rw [hirq, if_neg (by decide), ← hu, State.msgs_setRing]
      rfl
  · rw [State.ring_setRing_self _ _ hfn hring, hoff, if_neg (by decide)]
    refine ⟨?_, ?_⟩
    · exact (congrArg (· != 0) (Regs.en_softWrite _ _ _)).trans hv
    · rw [Ring.withVec_only]
  · rw [State.ring_setRing_self _ _ hfn hring, hen, if_pos rfl]
    have hvec := x.withVec_only fn v
    have hen' : (x.withVec fn v).bit CR_CTL_EN = true := (x.bit_withVec fn v (by decide)).trans hen
    obtain ⟨hci, herr⟩ := Ring.shows_drained (x.withVec fn v) es (y := { (x.withVec fn v).drained es with closing := true }) rfl
    obtain ⟨hshown, hclosing⟩ := Ring.stopped_shows es hen'
    have hitems : (x.withVec fn v).items = x.items := by rw [hvec]
    have hpi : (x.withVec fn v).pi = x.pi := by rw [hvec]
    rw [hitems] at hshown hclosing
    refine ⟨?_, ?_, ?_, hshown, hclosing⟩
    · exact (Ring.items_settle _).trans (congrArg (· ++ es) hitems)
    · exact (Ring.rd_settle _ (by decide)).trans (hpi ▸ hci)
    · exact (Ring.rd_settle _ (by decide)).trans herr

end Sys2Proof.Machine

/-!
PROOFS. Items and BAR2 requests (13 R369 to R381): the refutation of O46 by a function that the device does not have.
-/
namespace Sys2Proof.Machine

/-- An AER error of a function beyond the device's 34 is not kept. -/
theorem State.aer_beyond {s : State} {fn : Nat} (k : Nat) (h : 34 ≤ fn) : s.aer fn k = s := by
  unfold State.aer State.setFn
  rw [if_neg (by omega)]

theorem State.foldl_discard_fns {α : Type} (l : List α) (s : State) :
    (l.foldl (fun (s : State) _ => s.discard) s).fns = s.fns := by
  induction l generalizing s with
  | nil => rfl
  | cons _ _ ih => rw [List.foldl_cons, ih, State.discard_fns]

/-- Refutes O46: a poisoned write of function 34, which the device does not have, is logged in no AER. -/
theorem not_itemsMoveData : ¬ Obligations.ItemsMoveData := by
  unfold Obligations.ItemsMoveData
  intro h
  obtain ⟨-, -, hbar⟩ := h
  obtain ⟨-, -, hpoisoned⟩ := hbar 34 0 _ State.reset rfl
  obtain ⟨t, ht, -, haer⟩ := hpoisoned 1
  have hexec : exec (.bar2Access 34 0 (.poisoned 1)) State.reset = .next
      (((cuts ((State.reset.fn 34).b2 + 0) 1).foldl (fun (s : State) _ => s.discard) State.reset).aer 34 2) := rfl
  rw [State.aer_beyond 2 (by decide)] at hexec
  have hfns : t.fns = State.reset.fns := by
    rw [← Host.Outcome.next.inj (hexec.symm.trans ht), State.foldl_discard_fns]
  rw [show t.fn 34 = State.reset.fn 34 from congrArg (fun f : SMap Fn => f.get fnZero 34) hfns] at haer
  exact absurd haer (by decide)

end Sys2Proof.Machine

/-!
PROOFS. BAR2 requests within one line (13 R369 to R371, 23 R571).
-/
namespace Sys2Proof.Machine

/-! ## One line -/

/-- A range within one line is cut nowhere. -/
theorem cuts_within {o n : Nat} (hn : n ≠ 0) (h : o % 256 + n ≤ 256) : cuts o n = [(o, n)] := by
  have hmin : min n (256 - o % 256) = n := by omega
  have hrest : ∀ f o, lineCuts o f 0 = [] := fun f o => by cases f <;> rfl
  unfold cuts lineCuts
  rw [if_neg hn, hmin]
  dsimp only
  rw [Nat.sub_self, hrest]

/-- The regions and stores that the host map names exist. -/
theorem hostPlace_region_lt {o n a : Nat} (h : hostPlace o = .stack n a ∨ hostPlace o = .store n a) : n < 24 := by
  unfold hostPlace at h
  split at h
  · obtain h | h := h <;> simp only [HostPlace.store.injEq, reduceCtorEq] at h
    omega
  · split at h
    · obtain h | h := h <;> simp only [HostPlace.stack.injEq, reduceCtorEq] at h
      omega
    · obtain h | h := h <;> simp only [reduceCtorEq] at h

theorem State.hostStore_allowed {s : State} {fn o : Nat} {bs : List Byte} (hbs : bs ≠ []) (hline : o % 256 + bs.length ≤ 256)
    (h : s.judge fn o = 0) : s.hostStore fn o bs = s.placeWrite o bs := by
  unfold State.hostStore
  rw [cuts_within (by simpa using hbs) hline, List.foldl_cons, List.foldl_nil, if_pos h, Nat.sub_self, List.drop_zero,
    List.take_length]

theorem State.hostStore_refused {s : State} {fn o : Nat} {bs : List Byte} (hbs : bs ≠ []) (hline : o % 256 + bs.length ≤ 256)
    (h : s.judge fn o ≠ 0) : s.hostStore fn o bs = s.discard.aer fn 0 := by
  unfold State.hostStore
  rw [cuts_within (by simpa using hbs) hline, List.foldl_cons, List.foldl_nil, if_neg h]

theorem State.hostLoad_allowed {s : State} {fn o n : Nat} (hn : n ≠ 0) (hline : o % 256 + n ≤ 256) (h : s.judge fn o = 0) :
    (s.hostLoad fn o n).s = (if (s.placeRead o n).2.2 then (s.placeRead o n).1.aer fn 1 else (s.placeRead o n).1) ∧
    (s.hostLoad fn o n).ans = [if (s.placeRead o n).2.2 then .poisoned (s.placeRead o n).2.1 else .data (s.placeRead o n).2.1] := by
  unfold State.hostLoad
  rw [cuts_within hn hline, List.foldl_cons, List.foldl_nil, if_pos h]
  exact ⟨rfl, rfl⟩

theorem State.hostLoad_refused {s : State} {fn o n : Nat} (hn : n ≠ 0) (hline : o % 256 + n ≤ 256) (h : s.judge fn o ≠ 0) :
    (s.hostLoad fn o n).s = s.discard.aer fn 0 ∧ (s.hostLoad fn o n).ans = [.unsupported] := by
  unfold State.hostLoad
  rw [cuts_within hn hline, List.foldl_cons, List.foldl_nil, if_neg h]
  exact ⟨rfl, rfl⟩

/-! ## AER -/

theorem State.aer_aer {s : State} {fn : Nat} (k : Nat) (h : fn < 34) : ((s.aer fn k).fn fn).aer = (s.fn fn).aer ||| 2 ^ k := by
  unfold State.aer
  rw [State.fn_setFn_self _ _ _ h]

theorem State.aer_noted (s : State) (fn k : Nat) : Noted s (s.aer fn k) := (Noted.refl s).setFn

theorem State.aer_regions (s : State) (fn k : Nat) : (s.aer fn k).regions = s.regions := by
  rw [s.aer_noted fn k]

theorem State.discard_aer {s : State} {fn : Nat} (n k : Nat) (h : fn < 34) :
    (((s.discard n).aer fn k).fn fn).aer = (s.fn fn).aer ||| 2 ^ k := by
  rw [State.aer_aer k h]
  exact congrArg (fun f : SMap Fn => (f.get fnZero fn).aer ||| 2 ^ k) (s.discard_fns n)

/-! ## Places -/

theorem State.placeWrite_stack {s : State} {o n a : Nat} (bs : List Byte) (h : hostPlace o = .stack n a) :
    ((s.placeWrite o bs).region n).stack = (s.region n).stack.wrN a bs ∧
    ((s.placeWrite o bs).region n).store = (s.region n).store ∧ ∀ m, m ≠ n → (s.placeWrite o bs).region m = s.region m := by
  have hw : s.placeWrite o bs = s.onRegion n 0 (fun _ g => g.stkWrite a bs false) := by unfold State.placeWrite; rw [h]
  rw [hw, State.onRegion, State.region_putRegion_self _ _ _ (hostPlace_region_lt (.inl h))]
  exact ⟨rfl, rfl, (s.putRegion_frame n _).2⟩

theorem State.placeWrite_store {s : State} {o n a : Nat} (bs : List Byte) (h : hostPlace o = .store n a) :
    ((s.placeWrite o bs).region n).store = (s.region n).store.wrN a bs ∧
    ((s.placeWrite o bs).region n).stack = (s.region n).stack ∧ ∀ m, m ≠ n → (s.placeWrite o bs).region m = s.region m := by
  have hw : s.placeWrite o bs = s.onRegion n 0 (fun _ g => g.rsWrite a bs) := by unfold State.placeWrite; rw [h]
  rw [hw, State.onRegion, State.region_putRegion_self _ _ _ (hostPlace_region_lt (.inr h))]
  exact ⟨rfl, rfl, (s.putRegion_frame n _).2⟩

theorem State.placeRead_stack {s : State} {o n a len : Nat} (h : hostPlace o = .stack n a)
    (hgood : (s.region n).stkBad a (a + len) = []) : (s.placeRead o len).2 = ((s.region n).stack.rdN a len, false) := by
  unfold State.placeRead
  rw [h]
  dsimp only
  rw [hgood, List.any_nil]

theorem State.placeRead_store {s : State} {o n a : Nat} (len : Nat) (h : hostPlace o = .store n a) :
    (s.placeRead o len).2 = ((s.region n).store.rdN a len, ((s.region n).rsEcc (s.renv n 0) a (a + len)).2) := by
  unfold State.placeRead
  rw [h]

/-! ## Requests -/

theorem exec_bar2Write (fn off : Nat) (bs : List Byte) (s : State) : ∃ t, exec (.bar2Access fn off (.write bs)) s = .next t ∧
    t.regions = (s.hostStore fn ((s.fn fn).b2 + off) bs).regions ∧ t.fns = (s.hostStore fn ((s.fn fn).b2 + off) bs).fns :=
  ⟨_, rfl, State.count_regions _ _ _ _, State.count_fns _ _ _ _⟩

theorem exec_bar2Read (fn off n : Nat) (s : State) : ∃ t, exec (.bar2Access fn off (.read n)) s = .next t ∧
    t.answer = .lines (s.hostLoad fn ((s.fn fn).b2 + off) n).ans ∧
    t.regions = (s.hostLoad fn ((s.fn fn).b2 + off) n).s.regions ∧ t.fns = (s.hostLoad fn ((s.fn fn).b2 + off) n).s.fns :=
  ⟨_, rfl, rfl, State.count_regions _ _ _ _, State.count_fns _ _ _ _⟩

/-- Two states with the same regions have each region the same. -/
theorem State.region_of_regions {s t : State} (h : t.regions = s.regions) (n : Nat) : t.region n = s.region n := by
  unfold State.region
  rw [h]

theorem State.fn_of_fns {s t : State} (h : t.fns = s.fns) (k : Nat) : t.fn k = s.fn k := by
  unfold State.fn
  rw [h]

/-- Settles O47: within one line a request is one placed read or write, or one refusal. -/
theorem hostStoreReachesItsLines : Obligations.HostStoreReachesItsLines := by
  unfold Obligations.HostStoreReachesItsLines
  intro fn off o n a s hfn ho
  subst ho
  refine ⟨fun bs hbs hline => ?_, fun len hlen hline => ?_, fun hpf => ?_, fun hvf hparcel => ?_⟩
  · obtain ⟨t, ht, hregions, hfns⟩ := exec_bar2Write fn off bs s
    have hregion := State.region_of_regions hregions
    refine ⟨fun hj hplace => ⟨t, ht, ?_⟩, fun hj hplace => ⟨t, ht, ?_⟩, fun hj => ⟨t, ht, ?_⟩⟩
    · simp only [hregion, State.hostStore_allowed hbs hline hj]
      exact State.placeWrite_stack bs hplace
    · simp only [hregion, State.hostStore_allowed hbs hline hj]
      exact State.placeWrite_store bs hplace
    · rw [hregions, State.fn_of_fns hfns, State.hostStore_refused hbs hline hj, State.aer_regions, State.discard_regions]
      exact ⟨rfl, State.discard_aer 1 0 hfn⟩
  · obtain ⟨t, ht, hans, hregions, hfns⟩ := exec_bar2Read fn off len s
    refine ⟨fun hj hplace hgood => ⟨t, ht, ?_⟩, fun hj hplace hgood => ⟨t, ht, ?_⟩, fun hj hplace hbad => ⟨t, ht, ?_, ?_⟩,
      fun hj => ⟨t, ht, ?_⟩⟩
    · rw [hans, (State.hostLoad_allowed hlen hline hj).2, State.placeRead_stack hplace hgood]
      rfl
    · rw [hans, (State.hostLoad_allowed hlen hline hj).2, State.placeRead_store len hplace, hgood]
      rfl
    · rw [hans, (State.hostLoad_allowed hlen hline hj).2, State.placeRead_store len hplace, hbad]
      rfl
    · rw [State.fn_of_fns hfns, (State.hostLoad_allowed hlen hline hj).1, State.placeRead_store len hplace, hbad, if_pos rfl,
        State.aer_aer 1 hfn, Nat.testBit_or, Nat.testBit_two_pow_self, Bool.or_true]
    · obtain ⟨hs, hans'⟩ := State.hostLoad_refused hlen hline hj
      rw [hans, hregions, State.fn_of_fns hfns, hans', hs, State.aer_regions, State.discard_regions]
      exact ⟨rfl, rfl, State.discard_aer 1 0 hfn⟩
  · unfold State.judge
    rw [if_pos hpf, ite_eq_right_iff]
    exact ⟨fun h hnone => absurd (h hnone) Nat.one_ne_zero, fun h hnone => absurd hnone h⟩
  · unfold State.judge
    rw [if_neg (by simp [hvf]), if_neg (fun h => h.1 hparcel)]

end Sys2Proof.Machine

/-!
PROOFS. Field books (13 R387 to R389, 18 R475): what a record that is generated, written or left waiting changes.
-/
namespace Sys2Proof.Machine

/-! ## What field books change -/

/-- From `s` to `t` only the functions, the waiting records, host memory, messages and event counts change. -/
def Booked (s t : State) : Prop :=
  t = { s with evcs := t.evcs, fns := t.fns, err := { s.err with wait := t.err.wait }, host := t.host, msgs := t.msgs }

namespace Booked

theorem refl (s : State) : Booked s s := rfl

theorem mk_ {z s : State} {evcs fns wait host msgs} (h : Booked z s) :
    Booked z { s with evcs := evcs, fns := fns, err := { s.err with wait := wait }, host := host, msgs := msgs } := by
  unfold Booked at h ⊢
  rw [h]

theorem messaged {z s t : State} (h : Booked z s) (k : Messaged s t) : Booked z t := by
  rw [k]
  exact h.mk_ (wait := s.err.wait)

theorem count {z s : State} {c n : Nat} {p : Option Nat} (h : Booked z s) : Booked z (s.count c p n) := by
  rw [State.count_only]
  exact h.mk_ (wait := s.err.wait)

theorem setFn {z s : State} {k : Nat} {f : Fn} (h : Booked z s) : Booked z (s.setFn k f) := h.messaged (Messaged.refl s).setFn

theorem bookPut {z s : State} {fn : Nat} {r : BookRec} (h : Booked z s) : Booked z (s.bookPut fn r) := by
  unfold State.bookPut
  extract_lets f k base s1 irqn due s2 s3
  have h3 : Booked z s3 := count (setFn (h.mk_ (wait := s.err.wait)))
  split
  · exact h3.messaged (Messaged.refl s3).vector
  · exact h3

theorem bookLost {z s : State} {fn : Nat} {r : BookRec} (h : Booked z s) : Booked z (s.bookLost fn r) := h.setFn

theorem bookWait {z s : State} {fn : Nat} {r : BookRec} (h : Booked z s) : Booked z (s.bookWait fn r) := by
  unfold State.bookWait
  split
  · exact h.mk_
  · split
    · exact h.bookLost
    · split
      · exact bookLost h.mk_
      · exact h.bookLost

theorem announce {z s : State} {fn : Nat} {r : BookRec} (h : Booked z s) : Booked z (s.announce fn r) := by
  unfold State.announce
  split
  · exact h.messaged (Messaged.refl s).vector
  · exact h

theorem bookGen {z s : State} {fn : Nat} {r : BookRec} (h : Booked z s) : Booked z (s.bookGen fn r) := by
  unfold State.bookGen
  dsimp only
  split
  · exact h.announce
  · split
    · exact h.setFn.bookPut.announce
    · exact h.setFn.bookWait.announce

theorem bookAll {z s : State} {r : BookRec} (h : Booked z s) : Booked z (s.bookAll r) :=
  List.foldlRecOn (motive := Booked z) _ _ h fun _ hx _ _ => hx.bookGen

variable {s t : State} (h : Booked s t)
include h

theorem errq : t.err.q = s.err.q := by rw [h]
theorem regions : t.regions = s.regions := by rw [h]
theorem blocks : t.blocks = s.blocks := by rw [h]
theorem hub : t.hub = s.hub := by rw [h]
theorem mc : t.mc = s.mc := by rw [h]

end Booked

/-! ## A record written -/

/-- A record written to a book leaves every function's rings and power state. -/
theorem State.fn_bookPut (s : State) (fn : Nat) (r : BookRec) (k : Nat) :
    ((s.bookPut fn r).fn k).rings = (s.fn k).rings ∧ ((s.bookPut fn r).fn k).d3 = (s.fn k).d3 := by
  unfold State.bookPut
  extract_lets f j base s1 irqn due s2 s3
  have h3 : (s3.fn k).rings = (s.fn k).rings ∧ (s3.fn k).d3 = (s.fn k).d3 := by
    rw [show s3.fn k = s2.fn k from State.fn_of_fns (State.count_fns _ _ _ _) k]
    unfold s2
    by_cases hk : k = fn
    · subst hk
      by_cases hlt : k < 34
      · rw [State.fn_setFn_self _ _ _ hlt]
        exact ⟨rfl, rfl⟩
      · rw [State.setFn, if_neg hlt]
        exact ⟨rfl, rfl⟩
    · rw [State.fn_setFn_ne _ _ _ _ hk]
      exact ⟨rfl, rfl⟩
  split
  · rw [State.fn_vector]
    exact h3
  · exact h3

@[simp] theorem State.bookPut_err (s : State) (fn : Nat) (r : BookRec) : (s.bookPut fn r).err = s.err := by
  unfold State.bookPut
  extract_lets f j base s1 irqn due s2 s3
  have h3 : s3.err = s.err := by rw [State.count_err, State.setFn_err]; rfl
  split
  · rw [(Messaged.refl s3).vector.err, h3]
  · exact h3

theorem State.bookPut_host (s : State) (fn : Nat) (r : BookRec) : (s.bookPut fn r).host =
    s.host.wrN ((s.fn fn).book.rd FB_BASE_LO_BASE * 4096 + (s.fn fn).book.rd FB_BASE_HI_BASE * 2 ^ 32 +
        128 * ((s.fn fn).book.rd FB_TAIL_TAIL % (s.fn fn).bookSize))
      (r.image (s.fn fn).bookSize ((s.fn fn).book.rd FB_TAIL_TAIL)) := by
  unfold State.bookPut
  dsimp only
  split
  · rw [show ∀ (x : State) (v : Nat), (x.vector fn v).host = x.host from fun x v => by rw [(Messaged.refl x).vector], State.count_host,
      State.setFn_host, State.hostWrite]
  · rw [State.count_host, State.setFn_host, State.hostWrite]

/-! ## Waiting records written -/

/-- With no record waiting for the function nothing is written. -/
theorem State.bookFlush_none {fn : Nat} {s : State} (n : Nat) (h : s.err.wait.any (fun x => x.1 == fn) = false) :
    State.bookFlush fn n s = s := by
  have hnone : s.err.wait.findIdx? (fun x => x.1 == fn) = none := by
    rw [List.findIdx?_eq_none_iff]
    exact fun x hx => Bool.eq_false_iff.mpr (fun hp => by simp [List.any_eq_false] at h; exact h _ _ hx (by simpa using hp))
  cases n with
  | zero => rfl
  | succ n => unfold State.bookFlush; dsimp only; rw [hnone]

/-- A book that is off, full or of a function in D3hot takes no record. -/
theorem State.bookFlush_shut {fn : Nat} {s : State} (n : Nat)
    (h : (s.fn fn).bookOn = false ∨ (s.fn fn).bookRoom = false ∨ (s.fn fn).d3 = true) : State.bookFlush fn n s = s := by
  cases n with
  | zero => rfl
  | succ n =>
    unfold State.bookFlush
    dsimp only
    split
    · rfl
    · rw [if_pos (by obtain h | h | h := h <;> simp [h])]

/-- The function's first waiting record is written. -/
theorem State.bookFlush_one {fn k : Nat} {s : State} {y : Nat × BookRec} (hon : (s.fn fn).bookOn = true)
    (hroom : (s.fn fn).bookRoom = true) (hd3 : (s.fn fn).d3 = false)
    (hk : s.err.wait.findIdx? (fun y => y.1 == fn) = some k) (hy : s.err.wait[k]? = some y) :
    State.bookFlush fn 1 s = ({ s with err := { s.err with wait := s.err.wait.eraseIdx k } } : State).bookPut fn y.2 := by
  unfold State.bookFlush
  dsimp only
  rw [hk]
  dsimp only
  rw [if_neg (by simp [hon, hroom, hd3]), hy]
  rfl

/-- Records that are written leave the functions' rings and power state, and add no waiting one. -/
theorem State.bookFlush_leaves (fn n : Nat) (s : State) :
    (∀ k, ((State.bookFlush fn n s).fn k).rings = (s.fn k).rings ∧ ((State.bookFlush fn n s).fn k).d3 = (s.fn k).d3) ∧
    ∀ y ∈ (State.bookFlush fn n s).err.wait, y ∈ s.err.wait := by
  induction n generalizing s with
  | zero => exact ⟨fun _ => ⟨rfl, rfl⟩, fun _ hy => hy⟩
  | succ n ih =>
    unfold State.bookFlush
    dsimp only
    split
    · exact ⟨fun _ => ⟨rfl, rfl⟩, fun _ hy => hy⟩
    · next i _ =>
      split
      · exact ⟨fun _ => ⟨rfl, rfl⟩, fun _ hy => hy⟩
      · split
        · exact ⟨fun _ => ⟨rfl, rfl⟩, fun _ hy => hy⟩
        · next x _ =>
          obtain ⟨hfn, hwait⟩ := ih (({ s with err := { s.err with wait := s.err.wait.eraseIdx i } } : State).bookPut fn x.2)
          refine ⟨fun k => ?_, fun y hy => ?_⟩
          · obtain ⟨hrings, hd3⟩ := State.fn_bookPut { s with err := { s.err with wait := s.err.wait.eraseIdx i } } fn x.2 k
            exact ⟨(hfn k).1.trans hrings, (hfn k).2.trans hd3⟩
          · have hmem := hwait y hy
            rw [State.bookPut_err] at hmem
            exact List.mem_of_mem_eraseIdx hmem

end Sys2Proof.Machine

/-!
PROOFS. Function resets, links, power states and MSI-X (13 R367, R386 to R391).
-/
namespace Sys2Proof.Machine

/-! ## A function reset -/

/-- From `s` to `t` only the VF pages of functions change. -/
def Paged (s t : State) : Prop := t = { s with fns := t.fns } ∧ ∀ k, t.fn k = { s.fn k with vf := (t.fn k).vf }

/-- VF_STAT shown changes VF pages alone. -/
theorem State.showVf_paged (s : State) (p : Nat) : Paged s (s.showVf p) := by
  refine List.foldlRecOn (motive := Paged s) _ _ ⟨rfl, fun _ => rfl⟩ fun x hx k _ => ?_
  obtain ⟨honly, hfn⟩ := hx
  dsimp only
  refine ⟨?_, fun j => ?_⟩
  · unfold State.setFn
    split
    · rw [honly]
    · exact honly
  · by_cases hj : j = k
    · subst hj
      by_cases hlt : j < 34
      · rw [State.fn_setFn_self _ _ _ hlt, hfn]
      · rw [State.setFn, if_neg hlt]
        exact hfn j
    · rw [State.fn_setFn_ne _ _ _ _ hj]
      exact hfn j

/-- The part of a function that a reset clears is clear. -/
def Fn.cleared (f : Fn) : Prop := f.rings = [] ∧ f.book = [] ∧ f.d3 = false ∧ f.masked = 0xFFFFFFFF

theorem fnZero_cleared (k : Nat) : (fnZero k).cleared := by
  unfold fnZero
  split <;> exact ⟨rfl, rfl, rfl, rfl⟩

/-- No record waits for the function. -/
def State.noneWait (s : State) (fn : Nat) : Prop := ∀ y ∈ s.err.wait, y.1 ≠ fn

/-- A function reset changes functions and waiting records alone. -/
theorem State.fnReset_only (s : State) (fn : Nat) :
    s.fnReset fn = { s with fns := (s.fnReset fn).fns, err := { s.err with wait := s.err.wait.filter (fun x => x.1 != fn) } } := by
  unfold State.fnReset
  extract_lets e s1 s2
  have h2 : s2 = { s1 with fns := s2.fns } := by
    unfold s2 State.setFn
    split <;> rfl
  split
  · exact h2
  · rw [(s2.showVf_paged _).1, h2]

theorem State.fn_fnReset_self (s : State) {fn : Nat} (h : fn < 34) : ((s.fnReset fn).fn fn).cleared := by
  unfold State.fnReset
  extract_lets e s1 s2
  have h2 : (s2.fn fn).cleared := by
    rw [State.fn_setFn_self _ _ _ h]
    exact fnZero_cleared fn
  split
  · exact h2
  · rw [(s2.showVf_paged _).2]
    exact h2

/-- A function that is clear stays clear while another resets. -/
theorem State.fn_fnReset (s : State) {fn k : Nat} (hk : (s.fn k).cleared) : ((s.fnReset fn).fn k).cleared := by
  unfold State.fnReset
  extract_lets e s1 s2
  have h2 : (s2.fn k).cleared := by
    by_cases hkf : k = fn
    · subst hkf
      by_cases hlt : k < 34
      · rw [State.fn_setFn_self _ _ _ hlt]
        exact fnZero_cleared k
      · unfold s2 State.setFn
        rw [if_neg hlt]
        exact hk
    · rw [State.fn_setFn_ne _ _ _ _ hkf]
      exact hk
  split
  · exact h2
  · rw [(s2.showVf_paged _).2]
    exact h2

theorem State.fnReset_wait (s : State) (fn : Nat) : (s.fnReset fn).err.wait = s.err.wait.filter (fun x => x.1 != fn) := by
  rw [s.fnReset_only fn]

theorem State.noneWait_fnReset (s : State) (fn k : Nat) (h : k = fn ∨ s.noneWait k) : (s.fnReset fn).noneWait k := by
  intro y hy
  rw [State.fnReset_wait, List.mem_filter] at hy
  obtain ⟨hmem, hne⟩ := hy
  obtain rfl | h := h
  · simpa using hne
  · exact h y hmem

/-- A fold of resets leaves each function named clear, with no record waiting for it. -/
theorem State.fnResets_clear (f : Nat → Nat) (l : List Nat) (s : State) {i : Nat} (hlt : f i < 34)
    (h : i ∈ l ∨ (s.fn (f i)).cleared ∧ s.noneWait (f i)) :
    ((l.foldl (fun s i => s.fnReset (f i)) s).fn (f i)).cleared ∧ (l.foldl (fun s i => s.fnReset (f i)) s).noneWait (f i) := by
  induction l generalizing s with
  | nil => simpa using h
  | cons j l ih =>
    refine ih (s.fnReset (f j)) ?_
    by_cases hj : i = j
    · subst hj
      exact .inr ⟨s.fn_fnReset_self hlt, s.noneWait_fnReset _ _ (.inl rfl)⟩
    · obtain hmem | ⟨hclear, hwait⟩ := h
      · exact .inl ((List.mem_cons.mp hmem).resolve_left hj)
      · exact .inr ⟨s.fn_fnReset hclear, s.noneWait_fnReset _ _ (.inr hwait)⟩

theorem State.fnResets_frame (f : Nat → Nat) (l : List Nat) (s : State) :
    (l.foldl (fun s i => s.fnReset (f i)) s).hub = s.hub ∧ (l.foldl (fun s i => s.fnReset (f i)) s).ctxs = s.ctxs := by
  refine List.foldlRecOn (motive := fun t : State => t.hub = s.hub ∧ t.ctxs = s.ctxs) _ _ ⟨rfl, rfl⟩ fun x hx k _ => ?_
  rw [x.fnReset_only]
  exact hx

/-! ## A teardown after the reset -/

/-- An item that a clear function no longer holds cannot be finished. -/
theorem State.fn_finish_cleared {s : State} (i : ItemRef) (a b : Nat) {k : Nat} (h : (s.fn k).cleared) :
    ((s.finish i a b).fn k).cleared := by
  unfold State.finish
  dsimp only
  by_cases hk : k = i.fn
  · subst hk
    by_cases hlt : i.fn < 34
    · rw [State.fn_setFn_self _ _ _ hlt]
      obtain ⟨hrings, hbook, hd3, hmasked⟩ := h
      refine ⟨?_, hbook, hd3, hmasked⟩
      dsimp only
      rw [hrings]
      exact if_pos rfl
    · rw [State.setFn, if_neg hlt]
      exact h
  · rw [State.fn_setFn_ne _ _ _ _ hk]
    exact h

theorem State.fn_teardown_cleared {s : State} (p c : Nat) {k : Nat} (h : (s.fn k).cleared) : ((s.teardown p c).fn k).cleared := by
  unfold State.teardown
  dsimp only
  split
  · show Fn.cleared (State.fn _ k)
    split
    · exact State.fn_finish_cleared _ _ _ h
    · exact h
  · split
    · split <;> exact h
    · exact h

/-- A teardown that an active context has not been asked for is requested. -/
theorem State.teardown_requests {s : State} {p c : Nat} (hp : s.pstate p = 2) (hreq : (s.ctx p).req = none) :
    ((s.teardown p c).ctx p).req = some (c, s.inTime) := by
  unfold State.teardown
  dsimp only
  rw [if_neg (by rw [hp]; decide), if_pos hp, hreq]
  dsimp only
  rw [State.ctx_setCtx_self]

/-! ## The commands -/

/-- A function put back changes the functions alone. -/
theorem State.setFn_only (s : State) (k : Nat) (f : Fn) : s.setFn k f = { s with fns := (s.setFn k f).fns } := by
  unfold State.setFn
  split <;> rfl

theorem exec_flr (fn : Nat) (s : State) : exec (.flr fn) s =
    .next (if isPf fn = true ∨ fnParcel fn = 0 then s.fnReset fn else (s.fnReset fn).teardown (fnParcel fn) 3) := rfl

/-- A function level reset clears the function and has its parcel's context torn down (R391). -/
theorem exec_flr_clears {fn : Nat} (s : State) (h : fn < 34) : ∃ t, exec (.flr fn) s = .next t ∧ (t.fn fn).rings = [] ∧
    (t.fn fn).book = [] ∧ (t.fn fn).d3 = false ∧ (t.fn fn).masked = 0xFFFFFFFF ∧ (∀ y ∈ t.err.wait, y.1 ≠ fn) ∧
    (isPf fn = false → fnParcel fn ≠ 0 → s.pstate (fnParcel fn) = 2 → (s.ctx (fnParcel fn)).req = none →
      ∃ early, (t.ctx (fnParcel fn)).req = some (3, early)) := by
  have hclear := s.fn_fnReset_self h
  have hwait := s.noneWait_fnReset fn fn (.inl rfl)
  rw [exec_flr]
  split
  · next hpf =>
    obtain ⟨hrings, hbook, hd3, hmasked⟩ := hclear
    exact ⟨_, rfl, hrings, hbook, hd3, hmasked, hwait, fun hvf hparcel => absurd hpf (by simp [hvf, hparcel])⟩
  · obtain ⟨hrings, hbook, hd3, hmasked⟩ := State.fn_teardown_cleared (fnParcel fn) 3 hclear
    refine ⟨_, rfl, hrings, hbook, hd3, hmasked, ?_, fun _ _ hstate hreq => ⟨_, State.teardown_requests ?_ ?_⟩⟩
    · rw [State.teardown_err]
      exact hwait
    · rw [State.pstate, State.rd, s.fnReset_only]
      exact hstate
    · rw [State.ctx, s.fnReset_only]
      exact hreq

/-- A function in D3hot begins no item (R391). -/
theorem exec_d3hot {fn : Nat} (s : State) (h : fn < 34) : ∃ t, exec (.d3hot fn) s = .next t ∧
    t.fn fn = { s.fn fn with d3 := true } ∧ (∀ k, k ≠ fn → t.fn k = s.fn k) ∧ t = { s with fns := t.fns } ∧
    ∀ r, t.canBegin fn r = false := by
  have hself := State.fn_setFn_self s fn { s.fn fn with d3 := true } h
  refine ⟨_, rfl, hself, fun k hk => State.fn_setFn_ne _ _ _ _ hk, ?_, fun r => ?_⟩
  · rw [State.setFn, if_pos h]
  · rw [State.canBegin, hself]
    simp

/-- Back in D0 a function's waiting records are written (R391). -/
theorem exec_powerStateD0 {fn : Nat} (s : State) (h : fn < 34) : ∃ t, exec (.powerStateD0 fn) s = .next t ∧
    (t.fn fn).d3 = false ∧ (t.fn fn).rings = (s.fn fn).rings ∧ (∀ y, y ∈ t.err.wait → y ∈ s.err.wait) ∧
    (s.err.wait.any (fun y => y.1 == fn) = false → t = { s with fns := t.fns }) := by
  obtain ⟨x, hx, hself, herr, honly⟩ : ∃ x : State, exec (.powerStateD0 fn) s = .next (State.bookFlush fn x.err.wait.length x) ∧
      x.fn fn = { s.fn fn with d3 := false } ∧ x.err = s.err ∧ x = { s with fns := x.fns } :=
    ⟨s.setFn fn { s.fn fn with d3 := false }, rfl, State.fn_setFn_self _ _ _ h, State.setFn_err _ _ _, State.setFn_only _ _ _⟩
  obtain ⟨hfn, hwait⟩ := State.bookFlush_leaves fn x.err.wait.length x
  obtain ⟨hrings, hd3⟩ := hfn fn
  refine ⟨_, hx, ?_, ?_, fun y hy => herr ▸ hwait y hy, fun hnone => ?_⟩
  · rw [hd3, hself]
  · rw [hrings, hself]
  · rw [State.bookFlush_none _ (herr ▸ hnone)]
    exact honly

/-- An unmasked vector sends the message that it held back (R386). -/
theorem exec_msixVectorUnmask {fn : Nat} (vec : Nat) (s : State) (h : fn < 34) :
    ∃ t, exec (.msixVectorUnmask fn vec) s = .next t ∧ (t.fn fn).masked.testBit vec = false ∧
      (t.fn fn).pending.testBit vec = false ∧ t = { s with fns := t.fns, msgs := t.msgs } ∧
      t.msgs = (if (s.fn fn).pending.testBit vec then s.msgs ++ [(fn, vec)] else s.msgs) := by
  have hself := State.fn_setFn_self s fn
    { s.fn fn with masked := setBitNat (s.fn fn).masked vec false, pending := setBitNat (s.fn fn).pending vec false } h
  have honly := State.setFn_only s fn
    { s.fn fn with masked := setBitNat (s.fn fn).masked vec false, pending := setBitNat (s.fn fn).pending vec false }
  refine ⟨_, rfl, ?_⟩
  split
  · refine ⟨?_, ?_, ?_, ?_⟩
    · exact (congrArg (fun f : Fn => f.masked.testBit vec) hself).trans (testBit_setBitNat_false _ _)
    · exact (congrArg (fun f : Fn => f.pending.testBit vec) hself).trans (testBit_setBitNat_false _ _)
    · rw [honly]
    · rw [honly]
  · refine ⟨?_, ?_, ?_, ?_⟩
    · rw [hself]
      exact testBit_setBitNat_false _ _
    · rw [hself]
      exact testBit_setBitNat_false _ _
    · rw [honly]
    · rw [honly]

/-! ## Field books -/

theorem exec_fieldBookWrite_waiting {fn : Nat} {s : State} (h : s.err.wait.any (fun y => y.1 == fn) = true) :
    exec (.fieldBookWrite fn) s = .next (State.bookFlush fn 1 s) := if_pos h

theorem exec_fieldBookWrite_idle {fn : Nat} {s : State} (hw : s.err.wait.any (fun y => y.1 == fn) = false)
    (h : (s.fn fn).bookOn = false ∨ (s.fn fn).d3 = true ∨ s.err.q.any (fun r => r.book.receivers.contains fn) = false) :
    exec (.fieldBookWrite fn) s = .next s := by
  show execFieldBookWrite fn s = _
  unfold execFieldBookWrite
  rw [if_neg (by simp [hw])]
  split
  · rfl
  · next hoff =>
    have hnone : s.err.q.any (fun r => r.book.receivers.contains fn) = false := by
      obtain h | h | h := h
      · simp [h] at hoff
      · simp [h] at hoff
      · exact h
    have hnot : ∀ r ∈ s.err.q, r.book.receivers.contains fn = false :=
      fun r hr => Bool.eq_false_iff.mpr (List.any_eq_false.mp hnone r hr)
    have hfirst : s.err.q.findIdx? (fun r => r.fatal && r.book.receivers.contains fn) = none :=
      List.findIdx?_eq_none_iff.mpr fun r hr => by rw [hnot r hr, Bool.and_false]
    have hany : s.err.q.findIdx? (fun r => r.book.receivers.contains fn) = none :=
      List.findIdx?_eq_none_iff.mpr hnot
    dsimp only
    rw [hfirst, hany]

theorem exec_fieldBookWrite_takes {fn k : Nat} {s : State} (hw : s.err.wait.any (fun y => y.1 == fn) = false)
    (hon : (s.fn fn).bookOn = true) (hd3 : (s.fn fn).d3 = false)
    (hk : s.err.q.findIdx? (fun r => r.fatal && r.book.receivers.contains fn) = some k ∨
      s.err.q.findIdx? (fun r => r.fatal && r.book.receivers.contains fn) = none ∧
        s.err.q.findIdx? (fun r => r.book.receivers.contains fn) = some k) :
    ∃ t, exec (.fieldBookWrite fn) s = .next t ∧ t.err.q = s.err.q.eraseIdx k ∧ t.regions = s.regions ∧ t.blocks = s.blocks := by
  have hlt : k < s.err.q.length := by
    obtain h | ⟨-, h⟩ := hk <;> exact (List.findIdx?_eq_some_iff_getElem.mp h).1
  have hexec : exec (.fieldBookWrite fn) s =
      .next ((({ s with err := { s.err with q := s.err.q.eraseIdx k } } : State).showQ).bookAll s.err.q[k].book) := by
    show execFieldBookWrite fn s = _
    unfold execFieldBookWrite
    rw [if_neg (by simp [hw]), if_neg (by simp [hon, hd3])]
    dsimp only
    obtain h | ⟨h, h'⟩ := hk
    · rw [h]
      dsimp only
      rw [List.getElem?_eq_getElem hlt]
    · rw [h, h']
      dsimp only
      rw [List.getElem?_eq_getElem hlt]
  have hb := (Booked.refl ({ s with err := { s.err with q := s.err.q.eraseIdx k } } : State).showQ).bookAll (r := s.err.q[k].book)
  exact ⟨_, hexec, hb.errq, hb.regions, hb.blocks⟩

/-! ## Links -/

theorem exec_linkDown_clears {port : Nat} (s : State) (h : port < 2) : ∃ t, exec (.linkDown port) s = .next t ∧
    t.bit (if port = 0 then HIF_STAT_LINK0 else HIF_STAT_LINK1) = false ∧
    (∀ i, i < 17 → (t.fn (17 * port + i)).rings = [] ∧ ∀ y ∈ t.err.wait, y.1 ≠ 17 * port + i) ∧ t.ctxs = s.ctxs := by
  obtain ⟨hhub, hctxs⟩ := State.fnResets_frame (fun i => 17 * port + i) (List.range 17)
    (s.wr (if port = 0 then HIF_STAT_LINK0 else HIF_STAT_LINK1) 0)
  refine ⟨_, rfl, ?_, fun i hi => ?_, hctxs⟩
  · rw [State.bit_of_hub hhub]
    split <;> exact s.bit_wr_self _ _ _ _ (by decide)
  · obtain ⟨hclear, hwait⟩ := State.fnResets_clear (fun i => 17 * port + i) (List.range 17)
      (s.wr (if port = 0 then HIF_STAT_LINK0 else HIF_STAT_LINK1) 0) (i := i) (by omega) (.inl (List.mem_range.mpr hi))
    exact ⟨hclear.1, hwait⟩

theorem exec_linkUp_shows {port : Nat} (s : State) : ∃ t, exec (.linkUp port) s = .next t ∧
    t.bit (if port = 0 then HIF_STAT_LINK0 else HIF_STAT_LINK1) = true ∧ HubFrame s t := by
  refine ⟨_, rfl, ?_, rfl⟩
  split <;> exact s.bit_wr_self _ _ _ _ (by decide)

/-- Settles O48: each command by its own rule; a waiting record goes before the error queue's. -/
theorem functionsAndLinks : Obligations.FunctionsAndLinks := by
  unfold Obligations.FunctionsAndLinks
  refine ⟨fun fn s h => ⟨exec_flr_clears s h, exec_d3hot s h, exec_powerStateD0 s h, fun vec => exec_msixVectorUnmask vec s h, ?_⟩,
    fun port s h => ⟨exec_linkDown_clears s h, exec_linkUp_shows s⟩⟩
  rintro mine waits rfl rfl
  refine ⟨exec_fieldBookWrite_idle, fun k => exec_fieldBookWrite_takes, fun hw hshut => ?_,
    fun k y hw hon hroom hd3 hk hy => ⟨_, (exec_fieldBookWrite_waiting hw).trans
      (congrArg _ (State.bookFlush_one hon hroom hd3 hk hy)), ?_, ?_, State.bookPut_host _ _ _⟩⟩
  · rw [exec_fieldBookWrite_waiting hw, State.bookFlush_shut 1 hshut]
  · rw [State.bookPut_err]
  · rw [State.bookPut_err]

end Sys2Proof.Machine

/-!
PROOFS. Records on their way to the hub (18_faults_repair.md R474, R475, R478), and the regions lost with a controller (R490, R491).
-/
namespace Sys2Proof.Machine

/-! ## The record that leaves a queue next (08 R237) -/

theorem nextRecord_of_no_fatal {q : List ErrRec} (h : ∀ x ∈ q, x.fatal = false) : nextRecord q = 0 := by
  unfold nextRecord
  rw [List.findIdx?_eq_none_iff.mpr h]
  rfl

/-- The first fatal record goes ahead of all others. -/
theorem nextRecord_of_fatal {q : List ErrRec} (h : ∃ x ∈ q, x.fatal = true) :
    ∃ r, q[nextRecord q]? = some r ∧ r.fatal = true ∧ ∀ i, i < nextRecord q → ∀ x, q[i]? = some x → x.fatal = false := by
  obtain ⟨k, hk⟩ : ∃ k, q.findIdx? (fun r => r.fatal) = some k := by
    rw [← Option.isSome_iff_exists, List.findIdx?_isSome, List.any_eq_true]
    exact h
  obtain ⟨hlt, hfatal, hfirst⟩ := List.findIdx?_eq_some_iff_getElem.mp hk
  unfold nextRecord
  rw [hk]
  refine ⟨q[k], List.getElem?_eq_getElem hlt, hfatal, fun i hi x hx => ?_⟩
  obtain ⟨hlt', rfl⟩ := List.getElem?_eq_some_iff.mp hx
  exact Bool.eq_false_iff.mpr (hfirst i hi)

/-- A queue with a record has a next one, the oldest fatal one or else the oldest. -/
theorem nextRecord_of_ne_nil {q : List ErrRec} (h : q ≠ []) : ∃ r, q[nextRecord q]? = some r ∧
    ((∃ x ∈ q, x.fatal = true) → r.fatal = true ∧ ∀ i, i < nextRecord q → ∀ x, q[i]? = some x → x.fatal = false) ∧
    ((∀ x ∈ q, x.fatal = false) → nextRecord q = 0) := by
  by_cases hf : ∃ x ∈ q, x.fatal = true
  · obtain ⟨r, hr, hfatal, hfirst⟩ := nextRecord_of_fatal hf
    exact ⟨r, hr, fun _ => ⟨hfatal, hfirst⟩, nextRecord_of_no_fatal⟩
  · have hnone : ∀ x ∈ q, x.fatal = false := fun x hx => Bool.eq_false_iff.mpr fun hx' => hf ⟨x, hx, hx'⟩
    refine ⟨q[0]'(List.length_pos_iff.mpr h), ?_, fun h' => absurd h' hf, nextRecord_of_no_fatal⟩
    rw [nextRecord_of_no_fatal hnone]
    exact List.getElem?_eq_getElem _

/-! ## From a block to its region controller -/

theorem exec_regionRecordReceived_idle {blk : Nat} (tr : Trace) {s : State}
    (h : (s.block blk).recq[nextRecord (s.block blk).recq]? = none ∨ (s.region (regionOf blk)).lost = true) :
    exec (.regionRecordReceived blk tr) s = .next s := by
  show execRegionRecordReceived blk tr s = _
  unfold execRegionRecordReceived
  dsimp only
  split
  · rfl
  · next r hr =>
    rw [if_pos (h.resolve_left (by rw [hr]; exact Option.some_ne_none r))]

/-- A block whose next record has been taken; `rise` says whether its ledger level rose. -/
def Block.taken (b : Block) (rise : Bool) : Block :=
  if rise then ({ b with recq := b.recq.eraseIdx (nextRecord b.recq) } : Block).set1 BLK_MX_STAT_SUSPECT
  else { b with recq := b.recq.eraseIdx (nextRecord b.recq) }

theorem Block.taken_recq (b : Block) (rise : Bool) : (b.taken rise).recq = b.recq.eraseIdx (nextRecord b.recq) := by
  cases rise <;> rfl

theorem Block.taken_suspect (b : Block) : (b.taken true).bit BLK_MX_STAT_SUSPECT = true :=
  Block.bit_wr_self _ _ _ _ _ (by decide) (by decide)

theorem exec_regionRecordReceived {blk : Nat} {tr : Trace} {s : State} {r : ErrRec}
    (hr : (s.block blk).recq[nextRecord (s.block blk).recq]? = some r) (hlost : (s.region (regionOf blk)).lost = false)
    {x : Region × ErrRec × Bool} (hx : x = (s.region (regionOf blk)).act (s.renv (regionOf blk) 0) r tr (s.block blk).failPlace) :
    exec (.regionRecordReceived blk tr) s =
      .next ((s.setBlock blk ((s.block blk).taken x.2.2)).putRegion (regionOf blk) (x.1.queue x.2.1)) := by
  subst hx
  show execRegionRecordReceived blk tr s = _
  unfold execRegionRecordReceived
  dsimp only
  rw [hr]
  dsimp only
  rw [if_neg (by rw [hlost]; decide)]
  rfl

theorem exec_regionRecordReceived_takes {blk : Nat} {tr : Trace} {s : State} {r : ErrRec} (hblk : blk < 4608)
    (hr : (s.block blk).recq[nextRecord (s.block blk).recq]? = some r) (hlost : (s.region (regionOf blk)).lost = false)
    {x : Region × ErrRec × Bool} (hx : x = (s.region (regionOf blk)).act (s.renv (regionOf blk) 0) r tr (s.block blk).failPlace) :
    ∃ t, exec (.regionRecordReceived blk tr) s = .next t ∧
      (t.block blk).recq = (s.block blk).recq.eraseIdx (nextRecord (s.block blk).recq) ∧
      t.region (regionOf blk) = (x.1.queue x.2.1).atRest ∧ (x.2.2 = true → (t.block blk).bit BLK_MX_STAT_SUSPECT = true) ∧
      (x.2.2 = false → t.block blk = { s.block blk with recq := (s.block blk).recq.eraseIdx (nextRecord (s.block blk).recq) }) ∧
      ∀ j, j ≠ blk → t.block j = s.block j := by
  have hregion : regionOf blk < 24 := by
    unfold regionOf
    omega
  have hblock : ∀ j, ((s.setBlock blk ((s.block blk).taken x.2.2)).putRegion (regionOf blk) (x.1.queue x.2.1)).block j =
      (s.setBlock blk ((s.block blk).taken x.2.2)).block j := fun j =>
    ((State.putRegion_aside _ _ _).block j).trans (congrArg (SMap.get blockZero · j) (State.setRegion_blocks _ _ _))
  have hself := (hblock blk).trans (State.block_setBlock_self _ _ _ hblk)
  refine ⟨_, exec_regionRecordReceived hr hlost hx, ?_, State.region_putRegion_self _ _ _ hregion, fun hrise => ?_, fun hrise => ?_,
    fun j hj => (hblock j).trans (State.block_setBlock_ne _ _ _ _ hj)⟩
  · rw [hself, Block.taken_recq]
  · rw [hself, hrise, Block.taken_suspect]
  · rw [hself, hrise]
    rfl

/-! ## From a region controller to the hub -/

/-- A field's write leaves the other units of the hub. -/
theorem State.hubOf_wr {s : State} {f : Field} {v i j : Nat} {u : RegUnit} (hu : u ≠ f.unit) :
    (s.wr f v i j).hub.of u = s.hub.of u := HubRegs.of_set_ne _ _ _ _ hu

theorem State.hubOf_inc {s : State} {c f : Field} {i n : Nat} {u : RegUnit} (hu : u ≠ c.unit) :
    (s.inc c f i n).hub.of u = s.hub.of u := HubRegs.of_set_ne _ _ _ _ hu

/-- A record is shown in the registers of the error queue alone. -/
theorem State.hubOf_hubQueue {u : RegUnit} (hu : u ≠ .err) (s : State) (r : ErrRec) : (s.hubQueue r).hub.of u = s.hub.of u := by
  unfold State.hubQueue
  extract_lets s1 s2 e s3 r3
  have h3 : s3.hub.of u = s.hub.of u := by
    dsimp only [s3, e, State.hubAnnounce]
    rw [State.errVectors_hub, State.count_hub, State.hubOf_inc hu]
  clear_value s3 r3
  split
  · split
    · exact (State.hubOf_wr hu).trans ((State.hubOf_wr hu).trans h3)
    · rw [State.errVectors_hub]
      exact (State.hubOf_wr hu).trans ((State.hubOf_inc hu).trans h3)
  · split
    · exact (State.hubOf_wr hu).trans ((State.hubOf_wr hu).trans h3)
    · rw [State.errVectors_hub]
      exact (State.hubOf_inc hu).trans h3

theorem State.rd_of_hubOf {s t : State} {f : Field} (h : t.hub.of f.unit = s.hub.of f.unit) (i j : Nat := 0) :
    t.rd f i j = s.rd f i j := by
  rw [State.rd, h, State.rd]

/-- A teardown of an active context that none has been asked for. -/
theorem State.teardown_active {s : State} {p c : Nat} (hp : s.pstate p = 2) (hreq : (s.ctx p).req = none) :
    s.teardown p c = (s.wr CTX_STAT_CAUSE c p).setCtx p { s.ctx p with req := some (c, s.inTime), counted := countsCause c } := by
  unfold State.teardown
  dsimp only
  rw [if_neg (by rw [hp]; decide), if_pos hp, hreq]

theorem State.ctxs_hubQueue (s : State) (r : ErrRec) : (s.hubQueue r).ctxs = s.ctxs := by
  rw [(Noted.refl s).hubQueue (r := r)]

theorem exec_hubRecordReceived_takes {n : Nat} {s : State} {r : ErrRec} (hn : n < 24)
    (hr : (s.region n).recq[nextRecord (s.region n).recq]? = some r) : ∃ t, exec (.hubRecordReceived n) s = .next t ∧
      (t.region n).recq = (s.region n).recq.eraseIdx (nextRecord (s.region n).recq) ∧ t.blocks = s.blocks ∧
      (s.err.q.length < 448 → ∃ a, t.err.q = s.err.q ++ [{ r with ann := a }] ∧ (r.fatal = false → r.tell = false → a = [])) ∧
      (r.teardown = true → s.pstate r.parcel = 2 → (s.ctx r.parcel).req = none →
        (t.ctx r.parcel).req = some (4, s.inTime) ∧ t.rd CTX_STAT_CAUSE r.parcel = 4) ∧
      (r.teardown = false → t.ctxs = s.ctxs) := by
  generalize hg : ({ s.region n with recq := (s.region n).recq.eraseIdx (nextRecord (s.region n).recq) } : Region) = g
  have hexec : exec (.hubRecordReceived n) s = .next (((s.setRegion n g).tearFor r).hubQueue r) := by
    show execHubRecordReceived n s = _
    unfold execHubRecordReceived
    dsimp only
    rw [hr, ← hg]
  have haside : Aside (s.setRegion n g) (((s.setRegion n g).tearFor r).hubQueue r) :=
    Aside.noted (s := (s.setRegion n g).tearFor r) (by
      unfold State.tearFor
      split
      · exact (Aside.refl _).teardown
      · exact Aside.refl _) (Noted.hubQueue (Noted.refl _))
  have herr : ((s.setRegion n g).tearFor r).err = s.err := by
    unfold State.tearFor
    split
    · rw [State.teardown_err, State.setRegion_err]
    · rw [State.setRegion_err]
  refine ⟨_, hexec, ?_, ?_, fun hroom => ?_, fun htear hstate hreq => ?_, fun hkeep => ?_⟩
  · rw [haside.region, State.region_setRegion_self _ _ _ hn, ← hg]
  · rw [haside]
    exact State.setRegion_blocks _ _ _
  · obtain ⟨a, ha, hann⟩ := State.err_hubQueue (s := (s.setRegion n g).tearFor r) (r := r) (by rw [herr]; split <;> omega)
    exact ⟨a, by rw [ha, herr], hann⟩
  · have htorn := State.teardown_active (s := s.setRegion n g) (p := r.parcel) (c := 4)
      ((State.rd_of_hub (State.setRegion_hub _ _ _) _ _).trans hstate) (by rw [State.ctx, State.setRegion_ctxs]; exact hreq)
    have htime : (s.setRegion n g).inTime = s.inTime := by rw [State.inTime, State.setRegion_frame, State.inTime]
    rw [State.tearFor, if_pos htear, htorn]
    refine ⟨?_, ?_⟩
    · rw [State.ctx, State.ctxs_hubQueue, ← State.ctx, State.ctx_setCtx_self, htime]
    · rw [State.rd_of_hubOf (f := CTX_STAT_CAUSE) (State.hubOf_hubQueue (by decide) _ _) _ _, State.rd_of_hub (State.setCtx_hub _ _ _) _ _ _,
        State.rd_wr_self _ _ _ _ _ (by decide)]
      rfl
  · rw [State.ctxs_hubQueue, State.tearFor, if_neg (by simp [hkeep]), State.setRegion_ctxs]

/-! ## Regions lost with their controller -/

theorem State.blocks_loseRegions (s : State) (cause : Nat) (roots : List Nat) : (s.loseRegions cause roots).blocks = s.blocks := by
  unfold State.loseRegions
  extract_lets new s1 r s2 k e3 s3
  have h1 : s1.blocks = s.blocks :=
    List.foldlRecOn (motive := fun t : State => t.blocks = s.blocks) _ _ rfl fun t ht _ _ => (State.setRegion_blocks _ _ _).trans ht
  have h2 : Aside s1 s3 := ((Aside.refl s1).noted (Noted.raise (Noted.refl s1))).noted (Noted.mk_ (Noted.refl _))
  split
  · rfl
  · rw [Aside.foldl (fun _ _ h => Aside.tearLoss h) h2]
    exact h1

/-- Settles O51: each command is its record's one step, and a lost controller or path is `State.loseRegions`. -/
theorem faultRecordsTravel : Obligations.FaultRecordsTravel := by
  unfold Obligations.FaultRecordsTravel
  refine ⟨?_, ?_, fun q => nextRecord_of_ne_nil, fun n s => ⟨fun hn => ⟨if_neg (by omega), if_neg (by omega)⟩, fun hn => ?_⟩⟩
  · rintro blk n k tr s hblk rfl rfl
    exact ⟨exec_regionRecordReceived_idle tr, fun r x hr hlost hx => exec_regionRecordReceived_takes hblk hr hlost hx⟩
  · rintro n k s hn rfl
    refine ⟨fun hnone => ?_, fun r hr => exec_hubRecordReceived_takes hn hr⟩
    show execHubRecordReceived n s = _
    unfold execHubRecordReceived
    dsimp only
    rw [hnone]
  · refine ⟨_, _, if_pos hn, if_pos hn, s.blocks_loseRegions _ _, s.blocks_loseRegions _ _, fun m hm => ?_⟩
    rw [s.lost_loseRegions _ _ hm, s.lost_loseRegions _ _ hm, List.flatMap_singleton]
    exact ⟨rfl, rfl⟩

end Sys2Proof.Machine

/-!
PROOFS. Contexts (19_contexts_recovery.md R502 to R512): admissions and teardowns by the parcel's state, the end of loading and of clearing.
-/
namespace Sys2Proof.Machine

/-! ## Teardown requests by the parcel's state (R505 to R508) -/

/-- Fields of one unit whose bits do not overlap are apart at every index. -/
theorem Field.hubApart_of_bits {f g : Field} (h : (f.unit.hubGroup && decide (g.unit = f.unit ∧ f.hi < 32 ∧ f.lo ≤ f.hi ∧ g.lo ≤ g.hi ∧
    (g.hi < f.lo ∨ f.hi < g.lo))) = true) (i j k l : Nat) : f.hubApart g i j k l = true := by
  simp only [Bool.and_eq_true, decide_eq_true_eq] at h
  obtain ⟨hgroup, hunit, hhi, hf, hg, hbits⟩ := h
  simp [Field.hubApart, Field.apart, *]

/-- A later request than the first is counted when either counts. -/
theorem State.teardown_again {s : State} {p : Nat} (c : Nat) {r : Nat × Bool} (hp : s.pstate p = 2) (hreq : (s.ctx p).req = some r) :
    s.teardown p c = s.setCtx p { s.ctx p with counted := (s.ctx p).counted || countsCause c } := by
  obtain ⟨first, early⟩ := r
  unfold State.teardown
  dsimp only
  rw [if_neg (by rw [hp]; decide), if_pos hp, hreq]

/-- The waiting admission of a parcel completes with an abort. -/
def State.abortAdmission (s : State) (p : Nat) : State :=
  match (s.ctx p).admitItem with
  | some i => s.finish i 0x0B 0
  | none => s

/-- A loading context ends at once. -/
theorem State.teardown_loading {s : State} {p : Nat} (c : Nat) (hp : s.pstate p = 1) :
    s.teardown p c = (s.abortAdmission p).startClearing p false := if_pos hp

theorem State.teardown_none {s : State} {p : Nat} (c : Nat) (h1 : s.pstate p ≠ 1) (h2 : s.pstate p ≠ 2) : s.teardown p c = s := by
  unfold State.teardown
  dsimp only
  rw [if_neg h1, if_neg h2]

/-- A parcel that has entered clearing shows state 4. -/
theorem State.pstate_startClearing (s : State) (p : Nat) (ranges : Bool) : (s.startClearing p ranges).pstate p = 4 := by
  unfold State.startClearing State.pstate
  rw [State.rd_of_hub (State.setCtx_hub _ _ _) _ _ _, State.rd_wr_apart _ _ _ _ _ _ _ _ (Field.hubApart_of_bits (by decide) _ _ _ _),
    State.rd_wr_self _ _ _ _ _ (by decide)]
  rfl

theorem State.clearing_startClearing (s : State) (p : Nat) : ((s.startClearing p false).ctx p).clearing = [] := by
  unfold State.startClearing
  rw [State.ctx_setCtx_self]
  rfl

theorem State.doneWith_abortAdmission {s : State} {p : Nat} {j : ItemRef} (hj : (s.ctx p).admitItem = some j) (hw : s.waits j) :
    (s.abortAdmission p).doneWith j 0x0B 0 := by
  rw [State.abortAdmission, hj]
  exact State.doneWith_finish hw

theorem State.waits_abortAdmission {s : State} {p : Nat} {i : ItemRef} (hne : (s.ctx p).admitItem ≠ some i) (hw : s.waits i) :
    (s.abortAdmission p).waits i := by
  unfold State.abortAdmission
  split
  · next j hj => exact State.waits_finish (fun h => hne (by rw [hj, h])) hw
  · exact hw

/-- CAUSE shown and the parcel still active. -/
theorem State.cause_shown (s : State) (p : Nat) {c : Nat} (hc : c ≤ 9) (k : Ctx) :
    ((s.wr CTX_STAT_CAUSE c p).setCtx p k).rd CTX_STAT_CAUSE p = c ∧ ((s.wr CTX_STAT_CAUSE c p).setCtx p k).pstate p = s.pstate p := by
  refine ⟨?_, ?_⟩
  · rw [State.rd_of_hub (State.setCtx_hub _ _ _) _ _ _, State.rd_wr_self _ _ _ _ _ (by decide)]
    exact Nat.mod_eq_of_lt (by show c < 16; omega)
  · exact (State.rd_of_hub (State.setCtx_hub _ _ _) _ _ _).trans
      (State.rd_wr_apart _ _ _ _ _ _ _ _ (Field.hubApart_of_bits (by decide) _ _ _ _))

/-! ## CTX_ADMIT and CTX_TEARDOWN -/

section Items
variable {fn ring slot : Nat} {s : State} {x : Item}

theorem exec_ctxAdmit_refused {code : Nat} (hrun : s.running fn ring slot 8 = some x)
    (hcode : s.admitCode (x.num 16 1 % 16) (x.num 24 6) = some code) :
    exec (.ctxAdmit fn ring slot) s = .next (s.finish ⟨fn, ring, slot⟩ 7 code) := by
  show execCtxAdmit fn ring slot s = _
  unfold execCtxAdmit
  rw [hrun]
  dsimp only
  rw [hcode]

theorem exec_ctxAdmit_loads (hrun : s.running fn ring slot 8 = some x)
    (hcode : s.admitCode (x.num 16 1 % 16) (x.num 24 6) = none) :
    exec (.ctxAdmit fn ring slot) s = .next ((s.wr CTX_STAT_STATE 1 (x.num 16 1 % 16)).setCtx (x.num 16 1 % 16)
      { firstWant := x.num 24 6, admitItem := some ⟨fn, ring, slot⟩ }) := by
  show execCtxAdmit fn ring slot s = _
  unfold execCtxAdmit
  rw [hrun]
  dsimp only
  rw [hcode]

/-- An item waits for the end of its parcel's teardown (R508). -/
def State.joinTeardown (s : State) (p : Nat) (i : ItemRef) : State :=
  s.setCtx p { s.ctx p with tearItems := (s.ctx p).tearItems ++ [i] }

/-- CTX_TEARDOWN by the parcel's state. -/
theorem exec_ctxTeardown (hrun : s.running fn ring slot 9 = some x) : exec (.ctxTeardown fn ring slot) s =
    match s.pstate (x.num 16 1 % 16) with
    | 1 => .next ((s.teardown (x.num 16 1 % 16) (if isPf fn then 1 else 2)).finish ⟨fn, ring, slot⟩ 0 0)
    | 2 => .next ((s.teardown (x.num 16 1 % 16) (if isPf fn then 1 else 2)).joinTeardown (x.num 16 1 % 16) ⟨fn, ring, slot⟩)
    | 3 => .next (s.joinTeardown (x.num 16 1 % 16) ⟨fn, ring, slot⟩)
    | _ => .next (s.finish ⟨fn, ring, slot⟩ 7 0x10) := by
  show execCtxTeardown fn ring slot s = _
  unfold execCtxTeardown
  rw [hrun]
  rfl

theorem exec_ctxTeardown_refused (hrun : s.running fn ring slot 9 = some x) (hstate : s.pstate (x.num 16 1 % 16) ∉ [1, 2, 3]) :
    exec (.ctxTeardown fn ring slot) s = .next (s.finish ⟨fn, ring, slot⟩ 7 0x10) := by
  rw [exec_ctxTeardown hrun]
  split
  · next h => simp [h] at hstate
  · next h => simp [h] at hstate
  · next h => simp [h] at hstate
  · rfl

end Items

/-! ## The end of loading (R503) -/

/-- From `s` to `t` only blocks of `l` change; those of `m` are loaded. -/
structure Loaded (s : State) (l m : List Nat) (t : State) : Prop where
  only : t = { s with blocks := t.blocks }
  apart : ∀ k, k ∉ l → t.block k = s.block k
  legs : ∀ k ∈ m, k < 4608 → (t.block k).legs = []
  fresh : ∀ k ∈ m, k < 4608 → s.absent k = false → (t.block k).held = [] ∧ (t.block k).core.mode = .halted

theorem Loaded.refl (s : State) (l : List Nat) : Loaded s l [] s :=
  ⟨rfl, fun _ _ => rfl, fun _ hk => absurd hk (List.not_mem_nil), fun _ hk => absurd hk (List.not_mem_nil)⟩

theorem Loaded.ctx {s t : State} {l m : List Nat} (h : Loaded s l m t) (p : Nat) : t.ctx p = s.ctx p := by
  rw [h.only]
  rfl

/-- The MC's writes to one block of a loading parcel. -/
def State.loadBlock (pr : Option ProgSec) (entry : Word) (s : State) (k : Nat) : State :=
  if s.absent k then s.setBlock k { s.block k with legs := [] } else s.setBlock k ((s.block k).loadFor pr entry)

/-- One block more. -/
theorem Loaded.block {s t : State} {l m : List Nat} {k : Nat} (pr : Option ProgSec) (entry : Word) (h : Loaded s l m t) (hk : k ∈ l) :
    Loaded s l (m ++ [k]) (t.loadBlock pr entry k) := by
  have habsent : t.absent k = s.absent k := by rw [h.only]; rfl
  generalize hb : (if s.absent k then { t.block k with legs := [] } else (t.block k).loadFor pr entry : Block) = b
  have hset : t.loadBlock pr entry k = t.setBlock k b := by
    rw [State.loadBlock, habsent, ← hb]
    split <;> rfl
  have hlegs : b.legs = [] := by rw [← hb]; split <;> rfl
  have hfresh : s.absent k = false → b.held = [] ∧ b.core.mode = .halted := fun hp => by
    rw [← hb, if_neg (by simp [hp])]
    exact ⟨rfl, rfl⟩
  rw [hset]
  refine ⟨?_, fun j hj => ?_, fun j hj hlt => ?_, fun j hj hlt hp => ?_⟩
  · rw [h.only]
    unfold State.setBlock
    split <;> rfl
  · rw [State.block_setBlock_ne _ _ _ _ (fun e : j = k => hj (e.symm ▸ hk)), h.apart j hj]
  · by_cases e : j = k
    · subst e
      rw [State.block_setBlock_self _ _ _ hlt, hlegs]
    · rw [State.block_setBlock_ne _ _ _ _ e]
      exact h.legs j (by simpa [e] using hj) hlt
  · by_cases e : j = k
    · subst e
      rw [State.block_setBlock_self _ _ _ hlt]
      exact hfresh hp
    · rw [State.block_setBlock_ne _ _ _ _ e]
      exact h.fresh j (by simpa [e] using hj) hlt hp

/-- The blocks of one station. -/
theorem Loaded.station {s : State} {l : List Nat} (pr : Option ProgSec) (entry : Word) (bs : List Nat) {t : State} {m : List Nat}
    (h : Loaded s l m t) (hbs : bs ⊆ l) : Loaded s l (m ++ bs) (bs.foldl (State.loadBlock pr entry) t) := by
  induction bs generalizing t m with
  | nil => rwa [List.append_nil]
  | cons k bs ih =>
    obtain ⟨hk, hbs⟩ := List.cons_subset.mp hbs
    rw [List.append_cons]
    exact ih (h.block pr entry hk) hbs

/-- The stations of a parcel. -/
theorem Loaded.stations {s : State} {l : List Nat} (pr : StationRec → Option ProgSec) (sts : List StationRec) {t : State} {m : List Nat}
    (h : Loaded s l m t) (hsts : sts.flatMap (fun st => st.blocks) ⊆ l) :
    Loaded s l (m ++ sts.flatMap (fun st => st.blocks))
      (sts.foldl (fun t st => st.blocks.foldl (State.loadBlock (pr st) st.entry) t) t) := by
  induction sts generalizing t m with
  | nil => rwa [List.flatMap_nil, List.append_nil]
  | cons st sts ih =>
    rw [List.flatMap_cons] at hsts
    obtain ⟨hst, hsts⟩ := List.append_subset.mp hsts
    rw [List.flatMap_cons, ← List.append_assoc, List.foldl_cons]
    exact ih (h.station (pr st) st.entry st.blocks hst) hsts

/-- Loading writes the blocks of the parcel's stations and marks the parcel loaded. -/
theorem State.finishLoading_loads (s : State) (p : Nat) : ∃ t, Loaded s (s.stationBlocks p) (s.stationBlocks p) t ∧
    s.finishLoading p = t.setCtx p { t.ctx p with loaded := true } := by
  unfold State.finishLoading
  cases hpl : s.plat.active with
  | none =>
    have hnone : s.stationBlocks p = [] := by rw [State.stationBlocks, hpl]
    rw [hnone]
    exact ⟨s, .refl s [], rfl⟩
  | some pl =>
    have hsome : s.stationBlocks p = (pl.stations.filter (fun st => st.parcel == p)).flatMap (fun st => st.blocks) := by
      rw [State.stationBlocks, hpl]
    rw [hsome]
    have h := (Loaded.refl s ((pl.stations.filter (fun st => st.parcel == p)).flatMap (fun st => st.blocks))).stations
      (fun st => pl.programs.find? (fun x => x.idx == st.prog)) (pl.stations.filter (fun st => st.parcel == p)) (List.Subset.refl _)
    rw [List.nil_append] at h
    exact ⟨_, h, rfl⟩

/-! ## The end of clearing (R512) -/

/-- The store byte of a region that is not lost is zero, or lies in a range still to be zeroed. -/
theorem Region.rd_zeroLines (g : Region) (tgt base len a : Nat) :
    (g.zeroLines tgt base len).store.rd a = if tgt = 1 ∧ 256 * base ≤ a ∧ a < 256 * (base + len) then 0 else g.store.rd a := by
  unfold Region.zeroLines
  dsimp only
  split
  · next h => simp only [h, Mem.rd_zeroRange, true_and]
  · next h => rw [if_neg fun h' => h h'.1]

/-- One range of a clearing parcel. -/
def State.clearRange (s : State) (r : ClearRange) : State :=
  if (s.region r.region).lost then s
  else s.setRegion r.region ((s.region r.region).zeroLines r.tgt r.base r.len)

theorem Region.lost_zeroLines (g : Region) (tgt base len : Nat) : (g.zeroLines tgt base len).lost = g.lost := by
  unfold Region.zeroLines
  split <;> rfl

theorem State.lost_clearRange (s : State) (r : ClearRange) (n : Nat) : ((s.clearRange r).region n).lost = (s.region n).lost := by
  unfold State.clearRange
  split
  · rfl
  · by_cases hn : n = r.region
    · subst hn
      by_cases hlt : r.region < 24
      · rw [State.region_setRegion_self _ _ _ hlt, Region.lost_zeroLines]
      · rw [State.setRegion, if_neg hlt]
    · rw [State.region_setRegion_ne _ _ _ _ hn]

/-- A byte that a range covers, or that was zero before, is zero after. -/
theorem State.clearRange_zero {s : State} {r : ClearRange} {n a : Nat} (hn : n < 24) (hlost : (s.region n).lost = false)
    (h : (s.region n).store.rd a = 0 ∨ r.region = n ∧ r.tgt = 1 ∧ 256 * r.base ≤ a ∧ a < 256 * (r.base + r.len)) :
    ((s.clearRange r).region n).store.rd a = 0 := by
  unfold State.clearRange
  by_cases hr : n = r.region
  · subst hr
    rw [if_neg (by simp [hlost]), State.region_setRegion_self _ _ _ hn, Region.rd_zeroLines]
    split
    · rfl
    · next hout => exact h.resolve_right fun h' => hout h'.2
  · have hzero := h.resolve_right fun h' => hr h'.1.symm
    split
    · exact hzero
    · rw [State.region_setRegion_ne _ _ _ _ hr]
      exact hzero

theorem State.clearRanges_zero (l : List ClearRange) {s : State} {n a : Nat} (hn : n < 24) (hlost : (s.region n).lost = false)
    (h : (s.region n).store.rd a = 0 ∨ ∃ r ∈ l, r.region = n ∧ r.tgt = 1 ∧ 256 * r.base ≤ a ∧ a < 256 * (r.base + r.len)) :
    ((l.foldl State.clearRange s).region n).store.rd a = 0 := by
  induction l generalizing s with
  | nil => simpa using h
  | cons r l ih =>
    refine ih ((s.lost_clearRange r n).trans hlost) ?_
    obtain h | ⟨q, hq, hrange⟩ := h
    · exact .inl (State.clearRange_zero hn hlost (.inl h))
    · obtain rfl | hq := List.mem_cons.mp hq
      · exact .inl (State.clearRange_zero hn hlost (.inr hrange))
      · exact .inr ⟨q, hq, hrange⟩

/-- A block that the MC can reach is cleared of the parcel. -/
def State.clearBlock (p : Nat) (s : State) (k : Nat) : State :=
  if (s.block k).rd RT_CTL_PARCEL = p ∧ s.absent k = false then s.setBlock k (s.block k).clearMem else s

theorem Block.clearMem_ldata (b : Block) : b.clearMem.ldata = [] := rfl

theorem Block.clearMem_regs (b : Block) : b.clearMem.regs = b.regs := by
  refine List.foldlRecOn (motive := fun c : Block => c.regs = b.regs) _ _ rfl fun c hc g _ => ?_
  split
  · exact hc
  · exact hc

theorem State.clearBlock_only (p : Nat) (s : State) (k : Nat) : s.clearBlock p k = { s with blocks := (s.clearBlock p k).blocks } := by
  unfold State.clearBlock State.setBlock
  split
  · split <;> rfl
  · rfl

/-- The clearing of a block leaves every block's registers, and cleared local data stays cleared. -/
theorem State.clearBlock_keeps (p : Nat) (s : State) (k j : Nat) : ((s.clearBlock p k).block j).regs = (s.block j).regs ∧
    ((s.block j).ldata = [] → ((s.clearBlock p k).block j).ldata = []) := by
  unfold State.clearBlock
  split
  · by_cases hj : j = k
    · subst hj
      by_cases hlt : j < 4608
      · rw [State.block_setBlock_self _ _ _ hlt]
        exact ⟨Block.clearMem_regs _, fun _ => Block.clearMem_ldata _⟩
      · rw [State.setBlock, if_neg hlt]
        exact ⟨rfl, id⟩
    · rw [State.block_setBlock_ne _ _ _ _ hj]
      exact ⟨rfl, id⟩
  · exact ⟨rfl, id⟩

theorem State.clearBlocks_ldata {p k : Nat} (l : List Nat) {s : State} (hlt : k < 4608) (hp : (s.block k).rd RT_CTL_PARCEL = p)
    (hpresent : s.absent k = false) (h : k ∈ l ∨ (s.block k).ldata = []) : ((l.foldl (State.clearBlock p) s).block k).ldata = [] := by
  induction l generalizing s with
  | nil => simpa using h
  | cons j l ih =>
    obtain ⟨hregs, hldata⟩ := s.clearBlock_keeps p j k
    refine ih ?_ ?_ ?_
    · rw [Block.rd, hregs]
      exact hp
    · rw [s.clearBlock_only p j]
      exact hpresent
    · obtain h | h := h
      · obtain rfl | h := List.mem_cons.mp h
        · refine .inr ?_
          rw [State.clearBlock, if_pos ⟨hp, hpresent⟩, State.block_setBlock_self _ _ _ hlt]
          exact Block.clearMem_ldata _
        · exact .inl h
      · exact .inr (hldata h)

/-- A region forgets that it drains a parcel. -/
def State.undrain (p : Nat) (s : State) (n : Nat) : State :=
  s.setRegion n { s.region n with drain := (s.region n).drain.filter (fun q => q != p) }

theorem State.undrain_store (p : Nat) (s : State) (n m : Nat) : ((s.undrain p n).region m).store = (s.region m).store := by
  unfold State.undrain
  by_cases hm : m = n
  · subst hm
    by_cases hlt : m < 24
    · rw [State.region_setRegion_self _ _ _ hlt]
    · rw [State.setRegion, if_neg hlt]
  · rw [State.region_setRegion_ne _ _ _ _ hm]

/-- What CLEARING_DONE leaves of the store and of local data (R512). -/
theorem State.finishClearing_eq (s : State) (p : Nat) : ∃ c : Ctx, s.finishClearing p =
    ((((List.range 24).foldl (State.undrain p) (((s.ctx p).clearing.foldl State.clearRange s).listedBlocks.foldl (State.clearBlock p)
      ((s.ctx p).clearing.foldl State.clearRange s))).wr CTX_STAT_STATE 0 p).wr CTX_STAT_CLEARPEND 0 p).setCtx p
      { c with clearing := [], clearBlocks := false } := ⟨_, rfl⟩

theorem State.clearRanges_blocks (l : List ClearRange) (s : State) : (l.foldl State.clearRange s).blocks = s.blocks := by
  refine List.foldlRecOn (motive := fun t : State => t.blocks = s.blocks) _ _ rfl fun t ht r _ => ?_
  unfold State.clearRange
  split
  · exact ht
  · exact (State.setRegion_blocks _ _ _).trans ht

/-- Zeroed lines leave what says whether a block is absent. -/
theorem State.absent_clearRange (s : State) (r : ClearRange) (k : Nat) : (s.clearRange r).absent k = s.absent k := by
  have hzero : ∀ g : Region, (g.zeroLines r.tgt r.base r.len).hidden (indexOf k) = g.hidden (indexOf k) ∧
      (g.zeroLines r.tgt r.base r.len).isFenced (indexOf k) = g.isFenced (indexOf k) := fun g => by
    unfold Region.zeroLines
    split <;> exact ⟨rfl, rfl⟩
  unfold State.clearRange
  split
  · rfl
  · unfold State.absent
    rw [State.rd_of_hub (State.setRegion_hub _ _ _) _ _ _]
    by_cases hr : regionOf k = r.region
    · rw [hr]
      by_cases hlt : r.region < 24
      · rw [State.region_setRegion_self _ _ _ hlt]
        dsimp only
        rw [(hzero _).1, (hzero _).2]
      · rw [State.setRegion, if_neg hlt]
    · rw [State.region_setRegion_ne _ _ _ _ hr]

theorem State.clearRanges_absent (l : List ClearRange) (s : State) (k : Nat) : (l.foldl State.clearRange s).absent k = s.absent k :=
  List.foldlRecOn (motive := fun t : State => t.absent k = s.absent k) _ _ rfl fun t ht r _ => (t.absent_clearRange r k).trans ht

theorem State.undrains_blocks (p : Nat) (l : List Nat) (s : State) : (l.foldl (State.undrain p) s).blocks = s.blocks :=
  List.foldlRecOn (motive := fun t : State => t.blocks = s.blocks) _ _ rfl fun _ ht _ _ => (State.setRegion_blocks _ _ _).trans ht

theorem State.undrains_store (p : Nat) (l : List Nat) (s : State) (m : Nat) :
    ((l.foldl (State.undrain p) s).region m).store = (s.region m).store :=
  List.foldlRecOn (motive := fun t : State => (t.region m).store = (s.region m).store) _ _ rfl
    fun t ht n _ => (t.undrain_store p n m).trans ht

theorem State.clearBlocks_regions (p : Nat) (l : List Nat) (s : State) : (l.foldl (State.clearBlock p) s).regions = s.regions :=
  List.foldlRecOn (motive := fun t : State => t.regions = s.regions) _ _ rfl fun t ht k _ => by
    rw [t.clearBlock_only p k]
    exact ht

theorem State.block_of_blocks {s t : State} (h : t.blocks = s.blocks) (k : Nat) : t.block k = s.block k := by
  unfold State.block
  rw [h]

/-! ## The commands -/

theorem exec_loadingDone_loads {p : Nat} {s : State} (hstate : s.pstate p = 1) (hloaded : (s.ctx p).loaded = false) :
    ∃ t, exec (.loadingDone p) s = .next t ∧ (t.ctx p).loaded = true ∧ t.pstate p = 1 ∧ t.regions = s.regions ∧
      (∀ k ∈ s.stationBlocks p, k < 4608 → (t.block k).legs = [] ∧
        (s.absent k = false → (t.block k).held = [] ∧ (t.block k).core.mode = .halted)) ∧
      ∀ k, k ∉ s.stationBlocks p → t.block k = s.block k := by
  obtain ⟨t, ht, hexec⟩ := s.finishLoading_loads p
  refine ⟨_, (if_pos ⟨hstate, hloaded⟩ : exec (.loadingDone p) s = .next (s.finishLoading p)), ?_⟩
  rw [hexec]
  refine ⟨?_, ?_, ?_, fun k hk hlt => ⟨ht.legs k hk hlt, ht.fresh k hk hlt⟩, ht.apart⟩
  · rw [State.ctx_setCtx_self]
  · rw [State.pstate, State.rd_of_hub (State.setCtx_hub _ _ _) _ _ _, State.rd_of_hub (s := s) (by rw [ht.only]) _ _ _]
    exact hstate
  · rw [State.setCtx_regions, ht.only]

theorem exec_clearingDone_clears {p : Nat} {s : State} (hstate : s.pstate p = 4) :
    ∃ t, exec (.clearingDone p) s = .next t ∧ t.pstate p = 0 ∧ t.rd CTX_STAT_CLEARPEND p = 0 ∧
      (t.ctx p).clearing = [] ∧ (∀ c ∈ (s.ctx p).clearing, c.tgt = 1 → c.region < 24 → (s.region c.region).lost = false →
        ∀ a, 256 * c.base ≤ a → a < 256 * (c.base + c.len) → (t.region c.region).store.rd a = 0) ∧
      ∀ k ∈ s.listedBlocks, k < 4608 → (s.block k).rd RT_CTL_PARCEL = p → s.absent k = false → (t.block k).ldata = [] := by
  obtain ⟨c, hexec⟩ := s.finishClearing_eq p
  have hblocks := State.clearRanges_blocks (s.ctx p).clearing s
  refine ⟨_, (if_pos hstate : exec (.clearingDone p) s = .next (s.finishClearing p)), ?_⟩
  rw [hexec]
  generalize hu : (s.ctx p).clearing.foldl State.clearRange s = u at hblocks
  refine ⟨?_, ?_, ?_, fun r hr htgt hn hlost a hlo hhi => ?_, fun k hk hlt hparcel hpresent => ?_⟩
  · rw [State.pstate, State.rd_of_hub (State.setCtx_hub _ _ _) _ _ _,
      State.rd_wr_apart _ _ _ _ _ _ _ _ (Field.hubApart_of_bits (by decide) _ _ _ _), State.rd_wr_self _ _ _ _ _ (by decide)]
    rfl
  · rw [State.rd_of_hub (State.setCtx_hub _ _ _) _ _ _, State.rd_wr_self _ _ _ _ _ (by decide)]
    rfl
  · rw [State.ctx_setCtx_self]
  · have hzero := State.clearRanges_zero (s.ctx p).clearing hn hlost (.inr ⟨r, hr, rfl, htgt, hlo, hhi⟩)
    rw [hu] at hzero
    rw [State.region_of_regions (State.setCtx_regions _ _ _), State.region_of_regions (State.wr_regions _ _ _ _ _),
      State.region_of_regions (State.wr_regions _ _ _ _ _), State.undrains_store,
      State.region_of_regions (State.clearBlocks_regions p u.listedBlocks u)]
    exact hzero
  · have hcleared := State.clearBlocks_ldata (p := p) (k := k) u.listedBlocks (s := u) hlt
      (by rw [State.block_of_blocks hblocks]; exact hparcel)
      (by rw [← hu, State.clearRanges_absent]; exact hpresent) (.inl (by unfold State.listedBlocks; rw [hblocks]; exact hk))
    rw [State.block_of_blocks (State.setCtx_blocks _ _ _), State.block_of_blocks (State.wr_blocks _ _ _ _ _),
      State.block_of_blocks (State.wr_blocks _ _ _ _ _), State.block_of_blocks (State.undrains_blocks p _ _)]
    exact hcleared

theorem exec_teardownRequest {p cause : Nat} (s : State) (hp : 1 ≤ p) (hp' : p ≤ 15) (hc : 1 ≤ cause) (hc' : cause ≤ 9) :
    exec (.teardownRequest p cause) s = .next (s.teardown p cause) := if_neg (by omega)

/-- The two causes of a CTX_TEARDOWN. -/
theorem itemCause_le (fn : Nat) : (if isPf fn then 1 else 2) ≤ 9 := by split <;> decide

/-- Settles O50: admissions and teardowns by the parcel's state (`State.teardown_active`, `State.teardown_again`,
`State.teardown_loading`, `State.teardown_none`); loading and clearing by their folds over blocks and ranges. -/
theorem contextsBeginAndEnd : Obligations.ContextsBeginAndEnd := by
  unfold Obligations.ContextsBeginAndEnd
  refine ⟨fun fn ring slot s => ⟨fun h => ?_, fun h => ?_⟩, ?_, fun p cause s => ⟨fun h => if_pos h, fun hp hp' hc hc' => ?_⟩,
    fun p s => ⟨exec_loadingDone_loads, fun h => if_neg fun h' => ?_, exec_clearingDone_clears, fun h => if_neg h⟩⟩
  · show execCtxAdmit fn ring slot s = _
    rw [execCtxAdmit, h]
  · show execCtxTeardown fn ring slot s = _
    rw [execCtxTeardown, h]
  · rintro fn ring slot s i x p hfn rfl rfl
    refine ⟨fun hrun => ?_, fun hrun => ?_⟩
    · have hw := State.waits_of_running hfn hrun
      refine ⟨fun code hcode => ⟨_, exec_ctxAdmit_refused hrun hcode, State.doneWith_finish hw, State.setFn_ctxs _ _ _, State.setFn_hub _ _ _⟩,
        fun hcode => ⟨_, exec_ctxAdmit_loads hrun hcode, ?_, ?_, ?_, ?_, rfl⟩⟩
      · rw [State.pstate, State.rd_of_hub (State.setCtx_hub _ _ _) _ _ _, State.rd_wr_self _ _ _ _ _ (by decide)]
        rfl
      all_goals rw [State.ctx_setCtx_self]
    · have hw := State.waits_of_running hfn hrun
      have hexec := exec_ctxTeardown hrun
      refine ⟨fun hstate => ⟨_, exec_ctxTeardown_refused hrun hstate, State.doneWith_finish hw, State.setFn_ctxs _ _ _⟩,
        fun hstate hreq => ?_, fun hstate r hreq => ?_, fun hstate => ?_, fun hstate hne => ?_⟩
      · rw [hstate, State.teardown_active hstate hreq] at hexec
        refine ⟨_, hexec, ?_⟩
        rw [State.joinTeardown, State.ctx_setCtx_self, State.ctx_setCtx_self, State.rd_of_hub (State.setCtx_hub _ _ _) _ _ _,
          State.pstate, State.rd_of_hub (State.setCtx_hub _ _ _) _ _ _]
        obtain ⟨hcause, hstand⟩ := s.cause_shown (x.num 16 1 % 16) (itemCause_le fn) { s.ctx (x.num 16 1 % 16) with
          req := some (if isPf fn then 1 else 2, s.inTime), counted := countsCause (if isPf fn then 1 else 2) }
        exact ⟨rfl, rfl, hcause, hstand.trans hstate⟩
      · rw [hstate, State.teardown_again _ hstate hreq] at hexec
        refine ⟨_, hexec, ?_⟩
        rw [State.joinTeardown, State.ctx_setCtx_self, State.ctx_setCtx_self]
        exact ⟨hreq, rfl, rfl⟩
      · rw [hstate] at hexec
        exact ⟨_, hexec, rfl⟩
      · rw [hstate, State.teardown_loading _ hstate] at hexec
        refine ⟨_, hexec, ?_, ?_, ?_, fun j hj hwj => ?_⟩
        · exact State.doneWith_finish (State.waits_of_fns rfl (State.waits_abortAdmission hne hw))
        · rw [State.pstate, State.rd_of_hub (State.finish_hub _ _ _ _) _ _ _]
          exact State.pstate_startClearing _ _ _
        · exact (congrArg (fun m => (SMap.get ctxZero m (x.num 16 1 % 16)).clearing) (State.setFn_ctxs _ _ _)).trans
            (State.clearing_startClearing _ _)
        · exact State.doneWith_finish_done (State.doneWith_of_fns rfl (State.doneWith_abortAdmission hj hwj))
  · rw [exec_teardownRequest s hp hp' hc hc']
    refine ⟨fun hstate hreq => ⟨_, rfl, ?_⟩, fun hstate r hreq => ⟨_, rfl, ?_⟩, fun hstate => ⟨_, rfl, ?_⟩, fun h1 h2 => ?_⟩
    · rw [State.teardown_active hstate hreq]
      obtain ⟨hcause, hstand⟩ := s.cause_shown p hc' { s.ctx p with req := some (cause, s.inTime), counted := countsCause cause }
      rw [State.ctx_setCtx_self]
      exact ⟨rfl, hcause, hstand.trans hstate, rfl⟩
    · rw [State.teardown_again _ hstate hreq, State.ctx_setCtx_self]
      exact ⟨hreq, rfl, rfl⟩
    · rw [State.teardown_loading _ hstate]
      exact ⟨State.pstate_startClearing _ _ _, State.clearing_startClearing _ _,
        fun j hj hwj => State.doneWith_of_fns rfl (State.doneWith_abortAdmission hj hwj)⟩
    · rw [State.teardown_none _ h1 h2]
  · obtain ⟨h1, h2⟩ := h'
    obtain h | h := h
    · exact h h1
    · rw [h2] at h
      exact Bool.false_ne_true h

end Sys2Proof.Machine

/-!
PROOFS. Perturbation controls (20_counters_perturbation.md R529 to R536): what arms one, what refuses it, and the forced timeout's events.
-/
namespace Sys2Proof.Machine

/-! ## A control's fields -/

/-- The fields of a control are of the hub and lie apart, EN's among them. -/
theorem pertFields_apart : ∀ k < 5, ∀ f ∈ pertEn k :: pertFields k, ∀ g ∈ pertEn k :: pertFields k,
    (f.unit.hubGroup && decide (f.hi < 32 ∧ f.lo ≤ f.hi)) = true ∧ (f ≠ g → f.hubApart g 0 0 0 0 = true) := by decide

theorem pertEn_not_mem : ∀ k < 5, pertEn k ∉ pertFields k := by decide

/-- A field written with the bits that a word gives it reads them. -/
theorem State.rd_wr_of (s : State) {f : Field} (v : Word) (h : (f.unit.hubGroup && decide (f.hi < 32 ∧ f.lo ≤ f.hi)) = true) :
    (s.wr f (f.of v)).rd f = f.of v := by
  rw [State.rd_wr_self _ _ _ _ _ h]
  exact Nat.mod_eq_of_lt (bitsOf_lt v f.hi f.lo)

/-- Fields written from one word: a field among them has its bits of the word, one apart from them stands. -/
theorem State.rd_foldl_wr (v : Word) (fs : List Field) (s : State) {g : Field}
    (hfs : ∀ f ∈ fs, (f.unit.hubGroup && decide (f.hi < 32 ∧ f.lo ≤ f.hi)) = true ∧ (f ≠ g → f.hubApart g 0 0 0 0 = true)) :
    (fs.foldl (fun (s : State) f => s.wr f (f.of v)) s).rd g = if g ∈ fs ∨ s.rd g = g.of v then g.of v else s.rd g := by
  induction fs generalizing s with
  | nil => simp
  | cons f fs ih =>
    obtain ⟨hf, happ⟩ := hfs f List.mem_cons_self
    rw [List.foldl_cons, ih _ fun x hx => hfs x (List.mem_cons_of_mem _ hx)]
    by_cases hfg : f = g
    · subst hfg
      rw [State.rd_wr_of s v hf, if_pos (.inr rfl), if_pos (.inl List.mem_cons_self)]
    · rw [State.rd_wr_apart _ _ _ _ _ _ _ _ (happ hfg)]
      simp [Ne.symm hfg]

theorem HubFrame.foldl_wr (v : Word) (fs : List Field) (s : State) :
    HubFrame s (fs.foldl (fun (s : State) f => s.wr f (f.of v)) s) :=
  List.foldlRecOn (motive := HubFrame s) _ _ rfl fun t ht f _ => by
    rw [ht]
    rfl

/-- A control's fields as an arming write sets them. -/
def State.pertSet (s : State) (k : Nat) (v : Word) : State :=
  ((pertFields k).filter (fun f => !pertBad f (f.of v))).foldl (fun (s : State) f => s.wr f (f.of v)) s

theorem State.rd_pertSet {k : Nat} (hk : k < 5) (s : State) (v : Word) {f : Field} (hf : f ∈ pertFields k) :
    (s.pertSet k v).rd f = s.pertVal f v := by
  have happ := pertFields_apart k hk
  rw [State.pertSet, State.rd_foldl_wr v _ s fun x hx =>
    happ x (List.mem_cons_of_mem _ (List.mem_of_mem_filter hx)) f (List.mem_cons_of_mem _ hf), State.pertVal]
  cases hbad : pertBad f (f.of v)
  · rw [if_pos (.inl (List.mem_filter.mpr ⟨hf, by simp [hbad]⟩)), if_neg (by decide)]
  · rw [if_pos rfl, ite_eq_right_iff]
    rintro (h | h)
    · simp [hbad] at h
    · exact h.symm

/-- What an arming write leaves of a control that it sets (R529). -/
theorem State.pertWrite_sets {k : Nat} (hk : k < 5) {s : State} (v : Word) (hlock : s.pertLocked = false)
    (h : s.bit (pertEn k) = false ∨ ∀ f ∈ pertFields k, f.of v = s.rd f) :
    HubFrame s (s.pertWrite k v) ∧ (s.pertWrite k v).bit (pertEn k) = (pertEn k).on v ∧
      ∀ f ∈ pertFields k, (s.pertWrite k v).rd f = s.pertVal f v := by
  have hwrite : s.pertWrite k v = (s.pertSet k v).wr (pertEn k) ((pertEn k).of v) := by
    unfold State.pertWrite
    dsimp only
    rw [if_neg (by simp [hlock]), if_neg]
    · rfl
    · rw [Bool.and_eq_true, List.any_eq_true]
      rintro ⟨harmed, f, hf, hne⟩
      obtain h | h := h
      · exact Bool.false_ne_true (h.symm.trans harmed)
      · simp [h f hf] at hne
  have happ := pertFields_apart k hk
  obtain ⟨hen, -⟩ := happ (pertEn k) List.mem_cons_self (pertEn k) List.mem_cons_self
  rw [hwrite]
  refine ⟨?_, ?_, fun f hf => ?_⟩
  · have hset : HubFrame s (s.pertSet k v) := HubFrame.foldl_wr v _ s
    unfold HubFrame
    rw [hset]
    rfl
  · exact congrArg (· != 0) (State.rd_wr_of (s.pertSet k v) v hen)
  · rw [State.rd_wr_apart _ _ _ _ _ _ _ _ ((happ _ List.mem_cons_self f (List.mem_cons_of_mem _ hf)).2 fun e =>
      pertEn_not_mem k hk (e.symm ▸ hf)), State.rd_pertSet hk s v hf]

/-! ## Arming writes -/

/-- Is an arming write refused for its values (R532, R534, R535, R536)? -/
def State.pertRefused (s : State) (v : Word) : Nat → Bool
  | 0 => !segExists (s.pertVal PERT_XDLY_REGION v) (PERT_XDLY_SLOT.of v) ||
      decide ((s.region (s.pertVal PERT_XDLY_REGION v)).rd (if PERT_XDLY_DIR.on v then XQ_CAL_MDN else XQ_CAL_MUP) (PERT_XDLY_SLOT.of v)
        (PERT_XDLY_QUEUE.of v) < PERT_XDLY_DELAY.of v + 9)
  | 2 => decide (400000 < s.frame.len + s.pertVal PERT_FSTR_ADD v)
  | 3 => PERT_TMO_A_KIND.of v == 3
  | 4 => PERT_MISM_A_PASSES.of v == 0
  | _ => false

/-- The arming command of a control. -/
def pertArm (v : Word) : Nat → Instr
  | 0 => .pertXdlyArm v
  | 1 => .pertSlholdArm v
  | 2 => .pertFstrArm v
  | 3 => .pertTmoArm v
  | _ => .pertMismArm v

/-- The five arming commands are alike but for what refuses them. -/
theorem exec_pertArm {k : Nat} (hk : k < 5) (v : Word) (s : State) : exec (pertArm v k) s =
    if !s.ready then .next s.discard else if !s.pertLocked && s.pertRefused v k then .next s else .next (s.pertWrite k v) := by
  have hsl : (!s.pertLocked && s.pertRefused v 1) = false := Bool.and_false _
  match k, hk with
  | 0, _ => rfl
  | 1, _ =>
    rw [hsl]
    rfl
  | 2, _ => rfl
  | 3, _ => rfl
  | 4, _ => rfl

theorem exec_pertArm_discarded {k : Nat} (hk : k < 5) {v : Word} {s : State} (h : s.ready = false ∨ s.pertLocked = true) :
    exec (pertArm v k) s = .next s.discard := by
  rw [exec_pertArm hk]
  cases hready : s.ready
  · rfl
  · have hlock := h.resolve_left (by simp [hready])
    rw [if_neg (by decide), if_neg (by simp [hlock]), State.pertWrite, if_pos hlock]

section Ready
variable {k : Nat} {v : Word} {s : State}

theorem exec_pertArm_refused (hk : k < 5) (hready : s.ready = true) (hlock : s.pertLocked = false) (h : s.pertRefused v k = true) :
    exec (pertArm v k) s = .next s := by
  rw [exec_pertArm hk, if_neg (by simp [hready]), if_pos (by simp [hlock, h])]

theorem exec_pertArm_writes (hk : k < 5) (hready : s.ready = true) (h : s.pertRefused v k = false) :
    exec (pertArm v k) s = .next (s.pertWrite k v) := by
  rw [exec_pertArm hk, if_neg (by simp [hready]), if_neg (by simp [h])]

/-- Another field of an armed control is not changed (R529). -/
theorem State.pertWrite_armed (hlock : s.pertLocked = false) (harmed : s.bit (pertEn k) = true)
    (h : ∃ f ∈ pertFields k, f.of v ≠ s.rd f) : s.pertWrite k v = s.discard := by
  unfold State.pertWrite
  dsimp only
  rw [if_neg (by simp [hlock]), if_pos]
  rw [Bool.and_eq_true, List.any_eq_true]
  obtain ⟨f, hf, hne⟩ := h
  exact ⟨harmed, f, hf, by simpa using hne⟩

end Ready

/-! ## The forced timeout (R535) -/

/-- EN cleared stays clear, and the units stand. -/
theorem State.forcedDone_shows (s : State) : s.forcedDone.bit PERT_TMO_A_EN = false ∧ s.forcedDone.regions = s.regions ∧
    s.forcedDone.blocks = s.blocks :=
  ⟨s.bit_wr_self _ _ _ _ (by decide), rfl, rfl⟩

theorem exec_forcedTimeout_off {cyc : Nat} {s : State} (h : s.pert.acting.getD 3 false = false ∨ s.bit PERT_TMO_A_EN = false) :
    exec (.forcedTimeout cyc) s = .next s := if_pos (by obtain h | h := h <;> simp only [h, Bool.not_false, Bool.or_true, Bool.true_or])

section Forced
variable {cyc n blk tgt : Nat} {s : State} (hn : n = s.rd PERT_TMO_A_REGION) (hblk : blk = chipBlk n (s.rd PERT_TMO_A_B))
  (htgt : tgt = s.rd PERT_TMO_B_TARGET) (hact : s.pert.acting.getD 3 false = true) (hen : s.bit PERT_TMO_A_EN = true)

section Sights
variable (hkind : s.rd PERT_TMO_A_KIND = 0) (hlocal : tgt < 2 ^ 14)
include hn hblk htgt hact hen hkind hlocal

theorem exec_forcedTimeout_sight {x : QEntry} (hx : (s.block blk).sight = some x) (hstake : x.cmd.stake = tgt)
    (hissued : x.issued?.isSome = true) (hruns : s.runs blk = true) :
    exec (.forcedTimeout cyc) s = .next (s.onBlock blk cyc (fun e b => b.sightTimeout e true)).forcedDone := by
  subst hn hblk htgt
  show execForcedTimeout cyc s = _
  unfold execForcedTimeout
  dsimp only
  rw [hact, hen, hkind, if_neg (by decide)]
  rw [if_pos (Nat.div_eq_of_lt hlocal), hx]
  exact if_pos (by simp [hstake, hissued, hruns])

theorem exec_forcedTimeout_noSight (h : s.runs blk = false ∨
    ∀ x, (s.block blk).sight = some x → x.cmd.stake ≠ tgt ∨ x.issued?.isSome = false) : exec (.forcedTimeout cyc) s = .next s := by
  subst hn hblk htgt
  show execForcedTimeout cyc s = _
  unfold execForcedTimeout
  dsimp only
  rw [hact, hen, hkind, if_neg (by decide)]
  rw [if_pos (Nat.div_eq_of_lt hlocal)]
  refine if_neg fun hboth => ?_
  rw [Bool.and_eq_true] at hboth
  obtain ⟨hwaits, hruns⟩ := hboth
  have h := h.resolve_left (by simp [hruns])
  split at hwaits
  · next x hx =>
    rw [Bool.and_eq_true, beq_iff_eq] at hwaits
    obtain hne | hnot := h x hx
    · exact hne hwaits.1
    · exact Bool.false_ne_true (hnot.symm.trans hwaits.2)
  · exact Bool.false_ne_true hwaits

end Sights

/-- A transfer of region `g` that waits on the stake. -/
def Region.waitingXfer (g : Region) (tgt : Nat) : Option Xfer :=
  g.xfers.find? (fun x => !x.started && !x.dead && bitsOf (g.sd x.eng x.desc 4) 31 16 == tgt)

/-- A stream of region `g` that waits on the stake. -/
def Region.waitingStrm (g : Region) (tgt : Nat) : Option Nat :=
  (List.range 64).find? (fun i => (g.strm i).since.isSome && bitsOf (g.ss i 2) 15 0 == tgt)

section Stakes
variable (hkind : s.rd PERT_TMO_A_KIND = 0) (hregion : 2 ^ 14 ≤ tgt)
include hn htgt hact hen hkind hregion

theorem exec_forcedTimeout_xfer {x : Xfer} (hx : (s.region n).waitingXfer tgt = some x) : exec (.forcedTimeout cyc) s =
    .next (s.onRegion n cyc (fun e g => g.xferTimeout { e with inj := true } x.eng x.desc true)).forcedDone := by
  subst hn htgt
  have hpos := Nat.div_pos hregion (Nat.two_pow_pos 14)
  unfold Region.waitingXfer at hx
  show execForcedTimeout cyc s = _
  unfold execForcedTimeout
  dsimp only
  rw [hact, hen, hkind, if_neg (by decide)]
  rw [if_neg hpos.ne', hx]
  rfl

theorem exec_forcedTimeout_strm {i : Nat} (hx : (s.region n).waitingXfer tgt = none) (hi : (s.region n).waitingStrm tgt = some i) :
    exec (.forcedTimeout cyc) s =
      .next (s.onRegion n cyc (fun e g => g.strmTimeout { e with inj := true } i true)).forcedDone := by
  subst hn htgt
  have hpos := Nat.div_pos hregion (Nat.two_pow_pos 14)
  unfold Region.waitingXfer at hx
  unfold Region.waitingStrm at hi
  show execForcedTimeout cyc s = _
  unfold execForcedTimeout
  dsimp only
  rw [hact, hen, hkind, if_neg (by decide)]
  rw [if_neg hpos.ne', hx, hi]
  rfl

theorem exec_forcedTimeout_noStake (hx : (s.region n).waitingXfer tgt = none) (hi : (s.region n).waitingStrm tgt = none) :
    exec (.forcedTimeout cyc) s = .next s := by
  subst hn htgt
  have hpos := Nat.div_pos hregion (Nat.two_pow_pos 14)
  unfold Region.waitingXfer at hx
  unfold Region.waitingStrm at hi
  show execForcedTimeout cyc s = _
  unfold execForcedTimeout
  dsimp only
  rw [hact, hen, hkind, if_neg (by decide)]
  rw [if_neg hpos.ne', hx, hi]
  rfl

end Stakes

section Loads
variable (hkind : s.rd PERT_TMO_A_KIND = 1)
include hn hblk htgt hact hen hkind

theorem exec_forcedTimeout_load {ring slot : Nat} {addr : Word}
    (hmode : (s.block blk).core.mode = .stall ring slot addr) (hring : ring = tgt % 32)
    (hruns : s.runs blk = true) :
    exec (.forcedTimeout cyc) s = .next (s.onBlock blk cyc (fun e b => b.loadTimeout e true)).forcedDone := by
  subst hn hblk htgt
  show execForcedTimeout cyc s = _
  unfold execForcedTimeout
  dsimp only
  rw [hact, hen, hkind, if_neg (by decide)]
  rw [hmode]
  exact if_pos ⟨hring, hruns⟩

theorem exec_forcedTimeout_noLoad (h : s.runs blk = false ∨ ∀ ring a b, (s.block blk).core.mode = .stall ring a b → ring ≠ tgt % 32) :
    exec (.forcedTimeout cyc) s = .next s := by
  subst hn hblk htgt
  show execForcedTimeout cyc s = _
  unfold execForcedTimeout
  dsimp only
  rw [hact, hen, hkind, if_neg (by decide)]
  cases hmode : (s.block (chipBlk (s.rd PERT_TMO_A_REGION) (s.rd PERT_TMO_A_B))).core.mode with
  | stall ring slot addr =>
    refine if_neg fun hboth => ?_
    obtain hoff | hne := h
    · exact Bool.false_ne_true (hoff.symm.trans hboth.2)
    · exact hne ring slot addr hmode hboth.1
  | _ => rfl

end Loads

section Requests
variable (hkind : 2 ≤ s.rd PERT_TMO_A_KIND)
include hn htgt hact hen hkind

theorem exec_forcedTimeout_request {r : Req} (hr : (s.region n).reqs.reverse.find? (fun r => r.eng == tgt % 8) = some r) :
    exec (.forcedTimeout cyc) s = .next (s.onLiveRegion n cyc (fun e g =>
      g.requestAbandon { e with inj := true } r.eng r.desc r.k r.first)).forcedDone := by
  subst hn htgt
  show execForcedTimeout cyc s = _
  unfold execForcedTimeout
  dsimp only
  rw [hact, hen, if_neg (by decide)]
  split
  · next h => omega
  · next h => omega
  · rw [hr]

theorem exec_forcedTimeout_noRequest (hr : (s.region n).reqs.reverse.find? (fun r => r.eng == tgt % 8) = none) :
    exec (.forcedTimeout cyc) s = .next s := by
  subst hn htgt
  show execForcedTimeout cyc s = _
  unfold execForcedTimeout
  dsimp only
  rw [hact, hen, if_neg (by decide)]
  split
  · next h => omega
  · next h => omega
  · rw [hr]

end Requests

end Forced

/-- A block's step in a forced timeout. -/
theorem State.forcedDone_onBlock (s : State) {blk cyc : Nat} (hblk : blk < 4608) (f : Env → Block → Block) :
    (s.onBlock blk cyc f).forcedDone.bit PERT_TMO_A_EN = false ∧
    (s.onBlock blk cyc f).forcedDone.block blk = (f (s.env blk cyc) (s.blockAt blk cyc)).atRest ∧
    ∀ j, j ≠ blk → (s.onBlock blk cyc f).forcedDone.block j = s.block j :=
  ⟨(State.forcedDone_shows _).1, State.block_putBlock_self _ _ _ hblk, (State.putBlock_frame _ _ _).2.1⟩

/-- A region's step in a forced timeout. -/
theorem State.forcedDone_onRegion (s : State) {n cyc : Nat} (hn : n < 24) (f : REnv → Region → Region) :
    (s.onRegion n cyc f).forcedDone.bit PERT_TMO_A_EN = false ∧
    (s.onRegion n cyc f).forcedDone.region n = (f (s.renv n cyc) (s.region n)).atRest :=
  ⟨(State.forcedDone_shows _).1, State.region_putRegion_self _ _ _ hn⟩

/-- The engine's latest request is abandoned, whichever equal one is found first. -/
theorem Region.requestAbandon_forced (e : REnv) {g : Region} {k : Nat} {r : Req}
    (hr : g.reqs.reverse.find? (fun r => r.eng == k) = some r) :
    (g.requestAbandon e r.eng r.desc r.k r.first).bit HBM_STAT_IFTMO = true ∧
    (g.requestAbandon e r.eng r.desc r.k r.first).reqs.length < g.reqs.length := by
  have hmem : r ∈ g.reqs := List.mem_reverse.mp (List.mem_of_find?_eq_some hr)
  obtain ⟨q, hq⟩ : ∃ q, g.openReq r.eng r.desc r.k r.first = some q := by
    rw [← Option.isSome_iff_exists, Region.openReq, List.find?_isSome]
    exact ⟨r, hmem, by simp⟩
  obtain ⟨hshown, -, -, hreqs, -⟩ := Region.requestAbandon_abandons e hq
  have hqmem : q ∈ g.reqs := List.mem_of_find?_eq_some hq
  refine ⟨hshown, ?_⟩
  rw [hreqs, List.length_erase_of_mem hqmem]
  have := List.length_pos_of_mem hqmem
  omega

/-- Settles O60: one rule for the five arming writes (`exec_pertArm`), one lemma for each event that a forced timeout may meet. -/
theorem perturbationControls : Obligations.PerturbationControls := by
  unfold Obligations.PerturbationControls
  refine ⟨fun v k c s hc => ?_, fun s => ⟨fun hready => ⟨_, if_neg (by simp [hready]), rfl, Bool.or_true _, ?_⟩,
    fun hready => if_pos (by simp [hready])⟩, fun cyc n blk tgt s hn hlt hblk hblt htgt => ⟨exec_forcedTimeout_off,
    fun hact hen => ⟨fun hkind hlocal => ⟨fun x hx hstake hissued hruns => ?_, exec_forcedTimeout_noSight hn hblk htgt hact hen hkind hlocal⟩,
      ?_, fun hkind => ⟨fun ring a b hmode hring hruns => ?_, exec_forcedTimeout_noLoad hn hblk htgt hact hen hkind⟩,
      fun hkind => ⟨exec_forcedTimeout_noRequest hn htgt hact hen hkind, fun r hr => ?_⟩⟩⟩⟩
  · obtain ⟨hk, rfl⟩ : k < 5 ∧ c = pertArm v k := by
      rcases hc with ⟨rfl, rfl⟩ | ⟨rfl, rfl⟩ | ⟨rfl, rfl⟩ | ⟨rfl, rfl⟩ | ⟨rfl, rfl⟩ <;> exact ⟨by decide, rfl⟩
    refine ⟨exec_pertArm_discarded hk, fun hready hlock => ⟨fun hbad => exec_pertArm_refused hk hready hlock ?_,
      fun h0 h2 h3 h4 => ?_⟩⟩
    · rcases hbad with ⟨rfl, h⟩ | ⟨rfl, h⟩ | ⟨rfl, h⟩ | ⟨rfl, h⟩
      · rw [State.pertRefused, Bool.or_eq_true, Bool.not_eq_true', decide_eq_true_eq]
        exact h
      · exact decide_eq_true h
      · exact beq_iff_eq.mpr h
      · exact beq_iff_eq.mpr h
    · have hok : s.pertRefused v k = false := by
        match k, hk with
        | 0, _ =>
          obtain ⟨hseg, hmargin⟩ := h0 rfl
          rw [State.pertRefused, hseg, Bool.not_true, Bool.false_or]
          exact decide_eq_false (Nat.not_lt.mpr hmargin)
        | 1, _ => rfl
        | 2, _ => exact decide_eq_false (Nat.not_lt.mpr (h2 rfl))
        | 3, _ => exact beq_eq_false_iff_ne.mpr (h3 rfl)
        | 4, _ => exact beq_eq_false_iff_ne.mpr (h4 rfl)
      rw [exec_pertArm_writes hk hready hok]
      refine ⟨fun harmed hne => by rw [State.pertWrite_armed hlock harmed hne], fun h => ⟨_, rfl, State.pertWrite_sets hk v hlock h⟩⟩
  · exact State.bit_wr_self _ _ _ _ _ (by decide)
  · exact ⟨_, exec_forcedTimeout_sight hn hblk htgt hact hen hkind hlocal hx hstake hissued hruns, State.forcedDone_onBlock _ hblt _⟩
  · rintro hkind hregion w rfl
    refine ⟨fun x hx => ⟨_, exec_forcedTimeout_xfer hn htgt hact hen hkind hregion hx, State.forcedDone_onRegion _ hlt _⟩, ?_⟩
    rintro hx z rfl
    exact ⟨fun i hi => ⟨_, exec_forcedTimeout_strm hn htgt hact hen hkind hregion hx hi, State.forcedDone_onRegion _ hlt _⟩,
      exec_forcedTimeout_noStake hn htgt hact hen hkind hregion hx⟩
  · exact ⟨_, exec_forcedTimeout_load hn hblk htgt hact hen hkind hmode hring hruns, State.forcedDone_onBlock _ hblt _⟩
  · refine ⟨_, exec_forcedTimeout_request hn htgt hact hen hkind hr, (State.forcedDone_shows _).1, fun hlost => ?_, fun hlost => ?_⟩
    · rw [State.region_of_regions (State.forcedDone_shows _).2.1, State.onLiveRegion_lost _ _ _ _ hlost]
    · rw [State.region_of_regions (State.forcedDone_shows _).2.1, State.region_onLiveRegion_self _ _ _ _ hlt hlost]
      exact Region.requestAbandon_forced _ hr

end Sys2Proof.Machine

/-!
PROOFS. Test packs and fill tiles (18_faults_repair.md R494 to R496, 16 R441): a pack's start, a tile's count, a round's end.
-/
namespace Sys2Proof.Machine

/-! ## TESTPACK -/

section Packs
variable {fn ring slot : Nat} {ok : Bool} {s : State} {x : Item} (hrun : s.running fn ring slot 0xA = some x)
include hrun

theorem exec_testpack_unread : exec (.testpack fn ring slot none ok) s = .next (s.finish ⟨fn, ring, slot⟩ 9 0) := by
  show execTestpack fn ring slot none ok s = _
  unfold execTestpack
  rw [hrun]

theorem exec_testpack_refused {bs : List Byte} {code : Nat} (hcode : s.packCode bs ok = some code) :
    exec (.testpack fn ring slot (some bs) ok) s = .next ((s.wr TPK_STAT_REFUSE code).finish ⟨fn, ring, slot⟩ 7 code) := by
  show execTestpack fn ring slot (some bs) ok s = _
  unfold execTestpack
  rw [hrun]
  dsimp only
  rw [hcode]

/-- A pack that is accepted is the next one, with its PACKID kept. -/
def State.packNext (s : State) (bs : List Byte) : State :=
  { s with tpk := { s.tpk with
      lastId := some (numAt bs 8 4)
      next := some (numAt bs 8 4, numAt bs 12 2, numAt bs 16 3, (List.range (numAt bs 6 2)).map (testEntry bs)) } }

theorem exec_testpack_accepted {bs : List Byte} (hcode : s.packCode bs ok = none) :
    exec (.testpack fn ring slot (some bs) ok) s = .next ((if (s.packNext bs).rd TPK_STAT_STATE = 0 then
      (s.packNext bs).wr TPK_STAT_STATE 1 else s.packNext bs).finish ⟨fn, ring, slot⟩ 0 0) := by
  show execTestpack fn ring slot (some bs) ok s = _
  unfold execTestpack
  rw [hrun]
  dsimp only
  rw [hcode]
  rfl

end Packs

/-- The codes of Table 18-13. -/
theorem State.packCode_le {s : State} {bs : List Byte} {ok : Bool} {code : Nat} (h : s.packCode bs ok = some code) : code ≤ 4 := by
  unfold State.packCode at h
  repeat' split at h
  all_goals simp at h
  all_goals omega

theorem State.finish_tpk (s : State) (i : ItemRef) (a b : Nat) : (s.finish i a b).tpk = s.tpk := State.setFn_tpk _ _ _

/-! ## What a tile shows in BLK_MX_STAT -/

theorem Block.bit_set1_self (b : Block) {f : Field} (hf : f.hi < 32) (hlo : f.lo ≤ f.hi) : (b.set1 f).bit f = true := by
  have hne : 1 % 2 ^ (f.hi + 1 - f.lo) ≠ 0 := by
    rw [Nat.mod_eq_of_lt (Nat.one_lt_two_pow (by omega))]
    decide
  exact (Block.bit_wr_self b f 1 0 0 hf hlo).trans (bne_iff_ne.mpr hne)

theorem Block.bit_inc_apart {b : Block} {c sat f : Field} {n : Nat} (hc : c.apart f 0 0 0 0 = true) (hs : sat.apart f 0 0 0 0 = true) :
    (b.inc c sat n).bit f = b.bit f := congrArg (· != 0) (Regs.rd_incSat_apart hc hs)

theorem Block.bit_fillReplay (e : Env) (f : FailAt) (b : Block) : (b.fillReplay e f).bit BLK_MX_STAT_REPLAY = true := by
  rw [Block.fillReplay, Block.bit_count, Block.bit_set1_self _ (by decide) (by decide)]

theorem Block.bit_fillTransient (e : Env) (b : Block) : (b.fillTransient e).bit BLK_MX_STAT_TRANS = true := by
  rw [Block.fillTransient, Block.bit_raise (by decide) (by decide), Block.bit_inc_apart (by decide) (by decide),
    Block.bit_set1_self _ (by decide) (by decide)]

theorem Block.bit_fillPoison (e : Env) (f : FailAt) (b : Block) :
    (b.fillPoison e f).bit BLK_MX_STAT_POISON = true ∧ (b.fillPoison e f).bit BLK_MX_STAT_SUSPECT = true := by
  unfold Block.fillPoison
  rw [Block.bit_raise (by decide) (by decide), Block.bit_raise (by decide) (by decide), Block.bit_count, Block.bit_count]
  refine ⟨?_, Block.bit_set1_self _ (by decide) (by decide)⟩
  exact (Block.bit_wr_apart _ _ _ _ _ _ _ _ (by decide)).trans (Block.bit_set1_self _ (by decide) (by decide))

theorem Block.bit_testPoison (e : Env) (test crc : Nat) (b : Block) :
    (b.testPoison e test crc).bit BLK_MX_STAT_POISON = true ∧ (b.testPoison e test crc).bit BLK_MX_STAT_SUSPECT = true := by
  unfold Block.testPoison
  rw [Block.bit_raise (by decide) (by decide), Block.bit_raise (by decide) (by decide)]
  refine ⟨?_, Block.bit_set1_self _ (by decide) (by decide)⟩
  exact (Block.bit_wr_apart _ _ _ _ _ _ _ _ (by decide)).trans (Block.bit_set1_self _ (by decide) (by decide))

/-! ## A tile of the running pack (R495) -/

/-- The block after a test tile; `r` is its pass and CRC. -/
def Block.tested (e : Env) (t : TestEnt) (test : Nat) (r : PassOut × Nat) (again ok : Bool) (b : Block) : Block :=
  let b := b.count e 0x004 (some 0) (computeCycles t.fa t.fb t.k)
  let b := match r.1.fail with
    | some f => if again then (b.mxLast 0 1 f).wr BLK_MX_STAT_REPLAY 0 else b.fillReplay e f
    | none => if b.bit BLK_MX_STAT_REPLAY then b.fillTransient e else b
  if again && !ok then Block.testPoison e test r.2 b else b

/-- The pack's counts after a test tile. -/
def Tpk.ended (q : Tpk) (blk test : Nat) (again ok : Bool) : Tpk :=
  { q with run := q.run + 1, ran := (blk, test) :: q.ran
           covered := if q.covered.contains blk then q.covered else blk :: q.covered
           once := q.once + (if again && ok then 1 else 0), twice := q.twice + (if again && !ok then 1 else 0)
           failed := if !again && !ok then (blk, test) :: q.failed else q.failed.filter (fun x => x != (blk, test))
           firstFail := if again && !ok && q.firstFail.isNone then some (blk, test) else q.firstFail }

theorem Tpk.mem_covered_ended (q : Tpk) (blk test : Nat) (again ok : Bool) : blk ∈ (q.ended blk test again ok).covered := by
  show blk ∈ (if q.covered.contains blk then q.covered else blk :: q.covered)
  split
  · next h => exact List.contains_iff_mem.mp h
  · exact List.mem_cons_self

/-- A test is to be run again exactly when its first run has failed. -/
theorem Tpk.mem_failed_ended (q : Tpk) (blk test : Nat) (again ok : Bool) :
    (blk, test) ∈ (q.ended blk test again ok).failed ↔ again = false ∧ ok = false := by
  show (blk, test) ∈ (if !again && !ok then (blk, test) :: q.failed else q.failed.filter (fun x => x != (blk, test))) ↔ _
  cases again <;> cases ok <;> simp

theorem State.tpk_onBlock (s : State) (blk cyc : Nat) (f : Env → Block → Block) : (s.onBlock blk cyc f).tpk = s.tpk := by
  have h := (s.putBlock_frame blk (f (s.env blk cyc) ((s.block blk).advance (s.env blk cyc)))).1
  show (s.putBlock blk _).tpk = s.tpk
  rw [h]

theorem State.block_onBlock_self (s : State) {blk : Nat} (cyc : Nat) (f : Env → Block → Block) (h : blk < 4608) :
    (s.onBlock blk cyc f).block blk = (f (s.env blk cyc) (s.blockAt blk cyc)).atRest := State.block_putBlock_self _ _ _ h

/-- The device after a test tile. -/
def State.tileEnded (s : State) (blk cyc test : Nat) (t : TestEnt) (r : PassOut × Nat) (again ok : Bool) : State :=
  let u := s.onBlock blk cyc (fun e b => b.tested e t test r again ok)
  { u with tpk := s.tpk.ended blk test again ok }

section Tiles
variable {blk cyc test : Nat} {fs : List CellFault} {s : State}

theorem exec_testTileDone_none (htest : test ≠ 64) (h : s.tpk.tests[test]? = none ∨ s.rd TPK_STAT_STATE ≠ 2 ∨ s.takesTest blk = false ∨
    (s.tpk.ran.contains (blk, test) = true ∧ s.tpk.failed.contains (blk, test) = false)) :
    exec (.testTileDone blk cyc test fs) s = .next s := by
  show execTestTileDone blk cyc test fs s = _
  unfold execTestTileDone
  dsimp only
  rw [if_neg htest]
  split
  · rfl
  · next t ht => exact if_pos (h.resolve_left (by rw [ht]; exact Option.some_ne_none t))

theorem exec_testTileDone {t : TestEnt} {again ok : Bool} {r : PassOut × Nat} (htest : test ≠ 64) (ht : s.tpk.tests[test]? = some t)
    (hstate : s.rd TPK_STAT_STATE = 2) (htakes : s.takesTest blk = true) (hr : r = testPass (s.block blk) t fs)
    (hok : ok = (r.1.fail.isNone && r.2 == t.expect)) (hagain : again = s.tpk.failed.contains (blk, test))
    (hran : s.tpk.ran.contains (blk, test) = false ∨ again = true) :
    exec (.testTileDone blk cyc test fs) s = .next (if again && !ok then (s.tileEnded blk cyc test t r again ok).set1 TPK_STAT_FAIL
      else s.tileEnded blk cyc test t r again ok) := by
  unfold State.tileEnded
  rw [← s.tpk_onBlock blk cyc]
  subst hr hok hagain
  show execTestTileDone blk cyc test fs s = _
  unfold execTestTileDone
  dsimp only
  rw [if_neg htest, ht]
  dsimp only
  rw [if_neg]
  · rfl
  · rintro (h | h | ⟨h, hnot⟩)
    · exact h hstate
    · exact Bool.false_ne_true (h.symm.trans htakes)
    · obtain h' | h' := hran
      · exact Bool.false_ne_true (h'.symm.trans h)
      · exact Bool.false_ne_true (hnot.symm.trans h')

/-- What a test tile leaves of the blocks and of FAIL. -/
theorem State.tileEnded_frame (s : State) (blk cyc test : Nat) (t : TestEnt) (r : PassOut × Nat) (again ok : Bool) :
    (∀ k, k ≠ blk → (s.tileEnded blk cyc test t r again ok).block k = s.block k) ∧
    (s.tileEnded blk cyc test t r again ok).bit TPK_STAT_FAIL = s.bit TPK_STAT_FAIL ∧
    (blk < 4608 → (s.tileEnded blk cyc test t r again ok).block blk =
      ((s.blockAt blk cyc).tested (s.env blk cyc) t test r again ok).atRest) := by
  obtain ⟨-, hblocks, -, hhub, -⟩ := s.putBlock_frame blk
    (((s.block blk).advance (s.env blk cyc)).tested (s.env blk cyc) t test r again ok)
  refine ⟨hblocks, ?_, fun hblk => State.block_putBlock_self _ _ _ hblk⟩
  show Regs.bit (HubRegs.of _ .err) TPK_STAT_FAIL 0 0 = _
  rw [State.tileEnded, State.onBlock]
  dsimp only
  rw [hhub]
  rfl

end Tiles

/-- The second failure of a test shows in its block. -/
theorem State.tileEnded_poisoned (s : State) {blk : Nat} (cyc test : Nat) (t : TestEnt) (r : PassOut × Nat) (hblk : blk < 4608) :
    ((s.tileEnded blk cyc test t r true false).block blk).bit BLK_MX_STAT_POISON = true ∧
    ((s.tileEnded blk cyc test t r true false).block blk).bit BLK_MX_STAT_SUSPECT = true := by
  rw [(s.tileEnded_frame blk cyc test t r true false).2.2 hblk]
  exact Block.bit_testPoison _ _ _ _

/-! ## Fill tiles (16 R441) -/

@[simp] theorem Block.testRun_count (e : Env) (b : Block) (c : Nat) (p : Option Nat) (n : Nat) : (b.count e c p n).testRun = b.testRun := by
  rw [Block.count_only]

/-- The fill tile of a block that has counted its cycles. -/
def Block.fillOutcome (e : Env) (p : Option FailAt) (b : Block) : Block :=
  match p with
  | some f => if b.testRun = 0 then { b.fillReplay e f with testRun := 1 } else { b.fillPoison e f with testRun := 0 }
  | none => if b.testRun = 0 then b else { b.fillTransient e with testRun := 0 }

/-- The same, for the pass of the fill tile. The kernel compares this definition with `Block.fillDone` in one step, and so never
evaluates the pass, because the hypothesis names `testPass` as `Block.fillDone` does. -/
def Block.fillEnds (e : Env) (fs : List CellFault) (b : Block) (p : PassOut)
    (_ : p = (testPass b { fa := 0, fb := 0, k := 256, seed := Config.fillSeed, expect := 0 } fs).1) (b : Block) : Block :=
  match p.fail with
  | some f => if b.testRun = 0 then { b.fillReplay e f with testRun := 1 } else { b.fillPoison e f with testRun := 0 }
  | none => if b.testRun = 0 then b else { b.fillTransient e with testRun := 0 }

theorem Block.fillEnds_eq (e : Env) (fs : List CellFault) (b : Block) (p : PassOut)
    (hp : p = (testPass b { fa := 0, fb := 0, k := 256, seed := Config.fillSeed, expect := 0 } fs).1) (c : Block) :
    Block.fillEnds e fs b p hp c = c.fillOutcome e p.fail := by
  unfold Block.fillEnds Block.fillOutcome
  cases p.fail <;> rfl

theorem Block.fillDone_ends (e : Env) (fs : List CellFault) (b : Block) :
    b.fillDone e fs = Block.fillEnds e fs b _ rfl (b.count e 0x004 (some 0) (computeCycles 0 0 256)) := rfl

theorem Block.fillDone_eq (e : Env) (fs : List CellFault) (b : Block) : b.fillDone e fs =
    Block.fillOutcome e (testPass b { fa := 0, fb := 0, k := 256, seed := Config.fillSeed, expect := 0 } fs).1.fail
      (b.count e 0x004 (some 0) (computeCycles 0 0 256)) :=
  (b.fillDone_ends e fs).trans (Block.fillEnds_eq _ _ _ _ _ _)

theorem Block.fillOutcome_testRun (e : Env) (p : Option FailAt) (b : Block) :
    (b.fillOutcome e p).testRun = if p.isSome && b.testRun == 0 then 1 else 0 := by
  cases p with
  | none =>
    by_cases h : b.testRun = 0
    · rw [Block.fillOutcome, if_pos h]
      exact h
    · rw [Block.fillOutcome, if_neg h]
      rfl
  | some f =>
    by_cases h : b.testRun = 0
    · rw [Block.fillOutcome, if_pos h, h]
      rfl
    · rw [Block.fillOutcome, if_neg h]
      exact (if_neg (by simpa using h)).symm

/-- What is left of a fill tile: a first mismatch asks for a second pass, and shows REPLAY; a second mismatch shows POISON and SUSPECT, a
clean second pass TRANS. -/
theorem Block.fillOutcome_shows (e : Env) (p : Option FailAt) (b : Block) :
    (b.fillOutcome e p).atRest.testRun = (if p.isSome && b.testRun == 0 then 1 else 0) ∧
    (p.isSome = true → b.testRun = 0 → (b.fillOutcome e p).atRest.bit BLK_MX_STAT_REPLAY = true) ∧
    (p.isSome = true → b.testRun ≠ 0 → (b.fillOutcome e p).atRest.bit BLK_MX_STAT_POISON = true ∧
      (b.fillOutcome e p).atRest.bit BLK_MX_STAT_SUSPECT = true) ∧
    (p = none → b.testRun ≠ 0 → (b.fillOutcome e p).atRest.bit BLK_MX_STAT_TRANS = true) := by
  refine ⟨b.fillOutcome_testRun e p, fun hp h => ?_, fun hp h => ?_, fun hp h => ?_⟩
  · obtain ⟨f, rfl⟩ := Option.isSome_iff_exists.mp hp
    rw [Block.fillOutcome, if_pos h]
    exact Block.bit_fillReplay e f b
  · obtain ⟨f, rfl⟩ := Option.isSome_iff_exists.mp hp
    rw [Block.fillOutcome, if_neg h]
    exact Block.bit_fillPoison e f b
  · subst hp
    rw [Block.fillOutcome, if_neg h]
    exact Block.bit_fillTransient e b

/-- The same of the block that has counted the tile's cycles. -/
theorem Block.fillDone_shows (e : Env) (p : Option FailAt) (b c : Block) (n : Nat)
    (hc : c = (Block.fillOutcome e p (b.count e 0x004 (some 0) n)).atRest) :
    c.testRun = (if p.isSome && b.testRun == 0 then 1 else 0) ∧
    (p.isSome = true → b.testRun = 0 → c.bit BLK_MX_STAT_REPLAY = true) ∧
    (p.isSome = true → b.testRun ≠ 0 → c.bit BLK_MX_STAT_POISON = true ∧ c.bit BLK_MX_STAT_SUSPECT = true) ∧
    (p = none → b.testRun ≠ 0 → c.bit BLK_MX_STAT_TRANS = true) := by
  have h := Block.fillOutcome_shows e p (b.count e 0x004 (some 0) n)
  rw [Block.testRun_count, ← hc] at h
  exact h

theorem exec_fillDone {blk cyc : Nat} {fs : List CellFault} {s : State} (h : s.takesFill blk = true) :
    exec (.testTileDone blk cyc 64 fs) s = .next (s.onBlock blk cyc (fun e b => b.fillDone e fs)) := by
  show execTestTileDone blk cyc 64 fs s = _
  unfold execTestTileDone
  dsimp only
  rw [if_pos rfl, if_pos h]

theorem exec_fillDone_none {blk cyc : Nat} {fs : List CellFault} {s : State} (h : s.takesFill blk = false) :
    exec (.testTileDone blk cyc 64 fs) s = .next s := by
  show execTestTileDone blk cyc 64 fs s = _
  unfold execTestTileDone
  dsimp only
  rw [if_pos rfl, if_neg (by simp [h])]

/-! ## The end of a round (R496) -/

theorem Booked.tpk {s t : State} (h : Booked s t) : t.tpk = s.tpk := by rw [h]

theorem Booked.frame {s t : State} (h : Booked s t) : t.frame = s.frame := by rw [h]

/-- The next round of a pack begins. -/
def State.nextRound (s : State) : State :=
  { s.wr TPK_STAT_ROUNDS (min (s.rd TPK_STAT_ROUNDS + 1) 0xFFFF) with
    tpk := { s.tpk with round := s.tpk.round + 1, start := s.frame.num, run := 0, once := 0, twice := 0, covered := [], ran := []
                        failed := [], firstFail := none } }

theorem exec_testpackRound_ends {s : State} (hstate : s.rd TPK_STAT_STATE = 2) (hdue : s.tpk.start + s.tpk.period ≤ s.frame.num) :
    exec .testpackRound s =
      .next (s.bookAll { type_ := 4, parcel := 0, frame := s.frame.num, body := s.packBody }).nextRound := by
  show execTestpackRound s = _
  unfold execTestpackRound
  rw [if_neg (by omega)]
  dsimp only
  generalize State.bookAll s _ = u
  rfl

/-- A round that begins, after the records of the one that ends. -/
theorem State.nextRound_shows {s u : State} (h : Booked s u) : u.nextRound.tpk.round = s.tpk.round + 1 ∧
    u.nextRound.tpk.start = s.frame.num ∧ u.nextRound.tpk.run = 0 ∧ u.nextRound.tpk.covered = [] ∧ u.nextRound.tpk.firstFail = none ∧
    u.nextRound.rd TPK_STAT_ROUNDS = min (s.rd TPK_STAT_ROUNDS + 1) 0xFFFF := by
  refine ⟨congrArg (fun q : Tpk => q.round + 1) h.tpk, congrArg FrameSt.num h.frame, rfl, rfl, rfl, ?_⟩
  rw [← State.rd_of_hub h.hub]
  refine (State.rd_wr_self u TPK_STAT_ROUNDS _ 0 0 (by decide)).trans (Nat.mod_eq_of_lt ?_)
  show _ < 65536
  omega

theorem exec_testpackRound_early {s : State} (h : s.rd TPK_STAT_STATE ≠ 2 ∨ s.frame.num < s.tpk.start + s.tpk.period) :
    exec .testpackRound s = .next s := by
  show execTestpackRound s = _
  unfold execTestpackRound
  rw [if_pos h]

/-- Settles O53: each command by its branch; a tile's counts are `Tpk.ended`, its block `Block.tested` or `Block.fillOutcome`. -/
theorem testPacks : Obligations.TestPacks := by
  unfold Obligations.TestPacks
  refine ⟨fun fn ring slot pack ok s i => ⟨fun h => ?_, ?_⟩, fun blk cyc test fs s htest => ⟨exec_testTileDone_none htest,
    fun t ok ht hstate htakes hok => ⟨fun hran hfailed => ?_, fun hfailed => ?_⟩⟩, fun blk cyc fs s => ⟨exec_fillDone_none, ?_⟩,
    fun s => ⟨exec_testpackRound_early, fun hstate hdue => ⟨_, exec_testpackRound_ends hstate hdue,
      State.nextRound_shows (Booked.refl s).bookAll⟩, fun h => ⟨_, ?_, rfl⟩, fun h => ?_⟩⟩
  · show execTestpack fn ring slot pack ok s = _
    rw [execTestpack, h]
  · rintro x hfn rfl hrun
    have hw := State.waits_of_running hfn hrun
    refine ⟨?_, ?_⟩
    · rintro rfl
      exact ⟨_, exec_testpack_unread hrun, State.doneWith_finish hw, State.finish_tpk _ _ _ _⟩
    · rintro bs rfl
      refine ⟨fun code hcode => ⟨_, exec_testpack_refused hrun hcode, State.doneWith_finish (State.waits_of_fns rfl hw), ?_,
        State.finish_tpk _ _ _ _⟩, fun hcode => ⟨_, exec_testpack_accepted hrun hcode, ?_⟩⟩
      · have hle := State.packCode_le hcode
        rw [State.rd_of_hub (State.finish_hub _ _ _ _), State.rd_wr_self _ _ _ _ _ (by decide)]
        exact Nat.mod_eq_of_lt (by show code < 256; omega)
      · rw [State.finish_tpk, State.rd_of_hub (State.finish_hub _ _ _ _)]
        split
        · refine ⟨State.doneWith_finish (State.waits_of_fns rfl hw), rfl, rfl, ?_⟩
          rw [State.rd_wr_self _ _ _ _ _ (by decide)]
          decide
        · next h => exact ⟨State.doneWith_finish (State.waits_of_fns rfl hw), rfl, rfl, h⟩
  · have hexec := exec_testTileDone (cyc := cyc) htest ht hstate htakes rfl hok hfailed.symm (.inl hran)
    rw [if_neg (by simp)] at hexec
    obtain ⟨hblocks, -, -⟩ := s.tileEnded_frame blk cyc test t (testPass (s.block blk) t fs) false ok
    exact ⟨_, hexec, rfl, Tpk.mem_covered_ended _ _ _ _ _, List.mem_cons_self, rfl, rfl,
      (Tpk.mem_failed_ended _ _ _ _ _).trans (by simp), hblocks⟩
  · have hexec := exec_testTileDone (cyc := cyc) htest ht hstate htakes rfl hok hfailed.symm (.inr rfl)
    obtain ⟨hblocks, hfail, -⟩ := s.tileEnded_frame blk cyc test t (testPass (s.block blk) t fs) true ok
    cases hok' : ok with
    | true =>
      rw [hok', if_neg (by decide)] at hexec
      rw [hok'] at hblocks hfail
      exact ⟨_, hexec, rfl, Tpk.mem_covered_ended _ _ _ _ _, fun h => absurd ((Tpk.mem_failed_ended _ _ _ _ _).mp h).1 (by decide),
        rfl, rfl, by rw [hfail, Bool.not_true, Bool.or_false], fun h => absurd h (by decide), hblocks⟩
    | false =>
      rw [hok', if_pos (by decide)] at hexec
      rw [hok'] at hblocks
      refine ⟨_, hexec, rfl, Tpk.mem_covered_ended _ _ _ _ _, fun h => absurd ((Tpk.mem_failed_ended _ _ _ _ _).mp h).1 (by decide),
        rfl, rfl, ?_, fun _ hblk => ?_, hblocks⟩
      · exact (State.bit_wr_self _ _ _ _ _ (by decide)).trans (Bool.or_true _).symm
      · rw [State.block_of_blocks (State.set1_blocks _ _ _)]
        exact s.tileEnded_poisoned cyc test t _ hblk
  · rintro B p hblk htakes rfl rfl
    refine ⟨_, exec_fillDone htakes, s.tpk_onBlock _ _ _, s.putBlock_frame _ _, ?_⟩
    have hself : (s.onBlock blk cyc (fun e b => b.fillDone e fs)).block blk =
        ((s.blockAt blk cyc).fillDone (s.env blk cyc) fs).atRest := s.block_onBlock_self cyc _ hblk
    rw [Block.fillDone_eq] at hself
    exact Block.fillDone_shows _ _ _ _ _ hself
  · exact congrArg _ (if_neg (by simp [h]))
  · exact congrArg _ (if_pos (by simp [h]))

end Sys2Proof.Machine

/-!
PROOFS. The suspect ledger, fences and retests (18_faults_repair.md R481 to R489, R499): the refutation of O52 by a region that holds a defect
entry before the retest.
-/
namespace Sys2Proof.Machine

/-- A device at reset whose region 0 holds a defect entry that it has not handed to the MC. -/
def heldDefect : State := State.reset.setRegion 0 { defects := [{ kind := 1, src := 2, unit := 0 }] }

/-- A retest that finds no hard fault. -/
def softRetest : Retest := .storeUe 0 []

/-- The retest hands the entry on, and it goes to the field log. -/
theorem heldDefect_logged {t : State} (h : exec (.retest 0 softRetest) heldDefect = .next t) : t.flash.log.length = 1 := by
  rw [← Host.Outcome.next.inj h]
  decide

/-- Refutes O52: a retest that is not hard hands on the defect entry that its region held before, so the flash log grows. The statement's
clause on a retest that is not hard does not ask that the region holds none. -/
theorem not_ledgerFencesAndRetests : ¬ Obligations.LedgerFencesAndRetests := by
  unfold Obligations.LedgerFencesAndRetests
  rintro ⟨-, h⟩
  obtain ⟨-, -, -, hretest⟩ := h 0 heldDefect _ (by decide) rfl (by decide)
  obtain ⟨-, hopen⟩ := hretest softRetest
  obtain ⟨t, ht, -, -, -, -, hsoft, -⟩ := hopen (fun _ hb => nomatch hb)
  obtain ⟨-, hflash, -⟩ := hsoft (by decide)
  have hlog := heldDefect_logged ht
  rw [hflash] at hlog
  exact absurd hlog (by decide)

end Sys2Proof.Machine

/-!
PROOFS. Inputs, phases and domains (15_power_delivery.md R414 to R422): the refutation of O56 by a region that holds a defect entry of an
untested phase before the test of another.
-/
namespace Sys2Proof.Machine

/-- A defect entry that holds off phase 1 of domain 0 of region 0 (17 Table 17-7). -/
def phaseOneOff : Defect := { kind := 6, src := 2, unit := 2 ^ 7 }

/-- Domain 0 of region 0 in its soft start: phases 2 to 7 have passed and phase 0 has failed twice, so 0 and 1 are untested. -/
def twoPhasesLeft : DomSt := { tries := [(0, 2)], passed := [2, 3, 4, 5, 6, 7] }

/-- A device in stage 3 whose region 0 has not handed the entry of phase 1 to the MC. -/
def heldPhase : State :=
  ((State.reset.wr BRUP_STAT_STAGE 3).setRegion 0 { defects := [phaseOneOff] }).setDom 0 twoPhasesLeft

/-- The third failure of phase 0 hands the entry on, no phase is left to test, and the domain goes dark. -/
theorem heldPhase_dark {t : State} (h : exec (.phaseTest 0 0 0 false) heldPhase = .next t) :
    (t.region 0).rd PWR_DOM_STAT_STATE 0 = 3 := by
  rw [← Host.Outcome.next.inj h]
  decide +kernel

/-- Refutes O56: the record of a phase latched off hands on the defect entries that its region held before, one of which may hold off the
last phase left to test, so the soft start ends in the same step. The statement's clause on a third failure with other phases untested does
not ask that the region holds none. -/
theorem not_inputsPhasesAndDomains : ¬ Obligations.InputsPhasesAndDomains := by
  unfold Obligations.InputsPhasesAndDomains
  rintro ⟨-, -, -, hphase, -⟩
  obtain ⟨-, htest⟩ := hphase 0 0 0 false heldPhase _ _ _ rfl rfl rfl
  obtain ⟨t, ht, -, -, hthird, -⟩ :=
    htest 3 _ (by decide) (by decide) (by decide) (by decide) (by decide) (by decide) (by decide) rfl
  obtain ⟨-, hoff⟩ := hthird rfl rfl (by decide)
  exact absurd ((heldPhase_dark ht).symm.trans hoff) (by decide)

end Sys2Proof.Machine

/-!
PROOFS. Firmware load, monument mailbox and crash log (17_bring_up_monument.md R458, R467, 19_contexts_recovery.md R519).
-/
namespace Sys2Proof.Machine

/-! ## Records of the MC -/

/-- A record of the MC is shown in the registers of the error queue alone. -/
theorem State.hubOf_raise {u : RegUnit} (hu : u ≠ .err) (s : State) (r : ErrRec) : (s.raise r).hub.of u = s.hub.of u :=
  State.hubOf_hubQueue hu _ _

theorem State.rd_raise {f : Field} (hu : f.unit ≠ .err) (s : State) (r : ErrRec) (i j : Nat := 0) : (s.raise r).rd f i j = s.rd f i j :=
  State.rd_of_hubOf (State.hubOf_raise hu s r) i j

theorem State.bit_raise {f : Field} (hu : f.unit ≠ .err) (s : State) (r : ErrRec) (i j : Nat := 0) :
    (s.raise r).bit f i j = s.bit f i j := congrArg (· != 0) (State.rd_raise hu s r i j)

/-- A record of the MC leaves the monument, its own memory and the regions. -/
theorem State.raise_stands (s : State) (r : ErrRec) :
    (s.raise r).flash = s.flash ∧ (s.raise r).otp = s.otp ∧ (s.raise r).mc = s.mc ∧ (s.raise r).regions = s.regions := by
  have h : Noted s (s.raise r) := Noted.raise (.refl s)
  rw [show s.raise r = _ from h]
  exact ⟨rfl, rfl, rfl, rfl⟩

/-! ## The boot ROM (R458) -/

theorem State.slotOk_eq_some {s : State} {i : Nat} {x : FwImage} (hx : s.flash.images[i]? = some x) (hgood : x.good = true)
    (hmin : s.otp.min ≤ x.svn) : s.slotOk i = some x := by
  unfold State.slotOk
  rw [hx]
  exact if_pos (by simp [hgood, hmin])

theorem State.slotOk_eq_none {s : State} {i : Nat} {x : FwImage} (hx : s.flash.images[i]? = some x)
    (hbad : x.good = false ∨ x.svn < s.otp.min) : s.slotOk i = none := by
  unfold State.slotOk
  rw [hx]
  exact if_neg (by obtain h | h := hbad <;> simp [h])

theorem State.verifyFw_own {s : State} {a : Nat} {x : FwImage} (ha : s.flash.active = a) (h : s.slotOk a = some x) :
    s.verifyFw = s.startFw a x := by
  subst ha
  unfold State.verifyFw
  dsimp only
  rw [h]

theorem State.verifyFw_other {s : State} {a b : Nat} {x : FwImage} (ha : s.flash.active = a) (hb : 1 - a = b) (h : s.slotOk a = none)
    (hx : s.slotOk b = some x) : s.verifyFw = (s.startFw b x).set1 MON_SVN_FALLBK := by
  subst ha hb
  unfold State.verifyFw
  dsimp only
  rw [h, hx]

theorem State.verifyFw_neither {s : State} {a : Nat} (ha : s.flash.active = a) (h : s.slotOk a = none) (hx : s.slotOk (1 - a) = none) :
    s.verifyFw = { s with mc := { s.mc with recovery := true } } := by
  subst ha
  unfold State.verifyFw
  dsimp only
  rw [h, hx]

/-- The boot ROM leaves flash, key slots and regions. -/
theorem State.verifyFw_stands (s : State) :
    s.verifyFw.flash = s.flash ∧ s.verifyFw.otp.slots = s.otp.slots ∧ s.verifyFw.regions = s.regions := by
  unfold State.verifyFw
  dsimp only
  split
  · exact ⟨rfl, rfl, rfl⟩
  · split <;> exact ⟨rfl, rfl, rfl⟩

/-- JTAG_FIRMWARE_LOAD puts the image into slot A. -/
def State.loadSlotA (s : State) (image : FwImage) : State :=
  { s with flash := { s.flash with images := image :: s.flash.images.drop 1 } }

theorem State.slotOk_loadSlotA_one (s : State) (image : FwImage) : (s.loadSlotA image).slotOk 1 = s.slotOk 1 := by
  unfold State.slotOk State.loadSlotA
  simp only [List.getElem?_cons_succ, List.getElem?_drop]

theorem exec_jtagFirmwareLoad (image : FwImage) {s : State} (h : s.mc.recovery = true) :
    exec (.jtagFirmwareLoad image) s = .next (s.loadSlotA image).verifyFw :=
  congrArg Host.Outcome.next (if_pos h)

/-! ## The monument mailbox (R467) -/

/-- The MC answers a request with a status. -/
def State.mailboxDone (s : State) (st : Nat) : State := (s.wr MON_MBX_CTL_STATUS st).set1 MON_MBX_CTL_DONE

@[simp] theorem State.mailboxDone_otp (s : State) (st : Nat) : (s.mailboxDone st).otp = s.otp := rfl
@[simp] theorem State.mailboxDone_flash (s : State) (st : Nat) : (s.mailboxDone st).flash = s.flash := rfl
@[simp] theorem State.mailboxDone_mc (s : State) (st : Nat) : (s.mailboxDone st).mc = s.mc := rfl
@[simp] theorem State.mailboxDone_regions (s : State) (st : Nat) : (s.mailboxDone st).regions = s.regions := rfl

theorem State.mailboxDone_done (s : State) (st : Nat) : (s.mailboxDone st).bit MON_MBX_CTL_DONE = true :=
  State.bit_wr_self _ _ _ _ _ (by decide)

theorem State.mailboxDone_status (s : State) (st : Nat) : (s.mailboxDone st).rd MON_MBX_CTL_STATUS = st % 256 := by
  exact (State.rd_wr_apart _ _ _ _ _ _ _ _ (by decide)).trans (State.rd_wr_self _ _ _ _ _ (by decide))

/-- The refusals of Table 17-10 have the codes 1 to 7. -/
theorem State.mailboxBad_le {s : State} {bs : List Byte} {ok : Bool} {image : FwImage} {c : Nat}
    (h : s.mailboxBad bs ok image = some c) : c ≤ 7 := by
  have hle : ∀ o ∈ s.mailboxBad bs ok image, o ≤ 7 := by
    unfold State.mailboxBad
    extract_lets ty key
    clear_value ty key
    split
    · simp
    · split
      · simp
      · split
        · simp
        · split
          · split <;> simp
          · split <;> simp
          · split
            · simp
            · split
              · simp
              · split <;> simp
          · simp
  exact hle c h

/-- A request to program a key is accepted only while a slot is empty. -/
theorem State.mailboxBad_keySlot {s : State} {bs : List Byte} {ok : Bool} {image : FwImage} (h : s.mailboxBad bs ok image = none)
    (hty : numAt bs 0 2 = 2) : none ∈ s.otp.slots := by
  by_contra hfull
  simp only [State.mailboxBad, hty] at h
  grind

/-- A record appended to the field log, or refused with a record. -/
theorem State.logAppend_stands (s : State) (r : LogRec) (ok : Bool) : (s.logAppend r ok).1.otp = s.otp ∧
    (s.logAppend r ok).1.regions = s.regions ∧ (s.logAppend r ok).1.flash.count = s.flash.count ∧
    (ok = true → s.flash.log.length < 3000 → (s.logAppend r ok).1.flash.log = s.flash.log ++ [r]) := by
  have hraise : ∀ f : Field, (((s.set1 f).raise { cls := 2, subtype := 0xD5, level := 3 }).otp = s.otp ∧
      ((s.set1 f).raise { cls := 2, subtype := 0xD5, level := 3 }).regions = s.regions ∧
      ((s.set1 f).raise { cls := 2, subtype := 0xD5, level := 3 }).flash = s.flash) := fun f => by
    obtain ⟨hflash, hotp, -, hregions⟩ := (s.set1 f).raise_stands { cls := 2, subtype := 0xD5, level := 3 }
    exact ⟨hotp, hregions, hflash⟩
  unfold State.logAppend
  split
  · next hfull =>
    obtain ⟨hotp, hregions, hflash⟩ := hraise MON_STAT_FULL
    exact ⟨hotp, hregions, congrArg Flash.count hflash, fun _ h => absurd h (by omega)⟩
  · split
    · exact ⟨rfl, rfl, rfl, fun _ _ => rfl⟩
    · next hok =>
      obtain ⟨hotp, hregions, hflash⟩ := hraise MON_STAT_WFAIL
      exact ⟨hotp, hregions, congrArg Flash.count hflash, fun h => absurd h hok⟩

/-- An accepted request keeps its counter and leaves the regions. -/
theorem State.mailboxAct_stands (s : State) (bs : List Byte) (image : FwImage) :
    (s.mailboxAct bs image).flash.count = numAt bs 4 4 ∧ (s.mailboxAct bs image).regions = s.regions := by
  unfold State.mailboxAct
  extract_lets fl s1 i imgs j ot s2 r s3
  obtain ⟨-, hregions, hcount, -⟩ := s1.logAppend_stands (.clear (numAt bs 4 4)) true
  split
  · exact ⟨rfl, rfl⟩
  · exact ⟨rfl, rfl⟩
  · exact ⟨rfl, rfl⟩
  · exact ⟨hcount, hregions⟩

/-- Type 4: the clear record goes to the log and the kept entries are dropped. -/
theorem State.mailboxAct_clear {s : State} {bs : List Byte} (image : FwImage) (hty : numAt bs 0 2 = 4) :
    (s.mailboxAct bs image).otp = s.otp ∧ (s.mailboxAct bs image).mc.kept = [] ∧
    (s.flash.log.length < 3000 → (s.mailboxAct bs image).flash.log = s.flash.log ++ [.clear (numAt bs 4 4)]) := by
  unfold State.mailboxAct
  extract_lets fl s1 i imgs j ot s2 r s3
  obtain ⟨hotp, -, -, hlog⟩ := s1.logAppend_stands (.clear (numAt bs 4 4)) true
  rw [hty]
  exact ⟨hotp, rfl, hlog rfl⟩

/-! ## The crash log (R519) -/

/-- The sequence number of a function's book stands. -/
def SeqStands (s t : State) : Prop := ∀ k, (t.fn k).seq = (s.fn k).seq

namespace SeqStands

theorem of_fns {s t : State} (h : t.fns = s.fns) : SeqStands s t := fun k => congrArg Fn.seq (State.fn_of_fns h k)

theorem trans {s t u : State} (h : SeqStands s t) (k : SeqStands t u) : SeqStands s u := fun i => (k i).trans (h i)

theorem setFn (s : State) {fn : Nat} {f : Fn} (h : f.seq = (s.fn fn).seq) : SeqStands s (s.setFn fn f) := fun k => by
  by_cases hk : k = fn
  · subst hk
    by_cases hlt : k < 34
    · rw [State.fn_setFn_self _ _ _ hlt, h]
    · rw [State.setFn, if_neg hlt]
  · rw [State.fn_setFn_ne _ _ _ _ hk]

theorem vector (s : State) (fn v : Nat) : SeqStands s (s.vector fn v) := fun k => (congrArg Fn.seq (State.fn_vector s fn v k) :)

theorem announce (s : State) (fn : Nat) (r : BookRec) : SeqStands s (s.announce fn r) := by
  unfold State.announce
  split
  · exact vector _ _ _
  · exact of_fns rfl

theorem bookPut (s : State) (fn : Nat) (r : BookRec) : SeqStands s (s.bookPut fn r) := by
  unfold State.bookPut
  extract_lets f k base s1 irqn due s2 s3
  have h3 : SeqStands s s3 := (setFn s1 rfl : SeqStands s1 s2).trans (of_fns (State.count_fns _ _ _ _))
  split
  · exact h3.trans (vector _ _ _)
  · exact h3

theorem bookLost (s : State) (fn : Nat) (r : BookRec) : SeqStands s (s.bookLost fn r) := setFn s rfl

theorem bookWait (s : State) (fn : Nat) (r : BookRec) : SeqStands s (s.bookWait fn r) := by
  unfold State.bookWait
  split
  · exact of_fns rfl
  · split
    · exact bookLost _ _ _
    · split
      · exact bookLost { s with err := _ } _ _
      · exact bookLost _ _ _

end SeqStands

/-- A record generated for a function's book, when it is on, takes the next sequence number. -/
theorem State.seq_bookGen {s : State} {fn : Nat} (hfn : fn < 34) (r : BookRec) :
    ((s.bookGen fn r).fn fn).seq = if (s.fn fn).bookOn then (s.fn fn).seq + 1 else (s.fn fn).seq := by
  unfold State.bookGen
  extract_lets f r1 s1
  have h1 : (s1.fn fn).seq = (s.fn fn).seq + 1 := congrArg Fn.seq (State.fn_setFn_self _ _ _ hfn)
  clear_value r1 s1
  by_cases hon : (s.fn fn).bookOn = true
  · rw [if_neg (by simp [f, hon]), if_pos hon]
    split
    · exact (((SeqStands.bookPut s1 fn r1).trans (SeqStands.announce _ fn r1)) fn).trans h1
    · exact (((SeqStands.bookWait s1 fn r1).trans (SeqStands.announce _ fn r1)) fn).trans h1
  · rw [if_pos (by simp [f, hon]), if_neg hon]
    exact SeqStands.announce s fn r fn

/-- The records of a crash log, with the one of the frame summary, generated for a book. -/
def State.deliver (s : State) (fn : Nat) (q : List ErrRec) : State := q.foldl (fun (s : State) r => s.bookGen fn r.crashed.book) s

theorem State.seq_deliver_le {fn : Nat} (hfn : fn < 34) (q : List ErrRec) (s : State) : (s.fn fn).seq ≤ ((s.deliver fn q).fn fn).seq :=
  List.foldlRecOn (motive := fun t : State => (s.fn fn).seq ≤ (t.fn fn).seq) _ _ le_rfl fun t ht r _ => by
    rw [State.seq_bookGen hfn]
    split <;> omega

/-- A crash log with a record raises the sequence number of a book that is on. -/
theorem State.seq_deliver_lt {fn : Nat} (hfn : fn < 34) {s : State} (hon : (s.fn fn).bookOn = true) {q : List ErrRec} (hq : q ≠ []) :
    (s.fn fn).seq < ((s.deliver fn q).fn fn).seq := by
  cases q with
  | nil => exact absurd rfl hq
  | cons r q =>
    have hfirst := State.seq_bookGen (s := s) hfn r.crashed.book
    rw [if_pos hon] at hfirst
    calc (s.fn fn).seq < ((s.bookGen fn r.crashed.book).fn fn).seq := by omega
      _ ≤ _ := State.seq_deliver_le hfn q _

/-! ## The commands -/

/-- Recovery ends with a good image in slot A, and stays where neither slot holds one. -/
theorem jtagFirmwareLoad_recovers (image : FwImage) {s : State} :
    (s.flash.active = 0 → image.good = true → s.otp.min ≤ image.svn →
      (s.loadSlotA image).verifyFw = (s.loadSlotA image).startFw 0 image) ∧
    (s.flash.active = 0 → image.good = false ∨ image.svn < s.otp.min → s.slotOk 1 = none → (s.loadSlotA image).verifyFw =
      { s.loadSlotA image with mc := { s.mc with recovery := true } }) ∧
    (s.flash.active = 1 → s.slotOk 1 = none → image.good = true → s.otp.min ≤ image.svn →
      (s.loadSlotA image).verifyFw = ((s.loadSlotA image).startFw 0 image).set1 MON_SVN_FALLBK) := by
  refine ⟨fun ha hgood hmin => ?_, fun ha hbad hother => ?_, fun ha hown hgood hmin => ?_⟩
  · exact State.verifyFw_own ha (State.slotOk_eq_some rfl hgood hmin)
  · exact State.verifyFw_neither ha (State.slotOk_eq_none rfl hbad) ((s.slotOk_loadSlotA_one image).trans hother)
  · exact State.verifyFw_other ha rfl ((s.slotOk_loadSlotA_one image).trans hown) (State.slotOk_eq_some rfl hgood hmin)

/-- What a started image shows. -/
theorem State.startFw_shows (s : State) (x : FwImage) (hmin : s.otp.min ≤ x.svn) :
    (s.startFw 0 x).otp.min = x.svn ∧ (s.startFw 0 x).rd MON_SVN_SLOT = 0 :=
  ⟨Nat.max_eq_right hmin, (State.rd_of_hub (t := s.startFw 0 x) (s := ((s.wr MON_FW_VER x.version).wr MON_SVN_SLOT 0).wr MON_SVN_MIN
      (max s.otp.min x.svn)) rfl _ _ _).trans
    ((State.rd_wr_apart _ _ _ _ _ _ _ _ (by decide)).trans (State.rd_wr_self _ _ _ _ _ (by decide)))⟩

/-- MAILBOX_REQUEST answers with the status of a state that it leaves. -/
theorem exec_mailboxRequest_busy (req : Option (List Byte)) (ok : Bool) (image : FwImage) (flashOk : Bool) {s : State}
    (h : s.ready = false ∨ s.bit MON_MBX_CTL_BUSY = true ∨ s.plat.load ≠ none) :
    exec (.mailboxRequest req ok image flashOk) s = .next (s.mailboxDone 8) :=
  if_pos (by
    obtain h | h | h := h
    · simp [h]
    · simp [h]
    · simp [Option.isSome_iff_ne_none.mpr h])

section Mailbox
variable {s : State} {bs : List Byte} {ok : Bool} {image : FwImage} (hready : s.ready = true) (hbusy : s.bit MON_MBX_CTL_BUSY = false)
  (hplat : s.plat.load = none)
include hready hbusy hplat

theorem exec_mailboxRequest_open (req : Option (List Byte)) (flashOk : Bool) : exec (.mailboxRequest req ok image flashOk) s =
    match req with
    | none => .next (s.mailboxDone 1)
    | some bs => match s.mailboxBad bs ok image with
      | some st => .next (s.mailboxDone st)
      | none => if flashOk then .next ((s.mailboxAct bs image).mailboxDone 0)
        else .next (((s.set1 MON_STAT_WFAIL).raise { cls := 2, subtype := 0xD5, level := 3 }).mailboxDone 6) :=
  (if_neg (by simp [hready, hbusy, hplat])).trans (by rfl)

theorem exec_mailboxRequest_refused (flashOk : Bool) {c : Nat} (h : s.mailboxBad bs ok image = some c) :
    exec (.mailboxRequest (some bs) ok image flashOk) s = .next (s.mailboxDone c) := by
  rw [exec_mailboxRequest_open hready hbusy hplat]
  dsimp only
  rw [h]

theorem exec_mailboxRequest_acts (h : s.mailboxBad bs ok image = none) :
    exec (.mailboxRequest (some bs) ok image true) s = .next ((s.mailboxAct bs image).mailboxDone 0) := by
  rw [exec_mailboxRequest_open hready hbusy hplat]
  dsimp only
  rw [h]
  rfl

theorem exec_mailboxRequest_flashFails (h : s.mailboxBad bs ok image = none) : ∃ x : State,
    exec (.mailboxRequest (some bs) ok image false) s = .next (x.mailboxDone 6) ∧ x.bit MON_STAT_WFAIL = true ∧ x.otp = s.otp ∧
      x.flash = s.flash ∧ x.regions = s.regions := by
  obtain ⟨hflash, hotp, -, hregions⟩ := (s.set1 MON_STAT_WFAIL).raise_stands { cls := 2, subtype := 0xD5, level := 3 }
  refine ⟨(s.set1 MON_STAT_WFAIL).raise { cls := 2, subtype := 0xD5, level := 3 }, ?_,
    (State.bit_raise (by decide) _ _).trans (State.bit_wr_self _ _ _ _ _ (by decide)), hotp, hflash, hregions⟩
  rw [exec_mailboxRequest_open hready hbusy hplat]
  dsimp only
  rw [h]
  rfl

end Mailbox

/-- Types 1 to 3 of an accepted request. -/
theorem State.mailboxAct_types (s : State) (bs : List Byte) (image : FwImage) :
    (numAt bs 0 2 = 1 → (s.mailboxAct bs image).flash.next = some (1 - s.flash.active) ∧
      (s.mailboxAct bs image).flash.active = s.flash.active ∧ (s.mailboxAct bs image).otp = s.otp) ∧
    (∀ i, numAt bs 0 2 = 2 → s.otp.slots.findIdx? (fun x => x.isNone) = some i →
      (s.mailboxAct bs image).otp.slots = s.otp.slots.set i (some (beNat ((bs.drop 16).take 48)))) ∧
    (numAt bs 0 2 = 3 → (s.mailboxAct bs image).otp.revoke = s.otp.revoke ||| 2 ^ (numAt bs 16 1 % 8)) := by
  unfold State.mailboxAct
  extract_lets fl s1 i imgs j ot s2 r s3
  refine ⟨fun h => ?_, fun k h hk => ?_, fun h => ?_⟩
  · rw [h]
    exact ⟨rfl, rfl, rfl⟩
  · rw [h]
    exact congrArg (fun o => s.otp.slots.set (Option.getD o 0) (some (beNat ((bs.drop 16).take 48)))) hk
  · rw [h]
    rfl

/-- The state once a book holds the crash log and its frame summary. -/
def State.delivered (s : State) (fn : Nat) : State :=
  let t := s.deliver fn s.mc.crash
  let t := match t.mc.crashSum with | some b => t.bookGen fn b | none => t
  { t with mc := { t.mc with crash := [], crashSum := none, crashPend := false } }

theorem State.seq_delivered {fn : Nat} (hfn : fn < 34) (s : State) :
    ((s.deliver fn s.mc.crash).fn fn).seq ≤ ((s.delivered fn).fn fn).seq := by
  unfold State.delivered
  extract_lets t u
  have hu : (t.fn fn).seq ≤ (u.fn fn).seq := by
    unfold u
    split
    · rw [State.seq_bookGen hfn]
      split <;> omega
    · exact le_rfl
  exact hu

/-- CRASH_LOG_DELIVERY with a crash log and a book for it. -/
theorem exec_crashLogDelivery_writes {s : State} {fn : Nat} (hfn : pfs.find? (fun k => (s.fn k).bookOn) = some fn)
    (hready : s.ready = true) (hpend : s.mc.crashPend = true) :
    exec .crashLogDelivery s = .next (((s.delivered fn).wr CRASH_NREC s.mc.crash.length).set1 CRASH_VALID) := by
  show execCrashLogDelivery s = _
  unfold execCrashLogDelivery
  rw [hfn]
  dsimp only
  rw [if_pos (by simp [hready, hpend])]
  rfl

/-- The clauses of O59 about a mailbox request. -/
theorem mailboxRequest_answers (req : Option (List Byte)) (ok : Bool) (image : FwImage) (flashOk : Bool) (s : State) :
    ∃ t, exec (.mailboxRequest req ok image flashOk) s = .next t ∧ t.bit MON_MBX_CTL_DONE = true ∧ t.regions = s.regions ∧
      (s.ready = false ∨ s.bit MON_MBX_CTL_BUSY = true ∨ s.plat.load ≠ none → t.rd MON_MBX_CTL_STATUS = 8 ∧ t.otp = s.otp ∧
        t.flash = s.flash) ∧
      (s.ready = true → s.bit MON_MBX_CTL_BUSY = false → s.plat.load = none →
        (req = none → t.rd MON_MBX_CTL_STATUS = 1 ∧ t.otp = s.otp ∧ t.flash = s.flash) ∧
        (∀ bs, req = some bs →
          (∀ c, s.mailboxBad bs ok image = some c → t.rd MON_MBX_CTL_STATUS = c ∧ t.otp = s.otp ∧ t.flash = s.flash) ∧
          (s.mailboxBad bs ok image = none → flashOk = false → t.rd MON_MBX_CTL_STATUS = 6 ∧ t.bit MON_STAT_WFAIL = true ∧
            t.otp = s.otp ∧ t.flash = s.flash) ∧
          (s.mailboxBad bs ok image = none → flashOk = true → t.rd MON_MBX_CTL_STATUS = 0 ∧ t.flash.count = numAt bs 4 4 ∧
            (numAt bs 0 2 = 1 → t.flash.next = some (1 - s.flash.active) ∧ t.flash.active = s.flash.active ∧ t.otp = s.otp) ∧
            (numAt bs 0 2 = 2 → ∃ i, s.otp.slots.findIdx? (fun x => x.isNone) = some i ∧
              t.otp.slots = s.otp.slots.set i (some (beNat ((bs.drop 16).take 48)))) ∧
            (numAt bs 0 2 = 3 → t.otp.revoke = s.otp.revoke ||| 2 ^ (numAt bs 16 1 % 8)) ∧
            (numAt bs 0 2 = 4 → t.otp = s.otp ∧ t.mc.kept = [] ∧
              (s.flash.log.length < 3000 → t.flash.log = s.flash.log ++ [.clear (numAt bs 4 4)]))))) := by
  by_cases hshut : s.ready = false ∨ s.bit MON_MBX_CTL_BUSY = true ∨ s.plat.load ≠ none
  · refine ⟨_, exec_mailboxRequest_busy req ok image flashOk hshut, State.mailboxDone_done _ _, rfl,
      fun _ => ⟨State.mailboxDone_status _ _, rfl, rfl⟩, fun hready hbusy hplat => ?_⟩
    obtain h | h | h := hshut
    · exact absurd (hready.symm.trans h) (by decide)
    · exact absurd (hbusy.symm.trans h) (by decide)
    · exact absurd hplat h
  obtain ⟨hready, hbusy, hplat⟩ : s.ready = true ∧ s.bit MON_MBX_CTL_BUSY = false ∧ s.plat.load = none := by simpa using hshut
  cases req with
  | none =>
    exact ⟨_, exec_mailboxRequest_open hready hbusy hplat none flashOk, State.mailboxDone_done _ _, rfl, fun h => absurd h hshut,
      fun _ _ _ => ⟨fun _ => ⟨State.mailboxDone_status _ _, rfl, rfl⟩, fun _ h => nomatch h⟩⟩
  | some bs =>
    cases hbad : s.mailboxBad bs ok image with
    | some c =>
      have hc : c % 256 = c := Nat.mod_eq_of_lt (by have := State.mailboxBad_le hbad; omega)
      refine ⟨_, exec_mailboxRequest_refused hready hbusy hplat flashOk hbad, State.mailboxDone_done _ _, rfl,
        fun h => absurd h hshut, fun _ _ _ => ⟨fun h => (nomatch h), ?_⟩⟩
      rintro _ ⟨⟩
      rw [hbad]
      refine ⟨?_, fun h => (nomatch h), fun h => nomatch h⟩
      rintro _ ⟨⟩
      exact ⟨(State.mailboxDone_status _ _).trans hc, rfl, rfl⟩
    | none =>
      cases flashOk with
      | false =>
        obtain ⟨x, hrun, hfail, hotp, hflash, hregions⟩ := exec_mailboxRequest_flashFails hready hbusy hplat hbad
        refine ⟨_, hrun, State.mailboxDone_done _ _, hregions, fun h => absurd h hshut, fun _ _ _ => ⟨fun h => (nomatch h), ?_⟩⟩
        rintro _ ⟨⟩
        rw [hbad]
        refine ⟨fun _ h => (nomatch h), fun _ _ => ⟨State.mailboxDone_status _ _, ?_, hotp, hflash⟩, fun _ h => nomatch h⟩
        exact (State.bit_wr_apart _ _ _ _ _ _ _ _ (by decide)).trans
          ((State.bit_wr_apart _ _ _ _ _ _ _ _ (by decide)).trans hfail)
      | true =>
        have hrun := exec_mailboxRequest_acts hready hbusy hplat hbad
        obtain ⟨hcount, hregions⟩ := s.mailboxAct_stands bs image
        obtain ⟨hload, hkey, hrevoke⟩ := s.mailboxAct_types bs image
        have hclear := State.mailboxAct_clear (s := s) (bs := bs) image
        generalize s.mailboxAct bs image = x at *
        refine ⟨_, hrun, State.mailboxDone_done _ _, hregions, fun h => absurd h hshut, fun _ _ _ => ⟨fun h => (nomatch h), ?_⟩⟩
        rintro _ ⟨⟩
        rw [hbad]
        refine ⟨fun _ h => (nomatch h), fun _ h => (nomatch h), fun _ _ => ⟨State.mailboxDone_status _ _, hcount, hload, fun hty => ?_,
          hrevoke, hclear⟩⟩
        have hempty : s.otp.slots.any (fun x => x.isNone) = true :=
          List.any_eq_true.mpr ⟨none, State.mailboxBad_keySlot hbad hty, rfl⟩
        obtain ⟨i, hi⟩ := Option.isSome_iff_exists.mp (List.findIdx?_isSome.trans hempty)
        exact ⟨i, hi, hkey i hty hi⟩

/-- Without a crash log, a book for it or a ready device nothing is delivered. -/
theorem exec_crashLogDelivery_none {s : State}
    (h : s.ready = false ∨ s.mc.crashPend = false ∨ pfs.find? (fun k => (s.fn k).bookOn) = none) :
    exec .crashLogDelivery s = .next s := by
  show execCrashLogDelivery s = _
  unfold execCrashLogDelivery
  split
  · rfl
  · next fn hfn =>
    rw [if_neg]
    obtain h | h | h := h
    · simp [h]
    · simp [h]
    · exact absurd (hfn.symm.trans h) (by simp)

/-- Settles O59. -/
theorem firmwareMailboxAndCrashLog : Obligations.FirmwareMailboxAndCrashLog := by
  unfold Obligations.FirmwareMailboxAndCrashLog
  refine ⟨fun image s => ⟨fun h => congrArg Host.Outcome.next (if_neg (by simp [h])), fun h => ?_⟩,
    mailboxRequest_answers, fun s => ⟨fun fn hfn hready hpend => ?_, exec_crashLogDelivery_none⟩⟩
  · obtain ⟨hflash, hslots, hregions⟩ := (s.loadSlotA image).verifyFw_stands
    obtain ⟨hown, hneither, hother⟩ := jtagFirmwareLoad_recovers image (s := s)
    refine ⟨_, exec_jtagFirmwareLoad image h, hflash, hslots, hregions, fun ha hgood hmin => ?_, fun ha hbad hone => ?_,
      fun ha hone hgood hmin => ?_⟩
    · obtain ⟨hsvn, hslot⟩ := (s.loadSlotA image).startFw_shows image hmin
      rw [hown ha hgood hmin]
      exact ⟨rfl, rfl, hsvn, hslot, rfl⟩
    · rw [hneither ha hbad hone]
      exact ⟨rfl, rfl⟩
    · rw [hother ha hone hgood hmin]
      exact ⟨rfl, rfl, State.bit_wr_self _ _ _ _ _ (by decide)⟩
  · have hlt : fn < 34 := by
      have hmem := List.mem_of_find?_eq_some hfn
      simp [pfs] at hmem
      omega
    exact ⟨_, exec_crashLogDelivery_writes hfn hready hpend, rfl, rfl, State.bit_wr_self _ _ _ _ _ (by decide),
      (State.rd_wr_apart _ _ _ _ _ _ _ _ (by decide)).trans (State.rd_wr_self _ _ _ _ _ (by decide)),
      fun hne => (State.seq_deliver_lt hlt (List.find?_some (p := fun k => (s.fn k).bookOn) hfn) hne).trans_le (State.seq_delivered hlt s)⟩

end Sys2Proof.Machine

/-!
PROOFS. Bring-up (17_bring_up_monument.md R452 to R460): what the parts of a stage's end leave, of the regions and of the hub's registers.
-/
namespace Sys2Proof.Machine

/-! ## Folds over units -/

/-- A fold over units whose step changes its own unit alone, under an invariant `Q` of the whole state. -/
theorem foldl_each {σ α : Type} (proj : σ → Nat → α) (f : σ → Nat → σ) (Q : σ → Prop) (P : Nat → α → α → Prop) {l : List Nat}
    (hl : l.Nodup) (hQ : ∀ s n, Q s → n ∈ l → Q (f s n)) (hother : ∀ s n m, n ∈ l → m ≠ n → proj (f s n) m = proj s m)
    (hself : ∀ s n, Q s → n ∈ l → P n (proj s n) (proj (f s n) n)) {s : σ} (hs : Q s) {n : Nat} (hn : n ∈ l) :
    P n (proj s n) (proj (l.foldl f s) n) := by
  induction l generalizing s with
  | nil => exact absurd hn List.not_mem_nil
  | cons a l ih =>
    obtain ⟨ha, hl⟩ := List.nodup_cons.mp hl
    rw [List.foldl_cons]
    by_cases hna : n = a
    · subst hna
      have hrest : proj (l.foldl f (f s n)) n = proj (f s n) n :=
        List.foldlRecOn (motive := fun t => proj t n = proj (f s n) n) _ _ rfl fun t ht m hm =>
          (hother t m n (List.mem_cons_of_mem _ hm) (fun h => ha (h ▸ hm))).trans ht
      rw [hrest]
      exact hself s n hs hn
    · have hnl : n ∈ l := List.mem_of_ne_of_mem hna hn
      have hstep := ih hl (fun t m ht hm => hQ t m ht (List.mem_cons_of_mem _ hm))
        (fun t m k hm hk => hother t m k (List.mem_cons_of_mem _ hm) hk)
        (fun t m ht hm => hself t m ht (List.mem_cons_of_mem _ hm)) (hQ s a hs List.mem_cons_self) hnl
      rwa [hother s a n List.mem_cons_self hna] at hstep

/-! ## Regions that are lost -/

/-- From `s` to `t` the same regions are lost. -/
def LossStands (s t : State) : Prop := ∀ n, (t.region n).lost = (s.region n).lost

namespace LossStands

theorem refl (s : State) : LossStands s s := fun _ => rfl

theorem trans {s t u : State} (h : LossStands s t) (k : LossStands t u) : LossStands s u := fun n => (k n).trans (h n)

theorem of_regions {s t : State} (h : t.regions = s.regions) : LossStands s t := fun n =>
  congrArg Region.lost (State.region_of_regions h n)

theorem noted {s t : State} (h : Noted s t) : LossStands s t := of_regions (by rw [h])

theorem setRegion (s : State) {n : Nat} {g : Region} (h : g.lost = (s.region n).lost) : LossStands s (s.setRegion n g) := fun m => by
  by_cases hm : m = n
  · subst hm
    by_cases hlt : m < 24
    · rw [State.region_setRegion_self _ _ _ hlt, h]
    · rw [State.setRegion, if_neg hlt]
  · rw [State.region_setRegion_ne _ _ _ _ hm]

theorem onRegion (s : State) (n cyc : Nat) {f : REnv → Region → Region} (h : ∀ e g, (f e g).lost = g.lost) :
    LossStands s (s.onRegion n cyc f) := fun m => by
  rw [State.onRegion, (State.putRegion_aside _ _ _).region]
  exact setRegion s (by exact h _ _) m

theorem foldl {α : Type} {z s : State} {l : List α} {f : State → α → State} (hf : ∀ x a, LossStands x (f x a)) (h : LossStands z s) :
    LossStands z (l.foldl f s) :=
  List.foldlRecOn (motive := LossStands z) _ _ h fun _ hx _ _ => hx.trans (hf _ _)

end LossStands

/-- From `s` to `t` no lost region comes back. -/
def LossGrows (s t : State) : Prop := ∀ n, (s.region n).lost = true → (t.region n).lost = true

namespace LossGrows

theorem refl (s : State) : LossGrows s s := fun _ h => h

theorem trans {s t u : State} (h : LossGrows s t) (k : LossGrows t u) : LossGrows s u := fun n hn => k n (h n hn)

theorem foldl {α : Type} {z s : State} {l : List α} {f : State → α → State} (hf : ∀ x a, LossGrows x (f x a)) (h : LossGrows z s) :
    LossGrows z (l.foldl f s) :=
  List.foldlRecOn (motive := LossGrows z) _ _ h fun _ hx _ _ => hx.trans (hf _ _)

end LossGrows

theorem LossStands.grows {s t : State} (h : LossStands s t) : LossGrows s t := fun n hn => (h n).trans hn

/-! ## A region's power steps -/

theorem Region.lost_raise (g : Region) (e : REnv) (r : ErrRec) : (g.raise e r).lost = g.lost :=
  (Reports.raise (W := [0x828]) (by decide) (.refl _ g)).lost

theorem Region.lost_planFence (g : Region) (b cause : Nat) : (g.planFence b cause).lost = g.lost := by
  unfold Region.planFence
  split <;> rfl

theorem Region.lost_goDark (g : Region) (e : REnv) (k ph : Nat) : (g.goDark e k ph).lost = g.lost :=
  List.foldlRecOn (motive := fun t : Region => t.lost = g.lost) _ _ (Region.lost_raise _ _ _) fun _ ht _ _ =>
    (Region.lost_planFence _ _ _).trans ht

theorem Region.lost_softEnd (g : Region) (e : REnv) (k ok : Nat) : (g.softEnd e k ok).lost = g.lost := by
  unfold Region.softEnd
  dsimp only
  split
  · exact Region.lost_goDark _ _ _ _
  · split <;> rfl

/-! ## The steps of a stage's end -/

theorem State.stageRec_noted (s : State) (cls sub n pblk specific : Nat) : Noted s (s.stageRec cls sub n pblk specific) :=
  Noted.raise (.refl s)

theorem State.region_stageRec (s : State) (cls sub n pblk specific m : Nat) :
    (s.stageRec cls sub n pblk specific).region m = s.region m := (State.stageRec_noted s cls sub n pblk specific).region m

theorem State.region_lostAtStart_self (s : State) {n : Nat} (hn : n < 24) :
    (s.lostAtStart n).region n = { s.region n with lost := true, stopped := true } :=
  (State.region_of_regions (State.wr_regions _ _ _ _ _) n).trans (State.region_setRegion_self _ _ _ hn)

theorem State.region_lostAtStart_ne (s : State) {n m : Nat} (h : m ≠ n) : (s.lostAtStart n).region m = s.region m :=
  (State.region_of_regions (State.wr_regions _ _ _ _ _) m).trans (State.region_setRegion_ne _ _ _ _ h)

theorem LossGrows.lostAtStart (s : State) (n : Nat) : LossGrows s (s.lostAtStart n) := fun m hm => by
  by_cases h : m = n
  · subst h
    by_cases hlt : m < 24
    · rw [State.region_lostAtStart_self s hlt]
    · rw [State.lostAtStart, State.region_of_regions (State.wr_regions _ _ _ _ _), State.setRegion, if_neg hlt]
      exact hm
  · rw [State.region_lostAtStart_ne s h]
    exact hm

/-- One region of a list that fails. -/
def State.loseOne (cls sub : Nat) (s : State) (n : Nat) : State :=
  if n < 24 ∧ (s.region n).lost = false then (s.lostAtStart n).stageRec cls sub n 0xFFFF 0 else s

theorem State.loseAt_eq (s : State) (cls sub : Nat) (ns : List Nat) : s.loseAt cls sub ns = ns.foldl (State.loseOne cls sub) s := rfl

theorem LossGrows.loseOne (cls sub : Nat) (s : State) (n : Nat) : LossGrows s (s.loseOne cls sub n) := by
  unfold State.loseOne
  split
  · exact (LossGrows.lostAtStart s n).trans (LossStands.noted (State.stageRec_noted _ _ _ _ _ _)).grows
  · exact .refl s

theorem LossGrows.loseAt (s : State) (cls sub : Nat) (ns : List Nat) : LossGrows s (s.loseAt cls sub ns) :=
  LossGrows.foldl (LossGrows.loseOne cls sub) (.refl s)

/-- A region that fails is lost, and the others stand. -/
theorem State.region_loseOne (cls sub : Nat) (s : State) {n m : Nat} (hm : m < 24) : (s.loseOne cls sub n).region m =
    if m = n ∧ (s.region m).lost = false then { s.region m with lost := true, stopped := true } else s.region m := by
  unfold State.loseOne
  by_cases h : m = n
  · subst h
    by_cases hlost : (s.region m).lost = false
    · rw [if_pos ⟨hm, hlost⟩, if_pos ⟨rfl, hlost⟩, State.region_stageRec, State.region_lostAtStart_self s hm]
    · rw [if_neg (fun h => hlost h.2), if_neg (fun h => hlost h.2)]
  · rw [if_neg (c := m = n ∧ _) (fun h' => h h'.1)]
    split
    · rw [State.region_stageRec, State.region_lostAtStart_ne s h]
    · rfl

/-- Every region of the list is lost. -/
theorem State.lost_loseAt (s : State) (cls sub : Nat) {ns : List Nat} {n : Nat} (hn : n < 24) (hmem : n ∈ ns) :
    ((s.loseAt cls sub ns).region n).lost = true := by
  rw [State.loseAt_eq]
  induction ns generalizing s with
  | nil => exact absurd hmem List.not_mem_nil
  | cons a ns ih =>
    rw [List.foldl_cons]
    by_cases h : n = a
    · subst h
      refine LossGrows.foldl (LossGrows.loseOne cls sub) (.refl _) n ?_
      rw [State.region_loseOne cls sub s hn]
      split
      · rfl
      · next h => simpa using h
    · exact ih _ (List.mem_of_ne_of_mem h hmem)

/-- Bring-up halts exactly when every region is lost. -/
theorem State.anyLeft_stays {s : State} (h : ∃ n, n < 24 ∧ (s.region n).lost = false) : s.anyLeft = s := by
  obtain ⟨n, hn, hlost⟩ := h
  exact if_neg (by simpa using ⟨n, hn, hlost⟩)

theorem State.anyLeft_halts {s : State} (h : ∀ n, n < 24 → (s.region n).lost = true) : s.anyLeft = s.halt 4 :=
  if_pos (by simpa using h)

@[simp] theorem State.anyLeft_regions (s : State) : s.anyLeft.regions = s.regions := by unfold State.anyLeft; split <;> rfl
@[simp] theorem State.anyLeft_blocks (s : State) : s.anyLeft.blocks = s.blocks := by unfold State.anyLeft; split <;> rfl
@[simp] theorem State.anyLeft_frame (s : State) : s.anyLeft.frame = s.frame := by unfold State.anyLeft; split <;> rfl
@[simp] theorem State.anyLeft_mc (s : State) : s.anyLeft.mc = s.mc := by unfold State.anyLeft; split <;> rfl

/-- What a halt shows. -/
theorem State.halt_shows (s : State) (code : Nat) :
    (s.halt code).rd BRUP_STAT_STAGE = 7 ∧ (s.halt code).bit BRUP_STAT_HALT = true ∧
    (s.halt code).rd BRUP_STAT_CODE = code % 2 ^ (BRUP_STAT_CODE.hi + 1 - BRUP_STAT_CODE.lo) ∧
    (s.halt code).bit BRUP_STAT_READY = s.bit BRUP_STAT_READY := by
  refine ⟨?_, ?_, ?_, ?_⟩
  · exact (State.rd_wr_apart _ _ _ _ _ _ _ _ (by decide)).trans
      ((State.rd_wr_apart _ _ _ _ _ _ _ _ (by decide)).trans (State.rd_wr_self _ _ _ _ _ (by decide)))
  · exact (State.bit_wr_apart _ _ _ _ _ _ _ _ (by decide)).trans (State.bit_wr_self _ _ _ _ _ (by decide))
  · exact State.rd_wr_self _ _ _ _ _ (by decide)
  · exact (State.bit_wr_apart _ _ _ _ _ _ _ _ (by decide)).trans
      ((State.bit_wr_apart _ _ _ _ _ _ _ _ (by decide)).trans (State.bit_wr_apart _ _ _ _ _ _ _ _ (by decide)))

/-- The end of stages 2 and 3: the next stage, or a halt when every region is lost. -/
theorem State.nextStage_shows (s : State) {k : Nat} (hk : k < 7) :
    ((∃ n, n < 24 ∧ ((s.wr BRUP_STAT_STAGE k).anyLeft.region n).lost = false) → (s.wr BRUP_STAT_STAGE k).anyLeft.rd BRUP_STAT_STAGE = k) ∧
    ((∀ n, n < 24 → ((s.wr BRUP_STAT_STAGE k).anyLeft.region n).lost = true) →
      (s.wr BRUP_STAT_STAGE k).anyLeft.rd BRUP_STAT_STAGE = 7 ∧ (s.wr BRUP_STAT_STAGE k).anyLeft.rd BRUP_STAT_CODE = 4) := by
  simp only [State.region_of_regions (State.anyLeft_regions _)]
  refine ⟨fun h => ?_, fun h => ?_⟩
  · rw [State.anyLeft_stays h, State.rd_wr_self _ _ _ _ _ (by decide)]
    exact Nat.mod_eq_of_lt (Nat.lt_succ_of_lt hk)
  · obtain ⟨hstage, -, hcode, -⟩ := (s.wr BRUP_STAT_STAGE k).halt_shows 4
    rw [State.anyLeft_halts h]
    exact ⟨hstage, hcode⟩

end Sys2Proof.Machine

/-!
PROOFS. Power and the three resets (17_bring_up_monument.md R452, R469, 19_contexts_recovery.md R518 to R522): the state that a cold start
leaves.
-/
namespace Sys2Proof.Machine

/-! ## What a cold start writes -/

/-- From `s` to `t` only the management island's part changes: registers, power state, the MC's own state and MIN. -/
def MgmtOnly (s t : State) : Prop := t = { s with hub := t.hub, pw := t.pw, mc := t.mc, otp := t.otp }

namespace MgmtOnly

theorem refl (s : State) : MgmtOnly s s := rfl

theorem mk_ {z s : State} {hub pw mc otp} (h : MgmtOnly z s) : MgmtOnly z { s with hub := hub, pw := pw, mc := mc, otp := otp } := by
  unfold MgmtOnly at h ⊢
  rw [h]

theorem wr {z s : State} {f : Field} {v i j : Nat} (h : MgmtOnly z s) : MgmtOnly z (s.wr f v i j) := h.mk_

theorem foldl {α : Type} {z s : State} {l : List α} {f : State → α → State} (hf : ∀ x a, MgmtOnly z x → MgmtOnly z (f x a))
    (h : MgmtOnly z s) : MgmtOnly z (l.foldl f s) :=
  List.foldlRecOn (motive := MgmtOnly z) _ _ h fun x hx a _ => hf x a hx

theorem loadFuses {z s : State} (h : MgmtOnly z s) : MgmtOnly z s.loadFuses := by
  unfold State.loadFuses
  extract_lets f s1 s2 prog s3 s4 s5 s6 hrs mc pw s7
  have h5 : MgmtOnly z s5 := h.wr.wr.wr.wr.wr.wr.wr.wr.wr.wr.wr.wr.wr
  have h6 : MgmtOnly z s6 := foldl (fun _ _ hx => hx.wr.wr) h5
  exact wr (wr h6.mk_)

theorem startFw {z s : State} {i : Nat} {x : FwImage} (h : MgmtOnly z s) : MgmtOnly z (s.startFw i x) := mk_ h.wr.wr.wr

theorem verifyFw {z s : State} (h : MgmtOnly z s) : MgmtOnly z s.verifyFw := by
  unfold State.verifyFw
  dsimp only
  split
  · exact h.startFw
  · split
    · exact h.startFw.wr
    · exact h.mk_

variable {s t : State} (h : MgmtOnly s t)
include h

theorem regions : t.regions = s.regions := by rw [h]
theorem blocks : t.blocks = s.blocks := by rw [h]
theorem frame : t.frame = s.frame := by rw [h]
theorem fuse : t.fuse = s.fuse := by rw [h]
theorem flash : t.flash = s.flash := by rw [h]

end MgmtOnly

/-- Registers do not show the MC's own and the power state. -/
theorem State.rd_mgmt (s : State) (mc : McSt) (pw : PwSt) (f : Field) (i j : Nat := 0) :
    ({ s with mc := mc, pw := pw } : State).rd f i j = s.rd f i j := rfl

/-- The bits that a cold start sets before the fuses are loaded. -/
def coldFields : List Field := [PWR_IN_STAT_AUXOK, PWR_IN_STAT_MAINOK, BRUP_STAT_READY, ESC_STAT_OOS]

/-- The fields that the load of the fuses and the boot ROM write. -/
def fuseFields : List Field := [MON_FUSE_GRADE, MON_FUSE_TDP, MON_FUSE_BOOSTM, MON_FUSE_BASEM, MON_SER_LO_SER, MON_SER_HI_SER, MON_SVN_MIN,
  MON_KEYS_PROG, MON_KEYS_REVOKED, MON_ID_CSTEP, MON_ID_HSTEP, GRD_FLOOR_FLOOR, PCAP_CAP, MON_STAT_FACTOK, MON_STAT_NFIELD, MON_FW_VER,
  MON_SVN_SLOT, MON_SVN_FALLBK]

theorem fuseFields_apart : ∀ g ∈ fuseFields, ∀ f ∈ BRUP_STAT_STAGE :: coldFields, g.hubApart f 0 0 0 0 = true := by decide

theorem stepFields_apart : ∀ a ∈ List.range 8, ∀ f ∈ coldFields,
    CLK_STEP_MHZ.hubApart f a 0 0 0 = true ∧ CLK_STEP_MULT.hubApart f a 0 0 0 = true := by decide

section Fuses
variable {f : Field}

theorem State.rd_wr_fuse (hf : f ∈ BRUP_STAT_STAGE :: coldFields) {g : Field} (hg : g ∈ fuseFields) (s : State) (v : Nat) :
    (s.wr g v).rd f = s.rd f := State.rd_wr_apart _ _ _ _ _ _ _ _ (fuseFields_apart g hg f hf)

theorem State.rd_loadFuses (hf : f ∈ coldFields) (s : State) : s.loadFuses.rd f = s.rd f := by
  have hw {g : Field} (hg : g ∈ fuseFields) (t : State) (v : Nat) : (t.wr g v).rd f = t.rd f :=
    State.rd_wr_fuse (List.mem_cons_of_mem _ hf) hg t v
  unfold State.loadFuses
  extract_lets u s1 s2 prog s3 s4 s5 s6 hrs mc pw s7
  have h5 : s5.rd f = s.rd f := by
    calc s5.rd f = s4.rd f := (hw (by decide) _ _).trans (hw (by decide) s4 _)
      _ = s3.rd f := (hw (by decide) _ _).trans (hw (by decide) s3 _)
      _ = s2.rd f := (hw (by decide) _ _).trans (hw (by decide) s2 _)
      _ = s1.rd f := (hw (by decide) _ _).trans ((hw (by decide) _ _).trans (hw (by decide) s1 _))
      _ = s.rd f := (hw (by decide) _ _).trans ((hw (by decide) _ _).trans ((hw (by decide) _ _).trans (hw (by decide) s _)))
  clear_value s5
  have h6 : s6.rd f = s5.rd f := by
    unfold s6
    refine List.foldlRecOn (motive := fun t : State => t.rd f = s5.rd f) _ _ rfl fun t ht a ha => ?_
    obtain ⟨hmhz, hmult⟩ := stepFields_apart a ha f hf
    exact (State.rd_wr_apart _ _ _ _ _ _ _ _ hmult).trans ((State.rd_wr_apart _ _ _ _ _ _ _ _ hmhz).trans ht)
  clear_value s6
  have h7 : s7.rd f = s6.rd f := State.rd_mgmt s6 _ _ f
  rw [State.showField, hw (by decide), hw (by decide), h7, h6, h5]

theorem State.rd_startFw (hf : f ∈ BRUP_STAT_STAGE :: coldFields) (s : State) (i : Nat) (x : FwImage) :
    (s.startFw i x).rd f = s.rd f :=
  (State.rd_wr_fuse hf (by decide) _ _).trans ((State.rd_wr_fuse hf (by decide) _ _).trans (State.rd_wr_fuse hf (by decide) s _))

theorem State.rd_verifyFw (hf : f ∈ BRUP_STAT_STAGE :: coldFields) (s : State) : s.verifyFw.rd f = s.rd f := by
  unfold State.verifyFw
  dsimp only
  split
  · exact State.rd_startFw hf _ _ _
  · split
    · exact (State.rd_wr_fuse hf (by decide) _ _).trans (State.rd_startFw hf _ _ _)
    · rfl

end Fuses

/-! ## The cold start -/

/-- What survives into a cold start, before its first writes. -/
def State.kept (s : State) : State :=
  { State.reset with
    pending := s.pending, fuse := s.fuse, otp := s.otp, flash := s.flash.boot, host := s.host, msgs := s.msgs, freeCtr := s.freeCtr }

theorem State.coldState_mgmt (s : State) : MgmtOnly s.kept s.coldState := by
  unfold State.coldState
  extract_lets src t0 t1
  have h1 : MgmtOnly s.kept t1 := by
    unfold t1
    exact MgmtOnly.foldl (fun _ _ hx => hx.wr) (.refl _)
  exact h1.wr.wr

theorem State.coldStart_mgmt (s : State) : MgmtOnly s.kept s.coldStart :=
  MgmtOnly.verifyFw (MgmtOnly.wr s.coldState_mgmt.loadFuses)

theorem State.bit_coldState (s : State) : s.coldState.bit PWR_IN_STAT_AUXOK = true ∧ s.coldState.bit BRUP_STAT_READY = false ∧
    s.coldState.bit ESC_STAT_OOS = false := by
  unfold State.coldState
  extract_lets src t0 t1
  have hstand {u : RegUnit} (hu : u ≠ .hub) : t1.hub.of u = t0.hub.of u := by
    unfold t1
    exact List.foldlRecOn (motive := fun t : State => t.hub.of u = t0.hub.of u) _ _ rfl fun t ht k _ => (State.hubOf_wr hu).trans ht
  have hmon : ∀ f : Field, f.unit ≠ .hub → t1.rd f = t0.rd f := fun f hu => State.rd_of_hubOf (hstand hu) _ _
  refine ⟨?_, ?_, ?_⟩
  · rw [State.bit_wr_apart _ _ _ _ _ _ _ _ (by decide)]
    exact State.bit_wr_self _ _ _ _ _ (by decide)
  · rw [State.bit_wr_apart _ _ _ _ _ _ _ _ (by decide), State.bit_wr_apart _ _ _ _ _ _ _ _ (by decide)]
    exact congrArg (· != 0) ((hmon BRUP_STAT_READY (by decide)).trans (by decide : State.reset.rd BRUP_STAT_READY = 0))
  · rw [State.bit_wr_apart _ _ _ _ _ _ _ _ (by decide), State.bit_wr_apart _ _ _ _ _ _ _ _ (by decide)]
    exact congrArg (· != 0) ((hmon ESC_STAT_OOS (by decide)).trans (by decide : State.reset.rd ESC_STAT_OOS = 0))

/-- A cold start is in stage 1 with the auxiliary input, not ready and in service. -/
theorem State.coldStart_shows (s : State) : s.coldStart.bit PWR_IN_STAT_AUXOK = true ∧ s.coldStart.rd BRUP_STAT_STAGE = 1 ∧
    s.coldStart.ready = false ∧ s.coldStart.oos = false := by
  obtain ⟨haux, hready, hoos⟩ := s.bit_coldState
  have hstand {f : Field} (hf : f ∈ coldFields) : s.coldStart.bit f = s.coldState.bit f := by
    refine congrArg (· != 0) ((State.rd_verifyFw (List.mem_cons_of_mem _ hf) _).trans (Eq.trans ?_ (State.rd_loadFuses hf s.coldState)))
    have hap : ∀ f ∈ coldFields, BRUP_STAT_STAGE.hubApart f 0 0 0 0 = true := by decide
    exact State.rd_wr_apart _ _ _ _ _ _ _ _ (hap f hf)
  exact ⟨(hstand (by decide)).trans haux,
    (State.rd_verifyFw List.mem_cons_self _).trans (State.rd_wr_self _ _ _ _ _ (by decide)),
    (hstand (by decide)).trans hready, (hstand (by decide)).trans hoos⟩

/-- A cold reset starts again at stage 1 and keeps the crash log. -/
theorem State.coldReset_shows (s : State) : s.coldReset.rd BRUP_STAT_STAGE = 1 ∧ s.coldReset.ready = false ∧ s.coldReset.oos = false ∧
    s.coldReset.mc.crashPend = true ∧ s.coldReset.mc.crash = crashOf s.err.q ∧ s.coldReset.regions = [] ∧ s.coldReset.blocks = [] ∧
    s.coldReset.fuse = s.fuse ∧ s.coldReset.flash = s.flash.boot := by
  obtain ⟨-, hstage, hready, hoos⟩ := s.coldStart_shows
  have h := s.coldStart_mgmt
  exact ⟨hstage, hready, hoos, rfl, rfl, h.regions, h.blocks, h.fuse, h.flash⟩

/-- The clauses of O58 about power and the resets. -/
theorem resets_start (s : State) :
    (s.bit PWR_IN_STAT_AUXOK = false → ∃ t, exec .powerOn s = .next t ∧ t.bit PWR_IN_STAT_AUXOK = true ∧
      t.rd BRUP_STAT_STAGE = 1 ∧ t.ready = false ∧ t.regions = [] ∧ t.blocks = [] ∧ t.fuse = s.fuse ∧ t.flash = s.flash.boot) ∧
    (s.bit PWR_IN_STAT_AUXOK = true → exec .powerOn s = .next s) ∧
    (∃ t, exec .auxInputLost s = .next t ∧ t.bit PWR_IN_STAT_AUXOK = false ∧ t.bit PWR_IN_STAT_MAINOK = false ∧ t.regions = [] ∧
      t.blocks = [] ∧ t.frame.running = false ∧ t.fuse = s.fuse ∧ t.otp = s.otp ∧ t.flash = s.flash.boot) ∧
    (s.bit PWR_IN_STAT_AUXOK = false → exec .coldReset s = .next s ∧ exec .jtagColdReset s = .next s) ∧
    (∀ c, (c = .coldReset ∨ c = .jtagColdReset) ∧ s.bit PWR_IN_STAT_AUXOK = true ∨
        (s.ready = true ∧ ∃ v, HUB_RST_KEY.of v = 0x5A ∧ HUB_RST_COLD.on v = true ∧ c = .hubRstCold v) →
      ∃ t, exec c s = .next t ∧ t.rd BRUP_STAT_STAGE = 1 ∧ t.ready = false ∧ t.oos = false ∧ t.mc.crashPend = true ∧
        t.mc.crash = crashOf s.err.q ∧ t.regions = [] ∧ t.blocks = [] ∧ t.fuse = s.fuse ∧ t.flash = s.flash.boot) ∧
    (∀ v, s.ready = false ∨ HUB_RST_KEY.of v ≠ 0x5A → exec (.hubRstCold v) s = .next s.discard) ∧
    (∀ v, s.ready = true → HUB_RST_KEY.of v = 0x5A → HUB_RST_COLD.on v = false → exec (.hubRstCold v) s = .next s) := by
  refine ⟨fun h => ?_, fun h => congrArg Host.Outcome.next (if_pos h), ?_, fun h => ?_, fun c hc => ?_, fun v hv => ?_,
    fun v hready hkey hcold => ?_⟩
  · obtain ⟨haux, hstage, hready, -⟩ := s.coldStart_shows
    have hm := s.coldStart_mgmt
    exact ⟨_, congrArg Host.Outcome.next (if_neg (by simp [h])), haux, hstage, hready, hm.regions, hm.blocks, hm.fuse, hm.flash⟩
  · have hm := s.coldState_mgmt
    refine ⟨_, rfl, (State.bit_wr_apart _ _ _ _ _ _ _ _ (by decide)).trans (State.bit_wr_self _ _ _ _ _ (by decide)),
      State.bit_wr_self _ _ _ _ _ (by decide), hm.regions, hm.blocks, congrArg FrameSt.running hm.frame, hm.fuse, ?_, hm.flash⟩
    exact List.foldlRecOn (motive := fun t : State => t.otp = s.otp) (List.range 8) _ rfl fun _ ht _ _ => ht
  · exact ⟨congrArg Host.Outcome.next (if_neg (by simp [h])), congrArg Host.Outcome.next (if_neg (by simp [h]))⟩
  · refine ⟨s.coldReset, ?_, s.coldReset_shows⟩
    obtain ⟨rfl | rfl, haux⟩ | ⟨hready, v, hkey, hcold, rfl⟩ := hc
    · exact congrArg Host.Outcome.next (if_pos haux)
    · exact congrArg Host.Outcome.next (if_pos haux)
    · exact congrArg Host.Outcome.next ((if_neg (by simp [hready, hkey])).trans (if_pos hcold))
  · exact congrArg Host.Outcome.next (if_pos (by simpa using hv))
  · exact congrArg Host.Outcome.next ((if_neg (by simp [hready, hkey])).trans (if_neg (by simp [hcold])))

end Sys2Proof.Machine

/-!
PROOFS. The ends of stages 1 to 4 (17_bring_up_monument.md R452 to R454, R461, Tables 17-1 and 17-2).
-/
namespace Sys2Proof.Machine

/-! ## What stands while a stage ends -/

/-- The stage, whether the device is ready, the sample number and the main input's range. -/
def bringFields : List Field := [BRUP_STAT_STAGE, BRUP_STAT_READY, PWR_SAMPLE_N, PWR_IN_STAT_MAINOK]

/-- From `s` to `t` they stand. -/
def BringStands (s t : State) : Prop := ∀ f ∈ bringFields, t.rd f = s.rd f

namespace BringStands

theorem refl (s : State) : BringStands s s := fun _ _ => rfl

theorem trans {s t u : State} (h : BringStands s t) (k : BringStands t u) : BringStands s u := fun f hf => (k f hf).trans (h f hf)

theorem of_hub {s t : State} (h : t.hub = s.hub) : BringStands s t := fun f _ => State.rd_of_hub h f _ _

theorem wr (s : State) {g : Field} (v : Nat) {i j : Nat} (h : ∀ f ∈ bringFields, g.hubApart f i j 0 0 = true) :
    BringStands s (s.wr g v i j) := fun f hf => State.rd_wr_apart _ _ _ _ _ _ _ _ (h f hf)

theorem raise (s : State) (r : ErrRec) : BringStands s (s.raise r) := fun f hf =>
  have hu : ∀ f ∈ bringFields, f.unit ≠ .err := by decide
  State.rd_raise (hu f hf) s r _ _

theorem foldl {α : Type} {z s : State} {l : List α} {f : State → α → State} (hf : ∀ x a, BringStands x (f x a)) (h : BringStands z s) :
    BringStands z (l.foldl f s) :=
  List.foldlRecOn (motive := BringStands z) _ _ h fun _ hx _ _ => hx.trans (hf _ _)

variable {s t : State} (h : BringStands s t)
include h

theorem stage : t.rd BRUP_STAT_STAGE = s.rd BRUP_STAT_STAGE := h _ (by decide)
theorem ready : t.ready = s.ready := congrArg (· != 0) (h BRUP_STAT_READY (by decide))
theorem ms : t.ms = s.ms := h PWR_SAMPLE_N (by decide)
theorem mainOk : t.bit PWR_IN_STAT_MAINOK = s.bit PWR_IN_STAT_MAINOK := congrArg (· != 0) (h PWR_IN_STAT_MAINOK (by decide))

end BringStands

/-! ## Stage 1 -/

/-- With the main input in range stage 1, when it waits, ends. -/
theorem State.mainIn_ends {s : State} (hwait : s.mc.waiting = true) (hstage : s.rd BRUP_STAT_STAGE = 1) :
    s.mainIn.rd BRUP_STAT_STAGE = 2 := by
  have hst : (s.wr PWR_IN_STAT_MAINOK 1).rd BRUP_STAT_STAGE = 1 := (State.rd_wr_apart _ _ _ _ _ _ _ _ (by decide)).trans hstage
  unfold State.mainIn
  dsimp only
  rw [if_pos ⟨hwait, hst⟩]
  exact State.rd_wr_self _ _ _ _ _ (by decide)

theorem State.endStage1_bad {s : State} {c : Nat} (h : s.fuseBad = some c) : s.endStage1 = s.halt c := by
  unfold State.endStage1
  rw [h]

theorem State.fuseBad_code {s : State} {c : Nat} (h : s.fuseBad = some c) : c = 2 ∨ c = 6 := by
  unfold State.fuseBad at h
  dsimp only at h
  split at h
  · exact .inl (Option.some.inj h).symm
  · split at h
    · cases h
    · exact .inr (Option.some.inj h).symm

/-- The records of the monument's records whose signature fails. -/
def State.badRecs (s : State) (n : Nat) : State :=
  (List.range n).foldl (fun (s : State) _ => s.raise { cls := 2, subtype := 0xD4, level := 3 }) s

theorem State.badRecs_bring (s : State) (n : Nat) : BringStands s (s.badRecs n) := BringStands.foldl (fun _ _ => .raise _ _) (.refl s)

theorem State.badRecs_flash (s : State) (n : Nat) : (s.badRecs n).flash = s.flash :=
  List.foldlRecOn (motive := fun t : State => t.flash = s.flash) _ _ rfl fun t ht _ _ => (t.raise_stands _).1.trans ht

theorem State.endStage1_good {s : State} (h : s.fuseBad = none) : ∃ n, s.endStage1 =
    if (s.badRecs n).flash.factory.isNone then (s.badRecs n).halt 1
    else if (s.badRecs n).bit PWR_IN_STAT_MAINOK then
      ({ s.badRecs n with mc := { (s.badRecs n).mc with waiting := true } } : State).mainIn
    else { s.badRecs n with mc := { (s.badRecs n).mc with waiting := true } } := by
  unfold State.endStage1
  rw [h]
  exact ⟨_, rfl⟩

/-- The end of stage 1. -/
theorem State.endStage1_shows {s : State} (hstage : s.rd BRUP_STAT_STAGE = 1) :
    (∀ c, s.fuseBad = some c →
      s.endStage1.rd BRUP_STAT_STAGE = 7 ∧ s.endStage1.bit BRUP_STAT_HALT = true ∧ s.endStage1.rd BRUP_STAT_CODE = c) ∧
    (s.fuseBad = none → s.flash.factory = none → s.endStage1.rd BRUP_STAT_STAGE = 7 ∧ s.endStage1.rd BRUP_STAT_CODE = 1) ∧
    (s.fuseBad = none → s.flash.factory ≠ none → s.bit PWR_IN_STAT_MAINOK = true → s.endStage1.rd BRUP_STAT_STAGE = 2) ∧
    (s.fuseBad = none → s.flash.factory ≠ none → s.bit PWR_IN_STAT_MAINOK = false →
      s.endStage1.rd BRUP_STAT_STAGE = 1 ∧ s.endStage1.mc.waiting = true) := by
  refine ⟨fun c hc => ?_, fun hgood hnone => ?_, fun hgood hsome hmain => ?_, fun hgood hsome hmain => ?_⟩
  · obtain ⟨hst, hhalt, hcode, -⟩ := s.halt_shows c
    rw [State.endStage1_bad hc]
    obtain rfl | rfl := State.fuseBad_code hc
    · exact ⟨hst, hhalt, hcode⟩
    · exact ⟨hst, hhalt, hcode⟩
  · obtain ⟨n, hrun⟩ := State.endStage1_good hgood
    obtain ⟨hst, -, hcode, -⟩ := (s.badRecs n).halt_shows 1
    rw [hrun, if_pos (by rw [State.badRecs_flash, hnone]; rfl)]
    exact ⟨hst, hcode⟩
  · obtain ⟨n, hrun⟩ := State.endStage1_good hgood
    rw [hrun, if_neg (by rw [State.badRecs_flash]; simpa using hsome), if_pos ((s.badRecs_bring n).mainOk.trans hmain)]
    exact State.mainIn_ends rfl ((s.badRecs_bring n).stage.trans hstage)
  · obtain ⟨n, hrun⟩ := State.endStage1_good hgood
    rw [hrun, if_neg (by rw [State.badRecs_flash]; simpa using hsome),
      if_neg (by rw [(s.badRecs_bring n).mainOk, hmain]; decide)]
    exact ⟨(s.badRecs_bring n).stage.trans hstage, rfl⟩

/-! ## Stage 2 -/

/-- A die without its PLL: its six regions are lost. -/
def State.loseDie (s : State) (d : Nat) : State :=
  if 4 ≤ d then s
  else
    let s := (List.range 6).foldl (fun (s : State) f => s.lostAtStart (6 * d + f)) s
    (s.wr BRUP_RLOST_DIE (s.rd BRUP_RLOST_DIE ||| 2 ^ d)).raise { cls := 8, subtype := 0xD0, level := 3, die := d }

theorem State.loseDie_noted (s : State) (d : Nat) (h : d < 4) :
    LossStands ((List.range 6).foldl (fun (s : State) f => s.lostAtStart (6 * d + f)) s) (s.loseDie d) := by
  unfold State.loseDie
  rw [if_neg (by omega)]
  exact .noted (Noted.raise (Noted.wr (.refl _)))

theorem LossGrows.loseDie (s : State) (d : Nat) : LossGrows s (s.loseDie d) := by
  by_cases h : d < 4
  · exact (LossGrows.foldl (fun x f => LossGrows.lostAtStart x (6 * d + f)) (.refl s)).trans (s.loseDie_noted d h).grows
  · rw [State.loseDie, if_pos (by omega)]
    exact .refl s

/-- A fold of steps that bring no lost region back loses what one of them loses. -/
theorem State.lost_foldl {α : Type} {f : State → α → State} (hf : ∀ x a, LossGrows x (f x a)) {l : List α} {a : α} (ha : a ∈ l) {n : Nat}
    (hself : ∀ x : State, ((f x a).region n).lost = true) (s : State) : ((l.foldl f s).region n).lost = true := by
  induction l generalizing s with
  | nil => exact absurd ha List.not_mem_nil
  | cons b l ih =>
    rw [List.foldl_cons]
    obtain rfl | hmem := List.mem_cons.mp ha
    · exact LossGrows.foldl hf (.refl _) n (hself s)
    · exact ih hmem _

theorem State.lost_loseDie (s : State) {n : Nat} (hn : n < 24) : ((s.loseDie (n / 6)).region n).lost = true := by
  rw [s.loseDie_noted (n / 6) (by omega) n]
  refine State.lost_foldl (fun x f => LossGrows.lostAtStart x _) (List.mem_range.mpr (Nat.mod_lt n (by decide : 0 < 6))) (fun x => ?_) s
  rw [Nat.div_add_mod, State.region_lostAtStart_self x hn]

theorem Region.lost_calShow (g : Region) (n slot : Nat) : (g.calShow n slot).lost = g.lost := by
  unfold Region.calShow
  split <;> rfl

theorem Region.lost_calWrite (g : Region) (n slot : Nat) (r : CalResult) : (g.calWrite n slot r).lost = g.lost := by
  unfold Region.calWrite
  rw [Region.lost_calShow]
  exact List.foldlRecOn (motive := fun t : Region => t.lost = g.lost) _ _ rfl fun _ ht _ _ => ht

theorem LossStands.showQueueDef (s : State) (d : Defect) : LossStands s (s.showQueueDef d) := by
  unfold State.showQueueDef
  dsimp only
  split
  · exact .setRegion s rfl
  · exact .refl s

/-- The lanes are derived into the hub's registers. -/
theorem State.deriveLanes_hub (s : State) : HubFrame s s.deriveLanes := by
  unfold State.deriveLanes
  refine List.foldlRecOn (motive := HubFrame s) _ _ rfl fun t ht o _ => ?_
  split
  · exact ht
  · split
    · unfold HubFrame at ht ⊢
      rw [ht]
      rfl
    · exact ht

/-- The regions of stage 2's end: dies, regions and rails that failed, then calibration. -/
def State.stage2Lost (s : State) (r : StageResult) : State :=
  let s := (s.set1 CLK_STAT_REFOK).wr CLK_STAT_DIELOCK ((List.range 4).foldl (fun m d => if r.diePll.contains d then m else m + 2 ^ d) 0)
  ((r.diePll.foldl State.loseDie s).loseAt 8 0xD0 r.rgnPll).loseAt 8 0xD0 r.fabRail

theorem State.lost_stage2Lost (s : State) (r : StageResult) {n : Nat} (hn : n < 24)
    (hbad : n ∈ r.rgnPll ∨ n ∈ r.fabRail ∨ n / 6 ∈ r.diePll) : ((s.stage2Lost r).region n).lost = true := by
  unfold State.stage2Lost
  dsimp only
  obtain h | h | h := hbad
  · exact LossGrows.loseAt _ _ _ _ n (State.lost_loseAt _ _ _ hn h)
  · exact State.lost_loseAt _ _ _ hn h
  · exact LossGrows.loseAt _ _ _ _ n (LossGrows.loseAt _ _ _ _ n (State.lost_foldl LossGrows.loseDie h (fun x => x.lost_loseDie hn) _))

/-- What a fabric rail and a calibration show. -/
def State.stage2Cal (s : State) (r : StageResult) : State :=
  let s := (List.range 24).foldl (fun (s : State) n =>
    if (s.region n).lost then s else s.setRegion n (((s.region n).wr PWR_FAB_PHOK 3).wr RGN_BEAT_GAP 1)) s
  r.segs.foldl (fun (s : State) x =>
    if segExists x.1 x.2.1 then s.setRegion x.1 ((s.region x.1).calWrite x.1 x.2.1 x.2.2) else s) (s.effective.foldl State.showQueueDef s)

theorem LossStands.stage2Cal (s : State) (r : StageResult) : LossStands s (s.stage2Cal r) := by
  unfold State.stage2Cal
  refine .foldl (fun x y => ?_) (.foldl LossStands.showQueueDef (.foldl (fun x n => ?_) (.refl s)))
  · split
    · exact .setRegion x (Region.lost_calWrite _ _ _ _)
    · exact .refl x
  · split
    · exact .refl x
    · exact .setRegion x rfl

/-- Frame 0 begins with the ends' calibration kept. -/
def State.stage2Frame (s : State) (r : StageResult) : State :=
  let s := ({ s with mc := { s.mc with ends := r.ends, shoreCal := r.shore } } : State).deriveLanes
  { s with frame := { s.frame with num := 0, pos := 0, running := true } }

theorem State.stage2Frame_shows (s : State) (r : StageResult) : (s.stage2Frame r).frame.running = true ∧ (s.stage2Frame r).frame.num = 0 ∧
    (s.stage2Frame r).mc.ends = r.ends ∧ LossStands s (s.stage2Frame r) := by
  have h := ({ s with mc := { s.mc with ends := r.ends, shoreCal := r.shore } } : State).deriveLanes_hub
  unfold State.stage2Frame
  dsimp only
  rw [h]
  exact ⟨rfl, rfl, rfl, .of_regions rfl⟩

theorem State.endStage2_runs {s : State} {r : StageResult} (h : r.noRef = false) :
    s.endStage2 r = ((((s.stage2Lost r).stage2Cal r).stage2Frame r).wr BRUP_STAT_STAGE 3).anyLeft := by
  unfold State.endStage2
  rw [if_neg (by simp [h])]
  rfl

/-- The end of stage 2. -/
theorem State.endStage2_shows (s : State) (r : StageResult) :
    (r.noRef = true → (s.endStage2 r).rd BRUP_STAT_STAGE = 7 ∧ (s.endStage2 r).rd BRUP_STAT_CODE = 3) ∧
    (r.noRef = false → (s.endStage2 r).frame.running = true ∧ (s.endStage2 r).frame.num = 0 ∧ (s.endStage2 r).mc.ends = r.ends ∧
      (∀ n, n < 24 → n ∈ r.rgnPll ∨ n ∈ r.fabRail ∨ n / 6 ∈ r.diePll → ((s.endStage2 r).region n).lost = true) ∧
      ((∃ n, n < 24 ∧ ((s.endStage2 r).region n).lost = false) → (s.endStage2 r).rd BRUP_STAT_STAGE = 3) ∧
      ((∀ n, n < 24 → ((s.endStage2 r).region n).lost = true) →
        (s.endStage2 r).rd BRUP_STAT_STAGE = 7 ∧ (s.endStage2 r).rd BRUP_STAT_CODE = 4)) := by
  refine ⟨fun h => ?_, fun h => ?_⟩
  · obtain ⟨hst, -, hcode, -⟩ := (s.stageRec 8 0xD0 0x18 0xFFFF 0).halt_shows 3
    rw [State.endStage2, if_pos h]
    exact ⟨hst, hcode⟩
  · have hcal := LossStands.stage2Cal (s.stage2Lost r) r
    obtain ⟨hrun, hnum, hends, hframe⟩ := ((s.stage2Lost r).stage2Cal r).stage2Frame_shows r
    rw [State.endStage2_runs h]
    generalize ((s.stage2Lost r).stage2Cal r).stage2Frame r = x at *
    obtain ⟨hnext, hhalt⟩ := x.nextStage_shows (k := 3) (by decide)
    refine ⟨(congrArg FrameSt.running (State.anyLeft_frame _)).trans hrun, (congrArg FrameSt.num (State.anyLeft_frame _)).trans hnum,
      (congrArg McSt.ends (State.anyLeft_mc _)).trans hends, fun n hn hbad => ?_, hnext, hhalt⟩
    rw [State.region_of_regions (State.anyLeft_regions _), State.region_of_regions (State.wr_regions _ _ _ _ _), hframe n, hcal n]
    exact s.lost_stage2Lost r hn hbad

/-! ## Stage 3 -/

theorem LossStands.loadAges (s : State) : LossStands s s.loadAges := by
  unfold State.loadAges
  refine .foldl (fun x d => ?_) (.refl s)
  split
  · exact .setRegion x rfl
  · exact .refl x

theorem LossStands.setDom (s : State) (d : Nat) (x : DomSt) : LossStands s (s.setDom d x) := .of_regions rfl

theorem LossStands.phaseTest (s : State) (n k ph : Nat) (pass : Bool) : LossStands s (s.phaseTest n k ph pass) := by
  unfold State.phaseTest
  dsimp only
  split
  · exact .setDom s _ _
  · split
    · exact (LossStands.setDom s _ _).trans (.onRegion _ _ _ fun _ _ => Region.lost_raise _ _ _)
    · exact .setDom s _ _

theorem LossStands.softStart (s : State) (n k : Nat) : LossStands s (s.softStart n k) := by
  unfold State.softStart
  split
  · exact ((LossStands.onRegion s n 0 fun _ _ => Region.lost_softEnd _ _ _ _).trans (.setDom _ _ _)).trans (.setDom _ _ _)
  · exact .refl s

theorem LossStands.softStartRest (s : State) (r : StageResult) (n k : Nat) : LossStands s (s.softStartRest r n k) := by
  unfold State.softStartRest
  split
  · exact .refl s
  · refine LossStands.trans (.foldl (fun x ph => ?_) (.refl s)) (.softStart _ n k)
    split
    · refine .foldl (fun y _ => ?_) (.refl x)
      split
      · exact .phaseTest y n k ph false
      · exact .refl y
    · exact .phaseTest x n k ph true

theorem LossStands.allDoms {f : State → Nat → Nat → State} (hf : ∀ x n k, LossStands x (f x n k)) (s : State) :
    LossStands s (s.allDoms f) := .foldl (fun _ _ => .foldl (fun _ _ => hf _ _ _) (.refl _)) (.refl s)

/-- Entries for the monument leave regions and blocks. -/
theorem State.defects_aside (s : State) (ds : List Defect) : Aside s (s.defects ds) := .defects (.refl s)

theorem LossStands.aside {s t : State} (h : Aside s t) : LossStands s t := fun n => congrArg Region.lost (h.region n)

/-- A stack at the end of stage 3. -/
def State.stackStep (r : StageResult) (s : State) (n : Nat) : State :=
  if (s.region n).lost then s
  else if r.stkBad.contains n then s.stageRec 8 0xD2 n 0xFFFF 0
  else s.setRegion n ((s.region n).set1 HBM_STAT_TRAINED)

theorem LossStands.stackStep (r : StageResult) (s : State) (n : Nat) : LossStands s (s.stackStep r n) := by
  unfold State.stackStep
  split
  · exact .refl s
  · split
    · exact .noted (State.stageRec_noted _ _ _ _ _ _)
    · exact .setRegion s rfl

theorem State.region_stackStep_ne (r : StageResult) (s : State) {n m : Nat} (h : m ≠ n) : (s.stackStep r n).region m = s.region m := by
  unfold State.stackStep
  split
  · rfl
  · split
    · exact State.region_stageRec _ _ _ _ _ _ _
    · exact State.region_setRegion_ne _ _ _ _ h

theorem State.trained_stackStep (r : StageResult) (s : State) {n : Nat} (hn : n < 24) (hlost : (s.region n).lost = false)
    (hgood : n ∉ r.stkBad) : ((s.stackStep r n).region n).bit HBM_STAT_TRAINED = true := by
  unfold State.stackStep
  rw [if_neg (by simp [hlost]), if_neg (by simpa using hgood), State.region_setRegion_self _ _ _ hn]
  exact Region.bit_wr_self _ HBM_STAT_TRAINED 1 0 0 (by decide) (by decide)

/-- From `s` to `t` the maps alone may have changed. -/
structure MapOnly (s t : State) : Prop where
  lost : LossStands s t
  trained : ∀ n, (t.region n).bit HBM_STAT_TRAINED = (s.region n).bit HBM_STAT_TRAINED
  ctlMem : ∀ n, (t.region n).ctlMem = (s.region n).ctlMem
  imem : ∀ k, (t.block k).imem = (s.block k).imem
  ldata : ∀ k, (t.block k).ldata = (s.block k).ldata
  hub : t.hub = s.hub

namespace MapOnly

theorem refl (s : State) : MapOnly s s := ⟨.refl s, fun _ => rfl, fun _ => rfl, fun _ => rfl, fun _ => rfl, rfl⟩

theorem trans {s t u : State} (h : MapOnly s t) (k : MapOnly t u) : MapOnly s u :=
  ⟨h.lost.trans k.lost, fun n => (k.trained n).trans (h.trained n), fun n => (k.ctlMem n).trans (h.ctlMem n),
    fun n => (k.imem n).trans (h.imem n), fun n => (k.ldata n).trans (h.ldata n), k.hub.trans h.hub⟩

theorem foldl {α : Type} {z s : State} {l : List α} {f : State → α → State} (hf : ∀ x a, MapOnly x (f x a)) (h : MapOnly z s) :
    MapOnly z (l.foldl f s) :=
  List.foldlRecOn (motive := MapOnly z) _ _ h fun _ hx _ _ => hx.trans (hf _ _)

/-- A region with two words of its map replaced. -/
theorem setSkips (s : State) (n : Nat) (a b : Word) :
    MapOnly s (s.setRegion n { s.region n with regs := ((s.region n).regs.setWord .region 0x104 a).setWord .region 0x108 b }) := by
  have hreg : ∀ m, (s.setRegion n { s.region n with regs := ((s.region n).regs.setWord .region 0x104 a).setWord .region 0x108 b }).region m =
      if m = n ∧ n < 24 then { s.region n with regs := ((s.region n).regs.setWord .region 0x104 a).setWord .region 0x108 b }
      else s.region m := fun m => by
    by_cases hm : m = n
    · subst hm
      by_cases hlt : m < 24
      · rw [if_pos ⟨rfl, hlt⟩, State.region_setRegion_self _ _ _ hlt]
      · rw [if_neg (fun h => hlt h.2), State.setRegion, if_neg hlt]
    · rw [if_neg (fun h => hm h.1), State.region_setRegion_ne _ _ _ _ hm]
  refine ⟨.setRegion s rfl, fun m => ?_, fun m => ?_, fun k => ?_, fun k => ?_, State.setRegion_hub _ _ _⟩
  · rw [hreg]
    split
    · next h =>
      obtain ⟨rfl, -⟩ := h
      show (bitsOf _ _ _ != 0) = (bitsOf _ _ _ != 0)
      rw [Regs.word_setWord_ne _ _ _ _ _ (by decide), Regs.word_setWord_ne _ _ _ _ _ (by decide)]
    · rfl
  · rw [hreg]
    split
    · next h => rw [h.1]
    · rfl
  · rw [State.block_of_blocks (State.setRegion_blocks _ _ _)]
  · rw [State.block_of_blocks (State.setRegion_blocks _ _ _)]

/-- A block with registers replaced. -/
theorem setArray (s : State) {k : Nat} {b : Block} (hi : b.imem = (s.block k).imem) (hl : b.ldata = (s.block k).ldata) :
    MapOnly s (s.setBlock k b) := by
  have hblk : ∀ j, (s.setBlock k b).block j = if j = k ∧ k < 4608 then b else s.block j := fun j => by
    by_cases hj : j = k
    · subst hj
      by_cases hlt : j < 4608
      · rw [if_pos ⟨rfl, hlt⟩, State.block_setBlock_self _ _ _ hlt]
      · rw [if_neg (fun h => hlt h.2), State.setBlock, if_neg hlt]
    · rw [if_neg (fun h => hj h.1), State.block_setBlock_ne _ _ _ _ hj]
  have hreg : (s.setBlock k b).regions = s.regions := State.setBlock_regions _ _ _
  refine ⟨.of_regions hreg, fun n => ?_, fun n => ?_, fun j => ?_, fun j => ?_, State.setBlock_hub _ _ _⟩
  · rw [State.region_of_regions hreg]
  · rw [State.region_of_regions hreg]
  · rw [hblk]
    split
    · next h => rw [hi, h.1]
    · rfl
  · rw [hblk]
    split
    · next h => rw [hl, h.1]
    · rfl

/-- Writing the bring-up map. -/
theorem bringMap (s : State) : MapOnly s s.bringMap := by
  unfold State.bringMap
  extract_lets m s1 s2
  have h1 : MapOnly s s1 := foldl (fun x y => setSkips x _ _ _) (.refl s)
  have h2 : MapOnly s s2 := foldl (fun x y => setArray x rfl rfl) h1
  exact ⟨h2.lost, h2.trained, h2.ctlMem, h2.imem, h2.ldata, h2.hub⟩

end MapOnly

/-- Memories and core domains at the end of stage 3. -/
def State.stage3Doms (s : State) (r : StageResult) : State :=
  let s := (s.loadAges.loseAt 7 0xD1 r.rgnMem).allDoms (fun s n k => s.softStartRest r n k)
  r.sram.foldl (fun (s : State) pb => (s.defects [{ kind := 1, src := 1, unit := pb }]).stageRec 7 0xD1 (physPlace pb).1 pb 0) s

theorem State.lost_stage3Doms (s : State) (r : StageResult) {n : Nat} (hn : n < 24) (hmem : n ∈ r.rgnMem) :
    ((s.stage3Doms r).region n).lost = true := by
  unfold State.stage3Doms
  dsimp only
  have hsram := LossStands.foldl (l := r.sram)
    (f := fun (s : State) pb => (s.defects [{ kind := 1, src := 1, unit := pb }]).stageRec 7 0xD1 (physPlace pb).1 pb 0)
    (fun x pb => (LossStands.aside (x.defects_aside _)).trans (.noted (State.stageRec_noted _ _ _ _ _ _)))
    (LossStands.allDoms (fun x n k => .softStartRest x r n k) (s.loadAges.loseAt 7 0xD1 r.rgnMem))
  rw [hsram n]
  exact State.lost_loseAt _ _ _ hn hmem

theorem State.endStage3_eq (s : State) (r : StageResult) : s.endStage3 r =
    ((((List.range 24).foldl (State.stackStep r) (s.stage3Doms r)).bringMap).wr BRUP_STAT_STAGE 4).anyLeft := rfl

/-- The end of stage 3. -/
theorem State.endStage3_shows (s : State) (r : StageResult) : (s.endStage3 r).mc.mapPend ≠ none ∧
    (∀ n, n < 24 → n ∈ r.rgnMem → ((s.endStage3 r).region n).lost = true) ∧
    (∀ n, n < 24 → ((s.endStage3 r).region n).lost = false → n ∉ r.stkBad → ((s.endStage3 r).region n).bit HBM_STAT_TRAINED = true) ∧
    ((∃ n, n < 24 ∧ ((s.endStage3 r).region n).lost = false) → (s.endStage3 r).rd BRUP_STAT_STAGE = 4) ∧
    ((∀ n, n < 24 → ((s.endStage3 r).region n).lost = true) →
      (s.endStage3 r).rd BRUP_STAT_STAGE = 7 ∧ (s.endStage3 r).rd BRUP_STAT_CODE = 4) := by
  rw [State.endStage3_eq]
  have hmap := MapOnly.bringMap ((List.range 24).foldl (State.stackStep r) (s.stage3Doms r))
  have hpend : ((List.range 24).foldl (State.stackStep r) (s.stage3Doms r)).bringMap.mc.mapPend ≠ none := nofun
  have hloss : LossStands (s.stage3Doms r) ((List.range 24).foldl (State.stackStep r) (s.stage3Doms r)) :=
    .foldl (LossStands.stackStep r) (.refl _)
  have htrained : ∀ n, n < 24 → ((s.stage3Doms r).region n).lost = false → n ∉ r.stkBad →
      (((List.range 24).foldl (State.stackStep r) (s.stage3Doms r)).region n).bit HBM_STAT_TRAINED = true := fun n hn hlost hgood =>
    foldl_each State.region (State.stackStep r) (LossStands (s.stage3Doms r))
      (fun n _ g => n ∉ r.stkBad → ((s.stage3Doms r).region n).lost = false → g.bit HBM_STAT_TRAINED = true) List.nodup_range
      (fun t m ht _ => ht.trans (.stackStep r t m)) (fun t m k _ hk => t.region_stackStep_ne r hk)
      (fun t m ht hm hgood hlost => t.trained_stackStep r (List.mem_range.mp hm) ((ht m).trans hlost) hgood) (.refl _)
      (List.mem_range.mpr hn) hgood hlost
  generalize (List.range 24).foldl (State.stackStep r) (s.stage3Doms r) = x at *
  generalize x.bringMap = y at *
  obtain ⟨hnext, hhalt⟩ := y.nextStage_shows (k := 4) (by decide)
  have hreg : ∀ n, (y.wr BRUP_STAT_STAGE 4).anyLeft.region n = y.region n := fun n =>
    (State.region_of_regions (State.anyLeft_regions _) n).trans (State.region_of_regions (State.wr_regions _ _ _ _ _) n)
  refine ⟨fun h => hpend ((congrArg McSt.mapPend (State.anyLeft_mc (y.wr BRUP_STAT_STAGE 4))).symm.trans h), fun n hn hmem => ?_,
    fun n hn hlost hgood => ?_, hnext, hhalt⟩
  · rw [hreg, hmap.lost n, hloss n]
    exact s.lost_stage3Doms r hn hmem
  · rw [hreg] at hlost ⊢
    rw [hmap.trained]
    exact htrained n hn (by rwa [← hloss n, ← hmap.lost n]) hgood

end Sys2Proof.Machine

/-!
PROOFS. The end of stage 5 (17_bring_up_monument.md R456 to R459) and the settlement of O58.
-/
namespace Sys2Proof.Machine

/-! ## The firmware broadcast (R456) -/

/-- A region controller takes the firmware. -/
def State.castRegion (x : FwImage) (s : State) (n : Nat) : State :=
  if (s.region n).lost then s
  else
    let g := s.region n
    s.setRegion n { g with
      ctlMem := Mem.wrN [] 0 ((x.rgn ++ x.imem ++ x.ldata).take 262144)
      spare := if x.imem.isEmpty && x.ldata.isEmpty then g.spare
        else (List.range 16).foldl (fun (m : SMap Block) r => m.put blockZero r ((m.get blockZero r).takeFw x)) g.spare }

/-- A block takes the firmware. -/
def State.castBlock (x : FwImage) (s : State) (k : Nat) : State :=
  if (s.region (regionOf k)).lost then s else s.setBlock k ((s.block k).takeFw x)

/-- The images in all controllers, and in all blocks when they hold any. -/
def State.cast (s : State) (x : FwImage) : State :=
  let s := (List.range 24).foldl (State.castRegion x) s
  if x.imem.isEmpty && x.ldata.isEmpty then s else allBlocks.foldl (State.castBlock x) s

theorem State.broadcast_none {s : State} (h : s.flash.images[s.rd MON_SVN_SLOT]? = none) : s.broadcast = s := by
  unfold State.broadcast
  rw [h]

theorem State.broadcast_some {s : State} {x : FwImage} (h : s.flash.images[s.rd MON_SVN_SLOT]? = some x) : s.broadcast = s.cast x := by
  unfold State.broadcast
  rw [h]
  rfl

theorem LossStands.castRegion (x : FwImage) (s : State) (n : Nat) : LossStands s (s.castRegion x n) := by
  unfold State.castRegion
  split
  · exact .refl s
  · exact .setRegion s rfl

theorem State.castRegion_hub (x : FwImage) (s : State) (n : Nat) : (s.castRegion x n).hub = s.hub := by
  unfold State.castRegion
  split
  · rfl
  · exact State.setRegion_hub _ _ _

theorem State.castBlock_regions (x : FwImage) (s : State) (k : Nat) : (s.castBlock x k).regions = s.regions := by
  unfold State.castBlock
  split
  · rfl
  · exact State.setBlock_regions _ _ _

theorem State.castBlock_hub (x : FwImage) (s : State) (k : Nat) : (s.castBlock x k).hub = s.hub := by
  unfold State.castBlock
  split
  · rfl
  · exact State.setBlock_hub _ _ _

theorem State.castBlocks_regions (x : FwImage) (s : State) : (allBlocks.foldl (State.castBlock x) s).regions = s.regions :=
  List.foldlRecOn (motive := fun t : State => t.regions = s.regions) _ _ rfl fun t ht k _ => (t.castBlock_regions x k).trans ht

theorem State.castRegions_loss (x : FwImage) (s : State) : LossStands s ((List.range 24).foldl (State.castRegion x) s) :=
  .foldl (LossStands.castRegion x) (.refl s)

/-- The broadcast loses no region and shows nothing in the hub's registers. -/
theorem State.cast_stands (s : State) (x : FwImage) : (s.cast x).hub = s.hub ∧ LossStands s (s.cast x) := by
  have hhub : ((List.range 24).foldl (State.castRegion x) s).hub = s.hub :=
    List.foldlRecOn (motive := fun t : State => t.hub = s.hub) _ _ rfl fun t ht n _ => (t.castRegion_hub x n).trans ht
  unfold State.cast
  dsimp only
  split
  · exact ⟨hhub, s.castRegions_loss x⟩
  · exact ⟨List.foldlRecOn (motive := fun t : State => t.hub = s.hub) _ _ hhub fun t ht k _ => (t.castBlock_hub x k).trans ht,
      (s.castRegions_loss x).trans (.of_regions (State.castBlocks_regions x _))⟩

theorem State.broadcast_stands (s : State) : s.broadcast.hub = s.hub ∧ LossStands s s.broadcast := by
  cases h : s.flash.images[s.rd MON_SVN_SLOT]? with
  | none =>
    rw [State.broadcast_none h]
    exact ⟨rfl, .refl s⟩
  | some x =>
    rw [State.broadcast_some h]
    exact s.cast_stands x

/-- A controller that is not lost holds the images. -/
theorem State.ctlMem_cast (s : State) (x : FwImage) {n : Nat} (hn : n < 24) (hlost : (s.region n).lost = false) :
    ((s.cast x).region n).ctlMem = Mem.wrN [] 0 ((x.rgn ++ x.imem ++ x.ldata).take 262144) := by
  have hcast : (((List.range 24).foldl (State.castRegion x) s).region n).ctlMem =
      Mem.wrN [] 0 ((x.rgn ++ x.imem ++ x.ldata).take 262144) := by
    refine foldl_each State.region (State.castRegion x) (LossStands s)
      (fun n _ g => (s.region n).lost = false → g.ctlMem = Mem.wrN [] 0 ((x.rgn ++ x.imem ++ x.ldata).take 262144)) List.nodup_range
      (fun t m ht _ => ht.trans (.castRegion x t m)) (fun t m k _ hk => ?_) (fun t m ht hm hl => ?_) (.refl s) (List.mem_range.mpr hn) hlost
    · unfold State.castRegion
      split
      · rfl
      · exact State.region_setRegion_ne _ _ _ _ hk
    · rw [State.castRegion, if_neg (by simp [ht m, hl]), State.region_setRegion_self _ _ _ (List.mem_range.mp hm)]
  unfold State.cast
  dsimp only
  split
  · exact hcast
  · rw [State.region_of_regions (State.castBlocks_regions x _)]
    exact hcast

/-- A block of a region that is not lost holds the block image. -/
theorem State.block_cast (s : State) {x : FwImage} (hx : x.imem ≠ []) {k : Nat} (hk : k < 4608)
    (hlost : (s.region (regionOf k)).lost = false) : ((s.cast x).block k).imem = Mem.wrN [] 0 (x.imem.take 65536) ∧
      ((s.cast x).block k).ldata = Mem.wrN [] 0 (x.ldata.take 8192) := by
  unfold State.cast
  dsimp only
  rw [if_neg (by simp [hx])]
  refine foldl_each State.block (State.castBlock x) (LossStands s) (fun k _ b => (s.region (regionOf k)).lost = false →
      b.imem = Mem.wrN [] 0 (x.imem.take 65536) ∧ b.ldata = Mem.wrN [] 0 (x.ldata.take 8192)) List.nodup_range
    (fun t m ht _ => ht.trans (.of_regions (t.castBlock_regions x m))) (fun t m j _ hj => ?_) (fun t m ht hm hl => ?_)
    (s.castRegions_loss x) (List.mem_range.mpr hk) hlost
  · unfold State.castBlock
    split
    · rfl
    · exact State.block_setBlock_ne _ _ _ _ hj
  · rw [State.castBlock, if_neg (by simp [ht (regionOf m), hl]), State.block_setBlock_self _ _ _ (List.mem_range.mp hm)]
    exact ⟨rfl, rfl⟩

/-! ## Known-answer runs (R457) -/

theorem BringStands.stageRec (s : State) (cls sub n pblk specific : Nat) : BringStands s (s.stageRec cls sub n pblk specific) :=
  .raise s _

theorem BringStands.logAppend (s : State) (r : LogRec) (ok : Bool) : BringStands s (s.logAppend r ok).1 := by
  unfold State.logAppend
  split
  · exact (BringStands.wr s 1 (by decide)).trans (.raise _ _)
  · split
    · exact .of_hub rfl
    · exact (BringStands.wr s 1 (by decide)).trans (.raise _ _)

theorem BringStands.defects (s : State) (ds : List Defect) : BringStands s (s.defects ds) := by
  refine .foldl (fun x d => ?_) (.refl s)
  refine BringStands.trans ?_ (.wr _ _ (by decide))
  split
  · exact .logAppend x _ true
  · exact (BringStands.logAppend x _ true).trans (.of_hub rfl)

theorem State.katFail_aside (s : State) (k : KatFail) : Aside s (s.katFail k) := by
  unfold State.katFail
  extract_lets s1 s2 s3
  have h : Aside s s2 := (Aside.wr (.refl s)).noted (State.stageRec_noted s1 _ _ _ _ _)
  clear_value s2
  split
  · exact (Aside.wr h).defects
  · exact h

theorem BringStands.katFail (s : State) (k : KatFail) : BringStands s (s.katFail k) := by
  unfold State.katFail
  extract_lets s1 s2 s3
  have h : BringStands s s2 := (BringStands.wr s _ (by decide)).trans (.stageRec s1 _ _ _ _ _)
  clear_value s2
  split
  · exact (h.trans (.wr _ _ (by decide))).trans (.defects _ _)
  · exact h

theorem BringStands.loseOne (cls sub : Nat) (s : State) (n : Nat) : BringStands s (s.loseOne cls sub n) := by
  unfold State.loseOne
  split
  · exact ((BringStands.of_hub (State.setRegion_hub _ _ _)).trans (.wr _ _ (by decide))).trans (.stageRec _ _ _ _ _ _)
  · exact .refl s

theorem State.blocks_loseOne (cls sub : Nat) (s : State) (n : Nat) : (s.loseOne cls sub n).blocks = s.blocks := by
  unfold State.loseOne
  split
  · rw [show State.stageRec _ _ _ _ _ _ = _ from State.stageRec_noted _ cls sub n 0xFFFF 0]
    exact State.setRegion_blocks _ _ _
  · rfl

/-- A region's known-answer run that failed is counted, and a second failure loses the region. -/
theorem State.katRegion_cases (s : State) (x : Nat × Bool) : s.katRegion x = s ∨ ∃ t : State, BringStands s t ∧ t.regions = s.regions ∧
    t.blocks = s.blocks ∧ s.katRegion x = if x.2 then t.loseOne 5 0xD3 x.1 else t.stageRec 5 0xD3 x.1 0xFFFF 1 := by
  unfold State.katRegion
  split
  · exact .inl rfl
  · have h := BringStands.wr s (g := BRUP_KAT_RETRIES) (i := 0) (j := 0) (min (s.rd BRUP_KAT_RETRIES + 1) 0xFFFF) (by decide)
    cases hx : x.2
    · exact .inr ⟨_, h, rfl, rfl, rfl⟩
    · exact .inr ⟨_, h.trans (.wr _ _ (by decide)), rfl, rfl, rfl⟩

theorem BringStands.katRegion (s : State) (x : Nat × Bool) : BringStands s (s.katRegion x) := by
  obtain h | ⟨t, ht, -, -, h⟩ := s.katRegion_cases x
  · rw [h]
    exact .refl s
  · rw [h]
    split
    · exact ht.trans (.loseOne _ _ _ _)
    · exact ht.trans (.stageRec _ _ _ _ _ _)

theorem State.blocks_katRegion (s : State) (x : Nat × Bool) : (s.katRegion x).blocks = s.blocks := by
  obtain h | ⟨t, -, -, ht, h⟩ := s.katRegion_cases x
  · rw [h]
  · rw [h]
    split
    · exact (t.blocks_loseOne _ _ _).trans ht
    · rw [show State.stageRec _ _ _ _ _ _ = _ from t.stageRec_noted 5 0xD3 x.1 0xFFFF 1]
      exact ht

theorem State.region_katRegion (s : State) (x : Nat × Bool) {m : Nat} (hm : m < 24) : (s.katRegion x).region m =
    if x = (m, true) ∧ (s.region m).lost = false then { s.region m with lost := true, stopped := true } else s.region m := by
  obtain ⟨n, b⟩ := x
  unfold State.katRegion
  dsimp only
  by_cases hn : 24 ≤ n
  · rw [if_pos hn, if_neg]
    rintro ⟨h, -⟩
    cases h
    omega
  · rw [if_neg hn]
    cases b
    · rw [if_neg (by decide), if_neg (c := _ ∧ _) (by simp)]
      exact State.region_stageRec _ _ _ _ _ _ _
    · refine (State.region_loseOne 5 0xD3 _ hm).trans ?_
      simp only [Prod.mk.injEq, and_true, eq_comm (a := n)]
      rfl

/-- All known-answer runs of the regions: those that failed twice are lost, and the controllers keep their memory. -/
theorem State.region_katRegions (l : List (Nat × Bool)) (s : State) {m : Nat} (hm : m < 24) :
    ((l.foldl State.katRegion s).region m).ctlMem = (s.region m).ctlMem ∧
    (((l.foldl State.katRegion s).region m).lost = true ↔ (s.region m).lost = true ∨ (m, true) ∈ l) := by
  induction l generalizing s with
  | nil => exact ⟨rfl, by simp⟩
  | cons x l ih =>
    rw [List.foldl_cons]
    obtain ⟨hmem, hlost⟩ := ih (s.katRegion x)
    rw [hmem, hlost, s.region_katRegion x hm]
    by_cases hx : x = (m, true)
    · cases hl : (s.region m).lost <;> simp [hx, hl]
    · rw [if_neg (fun h => hx h.1)]
      simp [Ne.symm hx]

/-! ## Ready (R459) -/

/-- The device becomes ready. -/
def State.becomeReady (s : State) (r : StageResult) : State :=
  let s := ((s.set1 BRUP_STAT_READY).wr BRUP_STAT_STAGE 6).wr BRUP_TIME_MS (min r.ms 0xFFFF)
  let s := s.wr BRUP_STAT_DEGR (if s.rd BRUP_RLOST_RGN = 0 ∧ s.rd BRUP_RLOST_DIE = 0 then 0 else 1)
  { s with pw := { s.pw with readyAt := some s.ms } }

theorem State.becomeReady_shows (s : State) (r : StageResult) : (s.becomeReady r).rd BRUP_STAT_STAGE = 6 ∧ (s.becomeReady r).ready = true ∧
    (s.becomeReady r).rd BRUP_TIME_MS = min r.ms 0xFFFF ∧ (s.becomeReady r).pw.readyAt = some s.ms := by
  have htime : min r.ms 0xFFFF % 2 ^ 16 = min r.ms 0xFFFF := Nat.mod_eq_of_lt (by omega)
  unfold State.becomeReady
  extract_lets s1 s2 pw
  have h1 : s1.rd BRUP_STAT_STAGE = 6 ∧ s1.bit BRUP_STAT_READY = true ∧ s1.rd BRUP_TIME_MS = min r.ms 0xFFFF ∧ s1.ms = s.ms :=
    ⟨(State.rd_wr_apart _ _ _ _ _ _ _ _ (by decide)).trans (State.rd_wr_self _ _ _ _ _ (by decide)),
      (State.bit_wr_apart _ _ _ _ _ _ _ _ (by decide)).trans
        ((State.bit_wr_apart _ _ _ _ _ _ _ _ (by decide)).trans (State.bit_wr_self _ _ _ _ _ (by decide))),
      (State.rd_wr_self _ _ _ _ _ (by decide)).trans htime,
      (State.rd_wr_apart _ _ _ _ _ _ _ _ (by decide)).trans
        ((State.rd_wr_apart _ _ _ _ _ _ _ _ (by decide)).trans (State.rd_wr_apart _ _ _ _ _ _ _ _ (by decide)))⟩
  clear_value s1
  obtain ⟨hstage, hready, hms, hsample⟩ := h1
  exact ⟨(State.rd_wr_apart _ _ _ _ _ _ _ _ (by decide)).trans hstage, (State.bit_wr_apart _ _ _ _ _ _ _ _ (by decide)).trans hready,
    (State.rd_wr_apart _ _ _ _ _ _ _ _ (by decide)).trans hms,
    congrArg some ((State.rd_wr_apart _ _ _ _ _ _ _ _ (by decide)).trans hsample)⟩

theorem State.region_becomeReady (s : State) (r : StageResult) (n : Nat) : (s.becomeReady r).region n = s.region n :=
  State.region_of_regions rfl n

theorem State.block_becomeReady (s : State) (r : StageResult) (k : Nat) : (s.becomeReady r).block k = s.block k :=
  State.block_of_blocks rfl k

/-- The regions once the known-answer runs have ended. -/
def State.katEnd (s : State) (r : StageResult) : State := r.katRgn.foldl State.katRegion (r.kat.foldl State.katFail s.broadcast)

theorem State.endStage5_halts {s : State} {r : StageResult} (h : r.katHub = true) :
    s.endStage5 r = (s.stageRec 5 0xD3 0x18 0xFFFF 0).halt 5 := if_pos h

theorem State.endStage5_lost {s : State} {r : StageResult} (h : r.katHub = false)
    (hlost : ∀ n, n < 24 → ((s.katEnd r).region n).lost = true) : s.endStage5 r = (s.katEnd r).halt 4 := by
  unfold State.endStage5
  rw [if_neg (by simp [h])]
  show (if !(s.katEnd r).anyLeft.inStage 5 then (s.katEnd r).anyLeft else _) = _
  rw [State.anyLeft_halts hlost, if_pos]
  unfold State.inStage
  rw [((s.katEnd r).halt_shows 4).1]
  rfl

theorem State.endStage5_ready {s : State} {r : StageResult} (h : r.katHub = false) (hstage : (s.katEnd r).rd BRUP_STAT_STAGE = 5)
    (hleft : ∃ n, n < 24 ∧ ((s.katEnd r).region n).lost = false) : ∃ x, MapOnly (s.katEnd r) x ∧ s.endStage5 r = x.becomeReady r := by
  refine ⟨if r.kat.any (fun k => k.twice) then (s.katEnd r).bringMap else s.katEnd r, ?_, ?_⟩
  · split
    · exact .bringMap _
    · exact .refl _
  · unfold State.endStage5
    rw [if_neg (by simp [h])]
    show (if !(s.katEnd r).anyLeft.inStage 5 then (s.katEnd r).anyLeft else
      (if r.kat.any (fun k => k.twice) then (s.katEnd r).anyLeft.bringMap else (s.katEnd r).anyLeft).becomeReady r) = _
    rw [State.anyLeft_stays hleft, if_neg]
    unfold State.inStage
    rw [hstage]
    decide

theorem State.katFails_aside (l : List KatFail) (s : State) : Aside s (l.foldl State.katFail s) :=
  List.foldlRecOn (motive := Aside s) _ _ (.refl s) fun t ht k _ => by
    have hk := t.katFail_aside k
    unfold Aside at ht hk ⊢
    rw [hk, ht]

/-- What the known-answer runs leave. -/
theorem State.katEnd_stands (s : State) (r : StageResult) : BringStands s (s.katEnd r) ∧ (∀ k, (s.katEnd r).block k = s.broadcast.block k) ∧
    (∀ n, n < 24 → ((s.katEnd r).region n).ctlMem = (s.broadcast.region n).ctlMem ∧
      (((s.katEnd r).region n).lost = true ↔ (s.region n).lost = true ∨ (n, true) ∈ r.katRgn)) := by
  obtain ⟨hhub, hloss⟩ := s.broadcast_stands
  have hkat := State.katFails_aside r.kat s.broadcast
  refine ⟨?_, fun k => ?_, fun n hn => ?_⟩
  · exact .foldl BringStands.katRegion (.foldl BringStands.katFail (.of_hub hhub))
  · refine (State.block_of_blocks ?_ k).trans (hkat.block k)
    exact List.foldlRecOn (motive := fun t : State => t.blocks = (r.kat.foldl State.katFail s.broadcast).blocks) r.katRgn _ rfl
      fun t ht x _ => (t.blocks_katRegion x).trans ht
  · obtain ⟨hmem, hlost⟩ := State.region_katRegions r.katRgn (r.kat.foldl State.katFail s.broadcast) hn
    rw [hkat.region, hloss n] at hlost
    exact ⟨hmem.trans (congrArg Region.ctlMem (hkat.region n)), hlost⟩

/-- The end of stage 5. -/
theorem State.endStage5_shows {s : State} (r : StageResult) (hstage : s.rd BRUP_STAT_STAGE = 5) :
    (r.katHub = true → (s.endStage5 r).rd BRUP_STAT_STAGE = 7 ∧ (s.endStage5 r).rd BRUP_STAT_CODE = 5) ∧
    (r.katHub = false →
      (∀ x n, s.flash.images[s.rd MON_SVN_SLOT]? = some x → n < 24 → (s.region n).lost = false →
        ((s.endStage5 r).region n).ctlMem = Mem.wrN [] 0 ((x.rgn ++ x.imem ++ x.ldata).take 262144)) ∧
      (∀ x k, s.flash.images[s.rd MON_SVN_SLOT]? = some x → x.imem ≠ [] → k < 4608 → (s.region (regionOf k)).lost = false →
        ((s.endStage5 r).block k).imem = Mem.wrN [] 0 (x.imem.take 65536) ∧
        ((s.endStage5 r).block k).ldata = Mem.wrN [] 0 (x.ldata.take 8192)) ∧
      ((∃ n, n < 24 ∧ (s.region n).lost = false ∧ (n, true) ∉ r.katRgn) → (s.endStage5 r).rd BRUP_STAT_STAGE = 6 ∧
        (s.endStage5 r).ready = true ∧ (s.endStage5 r).rd BRUP_TIME_MS = min r.ms 0xFFFF ∧
        (s.endStage5 r).pw.readyAt = some s.ms) ∧
      ((∀ n, n < 24 → (s.region n).lost = true ∨ (n, true) ∈ r.katRgn) → (s.endStage5 r).rd BRUP_STAT_STAGE = 7 ∧
        (s.endStage5 r).rd BRUP_STAT_CODE = 4 ∧ (s.endStage5 r).ready = s.ready)) := by
  refine ⟨fun h => ?_, fun h => ?_⟩
  · obtain ⟨hst, -, hcode, -⟩ := (s.stageRec 5 0xD3 0x18 0xFFFF 0).halt_shows 5
    rw [State.endStage5_halts h]
    exact ⟨hst, hcode⟩
  obtain ⟨hbring, hblock, hregion⟩ := s.katEnd_stands r
  have hctl : ∀ x n, s.flash.images[s.rd MON_SVN_SLOT]? = some x → n < 24 → (s.region n).lost = false →
      ((s.katEnd r).region n).ctlMem = Mem.wrN [] 0 ((x.rgn ++ x.imem ++ x.ldata).take 262144) := fun x n hx hn hl => by
    rw [(hregion n hn).1, State.broadcast_some hx]
    exact s.ctlMem_cast x hn hl
  have himg : ∀ x k, s.flash.images[s.rd MON_SVN_SLOT]? = some x → x.imem ≠ [] → k < 4608 → (s.region (regionOf k)).lost = false →
      ((s.katEnd r).block k).imem = Mem.wrN [] 0 (x.imem.take 65536) ∧
      ((s.katEnd r).block k).ldata = Mem.wrN [] 0 (x.ldata.take 8192) := fun x k hx hne hk hl => by
    rw [hblock k, State.broadcast_some hx]
    exact s.block_cast hne hk hl
  have hlost : ∀ n, n < 24 → (((s.katEnd r).region n).lost = true ↔ (s.region n).lost = true ∨ (n, true) ∈ r.katRgn) :=
    fun n hn => (hregion n hn).2
  by_cases hall : ∀ n, n < 24 → ((s.katEnd r).region n).lost = true
  · obtain ⟨hst, -, hcode, hready⟩ := (s.katEnd r).halt_shows 4
    rw [State.endStage5_lost h hall]
    refine ⟨hctl, himg, fun ⟨n, hn, hl, hkat⟩ => ?_, fun _ => ⟨hst, hcode, hready.trans hbring.ready⟩⟩
    obtain hl' | hkat' := (hlost n hn).mp (hall n hn)
    · exact absurd (hl.symm.trans hl') (by decide)
    · exact absurd hkat' hkat
  · have hleft : ∃ n, n < 24 ∧ ((s.katEnd r).region n).lost = false := by simpa using hall
    obtain ⟨x, hmap, hrun⟩ := State.endStage5_ready h (hbring.stage.trans hstage) hleft
    obtain ⟨hst, hready, htime, hat⟩ := x.becomeReady_shows r
    have hreg := x.region_becomeReady r
    have hblk := x.block_becomeReady r
    rw [hrun]
    generalize x.becomeReady r = t at *
    simp only [hreg, hblk]
    refine ⟨fun y n hy hn hl => (hmap.ctlMem n).trans (hctl y n hy hn hl), fun y k hy hne hk hl => ?_,
      fun _ => ⟨hst, hready, htime, hat.trans (congrArg some ((BringStands.of_hub hmap.hub).ms.trans hbring.ms))⟩,
      fun h => absurd (fun n hn => (hlost n hn).mpr (h n hn)) hall⟩
    obtain ⟨hi, hl⟩ := himg y k hy hne hk hl
    exact ⟨(hmap.imem k).trans hi, (hmap.ldata k).trans hl⟩

/-! ## The commands -/

theorem State.endStage_idle (s : State) (r : StageResult)
    (h : s.mc.recovery = true ∨ s.mc.waiting = true ∨ s.rd BRUP_STAT_STAGE ∉ [1, 2, 3, 4, 5]) : s.endStage r = s := by
  unfold State.endStage
  split
  · rfl
  · next hidle =>
    obtain ⟨hrec, hwait⟩ : s.mc.recovery = false ∧ s.mc.waiting = false := by simpa using hidle
    have hstage : s.rd BRUP_STAT_STAGE ∉ [1, 2, 3, 4, 5] := by simpa [hrec, hwait] using h
    split <;> simp_all

theorem State.endStage_eq {s : State} (r : StageResult) (hrec : s.mc.recovery = false) (hwait : s.mc.waiting = false) :
    s.endStage r = match s.rd BRUP_STAT_STAGE with
      | 1 => s.endStage1 | 2 => s.endStage2 r | 3 => s.endStage3 r | 4 => s.endStage4 r | 5 => s.endStage5 r | _ => s :=
  (if_neg (by simp [hrec, hwait])).trans (by rfl)

theorem exec_stageLimit_of_not {s : State} (r : StageResult)
    (h : s.rd BRUP_STAT_STAGE ≠ 1 ∨ s.mc.waiting = true ∨ s.mc.recovery = true) :
    exec (.stageLimit r) s = .next (s.endStage r) :=
  congrArg Host.Outcome.next (if_neg (by obtain h | h | h := h <;> simp [State.inStage, h]))

theorem State.endStage4_stage (s : State) (r : StageResult) : (s.endStage4 r).rd BRUP_STAT_STAGE = 5 := by
  unfold State.endStage4
  exact State.rd_wr_self _ _ _ _ _ (by decide)

/-- Settles O58. -/
theorem resetsAndStages : Obligations.ResetsAndStages := by
  unfold Obligations.ResetsAndStages
  refine ⟨resets_start, fun r s => ⟨fun h => ?_, fun h => ?_, fun hrec hwait => ?_⟩⟩
  · have hidle := s.endStage_idle r (h.imp_right .inl)
    exact ⟨congrArg Host.Outcome.next hidle, (exec_stageLimit_of_not r (.inr h.symm)).trans (congrArg Host.Outcome.next hidle)⟩
  · have hidle := s.endStage_idle r (.inr (.inr h))
    exact ⟨congrArg Host.Outcome.next hidle,
      (exec_stageLimit_of_not r (.inl (fun h1 => h (by simp [h1])))).trans (congrArg Host.Outcome.next hidle)⟩
  · have hend : exec (.stageEnd r) s = .next (s.endStage r) := rfl
    rw [hend, State.endStage_eq r hrec hwait]
    refine ⟨fun h => ?_, fun h => ?_, fun h => ?_, fun h => ?_, fun h => ?_, fun h => ?_, fun h => ?_⟩
    · rw [h]
      exact ⟨s.endStage1, rfl, State.endStage1_shows h⟩
    · rw [h]
      exact ⟨s.endStage2 r, rfl, s.endStage2_shows r⟩
    · rw [h]
      exact ⟨s.endStage3 r, rfl, s.endStage3_shows r⟩
    · rw [h]
      exact ⟨s.endStage4 r, rfl, s.endStage4_stage r⟩
    · rw [h]
      exact ⟨s.endStage5 r, rfl, State.endStage5_shows r h⟩
    · exact ⟨_, congrArg Host.Outcome.next (if_pos (by simp [State.inStage, h, hwait, hrec])), rfl⟩
    · rw [exec_stageLimit_of_not r (.inl h), State.endStage_eq r hrec hwait]

end Sys2Proof.Machine

/-!
PROOFS. Rates and ceilings (16_power_control_grade.md R428 to R441): what setting a ceiling of a domain changes.
-/
namespace Sys2Proof.Machine

/-! ## Time that passes for a domain's blocks -/

/-- From `s` to `t` only blocks, event counts and the hub's count of discarded writes change. -/
structure Settles (s t : State) : Prop where
  rest : t = { s with blocks := t.blocks, hub := t.hub, regions := t.regions, evcs := t.evcs }
  region : ∀ n, t.region n = { s.region n with evcs := (t.region n).evcs }
  hub : t.hub = { s.hub with hub := t.hub.hub }

namespace Settles

theorem refl (s : State) : Settles s s := ⟨rfl, fun _ => rfl, rfl⟩

theorem trans {s t u : State} (h : Settles s t) (k : Settles t u) : Settles s u where
  rest := by rw [k.rest, h.rest]
  region n := by rw [k.region n, h.region n]
  hub := by rw [k.hub, h.hub]

theorem settleDomain (s : State) (n k cyc : Nat) : Settles s (s.settleDomain n k cyc) :=
  List.foldlRecOn (motive := Settles s) _ _ (.refl s) fun t ht x _ => by
    obtain ⟨hrest, -, hregion, hhub, -⟩ := t.putBlock_frame x ((t.block x).advance (t.env x cyc))
    exact ht.trans ⟨hrest, hregion, hhub⟩

theorem settleNow (s : State) (n k : Nat) : Settles s (s.settleNow n k) := settleDomain s n k _

end Settles

/-- From `s` to `t` region `n` takes the registers of `g`, and beside it only blocks, event counts and the hub's count of discarded writes
change. -/
structure Rated (n : Nat) (g : Region) (s t : State) : Prop where
  rest : t = { s with blocks := t.blocks, hub := t.hub, regions := t.regions, evcs := t.evcs }
  hub : t.hub = { s.hub with hub := t.hub.hub }
  self : n < 24 → (t.region n).regs = g.regs ∧ (t.region n).lost = g.lost
  other : ∀ m, m ≠ n → (t.region m).regs = (s.region m).regs ∧ (t.region m).lost = (s.region m).lost

theorem Rated.pw {n : Nat} {g : Region} {s t : State} (h : Rated n g s t) : t.pw = s.pw := by rw [h.rest]

theorem Rated.setRegion (s : State) (n : Nat) (g : Region) : Rated n g s (s.setRegion n g) where
  rest := by unfold State.setRegion; split <;> rfl
  hub := by rw [State.setRegion_hub]
  self hn := by rw [State.region_setRegion_self _ _ _ hn]; exact ⟨rfl, rfl⟩
  other m hm := by rw [State.region_setRegion_ne _ _ _ _ hm]; exact ⟨rfl, rfl⟩

/-- Time that passes before and after it. -/
theorem Rated.between {n : Nat} {g : Region} {a b c d : State} (h : Settles a b) (k : Rated n g b c) (l : Settles c d) : Rated n g a d where
  rest := by rw [l.rest, k.rest, h.rest]
  hub := by rw [l.hub, k.hub, h.hub]
  self hn := by rw [l.region n]; exact k.self hn
  other m hm := by
    rw [l.region m]
    obtain ⟨hregs, hlost⟩ := k.other m hm
    rw [h.region m] at hregs hlost
    exact ⟨hregs, hlost⟩

theorem State.putRate_rated (s : State) (n k : Nat) (g : Region) : Rated n g s (s.putRate n k g) := by
  unfold State.putRate
  split
  · exact .setRegion s n g
  · exact (Rated.setRegion _ n g).between (.settleNow s n k) (.settleNow _ n k)

/-! ## A ceiling -/

/-- Region `g` with the ceiling `f` of domain `k` set. -/
def Region.ceil (g : Region) (f : Field) (k v : Nat) : Region := (g.wr f v k).showEff k

/-- A domain's ceilings (16 R428). -/
def ceilings : List Field := [PCTL_DOM_QPH, PCTL_DOM_QI, PCTL_DOM_QT, PCTL_DOM_QC, PCTL_DOM_QG]

theorem ceilings_apart : ∀ f ∈ ceilings, ∀ h ∈ ceilings, f ≠ h → ∀ k ∈ List.range 4, ∀ j ∈ List.range 4, f.apart h k 0 j 0 = true := by decide

theorem ceilings_apart_index : ∀ f ∈ ceilings, ∀ k ∈ List.range 4, ∀ j ∈ List.range 4, k ≠ j → f.apart f k 0 j 0 = true := by decide

theorem shown_apart : ∀ h ∈ ceilings, ∀ k ∈ List.range 4, ∀ j ∈ List.range 4,
    PCTL_DOM_QEFF.apart h k 0 j 0 = true ∧ PCTL_FILL_FQ.apart h k 0 j 0 = true := by decide

theorem fill_apart : ∀ k ∈ List.range 4, ∀ j ∈ List.range 4, (∀ f ∈ ceilings, f.apart PCTL_FILL_FQ k 0 j 0 = true) ∧
    PCTL_DOM_QEFF.apart PCTL_FILL_FQ k 0 j 0 = true ∧ (k ≠ j → PCTL_FILL_FQ.apart PCTL_FILL_FQ k 0 j 0 = true) := by decide

theorem temps_apart : ∀ k ∈ List.range 4, ∀ h ∈ [THM_RGN_TJ, THM_RGN_TS], (∀ f ∈ ceilings, f.apart h k 0 0 0 = true) ∧
    PCTL_DOM_QEFF.apart h k 0 0 0 = true ∧ PCTL_FILL_FQ.apart h k 0 0 0 = true := by decide

theorem Region.rd_showEff {g : Region} {h : Field} {k j : Nat} (hq : PCTL_DOM_QEFF.apart h k 0 j 0 = true)
    (hf : PCTL_FILL_FQ.apart h k 0 j 0 = true) : (g.showEff k).rd h j = g.rd h j :=
  (Region.rd_wr_apart _ _ _ _ _ _ _ _ hf).trans (Region.rd_wr_apart _ _ _ _ _ _ _ _ hq)

section Ceil
variable (g : Region) {f : Field} {k : Nat} (v : Nat) (hf : f ∈ ceilings) (hk : k < 4)
include hf hk

theorem Region.rd_ceil_self : (g.ceil f k v).rd f k = v % 32 := by
  obtain ⟨hq, hfill⟩ := shown_apart f hf k (List.mem_range.mpr hk) k (List.mem_range.mpr hk)
  have hwidth : ∀ f ∈ ceilings, f.hi < 32 ∧ f.lo ≤ f.hi ∧ f.hi + 1 - f.lo = 5 := by decide
  obtain ⟨hhi, hlo, hw⟩ := hwidth f hf
  rw [Region.ceil, Region.rd_showEff hq hfill, Region.rd_wr_self _ _ _ _ _ hhi hlo, hw]
  rfl

/-- Another ceiling, or that of another domain. -/
theorem Region.rd_ceil_ne {h : Field} (hh : h ∈ ceilings) {j : Nat} (hj : j < 4) (hne : f ≠ h ∨ k ≠ j) :
    (g.ceil f k v).rd h j = g.rd h j := by
  obtain ⟨hq, hfill⟩ := shown_apart h hh k (List.mem_range.mpr hk) j (List.mem_range.mpr hj)
  rw [Region.ceil, Region.rd_showEff hq hfill]
  by_cases hfh : f = h
  · subst hfh
    exact Region.rd_wr_apart _ _ _ _ _ _ _ _ (ceilings_apart_index f hf k (List.mem_range.mpr hk) j (List.mem_range.mpr hj)
      (hne.resolve_left (fun h => h rfl)))
  · exact Region.rd_wr_apart _ _ _ _ _ _ _ _ (ceilings_apart f hf h hh hfh k (List.mem_range.mpr hk) j (List.mem_range.mpr hj))

/-- The fill of another domain. -/
theorem Region.fq_ceil_ne {j : Nat} (hj : j < 4) (hne : k ≠ j) : (g.ceil f k v).rd PCTL_FILL_FQ j = g.rd PCTL_FILL_FQ j := by
  obtain ⟨hfill, hq, hself⟩ := fill_apart k (List.mem_range.mpr hk) j (List.mem_range.mpr hj)
  rw [Region.ceil, Region.rd_showEff hq (hself hne)]
  exact Region.rd_wr_apart _ _ _ _ _ _ _ _ (hfill f hf)

theorem Region.temps_ceil {h : Field} (hh : h ∈ [THM_RGN_TJ, THM_RGN_TS]) : (g.ceil f k v).rd h = g.rd h := by
  obtain ⟨hc, hq, hfill⟩ := temps_apart k (List.mem_range.mpr hk) h hh
  rw [Region.ceil, Region.rd_showEff hq hfill]
  exact Region.rd_wr_apart _ _ _ _ _ _ _ _ (hc f hf)

end Ceil

/-- Setting a ceiling: the region's registers, then the domain's note for the sample. -/
theorem State.setCeil_eq (s : State) (f : Field) (n k v : Nat) :
    s.setCeil f n k v = (s.putRate n k ((s.region n).ceil f k v)).noteRate n k := rfl

theorem State.regs_setCeil_self (s : State) (f : Field) {n : Nat} (k v : Nat) (hn : n < 24) :
    ((s.setCeil f n k v).region n).regs = ((s.region n).ceil f k v).regs :=
  ((s.putRate_rated n k ((s.region n).ceil f k v)).self hn).1

theorem State.regs_setCeil_ne (s : State) (f : Field) {n m : Nat} (k v : Nat) (h : m ≠ n) :
    ((s.setCeil f n k v).region m).regs = (s.region m).regs :=
  ((s.putRate_rated n k ((s.region n).ceil f k v)).other m h).1

theorem State.hubOf_setCeil (s : State) (f : Field) (n k v : Nat) {u : RegUnit} (hu : u ≠ .hub) :
    (s.setCeil f n k v).hub.of u = s.hub.of u := by
  have h := (s.putRate_rated n k ((s.region n).ceil f k v)).hub
  show (s.putRate n k ((s.region n).ceil f k v)).hub.of u = _
  rw [h]
  cases u <;> first | rfl | exact absurd rfl hu

/-- Only the notes of the domains change in the power state. -/
theorem State.pw_setCeil (s : State) (f : Field) (n k v : Nat) : ∃ doms, (s.setCeil f n k v).pw = { s.pw with doms := doms } := by
  have h := (s.putRate_rated n k ((s.region n).ceil f k v)).pw
  rw [State.setCeil_eq]
  generalize s.putRate n k ((s.region n).ceil f k v) = x at *
  exact ⟨_, congrArg (fun p : PwSt => { p with doms := (x.noteRate n k).pw.doms }) h⟩

theorem State.dom_setDom_self (s : State) (d : Nat) (x : DomSt) : (s.setDom d x).dom d = x := SMap.get_put_self _ _ _ _

theorem State.low90_setCeil (s : State) (f : Field) (n k v : Nat) :
    ((s.setCeil f n k v).dom (4 * n + k)).low90 = (s.dom (4 * n + k)).low90 := by
  have h := (s.putRate_rated n k ((s.region n).ceil f k v)).pw
  rw [State.setCeil_eq, State.noteRate, State.dom_setDom_self]
  generalize s.putRate n k ((s.region n).ceil f k v) = x at *
  show (x.dom _).low90 = _
  unfold State.dom
  rw [h]

/-- The limiter flags are the hub's. -/
theorem State.region_showPower (s : State) (n : Nat) : s.showPower.region n = s.region n := State.region_of_regions rfl n

end Sys2Proof.Machine

/-!
PROOFS. Current windows and control intervals (16_power_control_grade.md R430, R431, R436, R439).
-/
namespace Sys2Proof.Machine

/-! ## Fields of the 96 core domains -/

/-- Field `f` of core domain `d`, the domain `d % 4` of region `d / 4`. -/
def State.dq (s : State) (f : Field) (d : Nat) : Nat := (s.region (d / 4)).rd f (d % 4)

theorem State.dq_of_regs {s t : State} {d : Nat} (h : (t.region (d / 4)).regs = (s.region (d / 4)).regs) (f : Field) :
    t.dq f d = s.dq f d := by
  unfold State.dq Region.rd
  rw [h]

theorem State.dq_of_regions {s t : State} (h : t.regions = s.regions) (f : Field) (d : Nat) : t.dq f d = s.dq f d :=
  State.dq_of_regs (congrArg Region.regs (State.region_of_regions h _)) f

theorem State.dq_pair (s : State) (f : Field) (n : Nat) {k : Nat} (hk : k < 4) : s.dq f (4 * n + k) = (s.region n).rd f k := by
  unfold State.dq
  rw [show (4 * n + k) / 4 = n by omega, show (4 * n + k) % 4 = k by omega]

/-- The core domains of a region. -/
def domainsOf (n : Nat) : List Nat := (List.range 4).map (4 * n + ·)

theorem mem_domainsOf {n k : Nat} (hk : k < 4) : 4 * n + k ∈ domainsOf n := List.mem_map.mpr ⟨k, List.mem_range.mpr hk, rfl⟩

theorem domainsOf_region {n d : Nat} (h : d ∈ domainsOf n) : d / 4 = n := by
  obtain ⟨k, hk, rfl⟩ := List.mem_map.mp h
  have hk4 : k < 4 := List.mem_range.mp hk
  omega

theorem domainsOf_nodup (n : Nat) : (domainsOf n).Nodup := List.Nodup.map (fun _ _ h => Nat.add_left_cancel h) List.nodup_range

/-- A fold over the domains of a region. -/
theorem foldl_domains {σ : Type} (g : σ → Nat → Nat → σ) (n : Nat) (s : σ) :
    (List.range 4).foldl (fun s k => g s n k) s = (domainsOf n).foldl (fun s d => g s (d / 4) (d % 4)) s := by
  rw [domainsOf, List.foldl_map]
  refine List.foldl_ext _ _ _ fun t k hk => ?_
  have hk4 : k < 4 := List.mem_range.mp hk
  rw [show (4 * n + k) / 4 = n by omega, show (4 * n + k) % 4 = k by omega]

theorem foldl_domains_pair {σ : Type} (g : σ → Nat → Nat → σ) (n : Nat) (s : σ) :
    [n, n + 1].foldl (fun s r => (List.range 4).foldl (fun s k => g s r k) s) s =
      (domainsOf n ++ domainsOf (n + 1)).foldl (fun s d => g s (d / 4) (d % 4)) s := by
  rw [List.foldl_append, ← foldl_domains g n, ← foldl_domains g (n + 1), List.foldl_cons, List.foldl_cons, List.foldl_nil]

/-- A step of every core domain is a fold over their numbers. -/
theorem State.allDoms_eq (s : State) (f : State → Nat → Nat → State) :
    s.allDoms f = (List.range 96).foldl (fun s d => f s (d / 4) (d % 4)) s := by
  unfold State.allDoms
  have hflat : (List.range 24).flatMap domainsOf = List.range 96 := by decide
  rw [← hflat, List.foldl_flatMap]
  exact List.foldl_ext _ _ _ fun t n _ => foldl_domains f n t

/-! ## A ceiling of a domain -/

theorem State.dq_setCeil_self (s : State) {f : Field} (hf : f ∈ ceilings) {d : Nat} (v : Nat) (hd : d < 96) :
    (s.setCeil f (d / 4) (d % 4) v).dq f d = v % 32 := by
  unfold State.dq Region.rd
  rw [s.regs_setCeil_self f _ _ (by omega)]
  exact Region.rd_ceil_self _ v hf (Nat.mod_lt _ (by decide))

theorem State.dq_setCeil_ne (s : State) {f h : Field} (hf : f ∈ ceilings) (hh : h ∈ ceilings) {d e : Nat} (v : Nat) (hd : d < 96)
    (hne : f ≠ h ∨ e ≠ d) : (s.setCeil f (d / 4) (d % 4) v).dq h e = s.dq h e := by
  by_cases hn : e / 4 = d / 4
  · unfold State.dq Region.rd
    rw [hn, s.regs_setCeil_self f _ _ (by omega)]
    exact Region.rd_ceil_ne _ v hf (Nat.mod_lt _ (by decide)) hh (Nat.mod_lt _ (by decide)) (hne.imp_right (by omega))
  · exact State.dq_of_regs (s.regs_setCeil_ne f _ v hn) h

theorem State.fq_setCeil_ne (s : State) {f : Field} (hf : f ∈ ceilings) {d e : Nat} (v : Nat) (hd : d < 96) (hne : e ≠ d) :
    (s.setCeil f (d / 4) (d % 4) v).dq PCTL_FILL_FQ e = s.dq PCTL_FILL_FQ e := by
  by_cases hn : e / 4 = d / 4
  · unfold State.dq Region.rd
    rw [hn, s.regs_setCeil_self f _ _ (by omega)]
    exact Region.fq_ceil_ne _ v hf (Nat.mod_lt _ (by decide)) (Nat.mod_lt _ (by decide)) (by omega)
  · exact State.dq_of_regs (s.regs_setCeil_ne f _ v hn) _

theorem State.dq_lt (s : State) {f : Field} (hf : f ∈ PCTL_FILL_FQ :: ceilings) (d : Nat) : s.dq f d < 32 := by
  have hwidth : ∀ f ∈ PCTL_FILL_FQ :: ceilings, f.hi + 1 - f.lo = 5 := by decide
  have h := bitsOf_lt ((s.region (d / 4)).regs.word f.unit (f.at (d % 4) 0)) f.hi f.lo
  rw [hwidth f hf] at h
  exact h

/-! ## Windows (R430, R431) -/

/-- QI after a window over the limit. -/
def loweredQi (q : Nat) : Nat := if q ≤ 6 then min q 4 else q - 2

theorem loweredQi_le (q : Nat) : loweredQi q ≤ q := by
  unfold loweredQi
  split <;> omega

/-- The record of R430 leaves the ceilings. -/
theorem State.dq_powerRec (s : State) {h : Field} (hh : h ∈ ceilings) (n sub k ph specific e : Nat) :
    (s.onRegion n 0 (fun e g => g.powerRec e sub k ph specific)).dq h e = s.dq h e := by
  unfold State.dq State.onRegion
  rw [(State.putRegion_aside _ _ _).region]
  by_cases hn : e / 4 = n
  · by_cases hlt : n < 24
    · rw [hn, State.region_setRegion_self _ _ _ hlt]
      have hword : ∀ h ∈ ceilings, h.unit = .region ∧ ∀ k ∈ List.range 4, h.at k 0 ∉ [0x828] := by decide
      obtain ⟨hu, hat⟩ := hword h hh
      exact (Reports.raise (W := [0x828]) (by decide) (.refl _ (s.region n))).rd hu
        (hat (e % 4) (List.mem_range.mpr (Nat.mod_lt _ (by decide))))
    · rw [State.setRegion, if_neg hlt]
  · rw [State.region_setRegion_ne _ _ _ _ hn]

theorem State.dq_lowerQi (s : State) {h : Field} (hh : h ∈ ceilings) (d e : Nat) :
    (s.lowerQi (d / 4) (d % 4)).dq h e = (s.setCeil PCTL_DOM_QI (d / 4) (d % 4) (loweredQi (s.dq PCTL_DOM_QI d))).dq h e := by
  unfold State.lowerQi
  extract_lets q s1 x s2
  have h2 : s2.dq h e = s1.dq h e := State.dq_of_regions rfl _ _
  split
  · exact (s2.dq_powerRec hh _ _ _ _ _ e).trans h2
  · exact h2

theorem State.qi_lowerQi_self (s : State) {d : Nat} (hd : d < 96) :
    (s.lowerQi (d / 4) (d % 4)).dq PCTL_DOM_QI d = loweredQi (s.dq PCTL_DOM_QI d) := by
  rw [s.dq_lowerQi (by decide), s.dq_setCeil_self (by decide) _ hd]
  have hq := s.dq_lt (f := PCTL_DOM_QI) (by decide) d
  have hle := loweredQi_le (s.dq PCTL_DOM_QI d)
  exact Nat.mod_eq_of_lt (by omega)

theorem State.qi_lowerQi_ne (s : State) {d e : Nat} (hd : d < 96) (hne : e ≠ d) :
    (s.lowerQi (d / 4) (d % 4)).dq PCTL_DOM_QI e = s.dq PCTL_DOM_QI e := by
  rw [s.dq_lowerQi (by decide), s.dq_setCeil_ne (by decide) (by decide) _ hd (.inr hne)]

/-- Windows over the limit of an IBC lower QI in its two regions. -/
theorem State.qi_ibc (s : State) {n r k : Nat} (hn : n + 1 < 24) (hr : r = n ∨ r = n + 1) (hk : k < 4) :
    (([n, n + 1].foldl (fun (s : State) r => (List.range 4).foldl (fun (s : State) k => s.lowerQi r k) s) s).region r).rd PCTL_DOM_QI k =
      loweredQi ((s.region r).rd PCTL_DOM_QI k) := by
  have hnodup : (domainsOf n ++ domainsOf (n + 1)).Nodup := by
    refine List.nodup_append.mpr ⟨domainsOf_nodup _, domainsOf_nodup _, fun d hd e he heq => ?_⟩
    have hdn := domainsOf_region hd
    have hen := domainsOf_region he
    rw [heq] at hdn
    omega
  have hlt : ∀ d ∈ domainsOf n ++ domainsOf (n + 1), d < 96 := fun d hd => by
    have hreg : d / 4 = n ∨ d / 4 = n + 1 := (List.mem_append.mp hd).imp domainsOf_region domainsOf_region
    omega
  have hmem : 4 * r + k ∈ domainsOf n ++ domainsOf (n + 1) := by
    obtain rfl | rfl := hr
    · exact List.mem_append_left _ (mem_domainsOf hk)
    · exact List.mem_append_right _ (mem_domainsOf hk)
  rw [foldl_domains_pair State.lowerQi, ← State.dq_pair _ _ _ hk, ← State.dq_pair s _ _ hk]
  exact foldl_each (fun (s : State) d => s.dq PCTL_DOM_QI d) (fun s d => s.lowerQi (d / 4) (d % 4)) (fun _ => True)
    (fun _ q q' => q' = loweredQi q) hnodup (fun _ _ _ _ => trivial) (fun t d e hd hne => t.qi_lowerQi_ne (hlt d hd) hne)
    (fun t d _ hd => t.qi_lowerQi_self (hlt d hd)) trivial hmem

/-! ## Control intervals (R436, R439) -/

/-- What the loops of an interval leave: fuses, the registers of power, and the power state but for the domains and the round robins. -/
structure Looped (s t : State) : Prop where
  fuse : t.fuse = s.fuse
  power : t.hub.of .power = s.hub.of .power
  pw : ∃ doms a b, t.pw = { s.pw with doms := doms, rrCap := a, rrGrade := b }

namespace Looped

theorem refl (s : State) : Looped s s := ⟨rfl, rfl, _, _, _, rfl⟩

theorem trans {s t u : State} (h : Looped s t) (k : Looped t u) : Looped s u := by
  obtain ⟨d, a, b, hpw⟩ := h.pw
  obtain ⟨d', a', b', kpw⟩ := k.pw
  exact ⟨k.fuse.trans h.fuse, k.power.trans h.power, d', a', b', by rw [kpw, hpw]⟩

theorem foldl {α : Type} {s : State} {l : List α} {f : State → α → State} (hf : ∀ x a, Looped x (f x a)) : Looped s (l.foldl f s) :=
  List.foldlRecOn (motive := Looped s) _ _ (.refl s) fun _ hx _ _ => hx.trans (hf _ _)

theorem setRegion (s : State) (n : Nat) (g : Region) : Looped s (s.setRegion n g) :=
  ⟨State.setRegion_fuse _ _ _, by rw [State.setRegion_hub], _, _, _, State.setRegion_pw _ _ _⟩

theorem setCeil (s : State) (f : Field) (n k v : Nat) : Looped s (s.setCeil f n k v) := by
  obtain ⟨doms, hpw⟩ := s.pw_setCeil f n k v
  have hfuse : (s.putRate n k ((s.region n).ceil f k v)).fuse = s.fuse := by rw [(s.putRate_rated n k ((s.region n).ceil f k v)).rest]
  exact ⟨hfuse, s.hubOf_setCeil f n k v (by decide), doms, _, _, hpw⟩

variable {s t : State} (h : Looped s t)
include h

theorem tdp : t.tdp = s.tdp := by unfold State.tdp; rw [h.fuse]
theorem g : t.pw.g = s.pw.g := by obtain ⟨_, _, _, hpw⟩ := h.pw; rw [hpw]
theorem cap : t.pw.cap = s.pw.cap := by obtain ⟨_, _, _, hpw⟩ := h.pw; rw [hpw]
theorem state : t.rd GRD_STAT_STATE = s.rd GRD_STAT_STATE := State.rd_of_hubOf h.power _ _

end Looped

/-- The domains that a loop moves are apart. -/
theorem nextDoms_nodup (a : Nat) {n : Nat} (hn : n ≤ 8) : (nextDoms a n).1.Nodup := by
  refine List.Nodup.map_on (fun i hi j hj h => ?_) List.nodup_range
  have hi8 := List.mem_range.mp hi
  have hj8 := List.mem_range.mp hj
  omega

theorem mem_nextDoms (a : Nat) {n i : Nat} (hi : i < n) : (a + i) % 96 ∈ (nextDoms a n).1 :=
  List.mem_map.mpr ⟨i, List.mem_range.mpr hi, rfl⟩

theorem nextDoms_lt {a n d : Nat} (h : d ∈ (nextDoms a n).1) : d < 96 := by
  obtain ⟨i, -, rfl⟩ := List.mem_map.mp h
  omega

/-! ### The cap -/

/-- The cap's part at one domain. -/
def State.capAt (up : Bool) (s : State) (d : Nat) : State :=
  s.setCeil PCTL_DOM_QC (d / 4) (d % 4) (if up then min 16 (s.dq PCTL_DOM_QC d + 1) else max 1 (s.dq PCTL_DOM_QC d - 1))

/-- The cap moves the domains `x.1` and goes on at `x.2`. -/
def State.capMove (s : State) (up : Bool) (x : List Nat × Nat) : State :=
  { x.1.foldl (State.capAt up) s with pw := { (x.1.foldl (State.capAt up) s).pw with rrCap := x.2 } }

theorem State.capLoop_eq (s : State) (e : Nat) : s.capLoop e =
    if s.pw.cap < e then s.capMove false (nextDoms s.pw.rrCap 8)
    else if 100 * e < 98 * s.pw.cap then s.capMove true (nextDoms s.pw.rrCap 8) else s := by
  unfold State.capLoop
  extract_lets x move
  have hx : x = nextDoms s.pw.rrCap 8 := rfl
  rw [← hx]
  clear_value x
  have hmove : ∀ up, move up = s.capMove up x := fun _ => rfl
  rw [hmove, hmove]

section CapMove
variable (s : State) (up : Bool) {x : List Nat × Nat} (hx : ∀ d ∈ x.1, d < 96)

theorem State.dq_capMove (f : Field) (d : Nat) : (s.capMove up x).dq f d = (x.1.foldl (State.capAt up) s).dq f d :=
  State.dq_of_regions rfl _ _

theorem Looped.capMove : Looped s (s.capMove up x) := by
  obtain ⟨hfuse, hpower, doms, a, b, hpw⟩ := Looped.foldl (s := s) (l := x.1) (f := State.capAt up) fun x d => .setCeil x _ _ _ _
  refine ⟨hfuse, hpower, doms, x.2, b, ?_⟩
  unfold State.capMove
  dsimp only
  rw [hpw]

include hx

theorem State.qc_capMove (hl : x.1.Nodup) {d : Nat} (hd : d ∈ x.1) :
    (s.capMove up x).dq PCTL_DOM_QC d = if up then min 16 (s.dq PCTL_DOM_QC d + 1) else max 1 (s.dq PCTL_DOM_QC d - 1) := by
  rw [State.dq_capMove]
  refine foldl_each (fun (s : State) d => s.dq PCTL_DOM_QC d) (State.capAt up) (fun _ => True)
    (fun _ q q' => q' = if up then min 16 (q + 1) else max 1 (q - 1)) hl (fun _ _ _ _ => trivial)
    (fun t d e hd hne => t.dq_setCeil_ne (by decide) (by decide) _ (hx d hd) (.inr hne)) (fun t d _ hd => ?_) trivial hd
  have hq := t.dq_lt (f := PCTL_DOM_QC) (by decide) d
  refine (t.dq_setCeil_self (by decide) _ (hx d hd)).trans (Nat.mod_eq_of_lt ?_)
  split <;> omega

theorem State.dq_capMove_other {h : Field} (hh : h ∈ ceilings) (hne : PCTL_DOM_QC ≠ h) (e : Nat) : (s.capMove up x).dq h e = s.dq h e := by
  rw [State.dq_capMove]
  exact List.foldlRecOn (motive := fun t : State => t.dq h e = s.dq h e) _ _ rfl fun t ht d hd =>
    (t.dq_setCeil_ne (by decide) hh _ (hx d hd) (.inl hne)).trans ht

end CapMove

theorem Looped.capLoop (s : State) (e : Nat) : Looped s (s.capLoop e) := by
  rw [State.capLoop_eq]
  split
  · exact .capMove s false
  · split
    · exact .capMove s true
    · exact .refl s

theorem State.dq_capLoop_other (s : State) (e : Nat) {h : Field} (hh : h ∈ ceilings) (hne : PCTL_DOM_QC ≠ h) (d : Nat) :
    (s.capLoop e).dq h d = s.dq h d := by
  rw [State.capLoop_eq]
  split
  · exact s.dq_capMove_other false (fun _ => nextDoms_lt) hh hne d
  · split
    · exact s.dq_capMove_other true (fun _ => nextDoms_lt) hh hne d
    · rfl

/-! ### The grade -/

/-- The grade moves the next domains, eight when the distance is wide. -/
def State.gradeMove (s : State) (cnt : Nat) (up : Bool) : State :=
  { (nextDoms s.pw.rrGrade cnt).1.foldl (fun (s : State) d => s.gradeAt up d) s with
    pw := { ((nextDoms s.pw.rrGrade cnt).1.foldl (fun (s : State) d => s.gradeAt up d) s).pw with rrGrade := (nextDoms s.pw.rrGrade cnt).2 } }

/-- How many domains an interval moves. -/
def State.gradeCount (s : State) (e : Nat) : Nat := if s.pw.g + 20 * s.tdp < e ∨ e + 20 * s.tdp < s.pw.g then 8 else 1

theorem State.gradeCount_le (s : State) (e : Nat) : s.gradeCount e ≤ 8 := by
  unfold State.gradeCount
  split <;> decide

theorem State.gradeLoop_eq (s : State) (e : Nat) : s.gradeLoop e =
    if s.rd GRD_STAT_STATE = 0 ∨ 5 ≤ s.rd GRD_STAT_STATE then s
    else if s.pw.g + 5 * s.tdp < e then s.gradeMove (s.gradeCount e) false
    else if e + 5 * s.tdp < s.pw.g then s.gradeMove (s.gradeCount e) true else s := rfl

theorem State.dq_gradeMove (s : State) (cnt : Nat) (up : Bool) (f : Field) (d : Nat) : (s.gradeMove cnt up).dq f d =
    ((nextDoms s.pw.rrGrade cnt).1.foldl (fun (s : State) d => s.gradeAt up d) s).dq f d := State.dq_of_regions rfl _ _

/-- A fill of a domain is set. -/
def State.setFill (s : State) (d v : Nat) : State := s.setRegion (d / 4) ((s.region (d / 4)).wr PCTL_FILL_FQ v (d % 4))

theorem State.fq_setFill_self (s : State) {d v : Nat} (hd : d < 96) : (s.setFill d v).dq PCTL_FILL_FQ d = v % 32 := by
  unfold State.dq State.setFill
  rw [State.region_setRegion_self _ _ _ (by omega)]
  exact Region.rd_wr_self _ _ _ _ _ (by decide) (by decide)

theorem State.dq_setFill (s : State) (d v : Nat) {h : Field} (hh : h ∈ ceilings) (e : Nat) : (s.setFill d v).dq h e = s.dq h e := by
  by_cases hn : e / 4 = d / 4
  · by_cases hlt : d / 4 < 24
    · unfold State.dq State.setFill
      rw [hn, State.region_setRegion_self _ _ _ hlt]
      exact Region.rd_wr_apart _ _ _ _ _ _ _ _ (shown_apart h hh _ (List.mem_range.mpr (Nat.mod_lt _ (by decide))) _
        (List.mem_range.mpr (Nat.mod_lt _ (by decide)))).2
    · rw [State.setFill, State.setRegion, if_neg hlt]
  · exact State.dq_of_regs (congrArg Region.regs (State.region_setRegion_ne _ _ _ _ hn)) h

theorem State.fq_setFill_ne (s : State) {d v e : Nat} (hd : d < 96) (hne : e ≠ d) :
    (s.setFill d v).dq PCTL_FILL_FQ e = s.dq PCTL_FILL_FQ e := by
  by_cases hn : e / 4 = d / 4
  · unfold State.dq State.setFill
    rw [hn, State.region_setRegion_self _ _ _ (by omega)]
    exact Region.rd_wr_apart _ _ _ _ _ _ _ _ ((fill_apart _ (List.mem_range.mpr (Nat.mod_lt _ (by decide))) _
        (List.mem_range.mpr (Nat.mod_lt _ (by decide)))).2.2 (by omega))
  · exact State.dq_of_regs (congrArg Region.regs (State.region_setRegion_ne _ _ _ _ hn)) _

/-- What Table 16-2 does at a domain: another QG, another fill, or nothing. -/
theorem State.gradeAt_up (s : State) (d : Nat) : s.gradeAt true d =
    if s.dq PCTL_DOM_QG d < 16 then s.setCeil PCTL_DOM_QG (d / 4) (d % 4) (s.dq PCTL_DOM_QG d + 1)
    else if s.fillOk && !(s.region (d / 4)).lost && (s.region (d / 4)).rd PWR_DOM_STAT_STATE (d % 4) == 1 &&
      decide (s.dq PCTL_FILL_FQ d < s.dq PCTL_DOM_QEFF d) then s.setFill d (s.dq PCTL_FILL_FQ d + 1) else s := rfl

theorem State.gradeAt_down (s : State) (d : Nat) : s.gradeAt false d =
    if 0 < s.dq PCTL_FILL_FQ d then s.setFill d (s.dq PCTL_FILL_FQ d - 1)
    else s.setCeil PCTL_DOM_QG (d / 4) (d % 4) (max 1 (s.dq PCTL_DOM_QG d - 1)) := rfl

/-- Table 16-2 moves QG or the fill of its own domain alone. -/
theorem State.dq_gradeAt_ne (s : State) (up : Bool) {d : Nat} (hd : d < 96) {h : Field} (hh : h ∈ ceilings) {e : Nat}
    (hne : PCTL_DOM_QG ≠ h ∨ e ≠ d) : (s.gradeAt up d).dq h e = s.dq h e := by
  cases up with
  | false =>
    rw [State.gradeAt_down]
    split
    · exact s.dq_setFill _ _ hh e
    · exact s.dq_setCeil_ne (by decide) hh _ hd hne
  | true =>
    rw [State.gradeAt_up]
    split
    · exact s.dq_setCeil_ne (by decide) hh _ hd hne
    · split
      · exact s.dq_setFill _ _ hh e
      · rfl

theorem State.fq_gradeAt_ne (s : State) (up : Bool) {d e : Nat} (hd : d < 96) (hne : e ≠ d) :
    (s.gradeAt up d).dq PCTL_FILL_FQ e = s.dq PCTL_FILL_FQ e := by
  cases up with
  | false =>
    rw [State.gradeAt_down]
    split
    · exact s.fq_setFill_ne hd hne
    · exact s.fq_setCeil_ne (by decide) _ hd hne
  | true =>
    rw [State.gradeAt_up]
    split
    · exact s.fq_setCeil_ne (by decide) _ hd hne
    · split
      · exact s.fq_setFill_ne hd hne
      · rfl

theorem State.qg_gradeAt_up (s : State) {d : Nat} (hd : d < 96) :
    (s.gradeAt true d).dq PCTL_DOM_QG d = if s.dq PCTL_DOM_QG d < 16 then s.dq PCTL_DOM_QG d + 1 else s.dq PCTL_DOM_QG d := by
  rw [State.gradeAt_up]
  split
  · next h => rw [s.dq_setCeil_self (by decide) _ hd, Nat.mod_eq_of_lt (by omega)]
  · split
    · exact s.dq_setFill _ _ (by decide) d
    · rfl

theorem State.gradeAt_down_shows (s : State) {d : Nat} (hd : d < 96) :
    (s.gradeAt false d).dq PCTL_DOM_QG d =
      (if s.dq PCTL_FILL_FQ d = 0 then max 1 (s.dq PCTL_DOM_QG d - 1) else s.dq PCTL_DOM_QG d) ∧
    (s.dq PCTL_FILL_FQ d ≠ 0 → (s.gradeAt false d).dq PCTL_FILL_FQ d = s.dq PCTL_FILL_FQ d - 1) := by
  have hq := s.dq_lt (f := PCTL_DOM_QG) (by decide) d
  have hf := s.dq_lt (f := PCTL_FILL_FQ) (by decide) d
  rw [State.gradeAt_down]
  split
  · next h =>
    rw [if_neg (by omega), s.dq_setFill _ _ (by decide), s.fq_setFill_self hd]
    exact ⟨rfl, fun _ => Nat.mod_eq_of_lt (by omega)⟩
  · next h =>
    rw [if_pos (by omega), s.dq_setCeil_self (by decide) _ hd]
    exact ⟨Nat.mod_eq_of_lt (by omega), fun h' => absurd h' (by omega)⟩

section GradeMove
variable (s : State) {cnt i d : Nat} (hcnt : cnt ≤ 8) (hi : i < cnt) (hd : d = (s.pw.rrGrade + i) % 96)
include hcnt hi hd

theorem State.qg_gradeMove_up : (s.gradeMove cnt true).dq PCTL_DOM_QG d =
    if s.dq PCTL_DOM_QG d < 16 then s.dq PCTL_DOM_QG d + 1 else s.dq PCTL_DOM_QG d := by
  rw [State.dq_gradeMove]
  exact foldl_each (fun (s : State) d => s.dq PCTL_DOM_QG d) (fun (s : State) d => s.gradeAt true d) (fun _ => True)
    (fun _ q q' => q' = if q < 16 then q + 1 else q) (nextDoms_nodup _ hcnt) (fun _ _ _ _ => trivial)
    (fun t d e hd hne => t.dq_gradeAt_ne true (nextDoms_lt hd) (by decide) (.inr hne))
    (fun t d _ hd => t.qg_gradeAt_up (nextDoms_lt hd)) trivial (hd ▸ mem_nextDoms _ hi)

theorem State.gradeMove_down_shows : (s.gradeMove cnt false).dq PCTL_DOM_QG d =
      (if s.dq PCTL_FILL_FQ d = 0 then max 1 (s.dq PCTL_DOM_QG d - 1) else s.dq PCTL_DOM_QG d) ∧
    (s.dq PCTL_FILL_FQ d ≠ 0 → (s.gradeMove cnt false).dq PCTL_FILL_FQ d = s.dq PCTL_FILL_FQ d - 1) := by
  rw [State.dq_gradeMove, State.dq_gradeMove]
  exact foldl_each (fun (s : State) d => (s.dq PCTL_DOM_QG d, s.dq PCTL_FILL_FQ d)) (fun (s : State) d => s.gradeAt false d) (fun _ => True)
    (fun _ x y => y.1 = (if x.2 = 0 then max 1 (x.1 - 1) else x.1) ∧ (x.2 ≠ 0 → y.2 = x.2 - 1)) (nextDoms_nodup _ hcnt)
    (fun _ _ _ _ => trivial)
    (fun t d e hd hne => Prod.ext (t.dq_gradeAt_ne false (nextDoms_lt hd) (by decide) (.inr hne))
      (t.fq_gradeAt_ne false (nextDoms_lt hd) hne))
    (fun t d _ hd => t.gradeAt_down_shows (nextDoms_lt hd)) trivial (hd ▸ mem_nextDoms _ hi)

end GradeMove

/-- The grade leaves QC. -/
theorem State.qc_gradeLoop (s : State) (e d : Nat) : (s.gradeLoop e).dq PCTL_DOM_QC d = s.dq PCTL_DOM_QC d := by
  have hmove : ∀ cnt up, (s.gradeMove cnt up).dq PCTL_DOM_QC d = s.dq PCTL_DOM_QC d := fun cnt up => by
    rw [State.dq_gradeMove]
    exact List.foldlRecOn (motive := fun t : State => t.dq PCTL_DOM_QC d = s.dq PCTL_DOM_QC d) _ _ rfl fun t ht x hx =>
      (t.dq_gradeAt_ne up (nextDoms_lt hx) (by decide) (.inl (by decide))).trans ht
  rw [State.gradeLoop_eq]
  split
  · rfl
  · split
    · exact hmove _ _
    · split
      · exact hmove _ _
      · rfl

/-! ### Blocks that may not fill -/

theorem State.noFill_eq (s : State) : s.noFill = (List.range 96).foldl (fun s d => s.setFill d 0) s := s.allDoms_eq _

theorem State.dq_noFill (s : State) {h : Field} (hh : h ∈ ceilings) (e : Nat) : s.noFill.dq h e = s.dq h e := by
  rw [State.noFill_eq]
  exact List.foldlRecOn (motive := fun t : State => t.dq h e = s.dq h e) _ _ rfl fun t ht d _ => (t.dq_setFill d 0 hh e).trans ht

theorem State.fq_noFill (s : State) {d : Nat} (hd : d < 96) : s.noFill.dq PCTL_FILL_FQ d = 0 := by
  rw [State.noFill_eq]
  exact foldl_each (fun (s : State) d => s.dq PCTL_FILL_FQ d) (fun s d => s.setFill d 0) (fun _ => True) (fun _ _ q' => q' = 0) List.nodup_range
    (fun _ _ _ _ => trivial) (fun t d e hd hne => t.fq_setFill_ne (List.mem_range.mp hd) hne)
    (fun t d _ hd => t.fq_setFill_self (List.mem_range.mp hd)) trivial (List.mem_range.mpr hd)

/-- An interval begins: where blocks may not fill none does. -/
def State.fillGate (s : State) : State := if s.fillOk then s else s.noFill

theorem State.fillGate_shows (s : State) : Looped s s.fillGate ∧ s.fillGate.pw = s.pw ∧
    (∀ h ∈ ceilings, ∀ e, s.fillGate.dq h e = s.dq h e) ∧
    ∀ d, d < 96 → s.fillGate.dq PCTL_FILL_FQ d = if s.fillOk then s.dq PCTL_FILL_FQ d else 0 := by
  unfold State.fillGate
  split
  · exact ⟨.refl s, rfl, fun _ _ _ => rfl, fun _ _ => rfl⟩
  · refine ⟨?_, ?_, fun h hh e => s.dq_noFill hh e, fun d hd => s.fq_noFill hd⟩
    · rw [State.noFill_eq]
      exact .foldl fun x d => .setRegion x _ _
    · rw [State.noFill_eq]
      exact List.foldlRecOn (motive := fun t : State => t.pw = s.pw) _ _ rfl fun t ht d _ => (State.setRegion_pw _ _ _).trans ht

theorem exec_controlInterval (draws : List Nat) {s : State} (h : s.bit PWR_IN_STAT_AUXOK = true) :
    exec (.controlInterval draws) s =
      .next ((s.fillGate.capLoop (draws.foldl (fun a x => a + x) 0 + s.pw.other)).gradeLoop
        (draws.foldl (fun a x => a + x) 0 + s.pw.other)).showPower := if_pos h

end Sys2Proof.Machine

/-!
PROOFS. The clauses of O55 about current windows and control intervals (16_power_control_grade.md R430, R431, R436, R439).
-/
namespace Sys2Proof.Machine

/-! ## Current windows -/

theorem State.showPower_regions (s : State) : s.showPower.regions = s.regions := rfl
theorem State.dom_showPower (s : State) (d : Nat) : s.showPower.dom d = s.dom d := rfl

section Window
variable {n k ma : Nat} {s : State}

theorem exec_currentWindow_idle (h : 24 ≤ n ∨ 4 ≤ k ∨ (s.region n).lost = true ∨ (s.region n).rd PWR_DOM_STAT_STATE k ≠ 1) :
    exec (.currentWindow (.dom n k ma)) s = .next s := if_pos h

/-- A window of a domain that is on. -/
theorem exec_currentWindow_on (hn : n < 24) (hk : k < 4) (hlost : (s.region n).lost = false)
    (hon : (s.region n).rd PWR_DOM_STAT_STATE k = 1) {lim : Nat}
    (hlim : lim = min (125 * (s.region n).rd PCTL_ILIM_LIM k) ((s.region n).rated k)) : exec (.currentWindow (.dom n k ma)) s =
      if lim < ma then .next (s.lowerQi n k).showPower
      else if 10 * ma < 9 * lim then
        if (s.dom (4 * n + k)).low90 + 1 = 32 then
          .next ((s.setDom (4 * n + k) { s.dom (4 * n + k) with low90 := 0 }).setCeil PCTL_DOM_QI n k
            (min 16 ((s.region n).rd PCTL_DOM_QI k + 1))).showPower
        else .next (s.setDom (4 * n + k) { s.dom (4 * n + k) with low90 := (s.dom (4 * n + k)).low90 + 1 })
      else .next (s.setDom (4 * n + k) { s.dom (4 * n + k) with low90 := 0 }) := by
  subst hlim
  exact if_neg (by simp [hlost, hon]; omega)

theorem State.qi_lowered (hn : n < 24) (hk : k < 4) :
    ((s.lowerQi n k).showPower.region n).rd PCTL_DOM_QI k = loweredQi ((s.region n).rd PCTL_DOM_QI k) := by
  have h := s.qi_lowerQi_self (d := 4 * n + k) (by omega)
  rw [State.dq_pair _ _ _ hk, State.dq_pair _ _ _ hk, show (4 * n + k) / 4 = n by omega, show (4 * n + k) % 4 = k by omega] at h
  rw [State.region_showPower]
  exact h

/-- The 32nd low window raises QI. -/
theorem State.raiseQi_shows (hn : n < 24) (hk : k < 4) (x : DomSt) {v : Nat} (hv : v < 32) :
    (((s.setDom (4 * n + k) x).setCeil PCTL_DOM_QI n k v).showPower.region n).rd PCTL_DOM_QI k = v ∧
    (((s.setDom (4 * n + k) x).setCeil PCTL_DOM_QI n k v).showPower.dom (4 * n + k)).low90 = x.low90 := by
  have hself := (s.setDom (4 * n + k) x).dq_setCeil_self (f := PCTL_DOM_QI) (by decide) (d := 4 * n + k) v (by omega)
  rw [State.dq_pair _ _ _ hk, show (4 * n + k) / 4 = n by omega, show (4 * n + k) % 4 = k by omega] at hself
  rw [State.region_showPower, hself]
  refine ⟨Nat.mod_eq_of_lt hv, ?_⟩
  rw [State.dom_showPower, State.low90_setCeil, State.dom_setDom_self]

end Window

/-- The clauses about a window of a domain. -/
theorem domainWindow_shows (n k ma : Nat) (s : State) (lim q : Nat) (hq : q = (s.region n).rd PCTL_DOM_QI k)
    (hlim : lim = min (125 * (s.region n).rd PCTL_ILIM_LIM k) ((s.region n).rated k)) :
    (24 ≤ n ∨ 4 ≤ k ∨ (s.region n).lost = true ∨ (s.region n).rd PWR_DOM_STAT_STATE k ≠ 1 →
      exec (.currentWindow (.dom n k ma)) s = .next s) ∧
    (n < 24 → k < 4 → (s.region n).lost = false → (s.region n).rd PWR_DOM_STAT_STATE k = 1 →
      (lim < ma → ∃ t, exec (.currentWindow (.dom n k ma)) s = .next t ∧
        (t.region n).rd PCTL_DOM_QI k = if q ≤ 6 then min q 4 else q - 2) ∧
      (ma ≤ lim → 10 * ma < 9 * lim → (s.dom (4 * n + k)).low90 = 31 → ∃ t, exec (.currentWindow (.dom n k ma)) s = .next t ∧
        (t.region n).rd PCTL_DOM_QI k = min 16 (q + 1) ∧ (t.dom (4 * n + k)).low90 = 0) ∧
      (ma ≤ lim → 10 * ma < 9 * lim → (s.dom (4 * n + k)).low90 ≠ 31 → ∃ t, exec (.currentWindow (.dom n k ma)) s = .next t ∧
        t.regions = s.regions ∧ t.blocks = s.blocks ∧ (t.dom (4 * n + k)).low90 = (s.dom (4 * n + k)).low90 + 1) ∧
      (9 * lim ≤ 10 * ma → ma ≤ lim → ∃ t, exec (.currentWindow (.dom n k ma)) s = .next t ∧ t.regions = s.regions ∧
        t.blocks = s.blocks ∧ (t.dom (4 * n + k)).low90 = 0)) := by
  refine ⟨exec_currentWindow_idle, fun hn hk hlost hon => ?_⟩
  have hrun := exec_currentWindow_on (ma := ma) hn hk hlost hon hlim
  subst hq
  refine ⟨fun hover => ?_, fun hin hlow h31 => ?_, fun hin hlow h31 => ?_, fun hhigh hin => ?_⟩
  · rw [if_pos hover] at hrun
    exact ⟨_, hrun, State.qi_lowered hn hk⟩
  · rw [if_neg (by omega), if_pos hlow, if_pos (by omega)] at hrun
    obtain ⟨hqi, hcount⟩ := State.raiseQi_shows (s := s) hn hk { s.dom (4 * n + k) with low90 := 0 }
      (v := min 16 ((s.region n).rd PCTL_DOM_QI k + 1)) (by omega)
    exact ⟨_, hrun, hqi, hcount⟩
  · rw [if_neg (by omega), if_pos hlow, if_neg (by omega)] at hrun
    exact ⟨_, hrun, rfl, rfl, congrArg DomSt.low90 (State.dom_setDom_self _ _ _)⟩
  · rw [if_neg (by omega), if_neg (by omega)] at hrun
    exact ⟨_, hrun, rfl, rfl, congrArg DomSt.low90 (State.dom_setDom_self _ _ _)⟩

/-- The clauses about a window of an IBC. -/
theorem ibcWindow_shows (c ma : Nat) (s : State) :
    (12 ≤ c ∨ (s.rd PWR_IBC_IBCOK).testBit c = false ∨ 18 * ma ≤ 13000000 → exec (.currentWindow (.ibc c ma)) s = .next s) ∧
    (c < 12 → (s.rd PWR_IBC_IBCOK).testBit c = true → 13000000 < 18 * ma → ∃ t, exec (.currentWindow (.ibc c ma)) s = .next t ∧
      ∀ r k, r = 6 * (c / 3) + 2 * (c % 3) ∨ r = 6 * (c / 3) + 2 * (c % 3) + 1 → k < 4 → (t.region r).rd PCTL_DOM_QI k =
        if (s.region r).rd PCTL_DOM_QI k ≤ 6 then min ((s.region r).rd PCTL_DOM_QI k) 4 else (s.region r).rd PCTL_DOM_QI k - 2) := by
  refine ⟨fun h => if_pos h, fun hc hok hover => ⟨_, if_neg (by simp [hok]; omega), fun r k hr hk => ?_⟩⟩
  rw [State.region_showPower]
  exact s.qi_ibc (by omega) hr hk

/-! ## Control intervals -/

section Interval
variable {s : State} {e : Nat}

/-- An interval's state: where blocks may fill, then the cap's part, then the grade's. -/
def State.interval (s : State) (e : Nat) : State := ((s.fillGate.capLoop e).gradeLoop e).showPower

theorem State.dq_interval (s : State) (e : Nat) (f : Field) (d : Nat) :
    (s.interval e).dq f d = ((s.fillGate.capLoop e).gradeLoop e).dq f d := State.dq_of_regions (State.showPower_regions _) _ _

theorem State.qc_interval (s : State) (e d : Nat) : (s.interval e).dq PCTL_DOM_QC d = (s.fillGate.capLoop e).dq PCTL_DOM_QC d := by
  rw [State.dq_interval, State.qc_gradeLoop]

/-- The cap moves QC in its next eight domains. -/
theorem State.qc_interval_moved {up : Bool} {i d : Nat} (hi : i < 8) (hd : d = (s.pw.rrCap + i) % 96)
    (hup : if up then e ≤ s.pw.cap ∧ 100 * e < 98 * s.pw.cap else s.pw.cap < e) :
    (s.interval e).dq PCTL_DOM_QC d = if up then min 16 (s.dq PCTL_DOM_QC d + 1) else max 1 (s.dq PCTL_DOM_QC d - 1) := by
  obtain ⟨-, hpw, hdq, -⟩ := s.fillGate_shows
  have hmem : d ∈ (nextDoms s.pw.rrCap 8).1 := hd ▸ mem_nextDoms _ hi
  have hmove := s.fillGate.qc_capMove up (x := nextDoms s.pw.rrCap 8) (fun _ => nextDoms_lt) (nextDoms_nodup _ (by decide)) hmem
  rw [hdq _ (by decide)] at hmove
  rw [State.qc_interval, State.capLoop_eq, hpw]
  cases up with
  | false =>
    rw [if_pos (by simpa using hup)]
    exact hmove
  | true =>
    obtain ⟨hle, hlow⟩ : e ≤ s.pw.cap ∧ 100 * e < 98 * s.pw.cap := by simpa using hup
    rw [if_neg (by omega), if_pos hlow]
    exact hmove

theorem State.qc_interval_stands (hle : e ≤ s.pw.cap) (hhigh : 98 * s.pw.cap ≤ 100 * e) (d : Nat) :
    (s.interval e).dq PCTL_DOM_QC d = s.dq PCTL_DOM_QC d := by
  obtain ⟨-, hpw, hdq, -⟩ := s.fillGate_shows
  rw [State.qc_interval, State.capLoop_eq, hpw, if_neg (by omega), if_neg (by omega), hdq _ (by decide)]

/-- What the grade's part sees is what the interval began with. -/
theorem State.loops_seen (s : State) (e : Nat) : Looped s (s.fillGate.capLoop e) := s.fillGate_shows.1.trans (.capLoop _ _)

theorem State.gradeCount_seen (s : State) (e : Nat) : (s.fillGate.capLoop e).gradeCount e = s.gradeCount e := by
  have h := s.loops_seen e
  unfold State.gradeCount
  rw [h.g, h.tdp]

theorem State.qg_interval_stands (h : s.rd GRD_STAT_STATE = 0 ∨ 5 ≤ s.rd GRD_STAT_STATE ∨
    e ≤ s.pw.g + 5 * s.tdp ∧ s.pw.g ≤ e + 5 * s.tdp) (d : Nat) : (s.interval e).dq PCTL_DOM_QG d = s.dq PCTL_DOM_QG d := by
  have hseen := s.loops_seen e
  have hidle : (s.fillGate.capLoop e).gradeLoop e = s.fillGate.capLoop e := by
    rw [State.gradeLoop_eq, hseen.state, hseen.g, hseen.tdp]
    split
    · rfl
    · next hst => rw [if_neg (by omega), if_neg (by omega)]
  rw [State.dq_interval, hidle, State.dq_capLoop_other _ _ (by decide) (by decide), s.fillGate_shows.2.2.1 _ (by decide)]

/-- The cap not acting, the grade moves its next domains by Table 16-2. -/
theorem State.grade_interval (hon : 1 ≤ s.rd GRD_STAT_STATE) (hst : s.rd GRD_STAT_STATE < 5) (hle : e ≤ s.pw.cap)
    (hhigh : 98 * s.pw.cap ≤ 100 * e) {i d q f : Nat} (hi : i < s.gradeCount e) (hd : d = (s.pw.rrGrade + i) % 96)
    (hq : q = s.dq PCTL_DOM_QG d) (hf : f = if s.fillOk then s.dq PCTL_FILL_FQ d else 0) :
    (s.pw.g + 5 * s.tdp < e → (s.interval e).dq PCTL_DOM_QG d = (if f = 0 then max 1 (q - 1) else q) ∧
      (f ≠ 0 → (s.interval e).dq PCTL_FILL_FQ d = f - 1)) ∧
    (e + 5 * s.tdp < s.pw.g → (s.interval e).dq PCTL_DOM_QG d = (if q < 16 then q + 1 else q)) := by
  obtain ⟨-, hpw, hdq, hfq⟩ := s.fillGate_shows
  have hcap : s.fillGate.capLoop e = s.fillGate := by
    rw [State.capLoop_eq, hpw, if_neg (by omega), if_neg (by omega)]
  have hseen := s.loops_seen e
  have hcnt := s.gradeCount_seen e
  rw [hcap] at hseen hcnt
  have hd96 : d < 96 := by omega
  have hqg : q = s.fillGate.dq PCTL_DOM_QG d := hq.trans (hdq _ (by decide) d).symm
  have hfill : f = s.fillGate.dq PCTL_FILL_FQ d := hf.trans (hfq d hd96).symm
  have hrr : d = (s.fillGate.pw.rrGrade + i) % 96 := by rw [hpw]; exact hd
  have hrun : (s.fillGate.capLoop e).gradeLoop e = if s.pw.g + 5 * s.tdp < e then s.fillGate.gradeMove (s.gradeCount e) false
      else if e + 5 * s.tdp < s.pw.g then s.fillGate.gradeMove (s.gradeCount e) true else s.fillGate := by
    rw [hcap, State.gradeLoop_eq, hseen.state, hseen.g, hseen.tdp, hcnt, if_neg (by omega)]
  rw [State.dq_interval, State.dq_interval, hrun]
  refine ⟨fun hover => ?_, fun hunder => ?_⟩
  · rw [if_pos hover, hqg, hfill]
    exact s.fillGate.gradeMove_down_shows (s.gradeCount_le e) hi hrr
  · rw [if_neg (by omega), if_pos hunder, hqg]
    exact s.fillGate.qg_gradeMove_up (s.gradeCount_le e) hi hrr

end Interval

/-- The clauses about an interval. -/
theorem controlInterval_shows (draws : List Nat) (s : State) (e : Nat) (haux : s.bit PWR_IN_STAT_AUXOK = true)
    (he : e = draws.foldl (fun a x => a + x) 0 + s.pw.other) : ∃ t, exec (.controlInterval draws) s = .next t ∧
      (s.pw.cap < e → ∀ i d, i < 8 → d = (s.pw.rrCap + i) % 96 →
        (t.region (d / 4)).rd PCTL_DOM_QC (d % 4) = max 1 ((s.region (d / 4)).rd PCTL_DOM_QC (d % 4) - 1)) ∧
      (e ≤ s.pw.cap → 100 * e < 98 * s.pw.cap → ∀ i d, i < 8 → d = (s.pw.rrCap + i) % 96 →
        (t.region (d / 4)).rd PCTL_DOM_QC (d % 4) = min 16 ((s.region (d / 4)).rd PCTL_DOM_QC (d % 4) + 1)) ∧
      (e ≤ s.pw.cap → 98 * s.pw.cap ≤ 100 * e → ∀ n k, n < 24 → k < 4 →
        (t.region n).rd PCTL_DOM_QC k = (s.region n).rd PCTL_DOM_QC k) ∧
      (s.rd GRD_STAT_STATE = 0 ∨ 5 ≤ s.rd GRD_STAT_STATE ∨ e ≤ s.pw.g + 5 * s.tdp ∧ s.pw.g ≤ e + 5 * s.tdp → ∀ n k, n < 24 → k < 4 →
        (t.region n).rd PCTL_DOM_QG k = (s.region n).rd PCTL_DOM_QG k) ∧
      (1 ≤ s.rd GRD_STAT_STATE → s.rd GRD_STAT_STATE < 5 → e ≤ s.pw.cap → 98 * s.pw.cap ≤ 100 * e →
        ∀ i d q f, i < (if s.pw.g + 20 * s.tdp < e ∨ e + 20 * s.tdp < s.pw.g then 8 else 1) → d = (s.pw.rrGrade + i) % 96 →
          q = (s.region (d / 4)).rd PCTL_DOM_QG (d % 4) → f = (if s.fillOk then (s.region (d / 4)).rd PCTL_FILL_FQ (d % 4) else 0) →
          (s.pw.g + 5 * s.tdp < e → (t.region (d / 4)).rd PCTL_DOM_QG (d % 4) = (if f = 0 then max 1 (q - 1) else q) ∧
            (f ≠ 0 → (t.region (d / 4)).rd PCTL_FILL_FQ (d % 4) = f - 1)) ∧
          (e + 5 * s.tdp < s.pw.g → (t.region (d / 4)).rd PCTL_DOM_QG (d % 4) = (if q < 16 then q + 1 else q))) := by
  refine ⟨s.interval e, ?_, fun hover i d hi hd => ?_, fun hle hlow i d hi hd => ?_, fun hle hhigh n k _ hk => ?_, fun h n k _ hk => ?_,
    fun hon hst hle hhigh i d q f hi hd hq hf => ?_⟩
  · rw [he]
    exact exec_controlInterval draws haux
  · exact State.qc_interval_moved (up := false) hi hd hover
  · exact State.qc_interval_moved (up := true) hi hd ⟨hle, hlow⟩
  · rw [← State.dq_pair _ _ _ hk, ← State.dq_pair s _ _ hk]
    exact State.qc_interval_stands hle hhigh _
  · rw [← State.dq_pair _ _ _ hk, ← State.dq_pair s _ _ hk]
    exact State.qg_interval_stands h _
  · exact State.grade_interval hon hst hle hhigh hi hd hq hf

end Sys2Proof.Machine

/-!
PROOFS. The 1 ms sample (15_power_delivery.md R411, R423, 16_power_control_grade.md R433) and the settlement of O55.
-/
namespace Sys2Proof.Machine

/-! ## What a sample shows and then leaves -/

/-- The temperatures that a region shows. -/
def tempFields : List Field := [THM_RGN_TJ, THM_RGN_TS]

/-- The measurements of the input, the sample number and whether the input is in range. -/
def sampleFields : List Field := [PWR_SAMPLE_N, PWR_IN_V_V, PWR_IN_I_I, PWR_IN_P_P, PWR_IN_STAT_MAINOK]

/-- From `s` to `t` they stand, the temperatures in the regions outside `X`. -/
structure SampleStands (X : Nat → Prop) (s t : State) : Prop where
  temps : ∀ n, ¬ X n → ∀ f ∈ tempFields, (t.region n).rd f = (s.region n).rd f
  hub : ∀ f ∈ sampleFields, t.rd f = s.rd f

/-- No region. -/
abbrev noRegion : Nat → Prop := fun _ => False

namespace SampleStands
variable {X : Nat → Prop}

theorem of_same {s t : State} (hr : t.regions = s.regions) (hh : t.hub = s.hub) : SampleStands X s t :=
  ⟨fun n _ f _ => congrArg (fun g : Region => g.rd f) (State.region_of_regions hr n), fun f _ => State.rd_of_hub hh f _ _⟩

theorem refl (s : State) : SampleStands X s s := of_same rfl rfl

theorem trans {s t u : State} (h : SampleStands X s t) (k : SampleStands X t u) : SampleStands X s u :=
  ⟨fun n hn f hf => (k.temps n hn f hf).trans (h.temps n hn f hf), fun f hf => (k.hub f hf).trans (h.hub f hf)⟩

theorem mono {Y : Nat → Prop} {s t : State} (hX : ∀ n, X n → Y n) (h : SampleStands X s t) : SampleStands Y s t :=
  ⟨fun n hn => h.temps n (fun hx => hn (hX n hx)), h.hub⟩

theorem foldl {α : Type} {s : State} {l : List α} {f : State → α → State} (hf : ∀ x, ∀ a ∈ l, SampleStands X x (f x a)) :
    SampleStands X s (l.foldl f s) :=
  List.foldlRecOn (motive := SampleStands X s) _ _ (.refl s) fun x hx a ha => hx.trans (hf x a ha)

theorem wr (s : State) {g : Field} (v : Nat) {i j : Nat} (h : ∀ f ∈ sampleFields, g.hubApart f i j 0 0 = true) :
    SampleStands X s (s.wr g v i j) :=
  ⟨fun _ _ _ _ => rfl, fun f hf => State.rd_wr_apart _ _ _ _ _ _ _ _ (h f hf)⟩

theorem raise (s : State) (r : ErrRec) : SampleStands X s (s.raise r) := by
  have hu : ∀ f ∈ sampleFields, f.unit ≠ .err := by decide
  obtain ⟨-, -, -, hregions⟩ := s.raise_stands r
  exact ⟨fun n _ f _ => congrArg (fun g : Region => g.rd f) (State.region_of_regions hregions n),
    fun f hf => State.rd_raise (hu f hf) s r _ _⟩

theorem setDom (s : State) (d : Nat) (x : DomSt) : SampleStands X s (s.setDom d x) := of_same rfl rfl

/-- An update of the power state. -/
theorem withPw {s t : State} (h : SampleStands X s t) (pw : PwSt) : SampleStands X s { t with pw := pw } := h.trans (of_same rfl rfl)

theorem setRegion (s : State) {n : Nat} {g : Region} (h : X n ∨ ∀ f ∈ tempFields, g.rd f = (s.region n).rd f) :
    SampleStands X s (s.setRegion n g) := by
  refine ⟨fun m hm f hf => ?_, fun f _ => State.rd_of_hub (State.setRegion_hub _ _ _) f _ _⟩
  by_cases hmn : m = n
  · subst hmn
    by_cases hlt : m < 24
    · rw [State.region_setRegion_self _ _ _ hlt]
      exact (h.resolve_left hm) f hf
    · rw [State.setRegion, if_neg hlt]
  · rw [State.region_setRegion_ne _ _ _ _ hmn]

theorem setCeil (s : State) {f : Field} (hf : f ∈ ceilings) (n : Nat) {k : Nat} (hk : k < 4) (v : Nat) :
    SampleStands X s (s.setCeil f n k v) := by
  have hu : ∀ f ∈ sampleFields, f.unit ≠ .hub := by decide
  refine ⟨fun m _ h hh => ?_, fun h hh => State.rd_of_hubOf (s.hubOf_setCeil f n k v (hu h hh)) _ _⟩
  unfold Region.rd
  by_cases hmn : m = n
  · subst hmn
    by_cases hlt : m < 24
    · rw [s.regs_setCeil_self f _ _ hlt]
      exact Region.temps_ceil _ v hf hk hh
    · have hsame : (s.setCeil f m k v).region m = (s.putRate m k ((s.region m).ceil f k v)).region m := rfl
      rw [hsame, State.putRate]
      split
      · rw [State.setRegion, if_neg hlt]
      · rw [(Settles.settleNow _ m k).region, State.setRegion, if_neg hlt, (Settles.settleNow s m k).region]
  · rw [s.regs_setCeil_ne f _ v hmn]

theorem allDoms (s : State) {f : State → Nat → Nat → State} (hf : ∀ x n k, k < 4 → SampleStands X x (f x n k)) :
    SampleStands X s (s.allDoms f) :=
  foldl fun _ n _ => foldl fun y k hk => hf y n k (List.mem_range.mp hk)

theorem showPower (s : State) : SampleStands X s s.showPower :=
  (((wr s _ (by decide)).trans (wr _ _ (by decide))).trans (wr _ _ (by decide))).trans (wr _ _ (by decide))

end SampleStands

/-! ## Temperatures (R433 to R435) -/

/-- Region `n` shows its temperatures. -/
def State.thermShown (s : State) (m : Meas) (n : Nat) : State :=
  s.setRegion n ((((s.region n).wr THM_RGN_TJ (min (m.tj.getD n 0) 255)).wr THM_RGN_TS (min (m.ts.getD n 0) 255)).wr THM_RGN_TREG
    (min (m.temp n) 255))

theorem State.temps_thermShown (s : State) (m : Meas) {n : Nat} (hn : n < 24) :
    ((s.thermShown m n).region n).rd THM_RGN_TJ = min (m.tj.getD n 0) 255 ∧
    ((s.thermShown m n).region n).rd THM_RGN_TS = min (m.ts.getD n 0) 255 := by
  rw [State.thermShown, State.region_setRegion_self _ _ _ hn]
  have hlt : ∀ x, min x 255 % 2 ^ 8 = min x 255 := fun x => Nat.mod_eq_of_lt (by omega)
  exact ⟨(Region.rd_wr_apart _ _ _ _ _ _ _ _ (by decide)).trans ((Region.rd_wr_apart _ _ _ _ _ _ _ _ (by decide)).trans
      ((Region.rd_wr_self _ _ _ _ _ (by decide) (by decide)).trans (hlt _))),
    (Region.rd_wr_apart _ _ _ _ _ _ _ _ (by decide)).trans
      ((Region.rd_wr_self _ _ _ _ _ (by decide) (by decide)).trans (hlt _))⟩

namespace SampleStands
variable {X : Nat → Prop}

theorem reqStep (s : State) (n src : Nat) (step : Option Nat) : SampleStands X s (s.setRegion n ((s.region n).reqStep src step)) :=
  setRegion s (.inr fun _ _ => rfl)

/-- Thermal control of a region, once its temperatures are shown. -/
theorem thermRegion (s : State) (m : Meas) (n : Nat) : SampleStands X (s.thermShown m n) (s.thermRegion m n) := by
  unfold State.thermRegion
  extract_lets jt tj t g was qt new s1 s2 s3 s4 _ cnt s5
  have h2 : SampleStands X s1 s2 := foldl fun y k hk => setCeil y (by decide) n (List.mem_range.mp hk) _
  clear_value s2
  have h3 : SampleStands X s1 s3 := h2.trans (by
    unfold s3
    split
    · exact (wr s2 1 (by decide)).trans (raise _ _)
    · exact .refl s2)
  clear_value s3
  have h4 : SampleStands X s1 s4 := h3.trans (by
    unfold s4
    split
    · exact (wr s3 1 (by decide)).trans (raise _ _)
    · exact .refl s3)
  clear_value s4
  have h5 : SampleStands X s1 s5 := h4.trans (setDom s4 _ _)
  clear_value s5
  refine h5.trans ?_
  split
  · exact (reqStep s5 n _ _).trans (raise _ _)
  · split
    · exact setDom s5 _ _
    · split
      · exact reqStep s5 n _ _
      · exact .refl s5

/-- Another region, and the measurements. -/
theorem thermOthers (s : State) (m : Meas) (n : Nat) : SampleStands (· = n) s (s.thermRegion m n) :=
  SampleStands.trans (X := (· = n)) (setRegion s (.inl rfl)) (thermRegion s m n)

end SampleStands

/-- Every region shows its temperatures. -/
theorem State.temps_thermRegions (s : State) (m : Meas) {n : Nat} (hn : n < 24) :
    (((List.range 24).foldl (fun (s : State) n => s.thermRegion m n) s).region n).rd THM_RGN_TJ = min (m.tj.getD n 0) 255 ∧
    (((List.range 24).foldl (fun (s : State) n => s.thermRegion m n) s).region n).rd THM_RGN_TS = min (m.ts.getD n 0) 255 :=
  foldl_each (fun (s : State) n => ((s.region n).rd THM_RGN_TJ, (s.region n).rd THM_RGN_TS)) (fun (s : State) n => s.thermRegion m n)
    (fun _ => True) (fun n _ y => y.1 = min (m.tj.getD n 0) 255 ∧ y.2 = min (m.ts.getD n 0) 255) List.nodup_range (fun _ _ _ _ => trivial)
    (fun t a b _ hb => Prod.ext ((SampleStands.thermOthers t m a).temps b hb _ (by decide))
      ((SampleStands.thermOthers t m a).temps b hb _ (by decide)))
    (fun t a _ ha => by
      obtain ⟨htj, hts⟩ := t.temps_thermShown m (List.mem_range.mp ha)
      have h := SampleStands.thermRegion (X := noRegion) t m a
      exact ⟨(h.temps a id _ (by decide)).trans htj, (h.temps a id _ (by decide)).trans hts⟩) trivial (List.mem_range.mpr hn)

/-- The hub's part of thermal control. -/
theorem SampleStands.sampleTherm {X : Nat → Prop} (s : State) (m : Meas) :
    SampleStands X ((List.range 24).foldl (fun (s : State) n => s.thermRegion m n) s) (s.sampleTherm m) := by
  unfold State.sampleTherm
  extract_lets s1 s2 top hot s3 pw s4 s5 pw2
  have h2 : SampleStands X s1 s2 := by
    unfold s2
    split
    · exact (wr s1 1 (by decide)).trans (raise _ _)
    · exact .refl s1
  clear_value s2 top hot
  have h3 : SampleStands X s1 s3 :=
    ((h2.trans (wr s2 _ (by decide))).trans (wr _ _ (by decide))).trans (wr _ _ (by decide))
  clear_value s3
  have h4 : SampleStands X s1 s4 := h3.trans (of_same rfl rfl)
  clear_value s4
  have h5 : SampleStands X s1 s5 := h4.trans (by
    unfold s5
    split
    · exact (wr s4 1 (by decide)).trans (raise _ _)
    · exact .refl s4)
  clear_value s5
  exact h5.trans (of_same rfl rfl)

/-! ## Current, grade and boost at a sample -/

namespace SampleStands
variable {X : Nat → Prop}

theorem sampleCurrent (s : State) : SampleStands X s s.sampleCurrent := by
  unfold State.sampleCurrent
  extract_lets s1
  have h1 : SampleStands X s s1 := by
    refine allDoms s fun x n k _ => ?_
    extract_lets q y high low x1
    have hx : SampleStands X x x1 := setDom x _ _
    clear_value x1
    split
    · exact hx.trans (reqStep x1 n _ _)
    · exact hx
  clear_value s1
  refine h1.trans (foldl fun x n _ => ?_)
  split
  · exact reqStep x n _ _
  · exact .refl x

theorem noFill (s : State) : SampleStands X s s.noFill :=
  allDoms s fun x n k hk => setRegion x (.inr fun f hf => by
    have hap : ∀ k ∈ List.range 4, ∀ f ∈ tempFields, PCTL_FILL_FQ.apart f k 0 0 0 = true := by decide
    exact Region.rd_wr_apart _ _ _ _ _ _ _ _ (hap k (List.mem_range.mpr hk) f hf))

theorem govOff (s : State) : SampleStands X s s.govOff := by
  unfold State.govOff
  have h : SampleStands X s (s.allDoms (fun s n k => s.setCeil PCTL_DOM_QG n k 16)) :=
    allDoms s fun x n k hk => setCeil x (by decide) n hk 16
  generalize s.allDoms (fun s n k => s.setCeil PCTL_DOM_QG n k 16) = x at *
  have hfill := h.trans (noFill x)
  generalize x.noFill = y at *
  exact (hfill.trans (wr y (g := GRD_STAT_STATE) 0 (by decide))).withPw _

theorem endForced (s : State) : SampleStands X s s.endForced := (raise s _).withPw _

theorem inc (s : State) {c sat : Field} (h : ∀ f ∈ sampleFields, f.unit = c.unit ∧ c.apart f 0 0 0 0 = true ∧ sat.apart f 0 0 0 0 = true)
    (hu : c.unit.hubGroup = true) : SampleStands X s (s.inc c sat) := by
  refine ⟨fun _ _ _ _ => rfl, fun f hf => ?_⟩
  obtain ⟨hfu, hc, hsat⟩ := h f hf
  show ((s.hub.set c.unit ((s.hub.of c.unit).incSat c sat 0 1)).of f.unit).rd f = (s.hub.of f.unit).rd f
  rw [hfu, HubRegs.of_set_self _ _ _ hu, Regs.rd_incSat_apart hc hsat]

theorem enterForced (s : State) (p : Nat) (why : List Nat) : SampleStands X s (s.enterForced p why) := by
  unfold State.enterForced
  extract_lets s1 d
  have h1 : SampleStands X s s1 := by
    unfold s1
    split
    · exact .refl s
    · exact (wr s 1 (by decide)).trans (inc _ (by decide) rfl)
  clear_value s1
  exact (h1.trans (wr s1 (g := GRD_STAT_STATE) 3 (by decide))).withPw _

theorem descend (s : State) : SampleStands X s s.descend := by
  unfold State.descend
  extract_lets s1 g dark pw falling
  have h1 : SampleStands X s s1 := by
    unfold s1
    split
    · exact endForced s
    · exact .refl s
  have hdark : SampleStands X s1 dark := (wr s1 (g := GRD_STAT_STATE) 5 (by decide)).trans (noFill _)
  have hfall : SampleStands X s1 falling := wr s1 (g := GRD_STAT_STATE) 4 (by decide)
  clear_value dark falling s1 g
  refine h1.trans ?_
  split
  · split
    · exact hdark.withPw _
    · exact hfall.withPw _
  · exact hfall.withPw _

theorem govern (s : State) (p : Nat) : SampleStands X s (s.govern p) := by
  unfold State.govern
  split
  · exact .refl s
  · split
    · exact (wr s (g := GRD_STAT_STATE) 1 (by decide)).withPw _
    · exact .refl s
  · split
    · exact govOff s
    · split
      · exact descend s
      · split
        · split
          · exact wr s 2 (by decide)
          · exact .refl s
        · extract_lets why s1
          have h1 : SampleStands X s s1 := by
            unfold s1
            split
            · exact endForced s
            · exact .refl s
          clear_value s1
          split
          · exact enterForced s p why
          · exact (h1.trans (wr s1 (g := GRD_STAT_STATE) 2 (by decide))).withPw _

theorem keepE (s : State) (m : Meas) : SampleStands X s (s.keepE m) :=
  foldl fun x d _ => by
    split
    · exact .refl x
    · exact setDom x _ _

theorem showGrade (s : State) (f h : Nat) : SampleStands X s (s.showGrade f h) :=
  (((wr s _ (by decide)).trans (wr _ _ (by decide))).trans (wr _ _ (by decide))).trans (wr _ _ (by decide))

theorem sampleGrade (s : State) (m : Meas) : SampleStands X s (s.sampleGrade m) := by
  unfold State.sampleGrade
  extract_lets s1 f h sum idle pw s2 s3 pw3
  have h1 : SampleStands X s s1 := keepE s m
  clear_value s1 f h sum idle
  have h2 : SampleStands X s s2 := h1.trans (of_same rfl rfl)
  clear_value s2
  have h3 : SampleStands X s s3 := h2.trans (((of_same rfl rfl : SampleStands X s2 s2.capStep).trans (govern _ _)).trans (showGrade _ _ _))
  clear_value s3
  exact h3.trans (of_same rfl rfl)

theorem boostRegion (s : State) (m : Meas) (n : Nat) : SampleStands X s (s.boostRegion m n) := by
  unfold State.boostRegion
  extract_lets g doms core
  have hset : ∀ b : Bool, ∀ step, SampleStands X s (s.setRegion n (if b then g.reqStep 2 step else g)) := fun b step =>
    setRegion s (.inr fun f _ => by split <;> rfl)
  split
  · exact .refl s
  · split
    · exact hset _ _
    · split
      · exact hset _ _
      · split
        · exact reqStep s n _ _
        · exact .refl s

theorem nextSample (s : State) : SampleStands X s s.nextSample :=
  allDoms s fun x _ _ _ => (setDom x _ _).trans (setDom _ _ _)

theorem showEsc (s : State) : SampleStands X s s.showEsc := by
  unfold State.showEsc
  extract_lets e s1
  have h1 : SampleStands X s s1 := of_same rfl rfl
  clear_value s1
  exact h1.trans (wr s1 _ (by decide))

end SampleStands

/-! ## The trip (R434) -/

/-- With every junction below 115 °C the device does not trip. -/
theorem State.trip_cool {s : State} {m : Meas} (hub : m.hubT < 115) (hall : ∀ x ∈ m.tj, x < 115) : s.trip m = s := by
  refine if_neg ?_
  have hany : m.tj.any (fun t => decide (115 ≤ t)) = false := by simpa using hall
  simp [hany]
  omega

/-- Every region. -/
abbrev anyRegion : Nat → Prop := fun _ => True

namespace SampleStands

theorem of_power {s t : State} (h : t.hub.of .power = s.hub.of .power) : SampleStands anyRegion s t := by
  have hu : ∀ f ∈ sampleFields, f.unit = .power := by decide
  exact ⟨fun _ hn => absurd trivial hn, fun f hf => State.rd_of_hubOf (by rw [hu f hf, h]) _ _⟩

theorem railsOff (s : State) : SampleStands anyRegion s s.railsOff := by
  unfold State.railsOff
  extract_lets esc fit hub pw mc s1 s2
  have h1 : SampleStands anyRegion s s1 := of_power rfl
  clear_value s1
  have h2 : SampleStands anyRegion s s2 := h1.trans (foldl fun x fn _ => of_power (by rw [x.fnReset_only fn]))
  clear_value s2
  exact ((h2.trans (wr s2 0 (by decide))).trans (wr _ 0 (by decide))).trans (wr _ 0 (by decide))

theorem govStop {X : Nat → Prop} (s : State) : SampleStands X s s.govStop := by
  unfold State.govStop
  split
  · exact .refl s
  · exact (wr s (g := GRD_STAT_STATE) 5 (by decide)).withPw _

theorem powerDown (s : State) (r : ErrRec) (halt : Bool) : SampleStands anyRegion s (s.powerDown r halt) := by
  unfold State.powerDown
  extract_lets stage s1 s2 s3
  have h2 : SampleStands anyRegion s s2 := ((raise s r).trans (railsOff _)).trans (govStop _)
  clear_value s2
  split
  · exact (h2.trans (wr s2 1 (by decide))).trans (raise _ _)
  · split
    · exact h2
    · split
      · exact (h2.trans (wr s2 7 (by decide))).trans (wr _ 1 (by decide))
      · split
        · exact h2
        · have h3 : SampleStands anyRegion s s3 :=
            ((h2.trans (wr s2 0 (by decide))).trans (wr _ 0 (by decide))).trans (wr _ 0 (by decide))
          clear_value s3
          exact ((h3.trans (wr s3 (g := BRUP_KAT_RETRIES) (i := 0) (j := 0) 0 (by decide))).trans
            (wr _ (g := BRUP_STAT_STAGE) (i := 0) (j := 0) 1 (by decide))).trans (of_same rfl rfl)

theorem trip (s : State) (m : Meas) : SampleStands anyRegion s (s.trip m) := by
  unfold State.trip
  split
  · exact (powerDown s _ _).withPw _
  · exact .refl s

end SampleStands

/-! ## The input (R411, R423) -/

/-- The measurements of the input and the sample number. -/
def inputFields : List Field := [PWR_SAMPLE_N, PWR_IN_V_V, PWR_IN_I_I, PWR_IN_P_P]

theorem State.mainIn_shows (s : State) : s.mainIn.bit PWR_IN_STAT_MAINOK = true ∧ ∀ f ∈ inputFields, s.mainIn.rd f = s.rd f := by
  have hap : ∀ g ∈ [PWR_IN_STAT_MAINOK, PWR_IBC_IBCOK, PWR_IBC_HBCOK, PWR_IBC_HCOK, BRUP_STAT_STAGE], ∀ f ∈ inputFields,
      g.hubApart f 0 0 0 0 = true := by decide
  have hw {g : Field} (hg : g ∈ [PWR_IN_STAT_MAINOK, PWR_IBC_IBCOK, PWR_IBC_HBCOK, PWR_IBC_HCOK, BRUP_STAT_STAGE]) (t : State) (v : Nat) :
      ∀ f ∈ inputFields, (t.wr g v).rd f = t.rd f := fun f hf => State.rd_wr_apart _ _ _ _ _ _ _ _ (hap g hg f hf)
  unfold State.mainIn
  extract_lets s1 s2 s3
  have h1 : s1.bit PWR_IN_STAT_MAINOK = true ∧ ∀ f ∈ inputFields, s1.rd f = s.rd f :=
    ⟨State.bit_wr_self _ _ _ _ _ (by decide), hw (by decide) s 1⟩
  clear_value s1
  split
  · refine ⟨?_, fun f hf => ?_⟩
    · refine Eq.trans ?_ h1.1
      exact (State.bit_wr_apart _ _ _ _ _ _ _ _ (by decide)).trans ((State.bit_wr_apart _ _ _ _ _ _ _ _ (by decide)).trans
        ((State.bit_wr_apart _ _ _ _ _ _ _ _ (by decide)).trans (State.bit_wr_apart _ _ _ _ _ _ _ _ (by decide))))
    · refine Eq.trans ?_ (h1.2 f hf)
      exact (hw (by decide) _ _ f hf).trans ((hw (by decide) _ _ f hf).trans ((hw (by decide) _ _ f hf).trans (hw (by decide) s1 _ f hf)))
  · exact h1

/-- Whether the input is in range, and the measurements. -/
theorem State.sampleInput_shows (s : State) (m : Meas) :
    (s.sampleInput m).bit PWR_IN_STAT_MAINOK = decide (40000 ≤ m.inV ∧ m.inV ≤ 60000) ∧
    ∀ f ∈ inputFields, (s.sampleInput m).rd f = s.rd f := by
  have hsub : ∀ f ∈ inputFields, f ∈ sampleFields := by decide
  have hap : ∀ f ∈ inputFields, PWR_IN_STAT_MAINOK.hubApart f 0 0 0 0 = true := by decide
  unfold State.sampleInput
  extract_lets mc s1 s2 s3 pw pw2
  have h1 : SampleStands noRegion s s1 := by
    unfold s1
    split
    · exact .of_same rfl rfl
    · exact .refl s
  clear_value s1
  have h2 : s2.bit PWR_IN_STAT_MAINOK = decide (40000 ≤ m.inV ∧ m.inV ≤ 60000) ∧ ∀ f ∈ inputFields, s2.rd f = s.rd f := by
    unfold s2
    split
    · next h =>
      obtain ⟨hmain, hrest⟩ := s1.mainIn_shows
      exact ⟨hmain.trans (decide_eq_true h).symm, fun f hf => (hrest f hf).trans (h1.hub f (hsub f hf))⟩
    · next h =>
      exact ⟨(State.bit_wr_self _ _ _ _ _ (by decide)).trans (decide_eq_false h).symm,
        fun f hf => (State.rd_wr_apart _ _ _ _ _ _ _ _ (hap f hf)).trans (h1.hub f (hsub f hf))⟩
  clear_value s2
  have hlast : ∀ t, SampleStands noRegion s2 t → t.bit PWR_IN_STAT_MAINOK = decide (40000 ≤ m.inV ∧ m.inV ≤ 60000) ∧
      ∀ f ∈ inputFields, t.rd f = s.rd f := fun t ht =>
    ⟨(congrArg (· != 0) (ht.hub PWR_IN_STAT_MAINOK (by decide))).trans h2.1, fun f hf => (ht.hub f (hsub f hf)).trans (h2.2 f hf)⟩
  split
  · split
    · exact h2
    · exact hlast _ (((SampleStands.wr s2 (g := PWR_IN_STAT_UVW) (i := 0) (j := 0) 1 (by decide)).trans (.raise _ _)).withPw _)
  · exact hlast _ ((SampleStands.refl s2).withPw _)

/-- The registers of the input take the sample's values. -/
theorem State.sampleRegs_shows (s : State) (m : Meas) :
    (s.sampleRegs m).rd PWR_SAMPLE_N = min (s.rd PWR_SAMPLE_N + 1) 0xFFFFFFFF ∧
    (s.sampleRegs m).rd PWR_IN_V_V = min (nearest m.inV 10) 0xFFFF ∧ (s.sampleRegs m).rd PWR_IN_I_I = min (nearest m.inI 100) 0xFFFF ∧
    (s.sampleRegs m).rd PWR_IN_P_P = min (nearest m.inP 1000) 0xFFFF := by
  have hw16 : ∀ x, min x 0xFFFF % 2 ^ 16 = min x 0xFFFF := fun x => Nat.mod_eq_of_lt (by omega)
  have hw32 : ∀ x, min x 0xFFFFFFFF % 2 ^ 32 = min x 0xFFFFFFFF := fun x => Nat.mod_eq_of_lt (by omega)
  unfold State.sampleRegs
  extract_lets s1 s2 pw s3 s4
  have h1 : s1.rd PWR_SAMPLE_N = s.rd PWR_SAMPLE_N ∧ s1.rd PWR_IN_V_V = min (nearest m.inV 10) 0xFFFF ∧
      s1.rd PWR_IN_I_I = min (nearest m.inI 100) 0xFFFF ∧ s1.rd PWR_IN_P_P = min (nearest m.inP 1000) 0xFFFF :=
    ⟨(State.rd_wr_apart _ _ _ _ _ _ _ _ (by decide)).trans ((State.rd_wr_apart _ _ _ _ _ _ _ _ (by decide)).trans
        (State.rd_wr_apart _ _ _ _ _ _ _ _ (by decide))),
      (State.rd_wr_apart _ _ _ _ _ _ _ _ (by decide)).trans ((State.rd_wr_apart _ _ _ _ _ _ _ _ (by decide)).trans
        ((State.rd_wr_self _ _ _ _ _ (by decide)).trans (hw16 _))),
      (State.rd_wr_apart _ _ _ _ _ _ _ _ (by decide)).trans ((State.rd_wr_self _ _ _ _ _ (by decide)).trans (hw16 _)),
      (State.rd_wr_self _ _ _ _ _ (by decide)).trans (hw16 _)⟩
  clear_value s1
  obtain ⟨hn, hv, hi, hp⟩ := h1
  have h2 : s2.rd PWR_SAMPLE_N = min (s.rd PWR_SAMPLE_N + 1) 0xFFFFFFFF ∧ s2.rd PWR_IN_V_V = s1.rd PWR_IN_V_V ∧
      s2.rd PWR_IN_I_I = s1.rd PWR_IN_I_I ∧ s2.rd PWR_IN_P_P = s1.rd PWR_IN_P_P :=
    ⟨(State.rd_wr_self _ _ _ _ _ (by decide)).trans ((hw32 _).trans (by rw [hn])), State.rd_wr_apart _ _ _ _ _ _ _ _ (by decide),
      State.rd_wr_apart _ _ _ _ _ _ _ _ (by decide), State.rd_wr_apart _ _ _ _ _ _ _ _ (by decide)⟩
  clear_value s2
  have h3 : SampleStands anyRegion s2 s3 := .of_same rfl rfl
  clear_value s3
  have h4 : SampleStands anyRegion s2 s4 := h3.trans (.allDoms s3 fun x n k _ => .setRegion x (.inl trivial))
  clear_value s4
  have hrest := h4.trans (.foldl (l := List.range 24) (f := fun (s : State) n =>
    s.setRegion n ((s.region n).wr PWR_FAB_IAVG (min (nearest (m.fab.getD n 0) 125) 0xFFF))) fun x n _ => .setRegion x (.inl trivial))
  obtain ⟨hn2, hv2, hi2, hp2⟩ := h2
  exact ⟨(hrest.hub _ (by decide)).trans hn2, (hrest.hub _ (by decide)).trans (hv2.trans hv), (hrest.hub _ (by decide)).trans (hi2.trans hi),
    (hrest.hub _ (by decide)).trans (hp2.trans hp)⟩

/-! ## The whole sample -/

/-- The sample once temperatures are shown, up to the trip. -/
theorem SampleStands.afterTherm {X : Nat → Prop} (s : State) (m : Meas) : SampleStands X s
    ((List.range 24).foldl (fun (s : State) n => s.boostRegion m n) (s.sampleCurrent.sampleGrade m)).nextSample.showEsc := by
  have h := (SampleStands.sampleCurrent (X := X) s).trans (.sampleGrade s.sampleCurrent m)
  generalize s.sampleCurrent.sampleGrade m = x at *
  have hboost := h.trans (.foldl (l := List.range 24) (f := fun (s : State) n => s.boostRegion m n) fun y n _ => .boostRegion y m n)
  generalize (List.range 24).foldl (fun (s : State) n => s.boostRegion m n) x = y at *
  exact (hboost.trans (.nextSample y)).trans (.showEsc _)

/-- The sample up to its thermal control. -/
def State.sampled (s : State) (m : Meas) : State := ((s.sampleRegs m).sampleInput m).sampleTherm m

theorem exec_powerSample (m : Meas) {s : State} (h : s.bit PWR_IN_STAT_AUXOK = true) : exec (.powerSample m) s =
    .next (((((List.range 24).foldl (fun (s : State) n => s.boostRegion m n)
      ((s.sampled m).sampleCurrent.sampleGrade m)).nextSample.showEsc).trip m).showPower) := if_pos h

/-- What stands in the state before the trip. -/
theorem State.sampled_shows (s : State) (m : Meas) : ((s.sampled m).bit PWR_IN_STAT_MAINOK = decide (40000 ≤ m.inV ∧ m.inV ≤ 60000) ∧
    ∀ f ∈ inputFields, (s.sampled m).rd f = (s.sampleRegs m).rd f) ∧
    ∀ n, n < 24 → ((s.sampled m).region n).rd THM_RGN_TJ = min (m.tj.getD n 0) 255 ∧
      ((s.sampled m).region n).rd THM_RGN_TS = min (m.ts.getD n 0) 255 := by
  obtain ⟨hmain, hin⟩ := (s.sampleRegs m).sampleInput_shows m
  unfold State.sampled
  generalize (s.sampleRegs m).sampleInput m = x at *
  have hregions := fun n hn => x.temps_thermRegions m (n := n) hn
  have hall : SampleStands anyRegion x ((List.range 24).foldl (fun (s : State) n => s.thermRegion m n) x) :=
    .foldl fun y n _ => (SampleStands.thermOthers y m n).mono fun _ _ => trivial
  have htherm := SampleStands.sampleTherm (X := noRegion) x m
  generalize (List.range 24).foldl (fun (s : State) n => s.thermRegion m n) x = y at *
  have hhub : ∀ f ∈ sampleFields, (x.sampleTherm m).rd f = x.rd f := fun f hf => (htherm.hub f hf).trans (hall.hub f hf)
  have hsub : ∀ f ∈ inputFields, f ∈ sampleFields := by decide
  refine ⟨⟨(congrArg (· != 0) (hhub PWR_IN_STAT_MAINOK (by decide))).trans hmain, fun f hf => (hhub f (hsub f hf)).trans (hin f hf)⟩,
    fun n hn => ?_⟩
  obtain ⟨htj, hts⟩ := hregions n hn
  exact ⟨(htherm.temps n id _ (by decide)).trans htj, (htherm.temps n id _ (by decide)).trans hts⟩

/-- The clauses about a sample. -/
theorem powerSample_shows (m : Meas) (s : State) (haux : s.bit PWR_IN_STAT_AUXOK = true) : ∃ t, exec (.powerSample m) s = .next t ∧
    t.rd PWR_SAMPLE_N = min (s.rd PWR_SAMPLE_N + 1) 0xFFFFFFFF ∧ t.rd PWR_IN_V_V = min (nearest m.inV 10) 0xFFFF ∧
    t.rd PWR_IN_I_I = min (nearest m.inI 100) 0xFFFF ∧ t.rd PWR_IN_P_P = min (nearest m.inP 1000) 0xFFFF ∧
    t.bit PWR_IN_STAT_MAINOK = decide (40000 ≤ m.inV ∧ m.inV ≤ 60000) ∧
    (m.hubT < 115 → (∀ x ∈ m.tj, x < 115) → ∀ n, n < 24 →
      (t.region n).rd THM_RGN_TJ = m.tj.getD n 0 ∧ (t.region n).rd THM_RGN_TS = min (m.ts.getD n 0) 255) := by
  obtain ⟨hn, hv, hi, hp⟩ := s.sampleRegs_shows m
  obtain ⟨⟨hmain, hin⟩, htemps⟩ := s.sampled_shows m
  refine ⟨_, exec_powerSample m haux, ?_⟩
  have hafter := SampleStands.afterTherm (X := noRegion) (s.sampled m) m
  generalize ((List.range 24).foldl (fun (s : State) n => s.boostRegion m n)
    ((s.sampled m).sampleCurrent.sampleGrade m)).nextSample.showEsc = x at *
  have htrip := (SampleStands.trip x m).trans (.showPower _)
  have hhub : ∀ f ∈ sampleFields, (x.trip m).showPower.rd f = (s.sampled m).rd f := fun f hf =>
    (htrip.hub f hf).trans (hafter.hub f hf)
  have hin2 : ∀ f ∈ inputFields, f ∈ sampleFields → (x.trip m).showPower.rd f = (s.sampleRegs m).rd f := fun f hf hf' =>
    (hhub f hf').trans (hin f hf)
  refine ⟨(hin2 _ (by decide) (by decide)).trans hn, (hin2 _ (by decide) (by decide)).trans hv, (hin2 _ (by decide) (by decide)).trans hi,
    (hin2 _ (by decide) (by decide)).trans hp, (congrArg (· != 0) (hhub PWR_IN_STAT_MAINOK (by decide))).trans hmain,
    fun hub hall n hn24 => ?_⟩
  obtain ⟨htj, hts⟩ := htemps n hn24
  have hcool : m.tj.getD n 0 < 115 := by
    rw [List.getD_eq_getElem?_getD]
    cases hget : m.tj[n]? with
    | none => exact (by decide : 0 < 115)
    | some y => exact hall y (List.mem_of_getElem? hget)
  rw [State.trip_cool hub hall, State.region_showPower, hafter.temps n id _ (by decide), hafter.temps n id _ (by decide), htj, hts]
  exact ⟨Nat.min_eq_left (by omega), rfl⟩

/-- Settles O55. -/
theorem samplesWindowsAndIntervals : Obligations.SamplesWindowsAndIntervals := by
  unfold Obligations.SamplesWindowsAndIntervals
  refine ⟨powerSample_shows, domainWindow_shows, ibcWindow_shows, controlInterval_shows, fun m draws s h => ?_⟩
  exact ⟨if_neg (by simp [h]), if_neg (by simp [h])⟩

end Sys2Proof.Machine
